-- ==== Sys2Proof/Word.lean ====
section
/-!
DEFINITION. The word types of the block: bytes, 32-bit and 64-bit registers, and the bit-field
reads of R12 (bit 0 is least significant, a range is written [hi:lo] with both ends included).
-/

namespace Sys2Proof

/-- A byte of memory. -/
abbrev Byte := BitVec 8
/-- A 64-bit register, instruction word or guarded value. -/
abbrev Word := BitVec 64
/-- A 32-bit value: an FP32 code, an event counter. -/
abbrev Word32 := BitVec 32
/-- A well, numbered 0 to 11 (R13). -/
abbrev WellId := Fin 12
/-- A physical bobbin of a well, numbered 0 to 135 (R13). -/
abbrev PhysId := Fin 136
/-- A logical bobbin of a well, numbered 0 to 127 (R13). -/
abbrev LogId := Fin 128

/-- Bits [hi:lo] of a word, as a number (R12). -/
def bitsOf (w : Word) (hi lo : Nat) : Nat := (w.toNat >>> lo) % 2 ^ (hi - lo + 1)

/-- Bit i of a word. -/
def bitOf (w : Word) (i : Nat) : Bool := w.toNat.testBit i

/-- A number of n bits read as two's complement. -/
def signedOf (n v : Nat) : Int := if v < 2 ^ (n - 1) then (v : Int) else (v : Int) - (2 ^ n : Nat)

end Sys2Proof
end

