-- ==== Sys2Proof/Machine/Table.lean ====
section
/-!
DEFINITION. Sparse tables: a list of (key, value) pairs with keys strictly rising and no entry equal to the
default an unlisted key reads as. Memories, register files and arrays of units are such tables, so that
equal contents are equal data.
-/

namespace Sys2Proof.Machine

/-- A sparse table from Nat keys. -/
abbrev Tab (α : Type) := List (Nat × α)

/-- The value at key k, the default where k is not listed. -/
def tabGet {α : Type} (d : α) : Tab α → Nat → α
  | [], _ => d
  | (j, v) :: t, k => if j = k then v else tabGet d t k

/-- The table without key k. -/
def tabErase {α : Type} (t : Tab α) (k : Nat) : Tab α := t.filter (fun p => p.1 != k)

/-- Insert or replace key k, in order. -/
def tabIns {α : Type} : Tab α → Nat → α → Tab α
  | [], k, v => [(k, v)]
  | (j, u) :: t, k, v =>
    if k < j then (k, v) :: (j, u) :: t
    else if k = j then (k, v) :: t
    else (j, u) :: tabIns t k v

/-- Write v at key k: a value equal to the default is not listed. -/
def tabPut {α : Type} [DecidableEq α] (d : α) (t : Tab α) (k : Nat) (v : α) : Tab α :=
  if v = d then tabErase t k else tabIns t k v

/-- Keys strictly rise from a lower bound. -/
def tabRising {α : Type} : Nat → Tab α → Bool
  | _, [] => true
  | b, (j, _) :: t => decide (b ≤ j) && tabRising (j + 1) t

/-- The canonical form: keys strictly rising, no default listed. -/
def tabWf {α : Type} [DecidableEq α] (d : α) (t : Tab α) : Bool :=
  tabRising 0 t && t.all (fun p => !decide (p.2 = d))

/-- The table without the keys that satisfy p. -/
def tabDrop {α : Type} (p : Nat → Bool) (t : Tab α) : Tab α := t.filter (fun e => !p e.1)

/-- Change the value at key k by f. -/
def tabMod {α : Type} [DecidableEq α] (d : α) (t : Tab α) (k : Nat) (f : α → α) : Tab α :=
  tabPut d t k (f (tabGet d t k))

/-- Every listed value changed by f. -/
def tabMap {α : Type} [DecidableEq α] (d : α) (f : Nat → α → α) (t : Tab α) : Tab α :=
  t.foldl (fun acc e => tabPut d acc e.1 (f e.1 e.2)) []

/-- The keys a table lists. -/
def tabKeys {α : Type} (t : Tab α) : List Nat := t.map Prod.fst

end Sys2Proof.Machine
end

