-- ==== Sys2Proof/Machine/Saved.lean ====
section
/-!
DEFINITION. What a checkpoint saves (R270, R682 to R685): its list, the codec sessions of its job, and the saved state.
-/

namespace Sys2Proof.Machine

/-- A checkpoint list (R682): areas, size in MiB, regions as (RETAIN, ADDR, LEN). -/
structure CpList where
  area0 : Nat := 0
  area1 : Nat := 0
  mib : Nat := 0
  regions : List (Bool × Nat × Nat) := []
deriving DecidableEq, Repr

/-- A codec session (R569 to R597): its job and record, the record's words, its core, the session block's fields, READY
as last read and when, the fullness F of R582 times 90,000 × FPS_NUM, and the pictures coded so far as (frame, its samples
and map as R576 and R588 leave them), oldest first. -/
structure Session where
  job : Nat
  n : Nat
  words : List Word := []
  core : Option Nat := none
  state : Nat := 0
  code : Nat := 0
  done_ : Nat := 0
  bytes : Nat := 0
  pictures : Nat := 0
  reencodes : Nat := 0
  fallbacks : Nat := 0
  bad : Nat := 0
  roi : Nat := 0
  marks : Word := 0#64
  ready : Nat := 0
  readAt : Nat := 0
  full : Nat := 0
  coded : List (Nat × List Byte) := []
deriving DecidableEq, Repr

/-- The window of a reference that an encode core holds in its window cache (R590): the pool slot, the place of its top left
luma sample in the picture, and its columns, 576 of 320 luma samples and 288 of 160 chroma pairs. -/
structure RefWindow where
  slot : Nat
  x : Int
  y : Int
  luma : List (List Nat)
  chroma : List (List (Nat × Nat))
deriving DecidableEq, Repr

/-- Saved state of a checkpoint area (R684), kept apart from its bytes, whose layout is the device's own: the area,
CPSEQ, collective counts by well, guard totals and the widened flag, and the noise state. -/
structure CpSaved where
  job : Nat := 0
  area : Nat := 0
  cpseq : Nat := 0
  pass : Nat := 0
  colls : List (Nat × Tab Nat) := []
  totals : List Nat := []
  widened : Bool := false
  noiseP : Nat := 0
  noiseN : Nat := 0
  /-- The list that the checkpoint was made with, and the snapshots of the job's codec sessions (R596). -/
  list : CpList := {}
  sessions : List Session := []
deriving DecidableEq, Repr

end Sys2Proof.Machine
end

