-- ==== Sys2Proof/Syntax.lean ====
section
/-!
DEFINITION. The commands of the block: one constructor per row of the table of operations and events. An
operand names the unit that takes the step and carries what comes from outside the block (a pin, a
measurement, a frame, a written register value) or picks one of the orders the manual leaves to an arbiter.
-/

namespace Sys2Proof

/-- What an error-correcting code finds in a step: in the pillow (R140, R161), the instruction memory (R260, R277) or the
block that a scrub reads (R398), or, of a bobbin, in 64-byte block n of well v's cistern that the step reads: an error
corrected or not (R397, R399). -/
inductive EccEv where
  | clean
  | corrected
  | uncorrectable
  | block (v : Fin 12) (n : Nat) (bad : Bool)
deriving DecidableEq, Repr


/-- What a check of a connection's guarded state finds (R637, R638): sound, the primary copy wrong, or both. -/
inductive ConnEv where
  | sound
  | primary
  | both
deriving DecidableEq, Repr

/-- What a request finds at the directory (R547): sound parts, an uncorrectable directory entry, or an uncorrectable
cistern read of the line at a well that holds it. -/
inductive LineEv where
  | sound
  | entry
  | line
deriving DecidableEq, Repr

/-- What a controller's reads of a reservoir sector find (R485): the first read good, a repeat good, the last read
correctable, or not; or a check sector whose poison bits and complement disagree (R482). -/
inductive SectorEv where
  | good
  | repeated (second : Bool)
  | corrected
  | uncorrectable
  | disagree
deriving DecidableEq, Repr

/-- What the read of an aquifer page finds (R516): it decodes, it decodes at a retry level from 1, it is rebuilt, or
the rebuild fails. -/
inductive PageEv where
  | good
  | retried (level : Fin 7)
  | rebuilt
  | failed
deriving DecidableEq, Repr

/-- A frame of the Isanili link protocol (R635): the header fields and the payload. VERSION and the two checksums
are good in every frame of the model; DISCARDED_FRAME stands for the others. -/
structure Frame where
  typ : Nat := 1
  vc : Nat := 0
  op : Nat := 0
  seq : Nat := 0
  len : Nat := 0
  epoch : Nat := 0
  tag : Nat := 0
  src : Nat := 0
  dst : Nat := 0
  ctx : Nat := 0
  rstat : Nat := 0
  credit : Nat := 0
  offset : Nat := 0
  addr : Nat := 0
  payload : List Byte := []
deriving DecidableEq, Repr

/-- A journal record (R613): KIND 1 ACCEPT, 2 COMMIT, 3 GENERATION. -/
structure JRec where
  kind : Nat
  queue : Nat
  gen : Nat
  seq : Nat := 0
  prio : Nat := 0
  psize : Nat := 0
  arg : Nat := 0
  root : Nat := 0
  tb : Nat := 0
  status : Nat := 0
  reason : Nat := 0
  widened : Bool := false
  passes : Nat := 0
  addr : Nat := 0
deriving DecidableEq, Repr

/-- A completion entry without its PHASE (R614): TYPE 1 ACCEPT, 2 COMPLETE. -/
structure CEntry where
  typ : Nat
  dup : Bool := false
  widened : Bool := false
  stale : Bool := false
  gen : Nat
  status : Nat := 0
  reason : Nat := 0
  seq : Nat
  queue : Nat
  addr : Nat := 0
  passes : Nat := 0
  tbAccept : Nat := 0
  tbEnd : Nat := 0
deriving DecidableEq, Repr

/-- A queue's state as a mirror carries it (R680): the completion entry and the queue after it, with the PHASE of the
entry that comes next. -/
structure QMirror where
  entry : CEntry
  sqHead : Nat
  last : Nat
  accepted : Nat
  gen : Nat
  cqTail : Nat
  phase : Bool := true
deriving DecidableEq, Repr

/-- PAIR_ID and epoch, which every pair message carries (R676, R679). -/
structure PairHdr where
  pairId : Nat
  epoch : Nat
deriving DecidableEq, Repr

/-- A mirrored checkpoint header: its job's tag and ROOT, the area and the eight fields (R684, R686). -/
structure CpHeader where
  queue : Nat
  gen : Nat
  seq : Nat
  root : Nat
  area : Nat
  fields : List Word
  /-- The saved state, whose bytes are the device's own (R684). -/
  saved : Machine.CpSaved := {}
deriving DecidableEq, Repr

/-- What a mirror acknowledgement answers (R680): a journal record, a queue mirror, the bytes of a checkpoint, or its
header. -/
inductive MirrorOf where
  | journal (kind queue gen seq : Nat)
  | queue (queue gen seq : Nat)
  | checkpoint (queue gen seq : Nat)
  | header (queue gen seq : Nat)
deriving DecidableEq, Repr

/-- A requester that stalls on host memory (R469): a stitch, its oldest store entry, a controller, a pump, a cistern unit, a
move, or a wellhead pump that serves a job. -/
inductive Waiter where
  | bobbin (w p : Nat)
  | store (w p : Nat)
  | controller (w : Nat)
  | pump (w n : Nat)
  | unit (w u : Nat)
  | move (n : Nat)
  | wellhead (j : Nat)
deriving DecidableEq, Repr

/-- What the configuration block of the copy that boots holds (R483, R525, R789), each value as the block gives it and none
when it is absent or its guarded word fails: RV_PLACE, and the span values SP_DEVID, SP_MACp and SP_CTLp.MODE. -/
structure BootCfg where
  place : Option (BitVec 6) := none
  span : Option (BitVec 12 × List (BitVec 48) × BitVec 8) := none
deriving DecidableEq, Repr

/-- What a sweep of the sensor chain collects (R766, R769): hottest junction and supply of each die in order, the coolant
sensors, and the sweep's duration in microseconds. -/
structure Sweep where
  dies : List (BitVec 10 × BitVec 12)
  inlet : BitVec 16
  outlet : BitVec 16
  dur : BitVec 16
deriving DecidableEq, Repr

/-- A report to the fault collector (R756): source, class, severity, reporter, unit concerned, detail. -/
structure ReportIn where
  src : Fin 25
  cls : Fin 16
  sev : Fin 4
  rsrc : Fin 25
  runit : BitVec 8
  unit : BitVec 8
  detail : BitVec 56
deriving DecidableEq, Repr

/-- A pair message (R680). Its bytes are the device's own, so the model carries its content. -/
inductive PairMsg where
  | hello (member : Nat) (qown : Word) (ucode : Nat)
  | syncDone
  | journal (rec : JRec) (q : Option QMirror)
  | queue (q : QMirror)
  | checkpoint (queue gen seq root va : Nat) (bytes : List Byte)
  | header (h : CpHeader)
  | ack (of : MirrorOf) (ok : Bool)
  | yield
  | resetting
deriving DecidableEq, Repr


/-- The commands of the block, one constructor per row of the table of operations. -/
inductive Instr where
  /-- COLD_RESET (R738). -/
  | coldReset
  /-- WELLHEAD_DOMAIN_GOOD (R57). -/
  | wellheadDomainGood
  /-- INPUT_LOSS_SHUTDOWN (R54). -/
  | inputLossShutdown (modEn : Bool)
  /-- OVER_VOLTAGE_LOCKOUT (R71). -/
  | overVoltageLockout
  /-- INPUT_VOLTAGE_WARNING (R55). -/
  | inputVoltageWarning (high : Bool)
  /-- INPUT_POWER_SAMPLE (R52). -/
  | inputPowerSample (inst : BitVec 13) (avg1ms : BitVec 13) (avg1s : BitVec 13) (mv : BitVec 17) (ma : BitVec 17) (limited : Bool)
  /-- INPUT_LIMIT_APPLY (R55). -/
  | inputLimitApply
  /-- THERMAL_TRIP (R62). -/
  | thermalTrip (d : Fin 25)
  /-- PERST_DEASSERT (R57). -/
  | perstDeassert (half : Fin 2) (two : Bool)
  /-- PERST_ASSERT_HALF (R621). -/
  | perstAssertHalf (half : Fin 2)
  /-- FUNCTION_LEVEL_RESET (R621). -/
  | functionLevelReset (half : Fin 2)
  /-- READ_VIN (R69). -/
  | readVin
  /-- READ_IIN (R69). -/
  | readIin
  /-- READ_PIN (R69). -/
  | readPin
  /-- READ_TEMPERATURE_1 (R69). -/
  | readTemperature1
  /-- READ_TEMPERATURE_2 (R69). -/
  | readTemperature2
  /-- READ_TEMPERATURE_3 (R69). -/
  | readTemperature3
  /-- STATUS_WORD (R69). -/
  | statusWord
  /-- STATUS_INPUT (R69). -/
  | statusInput
  /-- STATUS_TEMPERATURE (R69). -/
  | statusTemperature
  /-- CLEAR_FAULTS (R69). -/
  | clearFaults
  /-- PMBUS_REVISION (R69). -/
  | pmbusRevision
  /-- MFR_ID (R69). -/
  | mfrId
  /-- SMBUS_ALERT_RESPONSE (R70). -/
  | smbusAlertResponse
  /-- BOOT_COPY_CHECKED (R746). -/
  | bootCopyChecked (readOk : Bool)
  /-- RESERVOIR_TRAINING_DONE (R478). -/
  | reservoirTrainingDone (rates : List (BitVec 8))
  /-- WELL_SELF_TEST_DONE (R751). -/
  | wellSelfTestDone (w : WellId) (fail : BitVec 136) (ctl : Bool) (cis : Bool) (us : Word32)
  /-- BOOT_COMPLETE (R747). -/
  | bootComplete (cfg : BootCfg)
  /-- WARM_RESET (R739). -/
  | warmReset (v : Word) (intact : Bool)
  /-- FIRMWARE_WATCHDOG_EXPIRY (R739). -/
  | firmwareWatchdogExpiry (intact : Bool)
  /-- TAKEOVER_RESET (R740). -/
  | takeoverReset (v : Word) (two : Bool)
  /-- WELL_RESET (R741). -/
  | wellReset (v : Word)
  /-- WELL_HANDSHAKE_WATCHDOG (R741). -/
  | wellHandshakeWatchdog (w : WellId) (part : Fin 3)
  /-- RUN_RECOVERY_IMAGE (R749). -/
  | runRecoveryImage (v : Word)
  /-- FIRMWARE_FLOOR_RAISE (R745). -/
  | firmwareFloorRaise (v : Word)
  /-- STITCH_TAKE (R315). -/
  | stitchTake (w : WellId) (p : PhysId)
  /-- STEAL_PROBE (R316). -/
  | stealProbe (w : WellId) (p : PhysId)
  /-- CROSS_WELL_STEAL_REQUEST (R320). -/
  | crossWellStealRequest (w : WellId)
  /-- BOBBIN_GROUP_POWER_UP (R157). -/
  | bobbinGroupPowerUp (w : WellId) (g : Fin 8)
  /-- BOBBIN_GROUP_ADMISSION (R158). -/
  | bobbinGroupAdmission (w : WellId) (g : Fin 8)
  /-- LDT (R197). -/
  | ldt (w : WellId) (p : PhysId) (ev : EccEv)
  /-- STT (R202). -/
  | stt (w : WellId) (p : PhysId) (ev : EccEv)
  /-- STORE_ENTRY_VISIBLE (R145). -/
  | storeEntryVisible (w : WellId) (p : PhysId)
  /-- MMA (R207). -/
  | mma (w : WellId) (p : PhysId) (ev : EccEv)
  /-- ZCLR (R209). -/
  | zclr (w : WellId) (p : PhysId)
  /-- CVT (R210). -/
  | cvt (w : WellId) (p : PhysId) (ev : EccEv)
  /-- QNT (R213). -/
  | qnt (w : WellId) (p : PhysId) (ev : EccEv)
  /-- EPI_GATE (R231). -/
  | epiGate (w : WellId) (p : PhysId) (ev : EccEv)
  /-- EPI_ADDV (R232). -/
  | epiAddv (w : WellId) (p : PhysId) (ev : EccEv)
  /-- EPI_PST (R233). -/
  | epiPst (w : WellId) (p : PhysId) (ev : EccEv)
  /-- EPI_BAS (R234). -/
  | epiBas (w : WellId) (p : PhysId) (ev : EccEv)
  /-- EPI_CONV (R235). -/
  | epiConv (w : WellId) (p : PhysId) (ev : EccEv)
  /-- EPI_RECON (R236). -/
  | epiRecon (w : WellId) (p : PhysId) (ev : EccEv)
  /-- SFN_EXP (R334). -/
  | sfnExp (w : WellId) (p : PhysId) (ev : EccEv)
  /-- SFN_LOG (R334). -/
  | sfnLog (w : WellId) (p : PhysId) (ev : EccEv)
  /-- SFN_RCP (R334). -/
  | sfnRcp (w : WellId) (p : PhysId) (ev : EccEv)
  /-- SFN_RSQRT (R334). -/
  | sfnRsqrt (w : WellId) (p : PhysId) (ev : EccEv)
  /-- RED_SUM (R239). -/
  | redSum (w : WellId) (p : PhysId) (ev : EccEv)
  /-- RED_MAX (R239). -/
  | redMax (w : WellId) (p : PhysId) (ev : EccEv)
  /-- RED_SUMSQ (R239). -/
  | redSumsq (w : WellId) (p : PhysId) (ev : EccEv)
  /-- SMX_INIT (R243). -/
  | smxInit (w : WellId) (p : PhysId)
  /-- SMX_STEP (R244). -/
  | smxStep (w : WellId) (p : PhysId) (ev : EccEv)
  /-- SMX_FOLD (R246). -/
  | smxFold (w : WellId) (p : PhysId) (ev : EccEv)
  /-- BIAS (R241). -/
  | bias (w : WellId) (p : PhysId) (ev : EccEv)
  /-- GUARD (R248). -/
  | guard (w : WellId) (p : PhysId)
  /-- GAT (R216). -/
  | gat (w : WellId) (p : PhysId) (ev : EccEv)
  /-- SCT (R218). -/
  | sct (w : WellId) (p : PhysId) (ev : EccEv)
  /-- SIG (R250). -/
  | sig (w : WellId) (p : PhysId)
  /-- WAITS (R251). -/
  | waits (w : WellId) (p : PhysId)
  /-- WAITS_SATISFIED (R251). -/
  | waitsSatisfied (w : WellId) (p : PhysId)
  /-- WAITS_LIMIT_EXPIRY (R252). -/
  | waitsLimitExpiry (w : WellId) (p : PhysId)
  /-- END (R254). -/
  | endOp (w : WellId) (p : PhysId)
  /-- STITCH_COMPLETION (R147). -/
  | stitchCompletion (w : WellId) (p : PhysId)
  /-- BOBBIN_WATCHDOG_EXPIRY (R161). -/
  | bobbinWatchdogExpiry (w : WellId) (p : PhysId)
  /-- VACANCY_MAPPING (R154). -/
  | vacancyMapping (w : WellId)
  /-- BOB_CMD_FENCE (R164). -/
  | bobCmdFence (w : WellId) (phys : Byte)
  /-- BOB_CMD_TEST (R164). -/
  | bobCmdTest (w : WellId) (phys : Byte)
  /-- BOB_TEST_DONE (R164). -/
  | bobTestDone (w : WellId) (pass : Bool)
  /-- BOB_CMD_RELEASE (R164). -/
  | bobCmdRelease (w : WellId) (phys : Byte)
  /-- ADD (R262). -/
  | addOp (w : WellId) (ev : EccEv)
  /-- SUB (R262). -/
  | subOp (w : WellId) (ev : EccEv)
  /-- AND (R262). -/
  | andOp (w : WellId) (ev : EccEv)
  /-- OR (R262). -/
  | orOp (w : WellId) (ev : EccEv)
  /-- XOR (R262). -/
  | xor (w : WellId) (ev : EccEv)
  /-- SHL (R262). -/
  | shl (w : WellId) (ev : EccEv)
  /-- SHR (R262). -/
  | shr (w : WellId) (ev : EccEv)
  /-- SRA (R262). -/
  | sra (w : WellId) (ev : EccEv)
  /-- MUL (R262). -/
  | mul (w : WellId) (ev : EccEv)
  /-- SLT (R262). -/
  | slt (w : WellId) (ev : EccEv)
  /-- SLTU (R262). -/
  | sltu (w : WellId) (ev : EccEv)
  /-- ADDI (R262). -/
  | addi (w : WellId) (ev : EccEv)
  /-- ANDI (R262). -/
  | andi (w : WellId) (ev : EccEv)
  /-- ORI (R262). -/
  | ori (w : WellId) (ev : EccEv)
  /-- XORI (R262). -/
  | xori (w : WellId) (ev : EccEv)
  /-- SHLI (R262). -/
  | shli (w : WellId) (ev : EccEv)
  /-- SHRI (R262). -/
  | shri (w : WellId) (ev : EccEv)
  /-- SRAI (R262). -/
  | srai (w : WellId) (ev : EccEv)
  /-- SLTI (R262). -/
  | slti (w : WellId) (ev : EccEv)
  /-- LI (R183). -/
  | li (w : WellId) (ev : EccEv)
  /-- LIH (R183). -/
  | lih (w : WellId) (ev : EccEv)
  /-- LDS (R263). -/
  | lds (w : WellId) (ev : EccEv)
  /-- STS (R263). -/
  | sts (w : WellId) (ev : EccEv)
  /-- LDG (R183). -/
  | ldg (w : WellId) (ev : EccEv)
  /-- BEQ (R262). -/
  | beq (w : WellId) (ev : EccEv)
  /-- BNE (R262). -/
  | bne (w : WellId) (ev : EccEv)
  /-- BLT (R262). -/
  | blt (w : WellId) (ev : EccEv)
  /-- BGE (R262). -/
  | bge (w : WellId) (ev : EccEv)
  /-- BLTU (R262). -/
  | bltu (w : WellId) (ev : EccEv)
  /-- BGEU (R262). -/
  | bgeu (w : WellId) (ev : EccEv)
  /-- JAL (R262). -/
  | jal (w : WellId) (ev : EccEv)
  /-- JR (R262). -/
  | jr (w : WellId) (ev : EccEv)
  /-- WALK_START (R266). -/
  | walkStart (w : WellId) (ev : EccEv)
  /-- ENQ_TO (R267). -/
  | enqTo (w : WellId) (ev : EccEv)
  /-- ENQ_ANY (R267). -/
  | enqAny (w : WellId) (ev : EccEv)
  /-- WAIT_WALK (R265). -/
  | waitWalk (w : WellId) (ev : EccEv)
  /-- WAIT_EVENT (R268). -/
  | waitEvent (w : WellId) (ev : EccEv)
  /-- WAIT_PUMP (R265). -/
  | waitPump (w : WellId) (ev : EccEv)
  /-- FENCE_STORE (R264). -/
  | fenceStore (w : WellId) (ev : EccEv)
  /-- FENCE_WELL (R265). -/
  | fenceWell (w : WellId) (ev : EccEv)
  /-- FENCE_PARTITION (R269). -/
  | fencePartition (w : WellId) (ev : EccEv)
  /-- CONTROLLER_STALL_RELEASE (R265). -/
  | controllerStallRelease (w : WellId)
  /-- WAIT_EVENT_LIMIT_EXPIRY (R268). -/
  | waitEventLimitExpiry (w : WellId)
  /-- WALK_RECORD_STALL_TIMEOUT (R310). -/
  | walkRecordStallTimeout (w : WellId)
  /-- CHECKPOINT (R270). -/
  | checkpoint (w : WellId) (ev : EccEv)
  /-- CHECKPOINT_COPY (R270). -/
  | checkpointCopy (j : Nat)
  /-- CHECKPOINT_DURABLE (R270). -/
  | checkpointDurable (j : Nat)
  /-- COLL_BARRIER (R272). -/
  | collBarrier (w : WellId) (ev : EccEv)
  /-- COLL_SUM (R272). -/
  | collSum (w : WellId) (ev : EccEv)
  /-- COLL_MAX (R272). -/
  | collMax (w : WellId) (ev : EccEv)
  /-- COLL_MIN (R272). -/
  | collMin (w : WellId) (ev : EccEv)
  /-- PUMP_START (R271). -/
  | pumpStart (w : WellId) (ev : EccEv)
  /-- MIG_PREFETCH (R466). -/
  | migPrefetch (w : WellId) (ev : EccEv)
  /-- MIG_DEMOTE (R466). -/
  | migDemote (w : WellId) (ev : EccEv)
  /-- MIG_PIN (R466). -/
  | migPin (w : WellId) (ev : EccEv)
  /-- MIG_UNPIN (R466). -/
  | migUnpin (w : WellId) (ev : EccEv)
  /-- HALT (R274). -/
  | halt (w : WellId) (ev : EccEv)
  /-- WALKER_PLACE_STITCH (R292). -/
  | walkerPlaceStitch (w : WellId)
  /-- SPLIT_COMBINE_ISSUE (R298). -/
  | splitCombineIssue (w : WellId)
  /-- SPLIT_COMBINE (R326). -/
  | splitCombine (w : WellId) (u : Fin 64)
  /-- LAYER_TRIGGER_COMBINE (R122). -/
  | layerTriggerCombine (j : Nat)
  /-- CU_EWISE_ADD (R408). -/
  | cuEwiseAdd (w : WellId) (u : Fin 64)
  /-- CU_EWISE_SUB (R408). -/
  | cuEwiseSub (w : WellId) (u : Fin 64)
  /-- CU_EWISE_MUL (R408). -/
  | cuEwiseMul (w : WellId) (u : Fin 64)
  /-- CU_EWISE_MAX (R408). -/
  | cuEwiseMax (w : WellId) (u : Fin 64)
  /-- CU_EWISE_MIN (R408). -/
  | cuEwiseMin (w : WellId) (u : Fin 64)
  /-- CU_EWISE_AXPBY (R408). -/
  | cuEwiseAxpby (w : WellId) (u : Fin 64)
  /-- CU_RED_SUM (R408). -/
  | cuRedSum (w : WellId) (u : Fin 64)
  /-- CU_RED_MAX (R408). -/
  | cuRedMax (w : WellId) (u : Fin 64)
  /-- CU_RED_SUMSQ (R408). -/
  | cuRedSumsq (w : WellId) (u : Fin 64)
  /-- CU_QUANT_SUPPLIED (R408). -/
  | cuQuantSupplied (w : WellId) (u : Fin 64)
  /-- CU_QUANT_COMPUTED (R408). -/
  | cuQuantComputed (w : WellId) (u : Fin 64)
  /-- CU_CONVERT (R408). -/
  | cuConvert (w : WellId) (u : Fin 64)
  /-- CU_MXIMP (R408). -/
  | cuMximp (w : WellId) (u : Fin 64)
  /-- CU_MXEXP (R408). -/
  | cuMxexp (w : WellId) (u : Fin 64)
  /-- CU_NORM_RMS (R345). -/
  | cuNormRms (w : WellId) (u : Fin 64)
  /-- CU_NORM_LAYER (R345). -/
  | cuNormLayer (w : WellId) (u : Fin 64)
  /-- CU_NORM_RMS_APPLY (R804). -/
  | cuNormRmsApply (w : WellId) (u : Fin 64)
  /-- CU_NORM_RMS_STATS (R804). -/
  | cuNormRmsStats (w : WellId) (u : Fin 64)
  /-- CU_NORM_LAYER_STATS (R804). -/
  | cuNormLayerStats (w : WellId) (u : Fin 64)
  /-- CU_NORM_LAYER_APPLY (R804). -/
  | cuNormLayerApply (w : WellId) (u : Fin 64)
  /-- CU_COMBINE (R326). -/
  | cuCombine (w : WellId) (u : Fin 64)
  /-- CU_SMXMERGE (R328). -/
  | cuSmxmerge (w : WellId) (u : Fin 64)
  /-- CU_KVRELAYOUT (R354). -/
  | cuKvrelayout (w : WellId) (u : Fin 64)
  /-- CU_VREBLOCK (R355). -/
  | cuVreblock (w : WellId) (u : Fin 64)
  /-- CU_GATHER (R408). -/
  | cuGather (w : WellId) (u : Fin 64)
  /-- CU_SCATTER (R408). -/
  | cuScatter (w : WellId) (u : Fin 64)
  /-- CU_POOL_MAX (R385). -/
  | cuPoolMax (w : WellId) (u : Fin 64)
  /-- CU_POOL_AVG (R385). -/
  | cuPoolAvg (w : WellId) (u : Fin 64)
  /-- CU_UPSAMPLE_NEAREST (R386). -/
  | cuUpsampleNearest (w : WellId) (u : Fin 64)
  /-- CU_UPSAMPLE_TRILINEAR (R386). -/
  | cuUpsampleTrilinear (w : WellId) (u : Fin 64)
  /-- CU_FILL_ZERO (R408). -/
  | cuFillZero (w : WellId) (u : Fin 64)
  /-- CU_FILL_VALUE (R408). -/
  | cuFillValue (w : WellId) (u : Fin 64)
  /-- CU_ITEM_ISSUE (R413). -/
  | cuItemIssue (w : WellId) (n : Fin 8)
  /-- CU_ITEM_COMPLETE (R417). -/
  | cuItemComplete (w : WellId) (u : Fin 64)
  /-- CISTERN_REFRESH (R396). -/
  | cisternRefresh (w : WellId) (group : Fin 64) (bank : Fin 16)
  /-- CISTERN_PATROL_SCRUB (R398). -/
  | cisternPatrolScrub (w : WellId) (block : Nat) (ev : EccEv)
  /-- CISTERN_SPLIT_APPLY (R402). -/
  | cisternSplitApply (w : WellId)
  /-- PUMP_COPY (R451). -/
  | pumpCopy (w : WellId) (n : Fin 8)
  /-- PUMP_FILL (R451). -/
  | pumpFill (w : WellId) (n : Fin 8)
  /-- PUMP_UNIT_COMPLETE (R455). -/
  | pumpUnitComplete (w : WellId) (n : Fin 8) (i : Nat)
  /-- PUMP_RESUME (R473). -/
  | pumpResume (w : WellId) (n : Fin 8)
  /-- DRAIN_TIMEOUT (R472). -/
  | drainTimeout (w : WellId)
  /-- MIGRATION_MOVE_START (R464). -/
  | migrationMoveStart
  /-- MOVE_DRAIN_DONE (R438). -/
  | moveDrainDone (n : Nat)
  /-- MOVE_COPY_COMPLETE (R464). -/
  | moveCopyComplete (n : Nat)
  /-- ACCESS_COUNT_PROMOTION (R468). -/
  | accessCountPromotion (w : WellId) (va : Word)
  /-- COUNT_WINDOW_CLEAR (R468). -/
  | countWindowClear
  /-- HOST_TIER_WAIT_EXPIRY (R469). -/
  | hostTierWaitExpiry (who : Waiter) (va : BitVec 56) (write : Bool)
  /-- TRANSLATION_MISS (R440). -/
  | translationMiss (q : Fin 13) (req : Fin 210) (c : Fin 13) (va : Word)
  /-- SHARED_WALKER_GRANT (R439). -/
  | sharedWalkerGrant
  /-- PAGE_WALK_COMPLETE (R443). -/
  | pageWalkComplete (k : Fin 16)
  /-- TR_INV_CONTEXT (R445). -/
  | trInvContext (c : Fin 16)
  /-- TR_INV_PAGE (R445). -/
  | trInvPage (c : Fin 16)
  /-- TR_HROOT_JUDGING_WRITE (R41). -/
  | trHrootJudgingWrite (v : Word) (f : Fin 2)
  /-- GETS (R534). -/
  | gets (w : WellId) (va : Word) (ev : LineEv)
  /-- GETX (R534). -/
  | getx (w : WellId) (va : Word) (ev : LineEv)
  /-- GETXF (R534). -/
  | getxf (w : WellId) (va : Word) (ev : LineEv)
  /-- PUTM (R534). -/
  | putm (w : WellId) (line : BitVec 34)
  /-- PUTE (R534). -/
  | pute (w : WellId) (line : BitVec 34)
  /-- NONALLOCATING_READ (R530). -/
  | nonallocatingRead (line : BitVec 34) (ev : LineEv)
  /-- NONALLOCATING_WRITE (R530). -/
  | nonallocatingWrite (line : BitVec 34) (ev : LineEv)
  /-- RESERVOIR_SECTOR_READ (R485). -/
  | reservoirSectorRead (n : BitVec 36) (p : Fin 14) (chk : Bool) (ev : SectorEv)
  /-- RESERVOIR_SECTOR_WRITE (R486). -/
  | reservoirSectorWrite (n : BitVec 36) (o : Fin 64) (bytes : List Byte) (p : Fin 14) (ev : SectorEv)
  /-- SLUICE_TICK (R492). -/
  | sluiceTick
  /-- RESERVOIR_PATROL_SCRUB (R488). -/
  | reservoirPatrolScrub (n : BitVec 36) (ev : SectorEv)
  /-- DRIFT_COMPENSATION (R489). -/
  | driftCompensation (k : Fin 36) (ch : Fin 4)
  /-- MR4_READ (R503). -/
  | mr4Read (k : Fin 36) (code : Fin 32) (above : Bool)
  /-- RV_FENCE_CMD (R496). -/
  | rvFenceCmd (v : Word)
  /-- EVACUATION_GRANULE_COPY (R499). -/
  | evacuationGranuleCopy (k : Fin 36) (g : Nat) (evs : List (Fin 64 × SectorEv))
  /-- EVACUATION_COMPLETE (R500). -/
  | evacuationComplete (k : Fin 36)
  /-- RESERVOIR_SELF_REFRESH_EXIT (R502). -/
  | reservoirSelfRefreshExit
  /-- RV_PLACE_COMMIT (R483). -/
  | rvPlaceCommit (v : Word) (f : Fin 2)
  /-- AQUIFER_READ_ENTRY (R513). -/
  | aquiferReadEntry (q : Fin 13) (a : Nat) (n : Fin 5) (src : Fin 4)
  /-- AQUIFER_PAGE_READ (R516). -/
  | aquiferPageRead (k : Fin 12) (ev : PageEv)
  /-- AQUIFER_PACKAGE_LOST (R517). -/
  | aquiferPackageLost (k : Fin 12)
  /-- AQ_FENCE_CMD (R526). -/
  | aqFenceCmd (v : Word)
  /-- IMAGE_ROW_WRITE (R521). -/
  | imageRowWrite (j : Nat)
  /-- JOURNAL_PROGRAM (R524). -/
  | journalProgram
  /-- JOURNAL_DURABLE (R524). -/
  | journalDurable
  /-- INPUT_RECORD_FILL (R555). -/
  | inputRecordFill (j : Nat)
  /-- NOISE_FILL (R561). -/
  | noiseFill (j : Nat)
  /-- NOISE_FILL_DONE (R561). -/
  | noiseFillDone (j : Nat)
  /-- CODEC_SESSION_BIND (R571). -/
  | codecSessionBind
  /-- ENCODE_PICTURE (R583). -/
  | encodePicture (i : Fin 2)
  /-- DECODE_PICTURE (R577). -/
  | decodePicture (i : Fin 2)
  /-- SESSION_READY_REREAD (R578). -/
  | sessionReadyReread (j : Nat) (n : Fin 4)
  /-- SESSION_END (R594). -/
  | sessionEnd (j : Nat) (n : Fin 4)
  /-- DOORBELL (R606). -/
  | doorbell (q : Fin 64) (tail : BitVec 16) (f : Fin 2)
  /-- SUBMISSION_FETCH (R606). -/
  | submissionFetch (q : Fin 64) (ok : Bool)
  /-- QUEUE_ERROR_CLEAR (R606). -/
  | queueErrorClear (q : Fin 64) (v : Fin 8) (f : Fin 2)
  /-- JOB_LOADER_VERIFY (R304). -/
  | jobLoaderVerify (j : Nat)
  /-- JOB_ACCEPT (R611). -/
  | jobAccept (j : Nat)
  /-- COMPLETION_ENTRY_WRITE (R614). -/
  | completionEntryWrite (q : Fin 64)
  /-- WAITING_ENTRY_DRAIN (R617). -/
  | waitingEntryDrain (q : Fin 64)
  /-- MSI_X_SIGNAL (R629). -/
  | msiXSignal (q : Fin 64)
  /-- COALESCE_TIMER_EXPIRY (R629). -/
  | coalesceTimerExpiry (q : Fin 64)
  /-- QUEUE_RESET (R620). -/
  | queueReset (q : Fin 64) (v : Word) (f : Fin 2)
  /-- QUEUE_ABORT (R628). -/
  | queueAbort (v : Word)
  /-- JN_QUERY_LOOKUP (R630). -/
  | jnQueryLookup (v : Word)
  /-- BAR2_READ (R603). -/
  | bar2Read (f : Fin 2) (o : BitVec 36) (n : Fin 4097)
  /-- BAR2_WRITE (R603). -/
  | bar2Write (f : Fin 2) (o : BitVec 36) (bytes : List Byte)
  /-- JOB_BIND (R623). -/
  | jobBind
  /-- PREEMPTION (R627). -/
  | preemption (j : Nat)
  /-- PARTITION_QUIESCENT (R627). -/
  | partitionQuiescent (j : Nat)
  /-- JOB_END_COMMIT (R615). -/
  | jobEndCommit (j : Nat)
  /-- JOB_ROLLBACK (R185). -/
  | jobRollback (j : Nat)
  /-- WELL_LOSS (R774). -/
  | wellLoss (w : WellId) (cause : Fin 16)
  /-- JOB_REBUILD (R776). -/
  | jobRebuild (j : Nat)
  /-- TILE_FRAME (R645). -/
  | tileFrame (p : Fin 9) (f : Frame)
  /-- RD_REQ_FRAME (R645). -/
  | rdReqFrame (p : Fin 9) (f : Frame)
  /-- RD_RESP_FRAME (R647). -/
  | rdRespFrame (p : Fin 9) (f : Frame)
  /-- WR_FRAME (R645). -/
  | wrFrame (p : Fin 9) (f : Frame)
  /-- WR_ACK_FRAME (R646). -/
  | wrAckFrame (p : Fin 9) (f : Frame)
  /-- MGMT_FRAME (R645). -/
  | mgmtFrame (p : Fin 9) (f : Frame)
  /-- ILP_DATA_SEND (R641). -/
  | ilpDataSend (p : Fin 9) (peer : Fin 4096) (vc : Fin 4) (g : ConnEv)
  /-- ILP_ACK (R640). -/
  | ilpAck (p : Fin 9) (f : Frame)
  /-- ILP_NAK (R641). -/
  | ilpNak (p : Fin 9) (f : Frame)
  /-- ILP_HELLO (R651). -/
  | ilpHello (p : Fin 9) (f : Frame)
  /-- ILP_RESYNC (R652). -/
  | ilpResync (p : Fin 9) (f : Frame)
  /-- ACK_DELAY_EXPIRY (R640). -/
  | ackDelayExpiry (p : Fin 9) (peer : Fin 4096) (vc : Fin 4)
  /-- RTO_EXPIRY (R643). -/
  | rtoExpiry (p : Fin 9) (peer : Fin 4096) (vc : Fin 4)
  /-- PORT_DOWN (R649). -/
  | portDown (p : Fin 9)
  /-- PORT_UP (R650). -/
  | portUp (p : Fin 9) (lanes : BitVec 8)
  /-- HELLO_TIMER (R651). -/
  | helloTimer (p : Fin 9) (peer : Fin 4096) (vc : Fin 4)
  /-- HOLD_EXPIRY (R651). -/
  | holdExpiry (p : Fin 9) (peer : Fin 4096) (vc : Fin 4)
  /-- RESYNC_WAIT_EXPIRY (R652). -/
  | resyncWaitExpiry (p : Fin 9) (peer : Fin 4096) (vc : Fin 4)
  /-- TAG_QUARANTINE_RELEASE (R648). -/
  | tagQuarantineRelease (p : Fin 9) (peer : Fin 4096) (pair : Fin 8192)
  /-- SP_RT_CMD_GO (R653). -/
  | spRtCmdGo (v : Word)
  /-- SP_COMMIT (R788). -/
  | spCommit (v : Word)
  /-- COLL_FRAME (R659). -/
  | collFrame (p : Fin 9) (f : Frame)
  /-- COLL_RESULT_FRAME (R660). -/
  | collResultFrame (p : Fin 9) (f : Frame)
  /-- COLL_ABORT_FRAME (R663). -/
  | collAbortFrame (p : Fin 9) (f : Frame)
  /-- COLL_DEADLINE_EXPIRY (R662). -/
  | collDeadlineExpiry (i : Nat)
  /-- COLL_GRACE_EXPIRY (R664). -/
  | collGraceExpiry (i : Nat)
  /-- PAIR_FORMATION_START (R676). -/
  | pairFormationStart (v : Word)
  /-- PAIR_HELLO (R676). -/
  | pairHello (h : PairHdr) (member : Fin 2) (qown : Word) (ucode : BitVec 16)
  /-- SYNC_DONE (R676). -/
  | syncDone (h : PairHdr)
  /-- JOURNAL_MIRROR (R680). -/
  | journalMirror (h : PairHdr) (r : JRec) (q : Option QMirror)
  /-- QUEUE_MIRROR (R680). -/
  | queueMirror (h : PairHdr) (q : QMirror)
  /-- CHECKPOINT_MIRROR (R686). -/
  | checkpointMirror (h : PairHdr) (queue : Fin 64) (gen : BitVec 8) (seq : Word32) (root : BitVec 56) (va : BitVec 56) (bytes : List Byte)
  /-- HEADER_MIRROR (R686). -/
  | headerMirror (h : PairHdr) (x : CpHeader)
  /-- MIRROR_ACK (R680). -/
  | mirrorAck (h : PairHdr) (of_ : MirrorOf) (ok : Bool)
  /-- YIELD (R692). -/
  | yield (h : PairHdr)
  /-- RESETTING (R689). -/
  | resetting (h : PairHdr)
  /-- RESETTING_SUSPENSION_END (R689). -/
  | resettingSuspensionEnd
  /-- HEARTBEAT_SILENCE (R688). -/
  | heartbeatSilence
  /-- LINK_LOSS_TIMEOUT (R688). -/
  | linkLossTimeout
  /-- PAIR_TAKEOVER_CMD (R690). -/
  | pairTakeoverCmd (v : Word)
  /-- PAIR_SOLO_CMD (R690). -/
  | pairSoloCmd (v : Word)
  /-- PAIR_STANDDOWN_CMD (R690). -/
  | pairStanddownCmd (v : Word)
  /-- PAIR_REJOIN_CMD (R690). -/
  | pairRejoinCmd (v : Word)
  /-- PAIR_HANDBACK_CMD (R695). -/
  | pairHandbackCmd (v : Word)
  /-- PM_CMD_WAKE (R712). -/
  | pmCmdWake (v : Word)
  /-- PM_CMD_W2 (R707). -/
  | pmCmdW2 (v : Word)
  /-- PM_CMD_W3 (R709). -/
  | pmCmdW3 (v : Word)
  /-- PM_CMD_W4 (R709). -/
  | pmCmdW4 (v : Word)
  /-- ENTRY_COMPLETE (R711). -/
  | entryComplete
  /-- ENTRY_DRAIN_TIMEOUT (R710). -/
  | entryDrainTimeout
  /-- W1_IDLE_ENTRY (R704). -/
  | w1IdleEntry (w : WellId)
  /-- W2_AUTO_ENTRY (R708). -/
  | w2AutoEntry (w : WellId)
  /-- W3_AUTO_ENTRY (R708). -/
  | w3AutoEntry
  /-- WAKE_EVENT (R712). -/
  | wakeEvent (code : Fin 9)
  /-- WAKE_STAGING_WELL_START (R716). -/
  | wakeStagingWellStart
  /-- DOMAIN_READY (R717). -/
  | domainReady (d : Fin 26)
  /-- POWER_GOOD_TIMEOUT (R720). -/
  | powerGoodTimeout (d : Fin 26)
  /-- PLL_LOCK_TIMEOUT (R720). -/
  | pllLockTimeout (d : Fin 26)
  /-- WAKE_RETRY (R720). -/
  | wakeRetry (d : Fin 26)
  /-- REFERENCE_FAULT (R726). -/
  | referenceFault (i : Fin 4) (ppm : BitVec 16)
  /-- REFERENCE_RECOVERY (R728). -/
  | referenceRecovery (i : Fin 4)
  /-- REFERENCE_ABSENT_TIMEOUT (R729). -/
  | referenceAbsentTimeout (i : Fin 4)
  /-- ALARM_FIRE (R735). -/
  | alarmFire
  /-- TIMEBASE_LOW_READ (R734). -/
  | timebaseLowRead
  /-- TIMEBASE_COARSE_CLEAR (R733). -/
  | timebaseCoarseClear
  /-- SENSOR_SWEEP (R766). -/
  | sensorSweep (sw : Sweep)
  /-- SENSOR_HOP_TIMEOUT (R767). -/
  | sensorHopTimeout (hop : Fin 25) (asc : Bool)
  /-- FAULT_REPORT (R759). -/
  | faultReport (r : ReportIn)
  /-- FC_RECORD_CLEAR (R760). -/
  | fcRecordClear (i : Fin 512)
  /-- FC_HOLDOFF_EXPIRY (R761). -/
  | fcHoldoffExpiry
  /-- FC_ALERT_CLEAR (R762). -/
  | fcAlertClear (v : Word)
  /-- EV_FREEZE (R772). -/
  | evFreeze (v : Word)
  /-- EV_CLEAR (R772). -/
  | evClear (v : Word)
  /-- WELL_CMD_FENCE (R779). -/
  | wellCmdFence (v : Word)
  /-- WELL_CMD_TEST (R779). -/
  | wellCmdTest (v : Word)
  /-- WELL_CMD_RELEASE (R779). -/
  | wellCmdRelease (v : Word)
  /-- REGISTER_WRITE (R14). -/
  | registerWrite (f : Fin 2) (o : BitVec 26) (n : Fin 9) (v : Word)
  /-- TIMEBASE_ADVANCE (R731). -/
  | timebaseAdvance
  /-- HB_IN_TOGGLE (R688). -/
  | hbInToggle
  /-- PCIE_LINK_DOWN (R601). -/
  | pcieLinkDown (half : Fin 2)
  /-- PCIE_LINK_UP (R601). -/
  | pcieLinkUp (half : Fin 2)
  /-- FABRIC_LINK_FAILURE (R24). -/
  | fabricLinkFailure (a : WellId) (b : WellId)
  /-- AQUIFER_TRAINING_DONE (R507). -/
  | aquiferTrainingDone (rates : List (BitVec 8))
  /-- RESERVOIR_PACKAGE_FAILURE (R500). -/
  | reservoirPackageFailure (k : Fin 36)
  /-- WELLHEAD_DOMAIN_FAILURE (R57). -/
  | wellheadDomainFailure (canSend : Bool)
  /-- DISCARDED_FRAME (R636). -/
  | discardedFrame (p : Fin 9)
  /-- REFERENCE_GLITCH (R726). -/
  | referenceGlitch (i : Fin 4)
deriving DecidableEq, Repr

end Sys2Proof
end

