-- ==== Sys2Proof/Decode.lean ====
section
/-!
DEFINITION. The table of operations gives no row any bits: a command is an event, a step of a unit or a write of a
register, never a word. So no word spells a command (log entry 1).
-/

namespace Sys2Proof

/-- The command that a word spells by the bits of the table: none, for the table gives no row bits. -/
def decodeTableWord (_nbits _w : Nat) : Option Instr := none

end Sys2Proof
end

