-- ==== Sys2Proof/Machine/Hevc.lean ====
section
/-!
DEFINITION. What an encode core puts into an access unit: the HEVC structures that the tools of R567 leave, before HEVC's own
entropy coding turns them into bytes.
-/

namespace Sys2Proof.Machine

/-- A luma motion vector in quarter samples, for a reference of a list (R589). -/
structure MotionVec where
  list : Nat
  ref : Nat
  x : Int
  y : Int
deriving DecidableEq, Repr

/-- How a prediction unit gets its motion: a merge candidate, or an AMVP candidate and a difference. -/
inductive MvCode where
  | merge (idx : Nat)
  | amvp (idx : Nat)
deriving DecidableEq, Repr

/-- A prediction unit of an inter coding unit: its coding, and the vectors that it predicts with. -/
structure PredUnit where
  code : MvCode
  mvs : List MotionVec
deriving DecidableEq, Repr

/-- Partition of an inter coding unit: AMP's four are the last ones. -/
inductive PartMode where
  | whole | twoRows | twoColumns | rowsUp | rowsDown | columnsLeft | columnsRight
deriving DecidableEq, Repr

/-- Prediction of a coding unit: intra with its luma modes and its chroma mode, skipped with a merge index and its vectors, or
inter. -/
inductive CuPred where
  | intra (modes : List Nat) (chroma : Nat)
  | skipped (idx : Nat) (mvs : List MotionVec)
  | inter (part : PartMode) (units : List PredUnit)
deriving DecidableEq, Repr

/-- A transform unit: place, size as a power of 2, transform skip, sign data hiding, and its levels. -/
structure TransUnit where
  x : Nat
  y : Nat
  log2 : Nat
  tskip : Bool
  signHide : Bool
  levels : List Int
deriving DecidableEq, Repr

/-- A coding unit: place, size as a power of 2, prediction, and transform units; none without a residual. -/
structure CodingUnit where
  x : Nat
  y : Nat
  log2 : Nat
  pred : CuPred
  units : List TransUnit
deriving DecidableEq, Repr

/-- A coding tree unit: its QP, its SAO parameters where SAO is on, and its coding units. -/
structure CodingTree where
  qp : Nat
  sao : Option (List Int)
  cus : List CodingUnit
deriving DecidableEq, Repr

/-- Kind of a picture. -/
inductive PicKind where
  | intra | pred | bipred
deriving DecidableEq, Repr

/-- VUI parameters (R567): colour primaries, transfer characteristics, matrix coefficients, full range, and the HRD's rate in
bits per second, size in bits and cbr_flag. -/
structure VuiParams where
  primaries : Nat
  transfer : Nat
  matrix : Nat
  full : Bool
  hrd : Option (Nat × Nat × Bool)
deriving DecidableEq, Repr

/-- A sequence parameter set as far as the session record decides it. -/
structure SeqParams where
  profile : Nat
  high : Bool
  level : Nat
  width : Nat
  height : Nat
  depth : Nat
  sao : Bool
  tmvp : Bool
  vui : VuiParams
deriving DecidableEq, Repr

/-- A NAL unit of an access unit: parameter sets, SEI messages, and the one slice of the picture, in one tile, with its
coding trees in raster order (R567, R589). -/
inductive NalUnit where
  | vps
  | sps (p : SeqParams)
  | pps
  /-- Buffering period: initial_cpb_removal_delay in 90 kHz ticks. -/
  | buffering (delay : Nat)
  | timing (n : Nat)
  /-- Decoded picture hash (MD5). -/
  | hash
  | slice (kind : PicKind) (idr : Bool) (refs0 refs1 : List Nat) (ctus : List CodingTree)
deriving DecidableEq, Repr

end Sys2Proof.Machine
end

