-- ==== Sys2Proof/Config.lean ====
section
/-!
DEFINITION. What an implementation fixes and the free values: constants without a body, so that no proof can
see what they are. The state's counter `fresh` picks a new one at every use.
-/

namespace Sys2Proof.Config

/-- Krestalon's PCI-SIG vendor identifier: the manual gives no number (log entry 2). -/
opaque vendorId : BitVec 16
/-- The module's serial number (R790). -/
opaque serial : Word
/-- A byte the manual leaves undefined (R17), by a fresh number. -/
opaque freeByte : Nat → Byte
/-- A bit the manual leaves open, by a fresh number. -/
opaque freeBit : Nat → Bool
/-- A 64-bit value the manual leaves open, by a fresh number. -/
opaque freeWord : Nat → Word
/-- A natural number the manual leaves open, by a fresh number. -/
opaque freeNat : Nat → Nat

/-- A reading in thousandths in PMBus Linear11 format, whose exponent the manual leaves open (R69). -/
opaque linear11 : Int → BitVec 16
/-- What MFR_ID answers (R69). -/
opaque mfrId : List Byte
/-- Krestalon's JEDEC manufacturer identity, which IDCODE holds (R783). -/
opaque jedecId : BitVec 11
/-- The SLOT_ID straps (R63). -/
opaque slotId : BitVec 3
/-- The key digest fused into the one-time-programmable store (R744). -/
opaque keyDigest : List Byte

/-! The video codec (R574): what its microcode and HEVC leave to it, as functions of the session record, the microcode
version and what the session has read. -/

/-- What the microcode decides at a place of the access unit that attempt a makes of the last of the frames coded so far (R574,
R583): the place is a path of numbers, and the model holds the decision to what the tools of R567 allow. -/
opaque codecPick (rec : List Word) (ucode : Nat) (frames : List (Nat × List Byte)) (a : Nat) (path : List Nat) : Int
/-- The bytes that HEVC gives an access unit's NAL units (Annex B). -/
opaque codecBits (rec : List Word) (nals : List Machine.NalUnit) : List Byte
/-- Byte i of the filler data after picture n (R582). -/
opaque codecFill (rec : List Word) (n i : Nat) : Byte
/-- Byte i of pool slot k after the frames coded so far (R586, R591). -/
opaque codecPool (rec : List Word) (ucode : Nat) (frames : List (Nat × List Byte)) (k i : Nat) : Byte
/-- Does the GOP structure still reference pool slot k after the frames coded so far (R592)? -/
opaque codecRef (rec : List Word) (ucode : Nat) (frames : List (Nat × List Byte)) (k : Nat) : Bool
/-- Bytes of access unit n of a stream (HEVC Annex B). -/
opaque decUsed (rec : List Word) (stream : List Byte) (n : Nat) : Nat
/-- What the parameter sets of access unit n say: general_profile_idc, chroma_format_idc, general_level_idc, bit depth, width
and height in luma samples, and whether field or frame-packing indications or an extension of R568 are used. -/
opaque decHead (rec : List Word) (stream : List Byte) (n : Nat) : Nat × Nat × Nat × Nat × Nat × Nat × Bool
/-- Pool slots that the stream needs up to access unit n. -/
opaque decNeed (rec : List Word) (stream : List Byte) (n : Nat) : Nat
/-- Does access unit n conform? -/
opaque decSound (rec : List Word) (stream : List Byte) (n : Nat) : Bool
/-- Frames that access unit n outputs (HEVC C.5.2). -/
opaque decOut (rec : List Word) (stream : List Byte) (n : Nat) : Nat
/-- Width and height of output frame n after the conformance window (R577). -/
opaque decDims (rec : List Word) (stream : List Byte) (n : Nat) : Nat × Nat
/-- Sample i of output frame n: luma in raster order, then the chroma pairs. -/
opaque decSample (rec : List Word) (stream : List Byte) (n i : Nat) : Nat
/-- Byte i of pool slot k after access unit n. -/
opaque decPool (rec : List Word) (stream : List Byte) (n k i : Nat) : Byte
/-- Mark of pool slot k after access unit n (R592). -/
opaque decMark (rec : List Word) (stream : List Byte) (n k : Nat) : Nat

end Sys2Proof.Config
end

