-- ==== Sys2Proof/Machine/Regs.lean ====
section
/-!
DEFINITION. The register map (R782, R796, R798): BAR0 offsets and whole-register reset values. A register of
the state is named by its offset.
-/

namespace Sys2Proof.Machine

/-! ### Offsets of the global registers (R796) -/

def rWhId : Nat := 0x0
def rWhRev : Nat := 0x8
def rWhCap : Nat := 0x10
def rWhSerial : Nat := 0x18
def rWhBoot : Nat := 0x40
def rWhFw : Nat := 0x48
def rWhReset : Nat := 0x50
def rWhLdrRej : Nat := 0x80
def rWhLdrAddr : Nat := 0x88
def rWhBar2Base (f : Nat) : Nat := 0xC0 + 8 * f
def rWhBar2Err : Nat := 0xD0
def rWhWellState : Nat := 0x100
def rWhWellLost : Nat := 0x108
def rWhWellCmd : Nat := 0x110
def rWhRasCtl : Nat := 0x118
def rQSqbase (q : Nat) : Nat := 0x1000 + 64 * q
def rQCqbase (q : Nat) : Nat := 0x1008 + 64 * q
def rQCtl (q : Nat) : Nat := 0x1010 + 64 * q
def rQSqTail (q : Nat) : Nat := 0x1018 + 64 * q
def rQCqHead (q : Nat) : Nat := 0x1020 + 64 * q
def rQStatus (q : Nat) : Nat := 0x1028 + 64 * q
def rQLast (q : Nat) : Nat := 0x1030 + 64 * q
def rQIrq (q : Nat) : Nat := 0x1038 + 64 * q
def rQAbort : Nat := 0x2000
def rJnQuery : Nat := 0x10000
def rJnResult : Nat := 0x10008
def rJnStat : Nat := 0x10010
def rPmInputLimit : Nat := 0x20000
def rPmInputStatus : Nat := 0x20008
def rPmPolicy : Nat := 0x20010
def rPmCmd : Nat := 0x20018
def rPmState : Nat := 0x20020
def rPmWake : Nat := 0x20028
def rPmWakeLast : Nat := 0x20030
def rPmWakeFail : Nat := 0x20038
def rPmTherm : Nat := 0x20040
def rPmTimebase : Nat := 0x20080
def rPmTbStatus : Nat := 0x20088
def rPmAlarm : Nat := 0x20090
def rPmRefStat (i : Nat) : Nat := 0x20100 + 8 * i
def rPmWellStat (n : Nat) : Nat := 0x20200 + 8 * n
def rFcCtl : Nat := 0x30000
def rFcSummary : Nat := 0x30008
def rFcAlert : Nat := 0x30010
def rFcRec (r : Nat) : Nat := 0x31000 + 8 * r
def rFcTb (r : Nat) : Nat := 0x32000 + 8 * r
def rFcDet (r : Nat) : Nat := 0x33000 + 8 * r
def rEvGlobal : Nat := 0x40000
def rEvCtl (n : Nat) : Nat := 0x40100 + 8 * n
def rEvCnt (n : Nat) : Nat := 0x40800 + 8 * n
def rScSweep : Nat := 0x50000
def rScBreak : Nat := 0x50008
def rScCoolant : Nat := 0x50010
def rScDie (d : Nat) : Nat := 0x50100 + 8 * d
def rTrRoot (p : Nat) : Nat := 0x60000 + 8 * p
def rTrHroot : Nat := 0x60080
def rTrHrootC : Nat := 0x60088
def rTrInv : Nat := 0x60090
def rTrInvVa : Nat := 0x60098
def rTrFault : Nat := 0x600A0
def rTrFaultVa : Nat := 0x600A8
def rTrWalkStat : Nat := 0x600B0
def rMgCtl : Nat := 0x60100
def rMgStat : Nat := 0x60108
def rMgKvcTier (p : Nat) : Nat := 0x60200 + 8 * p
def rMgKvcCnt (p : Nat) : Nat := 0x60280 + 8 * p
def rCdStat : Nat := 0x70000
def rCdErr : Nat := 0x70008
def rRvPlace : Nat := 0x80000
def rRvSluiceCtl : Nat := 0x80008
def rRvFence : Nat := 0x80010
def rRvEcc : Nat := 0x80018
def rRvErr : Nat := 0x80020
def rRvSluice (p : Nat) : Nat := 0x80100 + 8 * p
def rRvPkgStat (i : Nat) : Nat := 0x80200 + 8 * i
def rAqFence : Nat := 0x90000
def rAqEcc : Nat := 0x90008
def rAqErr : Nat := 0x90010
def rAqPkgStat (i : Nat) : Nat := 0x90100 + 8 * i
def rTlCtl : Nat := 0xA0000
def rTlStatus : Nat := 0xA0008
def rTlVcw : Nat := 0xA0018
def rTlStat : Nat := 0xA0020
def rTlPairCtl : Nat := 0xA0100
def rTlPairQown : Nat := 0xA0108
def rTlPairStatus : Nat := 0xA0110
def rTlPairCmd : Nat := 0xA0118
def rTlPairStat : Nat := 0xA0120
def rSpCtl (p : Nat) : Nat := 0xB0000 + 0x40 * p
def rSpStatus (p : Nat) : Nat := 0xB0008 + 0x40 * p
def rSpVlan (p : Nat) : Nat := 0xB0010 + 0x40 * p
def rSpVcw (p : Nat) : Nat := 0xB0018 + 0x40 * p
def rSpStat (p : Nat) : Nat := 0xB0020 + 0x40 * p
def rSpMac (p : Nat) : Nat := 0xB0028 + 0x40 * p
def rSpTimers : Nat := 0xB0400
def rSpDevid : Nat := 0xB0408
def rSpRtCmd : Nat := 0xB0410
def rSpRtMac : Nat := 0xB0418
def rSpCommit : Nat := 0xB0420
def rCoCtl : Nat := 0xC0000
def rCoStat : Nat := 0xC0008
def rCoGrpKey (g : Nat) : Nat := 0xC1000 + 8 * g
def rCoGrpLa (g : Nat) : Nat := 0xC1200 + 8 * g
def rCoGrpLb (g : Nat) : Nat := 0xC1400 + 8 * g
def rCoStrmLoc (w : Nat) : Nat := 0xC2000 + 8 * w
def rCoStrmRem (w : Nat) : Nat := 0xC2080 + 8 * w
def rCoStrmCfg (w : Nat) : Nat := 0xC2100 + 8 * w
def rVcId : Nat := 0xD0000
def rVcErr : Nat := 0xD0008
def rVcCore (i : Nat) : Nat := 0xD0100 + 8 * i
def rInStat : Nat := 0xE0000
def rInErr : Nat := 0xE0008

/-! ### Offsets of a well's registers (R798) -/

def rWl (w o : Nat) : Nat := 0x1000000 + w * 0x100000 + o
def rWlBobMap (w i : Nat) : Nat := rWl w (8 * i)
def rWlBobState (w i : Nat) : Nat := rWl w (0x80 + 8 * i)
def rWlBobCmd (w : Nat) : Nat := rWl w 0xC0
def rWlBobExc (w : Nat) : Nat := rWl w 0xC8
def rWlBobEcc (w : Nat) : Nat := rWl w 0xD0
def rWlGuardStat (w : Nat) : Nat := rWl w 0xD8
def rWlCtlStatus (w : Nat) : Nat := rWl w 0x100
def rWlCtlExc (w : Nat) : Nat := rWl w 0x108
def rWlCtlEcc (w : Nat) : Nat := rWl w 0x110
def rWlEvtLimit (w : Nat) : Nat := rWl w 0x118
def rWlEvtStat (w : Nat) : Nat := rWl w 0x120
def rWlStealCtl (w : Nat) : Nat := rWl w 0x140
def rWlStealStat (w : Nat) : Nat := rWl w 0x148
def rWlDeqStat (w : Nat) : Nat := rWl w 0x150
def rWlCisSplit (w : Nat) : Nat := rWl w 0x180
def rWlCisEcc (w : Nat) : Nat := rWl w 0x188
def rWlCisErr (w : Nat) : Nat := rWl w 0x190
def rWlCuStat (w : Nat) : Nat := rWl w 0x198
def rWlTlbStat (w : Nat) : Nat := rWl w 0x1C0
def rWlPumpStat (w : Nat) : Nat := rWl w 0x1C8
def rWlPumpErr (w : Nat) : Nat := rWl w 0x1D0
def rWlDrainStat (w : Nat) : Nat := rWl w 0x1D8
def rWlWcStat (w : Nat) : Nat := rWl w 0x1E0
def rWlWcEvt (w : Nat) : Nat := rWl w 0x1E8
def rWlStResult (w : Nat) : Nat := rWl w 0x200

/-! ### Reset values -/

/-- Is o the offset of entry i of an array of n registers at base, 8 bytes apart? -/
def inArr (o base n : Nat) : Bool := decide (base ≤ o ∧ o < base + 8 * n ∧ (o - base) % 8 = 0)

/-- Reset values of a well's registers (R798), at the offset in the well's block. -/
def regResetWell (o : Nat) : Word :=
  if o < 0x10 then
    BitVec.ofNat 64 (0x0706050403020100 + (o / 8) * 0x0808080808080808)
  else if o < 0x80 then
    BitVec.ofNat 64 (0x0807060504030201 + (o / 8) * 0x0808080808080808)
  else if o = 0x80 then 0x0000000100000000#64
  else if o = 0xA0 then 0x0000000000005554#64
  else if o = 0x118 then 0x64#64
  else if o = 0x140 then 3#64
  else if o = 0x180 then 4#64
  else 0#64

/-- Whole-register reset values of the wellhead's registers (R796). -/
def regResetGlobal (o : Nat) : Word :=
  if o = rWhId then (Config.vendorId ++ (0x2512#16)).setWidth 64
  else if o = rWhRev then 0x111#64
  else if o = rWhCap then 0x11111C8000000000#64
  else if o = rWhSerial then Config.serial
  else if 0x1000 ≤ o ∧ o < 0x2000 then
    (if o % 64 = 0x10 then BitVec.ofNat 64 (0x0042000000000000 + ((o - 0x1000) / 64) * 2 ^ 32)
     else if o % 64 = 0x38 then 1#64 else 0#64)
  else if o = rPmInputLimit then 0xFA0#64
  else if o = rPmPolicy then 0x03E800640064FA00#64
  else if o = rPmWake then 0x00FF0000#64
  else if o = rPmTherm then 0x5F643C00#64
  else if o = rFcCtl then 0xFC03E80E#64
  else if inArr o (rEvCtl 0) 96 then 0x40000000#64
  else if o = rTrHrootC then 0xFFFFFFFFFFFFFFFF#64
  else if o = rMgCtl then 0x03E810000A000001#64
  else if o = rRvSluiceCtl then 0x46400168#64
  else if inArr o (rRvSluice 0) 13 then 1#64
  else if inArr o (rRvPkgStat 0) 36 then 0xFF000000#64
  else if inArr o (rAqPkgStat 0) 12 then 0x00FF0000#64
  else if o = rTlCtl then 0x88B5#64
  else if o = rTlVcw then 0x0400200040001000#64
  else if o = rTlPairCtl then 0x000507D000000000#64
  else if o = rTlPairQown then 0xFFFFFFFFFFFFFFFF#64
  else if rSpCtl 0 ≤ o ∧ o < rSpCtl 8 then
    (if o % 0x40 = 0 then 0x88B5#64 else if o % 0x40 = 0x18 then 0x0400200040001000#64 else 0#64)
  else if o = rSpTimers then 0x00C80800100A0000#64
  else if o = rSpRtCmd then 0x000F0000#64
  else if o = rCoCtl then 0x00640A00#64
  else if inArr o (rCoGrpLa 0) 64 then 0x0200000002000000#64
  else if inArr o (rCoGrpLb 0) 64 then 0x0200000002000000#64
  else if inArr o (rVcCore 0) 4 then 0xFF#64
  else 0#64

/-- The whole-register reset value at a BAR0 offset (R796, R798). -/
def regReset (o : Nat) : Word :=
  if 0x1000000 ≤ o ∧ o < 0x1C00000 then regResetWell ((o - 0x1000000) % 0x100000)
  else regResetGlobal o

/-- A field [hi:lo] of a 64-bit register value replaced. -/
def setBits (w : Word) (hi lo v : Nat) : Word :=
  let n := hi - lo + 1
  BitVec.ofNat 64
    (w.toNat % 2 ^ lo + (v % 2 ^ n) * 2 ^ lo + (w.toNat / 2 ^ (hi + 1)) * 2 ^ (hi + 1))

/-- A field raised by n, saturating. -/
def addSat (w : Word) (hi lo n : Nat) : Word :=
  setBits w hi lo (min (bitsOf w hi lo + n) (2 ^ (hi - lo + 1) - 1))

end Sys2Proof.Machine
end

