-- ==== Sys2Proof/Machine/Num.lean ====
section
/-!
DEFINITION. Numbers: the element formats of R72 to R79, the block scale of R80, the one rounding of R92 to
R97, FP32 operations (R89, R228), and the four special functions of R334 to R342.
Finite values are exact dyadics (sign, magnitude, power of two); a rounding takes an exact ratio.
-/

namespace Sys2Proof.Machine

/-- Element formats with their codes of R72. -/
inductive Fmt where
  | f4 | i4 | f6 | f8 | f8b | bf16 | fp16 | fp32 | i8 | i32
deriving DecidableEq, Repr

/-- The format of a 4-bit code; the reserved codes have none (R72). -/
def Fmt.ofCode : Nat → Option Fmt
  | 0 => some .f4 | 1 => some .i4 | 2 => some .f6 | 4 => some .f8 | 5 => some .f8b
  | 6 => some .bf16 | 7 => some .fp16 | 8 => some .fp32 | 9 => some .i8 | 10 => some .i32
  | _ => none

/-- The code of a format (R72). -/
def Fmt.code : Fmt → Nat
  | .f4 => 0 | .i4 => 1 | .f6 => 2 | .f8 => 4 | .f8b => 5 | .bf16 => 6 | .fp16 => 7 | .fp32 => 8
  | .i8 => 9 | .i32 => 10

/-- Width in bits (R72). -/
def Fmt.width : Fmt → Nat
  | .f4 | .i4 => 4
  | .f6 => 6
  | .f8 | .f8b | .i8 => 8
  | .bf16 | .fp16 => 16
  | .fp32 | .i32 => 32

/-- Two-level formats carry block scales and a tensor scale (R72, R73). -/
def Fmt.twoLevel : Fmt → Bool
  | .f4 | .i4 | .f6 | .f8 | .f8b | .i8 => true
  | _ => false

/-- Two's complement integer formats. -/
def Fmt.isInt : Fmt → Bool
  | .i4 | .i8 | .i32 => true
  | _ => false

/-- Mantissa bits of a float format (R74). -/
def Fmt.man : Fmt → Nat
  | .f4 => 1 | .f6 => 2 | .f8 => 3 | .f8b => 2 | .bf16 => 7 | .fp16 => 10 | .fp32 => 23 | _ => 0

/-- Exponent bias of a float format (R74). -/
def Fmt.bias : Fmt → Nat
  | .f4 => 1 | .f6 => 3 | .f8 => 7 | .f8b => 15 | .bf16 => 127 | .fp16 => 15 | .fp32 => 127 | _ => 0

/-- The code, without sign, of the largest finite value of a float format (R74). -/
def Fmt.maxCode : Fmt → Nat
  | .f4 => 7 | .f6 => 31 | .f8 => 0x7E | .f8b => 0x7B | .bf16 => 0x7F7F | .fp16 => 0x7BFF
  | .fp32 => 0x7F7FFFFF | _ => 0

/-- Formats with infinities (R74). -/
def Fmt.hasInf : Fmt → Bool
  | .f8b | .bf16 | .fp16 | .fp32 => true
  | _ => false

/-- The code of +infinity in a format that has one. -/
def Fmt.infCode : Fmt → Nat
  | .f8b => 0x7C | .bf16 => 0x7F80 | .fp16 => 0x7C00 | .fp32 => 0x7F800000 | _ => 0

/-- The canonical NaN (R76), in formats that hold one. -/
def Fmt.nanCode : Fmt → Option Nat
  | .f8 => some 0x7F | .f8b => some 0x7E | .bf16 => some 0x7FC0 | .fp16 => some 0x7E00
  | .fp32 => some 0x7FC00000 | _ => none

/-- The largest magnitude a conversion to an integer format gives (R78, R97). -/
def Fmt.intMax : Fmt → Nat
  | .i4 => 7 | .i8 => 127 | .i32 => 2147483647 | _ => 0

/-- The quantiser's limit E (R99). -/
def Fmt.limitE : Fmt → Nat
  | .f4 => 6 | .f6 => 28 | .f8 => 448 | .f8b => 57344 | .i4 => 7 | .i8 => 127 | _ => 1

/-- A value: a NaN, an infinity, or (-1)^neg * m * 2^e. -/
inductive Num where
  | nan
  | inf (neg : Bool)
  | fin (neg : Bool) (m : Nat) (e : Int)
deriving DecidableEq, Repr

/-- The sign bit's weight. -/
def Fmt.signBit (f : Fmt) : Nat := 2 ^ (f.width - 1)

/-- The value of an integer. -/
def numOfInt (i : Int) : Num := .fin (decide (i < 0)) i.natAbs 0

/-- The value of a float code (R74). -/
def decodeFloat (f : Fmt) (c : Nat) : Num :=
  let neg := c / f.signBit % 2 == 1
  let a := c % f.signBit
  if f.hasInf && decide (f.infCode ≤ a) then
    if a = f.infCode then .inf neg else .nan
  else if f = .f8 ∧ a = 0x7F then .nan
  else
    let ex := a / 2 ^ f.man
    let mant := a % 2 ^ f.man
    if ex = 0 then .fin neg mant (1 - (f.bias : Int) - f.man)
    else .fin neg (2 ^ f.man + mant) ((ex : Int) - f.bias - f.man)

/-- The value of an element code in any format, without its scales (R77, R78). -/
def decodeElem (f : Fmt) (c : Nat) : Num :=
  if f.isInt then numOfInt (signedOf f.width (c % 2 ^ f.width)) else decodeFloat f (c % 2 ^ f.width)

/-- The value of a block scale S8; 0xFF is the NaN of R81 (R80). -/
def decodeS8 (c : Nat) : Num :=
  if c = 0xFF then .nan
  else
    let e := c / 8
    let m := c % 8
    if e = 0 then .fin false m (-17) else .fin false (8 + m) ((e : Int) - 18)

/-- 2^e as an exact ratio's scaling: shifts the numerator or the denominator. -/
def scaleRatio (n d : Nat) (e : Int) : Nat × Nat :=
  if 0 ≤ e then (n * 2 ^ e.toNat, d) else (n, d * 2 ^ (-e).toNat)

/-- Round the ratio n/d to an integer, ties to even (R92). -/
def rneDiv (n d : Nat) : Nat :=
  let q := n / d
  let r := n % d
  if 2 * r < d then q else if d < 2 * r then q + 1 else if q % 2 = 0 then q else q + 1

/-- floor(log2(n/d * 2^e)) for n and d positive. -/
def log2Ratio (n d : Nat) (e : Int) : Int :=
  let l : Int := (n.log2 : Int) - d.log2
  let (a, b) := scaleRatio n d (-l)
  (if a < b then l - 1 else l) + e

/-- Round n/d * 2^e to a significand of p bits, exponent unbounded: the pair (significand, exponent) (R92, R336). -/
def roundSig (p n d : Nat) (e : Int) : Nat × Int :=
  if n = 0 then (0, 0)
  else
    let q := log2Ratio n d e - p + 1
    let (a, b) := scaleRatio n d (e - q)
    (rneDiv a b, q)

/-- Magnitude code of n/d * 2^e rounded to a float format, exponent range unbounded above (R92, R94). -/
def roundCode (f : Fmt) (n d : Nat) (e : Int) : Nat :=
  if n = 0 then 0
  else
    let qmin : Int := 1 - (f.bias : Int) - f.man
    let q := max (log2Ratio n d e - f.man) qmin
    let (a, b) := scaleRatio n d (e - q)
    (q - qmin).toNat * 2 ^ f.man + rneDiv a b

/-- Sign, then the magnitude code. -/
def withSign (f : Fmt) (neg : Bool) (c : Nat) : Nat := if neg then f.signBit + c else c

/-- Two's complement code of a signed magnitude. -/
def intCode (f : Fmt) (neg : Bool) (m : Nat) : Nat :=
  if neg then (2 ^ f.width - m) % 2 ^ f.width else m

/-- Round (-1)^neg * n/d * 2^e to a format: its code and whether it clamped (R92, R93, R94, R97). -/
def roundTo (f : Fmt) (neg : Bool) (n d : Nat) (e : Int) : Nat × Bool :=
  if f.isInt then
    let (a, b) := scaleRatio n d e
    let m := rneDiv a b
    let top := if f = .i32 ∧ neg then 2147483648 else f.intMax
    if top < m then (intCode f neg top, true) else (intCode f neg m, false)
  else
    let c := roundCode f n d e
    if f.maxCode < c then (withSign f neg f.maxCode, true) else (withSign f neg c, false)

/-- Conversion of a value to a format with R96 for infinities and NaNs: code, clamp. -/
def convNum (f : Fmt) : Num → Nat × Bool
  | .nan =>
    match f.nanCode with
    | some c => (c, false)
    | none => (0, true)
  | .inf neg =>
    if f.hasInf then (withSign f neg f.infCode, false)
    else if f.isInt then (intCode f neg f.intMax, true)
    else (withSign f neg f.maxCode, true)
  | .fin neg m e => roundTo f neg m 1 e

/-! ### Exact arithmetic on values -/

/-- Negation. -/
def Num.neg : Num → Num
  | .nan => .nan
  | .inf s => .inf (!s)
  | .fin s m e => .fin (!s) m e

/-- Signed integer magnitude. -/
def signedMag (s : Bool) (m : Nat) : Int := if s then -(m : Int) else m

/-- Exact sum; an exact zero is +0 unless both terms are negative zeros (R89). -/
def Num.add : Num → Num → Num
  | .nan, _ => .nan
  | _, .nan => .nan
  | .inf s, .inf t => if s = t then .inf s else .nan
  | .inf s, .fin _ _ _ => .inf s
  | .fin _ _ _, .inf t => .inf t
  | .fin s m e, .fin t n f =>
    let g := min e f
    let a : Int := signedMag s (m * 2 ^ (e - g).toNat) + signedMag t (n * 2 ^ (f - g).toNat)
    if a = 0 then .fin (s && t) 0 0 else .fin (decide (a < 0)) a.natAbs g

/-- Exact product (R89: zero times infinity is invalid). -/
def Num.mul : Num → Num → Num
  | .nan, _ => .nan
  | _, .nan => .nan
  | .inf s, .inf t => .inf (s != t)
  | .inf s, .fin t n _ => if n = 0 then .nan else .inf (s != t)
  | .fin s m _, .inf t => if m = 0 then .nan else .inf (s != t)
  | .fin s m e, .fin t n f => .fin (s != t) (m * n) (e + f)

/-- True for a zero of either sign. -/
def Num.isZero : Num → Bool
  | .fin _ m _ => m == 0
  | _ => false

/-- Strictly below, NaN never. -/
def Num.lt : Num → Num → Bool
  | .nan, _ => false
  | _, .nan => false
  | .inf s, .inf t => s && !t
  | .inf s, .fin _ _ _ => s
  | .fin _ _ _, .inf t => !t
  | .fin s m e, .fin t n f =>
    let g := min e f
    decide (signedMag s (m * 2 ^ (e - g).toNat) < signedMag t (n * 2 ^ (f - g).toNat))

/-- Magnitude. -/
def Num.abs : Num → Num
  | .nan => .nan
  | .inf _ => .inf false
  | .fin _ m e => .fin false m e

/-- A finite value. -/
def Num.isFin : Num → Bool
  | .fin _ _ _ => true
  | _ => false

/-! ### FP32 codes -/

/-- The canonical FP32 NaN (R76). -/
def f32NaN : Word32 := 0x7FC00000#32
/-- FP32 one. -/
def f32One : Word32 := 0x3F800000#32
/-- FP32 minus infinity. -/
def f32NegInf : Word32 := 0xFF800000#32

/-- The value of an FP32 code. -/
def val32 (c : Word32) : Num := decodeFloat .fp32 c.toNat

/-- Round to FP32, overflow to infinity (R89, R228). -/
def round32 : Num → Word32
  | .nan => f32NaN
  | .inf neg => BitVec.ofNat 32 (withSign .fp32 neg Fmt.fp32.infCode)
  | .fin neg m e =>
    let c := roundCode .fp32 m 1 e
    BitVec.ofNat 32 (withSign .fp32 neg (min c Fmt.fp32.infCode))

/-- FP32 sum, one rounding. -/
def fadd (a b : Word32) : Word32 := round32 ((val32 a).add (val32 b))
/-- FP32 difference, one rounding. -/
def fsub (a b : Word32) : Word32 := round32 ((val32 a).add (val32 b).neg)
/-- FP32 product, one rounding. -/
def fmul (a b : Word32) : Word32 := round32 ((val32 a).mul (val32 b))
/-- a < b as FP32 values. -/
def flt (a b : Word32) : Bool := (val32 a).lt (val32 b)
/-- An FP32 NaN. -/
def isNaN32 (a : Word32) : Bool := val32 a == .nan
/-- IEEE maximum: +0 above -0, any NaN gives the canonical NaN (R239, R330). -/
def fmax (a b : Word32) : Word32 :=
  if isNaN32 a || isNaN32 b then f32NaN
  else if flt a b then b
  else if flt b a then a
  else if (val32 a).isZero && (val32 b).isZero then a &&& b
  else a
/-- IEEE minimum, with -0 below +0 (R330). -/
def fmin (a b : Word32) : Word32 :=
  if isNaN32 a || isNaN32 b then f32NaN
  else if flt a b then a
  else if flt b a then b
  else if (val32 a).isZero && (val32 b).isZero then a ||| b
  else a
/-- An FP32 infinity or NaN. -/
def notFinite32 (a : Word32) : Bool := !(val32 a).isFin
/-- FP32 code of a natural number that FP32 holds exactly, or its rounding. -/
def f32OfNat (n : Nat) : Word32 := round32 (.fin false n 0)
/-- Unbiased FP32 exponent; -127 for a subnormal (R110). -/
def exp32 (a : Word32) : Int := ((a.toNat / 2 ^ 23 % 256 : Nat) : Int) - 127

/-! ### Special functions (R334 to R338) -/

/-- Working precision, in bits after the point, of the transcendental functions. -/
def workP : Nat := 256

/-- 2 * atanh(n/d) in fixed point with workP bits, from its power series. -/
def atanhSeries : Nat → Nat → Nat → Nat → Nat → Nat
  | 0, _, _, _, acc => acc
  | fuel + 1, k, t, z2, acc => atanhSeries fuel (k + 2) (t * z2 / 2 ^ workP) z2 (acc + 2 * t / k)

/-- 2 * atanh(n/d), n/d at most 1/3, in fixed point. -/
def atanh2 (n d : Nat) : Nat :=
  let z := n * 2 ^ workP / d
  atanhSeries 90 1 z (z * z / 2 ^ workP) 0

/-- ln 2 in fixed point. -/
def ln2Fix : Nat := atanh2 1 3

/-- ln(n/d) in fixed point for n/d from 1 to 2. -/
def lnFix (n d : Nat) : Nat := atanh2 (n - d) (n + d)

/-- exp(r) in fixed point for r below 1, by its power series. -/
def expSeries : Nat → Nat → Nat → Nat → Nat → Nat
  | 0, _, _, _, acc => acc
  | fuel + 1, k, t, r, acc =>
    let t' := t * r / 2 ^ workP / k
    expSeries fuel (k + 1) t' r (acc + t')

/-- exp(r), r in fixed point from 0 to 1. -/
def expFix (r : Nat) : Nat := expSeries 70 1 (2 ^ workP) r (2 ^ workP)

/-- Integer square root of n by bits, highest first. -/
def isqrtBits : Nat → Nat → Nat → Nat
  | 0, _, r => r
  | b + 1, n, r => let c := r + 2 ^ b; isqrtBits b n (if c * c ≤ n then c else r)

/-- floor(sqrt n). -/
def isqrt (n : Nat) : Nat := isqrtBits (n.log2 / 2 + 1) n 0

/-- A positive real as a ratio times a power of two, or a special result. -/
inductive Approx where
  | special (v : Num)
  | ratio (neg : Bool) (n d : Nat) (e : Int)
deriving DecidableEq, Repr

/-- e^x: arguments beyond every format's range give a value beyond every format's range. -/
def expOf : Num → Approx
  | .nan => .special .nan
  | .inf neg => .special (if neg then .fin false 0 0 else .inf false)
  | .fin neg m e =>
    if m = 0 then .special (.fin false 1 0)
    else if 8 ≤ log2Ratio m 1 e then .ratio false 1 1 (if neg then -1000 else 1000)
    else
      let x := (scaleRatio (m * 2 ^ workP) 1 e)
      let a : Int := signedMag neg (x.1 / x.2)
      let k := a / (ln2Fix : Int)
      let r := (a - k * ln2Fix).toNat
      .ratio false (expFix r) (2 ^ workP) k

/-- ln x. -/
def logOf : Num → Approx
  | .nan => .special .nan
  | .inf neg => .special (if neg then .nan else .inf false)
  | .fin neg m e =>
    if m = 0 then .special (.inf true)
    else if neg then .special .nan
    else
      let k := log2Ratio m 1 e
      let a : Int := k * ln2Fix + lnFix m (2 ^ m.log2)
      if a = 0 then .special (.fin false 0 0) else .ratio (decide (a < 0)) a.natAbs (2 ^ workP) 0

/-- 1 / x, exact. -/
def rcpOf : Num → Approx
  | .nan => .special .nan
  | .inf neg => .special (.fin neg 0 0)
  | .fin neg m e => if m = 0 then .special (.inf neg) else .ratio neg 1 m (-e)

/-- 1 / sqrt x: enough bits that the odd sticky bit rounds as the exact value does. -/
def rsqrtOf : Num → Approx
  | .nan => .special .nan
  | .inf neg => .special (if neg then .nan else .fin false 0 0)
  | .fin neg m e =>
    if m = 0 then .special (.inf neg)
    else if neg then .special .nan
    else
      let h := e / 2
      let m' := if e % 2 = 0 then m else 2 * m
      let n := 2 ^ workP / m'
      let s := isqrt n
      let exact := s * s = n ∧ 2 ^ workP % m' = 0
      .ratio false (2 * s + (if exact then 0 else 1)) 1 (-h - workP / 2 - 1)

/-- The functions of R334, by their VAR codes. -/
inductive SpFn where
  | exp | log | rcp | rsqrt
deriving DecidableEq, Repr

/-- The exact value of a function, as an approximation finer than any rounding used. -/
def SpFn.eval : SpFn → Num → Approx
  | .exp => expOf
  | .log => logOf
  | .rcp => rcpOf
  | .rsqrt => rsqrtOf

/-- A short format: one rounding of the exact value (R335): code, clamp. -/
def spShort (f : Fmt) (g : SpFn) (x : Num) : Nat × Bool :=
  match g.eval x with
  | .special v => convNum f v
  | .ratio neg n d e => roundTo f neg n d e

/-- FP32: 48 bits first, then FP32 (R336). -/
def sp32 (g : SpFn) (x : Word32) : Word32 :=
  match g.eval (val32 x) with
  | .special v => round32 v
  | .ratio neg n d e => let (m, q) := roundSig 48 n d e; round32 (.fin neg m q)

/-- exp of R336. -/
def fexp (x : Word32) : Word32 := sp32 .exp x
/-- rcp of R336. -/
def frcp (x : Word32) : Word32 := sp32 .rcp x
/-- rsqrt of R336. -/
def frsqrt (x : Word32) : Word32 := sp32 .rsqrt x

/-! ### Falarette V8 compatibility mode (R339 to R343) -/

/-- Round a positive ratio to an FP32 code. -/
def ratio32 (n d : Nat) (e : Int) : Word32 :=
  BitVec.ofNat 32 (min (roundCode .fp32 n d e) Fmt.fp32.infCode)

/-- Node i of a function (R341). -/
def compatNode (g : SpFn) (i : Nat) : Word32 :=
  match g with
  | .exp => if i = 32 then ratio32 2 1 0 else ratio32 (expFix (ln2Fix * i / 32)) (2 ^ workP) 0
  | .log => if i = 0 then 0#32 else if i = 32 then f32One else ratio32 (lnFix (32 + i) 32) ln2Fix 0
  | .rcp => ratio32 32 (32 + i) 0
  | .rsqrt =>
    let w := if i ≤ 16 then Num.fin false (16 + i) (-4) else Num.fin false (16 + (i - 16)) (-3)
    match rsqrtOf w with
    | .ratio _ n d e => ratio32 n d e
    | .special v => round32 v

/-- interp of R342. -/
def compatInterp (g : SpFn) (i : Nat) (u : Word32) : Word32 :=
  let a := compatNode g i
  fadd a (fmul (fsub (compatNode g (i + 1)) a) u)

/-- scale of R342: y * 2^k, one rounding. -/
def scale32 (y : Word32) (k : Int) : Word32 := round32 ((val32 y).mul (.fin false 1 k))

/-- floor of an exact value. -/
def floorNum : Num → Int
  | .fin neg m e =>
    let (a, b) := scaleRatio m 1 e
    if neg then -(((a + b - 1) / b : Nat) : Int) else ((a / b : Nat) : Int)
  | _ => 0

/-- The compatibility sequence for a finite argument outside the special columns (R342). -/
def compatSeq (g : SpFn) (x : Word32) : Word32 :=
  match val32 x with
  | .fin neg m e =>
    match g with
    | .exp =>
      let t := fmul x 0x3FB8AA3B#32
      match val32 t with
      | .fin _ _ _ =>
        let n := floorNum (val32 t)
        let f := fsub t (round32 (numOfInt n))
        let (f, n) := if f = f32One then (0#32, n + 1) else (f, n)
        let w := (val32 f).mul (.fin false 32 0)
        let i := floorNum w
        let u := round32 (w.add (numOfInt (-i)))
        scale32 (compatInterp .exp i.toNat u) n
      | .inf s => if s then 0#32 else round32 (.inf false)
      | .nan => f32NaN
    | .rsqrt =>
      let k := log2Ratio m 1 e
      let odd := k % 2
      let h := (k - odd) / 2
      let w := Num.fin false m (e - k + odd)
      if w.lt (.fin false 2 0) then
        let z := (w.add (numOfInt (-1))).mul (.fin false 16 0)
        let i := floorNum z
        scale32 (compatInterp .rsqrt i.toNat (round32 (z.add (numOfInt (-i))))) (-h)
      else
        let z := (w.add (numOfInt (-2))).mul (.fin false 8 0)
        let i := floorNum z
        scale32 (compatInterp .rsqrt (16 + i.toNat) (round32 (z.add (numOfInt (-i))))) (-h)
    | _ =>
      let k := log2Ratio m 1 e
      let z := ((Num.fin false m (e - k)).add (numOfInt (-1))).mul (.fin false 32 0)
      let i := floorNum z
      let y := compatInterp g i.toNat (round32 (z.add (numOfInt (-i))))
      match g with
      | .log => fmul (fadd (round32 (numOfInt k)) y) 0x3F317218#32
      | _ => let r := scale32 y (-k); if neg then r ^^^ 0x80000000#32 else r
  | _ => f32NaN

/-- A function in compatibility mode: the special values of R334, NaN for a negative LOG or RSQRT among them, else the
sequence (R340); the column of negative arguments names no value for EXP and RCP but the function's own, which the sequence
gives (log entry 107). -/
def spCompat (g : SpFn) (x : Word32) : Word32 :=
  match g.eval (val32 x) with
  | .special v =>
    if (val32 x).isFin && !(val32 x).isZero && v != .nan then compatSeq g x else round32 v
  | .ratio _ _ _ _ => compatSeq g x

end Sys2Proof.Machine
end

