-- ==== Sys2Proof/Machine/State.lean ====
section
/-!
DEFINITION. The state of the block as plain data, its faults and refusals, and its state after reset.
-/

namespace Sys2Proof.Machine

/-- Why a step has no next state. -/
inductive Fault where
  /-- Every meaning raises it when the command names a step that does not exist in this state: the condition of rule
  R<rule> does not hold. A step that has to wait is no fault. Safe: the block takes no such step. -/
  | notEnabled (rule : Nat)
deriving DecidableEq, Repr

/-- Why a command has no meaning. -/
inductive Refusal where
  /-- The dispatch raises it for a command that is not modelled yet. Safe: the model stops. -/
  | notModelled (mnemonic : String)
deriving DecidableEq, Repr

/-! ### Memory -/

/-- A memory: address and byte pairs in canonical form (Table.lean). -/
abbrev Mem := List Host.Cell

/-- The home of a byte: a well's cistern, the reservoir, the aquifer or host memory. -/
inductive Tier where
  | cistern (w : Nat)
  | reservoir
  | aquifer
  | host
deriving DecidableEq, Repr

/-- A place in a tier. -/
structure Loc where
  tier : Tier
  addr : Nat
deriving DecidableEq, Repr

/-! ### Bobbins -/

/-- A tensor descriptor (R174). -/
structure TDesc where
  fmt : Fmt := .fp32
  red : Bool := false
  base : Nat := 0
  sbase : Nat := 0
  tsaddr : Nat := 0
  kext : Nat := 0
  rows : Nat := 0
deriving DecidableEq, Repr

/-- A descriptor register as bound for a stitch (R168, R287). -/
structure TReg where
  desc : TDesc := {}
  row : Int := 0
  k0 : Int := 0
  kstep : Int := 0
  lscale : Nat := 0
  replay : Option TDesc := none
deriving DecidableEq, Repr

/-- A deque entry: the descriptor's guarded word, the SCT and SIG requests issued by earlier runs of the stitch
(R160), and whether it moved between wells (R322). -/
structure DeqEntry where
  gw : BitVec 128
  issued : Nat := 0
  foreign : Bool := false
  /-- Requests that earlier runs handed to the cistern units (R215, R223). -/
  reqs : List Nat := []
  /-- An attempt has started: no cross-well move takes it (R322). -/
  begun : Bool := false
deriving DecidableEq, Repr

/-- The five guard counts (R110). -/
structure Counts where
  clamp : Nat := 0
  edge : Nat := 0
  acc : Nat := 0
  score : Nat := 0
  out : Nat := 0
deriving DecidableEq, Repr

/-- A store-queue entry (R144). -/
structure StoreEntry where
  id : Nat
  instr : Nat
  va : Nat
  data : List Byte
  job : Nat
  /-- Low bits of its first byte and high bits of its last that are other elements' and stay as they are; the data is 0
  there (R79, R175). -/
  lo : Nat := 0
  hi : Nat := 0
  /-- Chunk index, rung and guarded descriptor of the stitch that made it (R189). -/
  rep : Nat := 0
  rung : Nat := 0
  gw : BitVec 128 := 0#128
deriving DecidableEq, Repr

/-- What a stitch is: its job, home well, walk record and slot, the pricking, template and loop point it comes
from, and the registers bound for it (R168, R287, R312). -/
structure Binding where
  entry : DeqEntry := { gw := 0#128 }
  job : Nat := 0
  /-- The well that runs it. -/
  well : Nat := 0
  home : Nat := 0
  slot : Nat := 0
  wrec : Nat := 0
  prick : Nat := 0
  tmpl : Nat := 0
  hdr : Word := 0#64
  guard : Word := 0#64
  regs : List TReg := []
  marks : List (Nat × Nat) := []
  point : List Nat := []
  i0 : Nat := 0
  i1 : Nat := 0
  dlast : Nat := 0
deriving DecidableEq, Repr

/-- The bobbin's SRAM and what an attempt keeps beside it: pillow bytes (none: not loaded in this attempt),
accumulators with clear and scaled flags (R138, R205), scale sources of the slots (R194; 0 is the constant 1.0,
otherwise an address), tensor scales read so far (R178), c of R196. -/
structure Pillow where
  bytes : Tab (Option Byte) := []
  seed : Nat := 0
  z : Tab Word32 := []
  clear : BitVec 16 := 0xFFFF#16
  scaled : BitVec 16 := 0#16
  scaleSrc : Tab Nat := []
  scales : Tab (Option Word32) := []
  c : Option Word32 := none
deriving DecidableEq, Repr

/-- A running stitch: its binding, its pillow and its place in the template. -/
structure Run where
  b : Binding := {}
  pil : Pillow := {}
  rung : Nat := 0
  attempt : Nat := 0
  idx : Nat := 0
  rep : Nat := 0
  counts : Counts := {}
  accPend : Nat := 0
  /-- SCT and SIG met in this run (R160). -/
  reqNo : Nat := 0
  pillowExc : Nat := 0
  /-- Requests accepted and not complete (R215). -/
  reqs : List Nat := []
  /-- The newest store entry of this stitch. -/
  lastStore : Nat := 0
  /-- The request whose rows are not all entered yet, and whether it is an SCT, which reqNo counts (R415, R160). -/
  qStall : Option (Nat × Bool) := none
  /-- Store entries of the last STT or PST that wait for room in the queue (R144). -/
  toStore : List StoreEntry := []
  /-- Places outside the pillow that this attempt has written or is to write, kept where it may be discarded (R120). -/
  outs : List (Nat × Nat) := []
  /-- Stalled in WAITS: event, count, since (R251). -/
  waits : Option (Nat × Nat × Nat) := none
deriving DecidableEq, Repr

/-- Fault record of a T-class exception (R189): where, the cause, the template index, and the chunk, the rung and the
guarded descriptor of the stitch, which holds its home well too (R323); none when a bobbin without a stitch is concerned.
Cause 0 is the limit of R252, which has no cause code. -/
structure FaultRec where
  well : Nat
  phys : Nat
  cause : Nat
  instr : Nat
  stitch : Option (Nat × Nat × BitVec 128) := none
deriving DecidableEq, Repr

/-- A stitch that left its bobbin and waits for its entries to be visible (R147). -/
structure Leaving where
  entry : DeqEntry
  job : Nat
  home : Nat
  slot : Nat
  wrec : Nat
  prick : Nat
  tmpl : Nat := 0
  point : List Nat
  lastStore : Nat
  reqs : List Nat
deriving DecidableEq, Repr

/-- A physical bobbin. Its state and logical number live in the registers WL_BOB_STATE and WL_BOB_MAP. -/
structure Bobbin where
  run : Option Run := none
  leaving : List Leaving := []
  storeQ : List StoreEntry := []
  powered : Bool := false
  admitted : Bool := false
  /-- Probes made in the current sweep of a thief (R316, R317). -/
  probes : Nat := 0
  /-- A full sweep found nothing: the thief waits for a placement or a delivery (R317). -/
  swept : Bool := false
  passedTest : Bool := false
  /-- Listed in the aquifer reserve as failing (R752). -/
  listed : Bool := false
deriving DecidableEq, Repr

/-! ### Requests and cistern units -/

/-- A GAT or SCT handed to the cistern units (R215 to R220, R415): its bobbin, its descriptors with the origins
it was issued with, the geometry record of a GAT, per item the destination row (none: nothing is written) and, for
an SCT, the source row's codes and scales, and the number of items not complete. -/
structure Req where
  well : Nat
  phys : Nat
  job : Nat
  gat : Bool
  fmt : Fmt
  dst : TDesc
  dstK : Int
  src : TDesc := {}
  srcRow : Int := 0
  srcK : Int := 0
  geom : List Byte := []
  rows : List (Option Int) := []
  data : List (List Nat × List Nat) := []
  left : Nat
  /-- Rows entered in the units' queues so far, in ascending row (R415). -/
  entered : Nat := 0
  /-- Template index, chunk index, rung and guarded descriptor of the stitch that issued it (R189, R222). -/
  instr : Nat := 0
  rep : Nat := 0
  rung : Nat := 0
  gw : BitVec 128 := 0#128
deriving DecidableEq, Repr

/-- An entry of a unit's request queues (R416): row of a GAT or SCT, row or segment of an operation, or a walker's
combine of one destination row. -/
inductive CuItem where
  | bob (req i : Nat)
  | op (id i : Nat)
  | comb (id i : Nat)
deriving DecidableEq, Repr

/-- A cistern unit (R416): its three queues, the queue it serves next, and the item it works on with the guard
counts it has made (none: idle). -/
structure CuUnit where
  bobQ : List CuItem := []
  opQ : List CuItem := []
  combQ : List CuItem := []
  turn : Nat := 0
  cur : Option (CuItem × Nat × Nat) := none
deriving DecidableEq, Repr

/-! ### Well controller and walker -/

/-- What a stalled controller waits for (R265); `since` is the timebase at which a limited stall began. -/
inductive CtlWait where
  | none
  | walkAccept (since : Nat)
  | enqAccept
  | walk (all : Bool) (tag : Nat)
  | event (ev count since : Nat)
  | pump (all : Bool) (tag : Nat)
  | pumpAccept
  | fenceWell
  | fencePart (posted : Bool)
  | checkpoint (pass list : Nat)
  | coll (posted : Bool)
  | mig
  | halt
deriving DecidableEq, Repr

/-- The well controller's run state (WL_CTL_STATUS.STATE). -/
inductive CtlState where
  | idle | loading | running | stalled | preempted | halted | faulted
deriving DecidableEq, Repr

/-- A walk record (R309), with the walk's outstanding work. -/
structure WalkRec where
  live : Bool := false
  job : Nat := 0
  prick : Nat := 0
  arg : Nat := 0
  tag : Nat := 0
  rank : Nat := 0
  /-- Stitches placed or enqueued and not completed. -/
  open_ : Nat := 0
  placedAll : Bool := false
deriving DecidableEq, Repr

/-- An accepted walk in the walker (R266): its job slot and record, and the loop point last visited as (iteration
count, index) per level entered, level 0 first, which holds every dynamic count read (R294). -/
structure Walk where
  slot : Nat
  wrec : Nat
  pos : List (Nat × Nat) := []
  /-- The search goes on from the last index of pos, not down from it. -/
  back : Bool := false
deriving DecidableEq, Repr

/-- Partials of one loop point of a split pricking (R298, R327): the walk (job, pricking, argument, tag), the home
well when the split level is local, the loop point without its split index, the number of splits, the walk records
that placed one of its stitches as (well, record), the splits completed, and the combine once issued. -/
structure SplitTrack where
  job : Nat
  prick : Nat
  arg : Nat
  tag : Nat
  home : Option Nat
  point : List Nat
  need : Nat
  members : List (Nat × Nat) := []
  done : List Nat := []
  combine : Option Nat := none
deriving DecidableEq, Repr

/-- The part of a controller that pre-emption saves (R279). -/
structure CtlCtx where
  regs : Tab Word := []
  pc : Nat := 0
  wait : CtlWait := .none
deriving DecidableEq, Repr

/-- A walk, an enqueued stitch (its descriptor, the deque that ENQ TO names, and its tag) or a guarded operation of the
layer in progress (R286, R267), in the order in which the program issued them. -/
inductive LayerItem where
  | walk (prick arg tag : Nat)
  | enq (d : Word) (named : Option Nat) (tag : Nat)
  | op (addr tag : Nat)
deriving DecidableEq, Repr

/-- The layer in progress on a well (R286, R122): the guard entry of its first walk or guarded operation, its
walks, enqueued stitches and operations, its trigger flag as the number of stitch attempts and the number of operations
and combines of this well that exceed a threshold (R122, R123, R128), the smallest last rung of its parts, the parts of a
replay not yet begun, and the places that its stitches have written (R120). -/
structure Layer where
  guard : Option Word := none
  items : List LayerItem := []
  hits : Nat := 0
  cuHits : Nat := 0
  last : Nat := 3
  replay : List LayerItem := []
  outs : List (Nat × Nat) := []
deriving DecidableEq, Repr

/-- One well. -/
structure Well where
  job : Option Nat := none
  ctl : CtlState := .idle
  cx : CtlCtx := {}
  /-- Program length (R275, R277). -/
  plen : Nat := 0
  walks : List Walk := []
  /-- Placement pointers of R314: regular set, border set. -/
  place : Nat := 0
  placeBorder : Nat := 0
  /-- Start of an exit from W1 (R157) and of the activity ramp (R158). -/
  exitAt : Option Nat := none
  rampAt : Option Nat := none
  layer : Layer := {}
  /-- FENCE PARTITION and CHECKPOINT instances posted by this well for its job (R269, R270). -/
  fences : Nat := 0
  /-- Collective instances posted per group (R656). -/
  colls : Tab Nat := []
deriving DecidableEq, Repr

/-! ### Pumps and operations -/

/-- A pump and its progress record (R448, R455, R457): state 0 FREE, 1 RUNNING, 2 SUSPENDED, 3 FAILED, the transfer
descriptor as accepted or the operation it issues, the next unit to issue, the units in flight, the completed units
at or above the watermark, and the watermark. -/
structure Pump where
  state : Nat := 0
  job : Nat := 0
  tag : Nat := 0
  addr : Nat := 0
  words : List Word := []
  op : Option Nat := none
  issued : Nat := 0
  flight : List Nat := []
  ahead : List Nat := []
  mark : Nat := 0
  /-- The pump whose progress record holds a suspended transfer, and MARK as that record holds it (R457, R458). -/
  no : Nat := 0
  gmark : BitVec 128 := 0#128
deriving DecidableEq, Repr

/-- A combine of split partials (R298, R326, R327): source and destination descriptors, the destination origin, the
origin of each split's partial, and the rectangles (row offset, K offset, rows, elements) the template stores. -/
structure Comb where
  src : TDesc
  dst : TDesc
  r0 : Int
  k0 : Int
  parts : List (Int × Int)
  rects : List (Nat × Nat × Nat × Nat)
deriving DecidableEq, Repr

/-- An operation of the cistern units in progress (R406, R413, R418): its record or combine, the rung at which it
writes, its items in all, issued and completed, its guard entry and the counts of its items, and the tensor scale
it computed. -/
structure OpRun where
  job : Nat
  well : Nat
  words : List Word := []
  comb : Option Comb := none
  rung : Nat := 0
  total : Nat := 0
  issued : Nat := 0
  done_ : Nat := 0
  guard : Option Word := none
  clamps : Nat := 0
  edges : Nat := 0
  tscale : Option Word32 := none
  /-- Last rung the operation may reach by itself (R116). -/
  last : Nat := 0
deriving DecidableEq, Repr

/-! ### Links (R635 to R652) -/

/-- A DATA frame sent and not acknowledged (R641): the job it serves, when it was first sent, and how often it was
sent again. -/
structure SentFrame where
  frame : Frame
  job : Option Nat := none
  first : Nat := 0
deriving DecidableEq, Repr

/-- An outstanding request of VC2 (R647): EPOCH and TAG as one number, its OP and its job. -/
structure OutReq where
  pair : Nat
  op : Nat
  job : Option Nat := none
  /-- Bytes still to come. -/
  left : Nat := 0
deriving DecidableEq, Repr

/-- A connection: a port, a peer and a VC, both directions (R637). LAST_RX lies one below NEXT_TX at reset, as R652
leaves them after a RESYNC (log entry 40). -/
structure Conn where
  nextTx : Nat := 0
  lastRx : Nat := 65535
  unacked : List SentFrame := []
  /-- DATA frames that wait for credit, pool room or the port. -/
  waiting : List (Frame × Option Nat) := []
  /-- Receive credit that the peer granted, in units of 256 bytes (R644). -/
  credit : Nat := 1024
  /-- When RTO began to run, and the resends of the oldest frame (R643). -/
  rtoAt : Option Nat := none
  resends : Nat := 0
  /-- Frames accepted since the last ACK sent, and when the first was (R640). -/
  accepted : Nat := 0
  ackDue : Option Nat := none
  dupAck : Option Nat := none
  nakAt : Option Nat := none
  /-- Unreachable since, last HELLO, abandoned since (R643, R651, R652). -/
  unreach : Option Nat := none
  helloAt : Nat := 0
  abandoned : Option Nat := none
  /-- A RESYNC is sent and its ACK awaited (R652). -/
  resync : Bool := false
  /-- The next EPOCH and TAG, outstanding requests, and pairs in quarantine with their release (R647, R648). -/
  nextPair : Nat := 0
  outst : List OutReq := []
  quar : List (Nat × Nat) := []
deriving DecidableEq, Repr

/-- The ports' state outside their registers: connections by (port, peer, VC), routes as (port, MAC) by peer (R653),
frames sent as (port, frame), newest first, and payloads delivered upward as (OP, payload), newest first. -/
structure Links where
  conns : Tab Conn := []
  routes : Tab (Nat × Nat) := []
  sent : List (Nat × Frame) := []
  delivered : List (Nat × List Byte) := []
deriving DecidableEq, Repr

/-! ### Collectives (R655 to R667) -/

/-- A contribution of a member to a stage (R659). -/
structure Contrib where
  stage : Nat
  rank : Nat
  src : Nat
  top : Nat
  shape : Nat
  mism : Bool
  vals : List Word
deriving DecidableEq, Repr

/-- An instance record (R655, R656): its job once a well has posted, a FENCE PARTITION or a COLL, group and number;
TOP and SHAPE of its first post or frame; the posts as (well, values); the contribution that enters the next stage;
whether this device has sent upward; contributions received; the deadline and grace fixed at the first post
(R662), and when ABORT was sent. -/
structure Coll where
  job : Option Nat
  fence : Bool
  group : Nat
  k : Nat
  top : Nat
  shape : Nat
  mism : Bool := false
  posts : List (Nat × List Word) := []
  own : Option Contrib := none
  sentUp : Bool := false
  inputs : List Contrib := []
  started : Option Nat := none
  deadline : Nat := 0
  grace : Nat := 0
  aborted : Option Nat := none
deriving DecidableEq, Repr

/-- A decided instance (R665): status 0 OK, 1 TIMEOUT, 2 MISMATCH, its values, and the wells at which they are
written. -/
structure Decision where
  job : Option Nat
  fence : Bool
  group : Nat
  k : Nat
  top : Nat
  shape : Nat
  status : Nat
  vals : List Word := []
  written : List Nat := []
deriving DecidableEq, Repr

/-! ### Checkpoints (R270, R682 to R687) -/

/-- A CHECKPOINT past its barrier: pass, list, the area written and its CPSEQ, and in pair mode the mirror's stage:
0 none, 1 bytes sent, 2 header sent, 3 acknowledged (R686), and the acknowledgements of bytes still awaited. -/
structure CpRun where
  pass : Nat
  list : CpList
  area : Nat
  cpseq : Nat
  mirror : Nat := 0
  acks : Nat := 0
  /-- The header as it was mirrored; empty before. -/
  header : List Word := []
deriving DecidableEq, Repr

/-! ### Jobs -/

/-- A migration record (R459). -/
structure MigRec where
  rbase : Nat := 0
  rframes : Nat := 0
  cmib : Nat := 0
  auto_ : Bool := false
  hbase : Nat := 0
  hframes : Nat := 0
deriving DecidableEq, Repr

/-- A context-cache record (R365). -/
structure PoolRec where
  base : Nat := 0
  pages : Nat := 0
  cisMax : Nat := 0
  resMax : Nat := 0
  hostMax : Nat := 0
deriving DecidableEq, Repr

/-- Where a job stands between fetch and its COMPLETE entry. -/
inductive JobPhase where
  | verifying | accepting | waiting | running | preempting | preempted | stopping | ended | committed
deriving DecidableEq, Repr

/-- A job and its tag (R606, R611, R623); `order` is its place among acceptances, 0 before. -/
structure Job where
  queue : Nat
  gen : Nat
  seq : Nat
  prio : Nat
  psize : Nat
  arg : Nat
  root : Nat
  phase : JobPhase := .verifying
  durable : Bool := false
  mirrored : Bool := false
  order : Nat := 0
  boundAt : Nat := 0
  /-- The job for which the scheduler pre-empts this one (R624, R631). -/
  stopFor : Option Nat := none
  part : Option Nat := none
  wells : List Nat := []
  slots : List Nat := []
  passes : Nat := 0
  resumed : Bool := false
  widened : Bool := false
  status : Option Nat := none
  reason : Nat := 0
  addr : Nat := 0
  tbAccept : Nat := 0
  scratch : Nat := 0
  noRestart : List Nat := []
  pricks : List Nat := []
  ops : List Nat := []
  locked : List Nat := []
  layerRung : Nat := 0
  /-- A restart-class event met a template marked not restartable: the partition rolls back (R185). -/
  rollback : Bool := false
  /-- The wells that the header of its last mirrored checkpoint names (R692); empty for any. -/
  want : List Nat := []
  /-- The job was taken over from the twin (R692); held until formation (R696). -/
  taken : Bool := false
  held : Bool := false
  /-- A well on which the job holds a slot was lost (R775). -/
  rebuild : Bool := false
  commitDurable : Bool := false
  commitMirrored : Bool := false
  mig : MigRec := {}
  pool : PoolRec := {}
  /-- Free frames for moves (R459, R464): a place and a number of bytes. -/
  free : List (Loc × Nat) := []
  /-- Rows of its image written (R521). -/
  imgDone : Nat := 0
  /-- Pool pages appended to or prefetched, newest last (R369). -/
  recent : List Nat := []
  /-- The CHECKPOINT in progress past its barrier (R270). -/
  cp : Option CpRun := none
  /-- The noise state: pass key P and completed fills (R559). -/
  noiseP : Nat := 0
  noiseN : Nat := 0
  /-- Input records to be filled; noise fills due, and noise fills written but not yet signalled, each as 16 × P + record, P
  being the pass key that it takes (R555, R559, R560). -/
  inputsDue : List Nat := []
  fillsDue : List Nat := []
  filling : List Nat := []
deriving DecidableEq, Repr

/-! ### Migration -/

/-- A request to the migration engine (R466, R467): 0 PREFETCH, 1 DEMOTE, 2 PIN, 3 UNPIN; the part of its range
that is still to be served. -/
structure MigReq where
  job : Nat
  part : Nat
  well : Nat
  op : Nat
  tier : Nat := 0
  lo : Nat
  hi : Nat
  /-- A promotion on access counts (R468). -/
  promo : Bool := false
deriving DecidableEq, Repr

/-- A move under way (R464): its page, leaf entry, frames, and whether its copy runs. -/
structure Move where
  job : Nat
  va : Nat
  at_ : Nat
  size : Nat
  src : Loc
  dst : Loc
  copying : Bool := false
  prefetch : Bool := false
  /-- The wellhead pump, 8 to 15, that copies it (R448). -/
  pump : Option Nat := none
deriving DecidableEq, Repr

/-- The migration engine: requests in arrival order, the partition served last, moves, and the fill counts of
R468 by well and page. -/
structure Engine where
  queue : List MigReq := []
  turn : Nat := 11
  moves : List Move := []
  fills : Tab Nat := []
  windowAt : Nat := 0
deriving DecidableEq, Repr

/-- What a wellhead pump 0 to 7 serves for more than one step (R448): the journal program, a job's checkpoint, or the fill of a
noise record of a job (R561). -/
inductive WhUse where
  | journal
  | checkpoint (job : Nat)
  | noise (job n : Nat)
deriving DecidableEq, Repr

/-! ### Translation buffers and walkers (R436 to R442) -/

/-- A translation in a buffer: context, page address, page size, leaf (R436). -/
structure TlbEntry where
  ctx : Nat
  page : Nat
  size : Nat
  val : Word
deriving DecidableEq, Repr

/-- A table pointer in the walk cache: context, the level of the entry it came from, the address bits above that
level, and the pointer (R437). -/
structure WalkPtr where
  ctx : Nat
  level : Nat
  va : Nat
  ptr : Nat
deriving DecidableEq, Repr

/-- An entry of a miss queue: context, 64 KiB page number, and the requesters that joined, each as 256 × queue + number
(R440); a walk whose job has ended goes on, and its result is discarded (R447). -/
structure Miss where
  ctx : Nat
  page : Nat
  reqs : List Nat
  dead : Bool := false
  /-- The address at which each of those requesters waits. -/
  vas : List Nat := []
deriving DecidableEq, Repr

/-- A miss queue: its entries, the requesters that stall on it as misses of their own, the misses that wait for a page
in transit (R438), and the stamp at which its head became head (R439). -/
structure MissQ where
  queue : List Miss := []
  stalled : List Miss := []
  parked : List Miss := []
  head : Nat := 0
deriving DecidableEq, Repr

/-! ### Well caches and the directory (R528 to R535) -/

/-- State of a line that a well cache holds (R531); a line that it does not list is INVALID. -/
inductive LineSt where
  | shared | exclusive | modified
deriving DecidableEq, Repr

/-- A directory entry (R532): SHARED with its sharers, or OWNED. -/
structure DirEntry where
  line : Nat
  owner : Option Nat := none
  sharers : List Nat := []
deriving DecidableEq, Repr

/-! ### The reservoir -/

/-- An evacuation (R496 to R500): the fenced package, its donor range, the packages that were ACTIVE at the command,
the granules below which all are copied and those copied out of order. -/
structure Evac where
  pkg : Nat
  donor : Nat
  active : List Nat
  next : Nat := 0
  early : List Nat := []
deriving DecidableEq, Repr

/-! ### The aquifer (R512 to R514) -/

/-- A read entry: the image-region address of its next page, the pages left, and the SOURCE code of its requester
(R526). -/
structure AqEntry where
  addr : Nat
  left : Nat
  src : Nat
deriving DecidableEq, Repr

/-! ### Host interface (R605 to R631) -/

/-- A queue outside its registers: completion entries that wait (R617), each with 0, 1 while the twin's acknowledgement
of its mirror is awaited (R681), or 2 while its job's acceptance or commit is; the ring's phase (R614), entries not yet signalled and when the first was written
(R629). -/
structure HostQ where
  waiting : List (CEntry × Nat) := []
  phase : Bool := true
  unsig : Nat := 0
  unsigAt : Nat := 0
deriving DecidableEq, Repr

/-- A journal record as it is written: its eight fields as 128-bit guarded words (R36, R613). -/
abbrev JStored := List (BitVec 128)

/-- The journal (R524): durable pages, newest first, the program under way and the records that join the next. -/
structure Journal where
  pages : List (List JStored) := []
  program : Option (List JRec) := none
  joining : List JRec := []
deriving DecidableEq, Repr

/-! ### The pair (R674 to R702) -/

/-- The pair outside its registers: messages sent, newest first, as (epoch, message); when HB_IN last toggled, when
port 8 went down, the suspension of R689; the twin's queues taken over; the twin journal, mirrored completion entries,
queue states and checkpoint headers; sync mirrors not acknowledged, and which side has finished formation order 4;
stale messages discarded (R676). The twin journal holds its records as they are written (R613, R682). -/
structure Pair where
  sent : List (Nat × PairMsg) := []
  hbAt : Option Nat := none
  linkDownAt : Option Nat := some 0
  suspended : Option Nat := none
  twinQown : Word := 0#64
  taken : Word := 0#64
  epochHeld : Nat := 0
  journal : List JStored := []
  /-- Mirrors that wait for a tag of VC2 (R647, R648). -/
  mirrorQ : List PairMsg := []
  /-- Mirrored entries, newest first: the entry, its ring index, and the PHASE of the next. -/
  entries : List (CEntry × Nat × Bool) := []
  queues : Tab (Option QMirror) := []
  headers : List CpHeader := []
  owed : Nat := 0
  sentSync : Bool := false
  gotSync : Bool := false
  handback : Bool := false
  frozen : Bool := false
  stale : Nat := 0
deriving DecidableEq, Repr

/-! ### Power, time, reset and service (R50 to R71, R703 to R755, R765 to R781) -/

/-- A domain whose rails are coming up (R716, R720): 1 from the enabling of its rails, 2 off until its second attempt;
when that began, and whether the second attempt runs. -/
structure Rail where
  phase : Nat := 0
  at_ : Nat := 0
  second : Bool := false
deriving DecidableEq, Repr

/-- An entry into W2, W3 or W4 under way (R709): its target, its wells, when it was requested, and whether PM_CMD did. -/
structure Entry where
  target : Nat
  wells : List Nat
  at_ : Nat
  cmd : Bool
deriving DecidableEq, Repr

/-- The power sequencer, the references and the timebase, the boot ROM, the sensor chain and the management bus, outside
their registers. -/
structure Power where
  /-- Why the module is off: the input fell below 41.0 V, it rose through 62.0 V, or MOD_EN is low (R50, R54, R71). -/
  uv : Bool := false
  ov : Bool := false
  enLow : Bool := false
  /-- Standby until a cold reset: after the thermal trip, with its die (R62), or a failed wellhead core domain (R723). -/
  standby : Bool := false
  tripDie : Option Nat := none
  /-- W4 (R703). -/
  w4 : Bool := false
  /-- MOD_PG (R57). -/
  pg : Bool := false
  /-- PERST0_N and PERST1_N asserted, and BIFURC sampled since the cold reset (R57, R64). -/
  perst0 : Bool := true
  perst1 : Bool := true
  sampled : Bool := false
  /-- From when BOOT_MS counts, the boot copies still to be checked in order (R746), and the security floor, which is
  fused (R745). -/
  bootAt : Nat := 0
  copies : List Nat := []
  floor : Nat := 0
  /-- The copy that the last boot ran, in the aquifer reserve: 0 A, 1 B (R746). -/
  copyUsed : Nat := 0
  /-- What checkpoint areas hold for jobs that a power loss left without a record in the wellhead (R684, R696). -/
  areas : List CpHeader := []
  /-- The reservoir is trained since the reset (R478). -/
  trained : Bool := false
  /-- Wells whose self-test runs: 0 at boot, 1 in a well reset, 2 in a TEST command. -/
  testing : List (Nat × Nat) := []
  /-- When a well was last reset, newest first (R774). -/
  resets : Tab (List Nat) := []
  /-- Cold starts and whether the pair was in sync, both in the aquifer reserve (R622, R696, R730). -/
  boots : Nat := 0
  wasSync : Bool := false
  /-- The entry under way; wells whose rails are still to start (R716), when the last one's did, and the domains whose
  rails come up: well n, 12 + n its reservoir-controller domain, 24 periphery, 25 minimal. -/
  entry : Option Entry := none
  staging : List Nat := []
  railAt : Option Nat := none
  rails : Tab Rail := []
  /-- The wake under way: whether the reservoir steps belong to it (R717), whether PM_CMD started it, whether a domain
  failed in it (R721), and when it began (R729). -/
  deep : Bool := false
  wakeCmd : Bool := false
  degraded : Bool := false
  wakeAt : Nat := 0
  /-- Since when a well is idle, or in W1 or W2 (R704, R708), and when its entry into W1 was requested (R472). -/
  idleAt : Tab (Option Nat) := []
  stateAt : Tab Nat := []
  w1Req : Tab (Option Nat) := []
  /-- The limit in effect in W (R55), the excursion under way or made last and whether it still runs (R51), and the target
  of the thermal loop by well in mV (R724). -/
  limitW : Nat := 4000
  excAt : Option Nat := none
  excOn : Bool := false
  vtherm : Tab Nat := []
  /-- Readings of the management controller: input voltage in mV, current in mA, power in mW (R69); its status bytes and
  its last answer. -/
  vin : Nat := 0
  iin : Nat := 0
  pin : Nat := 0
  stInput : Byte := 0#8
  stTemp : Byte := 0#8
  answer : List Byte := []
  /-- The sweep made last, hops that timed out in the one under way, ascending and descending, and consecutive sweeps
  that did not reach a die (R766 to R768). -/
  sweepAt : Nat := 0
  hopAsc : Option Nat := none
  hopDesc : Option Nat := none
  miss : Tab Nat := []
  /-- A reading rose past WAKE_C in the last sweep (R712). -/
  thermal : Bool := false
  /-- A DATA frame came to port 8 in W3 and waits in its receive buffer (R712). -/
  twinWaits : Bool := false
  /-- The level of HB_OUT, and when it last toggled (R68). -/
  hbOut : Bool := false
  hbAt : Nat := 0
  /-- When a reference's last fault ended, as far as it is known (R728). -/
  refAt : Tab Nat := []
  /-- The fraction of R732 in 1/64 ns, edges of the coarse advance under way, and ERR_US before it (R733). -/
  frac : Nat := 0
  edges : Nat := 0
  errBase : Nat := 0
  /-- The high half latched by a read of the low half, and whether no read of the high half has come since (R734). -/
  tbHigh : Word32 := 0#32
  tbLatched : Bool := false
  /-- The alarm has fired since it was set (R735). -/
  alarmed : Bool := false
deriving DecidableEq, Repr

/-- The module is off (R54, R71). -/
def Power.off (p : Power) : Bool := p.uv || p.ov || p.enLow

/-! ### The state -/

/-- The block. -/
structure State where
  /-- The commands waiting, first in, first out. -/
  pending : List Instr := []
  /-- The model's own counter of free values drawn (no register of the block). -/
  fresh : Nat := 0
  /-- Every register of the map that does not hold its reset value, by BAR0 offset. -/
  regs : Tab Word := []
  /-- Cistern bytes; well w's byte a at w * 2^33 + a. -/
  cistern : Mem := []
  reservoir : Mem := []
  aquifer : Mem := []
  hostMem : Mem := []
  /-- 64-byte blocks that read uncorrectable or poisoned: cistern block keys, as for the bytes. -/
  poison : Tab Bool := []
  wells : Tab Well := []
  bobs : Tab Bobbin := []
  /-- Fault records of the T-class exceptions, newest first. -/
  faultRecs : List FaultRec := []
  deques : Tab (List DeqEntry) := []
  /-- Event counters: ((well * 64 + slot) * 65536 + event). -/
  events : Tab Nat := []
  /-- Walk records: (well * 64 + slot) * 64 + record. -/
  walkRecs : Tab WalkRec := []
  /-- Instruction memories: well * 32768 + index. -/
  imem : Tab Word := []
  /-- Split points whose combine is not complete (R298). -/
  splits : List SplitTrack := []
  /-- What a pre-empted job keeps of its wells (R279, R294): well * 64 + slot. -/
  savedWells : Tab Well := []
  /-- Entries on the deques of pre-empted jobs (R324): (well * 64 + slot) * 128 + logical. -/
  savedDeques : Tab (List DeqEntry) := []
  jobs : List Job := []
  /-- Requests accepted and not complete, by number. -/
  reqs : List (Nat × Req) := []
  /-- Cistern units: well * 64 + unit. -/
  units : Tab CuUnit := []
  /-- Pumps of the wells: well * 8 + pump. -/
  pumps : Tab Pump := []
  /-- Suspended progress records, in pump order: well * 64 + slot (R457, R473). -/
  susp : Tab (List Pump) := []
  /-- WL_CIS_SPLIT.CACHE as it is in effect, per well; 4 after reset (R400, R402). -/
  caches : Tab Nat := []
  /-- The migration engine. -/
  engine : Engine := {}
  /-- Wellhead pumps 0 to 7: what each took up last; it is free again once that is over (R448). -/
  whPumps : Tab (Option WhUse) := []
  /-- Operations of the cistern units in progress, by number. -/
  ops : List (Nat × OpRun) := []
  /-- The next request, store entry or operation number. -/
  nextId : Nat := 1
  /-- The value of TR_HROOT that the device uses: the pair last judged good (R41, R445). -/
  hroot : Word := 0#64
  /-- When the fault collector last signalled (R761). -/
  fcLast : Option Nat := none
  /-- When the PCIe link, or that of half 0, went down; none while it is up (R469). -/
  hostDown : Option Nat := some 0
  /-- The reservoir packages are in self-refresh (R501). -/
  rvSelfRefresh : Bool := false
  /-- Translation buffers by set, most recent first: queue * 512 + set; queue 12 is the wellhead's (R436, R442). -/
  tlb : Tab (List TlbEntry) := []
  /-- The walk cache, most recent first (R437). -/
  walkPtrs : List WalkPtr := []
  /-- Miss queues of the wells, and of the wellhead as 12 (R440, R442). -/
  missQs : Tab MissQ := []
  /-- What walkers 0 to 15 walk: the queue and the miss (R439). -/
  walkers : Tab (Option (Nat × Miss)) := []
  /-- Well caches by set, most recent first: well * 2^20 + set, as (line, state) (R403, R531). -/
  lines : Tab (List (Nat × LineSt)) := []
  /-- The directory by set, most recent first (R532). -/
  dir : Tab (List DirEntry) := []
  /-- Evacuations of reservoir packages, finished ones included (R497). -/
  evacs : List Evac := []
  /-- Sluice buckets and the bursts served in the tick: package * 13 + sluice (R492, R494). -/
  buckets : Tab Nat := []
  bursts : Tab Nat := []
  /-- CAP of each sluice as it stood at the tick (R494, R505). -/
  caps : Tab Nat := []
  /-- Requests that wait at a package's controller for burst slots, as (sector, bursts already served): package * 14 +
  sluice, 13 the table reads (R493). -/
  rvWaits : Tab (List (Nat × Nat)) := []
  /-- The sluice whose turn comes next, and the burst slots used in the tick, by package (R492, R493). -/
  rvTurn : Tab Nat := []
  rvSlots : Tab Nat := []
  /-- Ticks of the sluices that have begun (R492). -/
  rvTicks : Nat := 0
  /-- When a channel's reads were repeated, newest first: package * 4 + channel (R489). -/
  repeats : Tab (List Nat) := []
  /-- When a package's MR4 was last read (R477). -/
  mr4At : Tab Nat := []
  /-- Read queues of the aquifer packages: package * 13 + queue; entries beyond 16 are stalled (R513). -/
  aqQs : Tab (List AqEntry) := []
  /-- The queue a package serves next (R514). -/
  aqTurn : Tab Nat := []
  /-- The boot partition: copy * 2^27 + byte (R525). -/
  boot : Mem := []
  /-- The ports. -/
  links : Links := {}
  /-- Instance records of the collective unit (R655). -/
  colls : List Coll := []
  /-- Decisions held, newest first (R665). -/
  decided : List Decision := []
  /-- Saved state of checkpoint areas (R684). -/
  saved : List CpSaved := []
  /-- Codec sessions, in the order in which their cores turn to them (R571, R572). -/
  sessions : List Session := []
  /-- The window caches of encode cores 0 and 1, by reference in use (R590). -/
  windows : Tab (List RefWindow) := []
  /-- Fenced well-to-well links, as (well, well) with the lower number first (R24). -/
  fabric : List (Nat × Nat) := []
  /-- BIFURC as sampled: two functions of eight lanes (R64, R600). -/
  bifurc : Bool := false
  /-- When the link of half 1 went down in x8 + x8 mode. -/
  halfDown : Option Nat := some 0
  /-- The wellhead SRAM that the recovery window maps (R748). -/
  recovery : Mem := []
  /-- The host queues outside their registers. -/
  hqs : Tab HostQ := []
  /-- The journal. -/
  jn : Journal := {}
  /-- The pair. -/
  pair : Pair := {}
  /-- Power, time, reset and service. -/
  pw : Power := {}
  /-- The MSI-X tables by 8-byte slot: function * 512 + slot (R795). -/
  msixTab : Tab Word := []
  /-- Bytes that the last BAR2 read returned (R603). -/
  bar2Data : List Byte := []
  /-- MSI-X signals sent, (function, vector), newest first. -/
  msix : List (Nat × Nat) := []
deriving DecidableEq, Repr

/-- The block right after a cold reset. -/
def State.reset : State := {}

end Sys2Proof.Machine
end

