-- ==== Sys2Proof/Machine/Ops.lean ====
section
/-!
DEFINITION. The named operations over the state that every meaning uses: registers, units, memory by tier,
translation (R424 to R435), guarded words (R36 to R38), free values, fault reports (R756 to R762), interrupts
and the end of a job by a status (R619).
-/

namespace Sys2Proof.Machine

/-- The outcome of a command. -/
abbrev Res := Host.Outcome State Fault Refusal

/-- A step that needs a condition of rule R<rule>. -/
def need (c : Bool) (rule : Nat) (r : Res) : Res := if c then r else .fault (.notEnabled rule)

/-- A step that needs a value, which rule R<rule> provides. -/
def needSome {α : Type} (o : Option α) (rule : Nat) (f : α → Res) : Res :=
  match o with
  | some a => f a
  | none => .fault (.notEnabled rule)

/-- The unit stalls under rule R<rule>: the step is not taken, nothing changes, and the same step can come again. -/
def State.stalls (s : State) (_rule : Nat) : Res := .next s

/-! ### Registers -/

/-- The value of the register at BAR0 offset o. -/
def State.reg (s : State) (o : Nat) : Word := tabGet (regReset o) s.regs o

/-- The register at o replaced. -/
def State.setReg (s : State) (o : Nat) (v : Word) : State :=
  { s with regs := tabPut (regReset o) s.regs o v }

/-- Field [hi:lo] of the register at o. -/
def State.fld (s : State) (o hi lo : Nat) : Nat := bitsOf (s.reg o) hi lo

/-- Field [hi:lo] of the register at o replaced. -/
def State.setFld (s : State) (o hi lo v : Nat) : State := s.setReg o (setBits (s.reg o) hi lo v)

/-- Field [hi:lo] of the register at o raised by n, saturating. -/
def State.incFld (s : State) (o hi lo n : Nat) : State := s.setReg o (addSat (s.reg o) hi lo n)

/-- A record register with VALID [63] and OVERRUN [62]: the first record since VALID was cleared stays, and OVERRUN is
cleared by a written 1 alone (R14). -/
def State.latch (s : State) (o : Nat) (v : Word) : State :=
  if bitOf (s.reg o) 63 then s.setFld o 62 62 1
  else s.setReg o (setBits (setBits v 63 63 1) 62 62 (s.fld o 62 62))

/-- The timebase (R730). -/
def State.now (s : State) : Nat := (s.reg rPmTimebase).toNat

/-! ### Units -/

/-- Well w. -/
def State.well (s : State) (w : Nat) : Well := tabGet {} s.wells w
/-- Well w replaced. -/
def State.setWell (s : State) (w : Nat) (x : Well) : State := { s with wells := tabPut {} s.wells w x }
/-- Physical bobbin p of well w. -/
def State.bob (s : State) (w p : Nat) : Bobbin := tabGet {} s.bobs (w * 136 + p)
/-- Physical bobbin p of well w replaced. -/
def State.setBob (s : State) (w p : Nat) (b : Bobbin) : State :=
  { s with bobs := tabPut {} s.bobs (w * 136 + p) b }
/-- The deque of logical bobbin l of well w, head first. -/
def State.deque (s : State) (w l : Nat) : List DeqEntry := tabGet [] s.deques (w * 128 + l)
/-- That deque replaced. -/
def State.setDeque (s : State) (w l : Nat) (d : List DeqEntry) : State :=
  { s with deques := tabPut [] s.deques (w * 128 + l) d }
/-- Event counter ev of job slot k on well w (R249). -/
def State.event (s : State) (w k ev : Nat) : Nat := tabGet 0 s.events ((w * 64 + k) * 65536 + ev)
/-- That counter replaced. -/
def State.setEvent (s : State) (w k ev v : Nat) : State :=
  { s with events := tabPut 0 s.events ((w * 64 + k) * 65536 + ev) v }
/-- The event table of slot k on well w set to 0 (R249). -/
def State.clearEvents (s : State) (w k : Nat) : State :=
  { s with events := tabDrop (fun e => e / 65536 == w * 64 + k) s.events }
/-- Walk record r of job slot k on well w (R309). -/
def State.wrec (s : State) (w k r : Nat) : WalkRec := tabGet {} s.walkRecs ((w * 64 + k) * 64 + r)
/-- That record replaced. -/
def State.setWrec (s : State) (w k r : Nat) (x : WalkRec) : State :=
  { s with walkRecs := tabPut {} s.walkRecs ((w * 64 + k) * 64 + r) x }

/-- Job number j. -/
def State.job (s : State) (j : Nat) : Option Job := s.jobs[j]?
/-- Job number j changed. -/
def State.modJob (s : State) (j : Nat) (f : Job → Job) : State := { s with jobs := s.jobs.modify j f }

/-- State of physical bobbin p (R152, R163): 0 IN_USE, 1 SPARE, 2 FENCED, 3 TESTING. -/
def State.bobState (s : State) (w p : Nat) : Nat :=
  s.fld (rWlBobState w (p / 32)) (2 * (p % 32) + 1) (2 * (p % 32))
/-- That state replaced. -/
def State.setBobState (s : State) (w p v : Nat) : State :=
  s.setFld (rWlBobState w (p / 32)) (2 * (p % 32) + 1) (2 * (p % 32)) v
/-- Physical bobbin of logical l; 0xFF when vacant (R163). -/
def State.physOf (s : State) (w l : Nat) : Nat :=
  s.fld (rWlBobMap w (l / 8)) (8 * (l % 8) + 7) (8 * (l % 8))
/-- That mapping replaced. -/
def State.setPhys (s : State) (w l v : Nat) : State :=
  s.setFld (rWlBobMap w (l / 8)) (8 * (l % 8) + 7) (8 * (l % 8)) v
/-- Logical number of physical p; 0xFF when it has none. -/
def State.logOf (s : State) (w p : Nat) : Nat :=
  ((List.range 128).find? (fun l => s.physOf w l == p)).getD 0xFF

/-- A border bobbin (R151). -/
def isBorder (p : Nat) : Bool := decide (p < 17)

/-! ### Free values -/

/-- n fresh undefined bytes (R17), and the state that has drawn them. -/
def State.freeBytes (s : State) (n : Nat) : List Byte × State :=
  ((List.range n).map (fun i => Config.freeByte (s.fresh + i)), { s with fresh := s.fresh + n })

/-- A fresh open number. -/
def State.freeNat (s : State) : Nat × State := (Config.freeNat s.fresh, { s with fresh := s.fresh + 1 })

/-- A fresh open bit. -/
def State.freeBit (s : State) : Bool × State := (Config.freeBit s.fresh, { s with fresh := s.fresh + 1 })

/-! ### Bytes -/

/-- Little-endian value of bytes (R12). -/
def leVal : List Byte → Nat
  | [] => 0
  | b :: t => b.toNat + 256 * leVal t

/-- n little-endian bytes of a number (R12). -/
def leBytes : Nat → Nat → List Byte
  | 0, _ => []
  | n + 1, v => BitVec.ofNat 8 v :: leBytes n (v / 256)

/-- Byte a of a memory; an unlisted byte reads as 0 (log entry 3). -/
def memGet (m : Mem) (a : Nat) : Byte := tabGet 0#8 m a
/-- n bytes from a. -/
def memRead (m : Mem) (a n : Nat) : List Byte := (List.range n).map (fun i => memGet m (a + i))
/-- Bytes written from a. -/
def memWrite (m : Mem) (a : Nat) : List Byte → Mem
  | [] => m
  | b :: t => memWrite (tabPut 0#8 m a b) (a + 1) t
/-- The canonical form of a memory. -/
def Mem.wf (m : Mem) : Bool := tabWf 0#8 m

/-! ### Tiers -/

/-- Bytes of a cistern (R392). -/
def cisternSize : Nat := 5 * 2 ^ 30
/-- Usable bytes of the reservoir (R25). -/
def reservoirSize : Nat := 2160 * 2 ^ 30
/-- Usable bytes of the aquifer (R431). -/
def aquiferSize : Nat := 16 * 2 ^ 40
/-- Host bus addresses (R431). -/
def hostSize : Nat := 2 ^ 62

/-- Size of a tier (R431). -/
def Tier.size : Tier → Nat
  | .cistern _ => cisternSize
  | .reservoir => reservoirSize
  | .aquifer => aquiferSize
  | .host => hostSize

/-- Key of well w's cistern byte a. -/
def cisKey (w a : Nat) : Nat := w * 2 ^ 33 + a

/-- Key of the 64-byte block that holds a place, over all tiers; in the aquifer, of its 16 KiB page (R516). -/
def blockKey : Loc → Nat
  | ⟨.cistern w, a⟩ => cisKey w (a / 64 * 64)
  | ⟨.reservoir, a⟩ => 2 ^ 40 + a / 64 * 64
  | ⟨.aquifer, a⟩ => 2 ^ 45 + a / 16384 * 16384
  | ⟨.host, a⟩ => 2 ^ 62 + a / 64 * 64

/-- The 64-byte blocks that n bytes from a place touch. -/
def blocksOf (l : Loc) (n : Nat) : List Loc :=
  (List.range ((l.addr % 64 + n + 63) / 64)).map (fun i => ⟨l.tier, l.addr / 64 * 64 + 64 * i⟩)

/-- n bytes of a tier as stored, without judging their blocks. -/
def State.rawRead (s : State) (l : Loc) (n : Nat) : List Byte :=
  match l.tier with
  | .cistern w => memRead s.cistern (cisKey w l.addr) n
  | .reservoir => memRead s.reservoir l.addr n
  | .aquifer => memRead s.aquifer l.addr n
  | .host => memRead s.hostMem l.addr n

/-- Bytes of a tier replaced, without judging their blocks. -/
def State.rawWrite (s : State) (l : Loc) (bs : List Byte) : State :=
  match l.tier with
  | .cistern w => { s with cistern := memWrite s.cistern (cisKey w l.addr) bs }
  | .reservoir => { s with reservoir := memWrite s.reservoir l.addr bs }
  | .aquifer => { s with aquifer := memWrite s.aquifer l.addr bs }
  | .host => { s with hostMem := memWrite s.hostMem l.addr bs }

/-! ### Where reservoir and aquifer bytes lie (R480, R510) -/

/-- L of R480, in GiB. -/
def State.localGib (s : State) : Nat := min (s.fld rRvPlace 5 0) 60

/-- Package and granule of a reservoir address (R480). -/
def rvPlace (lg a : Nat) : Nat × Nat :=
  let inter := 36 * (60 - lg) * 2 ^ 30
  if a < inter then
    let g := a / 4096
    (g % 36, g / 36)
  else
    let b := a - inter
    let g := b % (3 * lg * 2 ^ 30) / 4096
    (3 * (b / (3 * lg * 2 ^ 30)) + g % 3, (60 - lg) * 262144 + g / 3)

/-- State of reservoir package i (R504): 0 ACTIVE, 1 SELF_REFRESH, 2 EVACUATING, 3 FENCED, 4 FAILED. -/
def State.rvState (s : State) (i : Nat) : Nat := s.fld (rRvPkgStat i) 34 32

/-- Package and channel of an image-region address (R510, R511). -/
def aqPlace (a : Nat) : Nat × Nat :=
  let unit := a / 65536
  (((unit / 11) % 12 + 1 + unit % 11) % 12, a % 65536 / 16384)

/-- Is aquifer package i LOST (R517)? -/
def State.aqLost (s : State) (i : Nat) : Bool := s.fld (rAqPkgStat i) 31 29 == 1

/-- The donor granule that stands in for granule G of an evacuated package (R498): of the granules from the donor
range's base on, those on the packages that were ACTIVE, in ascending order. -/
def Evac.place (e : Evac) (G : Nat) : Nat :=
  let g0 := e.donor / 4096
  let ps := (List.range 36).filter (fun i => e.active.contains ((g0 + i) % 36))
  g0 + 36 * (G / ps.length) + ps.getD (G % ps.length) 0

/-- Has granule G been copied? -/
def Evac.copied (e : Evac) (G : Nat) : Bool := decide (G < e.next) || e.early.contains G

/-- Where the bytes of a granule of a package lie: there, or after its evacuation in the donor's granule (R498). -/
def State.rvHop (s : State) (pg : Nat × Nat) : Nat × Nat :=
  match s.evacs.find? (fun e => e.pkg == pg.1) with
  | some e => if e.copied pg.2 then (e.place pg.2 % 36, e.place pg.2 / 36) else pg
  | none => pg

/-- The package and granule that serve a reservoir address: its own, a donor's, or the donor's of a donor that was
fenced after it; two packages can be fenced (R496, R498). -/
def State.rvWhere (s : State) (a : Nat) : Nat × Nat := s.rvHop (s.rvHop (rvPlace s.localGib a))

/-- The package that serves a reservoir address. -/
def State.rvServing (s : State) (a : Nat) : Nat := (s.rvWhere a).1

/-- A package that answers no read: a FAILED reservoir package (R500), an aquifer package LOST beside another
(R518). -/
def State.deadBlock (s : State) (l : Loc) : Bool :=
  match l.tier with
  | .reservoir => s.rvState (s.rvServing l.addr) == 4
  | .aquifer =>
    let p := (aqPlace l.addr).1
    s.aqLost p && (List.range 12).any (fun q => q != p && s.aqLost q)
  | _ => false

/-- The first uncorrectable, poisoned or unanswered block under n bytes (R399, R485, R500, R516, R518). -/
def State.badBlock (s : State) (l : Loc) (n : Nat) : Option Loc :=
  (blocksOf l n).find? (fun b => tabGet false s.poison (blockKey b) || s.deadBlock b)

/-- Poisoned blocks of a tier. -/
def State.poisonCount (s : State) (lo hi : Nat) : Nat := (s.poison.filter (fun e => lo ≤ e.1 && e.1 < hi)).length

/-- POISONED of a tier brought up to date (R422, R504). -/
def State.recountPoison (s : State) (t : Tier) : State :=
  match t with
  | .cistern w => s.setFld (rWlCisEcc w) 15 0 (min (s.poisonCount (cisKey w 0) (cisKey (w + 1) 0)) 65535)
  | .reservoir => s.setFld rRvEcc 15 0 (min (s.poisonCount (2 ^ 40) (2 ^ 45)) 65535)
  | _ => s

/-- A block marked poisoned (R398, R485). -/
def State.setPoison (s : State) (l : Loc) : State :=
  { s with poison := tabPut false s.poison (blockKey l) true }.recountPoison l.tier

/-- A whole 64-byte block written clears its poison (R399, R486). -/
def State.clearPoison (s : State) (l : Loc) (n : Nat) : State :=
  let whole := (blocksOf l n).filter (fun b => l.addr ≤ b.addr && b.addr + 64 ≤ l.addr + n
    && tabGet false s.poison (blockKey b))
  if whole.isEmpty then s
  else
    let poison := whole.foldl (fun t b => tabPut false t (blockKey b) false) s.poison
    { s with poison := poison }.recountPoison l.tier

/-- A block of well w's cistern in which a read meets an error: corrected and counted, or from now on uncorrectable, as the
read then finds it (R397, R399). -/
def State.meetBlock (s : State) (w n : Nat) (bad : Bool) : State :=
  if cisternSize ≤ 64 * n then s
  else if bad then s.setPoison ⟨.cistern w, 64 * n⟩ else s.incFld (rWlCisEcc w) 63 32 1

/-- Bytes lost to a reset or left undefined are drawn afresh (R17). -/
def State.undefine (s : State) (l : Loc) (n : Nat) : State :=
  let (bs, s) := s.freeBytes n
  s.rawWrite l bs

/-! ### Guarded words (R36 to R38) -/

/-- The 128-bit guarded word of a 64-bit value. -/
def guard64 (v : Word) : BitVec 128 := (~~~v) ++ v
/-- The value of a 128-bit guarded word, none on a mismatch. -/
def unguard64 (g : BitVec 128) : Option Word :=
  let v := g.setWidth 64
  if guard64 v = g then some v else none
/-- The 64-bit guarded word of a 32-bit value. -/
def guard32 (v : Word32) : Word := (~~~v) ++ v
/-- The value of a 64-bit guarded word, none on a mismatch. -/
def unguard32 (g : Word) : Option Word32 :=
  let v := g.setWidth 32
  if guard32 v = g then some v else none

/-! ### Translation (R424 to R435) -/

/-- Why an access ends. -/
inductive AccErr where
  /-- A translation fault of R435: kind, table level, address, write. -/
  | trans (kind level va : Nat) (write : Bool)
  /-- An uncorrectable block of a tier under this address. -/
  | tier (va : Nat) (l : Loc) (write : Bool)
  /-- A guarded word failed its check. -/
  | guard (va : Nat)
  /-- The requester stalls under rule R<rule>: a page in transit (R438), or bytes that older work must write first. -/
  | stall (rule : Nat)
deriving DecidableEq, Repr

/-- Completion status of an access error (R435, R619). -/
def AccErr.status : AccErr → Nat
  | .trans k _ _ _ => if k ≤ 5 then 0x20 else if k ≤ 8 then 0x21 else if k = 9 then 0x22 else 0x30
  | .tier _ _ _ => 0x30
  | .guard _ => 0x22
  | .stall _ => 0

/-- The address of an access error. -/
def AccErr.va : AccErr → Nat
  | .trans _ _ va _ => va
  | .tier va _ _ => va
  | .guard va => va
  | .stall _ => 0

/-- The four levels of the page tables: level, lowest index bit, index bits (R429). -/
def ptLevels : List (Nat × Nat × Nat) := [(3, 45, 11), (2, 33, 12), (1, 21, 12), (0, 16, 5)]

/-- Bytes of a table of a level (R429). -/
def ptSize : Nat → Nat
  | 3 => 32768
  | 2 => 65536
  | 1 => 65536
  | _ => 512

/-- The wells of the job bound to partition p. -/
def State.partWells (s : State) (p : Nat) : List Nat :=
  match s.jobs.find? (fun j => j.part == some p) with
  | some j => j.wells
  | none => []

/-- Bytes of the well cache of well w (R400, R422). -/
def State.cacheBytes (s : State) (w : Nat) : Nat := tabGet 4 s.caches w * 64 * 2 ^ 20

/-- Device scratch of a cistern (R400). -/
def devScratch : Nat := 64 * 2 ^ 20

/-- A leaf as read from a table: where it lies and what it says (R430). -/
structure Leaf where
  at_ : Nat
  val : Word
  level : Nat
deriving DecidableEq, Repr

/-- Bytes of the page of a leaf. -/
def Leaf.page (l : Leaf) : Nat := if l.level = 1 then 2 ^ 21 else 2 ^ 16

/-- The tier a leaf names (R430). -/
def leafTier (v : Word) : Option Tier :=
  match bitsOf v 61 59 with
  | 0 => some (.cistern (bitsOf v 53 50))
  | 1 => some .reservoir
  | 2 => some .aquifer
  | 3 => some .host
  | _ => none

/-- Address of a leaf's page in its tier. -/
def leafFrame (v : Word) : Nat := bitsOf v 45 0 * 65536

/-- R431 for a leaf value at a level. -/
def leafMalformed (v : Word) (level : Nat) : Bool :=
  match leafTier v with
  | none => true
  | some t =>
    let size := if level = 1 then 2 ^ 21 else 2 ^ 16
    bitOf v 54 || (level == 1 && bitsOf v 45 0 % 32 != 0) || (!bitOf v 58 && bitOf v 57)
    || (t == .aquifer && bitOf v 57)
    || (match t with
        | .cistern w => decide (12 ≤ w)
        | _ => bitsOf v 53 50 != 0)
    || decide (t.size < leafFrame v + size)

/-- Has granule G of a package been copied by its evacuation (R499)? -/
def State.evacDone (s : State) (pkg G : Nat) : Bool :=
  match s.evacs.find? (fun e => e.pkg == pkg) with
  | some e => e.copied G
  | none => true

/-- A tier that cannot answer now (R469): host memory while PCIe is down, the reservoir before its placement is
committed (R483), in self-refresh (R501), or in a granule not yet evacuated (R499). -/
def State.tierWait (s : State) (l : Loc) : Except AccErr Loc :=
  match l.tier with
  | .host =>
    if s.hostDown.isNone then .ok l else .error (.stall 469)
  | .reservoir =>
    if s.fld rRvPlace 31 31 = 0 then .error (.stall 483)
    else if s.rvSelfRefresh then .error (.stall 501)
    else
      let pg := s.rvWhere l.addr
      if s.rvState pg.1 = 2 ∧ s.evacDone pg.1 pg.2 = false then .error (.stall 499) else .ok l
  | _ => .ok l

/-- A table entry that cannot be read now: the rule of the wait. -/
def State.entryWait (s : State) (a : Nat) : Option Nat :=
  match s.tierWait ⟨.reservoir, a⟩ with
  | .error (.stall r) => some r
  | _ => none

/-- The walk of R429 to R431 from a table of the listed levels: a leaf, or a fault kind and its level; kind 0 is a
wait under the rule that stands in place of the level. -/
def State.walkTables (s : State) (va : Nat) : List (Nat × Nat × Nat) → Nat → Except (Nat × Nat) Leaf
  | [], _ => .error (0x4, 0)
  | (level, lo, bits) :: rest, table =>
    let a := table + 16 * (va / 2 ^ lo % 2 ^ bits)
    if (s.entryWait a).isSome then .error (0, (s.entryWait a).getD 0)
    else if (s.badBlock ⟨.reservoir, a⟩ 16).isSome then .error (0xA, level)
    else
      match unguard64 (BitVec.ofNat 128 (leVal (s.rawRead ⟨.reservoir, a⟩ 16))) with
      | none => .error (0x9, level)
      | some v =>
        match bitsOf v 63 62 with
        | 0 => if v = 0#64 then .error (0x3, level) else .error (0x4, level)
        | 1 =>
          let ptr := bitsOf v 46 0 * 512
          if level = 0 ∨ bitsOf v 61 47 ≠ 0 ∨ ptr % ptSize (level - 1) ≠ 0
              ∨ reservoirSize < ptr + ptSize (level - 1) then .error (0x4, level)
          else s.walkTables va rest ptr
        | 2 =>
          if 2 ≤ level ∨ leafMalformed v level then .error (0x4, level) else .ok ⟨a, v, level⟩
        | _ => .error (0x4, level)

/-- Context c as the requesters of queue q translate in it, through the buffer of well q, or with 12 of the wellhead
(R436, R442). A context number below 16 alone stands for a translation that no buffer serves. -/
def viaQ (q c : Nat) : Nat := if c < 16 then c + 16 * (q + 1) else c
/-- The context of such a number. -/
def ctxNo (ctx : Nat) : Nat := if ctx < 2 ^ 20 then ctx % 16 else ctx
/-- The queue of such a number. -/
def ctxQ (ctx : Nat) : Option Nat := if 16 ≤ ctx ∧ ctx < 2 ^ 20 then some (ctx / 16 - 1) else none

/-- Address of the level-3 table of a context, none where it does not translate (R425, R426, R445); numbers from
2^20 on stand for a table root itself. -/
def State.rootOf (s : State) (ctx : Nat) : Option Nat :=
  if 2 ^ 20 ≤ ctx then some (ctx - 2 ^ 20)
  else
    let v := if ctx % 16 < 12 then s.reg (rTrRoot (ctx % 16)) else s.hroot
    if bitOf v 63 then some (bitsOf v 46 0 * 512) else none

/-- The context number that stands for translation from a table root without a bound context (R427, R686). -/
def rootCtx (root : Nat) : Nat := 2 ^ 20 + root

/-- Sets of a translation buffer: 512 of a well, 128 of the wellhead (R436, R442). -/
def tlbSets (q : Nat) : Nat := if q < 12 then 512 else 128
/-- The set of a page in buffer q; the manual gives no index, so the page number's low bits (log entry 45). -/
def tlbKey (q page size : Nat) : Nat := q * 512 + page / size % tlbSets q

/-- Does an entry translate an address? -/
def TlbEntry.covers (e : TlbEntry) (ctx va : Nat) : Bool :=
  decide (e.ctx = ctx ∧ e.page ≤ va ∧ va < e.page + e.size)

/-- The translation of va that buffer q holds (R436). -/
def State.tlbFind (s : State) (q ctx va : Nat) : Option TlbEntry :=
  [65536, 2 ^ 21].findSome? (fun n => (tabGet [] s.tlb (tlbKey q va n)).find? (fun e => e.size == n && e.covers ctx va))

/-- The deepest cached pointer on the path of va (R437). -/
def State.heldPtr (s : State) (ctx va : Nat) : Option WalkPtr :=
  [(1, 21), (2, 33), (3, 45)].findSome? (fun l =>
    s.walkPtrs.find? (fun x => x.ctx == ctx && x.level == l.1 && x.va == va / 2 ^ l.2))

/-- Where a walk of va in a context starts: at the table that the deepest cached pointer on its path names, or at the
root (R437). -/
def State.walkFrom (s : State) (ctx va root : Nat) : List (Nat × Nat × Nat) × Nat :=
  match s.heldPtr ctx va with
  | some x => (ptLevels.filter (fun l => l.1 < x.level), x.ptr)
  | none => (ptLevels, root)

/-- R434 for a leaf in a context. -/
def State.isolated (s : State) (ctx : Nat) (l : Leaf) : Bool :=
  match leafTier l.val with
  | some (.cistern w) =>
    let f := leafFrame l.val
    decide (f < devScratch ∨ cisternSize - s.cacheBytes w < f + l.page)
    || (decide (ctxNo ctx < 12) && !(s.partWells (ctxNo ctx)).contains w)
  | _ => false

/-- The leaf that the tables give for an address in a context, or the fault (R424, R429 to R431, R437). -/
def State.leafWalk (s : State) (ctx va : Nat) (write : Bool) : Except AccErr Leaf :=
  match s.rootOf ctx with
  | none => .error (.trans 0x3 3 va write)
  | some root =>
    let w := s.walkFrom (ctxNo ctx) va root
    match s.walkTables va w.1 w.2 with
    | .error (0, rule) => .error (.stall rule)
    | .error (k, level) => .error (.trans k level va write)
    | .ok l => .ok l

/-- The leaf that maps an address in a context, or the fault: from the requester's buffer, whose entries have no place
in a table, or from the tables (R424, R429 to R431, R436). -/
def State.leafOf (s : State) (ctx va : Nat) (write : Bool) : Except AccErr Leaf :=
  if 2 ^ 56 ≤ va then .error (.trans 0x2 3 (va % 2 ^ 56) write)
  else if va < 65536 then .error (.trans 0x1 3 va write)
  else
    match (ctxQ ctx).bind (fun q => s.tlbFind q (ctxNo ctx) va) with
    | some e => .ok ⟨0, e.val, if e.size = 65536 then 0 else 1⟩
    | none => s.leafWalk ctx va write

/-- Translation of one byte address for a read or a write: its place, or the fault (R424 to R435). -/
def State.translate (s : State) (ctx va : Nat) (write : Bool) : Except AccErr Loc :=
  match s.leafOf ctx va write with
  | .error e => .error e
  | .ok l =>
    if bitOf l.val 56 then .error (.stall 438)
    else if s.isolated ctx l then .error (.trans 0x5 l.level va write)
    else if !write && !bitOf l.val 58 then .error (.trans 0x6 l.level va write)
    else if write && !bitOf l.val 57 then .error (.trans 0x7 l.level va write)
    else if write && bitOf l.val 55 then .error (.trans 0x8 l.level va write)
    else
      match leafTier l.val with
      | some t => s.tierWait ⟨t, leafFrame l.val + va % l.page⟩
      | none => .error (.trans 0x4 l.level va write)

/-- n bytes from va cut at 64 KiB boundaries. -/
def pageRuns : Nat → Nat → Nat → List (Nat × Nat)
  | 0, _, _ => []
  | fuel + 1, va, n =>
    if n = 0 then []
    else
      let k := min n (65536 - va % 65536)
      (va, k) :: pageRuns fuel (va + k) (n - k)

/-- Runs of n bytes from va. -/
def runsOf (va n : Nat) : List (Nat × Nat) := pageRuns (n / 65536 + 2) va n

/-- Read n bytes at device virtual address va in a context. -/
def State.readVa (s : State) (ctx va n : Nat) : Except AccErr (List Byte) :=
  if 2 ^ 56 < va + n then .error (.trans 0x2 3 (va % 2 ^ 56) false)
  else
    (runsOf va n).foldlM (fun acc r => do
      let l ← s.translate ctx r.1 false
      match s.badBlock l r.2 with
      | some b => .error (.tier (r.1 + (b.addr - l.addr)) b false)
      | none => pure (acc ++ s.rawRead l r.2)) []

/-- Write bytes at device virtual address va in a context. -/
def State.writeVa (s : State) (ctx va : Nat) (bs : List Byte) : Except AccErr State :=
  if 2 ^ 56 < va + bs.length then .error (.trans 0x2 3 (va % 2 ^ 56) true)
  else
    (runsOf va bs.length).foldlM (fun (t : State) r => do
      let l ← t.translate ctx r.1 true
      let t := t.clearPoison l r.2
      match t.badBlock l r.2 with
      | some b => .error (.tier (r.1 + (b.addr - l.addr)) b true)
      | none => pure (t.rawWrite l ((bs.drop (r.1 - va)).take r.2))) s

/-- Read a 64-bit value. -/
def State.readWord (s : State) (ctx va : Nat) : Except AccErr Word := do
  let bs ← s.readVa ctx va 8
  pure (BitVec.ofNat 64 (leVal bs))

/-- Read and check a 128-bit guarded word (R38). -/
def State.readGuard64 (s : State) (ctx va : Nat) : Except AccErr Word := do
  let bs ← s.readVa ctx va 16
  match unguard64 (BitVec.ofNat 128 (leVal bs)) with
  | some v => pure v
  | none => .error (.guard va)

/-- Read and check a 64-bit guarded word (R38). -/
def State.readGuard32 (s : State) (ctx va : Nat) : Except AccErr Word32 := do
  let bs ← s.readVa ctx va 8
  match unguard32 (BitVec.ofNat 64 (leVal bs)) with
  | some v => pure v
  | none => .error (.guard va)

/-! ### Interrupts and fault reports -/

/-- Signal an MSI-X vector of a function (R629, R795). -/
def State.signal (s : State) (f vec : Nat) : State := { s with msix := (f, vec) :: s.msix }

/-- The hold-off in ns (R761, R764). -/
def State.holdoff (s : State) : Nat :=
  let u := s.fld rFcCtl 23 8
  (if u = 0 then 1000 else u) * 1000

/-- The collector's interrupt: at once, or pending to the end of the hold-off (R761). -/
def State.fcSignal (s : State) : State :=
  let quiet := match s.fcLast with
    | none => true
    | some t => decide (t + s.holdoff ≤ s.now)
  if quiet then { (s.signal 0 (s.fld rFcCtl 31 24)) with fcLast := some s.now }
  else s.setFld rFcSummary 63 63 1

/-- An ALERT_N cause (R762). -/
def State.alert (s : State) (bit : Nat) : State := s.setFld rFcAlert bit bit 1

/-- A report to the fault collector (R756, R759, R761): source, class, severity, reporter's source and unit,
unit concerned, detail. -/
def State.report (s : State) (src cls sev rsrc runit unit detail : Nat) : State :=
  let r := 16 * src + cls
  let old := s.reg (rFcRec r)
  let valid := bitOf old 63
  let rises := valid && decide (bitsOf old 62 61 < sev)
  let t := if valid then
      s.setReg (rFcRec r) (setBits (addSat old 47 32 1) 62 61 (max sev (bitsOf old 62 61)))
    else
      ((s.setReg (rFcRec r) (setBits (setBits (setBits (1#64 <<< 63) 62 61 sev) 31 27 rsrc) 26 16 runit)).setReg
        (rFcTb r) (BitVec.ofNat 64 s.now)).setReg (rFcDet r) (setBits (setBits 0#64 63 56 unit) 55 0 detail)
  let t := t.setFld rFcSummary src src 1
  if valid && !rises then t
  else
    let t := if sev = 3 then t.alert 9 else t
    if (s.fld rFcCtl 3 0).testBit sev then t.fcSignal else t

/-- A report whose reporter is the part concerned. -/
def State.reportSelf (s : State) (src cls sev unit detail : Nat) : State :=
  s.report src cls sev src unit unit detail

/-- The table entry under which a walk of va meets an uncorrectable block, from a table of the listed levels. -/
def State.badEntry (s : State) (va : Nat) : List (Nat × Nat × Nat) → Nat → Option Loc
  | [], _ => none
  | (_, lo, bits) :: rest, table =>
    let a := table + 16 * (va / 2 ^ lo % 2 ^ bits)
    match s.badBlock ⟨.reservoir, a⟩ 16 with
    | some b => some b
    | none => s.badEntry va rest (bitsOf (BitVec.ofNat 64 (leVal (s.rawRead ⟨.reservoir, a⟩ 8))) 46 0 * 512)

/-- A table read that met an uncorrectable sector (kind 0xA): counted, recorded with SOURCE 4 and reported (R485, R504). -/
def State.noteTable (s : State) (ctx w va : Nat) : State :=
  match (s.rootOf ctx).bind (fun root =>
    let p := s.walkFrom (ctxNo ctx) va root
    s.badEntry va p.1 p.2) with
  | none => s
  | some b =>
    let pg := s.rvWhere b.addr
    let v := setBits (setBits (setBits (setBits 0#64 61 59 4) 58 53 pg.1) 52 51 (pg.2 % 4)) 35 0 (b.addr / 64)
    let (src, unit) := if w < 12 then (w, 211) else (12, 12)
    ((s.incFld rRvEcc 31 16 1).latch rRvErr v).report 13 0x2 1 src unit pg.1 b.addr

/-- A translation fault recorded, and reported by a source and unit (R435): well 15 stands for the wellhead. A fault found
before any table has no level, so its LEVEL is open. -/
def State.noteTransBy (s : State) (ctx w src unit : Nat) (e : AccErr) : State :=
  match e with
  | .trans k lv va write =>
    let s := if k = 0xA then s.noteTable ctx w va else s
    let level := if k ≤ 2 then Config.freeNat s.fresh % 4 else lv
    let s := { s with fresh := s.fresh + 1 }
    let v := setBits (setBits (setBits (setBits (setBits 0#64 55 52 k) 51 48 (ctxNo ctx)) 47 44 w) 43 42 level) 41 41
      write.toNat
    let s := if bitOf (s.reg rTrFault) 63 then s else s.setReg rTrFaultVa (BitVec.ofNat 64 (va % 2 ^ 56))
    let s := s.latch rTrFault v
    s.reportSelf src 0x3 (if ctxNo ctx < 12 then 1 else 0) unit va
  | _ => s

/-- A translation fault of a well or of the wellhead, reported by its translation unit. -/
def State.noteTrans (s : State) (ctx w : Nat) (e : AccErr) : State :=
  s.noteTransBy ctx w (if w < 12 then w else 12) (if w < 12 then 211 else 12) e

/-- A guarded word's mismatch reported (R38): class GUARD, at its address. -/
def State.noteGuard (s : State) (src unit va : Nat) : State := s.reportSelf src 0x1 1 unit va

/-- Who meets a tier error: the SOURCE codes of WL_CIS_ERR and AQ_ERR (R422, R526); no code is given for a pump or
a controller that reads a cistern (log entry 21). -/
inductive Who where
  | bobbin | item | request | ctl | pump | walker | scratch
deriving DecidableEq, Repr

/-- SOURCE of WL_CIS_ERR. -/
def Who.cis : Who → Nat
  | .bobbin => 0
  | .item => 1
  | .request => 2
  | .pump => 1
  | .scratch => 4
  | _ => 3

/-- SOURCE of AQ_ERR. -/
def Who.aq : Who → Nat
  | .bobbin => 1
  | .item => 2
  | .request => 2
  | .pump => 0
  | _ => 3

/-- Report source and unit of the part that holds a place (R757). -/
def State.tierUnit (s : State) (l : Loc) : Nat × Nat :=
  match l.tier with
  | .cistern w => (w, 146 + (l.addr / 65536 ^^^ (l.addr / 65536 / 64) ^^^ (l.addr / 65536 / 4096)) % 64)
  | .reservoir => (13, s.rvServing l.addr)
  | .aquifer => (14, (aqPlace l.addr).1)
  | .host => (21, 64)

/-- The error records and counters of a tier for an uncorrectable block (R399, R422, R485, R504, R516, R526). -/
def State.countTier (s : State) (who : Who) (l : Loc) (write : Bool) : State :=
  match l.tier with
  | .cistern w =>
    (s.incFld (rWlCisEcc w) 31 16 1).latch (rWlCisErr w)
      (setBits (setBits (setBits 0#64 61 59 who.cis) 38 33 ((s.tierUnit l).2 - 146)) 32 0 l.addr)
  | .reservoir =>
    let pg := s.rvWhere l.addr
    (s.incFld rRvEcc 31 16 1).latch rRvErr
      (setBits (setBits (setBits (setBits 0#64 61 59 write.toNat) 58 53 pg.1) 52 51 (pg.2 % 4)) 35 0 (l.addr / 64))
  | .aquifer =>
    let pc := aqPlace l.addr
    (s.incFld rAqEcc 15 0 1).latch rAqErr
      (setBits (setBits (setBits (setBits 0#64 61 59 who.aq) 58 55 pc.1) 54 53 pc.2) 43 0 l.addr)
  | .host => s

/-- An uncorrectable block recorded and reported, with class TIER and its address (R399, R485, R516, R758). -/
def State.noteTier (s : State) (who : Who) (rsrc runit : Nat) (l : Loc) (write : Bool) : State :=
  let u := s.tierUnit l
  (s.countTier who l write).report u.1 0x2 1 rsrc runit u.2 l.addr

/-- An access error of a part of the wellhead, reported with its source and unit (R435, R469, R474). -/
def State.noteHead (s : State) (ctx src unit : Nat) (e : AccErr) : State :=
  match e with
  | .stall _ => s
  | .tier _ l wr => s.noteTier .pump src unit l wr
  | .guard va => s.noteGuard src unit va
  | e => s.noteTransBy ctx 15 src unit e

/-! ### The end of a job -/

/-- Bit n of the well states: well w IN_SERVICE (R774, R780). -/
def State.inService (s : State) (w : Nat) : Bool := s.fld rWhWellState (2 * w + 25) (2 * w + 24) == 0

/-- A job's status is fixed by its first failure; every controller of its wells stops (R277). -/
def State.failJob (s : State) (j status addr : Nat) : State :=
  match s.job j with
  | none => s
  | some job =>
    if job.status.isSome || decide (job.phase = .committed) then s
    else
      let s := s.modJob j (fun x => { x with status := some status, addr := addr, phase := .stopping })
      job.wells.foldl (fun t w =>
        let x := t.well w
        if x.job = some j then
          t.setWell w { x with ctl := if x.ctl = .halted then .halted else .faulted, walks := [] }
        else t) s

/-! ### Device scratch (R249, R309, R399, R400, R457) -/

/-- Cistern address of event counter ev of job slot k (R400). -/
def eventAt (k ev : Nat) : Nat := 1314816 + 262144 * k + 4 * ev
/-- Cistern address of walk record r of job slot k (R400). -/
def wrecAt (k r : Nat) : Nat := 1052672 + 4096 * k + 64 * r
/-- Cistern address of the watermark of pump n's progress record for job slot k (R457). -/
def markAt (k n : Nat) : Nat := 266240 + 512 * (8 * k + n) + 128

/-- Is byte a of well w's device scratch in a block that can be read (R399)? -/
def State.scratchOk (s : State) (w a : Nat) : Bool := (s.badBlock ⟨.cistern w, a⟩ 1).isNone

/-- A block of device scratch that cannot be read: recorded and reported, and job j, which holds the slot, ends with
TIER_ERROR (R399). -/
def State.scratchErr (s : State) (j w a : Nat) : State :=
  let l : Loc := ⟨.cistern w, a / 64 * 64⟩
  (s.noteTier .scratch w (s.tierUnit l).2 l false).failJob j 0x30 0

/-- A step that reads byte a of well w's device scratch for job j (R399). -/
def State.scratch (s : State) (j w a : Nat) (r : Res) : Res :=
  if s.scratchOk w a then r else .next (s.scratchErr j w a)

/-- The event table of slot k on well w written with zeros (R249), whole blocks of it (R399). -/
def State.zeroEvents (s : State) (w k : Nat) : State :=
  let lo := cisKey w (eventAt k 0)
  let mine (b : Nat) : Bool := decide (lo ≤ b ∧ b < lo + 262144)
  let s := s.clearEvents w k
  if s.poison.any (fun e => mine e.1) then { s with poison := tabDrop mine s.poison }.recountPoison (.cistern w) else s

/-- The context of a job: its partition number (R426). -/
def State.ctxOf (s : State) (j : Nat) : Nat :=
  match s.job j with
  | some job => job.part.getD 12
  | none => 12

/-- The slot of job j on well w (R456). -/
def State.slotOf (s : State) (j w : Nat) : Nat :=
  match s.job j with
  | some job => (job.slots[job.wells.idxOf w]?).getD 0
  | none => 0

/-! ### Wellhead pumps 0 to 7 (R448, R561) -/

/-- Does what a wellhead pump took up go on? -/
def State.whLive (s : State) : WhUse → Bool
  | .journal => s.jn.program.isSome
  | .checkpoint j => (s.job j).any (fun x => x.cp.isSome)
  | .noise j n => (s.job j).any (fun x => decide (x.phase = .running ∨ x.phase = .preempting) && x.filling.contains n)

/-- What wellhead pump n serves. -/
def State.whUse (s : State) (n : Nat) : Option WhUse := (tabGet none s.whPumps n).filter s.whLive
/-- The lowest free one of wellhead pumps 0 to 7. -/
def State.whFree (s : State) : Option Nat := (List.range 8).find? (fun n => (s.whUse n).isNone)
/-- The wellhead pump that serves a use. -/
def State.whOf (s : State) (u : WhUse) : Option Nat := (List.range 8).find? (fun n => s.whUse n == some u)
/-- Wellhead pump n takes up a use. -/
def State.whTake (s : State) (n : Nat) (u : WhUse) : State :=
  { s with whPumps := tabPut none (s.whPumps.filter (fun e => e.2 != some u)) n (some u) }

/-! ### The host's reach -/

/-- Everything of the wellhead runs: it is powered, and neither in standby nor in W4. -/
def State.alive (s : State) : Bool := s.pw.pg && !s.pw.off && !s.pw.standby && !s.pw.w4

/-- The PCIe function takes accesses: its link is up, and half 1 exists (R600, R705). -/
def State.functionUp (s : State) (f : Nat) : Bool :=
  s.alive && (if f = 0 then s.hostDown.isNone else s.bifurc && s.halfDown.isNone)

end Sys2Proof.Machine
end

