-- ==== Sys2Proof/Machine/Frames.lean ====
section
/-!
DEFINITION. Frames handed to the ports (R635, R641, R653) and the stream windows that make TILE frames (R669).
-/

namespace Sys2Proof.Machine

/-! ### Connections and routes -/

/-- Key of a connection. -/
def connKey (p peer vc : Nat) : Nat := (p * 4096 + peer) * 4 + vc

/-- The connection of port p with a peer on a VC. -/
def State.conn (s : State) (p peer vc : Nat) : Conn := tabGet {} s.links.conns (connKey p peer vc)

/-- That connection replaced. -/
def State.setConn (s : State) (p peer vc : Nat) (c : Conn) : State :=
  { s with links := { s.links with conns := tabPut {} s.links.conns (connKey p peer vc) c } }

/-- Port and MAC of the route to a device; port 15 where it has none (R653). -/
def State.route (s : State) (dev : Nat) : Nat × Nat := tabGet (15, 0) s.links.routes dev

/-- This device's number (R653). -/
def State.devId (s : State) : Nat := s.fld rSpDevid 11 0

/-- STATUS register of a port: 8 is the twin link. -/
def rPortStatus (p : Nat) : Nat := if p = 8 then rTlStatus else rSpStatus p
/-- CTL register of a port. -/
def rPortCtl (p : Nat) : Nat := if p = 8 then rTlCtl else rSpCtl p
/-- STAT register of a port. -/
def rPortStat (p : Nat) : Nat := if p = 8 then rTlStat else rSpStat p

/-- STATE of a port (R653); the ports beyond 8 do not exist and are DOWN. -/
def State.portState (s : State) (p : Nat) : Nat := if p < 9 then s.fld (rPortStatus p) 31 29 else 0

/-- A port carries frames: UP or DEGRADED (R650). -/
def State.portUp (s : State) (p : Nat) : Bool := s.portState p == 2 || s.portState p == 3

/-- A frame on the wire. -/
def State.emit (s : State) (p : Nat) (f : Frame) : State :=
  { s with links := { s.links with sent := (p, f) :: s.links.sent } }

/-! ### Bytes on the wire (R633, R635) -/

/-- One byte taken into a reflected CRC of 32 bits. -/
def crcByte (poly c : BitVec 32) (b : Byte) : BitVec 32 :=
  (List.range 8).foldl (fun (x : BitVec 32) _ => if x.getLsbD 0 then (x >>> 1) ^^^ poly else x >>> 1)
    (c ^^^ b.setWidth 32)

/-- A reflected CRC of 32 bits over bytes, all ones at its start and inverted at its end. -/
def crc32 (poly : BitVec 32) (bs : List Byte) : BitVec 32 := ~~~(bs.foldl (crcByte poly) 0xFFFFFFFF#32)

/-- CRC-32C (Castagnoli), as HCRC and the ILP CRC use it (R635). -/
def crc32c (bs : List Byte) : Nat := (crc32 0x82F63B78#32 bs).toNat

/-- The first three words of an ILP header (R635). -/
def frameWords (f : Frame) : List Word :=
  [setBits (setBits (setBits (setBits (setBits (setBits (setBits (setBits 0#64 63 60 1) 59 56 f.typ) 55 54 f.vc) 53 48 f.op)
     47 32 f.seq) 31 16 f.len) 12 12 f.epoch) 11 0 f.tag,
   setBits (setBits (setBits (setBits (setBits (setBits 0#64 63 52 f.src) 51 40 f.dst) 39 36 f.ctx) 35 32 f.rstat)
     31 16 f.credit) 15 0 f.offset,
   setBits 0#64 55 0 f.addr]

/-- The 32 bytes of an ILP header with its HCRC (R635). -/
def frameHeader (f : Frame) : List Byte :=
  let h := (frameWords f).flatMap (fun w => leBytes 8 w.toNat)
  h ++ leBytes 8 (crc32c h)

/-- An ILP frame as RAW framing carries it: header, payload and ILP CRC (R633, R635). -/
def frameBytes (f : Frame) : List Byte :=
  let x := frameHeader f ++ f.payload
  x ++ leBytes 4 (crc32c x)

/-- n bytes of a number, most significant first, as IEEE 802.3 sends its addresses and types (log entry 90). -/
def beBytes (n v : Nat) : List Byte := (leBytes n v).reverse

/-- The bytes of a frame on port p: in ETH the payload of an Ethernet frame to the MAC of the peer's route (R633). -/
def State.wireBytes (s : State) (p : Nat) (f : Frame) : List Byte :=
  if p = 8 ∨ s.fld (rPortCtl p) 30 30 = 0 then frameBytes f
  else
    let vid := s.fld (rSpVlan p) 27 16
    let pcp := s.fld (rSpVlan p) (3 * f.vc + 2) (3 * f.vc)
    let tag := if s.fld (rPortCtl p) 27 27 = 1 then beBytes 2 0x8100 ++ beBytes 2 (pcp * 8192 + vid) else []
    let x := beBytes 6 (s.route f.dst).2 ++ beBytes 6 (s.fld (rSpMac p) 47 0) ++ tag
      ++ beBytes 2 (s.fld (rPortCtl p) 15 0) ++ frameBytes f
    let x := x ++ List.replicate (60 - x.length) 0#8
    x ++ leBytes 4 (crc32 0xEDB88320#32 x).toNat

/-- A DATA frame handed to a port: it waits on its connection until the port sends it (R641, R642). -/
def State.postFrame (s : State) (p : Nat) (f : Frame) (job : Option Nat) : State :=
  let f := { f with src := s.devId, len := f.payload.length }
  let c := s.conn p f.dst f.vc
  s.setConn p f.dst f.vc { c with waiting := c.waiting ++ [(f, job)] }

/-- A DATA frame handed to the port of its route (R653). -/
def State.sendFrame (s : State) (f : Frame) (job : Option Nat) : State := s.postFrame (s.route f.dst).1 f job

/-! ### Requests of VC2 (R647, R648) -/

/-- The connection's next EPOCH and TAG, ascending modulo 4,096 with EPOCH inverting at each wrap; none while the pair is
outstanding or within 10 ms of its release: the requester stalls. -/
def Conn.takeTag (c : Conn) (now : Nat) : Option Nat :=
  if c.outst.any (fun o => o.pair == c.nextPair) || c.quar.any (fun q => q.1 == c.nextPair && decide (now < q.2 + 10000000))
  then none else some c.nextPair

/-- A request of VC2 numbered: none while its requester stalls. -/
def State.openRequest (s : State) (p peer op left : Nat) (job : Option Nat) : Option State :=
  let c := s.conn p peer 2
  (c.takeTag s.now).map (fun n => s.setConn p peer 2
    { c with nextPair := (n + 1) % 8192, quar := c.quar.filter (fun q => q.1 != n),
             outst := c.outst ++ [{ pair := n, op := op, job := job, left := left }] })

/-- A request's tag released into quarantine (R648). -/
def State.releaseTag (s : State) (p peer : Nat) (c : Conn) (o : OutReq) : State :=
  s.setConn p peer 2 { c with outst := c.outst.erase o, quar := c.quar ++ [(o.pair, s.now)] }

/-- The device at the other end of port 8, which runs RAW over one cable (R633): the peer of its connections. -/
def State.twinPeer (s : State) : Nat :=
  ((tabKeys s.links.conns).find? (fun k => k / 16384 == 8)).elim 0 (fun k => k / 4 % 4096)

/-- Does a job have a frame or request outstanding on any connection (R651, R670)? -/
def Conn.holds (c : Conn) (j : Nat) : Bool :=
  c.unacked.any (fun x => x.job == some j) || c.waiting.any (fun x => x.2 == some j)
  || c.outst.any (fun x => x.job == some j)

/-- Some connection holds a frame or request of job j. -/
def State.linkBusy (s : State) (j : Nat) : Bool := s.links.conns.any (fun e => e.2.holds j)

/-! ### Stream windows (R669) -/

/-- Bytes from a in pieces of at most 4,096. -/
def frameCuts : Nat → Nat → Nat → List (Nat × Nat)
  | 0, _, _ => []
  | fuel + 1, a, n => if n = 0 then [] else (a, min n 4096) :: frameCuts fuel (a + min n 4096) (n - min n 4096)

/-- The TILE frames of window x for n visible bytes at va (R669). -/
def State.windowFrames (s : State) (x ctx job va n : Nat) : State :=
  let loc := s.reg (rCoStrmLoc x)
  let rem := s.reg (rCoStrmRem x)
  let cfg := s.reg (rCoStrmCfg x)
  let base := bitsOf loc 55 21 * 2 ^ 21
  let lo := max va base
  let hi := min (va + n) (base + bitsOf cfg 15 0 * 2 ^ 21)
  if bitOf loc 63 && decide (bitsOf loc 59 56 = ctx ∧ lo < hi) then
    (frameCuts ((hi - lo) / 4096 + 1) lo (hi - lo)).foldl (fun t c =>
      match t.readVa ctx c.1 c.2 with
      | .error _ => t
      | .ok bs =>
        t.sendFrame
          { vc := 1, op := 0x10, dst := bitsOf cfg 63 52, ctx := bitsOf rem 63 60,
            addr := bitsOf rem 55 21 * 2 ^ 21 + (c.1 - base), tag := bitsOf cfg 51 48 * 256 + bitsOf cfg 47 40,
            payload := bs } (some job)) s
  else s

/-- Bytes of a job made visible by a store entry or a pump unit, as the open stream windows see them (R669). -/
def State.windowSees (s : State) (job va n : Nat) : State :=
  (List.range 16).foldl (fun t x => t.windowFrames x (t.ctxOf job) job va n) s

end Sys2Proof.Machine
end

