-- ==== Sys2Proof/Machine/Quant.lean ====
section
/-!
DEFINITION. Packing of elements (R79) and quantisation (R95 to R102, R802): rows of values to codes and block
scales with the clamps and edge codes they count (R98).
-/

namespace Sys2Proof.Machine

/-- Codes packed as a little-endian bit stream (R79). -/
def packNat (w : Nat) : List Nat → Nat
  | [] => 0
  | c :: t => c % 2 ^ w + 2 ^ w * packNat w t

/-- Bytes of a number, n of them. -/
def natBytes : Nat → Nat → List Byte
  | 0, _ => []
  | n + 1, v => BitVec.ofNat 8 v :: natBytes n (v / 256)

/-- Number of bytes, little-endian. -/
def bytesNat : List Byte → Nat
  | [] => 0
  | b :: t => b.toNat + 256 * bytesNat t

/-- Elements packed into bytes (R79). -/
def packCodes (f : Fmt) (cs : List Nat) : List Byte :=
  natBytes ((cs.length * f.width + 7) / 8) (packNat f.width cs)

/-- n elements of width w from bit position `bit` of a packed number. -/
def unpackNat (w : Nat) : Nat → Nat → Nat → List Nat
  | 0, _, _ => []
  | n + 1, bit, v => v / 2 ^ bit % 2 ^ w :: unpackNat w n (bit + w) v

/-- n elements from element position `first` of packed bytes. -/
def unpackCodes (f : Fmt) (first n : Nat) (bs : List Byte) : List Nat :=
  unpackNat f.width n (first * f.width) (bytesNat bs)

/-- Lists cut into pieces of n. -/
def chunksOf {α : Type} (n : Nat) : Nat → List α → List (List α)
  | 0, _ => []
  | fuel + 1, l => if l.isEmpty then [] else l.take n :: chunksOf n fuel (l.drop n)

/-- Blocks of 32 elements (R82). -/
def blocks32 {α : Type} (l : List α) : List (List α) := chunksOf 32 (l.length / 32 + 1) l

/-- The validity rule of a tensor scale: positive, finite, at least 2^-126 (R84). -/
def validTscale (t : Word32) : Bool := decide (0x00800000 ≤ t.toNat ∧ t.toNat ≤ 0x7F7FFFFF)

/-- Value of an element with its scales, exact (R86, R81). -/
def scaledValue (f : Fmt) (code s8 : Nat) (t : Num) : Num :=
  if f.twoLevel then ((decodeElem f code).mul (decodeS8 s8)).mul t else decodeElem f code

/-- The code of the smallest block scale not less than n/d * 2^e, bounded by 0x01 and 0xFE (R100). -/
def scaleCodeUp (n d : Nat) (e : Int) : Nat :=
  let q := max (log2Ratio n d e - 3) (-17)
  let (a, b) := scaleRatio n d (e - q)
  min (max ((q + 17).toNat * 8 + (a + b - 1) / b) 1) 0xFE

/-- The larger of two magnitudes, ignoring infinities and NaNs. -/
def maxFin (a v : Num) : Num := if v.isFin && a.lt v.abs then v.abs else a

/-- Largest magnitude of the finite values (R100, R102). -/
def largestFin (vs : List Num) : Num := vs.foldl maxFin (.fin false 0 0)

/-- What a conversion of a run of elements gives: codes, block scales, clamps and edge codes. -/
structure Conv where
  codes : List Nat := []
  scales : List Nat := []
  clamps : Nat := 0
  edges : Nat := 0
deriving DecidableEq, Repr

/-- Two results one after the other. -/
def Conv.app (a b : Conv) : Conv :=
  ⟨a.codes ++ b.codes, a.scales ++ b.scales, a.clamps + b.clamps, a.edges + b.edges⟩

/-- The block scale that R100 chooses for a block under a valid tensor scale. -/
def blockScale (f : Fmt) (t : Num) (vs : List Num) : Nat :=
  match largestFin vs, t with
  | .fin _ m e, .fin _ tm te =>
    if m = 0 then 0 else scaleCodeUp m (f.limitE * tm) (e - te)
  | _, _ => 0

/-- One element divided by its scales and rounded once (R95, R101, R96). -/
def quantElem (f : Fmt) (t : Num) (s8 : Nat) (v : Num) : Nat × Bool :=
  match v, decodeS8 s8, t with
  | .fin neg m e, .fin _ sm se, .fin _ tm te =>
    if m = 0 ∨ sm = 0 then convNum f (.fin neg 0 0) else roundTo f neg m (sm * tm) (e - se - te)
  | v, _, _ => convNum f v

/-- One block quantised (R100, R101). -/
def quantBlock (f : Fmt) (t : Num) (vs : List Num) : Conv :=
  let s := blockScale f t vs
  let rs := vs.map (quantElem f t s)
  { codes := rs.map Prod.fst, scales := [s], clamps := (rs.filter Prod.snd).length,
    edges := if s = 0x01 ∨ s = 0xFE then 1 else 0 }

/-- A row of whole blocks quantised. -/
def quantRow (f : Fmt) (t : Num) (vs : List Num) : Conv :=
  (blocks32 vs).foldl (fun c b => c.app (quantBlock f t b)) {}

/-- A row rounded to a plain format (R92, R93, R96). -/
def plainRow (f : Fmt) (vs : List Num) : Conv :=
  let rs := vs.map (convNum f)
  { codes := rs.map Prod.fst, clamps := (rs.filter Prod.snd).length }

/-- Unspecified elements, scales and counts of a quantisation with an invalid tensor scale (R802), drawn from
the free values numbered from `fresh`. -/
def openRow (f : Fmt) (n fresh : Nat) : Conv :=
  { codes := (List.range n).map (fun i => Config.freeNat (fresh + i) % 2 ^ f.width)
    scales := (List.range (n / 32)).map (fun i => Config.freeNat (fresh + n + i) % 256)
    clamps := Config.freeNat (fresh + 2 * n)
    edges := Config.freeNat (fresh + 2 * n + 1) }

/-- Free values that openRow uses. -/
def openRowUse (n : Nat) : Nat := 2 * n + 2

/-- A row converted to a format: quantised with tensor scale t, or rounded (R95 to R101, R802). -/
def convRow (f : Fmt) (t : Word32) (vs : List Num) (fresh : Nat) : Conv :=
  if f.twoLevel then
    if validTscale t then quantRow f (val32 t) vs else openRow f vs.length fresh
  else plainRow f vs

/-- Does convRow draw free values? -/
def convOpen (f : Fmt) (t : Word32) : Bool := f.twoLevel && !validTscale t

/-- The computed tensor scale of R102: the exponent k of 2^k. -/
def computedScaleExp (f : Fmt) (a : Num) : Int :=
  match a with
  | .fin _ m e =>
    if m = 0 then 0
    else
      let d := f.limitE * 256
      let k := log2Ratio m d e
      let (n', d') := scaleRatio m d (e - k)
      max (-126) (min 127 (if n' = d' then k else k + 1))
  | _ => 0

/-- 2^k as an FP32 code. -/
def pow2Code (k : Int) : Word32 := round32 (.fin false 1 k)

end Sys2Proof.Machine
end

