-- ==== Sys2Proof/Machine/Flags.lean ====
section
/-!
DEFINITION. The flag computations of the block: guard counts (R110, R247), the trigger test (R113), ladders and
the last rung (R115, R116), and the event counters (R770, R771).
-/

namespace Sys2Proof.Machine

/-- A guard count raised, saturating at 65,535 (R110). -/
def satCount (a n : Nat) : Nat := min (a + n) 65535

/-- Guard counts raised by a conversion of an operand (LDT, CVT, QNT): CLAMP and EDGE. -/
def Counts.operand (c : Counts) (clamps edges : Nat) : Counts :=
  { c with clamp := satCount c.clamp clamps, edge := satCount c.edge edges }

/-- OUT raised by an output conversion (STT, SCT, SFN). -/
def Counts.output (c : Counts) (n : Nat) : Counts := { c with out := satCount c.out n }

/-- Does a count exceed its threshold, when that is not the disabling value (R113)? -/
def exceeds (count thr off : Nat) : Bool := decide (thr ≠ off ∧ thr < count)

/-- At least one of CLAMP, EDGE, ACC, SCORE exceeds its threshold in the guard entry (R112, R113). -/
def Counts.over (c : Counts) (g : Word) : Bool :=
  exceeds c.clamp (bitsOf g 63 52) 0xFFF || exceeds c.edge (bitsOf g 51 44) 0xFF
  || exceeds c.acc (bitsOf g 43 36) 0xFF || exceeds c.score (bitsOf g 35 28) 0xFF

/-- SCOPE of a guard entry. -/
def guardScope (g : Word) : Nat := bitsOf g 5 4
/-- MAX_STEPS of a guard entry. -/
def guardMax (g : Word) : Nat := bitsOf g 3 2

/-- R114: a guard entry the loader rejects. -/
def guardBad (g : Word) : Bool :=
  decide (2 ≤ guardScope g) || decide (signedOf 8 (bitsOf g 19 12) < signedOf 8 (bitsOf g 27 20))
  || bitsOf g 27 20 == 0x80 || bitsOf g 19 12 == 0x80 || bitsOf g 1 0 != 0

/-- The ACC test of one accumulator value before scaling (R110). -/
def accHit (g : Word) (v : Word32) : Bool :=
  notFinite32 v
  || (!(val32 v).isZero
      && (decide (exp32 v < signedOf 8 (bitsOf g 27 20)) || decide (signedOf 8 (bitsOf g 19 12) < exp32 v)))

/-- The next rung of a ladder (R115). -/
def Fmt.wider : Fmt → Option Fmt
  | .f4 => some .f6
  | .f6 => some .f8
  | .f8 => some .bf16
  | .i4 => some .i8
  | .i8 => some .bf16
  | _ => none

/-- Rungs above a format on its ladder (R116). -/
def Fmt.room : Fmt → Nat
  | .f4 => 3
  | .f6 => 2
  | .f8 => 1
  | .i4 => 2
  | .i8 => 1
  | _ => 0

/-- A format on a ladder, BF16 at the top included (R115). -/
def Fmt.onLadder : Fmt → Bool
  | .f4 | .f6 | .f8 | .i4 | .i8 => true
  | _ => false

/-- The format d rungs higher on its ladder (R182, R410). -/
def Fmt.up (f : Fmt) : Nat → Fmt
  | 0 => f
  | d + 1 => match f.wider with
    | some g => g.up d
    | none => f

/-- Partition of the work on well w, 12 for none. -/
def State.partOf (s : State) (w : Nat) : Nat :=
  match (s.well w).job with
  | some j => s.ctxOf j
  | none => 12

/-- One event counter of a well, when it counts this source (R770, R771). -/
def State.countOne (s : State) (w src n i : Nat) : State :=
  let k := 8 * w + i
  let c := s.reg (rEvCtl k)
  if bitOf c 31 && bitsOf c 7 0 == src && (bitOf c 30 || bitsOf c 27 24 == s.partOf w) then
    s.setReg (rEvCnt k) (s.reg (rEvCnt k) + BitVec.ofNat 64 n)
  else s

/-- n events of a source on well w, or on no well (R770 to R772). -/
def State.countEv (s : State) (w src n : Nat) : State :=
  if n = 0 ∨ 12 ≤ w ∨ s.fld rEvGlobal 1 1 = 1 then s
  else (List.range 8).foldl (fun t i => t.countOne w src n i) s

end Sys2Proof.Machine
end

