-- ==== Sys2Proof/Machine/Tlb.lean ====
section
/-!
DEFINITION. Translation buffers, the walk cache, miss queues and walkers (R436 to R443), and their invalidation
(R426, R438, R445). An access that its requester's buffer does not serve translates by the tables at once (Ops.lean); a
requester that has a miss outstanding waits for its walk.
-/

namespace Sys2Proof.Machine

/-! ### Translation buffers (R436, R442) -/

/-- Buffer q holds a translation of va. -/
def State.tlbHas (s : State) (q ctx va : Nat) : Bool := (s.tlbFind q ctx va).isSome

/-- A translation entered, most recent first, 8 ways. -/
def State.tlbPut (s : State) (q : Nat) (e : TlbEntry) : State :=
  let k := tlbKey q e.page e.size
  let old := (tabGet [] s.tlb k).filter (fun x => !(x.ctx == e.ctx && x.page == e.page && x.size == e.size))
  { s with tlb := tabPut [] s.tlb k ((e :: old).take 8) }

/-- Translations that satisfy p dropped everywhere. -/
def State.tlbDrop (s : State) (p : TlbEntry → Bool) : State :=
  { s with tlb := tabMap [] (fun _ l => l.filter (fun e => !p e)) s.tlb }

/-- A page of a context invalidated in every buffer, in both sizes (R438, R445). -/
def State.tlbPage (s : State) (ctx va : Nat) : State := s.tlbDrop (fun e => e.covers ctx va)

/-- A context invalidated in every buffer and in the walk cache (R426). -/
def State.tlbCtx (s : State) (ctx : Nat) : State :=
  { s.tlbDrop (fun e => e.ctx == ctx) with walkPtrs := s.walkPtrs.filter (fun x => x.ctx != ctx) }

/-! ### Walk cache (R437) -/

/-- The pointers that a walk of va reads, from a table of the listed levels. -/
def State.walkPath (s : State) (ctx va : Nat) : List (Nat × Nat × Nat) → Nat → List WalkPtr
  | [], _ => []
  | (level, lo, bits) :: rest, table =>
    match unguard64 (BitVec.ofNat 128 (leVal (s.rawRead ⟨.reservoir, table + 16 * (va / 2 ^ lo % 2 ^ bits)⟩ 16))) with
    | none => []
    | some v =>
      if bitsOf v 63 62 = 1 then
        let ptr := bitsOf v 46 0 * 512
        ⟨ctx, level, va / 2 ^ lo, ptr⟩ :: s.walkPath ctx va rest ptr
      else []

/-- Pointers that a walk starts from or reads become the newest of the walk cache of 8,192 entries. -/
def State.keepPath (s : State) (ctx va : Nat) : State :=
  match s.rootOf ctx with
  | none => s
  | some root =>
    let p := s.walkFrom ctx va root
    let new := (s.walkPath ctx va p.1 p.2).reverse ++ (s.heldPtr ctx va).toList
    { s with walkPtrs := (new ++ s.walkPtrs.filter (fun x => !new.contains x)).take 8192 }

/-! ### Miss queues (R439 to R441) -/

/-- Miss queue q. -/
def State.missQ (s : State) (q : Nat) : MissQ := tabGet {} s.missQs q
/-- Miss queue q replaced. -/
def State.setMissQ (s : State) (q : Nat) (x : MissQ) : State := { s with missQs := tabPut {} s.missQs q x }
/-- What walker k walks. -/
def State.walker (s : State) (k : Nat) : Option (Nat × Miss) := tabGet none s.walkers k
/-- Walker k replaced. -/
def State.setWalker (s : State) (k : Nat) (x : Option (Nat × Miss)) : State :=
  { s with walkers := tabPut none s.walkers k x }

/-- The same context and page, for jobs that have not ended. -/
def Miss.same (a b : Miss) : Bool := a.ctx == b.ctx && a.page == b.page && !a.dead && !b.dead

/-- The walker that walks the page of a miss; for a queue, only of its own misses. -/
def State.walking (s : State) (q : Option Nat) (m : Miss) : Option Nat :=
  (List.range 16).find? (fun k => match s.walker k with
    | some x => (q.isNone || q == some x.1) && x.2.same m
    | none => false)

/-- A miss joins a walk, with the requesters that had joined it and are counted already (R440, R445). -/
def State.joinWalk (s : State) (k : Nat) (m : Miss) : State :=
  match s.walker k with
  | some x => (s.setWalker k (some (x.1, { x.2 with reqs := x.2.reqs ++ m.reqs, vas := x.2.vas ++ m.vas }))).incFld rTrWalkStat 15 0 1
  | none => s

/-- A new head's stamp (R439). -/
def State.stampHead (s : State) (q : Nat) : State :=
  ({ s with nextId := s.nextId + 1 }).setMissQ q { s.missQ q with head := s.nextId }

/-- The miss takes its place: it joins its entry or its queue's walk, enters the queue, or stalls on a full one (R440,
R441). -/
def State.enterMiss (s : State) (q : Nat) (m : Miss) : State :=
  let x := s.missQ q
  if x.queue.any m.same then
    (s.setMissQ q { x with queue := x.queue.map (fun e => if e.same m then { e with reqs := e.reqs ++ m.reqs, vas := e.vas ++ m.vas } else e) })
      |>.incFld rTrWalkStat 15 0 1
  else
    match s.walking (some q) m with
    | some k => s.joinWalk k m
    | none =>
      if x.queue.length < 32 then
        let s := s.setMissQ q { x with queue := x.queue ++ [m] }
        if x.queue.isEmpty then s.stampHead q else s
      else s.setMissQ q { x with stalled := x.stalled ++ [m] }

/-- A parked miss whose page is no longer in transit (R438). -/
def State.unparked (s : State) (q : Nat) : Option Miss :=
  (s.missQ q).parked.find? (fun m => match s.leafOf m.ctx (m.page * 65536) false with
    | .ok l => !bitOf l.val 56
    | .error _ => true)

/-- One step of queue q that needs no shared walker; none when there is none to take. -/
def State.feedOne (s : State) (q : Nat) : Option State :=
  let x := s.missQ q
  match if x.queue.length < 32 then s.unparked q else none with
  | some m => some ((s.setMissQ q { x with parked := x.parked.erase m, queue := m :: x.queue }).stampHead q)
  | none =>
    if x.queue.length < 32 ∧ x.stalled ≠ [] then
      match x.stalled with
      | [] => none
      | m :: rest => some ((s.setMissQ q { x with stalled := rest }).enterMiss q m)
    else
      match x.queue with
      | [] => none
      | m :: rest =>
        match s.walking none m with
        | some k => some (((s.joinWalk k m).setMissQ q { x with queue := rest }).stampHead q)
        | none =>
          if q < 12 ∧ s.walker q = none then
            some (((s.setWalker q (some (q, m))).setMissQ q { x with queue := rest }).stampHead q)
          else none

/-- Queue q served until nothing moves without a shared walker. -/
def State.feedQ (s : State) (q : Nat) : Nat → State
  | 0 => s
  | fuel + 1 =>
    match s.feedOne q with
    | some t => t.feedQ q fuel
    | none => s

/-- Every queue served. -/
def State.feed (s : State) : State := (List.range 13).foldl (fun t q => t.feedQ q 256) s

/-! ### Commands -/

/-- Requesters of a queue, by unit number of R757 for a well and by number for the wellhead (R441, R442, R444). -/
def missReqs (q : Nat) : Nat := if q < 12 then 210 else 22

/-- Does a requester have a miss outstanding (R441)? -/
def State.missing (s : State) (q req : Nat) : Bool :=
  let x := s.missQ q
  (x.queue ++ x.stalled ++ x.parked).any (fun m => m.reqs.contains (256 * q + req))
  || (List.range 16).any (fun k => match s.walker k with
    | some y => y.2.reqs.contains (256 * q + req)
    | none => false)

/-- A context bound to a job. -/
def State.ctxBound (s : State) (c : Nat) : Bool := decide (c < 12) && bitOf (s.reg (rTrRoot c)) 63

/-- The context in which a requester of queue q translates (R426, R442): of the wellhead's, its pumps 0 to 15 in that of the
job they serve or the host context (R450), the job loader as 16, BAR2 accesses as 17 in the host context (R603), and
codec cores as 18 to 21 in that of a session's job (R573). -/
def State.missCtx (s : State) (q req : Nat) (c : Nat) : Bool :=
  if q < 12 then (match (s.well q).job with
    | some j => s.ctxOf j == c
    | none => false)
  else if req = 17 then c == 12
  else if 18 ≤ req then s.sessions.any (fun e => s.ctxOf e.job == c)
  else if req = 16 then decide (c < 12)
  else c == 12 || s.ctxBound c

/-- TRANSLATION_MISS (R440, R441): requester `req` of well q, or of the wellhead as 12, misses on va in context c. -/
def execTranslationMiss (q : Fin 13) (req : Fin 210) (c : Fin 13) (va : Word) (s : State) : Res :=
  need (decide (req.val < missReqs q ∧ 65536 ≤ va.toNat ∧ va.toNat < 2 ^ 56) && s.missCtx q req c
      && !s.missing q req && !s.tlbHas q c va.toNat) 440 (
    let s := s.feed
    let s := if q.val < 12 then (s.incFld (rWlTlbStat q) 63 32 1).countEv q 0x0F 1 else s
    let waiting := (s.missQ q).stalled.length
    let s := s.enterMiss q { ctx := c, page := va.toNat / 65536, reqs := [256 * q.val + req.val], vas := [va.toNat] }
    let n := (s.missQ q).queue.length
    let s := if q.val < 12 then
        let s := if waiting < (s.missQ q).stalled.length then s.incFld (rWlTlbStat q) 31 16 1 else s
        if s.fld (rWlTlbStat q) 5 0 < n then s.setFld (rWlTlbStat q) 5 0 n else s
      else s
    .next s.feed)

/-- The queue whose head became head first, among those with a head that waits (R439). -/
def State.firstHead (s : State) : Option Nat :=
  ((List.range 13).filter (fun q => !(s.missQ q).queue.isEmpty)).foldl (fun best q => match best with
    | none => some q
    | some b => if (s.missQ q).head < (s.missQ b).head then some q else some b) none

/-- SHARED_WALKER_GRANT (R439). -/
def execSharedWalkerGrant (s : State) : Res :=
  let s := s.feed
  needSome ([12, 13, 14, 15].find? (fun k => s.walker k == none)) 439 (fun k =>
    needSome s.firstHead 439 (fun q =>
      match (s.missQ q).queue with
      | [] => .fault (.notEnabled 439)
      | m :: rest =>
        .next (((s.setWalker k (some (q, m))).setMissQ q { s.missQ q with queue := rest }).stampHead q).feed))

/-- A walk's end: counts and the walker free. -/
def State.endWalk (s : State) (k : Nat) : State :=
  let s := (s.setWalker k none).incFld rTrWalkStat 63 32 1
  if 12 ≤ k then s.incFld rTrWalkStat 31 16 1 else s

/-- The buffers of the queues whose requesters a walk serves (R440). -/
def Miss.queues (m : Miss) : List Nat := (List.range 13).filter (fun q => m.reqs.any (fun i => i / 256 == q))

/-- The misses of a context whose job ends: walks that run are discarded at their end, and what waits is withdrawn with its
requesters (R447). -/
def State.dropMisses (s : State) (ctx : Nat) : State :=
  let keep (l : List Miss) : List Miss := l.filter (fun m => m.ctx != ctx)
  { s with
    missQs := tabMap {} (fun _ x =>
      { x with queue := keep x.queue, stalled := keep x.stalled, parked := keep x.parked }) s.missQs
    walkers := tabMap none (fun _ x =>
      x.map (fun y => if y.2.ctx = ctx then (y.1, { y.2 with dead := true, reqs := [], vas := [] }) else y)) s.walkers }

/-! ### Accesses (R436, R443) -/

/-- A translation used by a requester: its buffer's entry becomes the newest, and one that it does not hold is walked and
entered, unless its page is in transit. -/
def State.useTlb (s : State) (ctx va : Nat) : State :=
  match ctxQ ctx with
  | none => s
  | some q =>
    let c := ctxNo ctx
    match s.tlbFind q c va with
    | some e => s.tlbPut q e
    | none =>
      match s.leafOf ctx va false with
      | .error _ => s
      | .ok l =>
        if bitOf l.val 56 then s
        else
          let s := if q < 12 then (s.incFld (rWlTlbStat q) 63 32 1).countEv q 0x0F 1 else s
          ((s.incFld rTrWalkStat 63 32 1).keepPath c va).tlbPut q ⟨c, va / l.page * l.page, l.page, l.val⟩

/-- Every translation that n bytes from va use. -/
def State.useTlbs (s : State) (ctx va n : Nat) : State := (runsOf va n).foldl (fun t r => t.useTlb ctx r.1) s

/-! ### TR_INV (R445) -/

/-- TR_INV_CONTEXT: OP 1 with CTX c. -/
def execTrInvContext (c : Fin 16) (s : State) : Res :=
  let s := s.setFld rTrInv 3 0 c
  .next (if 12 < c.val then s
    else if s.ctxBound c then s.setFld rTrInv 30 29 1
    else (s.tlbCtx c).setFld rTrInv 30 29 0)

/-- TR_INV_PAGE: OP 2 with CTX c, for the page at TR_INV_VA. -/
def execTrInvPage (c : Fin 16) (s : State) : Res :=
  let s := s.setFld rTrInv 3 0 c
  if 12 < c.val then .next s
  else if s.ctxBound c then .next (s.setFld rTrInv 30 29 1)
  else
      let va := s.fld rTrInvVa 55 16 * 65536
      let t := s.tlbPage c va
      .next ({ t with walkPtrs := t.walkPtrs.filter (fun x => x.ctx != c.val || x.va != va / 2 ^ (12 * x.level + 9)) }.setFld rTrInv 30 29 0)

/-- TR_HROOT_JUDGING_WRITE (R41): the complement register as it stands after the write that covers its high half,
through function f. A pair that agrees takes effect after the host context is invalidated (R446). -/
def execTrHrootJudgingWrite (v : Word) (f : Fin 2) (s : State) : Res :=
  let s := s.setReg rTrHrootC v
  if s.reg rTrHroot = ~~~v then
    let t := s.tlbCtx 12
    .next { t with hroot := t.reg rTrHroot }
  else
    let t := (s.setReg rTrHroot s.hroot).setReg rTrHrootC (~~~s.hroot)
    .next (t.reportSelf 21 0x1 0 (64 + f) rTrHrootC)

end Sys2Proof.Machine
end

