-- ==== Sys2Proof/Machine/Directory.lean ====
section
/-!
DEFINITION. Well caches and the ownership directory (R528 to R548). The reservoir's bytes are the current bytes of
every line, whoever holds it, so these parts decide which holder a request reaches, and which bytes a reset loses.
-/

namespace Sys2Proof.Machine

/-! ### Lines of a well (R403, R531) -/

/-- Sets of well w's cache: 16 ways of 256 bytes. -/
def State.cacheSets (s : State) (w : Nat) : Nat := max 1 (tabGet 4 s.caches w * 16384)
/-- The set of a line; the manual gives no index, so the line number's low bits (log entry 45). -/
def State.lineKey (s : State) (w line : Nat) : Nat := w * 2 ^ 20 + line % s.cacheSets w
/-- Lines of that set, most recent first. -/
def State.lineSet (s : State) (w line : Nat) : List (Nat × LineSt) := tabGet [] s.lines (s.lineKey w line)
/-- State of a line in well w's cache; none is INVALID. -/
def State.lineSt (s : State) (w line : Nat) : Option LineSt :=
  ((s.lineSet w line).find? (fun e => e.1 == line)).map Prod.snd
/-- That state replaced; the line becomes the most recent. -/
def State.setLine (s : State) (w line : Nat) (st : Option LineSt) : State :=
  let rest := (s.lineSet w line).filter (fun e => e.1 != line)
  { s with lines := tabPut [] s.lines (s.lineKey w line) ((st.map (fun x => (line, x))).toList ++ rest) }

/-! ### The directory (R532) -/

/-- The set of a line. -/
def dirKey (line : Nat) : Nat := line % 786432
/-- The entry of a line. -/
def State.dirEntry (s : State) (line : Nat) : Option DirEntry :=
  (tabGet [] s.dir (dirKey line)).find? (fun e => e.line == line)
/-- The entry of a line removed. -/
def State.dirErase (s : State) (line : Nat) : State :=
  { s with dir := tabMod [] s.dir (dirKey line) (fun l => l.filter (fun e => e.line != line)) }
/-- An entry made the most recent of its set. -/
def State.dirPut (s : State) (e : DirEntry) : State :=
  { s with dir := tabMod [] s.dir (dirKey e.line) (fun l => e :: l.filter (fun x => x.line != e.line)) }
/-- Holders that an entry names. -/
def DirEntry.holders (e : DirEntry) : List Nat := e.owner.toList ++ e.sharers

/-- A well answers an invalidation of a line: a MODIFIED line's bytes go to whoever asked (R534, R535, R548). -/
def State.invalLine (s : State) (w line : Nat) : State := (s.incFld (rWlWcEvt w) 31 16 1).setLine w line none

/-- A well sends a line's 256 bytes, as four messages of 64 (R771; log entry 128). -/
def State.sendLine (s : State) (w : Nat) : State := s.countEv w 0x1B 4

/-- A well writes a MODIFIED line back (R533, R534, R548). -/
def State.writeBack (s : State) (w : Nat) : State := (s.incFld (rWlWcEvt w) 63 32 1).sendLine w

/-- A well answers a recall of a line: a MODIFIED line is written back (R533, R548). -/
def State.dropLine (s : State) (w line : Nat) : State :=
  let s := if s.lineSt w line = some .modified then s.writeBack w else s
  s.invalLine w line

/-- A line recalled from every holder and its entry removed (R533). -/
def State.recallLine (s : State) (line : Nat) : State :=
  match s.dirEntry line with
  | none => s
  | some e => (e.holders.foldl (fun t w => t.dropLine w line) s).dirErase line

/-- An entry for a line: when its set is full, the least recently used entry is recalled first (R533). -/
def State.dirRoom (s : State) (line : Nat) : State :=
  let l := tabGet [] s.dir (dirKey line)
  if (s.dirEntry line).isSome ∨ l.length < 16 then s
  else
    match l.getLast? with
    | some e => (s.recallLine e.line).incFld rCdStat 31 16 1
    | none => s

/-! ### Errors (R547) -/

/-- CD_ERR and the report. -/
def State.cdErr (s : State) (src well line : Nat) : State :=
  (s.latch rCdErr (setBits (setBits (setBits 0#64 61 60 src) 59 56 well) 33 0 line)).reportSelf 16 0x2 0 0
    (line * 256)

/-- An uncorrectable directory entry: every line of the set is recalled from all 12 wells and the set is empty. -/
def State.dirEntryErr (s : State) (line : Nat) : State :=
  let l := tabGet [] s.dir (dirKey line)
  (l.foldl (fun t e => ((List.range 12).foldl (fun u w => u.dropLine w e.line) t).dirErase e.line) s).cdErr 0 15
    (dirKey line)

/-- The cistern block that holds a part of a cached line: which one is open. -/
def State.cacheBlock (s : State) (w : Nat) : Loc × State :=
  let c := s.cacheBytes w
  let d := s.freeNat
  (⟨.cistern w, cisternSize - c + d.1 % c / 64 * 64⟩, d.2)

/-- An uncorrectable read of the line at a holder, recorded as a cistern block too (R399): a clean line is dropped, and a
MODIFIED one leaves its four sectors poisoned (R482, R547). -/
def State.lineErr (s : State) (w line : Nat) : State :=
  match s.lineSt w line with
  | none => s
  | some st =>
    let b := s.cacheBlock w
    let s := (b.2.noteTier .ctl w (b.2.tierUnit b.1).2 b.1 false).setLine w line none
    match st with
    | .modified =>
      (((List.range 4).foldl (fun t i => t.setPoison ⟨.reservoir, line * 256 + 64 * i⟩) s).dirErase line).cdErr 1 w line
    | .exclusive => ((s.dirErase line).incFld (rWlWcEvt w) 15 0 1).cdErr 2 w line
    | .shared => (s.incFld (rWlWcEvt w) 15 0 1).cdErr 2 w line

/-- The error that a request meets. -/
def State.meetErr (s : State) (line : Nat) : LineEv → State
  | .sound => s
  | .entry => s.dirEntryErr line
  | .line =>
    match (s.dirEntry line).bind DirEntry.owner with
    | some v => s.lineErr v line
    | none => s

/-! ### Requests (R534) -/

/-- A request counted. -/
def State.dirReq (s : State) : State := s.incFld rCdStat 63 32 1
/-- A miss of well w counted. -/
def State.cacheMiss (s : State) (w : Nat) : State := ((s.dirReq).incFld (rWlWcStat w) 31 0 1).countEv w 0x0E 1

/-- A line evicted from well w (R534, R535): a SHARED one silently, another by PUTM or PUTE. -/
def State.evict (s : State) (w line : Nat) : State :=
  match s.lineSt w line with
  | none => s
  | some .shared => s.setLine w line none
  | some .exclusive => ((s.setLine w line none).dirErase line).dirReq
  | some .modified => (((s.setLine w line none).dirErase line).dirReq).writeBack w

/-- A free way in the line's set, the least recently used line evicted for it (R403). -/
def State.wayFor (s : State) (w line : Nat) : State :=
  let l := s.lineSet w line
  if (s.lineSt w line).isSome ∨ l.length < 16 then s
  else
    match l.getLast? with
    | some e => s.evict w e.1
    | none => s

/-- GETS at the directory. -/
def State.dirGets (s : State) (w line : Nat) : State :=
  let s := (s.wayFor w line).dirRoom line
  match s.dirEntry line with
  | none => (s.dirPut { line := line, owner := some w }).setLine w line (some .exclusive)
  | some e =>
    match e.owner with
    | some v =>
      if v = w then (s.dirPut { line := line, owner := some w }).setLine w line (some .exclusive)
      else
        let s := if s.lineSt v line = some .modified then s.writeBack v else s
        let s := ((s.setLine v line (some .shared)).incFld rCdStat 15 0 1).sendLine v
        (s.dirPut { line := line, sharers := [v, w] }).setLine w line (some .shared)
    | none =>
      let others := e.sharers.filter (· != w)
      if others.isEmpty then (s.dirPut { line := line, owner := some w }).setLine w line (some .exclusive)
      else (s.dirPut { line := line, sharers := others ++ [w] }).setLine w line (some .shared)

/-- GETX or, with `full`, GETXF at the directory. -/
def State.dirGetx (s : State) (w line : Nat) (full : Bool) : State :=
  let s := (s.wayFor w line).dirRoom line
  let s := match s.dirEntry line with
    | none => s
    | some e =>
      let s := if e.owner.isSome && e.owner != some w && !full then
          (s.incFld rCdStat 15 0 1).sendLine (e.owner.getD w)
        else s
      (e.holders.filter (· != w)).foldl (fun t v => t.invalLine v line) s
  (s.dirPut { line := line, owner := some w }).setLine w line (some .modified)

/-! ### Accesses (R403, R529, R530, R540) -/

/-- The lines of n reservoir bytes from a. -/
def linesOver (a n : Nat) : List Nat := (List.range ((a % 256 + n + 255) / 256)).map (fun i => a / 256 + i)

/-- The lines in the reservoir that n bytes from va reach, as (line, the access covers the whole of it). -/
def State.reservoirLines (s : State) (ctx va n : Nat) (write : Bool) : List (Nat × Bool) :=
  (runsOf va n).flatMap (fun r =>
    match s.translate ctx r.1 write with
    | .ok ⟨.reservoir, a⟩ => (linesOver a r.2).map (fun l => (l, decide (a ≤ l * 256 ∧ l * 256 + 256 ≤ a + r.2)))
    | _ => [])

/-- An access that hits. -/
def State.cacheHit (s : State) (w line : Nat) (st : LineSt) : State :=
  ((s.setLine w line (some st)).incFld (rWlWcStat w) 63 32 1).countEv w 0x0D 1

/-- 64-byte blocks that n bytes from a reach. -/
def blockCount (a n : Nat) : Nat := (a % 64 + n + 63) / 64

/-- What an access of n bytes at va counts beside lines and translations (R771): a burst at the port of a cistern's bank group
for each block of 64 bytes, and a message for each block that a well writes outside itself or reads to another requester
(log entry 128). -/
def State.traffic (s : State) (me ctx va n : Nat) (write : Bool) : State :=
  (runsOf va n).foldl (fun t r =>
    match s.translate ctx r.1 write with
    | .ok l =>
      let k := blockCount l.addr r.2
      match l.tier with
      | .cistern v => (t.countEv v 0x0C k).countEv (if write then me else v) 0x1B (if v = me then 0 else k)
      | .reservoir => if tabGet 4 s.caches me = 0 && write then t.countEv me 0x1B k else t
      | _ => if write then t.countEv me 0x1B k else t
    | .error _ => t) s

/-- Key of a well's count of a page. -/
def fillKey (w va : Nat) : Nat := w * 2 ^ 56 + va

/-- A well-cache fill from a reservoir-homed page counted for a job with AUTO set, in a table of 512 pages per well
(R468). -/
def State.countFill (s : State) (w va : Nat) : State :=
  let auto_ := ((s.well w).job.bind s.job).any (fun x => x.mig.auto_)
  let e := s.engine
  let k := fillKey w va
  let mine := e.fills.filter (fun x => x.1 / 2 ^ 56 == w)
  if !auto_ || (tabGet 0 e.fills k == 0 && decide (512 ≤ mine.length)) then s
  else { s with engine := { e with fills := tabPut 0 e.fills k (tabGet 0 e.fills k + 1) } }

/-- A fill counted for the page that holds va. -/
def State.countPage (s : State) (w ctx va : Nat) : State :=
  match s.leafOf ctx va false with
  | .ok l => s.countFill w (va / l.page * l.page)
  | .error _ => s

/-- A line read by well w: a miss takes a GETS. -/
def State.useLine (s : State) (w ctx va line : Nat) : State :=
  match s.lineSt w line with
  | some st => s.cacheHit w line st
  | none => ((s.cacheMiss w).dirGets w line).countPage w ctx va

/-- A line written by well w: an EXCLUSIVE line becomes MODIFIED without a request, and one that it does not own takes a
GETX first, or a GETXF where the write covers it (R531, R534). -/
def State.ownLine (s : State) (w ctx va line : Nat) (full : Bool) : State :=
  match s.lineSt w line with
  | some .modified => s.cacheHit w line .modified
  | some .exclusive => s.cacheHit w line .modified
  | _ =>
    let s := (s.cacheMiss w).dirGetx w line full
    if full then s else s.countPage w ctx va

/-- A non-allocating write: every cached copy of its lines is invalidated, an owner's dirty bytes first (R530). -/
def State.wroteDir (s : State) (lines : List Nat) : State :=
  let held := lines.filter (fun l => (s.dirEntry l).isSome)
  let owned := held.filter (fun l => ((s.dirEntry l).bind DirEntry.owner).isSome)
  held.foldl (fun t l => t.recallLine l) ((s.incFld rCdStat 63 32 lines.length).incFld rCdStat 15 0 owned.length)

/-- Bytes of well w stored at va: their lines in the reservoir are MODIFIED in its cache, or pass it by when it has none
(R529, R540). -/
def State.wroteVia (s : State) (w ctx va n : Nat) : State :=
  let t := (s.traffic w ctx va n true).useTlbs ctx va n
  if tabGet 4 s.caches w = 0 then t.wroteDir ((s.reservoirLines ctx va n true).map Prod.fst)
  else (runsOf va n).foldl (fun t r =>
    (t.reservoirLines ctx r.1 r.2 true).foldl (fun u l => u.ownLine w ctx r.1 l.1 l.2) t) t

/-- Bytes at va that well w has read: their translations and lines are the newest of its buffer and its cache (R403, R436,
R529). -/
def State.readVia (s : State) (w ctx va n : Nat) : State :=
  let t := (s.traffic w ctx va n false).useTlbs ctx va n
  if tabGet 4 s.caches w = 0 then t
  else (runsOf va n).foldl (fun t r =>
    (t.reservoirLines ctx r.1 r.2 false).foldl (fun u l => u.useLine w ctx r.1 l.1) t) t

/-- Runs of bytes that well w has read. -/
def State.readVias (s : State) (w ctx : Nat) (rs : List (Nat × Nat)) : State :=
  rs.foldl (fun t r => t.readVia w ctx r.1 r.2) s

/-- Bytes written at va by a requester that allocates no line (R529, R530). -/
def State.writeDir (s : State) (ctx va : Nat) (bs : List Byte) : Except AccErr State := do
  let t ← s.writeVa ctx va bs
  pure (((t.wroteDir ((t.reservoirLines ctx va bs.length true).map Prod.fst)).traffic ((ctxQ ctx).getD 12) ctx va bs.length
    true).useTlbs ctx va bs.length)

/-! ### Whole caches -/

/-- Lines that well w holds, with their states. -/
def State.linesOf (s : State) (w : Nat) : List (Nat × LineSt) :=
  (s.lines.filter (fun e => e.1 / 2 ^ 20 == w)).flatMap Prod.snd

/-- The directory removes a well from every entry (R545). -/
def State.dirForget (s : State) (w : Nat) : State :=
  let f (e : DirEntry) : Option DirEntry :=
    if e.owner = some w then none
    else
      let sh := e.sharers.filter (· != w)
      if e.owner.isNone && sh.isEmpty then none else some { e with sharers := sh }
  { s with dir := tabMap [] (fun _ l => l.filterMap f) s.dir,
           lines := tabDrop (fun k => k / 2 ^ 20 == w) s.lines }

/-- Every MODIFIED line written back and every line invalidated (R543, R546). -/
def State.flushCache (s : State) (w : Nat) : State :=
  let n := ((s.linesOf w).filter (fun e => e.2 == .modified)).length
  (s.dirForget w).incFld (rWlWcEvt w) 63 32 n

/-- The tags of a well lost: bytes of lines held MODIFIED are undefined (R545). -/
def State.loseCache (s : State) (w : Nat) : State :=
  let dirty := (s.linesOf w).filter (fun e => e.2 == .modified)
  dirty.foldl (fun t e => t.undefine ⟨.reservoir, e.1 * 256⟩ 256) (s.dirForget w)

/-- Every line of a reservoir range recalled from every well (R542). -/
def State.recallRange (s : State) (a n : Nat) : State :=
  let lines := (s.dir.flatMap Prod.snd).filterMap (fun e =>
    if a ≤ e.line * 256 ∧ e.line * 256 < a + n then some e.line else none)
  lines.foldl (fun t l => t.recallLine l) s

/-! ### Commands -/

/-- The line of an address in the well's context, homed in the reservoir (R528). -/
def State.lineAt (s : State) (ctx va : Nat) (write : Bool) : Option Nat :=
  match s.translate ctx va write with
  | .ok ⟨.reservoir, a⟩ => some (a / 256)
  | _ => none

/-- The context of a well's job. -/
def State.wellCtx (s : State) (w : Nat) : Option Nat := (s.well w).job.map s.ctxOf

/-- Another well's MODIFIED line that cannot be read: the access that asked for its bytes ends with TIER_ERROR (R547). -/
def State.lostLine (s : State) (line : Nat) (ev : LineEv) : Bool :=
  ev == .line && (((s.dirEntry line).bind DirEntry.owner).any (fun v => s.lineSt v line == some .modified))

/-- A request of well w for the line of va, which its cache must not hold in a state of `held`; one whose bytes are lost
is not granted. -/
def State.lineReq (s : State) (w va : Nat) (write full : Bool) (held : List LineSt) (ev : LineEv)
    (f : State → Nat → State) : Res :=
  need (decide (tabGet 4 s.caches w ≠ 0)) 529 (
    needSome ((s.wellCtx w).bind (fun c => s.lineAt c va write)) 528 (fun line =>
      need (!((s.lineSt w line).any held.contains)) 534 (
        let t := (s.meetErr line ev).cacheMiss w
        .next (if s.lostLine line ev && !full then t else f t line))))

/-- GETX (R534). -/
def execGetx (w : WellId) (va : Word) (ev : LineEv) (s : State) : Res :=
  s.lineReq w va.toNat true false [.exclusive, .modified] ev (fun t line =>
    (t.dirGetx w line false).countPage w ((t.wellCtx w).getD 12) va.toNat)

/-- GETXF (R534). -/
def execGetxf (w : WellId) (va : Word) (ev : LineEv) (s : State) : Res :=
  s.lineReq w va.toNat true true [.exclusive, .modified] ev (fun t line => t.dirGetx w line true)

/-- PUTM (R534): a MODIFIED line of well w is evicted. -/
def execPutm (w : WellId) (line : BitVec 34) (s : State) : Res :=
  need (s.lineSt w line.toNat == some .modified) 534 (.next (s.evict w line.toNat))

/-- PUTE (R534): an EXCLUSIVE line of well w is evicted. -/
def execPute (w : WellId) (line : BitVec 34) (s : State) : Res :=
  need (s.lineSt w line.toNat == some .exclusive) 534 (.next (s.evict w line.toNat))

/-- NONALLOCATING_READ (R530). -/
def execNonallocatingRead (line : BitVec 34) (ev : LineEv) (s : State) : Res :=
  let l := line.toNat
  let s := (s.meetErr l ev).dirReq
  .next (match (s.dirEntry l).bind DirEntry.owner with
    | some _ => s.incFld rCdStat 15 0 1
    | none => s)

/-- NONALLOCATING_WRITE (R530): every cached copy is invalidated, an owner's dirty bytes first. -/
def execNonallocatingWrite (line : BitVec 34) (ev : LineEv) (s : State) : Res :=
  let l := line.toNat
  let s := (s.meetErr l ev).dirReq
  let s := match (s.dirEntry l).bind DirEntry.owner with
    | some _ => s.incFld rCdStat 15 0 1
    | none => s
  .next (s.recallLine l)

end Sys2Proof.Machine
end

