-- ==== Sys2Proof/Machine/Operands.lean ====
section
/-!
DEFINITION. The operand forms: tensor descriptors and regions of the unified range (R174 to R177, R191),
pillow slots (R135, R193), accumulator slots and their scaling (R137, R138, R205, R226), and the fields of the
instruction words (R181).
-/

namespace Sys2Proof.Machine

/-! ### Tensor descriptors -/

/-- A descriptor from its four words; a reserved format code reads as FP32, which the loader has excluded. -/
def parseDesc (w0 w1 w2 w3 : Word) : TDesc :=
  { fmt := (Fmt.ofCode (bitsOf w0 63 60)).getD .fp32, red := bitOf w0 59, base := bitsOf w0 55 0,
    sbase := bitsOf w1 55 0, tsaddr := bitsOf w2 55 0, kext := bitsOf w3 63 32, rows := bitsOf w3 31 0 }

/-- Read a descriptor of 32 bytes (R174). -/
def State.readDesc (s : State) (ctx va : Nat) : Except AccErr TDesc := do
  let bs ← s.readVa ctx va 32
  let w (i : Nat) : Word := BitVec.ofNat 64 (leVal ((bs.drop (8 * i)).take 8))
  pure (parseDesc (w 0) (w 1) (w 2) (w 3))

/-- Bytes of a stored row (R175): every stored row starts on a byte boundary. -/
def TDesc.pitch (d : TDesc) : Nat :=
  ((if d.red then d.rows else d.kext) * d.fmt.width + 7) / 8

/-- Address of stored row i. -/
def TDesc.rowAddr (d : TDesc) (i : Nat) : Nat := d.base + i * d.pitch

/-- Address of the block scale of element (r, k) (R176). -/
def TDesc.scaleAddr (d : TDesc) (r k : Nat) : Nat := d.sbase + r * (d.kext / 32) + k / 32

/-- Bytes that n elements from element `first` of a stored row touch: offset and length. -/
def elemSpan (f : Fmt) (first n : Nat) : Nat × Nat :=
  let a := first * f.width / 8
  (a, ((first + n) * f.width + 7) / 8 - a)

/-- n stored elements of stored row i from position `first`. -/
def State.readRun (s : State) (ctx : Nat) (d : TDesc) (i first n : Nat) : Except AccErr (List Nat) := do
  if n = 0 then pure []
  else
    let (a, len) := elemSpan d.fmt first n
    let bs ← s.readVa ctx (d.rowAddr i + a) len
    pure (unpackNat d.fmt.width n (first * d.fmt.width - 8 * a) (leVal bs))

/-- The part of indices x0 .. x0 + n - 1 that lies in 0 .. ext - 1: leading zeros, first index, count. -/
def clipRange (x0 : Int) (n ext : Nat) : Nat × Nat × Nat :=
  let lead := min n (-x0).toNat
  let lo := (x0 + lead).toNat
  (lead, lo, min (n - lead) (ext - lo))

/-- Pad a clipped run with zeros to n entries (R177). -/
def padRun (lead n : Nat) (cs : List Nat) : List Nat :=
  (List.replicate lead 0 ++ cs ++ List.replicate (n - lead - cs.length) 0).take n

/-- Columns to rows. -/
def transposeN (n : Nat) (cols : List (List Nat)) : List (List Nat) :=
  (List.range n).map (fun i => cols.map (fun c => c.getD i 0))

/-- Element codes of the region of nr rows from r0 by nk elements from k0; outside the extents the code 0 (R177). -/
def State.readRegion (s : State) (ctx : Nat) (d : TDesc) (r0 : Int) (nr : Nat) (k0 : Int) (nk : Nat) :
    Except AccErr (List (List Nat)) :=
  let (kl, klo, kn) := clipRange k0 nk d.kext
  let (rl, rlo, rn) := clipRange r0 nr d.rows
  if d.red then do
    let cols ← (List.range nk).mapM (fun j =>
      if kl ≤ j ∧ j < kl + kn then do
        let cs ← s.readRun ctx d (klo + (j - kl)) rlo rn
        pure (padRun rl nr cs)
      else pure (List.replicate nr 0))
    pure (transposeN nr cols)
  else
    (List.range nr).mapM (fun i =>
      if rl ≤ i ∧ i < rl + rn then do
        let cs ← s.readRun ctx d (rlo + (i - rl)) klo kn
        pure (padRun kl nk cs)
      else pure (List.replicate nk 0))

/-- Block-scale bytes of a region of nr rows by nb blocks from K origin k0; outside 0x00 (R176, R177). -/
def State.readScales (s : State) (ctx : Nat) (d : TDesc) (r0 : Int) (nr : Nat) (k0 : Int) (nb : Nat) :
    Except AccErr (List (List Nat)) :=
  let (bl, blo, bn) := clipRange (k0 / 32) nb (d.kext / 32)
  let (rl, rlo, rn) := clipRange r0 nr d.rows
  (List.range nr).mapM (fun i =>
    if rl ≤ i ∧ i < rl + rn ∧ 0 < bn then do
      let bs ← s.readVa ctx (d.scaleAddr (rlo + (i - rl)) (32 * blo)) bn
      pure (padRun bl nb (bs.map BitVec.toNat))
    else pure (List.replicate nb 0))

/-- Values of a row from its codes and scales (R86). -/
def rowValues (f : Fmt) (t : Num) (codes scales : List Nat) : List Num :=
  if f.twoLevel then
    codes.zipIdx.map (fun ci => scaledValue f ci.1 (scales.getD (ci.2 / 32) 0) t)
  else codes.map (decodeElem f)

/-! ### Pieces of memory written -/

/-- A piece of bytes cut at every n bytes of length and at every 64 KiB page. -/
def cutRuns (n : Nat) : Nat → Nat → List Byte → List (Nat × List Byte)
  | 0, _, _ => []
  | fuel + 1, va, bs =>
    if bs.isEmpty then []
    else
      let k := min n (65536 - va % 65536)
      (va, bs.take k) :: cutRuns n fuel (va + k) (bs.drop k)

/-- Element codes placed in stored row i from position `first`: the address and bytes, the elements of partly
covered bytes at the ends kept as they stand. -/
def State.placeRun (s : State) (ctx : Nat) (d : TDesc) (i first : Nat) (codes : List Nat) :
    Except AccErr (Nat × List Byte) := do
  let w := d.fmt.width
  let (a, len) := elemSpan d.fmt first codes.length
  let va := d.rowAddr i + a
  let off := first * w - 8 * a
  if off = 0 ∧ codes.length * w = 8 * len then pure (va, packCodes d.fmt codes)
  else
    let old ← s.readVa ctx va len
    let v := leVal old
    let hi := off + codes.length * w
    pure (va, leBytes len (v % 2 ^ off + packNat w codes * 2 ^ off + v / 2 ^ hi * 2 ^ hi))

/-- A rectangle of codes at (r0, k0) of a descriptor, clipped to its extents (R177): per stored row, ascending, the row, the
first element and the codes. -/
def TDesc.pieces (d : TDesc) (r0 k0 : Int) (rows : List (List Nat)) : List (Nat × Nat × List Nat) :=
  let nk := (rows.head?.map List.length).getD 0
  let (kl, klo, kn) := clipRange k0 nk d.kext
  let (rl, rlo, rn) := clipRange r0 rows.length d.rows
  if kn = 0 ∨ rn = 0 then []
  else if d.red then
    (List.range kn).map (fun j => (klo + j, rlo, ((rows.drop rl).take rn).map (fun r => r.getD (kl + j) 0)))
  else (List.range rn).map (fun i => (rlo + i, klo, ((rows.getD (rl + i) []).drop kl).take kn))

/-- A rectangle of codes written at (r0, k0) of a descriptor: the runs of bytes. -/
def State.placeRegion (s : State) (ctx : Nat) (d : TDesc) (r0 k0 : Int) (rows : List (List Nat)) :
    Except AccErr (List (Nat × List Byte)) :=
  (d.pieces r0 k0 rows).mapM (fun p => s.placeRun ctx d p.1 p.2.1 p.2.2)

/-- A contiguous run of element codes: its address, its bytes with 0 outside the elements, and the low bits of the first
byte and the high bits of the last that belong to other elements (R79). -/
structure MaskRun where
  va : Nat
  data : List Byte
  lo : Nat := 0
  hi : Nat := 0
deriving DecidableEq, Repr

/-- Codes of stored row i from position `first` as a run of bytes. -/
def TDesc.maskRun (d : TDesc) (i first : Nat) (codes : List Nat) : MaskRun :=
  let w := d.fmt.width
  let (a, len) := elemSpan d.fmt first codes.length
  let off := first * w - 8 * a
  { va := d.rowAddr i + a, data := leBytes len (packNat w codes * 2 ^ off), lo := off,
    hi := 8 * len - (off + codes.length * w) }

/-- A run cut at every n bytes of length and at every 64 KiB page (R204). -/
def MaskRun.cut (r : MaskRun) (n : Nat) : List MaskRun :=
  let ps := cutRuns n (r.data.length / n + r.data.length / 65536 + 2) r.va r.data
  ps.zipIdx.map (fun p => { va := p.1.1, data := p.1.2, lo := if p.2 = 0 then r.lo else 0,
                            hi := if p.2 + 1 = ps.length then r.hi else 0 })

/-- Bytes put over old ones of the same length, but for the low `lo` bits of the first and the high `hi` bits of the last,
which stay; the new bytes are 0 there. -/
def mergeBytes (lo hi : Nat) (old data : List Byte) : List Byte :=
  let n := 8 * data.length
  leBytes data.length (leVal old % 2 ^ lo + leVal data + leVal old / 2 ^ (n - hi) * 2 ^ (n - hi))

/-- Block scales written beside a rectangle (R176). -/
def placeScales (d : TDesc) (r0 k0 : Int) (rows : List (List Nat)) : List (Nat × List Byte) :=
  let nb := (rows.head?.map List.length).getD 0
  let (bl, blo, bn) := clipRange (k0 / 32) nb (d.kext / 32)
  let (rl, rlo, rn) := clipRange r0 rows.length d.rows
  if bn = 0 then []
  else (List.range rn).map (fun i =>
    (d.scaleAddr (rlo + i) (32 * blo),
      ((((rows.getD (rl + i) []).drop bl).take bn).map (fun c => BitVec.ofNat 8 c))))

/-- All runs of bytes written through translation by a requester that allocates no line (R529). -/
def State.writeRuns (s : State) (ctx : Nat) (rs : List (Nat × List Byte)) : Except AccErr State :=
  rs.foldlM (fun t r => t.writeDir ctx r.1 r.2) s

/-- Bytes made undefined (R17) where they may be written. -/
def State.undefVa (s : State) (ctx va n : Nat) : State :=
  (runsOf va n).foldl (fun t r => match t.translate ctx r.1 true with
    | .ok l => t.undefine l r.2
    | .error _ => t) s

/-- Runs of bytes made undefined. -/
def State.undefVas (s : State) (ctx : Nat) (rs : List (Nat × Nat)) : State :=
  rs.foldl (fun t r => t.undefVa ctx r.1 r.2) s

/-! ### Pillow slots -/

/-- A pillow byte: undefined until this attempt loads it (R139). -/
def Pillow.byte (p : Pillow) (a : Nat) : Byte :=
  match tabGet none p.bytes (a % 2 ^ 20) with
  | some b => b
  | none => Config.freeByte (p.seed + a % 2 ^ 20)

/-- n pillow bytes from a. -/
def Pillow.read (p : Pillow) (a n : Nat) : List Byte := (List.range n).map (fun i => p.byte (a + i))

/-- Pillow bytes written from a. -/
def Pillow.write (p : Pillow) (a : Nat) (bs : List Byte) : Pillow :=
  { p with bytes := bs.zipIdx.foldl (fun t bi => tabPut none t ((a + bi.2) % 2 ^ 20) (some bi.1)) p.bytes }

/-- First byte of operand slot n (R135). -/
def slotBase (n : Nat) : Nat := n * 32768

/-- The slots that n bytes from a slot touch carry a scale source (R194). -/
def Pillow.setSource (p : Pillow) (slot n src : Nat) : Pillow :=
  { p with scaleSrc := (List.range ((n + 32767) / 32768)).foldl (fun t i => tabPut 0 t (slot + i) src) p.scaleSrc }

/-- Row i of an operand of nb blocks in a format, from a slot (R193). -/
def Pillow.rowCodes (p : Pillow) (f : Fmt) (slot nb i : Nat) : List Nat :=
  let len := nb * 4 * f.width
  unpackNat f.width (nb * 32) 0 (leVal (p.read (slotBase slot + i * len) len))

/-- Block scales of row i from a scale slot (R193). -/
def Pillow.rowScales (p : Pillow) (f : Fmt) (slot nb i : Nat) : List Nat :=
  if f.twoLevel then (p.read (slotBase slot + i * nb) nb).map BitVec.toNat else []

/-- An FP32 vector entry k at a slot offset. -/
def Pillow.f32 (p : Pillow) (slot off k : Nat) : Word32 :=
  BitVec.ofNat 32 (leVal (p.read (slotBase slot + off + 4 * k) 4))

/-- An FP32 vector entry written. -/
def Pillow.setF32 (p : Pillow) (slot off k : Nat) (v : Word32) : Pillow :=
  p.write (slotBase slot + off + 4 * k) (leBytes 4 v.toNat)

/-- Entry k of a column vector in a format, as FP32 (R229). -/
def Pillow.vec (p : Pillow) (f : Fmt) (slot k : Nat) : Word32 :=
  round32 (decodeElem f (leVal (p.read (slotBase slot + k * f.width / 8) (f.width / 8))))

/-! ### Accumulator slots -/

/-- Element (i, j) of accumulator slot n (R137, R138). -/
def Pillow.zGet (p : Pillow) (n i j : Nat) : Word32 :=
  if p.clear.getLsbD n then 0#32 else tabGet 0#32 p.z (n * 8192 + 128 * i + j)

/-- The clear flag of slot n set: the slot reads +0 and ends its scaled state (R138, R209). -/
def Pillow.zClear (p : Pillow) (n : Nat) : Pillow :=
  { p with
    z := tabDrop (fun k => k / 8192 == n) p.z
    clear := p.clear ||| (1#16 <<< n)
    scaled := p.scaled &&& ~~~(1#16 <<< n) }

/-- Element (i, j) of slot n written; the first write resets the clear flag (R138). -/
def Pillow.zSet (p : Pillow) (n i j : Nat) (v : Word32) : Pillow :=
  { p with
    z := tabPut 0#32 (if p.clear.getLsbD n then tabDrop (fun k => k / 8192 == n) p.z else p.z)
      (n * 8192 + 128 * i + j) v
    clear := p.clear &&& ~~~(1#16 <<< n) }

/-- Slot n marked scaled (R205, R227). -/
def Pillow.markScaled (p : Pillow) (n : Nat) : Pillow := { p with scaled := p.scaled ||| (1#16 <<< n) }

/-- Listed (nonzero) elements of slot n. -/
def Pillow.zSlot (p : Pillow) (n : Nat) : Tab Word32 :=
  if p.clear.getLsbD n then [] else p.z.filter (fun e => e.1 / 8192 == n)

/-- Every element of slot n replaced by f of its place and value; the slot is no longer clear. -/
def Pillow.zMap (p : Pillow) (n : Nat) (f : Nat → Nat → Word32 → Word32) : Pillow :=
  (List.range 64).foldl (fun q i => (List.range 128).foldl (fun q j => q.zSet n i j (f i j (p.zGet n i j))) q) p

/-- ACC hits of a slot on its values before scaling (R247). -/
def Pillow.accHits (p : Pillow) (g : Word) (n : Nat) : Nat :=
  ((p.zSlot n).filter (fun e => accHit g e.2)).length

/-- Slot n scaled by c (R91, R205): the zeros too, where c makes them anything else. -/
def Pillow.scaleBy (p : Pillow) (c : Word32) (n : Nat) : Pillow :=
  let z0 := fmul 0#32 c
  if z0 = 0#32 then
    ({ p with z := (p.zSlot n).foldl (fun t e => tabPut 0#32 t e.1 (fmul e.2 c)) p.z } : Pillow).markScaled n
  else (p.zMap n (fun _ _ v => fmul v c)).markScaled n

/-- The slots of an accumulator set: ZA, ZN and COL (R226). -/
def accSet (za zn : Nat) (col : Bool) : List Nat :=
  (List.range zn).map (fun i => if col then za + 4 * i else za + i)

/-- Tile row of sub-tile row i of slot n (R226). -/
def tileRow (n i : Nat) : Nat := 64 * (n / 4) + i
/-- Tile column of sub-tile column j of slot n (R226). -/
def tileCol (n j : Nat) : Nat := 128 * (n % 4) + j

/-- Value at a tile row and column. -/
def Pillow.tile (p : Pillow) (r c : Nat) : Word32 := p.zGet (4 * (r / 64) + c / 128) (r % 64) (c % 128)

/-- Value at a tile row and column written. -/
def Pillow.setTile (p : Pillow) (r c : Nat) (v : Word32) : Pillow :=
  p.zSet (4 * (r / 64) + c / 128) (r % 64) (c % 128) v

/-- Tile rows that a set covers, ascending (R226). -/
def setRows (set : List Nat) : List Nat :=
  (List.range 256).filter (fun r => set.any (fun n => n / 4 == r / 64))

/-- Tile columns that a set covers, ascending. -/
def setCols (set : List Nat) : List Nat :=
  (List.range 512).filter (fun c => set.any (fun n => n % 4 == c / 128))

/-! ### Fields of the instruction words (R181) -/

/-- Opcode. -/
def opOf (w : Word) : Nat := bitsOf w 63 56

/-- A format field by its widening field code: 0 names bits [55:52], 1 names [51:48] (R286). -/
def fmtField (w : Word) (code : Nat) : Option Fmt :=
  Fmt.ofCode (if code = 0 then bitsOf w 55 52 else bitsOf w 51 48)

end Sys2Proof.Machine
end

