-- ==== Sys2Proof/Machine/Prick.lean ====
section
/-!
DEFINITION. Prickings: the table and its entries (R283 to R286), loop points and origins (R287), the walker's
order (R288 to R291), splits (R295, R296) and stitch descriptors (R308).
-/

namespace Sys2Proof.Machine

/-- A level entry (R285). -/
structure Level where
  bound : Nat
  dist : Nat
  order : Nat
  split : Bool
  canon : Bool
  oreg : Nat
  dreg : Nat
  dyn : Bool
  creg : Nat
deriving DecidableEq, Repr

/-- The binding words of one register (R285), with its strides per level. -/
structure Bind where
  desc : Nat
  row0 : Int
  k0 : Nat
  kstep : Int
  astr : Int
  qstr : Int
  lscale : Nat
  replay : Nat
  strides : List (Int × Int)
deriving DecidableEq, Repr

/-- A pricking as read from its table (R284). -/
structure Pricking where
  hdr : Word
  tmpl : Nat
  guard : Word
  levels : List Level
  marks : List (Nat × Nat)
  binds : List Bind
deriving DecidableEq, Repr

/-- Body repetitions N (R284). -/
def Pricking.n (p : Pricking) : Nat := bitsOf p.hdr 47 32 + 1
/-- Largest walk argument (R284). -/
def Pricking.argmax (p : Pricking) : Nat := bitsOf p.hdr 31 0
/-- Stitches marked border (R284). -/
def Pricking.border (p : Pricking) : Bool := bitOf p.hdr 53

/-- A level entry's fields. -/
def parseLevel (w : Word) : Level :=
  { bound := bitsOf w 63 40 + 1, dist := bitsOf w 39 38, order := bitsOf w 37 36, split := bitOf w 35,
    canon := bitOf w 34, oreg := bitsOf w 33 31, dreg := bitsOf w 30 28, dyn := bitOf w 27,
    creg := bitsOf w 26 24 }

/-- The marks of a widening entry: (template index, field code), empty marks left out (R286). -/
def parseMarks (w : Word) : List (Nat × Nat) :=
  ((List.range 4).map (fun m => bitsOf w (16 * m + 15) (16 * m))).filterMap
    (fun v => if v = 0xFFFF then none else some (v / 4, v % 4))

/-- Entry e of a pricking table: a guarded word (R283, R38). -/
def State.prickEntry (s : State) (ctx va e : Nat) : Except AccErr Word := s.readGuard64 ctx (va + 16 * e)

/-- Binding and strides of register j. -/
def State.readBind (s : State) (ctx va base l r j : Nat) : Except AccErr Bind := do
  let b (i : Nat) := s.prickEntry ctx va (base + 6 * j + i)
  let b0 ← b 0
  let b1 ← b 1
  let b2 ← b 2
  let b3 ← b 3
  let b4 ← b 4
  let b5 ← b 5
  let st ← (List.range l).mapM (fun i => s.prickEntry ctx va (base + 6 * r + l * j + i))
  pure { desc := bitsOf b0 55 0, row0 := signedOf 32 (bitsOf b1 63 32), k0 := bitsOf b1 31 0,
         kstep := signedOf 32 (bitsOf b2 63 32), astr := signedOf 32 (bitsOf b2 31 0),
         qstr := signedOf 32 (bitsOf b3 63 32), lscale := bitsOf b4 55 0, replay := bitsOf b5 55 0,
         strides := st.map (fun w => (signedOf 32 (bitsOf w 63 32), signedOf 32 (bitsOf w 31 0))) }

/-- A pricking read whole, every entry checked (R284, R38). -/
def State.readPricking (s : State) (ctx va : Nat) : Except AccErr Pricking := do
  let h ← s.prickEntry ctx va 0
  let t ← s.prickEntry ctx va 1
  let g ← s.prickEntry ctx va 2
  let l := bitsOf h 59 57 + 1
  let r := bitsOf h 56 54 + 1
  let nw := bitsOf h 51 48
  let lv ← (List.range l).mapM (fun i => s.prickEntry ctx va (3 + i))
  let wd ← (List.range nw).mapM (fun i => s.prickEntry ctx va (3 + l + i))
  let bs ← (List.range r).mapM (fun j => s.readBind ctx va (3 + l + nw) l r j)
  pure { hdr := h, tmpl := bitsOf t 55 0, guard := g, levels := lv.map parseLevel,
         marks := (wd.map parseMarks).flatten, binds := bs }

/-- Split count S of a split level in a partition of P wells (R295). -/
def Level.splits (l : Level) (P : Nat) : Nat := if l.canon then l.bound else l.bound * P

/-- A level's radix: BOUND, or S on the split level (R308). -/
def Level.radix (l : Level) (P : Nat) : Nat := if l.split then l.splits P else l.bound

/-- Loop points of a pricking at full bounds (R308). -/
def Pricking.points (p : Pricking) (P : Nat) : Nat := (p.levels.map (Level.radix · P)).foldl (· * ·) 1

/-- Mixed-radix index of a loop point, level 0 most significant (R308). -/
def pointIndex : List Nat → List Nat → Nat
  | _ :: rs, i :: is => i * rs.foldl (· * ·) 1 + pointIndex rs is
  | _, _ => 0

/-- The loop point of a mixed-radix index (R308). -/
def pointOf : List Nat → Nat → List Nat
  | [], _ => []
  | _ :: rs, v => let m := rs.foldl (· * ·) 1; v / m :: pointOf rs (v % m)

/-- Origins of a register at a loop point prefix: walk argument a, rank q (R287). -/
def Bind.origin (b : Bind) (a q : Int) (point : List Nat) : Int × Int :=
  let z := b.strides.zip point
  (b.row0 + a * b.astr + q * b.qstr + (z.map (fun e => (e.2 : Int) * e.1.1)).sum,
   (b.k0 : Int) + (z.map (fun e => (e.2 : Int) * e.1.2)).sum)

/-- The split level's position and entry. -/
def Pricking.splitLevel (p : Pricking) : Option (Nat × Level) :=
  (p.levels.zipIdx.find? (fun e => e.1.split)).map (fun e => (e.2, e.1))

/-- The run of body repetitions of a stitch: all, or those of its split index (R171, R296). -/
def Pricking.reps (p : Pricking) (P : Nat) (point : List Nat) : Nat × Nat :=
  match p.splitLevel with
  | none => (0, p.n - 1)
  | some (i, l) =>
    let S := l.splits P
    let k := point.getD i 0
    (k * p.n / S, (k + 1) * p.n / S - 1)

/-- A loop point without its split index. -/
def Pricking.dropSplit (p : Pricking) (point : List Nat) : List Nat :=
  match p.splitLevel with
  | none => point
  | some (i, _) => point.eraseIdx i

/-! ### The walker's order -/

/-- The iterations of a level that are a well's own: first, end, step (R289). -/
def Level.own (l : Level) (S q P : Nat) : Nat × Nat × Nat :=
  match l.dist with
  | 1 => (q * S / P, (q + 1) * S / P, 1)
  | 2 => (q, S, P)
  | _ => (0, S, 1)

/-- Does a level run upward below these outer indices (R288)? -/
def Level.up (l : Level) (outer : List Nat) : Bool :=
  match l.order with
  | 1 => false
  | 2 => outer.sum % 2 == 0
  | _ => true

/-- The first own iteration of a level. -/
def Level.first (l : Level) (S q P : Nat) (outer : List Nat) : Option Nat :=
  let (lo, hi, st) := l.own S q P
  if hi ≤ lo then none else some (if l.up outer then lo else lo + (hi - 1 - lo) / st * st)

/-- The own iteration after i. -/
def Level.after (l : Level) (S q P i : Nat) (outer : List Nat) : Option Nat :=
  let (lo, hi, st) := l.own S q P
  if l.up outer then (if i + st < hi then some (i + st) else none)
  else if lo + st ≤ i then some (i - st) else none

/-- The I32 count of a dynamic level, clamped to its bound; 0 outside the extents (R291). -/
def State.dynCount (s : State) (ctx : Nat) (p : Pricking) (l : Level) (a q : Nat) (outer : List Nat) :
    Except AccErr Nat := do
  match p.binds[l.creg]? with
  | none => pure 0
  | some b =>
    let d ← s.readDesc ctx b.desc
    let (r, k) := b.origin a q outer
    let rows ← s.readRegion ctx d r 1 k 1
    let c := signedOf 32 ((rows.headD []).headD 0)
    pure (min c.toNat l.bound)

/-- What the walker's search for the next loop point finds. -/
inductive Visit where
  | point (pos : List (Nat × Nat))
  | done
  | more (pos : List (Nat × Nat)) (back : Bool)
  | fail (e : AccErr)
deriving DecidableEq, Repr

/-- The search: go down into the next level from a prefix, or (back) on from its last index (R288 to R292). -/
def State.visit (s : State) (ctx : Nat) (p : Pricking) (a q P : Nat) : Nat → Bool → List (Nat × Nat) → Visit
  | 0, back, pos => .more pos back
  | fuel + 1, true, pos =>
    match pos.getLast? with
    | none => .done
    | some (S, i) =>
      let outer := pos.dropLast.map Prod.snd
      match p.levels[pos.length - 1]? with
      | none => .done
      | some l =>
        match l.after S q P i outer with
        | none => s.visit ctx p a q P fuel true pos.dropLast
        | some j => s.visit ctx p a q P fuel false (pos.dropLast ++ [(S, j)])
  | fuel + 1, false, pos =>
    match p.levels[pos.length]? with
    | none => .point pos
    | some l =>
      let outer := pos.map Prod.snd
      let cnt := if l.dyn then s.dynCount ctx p l a q outer else .ok (l.radix P)
      match cnt with
      | .error e => .fail e
      | .ok S =>
        match l.first S q P outer with
        | none => s.visit ctx p a q P fuel true pos
        | some i => s.visit ctx p a q P fuel false (pos ++ [(S, i)])

/-! ### Stitch descriptors (R308) -/

/-- WREC of a stitch descriptor. -/
def sdWrec (d : Word) : Nat := bitsOf d 63 58
/-- HOME of a stitch descriptor. -/
def sdHome (d : Word) : Nat := bitsOf d 57 54
/-- BORDER of a stitch descriptor. -/
def sdBorder (d : Word) : Bool := bitOf d 53
/-- POINT of a stitch descriptor. -/
def sdPoint (d : Word) : Nat := bitsOf d 31 0

/-- A stitch descriptor's value. -/
def mkStitch (wrec home : Nat) (border : Bool) (point : Nat) : Word :=
  setBits (setBits (setBits (setBits 0#64 63 58 wrec) 57 54 home) 53 53 border.toNat) 31 0 point

/-- The value half of a deque entry, as the deques judge eligibility by it. -/
def DeqEntry.val (e : DeqEntry) : Word := e.gw.setWidth 64

end Sys2Proof.Machine
end

