-- ==== Sys2Proof/Machine/Stitch.lean ====
section
/-!
DEFINITION. The life of a stitch on a bobbin (R166 to R190): its start, its place in the template, exceptions
and restarts (R159 to R162, R185), fencing (R153, R319) and the loss of a well (R155, R774).
-/

namespace Sys2Proof.Machine

/-! ### Wells lost, bobbins fenced -/

/-- The four well-to-well links of a well (R20, R24), the lower number first: wells lie in three rows of four, closed
into a torus. -/
def wellLinks (w : Nat) : List (Nat × Nat) :=
  let r := w / 4
  let c := w % 4
  [4 * r + (c + 1) % 4, 4 * r + (c + 3) % 4, 4 * ((r + 1) % 3) + c, 4 * ((r + 2) % 3) + c].map
    (fun v => (min w v, max w v))

/-- A link fenced (R24). -/
def State.fenceLink (s : State) (l : Nat × Nat) : State :=
  if s.fabric.contains l then s else { s with fabric := s.fabric ++ [l] }

/-- A well becomes LOST (R774, R775): cause code of WH_WELL_LOST. The jobs that hold a slot on it stop for
rebuilding, and its queued and running stitches are abandoned. -/
def State.loseWell (s : State) (w cause : Nat) : State :=
  let s := (s.setFld rWhWellState (2 * w + 25) (2 * w + 24) 3).setFld rWhWellLost (4 * w + 3) (4 * w) cause
  let s := ((s.alert 10).report w 0x7 2 w 145 145 cause).setFld rPmState (3 * w + 2) (3 * w) 7
  let s := { s with
    jobs := s.jobs.map (fun j =>
      if j.wells.contains w && !decide (j.phase = .committed) then { j with rebuild := true } else j)
    bobs := tabMap {} (fun k b =>
      if k / 136 = w then { b with run := none, leaving := [], storeQ := [] } else b) s.bobs
    deques := tabDrop (fun k => k / 128 == w) s.deques }
  (wellLinks w).foldl State.fenceLink s

/-- Bobbins IN_USE of a well: all, or its border bobbins. The manual does not say what a usable bobbin is; a spare counts
once it is mapped (log entry 101). -/
def State.usable (s : State) (w : Nat) (border : Bool) : Nat :=
  ((List.range (if border then 17 else 136)).filter (fun p => s.bobState w p == 0)).length

/-- R155: a well without a usable border bobbin, or with fewer than 64 usable bobbins, is lost. -/
def State.judgeWell (s : State) (w : Nat) : State :=
  if s.inService w && decide (s.usable w true = 0 ∨ s.usable w false < 64) then s.loseWell w 2 else s

/-- May a stitch with this BORDER mark lie on logical l of well w (R314)? -/
def State.eligibleDeque (s : State) (w : Nat) (border : Bool) (l : Nat) : Bool :=
  s.physOf w l != 0xFF && (!border || decide (l < 16))

/-- The eligible, non-vacant deque holding the fewest entries, lowest number on a tie (R319). -/
def State.shortestDeque (s : State) (w : Nat) (border : Bool) : Option Nat :=
  ((List.range 128).filter (s.eligibleDeque w border)).foldl
    (fun best l => match best with
      | none => some l
      | some b => if (s.deque w l).length < (s.deque w b).length then some l else some b) none

/-- A stitch put back at the head of the shortest eligible deque, even a full one (R319). -/
def State.requeue (s : State) (w : Nat) (e : DeqEntry) : State :=
  match s.shortestDeque w (sdBorder e.val) with
  | some l => s.setDeque w l (e :: s.deque w l)
  | none => s

/-- Is the template of a run marked not restartable (R187)? -/
def State.notRestartable (s : State) (r : Run) : Bool :=
  match s.job r.b.job with
  | some j => j.noRestart.contains r.b.tmpl
  | none => false

/-- The entry a run goes back to a deque as: it keeps the requests issued so far, without an SCT that is not accepted yet
(R160, R215). -/
def Run.back (r : Run) : DeqEntry :=
  { r.b.entry with
    issued := max r.b.entry.issued (r.reqNo - (if r.qStall.any Prod.snd then 1 else 0)), reqs := r.reqs, begun := true }

/-- Unit u of well w. -/
def State.unit (s : State) (w u : Nat) : CuUnit := tabGet {} s.units (w * 64 + u)
/-- That unit replaced. -/
def State.setUnit (s : State) (w u : Nat) (x : CuUnit) : State := { s with units := tabPut {} s.units (w * 64 + u) x }

/-- Pump n of well w. -/
def State.pump (s : State) (w n : Nat) : Pump := tabGet {} s.pumps (w * 8 + n)
/-- That pump replaced. -/
def State.setPump (s : State) (w n : Nat) (p : Pump) : State := { s with pumps := tabPut {} s.pumps (w * 8 + n) p }

/-- An item of request id. -/
def CuItem.ofReq (id : Nat) : CuItem → Bool
  | .bob r _ => r == id
  | _ => false

/-- Every row of a request has been entered in a queue (R415). -/
def State.allEntered (s : State) (id : Nat) : Bool :=
  s.reqs.all (fun q => q.1 != id || decide (q.2.rows.length ≤ q.2.entered))

/-- The rows entered so far, as a request that is not accepted in full. -/
def Req.shrink (q : Req) : Req :=
  { q with left := q.left - (q.rows.length - q.entered), rows := q.rows.take q.entered }

/-- A request not accepted yet is withdrawn with its stitch: the rows not entered are dropped (R215, R160). -/
def State.withdrawReq (s : State) (r : Run) : State :=
  match r.qStall with
  | none => s
  | some (id, _) =>
    let reqs := s.reqs.map (fun q => if q.1 = id then (q.1, q.2.shrink) else q)
    { s with reqs := reqs.filter (fun q => q.1 != id || q.2.left != 0) }

/-- A stitch that leaves a bobbin before its end restarts on another bobbin, or, marked not restartable, ends and
its partition rolls back (R153, R185). -/
def State.moveRun (s : State) (w : Nat) (r : Run) : State :=
  let s := s.withdrawReq r
  if s.notRestartable r then s.modJob r.b.job (fun j => { j with rollback := true })
  else s.requeue w r.back

/-- Are every entry and request of a leaving stitch visible (R147, R215)? -/
def State.allVisible (s : State) (b : Bobbin) (l : Leaving) : Bool :=
  !(b.storeQ.any (fun e => e.id ≤ l.lastStore)) && !(l.reqs.any (fun i => s.reqs.any (fun q => q.1 == i)))

/-- A stitch past END whose last entries are discarded with the store queue restarts on another bobbin, or rolls back
(R153, R185). -/
def State.moveLeft (s : State) (w : Nat) (x : Leaving) : State :=
  if (s.job x.job).any (fun j => j.noRestart.contains x.tmpl) then
    s.modJob x.job (fun j => { j with rollback := true })
  else s.requeue w x.entry

/-- A bobbin is fenced (R153): its number becomes vacant, its store queue is discarded and its stitch restarts
on another bobbin of the well, as does one whose last entries the queue still held. -/
def State.fenceBobbin (s : State) (w p : Nat) : State :=
  let b := s.bob w p
  let l := s.logOf w p
  let lost := b.leaving.filter (fun x => b.storeQ.any (fun e => e.id ≤ x.lastStore))
  let kept := b.leaving.filter (fun x => !(b.storeQ.any (fun e => e.id ≤ x.lastStore)))
  let s := s.setBobState w p 2
  let s := if l = 0xFF then s else s.setPhys w l 0xFF
  let b' : Bobbin := { b with run := none, storeQ := [], leaving := kept, admitted := false, passedTest := false, listed := true }
  let s := s.setBob w p b'
  let s := lost.foldl (fun t x => t.moveLeft w x) s
  let s := match b.run with
    | some r => s.moveRun w r
    | none => s
  (s.report w 0x6 2 w p p 0).judgeWell w

/-! ### Runs -/

/-- A run back at its first instruction, rung and attempt (R119, R160, R138, R139); without prologue and body it begins with
the epilogue, in the last repetition (R171). -/
def Run.fresh (r : Run) (seed rung attempt : Nat) : Run :=
  { r with pil := { seed := seed }, rung := rung, attempt := attempt, idx := 0,
           rep := if bitsOf r.b.hdr 63 40 = 0 then r.b.i1 else r.b.i0, counts := {},
           accPend := 0, reqNo := 0, waits := none, qStall := none, toStore := [], outs := [] }

/-- The rung at which a stitch of a job starts: that of the layer in progress, no higher than its last (R116, R122). -/
def State.startRung (s : State) (b : Binding) : Nat := min (((s.job b.job).map Job.layerRung).getD 0) b.dlast

/-- Free pillow bytes for one attempt. -/
def State.pillowSeed (s : State) : Nat × State := (s.fresh, { s with fresh := s.fresh + 2 ^ 20 })

/-- Record a bobbin exception (R162). -/
def State.latchBob (s : State) (w p cause instr status : Nat) : State :=
  s.latch (rWlBobExc w) (setBits (setBits (setBits (setBits (setBits 0#64 51 48 cause) 47 40 p) 39 32 (s.logOf w p))
    31 16 instr) 15 8 status)

/-- Report class of a cause code (R758). -/
def bobClass (cause : Nat) : Nat :=
  match cause with
  | 3 => 0x2
  | 4 => 0x5
  | 6 => 0x6
  | _ => 0x4

/-- What a fault record says of a stitch: chunk index, rung and guarded descriptor (R189). -/
abbrev StitchAt := Nat × Nat × BitVec 128

/-- Where a run is (R189). -/
def Run.place (r : Run) : StitchAt := (r.rep, r.rung, r.b.entry.gw)

/-- The fault record of a T-class exception (R189); its descriptor names the home well beside the well and bobbin where the
stitch ran (R323). -/
def State.faultRec (s : State) (w p cause instr : Nat) (st : Option StitchAt) : State :=
  { s with faultRecs := { well := w, phys := p, cause := cause, instr := instr, stitch := st } :: s.faultRecs }

/-- Record and report an exception of a stitch of a bobbin (R162, R189, R323, R758). -/
def State.noteBob (s : State) (w p cause instr status detail : Nat) (st : Option StitchAt) : State :=
  ((s.faultRec w p cause instr st).latchBob w p cause instr status).reportSelf w (bobClass cause)
    (if status = 0 then 0 else 1) p detail

/-- The stitch ends under the terminate class: older store entries complete, the job ends (R159, R185). -/
def State.terminateStitch (s : State) (w p cause status addr : Nat) : State :=
  let b := s.bob w p
  match b.run with
  | none => s
  | some r =>
    let s := s.noteBob w p cause r.idx status addr (some r.place)
    let s := (s.withdrawReq r).setBob w p { b with run := none }
    s.failJob r.b.job status addr

/-- A restart on the same bobbin from the first instruction at the starting rung (R160). -/
def State.restartHere (s : State) (w p : Nat) (exc : Nat) : State :=
  let b := s.bob w p
  match b.run with
  | none => s
  | some r =>
    let s := s.withdrawReq r
    let (seed, s) := s.pillowSeed
    let r' := ({ r with b := { r.b with entry := r.back } }).fresh seed (s.startRung r.b) 0
    s.setBob w p { b with run := some { r' with pillowExc := exc } }

/-- A restart-class event in a stitch marked not restartable: it ends and the partition rolls back (R185). -/
def State.rollbackStitch (s : State) (w p : Nat) (r : Run) : State :=
  ((s.withdrawReq r).setBob w p { s.bob w p with run := none }).modJob r.b.job (fun j => { j with rollback := true })

/-- A pillow exception (R140, R161): the first in a stitch restarts it here, the second fences the bobbin. -/
def State.pillowException (s : State) (w p : Nat) : State :=
  let s := s.incFld (rWlBobEcc w) 31 16 1
  match (s.bob w p).run with
  | none => s
  | some r =>
    let s := s.noteBob w p 3 r.idx 0 p (some r.place)
    if s.notRestartable r then
      let s := s.rollbackStitch w p r
      if 1 ≤ r.pillowExc then s.fenceBobbin w p else s
    else if 1 ≤ r.pillowExc then s.fenceBobbin w p
    else s.restartHere w p (r.pillowExc + 1)

/-- An access error met by the stitch on bobbin p of well w (R161, R178, R222): CAUSE 0x1, or 0x2 for a guarded
word; a wait only stalls (R185, R438). -/
def State.bobError (s : State) (w p : Nat) (e : AccErr) : Res :=
  match e with
  | .stall r => s.stalls r
  | .guard va => .next ((s.noteGuard w p va).terminateStitch w p 2 0x22 va)
  | .tier va l wr =>
    .next ((s.noteTier .bobbin w p l wr).terminateStitch w p 1 0x30 va)
  | .trans _ _ va _ =>
    .next ((s.noteTrans (viaQ w ((s.bob w p).run.elim 12 (fun r => s.ctxOf r.b.job))) w e).terminateStitch w p 1
      e.status va)

/-! ### Start (R167 to R173) -/

/-- Template words: header at the start, instruction i after it (R170). -/
def tmplAddr (t i : Nat) : Nat := t + 8 * (i + 1)

/-- Prologue length (R170). -/
def hdrPro (h : Word) : Nat := bitsOf h 63 52
/-- Body length. -/
def hdrBody (h : Word) : Nat := bitsOf h 51 40
/-- Epilogue length. -/
def hdrEpi (h : Word) : Nat := bitsOf h 39 28
/-- ALT of the header. -/
def hdrAlt (h : Word) : Nat := bitsOf h 27 23
/-- Descriptor registers used (R170). -/
def hdrNtd (h : Word) : Nat := bitsOf h 21 19 + 1

/-- d_last of R116: the smallest room over the marked fields, capped at MAX_STEPS, 0 with no mark. -/
def State.dLast (s : State) (ctx : Nat) (p : Pricking) : Except AccErr Nat := do
  let rooms ← p.marks.mapM (fun m => do
    let w ← s.readWord ctx (tmplAddr p.tmpl m.1)
    pure (((fmtField w m.2).map Fmt.room).getD 0))
  match rooms with
  | [] => pure 0
  | r :: rs => pure (min (rs.foldl min r) (guardMax p.guard))

/-- One descriptor register bound at a loop point (R287, R195, R117). -/
def State.bindReg (s : State) (ctx : Nat) (b : Bind) (a q : Nat) (point : List Nat) : Except AccErr TReg := do
  let d ← s.readDesc ctx b.desc
  let rp ← if b.replay = 0 then pure none else (s.readDesc ctx b.replay).map some
  let (r, k) := b.origin a q point
  pure { desc := d, row := r, k0 := k, kstep := b.kstep, lscale := b.lscale, replay := rp }

/-- The binding of a stitch on well w from its descriptor, walk record and pricking (R312, R287, R171). -/
def State.bindStitch (s : State) (w job : Nat) (e : DeqEntry) (d : Word) : Except AccErr Binding := do
  let ctx := viaQ w (s.ctxOf job)
  let P := ((s.job job).map (fun j => j.wells.length)).getD 1
  let home := sdHome d
  let slot := s.slotOf job home
  let rec_ := s.wrec home slot (sdWrec d)
  let pk ← s.readPricking ctx rec_.prick
  let point := pointOf (pk.levels.map (Level.radix · P)) (sdPoint d)
  let h ← s.readWord ctx pk.tmpl
  let regs ← (pk.binds.take (hdrNtd h)).mapM (fun b => s.bindReg ctx b rec_.arg rec_.rank point)
  let dl ← s.dLast ctx pk
  let (i0, i1) := pk.reps P point
  pure { entry := e, job := job, well := w, home := home, slot := slot, wrec := sdWrec d, prick := rec_.prick,
         tmpl := pk.tmpl, hdr := h, guard := pk.guard, regs := regs, marks := pk.marks, point := point,
         i0 := i0, i1 := i1, dlast := dl }

/-- Where the binding of a stitch fails, for its fault record (R189): the template index, 0xFFFF but for a marked word that
cannot be fetched, and the first repetition, 0 where its pricking cannot be read. -/
def State.bindPlace (s : State) (w job : Nat) (d : Word) : Nat × Nat :=
  let ctx := viaQ w (s.ctxOf job)
  let P := ((s.job job).map (fun j => j.wells.length)).getD 1
  let rec_ := s.wrec (sdHome d) (s.slotOf job (sdHome d)) (sdWrec d)
  match s.readPricking ctx rec_.prick with
  | .error _ => (0xFFFF, 0)
  | .ok pk =>
    let rep := (pk.reps P (pointOf (pk.levels.map (Level.radix · P)) (sdPoint d))).1
    match (s.readWord ctx pk.tmpl).bind (fun h =>
      (pk.binds.take (hdrNtd h)).mapM (fun b => s.bindReg ctx b rec_.arg rec_.rank [])) with
    | .error _ => (0xFFFF, rep)
    | .ok _ =>
      let bad := pk.marks.find? (fun m => match s.readWord ctx (tmplAddr pk.tmpl m.1) with
        | .error _ => true
        | .ok _ => false)
      ((bad.map Prod.fst).getD 0xFFFF, rep)

/-- A bobbin takes a stitch: the descriptor is checked and the stitch bound and begun (R168, R308); a walk record that cannot
be read ends the job (R399). `orig` is the state before the entry was taken, to which a wait leaves it. A deque entry has no
address in the manual: a mismatch is reported with the location 0 (log entry 102). -/
def State.startStitch (orig s : State) (w p : Nat) (e : DeqEntry) : Res :=
  match (s.well w).job with
  | none => .fault (.notEnabled 315)
  | some job =>
    let stub : Run := { b := { entry := e, job := job, well := w } }
    let s0 := s.setBob w p { s.bob w p with run := some stub, probes := 0, swept := false }
    match unguard64 e.gw with
    | none => .next ((s0.noteGuard w p 0).terminateStitch w p 2 0x22 0)
    | some d =>
      let at_ := wrecAt (s.slotOf job (sdHome d)) (sdWrec d)
      s.scratch job (sdHome d) at_ (match s0.bindStitch w job e d with
      | .error (.stall rule) => orig.stalls rule
      | .error err =>
        let x := s0.bindPlace w job d
        let rung := ((s.job job).map Job.layerRung).getD 0
        let s1 := s0.setBob w p { s0.bob w p with run := some { stub with idx := x.1, rep := x.2, rung := rung } }
        s1.bobError w p err
      | .ok b =>
        let (seed, s1) := s0.pillowSeed
        let r : Run := ({ b := b, reqs := e.reqs } : Run).fresh seed (s.startRung b) 0
        .next ((s1.setBob w p { s1.bob w p with run := some r }).countEv w 0x03 1))

/-! ### Sequencing (R169 to R172) -/

/-- The place after instruction idx: on through the template, the body once per repetition (R171). -/
def Run.advance (r : Run) : Run :=
  let pb := hdrPro r.b.hdr + hdrBody r.b.hdr
  if r.idx + 1 = pb ∧ 0 < hdrBody r.b.hdr ∧ r.rep < r.b.i1 then
    { r with idx := hdrPro r.b.hdr, rep := r.rep + 1 }
  else if pb ≤ r.idx + 1 then { r with idx := r.idx + 1, rep := r.b.i1 }
  else { r with idx := r.idx + 1 }

/-- A slot field under ALT (R172). -/
def Run.slot (r : Run) (alt : Bool) (n : Nat) : Nat :=
  if alt && r.rep % 2 == 1 then n + hdrAlt r.b.hdr else n

/-- A format field of the current instruction, widened where the pricking marks it (R182). -/
def Run.fmt (r : Run) (word : Word) (code : Nat) : Fmt :=
  let f := (fmtField word code).getD .fp32
  if r.b.marks.contains (r.idx, code) then f.up r.rung else f

/-- A descriptor register. -/
def Run.reg (r : Run) (td : Nat) : TReg := r.b.regs.getD td {}

/-- The current K origin of a register (R171). -/
def TReg.kNow (t : TReg) (rep : Nat) : Int := t.k0 + (rep : Int) * t.kstep

/-- What kind of T-class instruction a word is; none for a reserved encoding (R179, R180, R229). -/
inductive TKind where
  | ldt | stt | mma | zclr | cvt | qnt
  | gate | addv | pst | bas | conv | recon
  | sfn (g : SpFn) | red (v : Nat) | smx (v : Nat) | bias | guard
  | gat | sct | sig | waits | end_
deriving DecidableEq, Repr

/-- A valid element format code. -/
def okFmt (c : Nat) : Bool := (Fmt.ofCode c).isSome

/-- The kind of a T-class word (R179, R181, R229). -/
def tKind (w : Word) : Option TKind :=
  let vr := bitsOf w 51 48
  match opOf w with
  | 0x01 => if okFmt (bitsOf w 55 52) && !bitOf w 41 then some .ldt else none
  | 0x02 => if okFmt (bitsOf w 55 52) && !bitOf w 41 && !bitOf w 48 && !bitOf w 42 then some .stt else none
  | 0x08 => if okFmt (bitsOf w 55 52) && okFmt vr && bitsOf w 26 24 == 0 then some .mma else none
  | 0x09 => if bitsOf w 55 16 == 0 then some .zclr else none
  | 0x0A => if okFmt (bitsOf w 55 52) && okFmt vr && bitsOf w 23 16 == 0 then some .cvt else none
  | 0x0B =>
    if okFmt (bitsOf w 55 52) && !bitOf w 48 && bitsOf w 25 0 == 0 && decide (bitsOf w 28 27 < 2) then some .qnt
    else none
  | 0x10 =>
    match vr with
    | 0x0 => some .gate
    | 0x1 => some .addv
    | 0x4 => some .pst
    | 0x8 => some .bas
    | 0x9 => some .conv
    | 0xA => some .recon
    | _ => none
  | 0x11 =>
    match vr with
    | 0x0 => some (.sfn .exp)
    | 0x1 => some (.sfn .log)
    | 0x2 => some (.sfn .rcp)
    | 0x3 => some (.sfn .rsqrt)
    | _ => none
  | 0x12 => if vr < 3 then some (.red vr) else none
  | 0x13 => if vr < 3 then some (.smx vr) else none
  | 0x14 => if vr = 0 then some .bias else none
  | 0x18 => if okFmt (bitsOf w 55 52) && bitsOf w 38 32 == 0 then some .gat else none
  | 0x19 => if okFmt (bitsOf w 55 52) && bitsOf w 38 32 == 0 then some .sct else none
  | 0x20 => if bitsOf w 55 48 == 0 then some .sig else none
  | 0x21 => if bitsOf w 55 48 == 0 then some .waits else none
  | 0x28 => if vr = 0 then some .guard else none
  | 0x3F => if bitsOf w 55 0 == 0 then some .end_ else none
  | _ => none

/-- The format code in a field. -/
def fmtBits (w : Word) (code : Nat) : Nat := if code = 0 then bitsOf w 55 52 else bitsOf w 51 48

/-- Format of a field of a word. -/
def wFmt (w : Word) (code : Nat) : Fmt := (Fmt.ofCode (fmtBits w code)).getD .fp32

/-- Fields that a vector variant uses: its set, PS1, PS2, PD, TD, and its IMM bits (R229). -/
structure VecUse where
  set : Bool := true
  ps1 : Bool := false
  ps2 : Bool := false
  pd : Bool := false
  td : Bool := false
  imm : Nat
deriving DecidableEq, Repr

/-- The used fields of a variant; none for an instruction that is not a vector instruction. -/
def vecUse (k : TKind) (w : Word) : Option VecUse :=
  match k with
  | .gate => some { imm := 0x1000FF }
  | .addv => some { ps1 := true, imm := 0x100000 }
  | .pst => some { set := false, ps1 := true, td := true, imm := 0x1FFFF8 }
  | .bas | .conv => some { ps1 := true, ps2 := bitOf w 3, imm := 0x10000F }
  | .recon => some { ps1 := true, imm := 0x10000F }
  | .sfn _ => some { imm := 0x100001 }
  | .red _ => some { pd := true, imm := 0x100003 }
  | .smx 0 => some { set := false, pd := true, imm := 0 }
  | .smx 1 => some { pd := true, imm := 0x100000 }
  | .smx _ => some { pd := true, imm := 0x10000F }
  | .bias => some { ps1 := true, ps2 := true, imm := 0x1000FF }
  | .guard => some { set := false, imm := 0 }
  | _ => none

/-- A field that the variant does not use is not 0 (R229). -/
def vecUnused (k : TKind) (u : VecUse) (w : Word) : Bool :=
  let imm := bitsOf w 20 0
  (!u.set && decide (k ≠ .guard) && bitsOf w 47 44 != 0) || (!u.set && bitsOf w 43 40 != 0)
  || (!u.ps1 && bitsOf w 39 35 != 0) || (!u.ps2 && bitsOf w 34 30 != 0) || (!u.pd && bitsOf w 29 25 != 0)
  || (!u.td && bitsOf w 23 21 != 0) || (bitOf w 24 && !(u.ps1 || u.ps2 || u.pd)) || (imm &&& u.imm) != imm

/-- FMT lies outside the variant's column (R229, R339). -/
def vecFmtBad (k : TKind) (f : Fmt) (compat : Bool) : Bool :=
  match k with
  | .addv | .bas | .conv | .recon => decide (f ≠ .bf16 ∧ f ≠ .fp16 ∧ f ≠ .fp32)
  | .pst => f.twoLevel
  | .sfn _ => decide (f = .i4 ∨ f = .i8 ∨ f = .i32) || (compat && decide (f ≠ .bf16 ∧ f ≠ .fp32))
  | .bias => decide (f ≠ .bf16)
  | _ => decide (f ≠ .fp32)

/-- A reserved code in a vector word: an activation, or a sample width of RECON (R229, R236). -/
def vecCodeBad (k : TKind) (w : Word) : Bool :=
  let act := bitsOf w 2 0
  match k with
  | .gate => decide (act = 0 ∨ 3 < act)
  | .bas | .conv => decide (4 < act)
  | .recon => decide (bitsOf w 3 0 ≠ 8 ∧ bitsOf w 3 0 ≠ 10)
  | _ => false

/-- A word of this kind is a reserved encoding: a reserved code in a field, a format that the instruction does not take, or a
field that must be 0 and is not (R180, R190, R206, R211, R214, R216, R219, R229). -/
def tReserved (k : TKind) (w : Word) : Bool :=
  let f := wFmt w 0
  let g := wFmt w 1
  let plainScale (f : Fmt) (sc : Nat) : Bool := !f.twoLevel && sc != 0
  match k with
  | .mma => decide (f = .fp32 ∨ f = .i32 ∨ g = .fp32 ∨ g = .i32) || plainScale f (bitsOf w 42 38)
      || plainScale g (bitsOf w 32 28)
  | .cvt => plainScale f (bitsOf w 42 38) || plainScale g (bitsOf w 32 28) || plainScale g (bitsOf w 26 24)
  | .qnt => plainScale f (bitsOf w 34 30) || (!f.twoLevel && bitsOf w 28 27 != 1)
  | .gat => bitsOf w 12 0 != 0 || bitOf w 43
  | .sct => bitsOf w 3 0 != 0 || (bitOf w 43 && bitOf w 48) || (!bitOf w 43 && f.twoLevel)
  | k =>
    match vecUse k w with
    | some u => !okFmt (bitsOf w 55 52) || vecUnused k u w || vecFmtBad k f (bitOf w 0) || vecCodeBad k w
    | none => false

/-- The kind of a T-class word that a bobbin decodes; none for a reserved encoding (R190). -/
def tDecode (w : Word) : Option TKind := (tKind w).bind (fun k => if tReserved k w then none else some k)

/-- A border-only variant (R148, R229). -/
def TKind.borderOnly : TKind → Bool
  | .bas | .conv | .recon => true
  | _ => false

/-- Context of a run. -/
def State.runCtx (s : State) (r : Run) : Nat := viaQ r.b.well (s.ctxOf r.b.job)

/-- One T-class step: the bobbin's next instruction is fetched through its template (R173) and must be of the
commanded kind; a reserved encoding met instead, or a border-only variant on a regular bobbin, is CAUSE 0x5. The bobbin
stalls in a WAITS (R251), while rows or store entries of its last instruction wait for a queue (R415, R144), and while a
translation miss is outstanding (R441). -/
def tStep (kind : TKind) (w : WellId) (p : PhysId) (s : State) (k : Run → Word → Res) : Res :=
  match (s.bob w p).run with
  | none => .fault (.notEnabled 169)
  | some r =>
    if r.waits.isSome then s.stalls 251
    else if r.qStall.isSome then s.stalls 415
    else if !r.toStore.isEmpty then s.stalls 144
    else if s.missing w p then s.stalls 441
    else
      match s.readWord (s.runCtx r) (tmplAddr r.b.tmpl r.idx) with
      | .error e => s.bobError w p e
      | .ok word =>
        match tDecode word with
        | none => .next (s.terminateStitch w p 5 0x7F word.toNat)
        | some kd =>
          if kd = kind then
            if kd.borderOnly && !isBorder p then .next (s.terminateStitch w p 5 0x7F word.toNat)
            else k r word
          else .fault (.notEnabled 169)

/-- The run after its instruction, put back on its bobbin. -/
def State.putRun (s : State) (w p : Nat) (r : Run) : State := s.setBob w p { s.bob w p with run := some r }

/-- Finish an instruction: its word was fetched through the well's cache (R173), and the run goes on to its next place. -/
def State.doneRun (s : State) (w p : Nat) (r : Run) : State :=
  (s.readVia w (s.runCtx r) (tmplAddr r.b.tmpl r.idx) 8).putRun w p r.advance

end Sys2Proof.Machine
end

