-- ==== Sys2Proof/Machine/Tile.lean ====
section
/-!
DEFINITION. The tile instructions of movement and products (R191 to R223): LDT, STT, MMA, ZCLR, CVT, QNT, the
draining of the store queue, and the shared steps of all T-class data instructions.
-/

namespace Sys2Proof.Machine

/-! ### The shared step -/

/-- Increments of the guard counts as counted events (R770: sources 0x14 to 0x18). -/
def State.countGuard (s : State) (w : Nat) (a b : Counts) : State :=
  ((((s.countEv w 0x14 (b.clamp - a.clamp)).countEv w 0x15 (b.edge - a.edge)).countEv w 0x16 (b.acc - a.acc)).countEv
    w 0x17 (b.score - a.score)).countEv w 0x18 (b.out - a.out)

/-- A corrected pillow error (R140). -/
def State.corrected (s : State) (w : Nat) : State := (s.incFld (rWlBobEcc w) 63 32 1).countEv w 0x1C 1

/-- What a T-class instruction computes: the run and the state after it, or the access error that stops it. -/
abbrev TOut := Except AccErr (Run × State)

/-- The end of a T-class data instruction whose work gave `o`: an access error governs a pillow exception that
strikes with it (R165), an uncorrectable pillow word is an exception, a corrected one is counted whatever the end (R140);
a stall leaves the bobbin as it was. -/
def tFinish (ev : EccEv) (w p : Nat) (s : State) (r : Run) (o : TOut) : Res :=
  match o, ev with
  | .error (.stall rule), _ => s.stalls rule
  | .error e, .uncorrectable => (s.incFld (rWlBobEcc w) 31 16 1).bobError w p e
  | .error e, .corrected => (s.corrected w).bobError w p e
  | .error e, _ => s.bobError w p e
  | .ok _, .uncorrectable => .next (s.pillowException w p)
  | .ok (r', t), .corrected => .next (((t.corrected w).countGuard w r.counts r'.counts).doneRun w p r')
  | .ok (r', t), _ => .next ((t.countGuard w r.counts r'.counts).doneRun w p r')

/-- The state after an error of a cistern block that the step reads, if one is found (R397, R399). -/
def State.metBlock (s : State) : EccEv → State
  | .block v n bad => s.meetBlock v n bad
  | _ => s

/-- A T-class data instruction: fetched and checked (tStep), its work done, its end judged. -/
def tWork (kind : TKind) (w : WellId) (p : PhysId) (ev : EccEv) (s : State)
    (f : State → Run → Word → TOut) : Res :=
  tStep kind w p s (fun r word => tFinish ev w p (s.metBlock ev) r (f (s.metBlock ev) r word))

/-! ### Scales -/

/-- The value of a scale source (R178, R194): 1.0 for source 0; a guarded word is read once per attempt. -/
def State.scaleVal (s : State) (r : Run) (addr : Nat) : Except AccErr (Word32 × Run) :=
  if addr = 0 then .ok (f32One, r)
  else
    match tabGet none r.pil.scales addr with
    | some v => .ok (v, r)
    | none =>
      match s.readGuard32 (s.runCtx r) addr with
      | .error e => .error e
      | .ok v => .ok (v, { r with pil := { r.pil with scales := tabPut none r.pil.scales addr (some v) } })

/-- The scale source of an LDT with this pillow format on a register (R195). -/
def TReg.source (t : TReg) (f : Fmt) : Nat :=
  if f.twoLevel then (if t.desc.fmt.twoLevel then t.desc.tsaddr else t.lscale) else 0

/-- Number of instructions of a run's template. -/
def Run.len (r : Run) : Nat := hdrPro r.b.hdr + hdrBody r.b.hdr + hdrEpi r.b.hdr

/-- A run placed at instruction i, for a reading of the template ahead of its running. -/
def Run.atIdx (r : Run) (i : Nat) : Run := { r with idx := i }

/-- The scale sources the template's words leave on the slots up to the first MMA, and that MMA's two sources, as
the job loader finds them (R196); none when there is no MMA. -/
def State.templateScan (s : State) (r : Run) : Nat → Nat → Tab Nat → Except AccErr (Option (Nat × Nat))
  | 0, _, _ => .ok none
  | fuel + 1, i, src =>
    match s.readWord (s.runCtx r) (tmplAddr r.b.tmpl i) with
    | .error e => .error e
    | .ok word =>
      let set (n bytes v : Nat) : Tab Nat :=
        (List.range ((bytes + 32767) / 32768)).foldl (fun t k => tabPut 0 t (n + k) v) src
      let q := r.atIdx i
      match tKind word with
      | some .mma => .ok (some (tabGet 0 src (bitsOf word 47 43), tabGet 0 src (bitsOf word 37 33)))
      | some .ldt =>
        let f := q.fmt word 0
        let n := (bitsOf word 40 32 + 1) * (bitsOf word 31 23 + 1) * 4 * f.width
        s.templateScan r fuel (i + 1)
          (if bitOf word 42 then src else set (bitsOf word 48 44) n ((r.reg (bitsOf word 51 49)).source f))
      | some .cvt =>
        let f := q.fmt word 1
        s.templateScan r fuel (i + 1)
          (set (bitsOf word 37 33) ((bitsOf word 15 0 + 1) * 4 * f.width)
            (if f.twoLevel then (r.reg (bitsOf word 26 24)).desc.tsaddr else 0))
      | some .qnt =>
        let f := q.fmt word 0
        s.templateScan r fuel (i + 1)
          (set (bitsOf word 39 35) ((bitsOf word 43 40 + 1) * 1024 * f.width)
            (if bitsOf word 28 27 = 0 ∧ f.twoLevel then (r.reg (bitsOf word 51 49)).desc.tsaddr else 0))
      | _ => s.templateScan r fuel (i + 1) src

/-- c of R91 from two scale sources. -/
def State.cFrom (s : State) (r : Run) (sa sb : Nat) : Except AccErr (Word32 × Run) := do
  let (ta, r) ← s.scaleVal r sa
  let (tb, r) ← s.scaleVal r sb
  let c := fmul ta tb
  pure (c, { r with pil := { r.pil with c := some c } })

/-- c of R91 at a first read of an accumulator (R196): computed already, or from the template's first MMA, or 1.0. -/
def State.cOf (s : State) (r : Run) : Except AccErr (Word32 × Run) :=
  match r.pil.c with
  | some c => .ok (c, r)
  | none =>
    match s.templateScan r r.len 0 [] with
    | .error e => .error e
    | .ok none => .ok (f32One, { r with pil := { r.pil with c := some f32One } })
    | .ok (some (sa, sb)) => s.cFrom r sa sb

/-- Scaling of one slot at its first read since its clear flag was set, with the ACC test on the values before it
(R205, R247). -/
def State.scaleSlot (s : State) (r : Run) (n : Nat) : Except AccErr Run :=
  if r.pil.scaled.getLsbD n then .ok r
  else
    match s.cOf r with
    | .error e => .error e
    | .ok (c, r) => .ok { r with accPend := r.accPend + r.pil.accHits r.b.guard n, pil := r.pil.scaleBy c n }

/-- Scaling of every slot that an instruction reads. -/
def State.scaleSlots (s : State) (r : Run) (ns : List Nat) : Except AccErr Run := ns.foldlM s.scaleSlot r

/-! ### Conversions of whole rows -/

/-- Rows converted to a format under tensor scale t (R95 to R101, R802). -/
def convRows (f : Fmt) (t : Word32) (rows : List (List Num)) (fresh : Nat) : List Conv :=
  rows.zipIdx.map (fun vi => convRow f t vi.1 (fresh + vi.2 * openRowUse vi.1.length))

/-- Rows converted, with the free values they draw (R802). -/
def State.convert (s : State) (f : Fmt) (t : Word32) (rows : List (List Num)) : List Conv × State :=
  let cs := convRows f t rows s.fresh
  let use := if convOpen f t then (rows.map (fun r => openRowUse r.length)).sum else 0
  (cs, { s with fresh := s.fresh + use })

/-- Clamps of converted rows. -/
def clampsOf (cs : List Conv) : Nat := (cs.map Conv.clamps).sum
/-- Edge codes of converted rows. -/
def edgesOf (cs : List Conv) : Nat := (cs.map Conv.edges).sum

/-! ### Regions and overlaps -/

/-- Bytes of the elements of a region, as (address, length) runs. -/
def TDesc.elemSpans (d : TDesc) (r0 : Int) (nr : Nat) (k0 : Int) (nk : Nat) : List (Nat × Nat) :=
  let (_, klo, kn) := clipRange k0 nk d.kext
  let (_, rlo, rn) := clipRange r0 nr d.rows
  if kn = 0 ∨ rn = 0 then []
  else if d.red then
    (List.range kn).map (fun j => let (a, n) := elemSpan d.fmt rlo rn; (d.rowAddr (klo + j) + a, n))
  else (List.range rn).map (fun i => let (a, n) := elemSpan d.fmt klo kn; (d.rowAddr (rlo + i) + a, n))

/-- Bytes of the block scales of a region, as (address, length) runs. -/
def TDesc.scaleSpans (d : TDesc) (r0 : Int) (nr : Nat) (k0 : Int) (nk : Nat) : List (Nat × Nat) :=
  let (_, klo, kn) := clipRange k0 nk d.kext
  let (_, rlo, rn) := clipRange r0 nr d.rows
  if kn = 0 ∨ rn = 0 ∨ !d.fmt.twoLevel then []
  else (List.range rn).map (fun i => (d.scaleAddr (rlo + i) klo, (klo + kn + 31) / 32 - klo / 32))

/-- Bytes of the elements and block scales of a region, as (address, length) runs. -/
def TDesc.spans (d : TDesc) (r0 : Int) (nr : Nat) (k0 : Int) (nk : Nat) : List (Nat × Nat) :=
  d.elemSpans r0 nr k0 nk ++ d.scaleSpans r0 nr k0 nk

/-- Two runs of bytes overlap. -/
def overlap (a b : Nat × Nat) : Bool := decide (a.1 < b.1 + b.2 ∧ b.1 < a.1 + a.2)

/-- Two lists of runs overlap. -/
def overlapAny (as bs : List (Nat × Nat)) : Bool := as.any (fun a => bs.any (overlap a))

/-- Destination bytes of a request (R216, R218). -/
def Req.spans (q : Req) : List (Nat × Nat) :=
  let nk := if q.gat then q.dst.kext else (q.data.head?.map (fun d => d.1.length)).getD 0
  (q.rows.filterMap id).flatMap (fun r => q.dst.spans r 1 q.dstK nk)

/-- Does one of these requests that is not complete write bytes of these runs (R221)? -/
def State.reqOverlap (s : State) (rs : List Nat) (spans : List (Nat × Nat)) : Bool :=
  s.reqs.any (fun q => rs.contains q.1 && overlapAny q.2.spans spans)

/-! ### LDT -/

/-- The descriptor an LDT reads (R182): the replay source above the first rung. -/
def Run.loadDesc (r : Run) (t : TReg) : TDesc := if 0 < r.rung then t.replay.getD t.desc else t.desc

/-- Bytes that an LDT reads (R197, R199): of a copy the elements or the block scales, of a conversion both. -/
def TDesc.loadSpans (d : TDesc) (f : Fmt) (sc : Bool) (r0 : Int) (nr : Nat) (k0 : Int) (nk : Nat) : List (Nat × Nat) :=
  if d.fmt = f then (if sc then d.scaleSpans r0 nr k0 nk else d.elemSpans r0 nr k0 nk) else d.spans r0 nr k0 nk

/-- Rows of a load as converted (R197 to R199): codes and block scales of the pillow format; a copy reads its half alone. -/
def State.loadRows (s : State) (r : Run) (t : TReg) (f : Fmt) (r0 : Int) (nr : Nat) (k0 : Int) (nb : Nat)
    (sc : Bool) : Except AccErr (List Conv × Run × State) := do
  let ctx := s.runCtx r
  let d := r.loadDesc t
  let (td, r) ← s.scaleVal r (if d.fmt.twoLevel then d.tsaddr else 0)
  if d.fmt = f then
    if sc then do
      let scales ← s.readScales ctx d r0 nr k0 nb
      pure (scales.map (fun x => { scales := x }), r, s)
    else do
      let codes ← s.readRegion ctx d r0 nr k0 (32 * nb)
      pure (codes.map (fun x => { codes := x }), r, s)
  else do
    let scales ← if d.fmt.twoLevel then s.readScales ctx d r0 nr k0 nb else pure []
    let codes ← s.readRegion ctx d r0 nr k0 (32 * nb)
    let (tq, r) ← s.scaleVal r (t.source f)
    let vals := codes.zipIdx.map (fun ci => rowValues d.fmt (val32 td) ci.1 (scales.getD ci.2 []))
    let (cs, s) := s.convert f tq vals
    pure (cs, r, s)

/-- LDT (R197 to R199). -/
def State.ldt (w p : Nat) (s : State) (r : Run) (word : Word) : TOut := do
  let t := r.reg (bitsOf word 51 49)
  let f := r.fmt word 0
  let sc := bitOf word 42
  let nr := bitsOf word 40 32 + 1
  let nb := bitsOf word 31 23 + 1
  let r0 := t.row + bitsOf word 22 13
  let k0 := t.kNow r.rep + 32 * bitsOf word 12 0
  let slot := r.slot (bitOf word 43) (bitsOf word 48 44)
  let spans := (r.loadDesc t).loadSpans f sc r0 nr k0 (32 * nb)
  if overlapAny ((s.bob w p).storeQ.map (fun e => (e.va, e.data.length))) spans then .error (.stall 146)
  else if s.reqOverlap r.reqs spans then .error (.stall 221)
  else do
    let (cs, r, s) ← s.loadRows r t f r0 nr k0 nb sc
    let s := s.readVias w (s.runCtx r) spans
    let src := t.source f
    if sc then
      let bs := cs.flatMap (fun c => c.scales.map (BitVec.ofNat 8))
      let pil := (r.pil.write (slotBase slot) bs).setSource slot bs.length src
      pure ({ r with pil := pil, counts := r.counts.operand 0 (edgesOf cs) }, s)
    else
      let bs := cs.flatMap (fun c => packCodes f c.codes)
      let pil := (r.pil.write (slotBase slot) bs).setSource slot bs.length src
      pure ({ r with pil := pil, counts := r.counts.operand (clampsOf cs) 0 }, s)

/-- LDT. -/
def execLdt (w : WellId) (p : PhysId) (ev : EccEv) (s : State) : Res := tWork .ldt w p ev s (State.ldt w p)

/-! ### Store queue -/

/-- Free entries of a store queue of 32 (R144). -/
def Bobbin.room (b : Bobbin) : Nat := 32 - b.storeQ.length

/-- Are an attempt's places to be noted, since it may be discarded (R120)? -/
def Run.mayReplay (r : Run) : Bool := decide (0 < guardMax r.b.guard)

/-- Writes placed in the store queue as entries, in order (R144, R204); those for which the queue has no room wait. -/
def State.pushStores (s : State) (w p : Nat) (r : Run) (runs : List MaskRun) : Run × State :=
  let entries := (runs.flatMap (fun a => a.cut 4096)).zipIdx.map (fun x =>
    ({ id := s.nextId + x.2, instr := r.idx, va := x.1.va, data := x.1.data, job := r.b.job, lo := x.1.lo, hi := x.1.hi,
       rep := r.rep, rung := r.rung, gw := r.b.entry.gw } : StoreEntry))
  let b := s.bob w p
  let t := (s.setBob w p { b with storeQ := b.storeQ ++ entries.take b.room })
  if entries.isEmpty then (r, s)
  else
    ({ r with lastStore := s.nextId + entries.length - 1, toStore := entries.drop b.room,
              outs := if r.mayReplay then r.outs ++ entries.map (fun e => (e.va, e.data.length)) else r.outs },
     { t with nextId := s.nextId + entries.length })

/-- Runs of elements and of block scales in the order of R204: a row's elements before its scales. -/
def mixRuns (red : Bool) (es ss : List MaskRun) : List MaskRun :=
  if red || decide (es.length ≠ ss.length) then es ++ ss
  else (es.zip ss).flatMap (fun x => [x.1, x.2])

/-- A converted rectangle written through the store queue at an origin of a descriptor (R203, R204). -/
def State.storeRect (s : State) (w p : Nat) (r : Run) (d : TDesc) (r0 k0 : Int) (cs : List Conv) : Run × State :=
  let es := (d.pieces r0 k0 (cs.map Conv.codes)).map (fun x => d.maskRun x.1 x.2.1 x.2.2)
  let ss := if d.fmt.twoLevel then (placeScales d r0 k0 (cs.map Conv.scales)).map (fun x => { va := x.1, data := x.2 })
    else []
  s.pushStores w p r (mixRuns d.red es ss)

/-- Epilogue handshakes counted (R225, R770): those of the instruction and 64 for each slot newly scaled. -/
def State.handshakes (s : State) (w n : Nat) (before after : Pillow) : State :=
  let newly := ((List.range 16).filter (fun i =>
    after.scaled.getLsbD i && !before.scaled.getLsbD i)).length
  s.countEv w 0x09 (n + 64 * newly)

/-- Values of an accumulator rectangle of nr rows by nk columns from slot za (R202). -/
def Pillow.rect (p : Pillow) (za nr nk : Nat) : List (List Num) :=
  (List.range nr).map (fun i => (List.range nk).map (fun j =>
    val32 (p.zGet (za + 4 * (i / 64) + j / 128) (i % 64) (j % 128))))

/-- Slots of that rectangle, in the order its rows reach them. -/
def rectSlots (za nr nk : Nat) : List Nat :=
  (List.range ((nr + 63) / 64)).flatMap (fun a => (List.range ((nk + 127) / 128)).map (fun g => za + 4 * a + g))

/-- STT (R202 to R204, R225). -/
def State.stt (w p : Nat) (s : State) (r : Run) (word : Word) : TOut := do
  let t := r.reg (bitsOf word 51 49)
  let f := r.fmt word 0
  let nr := bitsOf word 40 32 + 1
  let nk := 32 * (bitsOf word 31 23 + 1)
  let za := bitsOf word 47 44
  let r' ← s.scaleSlots r (rectSlots za nr nk)
  let s := s.handshakes w 0 r.pil r'.pil
  let (tq, r) ← s.scaleVal r' (if f.twoLevel then t.desc.tsaddr else 0)
  let (cs, s) := s.convert f tq (r.pil.rect za nr nk)
  let r := { r with counts := r.counts.output (clampsOf cs + edgesOf cs) }
  pure (s.storeRect w p r { t.desc with fmt := f } (t.row + bitsOf word 22 13)
    (t.kNow r.rep + 32 * bitsOf word 12 0) cs)

/-- STT. -/
def execStt (w : WellId) (p : PhysId) (ev : EccEv) (s : State) : Res := tWork .stt w p ev s (State.stt w p)

/-- A store entry meets an access error (R161, R189, R222): older entries are visible, its own and younger ones are
discarded, the stitch ends and its job with the error's status. -/
def State.storeError (s : State) (w p : Nat) (e : StoreEntry) (err : AccErr) : State :=
  let s := match err with
    | .trans _ _ _ _ => s.noteTrans (viaQ w (s.ctxOf e.job)) w err
    | .tier _ l wr => s.noteTier .bobbin w p l wr
    | _ => s
  let b := s.bob w p
  let s := s.noteBob w p 1 e.instr err.status err.va (some (e.rep, e.rung, e.gw))
  let s := s.setBob w p { b with storeQ := [], run := none, leaving := b.leaving.filter (fun l => l.lastStore < e.id) }
  s.failJob e.job err.status err.va

/-- Requests of the stitch that made store entry `id`: it left this bobbin, or still runs. -/
def Bobbin.reqsOf (b : Bobbin) (id : Nat) : List Nat :=
  match b.leaving.find? (fun l => id ≤ l.lastStore) with
  | some l => l.reqs
  | none => b.run.elim [] Run.reqs

/-- The bytes that an entry writes: bits of other elements in its first and last byte stay as they stand (R79). -/
def State.storeBytes (s : State) (ctx : Nat) (e : StoreEntry) : Except AccErr (List Byte) :=
  if e.lo = 0 ∧ e.hi = 0 then .ok e.data
  else (s.readVa ctx e.va e.data.length).map (fun old => mergeBytes e.lo e.hi old e.data)

/-- An entry's bytes written. -/
def State.drain (s : State) (ctx : Nat) (e : StoreEntry) : Except AccErr State := do
  let bs ← s.storeBytes ctx e
  s.writeVa ctx e.va bs

/-- The oldest entry has left the queue; the entry that waited longest for its room takes it (R144). -/
def Bobbin.drained (b : Bobbin) : Bobbin :=
  match b.run with
  | none => { b with storeQ := b.storeQ.drop 1 }
  | some r => { b with storeQ := b.storeQ.drop 1 ++ r.toStore.take 1, run := some { r with toStore := r.toStore.drop 1 } }

/-- STORE_ENTRY_VISIBLE (R145): the oldest entry of the bobbin drains. It waits for older requests of its stitch that
write the same bytes (R221). -/
def execStoreEntryVisible (w : WellId) (p : PhysId) (s : State) : Res :=
  let b := s.bob w p
  match b.storeQ with
  | [] => .fault (.notEnabled 145)
  | e :: _ =>
    let ctx := viaQ w (s.ctxOf e.job)
    if s.reqOverlap ((b.reqsOf e.id).filter (· < e.id)) [(e.va, e.data.length)] then s.stalls 221
    else if s.missing w p then s.stalls 441
    else
      match s.drain ctx e with
      | .error (.stall rule) => s.stalls rule
      | .error err => .next (s.storeError w p e err)
      | .ok t =>
        .next ((((t.wroteVia w ctx e.va e.data.length).setBob w p (t.bob w p).drained).countEv w 0x11 1).windowSees
          e.job e.va e.data.length)

/-! ### MMA, ZCLR -/

/-- Steps per K element of a format in a product (R131). -/
def Fmt.cost (f : Fmt) : Nat :=
  match f.width with
  | 4 => 1
  | 6 => 2
  | 8 => 4
  | _ => 16

/-- Steps per K element of a pair of formats (R131). -/
def pairCost (a b : Fmt) : Nat := max a.cost b.cost

/-- A block sum, exact; an exact zero is +0 (R87, R89). -/
def blockSum : List Num → List Num → Num
  | a :: as, b :: bs => (a.mul b).add (blockSum as bs)
  | _, _ => .fin false 0 0

/-- One block added into an accumulator (R88). -/
def accStep (acc : Word32) (a b : List Num) (sa sb : Num) : Word32 :=
  round32 ((val32 acc).add (((blockSum a b).mul sa).mul sb))

/-- A row or column of a product: per block its element values and its block scale. -/
abbrev MmaLine := List (List Num × Num)

/-- An operand's line i as blocks, with scale 1.0 for a plain format (R207). -/
def Pillow.line (p : Pillow) (f : Fmt) (slot scaleSlot nb i : Nat) : MmaLine :=
  let codes := blocks32 (p.rowCodes f slot nb i)
  let scales := p.rowScales f scaleSlot nb i
  codes.zipIdx.map (fun cb => (cb.1.map (decodeElem f),
    if f.twoLevel then decodeS8 (scales.getD cb.2 0) else .fin false 1 0))

/-- All blocks of a row and a column added in ascending K order (R90, R134). -/
def dotBlocks (acc : Word32) : MmaLine → MmaLine → Word32
  | a :: as, b :: bs => dotBlocks (accStep acc a.1 b.1 a.2 b.2) as bs
  | _, _ => acc

/-- The accumulators of an M by N product (R206 to R208). -/
def Pillow.product (p : Pillow) (rows cols : List MmaLine) : Pillow :=
  rows.zipIdx.foldl (fun p ai => cols.zipIdx.foldl (fun p bj =>
    p.setTile ai.2 bj.2 (dotBlocks (p.tile ai.2 bj.2) ai.1 bj.1)) p) p

/-- MMA (R206 to R208): c is computed at the attempt's first (R196). -/
def State.mma (w : Nat) (s : State) (r : Run) (word : Word) : TOut := do
  let fa := r.fmt word 0
  let fb := r.fmt word 1
  let alt := bitOf word 27
  let sa := r.slot alt (bitsOf word 47 43)
  let sas := r.slot alt (bitsOf word 42 38)
  let sb := r.slot alt (bitsOf word 37 33)
  let sbs := r.slot alt (bitsOf word 32 28)
  let m := bitsOf word 23 16 + 1
  let n := bitsOf word 15 7 + 1
  let kb := bitsOf word 6 0 + 1
  let (_, r) ← match r.pil.c with
    | some c => pure (c, r)
    | none => s.cFrom r (tabGet 0 r.pil.scaleSrc sa) (tabGet 0 r.pil.scaleSrc sb)
  let rows := (List.range m).map (r.pil.line fa sa sas kb)
  let cols := (List.range n).map (r.pil.line fb sb sbs kb)
  let steps := ((m + 63) / 64) * ((n + 127) / 128) * (kb * 32) * pairCost fa fb
  let s := s.countEv w 0x01 steps
  let s := if pairCost fa fb = 1 then s.countEv w 0x02 steps else s
  pure ({ r with pil := r.pil.product rows cols }, s)

/-- MMA. -/
def execMma (w : WellId) (p : PhysId) (ev : EccEv) (s : State) : Res := tWork .mma w p ev s (State.mma w)

/-- ZCLR (R209). -/
def execZclr (w : WellId) (p : PhysId) (s : State) : Res :=
  tStep .zclr w p s (fun r word =>
    let pil := ((List.range 16).filter (fun n => bitOf word n)).foldl Pillow.zClear r.pil
    .next (s.doneRun w p { r with pil := pil }))

/-! ### CVT, QNT -/

/-- CVT (R210, R211): ceil(NBLK / 4) handshakes, twice that for a two-level target. -/
def State.cvt (w : Nat) (s : State) (r : Run) (word : Word) : TOut := do
  let fs := r.fmt word 0
  let fd := r.fmt word 1
  let alt := bitOf word 27
  let src := r.slot alt (bitsOf word 47 43)
  let ssc := r.slot alt (bitsOf word 42 38)
  let dst := r.slot alt (bitsOf word 37 33)
  let dsc := r.slot alt (bitsOf word 32 28)
  let nb := bitsOf word 15 0 + 1
  let (t, r) ← s.scaleVal r (tabGet 0 r.pil.scaleSrc src)
  let tsrc := if fd.twoLevel then (r.reg (bitsOf word 26 24)).desc.tsaddr else 0
  let (tq, r) ← s.scaleVal r tsrc
  let vals := rowValues fs (val32 t) (r.pil.rowCodes fs src nb 0) (r.pil.rowScales fs ssc nb 0)
  let (cs, s) := s.convert fd tq [vals]
  let bs := cs.flatMap (fun c => packCodes fd c.codes)
  let ss := cs.flatMap (fun c => c.scales.map (BitVec.ofNat 8))
  let pil := (r.pil.write (slotBase dst) bs).setSource dst bs.length tsrc
  let pil := if fd.twoLevel then (pil.write (slotBase dsc) ss).setSource dsc ss.length tsrc else pil
  pure ({ r with pil := pil, counts := r.counts.operand (clampsOf cs) (edgesOf cs) },
    s.countEv w 0x09 ((if fd.twoLevel then 2 else 1) * ((nb + 3) / 4)))

/-- CVT. -/
def execCvt (w : WellId) (p : PhysId) (ev : EccEv) (s : State) : Res := tWork .cvt w p ev s (State.cvt w)

/-- Values of a set's rectangle: rows of columns, or columns of rows (R213). -/
def Pillow.setVals (p : Pillow) (set : List Nat) (trn : Bool) : List (List Num) :=
  let rows := setRows set
  let cols := setCols set
  if trn then cols.map (fun c => rows.map (fun r => val32 (p.tile r c)))
  else rows.map (fun r => cols.map (fun c => val32 (p.tile r c)))

/-- QNT (R212 to R214): 128 handshakes per slot for a two-level target, 64 for a plain one (R225). -/
def State.qnt (w : Nat) (s : State) (r : Run) (word : Word) : TOut := do
  let f := r.fmt word 0
  let set := accSet (bitsOf word 47 44) (bitsOf word 43 40 + 1) false
  let alt := bitOf word 29
  let dst := r.slot alt (bitsOf word 39 35)
  let dsc := r.slot alt (bitsOf word 34 30)
  let tsrc := if bitsOf word 28 27 = 0 then (r.reg (bitsOf word 51 49)).desc.tsaddr else 0
  let r' ← s.scaleSlots r set
  let s := s.handshakes w ((if f.twoLevel then 128 else 64) * set.length) r.pil r'.pil
  let (tq, r) ← s.scaleVal r' tsrc
  let (cs, s) := s.convert f tq (r.pil.setVals set (bitOf word 26))
  let bs := cs.flatMap (fun c => packCodes f c.codes)
  let ss := cs.flatMap (fun c => c.scales.map (BitVec.ofNat 8))
  let pil := (r.pil.write (slotBase dst) bs).setSource dst bs.length tsrc
  let pil := if f.twoLevel then (pil.write (slotBase dsc) ss).setSource dsc ss.length tsrc else pil
  pure ({ r with pil := pil, counts := r.counts.operand (clampsOf cs) (edgesOf cs) }, s)

/-- QNT. -/
def execQnt (w : WellId) (p : PhysId) (ev : EccEv) (s : State) : Res := tWork .qnt w p ev s (State.qnt w)

end Sys2Proof.Machine
end

