-- ==== Sys2Proof/Machine/Vector.lean ====
section
/-!
DEFINITION. The vector instructions of the epilogue unit (R224 to R248, R357 to R362): EPI, SFN, RED, SMX, BIAS
and GUARD.
-/

namespace Sys2Proof.Machine

/-! ### Fields -/

/-- Fields of the vector layout (R181), operand slots under ALT (R172). -/
structure VecOp where
  fmt : Fmt
  set : List Nat
  ps1 : Nat
  ps2 : Nat
  pd : Nat
  td : Nat
  imm : Word
deriving DecidableEq, Repr

/-- The fields of a vector instruction of a run. -/
def Run.vec (r : Run) (w : Word) : VecOp :=
  let alt := bitOf w 24
  { fmt := r.fmt w 0
    set := accSet (bitsOf w 47 44) (bitsOf w 43 40 + 1) (bitOf w 20)
    ps1 := r.slot alt (bitsOf w 39 35), ps2 := r.slot alt (bitsOf w 34 30), pd := r.slot alt (bitsOf w 29 25)
    td := bitsOf w 23 21, imm := BitVec.ofNat 64 (bitsOf w 20 0) }

/-- A vector instruction that maps the slots of its set after scaling them (R227). -/
def State.mapSet (w : Nat) (s : State) (r : Run) (v : VecOp) (per : Nat) (f : Run → Nat → Nat → Nat → Word32 → Word32) :
    TOut := do
  let r' ← s.scaleSlots r v.set
  let pil := v.set.foldl (fun p n => p.zMap n (fun i j z => f r' n i j z)) r'.pil
  pure ({ r' with pil := pil }, s.handshakes w (per * v.set.length) r.pil r'.pil)

/-! ### EPI -/

/-- sig of R230. -/
def sigF (z : Word32) : Word32 := frcp (fadd f32One (fexp (fsub 0#32 z)))

/-- Activation codes (R229, R230); the reserved codes act as NONE, which the loader has excluded. -/
def actF (code : Nat) (x : Word32) : Word32 :=
  match code with
  | 1 => fmul x (sigF x)
  | 2 =>
    let u := fmul x x
    let u := fmul u x
    let u := fmul u 0x3D372713#32
    let u := fadd x u
    let u := fmul u 0x3FCC422A#32
    fmul x (sigF u)
  | 3 => fmul x (sigF (fmul 0x3FD9DB23#32 x))
  | 4 => if isNaN32 x then f32NaN else if flt 0#32 x then x else 0#32
  | _ => x

/-- GATE (R231). -/
def State.gate (w : Nat) (s : State) (r : Run) (word : Word) : TOut := do
  let v := r.vec word
  let d := bitsOf v.imm 7 4
  let r' ← s.scaleSlots r (v.set ++ v.set.map (· + d))
  let pil := v.set.foldl (fun p n => p.zMap n (fun i j z =>
    fmul (actF (bitsOf v.imm 2 0) z) (r'.pil.zGet (n + d) i j))) r'.pil
  pure ({ r' with pil := pil }, s.handshakes w (128 * v.set.length) r.pil r'.pil)

/-- EPI GATE. -/
def execEpiGate (w : WellId) (p : PhysId) (ev : EccEv) (s : State) : Res := tWork .gate w p ev s (State.gate w)

/-- ADDV (R232). -/
def State.addv (w : Nat) (s : State) (r : Run) (word : Word) : TOut :=
  let v := r.vec word
  s.mapSet w r v 64 (fun r' n _ j z => fadd z (r'.pil.vec v.fmt v.ps1 (tileCol n j)))

/-- EPI ADDV. -/
def execEpiAddv (w : WellId) (p : PhysId) (ev : EccEv) (s : State) : Res := tWork .addv w p ev s (State.addv w)

/-- PST (R233). -/
def State.pst (w p : Nat) (s : State) (r : Run) (word : Word) : TOut :=
  let v := r.vec word
  let t := r.reg v.td
  let nr := bitsOf v.imm 20 12 + 1
  let nb := bitsOf v.imm 11 3 + 1
  let cs := (List.range nr).map (fun i => ({ codes := r.pil.rowCodes v.fmt v.ps1 nb i } : Conv))
  let (r', s') := s.storeRect w p r { t.desc with fmt := v.fmt } t.row (t.kNow r.rep) cs
  .ok (r', s'.handshakes w ((nr * nb * 32 + 127) / 128) r.pil r'.pil)

/-- EPI PST. -/
def execEpiPst (w : WellId) (p : PhysId) (ev : EccEv) (s : State) : Res := tWork .pst w p ev s (State.pst w p)

/-- BAS (R234). -/
def State.bas (w : Nat) (s : State) (r : Run) (word : Word) : TOut :=
  let v := r.vec word
  s.mapSet w r v 128 (fun r' n _ j z =>
    let k := tileCol n j
    let y := actF (bitsOf v.imm 2 0) (fadd z (r'.pil.vec v.fmt v.ps1 k))
    if bitOf v.imm 3 then fmul y (r'.pil.vec v.fmt v.ps2 k) else y)

/-- EPI BAS. -/
def execEpiBas (w : WellId) (p : PhysId) (ev : EccEv) (s : State) : Res := tWork .bas w p ev s (State.bas w)

/-- CONV (R235). -/
def State.conv (w : Nat) (s : State) (r : Run) (word : Word) : TOut :=
  let v := r.vec word
  let rows := setRows v.set
  let cols := setCols v.set
  s.mapSet w r v 128 (fun r' n i j z =>
    let k := tileCol n j
    let y := actF (bitsOf v.imm 2 0)
      (fadd (fmul z (r'.pil.vec v.fmt v.ps1 k)) (r'.pil.vec v.fmt v.ps1 (512 + k)))
    if bitOf v.imm 3 then
      fadd y (r'.pil.vec v.fmt v.ps2 (rows.idxOf (tileRow n i) * cols.length + cols.idxOf k))
    else y)

/-- EPI CONV. -/
def execEpiConv (w : WellId) (p : PhysId) (ev : EccEv) (s : State) : Res := tWork .conv w p ev s (State.conv w)

/-- Round to an integral value, ties to even. -/
def roundIntegral (y : Word32) : Word32 :=
  match val32 y with
  | .fin neg m e =>
    let (a, b) := scaleRatio m 1 e
    round32 (.fin neg (rneDiv a b) 0)
  | _ => y

/-- RECON of one element (R236). -/
def reconF (bits : Nat) (v : Word32) : Word32 :=
  let v := if isNaN32 v then 0xBF800000#32 else v
  let v := fmin (fmax v 0xBF800000#32) f32One
  let k := round32 (.fin false (2 ^ bits - 1) (-1))
  roundIntegral (fmul (fadd v f32One) k)

/-- RECON (R236). -/
def State.recon (w : Nat) (s : State) (r : Run) (word : Word) : TOut :=
  let v := r.vec word
  s.mapSet w r v 64 (fun r' n _ j z =>
    reconF (bitsOf v.imm 3 0) (fadd z (r'.pil.vec v.fmt v.ps1 (tileCol n j))))

/-- EPI RECON. -/
def execEpiRecon (w : WellId) (p : PhysId) (ev : EccEv) (s : State) : Res := tWork .recon w p ev s (State.recon w)

/-! ### SFN -/

/-- SFN of one element: the FP32 value of the result in FMT's value set, and a clamp (R237, R238, R339). -/
def sfnF (g : SpFn) (f : Fmt) (compat : Bool) (x : Word32) : Word32 × Bool :=
  if compat then
    let y := spCompat g x
    if f = .fp32 then (y, false)
    else let (c, k) := convNum f (val32 y); (round32 (decodeElem f c), k)
  else if f = .fp32 then (sp32 g x, false)
  else let (c, k) := spShort f g (val32 x); (round32 (decodeElem f c), k)

/-- Clamps of SFN over one slot (R238). -/
def sfnClamps (g : SpFn) (f : Fmt) (compat : Bool) (p : Pillow) (n : Nat) : Nat :=
  ((List.range 64).map (fun i => ((List.range 128).filter (fun j =>
    (sfnF g f compat (p.zGet n i j)).2)).length)).sum

/-- SFN (R237, R238). -/
def State.sfn (g : SpFn) (w : Nat) (s : State) (r : Run) (word : Word) : TOut := do
  let v := r.vec word
  let compat := bitOf v.imm 0
  let r1 ← s.scaleSlots r v.set
  let clamps := (v.set.map (sfnClamps g v.fmt compat r1.pil)).sum
  let (r2, s) ← s.mapSet w r v 64 (fun _ _ _ _ z => (sfnF g v.fmt compat z).1)
  pure ({ r2 with counts := r2.counts.output clamps }, s)

/-- SFN EXP. -/
def execSfnExp (w : WellId) (p : PhysId) (ev : EccEv) (s : State) : Res :=
  tWork (.sfn .exp) w p ev s (State.sfn .exp w)
/-- SFN LOG. -/
def execSfnLog (w : WellId) (p : PhysId) (ev : EccEv) (s : State) : Res :=
  tWork (.sfn .log) w p ev s (State.sfn .log w)
/-- SFN RCP. -/
def execSfnRcp (w : WellId) (p : PhysId) (ev : EccEv) (s : State) : Res :=
  tWork (.sfn .rcp) w p ev s (State.sfn .rcp w)
/-- SFN RSQRT. -/
def execSfnRsqrt (w : WellId) (p : PhysId) (ev : EccEv) (s : State) : Res :=
  tWork (.sfn .rsqrt) w p ev s (State.sfn .rsqrt w)

/-! ### RED -/

/-- Value an element brings to a reduction: its square for SUMSQ (variant 2). -/
def redTerm (var : Nat) (x : Word32) : Word32 := if var = 2 then fmul x x else x

/-- Running value joined with an element (R239): MAX is variant 1. -/
def redJoin (var : Nat) (a x : Word32) : Word32 := if var = 1 then fmax a x else fadd a (redTerm var x)

/-- A run of elements reduced (R239), or joined to a starting value (R240). -/
def redLine (var : Nat) (start : Option Word32) : List Word32 → Word32
  | [] => start.getD 0#32
  | x :: xs =>
    match start with
    | some a => xs.foldl (redJoin var) (redJoin var a x)
    | none => xs.foldl (redJoin var) (redTerm var x)

/-- RED (R239, R240). -/
def State.red (var w : Nat) (s : State) (r : Run) (word : Word) : TOut := do
  let v := r.vec word
  let r' ← s.scaleSlots r v.set
  let byCol := bitOf v.imm 0
  let rows := setRows v.set
  let cols := setCols v.set
  let start (k : Nat) : Option Word32 := if bitOf v.imm 1 then some (r'.pil.f32 v.pd 0 k) else none
  let res := if byCol then
      cols.map (fun c => (c, redLine var (start c) (rows.map (fun i => r'.pil.tile i c))))
    else rows.map (fun i => (i, redLine var (start i) (cols.map (fun c => r'.pil.tile i c))))
  let pil := res.foldl (fun p kv => p.setF32 v.pd 0 kv.1 kv.2) r'.pil
  pure ({ r' with pil := pil }, s.handshakes w (64 * v.set.length) r.pil r'.pil)

/-- RED SUM. -/
def execRedSum (w : WellId) (p : PhysId) (ev : EccEv) (s : State) : Res := tWork (.red 0) w p ev s (State.red 0 w)
/-- RED MAX. -/
def execRedMax (w : WellId) (p : PhysId) (ev : EccEv) (s : State) : Res := tWork (.red 1) w p ev s (State.red 1 w)
/-- RED SUMSQ. -/
def execRedSumsq (w : WellId) (p : PhysId) (ev : EccEv) (s : State) : Res := tWork (.red 2) w p ev s (State.red 2 w)

/-! ### SMX -/

/-- SMX.INIT of the soft-maximum state (R243). -/
def Pillow.smxInit (p : Pillow) (pd : Nat) : Pillow :=
  (List.range 256).foldl (fun q k =>
    ((q.setF32 pd 0 k f32NegInf).setF32 pd 1024 k 0#32).setF32 pd 2048 k f32One) p

/-- SMX INIT. -/
def execSmxInit (w : WellId) (p : PhysId) (s : State) : Res :=
  tStep (.smx 0) w p s (fun r word =>
    .next ((s.countEv w 0x09 6).doneRun w p { r with pil := r.pil.smxInit (r.vec word).pd }))

/-- One row of SMX.STEP (R244): the new m, l, α and the row's p. -/
def smxRow (m l al : Word32) (sc : List Word32) : Word32 × Word32 × Word32 × List Word32 :=
  let un := sc.filter (fun x => x != f32NegInf)
  if un.any isNaN32 then (f32NaN, f32NaN, f32NaN, sc.map (fun _ => f32NaN))
  else
    match un with
    | [] => (m, l, al, sc.map (fun _ => 0#32))
    | x :: xs =>
      let mc := xs.foldl fmax x
      let mn := fmax m mc
      let a := if m = f32NegInf then 0#32 else fexp (fsub m mn)
      let ps := sc.map (fun y => if y = f32NegInf then 0#32 else fexp (fsub y mn))
      (mn, ps.foldl fadd (fmul l a), fmul al a, ps)

/-- Does a row count in SCORE (R245)? -/
def scoreRow (span : Nat) (sc : List Word32) : Bool :=
  let un := sc.filter (fun x => x != f32NegInf)
  match un with
  | x :: y :: xs =>
    let all := x :: y :: xs
    all.any isNaN32 ||
      (let hi := val32 ((y :: xs).foldl fmax x)
       let lo := val32 ((y :: xs).foldl fmin x)
       match hi, lo with
       | .inf _, .inf _ => false
       | .inf _, _ => true
       | _, _ => (Num.fin false span 0).lt (hi.add lo.neg))
  | _ => false

/-- SMX.STEP of one tile row. -/
def Pillow.smxRowStep (p : Pillow) (pd : Nat) (cols : List Nat) (k : Nat) : Pillow :=
  let (m, l, al, ps) := smxRow (p.f32 pd 0 k) (p.f32 pd 1024 k) (p.f32 pd 2048 k) (cols.map (p.tile k))
  let q := ((p.setF32 pd 0 k m).setF32 pd 1024 k l).setF32 pd 2048 k al
  (cols.zip ps).foldl (fun q cp => q.setTile k cp.1 cp.2) q

/-- SMX STEP (R244, R245). -/
def State.smxStep (w : Nat) (s : State) (r : Run) (word : Word) : TOut := do
  let v := r.vec word
  let r' ← s.scaleSlots r v.set
  let rows := setRows v.set
  let cols := setCols v.set
  let hits := (rows.filter (fun k => scoreRow (bitsOf r.b.guard 11 6) (cols.map (r'.pil.tile k)))).length
  let pil := rows.foldl (fun p k => p.smxRowStep v.pd cols k) r'.pil
  pure ({ r' with pil := pil, counts := { r'.counts with score := satCount r'.counts.score hits } },
    s.handshakes w (128 * v.set.length) r.pil r'.pil)

/-- SMX STEP. -/
def execSmxStep (w : WellId) (p : PhysId) (ev : EccEv) (s : State) : Res := tWork (.smx 1) w p ev s (State.smxStep w)

/-- SMX FOLD (R246). -/
def State.smxFold (w : Nat) (s : State) (r : Run) (word : Word) : TOut := do
  let v := r.vec word
  let d := bitsOf v.imm 3 0
  let r' ← s.scaleSlots r (v.set ++ v.set.map (· + d))
  let pil := v.set.foldl (fun p n => p.zMap (n + d) (fun i j o =>
    fadd (fmul o (p.f32 v.pd 2048 (tileRow n i))) (p.zGet n i j))) r'.pil
  let pil := (setRows v.set).foldl (fun p k => p.setF32 v.pd 2048 k f32One) pil
  pure ({ r' with pil := pil }, s.handshakes w (64 * v.set.length) r.pil r'.pil)

/-- SMX FOLD. -/
def execSmxFold (w : WellId) (p : PhysId) (ev : EccEv) (s : State) : Res := tWork (.smx 2) w p ev s (State.smxFold w)

/-! ### BIAS -/

/-- n little-endian bytes of a slot at an offset, as a number. -/
def Pillow.num (p : Pillow) (slot off n : Nat) : Nat := leVal (p.read (slotBase slot + off) n)

/-- coord of R358 with the record in slot PS2; none is the pad flag (R359). -/
def Pillow.coord (p : Pillow) (ps2 : Nat) (kappa pitch count : Nat) (t0 : Int) : Option (Int × Int × Int) :=
  let gw := p.num ps2 48 2
  let gh := p.num ps2 50 2
  if count ≤ kappa ∨ pitch = 0 then none
  else
    let f := kappa / pitch
    let r := kappa % pitch
    if gw * gh ≤ r then none
    else
      let y := r / gw
      let x := r % gw
      if p.num ps2 52 2 ≤ x ∨ p.num ps2 54 2 ≤ y then none
      else
        let t := t0 + f
        if t < signedOf 32 (p.num ps2 40 4) ∨ signedOf 32 (p.num ps2 44 4) ≤ t then none else some (t, y, x)

/-- A bias table entry; past the slot it reads as the masked encoding (R361). -/
def Pillow.biasEntry (p : Pillow) (ps1 i : Nat) : Nat := if 16384 ≤ i then 0xFFFF else p.num ps1 (2 * i) 2

/-- A coordinate difference clamped to -c .. c, as an offset from 0. -/
def clampOff (d : Int) (c : Nat) : Nat := (max (-(c : Int)) (min d c) + c).toNat

/-- The distance bias of a query and a key under table set n (R241, R360, R361); none masks the score. -/
def Pillow.biasOf (p : Pillow) (ps1 n : Nat) (q k : Int × Int × Int) : Option Word32 :=
  let dt := (q.1 - k.1).natAbs
  let cy := p.num ps1 (16 * n + 7) 1
  let cx := p.num ps1 (16 * n + 8) 1
  if p.num ps1 (16 * n + 6) 1 < dt then none
  else
    let tt := p.biasEntry ps1 (p.num ps1 (16 * n) 2 + dt)
    let ty := p.biasEntry ps1 (p.num ps1 (16 * n + 2) 2 + clampOff (q.2.1 - k.2.1) cy)
    let tx := p.biasEntry ps1 (p.num ps1 (16 * n + 4) 2 + clampOff (q.2.2 - k.2.2) cx)
    if tt = 0xFFFF ∨ ty = 0xFFFF ∨ tx = 0xFFFF then none
    else
      let f (e : Nat) : Word32 := BitVec.ofNat 32 (e * 65536)
      some (fadd (fadd (f tt) (f ty)) (f tx))

/-- One biased score (R241, R242). -/
def Pillow.biased (p : Pillow) (ps1 ps2 n chunk row col : Nat) (sc : Word32) : Word32 :=
  let q := p.coord ps2 (p.num ps2 4 4 + row) (p.num ps2 16 4) (p.num ps2 24 4) (signedOf 32 (p.num ps2 32 4))
  let k := p.coord ps2 (p.num ps2 8 4 + p.num ps2 12 4 * chunk + col) (p.num ps2 20 4) (p.num ps2 28 4)
    (signedOf 32 (p.num ps2 36 4))
  match q, k with
  | some q, some k =>
    match p.biasOf ps1 n q k with
    | some b => fadd (fmul sc (p.f32 ps2 0 0)) b
    | none => f32NegInf
  | _, _ => f32NegInf

/-- BIAS (R241, R242). -/
def State.biasOp (w : Nat) (s : State) (r : Run) (word : Word) : TOut :=
  let v := r.vec word
  s.mapSet w r v 64 (fun r' n i j z =>
    r'.pil.biased v.ps1 v.ps2 (bitsOf v.imm 7 0) r.rep (tileRow n i) (tileCol n j) z)

/-- BIAS. -/
def execBias (w : WellId) (p : PhysId) (ev : EccEv) (s : State) : Res := tWork .bias w p ev s (State.biasOp w)

/-! ### GUARD -/

/-- What GUARD leaves in slot n (R248). -/
def Pillow.guardOut (p : Pillow) (n : Nat) (vals : List Nat) : Pillow :=
  (vals.zipIdx.foldl (fun q vi => q.zSet n 0 vi.2 (f32OfNat vi.1)) (p.zClear n)).markScaled n

/-- GUARD (R248). -/
def execGuard (w : WellId) (p : PhysId) (s : State) : Res :=
  tStep .guard w p s (fun r word =>
    let pil := r.pil.guardOut (bitsOf word 47 44)
      [r.counts.clamp, r.counts.edge, r.accPend, r.counts.score, r.counts.out, r.rung, r.attempt, r.rep]
    .next ((s.countEv w 0x09 1).doneRun w p { r with pil := pil }))

end Sys2Proof.Machine
end

