-- ==== Sys2Proof/Machine/Sync.lean ====
section
/-!
DEFINITION. Requests to the cistern units (GAT, SCT: R215 to R221, R413, R415), events (SIG, WAITS: R249 to R253),
END and the completion of a stitch (R254, R147), and the bobbin's handshake watchdog (R161).
-/

namespace Sys2Proof.Machine

/-! ### Requests -/

/-- Bank group of a cistern byte address (R392). -/
def bankGroup (a : Nat) : Nat :=
  let g := a / 65536
  (g ^^^ (g / 64) ^^^ (g / 4096)) % 64

/-- The unit of well w that takes item i, whose first destination byte is at va: the one over its bank group when
the byte is homed in the well's own cistern, else unit i mod 64 (R413). -/
def State.unitFor (s : State) (ctx w va i : Nat) : Nat :=
  match s.leafOf ctx va true with
  | .ok l =>
    if leafTier l.val = some (.cistern w) then bankGroup (leafFrame l.val + va % l.page) else i % 64
  | .error _ => i % 64

/-- Address of the first byte an item writes in row r of a descriptor from K origin k0. -/
def TDesc.firstByte (d : TDesc) (r k0 : Int) : Nat :=
  let rr := r.toNat
  let kk := k0.toNat
  if d.red then d.rowAddr kk + rr * d.fmt.width / 8 else d.rowAddr rr + kk * d.fmt.width / 8

/-- The unit that takes row i of a request (R413); a row that is not written goes by its number. -/
def State.reqUnit (s : State) (w : Nat) (q : Req) (i : Nat) : Nat :=
  match (q.rows[i]?).join with
  | some r => s.unitFor (viaQ w (s.ctxOf q.job)) w (q.dst.firstByte r q.dstK) i
  | none => i % 64

/-- Depth of a unit's queue of bobbin items (R416). -/
def bobDepth : Nat := 16

/-- Rows of request id entered in their units' queues, in ascending row, up to the first whose queue is full (R415). -/
def State.enterRows (s : State) (w id : Nat) : Nat → State
  | 0 => s
  | fuel + 1 =>
    match s.reqs.find? (fun q => q.1 == id) with
    | none => s
    | some (_, q) =>
      if q.rows.length ≤ q.entered then s
      else
        let u := s.reqUnit w q q.entered
        let x := s.unit w u
        if x.bobQ.length < bobDepth then
          let t := s.setUnit w u { x with bobQ := x.bobQ ++ [.bob id q.entered] }
          let reqs := t.reqs.map (fun y => if y.1 = id then (id, { y.2 with entered := q.entered + 1 }) else y)
          ({ t with reqs := reqs }).enterRows w id fuel
        else s

/-- A request has at most 512 rows (R216, R218). -/
def rowFuel : Nat := 513

/-- Request n of run r, an SCT or not: accepted at once, or stalling its bobbin on a full queue (R415). -/
def State.afterEnter (s : State) (w : Nat) (r : Run) (n : Nat) (sct : Bool) : Run × State :=
  if s.allEntered n then ({ r with reqs := n :: r.reqs }, s)
  else ({ r with reqs := n :: r.reqs, qStall := some (n, sct) }, s.incFld (rWlCuStat w) 15 0 1)

/-- A request handed to the cistern units (R215, R415). -/
def State.issueReq (s : State) (w : Nat) (r : Run) (q : Req) : Run × State :=
  let q := { q with instr := r.idx, rep := r.rep, rung := r.rung, gw := r.b.entry.gw }
  State.afterEnter (({ s with nextId := s.nextId + 1, reqs := (s.nextId, q) :: s.reqs }).enterRows w s.nextId rowFuel)
    w r s.nextId (!q.gat)

/-- Older store entries of the stitch are visible (R215, R250). -/
def State.storesDone (s : State) (w p : Nat) (r : Run) : Bool :=
  !((s.bob w p).storeQ.any (fun e => e.id ≤ r.lastStore))

/-- GAT (R216, R217). -/
def State.gat (w p : Nat) (s : State) (r : Run) (word : Word) : TOut :=
  if !s.storesDone w p r then .error (.stall 215)
  else
    let t := r.reg (bitsOf word 51 49)
    let t2 := r.reg (bitsOf word 42 40)
    let slot := r.slot (bitOf word 39) (bitsOf word 48 44)
    let n := bitsOf word 21 13 + 1
    let off := bitsOf word 31 22
    let rows := (List.range n).map (fun i => t.row + off + i)
    let outs := rows.flatMap (fun x => t.desc.spans x 1 (t.kNow r.rep) t.desc.kext)
    let r := if r.mayReplay then { r with outs := r.outs ++ outs } else r
    let q : Req :=
      { well := w, phys := p, job := r.b.job, gat := true, fmt := r.fmt word 0, dst := t.desc,
        dstK := t.kNow r.rep, src := t2.desc, srcRow := t2.row, srcK := t2.kNow r.rep,
        geom := r.pil.read (slotBase slot) 64,
        rows := rows.map some, left := n }
    .ok (s.issueReq w r q)

/-- GAT. -/
def execGat (w : WellId) (p : PhysId) (ev : EccEv) (s : State) : Res := tWork .gat w p ev s (State.gat w p)

/-- Destination rows of an SCT from its index list: I32 values, a negative one writes nothing (R218). -/
def State.sctRows (s : State) (ctx : Nat) (t : TReg) (t2 : TReg) (rep off n : Nat) :
    Except AccErr (List (Option Int)) := do
  let idx ← s.readRegion ctx t2.desc t2.row 1 (t2.kNow rep + off) n
  pure ((idx.headD []).map (fun c =>
    let x := signedOf 32 c
    if x < 0 then none else some (t.row + x)))

/-- Source rows of an SCT: accumulators converted as STT does, or plain rows of a slot (R219). -/
def State.sctData (s : State) (r : Run) (word : Word) (f : Fmt) (t : TReg) :
    Except AccErr (List (List Nat × List Nat) × Run × State) :=
  let nr := bitsOf word 31 23 + 1
  let nb := bitsOf word 22 14 + 1
  if bitOf word 43 then do
    let za := bitsOf word 47 44
    let r' ← s.scaleSlots r (rectSlots za nr (32 * nb))
    let s := s.handshakes r.b.well 0 r.pil r'.pil
    let (tq, r) ← s.scaleVal r' (if f.twoLevel then t.desc.tsaddr else 0)
    let (cs, s) := s.convert f tq (r.pil.rect za nr (32 * nb))
    pure (cs.map (fun c => (c.codes, c.scales)),
      { r with counts := r.counts.output (clampsOf cs + edgesOf cs) }, s)
  else
    let slot := r.slot (bitOf word 39) (bitsOf word 48 44)
    .ok ((List.range nr).map (fun i => (r.pil.rowCodes f slot nb i, [])), r, s)

/-- SCT (R218 to R220), suppressed when an earlier run of the stitch issued it (R160). -/
def State.sct (w p : Nat) (s : State) (r : Run) (word : Word) : TOut :=
  if !s.storesDone w p r then .error (.stall 215)
  else do
    let t := r.reg (bitsOf word 51 49)
    let t2 := r.reg (bitsOf word 42 40)
    let f := r.fmt word 0
    let (data, r, s) ← s.sctData r word f t
    let no := r.reqNo
    let r := { r with reqNo := no + 1 }
    if no < r.b.entry.issued then pure (r, s)
    else do
      let rows ← s.sctRows (s.runCtx r) t t2 r.rep (bitsOf word 13 4) data.length
      let s := s.readVias w (s.runCtx r) (t2.desc.spans t2.row 1 (t2.kNow r.rep + bitsOf word 13 4) data.length)
      pure (s.issueReq w r
        { well := w, phys := p, job := r.b.job, gat := false, fmt := f, dst := t.desc, dstK := t.kNow r.rep,
          rows := rows, data := data, left := data.length })

/-- SCT. -/
def execSct (w : WellId) (p : PhysId) (ev : EccEv) (s : State) : Res := tWork .sct w p ev s (State.sct w p)

/-! ### Events -/

/-- Are the requests of a run complete? -/
def State.reqsDone (s : State) (r : Run) : Bool := !(r.reqs.any (fun i => s.reqs.any (fun q => q.1 == i)))

/-- COUNT added to an event counter of job j, saturating (R250); a counter that cannot be read ends the job (R399). -/
def State.raiseEvent (s : State) (j w k ev n : Nat) : State :=
  if s.scratchOk w (eventAt k ev) then s.setEvent w k ev (min (s.event w k ev + n) (2 ^ 32 - 1))
  else s.scratchErr j w (eventAt k ev)

/-- SIG (R250). -/
def execSig (w : WellId) (p : PhysId) (s : State) : Res :=
  tStep .sig w p s (fun r word =>
    if !(s.storesDone w p r && s.reqsDone r) then s.stalls 250
    else
      let no := r.reqNo
      let r := { r with reqNo := no + 1 }
      if no < r.b.entry.issued then .next (s.doneRun w p r)
      else
        s.scratch r.b.job r.b.home (eventAt r.b.slot (bitsOf word 47 32)) (.next
          (((s.raiseEvent r.b.job r.b.home r.b.slot (bitsOf word 47 32) (bitsOf word 31 0)).countEv w 0x12 1).doneRun
            w p r)))

/-- WAITS (R251): goes on, or stalls. -/
def execWaits (w : WellId) (p : PhysId) (s : State) : Res :=
  tStep .waits w p s (fun r word =>
    let ev := bitsOf word 47 32
    let n := bitsOf word 31 0
    s.scratch r.b.job r.b.home (eventAt r.b.slot ev) (
      if n ≤ s.event r.b.home r.b.slot ev then .next (s.doneRun w p r)
      else .next ((s.putRun w p { r with waits := some (ev, n, s.now) }).countEv w 0x13 1)))

/-- WAITS_SATISFIED (R251); a counter that cannot be read ends the job instead (R399, R423). -/
def execWaitsSatisfied (w : WellId) (p : PhysId) (s : State) : Res :=
  needSome (s.bob w p).run 251 (fun r =>
    needSome r.waits 251 (fun x =>
      s.scratch r.b.job r.b.home (eventAt r.b.slot x.1) (
        need (decide (x.2.1 ≤ s.event r.b.home r.b.slot x.1)) 251
          (.next (s.doneRun w p { r with waits := none })))))

/-- The event limit of a well in ns (R256). -/
def State.evtLimit (s : State) (w : Nat) : Nat :=
  let l := s.fld (rWlEvtLimit w) 15 0
  (if l = 0 then 100 else l) * 1000000

/-- The stall of a WAITS has reached its limit: the count is not reached, and no pre-emption withdraws the stitch instead
(R252, R253, R257). -/
def State.waitsOver (s : State) (w : Nat) (r : Run) (x : Nat × Nat × Nat) : Bool :=
  decide (x.2.2 + s.evtLimit w < s.now ∧ s.event r.b.home r.b.slot x.1 < x.2.1)
  && !(s.job r.b.job).any (fun j => decide (j.phase = .preempting))

/-- WAITS_LIMIT_EXPIRY (R252): the stitch ends, its job with INTERNAL; the fault record names the home well too (R323). -/
def execWaitsLimitExpiry (w : WellId) (p : PhysId) (s : State) : Res :=
  needSome (s.bob w p).run 252 (fun r =>
    needSome r.waits 252 (fun x =>
      need (s.waitsOver w r x) 252 (
        let v := setBits (setBits (setBits 0#64 55 48 p.val) 47 32 x.1) 31 0 x.2.1
        let s := (s.faultRec w p 0 r.idx (some r.place)).latch (rWlEvtStat w) v
        let s := s.reportSelf w 0x5 1 p x.1
        let s := s.setBob w p { s.bob w p with run := none }
        .next (s.failJob r.b.job 0x7F 0))))

/-! ### END and completion -/

/-- The ACC tally of an attempt at END (R247): what scaling found, and every slot neither clear nor scaled. -/
def Run.tally (r : Run) : Nat :=
  r.accPend + (((List.range 16).filter (fun n => !r.pil.clear.getLsbD n && !r.pil.scaled.getLsbD n)).map
    (r.pil.accHits r.b.guard)).sum

/-- The counts an attempt ends with (R254). -/
def Run.endCounts (r : Run) : Counts := { r.counts with acc := satCount r.counts.acc r.tally }

/-- A pending store entry of a discarded attempt, with undefined bytes (R120). -/
def StoreEntry.undef (e : StoreEntry) (bs : List Byte) : StoreEntry :=
  let n := 8 * e.data.length
  { e with data := leBytes e.data.length (leVal bs % 2 ^ (n - e.hi) / 2 ^ e.lo * 2 ^ e.lo) }

/-- The pending store entries that a run of bobbin p made become undefined. -/
def State.undefQueue (s : State) (w p : Nat) (gw : BitVec 128) : State :=
  (s.bob w p).storeQ.foldl (fun (t : State) e =>
    if e.gw = gw then
      let (bs, t) := t.freeBytes e.data.length
      t.setBob w p { t.bob w p with storeQ := (t.bob w p).storeQ.map (fun y => if y.id = e.id then y.undef bs else y) }
    else t) s

/-- A replay one rung up on the same bobbin (R119, R121, R128): what the discarded attempt wrote is undefined until the kept
attempt ends (R120). -/
def State.replayRun (s : State) (w p : Nat) (r : Run) : State :=
  let s := (s.undefVas (s.runCtx r) r.outs).undefQueue w p r.b.entry.gw
  let (seed, s) := s.pillowSeed
  let s := ((s.incFld (rWlGuardStat w) 47 32 1).countEv w 0x05 1).countEv w 0x03 1
  let s := s.modJob r.b.job (fun j => { j with widened := true })
  s.putRun w p (r.fresh seed (r.rung + 1) (r.attempt + 1))

/-- The places of an attempt that a layer replay may discard, kept with the layer of its home well (R120, R122). -/
def State.keepOuts (s : State) (r : Run) : State :=
  if r.outs.isEmpty then s
  else
    let x := s.well r.b.home
    s.setWell r.b.home { x with layer := { x.layer with outs := x.layer.outs ++ r.outs } }

/-- The kept attempt leaves its bobbin and waits for its entries and requests (R147, R254). -/
def State.keepRun (s : State) (w p : Nat) (r : Run) : State :=
  let b := s.bob w p
  let l : Leaving :=
    { entry := r.back, job := r.b.job, home := r.b.home, slot := r.b.slot, wrec := r.b.wrec, prick := r.b.prick,
      tmpl := r.b.tmpl, point := r.b.point, lastStore := r.lastStore, reqs := r.reqs }
  ((s.setBob w p { b with run := none, leaving := b.leaving ++ [l] }).keepOuts r).countEv w 0x04 1

/-- Attempts of a layer that exceed a threshold, counted on the well that ran them until the layer's flags are combined
(R122, R128). -/
def State.addHit (s : State) (w : Nat) : State :=
  let x := s.well w
  s.setWell w { x with layer := { x.layer with hits := x.layer.hits + 1 } }

/-- Is an attempt at its last rung (R116): a stitch's own, or in layer scope one that the layer cannot pass? -/
def State.atTop (s : State) (r : Run) : Bool :=
  decide ((if guardScope r.b.guard = 0 then r.b.dlast else min r.b.dlast (s.well r.b.home).layer.last) ≤ r.rung)

/-- END (R254, R118, R121, R122). -/
def execEndOp (w : WellId) (p : PhysId) (s : State) : Res :=
  tStep .end_ w p s (fun r _ =>
    let c := r.endCounts
    let s := (s.readVia w (s.runCtx r) (tmplAddr r.b.tmpl r.idx) 8).countGuard w r.counts c
    let hit := c.over r.b.guard
    let top := s.atTop r
    if hit && !top && guardScope r.b.guard == 0 then .next (s.replayRun w p r)
    else
      let s := if hit && top then s.incFld (rWlGuardStat w) 31 16 1 else s
      let s := if hit && !top then s.addHit w else s
      .next (s.keepRun w p r))

/-- The walk of a completed stitch counts it, and its split point is marked (R298, R323); a record that cannot be read
ends the job (R399). -/
def State.stitchDone (s : State) (l : Leaving) : State :=
  if !s.scratchOk l.home (wrecAt l.slot l.wrec) then s.scratchErr l.job l.home (wrecAt l.slot l.wrec)
  else
  let rec_ := s.wrec l.home l.slot l.wrec
  let s := s.setWrec l.home l.slot l.wrec { rec_ with open_ := rec_.open_ - 1 }
  match s.readPricking (s.ctxOf l.job) l.prick with
  | .error _ => s
  | .ok pk =>
    match pk.splitLevel with
    | none => s
    | some (i, _) =>
      { s with splits := s.splits.map (fun t =>
          if t.job = l.job ∧ t.prick = l.prick ∧ t.point = pk.dropSplit l.point ∧ t.members.contains (l.home, l.wrec)
          then { t with done := l.point.getD i 0 :: t.done } else t) }

/-- STITCH_COMPLETION (R147, R215): the oldest stitch that left this bobbin with everything visible. -/
def execStitchCompletion (w : WellId) (p : PhysId) (s : State) : Res :=
  let b := s.bob w p
  needSome (b.leaving.find? (s.allVisible b)) 147 (fun l =>
    .next ((s.setBob w p { b with leaving := b.leaving.erase l }).stitchDone l))

/-! ### Watchdog -/

/-- BOBBIN_WATCHDOG_EXPIRY (R161, R153): CAUSE 0x4; the bobbin is fenced whatever its stitch's fate (R190). -/
def execBobbinWatchdogExpiry (w : WellId) (p : PhysId) (s : State) : Res :=
  need (s.bobState w p == 0 && decide (p.val < 136)) 161 (
    let i := ((s.bob w p).run.map Run.idx).getD 0
    let s := (s.incFld (rWlBobEcc w) 15 0 1).noteBob w p 4 i 0 p ((s.bob w p).run.map Run.place)
    .next (s.fenceBobbin w p))

end Sys2Proof.Machine
end

