-- ==== Sys2Proof/Machine/Steal.lean ====
section
/-!
DEFINITION. Where stitches run (R313 to R325): taking from a deque, stealing inside a well and across wells, the
admission ramp and the power-up of bobbin groups (R157, R158), the mapping of vacancies (R154) and the bobbin
commands of host software (R164).
-/

namespace Sys2Proof.Machine

/-! ### Takers -/

/-- IN_USE, powered and admitted (R152, R158). -/
def State.mayRun (s : State) (w p : Nat) : Bool :=
  s.bobState w p == 0 && (s.bob w p).powered && (s.bob w p).admitted

/-- A bobbin that may take a stitch now (R315). -/
def State.idleBob (s : State) (w p : Nat) : Bool := s.mayRun w p && (s.bob w p).run.isNone

/-- The job bound to a well runs (R627: no stitch starts in a pre-emption). -/
def State.wellRuns (s : State) (w : Nat) : Bool :=
  match (s.well w).job with
  | none => false
  | some j => (s.job j).elim false (fun x => decide (x.phase = .running))

/-- May physical p run an entry (R316)? -/
def eligible (p : Nat) (e : DeqEntry) : Bool := isBorder p || !sdBorder e.val

/-- Foreign stitches running on a well (R322). -/
def State.foreignRunning (s : State) (w : Nat) : Nat :=
  ((List.range 136).filter (fun p => (s.bob w p).run.elim false (fun r => r.b.entry.foreign))).length

/-- May the well start this entry now (R322)? -/
def State.foreignRoom (s : State) (w : Nat) (e : DeqEntry) : Bool :=
  !e.foreign || decide (s.foreignRunning w < 16)

/-- The vacant deque whose head falls to logical l when stealing is off: l is the next higher number, mod 128, that
is admitted, IN_USE and eligible for that head (R325). -/
def State.vacantFor (s : State) (w l : Nat) : Option Nat :=
  (List.range 128).find? (fun v =>
    s.physOf w v == 0xFF &&
    match s.deque w v with
    | [] => false
    | e :: _ =>
      ((List.range 127).map (fun d => (v + d + 1) % 128)).find? (fun x =>
        s.physOf w x != 0xFF && s.mayRun w (s.physOf w x) && eligible (s.physOf w x) e) == some l)

/-- The deque an idle bobbin of logical l takes the head of: its own, or a vacant one with stealing off. -/
def State.takeFrom (s : State) (w l : Nat) : Option Nat :=
  if !(s.deque w l).isEmpty then some l
  else if s.fld (rWlStealCtl w) 0 0 = 0 then s.vacantFor w l
  else none

/-- STITCH_TAKE (R315). -/
def execStitchTake (w : WellId) (p : PhysId) (s : State) : Res :=
  need (s.idleBob w p && s.wellRuns w) 315 (
    let l := s.logOf w p
    needSome (s.takeFrom w l) 315 (fun v =>
      match s.deque w v with
      | [] => .fault (.notEnabled 315)
      | e :: rest =>
        if s.foreignRoom w e && eligible p e then s.startStitch (s.setDeque w v rest) w p e else s.stalls 322))

/-- Probes of a thief counted on: a sweep of 127 that found nothing ends, and the thief waits for the next placement in its
well or a stitch delivered to it (R316, R317). -/
def State.nextProbe (s : State) (w p : Nat) : State :=
  let b := s.bob w p
  s.setBob w p { b with probes := (b.probes + 1) % 127, swept := decide (126 ≤ b.probes) }

/-- STEAL_PROBE (R316): a thief of logical b probes deque (b + d) mod 128 and takes its tail entry when it may. -/
def execStealProbe (w : WellId) (p : PhysId) (s : State) : Res :=
  let l := s.logOf w p
  need (s.idleBob w p && s.wellRuns w && (s.deque w l).isEmpty && s.fld (rWlStealCtl w) 0 0 == 1) 316 (
    if (s.bob w p).swept then s.stalls 317 else
    let v := (l + (s.bob w p).probes + 1) % 128
    match (s.deque w v).getLast? with
    | none => .next (s.nextProbe w p)
    | some e =>
      if eligible p e && s.foreignRoom w e then
        s.startStitch (((s.setDeque w v (s.deque w v).dropLast).incFld (rWlStealStat w) 63 32 1).countEv w 0x07 1) w p e
      else .next (s.nextProbe w p))

/-! ### Across wells -/

/-- Entries queued on a well (R325). -/
def State.queued (s : State) (w : Nat) : Nat := ((List.range 128).map (fun l => (s.deque w l).length)).sum

/-- Idle bobbins of a well, by logical number (R320). -/
def State.idleLogs (s : State) (w : Nat) : List Nat :=
  (List.range 128).filter (fun l => s.physOf w l != 0xFF && s.idleBob w (s.physOf w l))

/-- The other well of the partition with the most queued entries, lowest rank on a tie (R320). -/
def State.busiest (s : State) (w : Nat) : Option Nat :=
  match (s.well w).job.bind s.job with
  | none => none
  | some j =>
    (j.wells.filter (· != w)).foldl (fun best v => match best with
      | none => some v
      | some b => if s.queued b < s.queued v then some v else some b) none

/-- The victim of a request: the busiest other well, when it holds 32 entries and gives stitches (R320, R333). -/
def State.victim (s : State) (w : Nat) : Option Nat :=
  (s.busiest w).filter (fun v => s.fld (rWlStealCtl v) 1 1 == 1 && decide (32 ≤ s.queued v))

/-- The longest deques of a well first, lowest number on a tie (R321). -/
def State.longest (s : State) (v : Nat) : List Nat :=
  let key (l : Nat) : Nat := (s.deque v l).length
  (List.range 128).foldr (fun l acc =>
    let (a, b) := acc.span (fun x => decide (key l < key x))
    a ++ l :: b) []

/-- One moved entry of at most 16 (R321): the tail of deque l of the victim goes to the first idle eligible bobbin not used yet. -/
def moveOne (w v : Nat) (acc : State × List Nat × Nat) (l : Nat) : State × List Nat × Nat :=
  let (s, idle, n) := acc
  if 16 ≤ n then acc
  else
    match (s.deque v l).getLast? with
    | none => acc
    | some e =>
      if e.foreign || e.begun then acc
      else
        match idle.find? (fun x => eligible (s.physOf w x) e) with
        | none => acc
        | some x =>
          let s := s.setDeque v l (s.deque v l).dropLast
          let s := s.setDeque w x (s.deque w x ++ [{ e with foreign := true }])
          let s := s.setBob w (s.physOf w x) { s.bob w (s.physOf w x) with swept := false }
          let s := (s.incFld (rWlStealStat w) 31 16 1).incFld (rWlStealStat v) 15 0 1
          (s.countEv w 0x08 1, idle.erase x, n + 1)

/-- CROSS_WELL_STEAL_REQUEST (R320 to R322). -/
def execCrossWellStealRequest (w : WellId) (s : State) : Res :=
  need (s.wellRuns w && s.queued w == 0 && decide (16 ≤ (s.idleLogs w).length)
      && s.fld (rWlStealCtl w) 1 1 == 1) 320 (
    match s.victim w with
    | none => .next s
    | some v => .next ((s.longest v).foldl (moveOne w v) (s, s.idleLogs w, 0)).1)

/-! ### Ramps -/

/-- Physical bobbins IN_USE of logical group g. -/
def State.groupBobs (s : State) (w g : Nat) : List Nat :=
  ((List.range 16).map (fun i => s.physOf w (16 * g + i))).filter (fun p => p != 0xFF && s.bobState w p == 0)

/-- BOBBIN_GROUP_POWER_UP (R157): group g at 2g µs after the start of exit from W1. -/
def execBobbinGroupPowerUp (w : WellId) (g : Fin 8) (s : State) : Res :=
  needSome (s.well w).exitAt 157 (fun t =>
    need (decide (t + 2000 * g.val ≤ s.now)) 157
      (.next ((s.groupBobs w g).foldl (fun s p => s.setBob w p { s.bob w p with powered := true }) s)))

/-- BOBBIN_GROUP_ADMISSION (R158): group g no earlier than 8g µs after the ramp start. -/
def execBobbinGroupAdmission (w : WellId) (g : Fin 8) (s : State) : Res :=
  needSome (s.well w).rampAt 158 (fun t =>
    need (decide (t + 8000 * g.val ≤ s.now)) 158
      (.next ((s.groupBobs w g).foldl (fun s p => s.setBob w p { s.bob w p with admitted := true }) s)))

/-! ### Vacancies and bobbin commands -/

/-- The spare for a logical number (R154): the lowest of its kind, and for a regular number the border spare last. -/
def State.spareFor (s : State) (w l : Nat) : Option Nat :=
  let find (a b : Nat) : Option Nat := ((List.range (b - a)).map (· + a)).find? (fun p => s.bobState w p == 1)
  if l < 16 then find 0 17 else (find 17 136).orElse (fun _ => find 0 17)

/-- The first vacant logical number with a spare, and that spare (R154, R165). -/
def State.vacancy (s : State) (w : Nat) : Option (Nat × Nat) :=
  (List.range 128).findSome? (fun l => if s.physOf w l == 0xFF then (s.spareFor w l).map (fun p => (l, p)) else none)

/-- Quiescence of a well, at a pass boundary or in a pre-emption: no stitch queued, running or leaving, no walk, no work of
the cistern units and pumps in flight, and no layer replay pending (R154, R165, R627). -/
def State.wellQuiet (s : State) (w : Nat) : Bool :=
  let x := s.well w
  (List.range 136).all (fun p => (s.bob w p).run.isNone && (s.bob w p).leaving.isEmpty && (s.bob w p).storeQ.isEmpty)
  && s.queued w == 0 && x.walks.isEmpty
  && (List.range 64).all (fun u =>
    let y := s.unit w u
    y.cur.isNone && y.bobQ.isEmpty && y.opQ.isEmpty && y.combQ.isEmpty)
  && (List.range 8).all (fun n => (s.pump w n).flight.isEmpty)
  && x.layer.hits == 0 && x.layer.cuHits == 0 && x.layer.replay.isEmpty

/-- VACANCY_MAPPING (R154). -/
def execVacancyMapping (w : WellId) (s : State) : Res :=
  need (s.wellQuiet w) 154 (
    needSome (s.vacancy w) 154 (fun lp =>
      let b := s.bob w lp.2
      .next (((s.setPhys w lp.1 lp.2).setBobState w lp.2 0).setBob w lp.2
        { b with powered := decide ((s.well w).exitAt.isSome), admitted := false })))

/-- RESULT and BUSY of WL_BOB_CMD (R164). -/
def State.bobResult (s : State) (w busy r phys : Nat) : State :=
  s.setReg (rWlBobCmd w) (setBits (setBits (setBits 0#64 31 31 busy) 30 28 r) 15 8 phys)

/-- BUSY of WL_BOB_CMD: a write with it set is ignored (R164). -/
def State.bobBusy (s : State) (w : Nat) : Bool := s.fld (rWlBobCmd w) 31 31 == 1

/-- WL_BOB_CMD OP 1 (R164, R153). RESULT 3 is judged at the fence, by the spares there are then: the manual does not say
when, nor whether other vacancies wait for the same spare (log entry 103). -/
def State.bobFence (s : State) (w phys : Nat) : State :=
  if s.bobBusy w then s
  else if 136 ≤ phys ∨ s.bobState w phys = 3 then s.bobResult w 0 1 phys
  else
    let used := s.bobState w phys == 0
    let l := s.logOf w phys
    let s := match (s.bob w phys).run with
      | some r => (s.faultRec w phys 6 r.idx (some r.place)).latchBob w phys 6 r.idx 0
      | none => s
    let s := s.fenceBobbin w phys
    s.bobResult w 0 (if used && l != 0xFF && (s.spareFor w l).isNone then 3 else 0) phys

/-- WL_BOB_CMD OP 2 (R164). -/
def State.bobTest (s : State) (w phys : Nat) : State :=
  if s.bobBusy w then s
  else if 136 ≤ phys ∨ s.bobState w phys ≠ 2 then s.bobResult w 0 1 phys
  else (s.setBobState w phys 3).bobResult w 1 0 phys

/-- WL_BOB_CMD OP 3 (R164). -/
def State.bobRelease (s : State) (w phys : Nat) : State :=
  if s.bobBusy w then s
  else if 136 ≤ phys ∨ s.bobState w phys ≠ 2 ∨ !(s.bob w phys).passedTest then s.bobResult w 0 1 phys
  else
    let s := s.setBob w phys { s.bob w phys with listed := false }
    (s.setBobState w phys 1).bobResult w 0 0 phys

/-- BOB_CMD_FENCE. -/
def execBobCmdFence (w : WellId) (phys : Byte) (s : State) : Res := .next (s.bobFence w phys.toNat)
/-- BOB_CMD_TEST. -/
def execBobCmdTest (w : WellId) (phys : Byte) (s : State) : Res := .next (s.bobTest w phys.toNat)
/-- BOB_CMD_RELEASE. -/
def execBobCmdRelease (w : WellId) (phys : Byte) (s : State) : Res := .next (s.bobRelease w phys.toNat)

/-- BOB_TEST_DONE (R164): the bobbin is FENCED again with its result. -/
def execBobTestDone (w : WellId) (pass : Bool) (s : State) : Res :=
  let p := s.fld (rWlBobCmd w) 15 8
  need (s.bobBusy w && s.bobState w p == 3) 164 (
    let s := s.setBob w p { s.bob w p with passedTest := pass }
    .next ((s.setBobState w p 2).bobResult w 0 (if pass then 0 else 2) p))

end Sys2Proof.Machine
end

