-- ==== Sys2Proof/Machine/Control.lean ====
section
/-!
DEFINITION. The well controller (R258 to R264, R277): fetch, exceptions, scalar instructions, loads and stores,
branches.
-/

namespace Sys2Proof.Machine

/-! ### Controllers -/

/-- Register n of a controller; s0 reads as 0 (R258). -/
def CtlCtx.get (c : CtlCtx) (n : Nat) : Word := if n = 0 then 0#64 else tabGet 0#64 c.regs n

/-- Register n written; s0 ignores writes (R258). -/
def CtlCtx.set (c : CtlCtx) (n : Nat) (v : Word) : CtlCtx :=
  if n = 0 then c else { c with regs := tabPut 0#64 c.regs n v }

/-- Instruction-memory word i of well w (R260). -/
def State.imWord (s : State) (w i : Nat) : Word := tabGet 0#64 s.imem (w * 32768 + i)

/-- The controller of well w replaced. -/
def State.setCtl (s : State) (w : Nat) (st : CtlState) (cx : CtlCtx) : State :=
  s.setWell w { s.well w with ctl := st, cx := cx }

/-- Fields of the C-class layouts (R183). -/
def cRd (i : Word) : Nat := bitsOf i 55 51
/-- RS1, or RB of C-K. -/
def cRs1 (i : Word) : Nat := bitsOf i 50 46
/-- RS2 of C-R. -/
def cRs2 (i : Word) : Nat := bitsOf i 45 41
/-- SUB of C-K. -/
def cSub (i : Word) : Nat := bitsOf i 45 40
/-- IMM of C-K. -/
def cImmK (i : Word) : Nat := bitsOf i 39 0
/-- The 46-bit immediate or offset of C-I and C-M, sign-extended. -/
def cImm46 (i : Word) : Word := BitVec.ofInt 64 (signedOf 46 (bitsOf i 45 0))
/-- The 51-bit immediate of C-U, sign-extended. -/
def cImm51 (i : Word) : Word := BitVec.ofInt 64 (signedOf 51 (bitsOf i 50 0))
/-- The branch offset of C-B in instructions. -/
def cOfs (i : Word) : Int := signedOf 16 (bitsOf i 45 30)

/-- C-class instructions, by what they do (R183, R265). -/
inductive CKind where
  | add | sub | and_ | or_ | xor | shl | shr | sra | mul | slt | sltu
  | addi | andi | ori | xori | shli | shri | srai | slti | li | lih
  | lds | sts | ldg | beq | bne | blt | bge | bltu | bgeu | jal | jr
  | walk | enqTo | enqAny | waitWalk | waitEvent | waitPump
  | fenceStore | fenceWell | fencePart | checkpoint
  | collBarrier | collSum | collMax | collMin | pump
  | migPrefetch | migDemote | migPin | migUnpin | halt
deriving DecidableEq, Repr

/-- A C-K word with a SUB and the operands and IMM bits it may use (R265). -/
def ckOk (i : Word) (ra rb : Bool) (immMask : Nat) : Bool :=
  (ra || cRd i == 0) && (rb || cRs1 i == 0) && (cImmK i &&& immMask) == cImmK i

/-- The kind of a C-class word; none for a reserved encoding (R179, R183, R184, R265). -/
def cKind (i : Word) : Option CKind :=
  let r (k : CKind) : Option CKind := if bitsOf i 40 0 = 0 then some k else none
  let b (k : CKind) : Option CKind := if bitsOf i 29 0 = 0 then some k else none
  let ck (c : Bool) (k : CKind) : Option CKind := if c then some k else none
  match opOf i with
  | 0x81 => r .add
  | 0x82 => r .sub
  | 0x83 => r .and_
  | 0x84 => r .or_
  | 0x85 => r .xor
  | 0x86 => r .shl
  | 0x87 => r .shr
  | 0x88 => r .sra
  | 0x89 => r .mul
  | 0x8A => r .slt
  | 0x8B => r .sltu
  | 0x91 => some .addi
  | 0x93 => some .andi
  | 0x94 => some .ori
  | 0x95 => some .xori
  | 0x96 => some .shli
  | 0x97 => some .shri
  | 0x98 => some .srai
  | 0x9A => some .slti
  | 0x9C => some .li
  | 0x9D => if bitsOf i 45 32 = 0 then some .lih else none
  | 0xA0 => some .lds
  | 0xA1 => some .sts
  | 0xA2 => some .ldg
  | 0xB0 => b .beq
  | 0xB1 => b .bne
  | 0xB2 => b .blt
  | 0xB3 => b .bge
  | 0xB4 => b .bltu
  | 0xB5 => b .bgeu
  | 0xB8 => if cRs1 i = 0 then b .jal else none
  | 0xB9 => if bitsOf i 45 0 = 0 then some .jr else none
  | 0xC0 => ck (cSub i == 0 && ckOk i true true 0xFFFF) .walk
  | 0xC1 =>
    match cSub i with
    | 0 => ck (ckOk i true true 0xFFFF) .enqTo
    | 1 => ck (ckOk i true false 0xFFFF) .enqAny
    | _ => none
  | 0xC2 =>
    match cSub i with
    | 0 => ck (ckOk i false false 0x1FFFF) .waitWalk
    | 1 => ck (ckOk i true false 0xFFFF) .waitEvent
    | 2 => ck (ckOk i false false 0x1FFFF) .waitPump
    | _ => none
  | 0xC3 =>
    match cSub i with
    | 0 => ck (ckOk i false false 0) .fenceStore
    | 1 => ck (ckOk i false false 0) .fenceWell
    | 2 => ck (ckOk i false false 0) .fencePart
    | _ => none
  | 0xC4 => ck (cSub i == 0 && ckOk i true true 0) .checkpoint
  | 0xC5 =>
    let ok := ckOk i true true 0xFFFFFF0000 && decide (bitsOf i 34 32 < 5)
    match cSub i with
    | 0 => ck ok .collBarrier
    | 1 => ck ok .collSum
    | 2 => ck ok .collMax
    | 3 => ck ok .collMin
    | _ => none
  | 0xC6 => ck (cSub i == 0 && ckOk i true false 0xFFFF) .pump
  | 0xC7 =>
    let tier := decide (cImmK i = 0 ∨ cImmK i = 1 ∨ cImmK i = 3)
    match cSub i with
    | 0 => ck (ckOk i true true 7 && tier) .migPrefetch
    | 1 => ck (ckOk i true true 7 && tier) .migDemote
    | 2 => ck (ckOk i true true 0) .migPin
    | 3 => ck (ckOk i true true 0) .migUnpin
    | _ => none
  | 0xCF => if bitsOf i 55 0 = 0 then some .halt else none
  | _ => none

/-! ### Exceptions -/

/-- A controller exception (R277): recorded, reported, and under a terminating cause the job ends with its status. -/
def State.ctlExc (s : State) (w cause status detail : Nat) : State :=
  let x := s.well w
  let s := s.latch (rWlCtlExc w) (setBits (setBits (setBits 0#64 51 48 cause) 47 32 x.cx.pc) 31 24 status)
  let s := s.reportSelf w 0x4 (if status = 0 then 0 else 1) 144 detail
  if status = 0 then s
  else
    let s := s.setCtl w .faulted { x.cx with wait := .none }
    match x.job with
    | some j => s.failJob j status (if cause = 1 ∨ cause = 2 ∨ cause = 8 then detail else 0)
    | none => s

/-- An access error of a controller instruction (R277): cause 0x1, or 0x2 for a guarded word; a wait stalls it. -/
def State.ctlErr (s : State) (w : Nat) (e : AccErr) : Res :=
  match e with
  | .stall r => s.stalls r
  | .guard va => .next ((s.noteGuard w 144 va).ctlExc w 2 0x22 va)
  | .tier va l wr =>
    .next ((s.noteTier .ctl w 144 l wr).ctlExc w 1 0x30 va)
  | .trans _ _ va _ => .next ((s.noteTrans (viaQ w (s.partOf w)) w e).ctlExc w 1 e.status va)

/-- Context in which a well's controller translates. -/
def State.ctlCtx (s : State) (w : Nat) : Nat := viaQ w (s.partOf w)

/-- The next instruction index, checked against the program's length: cause 0x4 (R277). The state s is the one
before the instruction, t the one after it. -/
def cGo (s t : State) (w : Nat) (next : Int) : Res :=
  let x := s.well w
  if next < 0 ∨ (x.plen : Int) ≤ next then
    .next (s.ctlExc w 4 0x7F (x.cx.pc + (next % 65536).toNat * 65536))
  else
    let y := t.well w
    .next ((t.setCtl w .running { y.cx with pc := next.toNat, wait := .none }).countEv w 0x19 1)

/-- The address of the next instruction in order. -/
def State.pcNext (s : State) (w : Nat) : Int := (s.well w).cx.pc + 1

/-- An uncorrectable instruction word (R277, cause 0x3): reloaded from the program image; the instruction runs
again. The program's pages are read-only while the job runs, so the word reads as before. -/
def State.imemReload (s : State) (w : Nat) : State :=
  (s.incFld (rWlCtlEcc w) 31 16 1).ctlExc w 3 0 (s.well w).cx.pc

/-- One C-class step: the running controller's instruction must be of the commanded kind; a reserved encoding met
instead is cause 0x5. A controller with a translation miss outstanding stalls (R441). -/
def cStep (kind : CKind) (w : WellId) (ev : EccEv) (s : State) (k : State → CtlCtx → Word → Res) : Res :=
  let x := s.well w
  need (decide (x.ctl = .running)) 261 (
    if s.missing w 144 then s.stalls 441 else
    let i := s.imWord w x.cx.pc
    match ev with
    | .uncorrectable => .next (s.imemReload w)
    | _ =>
      let s := if ev = .corrected then s.incFld (rWlCtlEcc w) 63 32 1 else s
      match cKind i with
      | none => .next (s.ctlExc w 5 0x7F (x.cx.pc + opOf i * 65536))
      | some kd => need (decide (kd = kind)) 261 (k s x.cx i))

/-! ### Scalar instructions (R262) -/

/-- An instruction that writes RD and goes on. -/
def cWrite (kind : CKind) (w : WellId) (ev : EccEv) (s : State) (f : CtlCtx → Word → Word) : Res :=
  cStep kind w ev s (fun s c i => cGo s (s.setCtl w .running (c.set (cRd i) (f c i))) w (s.pcNext w))

/-- RD := f RS1 RS2. -/
def cR (kind : CKind) (f : Word → Word → Word) (w : WellId) (ev : EccEv) (s : State) : Res :=
  cWrite kind w ev s (fun c i => f (c.get (cRs1 i)) (c.get (cRs2 i)))

/-- RD := f RS1 IMM. -/
def cI (kind : CKind) (f : Word → Word → Word) (w : WellId) (ev : EccEv) (s : State) : Res :=
  cWrite kind w ev s (fun c i => f (c.get (cRs1 i)) (cImm46 i))

/-- Shift amount: the low 6 bits (R262). -/
def shamt (v : Word) : Nat := v.toNat % 64

/-- 1 or 0 as a word. -/
def flagWord (b : Bool) : Word := if b then 1#64 else 0#64

/-- ADD. -/
def execAddOp (w : WellId) (ev : EccEv) (s : State) : Res := cR .add (· + ·) w ev s
/-- SUB. -/
def execSubOp (w : WellId) (ev : EccEv) (s : State) : Res := cR .sub (· - ·) w ev s
/-- AND. -/
def execAndOp (w : WellId) (ev : EccEv) (s : State) : Res := cR .and_ (· &&& ·) w ev s
/-- OR. -/
def execOrOp (w : WellId) (ev : EccEv) (s : State) : Res := cR .or_ (· ||| ·) w ev s
/-- XOR. -/
def execXor (w : WellId) (ev : EccEv) (s : State) : Res := cR .xor (· ^^^ ·) w ev s
/-- SHL. -/
def execShl (w : WellId) (ev : EccEv) (s : State) : Res := cR .shl (fun a b => a <<< shamt b) w ev s
/-- SHR. -/
def execShr (w : WellId) (ev : EccEv) (s : State) : Res := cR .shr (fun a b => a >>> shamt b) w ev s
/-- SRA. -/
def execSra (w : WellId) (ev : EccEv) (s : State) : Res := cR .sra (fun a b => a.sshiftRight (shamt b)) w ev s
/-- MUL. -/
def execMul (w : WellId) (ev : EccEv) (s : State) : Res := cR .mul (· * ·) w ev s
/-- SLT. -/
def execSlt (w : WellId) (ev : EccEv) (s : State) : Res := cR .slt (fun a b => flagWord (a.slt b)) w ev s
/-- SLTU. -/
def execSltu (w : WellId) (ev : EccEv) (s : State) : Res := cR .sltu (fun a b => flagWord (a.ult b)) w ev s
/-- ADDI. -/
def execAddi (w : WellId) (ev : EccEv) (s : State) : Res := cI .addi (· + ·) w ev s
/-- ANDI. -/
def execAndi (w : WellId) (ev : EccEv) (s : State) : Res := cI .andi (· &&& ·) w ev s
/-- ORI. -/
def execOri (w : WellId) (ev : EccEv) (s : State) : Res := cI .ori (· ||| ·) w ev s
/-- XORI. -/
def execXori (w : WellId) (ev : EccEv) (s : State) : Res := cI .xori (· ^^^ ·) w ev s
/-- SHLI. -/
def execShli (w : WellId) (ev : EccEv) (s : State) : Res := cI .shli (fun a b => a <<< shamt b) w ev s
/-- SHRI. -/
def execShri (w : WellId) (ev : EccEv) (s : State) : Res := cI .shri (fun a b => a >>> shamt b) w ev s
/-- SRAI. -/
def execSrai (w : WellId) (ev : EccEv) (s : State) : Res := cI .srai (fun a b => a.sshiftRight (shamt b)) w ev s
/-- SLTI. -/
def execSlti (w : WellId) (ev : EccEv) (s : State) : Res := cI .slti (fun a b => flagWord (a.slt b)) w ev s
/-- LI. -/
def execLi (w : WellId) (ev : EccEv) (s : State) : Res := cWrite .li w ev s (fun _ i => cImm51 i)
/-- LIH: IMM[31:0] above the low half of RS1 (R183). -/
def execLih (w : WellId) (ev : EccEv) (s : State) : Res :=
  cWrite .lih w ev s (fun c i => BitVec.ofNat 64 (bitsOf i 31 0 * 2 ^ 32 + bitsOf (c.get (cRs1 i)) 31 0))

/-! ### Loads and stores (R263) -/

/-- Effective address of a C-M instruction. -/
def cAddr (c : CtlCtx) (i : Word) : Nat := (c.get (cRs1 i) + cImm46 i).toNat

/-- LDS. -/
def execLds (w : WellId) (ev : EccEv) (s : State) : Res :=
  cStep .lds w ev s (fun s c i =>
    let a := cAddr c i
    if a % 8 ≠ 0 then .next (s.ctlExc w 8 0x20 a)
    else
      match s.readWord (s.ctlCtx w) a with
      | .error e => s.ctlErr w e
      | .ok v => cGo s ((s.readVia w (s.ctlCtx w) a 8).setCtl w .running (c.set (cRd i) v)) w (s.pcNext w))

/-- STS. -/
def execSts (w : WellId) (ev : EccEv) (s : State) : Res :=
  cStep .sts w ev s (fun s c i =>
    let a := cAddr c i
    if a % 8 ≠ 0 then .next (s.ctlExc w 8 0x20 a)
    else
      match s.writeVa (s.ctlCtx w) a (leBytes 8 (c.get (cRd i)).toNat) with
      | .error e => s.ctlErr w e
      | .ok t => cGo s (t.wroteVia w (s.ctlCtx w) a 8) w (s.pcNext w))

/-- LDG: a 16-byte guarded word, checked (R38). -/
def execLdg (w : WellId) (ev : EccEv) (s : State) : Res :=
  cStep .ldg w ev s (fun s c i =>
    let a := cAddr c i
    if a % 16 ≠ 0 then .next (s.ctlExc w 8 0x20 a)
    else
      match s.readGuard64 (s.ctlCtx w) a with
      | .error e => s.ctlErr w e
      | .ok v => cGo s ((s.readVia w (s.ctlCtx w) a 16).setCtl w .running (c.set (cRd i) v)) w (s.pcNext w))

/-! ### Branches and jumps (R262) -/

/-- A conditional branch: RS1 in [55:51], RS2 in [50:46]. -/
def cB (kind : CKind) (f : Word → Word → Bool) (w : WellId) (ev : EccEv) (s : State) : Res :=
  cStep kind w ev s (fun s c i =>
    cGo s s w (if f (c.get (cRd i)) (c.get (cRs1 i)) then (c.pc : Int) + cOfs i else s.pcNext w))

/-- BEQ. -/
def execBeq (w : WellId) (ev : EccEv) (s : State) : Res := cB .beq (fun a b => a == b) w ev s
/-- BNE. -/
def execBne (w : WellId) (ev : EccEv) (s : State) : Res := cB .bne (fun a b => a != b) w ev s
/-- BLT. -/
def execBlt (w : WellId) (ev : EccEv) (s : State) : Res := cB .blt (fun a b => a.slt b) w ev s
/-- BGE. -/
def execBge (w : WellId) (ev : EccEv) (s : State) : Res := cB .bge (fun a b => !a.slt b) w ev s
/-- BLTU. -/
def execBltu (w : WellId) (ev : EccEv) (s : State) : Res := cB .bltu (fun a b => a.ult b) w ev s
/-- BGEU. -/
def execBgeu (w : WellId) (ev : EccEv) (s : State) : Res := cB .bgeu (fun a b => !a.ult b) w ev s
/-- JAL: the index of the next instruction to RD. -/
def execJal (w : WellId) (ev : EccEv) (s : State) : Res :=
  cStep .jal w ev s (fun s c i =>
    cGo s (s.setCtl w .running (c.set (cRd i) (BitVec.ofNat 64 (c.pc + 1)))) w ((c.pc : Int) + cOfs i))
/-- JR: to the index held in RS1, which the layout keeps in [55:51]. -/
def execJr (w : WellId) (ev : EccEv) (s : State) : Res :=
  cStep .jr w ev s (fun s c i => cGo s s w ((c.get (cRd i)).toNat : Int))

end Sys2Proof.Machine
end

