-- ==== Sys2Proof/Machine/Walk.lean ====
section
/-!
DEFINITION. Walks, enqueued stitches, waits and the walker (R266 to R268, R288 to R298, R309 to R314), and the
layer a well is in (R286).
-/

namespace Sys2Proof.Machine

/-! ### Placement -/

/-- A well in W1 leaves it at the next placement (R704, R157); its idle time ends, and an entry into W1 that it asked for. -/
def State.leaveW1 (s : State) (w : Nat) : State :=
  let s := { s with pw := { s.pw with idleAt := tabPut none s.pw.idleAt w none, w1Req := tabPut none s.pw.w1Req w none } }
  if s.fld rPmState (3 * w + 2) (3 * w) = 1 then
    (s.setFld rPmState (3 * w + 2) (3 * w) 0).setWell w { s.well w with exitAt := some s.now }
  else s

/-- The next deque of the placement rule (R314). -/
def State.nextDeque (s : State) (w : Nat) (border : Bool) : Option Nat :=
  let n := if border then 16 else 128
  let p := if border then (s.well w).placeBorder else (s.well w).place
  ((List.range n).map (fun i => (p + i) % n)).find? (fun l =>
    s.physOf w l != 0xFF && decide ((s.deque w l).length < 64))

/-- The pointer advanced past a deque used (R314). -/
def State.movePlace (s : State) (w : Nat) (border : Bool) (l : Nat) : State :=
  let x := s.well w
  s.setWell w (if border then { x with placeBorder := (l + 1) % 16 } else { x with place := (l + 1) % 128 })

/-- A placement ends the wait of the well's thieves (R317). -/
def State.wakeThieves (s : State) (w : Nat) : State :=
  { s with bobs := tabMap {} (fun k b => if k / 136 = w then { b with swept := false } else b) s.bobs }

/-- An entry placed at the tail of a deque (R313) and counted in its walk. -/
def State.placeOn (s : State) (w k l : Nat) (d : Word) : State :=
  let s := ((s.leaveW1 w).wakeThieves w).setDeque w l (s.deque w l ++ [{ gw := guard64 d }])
  let r := s.wrec w k (sdWrec d)
  s.setWrec w k (sdWrec d) { r with open_ := r.open_ + 1 }

/-- The split point of a stitch noted with the walk that placed it (R298). -/
def State.trackSplit (s : State) (w : Nat) (job : Nat) (wr : WalkRec) (wrec : Nat) (pk : Pricking) (P : Nat)
    (point : List Nat) : State :=
  match pk.splitLevel with
  | none => s
  | some (_, l) =>
    let home := if l.dist = 0 then some w else none
    let pt := pk.dropSplit point
    let same (t : SplitTrack) : Bool :=
      t.job == job && t.prick == wr.prick && t.arg == wr.arg && t.tag == wr.tag && t.home == home && t.point == pt
    if s.splits.any same then
      { s with splits := s.splits.map (fun t =>
          if same t && !t.members.contains (w, wrec) then { t with members := (w, wrec) :: t.members } else t) }
    else
      { s with splits := s.splits ++
          [{ job := job, prick := wr.prick, arg := wr.arg, tag := wr.tag, home := home, point := pt,
             need := l.splits P, members := [(w, wrec)] }] }

/-! ### WALK -/

/-- The job of a well with its number. -/
def State.wellJob (s : State) (w : Nat) : Option (Nat × Job) :=
  (s.well w).job.bind (fun j => (s.job j).map (fun x => (j, x)))

/-- Rank of well w in a job's partition. -/
def Job.rank (j : Job) (w : Nat) : Nat := j.wells.idxOf w

/-- The walker accepts a WALK with tag t (R266, R309). -/
def State.walkReady (s : State) (w k t : Nat) : Bool :=
  !(s.wrec w k (t % 64)).live && decide ((s.well w).walks.length < 4)

/-- The part joins the layer of its well, or differs from the layer's guard entry (R286). -/
def Layer.join (l : Layer) (g : Word) (last : Nat) (i : LayerItem) : Option Layer :=
  match l.guard with
  | none => some { l with guard := some g, items := l.items ++ [i], last := min l.last last }
  | some h => if h = g then some { l with items := l.items ++ [i], last := min l.last last } else none

/-- A job ended by its walker or controller outside the exception table: reported by unit u of well w (R286, R293,
R301, R311). -/
def State.endByWalker (s : State) (w u cls job status addr detail : Nat) : State :=
  (s.reportSelf w cls 1 u detail).failJob job status addr

/-- A live walk record and its walk (R309). -/
def State.startWalk (s : State) (w k job prick arg tag rank : Nat) : State :=
  let s := s.setWrec w k (tag % 64) { live := true, job := job, prick := prick, arg := arg, tag := tag, rank := rank }
  s.setWell w { s.well w with walks := (s.well w).walks ++ [{ slot := k, wrec := tag % 64 }] }

/-- d_last that a pricking brings to its layer: its own, and the room of a two-level DREG its combines write
(R116). -/
def State.layerLast (s : State) (ctx : Nat) (pk : Pricking) : Except AccErr Nat := do
  let n ← s.dLast ctx pk
  match pk.splitLevel with
  | none => pure n
  | some (_, l) =>
    match pk.binds[l.dreg]? with
    | none => pure n
    | some b => do
      let d ← s.readDesc ctx b.desc
      pure (if d.fmt.twoLevel then min n (min d.fmt.room (guardMax pk.guard)) else n)

/-- An accepted WALK (R266, R286, R293, R301). -/
def State.walkAccept (s : State) (w job k : Nat) (x : Job) (prick arg tag : Nat) : Res :=
  if !x.pricks.contains prick then .next (s.endByWalker w 145 0xD job 0x7F 0 prick)
  else
    match s.readPricking (viaQ w (s.ctxOf job)) prick with
    | .error e => s.ctlErr w e
    | .ok pk =>
      match s.layerLast (viaQ w (s.ctxOf job)) pk with
      | .error e => s.ctlErr w e
      | .ok last =>
        match (s.well w).layer.join pk.guard last (.walk prick arg tag) with
        | none => .next (s.endByWalker w 145 0xF job 0x7F 0 prick)
        | some l =>
          if pk.argmax < arg then .next (s.endByWalker w 145 0xF job 0x20 prick prick)
          else
            cGo s ((s.startWalk w k job prick arg tag (x.rank w)).setWell w
              { (s.startWalk w k job prick arg tag (x.rank w)).well w with layer := l }) w (s.pcNext w)

/-- WALK with its fields. -/
def State.doWalk (s : State) (w : Nat) (c : CtlCtx) (i : Word) : Res :=
  needSome (s.wellJob w) 266 (fun jx =>
    s.walkAccept w jx.1 (s.slotOf jx.1 w) jx.2 (c.get (cRd i)).toNat (c.get (cRs1 i)).toNat (bitsOf i 15 0))

/-- The controller stalls. -/
def State.stallCtl (s : State) (w : Nat) (wt : CtlWait) : State :=
  let x := s.well w
  s.setCtl w .stalled { x.cx with wait := wt }

/-- Slot of the well's job. -/
def State.wellSlot (s : State) (w : Nat) : Nat := ((s.well w).job.map (fun j => s.slotOf j w)).getD 0

/-- The controller of well w reads byte a of its device scratch for its job (R399). -/
def State.ctlScratch (s : State) (w a : Nat) (r : Res) : Res :=
  match (s.well w).job with
  | some j => s.scratch j w a r
  | none => r

/-- WALK_START (R266, R309). -/
def execWalkStart (w : WellId) (ev : EccEv) (s : State) : Res :=
  cStep .walk w ev s (fun s c i =>
    s.ctlScratch w (wrecAt (s.wellSlot w) (bitsOf i 15 0 % 64)) (
      if s.walkReady w (s.wellSlot w) (bitsOf i 15 0) then s.doWalk w c i
      else .next (s.stallCtl w (.walkAccept s.now))))

/-- WALK_RECORD_STALL_TIMEOUT (R310): of a controller that stalls, in a job that runs (R278). -/
def execWalkRecordStallTimeout (w : WellId) (s : State) : Res :=
  let x := s.well w
  let tag := bitsOf (s.imWord w x.cx.pc) 15 0
  match x.cx.wait with
  | .walkAccept since =>
    need (decide (x.ctl = .stalled ∧ since + s.evtLimit w < s.now) && s.wellRuns w
        && (s.wrec w (s.wellSlot w) (tag % 64)).live) 310 (
      needSome x.job 310 (fun j => .next (s.endByWalker w 145 0x5 j 0x7F 0 tag)))
  | _ => .fault (.notEnabled 310)

/-! ### ENQ -/

/-- Does ENQ accept a descriptor (R311)? -/
def State.enqOk (s : State) (w k tag job : Nat) (d : Word) (P : Nat) : Except AccErr (Option Pricking) := do
  let r := s.wrec w k (tag % 64)
  if sdWrec d = tag % 64 ∧ r.live ∧ r.tag = tag ∧ sdHome d = w then do
    let pk ← s.readPricking (viaQ w (s.ctxOf job)) r.prick
    pure (if sdPoint d < pk.points P then some pk else none)
  else pure none

/-- The deque of an ENQ: the named one, or the placement rule's for ANY and for a vacant number (R267); the flag
says that the placement rule chose it. -/
def State.enqDeque (s : State) (w : Nat) (named : Option Nat) (border : Bool) : Option (Nat × Bool) :=
  match named with
  | some l =>
    if s.physOf w l = 0xFF then (s.nextDeque w border).map (fun x => (x, true))
    else if (s.deque w l).length < 64 then some (l, false) else none
  | none => (s.nextDeque w border).map (fun x => (x, true))

/-- An accepted stitch of ENQ put on its deque and counted in its walk (R267). -/
def State.enqPlace (s : State) (w job k tag P : Nat) (pk : Pricking) (d : Word) (lc : Nat × Bool) : State :=
  let t := if lc.2 then s.movePlace w (sdBorder d) lc.1 else s
  let t := t.trackSplit w job (t.wrec w k (tag % 64)) (tag % 64) pk P
    (pointOf (pk.levels.map (Level.radix · P)) (sdPoint d))
  t.placeOn w k lc.1 d

/-- A part more in the layer of a well (R286). -/
def State.addItem (s : State) (w : Nat) (i : LayerItem) : State :=
  let x := s.well w
  s.setWell w { x with layer := { x.layer with items := x.layer.items ++ [i] } }

/-- ENQ: checked, then placed or stalled (R267, R311); the stitch is one of its layer's (R122). The manual gives no check of
the descriptor's alignment: the 16 bytes at the address are read as they lie (log entry 104). -/
def State.doEnq (s : State) (w : Nat) (c : CtlCtx) (i : Word) (any : Bool) : Res :=
  needSome (s.wellJob w) 267 (fun jx =>
    let addr := (c.get (cRd i)).toNat
    let k := s.slotOf jx.1 w
    let tag := bitsOf i 15 0
    let P := jx.2.wells.length
    let named := if any then none else some ((c.get (cRs1 i)).toNat % 128)
    match s.readGuard64 (s.ctlCtx w) addr with
    | .error e => s.ctlErr w e
    | .ok d => s.scratch jx.1 w (wrecAt k (tag % 64)) (
      match s.enqOk w k tag jx.1 d P with
      | .error e => s.ctlErr w e
      | .ok none => .next (s.endByWalker w 144 0xF jx.1 0x7F 0 addr)
      | .ok (some pk) =>
        match s.enqDeque w named (sdBorder d) with
        | none => .next (s.stallCtl w .enqAccept)
        | some lc =>
          cGo s ((s.addItem w (.enq d named tag)).enqPlace w jx.1 k tag P pk d lc) w (s.pcNext w)))

/-- ENQ_TO. -/
def execEnqTo (w : WellId) (ev : EccEv) (s : State) : Res := cStep .enqTo w ev s (fun s c i => s.doEnq w c i false)
/-- ENQ_ANY. -/
def execEnqAny (w : WellId) (ev : EccEv) (s : State) : Res := cStep .enqAny w ev s (fun s c i => s.doEnq w c i true)

/-! ### Waits -/

/-- Every stitch and combine of record r of slot k on well w is complete, and the walker has placed it all
(R265, R298). -/
def State.walkDone (s : State) (w k r : Nat) : Bool :=
  !((s.well w).walks.any (fun x => x.slot == k && x.wrec == r))
  && (s.wrec w k r).open_ == 0
  && !(s.splits.any (fun t => t.members.contains (w, r) && (s.well w).job == some t.job))

/-- Is the walk with this tag complete? A tag that names no live record has nothing outstanding. -/
def State.tagDone (s : State) (w k tag : Nat) : Bool :=
  let r := s.wrec w k (tag % 64)
  !r.live || r.tag != tag || s.walkDone w k (tag % 64)

/-- All walks of a well are complete. -/
def State.walksDone (s : State) (w k : Nat) : Bool :=
  (List.range 64).all (fun r => !(s.wrec w k r).live || s.walkDone w k r) && (s.well w).layer.replay.isEmpty

/-- A record observed complete is no longer live (R309). -/
def State.freeRec (s : State) (w k r : Nat) : State := s.setWrec w k r {}

/-- WAIT WALK observed (R309). -/
def State.sawWalk (s : State) (w k : Nat) (all : Bool) (tag : Nat) : State :=
  if all then (List.range 64).foldl (fun t r => if (t.wrec w k r).live then t.freeRec w k r else t) s
  else if (s.wrec w k (tag % 64)).tag = tag then s.freeRec w k (tag % 64) else s

/-- The condition of WAIT WALK. -/
def State.waitWalkOk (s : State) (w k : Nat) (all : Bool) (tag : Nat) : Bool :=
  if all then s.walksDone w k else s.tagDone w k tag

/-- WAIT_WALK (R265). -/
def execWaitWalk (w : WellId) (ev : EccEv) (s : State) : Res :=
  cStep .waitWalk w ev s (fun s _ i =>
    let k := s.wellSlot w
    let all := bitOf i 16
    let tag := bitsOf i 15 0
    if s.waitWalkOk w k all tag then cGo s (s.sawWalk w k all tag) w (s.pcNext w)
    else .next (s.stallCtl w (.walk all tag)))

/-- WAIT_EVENT (R268). -/
def execWaitEvent (w : WellId) (ev : EccEv) (s : State) : Res :=
  cStep .waitEvent w ev s (fun s c i =>
    let e := bitsOf i 15 0
    let n := (c.get (cRd i)).toNat
    s.ctlScratch w (eventAt (s.wellSlot w) e) (
      if n ≤ s.event w (s.wellSlot w) e then cGo s s w (s.pcNext w)
      else .next (s.stallCtl w (.event e n s.now))))

/-- WAIT_EVENT_LIMIT_EXPIRY (R268): of a controller that stalls below its count, in a job that runs: pre-emption governs
(R278, R282). -/
def execWaitEventLimitExpiry (w : WellId) (s : State) : Res :=
  let x := s.well w
  match x.cx.wait with
  | .event e n since =>
    need (decide (x.ctl = .stalled ∧ since + s.evtLimit w < s.now ∧ s.event w (s.wellSlot w) e < n) && s.wellRuns w) 268 (.next (s.ctlExc w 6 0x7F (x.cx.pc + e * 65536)))
  | _ => .fault (.notEnabled 268)

/-- Suspended records of slot k on well w. -/
def State.suspended (s : State) (w k : Nat) : List Pump := tabGet [] s.susp (w * 64 + k)

/-- No transfer of the well's job is under way (with this tag, unless all). -/
def State.pumpsDone (s : State) (w : Nat) (all : Bool) (tag : Nat) : Bool :=
  let mine (p : Pump) : Bool := p.state != 0 && (s.well w).job == some p.job && (all || p.tag == tag)
  !((List.range 8).any (fun n => mine (s.pump w n))) && !((s.suspended w (s.wellSlot w)).any mine)

/-- WAIT_PUMP (R265). -/
def execWaitPump (w : WellId) (ev : EccEv) (s : State) : Res :=
  cStep .waitPump w ev s (fun s _ i =>
    if s.pumpsDone w (bitOf i 16) (bitsOf i 15 0) then cGo s s w (s.pcNext w)
    else .next (s.stallCtl w (.pump (bitOf i 16) (bitsOf i 15 0))))

/-- FENCE_STORE (R264): every older STS is visible, since an STS writes its bytes when it runs. -/
def execFenceStore (w : WellId) (ev : EccEv) (s : State) : Res :=
  cStep .fenceStore w ev s (fun s _ _ => cGo s s w (s.pcNext w))

/-- FENCE WELL holds on a well (R265). -/
def State.wellDone (s : State) (w : Nat) : Bool := s.walksDone w (s.wellSlot w) && s.pumpsDone w true 0

/-- FENCE_WELL (R265). -/
def execFenceWell (w : WellId) (ev : EccEv) (s : State) : Res :=
  cStep .fenceWell w ev s (fun s _ _ =>
    if s.wellDone w then cGo s (s.sawWalk w (s.wellSlot w) true 0) w (s.pcNext w)
    else .next (s.stallCtl w .fenceWell))

/-! ### The end of a program -/

/-- A layer needs its combination before the fence, checkpoint or HALT that ends it: layer scope, a count above its
threshold, a replay in progress, or a layer above its starting rung (R122, R123, R129). -/
def State.layerNeed (s : State) (w : Nat) : Bool :=
  let l := (s.well w).layer
  let rung := (((s.well w).job.bind s.job).map Job.layerRung).getD 0
  decide (0 < l.hits + l.cuHits) || !l.replay.isEmpty || (!l.items.isEmpty && ((l.guard.elim false (fun g => guardScope g == 1)) || rung != 0))

/-- No well of a job needs a layer combination. -/
def State.layersSettled (s : State) (j : Nat) : Bool :=
  match s.job j with
  | none => true
  | some x => x.wells.all (fun v => !s.layerNeed v)

/-- The well's program has ended (R274); when every well's has, so has the job: OK or OK_WIDENED (R127). -/
def State.haltWell (s : State) (w : Nat) : State :=
  let x := s.well w
  let s := (s.setCtl w .halted { x.cx with wait := .none }).countEv w 0x19 1
  match x.job with
  | none => s
  | some j =>
    match s.job j with
    | none => s
    | some jb =>
      if jb.wells.all (fun v => decide ((s.well v).ctl = .halted)) && jb.status.isNone then
        s.modJob j (fun y => { y with status := some (if y.widened then 1 else 0), phase := .stopping })
      else s

/-- HALT may end the program: FENCE WELL holds and no layer waits for its combination. -/
def State.haltOk (s : State) (w : Nat) : Bool :=
  s.wellDone w && ((s.well w).job.elim true s.layersSettled)

/-- HALT (R274). -/
def execHalt (w : WellId) (ev : EccEv) (s : State) : Res :=
  cStep .halt w ev s (fun s _ _ =>
    if s.haltOk w then .next (s.haltWell w) else .next (s.stallCtl w .halt))

/-! ### The walker (R288 to R294) -/

/-- The walker's search steps in one command. -/
def visitFuel : Nat := 1024

/-- An access error met by the walker (R291, R266): the walk places no further stitch and the job ends. -/
def State.walkerErr (s : State) (w job : Nat) (e : AccErr) : Res :=
  match e with
  | .stall r => s.stalls r
  | .guard va => .next ((s.noteGuard w 145 va).failJob job 0x22 va)
  | .tier va l wr =>
    .next ((s.noteTier .walker w 145 l wr).failJob job 0x30 va)
  | .trans _ _ va _ => .next ((s.noteTrans (viaQ w (s.ctxOf job)) w e).failJob job e.status va)

/-- The head walk of a well replaced, or dropped when complete. -/
def State.setHeadWalk (s : State) (w : Nat) (x : Option Walk) : State :=
  let y := s.well w
  s.setWell w { y with walks := x.toList ++ y.walks.drop 1 }

/-- The walker places the stitch of a point it has reached, or stalls while every eligible deque is full (R292, R314). -/
def State.placePoint (s : State) (w job : Nat) (x : Job) (pk : Pricking) (wk : Walk) (pos : List (Nat × Nat)) : Res :=
  match s.nextDeque w pk.border with
  | none => s.stalls 314
  | some l =>
    let P := x.wells.length
    let point := pos.map Prod.snd
    let d := mkStitch wk.wrec w pk.border (pointIndex (pk.levels.map (Level.radix · P)) point)
    let t := (s.movePlace w pk.border l).trackSplit w job (s.wrec w wk.slot wk.wrec) wk.wrec pk P point
    .next (((t.placeOn w wk.slot l d).setHeadWalk w (some { wk with pos := pos, back := true })).countEv w 0x1A 1)

/-- One step of the walker's head walk. -/
def State.walkStep (s : State) (w job : Nat) (x : Job) (wk : Walk) : Res :=
  let r := s.wrec w wk.slot wk.wrec
  match s.readPricking (viaQ w (s.ctxOf job)) r.prick with
  | .error e => s.walkerErr w job e
  | .ok pk =>
    match s.visit (viaQ w (s.ctxOf job)) pk r.arg r.rank x.wells.length visitFuel wk.back wk.pos with
    | .fail e => s.walkerErr w job e
    | .done => .next (s.setHeadWalk w none)
    | .more pos back => .next (s.setHeadWalk w (some { wk with pos := pos, back := back }))
    | .point pos => s.placePoint w job x pk wk pos

/-- No walk, stitch, combine or guarded operation of the well's layer is under way. -/
def State.layerIdle (s : State) (w : Nat) : Bool :=
  let k := s.wellSlot w
  (s.well w).walks.isEmpty
  && (List.range 64).all (fun r => (s.wrec w k r).open_ == 0)
  && !(s.splits.any (fun t => (s.well w).job == some t.job))
  && !(s.ops.any (fun o => o.2.well == w && (s.well w).job == some o.2.job))

/-- The first part of a layer replay has begun (R122). -/
def State.dropReplay (s : State) (w : Nat) : State :=
  let y := s.well w
  s.setWell w { y with layer := { y.layer with replay := y.layer.replay.drop 1 } }

/-- An enqueued stitch of a layer replay is placed as its ENQ placed it (R122, R267). -/
def State.replayEnq (s : State) (w job : Nat) (x : Job) (d : Word) (named : Option Nat) (tag : Nat) : Res :=
  let k := s.slotOf job w
  match s.readPricking (viaQ w (s.ctxOf job)) (s.wrec w k (tag % 64)).prick with
  | .error e => s.walkerErr w job e
  | .ok pk =>
    match s.enqDeque w named (sdBorder d) with
    | none => s.stalls 267
    | some lc => .next ((s.enqPlace w job k tag x.wells.length pk d lc).dropReplay w)

/-- The walker begins the next walk or places the next enqueued stitch of a layer replay, in the layer's order (R122). -/
def State.replayWalk (s : State) (w job : Nat) (x : Job) : Res :=
  match (s.well w).layer.replay with
  | .walk prick arg tag :: _ =>
    if s.layerIdle w then .next ((s.startWalk w (s.slotOf job w) job prick arg tag (x.rank w)).dropReplay w)
    else s.stalls 122
  | .enq d named tag :: _ => if s.layerIdle w then s.replayEnq w job x d named tag else s.stalls 122
  | _ => .fault (.notEnabled 292)

/-- WALKER_PLACE_STITCH (R292). -/
def execWalkerPlaceStitch (w : WellId) (s : State) : Res :=
  needSome (s.wellJob w) 292 (fun jx =>
    need (decide (jx.2.phase = .running)) 292 (
      if s.missing w 145 then s.stalls 441 else
      match (s.well w).walks with
      | wk :: _ => s.scratch jx.1 w (wrecAt wk.slot wk.wrec) (s.walkStep w jx.1 jx.2 wk)
      | [] => s.replayWalk w jx.1 jx.2))

/-! ### Split combines (R298, R326, R327) -/

/-- The well that runs the combine of a split point (R327). -/
def SplitTrack.runner (t : SplitTrack) (x : Job) (pk : Pricking) : Nat :=
  match t.home with
  | some w => w
  | none =>
    let P := x.wells.length
    let radices := pk.levels.map (Level.radix · P)
    let rs := match pk.splitLevel with
      | some (i, _) => radices.eraseIdx i
      | none => radices
    x.wells.getD (pointIndex rs t.point % P) 0

/-- Rank of the well that ran split index i (R289). -/
def Level.ownerRank (l : Level) (P i rank : Nat) : Nat :=
  let S := l.splits P
  match l.dist with
  | 1 => ((List.range P).find? (fun q => q * S / P ≤ i ∧ i < (q + 1) * S / P)).getD 0
  | 2 => i % P
  | _ => rank

/-- Rectangles that a template's STTs store through a register: row offset, K offset, rows, elements. -/
def State.sttRects (s : State) (ctx tmpl reg : Nat) : Nat → Nat → Except AccErr (List (Nat × Nat × Nat × Nat))
  | 0, _ => .ok []
  | fuel + 1, i => do
    let w ← s.readWord ctx (tmplAddr tmpl i)
    let rest ← s.sttRects ctx tmpl reg fuel (i + 1)
    if tKind w = some .stt ∧ bitsOf w 51 49 = reg then
      pure ((bitsOf w 22 13, 32 * bitsOf w 12 0, bitsOf w 40 32 + 1, 32 * (bitsOf w 31 23 + 1)) :: rest)
    else pure rest

/-- The combine of a split point (R298, R326). -/
def State.combOf (s : State) (ctx : Nat) (t : SplitTrack) (x : Job) (pk : Pricking) (rank : Nat) :
    Except AccErr (Option Comb) := do
  match pk.splitLevel with
  | none => pure none
  | some (i, l) =>
    match pk.binds[l.oreg]?, pk.binds[l.dreg]? with
    | some ob, some db => do
      let P := x.wells.length
      let src ← s.readDesc ctx ob.desc
      let dst ← s.readDesc ctx db.desc
      let h ← s.readWord ctx pk.tmpl
      let rects ← s.sttRects ctx pk.tmpl l.oreg (hdrPro h + hdrBody h + hdrEpi h) 0
      let at_ (k : Nat) : List Nat := t.point.take i ++ k :: t.point.drop i
      let parts := (List.range t.need).map (fun k =>
        let o := ob.origin t.arg (l.ownerRank P k rank) (at_ k)
        (o.1, o.2 + ((pk.reps P (at_ k)).2 : Int) * ob.kstep))
      let d := db.origin t.arg rank (at_ 0)
      pure (some { src := src, dst := dst, r0 := d.1, k0 := d.2, parts := parts, rects := rects })
    | _, _ => pure none

/-- Items of a combine: one per destination row of each rectangle, as (rectangle, row) (R413). -/
def Comb.rows (c : Comb) : List (Nat × Nat) :=
  c.rects.zipIdx.flatMap (fun r => (List.range r.1.2.2.1).map (fun i => (r.2, i)))

/-- Is a split point ready for its combine (R298)? -/
def SplitTrack.ready (t : SplitTrack) : Bool :=
  t.combine.isNone && (List.range t.need).all t.done.contains

/-- Depth of a unit's queue of walker combines (R416). -/
def combDepth : Nat := 4

/-- The unit that takes row i of a combine (R413). -/
def State.combUnit (s : State) (w ctx : Nat) (c : Comb) (i : Nat) : Nat :=
  let ri := c.rows.getD i (0, 0)
  let rc := c.rects.getD ri.1 (0, 0, 0, 0)
  s.unitFor ctx w (c.dst.firstByte (c.r0 + rc.1 + ri.2) (c.k0 + rc.2.1)) i

/-- Rows of combine id entered in the walker queues of the well's units, in order, up to the first whose queue is full
(R416). -/
def State.enterComb (s : State) (w id : Nat) : Nat → State
  | 0 => s
  | fuel + 1 =>
    match s.ops.find? (fun o => o.1 == id) with
    | none => s
    | some (_, o) =>
      match o.comb with
      | none => s
      | some c =>
        if c.rows.length ≤ o.issued then s
        else
          let u := s.combUnit w (viaQ w (s.ctxOf o.job)) c o.issued
          let x := s.unit w u
          if x.combQ.length < combDepth then
            let t := s.setUnit w u { x with combQ := x.combQ ++ [.comb id o.issued] }
            let ops := t.ops.map (fun y => if y.1 = id then (id, { y.2 with issued := o.issued + 1 }) else y)
            ({ t with ops := ops }).enterComb w id fuel
          else s

/-- The combine of well w whose rows the walker is entering: the oldest with rows left. -/
def State.openComb (s : State) (w : Nat) : Option (Nat × OpRun) :=
  s.ops.reverse.find? (fun o => o.2.well == w && o.2.comb.isSome && decide (o.2.issued < o.2.total))

/-- The walker enters further rows of its combines (R416). -/
def State.feedComb (s : State) (w : Nat) : State :=
  s.ops.foldl (fun t _ => match t.openComb w with
    | some o => t.enterComb w o.1 (o.2.total + 1)
    | none => t) s

/-- The first ready split point whose combine this well runs (R298, R327); a pricking that cannot be read stands for its
point. -/
def State.readyHere (s : State) (w job : Nat) (x : Job) : Option (Except AccErr (SplitTrack × Pricking)) :=
  (s.splits.filter (fun t => t.job == job && t.ready)).findSome? (fun t =>
    match s.readPricking (viaQ w (s.ctxOf job)) t.prick with
    | .error e => some (.error e)
    | .ok pk => if t.runner x pk = w then some (.ok (t, pk)) else none)

/-- A combine in progress, whose rows are entered as its units have room (R298, R416). -/
def State.startComb (s : State) (w job : Nat) (x : Job) (t : SplitTrack) (pk : Pricking) (c : Comb) : State :=
  let id := s.nextId
  let op : OpRun :=
    { job := job, well := w, comb := some c, rung := x.layerRung, total := c.rows.length, guard := some pk.guard,
      last := if c.dst.fmt.twoLevel then min c.dst.fmt.room (guardMax pk.guard) else guardMax pk.guard }
  let splits := s.splits.map (fun u => if u = t then { u with combine := some id } else u)
  ({ s with nextId := id + 1, ops := (id, op) :: s.ops, splits := splits }).enterComb w id (c.rows.length + 1)

/-- SPLIT_COMBINE_ISSUE (R298): the walker enters the rows of one combine at a time. -/
def execSplitCombineIssue (w : WellId) (s : State) : Res :=
  needSome (s.wellJob w) 298 (fun jx =>
    needSome (s.readyHere w jx.1 jx.2) 298 (fun r =>
      if (s.openComb w).isSome then s.stalls 416
      else
        match r with
        | .error e => s.walkerErr w jx.1 e
        | .ok (t, pk) =>
          match s.combOf (viaQ w (s.ctxOf jx.1)) t jx.2 pk (jx.2.rank w) with
          | .error e => s.walkerErr w jx.1 e
          | .ok none => .fault (.notEnabled 298)
          | .ok (some c) => .next (s.startComb w jx.1 jx.2 t pk c)))

end Sys2Proof.Machine
end

