-- ==== Sys2Proof/Machine/Migrate.lean ====
section
/-!
DEFINITION. The migration engine and the context-cache pool: frames (R459 to R462), moves (R463 to R465, R470),
MIG requests (R273, R466, R467), access counts (R468), and the pool's own moves (R367 to R370).
-/

namespace Sys2Proof.Machine

/-! ### Frames (R459, R461, R464) -/

/-- Aligned address of a frame of this size in a free run. -/
def fitIn (size : Nat) (r : Loc × Nat) : Option Nat :=
  let a := (r.1.addr + size - 1) / size * size
  if a + size ≤ r.1.addr + r.2 then some a else none

/-- A free frame of a tier taken. -/
def Job.takeFrame (j : Job) (t : Tier) (size : Nat) : Option (Loc × Job) :=
  match j.free.find? (fun r => r.1.tier == t && (fitIn size r).isSome) with
  | none => none
  | some r =>
    match fitIn size r with
    | none => none
    | some a =>
      let left := if r.1.addr < a then [((⟨t, r.1.addr⟩ : Loc), a - r.1.addr)] else []
      let e := r.1.addr + r.2
      let right := if a + size < e then [((⟨t, a + size⟩ : Loc), e - (a + size))] else []
      some (⟨t, a⟩, { j with free := j.free.erase r ++ left ++ right })

/-- A frame freed by a move, joined to the free runs beside it; an aquifer frame is never freed (R462). -/
def Job.giveFrame (j : Job) (l : Loc) (size : Nat) : Job :=
  if l.tier = .aquifer then j
  else
    let lo := j.free.find? (fun r => r.1.tier == l.tier && r.1.addr + r.2 == l.addr)
    let hi := j.free.find? (fun r => r.1.tier == l.tier && r.1.addr == l.addr + size)
    let rest := j.free.filter (fun r => some r != lo && some r != hi)
    let a := (lo.map (fun r => r.1.addr)).getD l.addr
    let n := size + (lo.map Prod.snd).getD 0 + (hi.map Prod.snd).getD 0
    { j with free := rest ++ [(⟨l.tier, a⟩, n)] }

/-- Free frames of a job at its first bind (R459): the reservoir and host ranges, and the top CMIB MiB of the
declared job scratch of each well. -/
def MigRec.runs (m : MigRec) (scratch : Nat) (wells : List Nat) : List (Loc × Nat) :=
  ([((⟨.reservoir, m.rbase⟩ : Loc), m.rframes * 2 ^ 21), (⟨.host, m.hbase⟩, m.hframes * 2 ^ 21)]
    ++ wells.map (fun w => ((⟨.cistern w, (64 + scratch - m.cmib) * 2 ^ 20⟩ : Loc), m.cmib * 2 ^ 20))).filter
    (fun r => r.2 != 0)

/-! ### Leaves (R463) -/

/-- PIN of a leaf. -/
def leafPin (v : Word) : Bool := bitOf v 48
/-- POOL of a leaf. -/
def leafPool (v : Word) : Bool := bitOf v 49
/-- T of a leaf: the page is in transit. -/
def leafT (v : Word) : Bool := bitOf v 56

/-- T and PHASE of a leaf replaced: 0 STABLE, 1 DRAINING, 2 COPYING. -/
def leafPhase (v : Word) (ph : Nat) : Word := setBits (setBits v 56 56 (if ph = 0 then 0 else 1)) 47 46 ph

/-- Code of a tier in a leaf (R430). -/
def Tier.code : Tier → Nat
  | .cistern _ => 0
  | .reservoir => 1
  | .aquifer => 2
  | .host => 3

/-- TIER, WELL and FRAME of a leaf replaced. -/
def leafPlace (v : Word) (l : Loc) : Word :=
  setBits (setBits (setBits v 61 59 l.tier.code) 53 50 (match l.tier with
    | .cistern w => w
    | _ => 0)) 45 0 (l.addr / 65536)

/-- A leaf entry written as a guarded word, indivisibly (R39, R464). -/
def State.setLeaf (s : State) (at_ : Nat) (v : Word) : State :=
  s.rawWrite ⟨.reservoir, at_⟩ (leBytes 16 (guard64 v).toNat)

/-- A leaf changed by the engine: its page is first invalidated in every translation buffer (R438). -/
def State.putLeaf (s : State) (ctx va at_ : Nat) (v : Word) : State := (s.tlbPage ctx va).setLeaf at_ v

/-- Value half of the leaf entry at a reservoir address. -/
def State.leafAt (s : State) (at_ : Nat) : Word := BitVec.ofNat 64 (leVal (s.rawRead ⟨.reservoir, at_⟩ 8))

/-- The leaf entry at a reservoir address as the device reads it: checked as a guarded word (R38). -/
def State.leafGet (s : State) (at_ : Nat) : Except AccErr Word := do
  let _ ← s.tierWait ⟨.reservoir, at_⟩
  match s.badBlock ⟨.reservoir, at_⟩ 16 with
  | some b => .error (.tier at_ b false)
  | none =>
    match unguard64 (BitVec.ofNat 128 (leVal (s.rawRead ⟨.reservoir, at_⟩ 16))) with
    | some v => .ok v
    | none => .error (.guard at_)

/-- One bit of the leaf entry at a reservoir address written (R432); an entry that fails its check is reported and left as
it is (R38). -/
def State.leafBit (s : State) (bit : Nat) (v : Bool) (at_ : Nat) : State :=
  match s.leafGet at_ with
  | .ok x => s.setLeaf at_ (setBits x bit bit v.toNat)
  | .error (.guard a) => s.noteGuard 12 0 a
  | .error (.tier _ l wr) => s.noteTier .walker 12 12 l wr
  | .error _ => s.setLeaf at_ (setBits (s.leafAt at_) bit bit v.toNat)

/-- Address of the page of a leaf that holds va. -/
def Leaf.pageVa (l : Leaf) (va : Nat) : Nat := va / l.page * l.page

/-- Place of a leaf's page. -/
def Leaf.loc (l : Leaf) : Option Loc := (leafTier l.val).map (fun t => ⟨t, leafFrame l.val⟩)

/-! ### Pool registers (R373) -/

/-- Field of MG_KVC_TIER that counts the pool pages of a tier. -/
def kvcField : Tier → Option (Nat × Nat)
  | .cistern _ => some (63, 44)
  | .reservoir => some (43, 24)
  | .host => some (23, 4)
  | .aquifer => none

/-- One pool page more (or one less) counted in a tier of partition p. -/
def State.kvcAdd (s : State) (p : Nat) (t : Tier) (more : Bool) : State :=
  match kvcField t with
  | none => s
  | some (hi, lo) =>
    let v := s.fld (rMgKvcTier p) hi lo
    s.setFld (rMgKvcTier p) hi lo (if more then v + 1 else v - 1)

/-- A pool page's change of tier counted (R373). -/
def State.kvcMove (s : State) (p : Nat) (a b : Tier) : State := (s.kvcAdd p a false).kvcAdd p b true

/-! ### Moves (R464, R470) -/

/-- Orders 1 and 2 of a move: none without a free frame (R461). -/
def State.beginMove (s : State) (j va : Nat) (l : Leaf) (t : Tier) (prefetch : Bool) : Option State :=
  match s.job j, l.loc with
  | some job, some src =>
    match job.takeFrame t l.page with
    | none => none
    | some (dst, job') =>
      let m : Move := { job := j, va := l.pageVa va, at_ := l.at_, size := l.page, src := src, dst := dst,
                        prefetch := prefetch }
      let s := (s.modJob j (fun _ => job')).putLeaf (s.ctxOf j) va l.at_ (leafPhase l.val 1)
      some { s with engine := { s.engine with moves := s.engine.moves ++ [m] } }
  | _, _ => none

/-- The lines of a reservoir page recalled before its bytes are read (R542). -/
def State.recallLoc (s : State) (l : Loc) (n : Nat) : State :=
  if l.tier = .reservoir then s.recallRange l.addr n else s

/-- The bytes of a page copied from place to place. -/
def State.copyPage (s : State) (src dst : Loc) (n : Nat) : State :=
  (s.clearPoison dst n).rawWrite dst (s.rawRead src n)

/-- Orders 5 and 6 of a move. -/
def State.endMove (s : State) (m : Move) : Except AccErr State := do
  let v ← s.leafGet m.at_
  let s := (s.copyPage m.src m.dst m.size).setLeaf m.at_ (leafPhase (leafPlace v m.dst) 0)
  let s := s.modJob m.job (fun j => j.giveFrame m.src m.size)
  let s := if leafPool v then s.kvcMove (s.ctxOf m.job) m.src.tier m.dst.tier else s
  let s := if m.prefetch && leafPool v then s.incFld (rMgKvcCnt (s.ctxOf m.job)) 31 0 1 else s
  pure (s.incFld rMgStat 63 32 1)

/-- A move abandoned: the leaf keeps its old frame with T 0, where it can be read, and the new frame is free again
(R470). -/
def State.dropMove (s : State) (m : Move) : State :=
  let s := match s.leafGet m.at_ with
    | .ok v => s.setLeaf m.at_ (leafPhase v 0)
    | .error _ => s
  (s.modJob m.job (fun j => j.giveFrame m.dst m.size)).incFld rMgStat 15 0 1

/-- A page that cannot be read or written now (R469): one of its reservoir granules waits, or host memory. -/
def State.pageWait (s : State) (l : Loc) (n : Nat) : Except AccErr Unit :=
  let k := if l.tier = .reservoir ∧ s.evacs ≠ [] then (n + 4095) / 4096 else 1
  (List.range k).forM (fun i => do
    let _ ← s.tierWait ⟨l.tier, l.addr + 4096 * i⟩
    pure ())

/-- Where a copy from place to place waits or fails: host memory while PCIe is down, the reservoir in self-refresh or under
evacuation, an uncorrectable block of the source (R469, R470). -/
def State.copyJudge (s : State) (va : Nat) (src dst : Loc) (n : Nat) : Except AccErr Unit := do
  s.pageWait src n
  s.pageWait dst n
  match s.badBlock src n with
  | some b => .error (.tier (va + (b.addr - src.addr)) b false)
  | none => pure ()

/-- A whole move at once, for the pool's own moves (R368, R369): none where it is not made. -/
def State.moveNow (s : State) (j va : Nat) (l : Leaf) (t : Tier) : Except AccErr (Option State) :=
  match s.job j, l.loc with
  | some job, some src =>
    if leafPin l.val || leafT l.val then .ok none
    else
      match job.takeFrame t l.page with
      | none => .ok none
      | some (dst, job') => do
        s.copyJudge (l.pageVa va) src dst l.page
        let u ← (((s.modJob j (fun _ => job')).tlbPage (s.ctxOf j) va).recallLoc src l.page).endMove
          { job := j, va := l.pageVa va, at_ := l.at_, size := l.page, src := src, dst := dst }
        pure (some u)
  | _, _ => .ok none

/-! ### The pool (R365 to R370) -/

/-- Pages of a job's pool, ascending. -/
def PoolRec.vas (p : PoolRec) : List Nat := (List.range p.pages).map (fun i => p.base + i * 2 ^ 21)

/-- Does the pool hold this address? -/
def PoolRec.holds (p : PoolRec) (va : Nat) : Bool := decide (p.base ≤ va ∧ va < p.base + p.pages * 2 ^ 21)

/-- Pool page of an address. -/
def PoolRec.pageOf (p : PoolRec) (va : Nat) : Nat := p.base + (va - p.base) / 2 ^ 21 * 2 ^ 21

/-- Pool pages with their leaves, ascending; an entry that cannot be read ends the access that looks, or makes it wait (R38,
R435, R469). -/
def State.poolLeaves (s : State) (ctx : Nat) (p : PoolRec) : Except AccErr (List (Nat × Leaf)) :=
  p.vas.foldlM (fun acc va =>
    match s.leafOf ctx va false with
    | .ok l => .ok (acc ++ [(va, l)])
    | .error (.trans k lv a wr) => if k < 9 then .ok acc else .error (.trans k lv a wr)
    | .error e => .error e) []

/-- Is a leaf's page homed in a cistern? -/
def Leaf.inCistern (l : Leaf) : Bool :=
  match leafTier l.val with
  | some (.cistern _) => true
  | _ => false

/-- The page of a list (ascending) least recently appended to or prefetched, the lowest address on a tie (R369). -/
def oldestOf (recent pages : List Nat) : Option Nat :=
  match pages.filter (fun v => !recent.contains v) with
  | v :: _ => some v
  | [] => recent.find? pages.contains

/-- A pool page made the newest. -/
def Job.touch (j : Job) (va : Nat) : Job := { j with recent := j.recent.filter (· != va) ++ [va] }

/-- A pool page moved down a tier and counted in SPILLS; none where the move is not made. -/
def State.spillTo (s : State) (j ctx va : Nat) (t : Tier) : Except AccErr (Option State) := do
  let l ← s.leafOf ctx va false
  let r ← s.moveNow j va l t
  pure (r.map (fun u => u.incFld (rMgKvcCnt ctx) 63 32 1))

/-- Pool pages of job j on their way to a tier from outside it. -/
def State.poolComing (s : State) (j : Nat) (p : PoolRec) (q : Tier → Bool) : Nat :=
  (s.engine.moves.filter (fun m => m.job == j && p.holds m.va && q m.dst.tier && !q m.src.tier)).length

/-- Is a tier a cistern? -/
def Tier.isCistern : Tier → Bool
  | .cistern _ => true
  | _ => false

/-- A leaf whose page can be moved: STABLE with PIN 0. -/
def Leaf.free (l : Leaf) : Bool := !leafPin l.val && !leafT l.val

/-- Room for one more reservoir-homed pool page (R369): none when no page can make room (R461). -/
def State.roomRes (s : State) (j ctx : Nat) (job : Job) : Except AccErr (Option State) := do
  let ls ← s.poolLeaves ctx job.pool
  let res := ls.filter (fun e => leafTier e.2.val == some .reservoir)
  if res.length + s.poolComing j job.pool (· == .reservoir) < job.pool.resMax then pure (some s)
  else
    match oldestOf job.recent ((res.filter (fun e => e.2.free)).map Prod.fst) with
    | none => pure none
    | some v => s.spillTo j ctx v .host

/-- Room for one more cistern-homed pool page (R369): none when no page can make room (R368, R461). -/
def State.roomCis (s : State) (j ctx : Nat) (job : Job) : Except AccErr (Option State) := do
  let ls ← s.poolLeaves ctx job.pool
  let cis := ls.filter (fun e => e.2.inCistern)
  if cis.length + s.poolComing j job.pool Tier.isCistern < job.pool.cisMax then pure (some s)
  else
    match oldestOf job.recent ((cis.filter (fun e => e.2.free)).map Prod.fst) with
    | none => pure none
    | some v =>
      match ← s.roomRes j ctx job with
      | none => pure none
      | some t => t.spillTo j ctx v .reservoir

/-- The move that an append through a unit of well w makes first of the pool page at va (R368); the page becomes the newest
(R369). -/
def State.appendMove (s : State) (j w va : Nat) : Except AccErr State :=
  match s.job j with
  | none => .ok s
  | some job =>
    if !job.pool.holds va then .ok s
    else do
      let ctx := s.ctxOf j
      let l ← s.leafOf ctx va false
      if leafT l.val then .error (.stall 371)
      else
        let page := job.pool.pageOf va
        let u ← (if l.inCistern then pure s
          else do
            match ← s.roomCis j ctx job with
            | none => pure s
            | some t => do
              let l' ← t.leafOf ctx va false
              let r ← t.moveNow j va l' (.cistern w)
              pure (r.getD t))
        pure (u.modJob j (Job.touch · page))

/-- The moves that an append of these runs of bytes makes first, one for each pool page they reach (R368). -/
def State.appendMoves (s : State) (j w : Nat) (rs : List (Nat × Nat)) : Except AccErr State :=
  let pages := (rs.flatMap (fun r =>
    (List.range ((r.1 % 2 ^ 21 + r.2 + 2 ^ 21 - 1) / 2 ^ 21)).map (fun i => (r.1 / 2 ^ 21 + i) * 2 ^ 21))).eraseDups
  pages.foldlM (fun t va => t.appendMove j w va) s

/-- One pool page homed as R367 says at job start, and marked POOL (R463); while a tier cannot answer its move is begun and
goes on. -/
def State.poolPlace (s : State) (j ctx i va : Nat) (pool : PoolRec) : Except AccErr State :=
  match s.leafOf ctx va false with
  | .error e => .error e
  | .ok l =>
    let t := if i < pool.resMax then Tier.reservoir else Tier.host
    let s := s.putLeaf ctx va l.at_ (setBits l.val 49 49 1)
    let l := { l with val := setBits l.val 49 49 1 }
    let s := (leafTier l.val).elim s (fun u => s.kvcAdd ctx u true)
    if leafTier l.val = some t then .ok s
    else
      match s.moveNow j va l t with
      | .ok r => .ok (r.getD s)
      | .error (.stall _) => .ok ((s.beginMove j va l t false).getD s)
      | .error e => .error e

/-- The pool at job start (R367). -/
def State.poolStart (s : State) (j : Nat) : Except AccErr State :=
  match s.job j with
  | none => .ok s
  | some job =>
    let ctx := s.ctxOf j
    let s := (s.setReg (rMgKvcTier ctx) 0#64)
    job.pool.vas.zipIdx.foldlM (fun t vi => t.poolPlace j ctx vi.2 vi.1 job.pool) s

/-! ### Requests (R466, R467) -/

/-- The tier a request names. -/
def MigReq.target (r : MigReq) : Tier :=
  match r.tier with
  | 0 => .cistern r.well
  | 1 => .reservoir
  | _ => .host

/-- Rank of a tier, high to low: cistern, reservoir, host memory, aquifer; for PREFETCH a cistern of another well
lies below the named one (R466). -/
def tierRank (own : Option Nat) : Tier → Nat
  | .cistern v => if own = none ∨ own = some v then 4 else 3
  | .reservoir => 2
  | .host => 1
  | .aquifer => 0

/-- Does a request move a page with this leaf? A pool page already homed in a cistern is not prefetched (R370). -/
def MigReq.moves (r : MigReq) (l : Leaf) : Bool :=
  match leafTier l.val with
  | none => false
  | some t =>
    !leafT l.val && !leafPin l.val
    && (if r.op = 0 then
          decide (tierRank (some r.well) t < tierRank (some r.well) r.target)
          && !(leafPool l.val && l.inCistern && r.tier == 0)
        else decide (tierRank none r.target < tierRank none t))

/-- Bytes that one table entry of a level spans (R429). -/
def levelSpan (level : Nat) : Nat :=
  match level with
  | 0 => 2 ^ 16
  | 1 => 2 ^ 21
  | 2 => 2 ^ 33
  | _ => 2 ^ 45

/-- The next page of a request: its leaf, or none for bytes that do not translate, and where the rest begins. -/
def State.migPage (s : State) (r : MigReq) : Option Leaf × Nat :=
  match s.leafOf r.part r.lo false with
  | .ok l => (some l, l.pageVa r.lo + l.page)
  | .error (.trans 0x1 _ _ _) => (none, 65536)
  | .error (.trans _ level _ _) => (none, r.lo / levelSpan level * levelSpan level + levelSpan level)
  | .error _ => (none, r.lo / 65536 * 65536 + 65536)

/-- A PIN waits for a page in transit (R466, R475), and every request for tables that cannot be read now (R469). -/
def State.migWaits (s : State) (r : MigReq) : Bool :=
  decide (r.lo < r.hi) && (match s.leafOf r.part r.lo false with
    | .ok l => r.op == 2 && leafT l.val
    | .error (.stall _) => true
    | .error _ => false)

/-- The request served next: the partitions in turn, each in arrival order (R467). -/
def State.nextReq (s : State) : Option MigReq :=
  let e := s.engine
  ((List.range 12).map (fun i => (e.turn + 1 + i) % 12)).findSome? (fun p =>
    match e.queue.find? (fun r => r.part == p) with
    | some r => if s.migWaits r then none else some r
    | none => none)

/-- A request with its page served: the rest of its range stays, or the request is over and its partition's turn. -/
def State.migGone (s : State) (r : MigReq) (lo : Nat) : State :=
  let e := s.engine
  if lo < r.hi then
    { s with engine := { e with queue := e.queue.replace r { r with lo := lo } } }
  else { s with engine := { e with queue := e.queue.erase r, turn := r.part } }

/-- The room that a pool page needs before it enters a tier (R369). -/
def State.poolRoom (s : State) (r : MigReq) (l : Leaf) : Except AccErr (Option State) :=
  match leafPool l.val, s.job r.job with
  | true, some job =>
    match r.target with
    | .cistern _ => s.roomCis r.job r.part job
    | .reservoir => s.roomRes r.job r.part job
    | _ => .ok (some s)
  | _, _ => .ok (some s)

/-- A move that a request asks for begun; without a frame it is dropped and counted (R461). -/
def State.migMove (s : State) (r : MigReq) (l : Leaf) : Except AccErr State := do
  match ← s.poolRoom r l with
  | none => pure (s.incFld rMgStat 31 16 1)
  | some t =>
    let page := l.pageVa r.lo
    match t.leafOf r.part r.lo false with
    | .error _ => pure (t.incFld rMgStat 31 16 1)
    | .ok l' =>
      match t.beginMove r.job page l' r.target (r.op == 0 && r.tier == 0 && !r.promo && leafPool l.val) with
      | none => pure (t.incFld rMgStat 31 16 1)
      | some u => pure (if leafPool l.val && r.op == 0 then u.modJob r.job (Job.touch · page) else u)

/-- The engine serves pages until it has begun a move, has nothing more to serve, or has looked at `fuel` pages; or until a
pool page of a job meets an error. -/
def State.engineRun (s : State) : Nat → State × Option (Nat × AccErr)
  | 0 => (s, none)
  | fuel + 1 =>
    match s.nextReq with
    | none => (s, none)
    | some r =>
      if r.hi ≤ r.lo then (s.migGone r r.lo).engineRun fuel
      else
        let (lf, lo) := s.migPage r
        match lf with
        | none => (s.migGone r lo).engineRun fuel
        | some l =>
          let page := l.pageVa r.lo
          if r.op = 2 then ((s.putLeaf r.part page l.at_ (setBits l.val 48 48 1)).migGone r lo).engineRun fuel
          else if r.op = 3 then ((s.putLeaf r.part page l.at_ (setBits l.val 48 48 0)).migGone r lo).engineRun fuel
          else if r.moves l then
            match s.migMove r l with
            | .error (.stall n) => (s, some (r.job, .stall n))
            | .error e => (s.migGone r lo, some (r.job, e))
            | .ok t => (t.migGone r lo, none)
          else (s.migGone r lo).engineRun fuel

/-- The lowest wellhead pump for moves that copies none (R448). -/
def State.movePump (s : State) : Option Nat :=
  [8, 9, 10, 11, 12, 13, 14, 15].find? (fun n => !(s.engine.moves.any (fun m => m.pump == some n)))

/-- An error that wellhead pump n meets for job j: recorded and reported with the pump (R38, R435, R474). -/
def State.noteWhPump (s : State) (n j : Nat) (e : AccErr) : State :=
  s.noteHead (viaQ 12 (s.ctxOf j)) 12 (16 + n) e

/-- An error met by the engine in a pool page: the owning job ends (R371). -/
def State.engineErr (s : State) (n j : Nat) : AccErr → Res
  | .stall r => s.stalls r
  | e => .next ((s.noteWhPump n j e).failJob j e.status e.va)

/-- MIGRATION_MOVE_START (R464 orders 1 and 2): the engine serves its queues up to its next move. -/
def execMigrationMoveStart (s : State) : Res :=
  needSome s.nextReq 467 (fun _ =>
    match s.engineRun 1024 with
    | (t, none) => .next t
    | (t, some (j, e)) => t.engineErr (t.movePump.getD 8) j e)

/-- A move that meets a fault is abandoned; the fault is reported by its pump, and ends the job when the page is a pool page
(R371) or its leaf failed its check (R42). -/
def State.abandonMove (s : State) (m : Move) (e : AccErr) : State :=
  let s := (s.dropMove m).noteWhPump (m.pump.getD 8) m.job e
  let ends := match e with
    | .guard _ => true
    | _ => (s.leafGet m.at_).toOption.any leafPool
  if ends then s.failJob m.job e.status e.va else s

/-- MOVE_DRAIN_DONE (R438, R464 orders 3 and 4): accesses under the old translation are complete and the page's lines are
recalled (R542); a migration pump copies the page, of which there are 8, and without one the move waits (R448). -/
def execMoveDrainDone (n : Nat) (s : State) : Res :=
  needSome s.engine.moves[n]? 464 (fun m =>
    need (!m.copying) 464 (
      match s.movePump with
      | none => s.stalls 448
      | some k =>
        match s.leafGet m.at_ with
        | .error (.stall r) => s.stalls r
        | .error e =>
          .next ({ s with engine := { s.engine with moves := s.engine.moves.eraseIdx n } }.abandonMove m e)
        | .ok v =>
          let s := (s.setLeaf m.at_ (leafPhase v 2)).recallLoc m.src m.size
          .next { s with engine := { s.engine with
            moves := s.engine.moves.set n { m with copying := true, pump := some k } } }))

/-- The end of a move's copy: orders 5 and 6, or the move abandoned (R464, R470, R371). -/
def State.finishMove (s : State) (m : Move) : Res :=
  let t := { s with engine := { s.engine with moves := s.engine.moves.erase m } }
  match (do
    s.copyJudge m.va m.src m.dst m.size
    t.endMove m : Except AccErr State) with
  | .ok u => .next u
  | .error (.stall r) => s.stalls r
  | .error e => .next (t.abandonMove m e)

/-- MOVE_COPY_COMPLETE (R464 orders 5 and 6). -/
def execMoveCopyComplete (n : Nat) (s : State) : Res :=
  needSome s.engine.moves[n]? 464 (fun m => need m.copying 464 (s.finishMove m))

/-- Requests of partition p in the engine's queue. -/
def State.migCount (s : State) (p : Nat) : Nat := (s.engine.queue.filter (fun r => r.part == p)).length

/-- A request put in the queue. -/
def State.migPush (s : State) (r : MigReq) : State :=
  { s with engine := { s.engine with queue := s.engine.queue ++ [r] } }

/-- A MIG instruction's request is accepted, or its controller stalls while the queue is full (R467). -/
def State.doMig (s : State) (w : Nat) (op : Nat) (c : CtlCtx) (i : Word) : Res :=
  needSome (s.wellJob w) 273 (fun jx =>
    let p := s.ctxOf jx.1
    if s.migCount p < 64 then
      let lo := (c.get (cRd i)).toNat
      let r : MigReq := { job := jx.1, part := p, well := w, op := op, tier := cImmK i % 8, lo := lo,
                          hi := min (lo + (c.get (cRs1 i)).toNat) (2 ^ 56) }
      cGo s (s.migPush r) w (s.pcNext w)
    else .next (s.stallCtl w .mig))

/-- MIG_PREFETCH (R466). -/
def execMigPrefetch (w : WellId) (ev : EccEv) (s : State) : Res :=
  cStep .migPrefetch w ev s (fun s c i => s.doMig w 0 c i)
/-- MIG_DEMOTE (R466). -/
def execMigDemote (w : WellId) (ev : EccEv) (s : State) : Res :=
  cStep .migDemote w ev s (fun s c i => s.doMig w 1 c i)
/-- MIG_PIN (R466). -/
def execMigPin (w : WellId) (ev : EccEv) (s : State) : Res := cStep .migPin w ev s (fun s c i => s.doMig w 2 c i)
/-- MIG_UNPIN (R466). -/
def execMigUnpin (w : WellId) (ev : EccEv) (s : State) : Res := cStep .migUnpin w ev s (fun s c i => s.doMig w 3 c i)

/-! ### Access counts (R468) -/

/-- A read miss asks the directory, and the fill counts for its page (R468, R534). -/
def State.getsGo (s : State) (w va : Nat) (ev : LineEv) : Res :=
  s.lineReq w va false false [.shared, .exclusive, .modified] ev (fun t line =>
    (t.dirGets w line).countPage w ((t.wellCtx w).getD 12) va)

/-- GETS (R534). A line that the well itself holds and cannot read is dropped and, unless it was MODIFIED, fetched again
(R547). -/
def execGets (w : WellId) (va : Word) (ev : LineEv) (s : State) : Res :=
  let own := if ev = .line then (s.wellCtx w).bind (fun c => s.lineAt c va.toNat false) else none
  match own.filter (fun l => (s.lineSt w l).isSome) with
  | some line =>
    if s.lineSt w line = some .modified then .next (s.lineErr w line) else (s.lineErr w line).getsGo w va.toNat .sound
  | none => s.getsGo w va.toNat ev

/-- ACCESS_COUNT_PROMOTION (R468): an advisory move of a page whose count has reached the threshold. -/
def execAccessCountPromotion (w : WellId) (va : Word) (s : State) : Res :=
  needSome (s.wellJob w) 468 (fun jx =>
    let p := s.ctxOf jx.1
    let n := s.fld rMgCtl 47 40
    let k := fillKey w va.toNat
    need (jx.2.mig.auto_ && s.fld rMgCtl 0 0 == 1 && n != 0 && decide (64 * n ≤ tabGet 0 s.engine.fills k)) 468 (
      if 64 ≤ s.migCount p then s.stalls 467
      else
        let s := match s.leafOf p va.toNat false with
          | .error _ => s
          | .ok l =>
            let lo := l.pageVa va.toNat
            s.migPush { job := jx.1, part := p, well := w, op := 0, tier := 0, lo := lo, hi := lo + l.page,
                        promo := true }
        .next { s with engine := { s.engine with fills := tabPut 0 s.engine.fills k 0 } }))

/-- The counting window in ns (R474). -/
def State.windowNs (s : State) : Nat :=
  let n := s.fld rMgCtl 39 24
  (if n = 0 then 10 else n) * 1000000

/-- COUNT_WINDOW_CLEAR (R468). -/
def execCountWindowClear (s : State) : Res :=
  need (decide (s.engine.windowAt + s.windowNs ≤ s.now)) 468
    (.next { s with engine := { s.engine with fills := [], windowAt := s.now } })

/-- Moves of a job at its end: those not at order 2 are discarded, the others complete, or are abandoned at a fault; the
rule under which one of them still waits (R465, R470). -/
def State.endMoves (s : State) (j : Nat) : Except Nat State :=
  let e := s.engine
  let mine := e.moves.filter (fun m => m.job == j)
  let rest := { e with queue := e.queue.filter (fun r => r.job != j),
                       moves := e.moves.filter (fun m => m.job != j) }
  mine.foldlM (fun t m =>
    match (do
      t.copyJudge m.va m.src m.dst m.size
      (t.recallLoc m.src m.size).endMove m : Except AccErr State) with
    | .ok u => .ok u
    | .error (.stall r) => .error r
    | .error e => .ok (t.abandonMove m e)) { s with engine := rest }

end Sys2Proof.Machine
end

