-- ==== Sys2Proof/Machine/CuOps.lean ====
section
/-!
DEFINITION. The arithmetic of the cistern units: operands and destinations (R405, R407, R410, R803), and each
operation of R408 on one item.
-/

namespace Sys2Proof.Machine

/-! ### Operation records (R406) -/

/-- Word i of a record. -/
def opW (ws : List Word) (i : Nat) : Word := ws.getD i 0#64
/-- OPC. -/
def opOpc (ws : List Word) : Nat := bitsOf (opW ws 0) 63 56
/-- VAR. -/
def opVar (ws : List Word) : Nat := bitsOf (opW ws 0) 55 52
/-- MXT. -/
def opMxt (ws : List Word) : Nat := bitsOf (opW ws 0) 51 48
/-- BCAST. -/
def opBcast (ws : List Word) : Bool := bitOf (opW ws 0) 47
/-- COL. -/
def opCol (ws : List Word) : Bool := bitOf (opW ws 0) 46
/-- ACCUM. -/
def opAccum (ws : List Word) : Bool := bitOf (opW ws 0) 45
/-- PAIR. -/
def opPair (ws : List Word) : Bool := bitOf (opW ws 0) 44
/-- ROWS. -/
def opRows (ws : List Word) : Nat := bitsOf (opW ws 1) 63 32
/-- COLS. -/
def opCols (ws : List Word) : Nat := bitsOf (opW ws 1) 31 0
/-- DESC of operand i: 0 D, 1 A, 2 B, 3 C. -/
def opDesc (ws : List Word) (i : Nat) : Nat := bitsOf (opW ws (2 + 2 * i)) 55 0
/-- ROW0 of operand i. -/
def opRow0 (ws : List Word) (i : Nat) : Int := signedOf 32 (bitsOf (opW ws (3 + 2 * i)) 63 32)
/-- K0 of operand i. -/
def opK0 (ws : List Word) (i : Nat) : Nat := bitsOf (opW ws (3 + 2 * i)) 31 0
/-- GUARD. -/
def opGuard (ws : List Word) : Nat := bitsOf (opW ws 10) 55 0
/-- C0. -/
def opC0 (ws : List Word) : Nat := bitsOf (opW ws 11) 63 32
/-- C1. -/
def opC1 (ws : List Word) : Nat := bitsOf (opW ws 11) 31 0
/-- C0 as FP32. -/
def opF0 (ws : List Word) : Word32 := BitVec.ofNat 32 (opC0 ws)
/-- C1 as FP32. -/
def opF1 (ws : List Word) : Word32 := BitVec.ofNat 32 (opC1 ws)
/-- AUX. -/
def opAux (ws : List Word) : Nat := bitsOf (opW ws 12) 55 0
/-- SSTR. -/
def opSstr (ws : List Word) : Int := signedOf 32 (bitsOf (opW ws 13) 63 32)
/-- Number of split partials. -/
def opParts (ws : List Word) : Nat := bitsOf (opW ws 13) 15 0 + 1
/-- SSTRB. -/
def opSstrb (ws : List Word) : Int := signedOf 32 (bitsOf (opW ws 14) 63 32)

/-- An operand: its descriptor, tensor scale and origins (R407). -/
structure Opd where
  desc : TDesc := {}
  t : Word32 := f32One
  r0 : Int := 0
  k0 : Int := 0
deriving DecidableEq, Repr

/-- The tensor scale of a descriptor, checked as a guarded word (R38, R420). -/
def State.tensorScale (s : State) (ctx : Nat) (d : TDesc) : Except AccErr Word32 :=
  if d.fmt.twoLevel then s.readGuard32 ctx d.tsaddr else .ok f32One

/-- Is operand i an MX tensor or its scales, held as bytes in a plain I8 view (R408, R805)? -/
def opMxView (ws : List Word) (i : Nat) : Bool :=
  (opOpc ws == 0x44 && (i == 1 || i == 2)) || (opOpc ws == 0x45 && (i == 0 || i == 2))

/-- A source operand of a record. Of an MX view only the element bytes are read: R805 calls it plain, so its I8 descriptor
has no scales to it (log entry 105). -/
def State.opSrc (s : State) (ctx : Nat) (ws : List Word) (i : Nat) : Except AccErr Opd := do
  let d ← s.readDesc ctx (opDesc ws i)
  let t ← if opMxView ws i then pure f32One else s.tensorScale ctx d
  pure { desc := d, t := t, r0 := opRow0 ws i, k0 := opK0 ws i }

/-- The destination of a record at a rung (R410); its tensor scale is read when a row is quantised. The bytes that MXEXP
writes to its plain view stay bytes at every rung. -/
def State.opDst (s : State) (ctx : Nat) (ws : List Word) (rung : Nat) : Except AccErr Opd := do
  let d ← s.readDesc ctx (opDesc ws 0)
  let fmt := if d.fmt.twoLevel && !opMxView ws 0 then d.fmt.up rung else d.fmt
  pure { desc := { d with fmt := fmt }, r0 := opRow0 ws 0, k0 := opK0 ws 0 }

/-- Exact values of n elements from (row, k) of an operand's descriptor coordinates (R86, R407). -/
def State.readVals (s : State) (ctx : Nat) (o : Opd) (r k : Int) (n : Nat) : Except AccErr (List Num) := do
  let cs ← s.readRegion ctx o.desc r 1 k n
  if o.desc.fmt.twoLevel then
    let ka := k / 32 * 32
    let off := (k - ka).toNat
    let sc ← s.readScales ctx o.desc r 1 ka ((off + n + 31) / 32)
    pure ((cs.headD []).zipIdx.map (fun ci =>
      scaledValue o.desc.fmt ci.1 ((sc.headD []).getD ((off + ci.2) / 32) 0) (val32 o.t)))
  else pure ((cs.headD []).map (decodeElem o.desc.fmt))

/-- What the work of an item gives: the state, its clamps and its edge codes. -/
abbrev CuOut := Except AccErr (State × Nat × Nat)

/-- The whole blocks around n elements from k: elements before and after them, read exactly (R803). -/
def State.blockRest (s : State) (ctx : Nat) (d : TDesc) (t : Word32) (r : Int) (k n : Nat) :
    Except AccErr (List Num × List Num) := do
  let o : Opd := { desc := d, t := t }
  let ka := k / 32 * 32
  let kb := (k + n + 31) / 32 * 32
  let a ← s.readVals ctx o r ka (k - ka)
  let b ← s.readVals ctx o r ((k + n : Nat) : Int) (kb - (k + n))
  pure (a, b)

/-- Values written to n elements from (r, k) of a destination in its format, under R92, R93 and R96, or R100 and
R101 (R405, R803); elements outside the extents are not written (R407). -/
def State.putVals (s : State) (ctx : Nat) (d : TDesc) (r k : Int) (vals : List Num) : CuOut := do
  let (kl, klo, kn) := clipRange k vals.length d.kext
  if r < 0 ∨ (d.rows : Int) ≤ r ∨ kn = 0 then pure (s, 0, 0)
  else
    let vs := (vals.drop kl).take kn
    if d.fmt.twoLevel then
      let t ← s.tensorScale ctx d
      let (a, b) ← s.blockRest ctx d t r klo kn
      let (cs, s) := s.convert d.fmt t [a ++ vs ++ b]
      let c := cs.headD {}
      let ka : Int := (klo / 32 * 32 : Nat)
      let runs ← s.placeRegion ctx d r ka [c.codes]
      let u ← s.writeRuns ctx (runs ++ placeScales d r ka [c.scales])
      pure (u, c.clamps, c.edges)
    else
      let (cs, s) := s.convert d.fmt f32One [vs]
      let c := cs.headD {}
      let runs ← s.placeRegion ctx d r klo [c.codes]
      let u ← s.writeRuns ctx runs
      pure (u, c.clamps, c.edges)

/-- FP32 results written. -/
def State.put32 (s : State) (ctx : Nat) (d : TDesc) (r k : Int) (vals : List Word32) : CuOut :=
  s.putVals ctx d r k (vals.map val32)

/-- Do a run of n elements from k and a copy to k' move whole blocks? -/
def wholeBlocks (f : Fmt) (k k' : Int) (n : Nat) : Bool :=
  !f.twoLevel || (k % 32 == 0 && k' % 32 == 0 && n % 32 == 0)

/-- Codes and block scales written bit for bit. -/
def State.putBits (s : State) (ctx : Nat) (d : TDesc) (r k : Int) (codes scales : List Nat) : CuOut := do
  let runs ← s.placeRegion ctx d r k [codes]
  let u ← s.writeRuns ctx (runs ++ (if d.fmt.twoLevel then placeScales d r k [scales] else []))
  pure (u, 0, 0)

/-- n elements copied bit for bit with their block scales (R354, R380, R387, R408); where the destination's rung
gives it another format, or the run cuts a block, their values are converted. -/
def State.copyElems (s : State) (ctx : Nat) (a : Opd) (r k : Int) (d : TDesc) (r' k' : Int) (n : Nat) : CuOut := do
  if a.desc.fmt = d.fmt ∧ wholeBlocks d.fmt k k' n then
    let cs ← s.readRegion ctx a.desc r 1 k n
    let sc ← if d.fmt.twoLevel then s.readScales ctx a.desc r 1 k (n / 32) else pure []
    s.putBits ctx d r' k' (cs.headD []) (sc.headD [])
  else
    let vs ← s.readVals ctx a r k n
    s.putVals ctx d r' k' vs

/-- n zero elements with scales 0x00. -/
def State.putZeros (s : State) (ctx : Nat) (d : TDesc) (r k : Int) (n : Nat) : CuOut :=
  if wholeBlocks d.fmt k k n then s.putBits ctx d r k (List.replicate n 0) (List.replicate (n / 32) 0)
  else s.putVals ctx d r k (List.replicate n (.fin false 0 0))

/-- Two pieces of work one after the other. -/
def CuOut.next (a : CuOut) (f : State → CuOut) : CuOut := do
  let (s, c, e) ← a
  let (t, c', e') ← f s
  pure (t, c + c', e + e')

/-- Work over a list. -/
def cuEach {α : Type} (s : State) (l : List α) (f : State → α → CuOut) : CuOut :=
  l.foldl (fun acc x => acc.next (f · x)) (.ok (s, 0, 0))

/-- An item of an operation: context, record, rung, operation number, row, first element and length of its segment,
whether it ends its row, and the length of the row; of MXEXP, in bytes of its exported row. -/
structure CuArg where
  ctx : Nat
  ws : List Word
  rung : Nat
  id : Nat
  row : Nat
  j : Nat
  n : Nat
  last : Bool
  len : Nat
deriving DecidableEq, Repr

/-- The rows of the item's operand at its place. -/
def Opd.at_ (o : Opd) (i j : Nat) : Int × Int := (o.r0 + i, o.k0 + j)

/-! ### EWISE, QUANT, CONVERT, FILL -/

/-- EWISE of two operands by one FP32 function of the exact values (R408, R405); B is one row with BCAST. -/
def ewise (f : List Word → Num → Num → Word32) (s : State) (a : CuArg) : CuOut := do
  let A ← s.opSrc a.ctx a.ws 1
  let B ← s.opSrc a.ctx a.ws 2
  let D ← s.opDst a.ctx a.ws a.rung
  let x ← s.readVals a.ctx A (A.r0 + a.row) (A.k0 + a.j) a.n
  let y ← s.readVals a.ctx B (B.r0 + (if opBcast a.ws then 0 else a.row)) (B.k0 + a.j) a.n
  s.put32 a.ctx D.desc (D.r0 + a.row) (D.k0 + a.j) ((x.zip y).map (fun v => f a.ws v.1 v.2))

/-- round(C0 × a) + round(C1 × b). -/
def axpby (ws : List Word) (x y : Num) : Word32 :=
  fadd (round32 ((val32 (opF0 ws)).mul x)) (round32 ((val32 (opF1 ws)).mul y))

/-- A row converted to D from the exact values (CONVERT, QUANT VAR 0). -/
def convertItem (s : State) (a : CuArg) : CuOut := do
  let A ← s.opSrc a.ctx a.ws 1
  let D ← s.opDst a.ctx a.ws a.rung
  let x ← s.readVals a.ctx A (A.r0 + a.row) (A.k0 + a.j) a.n
  s.putVals a.ctx D.desc (D.r0 + a.row) (D.k0 + a.j) x

/-- An operation with its computed tensor scale noted. -/
def State.noteScale (s : State) (id : Nat) (v : Word32) : State :=
  { s with ops := s.ops.map (fun o => if o.1 = id then (id, { o.2 with tscale := some v }) else o) }

/-- Has operation id computed its tensor scale? -/
def State.hasScale (s : State) (id : Nat) : Bool := s.ops.any (fun o => o.1 == id && o.2.tscale.isSome)

/-- A computed tensor scale written to its guarded word once for the operation (R39, R102, R105). -/
def State.putScale (s : State) (ctx id addr : Nat) (v : Word32) : Except AccErr State := do
  let t ← s.writeDir ctx addr (leBytes 8 (guard32 v).toNat)
  pure (t.noteScale id v)

/-- Largest finite magnitude of an operand's rectangle (R102). -/
def State.rectMax (s : State) (ctx : Nat) (o : Opd) (rows cols : Nat) : Except AccErr Num :=
  (List.range rows).foldlM (fun m i => do
    let v ← s.readVals ctx o (o.r0 + i) o.k0 cols
    pure (maxFin m (largestFin v))) (.fin false 0 0)

/-- QUANT VAR 1: the first item computes the tensor scale over the whole source (R102, R408); at a plain rung none is
computed (R410). -/
def quantComputed (s : State) (a : CuArg) : CuOut := do
  let A ← s.opSrc a.ctx a.ws 1
  let D ← s.opDst a.ctx a.ws a.rung
  if s.hasScale a.id || !D.desc.fmt.twoLevel then convertItem s a
  else
    let m ← s.rectMax a.ctx A (opRows a.ws) (opCols a.ws)
    let t ← s.putScale a.ctx a.id D.desc.tsaddr (pow2Code (computedScaleExp D.desc.fmt m))
    convertItem t a

/-- FILL ZERO. -/
def fillZero (s : State) (a : CuArg) : CuOut := do
  let D ← s.opDst a.ctx a.ws a.rung
  s.putZeros a.ctx D.desc (D.r0 + a.row) (D.k0 + a.j) a.n

/-- FILL VALUE: C0 converted to a plain D. -/
def fillValue (s : State) (a : CuArg) : CuOut := do
  let D ← s.opDst a.ctx a.ws a.rung
  s.put32 a.ctx D.desc (D.r0 + a.row) (D.k0 + a.j) (List.replicate a.n (opF0 a.ws))

/-! ### RED (R239, R240) -/

/-- A reduction's step on a running value (R239): sum, maximum or sum of squares. -/
inductive RedKind where
  | sum | max | sumsq
deriving DecidableEq, Repr

/-- The first value of a running reduction. -/
def RedKind.start : RedKind → Num → Word32
  | .sumsq, x => round32 (x.mul x)
  | _, x => round32 x

/-- One element taken in. -/
def RedKind.step : RedKind → Word32 → Num → Word32
  | .sum, v, x => round32 ((val32 v).add x)
  | .max, v, x => fmax v (round32 x)
  | .sumsq, v, x => fadd v (round32 (x.mul x))

/-- A reduction of a list, from its first element or from a stored value (ACCUM). -/
def RedKind.fold (k : RedKind) (init : Option Word32) (xs : List Num) : Word32 :=
  match init, xs with
  | some v, xs => xs.foldl k.step v
  | none, x :: xs => xs.foldl k.step (k.start x)
  | none, [] => 0#32

/-- The value D holds, when ACCUM asks for it (R240). -/
def State.redInit (s : State) (a : CuArg) (D : Opd) (r k : Int) : Except AccErr (Option Word32) := do
  if opAccum a.ws then
    let v ← s.readVals a.ctx D r k 1
    pure ((v.head?).map round32)
  else pure none

/-- One column of a strip reduced over the rows in ascending order. -/
def redColumn (k : RedKind) (s : State) (a : CuArg) (A D : Opd) (j : Nat) : Except AccErr Word32 := do
  let init ← s.redInit a D D.r0 (D.k0 + j)
  let xs ← (List.range (opRows a.ws)).mapM (fun i => s.readVals a.ctx A (A.r0 + i) (A.k0 + j) 1)
  pure (k.fold init xs.flatten)

/-- RED: a row at its last segment, or a strip of 32 columns (R408, R414). -/
def redItem (k : RedKind) (s : State) (a : CuArg) : CuOut := do
  let A ← s.opSrc a.ctx a.ws 1
  let D ← s.opDst a.ctx a.ws a.rung
  if opCol a.ws then
    let vs ← (List.range a.n).mapM (fun i => redColumn k s a A D (a.j + i))
    s.put32 a.ctx D.desc D.r0 (D.k0 + a.j) vs
  else if a.last then
    let init ← s.redInit a D (D.r0 + a.row) D.k0
    let xs ← s.readVals a.ctx A (A.r0 + a.row) A.k0 (opCols a.ws)
    s.put32 a.ctx D.desc (D.r0 + a.row) D.k0 [k.fold init xs]
  else pure (s, 0, 0)

/-! ### MX import and export (R104 to R108) -/

/-- The device format of an MX type code (R104). -/
def mxFmt : Nat → Option Fmt
  | 0 => some .f8
  | 1 => some .f8b
  | 2 => some .f6
  | 4 => some .f4
  | 5 => some .i8
  | _ => none

/-- A block of up to 32 elements of an MX tensor: its E8M0 code and element codes. -/
structure MxBlock where
  e8 : Nat
  codes : List Nat
deriving DecidableEq, Repr

/-- X of a block (R105). -/
def MxBlock.x (b : MxBlock) (f : Fmt) : Int := (b.e8 : Int) - 127 - (if f = .i8 then 6 else 0)

/-- Are all elements of a block zero? -/
def MxBlock.zero (b : MxBlock) (f : Fmt) : Bool := b.codes.all (fun c => (decodeElem f c).isZero)

/-- The exact values of a block (R105). -/
def MxBlock.values (b : MxBlock) (f : Fmt) : List Num :=
  b.codes.map (fun c => if b.e8 = 0xFF then .nan else (decodeElem f c).mul (.fin false 1 (b.x f)))

/-- The blocks of n elements from element j of row i of an MX tensor held as plain I8 views in A and B, j a multiple of
32. -/
def State.mxRow (s : State) (ctx : Nat) (f : Fmt) (A B : Opd) (i j n : Nat) : Except AccErr (List MxBlock) := do
  let nb := (n + 31) / 32
  let bytes ← s.readRegion ctx A.desc (A.r0 + i) 1 (A.k0 + (j * f.width / 8 : Nat)) ((n * f.width + 7) / 8)
  let es ← s.readRegion ctx B.desc (B.r0 + i) 1 (B.k0 + (j / 32 : Nat)) nb
  let codes := unpackNat f.width n 0 (leVal ((bytes.headD []).map (BitVec.ofNat 8)))
  pure ((blocks32 codes).zipIdx.map (fun c => { e8 := (es.headD []).getD c.2 0, codes := c.1 }))

/-- Exact values of n elements from element j of row i of an MX tensor. -/
def State.mxVals (s : State) (ctx : Nat) (f : Fmt) (A B : Opd) (i j n : Nat) : Except AccErr (List Num) := do
  let bs ← s.mxRow ctx f A B i (j / 32 * 32) (j % 32 + n)
  pure ((bs.flatMap (MxBlock.values · f)).drop (j % 32))

/-- Xmax over a list of blocks (R105). -/
def mxMax (f : Fmt) (bs : List MxBlock) (m : Option Int) : Option Int :=
  bs.foldl (fun m b =>
    if b.e8 = 0xFF ∨ b.zero f then m
    else match m with
      | none => some (b.x f)
      | some y => some (max y (b.x f))) m

/-- k of R105. -/
def mxK : Option Int → Int
  | none => 0
  | some x => max (x - 8) (-126)

/-- One imported block in format g: S8, codes, and whether 0x01 is counted (R106); at a raised rung the elements keep their
values in the wider format. -/
def mxImport (f g : Fmt) (k : Int) (b : MxBlock) : Nat × List Nat × Nat :=
  let kept := b.codes.map (fun c => if f = g then c else (convNum g (decodeElem f c)).1)
  if b.e8 = 0xFF then (0xFF, kept, 0)
  else if b.zero f then (0, kept, 0)
  else if -17 ≤ b.x f - k then (scaleCodeUp 1 1 (b.x f - k), kept, 0)
  else (0x01, b.codes.map (fun c => (convNum g ((decodeElem f c).mul (.fin false 1 (b.x f - k + 17)))).1), 1)

/-- The tensor scale of an import, over the whole tensor, by the operation's first item (R105). -/
def State.mxScale (s : State) (a : CuArg) (f : Fmt) (A B D : Opd) : Except AccErr State := do
  if s.hasScale a.id then pure s
  else
    let m ← (List.range (opRows a.ws)).foldlM (fun m i => do
      let bs ← s.mxRow a.ctx f A B i 0 (opCols a.ws)
      pure (mxMax f bs m)) (none : Option Int)
    let v := pow2Code (mxK m)
    if D.desc.fmt.twoLevel then s.putScale a.ctx a.id D.desc.tsaddr v else pure (s.noteScale a.id v)

/-- The computed scale of an operation. -/
def State.scaleOf (s : State) (id : Nat) : Word32 :=
  ((s.ops.find? (fun o => o.1 == id)).bind (fun o => o.2.tscale)).getD f32One

/-- Whole blocks of a row imported to n elements from element j, j and the destination's K origin multiples of 32 (R106). -/
def mxWhole (s : State) (a : CuArg) (f : Fmt) (k : Int) (A B D : Opd) (n : Nat) : CuOut := do
  let bs ← s.mxRow a.ctx f A B a.row a.j n
  let out := bs.map (mxImport f D.desc.fmt k)
  let r := D.r0 + a.row
  let (u, _, _) ← s.putBits a.ctx D.desc r (D.k0 + a.j) (out.flatMap (fun o => o.2.1)) (out.map Prod.fst)
  let written := if 0 ≤ r ∧ r < D.desc.rows then (D.desc.kext - (D.k0.toNat + a.j)) / 32 else 0
  pure (u, 0, ((out.take written).map (fun o => o.2.2)).sum)

/-- MXIMP (R105, R106). A destination block that is not one whole MX block, because the rectangle ends in it (R803) or the K
origin cuts the MX blocks, is quantised from the exact MX values; a plain destination of a raised rung takes them too (log
entry 106). -/
def mximpItem (s : State) (a : CuArg) : CuOut := do
  let A ← s.opSrc a.ctx a.ws 1
  let B ← s.opSrc a.ctx a.ws 2
  let D ← s.opDst a.ctx a.ws a.rung
  match mxFmt (opMxt a.ws) with
  | none => pure (s, 0, 0)
  | some f => do
    let s ← s.mxScale a f A B D
    let n := if D.desc.fmt.twoLevel && D.k0 % 32 == 0 then a.n / 32 * 32 else 0
    (mxWhole s a f (exp32 (s.scaleOf a.id)) A B D n).next (fun t => do
      let vs ← t.mxVals a.ctx f A B a.row (a.j + n) (a.n - n)
      t.putVals a.ctx D.desc (D.r0 + a.row) (D.k0 + (a.j + n : Nat)) vs)

/-- q of R107. -/
def mxQ : Fmt → Int
  | .f4 => 2
  | .f6 => 4
  | .f8 => 8
  | .f8b => 15
  | _ => 0

/-- One exported block: E8M0 code, element codes, clamps (R107, R108). -/
def mxExport (f : Fmt) (vs : List Num) : Nat × List Nat × Nat :=
  if vs.any (fun v => !v.isFin) then (0xFF, vs.map (fun _ => 0), 0)
  else
    match largestFin vs with
    | .fin _ m e =>
      if m = 0 then (0, vs.map (fun _ => 0), 0)
      else
        let x := max (-127) (min 127 (log2Ratio m 1 e - mxQ f))
        let up : Int := if f = .i8 then 6 else 0
        let rs := vs.map (fun v => convNum f (v.mul (.fin false 1 (up - x))))
        ((x + 127).toNat, rs.map Prod.fst, (rs.filter Prod.snd).length)
    | _ => (0, vs.map (fun _ => 0), 0)

/-- MXEXP (R107, R108): bytes a.j to a.j + a.n − 1 of the row's elements to D, and the E8M0 codes of the blocks that begin
there to B, both plain I8 views; those blocks' clamps count. -/
def mxexpItem (s : State) (a : CuArg) : CuOut := do
  let A ← s.opSrc a.ctx a.ws 1
  let B ← s.opSrc a.ctx a.ws 2
  let D ← s.opDst a.ctx a.ws a.rung
  match mxFmt (opMxt a.ws) with
  | none => pure (s, 0, 0)
  | some f => do
    let bb := 4 * f.width
    let b0 := a.j / bb
    let b1 := (a.j + a.n + bb - 1) / bb
    let vs ← s.readVals a.ctx A (A.r0 + a.row) (A.k0 + (32 * b0 : Nat)) (min (32 * b1) (opCols a.ws) - 32 * b0)
    let out := (blocks32 vs).map (mxExport f)
    let skip := if a.j % bb = 0 then 0 else 1
    let own := out.drop skip
    let bytes := (((packCodes f (out.flatMap (fun o => o.2.1))).map BitVec.toNat).drop (a.j - bb * b0)).take a.n
    let (u, _, _) ← s.putBits a.ctx D.desc (D.r0 + a.row) (D.k0 + a.j) bytes []
    let (v, _, _) ← u.putBits a.ctx B.desc (B.r0 + a.row) (B.k0 + (b0 + skip : Nat)) (own.map Prod.fst) []
    pure (v, (own.map (fun o => o.2.2)).sum, 0)

/-! ### NORM (R345 to R348, R804) -/

/-- r of an RMS row (R345). -/
def rmsR (rho eps : Word32) : List Num → Word32
  | [] => frsqrt eps
  | x :: xs => frsqrt (fadd (fmul (xs.foldl (fun q v => fadd q (round32 (v.mul v))) (round32 (x.mul x))) rho) eps)

/-- x - mu, rounded. -/
def centred (mu : Word32) (x : Num) : Word32 := round32 (x.add (val32 mu).neg)

/-- An infinity. -/
def Num.isInf : Num → Bool
  | .inf _ => true
  | _ => false

/-- A row with an infinite element and no NaN (R351). -/
def infRow (xs : List Num) : Bool := xs.any Num.isInf && xs.all (fun x => x != .nan)

/-- mu and r of a LAYER row (R345); with an infinite element c is +∞ and r is +0 (R351, log entry 99). -/
def layerMuR (rho eps : Word32) : List Num → Word32 × Word32
  | [] => (0#32, frsqrt eps)
  | x :: xs =>
    let mu := fmul (xs.foldl (fun v y => round32 ((val32 v).add y)) (round32 x)) rho
    let sq (v : Num) : Word32 := fmul (centred mu v) (centred mu v)
    (mu, if infRow (x :: xs) then 0#32
      else frsqrt (fadd (fmul (xs.foldl (fun c v => fadd c (sq v)) (sq x)) rho) eps))

/-- y of RMS: (x × r) × g (R345). -/
def rmsY (r : Word32) (x g : Num) : Word32 := round32 ((val32 (round32 (x.mul (val32 r)))).mul g)

/-- y of LAYER: ((x − mu) × r) × g + b (R345). -/
def layerY (mu r : Word32) (x g b : Num) : Word32 :=
  round32 ((val32 (round32 ((val32 (fmul (centred mu x) r)).mul g))).add b)

/-- y of LAYER in a row with an infinite element: NaN there, and elsewhere a zero of the sign of x − mu, × g + b (R351, log
entry 99). -/
def layerInfY (mu : Word32) (x g b : Num) : Word32 :=
  if !x.isFin then f32NaN
  else round32 ((val32 (round32 ((Num.fin (val32 mu == .inf false) 0 0).mul g))).add b)

/-- A per-feature vector of n values from element 0, or a constant where the record names none (R345). -/
def State.normVec (s : State) (a : CuArg) (i : Nat) (c : Word32) (j n : Nat) : Except AccErr (List Num) := do
  if opDesc a.ws i = 0 then pure (List.replicate n (val32 c))
  else
    let o ← s.opSrc a.ctx a.ws i
    s.readVals a.ctx o o.r0 (o.k0 + j) n

/-- The pair tensor's operand (R408). -/
def State.pairOpd (s : State) (a : CuArg) : Except AccErr TDesc := s.readDesc a.ctx (opAux a.ws)

/-- The pair (mu, r) of a row written at AUX (R347). -/
def State.putPair (s : State) (a : CuArg) (mu r : Word32) : CuOut := do
  let p ← s.pairOpd a
  s.put32 a.ctx p (opRow0 a.ws 0 + a.row) 0 [mu, r]

/-- The stored pair of a row (R347). -/
def State.getPair (s : State) (a : CuArg) : Except AccErr (Word32 × Word32) := do
  let p ← s.pairOpd a
  let v ← s.readVals a.ctx { desc := p } (opRow0 a.ws 0 + a.row) 0 2
  pure (round32 (v.getD 0 (.fin false 0 0)), round32 (v.getD 1 (.fin false 0 0)))

/-- The row of A, from element j. -/
def State.normX (s : State) (a : CuArg) (j n : Nat) : Except AccErr (List Num) := do
  let A ← s.opSrc a.ctx a.ws 1
  s.readVals a.ctx A (A.r0 + a.row) (A.k0 + j) n

/-- y of elements j to j + n − 1 written to D (R346); `inf`: of a LAYER row with an infinite element. -/
def State.normOut (s : State) (a : CuArg) (layer inf : Bool) (mu r : Word32) (xs : List Num) (j : Nat) : CuOut := do
  let g ← s.normVec a 2 f32One j xs.length
  let b ← s.normVec a 3 0#32 j xs.length
  let D ← s.opDst a.ctx a.ws a.rung
  let y := (xs.zip (g.zip b)).map (fun v =>
    if inf then layerInfY mu v.1 v.2.1 v.2.2
    else if layer then layerY mu r v.1 v.2.1 v.2.2
    else rmsY r v.1 v.2.1)
  s.put32 a.ctx D.desc (D.r0 + a.row) (D.k0 + j) y

/-- The statistics of a row (R345). -/
def normStats (layer : Bool) (ws : List Word) (xs : List Num) : Word32 × Word32 :=
  if layer then layerMuR (opF0 ws) (opF1 ws) xs else (0#32, rmsR (opF0 ws) (opF1 ws) xs)

/-- RMS and LAYER, written when the row's last segment has run (R414). -/
def normFull (layer : Bool) (s : State) (a : CuArg) : CuOut := do
  if a.last then
    let xs ← s.normX a 0 (opCols a.ws)
    let (mu, r) := normStats layer a.ws xs
    let out := s.normOut a layer (layer && infRow xs) mu r xs 0
    if opPair a.ws then out.next (fun t => t.putPair a mu r) else out
  else pure (s, 0, 0)

/-- RMS STATS and LAYER STATS. -/
def normPairs (layer : Bool) (s : State) (a : CuArg) : CuOut := do
  if a.last then
    let xs ← s.normX a 0 (opCols a.ws)
    let (mu, r) := normStats layer a.ws xs
    s.putPair a mu r
  else pure (s, 0, 0)

/-- RMS APPLY and LAYER APPLY. -/
def normApply (layer : Bool) (s : State) (a : CuArg) : CuOut := do
  let (mu, r) ← s.getPair a
  let xs ← s.normX a a.j a.n
  let row ← if layer && r == 0#32 then s.normX a 0 (opCols a.ws) else pure []
  s.normOut a layer (infRow row) mu r xs a.j

/-! ### COMBINE and SMXMERGE (R326, R328) -/

/-- p_0, then each later partial added with one rounding (R326). -/
def sumParts : List (List Num) → List Word32
  | [] => []
  | p :: ps => ps.foldl (fun acc q => (acc.zip q).map (fun v => round32 ((val32 v.1).add v.2))) (p.map round32)

/-- COMBINE. -/
def combineItem (s : State) (a : CuArg) : CuOut := do
  let A ← s.opSrc a.ctx a.ws 1
  let D ← s.opDst a.ctx a.ws a.rung
  let ps ← (List.range (opParts a.ws)).mapM (fun (i : Nat) =>
    s.readVals a.ctx A (A.r0 + a.row + (i : Int) * opSstr a.ws) (A.k0 + a.j) a.n)
  s.put32 a.ctx D.desc (D.r0 + a.row) (D.k0 + a.j) (sumParts ps)

/-- m, l and o of one query row (R328). -/
structure Smx where
  m : Word32
  l : Word32
  o : List Word32
deriving DecidableEq, Repr

/-- One further split merged (R328). -/
def Smx.merge (x y : Smx) : Smx :=
  if y.m = f32NegInf then x
  else if x.m = f32NegInf then y
  else
    let mn := fmax x.m y.m
    let a := fexp (fsub x.m mn)
    let b := fexp (fsub y.m mn)
    { m := mn, l := fadd (fmul x.l a) (fmul y.l b),
      o := (x.o.zip y.o).map (fun v => fadd (fmul v.1 a) (fmul v.2 b)) }

/-- out of R328. -/
def Smx.out (x : Smx) : List Word32 :=
  if (val32 x.l).isZero then x.o.map (fun _ => 0#32) else x.o.map (fun v => fmul v (frcp x.l))

/-- Split i of an SMXMERGE row. -/
def State.smxPart (s : State) (a : CuArg) (A B : Opd) (i : Nat) : Except AccErr Smx := do
  let br := B.r0 + (opC0 a.ws * (a.row / max 1 (opC1 a.ws)) : Nat) + (i : Int) * opSstrb a.ws
  let bk := B.k0 + (a.row % max 1 (opC1 a.ws) : Nat)
  let m ← s.readVals a.ctx B br bk 1
  let l ← s.readVals a.ctx B (br + 1) bk 1
  let o ← s.readVals a.ctx A (A.r0 + a.row + (i : Int) * opSstr a.ws) (A.k0 + a.j) a.n
  pure { m := round32 (m.headD .nan), l := round32 (l.headD .nan), o := o.map round32 }

/-- SMXMERGE (R328, R349, R350). -/
def smxmergeItem (s : State) (a : CuArg) : CuOut := do
  let A ← s.opSrc a.ctx a.ws 1
  let B ← s.opSrc a.ctx a.ws 2
  let D ← s.opDst a.ctx a.ws a.rung
  let ps ← (List.range (opParts a.ws)).mapM (s.smxPart a A B)
  match ps with
  | [] => pure (s, 0, 0)
  | p :: rest => s.put32 a.ctx D.desc (D.r0 + a.row) (D.k0 + a.j) (rest.foldl Smx.merge p).out

/-! ### Re-layouts and index lists (R354, R355, R408, R806) -/

/-- The pieces of elements j to j + n − 1 cut at every W elements: (chunk, offset, length). -/
def chunkRuns (W j n : Nat) : List (Nat × Nat × Nat) :=
  (List.range ((j % max 1 W + n + W - 1) / max 1 W)).map (fun i =>
    let c := j / max 1 W + i
    let lo := max j (c * W)
    let hi := min (j + n) ((c + 1) * W)
    (c, lo - c * W, hi - lo))

/-- KVRELAYOUT: destination row `row` holds the keys congruent to it mod W, chunk after chunk (R354, R806). -/
def kvItem (s : State) (a : CuArg) : CuOut := do
  let A ← s.opSrc a.ctx a.ws 1
  let D ← s.opDst a.ctx a.ws a.rung
  let cols := opCols a.ws
  cuEach s (chunkRuns cols a.j a.n) (fun t c =>
    t.copyElems a.ctx A (A.r0 + (c.1 * opC1 a.ws + a.row : Nat)) (A.k0 + c.2.1) D.desc (D.r0 + a.row)
      (D.k0 + (c.1 * cols + c.2.1 : Nat)) c.2.2)

/-- VREBLOCK: destination row d holds dimension d of every key (R355, R806). -/
def vreItem (s : State) (a : CuArg) : CuOut := do
  let A ← s.opSrc a.ctx a.ws 1
  let D ← s.opDst a.ctx a.ws a.rung
  let vs ← (List.range a.n).mapM (fun i => s.readVals a.ctx A (A.r0 + (a.j + i : Nat)) (A.k0 + a.row) 1)
  s.putVals a.ctx D.desc (D.r0 + a.row) (D.k0 + a.j) vs.flatten

/-- Entry i of the index list B. -/
def State.opIndex (s : State) (ctx : Nat) (ws : List Word) (i : Nat) : Except AccErr Int := do
  let B ← s.opSrc ctx ws 2
  let v ← s.readRegion ctx B.desc (B.r0 + i) 1 B.k0 1
  pure (signedOf 32 ((v.headD []).headD 0))

/-- GATHER. -/
def gatherItem (s : State) (a : CuArg) : CuOut := do
  let A ← s.opSrc a.ctx a.ws 1
  let D ← s.opDst a.ctx a.ws a.rung
  let x ← s.opIndex a.ctx a.ws a.row
  if x < 0 then s.putZeros a.ctx D.desc (D.r0 + a.row) (D.k0 + a.j) a.n
  else s.copyElems a.ctx A (A.r0 + x) (A.k0 + a.j) D.desc (D.r0 + a.row) (D.k0 + a.j) a.n

/-- SCATTER: an append to a pool page first moves the page (R368). -/
def scatterItem (job w : Nat) (s : State) (a : CuArg) : CuOut := do
  let A ← s.opSrc a.ctx a.ws 1
  let D ← s.opDst a.ctx a.ws a.rung
  let x ← s.opIndex a.ctx a.ws a.row
  if x < 0 then pure (s, 0, 0)
  else
    let t ← s.appendMoves job w (D.desc.spans (D.r0 + x) 1 (D.k0 + a.j) a.n)
    t.copyElems a.ctx A (A.r0 + a.row) (A.k0 + a.j) D.desc (D.r0 + x) (D.k0 + a.j) a.n

/-! ### Geometry records (R379, R380) -/

/-- A geometry record. -/
structure Geo where
  ebase : Nat
  oExt : Nat × Nat × Nat
  o0 : Int × Int × Int
  l : Nat × Nat × Nat
  b : Int × Int × Int
  i : Nat × Nat × Nat
  k : Nat × Nat × Nat
  st : Nat × Nat × Nat
  d : Nat × Nat × Nat
  pad : Nat × Nat × Nat
  replicate : Bool
  crun : Nat
  coff : Nat
deriving DecidableEq, Repr

/-- n bytes at offset o as a number. -/
def geoU (bs : List Byte) (o n : Nat) : Nat := leVal ((bs.drop o).take n)
/-- Three numbers of n bytes from offset o. -/
def geoU3 (bs : List Byte) (o n : Nat) : Nat × Nat × Nat := (geoU bs o n, geoU bs (o + n) n, geoU bs (o + 2 * n) n)
/-- Three I16 from offset o. -/
def geoI3 (bs : List Byte) (o : Nat) : Int × Int × Int :=
  (signedOf 16 (geoU bs o 2), signedOf 16 (geoU bs (o + 2) 2), signedOf 16 (geoU bs (o + 4) 2))

/-- A record's fields (R379). -/
def parseGeo (bs : List Byte) : Geo :=
  { ebase := geoU bs 0 4, oExt := geoU3 bs 4 2, o0 := geoI3 bs 10, l := geoU3 bs 16 2, b := geoI3 bs 22,
    i := geoU3 bs 28 2, k := geoU3 bs 34 1, st := geoU3 bs 37 1, d := geoU3 bs 40 1,
    pad := (geoU bs 43 1, geoU bs 45 1, geoU bs 47 1), replicate := geoU bs 49 1 % 4 == 1, crun := geoU bs 52 4,
    coff := geoU bs 56 4 }

/-- The output site of expanded row e, none past the output box (R380). -/
def Geo.site (g : Geo) (e : Int) : Option (Int × Int × Int) :=
  let n := e - g.ebase
  let (t, h, w) := g.oExt
  if n < 0 ∨ ((t * h * w : Nat) : Int) ≤ n then none
  else
    let n := n.toNat
    some (g.o0.1 + (n / (h * w) : Nat), g.o0.2.1 + (n / w % h : Nat), g.o0.2.2 + (n % w : Nat))

/-- The taps of a kernel in ascending order (R377). -/
def Geo.taps (g : Geo) : List (Nat × Nat × Nat) :=
  (List.range g.k.1).flatMap (fun t => (List.range g.k.2.1).flatMap (fun y =>
    (List.range g.k.2.2).map (fun x => (t, y, x))))

/-- Does a coordinate lie in 0 to its L − 1? -/
def inAxis (i : Int) (l : Nat) : Bool := decide (0 ≤ i ∧ i < l)

/-- A coordinate clamped to 0 to its L − 1. -/
def clampAxis (i : Int) (l : Nat) : Int := max 0 (min i ((l : Int) - 1))

/-- The input coordinates of a tap of a site (R380). -/
def Geo.tapAt (g : Geo) (o : Int × Int × Int) (t : Nat × Nat × Nat) : Int × Int × Int :=
  (o.1 * g.st.1 + (t.1 * g.d.1 : Nat) - g.pad.1, o.2.1 * g.st.2.1 + (t.2.1 * g.d.2.1 : Nat) - g.pad.2.1,
   o.2.2 * g.st.2.2 + (t.2.2 * g.d.2.2 : Nat) - g.pad.2.2)

/-- Is an input coordinate inside the layer's whole input? -/
def Geo.inside (g : Geo) (i : Int × Int × Int) : Bool :=
  inAxis i.1 g.l.1 && inAxis i.2.1 g.l.2.1 && inAxis i.2.2 g.l.2.2

/-- Each coordinate clamped (R380, R386). -/
def Geo.clamp (g : Geo) (i : Int × Int × Int) : Int × Int × Int :=
  (clampAxis i.1 g.l.1, clampAxis i.2.1 g.l.2.1, clampAxis i.2.2 g.l.2.2)

/-- The input-buffer row of an input coordinate (R380, R376). -/
def Geo.bufRow (g : Geo) (i : Int × Int × Int) : Int :=
  ((i.1 - g.b.1) * g.i.2.1 + (i.2.1 - g.b.2.1)) * g.i.2.2 + (i.2.2 - g.b.2.2)

/-- One row that a GAT builds (R380). -/
def State.gatRow (s : State) (ctx : Nat) (q : Req) (e : Int) : CuOut :=
  let g := parseGeo q.geom
  let d := { q.dst with fmt := q.fmt }
  match g.site e with
  | none => s.putZeros ctx d e q.dstK (g.taps.length * g.crun)
  | some o =>
    cuEach s g.taps.zipIdx (fun t tp =>
      let i := g.tapAt o tp.1
      let k := q.dstK + (tp.2 * g.crun : Nat)
      if !g.inside i && !g.replicate then t.putZeros ctx d e k g.crun
      else t.copyElems ctx { desc := q.src } (q.srcRow + g.bufRow (g.clamp i)) (q.srcK + g.coff) d e k g.crun)

/-! ### POOL and UPSAMPLE (R385 to R387) -/

/-- The geometry record of an operation, at AUX. -/
def State.opGeo (s : State) (a : CuArg) : Except AccErr Geo := do
  let bs ← s.readVa a.ctx (opAux a.ws) 64
  pure (parseGeo bs)

/-- Values of the channels of an input site. -/
def State.siteVals (s : State) (a : CuArg) (A : Opd) (g : Geo) (i : Int × Int × Int) : Except AccErr (List Num) :=
  s.readVals a.ctx A (A.r0 + g.bufRow i) (A.k0 + g.coff + a.j) a.n

/-- The FP32 value nearest 1 / n. -/
def oneOver (n : Nat) : Word32 := ratio32 1 n 0

/-- The larger of two exact values: IEEE 754 maximum, +0 above −0, NaN for any NaN (R385). -/
def Num.larger (a b : Num) : Num :=
  if a == .nan || b == .nan then .nan
  else if a.lt b then b
  else if b.lt a then a
  else match a with
    | .fin true 0 _ => b
    | v => v

/-- MAX and AVG of one channel over its non-padding taps (R385): the first value is exact, and each addition and the product
round once. -/
def poolChannel (avg : Bool) (vs : List Num) : Num :=
  match vs with
  | [] => .fin false 0 0
  | v :: rest =>
    if avg then
      val32 (round32 ((rest.foldl (fun s x => val32 (round32 (s.add x))) v).mul (val32 (oneOver vs.length))))
    else rest.foldl Num.larger v

/-- POOL (R385); rows past the output box are zero, as R380 has it. -/
def poolItem (avg : Bool) (s : State) (a : CuArg) : CuOut := do
  let A ← s.opSrc a.ctx a.ws 1
  let D ← s.opDst a.ctx a.ws a.rung
  let g ← s.opGeo a
  match g.site (D.r0 + a.row) with
  | none => s.putZeros a.ctx D.desc (D.r0 + a.row) (D.k0 + a.j) a.n
  | some o =>
    let taps := (g.taps.map (g.tapAt o)).filter g.inside
    let vs ← taps.mapM (s.siteVals a A g)
    s.putVals a.ctx D.desc (D.r0 + a.row) (D.k0 + a.j) ((List.range a.n).map (fun i =>
      poolChannel avg (vs.map (fun v => v.getD i .nan))))

/-- UPSAMPLE NEAREST (R386, R387): it changes no guard count, converted elements of a replay or a cut block included. -/
def upNearest (s : State) (a : CuArg) : CuOut := do
  let A ← s.opSrc a.ctx a.ws 1
  let D ← s.opDst a.ctx a.ws a.rung
  let g ← s.opGeo a
  match g.site (D.r0 + a.row) with
  | none => s.putZeros a.ctx D.desc (D.r0 + a.row) (D.k0 + a.j) a.n
  | some o =>
    let i := (o.1 / (g.k.1 : Int), o.2.1 / (g.k.2.1 : Int), o.2.2 / (g.k.2.2 : Int))
    let (t, _, _) ← s.copyElems a.ctx A (A.r0 + g.bufRow i) (A.k0 + g.coff + a.j) D.desc (D.r0 + a.row) (D.k0 + a.j) a.n
    pure (t, 0, 0)

/-- i0, the numerator of w over 2f, for output coordinate o and factor f (R386): s = (2o + 1 − f) / 2f. -/
def triPos (o : Int) (f : Nat) : Int × Nat :=
  let num := 2 * o + 1 - f
  (num / (2 * (f : Int)), (num % (2 * (f : Int))).toNat)

/-- round(a × p / q), exact before its one rounding. -/
def mulRatio (a : Num) (p q : Nat) : Word32 :=
  match a with
  | .fin neg m e => BitVec.ofNat 32 (roundTo .fp32 neg (m * p) q e).1
  | v => round32 v

/-- One interpolation step (R386). -/
def triStep (w q : Nat) (a b : Num) : Num :=
  if w = 0 then a else val32 (fadd (mulRatio a (q - w) q) (mulRatio b w q))

/-- A channel of a trilinear site from its eight corners in order t, y, x (R386). -/
def triChannel (wt qt wy qy wx qx : Nat) (c : List Num) : Num :=
  let v (i : Nat) : Num := c.getD i .nan
  let x (i : Nat) : Num := triStep wx qx (v i) (v (i + 1))
  let y (i : Nat) : Num := triStep wy qy (x i) (x (i + 2))
  triStep wt qt (y 0) (y 4)

/-- UPSAMPLE TRILINEAR (R386, R387). -/
def upTrilinear (s : State) (a : CuArg) : CuOut := do
  let A ← s.opSrc a.ctx a.ws 1
  let D ← s.opDst a.ctx a.ws a.rung
  let g ← s.opGeo a
  match g.site (D.r0 + a.row) with
  | none => s.putZeros a.ctx D.desc (D.r0 + a.row) (D.k0 + a.j) a.n
  | some o =>
    let (t, wt) := triPos o.1 g.k.1
    let (y, wy) := triPos o.2.1 g.k.2.1
    let (x, wx) := triPos o.2.2 g.k.2.2
    let corners := [(t, y, x), (t, y, x + 1), (t, y + 1, x), (t, y + 1, x + 1), (t + 1, y, x), (t + 1, y, x + 1),
      (t + 1, y + 1, x), (t + 1, y + 1, x + 1)]
    let vs ← corners.mapM (fun c => s.siteVals a A g (g.clamp c))
    let out := (List.range a.n).map (fun i =>
      triChannel wt (2 * g.k.1) wy (2 * g.k.2.1) wx (2 * g.k.2.2) (vs.map (fun v => v.getD i .nan)))
    s.putVals a.ctx D.desc (D.r0 + a.row) (D.k0 + a.j) out

end Sys2Proof.Machine
end

