-- ==== Sys2Proof/Machine/Cu.lean ====
section
/-!
DEFINITION. The cistern units at work (R413 to R421): how an operation is divided into items, the units' queues,
the performance and completion of items, faults, and the cistern's own upkeep (R396 to R399, R402).
-/

namespace Sys2Proof.Machine

/-! ### Division into items (R413, R414) -/

/-- Rows of one length: how many, their elements, the element width, the K coordinate of the first, and the elements that
an item may take. -/
structure RowGroup where
  rows : Nat
  len : Nat
  width : Nat
  k0 : Int
  cap : Nat
deriving DecidableEq, Repr

/-- The longest segment of at most n elements, from K coordinate k, that ends at a multiple of 32. -/
def segTo (k : Int) (n : Nat) : Nat :=
  let r := ((k + n) % 32).toNat
  if r < n then n - r else 32 - (k % 32).toNat

/-- Elements of the first segment: the whole row, or at most what an item may take, ending at a K coordinate that is a
multiple of 32. -/
def RowGroup.firstSeg (g : RowGroup) : Nat := if g.len ≤ g.cap then g.len else segTo g.k0 g.cap

/-- Elements of every later segment but the last. -/
def RowGroup.laterSeg (g : RowGroup) : Nat := max 32 (g.cap / 32 * 32)

/-- Segments of a row. -/
def RowGroup.segs (g : RowGroup) : Nat := 1 + (g.len - g.firstSeg + g.laterSeg - 1) / g.laterSeg

/-- Segment j of a row: first element, length, and whether it is the last. -/
def RowGroup.seg (g : RowGroup) (j : Nat) : Nat × Nat × Bool :=
  let a := if j = 0 then 0 else g.firstSeg + (j - 1) * g.laterSeg
  let b := min g.len (g.firstSeg + j * g.laterSeg)
  (a, b - a, decide (j + 1 = g.segs))

/-- Elements of an item at most: 64 KiB of its row, and of reads and writes together 256 KiB, where `moved` is 8 times the
bytes that an element of the row moves (R413, R417, log entry 108). -/
def itemCap (width moved : Nat) : Nat := min (65536 * 8 / width) (262144 * 8 / max 1 moved)

/-- Bits that a source element takes, its share of a block scale included. -/
def TDesc.cost (d : TDesc) : Nat := d.fmt.width + (if d.fmt.twoLevel then 1 else 0)

/-- Bits that an operation reads for an element of its row: each source once per sweep, every split partial, every tap
(R408). -/
def State.opReads (s : State) (ctx : Nat) (ws : List Word) : Except AccErr Nat := do
  let src (i : Nat) : Except AccErr Nat := if opDesc ws i = 0 then pure 0 else do
    let d ← s.readDesc ctx (opDesc ws i)
    pure d.cost
  let a ← src 1
  let b ← src 2
  match opOpc ws with
  | 0x40 => pure (a + b)
  | 0x42 => pure (if opVar ws = 1 then 2 * a else a)
  | 0x44 => pure 18
  | 0x46 => do
    let c ← src 3
    pure (([2, 3, 1, 1, 2, 1].getD (opVar ws) 1) * a + b + c)
  | 0x47 | 0x48 => pure (a * opParts ws)
  | 0x4D => do
    let bs ← s.readVa ctx (opAux ws) 64
    pure (a * (parseGeo bs).taps.length)
  | 0x4E => pure (if opVar ws = 1 then 8 * a else a)
  | 0x4F => pure 0
  | _ => pure a

/-- Rows of one length with what an item of them may take. -/
def rowGroup (rows len width : Nat) (k0 : Int) (moved : Nat) : RowGroup :=
  ⟨rows, len, width, k0, itemCap width moved⟩

/-- The rows of an operation in item order (R413, R414, R806); of MXEXP, in bytes of the exported rows. -/
def State.opGroups (s : State) (ctx : Nat) (ws : List Word) (rung : Nat) : Except AccErr (List RowGroup) := do
  let rows := opRows ws
  let cols := opCols ws
  let reads ← s.opReads ctx ws
  match opOpc ws with
  | 0x41 => do
    let A ← s.readDesc ctx (opDesc ws 1)
    if opCol ws then
      pure [⟨cols / 32, 32, 32, 0, 32⟩, ⟨if cols % 32 = 0 then 0 else 1, cols % 32, 32, 0, 32⟩]
    else pure [rowGroup rows cols A.fmt.width (opK0 ws 1) reads]
  | 0x45 => do
    let D ← s.opDst ctx ws rung
    let w := (mxFmt (opMxt ws)).elim 8 Fmt.width
    pure [rowGroup rows ((cols * w + 7) / 8) 8 D.k0 (8 * reads / w + 9)]
  | 0x49 => do
    let D ← s.opDst ctx ws rung
    let w := max 1 (opC1 ws)
    let full := rows / w
    let part := rows % w
    let m := reads + D.desc.cost
    pure [rowGroup part ((full + 1) * cols) D.desc.fmt.width D.k0 m,
          rowGroup (if full = 0 then 0 else w - part) (full * cols) D.desc.fmt.width D.k0 m]
  | 0x4A => do
    let D ← s.opDst ctx ws rung
    pure [rowGroup cols rows D.desc.fmt.width D.k0 (reads + D.desc.cost)]
  | 0x46 =>
    if opVar ws = 3 ∨ opVar ws = 4 then do
      let A ← s.readDesc ctx (opDesc ws 1)
      pure [rowGroup rows cols A.fmt.width (opK0 ws 1) reads]
    else do
      let D ← s.opDst ctx ws rung
      pure [rowGroup rows cols D.desc.fmt.width D.k0 (reads + D.desc.cost)]
  | _ => do
    let D ← s.opDst ctx ws rung
    pure [rowGroup rows cols D.desc.fmt.width D.k0 (reads + D.desc.cost)]

/-- Items of an operation in all. -/
def itemsOf (gs : List RowGroup) : Nat := (gs.map (fun g => g.rows * g.segs)).sum

/-- Item i: its row, group and segment. -/
def itemAt : List RowGroup → Nat → Nat → Option (Nat × RowGroup × Nat)
  | [], _, _ => none
  | g :: gs, base, i =>
    if i < g.rows * g.segs then some (base + i / g.segs, g, i % g.segs)
    else itemAt gs (base + g.rows) (i - g.rows * g.segs)

/-- The context of a job for the units and pumps of well w (R426, R441). -/
def State.cuCtx (s : State) (w job : Nat) : Nat := viaQ w (s.ctxOf job)

/-- Item i of operation id as its work takes it; a strip of a column reduction is its own segment. -/
def State.cuArg (s : State) (id i : Nat) (op : OpRun) : Except AccErr CuArg := do
  let ctx := s.cuCtx op.well op.job
  let gs ← s.opGroups ctx op.words op.rung
  match itemAt gs 0 i with
  | none => .error (.stall 413)
  | some (row, g, sg) =>
    let (j, n, last) := g.seg sg
    if opOpc op.words = 0x41 ∧ opCol op.words then
      pure { ctx := ctx, ws := op.words, rung := op.rung, id := id, row := 0, j := 32 * row, n := n, last := true,
             len := n }
    else pure { ctx := ctx, ws := op.words, rung := op.rung, id := id, row := row, j := j, n := n, last := last,
                len := g.len }

/-- Do all segments of a row run on one unit (R414)? -/
def carried (opc : Nat) : Bool := opc == 0x41 || opc == 0x46 || opc == 0x47 || opc == 0x48

/-- The unit that takes an item (R413): over the bank group of its first destination byte, or by its destination
row. -/
def State.itemUnit (s : State) (w : Nat) (op : OpRun) (a : CuArg) : Nat :=
  let j := if carried (opOpc op.words) && !opCol op.words then 0 else a.j
  let row : Except AccErr Int := if opOpc op.words = 0x4C then s.opIndex a.ctx a.ws a.row else .ok (a.row : Int)
  match row with
  | .error _ => a.row % 64
  | .ok r =>
    if opOpc op.words = 0x46 ∧ (opVar op.words = 3 ∨ opVar op.words = 4) then
      match s.pairOpd a with
      | .error _ => a.row % 64
      | .ok d => s.unitFor a.ctx w (d.firstByte (opRow0 a.ws 0 + r) 0) a.row
    else
      match s.opDst a.ctx a.ws a.rung with
      | .error _ => r.toNat % 64
      | .ok D =>
        if r < 0 then a.row % 64
        else s.unitFor a.ctx w (D.desc.firstByte (D.r0 + r) (D.k0 + j)) r.toNat

/-! ### Operations in progress -/

/-- Operation id. -/
def State.op (s : State) (id : Nat) : Option OpRun := (s.ops.find? (fun o => o.1 == id)).map Prod.snd
/-- Operation id changed. -/
def State.modOp (s : State) (id : Nat) (f : OpRun → OpRun) : State :=
  { s with ops := s.ops.map (fun o => if o.1 = id then (id, f o.2) else o) }
/-- Operation id removed. -/
def State.dropOp (s : State) (id : Nat) : State := { s with ops := s.ops.filter (fun o => o.1 != id) }

/-- An item of operation id. -/
def CuItem.ofOp (id : Nat) : CuItem → Bool
  | .op o _ => o == id
  | _ => false

/-- Items of operation id outstanding at a unit (R413). -/
def CuUnit.outstanding (x : CuUnit) (id : Nat) : Nat :=
  (x.opQ.filter (CuItem.ofOp id)).length + (if (x.cur.any (fun c => c.1.ofOp id)) then 1 else 0)

/-- The guard entry of an operation, checked (R38, R420). -/
def State.opGuardEntry (s : State) (ctx : Nat) (ws : List Word) : Except AccErr (Option Word) := do
  if opGuard ws = 0 then pure none
  else
    let g ← s.readGuard64 ctx (opGuard ws)
    pure (some g)

/-- Last rung an operation may reach by itself (R116): the room of a two-level destination, capped. -/
def State.opLast (s : State) (ctx : Nat) (ws : List Word) (g : Word) : Except AccErr Nat := do
  if opDesc ws 0 = 0 then pure (guardMax g)
  else
    let d ← s.readDesc ctx (opDesc ws 0)
    pure (if d.fmt.twoLevel then min d.fmt.room (guardMax g) else guardMax g)

/-- An operation accepted by pump n of well w at the job's rung (R412, R418). -/
def State.startOp (s : State) (w n job addr tag : Nat) (ws : List Word) (g : Option Word) (last : Nat) :
    Except AccErr State := do
  let rung := ((s.job job).map Job.layerRung).getD 0
  let gs ← s.opGroups (s.cuCtx w job) ws rung
  let op : OpRun := { job := job, well := w, words := ws, rung := rung, total := itemsOf gs, guard := g, last := last }
  let p : Pump := { state := 1, job := job, tag := tag, addr := addr, words := ws, op := some s.nextId }
  let t := { s with ops := (s.nextId, op) :: s.ops, nextId := s.nextId + 1 }
  pure ((t.setPump w n p).setFld (rWlPumpStat w) n n 1)

/-- May pumps and units of a job issue work? Not once its pre-emption is signalled, nor once it ends (R421). -/
def State.mayIssue (s : State) (job : Nat) : Bool :=
  match s.job job with
  | some j => decide (j.phase = .running) && j.status.isNone
  | none => false

/-! ### Units (R415, R416) -/

/-- The queue a unit serves: 0 bobbin items, 1 operation items, 2 walker combines. -/
def CuUnit.queue (x : CuUnit) : Nat → List CuItem
  | 0 => x.bobQ
  | 1 => x.opQ
  | _ => x.combQ

/-- A queue replaced. -/
def CuUnit.setQueue (x : CuUnit) (q : Nat) (l : List CuItem) : CuUnit :=
  match q with
  | 0 => { x with bobQ := l }
  | 1 => { x with opQ := l }
  | _ => { x with combQ := l }

/-- The next item of an idle unit: the non-empty queues in turn, each in arrival order (R416). -/
def CuUnit.next (x : CuUnit) : Option (CuItem × CuUnit) :=
  ([0, 1, 2].map (fun i => (x.turn + i) % 3)).findSome? (fun q =>
    match x.queue q with
    | [] => none
    | it :: rest => some (it, { x.setQueue q rest with turn := (q + 1) % 3 }))

/-- Elements of a row made undefined with their block scales (R419). -/
def State.undefRow (s : State) (ctx : Nat) (d : TDesc) (r k : Int) (n : Nat) : State := s.undefVas ctx (d.spans r 1 k n)

/-- An access error noted for an item at unit u of well w (R399, R419, R420, R435). -/
def State.noteItem (s : State) (w u ctx : Nat) (who : Who) : AccErr → State
  | .tier _ l wr => s.noteTier who w (146 + u) l wr
  | .guard va => s.noteGuard w (146 + u) va
  | .stall _ => s
  | e => s.noteTrans ctx w e

/-- The rest of an operation or combine whose item failed: none of its items is performed any more. -/
def State.cancelItems (s : State) (w : Nat) (p : CuItem → Bool) : State :=
  (List.range 64).foldl (fun t u =>
    let x := t.unit w u
    t.setUnit w u { x with bobQ := x.bobQ.filter (fun i => !p i), opQ := x.opQ.filter (fun i => !p i),
                           combQ := x.combQ.filter (fun i => !p i) }) s

/-- The destination row of an item of an operation made undefined, all of its segments: its elements, the row's element of
a reduction, the pair of a norm, the indexed row of a SCATTER, the bytes and scales of an export (R408, R419). -/
def State.undefDest (s : State) (a : CuArg) : State :=
  let opc := opOpc a.ws
  let a := if opc = 0x41 then a else { a with j := 0, n := a.len }
  let pair (s : State) : State := match s.pairOpd a with
    | .ok d => s.undefRow a.ctx d (opRow0 a.ws 0 + a.row) 0 2
    | .error _ => s
  if opc = 0x46 ∧ (opVar a.ws = 3 ∨ opVar a.ws = 4) then pair s
  else
    match s.opDst a.ctx a.ws a.rung with
    | .error _ => s
    | .ok D =>
      let d := D.desc
      match opc with
      | 0x41 =>
        if opCol a.ws then s.undefRow a.ctx d D.r0 (D.k0 + a.j) a.n
        else s.undefRow a.ctx d (D.r0 + a.row) D.k0 1
      | 0x45 =>
        let s := s.undefVas a.ctx (d.elemSpans (D.r0 + a.row) 1 D.k0 a.n)
        match s.opSrc a.ctx a.ws 2 with
        | .ok B => s.undefVas a.ctx (B.desc.elemSpans (B.r0 + a.row) 1 B.k0 ((opCols a.ws + 31) / 32))
        | .error _ => s
      | 0x46 =>
        let t := if opVar a.ws < 2 then s.undefRow a.ctx d (D.r0 + a.row) D.k0 (opCols a.ws)
          else s.undefRow a.ctx d (D.r0 + a.row) (D.k0 + a.j) a.n
        if opPair a.ws then pair t else t
      | 0x4C =>
        match s.opIndex a.ctx a.ws a.row with
        | .ok x => if x < 0 then s else s.undefRow a.ctx d (D.r0 + x) (D.k0 + a.j) a.n
        | .error _ => s
      | _ => s.undefRow a.ctx d (D.r0 + a.row) (D.k0 + a.j) a.n

/-- An operation's item ends with a fault: its row is undefined and its job ends with the fault's status (R419,
R420). -/
def State.opFault (s : State) (w u : Nat) (x : CuUnit) (op : OpRun) (a : Option CuArg) (e : AccErr) : Res :=
  match e with
  | .stall r => s.stalls r
  | e =>
    let ctx := s.cuCtx w op.job
    let s := (s.setUnit w u x).noteItem w u ctx .item e
    let s := match a with
      | none => s
      | some a => s.undefDest a
    .next (s.failJob op.job e.status e.va)

/-- Element steps per destination element of an operation (R408). -/
def opCost (ws : List Word) (two : Bool) : Nat :=
  match opOpc ws with
  | 0x40 => 1
  | 0x41 => 1
  | 0x42 => 2
  | 0x43 => if two then 2 else 1
  | 0x44 => 2
  | 0x45 => 3
  | 0x46 => [3, 5, 2, 1, 3, 4].getD (opVar ws) 0
  | 0x47 => opParts ws
  | 0x48 => 4 * opParts ws
  | 0x4A => 3
  | 0x4E => if opVar ws = 1 then 14 else 0
  | _ => 0

/-- Destination elements of an item (R408): one of a row that RED reduces and the pair of a STATS norm, by the segment that
ends the row; of an export, the elements of its bytes. -/
def CuArg.outputs (a : CuArg) : Nat :=
  match opOpc a.ws with
  | 0x41 => if opCol a.ws then a.n else if a.last then 1 else 0
  | 0x45 => a.n * 8 / (mxFmt (opMxt a.ws)).elim 8 Fmt.width
  | 0x46 => if opVar a.ws = 3 ∨ opVar a.ws = 4 then (if a.last then 2 else 0) else a.n
  | _ => a.n

/-- Element steps of an item, for the event counters (R408, R770). -/
def State.opSteps (s : State) (a : CuArg) : Nat :=
  let two := match s.opDst a.ctx a.ws a.rung with
    | .ok D => D.desc.fmt.twoLevel
    | .error _ => false
  let taps := if opOpc a.ws = 0x4D then
      match s.opGeo a with
      | .ok g => g.taps.length
      | .error _ => 0
    else 0
  a.outputs * (opCost a.ws two + taps)

/-- Bursts at the unit's bank group for the bits that n elements of an item read (R771; log entry 128). -/
def itemBursts (bits n : Nat) : Nat := (bits * n / 8 + 63) / 64

/-- What an item counts beside its writes: its element steps and the bursts of its reads (R770, R771; log entry 128). -/
def State.countSteps (s : State) (w : Nat) (a : CuArg) (steps : Nat) : State :=
  let bits := match s.opReads a.ctx a.ws with
    | .ok b => b
    | .error _ => 0
  (s.countEv w 0x0C (itemBursts bits a.n)).countEv w 0x0A steps

/-- A unit performs its next item, an item of the operation OPC, VAR (R408, R416); it stalls while a translation miss of its
is outstanding (R441). -/
def cuWork (opc var : Nat) (w : WellId) (u : Fin 64) (s : State) (f : OpRun → State → CuArg → CuOut) : Res :=
  let x := s.unit w u
  need x.cur.isNone 416 (
    needSome x.next 416 (fun ix =>
      match ix.1 with
      | .op id i =>
        needSome (s.op id) 413 (fun op =>
          need (opOpc op.words == opc && opVar op.words == var) 408 (
            if s.missing w (146 + u) then s.stalls 441
            else
              match s.cuArg id i op with
              | .error e => s.opFault w u ix.2 op none e
              | .ok a =>
                match (s.opGuardEntry a.ctx op.words).bind (fun _ => f op s a) with
                | .error e => s.opFault w u ix.2 op (some a) e
                | .ok (t, c, e) =>
                  .next ((t.setUnit w u { ix.2 with cur := some (ix.1, c, e) }).countSteps w a (s.opSteps a))))
      | _ => .fault (.notEnabled 416)))

/-! ### The operations (R408) -/

/-- CU_EWISE_ADD: a + b. -/
def execCuEwiseAdd (w : WellId) (u : Fin 64) (s : State) : Res :=
  cuWork 0x40 0 w u s (fun _ => ewise (fun _ x y => round32 (x.add y)))
/-- CU_EWISE_SUB: a − b. -/
def execCuEwiseSub (w : WellId) (u : Fin 64) (s : State) : Res :=
  cuWork 0x40 1 w u s (fun _ => ewise (fun _ x y => round32 (x.add y.neg)))
/-- CU_EWISE_MUL: a × b. -/
def execCuEwiseMul (w : WellId) (u : Fin 64) (s : State) : Res :=
  cuWork 0x40 2 w u s (fun _ => ewise (fun _ x y => round32 (x.mul y)))
/-- CU_EWISE_MAX, as R239 has it. -/
def execCuEwiseMax (w : WellId) (u : Fin 64) (s : State) : Res :=
  cuWork 0x40 3 w u s (fun _ => ewise (fun _ x y => fmax (round32 x) (round32 y)))
/-- CU_EWISE_MIN, as R239 has it. -/
def execCuEwiseMin (w : WellId) (u : Fin 64) (s : State) : Res :=
  cuWork 0x40 4 w u s (fun _ => ewise (fun _ x y => fmin (round32 x) (round32 y)))
/-- CU_EWISE_AXPBY: round(C0 × a) + round(C1 × b). -/
def execCuEwiseAxpby (w : WellId) (u : Fin 64) (s : State) : Res := cuWork 0x40 5 w u s (fun _ => ewise axpby)
/-- CU_RED_SUM. -/
def execCuRedSum (w : WellId) (u : Fin 64) (s : State) : Res := cuWork 0x41 0 w u s (fun _ => redItem .sum)
/-- CU_RED_MAX. -/
def execCuRedMax (w : WellId) (u : Fin 64) (s : State) : Res := cuWork 0x41 1 w u s (fun _ => redItem .max)
/-- CU_RED_SUMSQ. -/
def execCuRedSumsq (w : WellId) (u : Fin 64) (s : State) : Res := cuWork 0x41 2 w u s (fun _ => redItem .sumsq)
/-- CU_QUANT_SUPPLIED. -/
def execCuQuantSupplied (w : WellId) (u : Fin 64) (s : State) : Res := cuWork 0x42 0 w u s (fun _ => convertItem)
/-- CU_QUANT_COMPUTED. -/
def execCuQuantComputed (w : WellId) (u : Fin 64) (s : State) : Res := cuWork 0x42 1 w u s (fun _ => quantComputed)
/-- CU_CONVERT. -/
def execCuConvert (w : WellId) (u : Fin 64) (s : State) : Res := cuWork 0x43 0 w u s (fun _ => convertItem)
/-- CU_MXIMP. -/
def execCuMximp (w : WellId) (u : Fin 64) (s : State) : Res := cuWork 0x44 0 w u s (fun _ => mximpItem)
/-- CU_MXEXP. -/
def execCuMxexp (w : WellId) (u : Fin 64) (s : State) : Res := cuWork 0x45 0 w u s (fun _ => mxexpItem)
/-- CU_NORM_RMS. -/
def execCuNormRms (w : WellId) (u : Fin 64) (s : State) : Res := cuWork 0x46 0 w u s (fun _ => normFull false)
/-- CU_NORM_LAYER. -/
def execCuNormLayer (w : WellId) (u : Fin 64) (s : State) : Res := cuWork 0x46 1 w u s (fun _ => normFull true)
/-- CU_NORM_RMS_APPLY. -/
def execCuNormRmsApply (w : WellId) (u : Fin 64) (s : State) : Res := cuWork 0x46 2 w u s (fun _ => normApply false)
/-- CU_NORM_RMS_STATS. -/
def execCuNormRmsStats (w : WellId) (u : Fin 64) (s : State) : Res := cuWork 0x46 3 w u s (fun _ => normPairs false)
/-- CU_NORM_LAYER_STATS. -/
def execCuNormLayerStats (w : WellId) (u : Fin 64) (s : State) : Res := cuWork 0x46 4 w u s (fun _ => normPairs true)
/-- CU_NORM_LAYER_APPLY. -/
def execCuNormLayerApply (w : WellId) (u : Fin 64) (s : State) : Res := cuWork 0x46 5 w u s (fun _ => normApply true)
/-- CU_COMBINE. -/
def execCuCombine (w : WellId) (u : Fin 64) (s : State) : Res := cuWork 0x47 0 w u s (fun _ => combineItem)
/-- CU_SMXMERGE. -/
def execCuSmxmerge (w : WellId) (u : Fin 64) (s : State) : Res := cuWork 0x48 0 w u s (fun _ => smxmergeItem)
/-- CU_KVRELAYOUT. -/
def execCuKvrelayout (w : WellId) (u : Fin 64) (s : State) : Res := cuWork 0x49 0 w u s (fun _ => kvItem)
/-- CU_VREBLOCK. -/
def execCuVreblock (w : WellId) (u : Fin 64) (s : State) : Res := cuWork 0x4A 0 w u s (fun _ => vreItem)
/-- CU_GATHER. -/
def execCuGather (w : WellId) (u : Fin 64) (s : State) : Res := cuWork 0x4B 0 w u s (fun _ => gatherItem)
/-- CU_SCATTER. -/
def execCuScatter (w : WellId) (u : Fin 64) (s : State) : Res :=
  cuWork 0x4C 0 w u s (fun op => scatterItem op.job w)
/-- CU_POOL_MAX. -/
def execCuPoolMax (w : WellId) (u : Fin 64) (s : State) : Res := cuWork 0x4D 0 w u s (fun _ => poolItem false)
/-- CU_POOL_AVG. -/
def execCuPoolAvg (w : WellId) (u : Fin 64) (s : State) : Res := cuWork 0x4D 1 w u s (fun _ => poolItem true)
/-- CU_UPSAMPLE_NEAREST. -/
def execCuUpsampleNearest (w : WellId) (u : Fin 64) (s : State) : Res := cuWork 0x4E 0 w u s (fun _ => upNearest)
/-- CU_UPSAMPLE_TRILINEAR. -/
def execCuUpsampleTrilinear (w : WellId) (u : Fin 64) (s : State) : Res := cuWork 0x4E 1 w u s (fun _ => upTrilinear)
/-- CU_FILL_ZERO. -/
def execCuFillZero (w : WellId) (u : Fin 64) (s : State) : Res := cuWork 0x4F 0 w u s (fun _ => fillZero)
/-- CU_FILL_VALUE. -/
def execCuFillValue (w : WellId) (u : Fin 64) (s : State) : Res := cuWork 0x4F 1 w u s (fun _ => fillValue)

/-! ### Combines (R298, R326) -/

/-- Row i of a combine. -/
def State.combRow (s : State) (ctx rung : Nat) (c : Comb) (i : Nat) : CuOut := do
  let at_ := c.rows.getD i (0, 0)
  let rc := c.rects.getD at_.1 (0, 0, 0, 0)
  let ps ← c.parts.mapM (fun o =>
    s.readVals ctx { desc := c.src } (o.1 + (rc.1 + at_.2 : Nat)) (o.2 + rc.2.1) rc.2.2.2)
  let d := { c.dst with fmt := if c.dst.fmt.twoLevel then c.dst.fmt.up rung else c.dst.fmt }
  let t := s.countEv ((ctxQ ctx).getD 12) 0x0C (itemBursts (c.parts.length * c.src.cost) rc.2.2.2)
  t.put32 ctx d (c.r0 + (rc.1 + at_.2 : Nat)) (c.k0 + rc.2.1) (sumParts ps)

/-- The destination row i of a combine made undefined (R419). -/
def State.undefComb (s : State) (ctx rung : Nat) (c : Comb) (i : Nat) : State :=
  let at_ := c.rows.getD i (0, 0)
  let rc := c.rects.getD at_.1 (0, 0, 0, 0)
  let d := { c.dst with fmt := if c.dst.fmt.twoLevel then c.dst.fmt.up rung else c.dst.fmt }
  s.undefRow ctx d (c.r0 + (rc.1 + at_.2 : Nat)) (c.k0 + rc.2.1) rc.2.2.2

/-- Element steps of row i of a combine: one for each partial of each element (R408). -/
def Comb.steps (c : Comb) (i : Nat) : Nat :=
  (c.rects.getD (c.rows.getD i (0, 0)).1 (0, 0, 0, 0)).2.2.2 * c.parts.length

/-- SPLIT_COMBINE (R326): a unit performs one row of a walker's combine. -/
def execSplitCombine (w : WellId) (u : Fin 64) (s : State) : Res :=
  let x := s.unit w u
  need x.cur.isNone 416 (
    needSome x.next 416 (fun ix =>
      match ix.1 with
      | .comb id i =>
        needSome (s.op id) 298 (fun op =>
          needSome op.comb 298 (fun c =>
            if s.missing w (146 + u) then s.stalls 441
            else
              match s.combRow (s.cuCtx w op.job) op.rung c i with
              | .error (.stall r) => s.stalls r
              | .error e => (s.undefComb (s.cuCtx w op.job) op.rung c i).opFault w u ix.2 op none e
              | .ok (t, cl, e) =>
                .next (((t.setUnit w u { ix.2 with cur := some (ix.1, cl, e) }).feedComb w).countEv w 0x0A (c.steps i))))
      | _ => .fault (.notEnabled 416)))

/-! ### Issue (R413) -/

/-- The next item of pump n's operation issued to its unit, at most 8 outstanding there. -/
def State.issueItem (s : State) (w n : Nat) (p : Pump) (id : Nat) (op : OpRun) : Res :=
  need (s.mayIssue op.job && decide (op.issued < op.total)) 421 (
    match s.cuArg id op.issued op with
    | .error (.stall r) => s.stalls r
    | .error e =>
      .next ((s.noteItem w 0 (s.cuCtx w op.job) .item e).failJob op.job e.status e.va)
    | .ok a =>
      let u := s.itemUnit w op a
      let x := s.unit w u
      if x.outstanding id < 8 ∧ x.opQ.length < 8 then
        .next (((s.setUnit w u { x with opQ := x.opQ ++ [.op id op.issued] }).modOp id
          (fun o => { o with issued := o.issued + 1 })).setPump w n { p with issued := p.issued + 1 })
      else s.stalls 413)

/-- The next operation of a layer replay begins on pump n (R122). -/
def State.replayOp (s : State) (w n : Nat) : Res :=
  match (s.well w).layer.replay with
  | .op addr tag :: _ =>
    needSome (s.well w).job 122 (fun j =>
      need (s.mayIssue j) 122 (if !s.layerIdle w then s.stalls 122 else
        let ctx := s.cuCtx w j
        let go : Except AccErr State := do
          let bs ← s.readVa ctx addr 128
          let ws := (List.range 16).map (fun i => BitVec.ofNat 64 (leVal ((bs.drop (8 * i)).take 8)))
          let g ← s.opGuardEntry ctx ws
          let last ← s.opLast ctx ws (g.getD 0#64)
          s.startOp w n j addr tag ws g last
        match go with
        | .error (.stall r) => s.stalls r
        | .error e => .next ((s.noteItem w 0 ctx .item e).failJob j e.status e.va)
        | .ok t => .next (t.dropReplay w)))
  | _ => .fault (.notEnabled 413)

/-- CU_ITEM_ISSUE (R413): pump n issues the next item of its operation; a free pump begins the next operation of a
layer replay. -/
def execCuItemIssue (w : WellId) (n : Fin 8) (s : State) : Res :=
  let p := s.pump w n
  if p.state = 0 then s.replayOp w n
  else
    need (decide (p.state = 1)) 413 (
      needSome p.op 413 (fun id => needSome (s.op id) 413 (fun op => s.issueItem w n p id op)))

/-! ### Completion (R417, R418) -/

/-- Does a count of an operation exceed its threshold (R113, R418)? -/
def OpRun.over (o : OpRun) : Bool :=
  match o.guard with
  | none => false
  | some g => exceeds o.clamps (bitsOf g 63 52) 0xFFF || exceeds o.edges (bitsOf g 51 44) 0xFF

/-- The end of an operation or combine: its counts judged (R418, R123). Whether a count above its threshold is at the last
rung or starts a replay is known where its layer is combined (R128), but for one at the last rung already. -/
def State.judgeOp (s : State) (op : OpRun) : State :=
  let x := s.well op.well
  if !op.over then s
  else if min op.last x.layer.last ≤ op.rung then s.incFld (rWlGuardStat op.well) 31 16 1
  else s.setWell op.well { x with layer := { x.layer with cuHits := x.layer.cuHits + 1 } }

/-- Pump of well w that runs operation id. -/
def State.pumpOf (s : State) (w id : Nat) : Option Nat :=
  (List.range 8).find? (fun n => (s.pump w n).op == some id)

/-- A pump is free again (R455, R474). -/
def State.freePump (s : State) (w n : Nat) : State := (s.setPump w n {}).setFld (rWlPumpStat w) n n 0

/-- Pump n writes its progress for job j; a record that cannot be read ends the job (R399, R455, R457, R475). -/
def State.noteProgress (s : State) (j w n : Nat) : State :=
  let a := markAt (s.slotOf j w) n
  if s.scratchOk w a then s else s.scratchErr j w a

/-- One item of operation id is complete with its counts; the last one completes the operation (R413, R418). -/
def State.doneItem (s : State) (w id c e : Nat) (op : OpRun) : State :=
  let op' := { op with done_ := op.done_ + 1, clamps := satCount op.clamps c, edges := satCount op.edges e }
  let s := s.modOp id (fun _ => op')
  let s := (s.incFld (rWlPumpStat w) 63 32 1).countEv w 0x10 1
  match s.pumpOf w id with
  | none => s
  | some n =>
    let s := (s.noteProgress op.job w n).setPump w n { s.pump w n with mark := op'.done_ }
    if op'.total ≤ op'.done_ then (((s.dropOp id).freePump w n).incFld (rWlCuStat w) 31 16 1).judgeOp op' else s

/-- One row of a combine is complete; the last one completes its split point (R298). -/
def State.doneComb (s : State) (id c e : Nat) (op : OpRun) : State :=
  let op' := { op with done_ := op.done_ + 1, clamps := satCount op.clamps c, edges := satCount op.edges e }
  if op'.total ≤ op'.done_ then
    ({ s.dropOp id with splits := s.splits.filter (fun t => t.combine != some id) }).judgeOp op'
  else s.modOp id (fun _ => op')

/-- An item's counts put into WL_CU_STAT and the event counters. -/
def State.countItem (s : State) (w : Nat) : State := (s.incFld (rWlCuStat w) 63 32 1).countEv w 0x0B 1

/-- Row i of a GAT or SCT performed (R216 to R220, R368). -/
def State.bobRow (s : State) (q : Req) (i : Nat) : CuOut :=
  let ctx := s.cuCtx q.well q.job
  match (q.rows[i]?).join with
  | none => .ok (s, 0, 0)
  | some r =>
    if q.gat then s.gatRow ctx q r
    else do
      let x := q.data.getD i ([], [])
      let d := { q.dst with fmt := q.fmt }
      let t ← s.appendMoves q.job q.well (d.spans r 1 q.dstK x.1.length)
      t.putBits ctx d r q.dstK x.1 x.2

/-- A request with one item fewer to complete. -/
def State.lessReq (s : State) (id : Nat) : State :=
  let reqs := (s.reqs.map (fun q => if q.1 = id then (id, { q.2 with left := q.2.left - 1 }) else q)).filter
    (fun q => q.1 != id || q.2.left != 0)
  { s with reqs := reqs }

/-- Destination rows of a failed request made undefined: all of a GAT (R222, R223), the row of the failed item of an SCT
(R419). -/
def State.undefReq (s : State) (ctx : Nat) (q : Req) (i : Nat) : State :=
  if q.gat then
    let n := (parseGeo q.geom).taps.length * (parseGeo q.geom).crun
    (q.rows.filterMap id).foldl (fun t r => t.undefRow ctx { q.dst with fmt := q.fmt } r q.dstK n) s
  else
    let n := ((q.data.getD i ([], [])).1).length
    ((q.rows[i]?).join).elim s (fun r => s.undefRow ctx { q.dst with fmt := q.fmt } r q.dstK n)

/-- The stitch that issued request id ends with it: a running one under the terminate class, and of one past END the
entries made after the request are discarded and its completion is never signalled (R159, R222). -/
def State.endIssuer (s : State) (w p id : Nat) : State :=
  let b := s.bob w p
  match b.run with
  | some r =>
    if r.reqs.contains id then
      let s := s.withdrawReq r
      s.setBob w p { b with run := none, storeQ := b.storeQ.filter (fun e => e.id ≤ id) }
    else
      let gone := (b.leaving.filter (fun l => l.reqs.contains id)).map Leaving.lastStore
      let keep (e : StoreEntry) : Bool := !(gone.any (fun m => id < e.id && e.id ≤ m))
      s.setBob w p { b with leaving := b.leaving.filter (fun l => !l.reqs.contains id), storeQ := b.storeQ.filter keep }
  | none =>
    let gone := (b.leaving.filter (fun l => l.reqs.contains id)).map Leaving.lastStore
    let keep (e : StoreEntry) : Bool := !(gone.any (fun m => id < e.id && e.id ≤ m))
    s.setBob w p { b with leaving := b.leaving.filter (fun l => !l.reqs.contains id), storeQ := b.storeQ.filter keep }

/-- A bobbin item fails: CAUSE 0x1 in the stitch that issued it, its job ends (R222, R419, R420). -/
def State.bobFault (s : State) (w u : Nat) (x : CuUnit) (id : Nat) (q : Req) (i : Nat) (e : AccErr) : Res :=
  match e with
  | .stall r => s.stalls r
  | e =>
    let ctx := s.cuCtx w q.job
    let s := ((s.setUnit w u x).noteItem w u ctx .request e).undefReq ctx q i
    let s := s.cancelItems w (CuItem.ofReq id)
    let s := { s with reqs := s.reqs.filter (fun y => y.1 != id) }
    let s := s.noteBob w q.phys 1 q.instr e.status e.va (some (q.rep, q.rung, q.gw))
    .next ((s.endIssuer w q.phys id).failJob q.job e.status e.va)

/-- A stitch stalled on full queues goes on once its request's items are all entered (R415). -/
def State.unstall (s : State) (w p : Nat) : State :=
  match (s.bob w p).run with
  | none => s
  | some r =>
    match r.qStall with
    | none => s
    | some x => if s.allEntered x.1 then s.putRun w p { r with qStall := none } else s

/-- Room in a queue of bobbin items: further rows of the well's requests are entered, the oldest request first, and a
stitch whose request is entered in full goes on (R415). -/
def State.feedReqs (s : State) (w : Nat) : State :=
  let open_ := (s.reqs.filter (fun q => q.2.well == w && decide (q.2.entered < q.2.rows.length))).reverse
  let s := open_.foldl (fun t q => t.enterRows w q.1 rowFuel) s
  open_.foldl (fun t q => t.unstall w q.2.phys) s

/-- CU_ITEM_COMPLETE (R417, R418): the item a unit works on is complete; an idle unit whose turn is a bobbin item
performs and completes it. -/
def execCuItemComplete (w : WellId) (u : Fin 64) (s : State) : Res :=
  let x := s.unit w u
  match x.cur with
  | some (.op id _, c, e) =>
    let s := (s.setUnit w u { x with cur := none }).countItem w
    match s.op id with
    | none => .next s
    | some op => .next (s.doneItem w id c e op)
  | some (.comb id _, c, e) =>
    let s := (s.setUnit w u { x with cur := none }).countItem w
    match s.op id with
    | none => .next s
    | some op => .next (s.doneComb id c e op)
  | some (.bob _ _, _, _) => .fault (.notEnabled 416)
  | none =>
    needSome x.next 416 (fun ix =>
      match ix.1 with
      | .bob id i =>
        needSome ((s.reqs.find? (fun y => y.1 == id)).map Prod.snd) 415 (fun q =>
          if s.missing w (146 + u) then s.stalls 441
          else
            match s.bobRow q i with
            | .error e => s.bobFault w u ix.2 id q i e
            | .ok (t, _, _) => .next (((((t.setUnit w u ix.2).countItem w).lessReq id)).feedReqs w))
      | _ => .fault (.notEnabled 416))

/-! ### The cistern's upkeep -/

/-- CISTERN_REFRESH (R396): a bank's rows are refreshed and keep their bytes; nothing else can be seen. -/
def execCisternRefresh (_w : WellId) (_group : Fin 64) (_bank : Fin 16) (s : State) : Res := .next s

/-- CISTERN_PATROL_SCRUB (R398, R397, R399): one block read; a corrected error is counted, an uncorrectable block is
poisoned, recorded and reported. -/
def execCisternPatrolScrub (w : WellId) (block : Nat) (ev : EccEv) (s : State) : Res :=
  need (decide (64 * block < cisternSize)) 398 (
    let l : Loc := ⟨.cistern w, 64 * block⟩
    match ev with
    | .clean => .next s
    | .corrected => .next (s.incFld (rWlCisEcc w) 63 32 1)
    | .block v n bad => .next (s.meetBlock v n bad)
    | .uncorrectable =>
      let u := s.tierUnit l
      let t := (s.setPoison l).incFld (rWlCisEcc w) 31 16 1
      let t := t.latch (rWlCisErr w)
        (setBits (setBits (setBits 0#64 61 59 5) 38 33 (bankGroup l.addr)) 32 0 l.addr)
      .next (t.report u.1 0x2 0 u.1 u.2 u.2 l.addr))

/-- CISTERN_SPLIT_APPLY (R402): a written CACHE takes effect once no job is bound to the well; the cache's dirty lines
are written back first, and none of its lines stays (log entry 47). -/
def execCisternSplitApply (w : WellId) (s : State) : Res :=
  need ((s.well w).job.isNone && s.fld (rWlCisSplit w) 4 4 == 1) 402 (
    let t := s.flushCache w
    .next ({ t with caches := tabPut 4 t.caches w (min (t.fld (rWlCisSplit w) 3 0) 8) }.setFld (rWlCisSplit w) 4 4 0))

end Sys2Proof.Machine
end

