-- ==== Sys2Proof/Machine/Pumps.lean ====
section
/-!
DEFINITION. The pumps of the wells: acceptance and refusal (R271, R286, R412, R451, R452), units and watermarks
(R453 to R455), failure (R469) and resumption (R473).
-/

namespace Sys2Proof.Machine

/-! ### Transfer descriptors (R451, R452) -/

/-- KIND. -/
def tdKind (ws : List Word) : Nat := bitsOf (opW ws 0) 63 56
/-- SRC. -/
def tdSrc (ws : List Word) : Nat := bitsOf (opW ws 0) 55 0
/-- DST. -/
def tdDst (ws : List Word) : Nat := bitsOf (opW ws 1) 55 0
/-- ROWS. -/
def tdRows (ws : List Word) : Nat := bitsOf (opW ws 2) 63 32
/-- RUN. -/
def tdRun (ws : List Word) : Nat := bitsOf (opW ws 2) 31 0
/-- SSTR. -/
def tdSstr (ws : List Word) : Int := signedOf 64 (opW ws 3).toNat
/-- DSTR. -/
def tdDstr (ws : List Word) : Int := signedOf 64 (opW ws 4).toNat
/-- SIGEN. -/
def tdSigen (ws : List Word) : Bool := bitOf (opW ws 6) 63
/-- EVENT. -/
def tdEvent (ws : List Word) : Nat := bitsOf (opW ws 6) 47 32
/-- COUNT. -/
def tdCount (ws : List Word) : Nat := bitsOf (opW ws 6) 31 0

/-- Source address of a row. -/
def tdSrcAt (ws : List Word) (r : Nat) : Int := (tdSrc ws : Int) + (r : Int) * tdSstr ws
/-- Destination address of a row. -/
def tdDstAt (ws : List Word) (r : Nat) : Int := (tdDst ws : Int) + (r : Int) * tdDstr ws

/-- Is there a row j below `rows` with |x − j × step| below n? -/
def strideHits (x step : Int) (n rows : Nat) : Bool :=
  if step = 0 then decide (x.natAbs < n ∧ 0 < rows)
  else
    let q := x / step
    [q - 1, q, q + 1].any (fun j => decide (0 ≤ j ∧ j < rows ∧ (x - j * step).natAbs < n))
    || ((List.range ((n + step.natAbs - 1) / step.natAbs + 1)).any (fun i =>
      [q - i, q + i].any (fun j => decide (0 ≤ j ∧ j < rows ∧ (x - j * step).natAbs < n))))

/-- Do source and destination bytes of a COPY overlap at any row (R452)? -/
def tdOverlap (ws : List Word) : Bool :=
  (List.range (tdRows ws)).any (fun i => strideHits (tdSrcAt ws i - tdDst ws) (tdDstr ws) (tdRun ws) (tdRows ws))

/-- R452: a descriptor that a pump refuses. -/
def tdRefused (addr : Nat) (ws : List Word) : Bool :=
  let fill := tdKind ws == 2
  !(tdKind ws == 1 || fill) || bitsOf (opW ws 1) 63 56 != 0 || bitsOf (opW ws 6) 62 48 != 0 || opW ws 7 != 0#64
  || (fill && tdSrc ws != 0) || (!fill && opW ws 5 != 0#64)
  || addr % 64 != 0 || tdSrc ws % 16 != 0 || tdDst ws % 16 != 0 || tdSstr ws % 16 != 0 || tdDstr ws % 16 != 0
  || tdRows ws == 0 || tdRun ws < 16 || tdRun ws % 16 != 0
  || (tdSigen ws && tdCount ws == 0) || (!fill && tdOverlap ws)

/-! ### Units (R454) -/

/-- Units of a row: cut at every 64 KiB boundary of the destination. -/
def tdRowUnits (ws : List Word) (r : Nat) : Nat := ((tdDstAt ws r % 65536).toNat + tdRun ws + 65535) / 65536

/-- Units of the rows from r on. -/
def tdUnitsFrom (ws : List Word) (r : Nat) : Nat :=
  ((List.range (tdRows ws - r)).map (fun i => tdRowUnits ws (r + i))).sum

/-- Units of a transfer. -/
def tdUnits (ws : List Word) : Nat := tdUnitsFrom ws 0

/-- Row and place of unit n, over the rows from r on. -/
def tdUnitAt (ws : List Word) : Nat → Nat → Nat → Option (Nat × Nat)
  | 0, _, _ => none
  | fuel + 1, r, n =>
    if n < tdRowUnits ws r then some (r, n) else tdUnitAt ws fuel (r + 1) (n - tdRowUnits ws r)

/-- Unit n: its row, its first byte in the row and its length. -/
def tdUnit (ws : List Word) (n : Nat) : Option (Nat × Nat × Nat) :=
  (tdUnitAt ws (tdRows ws) 0 n).map (fun ri =>
    let off := (tdDstAt ws ri.1 % 65536).toNat
    let a := if ri.2 = 0 then 0 else ri.2 * 65536 - off
    let b := min (tdRun ws) ((ri.2 + 1) * 65536 - off)
    (ri.1, a, b - a))

/-! ### Acceptance -/

/-- WL_PUMP_ERR (R474). -/
def State.pumpErr (s : State) (w n : Nat) (refused : Bool) (addr : Nat) : State :=
  s.latch (rWlPumpErr w) (setBits (setBits (setBits 0#64 61 59 n) 58 58 refused.toNat) 55 0 addr)

/-- n words read at an address. -/
def State.readWords (s : State) (ctx va n : Nat) : Except AccErr (List Word) := do
  let bs ← s.readVa ctx va (8 * n)
  pure ((List.range n).map (fun i => BitVec.ofNat 64 (leVal ((bs.drop (8 * i)).take 8))))

/-- The lowest free pump. -/
def State.freePumpNo (s : State) (w : Nat) : Option Nat := (List.range 8).find? (fun n => (s.pump w n).state == 0)

/-- The pump's read of a descriptor or record fails (R451): cause 0x1 (0x2 for a guarded word), and WL_PUMP_ERR. -/
def State.pumpReadErr (s : State) (w n addr : Nat) (e : AccErr) : Res :=
  match e with
  | .stall r => s.stalls r
  | e => (s.pumpErr w n false addr).ctlErr w e

/-- An accepted operation record (R412, R286, R418). -/
def State.acceptOp (s : State) (w n job : Nat) (x : Job) (addr tag : Nat) (ws : List Word) : Res :=
  if !x.ops.contains addr then .next (s.endByWalker w (136 + n) 0xD job 0x7F 0 addr)
  else
    match s.opGuardEntry (s.cuCtx w job) ws with
    | .error e => s.pumpReadErr w n addr e
    | .ok g =>
      match s.opLast (s.cuCtx w job) ws (g.getD 0#64) with
      | .error e => s.pumpReadErr w n addr e
      | .ok last =>
        let joined : Option Layer :=
          match g with
          | none => some (s.well w).layer
          | some v => (s.well w).layer.join v last (.op addr tag)
        match joined with
        | none => .next (s.endByWalker w (136 + n) 0xF job 0x7F 0 addr)
        | some l =>
          match s.startOp w n job addr tag ws g last with
          | .error e => s.pumpReadErr w n addr e
          | .ok t => cGo s (t.setWell w { t.well w with layer := l }) w (s.pcNext w)

/-- An accepted or refused transfer descriptor (R451, R452). -/
def State.acceptCopy (s : State) (w n job addr tag : Nat) (ws : List Word) : Res :=
  if tdRefused addr ws then .next ((s.pumpErr w n true addr).ctlExc w 5 0x7F addr)
  else
    let p : Pump := { state := 1, job := job, tag := tag, addr := addr, words := ws }
    cGo s ((s.setPump w n p).setFld (rWlPumpStat w) n n 1) w (s.pcNext w)

/-- PUMP: the descriptor read and told apart (R412), then accepted. -/
def State.doPump (s : State) (w : Nat) (c : CtlCtx) (i : Word) (n : Nat) : Res :=
  needSome (s.wellJob w) 271 (fun jx =>
    let ctx := s.cuCtx w jx.1
    let addr := (c.get (cRd i)).toNat
    let tag := bitsOf i 15 0
    match s.readWord ctx addr with
    | .error e => s.pumpReadErr w n addr e
    | .ok w0 =>
      if bitsOf w0 63 56 / 16 = 4 then
        if !jx.2.ops.contains addr then .next (s.endByWalker w (136 + n) 0xD jx.1 0x7F 0 addr)
        else
          match s.readWords ctx addr 16 with
          | .error e => s.pumpReadErr w n addr e
          | .ok ws => s.acceptOp w n jx.1 jx.2 addr tag ws
      else
        match s.readWords ctx addr 8 with
        | .error e => s.pumpReadErr w n addr e
        | .ok ws => s.acceptCopy w n jx.1 addr tag ws)

/-- PUMP_START (R271). -/
def execPumpStart (w : WellId) (ev : EccEv) (s : State) : Res :=
  cStep .pump w ev s (fun s c i =>
    match s.freePumpNo w with
    | some n => s.doPump w c i n
    | none => .next (s.stallCtl w .pumpAccept))

/-! ### Running -/

/-- Pump n issues its next unit (R449, R454): with 16 in flight it waits. -/
def State.issueUnit (s : State) (w n kind : Nat) : Res :=
  let p := s.pump w n
  need (decide (p.state = 1) && p.op.isNone && tdKind p.words == kind && s.mayIssue p.job
      && decide (p.issued < tdUnits p.words)) 454 (
    if 16 ≤ p.flight.length then s.stalls 449
    else .next (s.setPump w n { p with issued := p.issued + 1, flight := p.flight ++ [p.issued] }))

/-- PUMP_COPY (R451). -/
def execPumpCopy (w : WellId) (n : Fin 8) (s : State) : Res := s.issueUnit w n 1
/-- PUMP_FILL (R451). -/
def execPumpFill (w : WellId) (n : Fin 8) (s : State) : Res := s.issueUnit w n 2

/-- The watermark raised over completed units (R455). -/
def raiseMark : Nat → Nat → List Nat → Nat
  | 0, m, _ => m
  | fuel + 1, m, ahead => if ahead.contains m then raiseMark fuel (m + 1) ahead else m

/-- Bytes at an address that may lie outside the range; negative addresses do not translate (R424). -/
def State.readAt (s : State) (ctx : Nat) (va : Int) (n : Nat) : Except AccErr (List Byte) :=
  if va < 0 then .error (.trans 0x2 3 ((va % 2 ^ 56).toNat) false) else s.readVa ctx va.toNat n

/-- Bytes written at such an address. -/
def State.writeAt (s : State) (ctx : Nat) (va : Int) (bs : List Byte) : Except AccErr State :=
  if va < 0 then .error (.trans 0x2 3 ((va % 2 ^ 56).toNat) true) else s.writeDir ctx va.toNat bs

/-- Bytes of a FILL from byte a of a row: PATTERN repeated from the row's start (R451). -/
def fillBytes (pat : Word) (a n : Nat) : List Byte :=
  (List.range n).map (fun i => BitVec.ofNat 8 (pat.toNat / 2 ^ (8 * ((a + i) % 8))))

/-- The bytes of unit i moved, its source's translations the newest of the buffer that served them (R436). -/
def State.moveUnit (s : State) (ctx : Nat) (ws : List Word) (i : Nat) : Except AccErr State :=
  match tdUnit ws i with
  | none => .error (.stall 454)
  | some (r, a, n) => do
    let bs ← if tdKind ws = 2 then pure (fillBytes (opW ws 5) a n) else s.readAt ctx (tdSrcAt ws r + a) n
    let t := if tdKind ws = 2 then s else
      (s.traffic ((ctxQ ctx).getD 12) ctx (tdSrcAt ws r + a).toNat n false).useTlbs ctx (tdSrcAt ws r + a).toNat n
    t.writeAt ctx (tdDstAt ws r + a) bs

/-- Every unit of a failed transfer at or above the watermark is undefined (R469). -/
def State.undefUnits (s : State) (ctx : Nat) (p : Pump) : State :=
  (List.range (tdUnits p.words - p.mark)).foldl (fun t i =>
    match tdUnit p.words (p.mark + i) with
    | some (r, a, n) =>
      let va := tdDstAt p.words r + a
      if va < 0 then t else t.undefVa ctx va.toNat n
    | none => t) s

/-- A unit meets a fault: the transfer is FAILED and its job ends with the fault's status (R469). -/
def State.unitFault (s : State) (w n : Nat) (p : Pump) (e : AccErr) : Res :=
  match e with
  | .stall r => s.stalls r
  | e =>
    let ctx := s.cuCtx w p.job
    let s := match e with
      | .tier _ l wr => s.noteTier .pump w (136 + n) l wr
      | .guard va => s.noteGuard w (136 + n) va
      | e => s.noteTrans ctx w e
    let s := (s.undefUnits ctx p).pumpErr w n false e.va
    .next (((s.setPump w n { p with state := 3, flight := [] }).setFld (rWlPumpStat w) n n 0).failJob p.job e.status
      e.va)

/-- The transfer's end: its event, once every byte is visible (R453), and the pump free. -/
def State.endTransfer (s : State) (w n : Nat) (p : Pump) : State :=
  let s := s.freePump w n
  if tdSigen p.words then s.raiseEvent p.job w (s.slotOf p.job w) (tdEvent p.words) (tdCount p.words) else s

/-- A unit complete and visible: the watermark rises (R455). -/
def State.unitDone (s : State) (w n : Nat) (p : Pump) (i : Nat) : State :=
  let ahead := p.ahead ++ [i]
  let mark := raiseMark (ahead.length + 1) p.mark ahead
  let p := { p with flight := p.flight.erase i, ahead := ahead.filter (fun k => mark ≤ k), mark := mark }
  let s := (s.incFld (rWlPumpStat w) 63 32 1).countEv w 0x10 1
  if tdUnits p.words ≤ mark then s.endTransfer w n p else s.setPump w n p

/-- Destination of unit i, for the windows that see stores (R669). -/
def tdSeen (ws : List Word) (i : Nat) : Nat × Nat :=
  match tdUnit ws i with
  | some (r, a, n) => ((tdDstAt ws r + a).toNat, n)
  | none => (0, 0)

/-- PUMP_UNIT_COMPLETE (R455). -/
def execPumpUnitComplete (w : WellId) (n : Fin 8) (i : Nat) (s : State) : Res :=
  let p := s.pump w n
  need (decide (p.state = 1) && p.flight.contains i) 455 (
    if s.missing w (136 + n) then s.stalls 441 else
    match s.moveUnit (s.cuCtx w p.job) p.words i with
    | .error e => s.unitFault w n p e
    | .ok t =>
      .next (((t.windowSees p.job (tdSeen p.words i).1 (tdSeen p.words i).2).noteProgress p.job w n).unitDone w n p i))

/-! ### Suspension and resumption (R473) -/

/-- A pump of a quiescent job writes its record as SUSPENDED, MARK as a guarded word, and frees itself (R458, R473). -/
def State.suspendPump (s : State) (w n : Nat) : State :=
  let p := s.pump w n
  if p.state = 1 then
    let k := s.slotOf p.job w
    let q := { p with state := 2, no := n, flight := [], ahead := [], gmark := guard64 (BitVec.ofNat 64 p.mark) }
    ({ s with susp := tabPut [] s.susp (w * 64 + k) (s.suspended w k ++ [q]) }.freePump w n).incFld
      (rWlPumpStat w) 31 16 1
  else s

/-- The suspended record p taken by pump n, `rest` the records that follow it: it goes on from its watermark; a MARK that fails
its check ends the job with GUARD_WORD (R455, R458, R473). -/
def State.takeRecord (s : State) (w n job : Nat) (p : Pump) (rest : List Pump) : Res :=
  let k := s.slotOf job w
  let t := { s with susp := tabPut [] s.susp (w * 64 + k) rest }
  match unguard64 p.gmark with
  | none => .next ((t.noteGuard w (136 + n) (markAt k p.no)).failJob job 0x22 (markAt k p.no))
  | some m =>
    .next ((t.setPump w n { p with state := 1, mark := m.toNat, issued := m.toNat, ahead := [], flight := [] }).setFld
      (rWlPumpStat w) n n 1)

/-- PUMP_RESUME (R473): a free pump takes the first suspended record of the well's job; a record that cannot be read ends the
job (R399, R475). -/
def execPumpResume (w : WellId) (n : Fin 8) (s : State) : Res :=
  needSome (s.wellJob w) 473 (fun jx =>
    let k := s.slotOf jx.1 w
    match s.suspended w k with
    | [] => .fault (.notEnabled 473)
    | p :: rest =>
      need ((s.pump w n).state == 0 && s.mayIssue jx.1) 473 (
        s.scratch jx.1 w (markAt k p.no) (s.takeRecord w n jx.1 p rest)))

end Sys2Proof.Machine
end

