-- ==== Sys2Proof/Machine/Collect.lean ====
section
/-!
DEFINITION. The collective unit (R655 to R667, R269, R272, R807): posts, stages, frames and decisions, and the
combination of a layer's trigger flags (R122).
-/

namespace Sys2Proof.Machine

/-! ### Values (R329, R330) -/

/-- Operations of a collective (R660). -/
def shapeOp (sh : Nat) : Nat := sh % 4
/-- INT64 values. -/
def shapeInt (sh : Nat) : Bool := sh.testBit 2
/-- N. -/
def shapeN (sh : Nat) : Nat := sh / 16 % 16 + 1
/-- Bytes of a value at RA and RB. -/
def shapeWidth (sh : Nat) : Nat := if shapeInt sh then 8 else 4

/-- A binary32 operation on the low halves. -/
def lift32 (f : Word32 → Word32 → Word32) (a b : Word) : Word :=
  (f (a.setWidth 32) (b.setWidth 32)).setWidth 64

/-- Two values combined (R330). -/
def combine2 (sh : Nat) (a b : Word) : Word :=
  match shapeOp sh, shapeInt sh with
  | 1, true => a + b
  | 1, false => lift32 fadd a b
  | 2, true => if a.slt b then b else a
  | 2, false => lift32 fmax a b
  | 3, true => if a.slt b then a else b
  | 3, false => lift32 fmin a b
  | _, _ => a

/-- One round of the fixed pairwise tree (R329). -/
def pairUp (sh : Nat) : List (List Word) → List (List Word)
  | a :: b :: t => List.zipWith (combine2 sh) a b :: pairUp sh t
  | t => t

/-- The tree over members in rank order. -/
def treeOf (sh : Nat) : Nat → List (List Word) → List Word
  | 0, l => l.headD []
  | fuel + 1, l => if l.length ≤ 1 then l.headD [] else treeOf sh fuel (pairUp sh l)

/-! ### Groups (R658, R672) -/

/-- The group is configured. -/
def State.groupValid (s : State) (g : Nat) : Bool := decide (g < 64) && bitOf (s.reg (rCoGrpKey g)) 63

/-- M, RANK and LEADER of a stage 1 to 4. -/
def State.stageCfg (s : State) (g st : Nat) : Nat × Nat × Nat :=
  let r := s.reg (if st < 3 then rCoGrpLa g else rCoGrpLb g)
  let hi := st % 2 = 0
  let m := if hi then bitsOf r 63 57 else bitsOf r 31 25
  (if m = 0 then 1 else m, if hi then bitsOf r 56 50 else bitsOf r 24 18, if hi then bitsOf r 43 32 else bitsOf r 11 0)

/-- The stage at which this device sends upward: the first at which it is not the leader; none for the top leader. -/
def State.upStage (s : State) (g top : Nat) : Option Nat :=
  ([1, 2, 3, 4].filter (· ≤ top)).find? (fun st => (s.stageCfg g st).1 != 1 && (s.stageCfg g st).2.1 != 0)

/-! ### Frames (R660) -/

/-- Payload of a COLL or COLL_RESULT frame. -/
def collPayload (key k top stage rank shape flags : Nat) (vals : List Word) : List Byte :=
  leBytes 4 key ++ leBytes 4 k ++ leBytes 1 top ++ leBytes 1 stage ++ leBytes 1 rank ++ leBytes 1 shape
  ++ leBytes 1 flags ++ leBytes 19 0 ++ vals.flatMap (fun v => leBytes 8 v.toNat)

/-- A payload read: KEY, K, TOP, STAGE, RANK, SHAPE, FLAGS and the values; none for nonzero reserved bytes or a length
that SHAPE does not give. -/
structure CollMsg where
  key : Nat
  k : Nat
  top : Nat
  stage : Nat
  rank : Nat
  shape : Nat
  flags : Nat
  vals : List Word
deriving DecidableEq, Repr

/-- Field of n bytes at i. -/
def byteField (bs : List Byte) (i n : Nat) : Nat := leVal ((bs.drop i).take n)

/-- A COLL or COLL_RESULT payload (R660). -/
def readColl (bs : List Byte) : Option CollMsg :=
  let sh := byteField bs 11 1
  let n := if shapeOp sh = 0 then 0 else shapeN sh
  if bs.length = 32 + 8 * n ∧ byteField bs 13 19 = 0 ∧ sh.testBit 3 = false ∧ byteField bs 12 1 < 4 then
    some { key := byteField bs 0 4, k := byteField bs 4 4, top := byteField bs 8 1, stage := byteField bs 9 1,
           rank := byteField bs 10 1, shape := sh, flags := byteField bs 12 1,
           vals := (List.range n).map (fun i => BitVec.ofNat 64 (byteField bs (32 + 8 * i) 8)) }
  else none

/-- The configured group with this key. -/
def State.groupOfKey (s : State) (key : Nat) : Option Nat :=
  (List.range 64).find? (fun g => s.groupValid g && s.fld (rCoGrpKey g) 31 0 == key)

/-- A COLL frame to a device (R659, R662). -/
def State.sendColl (s : State) (g dst : Nat) (c : Contrib) (k flags : Nat) : State :=
  let pay := collPayload (s.fld (rCoGrpKey g) 31 0) k c.top c.stage c.rank c.shape flags
    (if shapeOp c.shape = 0 then [] else c.vals)
  s.sendFrame { vc := 0, op := 0x01, dst := dst, payload := pay } none

/-- A COLL_RESULT frame to a member (R660): values only with status OK. -/
def State.sendResult (s : State) (d : Decision) (dst stage : Nat) : State :=
  let n := if shapeOp d.shape = 0 then 0 else shapeN d.shape
  let vals := if d.status = 0 then d.vals else List.replicate n 0#64
  let pay := collPayload (s.fld (rCoGrpKey d.group) 31 0) d.k d.top stage (s.stageCfg d.group stage).2.1 d.shape
    d.status vals
  s.sendFrame { vc := 0, op := 0x02, dst := dst, payload := pay } none

/-! ### Decisions (R660, R663, R665) -/

/-- Does a decision answer instance k of group g for job j? Instances of LEVEL 0 are a job's own. -/
def Decision.answers (d : Decision) (fence : Bool) (g k : Nat) (j : Option Nat) : Bool :=
  d.fence == fence && d.group == g && d.k == k && (d.job == j || (d.top != 0 && d.job == none))

/-- The decision that a well's post of job j finds. -/
def State.decisionOf (s : State) (fence : Bool) (g k j : Nat) : Option Decision :=
  s.decided.find? (fun d => d.answers fence g k (some j) || (!fence && d.top != 0 && !d.fence && d.group == g && d.k == k))

/-- The last 1,024 instances of LEVEL 1 and above and the last 16 of LEVEL 0 of each group are kept (R665). -/
def keepDecided (d : Decision) (l : List Decision) : List Decision :=
  let same (x : Decision) : Bool :=
    x.group == d.group && x.fence == d.fence && (x.top == 0) == (d.top == 0) && (d.top != 0 || x.job == d.job)
  let n := if d.top = 0 then 16 else 1024
  let mine := (d :: l.filter same).take n
  d :: l.filter (fun x => !same x || mine.contains x)

/-- CO_STAT counts a completed instance (R672). -/
def State.countDecision (s : State) (status : Nat) : State :=
  let s := s.incFld rCoStat 63 32 1
  match status with
  | 1 => s.incFld rCoStat 31 16 1
  | 2 => s.incFld rCoStat 7 0 1
  | _ => s

/-- The group field of an instruction. -/
def collGroup (i : Word) : Nat := bitsOf i 31 16
/-- SHAPE of a COLL instruction (R272, R660). -/
def collShape (i : Word) : Nat := bitsOf i 39 36 * 16 + bitsOf i 35 35 * 4 + cSub i % 4
/-- LEVEL. -/
def collLevel (i : Word) : Nat := bitsOf i 34 32

/-- The result bytes of a decision. -/
def Decision.bytes (d : Decision) : List Byte := d.vals.flatMap (fun v => leBytes (shapeWidth d.shape) v.toNat)

/-- The decision written at RB of a well whose controller waits for it; a fault there is cause 0x1 of that well alone
(R807), and a place that cannot be written now is written when the controller goes on. -/
def State.writeResult (s : State) (w : Nat) (d : Decision) : State :=
  let x := s.well w
  let i := s.imWord w x.cx.pc
  let done (t : State) : State :=
    { t with decided := t.decided.map (fun e => if e = d then { e with written := w :: e.written } else e) }
  if d.status ≠ 0 ∨ d.fence ∨ shapeOp d.shape = 0 then done s
  else
    match s.writeDir (s.ctlCtx w) (x.cx.get (cRs1 i)).toNat d.bytes with
    | .ok t => done t
    | .error (.stall _) => s
    | .error e =>
      match s.ctlErr w e with
      | .next t => done t
      | _ => s

/-- Wells that wait for a decision and are not pre-empted (R667). -/
def State.waiters (s : State) (d : Decision) : List Nat :=
  match d.job.bind s.job with
  | none => []
  | some x => x.wells.filter (fun w =>
      (s.well w).ctl == .stalled && (s.well w).job == d.job
      && (match (s.well w).cx.wait with
          | .coll true => !d.fence && collGroup (s.imWord w (s.well w).cx.pc) == d.group
              && tabGet 0 (s.well w).colls d.group == d.k + 1
          | _ => false))

/-- An instance completes on this device: held, counted, and its value written at every waiting well (R660, R665). -/
def State.complete (s : State) (d : Decision) : State :=
  let s := { s with decided := keepDecided d s.decided }.countDecision d.status
  (s.waiters d).foldl (fun t w =>
    match t.decided.head? with
    | some e => t.writeResult w e
    | none => t) s

/-- An instance decided: its record freed, the decision sent to every member from which a contribution came, and
completed here (R660). -/
def State.settle (s : State) (c : Coll) (status : Nat) (vals : List Word) : State :=
  let d : Decision :=
    { job := c.job, fence := c.fence, group := c.group, k := c.k, top := c.top, shape := c.shape, status := status,
      vals := if status = 0 then vals else [] }
  let s := { s with colls := s.colls.erase c }
  let s := c.inputs.foldl (fun t i => t.sendResult d i.src i.stage) s
  s.complete d

/-! ### Stages (R659, R661) -/

/-- Do the inputs of a stage agree (R661)? A set MISMATCH stays set. -/
def inputsMism (l : List Contrib) : Bool :=
  match l with
  | [] => false
  | a :: t => a.mism || t.any (fun b => b.mism || b.top != a.top || b.shape != a.shape)

/-- Contributions in rank order, one per rank. -/
def byRank (l : List Contrib) (m : Nat) : List Contrib :=
  (List.range m).filterMap (fun r => l.find? (fun c => c.rank == r))

/-- The stages of an instance from the contribution it holds, as far as they go (R659). -/
def collGo (s : State) (c : Coll) : Nat → State
  | 0 => { s with colls := s.colls ++ [c] }
  | fuel + 1 =>
    match c.own with
    | none => { s with colls := s.colls ++ [c] }
    | some o =>
      if c.top < o.stage then s.settle c (if o.mism then 2 else 0) o.vals
      else
        let cfg := s.stageCfg c.group o.stage
        if cfg.1 = 1 then collGo s { c with own := some { o with stage := o.stage + 1 } } fuel
        else if cfg.2.1 ≠ 0 then
          let o := { o with rank := cfg.2.1 }
          let t := s.sendColl c.group cfg.2.2 o c.k (if o.mism then 1 else 0)
          { t with colls := t.colls ++ [{ c with own := some o, sentUp := true }] }
        else
          let ins := byRank ({ o with rank := 0 } :: c.inputs.filter (fun i => i.stage == o.stage)) cfg.1
          if ins.length = cfg.1 then
            let o' : Contrib :=
              { o with stage := o.stage + 1, mism := inputsMism ins,
                       vals := treeOf c.shape (ins.length + 1) (ins.map Contrib.vals) }
            collGo s { c with own := some o' } fuel
          else { s with colls := s.colls ++ [c] }

/-- A record goes on after a post or a contribution; one that has sent upward only waits. -/
def State.collStep (s : State) (c : Coll) : State :=
  let s := { s with colls := s.colls.erase c }
  if c.sentUp then { s with colls := s.colls ++ [c] } else collGo s c 6

/-- The record of an instance. -/
def State.collRec (s : State) (fence : Bool) (g k : Nat) (j : Option Nat) : Option Coll :=
  s.colls.find? (fun c => c.fence == fence && c.group == g && c.k == k
    && (c.job == j || (!fence && (c.job == none || j == none && c.top != 0))))

/-- The partition stage (R657, R661, R329): complete when every well has posted. -/
def State.partStage (s : State) (c : Coll) (wells : List Nat) : Coll :=
  if wells.all (fun w => c.posts.any (fun p => p.1 == w)) then
    let ps := wells.filterMap (fun w => c.posts.find? (fun p => p.1 == w))
    { c with own := some { stage := 1, rank := 0, src := s.devId, top := c.top, shape := c.shape, mism := c.mism,
                           vals := treeOf c.shape (ps.length + 1) (ps.map Prod.snd) } }
  else c

/-- A well's post enters its instance's record (R656, R661, R662). -/
def State.enterPost (s : State) (c : Coll) (w j : Nat) (x : Job) (top shape : Nat) (vals : List Word) : State :=
  let dl := s.fld rCoCtl 31 16
  let gr := s.fld rCoCtl 15 8
  let c := match c.started with
    | some _ => c
    | none => { c with started := some s.now, deadline := (if dl = 0 then 100 else dl) * 1000000,
                       grace := (if gr = 0 then 10 else gr) * 1000000 }
  let c := { c with job := some j, posts := c.posts ++ [(w, vals)],
                    mism := c.mism || c.top != top || c.shape != shape }
  s.collStep (s.partStage c x.wells)

/-- The count of a group raised on a well (R656). -/
def State.raiseColl (s : State) (w g : Nat) : State :=
  let x := s.well w
  s.setWell w { x with colls := tabPut 0 x.colls g ((tabGet 0 x.colls g + 1) % 2 ^ 32) }

/-! ### COLL (R272, R807) -/

/-- The addresses of a COLL: its values at RA, after RB was checked for writing (R807). -/
def State.collRead (s : State) (ctx ra rb shape : Nat) : Except AccErr (List Word) := do
  let wd := shapeWidth shape
  let n := shapeN shape
  let bs ← s.readVa ctx ra (wd * n)
  let _ ← (runsOf rb (wd * n)).mapM (fun r => s.translate ctx r.1 true)
  pure ((List.range n).map (fun i => BitVec.ofNat 64 (byteField bs (wd * i) wd)))

/-- A COLL that finds its decision (R665): the value at RB and the next instruction, or cause 0x7 (R277). -/
def State.collFinish (s : State) (w : Nat) (d : Decision) : Res :=
  let x := s.well w
  if d.status ≠ 0 then
    .next (s.ctlExc w 7 (if d.status = 1 then 0x40 else 0x41) (x.cx.pc + (if d.fence then 0 else d.group) * 65536))
  else if d.written.contains w then cGo s s w (s.pcNext w)
  else
    let t := s.writeResult w d
    if (t.well w).ctl = .faulted then .next t
    else if t.decided.any (fun e => e.written.contains w && { e with written := d.written } == d) then
      cGo s t w (s.pcNext w)
    else s.stalls 469

/-- A COLL whose addresses are good posts (R655, R656, R661, R665). -/
def State.collPost (s : State) (w j : Nat) (x : Job) (i : Word) (vals : List Word) : Res :=
  let g := collGroup i
  let k := tabGet 0 (s.well w).colls g
  let top := collLevel i
  let shape := collShape i
  match s.decisionOf false g k j with
  | some d => (s.raiseColl w g).collFinish w d
  | none =>
    if top ≠ 0 ∧ s.groupValid g = false then
      let d : Decision := { job := some j, fence := false, group := g, k := k, top := top, shape := shape, status := 2 }
      ((s.raiseColl w g).complete d).collFinish w d
    else
      match s.collRec false g k (some j) with
      | some c => .next (((s.raiseColl w g).stallCtl w (.coll true)).enterPost c w j x top shape vals)
      | none =>
        if 256 ≤ s.colls.length then .next (s.stallCtl w (.coll false))
        else
          .next (((s.raiseColl w g).stallCtl w (.coll true)).enterPost
            { job := none, fence := false, group := g, k := k, top := top, shape := shape } w j x top shape vals)

/-- COLL (R272, R807). -/
def State.doColl (s : State) (w : Nat) (c : CtlCtx) (i : Word) : Res :=
  needSome (s.wellJob w) 272 (fun jx =>
    let ra := (c.get (cRd i)).toNat
    let rb := (c.get (cRs1 i)).toNat
    let sh := collShape i
    if shapeOp sh = 0 then s.collPost w jx.1 jx.2 i []
    else if ra % shapeWidth sh ≠ 0 then .next (s.ctlExc w 8 0x20 ra)
    else if rb % shapeWidth sh ≠ 0 then .next (s.ctlExc w 8 0x20 rb)
    else
      match s.collRead (s.ctlCtx w) ra rb sh with
      | .error e => s.ctlErr w e
      | .ok vals => s.collPost w jx.1 jx.2 i vals)

/-- COLL_BARRIER (R272). -/
def execCollBarrier (w : WellId) (ev : EccEv) (s : State) : Res :=
  cStep .collBarrier w ev s (fun s c i => s.doColl w c i)
/-- COLL_SUM (R272). -/
def execCollSum (w : WellId) (ev : EccEv) (s : State) : Res := cStep .collSum w ev s (fun s c i => s.doColl w c i)
/-- COLL_MAX (R272). -/
def execCollMax (w : WellId) (ev : EccEv) (s : State) : Res := cStep .collMax w ev s (fun s c i => s.doColl w c i)
/-- COLL_MIN (R272). -/
def execCollMin (w : WellId) (ev : EccEv) (s : State) : Res := cStep .collMin w ev s (fun s c i => s.doColl w c i)

/-! ### FENCE PARTITION (R269) -/

/-- A well whose FENCE WELL holds posts its fence, or stalls for a record (R655). -/
def State.postFence (s : State) (w j : Nat) (x : Job) : Res :=
  let y := s.well w
  let k := y.fences
  let go (c : Coll) : Res :=
    .next (((s.setWell w { y with fences := k + 1 }).stallCtl w (.fencePart true)).enterPost c w j x 0 0 [])
  match s.collRec true 0 k (some j) with
  | some c => go c
  | none =>
    if 256 ≤ s.colls.length then .next (s.stallCtl w (.fencePart false))
    else go { job := some j, fence := true, group := 0, k := k, top := 0, shape := 0 }

/-- FENCE_PARTITION (R269). -/
def execFencePartition (w : WellId) (ev : EccEv) (s : State) : Res :=
  cStep .fencePart w ev s (fun s _ _ =>
    needSome (s.wellJob w) 269 (fun jx =>
      if s.wellDone w then s.postFence w jx.1 jx.2 else .next (s.stallCtl w (.fencePart false))))

/-- The fence at which well w has posted and waits (R269). -/
def State.fenceNo (s : State) (w : Nat) : Option Nat :=
  let x := s.well w
  match x.ctl, x.cx.wait with
  | .stalled, .fencePart true => some x.fences
  | _, _ => none

/-- No well that waits at the same fence as well w needs a combination of the layer which that fence ends (R122, R286). -/
def State.fenceSettled (s : State) (w j : Nat) : Bool :=
  (s.job j).all (fun x => x.wells.all (fun v => s.fenceNo v != s.fenceNo w || !s.layerNeed v))

/-- A fence decided OK is passed once the layer that it ends is combined, and replayed when its flag is set (R122); it ends
the layer of its well (R286). -/
def State.passFence (s : State) (w j : Nat) (d : Decision) : Res :=
  if d.status ≠ 0 then s.collFinish w d
  else if !(s.fenceSettled w j && s.wellDone w) then s.stalls 122
  else
    let t := s.sawWalk w (s.wellSlot w) true 0
    cGo s (t.setWell w { t.well w with layer := {} }) w (s.pcNext w)

/-! ### Layers (R122) -/

/-- The controller of a well has come to the end of its layer, and nothing of the layer is under way. -/
def State.layerEnd (s : State) (w : Nat) : Bool :=
  let x := s.well w
  s.layerIdle w && x.layer.replay.isEmpty && s.pumpsDone w true 0
  && (match x.ctl, x.cx.wait with
      | .halted, _ => true
      | .stalled, .fencePart p => p
      | .stalled, .checkpoint _ _ => true
      | .stalled, .halt => true
      | _, _ => false)

/-- Every well of a job has come to the end of one layer: all at the same fence, or none at a fence (R122, R286). -/
def State.layerEnds (s : State) (x : Job) : Bool :=
  x.wells.all (fun w => s.layerEnd w && s.fenceNo w == s.fenceNo (x.wells.headD 0))

/-- Every well replays its layer one rung up (R122): the operations whose counts exceeded triggered it (R128), and what the
layer's stitches have written is undefined until their kept attempts end (R120). A well with no part of the layer counts no
replay (log entry 100). -/
def State.beginReplay (s : State) (j : Nat) (x : Job) : State :=
  let s := s.modJob j (fun y => { y with layerRung := y.layerRung + 1, widened := true })
  x.wells.foldl (fun t w =>
    let y := t.well w
    let t := (t.incFld (rWlGuardStat w) 15 0 y.layer.cuHits).undefVas (t.ctxOf j) y.layer.outs
    let t := t.setWell w { y with layer := { y.layer with hits := 0, cuHits := 0, outs := [], replay := y.layer.items } }
    if y.layer.items.isEmpty then t else (t.incFld (rWlGuardStat w) 63 48 1).countEv w 0x06 1) s

/-- The layer is over without a further replay: attempts that still exceed a threshold were at their last rung (R128, R130);
its parts are cleared, and the guard entry stays until the fence. -/
def State.closeLayer (s : State) (j : Nat) (x : Job) : State :=
  let s := s.modJob j (fun y => { y with layerRung := 0 })
  x.wells.foldl (fun t w =>
    let y := t.well w
    (t.incFld (rWlGuardStat w) 31 16 (y.layer.hits + y.layer.cuHits)).setWell w
      { y with layer := { guard := y.layer.guard } }) s

/-- The last rung of a layer: the smallest over the wells that hold a part of it (R116). -/
def layersLast (ls : List Layer) : Nat := (ls.filter (fun l => !l.items.isEmpty)).foldl (fun n l => min n l.last) 3

/-- LAYER_TRIGGER_COMBINE (R122, R123). -/
def execLayerTriggerCombine (j : Nat) (s : State) : Res :=
  needSome (s.job j) 122 (fun x =>
    need (decide (x.phase = .running) && s.layerEnds x && !s.layersSettled j) 122 (
      let layers := x.wells.map (fun w => (s.well w).layer)
      if layers.any (fun l => decide (0 < l.hits + l.cuHits)) && decide (x.layerRung < layersLast layers) then
        .next (s.beginReplay j x)
      else .next (s.closeLayer j x)))

/-! ### Arriving collective frames (R660 to R666) -/

/-- BADFRAME (R660). -/
def State.badColl (s : State) : State := s.incFld rCoStat 15 8 1

/-- The count of a group on this device, pre-empted jobs' wells included (R656, R666). -/
def State.groupCount (s : State) (g : Nat) : Nat :=
  s.savedWells.foldl (fun n e => max n (tabGet 0 e.2.colls g))
    ((List.range 12).foldl (fun n w => max n (tabGet 0 (s.well w).colls g)) 0)

/-- A contribution that would need an instance record while none is free (R655). -/
def State.needsRecord (s : State) (g : Nat) (m : CollMsg) : Bool :=
  !s.decided.any (fun d => !d.fence && d.top != 0 && d.group == g && d.k == m.k)
  && (s.collRec false g m.k none).isNone && decide (s.groupCount g ≤ m.k) && decide (256 ≤ s.colls.length)

/-- A COLL frame that waits in its receive buffer for a free record (R655, log entry 91). -/
def State.collWaits (s : State) (f : Frame) : Bool :=
  match readColl f.payload with
  | none => false
  | some m => (s.groupOfKey m.key).any (fun g => s.needsRecord g m)

/-- A contribution arrives at a leader (R659, R665, R666). -/
def State.takeContrib (s : State) (g src : Nat) (m : CollMsg) : State :=
  let c : Contrib := { stage := m.stage, rank := m.rank, src := src, top := m.top, shape := m.shape,
                       mism := m.flags.testBit 0, vals := m.vals }
  match s.decided.find? (fun d => !d.fence && d.top != 0 && d.group == g && d.k == m.k) with
  | some d => s.sendResult d src m.stage
  | none =>
    match s.collRec false g m.k none with
    | some r =>
      if r.inputs.any (fun i => i.stage == c.stage && i.rank == c.rank) then s
      else
        let s := { s with colls := s.colls.erase r }
        s.collStep { r with inputs := r.inputs ++ [c] }
    | none =>
      if m.k < s.groupCount g then
        s.sendResult { job := none, fence := false, group := g, k := m.k, top := m.top, shape := m.shape, status := 2 }
          src m.stage
      else if 256 ≤ s.colls.length then s
      else { s with colls := s.colls ++
              [{ job := none, fence := false, group := g, k := m.k, top := m.top, shape := m.shape, inputs := [c] }] }

/-- An instance of a record decided TIMEOUT by the top leader. -/
def State.timeOut (s : State) (c : Coll) : State := s.settle c 1 []

/-- An ABORT on its way (R662, R663): decided by the top leader, forwarded by every other. -/
def State.takeAbort (s : State) (g src : Nat) (m : CollMsg) : State :=
  match s.decided.find? (fun d => !d.fence && d.top != 0 && d.group == g && d.k == m.k) with
  | some d => s.sendResult d src m.stage
  | none =>
    match s.upStage g m.top with
    | some st =>
      let cfg := s.stageCfg g st
      s.sendColl g cfg.2.2
        { stage := st, rank := cfg.2.1, src := s.devId, top := m.top, shape := m.shape, mism := false, vals := m.vals }
        m.k 2
    | none =>
      match s.collRec false g m.k none with
      | some c => s.timeOut c
      | none => s.complete { job := none, fence := false, group := g, k := m.k, top := m.top, shape := m.shape, status := 1 }

/-- A decision arrives (R660, R665): forwarded downward and completed here; kept when no well waits for it. -/
def State.takeResult (s : State) (g : Nat) (m : CollMsg) : State :=
  match s.collRec false g m.k none with
  | some c => s.settle { c with top := m.top, shape := if c.job.isSome then c.shape else m.shape } m.flags m.vals
  | none =>
    if s.decided.any (fun d => !d.fence && d.top != 0 && d.group == g && d.k == m.k) then s
    else
      s.complete { job := none, fence := false, group := g, k := m.k, top := m.top, shape := m.shape, status := m.flags,
                   vals := if m.flags = 0 then m.vals else [] }

/-- The payload of a collective frame delivered to the unit. -/
def State.collMsg (s : State) (f : Frame) (k : State → Nat → CollMsg → State) : State :=
  match readColl f.payload with
  | none => s.badColl
  | some m =>
    match s.groupOfKey m.key with
    | none => s.badColl
    | some g => k s g m

/-! ### Deadlines (R662 to R664) -/

/-- COLL_DEADLINE_EXPIRY (R662, R663, R269): instance record i. -/
def execCollDeadlineExpiry (i : Nat) (s : State) : Res :=
  needSome s.colls[i]? 662 (fun c =>
    needSome c.started 662 (fun t0 =>
      need (c.aborted.isNone && decide (t0 + c.deadline ≤ s.now)) 662 (
        if c.fence ∨ c.top = 0 then .next (s.timeOut c)
        else
          match s.upStage c.group c.top with
          | none => .next (s.timeOut c)
          | some st =>
            let cfg := s.stageCfg c.group st
            let n := if shapeOp c.shape = 0 then 0 else shapeN c.shape
            let s := s.sendColl c.group cfg.2.2
              { stage := st, rank := cfg.2.1, src := s.devId, top := c.top, shape := c.shape, mism := c.mism,
                vals := List.replicate n 0#64 } c.k 2
            .next { s with colls := s.colls.set i { c with aborted := some s.now } })))

/-- COLL_GRACE_EXPIRY (R664): the device completes its wells with COLLECTIVE_TIMEOUT. -/
def execCollGraceExpiry (i : Nat) (s : State) : Res :=
  needSome s.colls[i]? 664 (fun c =>
    needSome c.aborted 664 (fun t0 =>
      need (decide (t0 + c.grace ≤ s.now)) 664 (
        let s := { s with colls := s.colls.erase c }
        .next (s.complete { job := c.job, fence := c.fence, group := c.group, k := c.k, top := c.top, shape := c.shape,
                            status := 1 }))))

end Sys2Proof.Machine
end

