-- ==== Sys2Proof/Machine/Inputs.lean ====
section
/-!
DEFINITION. The input pipeline and the noise generator (R550 to R563).
-/

namespace Sys2Proof.Machine

/-! ### Input records (R550) -/

/-- Address of word i of input record n of an argument block (R609). -/
def inAddr (arg n i : Nat) : Nat := arg + 0x1100 + 64 * n + 8 * i

/-- An input record. -/
structure InRec where
  kind : Nat
  src : Nat
  pitch : Nat
  width : Nat
  height : Nat
  levels : Nat
  dst : Nat
  row0 : Int
deriving DecidableEq, Repr

/-- An input record from its words. -/
def parseIn (ws : List Word) : InRec :=
  { kind := bitsOf (opW ws 0) 63 60, src := bitsOf (opW ws 0) 55 0, pitch := bitsOf (opW ws 1) 63 32,
    width := bitsOf (opW ws 1) 31 16, height := bitsOf (opW ws 1) 15 0, levels := bitsOf (opW ws 2) 63 60,
    dst := bitsOf (opW ws 2) 55 0, row0 := signedOf 32 (bitsOf (opW ws 3) 63 32) }

/-- An image, not an embedding. -/
def InRec.image (r : InRec) : Bool := decide (1 ≤ r.kind ∧ r.kind ≤ 4)

/-- Bytes per pixel of an image, per element of an embedding. -/
def InRec.bpp (r : InRec) : Nat :=
  match r.kind with
  | 1 => 3
  | 2 => 4
  | 3 => 6
  | 4 => 2
  | 5 => 2
  | _ => 4

/-- Read an input record. -/
def State.readIn (s : State) (ctx arg n : Nat) : Except AccErr InRec := do
  let ws ← s.readWords ctx (inAddr arg n 0) 8
  pure (parseIn ws)

/-- BF16 code of a value (R92, R96). -/
def toBf16 (v : Num) : Nat := (convNum .bf16 v).1

/-- A scaled integer sample: round(round(v * K) - 1.0), in BF16 (R550, R551). -/
def sampleCode (num den v : Nat) : Nat :=
  toBf16 (val32 (fsub (fmul (f32OfNat v) (ratio32 num den 0)) f32One))

/-- BF16 codes R, G, B of one pixel from a row's bytes (KIND 1 to 3). -/
def pixelCodes (kind : Nat) (bs : List Byte) (x : Nat) : List Nat :=
  match kind with
  | 1 => (List.range 3).map (fun c => sampleCode 2 255 (bs.getD (3 * x + c) 0#8).toNat)
  | 2 => (List.range 3).map (fun c => sampleCode 2 255 (bs.getD (4 * x + c) 0#8).toNat)
  | _ => (List.range 3).map (fun c => sampleCode 2 1023 (byteField bs (6 * x + 2 * c) 2 % 1024))

/-- One row of level 0: a pixel is its three codes. -/
def State.imageRow (s : State) (ctx : Nat) (r : InRec) (y : Nat) : Except AccErr (List (List Nat)) := do
  if r.kind = 4 then do
    let ps ← (List.range 3).mapM (fun c => s.readVa ctx (r.src + (c * r.height + y) * r.pitch) (2 * r.width))
    pure ((List.range r.width).map (fun x => ps.map (fun bs => byteField bs (2 * x) 2)))
  else do
    let bs ← s.readVa ctx (r.src + y * r.pitch) (r.bpp * r.width)
    pure ((List.range r.width).map (pixelCodes r.kind bs))

/-- One output of the pyramid filter from FP32 inputs (R554). -/
def pyrTap (x : Nat → Word32) (n j : Nat) : Word32 :=
  let at_ (i : Int) : Word32 := x (max 0 (min i ((n : Int) - 1))).toNat
  let a := at_ (2 * j - 1)
  let b := at_ (2 * j)
  let p := at_ (2 * j + 1)
  let d := at_ (2 * j + 2)
  fmul (fadd (fadd a d) (fmul (f32OfNat 3) (fadd b p))) (ratio32 1 8 0)

/-- The level below a level, channel by channel: horizontal pass kept in FP32, vertical pass written to BF16 (R554). -/
def pyrLevel (img : List (List (List Nat))) : List (List (List Nat)) :=
  let H := img.length
  let W := (img.headD []).length
  let W2 := (W + 1) / 2
  let H2 := (H + 1) / 2
  let f32 (c : Nat) : Word32 := round32 (decodeElem .bf16 c)
  let horiz := img.map (fun row =>
    (List.range W2).map (fun j => (List.range 3).map (fun c => pyrTap (fun i => f32 ((row.getD i []).getD c 0)) W j)))
  (List.range H2).map (fun j =>
    (List.range W2).map (fun x => (List.range 3).map (fun c =>
      toBf16 (val32 (pyrTap (fun i => ((horiz.getD i []).getD x []).getD c f32NaN) H j)))))

/-- The levels of an image. -/
def pyramid (img : List (List (List Nat))) : Nat → List (List (List (List Nat)))
  | 0 => []
  | n + 1 => img :: pyramid (pyrLevel img) n

/-- The destination rows of an input record: three channels per site, or a token (R553, R550). -/
def State.inputRows (s : State) (ctx : Nat) (r : InRec) : Except AccErr (List (List Nat)) := do
  if r.image then do
    let img ← (List.range r.height).mapM (s.imageRow ctx r)
    pure ((pyramid img r.levels).flatten.flatten)
  else
    (List.range r.height).mapM (fun y => do
      let bs ← s.readVa ctx (r.src + y * r.pitch) (r.bpp * r.width)
      pure ((List.range r.width).map (fun x =>
        let v := byteField bs (r.bpp * x) r.bpp
        if r.kind = 5 then v else toBf16 (decodeElem .fp32 v))))

/-- All bytes of an input record written. -/
def State.fillInput (s : State) (ctx : Nat) (r : InRec) : Except AccErr State := do
  let rows ← s.inputRows ctx r
  let d ← s.readDesc ctx r.dst
  let runs ← s.placeRegion ctx d r.row0 0 rows
  s.writeRuns ctx runs

/-- A fill or input that fails (R564, R474): IN_ERR, the error's own records, and the job's end. An input is reported with its
record, a noise fill with the wellhead pump that writes it. -/
def State.inputErr (s : State) (j n : Nat) (noise : Bool) (pump : Nat) (e : AccErr) : Res :=
  match e with
  | .stall r => s.stalls r
  | e =>
    let s := s.noteHead (viaQ 12 (s.ctxOf j)) (if noise then 12 else 23) (if noise then 16 + pump else n) e
    let s := s.latch rInErr (setBits (setBits (setBits 0#64 61 61 noise.toNat) 60 56 n) 55 0 e.va)
    .next (s.failJob j e.status e.va)

/-- Event 65,535 of every well once all inputs are filled (R555). -/
def State.inputsDone (s : State) (j : Nat) (x : Job) : State :=
  x.wells.foldl (fun t w => t.raiseEvent j w (t.slotOf j w) 65535 1) s

/-- INPUT_RECORD_FILL (R555): the lowest record of the job that is due. -/
def execInputRecordFill (j : Nat) (s : State) : Res :=
  needSome (s.job j) 555 (fun x =>
    need (decide (x.phase = .running)) 555 (
      match x.inputsDue with
      | [] => .fault (.notEnabled 555)
      | n :: rest =>
        let ctx := viaQ 12 (s.ctxOf j)
        match s.readIn ctx x.arg n with
        | .error e => s.inputErr j n false 0 e
        | .ok r =>
          match s.fillInput ctx r with
          | .error e => s.inputErr j n false 0 e
          | .ok t =>
            let t := (t.modJob j (fun y => { y with inputsDue := rest })).incFld rInStat 31 16 1
            .next (if rest.isEmpty then t.inputsDone j x else t)))

/-! ### Noise records (R556) -/

/-- A noise record. -/
structure NoiseRec where
  desc : Nat
  row0 : Int
  k0 : Nat
  rows : Nat
  cols : Nat
  stream : Nat
  sample : Nat
  event : Nat
  well : Nat
  when_ : Nat
deriving DecidableEq, Repr

/-- A noise record from its words. -/
def parseNoise (ws : List Word) : NoiseRec :=
  { desc := bitsOf (opW ws 0) 55 0, row0 := signedOf 32 (bitsOf (opW ws 1) 63 32), k0 := bitsOf (opW ws 1) 31 0,
    rows := bitsOf (opW ws 2) 63 32, cols := bitsOf (opW ws 2) 31 0, stream := bitsOf (opW ws 3) 63 56,
    sample := bitsOf (opW ws 3) 55 40, event := bitsOf (opW ws 3) 39 24, well := bitsOf (opW ws 3) 23 20,
    when_ := bitsOf (opW ws 3) 19 18 }

/-- Read noise record n of an argument block (R609). -/
def State.readNoise (s : State) (ctx arg n : Nat) : Except AccErr NoiseRec := do
  let ws ← s.readWords ctx (arg + 0x1200 + 32 * n) 4
  pure (parseNoise ws)

/-- Records that a job start (all) or a pass (WHEN 1) fills; an empty record is never filled (R560, R561). A record that
cannot be read is met again by its fill. -/
def State.noiseDue (s : State) (ctx arg : Nat) (pass : Bool) : Except AccErr (List Nat) :=
  (List.range 16).filterM (fun n => match s.readNoise ctx arg n with
    | .ok r => .ok (r.desc != 0 && (!pass || r.when_ == 1))
    | .error (.stall r) => .error (.stall r)
    | .error _ => .ok true)

/-- A noise fill due or under way: its record and the pass key P. -/
def fillOf (p n : Nat) : Nat := 16 * p + n

/-! ### The generator (R557, R558) -/

/-- rotl. -/
def rotl32 (v : Word32) (n : Nat) : Word32 := v.rotateLeft n

/-- State of the mixing rounds. -/
structure Mix where
  a : Word32
  b : Word32
  c : Word32
  d : Word32
  k0 : Word32
  k1 : Word32
deriving DecidableEq, Repr

/-- One round (R557). -/
def Mix.round (m : Mix) : Mix :=
  let a := m.a + rotl32 m.d 7 + m.k0
  let b := (m.b ^^^ a) * 0xA7D39B45#32
  let c := m.c + rotl32 b 13 + m.k1
  let d := (m.d ^^^ c) * 0xE5C1F2A9#32
  { a := b, b := c, c := d, d := a, k0 := m.k0 + 0x3B91D6A7#32, k1 := m.k1 + 0x71C428E3#32 }

/-- Eight rounds. -/
def Mix.rounds : Nat → Mix → Mix
  | 0, m => m
  | n + 1, m => Mix.rounds n m.round

/-- The words of element index e (R557). -/
def noiseWords (seed : Word) (p : Nat) (r : NoiseRec) (e : Nat) : Mix :=
  let b := e / 4
  Mix.rounds 8
    { a := BitVec.ofNat 32 b, b := BitVec.ofNat 32 (b / 2 ^ 32 % 64 + r.stream * 256 + p * 65536),
      c := BitVec.ofNat 32 r.sample, d := 0#32, k0 := seed.setWidth 32, k1 := (seed >>> 32).setWidth 32 }

/-- A negated FP32 value. -/
def fneg (v : Word32) : Word32 := v ^^^ 0x80000000#32

/-- A polynomial 1 + t*(c0 + t*(c1 + …)), each operation rounded. -/
def polyOf (t : Word32) : List Word32 → Word32
  | [] => f32One
  | cs => fadd f32One (fmul t (cs.dropLast.foldr (fun c acc => fadd c (fmul t acc)) (cs.getLastD f32One)))

/-- S3 to S11 (R558). -/
def sinCoef : List Word32 :=
  [fneg (ratio32 1 6 0), ratio32 1 120 0, fneg (ratio32 1 5040 0), ratio32 1 362880 0, fneg (ratio32 1 39916800 0)]
/-- C2 to C12 (R558). -/
def cosCoef : List Word32 :=
  [fneg (ratio32 1 2 0), ratio32 1 24 0, fneg (ratio32 1 720 0), ratio32 1 40320 0, fneg (ratio32 1 3628800 0),
   ratio32 1 479001600 0]

/-- The two values of a pair of words (R558). -/
def gaussPair (w0 w1 : Word32) : Word32 × Word32 :=
  let u1 := round32 (.fin false (w0.toNat / 256 + 1) (-24))
  let q := fmul (fneg (f32OfNat 2)) (sp32 .log u1)
  let r := if (val32 q).isZero then 0#32 else fmul q (frsqrt q)
  let v := w1.toNat / 256
  let h := v / 2 ^ 22
  let f := round32 (.fin false (v % 2 ^ 22) (-22))
  let t0 := fmul f 0x3FC90FDB#32
  let t := fmul t0 t0
  let sn := fmul t0 (polyOf t sinCoef)
  let cs := polyOf t cosCoef
  let p := match h with
    | 0 => (cs, sn)
    | 1 => (fneg sn, cs)
    | 2 => (fneg cs, fneg sn)
    | _ => (sn, fneg cs)
  (fmul r p.1, fmul r p.2)

/-- The value of element e (R558). -/
def noiseElem (seed : Word) (p : Nat) (r : NoiseRec) (e : Nat) : Word32 :=
  let m := noiseWords seed p r e
  let pr := if e % 4 < 2 then gaussPair m.a m.b else gaussPair m.c m.d
  if e % 2 = 0 then pr.1 else pr.2

/-- The region of a noise record written (R556, R558). -/
def State.fillNoise (s : State) (ctx : Nat) (seed : Word) (p : Nat) (r : NoiseRec) : Except AccErr State := do
  let d ← s.readDesc ctx r.desc
  let rows := (List.range r.rows).map (fun i =>
    (List.range r.cols).map (fun j => (convNum d.fmt (val32 (noiseElem seed p r (i * r.cols + j)))).1))
  let runs ← s.placeRegion ctx d r.row0 r.k0 rows
  s.writeRuns ctx runs

/-- NOISE_FILL (R560, R561): the fill due first, in ascending record order after the input records (R562), through a wellhead
pump, which it keeps until its event. -/
def execNoiseFill (j : Nat) (s : State) : Res :=
  needSome (s.job j) 560 (fun x =>
    need (decide (x.phase = .running) && x.inputsDue.isEmpty) 560 (
      match x.fillsDue with
      | [] => .fault (.notEnabled 560)
      | f :: rest =>
        match s.whFree with
        | none => s.stalls 448
        | some pump =>
          if s.missing 12 pump then s.stalls 441
          else
            let ctx := viaQ 12 (s.ctxOf j)
            let go : Except AccErr State := do
              let seed ← s.readWord ctx (x.arg + 0x30)
              let r ← s.readNoise ctx x.arg (f % 16)
              s.fillNoise ctx seed (f / 16) r
            match go with
            | .error e => s.inputErr j (f % 16) true pump e
            | .ok t => .next ((t.modJob j (fun y => { y with fillsDue := rest, filling := y.filling ++ [f] })).whTake pump
                (.noise j f))))

/-- The wellhead pump that holds a fill: the one that wrote it, or after a pre-emption, which freed it (R473), a free one. -/
def State.fillPump (s : State) (j f : Nat) : Option Nat :=
  match s.whOf (.noise j f) with
  | some n => some n
  | none => s.whFree

/-- NOISE_FILL_DONE (R561, R563): the oldest fill whose bytes are visible raises its event. One that was suspended goes on
first, when its job runs again (R473, R564). -/
def execNoiseFillDone (j : Nat) (s : State) : Res :=
  needSome (s.job j) 561 (fun x =>
    need (decide (x.phase = .running ∨ x.phase = .preempting)) 561 (
      match x.filling with
      | [] => .fault (.notEnabled 561)
      | f :: rest =>
        match s.fillPump j f with
        | none => s.stalls 448
        | some pump =>
          match s.readNoise (viaQ 12 (s.ctxOf j)) x.arg (f % 16) with
          | .error e => s.inputErr j (f % 16) true pump e
          | .ok r =>
            let w := x.wells.getD (r.well % x.wells.length) 0
            let s := (s.modJob j (fun y => { y with filling := rest, noiseN := y.noiseN + 1 })).raiseEvent j w (s.slotOf j w)
              r.event 1
            .next ((s.incFld rInStat 63 32 1).setFld rInStat 15 0 (f / 16))))

end Sys2Proof.Machine
end

