-- ==== Sys2Proof/Machine/Checkpoint.lean ====
section
/-!
DEFINITION. CHECKPOINT (R270, R682 to R687), and the release of a stalled controller (R265).
-/

namespace Sys2Proof.Machine

/-! ### Pair messages -/

/-- State of the member (R675). -/
def State.pairState (s : State) : Nat := s.fld rTlPairStatus 63 60
/-- Pair mode: the member is IN_SYNC (R675). -/
def State.inSync (s : State) : Bool := s.pairState == 3
/-- The pair epoch (R676). -/
def State.epoch (s : State) : Nat := s.fld rTlPairStatus 31 0
/-- A message leaves over port 8. -/
def State.tellNow (s : State) (m : PairMsg) : State :=
  { s with pair := { s.pair with sent := (s.epoch, m) :: s.pair.sent } }

/-- Is a message a MIRROR request, which takes a tag of VC2 (R647, R680)? -/
def isMirror : PairMsg → Bool
  | .journal _ _ => true
  | .queue _ => true
  | .checkpoint _ _ _ _ _ _ => true
  | .header _ => true
  | _ => false

/-- A pair message sent over port 8 (R680); a MIRROR waits while no tag is free (R648). -/
def State.tell (s : State) (m : PairMsg) : State :=
  let wait : State := { s with pair := { s.pair with mirrorQ := s.pair.mirrorQ ++ [m] } }
  if !isMirror m then s.tellNow m
  else if !s.pair.mirrorQ.isEmpty then wait
  else (s.openRequest 8 s.twinPeer 0x28 0 none).elim wait (fun t => t.tellNow m)

/-- Mirrors that waited for a tag, in their order, as far as tags are free. -/
def State.flushMirrors (s : State) : State :=
  s.pair.mirrorQ.foldl (fun (t : State) m =>
    if t.pair.mirrorQ.head? = some m then
      (t.openRequest 8 t.twinPeer 0x28 0 none).elim t (fun u =>
        { u with pair := { u.pair with mirrorQ := u.pair.mirrorQ.tail } }.tellNow m)
    else t) s

/-- The oldest MIRROR request is answered: its tag is released (R648). -/
def State.mirrorAnswered (s : State) : State :=
  let c := s.conn 8 s.twinPeer 2
  (c.outst.find? (fun o => o.op == 0x28)).elim s (fun o => s.releaseTag 8 s.twinPeer c o)

/-! ### Checkpoint lists (R682, R683) -/

/-- The words of a checkpoint list. -/
def State.cpWords (s : State) (ctx va : Nat) : Except AccErr (List Word) := do
  let h ← (List.range 4).mapM (fun i => s.readGuard64 ctx (va + 16 * i))
  let n := bitsOf (opW h 2) 31 16
  if 256 < n then pure h
  else do
    let t ← (List.range (2 * n)).mapM (fun i => s.readGuard64 ctx (va + 64 + 16 * i))
    pure (h ++ t)

/-- Do two regions overlap? -/
def regionsMeet (a b : Bool × Nat × Nat) : Bool :=
  decide (a.2.1 < b.2.1 + b.2.2 ∧ b.2.1 < a.2.1 + a.2.2 ∧ 0 < a.2.2 ∧ 0 < b.2.2)

/-- Some pair of a list satisfies p. -/
def anyPair {α : Type} (p : α → α → Bool) : List α → Bool
  | [] => false
  | a :: t => t.any (p a) || anyPair p t

/-- A checkpoint list from its words, none when R683 refuses it. -/
def parseCpList (va : Nat) (ws : List Word) : Option CpList :=
  let n := bitsOf (opW ws 2) 31 16
  let mib := bitsOf (opW ws 2) 63 32
  let regs := (List.range n).map (fun i =>
    (bitOf (opW ws (4 + 2 * i)) 63, bitsOf (opW ws (4 + 2 * i)) 55 0, bitsOf (opW ws (5 + 2 * i)) 55 0))
  let resv := (List.range n).any (fun i =>
    bitsOf (opW ws (4 + 2 * i)) 62 56 != 0 || bitsOf (opW ws (5 + 2 * i)) 63 56 != 0)
  let a0 := bitsOf (opW ws 0) 55 0
  let a1 := bitsOf (opW ws 1) 55 0
  if va % 64 ≠ 0 ∨ 256 < n ∨ bitsOf (opW ws 0) 63 56 ≠ 1 ∨ bitsOf (opW ws 1) 63 56 ≠ 0 ∨ bitsOf (opW ws 2) 15 0 ≠ 0
      ∨ opW ws 3 ≠ 0#64 ∨ a0 % 2 ^ 21 ≠ 0 ∨ a1 % 2 ^ 21 ≠ 0 then none
  else if resv || regs.any (fun r => r.2.1 % 65536 != 0 || r.2.2 % 65536 != 0) || anyPair regionsMeet regs
      || decide (mib * 2 ^ 20 < 2 ^ 20 + ((regs.filter (fun r => !r.1)).map (fun r => r.2.2)).sum) then none
  else some { area0 := a0, area1 := a1, mib := mib, regions := regs }

/-- CHECKPOINT (R270 orders 1 and 2, R683): the list is checked, and the well waits; wells that present different
pass numbers end their job. -/
def execCheckpoint (w : WellId) (ev : EccEv) (s : State) : Res :=
  cStep .checkpoint w ev s (fun s c i =>
    needSome (s.wellJob w) 270 (fun jx =>
      let pass := (c.get (cRd i)).toNat
      let va := (c.get (cRs1 i)).toNat
      match s.cpWords (s.ctlCtx w) va with
      | .error e => s.ctlErr w e
      | .ok ws =>
        if (parseCpList va ws).isNone then .next (s.ctlExc w 5 0x7F va)
        else
          let other := jx.2.wells.any (fun v => match (s.well v).ctl, (s.well v).cx.wait with
            | .stalled, .checkpoint q _ => q != pass
            | _, _ => false)
          if other then .next (s.endByWalker w 144 0xF jx.1 0x7F 0 c.pc)
          else .next (s.stallCtl w (.checkpoint pass va))))

/-! ### Areas (R684, R685) -/

/-- The tag of a job in header field 1. -/
def Job.tagWord (j : Job) : Word :=
  BitVec.ofNat 64 (j.queue * 2 ^ 58 + j.gen * 2 ^ 50 + j.seq)

/-- A header field of an area that fails its check is reported with its location; the checkpoint is not used, and nothing
ends (R38, R42). -/
def State.noteField (s : State) (ctx n va : Nat) : State :=
  match s.readGuard64 ctx va with
  | .ok _ => s
  | .error (.guard a) => s.reportSelf 12 0x1 0 (16 + n) a
  | .error e => s.noteHead ctx 12 (16 + n) e

/-- The areas that wellhead pump n judges: their header fields that fail are reported; none while one cannot be read yet. -/
def State.judgeAreas (s : State) (ctx n : Nat) (areas : List Nat) : Except AccErr State :=
  (areas.flatMap (fun a => (List.range 8).map (fun i => a + 16 * i))).foldlM (fun (t : State) va =>
    match s.readGuard64 ctx va with
    | .error (.stall r) => .error (.stall r)
    | _ => .ok (t.noteField ctx n va)) s

/-- The eight header fields of an area, none when one fails its check. -/
def State.cpFields (s : State) (ctx area : Nat) : Option (List Word) :=
  match (List.range 8).mapM (fun i => s.readGuard64 ctx (area + 16 * i)) with
  | .ok l => some l
  | .error _ => none

/-- CPSEQ of an area that is valid for a job (R685). -/
def State.cpValid (s : State) (ctx : Nat) (j : Job) (area : Nat) : Option Nat :=
  match s.cpFields ctx area with
  | some l => if opW l 1 = j.tagWord then some (opW l 2).toNat else none
  | none => none

/-- The last valid checkpoint of a list's areas: (area, CPSEQ). -/
def State.cpLast (s : State) (ctx : Nat) (j : Job) (l : CpList) : Option (Nat × Nat) :=
  match s.cpValid ctx j l.area0, s.cpValid ctx j l.area1 with
  | some a, some b => if a < b then some (l.area1, b) else some (l.area0, a)
  | some a, none => some (l.area0, a)
  | none, some b => some (l.area1, b)
  | none, none => none

/-- The area that order 3 writes (R685). -/
def State.cpTarget (s : State) (ctx : Nat) (j : Job) (l : CpList) : Nat :=
  match s.cpLast ctx j l with
  | some (a, _) => if a = l.area0 then l.area1 else l.area0
  | none => l.area0

/-- Non-retained regions with their place in an area (R684). -/
def cpCopies (area : Nat) : List (Bool × Nat × Nat) → Nat → List (Nat × Nat × Nat)
  | [], _ => []
  | (true, _, _) :: t, at_ => cpCopies area t at_
  | (false, a, n) :: t, at_ => (a, area + 2 ^ 20 + at_, n) :: cpCopies area t (at_ + n)

/-- The place of the saved state in an area (R684). -/
def cpStatePlace (area : Nat) : Nat × Nat := (area + 4096, 2 ^ 20 - 4096)

/-- The saved state written to an area: the manual says what it consists of and gives it no layout and no length, so every
byte of its place is a free value (log entry 59). -/
def State.cpState (s : State) (ctx area : Nat) : Except AccErr State := do
  let r := cpStatePlace area
  let t ← (runsOf r.1 r.2).foldlM (fun (t : State) r => do
    let l ← t.translate ctx r.1 true
    let t := t.clearPoison l r.2
    match t.badBlock l r.2 with
    | some b => .error (.tier (r.1 + (b.addr - l.addr)) b true)
    | none => pure (t.undefine l r.2)) s
  pure ((t.wroteDir ((t.reservoirLines ctx r.1 r.2 true).map Prod.fst)).useTlbs ctx r.1 r.2)

/-- The saved state and the region copies of a list written to an area, the area's field 0 zeroed first (R684, R685). -/
def State.cpCopy (s : State) (ctx area : Nat) (l : CpList) : Except AccErr State := do
  let s ← s.writeDir ctx area (leBytes 16 0)
  let s ← s.cpState ctx area
  (cpCopies area l.regions 0).foldlM (fun (t : State) r => do
    let bs ← t.readVa ctx r.1 r.2.2
    t.writeDir ctx r.2.1 bs) s

/-- Every well of a job waits at CHECKPOINT with its work and replays done (R270, R129). -/
def State.cpReady (s : State) (j : Nat) (x : Job) : Bool :=
  decide (x.phase = .running) && s.layersSettled j
  && x.wells.all (fun w => s.wellDone w && (match (s.well w).ctl, (s.well w).cx.wait with
      | .stalled, .checkpoint _ _ => true
      | _, _ => false))

/-- Pass and list address that rank 0 presents. -/
def State.cpWait (s : State) (x : Job) : Option (Nat × Nat) :=
  match (s.well (x.wells.headD 0)).cx.wait with
  | .checkpoint p l => some (p, l)
  | _ => none

/-- What a checkpoint sends to the twin (R686): its area's field 0 as zeroed and copies, and every retained region. -/
def cpSpans (area : Nat) (l : CpList) : List (Nat × Nat) :=
  (area, 16) :: cpStatePlace area :: (cpCopies area l.regions 0).map (fun r => (r.2.1, r.2.2))
    ++ (l.regions.filter Prod.fst).map (fun r => (r.2.1, r.2.2))

/-- Spans of a job mirrored to the twin. -/
def State.cpMirror (s : State) (ctx : Nat) (x : Job) (spans : List (Nat × Nat)) : Except AccErr State :=
  spans.foldlM (fun (t : State) r => do
    let bs ← t.readVa ctx r.1 r.2
    pure (t.tell (.checkpoint x.queue x.gen x.seq x.root r.1 bs))) s

/-- An error that wellhead pump n meets for a job: recorded, reported with the pump, and the job's end (R470, R474). A stall
leaves the step for later. -/
def State.headErr (s : State) (j n : Nat) (e : AccErr) : Res :=
  match e with
  | .stall r => s.stalls r
  | e => .next ((s.noteHead (viaQ 12 (s.ctxOf j)) 12 (16 + n) e).failJob j e.status e.va)

/-- Guard totals of a job's wells (R129). -/
def State.guardTotals (s : State) (x : Job) : List Nat :=
  [(63, 48), (47, 32), (31, 16), (15, 0)].map (fun f => (x.wells.map (fun w => s.fld (rWlGuardStat w) f.1 f.2)).sum)

/-- The saved state of an area (R684). -/
def State.cpSave (s : State) (j : Nat) (x : Job) (l : CpList) (area cpseq pass : Nat) : State :=
  let c : CpSaved :=
    { job := j, area := area, cpseq := cpseq, pass := pass, colls := x.wells.map (fun w => (w, (s.well w).colls)),
      totals := s.guardTotals x, widened := x.widened, noiseP := pass % 65536, noiseN := x.noiseN, list := l,
      sessions := s.sessions.filter (fun y => y.job == j) }
  { s with saved := c :: s.saved.filter (fun y => y.job != j || y.area != area) }

/-- Orders 3 and 4 by wellhead pump n (R270, R684 to R686): the areas are judged, the region copies and the saved state
written, and in pair mode sent to the twin. -/
def State.cpStart (s : State) (j n : Nat) (x : Job) (pass : Nat) (l : CpList) : Except AccErr State := do
  let ctx := viaQ 12 (s.ctxOf j)
  let s ← s.judgeAreas ctx n [l.area0, l.area1]
  let area := s.cpTarget ctx x l
  let seq := ((s.cpLast ctx x l).elim 0 Prod.snd) + 1
  let t ← s.cpCopy ctx area l
  let t := t.cpSave j x l area seq pass
  let spans := if s.inSync then cpSpans area l else []
  let run : CpRun := { pass := pass, list := l, area := area, cpseq := seq, mirror := s.inSync.toNat, acks := spans.length }
  ((t.modJob j (fun y => { y with cp := some run })).whTake n (.checkpoint j)).cpMirror ctx x spans

/-- CHECKPOINT_COPY (R270 orders 3 and 4, R684 to R686), by a free wellhead pump, which the checkpoint keeps (R448). A list
that R683 refuses by then ends the job as at CHECKPOINT. -/
def execCheckpointCopy (j : Nat) (s : State) : Res :=
  needSome (s.job j) 270 (fun x =>
    need (s.cpReady j x && x.cp.isNone) 270 (
      needSome (s.cpWait x) 270 (fun pl =>
        match s.whFree with
        | none => s.stalls 448
        | some n =>
          if s.missing 12 n then s.stalls 441
          else
            match s.cpWords (viaQ 12 (s.ctxOf j)) pl.2 with
            | .error e => s.headErr j n e
            | .ok ws =>
              match parseCpList pl.2 ws with
              | none => .next (s.ctlExc (x.wells.headD 0) 5 0x7F pl.2)
              | some l =>
                match s.cpStart j n x pl.1 l with
                | .error e => s.headErr j n e
                | .ok u => .next u)))

/-- The header of a checkpoint (R684): bytes of saved state are the device's own, a free number. -/
def State.cpHeader (s : State) (x : Job) (r : CpRun) : List Word × State :=
  let (n, s) := s.freeNat
  let copied := ((r.list.regions.filter (fun g => !g.1)).map (fun g => g.2.2)).sum
  ([BitVec.ofNat 64 (2 ^ 56 + x.psize * 2 ^ 52 + (x.wells.map (fun w => 2 ^ (40 + w))).sum), x.tagWord,
    BitVec.ofNat 64 r.cpseq, BitVec.ofNat 64 r.pass, BitVec.ofNat 64 n, BitVec.ofNat 64 copied,
    BitVec.ofNat 64 s.now, 0#64], s)

/-- A guarded word's bytes. -/
def guardBytes (v : Word) : List Byte := leBytes 16 (guard64 v).toNat

/-- A well goes on after its CHECKPOINT. -/
def State.resumeAfter (s : State) (w : Nat) : State :=
  match cGo s s w (s.pcNext w) with
  | .next t => t
  | _ => s

/-- Orders 5 to 7 (R270): header, last valid checkpoint, event tables, controllers; the noise of the new pass falls
due (R560). -/
def State.cpFinish (s : State) (j : Nat) (x : Job) (r : CpRun) (h : List Word) : Except AccErr State := do
  let ctx := viaQ 12 (s.ctxOf j)
  let s ← s.writeDir ctx r.area (h.flatMap guardBytes)
  let s := x.wells.foldl (fun (t : State) w => t.zeroEvents w (t.slotOf j w)) s
  let due ← s.noiseDue ctx x.arg true
  let p := r.pass % 65536
  let s := s.modJob j (fun y => { y with
    cp := none, passes := r.cpseq, noiseP := p, fillsDue := y.fillsDue ++ due.map (fillOf p) })
  pure (x.wells.foldl (fun (t : State) w =>
    (t.sawWalk w (t.slotOf j w) true 0).resumeAfter w) s)

/-- CHECKPOINT_DURABLE (R270 orders 5 to 7, R686): alone, or once the twin has acknowledged the header; a member that has
left IN_SYNC mirrors no more (R688). -/
def execCheckpointDurable (j : Nat) (s : State) : Res :=
  needSome (s.job j) 270 (fun x =>
    needSome x.cp 270 (fun r =>
      need (decide (x.phase = .running) && (r.mirror == 0 || r.mirror == 3 || !s.inSync)) 686 (
        let hs := if r.header.isEmpty then s.cpHeader x r else (r.header, s)
        match hs.2.cpFinish j x r hs.1 with
        | .error e => s.headErr j ((s.whOf (.checkpoint j)).getD 0) e
        | .ok t => .next t)))

/-! ### Stalled controllers (R265) -/

/-- What a stalled controller does once its condition holds (R265). -/
def State.release (s : State) (w : Nat) (x : Well) (i : Word) : Res :=
  let k := s.wellSlot w
  let c := x.cx
  match c.wait with
  | .none => .fault (.notEnabled 265)
  | .walkAccept _ =>
    s.ctlScratch w (wrecAt k (bitsOf i 15 0 % 64)) (need (s.walkReady w k (bitsOf i 15 0)) 266 (s.doWalk w c i))
  | .enqAccept =>
    let any := cKind i == some .enqAny
    let border := match s.readGuard64 (s.ctlCtx w) (c.get (cRd i)).toNat with
      | .ok d => sdBorder d
      | .error _ => false
    need (s.enqDeque w (if any then none else some ((c.get (cRs1 i)).toNat % 128)) border).isSome 267 (s.doEnq w c i any)
  | .walk all tag => need (s.waitWalkOk w k all tag) 265 (cGo s (s.sawWalk w k all tag) w (s.pcNext w))
  | .event e n _ =>
    s.ctlScratch w (eventAt k e) (need (decide (n ≤ s.event w k e)) 268 (cGo s s w (s.pcNext w)))
  | .pump all tag => need (s.pumpsDone w all tag) 265 (cGo s s w (s.pcNext w))
  | .pumpAccept => needSome (s.freePumpNo w) 271 (fun n => s.doPump w c i n)
  | .fenceWell => need (s.wellDone w) 265 (cGo s (s.sawWalk w k true 0) w (s.pcNext w))
  | .fencePart false =>
    needSome (s.wellJob w) 269 (fun jx =>
      need (s.wellDone w && ((s.collRec true 0 x.fences (some jx.1)).isSome || decide (s.colls.length < 256))) 269
        (s.postFence w jx.1 jx.2))
  | .fencePart true =>
    needSome (s.wellJob w) 269 (fun jx =>
      needSome (s.decisionOf true 0 (x.fences - 1) jx.1) 269 (fun d => s.passFence w jx.1 d))
  | .checkpoint _ _ => .fault (.notEnabled 270)
  | .coll false =>
    needSome x.job 272 (fun j =>
      let g := collGroup i
      let k := tabGet 0 x.colls g
      need ((s.decisionOf false g k j).isSome || (s.collRec false g k (some j)).isSome
        || decide (s.colls.length < 256)) 655 (s.doColl w c i))
  | .coll true =>
    needSome x.job 272 (fun j =>
      let g := collGroup i
      needSome (s.decisionOf false g (tabGet 0 x.colls g - 1) j) 272 (fun d => s.collFinish w d))
  | .mig =>
    let op := match cKind i with
      | some .migPrefetch => 0
      | some .migDemote => 1
      | some .migPin => 2
      | _ => 3
    need (decide (s.migCount (s.partOf w) < 64)) 467 (s.doMig w op c i)
  | .halt => need (s.haltOk w) 274 (.next (s.haltWell w))

/-- CONTROLLER_STALL_RELEASE (R265). -/
def execControllerStallRelease (w : WellId) (s : State) : Res :=
  let x := s.well w
  need (decide (x.ctl = .stalled)) 265 (s.release w x (s.imWord w x.cx.pc))

end Sys2Proof.Machine
end

