-- ==== Sys2Proof/Machine/Links.lean ====
section
/-!
DEFINITION. The Isanili link protocol (R635 to R653): received frames, acknowledgement, resending, ports, and the
operations of the virtual channels.
-/

namespace Sys2Proof.Machine

/-! ### Timers (R653) -/

/-- ACK_DELAY in ns. -/
def State.ackDelay (s : State) : Nat :=
  let v := s.fld rSpTimers 23 16
  (if v = 0 then 10 else v) * 100
/-- The first RTO in ns. -/
def State.rto (s : State) : Nat :=
  let v := s.fld rSpTimers 39 24
  (if v = 0 then 16 else v) * 1000
/-- RETRY_MAX. -/
def State.retryMax (s : State) : Nat :=
  let v := s.fld rSpTimers 47 40
  if v = 0 then 8 else v
/-- HOLD_MS in ns. -/
def State.holdNs (s : State) : Nat :=
  let v := s.fld rSpTimers 63 48
  (if v = 0 then 200 else v) * 1000000

/-- A link report (R758). -/
def State.linkReport (s : State) (sev p detail : Nat) : State := s.reportSelf 15 0x8 sev p detail

/-! ### Sending (R638, R641 to R643) -/

/-- An ACK, NAK, HELLO or RESYNC for a connection; the receive buffer of a connection is empty at every step, since
accepted bytes are delivered upward at once (log entry 41). -/
def State.emitCtl (s : State) (p peer vc typ seq : Nat) : State :=
  s.emit p { typ := typ, vc := vc, seq := seq, src := s.devId, dst := peer, credit := if typ < 4 then 1024 else 0 }

/-- Every unacknowledged frame of a connection sent again, counted in RETX. -/
def State.resend (s : State) (p peer vc : Nat) (c : Conn) : State :=
  let s := c.unacked.foldl (fun t x => t.emit p x.frame) s
  (s.incFld (rPortStat p) 31 16 c.unacked.length).setConn p peer vc { c with rtoAt := some s.now, resends := c.resends + 1 }

/-- A connection becomes unreachable (R643, R651). -/
def State.unreachable (s : State) (p peer vc : Nat) (c : Conn) : State :=
  s.setConn p peer vc { c with unreach := some s.now, helloAt := s.now, rtoAt := none }

/-- A resend within R643's limits, or the connection is unreachable. -/
def State.tryResend (s : State) (p peer vc : Nat) (c : Conn) : State :=
  match c.unacked with
  | [] => s.setConn p peer vc { c with rtoAt := none, resends := 0 }
  | x :: _ =>
    if x.first + 5000000 < s.now ∨ s.retryMax ≤ c.resends then s.unreachable p peer vc c
    else s.resend p peer vc c

/-- A connection abandoned: jobs with a frame or request on it end with LINK_ERROR and its frames are discarded
(R638, R651). -/
def State.abandon (s : State) (p peer vc : Nat) (c : Conn) : State :=
  let js := (List.range s.jobs.length).filter c.holds
  let s := s.setConn p peer vc
    { c with unacked := [], waiting := [], outst := [], rtoAt := none, resends := 0, unreach := none,
             abandoned := some s.now, resync := false, quar := c.quar ++ c.outst.map (fun o => (o.pair, s.now)) }
  let s := s.linkReport (if js.isEmpty then 0 else 1) p peer
  js.foldl (fun t j => t.failJob j 0x31 0) s

/-- Bytes that the unacknowledged frames of port p hold in its pool (R642). -/
def State.poolUsed (s : State) (p : Nat) : Nat :=
  (s.links.conns.map (fun e =>
    if e.1 / 16384 = p then (e.2.unacked.map (fun x => 32 + x.frame.len)).sum else 0)).sum

/-- Does a connection of the port that holds no unacknowledged frame wait for pool room (R642)? -/
def State.poolFirst (s : State) (p used : Nat) : Bool :=
  s.links.conns.any (fun e => e.1 / 16384 == p && e.2.unacked.isEmpty && e.2.abandoned.isNone && e.2.unreach.isNone
    && (match e.2.waiting with
        | (f, _) :: _ => decide (2 ^ 21 < used + 32 + f.len)
        | [] => false))

/-- Credit in bytes left to a connection (R641, R644). -/
def Conn.room (c : Conn) : Nat := c.credit * 256 - (c.unacked.map (fun x => x.frame.len)).sum

/-- A port sends the oldest waiting frame of a connection (R641, R642). -/
def State.sendNext (s : State) (p peer vc : Nat) (c : Conn) : Res :=
  match c.waiting with
  | [] => .fault (.notEnabled 641)
  | (f, j) :: rest =>
    let used := s.poolUsed p + 32 + f.len
    need (s.portUp p && c.unreach.isNone && c.abandoned.isNone && !c.resync && decide (c.unacked.length < 128)
        && decide (f.len ≤ c.room)) 641 (
      need (decide (used ≤ 2 ^ 21) && (c.unacked.isEmpty || !s.poolFirst p used)) 642 (
        let f := { f with seq := c.nextTx }
        let c := { c with nextTx := (c.nextTx + 1) % 65536, waiting := rest,
                          unacked := c.unacked ++ [{ frame := f, job := j, first := s.now }],
                          rtoAt := some (c.rtoAt.getD s.now) }
        .next ((s.emit p f).setConn p peer vc c)))

/-- ILP_DATA_SEND (R641, R642); a mismatch of the connection's guarded state met instead (R638): what is unacknowledged is
sent again, at once or when the connection can carry frames. -/
def execIlpDataSend (p : Fin 9) (peer : Fin 4096) (vc : Fin 4) (g : ConnEv) (s : State) : Res :=
  let c := s.conn p peer vc
  match g with
  | .sound => s.sendNext p peer vc c
  | .primary =>
    let t := s.linkReport 0 p peer
    .next (if s.portUp p && c.unreach.isNone then t.resend p peer vc c else t)
  | .both => .next (s.abandon p peer vc c)

/-! ### Acknowledgements (R640, R641) -/

/-- Frames at or before n in sequence order are released (R640). -/
def Conn.upTo (c : Conn) (n : Nat) : Conn :=
  { c with unacked := c.unacked.filter (fun x => !decide ((n + 65536 - x.frame.seq) % 65536 < 32768)) }

/-- A control frame for this device on a port that runs. -/
def rxCtl (typ : Nat) (p : Nat) (f : Frame) (s : State) (k : Conn → Res) : Res :=
  need (s.portUp p && f.typ == typ) 635 (
    if f.dst ≠ s.devId ∨ 3 < f.vc ∨ 4095 < f.src then .next (s.incFld (rPortStat p) 63 48 1)
    else k (s.conn p f.src f.vc))

/-- ILP_ACK (R640, R644): releases frames, returns credit, makes the connection reachable. -/
def execIlpAck (p : Fin 9) (f : Frame) (s : State) : Res :=
  rxCtl 2 p f s (fun c =>
    let d := c.upTo f.seq
    let d := { d with credit := f.credit, resync := false }
    let moved := decide (d.unacked.length < c.unacked.length)
    let d := if moved then { d with resends := 0, rtoAt := if d.unacked.isEmpty then none else some s.now } else d
    if c.unreach.isSome then
      let d := { d with unreach := none, resends := 0, unacked := d.unacked.map (fun x => { x with first := s.now }) }
      .next (if d.unacked.isEmpty then s.setConn p f.src f.vc d else s.resend p f.src f.vc d)
    else .next (s.setConn p f.src f.vc d))

/-- ILP_NAK (R640, R641): releases frames up to n and resends from n + 1. -/
def execIlpNak (p : Fin 9) (f : Frame) (s : State) : Res :=
  rxCtl 3 p f s (fun c =>
    let d := { (c.upTo f.seq) with credit := f.credit, unreach := none }
    let d := if d.unacked.length < c.unacked.length then { d with resends := 0 } else d
    let d := if c.unreach.isSome then
        { d with resends := 0, unacked := d.unacked.map (fun x => { x with first := s.now }) } else d
    .next (s.tryResend p f.src f.vc d))

/-- ILP_HELLO (R651): answered with the connection's ACK (log entry 42). -/
def execIlpHello (p : Fin 9) (f : Frame) (s : State) : Res :=
  rxCtl 4 p f s (fun c => .next (s.emitCtl p f.src f.vc 2 c.lastRx))

/-- ILP_RESYNC (R652). -/
def execIlpResync (p : Fin 9) (f : Frame) (s : State) : Res :=
  rxCtl 5 p f s (fun c =>
    let l := (f.seq + 65535) % 65536
    .next ((s.setConn p f.src f.vc { c with lastRx := l, accepted := 0, ackDue := none }).emitCtl p f.src f.vc 2 l))

/-- ACK_DELAY_EXPIRY (R640). -/
def execAckDelayExpiry (p : Fin 9) (peer : Fin 4096) (vc : Fin 4) (s : State) : Res :=
  let c := s.conn p peer vc
  needSome c.ackDue 640 (fun t =>
    need (decide (t + s.ackDelay ≤ s.now) && s.portUp p) 640
      (.next ((s.setConn p peer vc { c with accepted := 0, ackDue := none }).emitCtl p peer vc 2 c.lastRx)))

/-- RTO_EXPIRY (R643). -/
def execRtoExpiry (p : Fin 9) (peer : Fin 4096) (vc : Fin 4) (s : State) : Res :=
  let c := s.conn p peer vc
  needSome c.rtoAt 643 (fun t =>
    need (decide (t + s.rto * 2 ^ c.resends ≤ s.now) && !c.unacked.isEmpty && s.portUp p && c.unreach.isNone) 643
      (.next (s.tryResend p peer vc c)))

/-! ### Unreachable connections (R651, R652) -/

/-- HELLO_TIMER (R651): a port that is down sends nothing. -/
def execHelloTimer (p : Fin 9) (peer : Fin 4096) (vc : Fin 4) (s : State) : Res :=
  let c := s.conn p peer vc
  need (c.unreach.isSome && decide (c.helloAt + 1000000 ≤ s.now)) 651 (
    let s := s.setConn p peer vc { c with helloAt := s.now }
    .next (if s.portUp p then s.emitCtl p peer vc 4 0 else s))

/-- HOLD_EXPIRY (R651). -/
def execHoldExpiry (p : Fin 9) (peer : Fin 4096) (vc : Fin 4) (s : State) : Res :=
  let c := s.conn p peer vc
  needSome c.unreach 651 (fun t => need (decide (t + s.holdNs ≤ s.now)) 651 (.next (s.abandon p peer vc c)))

/-- RESYNC_WAIT_EXPIRY (R652). -/
def execResyncWaitExpiry (p : Fin 9) (peer : Fin 4096) (vc : Fin 4) (s : State) : Res :=
  let c := s.conn p peer vc
  needSome c.abandoned 652 (fun t =>
    need (decide (t + 10000000 ≤ s.now) && s.portUp p) 652
      (.next ((s.setConn p peer vc { c with abandoned := none, resync := true }).emitCtl p peer vc 5 c.nextTx)))

/-- TAG_QUARANTINE_RELEASE (R648). -/
def execTagQuarantineRelease (p : Fin 9) (peer : Fin 4096) (pair : Fin 8192) (s : State) : Res :=
  let c := s.conn p peer 2
  needSome (c.quar.find? (fun q => q.1 == pair.val)) 648 (fun q =>
    need (decide (q.2 + 10000000 ≤ s.now)) 648 (
      .next (s.setConn p peer 2 { c with quar := c.quar.erase q }).flushMirrors))

/-! ### Ports (R649, R650) -/

/-- Every connection of port p changed. -/
def State.mapPort (s : State) (p : Nat) (f : Conn → Conn) : State :=
  { s with links := { s.links with
      conns := tabMap {} (fun k c => if k / 16384 = p then f c else c) s.links.conns } }

/-- A port goes down and retrains, or is held while REF156 is out of service (R649, R727): its connections are
unreachable from now on and RTO stops. -/
def State.dropPort (s : State) (p st : Nat) : State :=
  let s := ((s.setFld (rPortStatus p) 31 29 st).setFld (rPortStatus p) 26 19 0)
  let now := s.now
  let s := s.mapPort p (fun c =>
    if c.unreach.isSome || c.abandoned.isSome then c else { c with unreach := some now, helloAt := now, rtoAt := none })
  let s := if p = 8 then { s with pair := { s.pair with linkDownAt := some now } } else s
  s.linkReport 0 p st

/-- PORT_DOWN (R649). -/
def execPortDown (p : Fin 9) (s : State) : Res := need (s.portUp p) 649 (.next (s.dropPort p 1))

/-- Width code for RAW from the healthy lanes (R650): none when no pair is healthy. -/
def rawWidth (lanes : Nat) : Option Nat :=
  if lanes = 255 then some 0
  else if lanes % 16 = 15 ∨ lanes / 16 = 15 then some 1
  else if [0, 2, 4, 6].any (fun i => lanes / 2 ^ i % 4 == 3) then some 2
  else none

/-- Lanes that a width uses among the healthy ones (R650). -/
def usedLanes (width lanes : Nat) : Nat :=
  match width with
  | 0 => 255
  | 1 => if lanes % 16 = 15 then 15 else 240
  | _ => (([0, 2, 4, 6].find? (fun i => lanes / 2 ^ i % 4 == 3)).map (fun i => 3 * 2 ^ i)).getD 0

/-- The width at which a port comes up (R650): ETH only at the width its control register names. -/
def State.portWidth (s : State) (p lanes : Nat) : Option Nat :=
  if p ≠ 8 ∧ s.fld (rPortCtl p) 30 30 = 1 then
    let w := s.fld (rPortCtl p) 29 28
    let w := if w = 3 then 0 else w
    match rawWidth lanes with
    | some r => if r ≤ w then some w else none
    | none => none
  else rawWidth lanes

/-- Port p comes up at a width (R649, R650), a reduced width of RAW being reported with the lanes out of use: unacknowledged frames are sent again, R643 counted from now. -/
def State.raisePort (s : State) (p lanes w : Nat) : State :=
  let eth := p ≠ 8 ∧ s.fld (rPortCtl p) 30 30 = 1
  let s := ((s.setFld (rPortStatus p) 31 29 (if w = 0 ∨ eth then 2 else 3)).setFld (rPortStatus p) 28 27 w).setFld
    (rPortStatus p) 26 19 (usedLanes w lanes)
  let s := if p = 8 then { s with pair := { s.pair with linkDownAt := none } } else s
  let s := if w = 0 ∨ eth then s else s.reportSelf 15 0x6 2 p (255 - usedLanes w lanes)
  let keys := (tabKeys s.links.conns).filter (fun k => k / 16384 == p)
  keys.foldl (fun t k =>
    let peer := k / 4 % 4096
    let c := t.conn p peer (k % 4)
    if c.abandoned.isSome || c.unreach.isNone then t
    else
      let d := { c with unreach := none, resends := 0, unacked := c.unacked.map (fun x => { x with first := t.now }) }
      if d.unacked.isEmpty then t.setConn p peer (k % 4) d else t.resend p peer (k % 4) d) s

/-- DISCARDED_FRAME (R636). -/
def execDiscardedFrame (p : Fin 9) (s : State) : Res :=
  need (s.portUp p) 636 (.next (s.incFld (rPortStat p) 63 48 1))

/-- SP_RT_CMD_GO (R653): the value written to SP_RT_CMD. -/
def execSpRtCmdGo (v : Word) (s : State) : Res :=
  need (bitOf v 31) 653 (
    let s := (s.setFld rSpRtCmd 19 16 (bitsOf v 19 16)).setFld rSpRtCmd 11 0 (bitsOf v 11 0)
    .next { s with links := { s.links with
      routes := tabPut (15, 0) s.links.routes (bitsOf v 11 0) (bitsOf v 19 16, s.fld rSpRtMac 47 0) } })

/-- A port that is enabled leaves DOWN once the span block is committed (R788). -/
def State.trainPort (s : State) (p : Nat) : State :=
  if s.fld rSpCommit 0 0 = 1 ∧ s.fld (rPortCtl p) 31 31 = 1 ∧ s.portState p = 0 then
    s.setFld (rPortStatus p) 31 29 (if s.fld (rPmRefStat 3) 63 61 = 0 then 1 else 4)
  else s

/-- The span block is committed (R788). -/
def State.spCommit (s : State) : State :=
  (List.range 9).foldl State.trainPort (s.setFld rSpCommit 0 0 1)

/-- SP_COMMIT (R788). -/
def execSpCommit (v : Word) (s : State) : Res := need (bitOf v 0) 788 (.next s.spCommit)

/-! ### Received DATA frames (R636, R639, R640) -/

/-- A DATA frame of a VC and operation arrives: discarded, a duplicate, a gap, or accepted and delivered. A frame of VC1 or
VC2 whose CTX is none of 0 to 11 is discarded (R635, log entry 72). In W3 a frame at
port 8 waits in its receive buffer and wakes the device; it is decided when the wellhead runs (R706, R712, log entry
89). -/
def rxData (vc : Nat) (ops : List Nat) (p : Nat) (f : Frame) (s : State) (k : State → Res) : Res :=
  need (s.portUp p && f.typ == 1 && f.vc == vc && ops.contains f.op) 645 (
    if f.dst ≠ s.devId ∨ 4096 < f.payload.length ∨ f.len ≠ f.payload.length ∨ 4095 < f.src
        ∨ ((vc = 1 ∨ vc = 2) ∧ 11 < f.ctx) then
      .next (s.incFld (rPortStat p) 63 48 1)
    else if p = 8 ∧ s.fld rPmState 38 36 = 3 then .next { s with pw := { s.pw with twinWaits := true } }
    else
      let c := s.conn p f.src vc
      let d := (f.seq + 65536 - c.lastRx) % 65536
      if d = 1 then
        let n := c.accepted + 1
        let c := { c with lastRx := f.seq % 65536, accepted := n, ackDue := some (c.ackDue.getD s.now) }
        if 16 ≤ n then
          k ((s.setConn p f.src vc { c with accepted := 0, ackDue := none }).emitCtl p f.src vc 2 c.lastRx)
        else k (s.setConn p f.src vc c)
      else if d = 0 ∨ 32768 ≤ d then
        let s := s.incFld (rPortStat p) 47 32 1
        let due := c.dupAck.elim true (fun t => decide (t + s.ackDelay ≤ s.now))
        .next (if due then (s.setConn p f.src vc { c with dupAck := some s.now }).emitCtl p f.src vc 2 c.lastRx else s)
      else
        let due := c.nakAt.elim true (fun t => decide (t + s.rto ≤ s.now))
        .next (if due then (s.setConn p f.src vc { c with nakAt := some s.now }).emitCtl p f.src vc 3 c.lastRx else s))

/-- The job bound to a translation context. -/
def State.jobOfCtx (s : State) (ctx : Nat) : Option (Nat × Job) :=
  (s.jobs.zipIdx.find? (fun x => x.1.part == some ctx)).map (fun x => (x.2, x.1))

/-- RSTAT of an access error (R635, R646). -/
def rstatOf (e : AccErr) : Nat :=
  match e.status with
  | 0x20 => 1
  | 0x21 => 2
  | 0x30 => 3
  | _ => 4

/-- Completion status that an RSTAT names. -/
def statusOfRstat : Nat → Nat
  | 1 => 0x20
  | 2 => 0x21
  | 3 => 0x30
  | _ => 0x22

/-- A remote access that faults here, recorded in its context and reported (R435, R646). -/
def State.noteRemote (s : State) (p ctx : Nat) (e : AccErr) : State :=
  match e with
  | .tier _ l wr => s.noteTier .pump 15 p l wr
  | e => s.noteTrans ctx 15 e

/-- An access error of a frame that arrived in state s: a stall leaves the frame undecided, and the sender's next copy of it
meets the receiver again; anything else goes on with k. -/
def State.onErr (s : State) (e : AccErr) (k : AccErr → Res) : Res :=
  match e with
  | .stall r => s.stalls r
  | e => k e

/-- TILE_FRAME (R645, R646, R670). -/
def execTileFrame (p : Fin 9) (f : Frame) (s : State) : Res :=
  let old := s
  rxData 1 [0x10] p f s (fun s =>
    match s.writeDir f.ctx (f.addr + 16 * f.offset) f.payload with
    | .error e => old.onErr e (fun e => .next (s.noteRemote p f.ctx e))
    | .ok t =>
      match t.jobOfCtx f.ctx with
      | none => .next t
      | some (j, x) =>
        match x.wells[f.tag / 256 % 16]? with
        | none => .next t
        | some w => .next (t.raiseEvent j w (t.slotOf j w) (65024 + f.tag % 256) (f.len / 16)))

/-- Responses of a read of n bytes (R645). -/
def rdResps (f : Frame) (bs : List Byte) : List Frame :=
  (frameCuts (bs.length / 4096 + 1) 0 bs.length).map (fun c =>
    { vc := 2, op := 0x21, dst := f.src, epoch := f.epoch, tag := f.tag, ctx := f.ctx, offset := c.1 / 16,
      payload := (bs.drop c.1).take c.2 })

/-- RD_REQ_FRAME (R645, R646). -/
def execRdReqFrame (p : Fin 9) (f : Frame) (s : State) : Res :=
  let old := s
  rxData 2 [0x20] p f s (fun s =>
    let n := byteField f.payload 0 8
    if f.len ≠ 16 ∨ n < 16 ∨ 65536 < n then .next (s.incFld (rPortStat p) 63 48 1)
    else
      match s.readVa f.ctx (f.addr + 16 * f.offset) n with
      | .error e => old.onErr e (fun e => .next ((s.noteRemote p f.ctx e).postFrame p
          { vc := 2, op := 0x21, dst := f.src, epoch := f.epoch, tag := f.tag, ctx := f.ctx, rstat := rstatOf e } none))
      | .ok bs => .next ((rdResps f bs).foldl (fun t r => t.postFrame p r none) s))

/-- WR_FRAME (R645, R646). -/
def execWrFrame (p : Fin 9) (f : Frame) (s : State) : Res :=
  let old := s
  rxData 2 [0x22] p f s (fun s =>
    let ack (t : State) (st : Nat) : State := t.postFrame p
      { vc := 2, op := 0x23, dst := f.src, epoch := f.epoch, tag := f.tag, ctx := f.ctx, rstat := st } none
    match s.writeDir f.ctx (f.addr + 16 * f.offset) f.payload with
    | .error e => old.onErr e (fun e => .next (ack (s.noteRemote p f.ctx e) (rstatOf e)))
    | .ok t => .next (ack t 0))

/-- A response meets its request, or is counted in LATE (R647, R648). -/
def State.matchResp (s : State) (p op : Nat) (f : Frame) (k : Conn → OutReq → State) : State :=
  let c := s.conn p f.src 2
  match c.outst.find? (fun o => o.op == op && o.pair == f.epoch * 4096 + f.tag) with
  | none => s.incFld (rPortStat p) 15 0 1
  | some o => k c o

/-- The sender's job ends with the status that RSTAT names (R646). -/
def State.remoteFault (s : State) (o : OutReq) (f : Frame) : State :=
  o.job.elim s (fun j => s.failJob j (statusOfRstat f.rstat) f.addr)

/-- RD_RESP_FRAME (R646 to R648). -/
def execRdRespFrame (p : Fin 9) (f : Frame) (s : State) : Res :=
  rxData 2 [0x21] p f s (fun s =>
    .next (s.matchResp p 0x20 f (fun c o =>
      if f.rstat ≠ 0 then (s.releaseTag p f.src c o).remoteFault o f
      else
        let s := { s with links := { s.links with delivered := (0x21, f.payload) :: s.links.delivered } }
        if o.left ≤ f.len then s.releaseTag p f.src c o
        else s.setConn p f.src 2 { c with outst := c.outst.replace o { o with left := o.left - f.len } })))

/-- WR_ACK_FRAME (R646 to R648). -/
def execWrAckFrame (p : Fin 9) (f : Frame) (s : State) : Res :=
  rxData 2 [0x23] p f s (fun s =>
    .next (s.matchResp p 0x22 f (fun c o =>
      let t := s.releaseTag p f.src c o
      if f.rstat ≠ 0 then t.remoteFault o f else t)))

/-- MGMT_FRAME (R645): delivered upward. -/
def execMgmtFrame (p : Fin 9) (f : Frame) (s : State) : Res :=
  rxData 3 [0x30] p f s (fun s =>
    .next { s with links := { s.links with delivered := (0x30, f.payload) :: s.links.delivered } })

/-! ### Collective frames (R659 to R665) -/

/-- The ABORT flag of a COLL frame. -/
def abortFlag (f : Frame) : Bool := (byteField f.payload 12 1).testBit 1

/-- COLL_FRAME (R659, R661, R665, R666). -/
def execCollFrame (p : Fin 9) (f : Frame) (s : State) : Res :=
  let old := s
  need (!abortFlag f) 660 (rxData 0 [0x01] p f s (fun s =>
    if s.collWaits f then old.stalls 655
    else .next (s.collMsg f (fun s g m => s.takeContrib g f.src m))))

/-- COLL_ABORT_FRAME (R662, R663). -/
def execCollAbortFrame (p : Fin 9) (f : Frame) (s : State) : Res :=
  need (abortFlag f) 662 (rxData 0 [0x01] p f s (fun s => .next (s.collMsg f (fun s g m => s.takeAbort g f.src m))))

/-- COLL_RESULT_FRAME (R660, R665). -/
def execCollResultFrame (p : Fin 9) (f : Frame) (s : State) : Res :=
  rxData 0 [0x02] p f s (fun s =>
    .next (s.collMsg f (fun s g m => if 2 < m.flags then s.badColl else s.takeResult g m)))

end Sys2Proof.Machine
end

