-- ==== Sys2Proof/Machine/Host.lean ====
section
/-!
DEFINITION. The host queues (R605 to R608, R614, R617, R620, R629), the journal (R524, R613, R630), BAR2 (R603), and
the commit of jobs (R615).
-/

namespace Sys2Proof.Machine

/-! ### Queues -/

/-- Queue q outside its registers. -/
def State.hq (s : State) (q : Nat) : HostQ := tabGet {} s.hqs q
/-- That queue replaced. -/
def State.setHq (s : State) (q : Nat) (x : HostQ) : State := { s with hqs := tabPut {} s.hqs q x }
/-- GEN of a queue. -/
def State.qGen (s : State) (q : Nat) : Nat := s.fld (rQStatus q) 47 40
/-- A ring's size: 4 to 16, other values act as 4 (R630). -/
def ringLog (v : Nat) : Nat := if v < 4 ∨ 16 < v then 4 else v
/-- Entries of the submission ring. -/
def State.sqSize (s : State) (q : Nat) : Nat := 2 ^ ringLog (s.fld (rQCtl q) 56 52)
/-- Entries of the completion ring. -/
def State.cqSize (s : State) (q : Nat) : Nat := 2 ^ ringLog (s.fld (rQCtl q) 51 47)
/-- The function that a queue belongs to (R605). -/
def State.qOwner (s : State) (q : Nat) : Nat := if s.bifurc then s.fld (rQCtl q) 61 61 else 0
/-- Does a write through function f reach queue q's registers (R605)? -/
def State.qReach (s : State) (q f : Nat) : Bool := !s.bifurc || s.qOwner q == f
/-- STATE of a queue brought up to date (R630). -/
def State.syncQ (s : State) (q : Nat) : State :=
  s.setFld (rQStatus q) 39 37
    (if s.fld (rQStatus q) 36 34 ≠ 0 then 2 else if s.fld (rQCtl q) 63 63 = 1 then 1 else 0)
/-- The PCIe link of a queue's function is up. -/
def State.linkOk (s : State) (q : Nat) : Bool := if s.qOwner q = 1 then s.halfDown.isNone else s.hostDown.isNone
/-- The device has finished its boot and is in W0 (R705, R747). -/
def State.booted (s : State) : Bool :=
  (s.fld rWhBoot 63 60 == 6 || s.fld rWhBoot 63 60 == 7) && s.fld rPmState 38 36 == 0
/-- No entry into W3 or W4 is under way either, which stops binding and fetching (R709). -/
def State.running (s : State) : Bool := s.booted && !s.pw.entry.any (fun e => decide (2 < e.target))
/-- The member accepts and commits (R675): not ISOLATED or STOOD_DOWN. -/
def State.mayCommit (s : State) : Bool := s.pairState != 5 && s.pairState != 7 && !s.pair.frozen
/-- The member serves queue q (R674); a taken queue that is being handed back is fetched no more (R695). -/
def State.serves (s : State) (q : Nat) : Bool :=
  bitOf (s.reg rTlPairQown) q && s.mayCommit && !(s.pair.handback && bitOf s.pair.taken q)

/-! ### Completion entries (R614) -/

/-- The 64 bytes of an entry. -/
def entryBytes (e : CEntry) (phase : Bool) : List Byte :=
  let w0 := phase.toNat * 2 ^ 63 + e.typ * 2 ^ 61 + e.dup.toNat * 2 ^ 60 + e.widened.toNat * 2 ^ 59
    + e.stale.toNat * 2 ^ 58 + e.gen % 256 * 2 ^ 48 + e.status % 256 * 2 ^ 40 + e.reason % 256 * 2 ^ 32 + e.seq % 2 ^ 32
  leBytes 8 w0 ++ leBytes 8 (e.queue % 64 * 2 ^ 58 + e.addr % 2 ^ 56) ++ leBytes 8 (e.passes % 2 ^ 32)
  ++ leBytes 8 e.tbAccept ++ leBytes 8 e.tbEnd ++ leBytes 24 0

/-- A completion entry joins its queue's entries; `wait` says that a mirror must be acknowledged first (R681). -/
def State.pushRaw (s : State) (e : CEntry) (wait : Nat) : State :=
  let x := s.hq e.queue
  s.setHq e.queue { x with waiting := x.waiting ++ [(e, wait)] }

/-- An entry of an older generation is dropped and counted (R620). -/
def State.pushEntry (s : State) (e : CEntry) (wait : Nat) : State :=
  if e.gen ≠ s.qGen e.queue then s.incFld (rQStatus e.queue) 31 16 1 else s.pushRaw e wait

/-- Queue state as a mirror carries it, after this entry (R680); an entry of TYPE 0 stands for none. An ACCEPT entry
goes with ACCEPTED at its sequence. -/
def State.qMirror (s : State) (e : CEntry) : QMirror :=
  let x := s.hq e.queue
  let i := s.fld (rQStatus e.queue) 15 0
  let n := i + x.waiting.length + (if e.typ = 0 then 0 else 1)
  let size := s.cqSize e.queue
  { entry := e, sqHead := s.fld (rQStatus e.queue) 63 48, last := s.fld (rQLast e.queue) 31 0,
    accepted := if e.typ = 1 then e.seq else s.fld (rQLast e.queue) 63 32, gen := s.qGen e.queue, cqTail := n % 65536,
    phase := if (n / size - i / size) % 2 = 0 then x.phase else !x.phase }

/-- A journal record mirrored with the entry that follows it, which takes its place in the ring and waits there for its
job (R680, R681); an entry of an older generation goes unwritten (R620). -/
def State.promise (s : State) (r : JRec) (e : CEntry) : State :=
  if e.gen = s.qGen e.queue then (s.tell (.journal r (some (s.qMirror e)))).pushRaw e 2 else s.tell (.journal r none)

/-- The entry that follows a record: the one that waits for its job, or a new one. -/
def State.settleEntry (s : State) (e : CEntry) : State :=
  let x := s.hq e.queue
  match x.waiting.findIdx? (fun y => y.2 == 2 && y.1.typ == e.typ && y.1.seq == e.seq && y.1.gen == e.gen) with
  | some i => s.setHq e.queue { x with waiting := x.waiting.modify i (fun y => (y.1, 0)) }
  | none => s.pushEntry e 0

/-- An entry that no journal record holds; in pair mode its queue mirror is sent first (R680, R681). -/
def State.pushMirrored (s : State) (e : CEntry) : State :=
  if s.inSync then (s.tell (.queue (s.qMirror e))).pushRaw e 1 else s.pushRaw e 0

/-- The oldest waiting entry is written to the completion ring (R614, R617, R629). -/
def State.writeEntry (s : State) (q : Nat) : Res :=
  let x := s.hq q
  match x.waiting with
  | [] => .fault (.notEnabled 614)
  | (e, wait) :: rest =>
    let i := s.fld (rQStatus q) 15 0
    let size := s.cqSize q
    let held := (i + 65536 - s.fld (rQCqHead q) 15 0) % 65536
    need (s.fld (rQCtl q) 63 63 == 1 && s.linkOk q && s.mayCommit && s.booted) 614 (
      need (wait == 0 || (wait == 1 && !s.inSync)) 681 (
        need (decide (held < size)) 617 (
          let a := s.fld (rQCqbase q) 63 12 * 4096 + 64 * (i % size)
          let i' := (i + 1) % 65536
          let t := (s.rawWrite ⟨.host, a⟩ (entryBytes e x.phase)).setFld (rQStatus q) 15 0 i'
          .next (t.setHq q { x with waiting := rest, phase := if i' % size = 0 then !x.phase else x.phase,
                                    unsig := x.unsig + 1, unsigAt := if x.unsig = 0 then s.now else x.unsigAt }))))

/-- COMPLETION_ENTRY_WRITE (R614, R681). -/
def execCompletionEntryWrite (q : Fin 64) (s : State) : Res := s.writeEntry q
/-- WAITING_ENTRY_DRAIN (R617). -/
def execWaitingEntryDrain (q : Fin 64) (s : State) : Res := s.writeEntry q

/-- A queue's vector signalled (R629). -/
def State.signalQ (s : State) (q : Nat) : State :=
  (s.setHq q { s.hq q with unsig := 0 }).signal (s.qOwner q) (s.fld (rQCtl q) 39 32)

/-- MSI_X_SIGNAL (R629): COUNT entries written, or TIME_US 0. -/
def execMsiXSignal (q : Fin 64) (s : State) : Res :=
  let n := (s.hq q).unsig
  let c := s.fld (rQIrq q) 15 0
  need (decide (0 < n) && (decide ((if c = 0 then 1 else c) ≤ n) || s.fld (rQIrq q) 31 16 == 0)) 629
    (.next (s.signalQ q))

/-- COALESCE_TIMER_EXPIRY (R629). -/
def execCoalesceTimerExpiry (q : Fin 64) (s : State) : Res :=
  let x := s.hq q
  let t := s.fld (rQIrq q) 31 16
  need (decide (0 < x.unsig ∧ t ≠ 0 ∧ x.unsigAt + t * 1000 ≤ s.now)) 629 (.next (s.signalQ q))

/-! ### The journal (R524, R613, R622) -/

/-- A half of the aquifer packages holds an ACTIVE package (R523, R524). -/
def State.halfActive (s : State) (h : Nat) : Bool :=
  (List.range 6).any (fun i => s.fld (rAqPkgStat (6 * h + i)) 31 29 == 0)

/-- The eight fields of a record (R613). -/
def recFields (r : JRec) : List Word :=
  let head := setBits (setBits (setBits (setBits (setBits 0#64 63 60 r.kind) 59 54 r.queue) 53 46 r.gen) 45 43 r.prio)
    42 39 r.psize
  [head, setBits 0#64 31 0 r.seq, BitVec.ofNat 64 r.arg, BitVec.ofNat 64 r.root, BitVec.ofNat 64 r.tb,
   setBits (setBits (setBits (setBits 0#64 63 56 r.status) 55 48 r.reason) 47 47 r.widened.toNat) 31 0 r.passes,
   BitVec.ofNat 64 r.addr, 0#64]

/-- The record that eight fields give (R613). -/
def recOfFields (ws : List Word) : JRec :=
  let w (i : Nat) : Word := ws.getD i 0#64
  { kind := bitsOf (w 0) 63 60, queue := bitsOf (w 0) 59 54, gen := bitsOf (w 0) 53 46, prio := bitsOf (w 0) 45 43,
    psize := bitsOf (w 0) 42 39, seq := bitsOf (w 1) 31 0, arg := (w 2).toNat, root := (w 3).toNat, tb := (w 4).toNat,
    status := bitsOf (w 5) 63 56, reason := bitsOf (w 5) 55 48, widened := bitOf (w 5) 47, passes := bitsOf (w 5) 31 0,
    addr := (w 6).toNat }

/-- A record as it is written, each field a guarded word (R613). -/
def recStore (r : JRec) : JStored := (recFields r).map guard64

/-- The record that stored fields hold; none when a field fails its check: such a record is not used (R42). -/
def recLoad (g : JStored) : Option JRec := (g.mapM unguard64).map recOfFields

/-- The records of a journal that pass their check, newest page first. -/
def Journal.sound (j : Journal) : List (List JRec) := j.pages.map (fun p => p.filterMap recLoad)

/-- A stored record that fails its check. -/
def Journal.broken (j : Journal) : Bool := j.pages.any (fun p => p.any (fun g => (recLoad g).isNone))

/-- A mismatching record met in a reading of the journal is reported, at no address of the unified range (R38). -/
def State.noteJournal (s : State) : State := if s.jn.broken then s.reportSelf 12 0x1 0 16 0 else s

/-- A record joins the next program (R524). -/
def State.record (s : State) (r : JRec) : State := { s with jn := { s.jn with joining := s.jn.joining ++ [r] } }

/-- JOURNAL_PROGRAM (R524): one page of at most 128 records to both copies, through a wellhead pump (R448); none begins in a
wellhead that is off (R54). -/
def execJournalProgram (s : State) : Res :=
  need (s.alive && s.jn.program.isNone && !s.jn.joining.isEmpty && s.halfActive 0 && s.halfActive 1) 524
    (match s.whFree with
    | none => s.stalls 448
    | some n =>
      let t := s.whTake n .journal
      .next { t with jn := { t.jn with program := some (t.jn.joining.take 128), joining := t.jn.joining.drop 128 } })

/-- Accepted jobs without a COMMIT record (R630). -/
def Job.isOpen (j : Job) : Bool := j.order != 0 && !j.commitDurable

/-- JN_STAT.OPEN brought up to date. -/
def State.syncOpen (s : State) : State := s.setFld rJnStat 31 0 (s.jobs.filter Job.isOpen).length

/-- Does a record name a job? -/
def recNames (r : JRec) (j : Job) : Bool := r.queue == j.queue && r.gen == j.gen && r.seq == j.seq

/-- Records become durable (R611, R615): their jobs are marked. -/
def State.durable (s : State) (rs : List JRec) : State :=
  let mark (j : Job) : Job :=
    let j := if j.phase = .accepting ∧ rs.any (fun r => r.kind == 1 && recNames r j) then { j with durable := true } else j
    if j.order ≠ 0 ∧ rs.any (fun r => r.kind == 2 && recNames r j) then { j with commitDurable := true } else j
  let s := { s with jobs := s.jobs.map mark,
                    jn := { s.jn with pages := (rs.map recStore :: s.jn.pages).take 1048576, program := none } }
  (s.incFld rJnStat 63 32 rs.length).syncOpen

/-- JOURNAL_DURABLE (R524): both copies report success. -/
def execJournalDurable (s : State) : Res := needSome s.jn.program 524 (fun rs => .next (s.durable rs))

/-- A tag's durable record of a kind. -/
def Journal.find (j : Journal) (kind q g n : Nat) : Option JRec :=
  j.sound.flatten.find? (fun r => r.kind == kind && r.queue == q && r.gen == g && r.seq == n)

/-- JN_QUERY_LOOKUP (R630): the value written to JN_QUERY. -/
def execJnQueryLookup (v : Word) (s : State) : Res :=
  need (bitOf v 32) 630 (
    let s := s.noteJournal.setReg rJnQuery (setBits (v &&& 0xFFFC0000FFFFFFFF#64) 32 32 0)
    let q := bitsOf v 63 58
    let g := bitsOf v 57 50
    let n := bitsOf v 31 0
    let base := setBits 0#64 63 63 1
    let old := decide (1048576 ≤ s.jn.pages.length)
    let r := match s.jn.find 2 q g n, s.jn.find 1 q g n with
      | some c, _ => setBits (setBits (setBits (setBits base 62 60 2) 55 48 c.status) 47 47 c.widened.toNat) 31 0 c.passes
      | none, some _ => setBits base 62 60 1
      | none, none => if old then setBits base 62 60 3 else base
    .next (s.setReg rJnResult r))

/-! ### Doorbells, fetch and decision (R606 to R608) -/

/-- DOORBELL (R606): TAIL written through function f. -/
def execDoorbell (q : Fin 64) (tail : BitVec 16) (f : Fin 2) (s : State) : Res :=
  .next (if s.qReach q f then s.setFld (rQSqTail q) 15 0 tail.toNat else s)

/-- A submission entry's words. -/
def State.subWords (s : State) (q : Nat) : List Word :=
  let a := s.fld (rQSqbase q) 63 12 * 4096 + 64 * (s.fld (rQStatus q) 63 48 % s.sqSize q)
  let bs := s.rawRead ⟨.host, a⟩ 64
  (List.range 8).map (fun i => BitVec.ofNat 64 (byteField bs (8 * i) 8))

/-- Reserved bits of a submission entry that are not 0. -/
def subBad (ws : List Word) : Bool :=
  bitsOf (opW ws 1) 48 0 != 0 || bitsOf (opW ws 2) 63 56 != 0 || bitsOf (opW ws 3) 63 56 != 0
  || (ws.drop 4).any (· != 0#64)

/-- The job of a tag in this queue and generation that was accepted (R607). -/
def State.acceptedJob (s : State) (q g n : Nat) : Option Job :=
  s.jobs.find? (fun j => j.queue == q && j.gen == g && j.seq == n && j.order != 0)

/-- An entry of the queue is fetched and not decided (R608). -/
def State.undecided (s : State) (q : Nat) : Bool :=
  s.jobs.any (fun j => j.queue == q && j.gen == s.qGen q && (j.phase == .verifying || j.phase == .accepting))

/-- SQ_HEAD past the fetched entry. -/
def State.consume (s : State) (q : Nat) : State := s.setFld (rQStatus q) 63 48 (s.fld (rQStatus q) 63 48 + 1)

/-- The first loader failure since VALID was cleared (R306). -/
def State.noteReject (s : State) (q g n status reason addr : Nat) : State :=
  let first := !bitOf (s.reg rWhLdrRej) 63
  let s := s.latch rWhLdrRej (setBits (setBits (setBits (setBits 0#64 55 48 reason) 47 40 status) 39 32 g) 31 0 n)
  if first then s.setReg rWhLdrAddr (setBits (setBits 0#64 63 58 q) 55 0 addr) else s

/-- A rejected entry is answered (R304, R607, R611). -/
def State.reject (s : State) (q g n status reason addr : Nat) : State :=
  (s.noteReject q g n status reason addr).pushMirrored
    { typ := 2, gen := g, status := status, reason := reason, seq := n, queue := q, addr := addr }

/-- A job put before the loader; an entry with nonzero reserved bits fails at once (R607). -/
def State.verifyEntry (s : State) (q g n : Nat) (ws : List Word) : State :=
  if subBad ws then s.reject q g n 0x10 1 0
  else { s with jobs := s.jobs ++
          [{ queue := q, gen := g, seq := n, prio := bitsOf (opW ws 1) 55 53, psize := bitsOf (opW ws 1) 52 49,
             arg := bitsOf (opW ws 2) 55 0, root := bitsOf (opW ws 3) 55 0 }] }

/-- The decision of R607 on an entry whose SEQ passed its check. -/
def State.decideEntry (s : State) (q n : Nat) (ws : List Word) : State :=
  let g := bitsOf (opW ws 1) 63 56
  let last := s.fld (rQLast q) 31 0
  let d := (n + 2 ^ 32 - last) % 2 ^ 32
  if g ≠ s.qGen q then (s.consume q).incFld (rQStatus q) 31 16 1
  else if d = 1 then ((s.consume q).setFld (rQLast q) 31 0 n).verifyEntry q g n ws
  else if 2 ≤ d ∧ d < 2 ^ 31 then (s.setFld (rQStatus q) 36 34 1).syncQ q
  else if 4096 ≤ (last + 2 ^ 32 - n) % 2 ^ 32 then
    (s.consume q).pushRaw { typ := 1, dup := true, stale := true, gen := g, seq := n, queue := q } 0
  else
    match s.acceptedJob q g n with
    | some j => (s.consume q).pushRaw { typ := 1, dup := true, gen := g, seq := n, queue := q, tbAccept := j.tbAccept } 0
    | none => (s.consume q).verifyEntry q g n ws

/-- SUBMISSION_FETCH (R606 to R608): `ok` says that the PCIe read succeeded. -/
def execSubmissionFetch (q : Fin 64) (ok : Bool) (s : State) : Res :=
  need (s.fld (rQCtl q) 63 63 == 1 && s.fld (rQStatus q) 36 34 == 0 && s.running && s.serves q && s.linkOk q
      && s.fld (rQStatus q) 63 48 != s.fld (rQSqTail q) 15 0) 606 (
    need (decide ((s.hq q).waiting.length < 65536)) 617 (
      need (!s.undecided q) 608 (
        if !ok then .next ((s.setFld (rQStatus q) 36 34 2).syncQ q)
        else
          let ws := s.subWords q
          match unguard32 (opW ws 0) with
          | none =>
            let n := bitsOf (opW ws 0) 31 0
            let s := (s.consume q).reportSelf 21 0x1 0 q n
            .next (s.pushMirrored
              { typ := 2, gen := bitsOf (opW ws 1) 63 56, status := 0x22, seq := n, queue := q })
          | some n => .next (s.decideEntry q n.toNat ws))))

/-- The ERROR of a queue after a write: a bit written 1 is cleared (R14), and a write of the set value ends the halt
(R606, R630). -/
def State.clearQError (s : State) (q v : Nat) : State :=
  (s.setFld (rQStatus q) 36 34 (s.fld (rQStatus q) 36 34 &&& (7 - v % 8))).syncQ q

/-- QUEUE_ERROR_CLEAR (R606): the value written to ERROR, through function f. -/
def execQueueErrorClear (q : Fin 64) (v : Fin 8) (f : Fin 2) (s : State) : Res :=
  .next (if s.qReach q f then s.clearQError q v else s)

/-! ### Acceptance (R611) -/

/-- JOB_ACCEPT (R611 orders 4 and 5). -/
def execJobAccept (j : Nat) (s : State) : Res :=
  needSome (s.job j) 611 (fun x =>
    need (decide (x.phase = .accepting) && x.durable && (!s.inSync || x.mirrored) && s.mayCommit) 611 (
      let n := (s.jobs.filter (fun y => y.order != 0)).length + 1
      let tb := if x.mirrored then x.tbAccept else s.now
      let s := s.modJob j (fun y => { y with phase := .waiting, order := n, tbAccept := tb })
      let s := if x.gen = s.qGen x.queue then s.setFld (rQLast x.queue) 63 32 x.seq else s
      .next ((s.settleEntry { typ := 1, gen := x.gen, seq := x.seq, queue := x.queue, tbAccept := tb }).syncOpen)))

/-! ### Queue resets (R620, R621) -/

/-- Is a job's ACCEPT record in a journal program or durable (R631)? -/
def State.inProgram (s : State) (j : Job) : Bool :=
  j.durable || (s.jn.program.getD []).any (fun r => r.kind == 1 && recNames r j)

/-- LK cleared in the leaves that the job loader locked for a job that holds them no more, and that no other job holds
(R166, R432). -/
def State.unlock (s : State) (l : List Nat) : State :=
  (l.filter (fun a => !s.jobs.any (fun x => x.locked.contains a))).foldl (State.leafBit · 55 false) s

/-- Is a job one that a reset of queue q drops: fetched and not accepted (R620, R631)? -/
def State.dropped (s : State) (q : Nat) (j : Job) : Bool :=
  j.queue == q && j.gen == s.qGen q && (j.phase == .verifying || (j.phase == .accepting && !s.inProgram j))

/-- LK cleared in what the jobs of a kind had locked, before they are dropped (R432). -/
def State.unlockJobs (s : State) (p : Job → Bool) : State :=
  State.unlock { s with jobs := s.jobs.map (fun j => if p j then { j with locked := [] } else j) }
    ((s.jobs.filter p).flatMap Job.locked)

/-- R620 for queue q, what its dropped jobs had locked being unlocked already. -/
def State.resetQueue (s : State) (q : Nat) : State :=
  let dead := s.dropped q
  let g := (s.qGen q + 1) % 256
  let x := s.hq q
  let joining := s.jn.joining.filter (fun r => !(r.kind == 1 && s.jobs.any (fun j => dead j && recNames r j)))
  let s := { s with jobs := s.jobs.map (fun j => if dead j then { j with phase := .committed, locked := [] } else j),
                    jn := { s.jn with joining := joining } }
  let rec_ : JRec := { kind := 3, queue := q, gen := g, tb := s.now }
  let s := s.record rec_
  let s := if s.inSync then s.tell (.journal rec_ none) else s
  let s := s.incFld (rQStatus q) 31 16 (x.waiting.filter (fun y => y.2 != 2)).length
  let s := s.setHq q { unsig := x.unsig, unsigAt := x.unsigAt }
  let s := (s.setFld (rQStatus q) 47 40 g).setFld (rQStatus q) 63 48 0
  let s := ((s.setFld (rQStatus q) 15 0 0).setFld (rQStatus q) 36 34 0).setReg (rQLast q) 0#64
  (s.setFld (rQCtl q) 63 63 0).syncQ q

/-- A write of Q_CTL: ring sizes only while ENABLE is 0 before the write (R630, R786). -/
def State.writeQctl (s : State) (q : Nat) (v : Word) : State :=
  let on := s.fld (rQCtl q) 63 63 = 1
  let s := if bitOf v 62 then s.unlockJobs (s.dropped q) else s
  let s := (s.setFld (rQCtl q) 63 63 (bitsOf v 63 63)).setFld (rQCtl q) 61 61 (bitsOf v 61 61)
  let s := s.setFld (rQCtl q) 39 32 (bitsOf v 39 32)
  let s := if on then s else s.setFld (rQCtl q) 56 47 (bitsOf v 56 47)
  if bitOf v 62 then s.resetQueue q else s.syncQ q

/-- QUEUE_RESET (R620): the value written to Q_CTL with RESET, through function f. -/
def execQueueReset (q : Fin 64) (v : Word) (f : Fin 2) (s : State) : Res :=
  need (bitOf v 62) 620 (.next (if s.qReach q f then s.writeQctl q v else s))

/-! ### BAR2 (R603) -/

/-- What an access error of the host's own accesses records as any access of its kind does (R399, R435, R485, R516). -/
def State.noteHost (s : State) (f : Nat) (e : AccErr) : State :=
  match e with
  | .trans _ _ _ _ => s.noteTrans (viaQ 12 12) 15 e
  | .tier _ l wr => s.noteTier .ctl 21 (64 + f) l wr
  | .guard va => s.noteGuard 21 (64 + f) va
  | .stall _ => s

/-- A faulting BAR2 access is recorded and reported, beside what its fault records by itself; it ends nothing (R603). -/
def State.bar2Err (s : State) (f : Nat) (write : Bool) (o : Nat) (e : AccErr) : Res :=
  match e with
  | .stall r => s.stalls r
  | e =>
    let s := s.noteHost f e
    let kind := match e with
      | .trans k _ _ _ => k
      | .guard _ => 9
      | _ => 10
    let s := s.latch rWhBar2Err
      (setBits (setBits (setBits (setBits 0#64 61 61 f) 60 60 write.toNat) 59 56 kind) 35 0 o)
    .next (s.reportSelf 21 0xD 0 (64 + f) o)

/-- Device virtual address of a BAR2 offset. -/
def State.bar2Va (s : State) (f o : Nat) : Nat := s.fld (rWhBar2Base f) 55 21 * 2 ^ 21 + o

/-- BAR2_READ (R603): a faulting access reads as all-ones bytes. Its requester waits for a miss of its own (R441). -/
def execBar2Read (f : Fin 2) (o : BitVec 36) (n : Fin 4097) (s : State) : Res :=
  need (s.functionUp f) 603 (
    if s.missing 12 17 then s.stalls 441
    else
    match s.readVa (viaQ 12 12) (s.bar2Va f o.toNat) n with
    | .ok bs =>
      let t := s.traffic 12 (viaQ 12 12) (s.bar2Va f o.toNat) n false
      .next { t.useTlbs (viaQ 12 12) (s.bar2Va f o.toNat) n with bar2Data := bs }
    | .error (.stall r) => s.stalls r
    | .error e => { s with bar2Data := List.replicate n 0xFF#8 }.bar2Err f false o.toNat e)

/-- BAR2_WRITE (R603); in STAGE 8 the first 64 MiB are the recovery window (R748). -/
def execBar2Write (f : Fin 2) (o : BitVec 36) (bytes : List Byte) (s : State) : Res :=
  need (s.functionUp f) 603 (
    if s.fld rWhBoot 63 60 = 8 then
      .next (if o.toNat + bytes.length ≤ 2 ^ 26 then { s with recovery := memWrite s.recovery o.toNat bytes } else s)
    else if s.missing 12 17 then s.stalls 441
    else
      match s.writeDir (viaQ 12 12) (s.bar2Va f o.toNat) bytes with
      | .ok t => .next t
      | .error e => s.bar2Err f true o.toNat e)

end Sys2Proof.Machine
end

