-- ==== Sys2Proof/Machine/Aquifer.lean ====
section
/-!
DEFINITION. The aquifer's controllers (R510 to R527): read entries and pages, lost packages, and image writes.
-/

namespace Sys2Proof.Machine

/-! ### Read entries (R512 to R514) -/

/-- Queue q of package k. -/
def State.aqQ (s : State) (k q : Nat) : List AqEntry := tabGet [] s.aqQs (k * 13 + q)
/-- That queue replaced. -/
def State.setAqQ (s : State) (k q : Nat) (l : List AqEntry) : State :=
  { s with aqQs := tabPut [] s.aqQs (k * 13 + q) l }

/-- AQUIFER_READ_ENTRY (R512, R513): n pages of one unit from page address a, for well q or the wellhead as 12; src is
the SOURCE code of its requester. -/
def execAquiferReadEntry (q : Fin 13) (a : Nat) (n : Fin 5) (src : Fin 4) (s : State) : Res :=
  need (decide (a % 16384 = 0 ∧ 1 ≤ n.val ∧ a % 65536 / 16384 + n.val ≤ 4 ∧ a < aquiferSize)) 512 (
    let k := (aqPlace a).1
    .next (s.setAqQ k q (s.aqQ k q ++ [{ addr := a, left := n, src := src }])))

/-- The queue that package k serves next (R514). -/
def State.aqNext (s : State) (k : Nat) : Option Nat :=
  ((List.range 13).map (fun i => (tabGet 0 s.aqTurn k + i) % 13)).find? (fun q => !(s.aqQ k q).isEmpty)

/-- Retries that a read of a page counts (R516). -/
def pageRetries : PageEv → Nat
  | .good => 0
  | .retried n => n.val + 1
  | _ => 7

/-- Another package than k is LOST. -/
def State.otherLost (s : State) (k : Nat) : Bool := (List.range 12).any (fun i => i != k && s.aqLost i)

/-- Packages of the units of a stripe row, its parity first (R510); the last row holds three data units. -/
def rowPkgs (row : Nat) : List Nat :=
  row % 12 :: (List.range (min 11 (2 ^ 28 - 11 * row))).map (fun u => (row % 12 + 1 + u) % 12)

/-- A package other than k that holds a unit of the row is LOST. -/
def State.rowLost (s : State) (row k : Nat) : Bool := (rowPkgs row).any (fun i => i != k && s.aqLost i)

/-- May the read of a page at address a, on package k, end so (R516 to R518)? A rebuild needs every other unit of the
row. -/
def State.pageCan (s : State) (k a : Nat) (ev : PageEv) : Bool :=
  match ev with
  | .failed => true
  | .rebuilt => !s.rowLost (a / 720896) k && !(s.aqLost k && s.otherLost k)
  | _ => !s.aqLost k

/-- Page i of data unit u of a stripe row (R510, R511). -/
def State.dataPage (s : State) (row u i : Nat) : List Byte :=
  memRead s.aquifer (row * 720896 + u * 65536 + i * 16384) 16384

/-- Bytewise exclusive-or of two pages. -/
def xorPage (a b : List Byte) : List Byte := List.zipWith (· ^^^ ·) a b

/-- Page i of the parity unit of a row, which the controllers compute when they write the row (R511, R521). -/
def State.parityPage (s : State) (row i : Nat) : List Byte :=
  (List.range (min 11 (2 ^ 28 - 11 * row))).foldl (fun acc u => xorPage acc (s.dataPage row u i))
    (List.replicate 16384 0#8)

/-- Page i of data unit u rebuilt from the row's other units and its parity (R511, R516): the bytes that dataPage gives. -/
def State.rebuiltPage (s : State) (row u i : Nat) : List Byte :=
  ((List.range (min 11 (2 ^ 28 - 11 * row))).filter (· != u)).foldl (fun acc v => xorPage acc (s.dataPage row v i))
    (s.parityPage row i)

/-- A page that neither retry nor rebuild gives (R516 order 6). -/
def State.pageLost (s : State) (src a : Nat) : State :=
  let pc := aqPlace a
  let v := setBits (setBits (setBits (setBits 0#64 61 59 src) 58 55 pc.1) 54 53 pc.2) 43 0 a
  (((s.setPoison ⟨.aquifer, a⟩).incFld rAqEcc 15 0 1).latch rAqErr v).reportSelf 14 0x2 0 pc.1 a

/-- What a page's read counts. -/
def State.pageCount (s : State) (k src a : Nat) (ev : PageEv) : State :=
  let s := if s.aqLost k then s else s.incFld rAqEcc 63 32 (pageRetries ev)
  match ev with
  | .rebuilt => (s.incFld rAqEcc 31 16 1).incFld (rAqPkgStat k) 15 0 1
  | .failed => s.pageLost src a
  | _ => s

/-- AQUIFER_PAGE_READ (R514, R516): the next page of package k; an entry once begun is finished before the next queue's
turn. A LOST package's reads are rebuilds (R517). -/
def execAquiferPageRead (k : Fin 12) (ev : PageEv) (s : State) : Res :=
  needSome (s.aqNext k) 514 (fun q =>
    match s.aqQ k q with
    | [] => .fault (.notEnabled 514)
    | e :: rest =>
      need (s.pageCan k e.addr ev) 516 (
        let s := s.pageCount k e.src e.addr ev
        if e.left ≤ 1 then
          let s := s.setAqQ k q rest
          .next { s with aqTurn := tabPut 0 s.aqTurn k ((q + 1) % 13) }
        else
          let s := s.setAqQ k q ({ e with addr := e.addr + 16384, left := e.left - 1 } :: rest)
          .next { s with aqTurn := tabPut 0 s.aqTurn k q }))

/-! ### Lost packages (R517, R518) -/

/-- A package becomes LOST; a journal half without an ACTIVE package is reported (R523, R524, R762). -/
def State.loseAq (s : State) (k : Nat) : State :=
  let s := (s.setFld (rAqPkgStat k) 31 29 1).reportSelf 14 0x7 2 k 0
  if s.halfActive (k / 6) then s else (s.alert 7).reportSelf 14 0xF 0 k 0

/-- AQUIFER_PACKAGE_LOST (R517). -/
def execAquiferPackageLost (k : Fin 12) (s : State) : Res :=
  need (!s.aqLost k) 517 (.next (s.loseAq k))

/-- AQ_FENCE_CMD (R526): the value written with OP 1. -/
def execAqFenceCmd (v : Word) (s : State) : Res :=
  need (bitsOf v 5 4 == 1) 526 (
    let k := bitsOf v 3 0
    let s := s.setFld rAqFence 3 0 k
    .next (if 12 ≤ k then s
      else if s.otherLost k then s.setFld rAqFence 30 29 1
      else (if s.aqLost k then s else s.loseAq k).setFld rAqFence 30 29 0))

/-! ### Image writes (R519 to R522) -/

/-- Bytes of a stripe row. -/
def rowBytes : Nat := 720896

/-- An image-write record (R519). -/
structure ImgRec where
  src : Nat
  boot : Bool
  dst : Nat
  len : Nat
deriving DecidableEq, Repr

/-- The image-write record of an argument block; none for a job that writes no image. -/
def State.readImg (s : State) (ctx arg : Nat) : Except AccErr (Option ImgRec) := do
  let ws ← s.readWords ctx (arg + 0x1040) 4
  pure (if ws.all (· == 0#64) then none
    else some { src := bitsOf (opW ws 0) 55 0, boot := bitsOf (opW ws 1) 63 62 == 1, dst := bitsOf (opW ws 1) 43 0,
                len := bitsOf (opW ws 2) 31 0 })

/-- Bytes of row i of a record: a stripe row ends at 16 TiB, a boot row is one unit of 64 KiB. -/
def ImgRec.bytes (r : ImgRec) (i : Nat) : Nat :=
  if r.boot then 65536 else min rowBytes (aquiferSize - (r.dst + i * rowBytes))

/-- Place of row i in the source. -/
def ImgRec.from_ (r : ImgRec) (i : Nat) : Nat := r.src + i * (if r.boot then 65536 else rowBytes)

/-- Two packages that row i touches are LOST, or one beside a LOST one (R510, R522). -/
def State.rowDead (s : State) (r : ImgRec) (i : Nat) : Bool :=
  let row := (r.dst + i * rowBytes) / rowBytes
  !r.boot && decide (2 ≤ ((List.range 12).filter s.aqLost).length) && (rowPkgs row).any s.aqLost

/-- A row becomes readable whole (R521); a boot row goes to the copy that the last boot did not use. -/
def State.putRow (s : State) (r : ImgRec) (i : Nat) (bs : List Byte) : State :=
  if r.boot then
    { s with boot := memWrite s.boot ((1 - s.pw.copyUsed) * 2 ^ 27 + i * 65536) bs }
  else
    let l : Loc := ⟨.aquifer, r.dst + i * rowBytes⟩
    (s.clearPoison l bs.length).rawWrite l bs

/-- IMAGE_ROW_WRITE (R521, R522): the next row of job j's image. -/
def execImageRowWrite (j : Nat) (s : State) : Res :=
  needSome (s.job j) 521 (fun x =>
    need (decide (x.phase = .running)) 521 (
      let ctx := viaQ 12 (s.ctxOf j)
      match s.readImg ctx x.arg with
      | .error e => s.headErr j 0 e
      | .ok none => .fault (.notEnabled 521)
      | .ok (some r) =>
        need (decide (x.imgDone < r.len)) 521 (
          if s.rowDead r x.imgDone then .next (s.failJob j 0x30 (r.dst + x.imgDone * rowBytes))
          else
            match s.readVa ctx (r.from_ x.imgDone) (r.bytes x.imgDone) with
            | .error e => s.headErr j 0 e
            | .ok bs =>
              .next ((s.putRow r x.imgDone bs).modJob j (fun y => { y with imgDone := y.imgDone + 1 })))))

end Sys2Proof.Machine
end

