-- ==== Sys2Proof/Machine/Crypto.lean ====
section
/-!
DEFINITION. What R744 checks a firmware image with: SHA-384 (FIPS 180-4) and the verification of ECDSA signatures over
P-384 (FIPS 186-4). The manual names both and the standards give their constants (log entry 50).
-/

namespace Sys2Proof.Machine

/-! ### SHA-384 -/

/-- Round constants 0 to 19: fractions of the cube roots of primes. -/
def shaK0 : List Word :=
  [0x428a2f98d728ae22#64, 0x7137449123ef65cd#64, 0xb5c0fbcfec4d3b2f#64, 0xe9b5dba58189dbbc#64,
   0x3956c25bf348b538#64, 0x59f111f1b605d019#64, 0x923f82a4af194f9b#64, 0xab1c5ed5da6d8118#64,
   0xd807aa98a3030242#64, 0x12835b0145706fbe#64, 0x243185be4ee4b28c#64, 0x550c7dc3d5ffb4e2#64,
   0x72be5d74f27b896f#64, 0x80deb1fe3b1696b1#64, 0x9bdc06a725c71235#64, 0xc19bf174cf692694#64,
   0xe49b69c19ef14ad2#64, 0xefbe4786384f25e3#64, 0x0fc19dc68b8cd5b5#64, 0x240ca1cc77ac9c65#64]

/-- Round constants 20 to 39: fractions of the cube roots of primes. -/
def shaK1 : List Word :=
  [0x2de92c6f592b0275#64, 0x4a7484aa6ea6e483#64, 0x5cb0a9dcbd41fbd4#64, 0x76f988da831153b5#64,
   0x983e5152ee66dfab#64, 0xa831c66d2db43210#64, 0xb00327c898fb213f#64, 0xbf597fc7beef0ee4#64,
   0xc6e00bf33da88fc2#64, 0xd5a79147930aa725#64, 0x06ca6351e003826f#64, 0x142929670a0e6e70#64,
   0x27b70a8546d22ffc#64, 0x2e1b21385c26c926#64, 0x4d2c6dfc5ac42aed#64, 0x53380d139d95b3df#64,
   0x650a73548baf63de#64, 0x766a0abb3c77b2a8#64, 0x81c2c92e47edaee6#64, 0x92722c851482353b#64]

/-- Round constants 40 to 59: fractions of the cube roots of primes. -/
def shaK2 : List Word :=
  [0xa2bfe8a14cf10364#64, 0xa81a664bbc423001#64, 0xc24b8b70d0f89791#64, 0xc76c51a30654be30#64,
   0xd192e819d6ef5218#64, 0xd69906245565a910#64, 0xf40e35855771202a#64, 0x106aa07032bbd1b8#64,
   0x19a4c116b8d2d0c8#64, 0x1e376c085141ab53#64, 0x2748774cdf8eeb99#64, 0x34b0bcb5e19b48a8#64,
   0x391c0cb3c5c95a63#64, 0x4ed8aa4ae3418acb#64, 0x5b9cca4f7763e373#64, 0x682e6ff3d6b2b8a3#64,
   0x748f82ee5defb2fc#64, 0x78a5636f43172f60#64, 0x84c87814a1f0ab72#64, 0x8cc702081a6439ec#64]

/-- Round constants 60 to 79: fractions of the cube roots of primes. -/
def shaK3 : List Word :=
  [0x90befffa23631e28#64, 0xa4506cebde82bde9#64, 0xbef9a3f7b2c67915#64, 0xc67178f2e372532b#64,
   0xca273eceea26619c#64, 0xd186b8c721c0c207#64, 0xeada7dd6cde0eb1e#64, 0xf57d4f7fee6ed178#64,
   0x06f067aa72176fba#64, 0x0a637dc5a2c898a6#64, 0x113f9804bef90dae#64, 0x1b710b35131c471b#64,
   0x28db77f523047d84#64, 0x32caab7b40c72493#64, 0x3c9ebe0a15c9bebc#64, 0x431d67c49c100d4c#64,
   0x4cc5d4becb3e42b6#64, 0x597f299cfc657e2a#64, 0x5fcb6fab3ad6faec#64, 0x6c44198c4a475817#64]

/-- The 80 round constants. -/
def shaK : List Word := shaK0 ++ shaK1 ++ shaK2 ++ shaK3

/-- The initial hash value: fractions of the square roots of the ninth to sixteenth primes. -/
def shaInit : List Word :=
  [0xcbbb9d5dc1059ed8#64, 0x629a292a367cd507#64, 0x9159015a3070dd17#64, 0x152fecd8f70e5939#64,
   0x67332667ffc00b31#64, 0x8eb44a8768581511#64, 0xdb0c2e0d64f98fa7#64, 0x47b5481dbefa4fa4#64]
/-- Big-endian value of bytes. -/
def beVal (bs : List Byte) : Nat := bs.foldl (fun a b => 256 * a + b.toNat) 0

/-- The message schedule, newest word first. -/
def shaSchedule (block : List Byte) : List Word :=
  let w16 := ((List.range 16).map (fun i => BitVec.ofNat 64 (beVal ((block.drop (8 * i)).take 8)))).reverse
  (List.range 64).foldl (fun (w : List Word) _ =>
    let at_ (i : Nat) : Word := w.getD i 0#64
    let a := at_ 1
    let b := at_ 14
    let s1 := a.rotateRight 19 ^^^ a.rotateRight 61 ^^^ (a >>> 6)
    let s0 := b.rotateRight 1 ^^^ b.rotateRight 8 ^^^ (b >>> 7)
    (s1 + at_ 6 + s0 + at_ 15) :: w) w16

/-- One round on the eight working variables. -/
def shaRound (v : List Word) (kw : Word × Word) : List Word :=
  match v with
  | [a, b, c, d, e, f, g, h] =>
    let t1 := h + (e.rotateRight 14 ^^^ e.rotateRight 18 ^^^ e.rotateRight 41) + ((e &&& f) ^^^ (~~~e &&& g)) + kw.1 + kw.2
    let t2 := (a.rotateRight 28 ^^^ a.rotateRight 34 ^^^ a.rotateRight 39) + ((a &&& b) ^^^ (a &&& c) ^^^ (b &&& c))
    [t1 + t2, a, b, c, d + t1, e, f, g]
  | _ => v

/-- One block of 128 bytes. -/
def shaBlock (h : List Word) (block : List Byte) : List Word :=
  List.zipWith (· + ·) h ((shaK.zip (shaSchedule block).reverse).foldl shaRound h)

/-- The padded message. -/
def shaPad (m : List Byte) : List Byte :=
  let l := 8 * m.length
  m ++ 0x80#8 :: List.replicate ((239 - m.length % 128) % 128) 0#8
    ++ (List.range 16).map (fun i => BitVec.ofNat 8 (l / 256 ^ (15 - i)))

/-- SHA-384 of a message: 48 bytes. -/
def sha384 (m : List Byte) : List Byte :=
  let p := shaPad m
  let h := (List.range (p.length / 128)).foldl (fun h i => shaBlock h ((p.drop (128 * i)).take 128)) shaInit
  (h.take 6).flatMap (fun w => (List.range 8).map (fun i => BitVec.ofNat 8 (w.toNat / 256 ^ (7 - i))))

/-! ### P-384 -/

/-- The field prime. -/
def ecP : Nat := 2 ^ 384 - 2 ^ 128 - 2 ^ 96 + 2 ^ 32 - 1
/-- The curve constant b; a is -3. -/
def ecB : Nat := 0xb3312fa7e23ee7e4988e056be3f82d19181d9c6efe8141120314088f5013875ac656398d8a2ed19d2a85c8edd3ec2aef
/-- The order of the base point. -/
def ecN : Nat := 0xffffffffffffffffffffffffffffffffffffffffffffffffc7634d81f4372ddf581a0db248b0a77aecec196accc52973
/-- The base point. -/
def ecG : Nat × Nat :=
  (0xaa87ca22be8b05378eb1c71ef320ad746e1d3b628ba79b9859f741e082542a385502f25dbf55296c3a545e3872760ab7,
   0x3617de4a96262c6f5d9e98bf9292dc29f8f41dbd289a147ce9da3113b5f0b8c00a60b1ce1d7e819d7a431d7c90ea0e5f)

/-- x ^ e modulo m by squaring over the 384 bits of e, lowest first. -/
def powMod (m x e : Nat) : Nat :=
  ((List.range 384).foldl (fun (a : Nat × Nat) i => (if e.testBit i then a.1 * a.2 % m else a.1, a.2 * a.2 % m)) (1 % m, x)).1

/-- Inverse modulo a prime. -/
def invMod (m x : Nat) : Nat := powMod m (x % m) (m - 2)

/-- Sum of two points; none is the point at infinity. -/
def ecAdd (a b : Option (Nat × Nat)) : Option (Nat × Nat) :=
  match a, b with
  | none, q => q
  | q, none => q
  | some (x1, y1), some (x2, y2) =>
    if x1 = x2 ∧ (y1 + y2) % ecP = 0 then none
    else
      let l := if x1 = x2 then (3 * x1 * x1 + (ecP - 3)) * invMod ecP (2 * y1) % ecP
        else (y2 + ecP - y1) * invMod ecP (x2 + ecP - x1) % ecP
      let x := (l * l + 2 * ecP - x1 - x2) % ecP
      some (x, (l * (x1 + ecP - x) + ecP - y1) % ecP)

/-- A multiple of a point. -/
def ecMul (k : Nat) (q : Nat × Nat) : Option (Nat × Nat) :=
  ((List.range 384).foldl (fun (a : Option (Nat × Nat) × Option (Nat × Nat)) i =>
    (if k.testBit i then ecAdd a.1 a.2 else a.1, ecAdd a.2 a.2)) (none, some q)).1

/-- Does an uncompressed point of 97 bytes name a point of the curve? -/
def ecPoint (key : List Byte) : Option (Nat × Nat) :=
  let x := beVal ((key.drop 1).take 48)
  let y := beVal ((key.drop 49).take 48)
  if key.length = 97 ∧ key.head? = some 4#8 ∧ x < ecP ∧ y < ecP ∧ y * y % ecP = (x * x * x + (ecP - 3) * x + ecB) % ecP then
    some (x, y)
  else none

/-- Does a signature of 96 bytes verify over a message? -/
def ecdsaOk (key msg sig : List Byte) : Bool :=
  let r := beVal (sig.take 48)
  let s := beVal ((sig.drop 48).take 48)
  match ecPoint key with
  | none => false
  | some q =>
    decide (0 < r ∧ r < ecN ∧ 0 < s ∧ s < ecN) && (
      let z := beVal (sha384 msg)
      let w := invMod ecN s
      match ecAdd (ecMul (z * w % ecN) ecG) (ecMul (r * w % ecN) q) with
      | some (x, _) => x % ecN == r
      | none => false)

end Sys2Proof.Machine
end

