-- ==== Sys2Proof/Machine/Codec.lean ====
section
/-!
DEFINITION. The video codec's sessions (R565 to R598): binding, pictures with the encoder's tools, rate control, window caches,
session blocks and ends. What the microcode decides, within the tools, and what HEVC prescribes are uninterpreted functions of
Config.
-/

namespace Sys2Proof.Machine

/-! ### Session records (R569) -/

/-- KIND: 1 encode, 2 decode. -/
def Session.kind (e : Session) : Nat := bitsOf (opW e.words 0) 63 60
/-- Bit depth of the samples (R576). -/
def Session.depth (e : Session) : Nat := if bitOf (opW e.words 0) 59 then 10 else 8
/-- RC: 0 CQP, 1 VBR, 2 CBR. -/
def Session.rc (e : Session) : Nat := bitsOf (opW e.words 0) 49 48
/-- GOP. -/
def Session.gop (e : Session) : Nat := bitsOf (opW e.words 0) 47 45
/-- ROI. -/
def Session.roiOn (e : Session) : Bool := bitOf (opW e.words 0) 40
/-- WIDTH. -/
def Session.width (e : Session) : Nat := bitsOf (opW e.words 1) 63 48
/-- HEIGHT. -/
def Session.height (e : Session) : Nat := bitsOf (opW e.words 1) 47 32
/-- FRAMES. -/
def Session.frames (e : Session) : Nat := bitsOf (opW e.words 1) 31 0
/-- FPS_NUM. -/
def Session.fpsNum (e : Session) : Nat := bitsOf (opW e.words 2) 63 32
/-- FPS_DEN. -/
def Session.fpsDen (e : Session) : Nat := bitsOf (opW e.words 2) 31 0
/-- R of R582 in bits per second. -/
def Session.rate (e : Session) : Nat := bitsOf (opW e.words 3) 63 32 * 1000
/-- C of R582 in bits. -/
def Session.cpb (e : Session) : Nat := bitsOf (opW e.words 3) 31 0 * 1000
/-- INIT. -/
def Session.init (e : Session) : Nat := bitsOf (opW e.words 4) 39 32
/-- IPERIOD. -/
def Session.iperiod (e : Session) : Nat := bitsOf (opW e.words 4) 31 16
/-- SRC. -/
def Session.src (e : Session) : Nat := bitsOf (opW e.words 5) 55 0
/-- SLOT_BYTES. -/
def Session.slotBytes (e : Session) : Nat := bitsOf (opW e.words 6) 63 32
/-- NSLOT. -/
def Session.nslot (e : Session) : Nat := bitsOf (opW e.words 6) 31 16
/-- DST. -/
def Session.dst (e : Session) : Nat := bitsOf (opW e.words 7) 55 0
/-- LEN. -/
def Session.len (e : Session) : Nat := (opW e.words 8).toNat
/-- POOL. -/
def Session.pool (e : Session) : Nat := bitsOf (opW e.words 9) 55 0
/-- NPOOL. -/
def Session.npool (e : Session) : Nat := bitsOf (opW e.words 10) 63 56
/-- PSLOT. -/
def Session.pslot (e : Session) : Nat := bitsOf (opW e.words 10) 31 0
/-- BLOCK. -/
def Session.block (e : Session) : Nat := bitsOf (opW e.words 11) 55 0

/-- NREF: references per list. -/
def Session.nref (e : Session) : Nat := bitsOf (opW e.words 0) 44 44 + 1
/-- SAO. -/
def Session.sao (e : Session) : Bool := bitOf (opW e.words 0) 43
/-- TMVP. -/
def Session.tmvp (e : Session) : Bool := bitOf (opW e.words 0) 42
/-- HASH. -/
def Session.hash (e : Session) : Bool := bitOf (opW e.words 0) 41

/-- MaxLumaPs, MaxLumaSr, MaxBR and MaxCPB of the tier (R565); none for an unsupported level. -/
def levelLimits (idc : Nat) (high : Bool) : Option (Nat × Nat × Nat × Nat) :=
  let t (a b : Nat) : Nat := if high then b else a
  match idc with
  | 120 => some (2228224, 66846720, t 12000 30000, t 12000 30000)
  | 123 => some (2228224, 133693440, t 20000 50000, t 20000 50000)
  | 150 => some (8912896, 267386880, t 25000 100000, t 25000 100000)
  | 153 => some (8912896, 534773760, t 40000 160000, t 40000 160000)
  | 156 => some (8912896, 1069547520, t 60000 240000, t 60000 240000)
  | 180 => some (35651584, 1069547520, t 60000 240000, t 60000 240000)
  | 183 => some (35651584, 2139095040, t 120000 480000, t 120000 480000)
  | 186 => some (35651584, 4278190080, t 240000 800000, t 240000 800000)
  | _ => none

/-- CTUs of a picture. -/
def ctus (w h : Nat) : Nat := ((w + 63) / 64) * ((h + 63) / 64)
/-- G, the bound on a fallback picture in bits. -/
def Session.bound (e : Session) : Nat := 8 * (2 * ctus e.width e.height + 1024)
/-- Bytes of a frame slot's planes (R575). -/
def planeBytes (w h : Nat) : Nat := 2 * w * h + 4 * (w / 2) * (h / 2)
/-- Bytes of a frame slot: the planes and, with ROI, the map. -/
def Session.frameBytes (e : Session) : Nat :=
  planeBytes e.width e.height + (if e.roiOn then ctus e.width e.height else 0)
/-- Bytes of a pool slot (R591). -/
def poolBytes (w h : Nat) : Nat := planeBytes w h + 16 * (((w + 15) / 16) * ((h + 15) / 16))

/-- The session records of a job's argument block with KIND not 0, by record. -/
def State.readSessions (s : State) (ctx arg j : Nat) : Except AccErr (List Session) := do
  let l ← (List.range 4).mapM (fun n => do
    let ws ← s.readWords ctx (arg + 0x1400 + 128 * n) 16
    pure ({ job := j, n := n, words := ws } : Session))
  pure (l.filter (fun e => e.kind != 0))

/-! ### The session block (R578) -/

/-- Bytes 8 to 63 of the session block. -/
def Session.blockBytes (e : Session) : List Byte :=
  let sat (n : Nat) : Nat := min n (2 ^ 32 - 1)
  leBytes 8 e.done_ ++ leBytes 8 e.bytes ++ leBytes 1 e.state ++ leBytes 1 e.code ++ leBytes 2 0
  ++ leBytes 4 e.pictures ++ leBytes 4 e.reencodes ++ leBytes 4 e.fallbacks ++ leBytes 4 (sat e.bad)
  ++ leBytes 4 (sat e.roi) ++ leBytes 8 e.marks.toNat ++ leBytes 8 0

/-- A session replaced, and its block written through its job's context (R573). -/
def State.putSession (s : State) (e : Session) : Except AccErr State :=
  ({ s with sessions := s.sessions.map (fun (x : Session) => if x.job = e.job ∧ x.n = e.n then e else x) }).writeDir
    (viaQ 12 (s.ctxOf e.job)) (e.block + 8) e.blockBytes

/-- A session moved behind the others (R572). -/
def State.turnSession (s : State) (e : Session) : State :=
  let same (x : Session) : Bool := x.job == e.job && x.n == e.n
  { s with sessions := s.sessions.filter (fun x => !same x) ++ s.sessions.filter same }

/-- The core of a session: encode cores 0 and 1, decode cores 2 and 3. -/
def Session.coreNo (e : Session) : Nat := e.core.getD 0

/-- A codec access that fails ends the session's job (R573), and the session (R599); one that stalls leaves the step for
later. -/
def State.codecErr (s : State) (e : Session) (err : AccErr) : Res :=
  match err with
  | .stall r => s.stalls r
  | err =>
    let s := s.noteHead (viaQ 12 (s.ctxOf e.job)) 18 e.coreNo err
    let f (x : Session) : Session := if x.job = e.job ∧ x.n = e.n then { x with state := 4 } else x
    .next ({ s with sessions := s.sessions.map f }.failJob e.job err.status err.va)

/-- A step of core i, which waits for a miss of its own (R441, R442). -/
def State.coreStep (s : State) (i : Nat) (r : Res) : Res := if s.missing 12 (18 + i) then s.stalls 441 else r

/-- A session's step with its error handled. -/
def State.codecGo (s : State) (e : Session) (r : Except AccErr State) : Res :=
  match r with
  | .ok t => .next t
  | .error err => s.codecErr e err

/-! ### Binding (R571) -/

/-- Sessions bound to core i. -/
def State.boundTo (s : State) (i : Nat) : Nat := (s.sessions.filter (fun e => e.core == some i)).length
/-- BOUND of the cores brought up to date (R598). -/
def State.syncCores (s : State) : State :=
  (List.range 4).foldl (fun t i => t.setFld (rVcCore i) 15 12 (t.boundTo i)) s

/-- The core that a session of this kind binds to: fewer sessions, the lower number on a tie, at most 8. -/
def State.coreFor (s : State) (kind : Nat) : Option Nat :=
  let a := if kind = 1 then 0 else 2
  let i := if s.boundTo (a + 1) < s.boundTo a then a + 1 else a
  if s.boundTo i < 8 then some i else none

/-- Initial fullness, times 90,000 × FPS_NUM: the largest 90 kHz count not above INIT % of C (R582). -/
def Session.startFull (e : Session) : Nat := e.init * e.cpb * 90000 / (100 * e.rate) * e.rate * e.fpsNum

/-- The session of a job that may use the codec now: its job runs. -/
def State.sessionRuns (s : State) (e : Session) : Bool :=
  match s.job e.job with
  | some x => decide (x.phase = .running ∨ (x.phase = .stopping ∧ x.status.any (· ≤ 1)))
  | none => false

/-- CODEC_SESSION_BIND (R571): the first session that waits and finds room. -/
def execCodecSessionBind (s : State) : Res :=
  needSome (s.sessions.find? (fun e => e.core.isNone && decide (e.state = 0) && s.sessionRuns e
      && (s.coreFor e.kind).isSome)) 571 (fun e =>
    let e' := { e with core := s.coreFor e.kind, state := 1, full := e.startFull }
    s.codecGo e' ((s.putSession e').map State.syncCores))

/-- SESSION_READY_REREAD (R578): session n of job j re-reads READY. -/
def execSessionReadyReread (j : Nat) (n : Fin 4) (s : State) : Res :=
  needSome (s.sessions.find? (fun e => e.job == j && e.n == n.val && decide (e.state = 1))) 578 (fun e =>
    match s.readWord (viaQ 12 (s.ctxOf j)) e.block with
    | .error err => s.codecErr e err
    | .ok v =>
      let e' := { e with ready := v.toNat, readAt := s.now }
      .next { s with sessions := s.sessions.map (fun x => if x.job = j ∧ x.n = n.val then e' else x) })

/-! ### Encoding (R576 to R590) -/

/-- Hierarchical order strictly between lo and hi, the middle first. -/
def hierOrder : Nat → Nat → Nat → List Nat
  | 0, _, _ => []
  | fuel + 1, lo, hi =>
    if hi < lo + 2 then []
    else
      let m := (lo + hi) / 2
      m :: (hierOrder fuel lo m ++ hierOrder fuel m hi)

/-- Pictures from one IDR picture to the next. -/
def Session.period (e : Session) : Nat := if e.iperiod = 0 then e.frames else e.iperiod

/-- The frame that the picture of coding number k codes (R569): display order, or the hierarchy of 8, a shorter group
ending an IDR period or the session (log entry 46). -/
def Session.frameOf (e : Session) (k : Nat) : Nat :=
  if e.gop ≠ 3 then k
  else
    let per := e.period
    let base := k / per * per
    let r := k - base
    if r = 0 then base
    else
      let l := min per (e.frames - base) - 1
      let g := (r - 1) / 8
      let n := min 8 (l - 8 * g)
      base + 8 * g + ((n :: hierOrder 4 0 n).getD ((r - 1) % 8) 0)

/-- Is a value an integer from 0 to top (R576)? -/
def isSample (top : Nat) : Num → Bool
  | .fin neg m ex =>
    m == 0 || (!neg && (match ex with
      | .ofNat n => decide (m * 2 ^ n ≤ top)
      | .negSucc n => m % 2 ^ (n + 1) == 0 && decide (m / 2 ^ (n + 1) ≤ top)))
  | _ => false

/-- A value rounded to an integer (R92). -/
def roundInt : Num → Int
  | .fin neg m ex =>
    let p := scaleRatio m 1 ex
    signedMag neg (rneDiv p.1 p.2)
  | _ => 0

/-- The sample that a frame's value gives (R576). -/
def sampleOf (top : Nat) (v : Num) : Nat :=
  match v with
  | .nan => 0
  | .inf neg => if neg then 0 else top
  | v => (max 0 (min (roundInt v) top)).toNat

/-- The values of a frame's planes. -/
def Session.planeNums (e : Session) (bs : List Byte) : List Num :=
  (List.range (planeBytes e.width e.height / 2)).map (fun i => decodeElem .fp16 (byteField bs (2 * i) 2))

/-- Samples of a frame that R576 changes. -/
def Session.badSamples (e : Session) (bs : List Byte) : Nat :=
  ((e.planeNums bs).filter (fun v => !isSample (2 ^ e.depth - 1) v)).length

/-- The QP map of a frame, before R588 limits it; none without ROI. -/
def Session.roiMap (e : Session) (bs : List Byte) : List Int :=
  if e.roiOn then
    (List.range (ctus e.width e.height)).map (fun i => signedOf 8 (byteField bs (planeBytes e.width e.height + i) 1))
  else []

/-- A map entry as R588 limits it. -/
def limitMap (d : Int) : Int := max (-12) (min d 12)

/-- Map entries of a frame that R588 limits. -/
def Session.roiClamps (e : Session) (bs : List Byte) : Nat := ((e.roiMap bs).filter (fun d => limitMap d != d)).length

/-- What the encoder takes of a frame: its samples of 16 bits in plane order (R576), and its limited map (R588). -/
def Session.taken (e : Session) (bs : List Byte) : List Byte :=
  (e.planeNums bs).flatMap (fun v => leBytes 2 (sampleOf (2 ^ e.depth - 1) v))
  ++ (e.roiMap bs).map (fun d => BitVec.ofInt 8 (limitMap d))

/-- DONE of an encode session: frames 0 to DONE − 1 are all coded (R580). -/
def doneOf (coded : List Nat) : Nat → Nat → Nat
  | 0, n => n
  | fuel + 1, n => if coded.contains n then doneOf coded fuel (n + 1) else n

/-! ### What a picture is made of (R567, R583, R587 to R589) -/

/-- A picture to be coded in attempt a: its session, the microcode version, the frames taken so far with it. -/
structure PicTask where
  e : Session
  ucode : Nat
  coded : List (Nat × List Byte)
  a : Nat
deriving DecidableEq, Repr

/-- A decision of the microcode. -/
def PicTask.pick (p : PicTask) (path : List Nat) : Int := Config.codecPick p.e.words p.ucode p.coded p.a path
/-- A decision among n. -/
def PicTask.pickOf (p : PicTask) (n : Nat) (path : List Nat) : Nat := (p.pick path % n).toNat
/-- A decision between two. -/
def PicTask.pickBit (p : PicTask) (path : List Nat) : Bool := p.pickOf 2 path == 1
/-- A decision held to a range. -/
def PicTask.pickIn (p : PicTask) (lo hi : Int) (path : List Nat) : Int := max lo (min (p.pick path) hi)

/-- The coding number of the picture. -/
def PicTask.no (p : PicTask) : Nat := p.coded.length - 1
/-- The first picture of an IDR period. -/
def PicTask.idr (p : PicTask) : Bool := p.no % p.e.period == 0

/-- The kind of a picture: an IDR picture and every one of GOP 0 is I; GOP 1 has P pictures and GOP 2 B pictures; in the
hierarchy the last of a group of 8 is P or B, as the microcode decides, and the others are B. -/
def PicTask.kind (p : PicTask) : PicKind :=
  if p.idr || p.e.gop == 0 then .intra
  else if p.e.gop = 1 then .pred
  else if p.e.gop = 3 ∧ (p.no % p.e.period - 1) % 8 = 0 then (if p.pickBit [0] then .pred else .bipred)
  else .bipred

/-- Pool slots that the GOP structure references when the picture is coded (R592). -/
def PicTask.refSlots (p : PicTask) : List Nat :=
  (List.range p.e.npool).filter (Config.codecRef p.e.words p.ucode p.coded.dropLast)

/-- A reference list: at most NREF slots of those that are referenced (R569). -/
def PicTask.refList (p : PicTask) (l : Nat) : List Nat :=
  let c := p.refSlots
  if c.isEmpty || p.kind == .intra || (l == 1 && p.kind != .bipred) then []
  else ((List.range p.e.nref).map (fun i => c.getD (p.pickOf c.length [1, l, i]) 0)).eraseDups

/-- Q of R583 and R588 before the attempt: by the kind of the picture under CQP (R587), QPI for the first picture, and the
rate control's choice. -/
def PicTask.baseQp (p : PicTask) : Nat :=
  let w := opW p.e.words 4
  if p.e.rc = 0 then
    match p.kind with
    | .intra => bitsOf w 63 56
    | .pred => bitsOf w 55 48
    | .bipred => bitsOf w 47 40
  else if p.no = 0 then bitsOf w 63 56
  else (Config.codecPick p.e.words p.ucode p.coded 0 [2] % 52).toNat

/-- The picture's QP in its attempt (R583). -/
def PicTask.qp (p : PicTask) : Nat :=
  match p.a with
  | 0 => p.baseQp
  | 1 => min (p.baseQp + 6) 51
  | _ => 51

/-- Entry i of the map that the attempt uses; attempts 2 and 3 use none (R583, R588). -/
def PicTask.mapAt (p : PicTask) (i : Nat) : Int :=
  if p.e.roiOn && decide (p.a < 2) then
    signedOf 8 (byteField ((p.coded.getLast?.map Prod.snd).getD []) (planeBytes p.e.width p.e.height + i) 1)
  else 0

/-- QP of CTU i (R588). -/
def PicTask.ctuQp (p : PicTask) (i : Nat) : Nat := (max 0 (min ((p.qp : Int) + p.mapAt i) 51)).toNat

/-- A motion vector, within 252 samples across and 124 down (R589), to a reference of a list. -/
def PicTask.mv (p : PicTask) (path : List Nat) (l : Nat) : MotionVec :=
  { list := l, ref := p.pickOf (max 1 (p.refList l).length) (l :: 10 :: path),
    x := p.pickIn (-1008) 1008 (l :: 11 :: path), y := p.pickIn (-496) 496 (l :: 12 :: path) }

/-- The vectors that a prediction unit predicts with: one of list 0, or in a B picture of list 1 or of both. -/
def PicTask.mvs (p : PicTask) (path : List Nat) : List MotionVec :=
  if p.kind = .bipred then
    match p.pickOf 3 (13 :: path) with
    | 0 => [p.mv path 0]
    | 1 => [p.mv path 1]
    | _ => [p.mv path 0, p.mv path 1]
  else [p.mv path 0]

/-- Prediction unit n of a coding unit: merge with one of 5 candidates, or AMVP. -/
def PicTask.predUnit (p : PicTask) (path : List Nat) (n : Nat) : PredUnit :=
  let q := n :: 14 :: path
  { code := if p.pickBit (15 :: q) then .merge (p.pickOf 5 (16 :: q)) else .amvp (p.pickOf 2 (17 :: q)), mvs := p.mvs q }

/-- Partition of an inter coding unit; AMP only above the smallest size. -/
def PicTask.part (p : PicTask) (path : List Nat) (log2 : Nat) : PartMode :=
  match p.pickOf (if log2 = 3 then 3 else 7) (18 :: path) with
  | 0 => .whole
  | 1 => .twoRows
  | 2 => .twoColumns
  | 3 => .rowsUp
  | 4 => .rowsDown
  | 5 => .columnsLeft
  | _ => .columnsRight

/-- A transform unit, with transform skip for 4 × 4 alone (R567). -/
def PicTask.transUnit (p : PicTask) (path : List Nat) (x y log2 : Nat) : TransUnit :=
  { x := x, y := y, log2 := log2, tskip := decide (log2 = 2) && p.pickBit (22 :: path), signHide := p.pickBit (23 :: path),
    levels := (List.range (4 ^ log2)).map (fun i => p.pickIn (-32768) 32767 (i :: 24 :: path)) }

/-- Transform units of 4 to 32 samples. -/
def PicTask.transUnits (p : PicTask) : Nat → List Nat → Nat → Nat → Nat → List TransUnit
  | 0, path, x, y, log2 => [p.transUnit path x y log2]
  | fuel + 1, path, x, y, log2 =>
    if log2 = 6 ∨ (2 < log2 ∧ p.pickBit (20 :: path) = true) then
      let h := 2 ^ (log2 - 1)
      (List.range 4).flatMap (fun i => p.transUnits fuel (i :: 21 :: path) (x + i % 2 * h) (y + i / 2 * h) (log2 - 1))
    else [p.transUnit path x y log2]

/-- The residual of a coding unit: none, or its transform units. -/
def PicTask.residual (p : PicTask) (path : List Nat) (x y log2 : Nat) : List TransUnit :=
  if p.pickBit (25 :: path) then p.transUnits 4 (26 :: path) x y log2 else []

/-- A coding unit of 8 to 64 samples: in an I picture intra, with one of 35 modes, four of them only at 8 × 8 (R567). -/
def PicTask.codingUnit (p : PicTask) (path : List Nat) (x y log2 : Nat) : CodingUnit :=
  let intra : CuPred :=
    .intra ((List.range (if log2 = 3 ∧ p.pickBit (30 :: path) = true then 4 else 1)).map (fun i => p.pickOf 35 (i :: 31 :: path)))
      (p.pickOf 5 (32 :: path))
  let res := p.residual path x y log2
  if p.kind = .intra then ⟨x, y, log2, intra, res⟩
  else
    match p.pickOf 3 (33 :: path) with
    | 0 => ⟨x, y, log2, intra, res⟩
    | 1 => ⟨x, y, log2, .skipped (p.pickOf 5 (34 :: path)) (p.mvs path), []⟩
    | _ =>
      let m := p.part path log2
      ⟨x, y, log2, .inter m ((List.range (if m = .whole then 1 else 2)).map (p.predUnit path)), res⟩

/-- The coding units of a square, which is split where the picture ends in it. -/
def PicTask.codingUnits (p : PicTask) : Nat → List Nat → Nat → Nat → Nat → List CodingUnit
  | 0, path, x, y, log2 => if p.e.width ≤ x ∨ p.e.height ≤ y then [] else [p.codingUnit path x y log2]
  | fuel + 1, path, x, y, log2 =>
    if p.e.width ≤ x ∨ p.e.height ≤ y then []
    else if p.e.width < x + 2 ^ log2 ∨ p.e.height < y + 2 ^ log2 ∨ p.pickBit (40 :: path) = true then
      let h := 2 ^ (log2 - 1)
      (List.range 4).flatMap (fun i => p.codingUnits fuel (i :: 41 :: path) (x + i % 2 * h) (y + i / 2 * h) (log2 - 1))
    else [p.codingUnit path x y log2]

/-- CTUs across a picture. -/
def Session.ctuCols (e : Session) : Nat := (e.width + 63) / 64

/-- CTU i in raster order; in the fallback picture one intra DC or one skipped coding unit with merge index 0 (R583). -/
def PicTask.ctu (p : PicTask) (i : Nat) : CodingTree :=
  let x := i % p.e.ctuCols * 64
  let y := i / p.e.ctuCols * 64
  { qp := p.ctuQp i
    sao := if p.e.sao then some ((List.range 12).map (fun k => p.pick [k, 50, i])) else none
    cus :=
      if p.a = 3 then [⟨x, y, 6, if p.kind = .intra then .intra [1] 4 else .skipped 0 (p.mvs [51, i]), []⟩]
      else p.codingUnits 3 [52, i] x y 6 }

/-- The parameter sets' values that the session record decides (R565, R567). -/
def Session.seqParams (e : Session) : SeqParams :=
  let w := opW e.words 0
  let bt2020 := bitsOf w 39 38 == 1
  { profile := if bitOf w 59 then 2 else 1, high := bitOf w 58, level := bitsOf w 57 50, width := e.width, height := e.height,
    depth := e.depth, sao := e.sao, tmvp := e.tmvp
    vui := { primaries := if bt2020 then 9 else 1, transfer := if bt2020 then 14 else 1, matrix := if bt2020 then 9 else 1,
             full := bitOf w 37, hrd := if e.rc = 0 then none else some (e.rate, e.cpb, e.rc == 2) } }

/-- The NAL units of the picture's access unit (R567): parameter sets before an IRAP picture, SEI messages, and one slice. -/
def PicTask.nals (p : PicTask) : List NalUnit :=
  (if p.idr then [.vps, .sps p.e.seqParams, .pps] else [])
  ++ (if p.e.rc ≠ 0 ∧ p.idr = true then [.buffering (p.e.full / (p.e.rate * p.e.fpsNum))] else [])
  ++ (if p.e.rc ≠ 0 then [.timing p.no] else [])
  ++ [.slice p.kind p.idr (p.refList 0) (p.refList 1) ((List.range (ctus p.e.width p.e.height)).map p.ctu)]
  ++ (if p.e.hash then [.hash] else [])

/-- An attempt's access unit; the fallback picture never passes G bits (R584). -/
def Session.unit (e : Session) (ucode : Nat) (coded : List (Nat × List Byte)) (a : Nat) : List Byte :=
  let bs := Config.codecBits e.words (PicTask.nals ⟨e, ucode, coded, a⟩)
  if a = 3 ∧ e.rc ≠ 0 then bs.take (e.bound / 8) else bs

/-- The attempt kept: the first whose bits do not pass F (R583); CQP codes once (R587). -/
def Session.attempt (e : Session) (ucode : Nat) (coded : List (Nat × List Byte)) : Nat :=
  if e.rc = 0 then 0
  else
    ([0, 1, 2].find? (fun a => decide (8 * (e.unit ucode coded a).length * (90000 * e.fpsNum) ≤ e.full))).getD 3

/-- Filler bytes of CBR and the fullness after an access unit of n bytes (R582). -/
def Session.drain (e : Session) (n : Nat) : Nat × Nat :=
  let k := 90000 * e.fpsNum
  let A := e.rate * e.fpsDen * 90000
  let C := e.cpb * k
  let f := e.full - 8 * n * k + A
  if e.rc = 2 then
    let fill := (f - C + 8 * k - 1) / (8 * k)
    (fill, f - 8 * fill * k)
  else if e.rc = 1 then (0, min f C)
  else (0, e.full)

/-- The next picture of an encode session: its frame's bytes, the coded frames with it, the attempt, and the access
unit with its filler. -/
def State.nextUnit (s : State) (e : Session) : Except AccErr (List (Nat × List Byte) × Nat × List Byte × Nat) := do
  let n := e.frameOf e.coded.length
  let bs ← s.readVa (viaQ 12 (s.ctxOf e.job)) (e.src + n % e.nslot * e.slotBytes) e.frameBytes
  let coded := e.coded ++ [(n, e.taken bs)]
  let ucode := s.fld rVcId 31 16
  let a := e.attempt ucode coded
  let unit := e.unit ucode coded a
  let d := e.drain unit.length
  pure (coded, a, unit ++ (List.range d.1).map (Config.codecFill e.words e.coded.length), d.2)

/-- An encode session of core i that can go on: a frame is ready and not yet coded (R579). -/
def Session.canEncode (e : Session) (i : Nat) : Bool :=
  e.core == some i && decide (e.state = 1 ∧ e.coded.length < e.frames)
  && decide (e.frameOf e.coded.length + 1 ≤ e.ready)

/-! ### The motion-search window (R590) -/

/-- An index held to the n positions of an axis: positions outside repeat the edge. -/
def edgeAt (n : Nat) (i : Int) : Nat := (max 0 (min i ((n : Int) - 1))).toNat

/-- Luma sample of a pool slot's bytes (R591). -/
def poolLuma (w h : Nat) (bs : List Byte) (x y : Int) : Nat := byteField bs (2 * (edgeAt h y * w + edgeAt w x)) 2
/-- Chroma pair of a pool slot's bytes (R591). -/
def poolChroma (w h : Nat) (bs : List Byte) (x y : Int) : Nat × Nat :=
  let o := 2 * w * h + 4 * (edgeAt (h / 2) y * (w / 2) + edgeAt (w / 2) x)
  (byteField bs o 2, byteField bs (o + 2) 2)

/-- n columns of 320 luma samples from (x, y). -/
def lumaCols (w h : Nat) (bs : List Byte) (x y : Int) (n : Nat) : List (List Nat) :=
  (List.range n).map (fun (i : Nat) => (List.range 320).map (fun (j : Nat) => poolLuma w h bs (x + i) (y + j)))
/-- n columns of 160 chroma pairs from (x, y). -/
def chromaCols (w h : Nat) (bs : List Byte) (x y : Int) (n : Nat) : List (List (Nat × Nat)) :=
  (List.range n).map (fun (i : Nat) => (List.range 160).map (fun (j : Nat) => poolChroma w h bs (x + i) (y + j)))

/-- The window fetched whole at the first CTU of row cy: it reaches 256 samples to the left and right of the CTU, and 128
above and below it. -/
def wholeWindow (w h slot : Nat) (bs : List Byte) (cy : Nat) : RefWindow :=
  let y : Int := 64 * cy - 128
  { slot := slot, x := -256, y := y, luma := lumaCols w h bs (-256) y 576, chroma := chromaCols w h bs (-128) (y / 2) 288 }

/-- The window slid right by 64 luma columns: one strip fetched, the leftmost dropped. -/
def slideWindow (w h : Nat) (bs : List Byte) (v : RefWindow) : RefWindow :=
  { v with x := v.x + 64, luma := v.luma.drop 64 ++ lumaCols w h bs (v.x + 576) v.y 64
           chroma := v.chroma.drop 32 ++ chromaCols w h bs (v.x / 2 + 288) (v.y / 2) 32 }

/-- The window of a reference after n CTUs of a picture in raster order. -/
def windowAfter (e : Session) (slot : Nat) (bs : List Byte) (n : Nat) : RefWindow :=
  (List.range n).foldl (fun v i =>
    if i % e.ctuCols = 0 then wholeWindow e.width e.height slot bs (i / e.ctuCols)
    else slideWindow e.width e.height bs v) (wholeWindow e.width e.height slot bs 0)

/-- The windows of the references that a picture uses, read from the pool (R590). -/
def State.fetchWindows (s : State) (e : Session) (coded : List (Nat × List Byte)) (a : Nat) : Except AccErr State := do
  let p : PicTask := ⟨e, s.fld rVcId 31 16, coded, a⟩
  let ws ← ((p.refList 0 ++ p.refList 1).eraseDups).mapM (fun k => do
    let bs ← s.readVa (viaQ 12 (s.ctxOf e.job)) (e.pool + k * e.pslot) (poolBytes e.width e.height)
    pure (windowAfter e k bs (ctus e.width e.height)))
  pure { s with windows := tabPut [] s.windows e.coreNo ws }

/-- MARKS with a code for each pool slot of a session (R592). -/
def marksOf (npool : Nat) (f : Nat → Nat) : Word :=
  (List.range 16).foldl (fun v k => setBits v (4 * k + 3) (4 * k) (if k < npool then f k else 0)) 0#64

/-- The picture coded: windows, bitstream, pool, and the session's fields (R582 to R592). A slot that is referenced is marked
SHORT, since the encoder has no long-term references. -/
def State.encode (s : State) (e : Session) (u : List (Nat × List Byte) × Nat × List Byte × Nat) : Except AccErr State := do
  let ctx := viaQ 12 (s.ctxOf e.job)
  let ucode := s.fld rVcId 31 16
  let (coded, a, bytes, full) := u
  let src ← s.readVa ctx (e.src + e.frameOf e.coded.length % e.nslot * e.slotBytes) e.frameBytes
  let s ← s.fetchWindows e coded a
  let s ← s.writeDir ctx (e.dst + e.bytes) bytes
  let s ← (List.range e.npool).foldlM (fun (t : State) k =>
    t.writeDir ctx (e.pool + k * e.pslot)
      ((List.range (poolBytes e.width e.height)).map (Config.codecPool e.words ucode coded k))) s
  let e' := { e with
    coded := coded, full := full, bytes := e.bytes + bytes.length, pictures := e.pictures + 1,
    reencodes := e.reencodes + (if a = 0 then 0 else 1), fallbacks := e.fallbacks + (if a = 3 then 1 else 0),
    bad := e.bad + e.badSamples src, roi := e.roi + e.roiClamps src,
    done_ := doneOf (coded.map Prod.fst) coded.length 0
    marks := marksOf e.npool (fun k => if Config.codecRef e.words ucode coded k then 2 else 0) }
  let s ← s.putSession e'
  pure (((s.turnSession e').incFld (rVcCore e.coreNo) 63 32 1).incFld (rVcCore e.coreNo) 31 16 a)

/-- Does an access unit pass the bitstream buffer? -/
def Session.overflows (e : Session) (n : Nat) : Bool := decide (e.len < e.bytes + n)

/-! ### Decoding (R566, R577, R593) -/

/-- The whole stream of a decode session. -/
def State.stream (s : State) (e : Session) : Except AccErr (List Byte) := s.readVa (viaQ 12 (s.ctxOf e.job)) e.src e.len

/-- Bit depth of an access unit, 8 or up to 10 (R565). -/
def Session.unitDepth (e : Session) (stream : List Byte) (n : Nat) : Nat := min 10 (Config.decHead e.words stream n).2.2.2.1

/-- One output frame's planes, exact FP16 values of samples below 2^B (R577), cropped to the session's size. -/
def Session.frameCodes (e : Session) (stream : List Byte) (n : Nat) : List Byte :=
  let d := Config.decDims e.words stream n
  let w := min d.1 e.width
  let h := min d.2 e.height
  (List.range (planeBytes w h / 2)).flatMap (fun i =>
    leBytes 2 (convNum .fp16 (numOfInt (Config.decSample e.words stream n i % 2 ^ e.unitDepth stream e.pictures))).1)

/-- Frames that the next access unit outputs: each leaves a pool slot (R592), so no more than NPOOL. -/
def Session.outs (e : Session) (stream : List Byte) : Nat := min (Config.decOut e.words stream e.pictures) e.npool

/-- An access unit of a profile, chroma format, level or size that the core cannot decode, or larger than the record accepts
(R565, R566, R568, R569). -/
def Session.unsupported (e : Session) (stream : List Byte) : Bool :=
  let (prof, chroma, level, depth, w, h, ext) := Config.decHead e.words stream e.pictures
  !(prof == 1 || prof == 2) || chroma != 1 || (levelLimits level false).isNone
  || decide ((if prof = 1 then 8 else 10) < depth ∨ 8192 < w ∨ 4320 < h ∨ e.width < w ∨ e.height < h) || ext

/-- A picture that does not fit the record's slots. -/
def Session.misfits (e : Session) (stream : List Byte) : Bool :=
  let h := Config.decHead e.words stream e.pictures
  decide (e.slotBytes < planeBytes h.2.2.2.2.1 h.2.2.2.2.2.1 ∨ e.pslot < poolBytes h.2.2.2.2.1 h.2.2.2.2.2.1)

/-- The CODE with which the next access unit ends its session (R593), 0 where it is decoded; the parameter sets are judged
first, then the pool, then the rest of the unit. -/
def Session.unitCode (e : Session) (stream : List Byte) : Nat :=
  if e.unsupported stream then 4
  else if e.misfits stream then 6
  else if e.npool < Config.decNeed e.words stream e.pictures then 5
  else if !Config.decSound e.words stream e.pictures then 3
  else 0

/-- Room for the frames that the next access unit outputs (R579). -/
def Session.canOutput (e : Session) (k : Nat) : Bool := decide (e.done_ + k ≤ e.ready + e.nslot)

/-- Bytes that the next access unit takes: at least one, at most what is left. -/
def Session.used (e : Session) (stream : List Byte) : Nat :=
  min (max 1 (Config.decUsed e.words stream e.pictures)) (e.len - e.bytes)

/-- An access unit decoded: its frames output, the pool, and the session's fields. -/
def State.decode (s : State) (e : Session) (stream : List Byte) : Except AccErr State := do
  let ctx := viaQ 12 (s.ctxOf e.job)
  let k := e.outs stream
  let s ← (List.range k).foldlM (fun (t : State) i =>
    let n := e.done_ + i
    t.writeDir ctx (e.dst + n % e.nslot * e.slotBytes) (e.frameCodes stream n)) s
  let s ← (List.range e.npool).foldlM (fun (t : State) p =>
    t.writeDir ctx (e.pool + p * e.pslot)
      ((List.range (poolBytes e.width e.height)).map (Config.decPool e.words stream e.pictures p))) s
  let e' := { e with
    bytes := e.bytes + e.used stream, done_ := e.done_ + k, pictures := e.pictures + 1,
    marks := marksOf e.npool (fun p => Config.decMark e.words stream e.pictures p % 7) }
  let s ← s.putSession e'
  pure ((s.turnSession e').incFld (rVcCore e.coreNo) 63 32 1)

/-! ### Ends (R594) -/

/-- The session ends: STATE 3, or 4 with a CODE; its binding is free, and a decode session that fails sets DONE to its
largest value (R593, R594, R598). -/
def State.endSession (s : State) (e : Session) (code : Nat) : Res :=
  let e' := { e with
    state := if code = 0 then 3 else 4, code := code, core := none,
    done_ := if e.kind = 2 ∧ code ≠ 0 then 2 ^ 64 - 1 else e.done_ }
  match s.putSession e' with
  | .error err => s.codecErr e err
  | .ok t =>
    let t := t.syncCores
    .next (if code = 0 then t
      else t.latch rVcErr (setBits (setBits (setBits 0#64 61 59 e.coreNo) 58 56 code) 55 0 e.block))

/-- ENCODE_PICTURE (R572, R583, R587): encode core i codes the next picture of a session that can go on, or ends the
session whose bitstream buffer has no room for its access unit. -/
def execEncodePicture (i : Fin 2) (s : State) : Res :=
  needSome (s.sessions.find? (fun e => e.kind == 1 && e.canEncode i && s.sessionRuns e)) 572 (fun e =>
    s.coreStep i (match s.nextUnit e with
      | .error err => s.codecErr e err
      | .ok u => if e.overflows u.2.2.1.length then s.endSession e 2 else s.codecGo e (s.encode e u)))

/-- DECODE_PICTURE (R572, R577, R593): decode core 2 + i decodes an access unit of a session that can go on, or ends the
session with the CODE of a unit that it cannot decode. -/
def execDecodePicture (i : Fin 2) (s : State) : Res :=
  needSome (s.sessions.find? (fun e => e.kind == 2 && e.core == some (2 + i.val) && decide (e.state = 1 ∧ e.bytes < e.len)
      && s.sessionRuns e)) 572 (fun e =>
    s.coreStep (2 + i.val) (match s.stream e with
      | .error err => s.codecErr e err
      | .ok st =>
        if e.unitCode st ≠ 0 then s.endSession e (e.unitCode st)
        else if e.canOutput (e.outs st) then s.codecGo e (s.decode e st)
        else s.stalls 579))

/-- A session with READY as its block holds it now. -/
def State.reready (s : State) (e : Session) : Session :=
  match s.readWord (viaQ 12 (s.ctxOf e.job)) e.block with
  | .ok v => { e with ready := v.toNat }
  | .error _ => e

/-- Every well of the job has halted, and the running session still waits on READY as it reads now (R594). -/
def State.incomplete (s : State) (e : Session) : Bool :=
  (match s.job e.job with
    | some x => decide (x.phase = .stopping) && x.status.any (· ≤ 1)
    | none => false)
  && decide (e.state = 1)
  && (if e.kind = 1 then decide ((s.reready e).ready < e.frameOf e.coded.length + 1) else true)

/-- R594: the session ends INCOMPLETE, and its job completes with INTERNAL. -/
def State.endIncomplete (s : State) (e : Session) : Res :=
  ({ s with jobs := s.jobs.modify e.job (fun x => { x with status := some 0x7F }) }).endSession e 1

/-- SESSION_END (R587, R593, R594): session n of job j. -/
def execSessionEnd (j : Nat) (n : Fin 4) (s : State) : Res :=
  needSome (s.sessions.find? (fun e => e.job == j && e.n == n.val && decide (e.state < 3))) 594 (fun e =>
    if e.kind = 1 then
      if e.state = 1 ∧ e.coded.length = e.frames then s.endSession e 0
      else if e.state = 1 ∧ e.canEncode e.coreNo then
        match s.nextUnit e with
        | .error err => s.codecErr e err
        | .ok u => need (e.overflows u.2.2.1.length) 587 (s.endSession e 2)
      else need (s.incomplete e) 594 (s.endIncomplete e)
    else if e.state = 1 ∧ e.bytes = e.len then s.endSession e 0
    else
      match s.stream e with
      | .error err => s.codecErr e err
      | .ok st =>
        if e.unitCode st ≠ 0 ∧ e.state = 1 then s.endSession e (e.unitCode st)
        else need (s.incomplete e && !(s.reready e).canOutput (e.outs st)) 594 (s.endIncomplete e))

/-! ### Pre-emption and rollback (R595, R596) -/

/-- The sessions of a job at job start. -/
def State.openSessions (s : State) (j : Nat) (l : List Session) : State :=
  { s with sessions := s.sessions.filter (fun (e : Session) => e.job != j) ++ l }.syncCores

/-- The sessions of a job paused, or going on (R595). -/
def State.pauseSessions (s : State) (j : Nat) (pause : Bool) : Except AccErr State :=
  (s.sessions.filter (fun e => e.job == j && decide (e.state = (if pause then 1 else 2)))).foldlM
    (fun (t : State) e => t.putSession { e with state := if pause then 2 else 1 }) s

/-- The sessions of a job back at their snapshots (R596): a session keeps its core, and its READY is read again. -/
def State.restoreSessions (s : State) (j : Nat) (l : List Session) : Except AccErr State := do
  let cur (e : Session) : Option Nat :=
    (s.sessions.find? (fun x => x.job == e.job && x.n == e.n)).bind Session.core
  let l' := l.map (fun e => { e with core := if e.state < 3 then cur e else none, ready := 0,
                                     state := if (cur e).isNone && decide (e.state < 3) then 0 else e.state })
  let t := s.openSessions j l'
  l'.foldlM (fun (t : State) e => if e.state = 0 then pure t else t.putSession e) t

end Sys2Proof.Machine
end

