-- ==== Sys2Proof/Machine/Sched.lean ====
section
/-!
DEFINITION. The scheduler (R623 to R628): binding, pre-emption, abort, the end of a job (R615), rollback (R185), and
the rebuilding of jobs after the loss of a well (R774 to R778).
-/

namespace Sys2Proof.Machine

/-! ### Slots, scratch and partitions -/

/-- Does a job hold a slot on well w (R456)? -/
def Job.holdsSlot (x : Job) (w : Nat) : Bool := x.wells.contains w

/-- The lowest free job slot of well w. -/
def State.freeSlot (s : State) (w : Nat) : Option Nat :=
  (List.range 64).find? (fun k => !s.jobs.any (fun x => (x.wells.zip x.slots).contains (w, k)))

/-- Job scratch of well w in MiB (R400). -/
def State.scratchMib (s : State) (w : Nat) : Nat := 5120 - 64 - 64 * tabGet 4 s.caches w

/-- Scratch of well w that no job holding a slot there has declared (R623). -/
def State.scratchFree (s : State) (w : Nat) : Nat :=
  s.scratchMib w - ((s.jobs.filter (fun x => x.holdsSlot w)).map Job.scratch).sum

/-- The lowest free partition number. -/
def State.freePart (s : State) : Option Nat := (List.range 12).find? (fun p => !s.jobs.any (fun x => x.part == some p))

/-- Runs no job; the jobs of `gone` are taken as quiescent. -/
def State.wellFree (s : State) (gone : List Nat) (w : Nat) : Bool := (s.well w).job.elim true gone.contains

/-- A well's state in PM_STATE serves work: W0 or W1 (R703, R704). -/
def State.wellAwake (s : State) (w : Nat) : Bool := decide (s.fld rPmState (3 * w + 2) (3 * w) ≤ 1)

/-- Wells IN_SERVICE. -/
def State.inServiceWells (s : State) : List Nat := (List.range 12).filter s.inService

/-- Wells not LOST (R626). -/
def State.wellsKept (s : State) : Nat :=
  ((List.range 12).filter (fun w => s.fld rWhWellState (2 * w + 25) (2 * w + 24) != 3)).length

/-- The wells on which a job that was never bound would run, n of them (R623). -/
def State.newWells (s : State) (gone : List Nat) (x : Job) (n : Nat) : Option (List Nat) :=
  let l := (List.range 12).filter (fun w =>
    s.inService w && s.wellFree gone w && (s.freeSlot w).isSome && decide (x.scratch ≤ s.scratchFree w))
  if n ≤ l.length ∧ s.freePart.isSome then some (l.take n) else none

/-- Wells that a job binds to: a pre-empted job its own (R623, R625), a job taken over from a checkpoint those that its
header names (R692), another PSIZE wells or, with SHRINK, as many as
are IN_SERVICE when too many are LOST (R626). -/
def State.bindWells (s : State) (gone : List Nat) (x : Job) : Option (List Nat) :=
  if x.phase = .preempted then
    if x.wells.all (fun w => s.inService w && s.wellFree gone w) then some x.wells else none
  else if !x.want.isEmpty then
    if x.want.all (fun w => s.inService w && s.wellFree gone w && (s.freeSlot w).isSome
        && decide (x.scratch ≤ s.scratchFree w)) && s.freePart.isSome then some x.want else none
  else if s.wellsKept < x.psize ∧ s.fld rWhRasCtl 0 0 = 1 then
    let n := s.inServiceWells.length
    if n = 0 then none else s.newWells gone x n
  else s.newWells gone x x.psize

/-! ### The list of waiting jobs (R623, R625, R776) -/

/-- A job in the list. -/
def Job.listed (x : Job) : Bool := decide (x.phase = .waiting ∨ x.phase = .preempted) && x.status.isNone && !x.held

/-- Does job a come before job b? A rebuilt job goes first among its priority and lower. -/
def Job.before (a b : Job) : Bool :=
  decide (b.prio < a.prio) || (decide (a.prio = b.prio) && ((a.rebuild && !b.rebuild)
    || (a.rebuild == b.rebuild && decide (a.order < b.order))))

/-- The first job of the list. -/
def State.firstJob (s : State) : Option Nat :=
  ((List.range s.jobs.length).filter (fun j => (s.job j).elim false Job.listed)).foldl (fun best j =>
    match best with
    | none => some j
    | some b => match s.job j, s.job b with
      | some x, some y => if x.before y then some j else some b
      | _, _ => best) none

/-! ### Starting the controllers of a job -/

/-- The words of a job's program, which the job loader copies through a free wellhead pump (R260, R275, R448). -/
def State.readProgram (s : State) (ctx arg : Nat) : Except AccErr (List Word) :=
  if s.whFree.isNone then .error (.stall 448)
  else if s.missing 12 16 then .error (.stall 441)
  else do
    let p ← s.readWord ctx (arg + 8)
    let l ← s.readWord ctx (arg + 16)
    s.readWords ctx p.toNat (bitsOf l 63 32)

/-- A program loaded into a well's instruction memory. -/
def State.loadImem (s : State) (w : Nat) (ws : List Word) : State :=
  let m := tabDrop (fun k => k / 32768 == w) s.imem
  { s with imem := ws.zipIdx.foldl (fun t e => tabPut 0#64 t (w * 32768 + e.2) e.1) m }

/-- The part of a well that no job owns: its power ramp (R157, R158). -/
def Well.bare (x : Well) : Well := { exitAt := x.exitAt, rampAt := x.rampAt }

/-- The activity ramp of a well starts again: no bobbin is admitted (R158). -/
def State.startRamp (s : State) (w : Nat) : State :=
  let bobs := tabMap {} (fun k b => if k / 136 = w then { b with admitted := false } else b) s.bobs
  { s with bobs := bobs }.setWell w { s.well w with rampAt := some s.now }

/-- A controller at the start of its program (R259). -/
def startCtx (arg rank size w pass : Nat) (resumed : Bool) : CtlCtx :=
  let r (i v : Nat) (t : Tab Word) : Tab Word := tabPut 0#64 t i (BitVec.ofNat 64 v)
  { regs := r 6 resumed.toNat (r 5 pass (r 4 w (r 3 size (r 2 rank (r 1 arg []))))) }

/-- The program of job j started on the well of this rank; `colls` are its collective counts and n its count of FENCE
PARTITION instances. -/
def State.startWell (s : State) (j : Nat) (x : Job) (prog : List Word) (rank w pass : Nat) (resumed : Bool)
    (colls : Tab Nat) (n : Nat) : State :=
  let y := { (s.well w).bare with
    job := some j, ctl := .running, cx := startCtx x.arg rank x.wells.length w pass resumed, plen := prog.length,
    colls := colls, fences := n }
  let k := s.slotOf j w
  let s := ((s.setWell w y).startRamp w).loadImem w prog
  { s.zeroEvents w k with walkRecs := tabDrop (fun e => e / 64 == w * 64 + k) s.walkRecs }

/-! ### Discarding a job's work -/

/-- Everything that runs or waits on well w dropped: bobbins, deques, units, pumps. -/
def State.clearWell (s : State) (w : Nat) : State :=
  let bobs := tabMap {} (fun k b => if k / 136 = w then { b with run := none, leaving := [], storeQ := [] } else b) s.bobs
  let s := { s with bobs := bobs, deques := tabDrop (fun k => k / 128 == w) s.deques,
                    units := tabDrop (fun k => k / 64 == w) s.units }
  (List.range 8).foldl (fun t n => t.freePump w n) (s.setWell w (s.well w).bare)

/-- What the slot of a job on well w holds dropped (R249, R309, R457). -/
def State.clearSlot (s : State) (w k : Nat) : State :=
  { s.clearEvents w k with
    walkRecs := tabDrop (fun e => e / 64 == w * 64 + k) s.walkRecs
    susp := tabDrop (fun e => e == w * 64 + k) s.susp
    savedWells := tabDrop (fun e => e == w * 64 + k) s.savedWells
    savedDeques := tabDrop (fun e => e / 128 == w * 64 + k) s.savedDeques }

/-- The work of a job discarded on every well that it holds a slot on. -/
def State.dropWork (s : State) (j : Nat) (x : Job) : State :=
  let s := (x.wells.zip x.slots).foldl (fun (t : State) e =>
    let t := if (t.well e.1).job = some j then t.clearWell e.1 else t
    t.clearSlot e.1 e.2) s
  { s with splits := s.splits.filter (fun t => t.job != j), reqs := s.reqs.filter (fun q => q.2.job != j),
           ops := s.ops.filter (fun o => o.2.job != j) }

/-- Posts of a job withdrawn before they are made again (R656, R667): its partition records go, others lose its posts. -/
def State.dropPosts (s : State) (j : Nat) : State :=
  let f (c : Coll) : Option Coll :=
    if c.job ≠ some j then some c
    else if c.fence || c.top == 0 then none
    else some { c with posts := [], own := none }
  { s with colls := s.colls.filterMap f, decided := s.decided.filter (fun d => !(d.fence && d.job == some j)) }

/-! ### Starting afresh, or from a checkpoint (R185, R259, R555, R560, R596, R684) -/

/-- Checkpoint areas that may hold a checkpoint of a job. -/
def State.areasOf (s : State) (j : Nat) : List Nat := ((s.saved.filter (fun c => c.job == j)).map CpSaved.area).eraseDups

/-- The last valid checkpoint of a job (R685). -/
def State.lastSaved (s : State) (j : Nat) (x : Job) : Option CpSaved :=
  let ctx := viaQ 12 (s.ctxOf j)
  (s.saved.filter (fun c => c.job == j && s.cpValid ctx x c.area == some c.cpseq)).foldl (fun best c => match best with
    | none => some c
    | some b => if b.cpseq < c.cpseq then some c else some b) none

/-- The copies of a checkpoint's regions brought back. -/
def State.copyBack (s : State) (ctx : Nat) (c : CpSaved) : Except AccErr State :=
  (cpCopies c.area c.list.regions 0).foldlM (fun (t : State) r => do
    let bs ← t.readVa ctx r.2.1 r.2.2
    t.writeDir ctx r.1 bs) s

/-- Collective counts of the well of this rank in a checkpoint. -/
def CpSaved.collsOf (c : CpSaved) (rank : Nat) : Tab Nat := (c.colls.getD rank (c.colls.headD (0, []))).2

/-- One count of FENCE PARTITION instances above every one that the job used (R269). -/
def State.nextFence (s : State) (x : Job) : Nat :=
  ((x.wells.map (fun w => (s.well w).fences)) ++ s.savedWells.map (fun e => e.2.fences)).foldl max 0 + 1

/-- Input records with KIND not 0 (R550, R555). A record that cannot be read is met again by its fill. -/
def State.inputsOf (s : State) (ctx arg : Nat) : Except AccErr (List Nat) :=
  (List.range 4).filterM (fun n => match s.readIn ctx arg n with
    | .ok r => .ok (r.kind != 0)
    | .error (.stall r) => .error (.stall r)
    | .error _ => .ok true)

/-- A bound job starts on its wells from a checkpoint: with its region copies, its codec sessions, and its noise of that pass
(R259, R560, R596, R684). -/
def State.startFrom (s : State) (j : Nat) (x : Job) (prog : List Word) (fence : Nat) (c : CpSaved) : Except AccErr State := do
  let ctx := viaQ 12 (s.ctxOf j)
  let s ← s.copyBack ctx c
  let s ← s.restoreSessions j c.sessions
  let due ← s.noiseDue ctx x.arg true
  let s := s.modJob j (fun y => { y with
    phase := .running, passes := c.cpseq, resumed := true, widened := c.widened, cp := none, noiseP := c.noiseP,
    noiseN := c.noiseN, inputsDue := [], fillsDue := due.map (fillOf c.noiseP), filling := [], layerRung := 0,
    rollback := false, rebuild := false })
  pure (x.wells.zipIdx.foldl (fun t e => t.startWell j x prog e.2 e.1 c.pass true (c.collsOf e.2) fence) s)

/-- A bound job starts afresh on its wells: its pool is homed, and its inputs and noise fall due (R259, R367, R555, R560). -/
def State.startAfresh (s : State) (j : Nat) (x : Job) (prog : List Word) (fence : Nat) : Except AccErr State := do
  let ctx := viaQ 12 (s.ctxOf j)
  let l ← s.readSessions ctx x.arg j
  let s := s.openSessions j l
  let inputs ← s.inputsOf ctx x.arg
  let due ← s.noiseDue ctx x.arg false
  let s := s.modJob j (fun y => { y with
    phase := .running, passes := 0, resumed := false, widened := false, cp := none, noiseP := 0, noiseN := 0,
    inputsDue := inputs, fillsDue := due.map (fillOf 0), filling := [], imgDone := 0, layerRung := 0, rollback := false,
    rebuild := false })
  let s := x.wells.zipIdx.foldl (fun t e => t.startWell j x prog e.2 e.1 0 false [] fence) s
  let s ← s.poolStart j
  pure (if inputs.isEmpty then s.inputsDone j x else s)

/-- A bound job starts on its wells: from its last valid checkpoint, or afresh. One that is bound for the first time with a
checkpoint, which the twin mirrored, has its pool homed first (R367, R692). -/
def State.startJob (s : State) (j : Nat) (x : Job) (first : Bool) : Except AccErr State := do
  let ctx := viaQ 12 (s.ctxOf j)
  let prog ← s.readProgram ctx x.arg
  let fence := s.nextFence x
  let s ← ((s.dropWork j x).dropPosts j).judgeAreas ctx (s.whFree.getD 0) (s.areasOf j)
  match s.lastSaved j x with
  | some c =>
    let s ← (if first then s.poolStart j else pure s)
    s.startFrom j x prog fence c
  | none => s.startAfresh j x prog fence

/-- A start whose reads fail ends the job; one that waits leaves the state as it was before the command. -/
def State.startOr (s orig : State) (j : Nat) (r : Except AccErr State) : Res :=
  match r with
  | .ok t => .next t
  | .error (.stall k) => orig.stalls k
  | .error e => s.headErr j (s.whFree.getD 0) e

/-! ### Binding (R623 to R626) -/

/-- TR_ROOT of a partition (R426). -/
def State.setRoot (s : State) (p root : Nat) (on : Bool) : State :=
  s.setReg (rTrRoot p) (if on then setBits (setBits 0#64 63 63 1) 46 0 (root / 512) else 0#64)

/-- A job bound for the first time: partition, slots, frames. -/
def State.bindNew (s : State) (j : Nat) (x : Job) (wells : List Nat) : Res :=
  needSome s.freePart 623 (fun p =>
    let slots := wells.map (fun w => (s.freeSlot w).getD 0)
    let x' := { x with part := some p, wells := wells, slots := slots, boundAt := s.nextId,
                       free := x.mig.runs x.scratch wells }
    let t := ({ s with nextId := s.nextId + 1 }.modJob j (fun _ => x')).setRoot p x.root true
    t.startOr s j (t.startJob j x' true))

/-- A controller that goes on after pre-emption: a posted collective keeps waiting, another stalled instruction is
issued again (R278). -/
def Well.resumed (x : Well) (bare : Well) : Well :=
  let x := { x with exitAt := bare.exitAt, rampAt := bare.rampAt }
  if x.ctl = .preempted then
    match x.cx.wait with
    | .fencePart true => { x with ctl := .stalled }
    | .coll true => { x with ctl := .stalled }
    | _ => { x with ctl := .running, cx := { x.cx with wait := .none } }
  else x

/-- One well of a pre-empted job goes on from its saved state (R279, R294, R324). -/
def State.resumeWell (s : State) (j : Nat) (prog : List Word) (w k : Nat) : State :=
  let y := (tabGet {} s.savedWells (w * 64 + k)).resumed (s.well w).bare
  let dq := s.savedDeques.filter (fun e => e.1 / 128 == w * 64 + k)
  let deques := dq.foldl (fun t e => tabPut [] t (w * 128 + e.1 % 128) e.2) s.deques
  let s := (({ s with deques := deques }.setWell w { y with job := some j }).startRamp w).loadImem w prog
  { s with savedWells := tabDrop (fun e => e == w * 64 + k) s.savedWells,
           savedDeques := tabDrop (fun e => e / 128 == w * 64 + k) s.savedDeques }

/-- A pre-empted job binds again (R625, R595). -/
def State.rebind (s : State) (j : Nat) (x : Job) : Except AccErr State := do
  let prog ← s.readProgram (viaQ 12 (s.ctxOf j)) x.arg
  let s := { s with nextId := s.nextId + 1 }.modJob j (fun y => { y with phase := .running, boundAt := s.nextId })
  let s := (x.wells.zip x.slots).foldl (fun t e => t.resumeWell j prog e.1 e.2) s
  s.pauseSessions j false

/-- A job that cannot bind any more: too many wells are LOST (R626), or one that it must run on is (R693). -/
def State.bindLost (s : State) (x : Job) : Bool :=
  decide (x.phase = .waiting) && (x.want.any (fun w => s.fld rWhWellState (2 * w + 25) (2 * w + 24) == 3)
    || (x.want.isEmpty && decide (s.wellsKept < x.psize) && s.fld rWhRasCtl 0 0 == 0))

/-- The member starts jobs (R675, R692): it is not stopped. -/
def State.mayBind (s : State) : Bool := s.pairState != 7 && !s.pair.frozen && s.running

/-- JOB_BIND (R623, R625, R626): the first job of the list binds, or ends with UNIT_LOST. Its wells are awake; one in W2
is woken first (R712). -/
def execJobBind (s : State) : Res :=
  needSome s.firstJob 623 (fun j =>
    needSome (s.job j) 623 (fun x =>
      need (!x.rebuild && !x.rollback && s.mayBind) 776 (
        if s.bindLost x then .next (s.failJob j 0x60 0)
        else
          needSome (s.bindWells [] x) 623 (fun wells =>
            need (wells.all s.wellAwake) 712 (
              if x.phase = .preempted then s.startOr s j (s.rebind j x) else s.bindNew j x wells)))))

/-! ### Pre-emption (R624, R627) -/

/-- Running jobs below a priority in the order in which they are pre-empted: lowest priority first, then the most
recently bound (R624). -/
def State.victims (s : State) (prio : Nat) : List Nat :=
  let l := (List.range s.jobs.length).filter (fun j => (s.job j).elim false (fun x =>
    decide ((x.phase = .running ∨ x.phase = .preempting) ∧ x.prio < prio)))
  let key (j : Nat) : Nat × Nat := (s.job j).elim (0, 0) (fun x => (x.prio, x.boundAt))
  l.foldr (fun j acc =>
    let (a, b) := acc.span (fun i => decide ((key i).1 < (key j).1 ∨ ((key i).1 = (key j).1 ∧ (key j).2 < (key i).2)))
    a ++ j :: b) []

/-- The shortest prefix of a list that lets the first job bind; none when not even all of it does. -/
def State.prefixFor (s : State) (x : Job) : List Nat → List Nat → Option (List Nat)
  | _, [] => none
  | gone, j :: rest =>
    let gone := gone ++ [j]
    if (s.bindWells gone x).isSome then some gone else s.prefixFor x gone rest

/-- A pre-emption for another job than the first of the list is under way, for which that one waits (R631). -/
def State.preemptsElse (s : State) : Bool :=
  s.jobs.any (fun y => y.phase == .preempting && !y.rebuild && !y.rollback && y.stopFor != s.firstJob)

/-- The jobs that the scheduler pre-empts now (R624, R631). -/
def State.toPreempt (s : State) : List Nat :=
  match s.firstJob.bind s.job with
  | none => []
  | some x => if (s.bindWells [] x).isSome || s.preemptsElse then [] else (s.prefixFor x [] (s.victims x.prio)).getD []

/-- Stitches stalled in WAITS whose count is not reached go back to the head of their deque (R253), those of a bobbin that
has no logical number any more to the one of R319. -/
def State.withdrawWaits (s : State) (w : Nat) : State :=
  (List.range 136).foldl (fun (t : State) p =>
    let b := t.bob w p
    match b.run with
    | none => t
    | some r =>
      match r.waits with
      | none => t
      | some x =>
        if x.2.1 ≤ t.event r.b.home r.b.slot x.1 then t
        else
          let l := t.logOf w p
          let u := t.setBob w p { b with run := none }
          if l = 0xFF then u.requeue w r.back else u.setDeque w l (r.back :: t.deque w l)) s

/-- Controllers stop at an instruction boundary (R278); those that ended stay so. -/
def State.stopCtl (s : State) (w : Nat) : State :=
  let x := s.well w
  if x.ctl = .running ∨ x.ctl = .stalled then s.setWell w { x with ctl := .preempted } else s

/-- PREEMPTION (R627 orders 1 to 6): of a job that R624 names, or that stops for a rollback or a rebuild (R185, R775). -/
def execPreemption (j : Nat) (s : State) : Res :=
  needSome (s.job j) 627 (fun x =>
    need (decide (x.phase = .running) && (x.rebuild || x.rollback || s.toPreempt.contains j)) 624 (
      let t := s.modJob j (fun y => { y with phase := .preempting, cp := none, stopFor := s.firstJob })
      let t := x.wells.foldl (fun t w => (t.stopCtl w).withdrawWaits w) t
      t.startOr s j (t.pauseSessions j true)))

/-- No stitch, no leaving stitch and no store entry on well w. -/
def State.noStitches (s : State) (w : Nat) : Bool :=
  (List.range 136).all (fun p =>
    let b := s.bob w p
    b.run.isNone && b.leaving.isEmpty && b.storeQ.isEmpty)

/-- Nothing runs on well w any more: bobbins, store queues, units, units of transfers and aquifer entries in flight (R527,
R627). -/
def State.wellStill (s : State) (w : Nat) : Bool :=
  s.noStitches w && (List.range 64).all (fun u =>
    let x := s.unit w u
    x.cur.isNone && x.bobQ.isEmpty && x.opQ.isEmpty && x.combQ.isEmpty)
  && (List.range 8).all (fun n => (s.pump w n).flight.isEmpty)
  && (List.range 12).all (fun k => (s.aqQ k w).isEmpty)

/-- Wells of a job that it is bound to now and that are not LOST. -/
def State.liveWells (s : State) (j : Nat) (x : Job) : List Nat :=
  x.wells.filter (fun w => (s.well w).job == some j && s.fld rWhWellState (2 * w + 25) (2 * w + 24) != 3)

/-- The partition of a job is quiescent, withdrawn WAITS aside (R627 order 8). -/
def State.still (s : State) (j : Nat) (x : Job) : Bool :=
  let t := (s.liveWells j x).foldl State.withdrawWaits s
  (t.liveWells j x).all t.wellStill

/-- A well's state saved in its slot, and the well free (R279, R324, R457). -/
def State.saveWell (s : State) (w k : Nat) : State :=
  let s := (List.range 8).foldl (fun t n => t.suspendPump w n) (s.withdrawWaits w)
  let y := s.well w
  let dq := s.deques.filter (fun e => e.1 / 128 == w)
  let saved := dq.foldl (fun t e => tabPut [] t ((w * 64 + k) * 128 + e.1 % 128) e.2) s.savedDeques
  { s with savedWells := tabPut {} s.savedWells (w * 64 + k) { y with exitAt := none, rampAt := none },
           savedDeques := saved, deques := tabDrop (fun e => e / 128 == w) s.deques }.setWell w y.bare

/-- PARTITION_QUIESCENT (R627 order 8). -/
def execPartitionQuiescent (j : Nat) (s : State) : Res :=
  needSome (s.job j) 627 (fun x =>
    need (decide (x.phase = .preempting) && s.still j x) 627 (
      let s := (x.wells.zip x.slots).foldl (fun (t : State) e =>
        if (t.well e.1).job = some j then t.saveWell e.1 e.2 else t) s
      .next (s.modJob j (fun y => { y with phase := .preempted }))))

/-! ### Rollback (R185, R471) -/

/-- JOB_ROLLBACK (R185): once its partition is quiescent, the job returns to its last valid checkpoint and runs again
on its wells; a pre-empted job does so when it binds. -/
def execJobRollback (j : Nat) (s : State) : Res :=
  needSome (s.job j) 185 (fun x =>
    need (x.rollback && !x.rebuild && x.status.isNone) 185 (
      if x.phase = .preempting ∧ s.still j x ∧ x.wells.all s.wellAwake then s.startOr s j (s.startJob j x false)
      else
        need (decide (x.phase = .preempted) && s.firstJob == some j
          && x.wells.all (fun w => s.inService w && s.wellAwake w && s.wellFree [] w)) 185
          (s.startOr s j (s.startJob j x false))))

/-! ### Loss of a well and rebuilding (R774 to R778) -/

/-- WELL_LOSS (R774): a well is reported LOST with a cause of WH_WELL_LOST. -/
def execWellLoss (w : WellId) (cause : Fin 16) (s : State) : Res :=
  need (decide (1 ≤ cause.val ∧ cause.val ≤ 6) && s.fld rWhWellState (2 * w.val + 25) (2 * w.val + 24) != 3
      && (cause.val != 2 || decide (s.usable w true = 0 ∨ s.usable w false < 64))) 774
    (.next (s.loseWell w cause))

/-- Wells on which a rebuilt job may run: IN_SERVICE, awake, and no other job holds a slot there (R776). -/
def State.rebuildWells (s : State) (j : Nat) : List Nat :=
  s.inServiceWells.filter (fun w => s.wellAwake w
    && (List.range s.jobs.length).all (fun i => i == j || (s.job i).elim true (fun y => !y.holdsSlot w)))

/-- Leaf entries below a table: its address, value, level and page address. -/
def State.leavesBelow (s : State) : List (Nat × Nat × Nat) → Nat → Nat → List (Leaf × Nat)
  | [], _, _ => []
  | (level, lo, bits) :: rest, table, base =>
    (List.range (2 ^ bits)).flatMap (fun i =>
      let a := table + 16 * i
      match unguard64 (BitVec.ofNat 128 (leVal (s.rawRead ⟨.reservoir, a⟩ 16))) with
      | none => []
      | some v =>
        if bitsOf v 63 62 = 1 then s.leavesBelow rest (bitsOf v 46 0 * 512) (base + i * 2 ^ lo)
        else if bitsOf v 63 62 = 2 then [(⟨a, v, level⟩, base + i * 2 ^ lo)]
        else [])

/-- The cistern leaves of a job, with their wells. -/
def State.cisternLeaves (s : State) (root : Nat) : List (Leaf × Nat × Nat) :=
  (s.leavesBelow ptLevels root 0).filterMap (fun e => match leafTier e.1.val with
    | some (.cistern w) => some (e.1, e.2, w)
    | _ => none)

/-- One leaf rewritten (R777): to the new well of its rank, or to a reservoir frame; none without a frame. The page is
undefined. -/
def rewriteLeaf (j : Nat) (old new_ : List Nat) (acc : Option State) (e : Leaf × Nat × Nat) : Option State :=
  match acc with
  | none => none
  | some s =>
    let (l, _, w) := e
    let size := l.page
    let r := old.idxOf w
    match new_[r]? with
    | some v =>
      if v = w then some s
      else some ((s.setLeaf l.at_ (leafPlace l.val ⟨.cistern v, leafFrame l.val⟩)).undefine ⟨.cistern v, leafFrame l.val⟩ size)
    | none =>
      match s.job j with
      | none => none
      | some x =>
        match x.takeFrame .reservoir size with
        | none => none
        | some (loc, x') =>
          let s := ((s.modJob j (fun _ => x')).setLeaf l.at_ (leafPlace l.val loc)).undefine loc size
          some (if leafPool l.val then s.kvcMove (s.ctxOf j) (.cistern w) .reservoir else s)

/-- Free cistern frames follow the ranks of their wells. -/
def moveFree (old new_ : List Nat) (l : List (Loc × Nat)) : List (Loc × Nat) :=
  l.filterMap (fun e => match e.1.tier with
    | .cistern w => (new_[old.idxOf w]?).map (fun v => (⟨.cistern v, e.1.addr⟩, e.2))
    | _ => some e)

/-- JOB_REBUILD (R776, R777). -/
def execJobRebuild (j : Nat) (s : State) : Res :=
  needSome (s.job j) 776 (fun x =>
    need (x.rebuild && x.status.isNone
        && ((decide (x.phase = .preempting) && s.still j x)
          || (decide (x.phase = .preempted) && s.firstJob == some j))) 776 (
      let l := s.rebuildWells j
      let n := if x.psize ≤ l.length then x.psize else if s.fld rWhRasCtl 0 0 = 1 then l.length else 0
      if n = 0 then .next (s.failJob j 0x60 0)
      else
        let wells := l.take n
        let t := (s.dropWork j x).tlbCtx (s.ctxOf j)
        match (t.cisternLeaves x.root).foldl (rewriteLeaf j x.wells wells) (some t) with
        | none => .next (s.failJob j 0x60 0)
        | some t =>
          let t := t.modJob j (fun y => { y with wells := [], slots := [], free := moveFree x.wells wells y.free })
          let slots := wells.map (fun w => (t.freeSlot w).getD 0)
          let t := { t with nextId := t.nextId + 1 }.modJob j (fun y => { y with
            wells := wells, slots := slots, boundAt := t.nextId })
          needSome (t.job j) 776 (fun y => t.startOr s j (t.startJob j y false))))

/-! ### Abort (R628) -/

/-- QUEUE_ABORT (R628): the value written to Q_ABORT with OP 1. -/
def execQueueAbort (v : Word) (s : State) : Res :=
  need (bitOf v 60) 628 (
    let s := s.setReg rQAbort (v &&& 0x0FFFC000FFFFFFFF#64)
    let hit (x : Job) : Bool :=
      x.queue == bitsOf v 51 46 && x.gen == bitsOf v 59 52 && x.seq == bitsOf v 31 0 && x.status.isNone
      && decide (x.phase = .waiting ∨ x.phase = .running ∨ x.phase = .preempting ∨ x.phase = .preempted)
    .next (match s.jobs.findIdx? hit with
      | some j => s.failJob j 0x50 0
      | none => s.setFld rQAbort 62 61 1))

/-! ### The end of a job (R432, R465, R543, R615) -/

/-- The translations of a partition's context invalidated, its walks' results discarded from now on, and its pool no longer
counted (R373, R426, R447). -/
def State.freeCtx (s : State) (p : Nat) : State :=
  (((s.tlbCtx p).dropMisses p).setRoot p 0 false).setReg (rMgKvcTier p) 0#64

/-- A job gives back everything it holds, its moves being over. -/
def State.giveBack (s : State) (j : Nat) (x : Job) : State :=
  let s := x.wells.foldl (fun t w => t.flushCache w) s
  let s := (((s.dropWork j x).dropPosts j).modJob j (fun y => { y with locked := [] })).unlock x.locked
  let s := x.part.elim s s.freeCtx
  let s := { s with colls := s.colls.filter (fun c => c.job != some j), saved := s.saved.filter (fun c => c.job != j) }
  let s := s.openSessions j []
  s.modJob j (fun y => { y with wells := [], slots := [], part := none, locked := [], free := [], cp := none })

/-- A job is released once its moves past order 2 are complete (R432, R465, R543); the rule under which one still waits. -/
def State.release_ (s : State) (j : Nat) (x : Job) : Except Nat State := do
  let s := (s.liveWells j x).foldl State.withdrawWaits s
  let s ← s.endMoves j
  pure (s.giveBack j x)

/-- The COMMIT record of a job (R613). -/
def Job.commitRec (x : Job) (tb : Nat) : JRec :=
  { kind := 2, queue := x.queue, gen := x.gen, seq := x.seq, tb := tb, status := x.status.getD 0, reason := x.reason,
    widened := x.widened, passes := x.passes, addr := x.addr }

/-- All of a job's work is over (R543, R594, R628, R651, R670): its wells are still, no frame of it is outstanding, and
when it completed its sessions have ended and its image is written. -/
def State.workOver (s : State) (j : Nat) (x : Job) : Bool :=
  s.still j x && !s.linkBusy j
  && (x.status.all (fun c => decide (1 < c)) || (s.sessions.all (fun e => e.job != j || decide (3 ≤ e.state))
    && (match s.readImg (viaQ 12 (s.ctxOf j)) x.arg with
      | .ok (some r) => decide (r.len ≤ x.imgDone)
      | .ok none => true
      | .error _ => false)))

/-- Sessions of a job that ends by a failure end too (R599). -/
def State.stopSessions (s : State) (j : Nat) : State :=
  (s.sessions.filter (fun e => e.job == j && decide (e.state < 3))).foldl (fun t e =>
    match t.putSession { e with state := 4, core := none } with
    | .ok u => u
    | .error _ => t) s

/-- The COMPLETE entry of a job (R614). -/
def Job.completeEntry (x : Job) (tb : Nat) : CEntry :=
  { typ := 2, widened := x.widened, gen := x.gen, status := x.status.getD 0, reason := x.reason, seq := x.seq,
    queue := x.queue, addr := x.addr, passes := x.passes, tbAccept := x.tbAccept, tbEnd := tb }

/-- The first half of a job's end: the job releases what it holds, and its COMMIT record joins the journal (R615) and,
in pair mode, the mirror with the entry that follows it (R680). A member that is SYNCING sends the record too, since its
ACCEPT record is at the twin. -/
def State.endJob (s : State) (j : Nat) (x : Job) : Except Nat State := do
  let s ← (s.stopSessions j).release_ j x
  let r := x.commitRec s.now
  let s := (s.record r).modJob j (fun y => { y with phase := .ended, commitMirrored := !s.inSync })
  pure (if s.inSync then s.promise r (x.completeEntry s.now)
    else if s.pairState = 2 then s.tell (.journal r none)
    else s)

/-- The second half: the COMPLETE entry, once the COMMIT record is durable and mirrored (R614, R615); the record's mirror
carried it (R681). -/
def State.completeJob (s : State) (j : Nat) (x : Job) : State :=
  let tb := (s.jn.find 2 x.queue x.gen x.seq).elim s.now JRec.tb
  (s.modJob j (fun y => { y with phase := .committed })).settleEntry (x.completeEntry tb)

end Sys2Proof.Machine
end

