-- ==== Sys2Proof/Machine/LoadCode.lean ====
section
/-!
DEFINITION. The job loader on code: findings and their precedence (R304, R305), C-class programs (R167, R179 to R184,
R265), and stitch templates at every rung and parity (R170, R172, R196 to R250).
-/

namespace Sys2Proof.Machine

/-! ### Findings -/

/-- What the job loader finds: 0 a guarded word that mismatches, 1 a word that reads uncorrectable, 2 a failed check,
3 a page that it must wait for, with the rule of the wait as code (R304, R305); `err` is the access that failed. -/
structure Find where
  cls : Nat
  code : Nat
  addr : Nat
  err : Option AccErr := none
deriving DecidableEq, Repr

/-- A check that fails. -/
def fails (c : Bool) (code addr : Nat) : List Find := if c then [{ cls := 2, code := code, addr := addr }] else []

/-- The finding of an access that fails in a word of reason group g (R305, R427). -/
def AccErr.find (g : Nat) (e : AccErr) : Find :=
  let (cls, code) := match e with
    | .trans 0x9 _ _ _ => (0, g)
    | .trans 0xA _ _ _ => (1, g)
    | .trans _ _ _ _ => (2, 0x02)
    | .tier _ _ _ => (1, g)
    | .guard _ => (0, g)
    | .stall r => (3, r)
  { cls := cls, code := code, addr := e.va, err := some e }

/-- Address of the table entry of a level on the walk of va from a table of the listed levels. -/
def State.entryOn (s : State) (va level : Nat) : List (Nat × Nat × Nat) → Nat → Nat
  | [], a => a
  | (l, lo, bits) :: rest, table =>
    let a := table + 16 * (va / 2 ^ lo % 2 ^ bits)
    if l = level then a
    else s.entryOn va level rest (bitsOf (BitVec.ofNat 64 (leVal (s.rawRead ⟨.reservoir, a⟩ 8))) 46 0 * 512)

/-- A finding in a page-table entry carries that entry's address: its place in the reservoir, since an entry has no device
virtual address (R305; log entry 112). -/
def State.placeFind (s : State) (root : Nat) (f : Find) : Find :=
  match f.err with
  | some (.trans k level va _) =>
    if k = 0x9 ∨ k = 0xA then { f with addr := s.entryOn va level ptLevels root } else f
  | _ => f

/-- A word read for reason group g, and the checks on it. -/
def ldRead {α : Type} (g : Nat) (r : Except AccErr α) (k : α → List Find) : List Find :=
  match r with
  | .ok a => k a
  | .error e => [e.find g]

/-- What reading n bytes for reason group g finds, page by page. -/
def State.readFinds (s : State) (ctx g va n : Nat) : List Find :=
  (runsOf va n).flatMap (fun r => ldRead g (s.readVa ctx r.1 r.2) (fun _ => []))

/-- Bytes under one table entry of a level (R429). -/
def levelBlock (level : Nat) : Nat :=
  match level with
  | 3 => 2 ^ 45
  | 2 => 2 ^ 33
  | 1 => 2 ^ 21
  | _ => 2 ^ 16

/-- The fault of one address for a read or a write in a context, without reading it, and the bytes of the aligned block that
shares it (R427, R430, R434, R435). -/
def State.mapErr (s : State) (ctx va : Nat) (write : Bool) : Option AccErr × Nat :=
  match s.leafOf ctx va write with
  | .error e => (some e, match e with
    | .trans 0x2 _ _ _ => 2 ^ 56
    | .trans 0x1 _ _ _ => 2 ^ 16
    | .trans _ level _ _ => if (s.rootOf ctx).isNone then 2 ^ 56 else levelBlock level
    | _ => 2 ^ 16)
  | .ok l =>
    (if s.isolated ctx l then some (.trans 0x5 l.level va write)
      else if !write && !bitOf l.val 58 then some (.trans 0x6 l.level va write)
      else if write && !bitOf l.val 57 then some (.trans 0x7 l.level va write)
      else if write && bitOf l.val 55 then some (.trans 0x8 l.level va write)
      else none, l.page)

/-- The faults of the addresses from va up to `stop`, the lowest of each block that shares one. -/
def State.mapErrs (s : State) (ctx : Nat) (write : Bool) : Nat → Nat → Nat → List AccErr
  | 0, _, _ => []
  | fuel + 1, va, stop =>
    if stop ≤ va then []
    else
      let e := s.mapErr ctx va write
      e.1.toList ++ s.mapErrs ctx write fuel (va / e.2 * e.2 + e.2) stop

/-- A range is mapped to the job (R304, 0x02): where it is not, and the table entries that cannot be read. -/
def State.mapped (s : State) (ctx va n : Nat) (write : Bool) : List Find :=
  (s.mapErrs ctx write (n / 65536 + 2) va (va + n)).map (AccErr.find 0x02)

/-! ### C-class programs -/

/-- A C-class word at index i of a program of n words fails R167, R179, R180, R183, R184 or R265. -/
def progBad (i n : Nat) (w : Word) : Bool :=
  match cKind w with
  | none => true
  | some k =>
    let target := (i : Int) + cOfs w
    decide (k = .beq ∨ k = .bne ∨ k = .blt ∨ k = .bge ∨ k = .bltu ∨ k = .bgeu ∨ k = .jal)
      && decide (target < 0 ∨ (n : Int) ≤ target)

/-- The program's checks. -/
def progFinds (addr : Nat) (ws : List Word) : List Find :=
  ws.zipIdx.flatMap (fun e => fails (progBad e.2 ws.length e.1) 0x03 (addr + 8 * e.2))

/-- A program of n words read, and its checks where it reads whole. -/
def State.codeFinds (s : State) (ctx addr n : Nat) : List Find :=
  let l := s.readFinds ctx 0x03 addr (8 * n)
  if l.isEmpty then ldRead 0x03 (s.readWords ctx addr n) (progFinds addr) else l

/-! ### Templates -/

/-- A stitch template (R170). -/
structure Tmpl where
  addr : Nat
  hdr : Word
  words : List Word
deriving DecidableEq, Repr

/-- A template read whole. -/
def State.readTmpl (s : State) (ctx addr : Nat) : Except AccErr Tmpl := do
  let h ← s.readWord ctx addr
  let ws ← s.readWords ctx (addr + 8) (hdrPro h + hdrBody h + hdrEpi h)
  pure { addr := addr, hdr := h, words := ws }

/-- A template's alignment (R170), and what reading it finds. -/
def State.tmplFinds (s : State) (ctx addr : Nat) : List Find :=
  fails (addr % 64 != 0) 0x01 addr
  ++ ldRead 0x04 (s.readWord ctx addr) (fun h => s.readFinds ctx 0x04 (addr + 8) (8 * (hdrPro h + hdrBody h + hdrEpi h)))

/-- BORDER of a template. -/
def Tmpl.border (t : Tmpl) : Bool := bitOf t.hdr 22

/-- Does the layout of this opcode hold a format in bits [55:52]; in bits [51:48]? -/
def fmtCode (w : Word) (code : Nat) : Bool :=
  let two := opOf w == 0x08 || opOf w == 0x0A
  if code = 0 then
    two || [0x01, 0x02, 0x0B, 0x10, 0x11, 0x12, 0x13, 0x14, 0x18, 0x19, 0x28].contains (opOf w)
  else code == 1 && two

/-- A format code put in a field. -/
def setFmt (w : Word) (code v : Nat) : Word := if code = 0 then setBits w 55 52 v else setBits w 51 48 v

/-- A word as it is read d rungs up (R182). -/
def widened (marks : List (Nat × Nat)) (d idx : Nat) (w : Word) : Word :=
  [0, 1].foldl (fun w c => if marks.contains (idx, c) && fmtCode w c then
    (match Fmt.ofCode (fmtBits w c) with
      | some f => setFmt w c (f.up d).code
      | none => w) else w) w

/-- A reserved format code in a format field (R72, R180). -/
def fmtBad (w : Word) : Bool := [0, 1].any (fun c => fmtCode w c && !okFmt (fmtBits w c))

/-- The kind of a word, its format fields and TSC aside, which have checks of their own. -/
def loadKind (w : Word) : Option TKind :=
  let w := [0, 1].foldl (fun w c => if fmtCode w c && !okFmt (fmtBits w c) then setFmt w c 8 else w) w
  tKind (if opOf w = 0x0B then setBits w 28 27 0 else w)

/-- The ALT bit of a word. -/
def altBit (w : Word) : Bool :=
  match opOf w with
  | 0x01 | 0x02 => bitOf w 43
  | 0x08 | 0x0A => bitOf w 27
  | 0x0B => bitOf w 29
  | 0x18 | 0x19 => bitOf w 39
  | _ => if 0x10 ≤ opOf w ∧ opOf w ≤ 0x28 then bitOf w 24 else false

/-- Bytes of n elements. -/
def fmtBytes (f : Fmt) (n : Nat) : Nat := (n * f.width + 7) / 8

/-- Rows of row groups and column groups of a set (R212): 64 × g rows by 128 × h columns. -/
def setDims (za zn : Nat) (col : Bool) : Nat × Nat :=
  if col then (zn, 1) else if za % 4 + zn ≤ 4 then (1, zn) else (zn / 4, 4)

/-- R212: one row group, or whole row groups, within the accumulators. -/
def rectOk (za zn : Nat) : Bool := decide (za % 4 + zn ≤ 4 ∨ (za % 4 = 0 ∧ zn % 4 = 0)) && decide (za + zn ≤ 16)

/-- R202: a region of rows by KBLK blocks from an accumulator slot. -/
def regionOk (za rows kb : Nat) : Bool :=
  decide (rows ≤ 256 ∧ kb ≤ 16 ∧ za % 4 + (kb * 32 + 127) / 128 ≤ 4 ∧ za / 4 + (rows + 63) / 64 ≤ 4)

/-- Operand-slot ranges of a word: slot field, bytes, whether it writes them (R135, R193, R207, R210, R213, R216,
R219, R229 to R245, R357, R360). -/
def slotUse (w : Word) : List (Nat × Nat × Bool) :=
  let za := bitsOf w 47 44
  let zn := bitsOf w 43 40 + 1
  let f := wFmt w 0
  let ps1 := bitsOf w 39 35
  let ps2 := bitsOf w 34 30
  let pd := bitsOf w 29 25
  match loadKind w with
  | some .ldt =>
    let n := (bitsOf w 40 32 + 1) * (bitsOf w 31 23 + 1)
    [(bitsOf w 48 44, if bitOf w 42 then n else fmtBytes f (32 * n), true)]
  | some .mma =>
    let kb := bitsOf w 6 0 + 1
    let m := bitsOf w 23 16 + 1
    let n := bitsOf w 15 7 + 1
    let g := wFmt w 1
    [(bitsOf w 47 43, fmtBytes f (m * kb * 32), false), (bitsOf w 37 33, fmtBytes g (n * kb * 32), false)]
    ++ (if f.twoLevel then [(bitsOf w 42 38, m * kb, false)] else [])
    ++ (if g.twoLevel then [(bitsOf w 32 28, n * kb, false)] else [])
  | some .cvt =>
    let n := bitsOf w 15 0 + 1
    let g := wFmt w 1
    [(bitsOf w 47 43, fmtBytes f (32 * n), false), (bitsOf w 37 33, fmtBytes g (32 * n), true)]
    ++ (if f.twoLevel then [(bitsOf w 42 38, n, false)] else [])
    ++ (if g.twoLevel then [(bitsOf w 32 28, n, true)] else [])
  | some .qnt =>
    let n := zn * 8192
    [(bitsOf w 39 35, fmtBytes f n, true)] ++ (if f.twoLevel then [(bitsOf w 34 30, n / 32, true)] else [])
  | some .addv | some .recon => [(ps1, fmtBytes f 512, false)]
  | some .pst => [(ps1, fmtBytes f ((bitsOf w 20 12 + 1) * 32 * (bitsOf w 11 3 + 1)), false)]
  | some .bas => (ps1, fmtBytes f 512, false) :: (if bitOf w 3 then [(ps2, fmtBytes f 512, false)] else [])
  | some .conv =>
    let gh := setDims za zn (bitOf w 20)
    (ps1, fmtBytes f 1024, false)
      :: (if bitOf w 3 then [(ps2, fmtBytes f (64 * gh.1 * (128 * gh.2)), false)] else [])
  | some (.red _) => [(pd, 4 * (if bitOf w 0 then 512 else 256), true)]
  | some (.smx _) => [(pd, 3072, true)]
  | some .bias => [(ps1, 32768, false), (ps2, 128, false)]
  | some .gat => [(bitsOf w 48 44, 64, false)]
  | some .sct =>
    if bitOf w 43 then []
    else [(bitsOf w 48 44, fmtBytes f ((bitsOf w 31 23 + 1) * 32 * (bitsOf w 22 14 + 1)), false)]
  | _ => []

/-- The slots of a range, offset by ALT on an odd chunk (R172). -/
def useSlots (w : Word) (alt : Nat) (odd : Bool) (u : Nat × Nat × Bool) : List Nat :=
  let o := if odd && altBit w then alt else 0
  (List.range ((max u.2.1 1 + 32767) / 32768)).map (fun i => u.1 + o + i)

/-- Accumulator slots that an instruction other than MMA and ZCLR reads or writes (R205, R227). -/
def accUse (w : Word) : List Nat :=
  let za := bitsOf w 47 44
  let zn := bitsOf w 43 40 + 1
  let set := accSet za zn (bitOf w 20)
  match loadKind w with
  | some .stt => rectSlots za (bitsOf w 40 32 + 1) (32 * (bitsOf w 31 23 + 1))
  | some .qnt => accSet za zn false
  | some .sct => if bitOf w 43 then rectSlots za (bitsOf w 31 23 + 1) (32 * (bitsOf w 22 14 + 1)) else []
  | some .gate => set ++ set.map (· + bitsOf w 7 4)
  | some (.smx 2) => set ++ set.map (· + bitsOf w 3 0)
  | some (.smx 1) | some .addv | some .bas | some .conv | some .recon | some (.sfn _) | some (.red _)
  | some .bias => set
  | some .guard => [za]
  | _ => []

/-! ### The vector instructions (R226, R229) -/

/-- A shifted set is in range and off its set (R231, R246). -/
def shiftOk (set : List Nat) (d : Nat) : Bool :=
  decide (d ≠ 0) && set.all (fun n => decide (n + d ≤ 15) && !set.contains (n + d))

/-- The checks of one vector instruction that reach past what a bobbin decodes: R229, R231, R236, R246, R339 (0x04), with the
descriptor that PST writes through, and R226 (0x09). -/
def vecFinds (k : TKind) (u : VecUse) (w : Word) (td : Option TDesc) (a : Nat) : List Find :=
  let f := wFmt w 0
  let za := bitsOf w 47 44
  let zn := bitsOf w 43 40 + 1
  let set := accSet za zn (bitOf w 20)
  let own := match k with
    | .gate => !shiftOk set (bitsOf w 7 4)
    | .smx 2 => !shiftOk set (bitsOf w 3 0)
    | .pst => td.any (fun d => decide (d.fmt ≠ f))
    | _ => false
  fails (vecUnused k u w || vecFmtBad k f (bitOf w 0) || vecCodeBad k w || own) 0x04 a
  ++ fails (u.set && !(if bitOf w 20 then decide (za + 4 * (zn - 1) ≤ 15) else rectOk za zn)) 0x09 a

/-! ### One instruction at one rung -/

/-- Descriptor registers that a word names (R170). -/
def wordRegs (k : TKind) (w : Word) : List Nat :=
  match k with
  | .ldt | .stt => [bitsOf w 51 49]
  | .cvt => if (wFmt w 1).twoLevel then [bitsOf w 26 24] else []
  | .qnt => if bitsOf w 28 27 = 0 then [bitsOf w 51 49] else []
  | .pst => [bitsOf w 23 21]
  | .gat | .sct => [bitsOf w 51 49, bitsOf w 42 40]
  | _ => []

/-- Does a descriptor hold a two-level format; unknown ones pass? -/
def descTwo (d : Option TDesc) : Bool := d.all (fun d => d.fmt.twoLevel)

/-- The checks of one instruction at address a, its format fields as the rung has them, `desc` the descriptors bound to
its registers: R167, R179, R180 with the reserved format codes, R209, R250 (0x04), R200, R203, R206, R211, R214 to R219
(0x05), R202, R212 (0x09). -/
def instrFinds (t : Tmpl) (desc : Nat → Option TDesc) (a : Nat) (w : Word) : List Find :=
  let f := wFmt w 0
  let g := wFmt w 1
  let td := desc (bitsOf w 51 49)
  let td2 := desc (bitsOf w 42 40)
  let same (d : Option TDesc) (f : Fmt) : Bool := d.all (fun d => decide (d.fmt = f))
  let scales : Bool := match loadKind w with
    | some .mma | some .cvt => (!f.twoLevel && bitsOf w 42 38 != 0) || (!g.twoLevel && bitsOf w 32 28 != 0)
    | some .qnt => !f.twoLevel && bitsOf w 34 30 != 0
    | _ => false
  fails (fmtBad w || scales) 0x04 a ++
  match loadKind w with
  | none => fails true 0x04 a
  | some k =>
    fails ((wordRegs k w).any (fun r => decide (hdrNtd t.hdr ≤ r))) 0x04 a ++
    match k with
    | .ldt => fails (bitOf w 42 && !f.twoLevel) 0x05 a
    | .stt =>
      fails (!regionOk (bitsOf w 47 44) (bitsOf w 40 32 + 1) (bitsOf w 31 23 + 1)) 0x09 a ++ fails (!same td f) 0x05 a
    | .mma =>
      fails (decide (f = .fp32 ∨ f = .i32 ∨ g = .fp32 ∨ g = .i32)) 0x05 a
    | .zclr => fails (bitsOf w 15 0 == 0) 0x04 a
    | .cvt =>
      let ranges (wr : Bool) : List Nat := ((slotUse w).filter (fun u => u.2.2 == wr)).flatMap (useSlots w 0 false)
      fails ((if g.twoLevel then !descTwo (desc (bitsOf w 26 24)) else bitsOf w 26 24 != 0)
          || (ranges false).any (ranges true).contains) 0x05 a
    | .qnt =>
      let tsc := bitsOf w 28 27
      fails (!rectOk (bitsOf w 47 44) (bitsOf w 43 40 + 1)) 0x09 a
      ++ fails (decide (2 ≤ tsc) || (!f.twoLevel && tsc != 1) || (tsc == 0 && !descTwo td)) 0x05 a
    | .gat =>
      fails (bitsOf w 12 0 != 0) 0x04 a
      ++ fails (bitOf w 43 || !same td f || !same td2 f
          || (f.twoLevel && decide (td.map TDesc.tsaddr ≠ td2.map TDesc.tsaddr))) 0x05 a
    | .sct =>
      fails (bitsOf w 3 0 != 0 || (bitOf w 43 && bitOf w 48)) 0x04 a
      ++ fails (!same td f || !same td2 .i32 || (!bitOf w 43 && f.twoLevel)) 0x05 a
      ++ fails (bitOf w 43 && !regionOk (bitsOf w 47 44) (bitsOf w 31 23 + 1) (bitsOf w 22 14 + 1)) 0x09 a
    | .sig => fails (bitsOf w 31 0 == 0) 0x04 a
    | k =>
      match vecUse k w with
      | some u => vecFinds k u w (desc (bitsOf w 23 21)) a
      | none => []

/-- Slots past P31 in either parity (R135, R172), and a product whose operands and block-scale arrays need more than 32 slots
in all (R143). -/
def slotFinds (t : Tmpl) (a : Nat) (w : Word) : List Find :=
  let need := ((slotUse w).map (fun u => (useSlots w 0 false u).length)).sum
  fails ([false, true].any (fun odd => (slotUse w).any (fun u =>
    (useSlots w (hdrAlt t.hdr) odd u).any (fun n => decide (32 ≤ n))))
    || (decide (loadKind w = some .mma) && decide (32 < need))) 0x09 a

/-! ### Across the instructions of a rung (R196, R200, R205) -/

/-- What a pass over a template has seen: the scale source and the last LDT (SC, and its word without slot and SC) of
each operand slot, scaled accumulators, and the scale sources that the A and B operands of its products read. -/
structure Pass where
  src : Tab (Option Nat) := []
  ldt : Tab (Option (Bool × Word)) := []
  scaled : List Nat := []
  a : List Nat := []
  b : List Nat := []
  finds : List Find := []
deriving DecidableEq, Repr

/-- Slots given a source and an LDT. -/
def Pass.fill (p : Pass) (ns : List Nat) (src : Nat) (l : Option (Bool × Word)) : Pass :=
  { p with src := ns.foldl (fun t n => tabPut none t n (some src)) p.src
           ldt := ns.foldl (fun t n => tabPut none t n l) p.ldt }

/-- R200 for one operand of an MMA: no load of its element slots differs from a load of its block-scale slots. -/
def Pass.pairBad (p : Pass) (f : Fmt) (el sc : List Nat) : Bool :=
  f.twoLevel && el.any (fun e => sc.any (fun c =>
    match tabGet none p.ldt e, tabGet none p.ldt c with
    | some (false, x), some (true, y) => (wFmt x 0).twoLevel && decide (x ≠ y)
    | _, _ => false))

/-- One instruction of a pass, `reg` the binding of a register as far as sources go. -/
def Pass.step (t : Tmpl) (reg : Nat → TReg) (p : Pass) (odd : Bool) (a : Nat) (w : Word) : Pass :=
  let o := if odd && altBit w then hdrAlt t.hdr else 0
  let written := ((slotUse w).filter (fun u => u.2.2)).flatMap (useSlots w (hdrAlt t.hdr) odd)
  match loadKind w with
  | some .ldt =>
    p.fill written ((reg (bitsOf w 51 49)).source (wFmt w 0))
      (some (bitOf w 42, setBits (setBits w 48 44 0) 42 42 0))
  | some .cvt =>
    p.fill written (if (wFmt w 1).twoLevel then (reg (bitsOf w 26 24)).desc.tsaddr else 0) none
  | some .qnt =>
    p.fill written (if bitsOf w 28 27 = 0 ∧ (wFmt w 0).twoLevel then (reg (bitsOf w 51 49)).desc.tsaddr else 0) none
  | some .mma =>
    let sa := bitsOf w 47 43 + o
    let sb := bitsOf w 37 33 + o
    let zs := rectSlots 0 (bitsOf w 23 16 + 1) (bitsOf w 15 7 + 1)
    let kb := bitsOf w 6 0 + 1
    let pair (f : Fmt) (n el sc : Nat) : Bool :=
      let at_ (slot bytes : Nat) : List Nat := useSlots w (hdrAlt t.hdr) odd (slot, bytes, false)
      p.pairBad f (at_ el (fmtBytes f (n * kb * 32))) (at_ sc (n * kb))
    let bad := pair (wFmt w 0) (bitsOf w 23 16 + 1) (bitsOf w 47 43) (bitsOf w 42 38)
      || pair (wFmt w 1) (bitsOf w 15 7 + 1) (bitsOf w 37 33) (bitsOf w 32 28)
    let a' := p.a ++ (tabGet none p.src sa).toList
    let b' := p.b ++ (tabGet none p.src sb).toList
    let differ (l : List Nat) : Bool := l.any (fun x => x != l.headD 0)
    { p with a := a', b := b', finds := p.finds ++ fails bad 0x05 a ++ fails (differ a' || differ b') 0x0D a
        ++ fails (zs.any p.scaled.contains) 0x0E a }
  | some .zclr => { p with scaled := p.scaled.filter (fun n => !bitOf w n) }
  | _ => { p with scaled := p.scaled ++ accUse w }

/-- Instruction indexes of a template in the order of its running with the parity of the chunk, from first repetition i0
for n repetitions; past the fourth the body repeats what the passes before it did. -/
def Tmpl.order (t : Tmpl) (i0 n : Nat) : List (Nat × Bool) :=
  let pro := hdrPro t.hdr
  let body := hdrBody t.hdr
  let odd (i : Nat) : Bool := (i0 + i) % 2 == 1
  let m := if body = 0 then 0 else if n ≤ 5 then n else 4 + n % 2
  (List.range pro).map (fun i => (i, odd 0))
  ++ (List.range m).flatMap (fun r => (List.range body).map (fun i => (pro + i, odd r)))
  ++ (List.range (hdrEpi t.hdr)).map (fun i => (pro + body + i, odd (n - 1)))

/-- One pass over a template at rung d. -/
def Tmpl.pass (t : Tmpl) (reg : Nat → TReg) (marks : List (Nat × Nat)) (d i0 n : Nat) : List Find :=
  ((t.order i0 n).foldl (fun p e =>
    p.step t reg e.2 (tmplAddr t.addr e.1) (widened marks d e.1 (t.words.getD e.1 0#64))) ({} : Pass)).finds

/-- Rungs above the first that a stitch may reach (R116). -/
def Tmpl.room (t : Tmpl) (marks : List (Nat × Nat)) (steps : Nat) : Nat :=
  match marks with
  | [] => 0
  | _ => marks.foldl (fun m c => min m ((Fmt.ofCode (fmtBits (t.words.getD c.1 0#64) c.2)).elim 0 Fmt.room)) steps

/-- A template's checks that concern its header and its END (R170). -/
def Tmpl.shape (t : Tmpl) : List Find :=
  let ends := t.words.map (fun w => opOf w == 0x3F)
  fails (bitsOf t.hdr 18 0 != 0 || decide (16 < hdrAlt t.hdr) || hdrEpi t.hdr == 0
      || ends != List.replicate (t.words.length - 1) false ++ [true]) 0x04 t.addr

/-- Some instruction is a border-only variant (R148). -/
def Tmpl.usesBorder (t : Tmpl) : Bool := t.words.any (fun w => (loadKind w).elim false TKind.borderOnly)

/-- A template's checks at every rung up to `top`, for `runs` of (first repetition, repetitions) of its stitches. -/
def Tmpl.finds (t : Tmpl) (desc : Nat → Option TDesc) (reg : Nat → TReg) (marks : List (Nat × Nat)) (top : Nat)
    (runs : List (Nat × Nat)) : List Find :=
  t.shape ++ (List.range (top + 1)).flatMap (fun d =>
    t.words.zipIdx.flatMap (fun e =>
      let w := widened marks d e.2 e.1
      instrFinds t desc (tmplAddr t.addr e.2) w ++ slotFinds t (tmplAddr t.addr e.2) w)
    ++ runs.flatMap (fun r => t.pass reg marks d r.1 r.2))

/-! ### Regions of a template -/

/-- A region that the instruction at a template index reads or writes: register, row offset, rows, K offset, elements; rows or
elements are none where the run decides them. -/
structure Region where
  idx : Nat
  kind : TKind
  write : Bool
  reg : Nat
  row : Nat
  rows : Option Nat
  k : Nat
  ks : Option Nat
deriving DecidableEq, Repr

/-- The regions of the word at a template index (R191, R216, R218, R233). -/
def wordRegions (idx : Nat) (w : Word) : List Region :=
  let td := bitsOf w 51 49
  let td2 := bitsOf w 42 40
  match loadKind w with
  | some .ldt =>
    [⟨idx, .ldt, false, td, bitsOf w 22 13, some (bitsOf w 40 32 + 1), 32 * bitsOf w 12 0, some (32 * (bitsOf w 31 23 + 1))⟩]
  | some .stt =>
    [⟨idx, .stt, true, td, bitsOf w 22 13, some (bitsOf w 40 32 + 1), 32 * bitsOf w 12 0, some (32 * (bitsOf w 31 23 + 1))⟩]
  | some .pst =>
    [⟨idx, .pst, true, bitsOf w 23 21, 0, some (bitsOf w 20 12 + 1), 0, some (32 * (bitsOf w 11 3 + 1))⟩]
  | some .gat =>
    [⟨idx, .gat, true, td, bitsOf w 31 22, some (bitsOf w 21 13 + 1), 0, none⟩, ⟨idx, .gat, false, td2, 0, none, 0, none⟩]
  | some .sct =>
    [⟨idx, .sct, true, td, 0, none, 0, some (32 * (bitsOf w 22 14 + 1))⟩,
     ⟨idx, .sct, false, td2, 0, some 1, bitsOf w 13 4, some (bitsOf w 31 23 + 1)⟩]
  | _ => []

/-- A WAITS with an STT, a PST, a GAT or an SCT before it in template order, body repetitions counted (R253): its
address. -/
def Tmpl.lateWaits (t : Tmpl) (n : Nat) : List Nat :=
  let l := (t.order 0 n).map (fun e => (e.1, loadKind (t.words.getD e.1 0#64)))
  (l.foldl (fun (acc : Bool × List Nat) e =>
    match e.2 with
    | some .waits => if acc.1 then (true, acc.2 ++ [tmplAddr t.addr e.1]) else acc
    | some .stt | some .pst | some .gat | some .sct => (true, acc.2)
    | _ => acc) (false, [])).2

end Sys2Proof.Machine
end

