-- ==== Sys2Proof/Machine/LoadTab.lean ====
section
/-!
DEFINITION. The job loader on tables: tensor descriptors (R174, R304), geometry tables (R381, R382), and prickings with
their templates (R283 to R297, R301, R303, R114 to R124, R187, R192, R253).
-/

namespace Sys2Proof.Machine

/-! ### Descriptors and scale words -/

/-- A tensor scale is valid: positive, finite and at least 2^−126 (R84). -/
def tensorScaleOk (v : Word32) : Bool := decide (1 ≤ bitsOf (v.setWidth 64) 31 23 ∧ bitsOf (v.setWidth 64) 31 23 ≤ 254)

/-- The checks of a tensor-scale or load-scale word of group g (R37, R85, R178). -/
def State.scaleFinds (s : State) (ctx va g : Nat) : List Find :=
  if va % 8 ≠ 0 then fails true 0x01 va
  else ldRead g (s.readGuard32 ctx va) (fun v => fails (!tensorScaleOk v) 0x06 va)

/-- A descriptor with a format that R72 has; none when it cannot be read or used. -/
def State.loadDesc (s : State) (ctx va : Nat) : Option TDesc :=
  if va % 32 ≠ 0 then none
  else
    match s.readWords ctx va 4 with
    | .ok ws => if okFmt (bitsOf (opW ws 0) 63 60) then some (parseDesc (opW ws 0) (opW ws 1) (opW ws 2) (opW ws 3)) else none
    | .error _ => none

/-- The checks of a descriptor's own words (R174, R82, R85). -/
def State.descFinds (s : State) (ctx va : Nat) : List Find :=
  if va % 32 ≠ 0 then fails true 0x01 va
  else
    ldRead 0x06 (s.readWords ctx va 4) (fun ws =>
      let d := parseDesc (opW ws 0) (opW ws 1) (opW ws 2) (opW ws 3)
      let ok := okFmt (bitsOf (opW ws 0) 63 60)
      let two := ok && d.fmt.twoLevel
      let bad := !ok || bitsOf (opW ws 0) 58 56 != 0 || bitsOf (opW ws 1) 63 56 != 0 || bitsOf (opW ws 2) 63 56 != 0
        || d.kext == 0 || d.rows == 0 || d.base % 16 != 0 || d.sbase % 16 != 0
        || (if two then d.kext % 32 != 0 || d.sbase == 0 || d.tsaddr == 0 else ok && (d.sbase != 0 || d.tsaddr != 0))
      fails bad 0x06 va ++ (if two && d.tsaddr != 0 then s.scaleFinds ctx d.tsaddr 0x06 else []))

/-- Bytes of the stored elements of a descriptor. -/
def TDesc.bytes (d : TDesc) : Nat := (if d.red then d.kext else d.rows) * d.pitch

/-- The whole extent of a descriptor is mapped, with write permission where asked (R304, 0x02). -/
def State.extent (s : State) (ctx : Nat) (d : TDesc) (write tsWrite : Bool) : List Find :=
  s.mapped ctx d.base d.bytes write
  ++ (if d.fmt.twoLevel then
      s.mapped ctx d.sbase (d.rows * (d.kext / 32)) write ++ s.mapped ctx d.tsaddr 8 tsWrite
    else [])

/-- A descriptor with its extent. -/
def State.descAll (s : State) (ctx va : Nat) (write tsWrite : Bool) : List Find :=
  s.descFinds ctx va ++ (match s.loadDesc ctx va with
    | some d => s.extent ctx d write tsWrite
    | none => [])

/-! ### Geometry records (R382, R385) -/

/-- The limits of one axis: extent L, buffer I from B, output O from O0, kernel K, stride S, dilation D, padding. -/
def axisOk (l i o k st d p0 p1 : Nat) (b o0 : Int) (maxL : Nat) : Bool :=
  let reach := (k - 1) * d
  let last := (o0 + o - 1) * st + reach - p0
  decide (1 ≤ k ∧ k ≤ 15 ∧ 1 ≤ st ∧ st ≤ 8 ∧ 1 ≤ d ∧ d ≤ 8 ∧ p0 ≤ min reach 127 ∧ p1 ≤ min reach 127 ∧ 1 ≤ l ∧ l ≤ maxL
    ∧ 1 ≤ i ∧ i ≤ 8192 ∧ 1 ≤ o ∧ reach + 1 ≤ l + p0 + p1 ∧ 0 ≤ o0 ∧ o0 + o ≤ ((l + p0 + p1 - reach - 1) / st + 1 : Nat)
    ∧ b ≤ max 0 (o0 * st - p0) ∧ min ((l : Int) - 1) last < b + i)

/-- One axis of an up-sampling (R386): factor f, output box within L × f, and the inputs it reads in the buffer. -/
def upAxisOk (near : Bool) (l i o f : Nat) (b o0 : Int) (maxL : Nat) : Bool :=
  let cl (x : Int) : Int := max 0 (min x ((l : Int) - 1))
  let lo := if near then o0 / (f : Int) else cl (triPos o0 f).1
  let hi := if near then (o0 + o - 1) / (f : Int) else cl ((triPos (o0 + o - 1) f).1 + 1)
  decide (1 ≤ f ∧ f ≤ 8 ∧ 1 ≤ l ∧ l ≤ maxL ∧ 1 ≤ i ∧ i ≤ 8192 ∧ 1 ≤ o ∧ 0 ≤ o0 ∧ o0 + o ≤ (l * f : Nat) ∧ b ≤ lo ∧ hi < b + i)

/-- Limits that no axis has alone: MODE, reserved bytes, channels, buffer and output sizes. -/
def geoCommon (bs : List Byte) (g : Geo) (inp : TDesc) : Bool :=
  let two := inp.fmt.twoLevel
  decide (geoU bs 49 1 < 2 ∧ geoU bs 50 2 = 0 ∧ geoU bs 60 4 = 0)
  && decide (g.i.1 * g.i.2.1 * g.i.2.2 ≤ inp.rows ∧ g.oExt.1 * g.oExt.2.1 * g.oExt.2.2 ≤ 2 ^ 31)
  && decide (1 ≤ g.crun ∧ g.crun ≤ 65536 ∧ g.coff + g.crun ≤ inp.kext)
  && (!two || (g.crun % 32 == 0 && g.coff % 32 == 0))

/-- A geometry record within R382 for an input descriptor. -/
def geoOk (bs : List Byte) (inp : TDesc) : Bool :=
  let g := parseGeo bs
  let p1 (n : Nat) : Nat := geoU bs (44 + 2 * n) 1
  geoCommon bs g inp && decide (g.k.1 * g.k.2.1 * g.k.2.2 ≤ 512)
  && axisOk g.l.1 g.i.1 g.oExt.1 g.k.1 g.st.1 g.d.1 g.pad.1 (p1 0) g.b.1 g.o0.1 4096
  && axisOk g.l.2.1 g.i.2.1 g.oExt.2.1 g.k.2.1 g.st.2.1 g.d.2.1 g.pad.2.1 (p1 1) g.b.2.1 g.o0.2.1 8192
  && axisOk g.l.2.2 g.i.2.2 g.oExt.2.2 g.k.2.2 g.st.2.2 g.d.2.2 g.pad.2.2 (p1 2) g.b.2.2 g.o0.2.2 8192

/-- A geometry record of POOL (R385): kernels to 8, no dilation. -/
def poolGeoOk (bs : List Byte) (inp : TDesc) : Bool :=
  let g := parseGeo bs
  geoOk bs inp && decide (g.k.1 ≤ 8 ∧ g.k.2.1 ≤ 8 ∧ g.k.2.2 ≤ 8) && decide (g.d = (1, 1, 1))

/-- A geometry record of UPSAMPLE (R386). -/
def upGeoOk (near : Bool) (bs : List Byte) (inp : TDesc) : Bool :=
  let g := parseGeo bs
  geoCommon bs g inp
  && upAxisOk near g.l.1 g.i.1 g.oExt.1 g.k.1 g.b.1 g.o0.1 4096
  && upAxisOk near g.l.2.1 g.i.2.1 g.oExt.2.1 g.k.2.1 g.b.2.1 g.o0.2.1 8192
  && upAxisOk near g.l.2.2 g.i.2.2 g.oExt.2.2 g.k.2.2 g.b.2.2 g.o0.2.2 8192

/-! ### A pricking as the loader has it -/

/-- A pricking with its template, what its registers are bound to, and the partition size. -/
structure PrickLd where
  va : Nat
  p : Pricking
  t : Tmpl
  desc : List (Option TDesc)
  replay : List (Option TDesc)
  size : Nat
deriving DecidableEq, Repr

/-- Address of entry e of its table. -/
def PrickLd.at_ (x : PrickLd) (e : Nat) : Nat := x.va + 16 * e

/-- Address of the binding words of register j. -/
def PrickLd.bindAt (x : PrickLd) (j : Nat) : Nat := x.at_ (3 + x.p.levels.length + bitsOf x.p.hdr 51 48 + 6 * j)

/-- The descriptor bound to register j. -/
def PrickLd.d (x : PrickLd) (j : Nat) : Option TDesc := x.desc.getD j none

/-- A register's binding as far as sources and descriptors go. -/
def PrickLd.reg (x : PrickLd) (j : Nat) : TReg :=
  { desc := (x.d j).getD {}, lscale := (x.p.binds[j]?).elim 0 Bind.lscale, replay := x.replay.getD j none }

/-- The least and greatest of 0 and a × n. -/
def span (a : Int) (n : Nat) : Int × Int := (min 0 (a * n), max 0 (a * n))

/-- Sum of bounds. -/
def sumSpan (a b : Int × Int) : Int × Int := (a.1 + b.1, a.2 + b.2)

/-- Row origins of a register over all loop points, arguments and ranks (R303). -/
def PrickLd.rowSpan (x : PrickLd) (b : Bind) : Int × Int :=
  let st := (b.strides.zip x.p.levels).map (fun e => span e.1.1 (e.2.radix x.size - 1))
  st.foldl sumSpan (sumSpan (b.row0, b.row0) (sumSpan (span b.astr x.p.argmax) (span b.qstr (x.size - 1))))

/-- K origins of a register over all loop points and body repetitions (R303). -/
def PrickLd.kSpan (x : PrickLd) (b : Bind) : Int × Int :=
  let st := (b.strides.zip x.p.levels).map (fun e => span e.1.2 (e.2.radix x.size - 1))
  st.foldl sumSpan (sumSpan ((b.k0 : Int), (b.k0 : Int)) (span b.kstep (x.p.n - 1)))

/-! ### Regions of the loop points -/

/-- n runs of `width` bytes, `pitch` apart. -/
structure Strip where
  base : Nat
  pitch : Nat
  n : Nat
  width : Nat
deriving DecidableEq, Repr

/-- Some run of a strip meets `width` bytes from an address. -/
def Strip.hits (y : Strip) (base width : Nat) : Bool :=
  let j := if base < y.base + y.width ∨ y.pitch = 0 then 0 else (base - y.base - y.width) / y.pitch + 1
  decide (0 < width ∧ 0 < y.width ∧ j < y.n ∧ base < y.base + j * y.pitch + y.width ∧ y.base + j * y.pitch < base + width)

/-- Two strips of one pitch meet: run i of the one and run j of the other, t = i - j. -/
def Strip.meetsEven (x y : Strip) : Bool :=
  let p : Int := x.pitch
  let t := max (((y.base : Int) - x.base - x.width) / p + 1) (1 - (y.n : Int))
  decide (0 < x.n ∧ 0 < y.n ∧ 0 < x.width ∧ 0 < y.width ∧ t < x.n ∧ (x.base : Int) + t * p < y.base + y.width)

/-- Two strips share a byte. -/
def Strip.meets (x y : Strip) : Bool :=
  if x.pitch = y.pitch ∧ 0 < x.pitch then x.meetsEven y
  else if x.n ≤ y.n then (List.range x.n).any (fun i => y.hits (x.base + i * x.pitch) x.width)
  else (List.range y.n).any (fun i => x.hits (y.base + i * y.pitch) y.width)

/-- Two lists of strips share a byte. -/
def stripsMeet (as bs : List Strip) : Bool := as.any (fun a => bs.any a.meets)

/-- Ranges of bytes that touch the pages of a strip, no other. -/
def Strip.ranges (x : Strip) : List (Nat × Nat) :=
  if x.n = 0 then []
  else if x.pitch ≤ 65536 then [(x.base, (x.n - 1) * x.pitch + x.width)]
  else (List.range x.n).map (fun i => (x.base + i * x.pitch, x.width))

/-- One run of n bytes. -/
def Strip.one (a n : Nat) : Strip := ⟨a, 0, 1, n⟩

/-- Bytes of the elements of a region, as strips of its stored rows. -/
def TDesc.elemStrips (d : TDesc) (r0 : Int) (nr : Nat) (k0 : Int) (nk : Nat) : List Strip :=
  let (_, klo, kn) := clipRange k0 nk d.kext
  let (_, rlo, rn) := clipRange r0 nr d.rows
  if kn = 0 ∨ rn = 0 then []
  else if d.red then let (a, n) := elemSpan d.fmt rlo rn; [⟨d.rowAddr klo + a, d.pitch, kn, n⟩]
  else let (a, n) := elemSpan d.fmt klo kn; [⟨d.rowAddr rlo + a, d.pitch, rn, n⟩]

/-- Bytes of the block scales of a region, as strips. -/
def TDesc.scaleStrips (d : TDesc) (r0 : Int) (nr : Nat) (k0 : Int) (nk : Nat) : List Strip :=
  let (_, klo, kn) := clipRange k0 nk d.kext
  let (_, rlo, rn) := clipRange r0 nr d.rows
  if kn = 0 ∨ rn = 0 ∨ !d.fmt.twoLevel then []
  else [⟨d.scaleAddr rlo klo, d.kext / 32, rn, (klo + kn + 31) / 32 - klo / 32⟩]

/-- Bytes of the elements and block scales of a region, as strips. -/
def TDesc.strips (d : TDesc) (r0 : Int) (nr : Nat) (k0 : Int) (nk : Nat) : List Strip :=
  d.elemStrips r0 nr k0 nk ++ d.scaleStrips r0 nr k0 nk

/-- First and count of a region side over a span of origins: n of them from an offset, or up to an extent. -/
def sideOf (o : Int × Int) (off : Nat) (n : Option Nat) (ext : Nat) : Int × Nat :=
  match n with
  | some n => (o.1 + off, (o.2 - o.1).toNat + n)
  | none => (o.1 + off, ((ext : Int) - (o.1 + off)).toNat)

/-- Rows and K of a region over spans of its register's origins. -/
def Region.sides (r : Region) (d : TDesc) (rows ks : Int × Int) : (Int × Nat) × (Int × Nat) :=
  (sideOf rows r.row r.rows d.rows, sideOf ks r.k r.ks d.kext)

/-- Bytes of a region over all loop points, as the rectangle between its corners (R187, R303). -/
def PrickLd.regionStrips (x : PrickLd) (r : Region) (d : TDesc) : List Strip :=
  match x.p.binds[r.reg]? with
  | none => []
  | some b =>
    let a := r.sides d (x.rowSpan b) (x.kSpan b)
    d.strips a.1.1 a.1.2 a.2.1 a.2.2

/-- The regions of the template that are written, or read. -/
def PrickLd.regions (x : PrickLd) (write : Bool) : List Region :=
  (x.t.words.zipIdx.flatMap (fun w => wordRegions w.2 w.1)).filter (fun r => r.write == write)

/-- Descriptors that a region may use: the register's, and for a load its replay source (R182). -/
def PrickLd.descsOf (x : PrickLd) (r : Region) : List TDesc :=
  (x.d r.reg).toList ++ (if r.kind = .ldt then (x.replay.getD r.reg none).toList else [])

/-- A written and a read region overlap somewhere over the loop points. -/
def PrickLd.meets (x : PrickLd) (w r : Region) : Bool :=
  (x.descsOf w).any (fun d => (x.descsOf r).any (fun e => stripsMeet (x.regionStrips w d) (x.regionStrips r e)))

/-- R187: the template cannot be restarted. -/
def PrickLd.notRestartable (x : PrickLd) : Bool :=
  (x.regions true).any (fun w => decide (w.kind = .stt ∨ w.kind = .pst)
    && (x.regions false).any (fun r => decide (r.kind = .ldt) && x.meets w r))

/-! ### Regions of one stitch (R124)

A box is a list of inclusive ranges: of the index of each level, of the walk argument, of the rank, and of the repetitions in
which the written and the read region move. -/

/-- The least and greatest product with a range. -/
def scaleSpan (a : Int) (r : Nat × Nat) : Int × Int := (min (a * r.1) (a * r.2), max (a * r.1) (a * r.2))

/-- Part i of a box. -/
def boxAt (b : List (Nat × Nat)) (i : Nat) : Nat × Nat := b.getD i (0, 0)

/-- Row and K origins of a register over a box of L levels, at repetitions `rep` (R171, R287). -/
def Bind.over (b : Bind) (l : Nat) (box : List (Nat × Nat)) (rep : Nat × Nat) : (Int × Int) × (Int × Int) :=
  let z := b.strides.zip (box.take l)
  ((z.map (fun e => scaleSpan e.1.1 e.2)).foldl sumSpan
      (sumSpan (b.row0, b.row0) (sumSpan (scaleSpan b.astr (boxAt box l)) (scaleSpan b.qstr (boxAt box (l + 1))))),
   (z.map (fun e => scaleSpan e.1.2 e.2)).foldl sumSpan (sumSpan ((b.k0 : Int), (b.k0 : Int)) (scaleSpan b.kstep rep)))

/-- The repetitions in which the instruction at a template index runs, for split indices of a range (R171, R296). -/
def PrickLd.repSpan (x : PrickLd) (idx : Nat) (s : Nat × Nat) : Nat × Nat :=
  let S := match x.p.splitLevel with
    | some (_, l) => max (l.splits x.size) 1
    | none => 1
  let first (k : Nat) : Nat := k * x.p.n / S
  if idx < hdrPro x.t.hdr then (first s.1, first s.2)
  else if idx < hdrPro x.t.hdr + hdrBody x.t.hdr then (first s.1, first (s.2 + 1) - 1)
  else (first (s.1 + 1) - 1, first (s.2 + 1) - 1)

/-- A box with its repetitions cut to those that its split indices have. -/
def PrickLd.cutBox (x : PrickLd) (w r : Region) (box : List (Nat × Nat)) : List (Nat × Nat) :=
  let l := x.p.levels.length
  let s := match x.p.splitLevel with
    | some (i, _) => boxAt box i
    | none => (0, 0)
  let cut (a b : Nat × Nat) : Nat × Nat := (max a.1 b.1, min a.2 b.2)
  box.take (l + 2) ++ [cut (boxAt box (l + 2)) (x.repSpan w.idx s), cut (boxAt box (l + 3)) (x.repSpan r.idx s)]

/-- The regions over a box overlap: in one descriptor's coordinates where `near`, in bytes otherwise. -/
def PrickLd.boxMeets (x : PrickLd) (w r : Region) (d e : TDesc) (near : Bool) (box : List (Nat × Nat)) : Bool :=
  let l := x.p.levels.length
  match x.p.binds[w.reg]?, x.p.binds[r.reg]? with
  | some a, some b =>
    let o := a.over l box (boxAt box (l + 2))
    let q := b.over l box (boxAt box (l + 3))
    let m := w.sides d o.1 o.2
    let n := r.sides e q.1 q.2
    let meet (u v : Int × Nat) : Bool := decide (u.1 < v.1 + v.2 ∧ v.1 < u.1 + u.2)
    if near then meet m.1 n.1 && meet m.2 n.2
    else stripsMeet (d.strips m.1.1 m.1.2 m.2.1 m.2.2) (e.strips n.1.1 n.1.2 n.2.1 n.2.2)
  | _, _ => false

/-- A well of the box's rank walks its loop point (R289). -/
def PrickLd.walked (x : PrickLd) (box : List (Nat × Nat)) : Bool :=
  let q := (boxAt box (x.p.levels.length + 1)).1
  x.p.levels.zipIdx.all (fun l =>
    let (lo, hi, st) := l.1.own (l.1.radix x.size) q x.size
    let i := (boxAt box l.2).1
    decide (lo ≤ i ∧ i < hi ∧ (i - lo) % st = 0))

/-- The widest part of a box of more than one value. -/
def widest (box : List (Nat × Nat)) : Option Nat :=
  ((box.zipIdx.filter (fun e => decide (e.1.1 < e.1.2))).foldl (fun (best : Option (Nat × Nat)) e =>
    if best.all (fun b => decide (b.1 < e.1.2 - e.1.1)) then some (e.1.2 - e.1.1, e.2) else best) none).map Prod.snd

/-- Some stitch of a box has the two regions overlap: the box is halved until it shows none or is one stitch. -/
def PrickLd.search (x : PrickLd) (w r : Region) (d e : TDesc) (near : Bool) : Nat → List (Nat × Nat) → Bool
  | 0, _ => false
  | fuel + 1, box =>
    let box := x.cutBox w r box
    if box.any (fun v => decide (v.2 < v.1)) || !x.boxMeets w r d e near box then false
    else
      match widest box with
      | none => near || x.walked box
      | some i =>
        let v := boxAt box i
        let m := (v.1 + v.2) / 2
        x.search w r d e near fuel (box.set i (v.1, m)) || x.search w r d e near fuel (box.set i (m + 1, v.2))

/-- The box of every stitch; where the regions move alike, one loop point stands for all, but for the split index. -/
def PrickLd.wholeBox (x : PrickLd) (near : Bool) : List (Nat × Nat) :=
  x.p.levels.map (fun l => if near && !l.split then (0, 0) else (0, l.radix x.size - 1))
  ++ [if near then (0, 0) else (0, x.p.argmax), if near then (0, 0) else (0, x.size - 1), (0, x.p.n - 1), (0, x.p.n - 1)]

/-- Two registers move alike over the loop points and are bound to one descriptor. -/
def PrickLd.alike (x : PrickLd) (i j : Nat) : Bool :=
  match x.p.binds[i]?, x.p.binds[j]? with
  | some a, some b => decide (a.desc = b.desc ∧ a.strides = b.strides ∧ a.astr = b.astr ∧ a.qstr = b.qstr)
  | _, _ => false

/-- A written and a read region of one stitch overlap at one of its loop points, in any two of its repetitions (R124). -/
def PrickLd.meetsAt (x : PrickLd) (w r : Region) : Bool :=
  let run (d e : TDesc) (near : Bool) : Bool :=
    let box := x.wholeBox near
    x.search w r d e near (box.foldl (fun n v => n + Nat.log2 (v.2 - v.1 + 1) + 1) 1) box
  (x.d w.reg).any (fun d => (x.d r.reg).any (fun e => run d e (x.alike w.reg r.reg))
    || (decide (r.kind = .ldt) && (x.replay.getD r.reg none).any (fun e => run d e false)))

/-! ### Checks of a pricking -/

/-- Header, guard entry and level entries: R284, R285, R290, R291 (0x07), R114 (0x0A), R149 (0x0C). -/
def PrickLd.headFinds (x : PrickLd) (e1 : Word) : List Find :=
  let h := x.p.hdr
  let ntd := hdrNtd x.t.hdr
  let lv (l : Level) (e : Nat) : List Find :=
    let creg := match x.d l.creg with
      | some d => decide (ntd ≤ l.creg ∧ l.creg < x.p.binds.length ∧ d.fmt = .i32)
      | none => false
    fails (l.dist == 3 || l.order == 3 || (!l.split && (l.canon || l.oreg != 0 || l.dreg != 0))
      || (!l.dyn && l.creg != 0) || (l.dyn && (l.dist != 0 || !creg))) 0x07 (x.at_ e)
  fails (bitsOf h 63 60 != 1 || bitOf h 52 || decide (4 < bitsOf h 51 48 ∨ 6 < x.p.levels.length) || bitsOf e1 63 56 != 0
    || decide (x.p.binds.length < ntd)) 0x07 x.va
  ++ fails (guardBad x.p.guard) 0x0A (x.at_ 2)
  ++ fails (x.p.border != x.t.border || (x.t.usesBorder && !x.t.border)) 0x0C x.va
  ++ fails (decide (1 < (x.p.levels.filter (fun l => l.dist != 0)).length)) 0x07 (x.at_ 3)
  ++ x.p.levels.zipIdx.flatMap (fun l => lv l.1 (3 + l.2))

/-- The marks of a widening entry (R286, R115). -/
def PrickLd.markFinds (x : PrickLd) (a : Nat) (w : Word) : List Find :=
  (parseMarks w).flatMap (fun m =>
    let word := x.t.words.getD m.1 0#64
    let ok := match Fmt.ofCode (fmtBits word m.2) with
      | some f => fmtCode word m.2 && (f.onLadder || decide (f = .bf16))
      | none => false
    fails (decide (2 ≤ m.2)) 0x07 a
    ++ fails (decide (m.2 < 2) && !(decide (m.1 < x.t.words.length) && ok)) 0x0B a)

/-- One register's binding: its reserved bits (0x07), descriptor, load scale (0x0D), replay source (0x0B), origins
(R192, R303: 0x08). -/
def State.bindFinds (s : State) (ctx : Nat) (x : PrickLd) (j : Nat) (b : Bind) (b0 b3 b4 b5 : Word) : List Find :=
  let a := x.bindAt j
  let written := (x.regions true).any (fun r => r.reg == j) || x.p.levels.any (fun l => l.split && l.dreg == j)
  let quant := x.t.words.any (fun w => decide (loadKind w = some .ldt) && bitsOf w 51 49 == j && (wFmt w 0).twoLevel)
  let rs := x.rowSpan b
  let ks := x.kSpan b
  let uneven := decide (b.k0 % 32 ≠ 0 ∨ b.kstep % 32 ≠ 0)
    || (b.strides.zip x.p.levels).any (fun e => decide (e.1.2 % 32 ≠ 0 ∧ 1 < e.2.radix x.size))
  fails (bitsOf b0 63 56 != 0 || bitsOf b3 31 0 != 0 || bitsOf b4 63 56 != 0 || bitsOf b5 63 56 != 0) 0x07 a
  ++ s.descAll ctx b.desc written false
  ++ (if b.lscale = 0 then []
    else s.mapped ctx b.lscale 8 false ++ s.scaleFinds ctx b.lscale 0x0D
      ++ fails (!quant || (x.d j).any (fun d => d.fmt.twoLevel)) 0x0D a)
  ++ (if b.replay = 0 then []
    else s.descAll ctx b.replay false false ++ (match x.replay.getD j none with
      | some r => fails (!(decide (r.fmt = .bf16 ∨ r.fmt = .fp32) && (x.d j).all (fun d =>
          decide (d.rows = r.rows ∧ d.kext = r.kext ∧ d.red = r.red)))) 0x0B a
      | none => []))
  ++ fails (decide (rs.1 < -(2 ^ 31) ∨ (2 ^ 32 : Int) ≤ rs.2 ∨ ks.1 < 0 ∨ (2 ^ 32 : Int) ≤ ks.2)
      || ((x.d j).any (fun d => d.fmt.twoLevel) && uneven)) 0x08 a

/-- R124: an attempt must be a function of the layer's inputs alone. -/
def PrickLd.attemptFinds (x : PrickLd) : List Find :=
  let late := x.t.words.any (fun w => decide (loadKind w = some .sct ∨ loadKind w = some .sig))
  let own := (x.regions true).any (fun w => (x.regions false).any (fun r =>
    if guardScope x.p.guard = 0 then x.meetsAt w r else x.meets w r))
  fails (decide (0 < guardMax x.p.guard) && (late || own)) 0x0B (x.at_ 2)

/-- The split level: R295, R296, R297, whose row test R297 asks of every split count (0x0F). -/
def PrickLd.splitFinds (x : PrickLd) (i : Nat) (l : Level) : List Find :=
  let ntd := hdrNtd x.t.hdr
  let stride (j : Nat) : Int × Int := (x.p.binds[j]?).elim (0, 0) (fun b => b.strides.getD i (0, 0))
  let stt (w : Word) : Bool := decide (loadKind w = some .stt) && bitsOf w 51 49 == l.oreg
  let height := (x.t.words.filter stt).foldl (fun m w => max m (bitsOf w 22 13 + bitsOf w 40 32 + 1)) 0
  let other := x.t.words.any (fun w => !stt w && !(accUse w).isEmpty)
  let plain := (x.d l.oreg).any (fun d => decide (d.fmt = .fp32))
  fails (decide (x.p.n < l.splits x.size)
    || (List.range x.p.binds.length).any (fun j => decide ((stride j).2 ≠ 0))
    || decide (ntd ≤ l.oreg) || !plain || decide (l.dreg < ntd ∨ x.p.binds.length ≤ l.dreg) || other
    || decide ((stride l.oreg).1.natAbs < height)) 0x0F (x.at_ (3 + i))

/-- The runs of body repetitions that a stitch of the pricking may have, as far as parity and length matter (R296). -/
def PrickLd.runs (x : PrickLd) : List (Nat × Nat) :=
  match x.p.splitLevel with
  | none => [(0, x.p.n)]
  | some (_, l) =>
    let S := max (l.splits x.size) 1
    let n := x.p.n / S
    [(0, n), (1, n), (0, n + 1), (1, n + 1)].filter (fun r => decide (0 < r.2 ∧ r.2 ≤ x.p.n))

/-- The geometry tables that the template's loads bring to the slots of its GATs: (table's register, GAT word) (R381). -/
def PrickLd.geoPairs (x : PrickLd) : List (Nat × Word) :=
  let alt := hdrAlt x.t.hdr
  let slots (w : Word) : List Nat := (slotUse w).flatMap (fun u => useSlots w alt false u ++ useSlots w alt true u)
  (x.t.words.filter (fun w => decide (loadKind w = some .gat))).flatMap (fun g =>
    (x.t.words.filter (fun w => decide (loadKind w = some .ldt) && !bitOf w 42 && (slots w).any (slots g).contains)).map
      (fun w => (bitsOf w 51 49, g)))

/-- R382 for a table and a GAT. -/
def State.geoFinds (s : State) (ctx : Nat) (x : PrickLd) (e : Nat × Word) : List Find :=
  match x.d e.1, x.d (bitsOf e.2 42 40), x.d (bitsOf e.2 51 49) with
  | some tab, some inp, some out =>
    if tab.fmt ≠ .i32 ∨ tab.kext ≠ 16 ∨ tab.red then fails true 0x05 ((x.p.binds[e.1]?).elim 0 Bind.desc)
    else
      let k1 := ((x.p.binds[bitsOf e.2 51 49]?).map (fun b => (x.kSpan b).2)).getD 0
      (List.range tab.rows).flatMap (fun i =>
        ldRead 0x05 (s.readVa ctx (tab.rowAddr i) 64) (fun bs =>
          let g := parseGeo bs
          fails (!geoOk bs inp || decide ((out.kext : Int) < k1 + (g.k.1 * g.k.2.1 * g.k.2.2 * g.crun : Nat))) 0x05
            (tab.rowAddr i)))
  | _, _, _ => []

/-- The destination at the element widths of the rungs that a layer replay may reach (R410). -/
def State.rungExtents (s : State) (ctx : Nat) (d : TDesc) (steps : Nat) : List Find :=
  if d.fmt.twoLevel then
    (List.range (min d.fmt.room steps)).flatMap (fun r =>
      let x := { d with fmt := d.fmt.up (r + 1) }
      s.mapped ctx x.base x.bytes true)
  else []

/-- A pricking and its template, every entry sound (R301); a split's combine writes its destination at every rung that its
layer can reach (R116, R410). -/
def State.prickChecks (s : State) (ctx : Nat) (x : PrickLd) (raw : List Word) : List Find :=
  let l := x.p.levels.length
  let nw := bitsOf x.p.hdr 51 48
  let top := x.t.room x.p.marks (guardMax x.p.guard)
  let w (e : Nat) : Word := opW raw e
  let base := 3 + l + nw
  x.headFinds (w 1)
  ++ (List.range l).flatMap (fun i => fails (bitsOf (w (3 + i)) 23 0 != 0) 0x07 (x.at_ (3 + i)))
  ++ (List.range nw).flatMap (fun i => x.markFinds (x.at_ (3 + l + i)) (w (3 + l + i)))
  ++ x.p.binds.zipIdx.flatMap (fun b =>
      let o := base + 6 * b.2
      s.bindFinds ctx x b.2 b.1 (w o) (w (o + 3)) (w (o + 4)) (w (o + 5)))
  ++ x.t.finds x.d x.reg x.p.marks top x.runs
  ++ fails (decide (2 ^ 32 < x.p.points x.size)) 0x42 x.va
  ++ ((x.p.levels.zipIdx.filter (fun l => l.1.split)).drop 1).flatMap (fun l => fails true 0x0F (x.at_ (3 + l.2)))
  ++ (match x.p.splitLevel with
      | some (i, lv) => x.splitFinds i lv
          ++ (x.d lv.dreg).elim [] (fun d => s.rungExtents ctx d (guardMax x.p.guard))
      | none => [])
  ++ x.attemptFinds
  ++ (if x.notRestartable then (x.t.lateWaits x.p.n).map (fun a => { cls := 2, code := 0x10, addr := a }) else [])
  ++ x.geoPairs.flatMap (s.geoFinds ctx x)

/-- What the loader takes from a sound pricking: its table's size, and what its registers are bound to. -/
def State.prickLd (s : State) (ctx va size : Nat) (p : Pricking) (t : Tmpl) : PrickLd :=
  { va := va, p := p, t := t, size := size
    desc := p.binds.map (fun b => s.loadDesc ctx b.desc)
    replay := p.binds.map (fun b => if b.replay = 0 then none else s.loadDesc ctx b.replay) }

/-- Entries of a table whose header says so (R284). -/
def prickLen (h : Word) : Nat :=
  let l := bitsOf h 59 57 + 1
  let r := bitsOf h 56 54 + 1
  3 + l + bitsOf h 51 48 + 6 * r + l * r

/-- What the readable ones of a pricking's entries name: its template, and the descriptors and load scale of each register,
which are read and checked although another word of the pricking is not sound (R304, R305). -/
def State.namedFinds (s : State) (ctx : Nat) (h : Option Word) (ent : Nat → Option Word) : List Find :=
  let addr (e : Nat) (k : Nat → List Find) : List Find := (ent e).elim [] (fun w => k (bitsOf w 55 0))
  addr 1 (s.tmplFinds ctx)
  ++ h.elim [] (fun h =>
      let base := 3 + (bitsOf h 59 57 + 1) + bitsOf h 51 48
      (List.range (bitsOf h 56 54 + 1)).flatMap (fun j =>
        addr (base + 6 * j) (fun a => s.descAll ctx a false false)
        ++ addr (base + 6 * j + 4) (fun a => if a = 0 then [] else s.mapped ctx a 8 false ++ s.scaleFinds ctx a 0x0D)
        ++ addr (base + 6 * j + 5) (fun a => if a = 0 then [] else s.descAll ctx a false false)))

/-- A listed pricking (R301): each of its entries is read for its own group, the guard entry's being 0x0A; all its checks are
made where its entries and its template read sound, and otherwise those of what its sound entries name. -/
def State.prickFinds (s : State) (ctx size va : Nat) : List Find :=
  if va % 64 ≠ 0 then fails true 0x01 va
  else
    let h := s.prickEntry ctx va 0
    let es := (List.range (h.toOption.elim 3 prickLen)).map (s.prickEntry ctx va)
    let broken := es.zipIdx.flatMap (fun e => ldRead (if e.2 = 2 then 0x0A else 0x07) e.1 (fun _ => []))
    let ent (e : Nat) : Option Word := (es[e]?).bind Except.toOption
    match broken.isEmpty, s.readPricking ctx va with
    | true, .ok p =>
      match s.readTmpl ctx p.tmpl with
      | .ok t => fails (p.tmpl % 64 != 0) 0x01 p.tmpl
        ++ s.prickChecks ctx (s.prickLd ctx va size p t) (es.map (fun e => e.toOption.getD 0#64))
      | .error _ => s.namedFinds ctx h.toOption ent
    | _, _ => broken ++ s.namedFinds ctx h.toOption ent

/-- A sound pricking with its template; none where a read failed. -/
def State.prickGet (s : State) (ctx size va : Nat) : Option PrickLd :=
  match s.readPricking ctx va with
  | .error _ => none
  | .ok p => match s.readTmpl ctx p.tmpl with
    | .error _ => none
    | .ok t => some (s.prickLd ctx va size p t)

/-- Ranges that a pricking has locked (R166, R381): its table, its template, its descriptors, its geometry tables. -/
def PrickLd.lockRanges (x : PrickLd) : List (Nat × Nat) :=
  [(x.va, 16 * prickLen x.p.hdr), (x.t.addr, 8 * (1 + x.t.words.length))]
  ++ x.p.binds.flatMap (fun b => (b.desc, 32) :: (if b.replay = 0 then [] else [(b.replay, 32)]))
  ++ x.geoPairs.filterMap (fun e => (x.d e.1).map (fun d => (d.base, d.bytes)))

end Sys2Proof.Machine
end

