-- ==== Sys2Proof/Machine/Loader.lean ====
section
/-!
DEFINITION. The job loader (R301 to R306, R427, R432, R610): operation records (R411), the records of the argument
block, and the verification of a job.
-/

namespace Sys2Proof.Machine

/-! ### Operation records (R406 to R411, R804 to R806) -/

/-- OPC and VAR that R408 has. -/
def opKnown (ws : List Word) : Bool :=
  let v := opVar ws
  match opOpc ws with
  | 0x40 => decide (v < 6)
  | 0x41 => decide (v < 3)
  | 0x42 | 0x4D | 0x4E | 0x4F => decide (v < 2)
  | 0x46 => decide (v < 6)
  | 0x43 | 0x44 | 0x45 | 0x47 | 0x48 | 0x49 | 0x4A | 0x4B | 0x4C => decide (v = 0)
  | _ => false

/-- NORM APPLY. -/
def opApply (ws : List Word) : Bool := opOpc ws == 0x46 && (opVar ws == 2 || opVar ws == 5)
/-- NORM STATS. -/
def opStats (ws : List Word) : Bool := opOpc ws == 0x46 && (opVar ws == 3 || opVar ws == 4)

/-- Does the operation name operand i (0 D, 1 A, 2 B, 3 C); B and C of NORM are optional (R408, R804)? -/
def opUses (ws : List Word) (i : Nat) : Bool :=
  match opOpc ws, i with
  | 0x46, 0 => !opStats ws
  | _, 0 => true
  | 0x4F, _ => false
  | _, 1 => true
  | 0x40, 2 | 0x44, 2 | 0x45, 2 | 0x48, 2 | 0x4B, 2 | 0x4C, 2 => true
  | 0x46, _ => !opStats ws && opDesc ws i != 0
  | _, _ => false

/-- Does the operation use C0; C1 (R408, R804)? -/
def opUsesC (ws : List Word) : Bool × Bool :=
  match opOpc ws with
  | 0x40 => (opVar ws == 5, opVar ws == 5)
  | 0x46 => (!opApply ws, !opApply ws)
  | 0x48 => (true, true)
  | 0x49 => (false, true)
  | 0x4F => (opVar ws == 1, false)
  | _ => (false, false)

/-- NORM writes its pairs at AUX. -/
def opWritesPairs (ws : List Word) : Bool := opOpc ws == 0x46 && (opPair ws || opStats ws)
/-- The operation uses AUX. -/
def opUsesAux (ws : List Word) : Bool := opOpc ws == 0x4D || opOpc ws == 0x4E || opWritesPairs ws || opApply ws

/-- Reserved or unused fields that are not 0, a reserved code, or an extent of 0 (R104, R406, R804). -/
def opFieldsBad (ws : List Word) : Bool :=
  let opc := opOpc ws
  let unused (i : Nat) : Bool := !opUses ws i && (opW ws (2 + 2 * i) != 0#64
    || (if i = 0 ∧ opStats ws then bitsOf (opW ws 3) 31 0 != 0 else opW ws (3 + 2 * i) != 0#64))
  let split := opc == 0x47 || opc == 0x48
  let c := opUsesC ws
  !opKnown ws
  || (if opc = 0x44 ∨ opc = 0x45 then (mxFmt (opMxt ws)).isNone else opMxt ws != 0)
  || (opBcast ws && opc != 0x40) || ((opCol ws || opAccum ws) && opc != 0x41)
  || (opPair ws && !(opc == 0x46 && (opVar ws == 0 || opVar ws == 1)))
  || bitsOf (opW ws 0) 43 0 != 0 || opRows ws == 0 || opCols ws == 0
  || (List.range 4).any (fun i => unused i || bitsOf (opW ws (2 + 2 * i)) 63 56 != 0)
  || bitsOf (opW ws 10) 63 56 != 0 || bitsOf (opW ws 12) 63 56 != 0
  || (!c.1 && opC0 ws != 0) || (!c.2 && opC1 ws != 0) || (!opUsesAux ws && opAux ws != 0)
  || bitsOf (opW ws 13) 31 16 != 0 || (!split && opW ws 13 != 0#64)
  || bitsOf (opW ws 14) 31 0 != 0 || (opc != 0x48 && opW ws 14 != 0#64) || opW ws 15 != 0#64

/-- The formats, shapes and constants that R409, R804, R805 and R806 ask for, d the operands' descriptors. -/
def opFormsBad (ws : List Word) (d : Nat → Option TDesc) : Bool :=
  let is (i : Nat) (p : TDesc → Bool) : Bool := (d i).all p
  let two (x : TDesc) : Bool := x.fmt.twoLevel
  let plain (x : TDesc) : Bool := !x.fmt.twoLevel
  let same : Bool := match d 0, d 1 with
    | some x, some y => decide (x.fmt = y.fmt ∧ (x.fmt.twoLevel → x.tsaddr = y.tsaddr))
    | _, _ => true
  let mx (x : TDesc) : Bool := decide (some x.fmt = mxFmt (opMxt ws))
  let even := is 1 plain || decide (opK0 ws 0 % 32 = 0 ∧ opK0 ws 1 % 32 = 0 ∧ opCols ws % 32 = 0)
  let f (x : TDesc) (g : Fmt) : Bool := decide (x.fmt = g)
  !(match opOpc ws with
    | 0x41 => is 0 (f · .fp32)
    | 0x42 => is 0 two
    | 0x44 => is 0 mx && is 1 (f · .i8) && is 2 (f · .i8)
    | 0x45 => is 1 mx && is 0 (f · .i8) && is 2 (f · .i8)
    | 0x46 => is 2 plain && is 3 plain
    | 0x47 => is 1 (f · .fp32)
    | 0x48 => is 1 (f · .fp32) && is 2 (f · .fp32) && decide (1 ≤ opC1 ws ∧ opC1 ws ≤ 256)
    | 0x49 => same && even && opC1 ws != 0 && opCols ws % 32 == 0
    | 0x4A => is 0 (fun x => two x && x.red) && opCols ws % 32 == 0
    | 0x4B | 0x4C => same && even && is 2 (f · .i32)
    | 0x4E => opVar ws == 1 || same
    | 0x4F => opVar ws == 0 || is 0 plain
    | _ => true)

/-- Rows of a descriptor from an origin to the end of its extent. -/
def TDesc.rowsFrom (d : TDesc) (r0 : Int) : Nat := ((d.rows : Int) - r0).toNat

/-- Rows and elements of the rectangle that the operation uses of operand i, without split offsets (R407 to R409). -/
def opRect (ws : List Word) (d : TDesc) (i : Nat) : Nat × Nat :=
  let rows := opRows ws
  let cols := opCols ws
  let w := (mxFmt (opMxt ws)).elim 8 Fmt.width
  match opOpc ws, i with
  | 0x40, 2 => (if opBcast ws then 1 else rows, cols)
  | 0x41, 0 => if opCol ws then (1, cols) else (rows, 1)
  | 0x44, 1 | 0x45, 0 => (rows, (cols * w + 7) / 8)
  | 0x44, 2 | 0x45, 2 => (rows, (cols + 31) / 32)
  | 0x46, 2 | 0x46, 3 => (1, cols)
  | 0x48, 2 => (opC0 ws * ((rows - 1) / opC1 ws) + 2, opC1 ws)
  | 0x49, 0 => (min (opC1 ws) rows, ((rows - 1) / opC1 ws + 1) * cols)
  | 0x4A, 0 => (cols, rows)
  | 0x4B, 1 | 0x4C, 0 | 0x4D, 1 | 0x4E, 1 => (d.rowsFrom (opRow0 ws i), cols)
  | 0x4B, 2 | 0x4C, 2 => (rows, 1)
  | _, _ => (rows, cols)

/-- Row offsets of the split partials of operand i. -/
def opSplits (ws : List Word) (i : Nat) : List Int :=
  let st := if i = 1 then opSstr ws else if i = 2 ∧ opOpc ws = 0x48 then opSstrb ws else 0
  if (opOpc ws = 0x47 ∨ opOpc ws = 0x48) ∧ (i = 1 ∨ i = 2) then (List.range (opParts ws)).map (fun n => (n : Int) * st) else [0]

/-- Operand i is read or written as plain I8 elements, whatever scales its descriptor names (R408, R805; log entry 105). -/
def opPlainView (ws : List Word) (i : Nat) : Bool :=
  (opOpc ws == 0x44 && (i == 1 || i == 2)) || (opOpc ws == 0x45 && (i == 0 || i == 2))

/-- Elements and block scales of operand i. -/
def opBytes (ws : List Word) (d : TDesc) (i : Nat) : List Strip :=
  let r := opRect ws d i
  (opSplits ws i).flatMap (fun o =>
    d.elemStrips (opRow0 ws i + o) r.1 (opK0 ws i) r.2
    ++ (if opPlainView ws i then [] else d.scaleStrips (opRow0 ws i + o) r.1 (opK0 ws i) r.2))

/-- The tensor-scale word of a descriptor. -/
def TDesc.scaleWord (d : TDesc) : List Strip := if d.fmt.twoLevel then [Strip.one d.tsaddr 8] else []

/-- The pairs of a NORM at AUX: at D's row origin, K origin 0 (R408). -/
def opPairs (ws : List Word) (aux : Option TDesc) : List Strip :=
  aux.elim [] (fun x => x.strips (opRow0 ws 0) (opRows ws) 0 2)

/-- Does the operation write bytes that it reads (R409)? EWISE, NORM and FILL may write D over A in place. -/
def opOverlaps (ws : List Word) (d : Nat → Option TDesc) (aux : Option TDesc) : Bool :=
  let opc := opOpc ws
  let inPlace := (opc == 0x40 || opc == 0x46) && opDesc ws 0 == opDesc ws 1 && opRow0 ws 0 == opRow0 ws 1
    && opK0 ws 0 == opK0 ws 1
  let src (i : Nat) : List Strip :=
    if !opUses ws i then []
    else (d i).elim [] (fun x => (if i = 1 ∧ inPlace then [] else opBytes ws x i)
      ++ (if opPlainView ws i then [] else x.scaleWord))
  let reads := src 1 ++ (if opc = 0x45 then [] else src 2) ++ src 3 ++ (if opApply ws then opPairs ws aux else [])
  let writes := (d 0).elim [] (fun x => opBytes ws x 0
      ++ (if opc = 0x44 ∨ (opc = 0x42 ∧ opVar ws = 1) then x.scaleWord else []))
    ++ (if opc = 0x45 then (d 2).elim [] (fun x => opBytes ws x 2) else [])
    ++ (if opWritesPairs ws then opPairs ws aux else [])
  stripsMeet writes reads

/-- Does the operation write over a source in place (R410)? -/
def opOverSource (ws : List Word) (d : Nat → Option TDesc) : Bool :=
  (d 0).any (fun x => (List.range 3).any (fun i => opUses ws (i + 1) && (d (i + 1)).any (fun y =>
    stripsMeet (opBytes ws x 0) (opBytes ws y (i + 1)))))

/-- The rows of the pair tensor leave the range of row origins (R408, R411). -/
def pairOriginBad (ws : List Word) : Bool :=
  opOpc ws == 0x46 && opUsesAux ws && decide ((2 ^ 32 : Int) < opRow0 ws 0 + opRows ws)

/-- An origin of the record leaves the ranges of reason 0x08 at an extreme of rows, columns and splits (R411). -/
def opOriginBad (ws : List Word) (d : Nat → Option TDesc) (i : Nat) : Bool :=
  opUses ws i && (d i).any (fun x =>
    let r := opRect ws x i
    (opSplits ws i).any (fun o => decide (opRow0 ws i + o < -(2 ^ 31) ∨ (2 ^ 32 : Int) < opRow0 ws i + o + r.1))
    || decide (2 ^ 32 < opK0 ws i + r.2))

/-- An operation record (R411). -/
def State.opFinds (s : State) (ctx a : Nat) : List Find :=
  if a % 128 ≠ 0 then fails true 0x01 a
  else
    ldRead 0x05 (s.readWords ctx a 16) (fun ws =>
      let opc := opOpc ws
      let d (i : Nat) : Option TDesc := if opUses ws i then s.loadDesc ctx (opDesc ws i) else none
      let aux := if opc = 0x46 ∧ opUsesAux ws then s.loadDesc ctx (opAux ws) else none
      let geo := opc == 0x4D || opc == 0x4E
      let g := if opGuard ws = 0 ∨ opGuard ws % 16 ≠ 0 then .ok 0#64 else s.readGuard64 ctx (opGuard ws)
      fails (opFieldsBad ws) 0x05 a
      ++ (if opKnown ws then
          (List.range 4).flatMap (fun i => if opUses ws i then
            s.descAll ctx (opDesc ws i) (i == 0 || (i == 2 && opc == 0x45))
              (i == 0 && (opc == 0x44 || (opc == 0x42 && opVar ws == 1))) else [])
          ++ (if opc = 0x46 ∧ opUsesAux ws then s.descAll ctx (opAux ws) (opWritesPairs ws) false else [])
          ++ (if geo then
              if opAux ws % 16 ≠ 0 then fails true 0x01 (opAux ws)
              else ldRead 0x05 (s.readVa ctx (opAux ws) 64) (fun bs =>
                fails ((d 1).any (fun x => !(if opc = 0x4D then poolGeoOk bs x else upGeoOk (opVar ws == 0) bs x))) 0x05
                  (opAux ws))
            else [])
          ++ fails (opFormsBad ws d || opOverlaps ws d aux
              || aux.any (fun x => decide (x.fmt ≠ .fp32 ∨ x.kext ≠ 2))) 0x05 a
          ++ fails ((List.range 4).any (opOriginBad ws d) || pairOriginBad ws) 0x08 a
          ++ fails (opGuard ws % 16 != 0) 0x01 (opGuard ws)
          ++ ldRead 0x0A g (fun g =>
              fails (decide (opGuard ws ≠ 0) && guardBad g) 0x0A (opGuard ws)
              ++ fails (decide (opGuard ws ≠ 0 ∧ 0 < guardMax g) && opOverSource ws d) 0x0B a
              ++ (if opGuard ws = 0 then [] else (d 0).elim [] (fun x => s.rungExtents ctx x (guardMax g))))
        else []))

/-- Ranges that an operation record has locked (R411). -/
def State.opLocks (s : State) (ctx a : Nat) : List (Nat × Nat) :=
  match s.readWords ctx a 16 with
  | .error _ => []
  | .ok ws =>
    (a, 128) :: ((List.range 4).filter (opUses ws)).map (fun i => (opDesc ws i, 32))
    ++ (if opUsesAux ws then [(opAux ws, if opOpc ws = 0x46 then 32 else 64)] else [])

/-! ### Records of the argument block -/

/-- Bytes of a record's range, its writes or reads, checked once all arithmetic checks passed (R552). -/
abbrev MapReq := Nat × Nat × Bool

/-- The pixels of n pyramid levels (R553). -/
def levelSites : Nat → Nat → Nat → Nat
  | _, _, 0 => 0
  | w, h, n + 1 => w * h + levelSites ((w + 1) / 2) ((h + 1) / 2) n

/-- Destination rows of an input record. -/
def InRec.rows (r : InRec) : Nat := if r.image then levelSites r.width r.height r.levels else r.height
/-- Destination columns of an input record. -/
def InRec.cols (r : InRec) : Nat := if r.image then 3 else r.width
/-- Source bytes of an input record. -/
def InRec.srcBytes (r : InRec) : Nat :=
  (if r.kind = 4 then 2 * r.pitch * r.height else 0) + r.pitch * (r.height - 1) + r.width * r.bpp

/-- An input record's limits but for its destination (R552). -/
def InRec.limitBad (r : InRec) : Bool :=
  if r.image then
    decide (r.width < 16 ∨ 8192 < r.width ∨ r.height < 16 ∨ 8192 < r.height ∨ r.pitch < r.width * r.bpp ∨ r.pitch % 16 ≠ 0
      ∨ 2 ^ 20 < r.pitch ∨ r.levels < 1 ∨ 8 < r.levels)
  else
    decide (r.height < 1 ∨ 4096 < r.height ∨ r.width < 32 ∨ 16384 < r.width ∨ r.width % 32 ≠ 0
      ∨ r.pitch ≠ r.width * r.bpp ∨ r.levels ≠ 1)

/-- Reserved bits of an input record, or a reserved KIND; an empty record's other fields are not judged. -/
def inReserved (ws : List Word) : Bool :=
  decide (6 < bitsOf (opW ws 0) 63 60) || bitsOf (opW ws 0) 59 56 != 0 || bitsOf (opW ws 2) 59 56 != 0
  || bitsOf (opW ws 3) 31 0 != 0 || (ws.drop 4).any (· != 0#64)

/-- The destination of an input or noise record lies within its descriptor, of one of these formats. -/
def destOk (d : Option TDesc) (fmts : List Fmt) (r0 : Int) (rows k0 cols : Nat) : Bool :=
  match d with
  | none => false
  | some d => fmts.contains d.fmt && decide (0 ≤ r0 ∧ r0 + rows ≤ d.rows ∧ k0 + cols ≤ d.kext)

/-- What checks on a record give: findings, its destination bytes with the record's address, and ranges to map. -/
structure RecOut where
  finds : List Find := []
  dest : List (Nat × List Strip) := []
  maps : List MapReq := []
deriving DecidableEq, Repr

/-- Strips written, as map requests. -/
def writeReqs (l : List Strip) : List MapReq := (l.flatMap Strip.ranges).map (fun r => (r.1, r.2, true))

/-- Input record n (R550, R552). -/
def State.inputLd (s : State) (ctx arg n : Nat) : RecOut :=
  let a := inAddr arg n 0
  match s.readWords ctx a 8 with
  | .error e => { finds := [e.find 0x01] }
  | .ok ws =>
    let r := parseIn ws
    if r.kind = 0 ∧ !inReserved ws then {}
    else if inReserved ws || r.src % 16 != 0 || r.dst % 32 != 0 then { finds := fails true 0x01 a }
    else
      let d := s.loadDesc ctx r.dst
      let kextOk := d.all (fun d => decide (d.kext = r.cols))
      if r.limitBad || !destOk d [.bf16] r.row0 r.rows 0 r.cols || !kextOk then
        { finds := s.descFinds ctx r.dst ++ fails true 0x45 a }
      else
        let out := (d.getD {}).strips r.row0 r.rows 0 r.cols
        { finds := s.descFinds ctx r.dst, dest := [(a, out)], maps := (r.src, r.srcBytes, false) :: writeReqs out }

/-- Noise record n (R556, R552). -/
def State.noiseLd (s : State) (ctx arg size n : Nat) : RecOut :=
  let a := arg + 0x1200 + 32 * n
  match s.readWords ctx a 4 with
  | .error e => { finds := [e.find 0x01] }
  | .ok ws =>
    let r := parseNoise ws
    if r.desc = 0 then { finds := fails (ws.any (· != 0#64)) 0x01 a }
    else if bitsOf (opW ws 0) 63 56 != 0 || bitsOf (opW ws 3) 17 0 != 0 || decide (2 ≤ r.when_) || r.desc % 32 != 0 then
      { finds := fails true 0x01 a }
    else
      let d := s.loadDesc ctx r.desc
      if decide (r.rows = 0 ∨ r.cols = 0 ∨ 2 ^ 38 < r.rows * r.cols ∨ size ≤ r.well)
          || !destOk d [.bf16, .fp16, .fp32] r.row0 r.rows r.k0 r.cols then
        { finds := s.descFinds ctx r.desc ++ fails true 0x45 a }
      else
        let out := (d.getD {}).strips r.row0 r.rows r.k0 r.cols
        { finds := s.descFinds ctx r.desc, dest := [(a, out)], maps := writeReqs out }

/-- Fields of a session record that its KIND does not use and that are not 0, reserved values, and misaligned addresses
(R569). A decode session uses its profile, tier, level, sizes, slots, addresses and LEN. -/
def sessionReserved (e : Session) : Bool :=
  let w (i : Nat) : Word := opW e.words i
  let enc := e.kind == 1
  decide (2 < e.kind) || bitsOf (w 0) 36 0 != 0 || bitsOf (w 4) 15 0 != 0 || bitsOf (w 6) 15 0 != 0
  || bitsOf (w 10) 55 32 != 0 || [5, 7, 9, 11].any (fun i => bitsOf (w i) 63 56 != 0)
  || (e.words.drop 12).any (· != 0#64)
  || (enc && decide (e.rc = 3 ∨ 3 < e.gop ∨ 2 ≤ bitsOf (w 0) 39 38))
  || (!enc && (bitsOf (w 0) 49 37 != 0 || e.frames != 0 || w 2 != 0#64 || w 3 != 0#64 || w 4 != 0#64))
  || e.block % 64 != 0 || e.pool % 65536 != 0 || e.slotBytes % 65536 != 0 || e.pslot % 65536 != 0
  || (if enc then e.src else e.dst) % 65536 != 0

/-- The limits of R570 that a session record breaks. -/
def sessionLimitBad (e : Session) : Bool :=
  let enc := e.kind == 1
  let rc := e.rc == 1 || e.rc == 2
  let W := e.width
  let H := e.height
  let nref := bitsOf (opW e.words 0) 44 44 + 1
  let q (hi lo : Nat) : Nat := bitsOf (opW e.words 4) hi lo
  match levelLimits (bitsOf (opW e.words 0) 57 50) (bitOf (opW e.words 0) 58) with
  | none => true
  | some (ps, sr, br, cpb) =>
    decide (W < 128 ∨ 8192 < W ∨ W % 8 ≠ 0 ∨ H < 128 ∨ 4320 < H ∨ H % 8 ≠ 0 ∨ ps < W * H ∨ 8 * ps < W * W ∨ 8 * ps < H * H)
    || decide (e.nslot < 1 ∨ 64 < e.nslot ∨ e.npool < 1 ∨ 16 < e.npool ∨ e.slotBytes < e.frameBytes
        ∨ e.pslot < poolBytes W H)
    || (enc && (decide (e.frames = 0 ∨ e.fpsNum = 0 ∨ e.fpsDen = 0 ∨ sr * e.fpsDen < W * H * e.fpsNum)
      || decide (51 < q 63 56 ∨ 51 < q 55 48 ∨ 51 < q 47 40)
      || decide (e.gop = 3 ∧ e.nslot < 9)
      || decide (e.npool ≠ (if e.gop = 0 then 1 else if e.gop = 3 then 5 else nref + 1))
      || (!rc && decide (e.len < 4096))
      || (rc && (decide (br < bitsOf (opW e.words 3) 63 32 ∨ cpb < bitsOf (opW e.words 3) 31 0 ∨ e.init < 1 ∨ 100 < e.init)
        || decide (e.cpb * e.fpsNum < e.rate * e.fpsDen + 2 * e.bound * e.fpsNum)
        || decide (e.rate * e.fpsDen < e.bound * e.fpsNum)
        || decide (e.init * e.cpb < 100 * e.bound)
        || decide (8 * e.len * e.fpsNum < e.cpb * e.fpsNum + e.frames * e.rate * e.fpsDen)))))

/-- Codec session record n (R569, R570). -/
def State.sessionLd (s : State) (ctx arg n : Nat) : RecOut :=
  let a := arg + 0x1400 + 128 * n
  match s.readWords ctx a 16 with
  | .error e => { finds := [e.find 0x01] }
  | .ok ws =>
    let e : Session := { job := 0, n := n, words := ws }
    if e.kind = 0 then { finds := fails (ws.any (· != 0#64)) 0x01 a }
    else if sessionReserved e then { finds := fails true 0x01 a }
    else if sessionLimitBad e then { finds := fails true 0x45 a }
    else
      let frames (base : Nat) : MapReq := (base, e.nslot * e.slotBytes, true)
      { maps := [if e.kind = 1 then frames e.src else (e.src, e.len, false),
                 if e.kind = 1 then (e.dst, e.len, true) else frames e.dst,
                 (e.pool, e.npool * e.pslot, true), (e.block, 64, true)] }

/-- Destinations of two records overlap (R552): the later record's address. -/
def destOverlaps : List (Nat × List Strip) → List Find
  | [] => []
  | x :: rest => (rest.filter (fun y => stripsMeet x.2 y.2)).map (fun y => { cls := 2, code := 0x45, addr := y.1 }) ++ destOverlaps rest

/-- All records of R552 and R570; their mapping is judged only when no arithmetic check failed. -/
def State.recordFinds (s : State) (ctx arg size : Nat) : List Find :=
  let outs := (List.range 4).map (s.inputLd ctx arg) ++ (List.range 16).map (s.noiseLd ctx arg size)
    ++ (List.range 4).map (s.sessionLd ctx arg)
  let finds := outs.flatMap RecOut.finds ++ destOverlaps (outs.flatMap RecOut.dest)
  if finds.isEmpty then (outs.flatMap RecOut.maps).flatMap (fun m => s.mapped ctx m.1 m.2.1 m.2.2) else finds

/-- A migration record from its words (R459). -/
def parseMig (ws : List Word) : MigRec :=
  { rbase := bitsOf (opW ws 0) 55 0, rframes := bitsOf (opW ws 1) 63 32, cmib := bitsOf (opW ws 1) 31 16,
    auto_ := bitOf (opW ws 1) 0, hbase := bitsOf (opW ws 2) 61 0, hframes := bitsOf (opW ws 3) 63 32 }

/-- A context-cache record from its words (R365). -/
def parsePool (ws : List Word) : PoolRec :=
  { base := bitsOf (opW ws 0) 55 0, cisMax := bitsOf (opW ws 1) 63 32, pages := bitsOf (opW ws 1) 31 0,
    hostMax := bitsOf (opW ws 2) 63 32, resMax := bitsOf (opW ws 2) 31 0 }

/-- The context-cache record (R366): its pages of 2 MiB in cisterns lie within the scratch of the whole partition, `scratch`
MiB on each well. -/
def State.poolFinds (s : State) (ctx a scratch size : Nat) (ws : List Word) : List Find :=
  let p := parsePool ws
  fails (bitsOf (opW ws 0) 63 56 != 0 || opW ws 3 != 0#64 || p.base % 2 ^ 21 != 0) 0x01 a
  ++ (if p.pages = 0 then []
    else
      fails (decide (1048575 < p.pages ∨ size * scratch < 2 * p.cisMax ∨ p.resMax + p.hostMax < p.pages)) 0x44 a
      ++ s.mapped ctx p.base (p.pages * 2 ^ 21) true)

/-- The migration record (R460). -/
def migFinds (a scratch : Nat) (ws : List Word) : List Find :=
  let m := parseMig ws
  fails (bitsOf (opW ws 0) 63 56 != 0 || bitsOf (opW ws 1) 15 1 != 0 || bitsOf (opW ws 2) 63 62 != 0
    || bitsOf (opW ws 3) 31 0 != 0 || m.rbase % 2 ^ 21 != 0 || m.hbase % 2 ^ 21 != 0
    || decide (reservoirSize < m.rbase + m.rframes * 2 ^ 21)) 0x01 a
  ++ fails (decide (scratch < m.cmib)) 0x44 a

/-- The image-write record (R520). -/
def State.imgFinds (s : State) (ctx a : Nat) (ws : List Word) : List Find :=
  if ws.all (· == 0#64) then []
  else
    let tgt := bitsOf (opW ws 1) 63 62
    let src := bitsOf (opW ws 0) 55 0
    let dst := bitsOf (opW ws 1) 43 0
    let len := bitsOf (opW ws 2) 31 0
    let bad := bitsOf (opW ws 0) 63 56 != 0 || src % 65536 != 0 || decide (2 ≤ tgt) || bitsOf (opW ws 1) 61 44 != 0
      || bitsOf (opW ws 2) 63 32 != 0 || opW ws 3 != 0#64
      || (if tgt = 1 then dst != 0 || decide (len < 1 ∨ 1024 < len)
          else dst % rowBytes != 0 || decide (len < 1 ∨ 2 ^ 25 < len ∨ aquiferSize ≤ dst + (len - 1) * rowBytes))
    if bad then fails true 0x01 a
    else
      let n := if tgt = 1 then len * 65536 else min (len * rowBytes) (aquiferSize - dst)
      s.mapped ctx src n false

/-! ### The job -/

/-- Bytes of the argument block that the loader reads (R610). -/
def argBytes : Nat := 0x1600

/-- The readable addresses of a list (R301, R411). -/
def State.readList (s : State) (ctx va n : Nat) : List Nat :=
  match s.readWords ctx va n with
  | .ok ws => ws.map BitVec.toNat
  | .error _ => (List.range n).filterMap (fun i => (s.readWord ctx (va + 8 * i)).toOption.map BitVec.toNat)

/-- A list read, and the findings of each address on it that reads. -/
def State.listFinds (s : State) (ctx va n : Nat) (k : Nat → List Find) : List Find :=
  s.readFinds ctx 0x02 va (8 * n) ++ (s.readList ctx va n).eraseDups.flatMap k

/-- The first words of the argument block: R610, R275, R401, and what they name: the program and the lists (R301, R411). -/
def State.headFinds (s : State) (ctx : Nat) (x : Job) (ws : List Word) : List Find :=
  let w (o : Nat) : Word := opW ws (o / 8)
  let prog := (w 8).toNat
  let plist := (w 0x18).toNat
  let olist := (w 0x28).toNat
  let plen := bitsOf (w 0x10) 63 32
  let scratch := bitsOf (w 0x10) 31 0
  let nprick := bitsOf (w 0x20) 63 32
  let nops := bitsOf (w 0x20) 31 0
  let size := min (max x.psize 1) 12
  let fits := ((List.range 12).filter (fun v =>
    s.fld rWhWellState (2 * v + 25) (2 * v + 24) != 3 && decide (scratch ≤ s.scratchMib v))).length
  fails (bitsOf (w 0) 63 56 != 1 || bitsOf (w 0) 55 0 != 0 || w 0x38 != 0#64) 0x01 x.arg
  ++ fails (prog % 8 != 0) 0x01 prog ++ fails (plist % 8 != 0) 0x01 plist ++ fails (olist % 8 != 0) 0x01 olist
  ++ fails (plen == 0) 0x03 (x.arg + 0x10) ++ fails (decide (32768 < plen)) 0x40 (x.arg + 0x10)
  ++ fails (decide (1024 < nprick ∨ 4096 < nops)) 0x43 (x.arg + 0x20)
  ++ fails (decide (x.psize = 0 ∨ 12 < x.psize ∨ s.wellsKept < x.psize)) 0x41 0
  ++ fails (decide (fits < size)) 0x44 (x.arg + 0x10)
  ++ (if plen = 0 ∨ 32768 < plen then [] else s.codeFinds ctx prog plen)
  ++ (if 1024 < nprick then [] else s.listFinds ctx plist nprick (s.prickFinds ctx size))
  ++ (if 4096 < nops then [] else s.listFinds ctx olist nops (s.opFinds ctx))
  ++ (let rec_ (o : Nat) (k : Nat → List Word → List Find) : List Find :=
        ldRead 0x01 (s.readWords ctx (x.arg + o) 4) (k (x.arg + o))
      rec_ 0x1000 (fun a => s.poolFinds ctx a scratch size) ++ rec_ 0x1020 (fun a => migFinds a scratch)
      ++ rec_ 0x1040 (s.imgFinds ctx))

/-- What verifying an argument block finds: its words, in the group of reason 0x01 (log entry 34), and what they name. -/
def State.argFinds (s : State) (ctx : Nat) (x : Job) : List Find :=
  s.readFinds ctx 0x01 x.arg argBytes
  ++ ldRead 0x01 (s.readWords ctx x.arg 8) (s.headFinds ctx x)
  ++ ldRead 0x01 (s.readWords ctx (x.arg + 0x1060) 20) (fun ws => fails (ws.any (· != 0#64)) 0x01 x.arg)
  ++ s.recordFinds ctx x.arg (min (max x.psize 1) 12)

/-- Everything the loader finds in a job (R301, R427, R610). -/
def State.jobFinds (s : State) (x : Job) : List Find :=
  fails (x.arg % 4096 != 0) 0x01 x.arg
  ++ (if x.root % 32768 ≠ 0 ∨ reservoirSize < x.root + 32768 then fails true 0x01 x.root
    else (s.argFinds (rootCtx x.root) x).map (s.placeFind x.root))

/-- Of two findings of one class, the one reported: the lower code, then the lower address (R304, R305). -/
def Find.min (a b : Find) : Find :=
  if b.code < a.code ∨ (b.code = a.code ∧ b.addr < a.addr) then b else a

/-- The finding that is reported: of the lowest class (R304, R305). -/
def verdict (l : List Find) : Option Find :=
  [0, 1, 2].findSome? (fun c =>
    match l.filter (fun f => f.cls == c) with
    | [] => none
    | f :: rest => some (rest.foldl Find.min f))

/-- The status of a finding (R304, R305). -/
def Find.status (f : Find) : Nat :=
  match f.cls with
  | 0 => 0x22
  | 1 => 0x30
  | _ => if f.code < 0x40 then 0x10 else 0x11

/-- The leaf entries that map ranges of a job (R432). -/
def State.leafEntries (s : State) (ctx : Nat) (rs : List (Nat × Nat)) : List Nat :=
  ((rs.flatMap (fun r => runsOf r.1 r.2)).filterMap (fun r => (s.leafOf ctx r.1 false).toOption.map Leaf.at_)).eraseDups

/-- LK set in leaf entries (R432). -/
def State.lock (s : State) (l : List Nat) : State :=
  l.foldl (State.leafBit · 55 true) s

/-- The ACCEPT record of a job (R613). -/
def Job.acceptRec (x : Job) (tb : Nat) : JRec :=
  { kind := 1, queue := x.queue, gen := x.gen, seq := x.seq, prio := x.prio, psize := x.psize, arg := x.arg, root := x.root,
    tb := tb }

/-- The tensor descriptors that the input and noise records of an argument block name (R166, R550, R556). -/
def State.recordDescs (s : State) (ctx arg : Nat) : List Nat :=
  let word (a : Nat) : Word := (s.readWord ctx a).toOption.getD 0#64
  ((List.range 4).filterMap (fun n =>
      if bitsOf (word (inAddr arg n 0)) 63 60 = 0 then none else some (bitsOf (word (inAddr arg n 2)) 55 0)))
  ++ ((List.range 16).map (fun n => bitsOf (word (arg + 0x1200 + 32 * n)) 55 0)).filter (· != 0)

/-- The leaf entries that a job locks: those not locked yet, and those that another job holds locked too (R166, R432; log
entry 113). -/
def State.lockable (s : State) (l : List Nat) : List Nat :=
  l.filter (fun a => match s.leafGet a with
    | .ok v => !bitOf v 55 || s.jobs.any (fun y => y.locked.contains a)
    | .error _ => false)

/-- What the block keeps of a job's tables (R187, R301, R401), its pages locked (R432). -/
def State.loadTables (s : State) (j : Nat) (x : Job) : State :=
  let ctx := rootCtx x.root
  let w (o : Nat) : Word := (s.readWord ctx (x.arg + o)).toOption.getD 0#64
  let pricks := s.readList ctx (w 0x18).toNat (bitsOf (w 0x20) 63 32)
  let ops := s.readList ctx (w 0x28).toNat (bitsOf (w 0x20) 31 0)
  let tabs := pricks.filterMap (s.prickGet ctx x.psize)
  let ranges := [(x.arg, argBytes), ((w 8).toNat, 8 * bitsOf (w 0x10) 63 32)] ++ tabs.flatMap PrickLd.lockRanges
    ++ ops.flatMap (s.opLocks ctx) ++ (s.recordDescs ctx x.arg).map (fun a => (a, 32))
  let locks := s.lockable (s.leafEntries ctx ranges)
  let words (o : Nat) : List Word := (List.range 4).map (fun i => w (o + 8 * i))
  let scratch := bitsOf (w 0x10) 31 0
  let noRestart := ((tabs.filter PrickLd.notRestartable).map (fun t => t.t.addr)).eraseDups
  (s.lock locks).modJob j (fun y => { y with
    pricks := pricks, ops := ops, scratch := scratch, noRestart := noRestart, locked := locks,
    mig := parseMig (words 0x1020), pool := parsePool (words 0x1000) })

/-- A verified job: its tables, and its ACCEPT record in the journal and the mirror (R611 orders 2 and 3, R680). -/
def State.passJob (s : State) (j : Nat) (x : Job) : State :=
  let rec_ := x.acceptRec s.now
  let s := (s.loadTables j x).record rec_
  let s := s.modJob j (fun y => { y with phase := .accepting, tbAccept := s.now })
  let e : CEntry := { typ := 1, gen := x.gen, seq := x.seq, queue := x.queue, tbAccept := s.now }
  if s.inSync then s.promise rec_ e else s

/-- A failed read of the loader reported: a guarded word that mismatches (R38), an uncorrectable block (R399, R485, R516),
in a page table too; the translation fault itself is reported by the rejection alone (R427). -/
def State.noteFind (s : State) (root : Nat) (e : AccErr) : State :=
  match e with
  | .guard a => s.noteGuard 12 0 a
  | .tier _ l wr => s.noteTier .pump 12 0 l wr
  | .trans 0xA _ va _ => s.noteTable (rootCtx root) 12 va
  | _ => s

/-- Every failed read of the loader reported once. -/
def State.noteFinds (s : State) (root : Nat) (l : List Find) : State :=
  (l.filterMap Find.err).eraseDups.foldl (State.noteFind · root ·) s

/-- JOB_LOADER_VERIFY (R301 to R306, R611 order 1): job j is verified; the loader waits for a page in transit (R438). -/
def execJobLoaderVerify (j : Nat) (s : State) : Res :=
  needSome (s.job j) 301 (fun x =>
    need (decide (x.phase = .verifying)) 301 (
      let l := s.jobFinds x
      match l.find? (fun f => f.cls == 3) with
      | some f => s.stalls f.code
      | none =>
        .next (match verdict l with
          | some f =>
            ((s.noteFinds x.root l).modJob j (fun y => { y with phase := .committed })).reject x.queue x.gen x.seq f.status
              f.code f.addr
          | none => s.passJob j x)))

end Sys2Proof.Machine
end

