-- ==== Sys2Proof/Machine/Pair.lean ====
section
/-!
DEFINITION. The pair (R674 to R702): formation, mirroring, the judgement of the twin, takeover and handback; and the
commit of jobs (R615), which a handback waits for.
-/

namespace Sys2Proof.Machine

/-! ### The member -/

/-- The pair record changed. -/
def State.modPair (s : State) (f : Pair → Pair) : State := { s with pair := f s.pair }
/-- PAIR_ID of this member. -/
def State.pairId (s : State) : Nat := s.fld rTlPairCtl 31 0
/-- VC_ID.UCODE. -/
def State.ucode (s : State) : Nat := s.fld rVcId 31 16
/-- A pair state entered (R675). -/
def State.enterPair (s : State) (st : Nat) : State := s.setFld rTlPairStatus 63 60 st
/-- The pair epoch, kept in the aquifer reserve too (R676). -/
def State.setEpoch (s : State) (e : Nat) : State :=
  (s.setFld rTlPairStatus 31 0 e).modPair (fun p => { p with epochHeld := e % 2 ^ 32 })
/-- A pair report (R679, R687, R688). -/
def State.pairReport (s : State) (detail : Nat) : State := s.reportSelf 24 0xE 0 0 detail

/-- Every queue's waiting entries changed. -/
def State.mapWaiting (s : State) (f : List (CEntry × Nat) → List (CEntry × Nat)) : State :=
  { s with hqs := tabMap {} (fun _ x => { x with waiting := f x.waiting }) s.hqs }

/-- Mirroring is suspended (R688): entries wait for the twin no more, and no ring place is promised. -/
def State.leaveSync (s : State) : State :=
  (s.mapWaiting (fun l => (l.filter (fun y => y.2 != 2)).map (fun y => (y.1, 0)))).modPair (fun p => { p with mirrorQ := [] })

/-! ### Formation (R676) -/

/-- This member's PAIR_HELLO. -/
def State.sayHello (s : State) : State :=
  s.tell (.hello (s.fld rTlPairCtl 62 62) (s.reg rTlPairQown) s.ucode)

/-- Formation starts (R676 order 1): it needs PAIR_EN, and the PAIR_HELLO goes out once port 8 is UP. -/
def State.startForming (s : State) : State :=
  if s.fld rTlPairCtl 63 63 = 0 then s
  else
    let s := (s.enterPair 1).setFld rTlPairStatus 57 54 0
    if s.portUp 8 then s.sayHello else s

/-- A write of TL_PAIR_CTL, taken in SOLO alone (R674); setting PAIR_EN starts formation when port 8 is UP. -/
def State.writePairCtl (s : State) (v : Word) : State :=
  if s.pairState ≠ 0 then s
  else
    let s := s.setReg rTlPairCtl (setBits v 61 56 0)
    if s.portUp 8 then s.startForming else s

/-- PAIR_FORMATION_START (R676): the value written to TL_PAIR_CTL, PAIR_EN among it. -/
def execPairFormationStart (v : Word) (s : State) : Res :=
  need (bitOf v 63 && s.portUp 8) 676 (.next (s.writePairCtl v))

/-- The entry of TYPE 0 with which a bare queue state goes (R676, R695). -/
def bareEntry (q gen : Nat) : CEntry := { typ := 0, gen := gen, seq := 0, queue := q }

/-- The state of queue q as order 4 and HANDBACK send it. -/
def State.bareQueue (s : State) (q : Nat) : PairMsg := .queue (s.qMirror (bareEntry q (s.qGen q)))

/-- The header of a job's checkpoint with its saved state. -/
def State.headerOf (s : State) (x : Job) (c : CpSaved) : Option PairMsg :=
  (s.cpFields (rootCtx x.root) c.area).map (fun l =>
    .header { queue := x.queue, gen := x.gen, seq := x.seq, root := x.root, area := c.area, fields := l, saved := c })

/-- A job's last valid checkpoint with its retained regions (R676 order 4), and how many mirrors it takes; nothing is sent
while bytes of it cannot be read yet. -/
def State.sendCheckpoint (s : State) (j : Nat) (x : Job) : Except AccErr (State × Nat) :=
  let ctx := rootCtx x.root
  let valid := s.saved.filter (fun c => c.job == j && s.cpValid ctx x c.area == some c.cpseq)
  match s.judgeAreas ctx 0 (s.areasOf j) with
  | .error e => .error e
  | .ok s =>
    match valid.foldl (fun (b : Option CpSaved) c => if (b.elim 0 CpSaved.cpseq) < c.cpseq then some c else b) none with
    | none => .ok (s, 0)
    | some c =>
      let spans := cpSpans c.area c.list
      match s.cpMirror ctx x spans, s.headerOf x c with
      | .ok t, some h => .ok (t.tell h, spans.length + 1)
      | .error (.stall r), _ => .error (.stall r)
      | _, _ => .ok (s, 0)

/-- The journal records of a job: its ACCEPT record, and its COMMIT record once it ended. -/
def Job.records (x : Job) (tb : Nat) : List JRec :=
  x.acceptRec x.tbAccept :: (if x.phase = .ended ∨ x.phase = .committed then [x.commitRec tb] else [])

/-- The jobs whose records order 4 sends: the open ones, and every one of the twin's queues that this member took over
(R676, R696). -/
def State.syncJobs (s : State) : List (Nat × Job) :=
  (s.jobs.zipIdx.filter (fun e => e.1.isOpen || (e.1.order != 0 && bitOf s.pair.taken e.1.queue))).map (fun e => (e.2, e.1))

/-- SYNC_DONE goes out once every mirror of order 4 is acknowledged (R676 order 5). -/
def State.maybeSyncDone (s : State) : State :=
  if s.pairState = 2 ∧ s.pair.owed = 0 ∧ s.pair.sentSync = false then
    (s.tell .syncDone).modPair (fun p => { p with sentSync := true })
  else s

/-- Order 4 of formation: SYNCING, and everything that a takeover needs is sent. -/
def State.startSync (s : State) : State :=
  let s := (s.enterPair 2).modPair (fun p => { p with sentSync := false, gotSync := false, owed := 0 })
  let (s, n) := s.syncJobs.foldl (fun (a : State × Nat) e =>
    let rs := e.2.records s.now
    let t := rs.foldl (fun (t : State) r => t.tell (.journal r none)) a.1
    let (t, k) := if e.2.isOpen then ((t.sendCheckpoint e.1 e.2).toOption).getD (t, 0) else (t, 0)
    (t, a.2 + rs.length + k)) (s, 0)
  let qs := (List.range 64).filter (fun q => bitOf (s.reg rTlPairQown) q)
  let s := qs.foldl (fun (t : State) q => t.tell (t.bareQueue q)) s
  (s.modPair (fun p => { p with owed := n + qs.length })).maybeSyncDone

/-- The rule under which order 4 has to wait for bytes of a checkpoint (R469). -/
def State.syncWaits (s : State) : Option Nat :=
  s.syncJobs.findSome? (fun e => if !e.2.isOpen then none else match s.sendCheckpoint e.1 e.2 with
    | .error (.stall r) => some r
    | _ => none)

/-- Both sides of order 4 are complete: IN_SYNC (R676 order 5). Records under way now are mirrored with their entries;
jobs held since a cold reset resume, with their tables (R696). -/
def State.enterInSync (s : State) : State :=
  if s.pairState = 2 ∧ s.pair.sentSync = true ∧ s.pair.gotSync = true then
    let s := s.enterPair 3
    let s := (s.jobs.zipIdx.filter (fun e => e.1.held)).foldl (fun (t : State) e => t.loadTables e.2 e.1) s
    let s := { s with pw := { s.pw with wasSync := false } }
    let s := { s with jobs := s.jobs.map (fun (j : Job) => { j with held := false }) }
    s.jobs.zipIdx.foldl (fun (t : State) e =>
      let x := e.1
      if x.phase = .accepting then
        t.promise (x.acceptRec x.tbAccept) { typ := 1, gen := x.gen, seq := x.seq, queue := x.queue, tbAccept := x.tbAccept }
      else if x.phase = .ended ∧ !x.held then
        (t.modJob e.2 (fun y => { y with commitMirrored := false })).promise (x.commitRec t.now) (x.completeEntry t.now)
      else t) s
  else s

/-- W3, in which a message at port 8 waits in its receive buffer (R706, R712). -/
def State.inW3 (s : State) : Bool := s.fld rPmState 38 36 == 3
/-- The level of wake source 2 stands (log entry 89). -/
def State.twinKnocks (s : State) : State := { s with pw := { s.pw with twinWaits := true } }

/-- A pair message arrives: port 8 is up; one with another PAIR_ID is discarded and reported (R679), one of an older epoch
discarded and counted (R676). -/
def rxPair (h : PairHdr) (s : State) (k : State → Res) : Res :=
  need (s.portUp 8) 679 (
    if s.inW3 then .next s.twinKnocks
    else if h.pairId ≠ s.pairId then .next (s.pairReport (h.pairId % 2 ^ 32))
    else if h.epoch < s.epoch then .next (s.modPair (fun p => { p with stale := p.stale + 1 }))
    else k s)

/-- REFUSED with a reason (R676 order 2). -/
def State.refuse (s : State) (r : Nat) : State := (s.enterPair 8).setFld rTlPairStatus 57 54 r

/-- Orders 2 and 3 of formation on the twin's PAIR_HELLO; the member repeats its own, for a twin that was not yet
forming when the first came. -/
def State.judgeHello (s : State) (h : PairHdr) (member : Nat) (qown : Word) (ucode : Nat) : State :=
  if h.pairId ≠ s.pairId then (s.pairReport (h.pairId % 2 ^ 32)).refuse 1
  else if member = s.fld rTlPairCtl 62 62 then s.refuse 2
  else if ucode ≠ s.ucode then s.refuse 3
  else if qown &&& s.reg rTlPairQown ≠ 0#64 then s.refuse 4
  else
    let s := s.sayHello.setEpoch (max h.epoch s.epoch + 1)
    (s.modPair (fun p => { p with twinQown := qown })).startSync

/-- PAIR_HELLO (R676, R689): in FORMING it is judged whatever its epoch; within a suspension it ends that; otherwise it
has no effect. -/
def execPairHello (h : PairHdr) (member : Fin 2) (qown : Word) (ucode : BitVec 16) (s : State) : Res :=
  if s.pairState = 1 then
    need (s.portUp 8) 679 (
      if s.inW3 then .next s.twinKnocks
      else
        let t := s.judgeHello h member qown ucode.toNat
        match s.syncWaits with
        | some r => if t.pairState = 8 then .next t else s.stalls r
        | none => .next t)
  else rxPair h s (fun s => .next (s.modPair (fun p => { p with suspended := none })))

/-- SYNC_DONE (R676 order 5). -/
def execSyncDone (h : PairHdr) (s : State) : Res :=
  rxPair h s (fun s =>
    .next (if s.pairState = 2 then (s.modPair (fun p => { p with gotSync := true })).enterInSync else s))

/-! ### Mirrors received (R680, R682, R686, R687, R696) -/

/-- An acknowledgement sent. -/
def State.sendAck (s : State) (m : MirrorOf) (ok : Bool) : State := s.tell (.ack m ok)

/-- A queue state kept in the wellhead SRAM, with its entry (R680). -/
def State.keepQueue (s : State) (q : QMirror) : State :=
  s.modPair (fun p => { p with
    queues := tabPut none p.queues q.entry.queue (some q)
    entries := if q.entry.typ = 0 then p.entries else (q.entry, (q.cqTail + 65535) % 65536, q.phase) :: p.entries })

/-- Jobs held since a cold reset that a record of the twin names are dropped without a record (R696). -/
def State.dropHeld (s : State) (r : JRec) : State :=
  { s with jobs := s.jobs.map (fun (j : Job) =>
      if j.held && recNames r j then { j with phase := .committed, order := 0, commitDurable := true, held := false } else j) }

/-- JOURNAL_MIRROR (R680, R682): into the twin journal, which holds 1,048,576 pages of 128 records (R523). -/
def execJournalMirror (h : PairHdr) (r : JRec) (q : Option QMirror) (s : State) : Res :=
  rxPair h s (fun s =>
    let s := (s.dropHeld r).modPair (fun p => { p with journal := (recStore r :: p.journal).take 134217728 })
    let s := q.elim s s.keepQueue
    .next (s.syncOpen.sendAck (.journal r.kind r.queue r.gen r.seq) true))

/-! ### Records taken over (R692, R694, R695) -/

/-- Records of the twin journal that pass their check, newest first (R42). -/
def Pair.records (p : Pair) : List JRec := p.journal.filterMap recLoad

/-- A COMMIT record of the twin journal for an ACCEPT record. -/
def Pair.commitOf (p : Pair) (r : JRec) : Option JRec :=
  p.records.find? (fun c => c.kind == 2 && c.queue == r.queue && c.gen == r.gen && c.seq == r.seq)

/-- The mirrored checkpoints of a job: its headers, those of older CPSEQ last. -/
def Pair.headersOf (p : Pair) (r : JRec) : List CpHeader :=
  p.headers.filter (fun h => h.queue == r.queue && h.gen == r.gen && h.seq == r.seq)

/-- Wells that a header names (R684). -/
def CpHeader.wells (h : CpHeader) : List Nat := (List.range 12).filter (fun w => bitOf (opW h.fields 0) (40 + w))

/-- The header with the largest CPSEQ. -/
def lastHeader (l : List CpHeader) : Option CpHeader :=
  l.foldl (fun b h => match b with
    | none => some h
    | some a => if (opW a.fields 2).toNat < (opW h.fields 2).toNat then some h else some a) none

/-- A job from the twin's ACCEPT record: held as committed, or open with its tables and mirrored checkpoints. -/
def State.adopt (s : State) (r : JRec) : State :=
  if s.jobs.any (fun j => j.order != 0 && recNames r j) then s
  else
    let j := s.jobs.length
    let n := (s.jobs.filter (fun y => y.order != 0)).length + 1
    let x : Job :=
      { queue := r.queue, gen := r.gen, seq := r.seq, prio := r.prio, psize := r.psize, arg := r.arg, root := r.root,
        phase := .waiting, durable := true, mirrored := true, order := n, tbAccept := r.tb, taken := true }
    match s.pair.commitOf r with
    | some c =>
      let x := { x with phase := .committed, commitDurable := true, commitMirrored := true, status := some c.status,
                        reason := c.reason, widened := c.widened, passes := c.passes, addr := c.addr }
      { s with jobs := s.jobs ++ [x] }
    | none =>
      let hs := s.pair.headersOf r
      let want := (lastHeader hs).elim [] CpHeader.wells
      let saved := hs.map (fun h => { h.saved with job := j, area := h.area, cpseq := (opW h.fields 2).toNat })
      ({ s with jobs := s.jobs ++ [{ x with want := want }], saved := saved ++ s.saved }).loadTables j x

/-- Every ACCEPT record of the twin journal for a set of queues, oldest first; a record that fails its check is reported and
not used (R38, R42). -/
def State.adoptAll (s : State) (mask : Word) : State :=
  let s := if s.pair.journal.any (fun g => (recLoad g).isNone) then s.reportSelf 24 0x1 0 0 0 else s
  ((s.pair.records.filter (fun r => r.kind == 1 && bitOf mask r.queue)).reverse.foldl State.adopt s).syncOpen

/-- A queue's registers from its mirrored state (R692 order 3, R695). -/
def State.restoreQueue (s : State) (q : Nat) (m : QMirror) : State :=
  let s := (s.setFld (rQStatus q) 63 48 m.sqHead).setFld (rQStatus q) 47 40 m.gen
  let s := (s.setFld (rQStatus q) 15 0 m.cqTail).setReg (rQLast q) (BitVec.ofNat 64 (m.accepted % 2 ^ 32 * 2 ^ 32 + m.last % 2 ^ 32))
  s.setHq q { phase := m.phase }

/-- QUEUE_MIRROR (R680); a bare state while IN_SYNC is a queue handed back (R695), which the member then serves. -/
def execQueueMirror (h : PairHdr) (q : QMirror) (s : State) : Res :=
  rxPair h s (fun s =>
    let n := q.entry.queue
    let s := s.keepQueue q
    let s := if q.entry.typ = 0 ∧ s.inSync ∧ n < 64 then
        ((s.restoreQueue n q).setFld rTlPairQown n n 1).adoptAll (1#64 <<< n)
      else s
    .next (s.sendAck (.queue n q.entry.gen q.entry.seq) true))

/-- CHECKPOINT_MIRROR (R686, R687): written through the mirrored ROOT; a byte that faults is reported and ends no job. -/
def execCheckpointMirror (h : PairHdr) (queue : Fin 64) (gen : BitVec 8) (seq : Word32) (root : BitVec 56) (va : BitVec 56)
    (bytes : List Byte) (s : State) : Res :=
  let old := s
  rxPair h s (fun s =>
    let m : MirrorOf := .checkpoint queue gen.toNat seq.toNat
    match s.writeDir (rootCtx root.toNat) va.toNat bytes with
    | .ok t => .next (t.sendAck m true)
    | .error (.stall r) => old.stalls r
    | .error e => .next ((s.pairReport e.va).sendAck m false))

/-- HEADER_MIRROR (R686): written at the area, and kept with the saved state; of one area the newer stays. -/
def execHeaderMirror (h : PairHdr) (x : CpHeader) (s : State) : Res :=
  let old := s
  rxPair h s (fun s =>
    let m : MirrorOf := .header x.queue x.gen x.seq
    match s.writeDir (rootCtx x.root) x.area (x.fields.flatMap guardBytes) with
    | .ok t =>
      .next ((t.modPair (fun p => { p with
        headers := x :: p.headers.filter (fun y => !(y.queue == x.queue && y.gen == x.gen && y.seq == x.seq
          && y.area == x.area)) })).sendAck m true)
    | .error (.stall r) => old.stalls r
    | .error e => .next ((s.pairReport e.va).sendAck m false))

/-! ### Acknowledgements (R680, R686, R687) -/

/-- The job of a tag that a test holds for. -/
def State.tagJob (s : State) (q g n : Nat) (p : Job → Bool) : Option Nat :=
  s.jobs.findIdx? (fun j => j.queue == q && j.gen == g && j.seq == n && p j)

/-- The first entry of a tag that awaits its queue mirror's acknowledgement may be written (R681). -/
def State.ackQueue (s : State) (q g n : Nat) : State :=
  let x := s.hq q
  match x.waiting.findIdx? (fun y => y.2 == 1 && y.1.gen == g && y.1.seq == n) with
  | some i => s.setHq q { x with waiting := x.waiting.modify i (fun y => (y.1, 0)) }
  | none => s

/-- Bytes of a checkpoint acknowledged; after the last the header is mirrored (R686). -/
def State.ackBytes (s : State) (j : Nat) : State :=
  match s.job j with
  | none => s
  | some x =>
    match x.cp with
    | none => s
    | some r =>
      if r.mirror ≠ 1 then s
      else if 1 < r.acks then s.modJob j (fun y => { y with cp := some { r with acks := r.acks - 1 } })
      else
        let (l, s) := s.cpHeader x r
        let c := (s.saved.find? (fun c => c.job == j && c.area == r.area)).getD {}
        let s := s.tell (.header { queue := x.queue, gen := x.gen, seq := x.seq, root := x.root, area := r.area, fields := l,
                                   saved := c })
        s.modJob j (fun y => { y with cp := some { r with acks := 0, mirror := 2, header := l } })

/-- An acknowledgement of order 4 (R676). -/
def State.ackOwed (s : State) : State :=
  if s.pairState = 2 then (s.modPair (fun p => { p with owed := p.owed - 1 })).maybeSyncDone.enterInSync else s

/-- A good acknowledgement. -/
def State.ackGood (s : State) (m : MirrorOf) : State :=
  match m with
  | .journal k q g n =>
    let s := match s.tagJob q g n (fun j => decide (j.phase = .accepting ∨ j.phase = .ended)) with
      | some j => s.modJob j (fun y =>
          if k = 1 then { y with mirrored := true } else if k = 2 then { y with commitMirrored := true } else y)
      | none => s
    s.ackOwed
  | .queue q g n => (s.ackQueue q g n).ackOwed
  | .checkpoint q g n =>
    match s.tagJob q g n (fun j => j.cp.any (fun r => r.mirror == 1)) with
    | some j => s.ackBytes j
    | none => s.ackOwed
  | .header q g n =>
    match s.tagJob q g n (fun j => j.cp.any (fun r => r.mirror == 2)) with
    | some j => s.modJob j (fun y => { y with cp := y.cp.map (fun (r : CpRun) => { r with mirror := 3 }) })
    | none => s.ackOwed

/-- A failed acknowledgement (R687): the owner abandons the checkpoint and leaves the pair in SYNCING. -/
def State.ackBad (s : State) (m : MirrorOf) : State :=
  let s := match m with
    | .checkpoint q g n | .header q g n =>
      match s.tagJob q g n (fun j => j.cp.isSome) with
      | some j => s.modJob j (fun y => { y with cp := none })
      | none => s
    | _ => s
  if s.pairState = 3 then
    (s.leaveSync.enterPair 2).modPair (fun p => { p with sentSync := false, gotSync := false, owed := 1 })
  else s

/-- MIRROR_ACK (R680, R681, R686, R687). -/
def execMirrorAck (h : PairHdr) (of_ : MirrorOf) (ok : Bool) (s : State) : Res :=
  rxPair h s (fun s => .next (if ok then s.mirrorAnswered.ackGood of_ else s.mirrorAnswered.ackBad of_))

/-! ### The judgement of the twin (R688, R689) -/

/-- HB_IN has toggled within the last MISS_US. -/
def State.hbPresent (s : State) : Bool :=
  let us := s.fld rTlPairCtl 47 32
  s.pair.hbAt.any (fun t => decide (s.now ≤ t + (if us < 1000 then 1000 else us) * 1000))

/-- Port 8 up with no connection unreachable under R643, or down for less than LINK_MS. -/
def State.linkPresent (s : State) : Bool :=
  let ms := s.fld rTlPairCtl 55 48
  match s.pair.linkDownAt with
  | some t => decide (s.now < t + (if ms = 0 then 5 else ms) * 1000000 ∧ t ≠ 0)
  | none => s.links.conns.all (fun e => e.1 / 16384 != 8 || e.2.unreach.isNone)

/-- HB and LINK brought up to date, and losses counted (R688). -/
def State.judgeBits (s : State) : State :=
  let hb := s.hbPresent
  let link := s.linkPresent
  let s := if s.fld rTlPairStatus 59 59 = 1 ∧ hb = false then
      ((s.incFld rTlPairStat 47 32 1).pairReport 0).alert 4
    else s
  let s := if s.fld rTlPairStatus 58 58 = 1 ∧ link = false then s.incFld rTlPairStat 31 16 1 else s
  (s.setFld rTlPairStatus 59 59 hb.toNat).setFld rTlPairStatus 58 58 link.toNat

/-- The table of R688 for a member in SYNCING, IN_SYNC, SOLO_LINK or ISOLATED. -/
def State.judgeState (s : State) : State :=
  let st := s.pairState
  if st < 2 ∨ 5 < st then s
  else if s.linkPresent then (if 4 ≤ st ∧ s.syncWaits.isNone then s.startSync else s)
  else if s.hbPresent then (if st = 4 then s else s.leaveSync.enterPair 4)
  else if st = 5 then s
  else (s.leaveSync.enterPair 5).fcSignal

/-- The member judges its twin, unless a RESETTING suspends that (R688, R689). -/
def State.judge (s : State) : State := if s.pair.suspended.isSome then s else s.judgeBits.judgeState

/-- RESETTING (R689). -/
def execResetting (h : PairHdr) (s : State) : Res :=
  rxPair h s (fun s => .next (s.modPair (fun p => { p with suspended := some s.now })))

/-- RESETTING_SUSPENSION_END (R689). -/
def execResettingSuspensionEnd (s : State) : Res :=
  needSome s.pair.suspended 689 (fun t =>
    need (decide (t + 3000000000 ≤ s.now)) 689 (.next (s.modPair (fun p => { p with suspended := none })).judge))

/-- HEARTBEAT_SILENCE (R688). -/
def execHeartbeatSilence (s : State) : Res :=
  need (s.pair.suspended.isNone && s.fld rTlPairStatus 59 59 == 1 && !s.hbPresent) 688 (.next s.judge)

/-- LINK_LOSS_TIMEOUT (R688). -/
def execLinkLossTimeout (s : State) : Res :=
  need (s.pair.suspended.isNone && s.fld rTlPairStatus 58 58 == 1 && !s.linkPresent) 688 (.next s.judge)

/-- HB_IN_TOGGLE (R68, R688). -/
def execHbInToggle (s : State) : Res := .next (s.modPair (fun p => { p with hbAt := some s.now })).judge

/-- PORT_UP (R649, R650): on port 8 the member judges the link (R688), or formation starts or repeats its PAIR_HELLO
(R676). -/
def execPortUp (p : Fin 9) (lanes : BitVec 8) (s : State) : Res :=
  need (s.portState p == 1) 649 (
    needSome (s.portWidth p lanes.toNat) 650 (fun w =>
      let s := s.raisePort p lanes.toNat w
      .next (if p.val ≠ 8 then s else
        let s := s.judge
        if s.pairState = 0 then s.startForming else if s.pairState = 1 then s.sayHello else s)))

/-! ### Takeover (R692 to R694) -/

/-- Is the entry that precedes this tail on the ring pass before the next one? -/
def entryPhase (size tail : Nat) (next : Bool) : Bool := if tail % size = 0 then !next else next

/-- The mirrored entries of a queue from the recorded HEAD up to the mirrored CQ_TAIL rewritten, and the queue signalled
(R692 order 3). -/
def State.rewriteQueue (s : State) (q : Nat) (m : QMirror) : State :=
  let head := s.fld (rQCqHead q) 15 0
  let size := s.cqSize q
  let s := s.restoreQueue q m
  let n := min ((m.cqTail + 65536 - head) % 65536) size
  let s := (List.range n).foldl (fun (t : State) k =>
    let i := (head + k) % 65536
    match t.pair.entries.find? (fun e => e.1.queue == q && e.2.1 == i) with
    | some e =>
      t.rawWrite ⟨.host, t.fld (rQCqbase q) 63 12 * 4096 + 64 * (i % size)⟩
        (entryBytes e.1 (entryPhase size ((i + 1) % 65536) e.2.2))
    | none => t) s
  s.signalQ q

/-- Takeover of the twin (R692 orders 1 to 5). -/
def State.takeOver (s : State) : State :=
  let mask := s.pair.twinQown
  let s := (s.leaveSync.enterPair 6).setEpoch (s.epoch + 1)
  let s := s.setReg rTlPairQown (s.reg rTlPairQown ||| mask)
  let s := (s.modPair (fun p => { p with taken := p.taken ||| mask })).incFld rTlPairStat 63 48 1
  let s := (List.range 64).foldl (fun (t : State) q =>
    if bitOf mask q then (tabGet none t.pair.queues q).elim t (t.rewriteQueue q) else t) s
  let n := s.jobs.length
  let s := s.adoptAll mask
  s.incFld rTlPairStat 15 0 ((s.jobs.drop n).filter Job.isOpen).length

/-- YIELD (R692, R702): a member IN_SYNC or SOLO_LINK that is not stopping itself takes over. -/
def execYield (h : PairHdr) (s : State) : Res :=
  rxPair h s (fun s =>
    .next (if (s.pairState = 3 ∨ s.pairState = 4) ∧ s.pair.frozen = false then s.takeOver else s))

/-- A member that stops sends YIELD before, if the link allows, and accepts, commits and writes no more (R680, R692). -/
def State.sendYield (s : State) : State :=
  let s := if s.portUp 8 ∧ 2 ≤ s.pairState ∧ s.pairState ≤ 6 then s.tell .yield else s
  s.modPair (fun p => { p with frozen := true })

/-! ### Commands (R690, R695) -/

/-- TL_PAIR_CMD with an OP: ignored while BUSY, RESULT 1 in a state that does not allow it (R690, R701). -/
def State.pairCmd (s : State) (v : Word) (op : Nat) (allowed : Bool) (f : State → State) : Res :=
  need (bitsOf v 2 0 == op) 690 (
    if s.fld rTlPairCmd 31 31 = 1 then .next s
    else if !allowed then .next (s.setFld rTlPairCmd 30 28 1)
    else .next (f (s.setFld rTlPairCmd 30 28 0)))

/-- PAIR_TAKEOVER_CMD (R690): RESULT 2 when the link or the heartbeat is present. -/
def execPairTakeoverCmd (v : Word) (s : State) : Res :=
  s.pairCmd v 1 (s.pairState == 5) (fun s =>
    if s.linkPresent || s.hbPresent then s.setFld rTlPairCmd 30 28 2 else s.takeOver)

/-- PAIR_SOLO_CMD (R690). -/
def execPairSoloCmd (v : Word) (s : State) : Res := s.pairCmd v 2 (s.pairState == 5) (fun s => s.enterPair 4)

/-- A job given back now: a move of it that still waits is abandoned (R470). -/
def State.dropRelease (s : State) (j : Nat) (x : Job) : State :=
  match s.release_ j x with
  | .ok t => t
  | .error r =>
    let mine := s.engine.moves.filter (fun m => m.job == j)
    let s := { s with engine := { s.engine with queue := s.engine.queue.filter (fun r => r.job != j),
                                                moves := s.engine.moves.filter (fun m => m.job != j) } }
    (mine.foldl State.dropMove s).giveBack j x

/-- A running job ends without a record (R690). -/
def State.dropJob (s : State) (j : Nat) : State :=
  match s.job j with
  | some x =>
    if x.phase = .running ∨ x.phase = .preempting ∨ x.phase = .preempted ∨ x.phase = .stopping then
      ((s.stopSessions j).dropRelease j x).modJob j (fun y => { y with phase := .ended })
    else s
  | none => s

/-- Every running job ended without a record. -/
def State.dropJobs (s : State) : State := (List.range s.jobs.length).foldl State.dropJob s

/-- PAIR_STANDDOWN_CMD (R690). -/
def execPairStanddownCmd (v : Word) (s : State) : Res :=
  s.pairCmd v 3 (s.pairState != 0) (fun s => s.dropJobs.sendYield.enterPair 7)

/-- PAIR_REJOIN_CMD (R690). -/
def execPairRejoinCmd (v : Word) (s : State) : Res :=
  s.pairCmd v 4 (s.pairState == 0 || s.pairState == 8 || s.pairState == 6) State.startForming

/-- Jobs of the taken queues that are not committed, or entries of them not decided (R695). -/
def State.takenBusy (s : State) : Bool :=
  s.jobs.any (fun j => bitOf s.pair.taken j.queue && decide (j.phase ≠ .committed))

/-- A HANDBACK completes once every job of the taken queues has committed (R695). -/
def State.tryHandback (s : State) : State :=
  if s.pair.handback = true ∧ s.takenBusy = false then
    let qs := (List.range 64).filter (fun q => bitOf s.pair.taken q)
    let t := qs.foldl (fun (t : State) q => t.tell (t.bareQueue q)) s
    let t := t.setReg rTlPairQown (t.reg rTlPairQown &&& ~~~s.pair.taken)
    ((t.modPair (fun p => { p with handback := false, taken := 0#64 })).setFld rTlPairCmd 31 31 0).setFld rTlPairCmd 30 28 0
  else s

/-- PAIR_HANDBACK_CMD (R690, R695): until the jobs have committed, RESULT 3 with BUSY. -/
def execPairHandbackCmd (v : Word) (s : State) : Res :=
  s.pairCmd v 5 (s.pairState == 6 || (s.pairState == 3 && s.pair.taken != 0#64)) (fun s =>
    (((s.modPair (fun p => { p with handback := true })).setFld rTlPairCmd 31 31 1).setFld rTlPairCmd 30 28 3).tryHandback)

/-! ### The end of a job (R615) -/

/-- JOB_END_COMMIT (R615): the job's end, or its COMPLETE entry, which a HANDBACK may wait for (R695). -/
def execJobEndCommit (j : Nat) (s : State) : Res :=
  needSome (s.job j) 615 (fun x =>
    if x.phase = .stopping then need (s.workOver j x && s.mayCommit) 615 (match s.endJob j x with
      | .ok t => .next t
      | .error r => s.stalls r)
    else
      need (decide (x.phase = .ended) && x.commitDurable && (x.commitMirrored || !s.inSync) && s.mayCommit) 615
        (.next (s.completeJob j x).tryHandback))

end Sys2Proof.Machine
end

