-- ==== Sys2Proof/Machine/Reservoir.lean ====
section
/-!
DEFINITION. The reservoir's controllers (R480 to R505): sector reads and writes, the patrol scrub, sluices, drift
compensation, MR4, fencing and evacuation, placement, and the failure of a package.
-/

namespace Sys2Proof.Machine

/-! ### Addresses (R480, R481) -/

/-- Sectors of the reservoir. -/
def rvSectors : Nat := reservoirSize / 64
/-- Channel of a granule (R481). -/
def granuleCh (G : Nat) : Nat := G % 4
/-- Reservoir address of granule G of package p (R480, inverted). -/
def rvAddr (lg p G : Nat) : Nat :=
  let per := (60 - lg) * 262144
  if G < per then (G * 36 + p) * 4096
  else 36 * (60 - lg) * 2 ^ 30 + p / 3 * (3 * lg * 2 ^ 30) + ((G - per) * 3 + p % 3) * 4096
/-- Package and channel that serve a sector (R498). -/
def State.sectorAt (s : State) (n : Nat) : Nat × Nat :=
  let pg := s.rvWhere (n * 64)
  (pg.1, granuleCh pg.2)

/-- The granule of a fenced package for which a donor granule stands in (R498, inverted). -/
def Evac.source (e : Evac) (g : Nat) : Option Nat :=
  let g0 := e.donor / 4096
  if g < g0 then none
  else
    let ps := (List.range 36).filter (fun i => e.active.contains ((g0 + i) % 36))
    let G := (g - g0) / 36 * ps.length + ps.idxOf ((g - g0) % 36)
    if e.copied G && e.place G == g then some G else none

/-- The reservoir addresses whose bytes lie in granule G of package p now (R480, R498). -/
def State.rvHeld (s : State) (p G : Nat) : List Nat :=
  let one (c : Nat × Nat) : List (Nat × Nat) :=
    c :: s.evacs.filterMap (fun e => (e.source (c.2 * 36 + c.1)).map (fun g => (e.pkg, g)))
  let addrs := (((one (p, G)).flatMap one).map (fun c => rvAddr s.localGib c.1 c.2)).eraseDups
  addrs.filter (fun a => s.rvWhere a == (p, G))

/-! ### Reads and writes of sectors (R485, R486) -/

/-- Repeats of a read. -/
def sectorRepeats : SectorEv → Nat
  | .good => 0
  | .repeated second => if second then 2 else 1
  | _ => 2

/-- Repeats counted in RETRIES, and kept with their time for R489. -/
def State.countRepeats (s : State) (pkg ch n : Nat) : State :=
  let k := pkg * 4 + ch
  if n = 0 then s
  else
  let s := s.incFld (rRvPkgStat pkg) 15 0 n
  { s with repeats := tabPut [] s.repeats k ((List.replicate n s.now ++ tabGet [] s.repeats k).take 31) }

/-- The 15 sectors of the check group that holds a sector (R482). -/
def State.checkGroup (s : State) (n : Nat) : List Nat :=
  let pg := s.rvWhere (n * 64)
  let i := 64 * (pg.2 / 4) + n % 64
  (List.range 15).flatMap (fun j =>
    let x := i / 15 * 15 + j
    (s.rvHeld pg.1 (4 * (x / 64) + granuleCh pg.2)).map (fun a => a / 64 + x % 64))

/-- An uncorrectable or poisoned sector: its poison bit, the count, RV_ERR with SOURCE src, and the report (R485); a
FAILED package keeps no poison bit, and its accesses end alike (R500). -/
def State.sectorLost (s : State) (n src : Nat) : State :=
  let pc := s.sectorAt n
  let s := (if s.deadBlock ⟨.reservoir, n * 64⟩ then s else s.setPoison ⟨.reservoir, n * 64⟩).incFld rRvEcc 31 16 1
  let v := setBits (setBits (setBits (setBits 0#64 61 59 src) 58 53 pc.1) 52 51 pc.2) 35 0 n
  (s.latch rRvErr v).reportSelf 13 0x2 0 pc.1 (n * 64)

/-- Is a sector poisoned? -/
def State.sectorBad (s : State) (n : Nat) : Bool := tabGet false s.poison (blockKey ⟨.reservoir, n * 64⟩)

/-- The read of a sector with what it found (R485); the flag says whether it was delivered. -/
def State.sectorRead (s : State) (n src : Nat) (ev : SectorEv) : State × Bool :=
  let pc := s.sectorAt n
  let s := s.countRepeats pc.1 pc.2 (sectorRepeats ev)
  if s.sectorBad n then (s.sectorLost n src, false)
  else
    match ev with
    | .corrected => (s.incFld rRvEcc 63 32 1, true)
    | .uncorrectable => (s.sectorLost n src, false)
    | .disagree =>
      (((s.checkGroup n).foldl (fun t m => t.setPoison ⟨.reservoir, m * 64⟩) s).sectorLost n src, false)
    | _ => (s, true)

/-- The access to sector n runs: its address exists, no rule makes it wait, and its package answers (R480, R483, R499 to
R501). -/
def State.sectorOpen (s : State) (n : Nat) : Bool :=
  decide (n < rvSectors) && (match s.tierWait ⟨.reservoir, n * 64⟩ with
    | .ok _ => !s.deadBlock ⟨.reservoir, n * 64⟩
    | .error _ => false)

/-! ### Sluices (R491 to R495) -/

/-- Bursts of a read: the sector, its check sector when the check cache does not hold it, both again at each repeat, and
both written back when it is corrected (R485, R492). -/
def sectorBursts (chk : Bool) (ev : SectorEv) : Nat :=
  1 + chk.toNat + 2 * sectorRepeats ev + (if ev = .corrected then 2 else 0)

/-- Sluice p of package k may take bursts: its cap of this tick is not reached (R493, R494, R505); 13 stands for a table
read. -/
def State.sluiceOpen (s : State) (k p : Nat) : Bool :=
  decide (13 ≤ p) || (let cap := tabGet 0 s.caps p
    cap == 0 || decide (tabGet 0 s.bursts (k * 13 + p) < cap))

/-- Requests of sluice p, or with 13 table reads, that wait at package k. -/
def State.rvWaiting (s : State) (k p : Nat) : List (Nat × Nat) := tabGet [] s.rvWaits (k * 14 + p)

/-- What waits there replaced. -/
def State.setWaiting (s : State) (k p : Nat) (l : List (Nat × Nat)) : State :=
  { s with rvWaits := tabPut [] s.rvWaits (k * 14 + p) l }

/-- A rate code as a fraction of 8,533⅓ MT/s in 256ths (R477); an untrained channel serves nothing and does not
count. -/
def rateOf (code : Nat) : Nat :=
  match code with
  | 1 => 225
  | 2 => 192
  | _ => 256

/-- The slowest trained rate of a package, in 256ths. -/
def State.slowest (s : State) (k : Nat) : Nat :=
  ((List.range 4).map (fun c => rateOf (s.fld (rRvPkgStat k) (2 * c + 25) (2 * c + 24)))).foldl min 256

/-- Burst slots of a package in a tick: 400 with every channel at the full rate (R492). -/
def State.slotsOf (s : State) (k : Nat) : Nat :=
  ((List.range 4).map (fun c =>
    let code := s.fld (rRvPkgStat k) (2 * c + 25) (2 * c + 24)
    if code = 3 then 0 else 100 * rateOf code)).sum / 256

/-- Whom the next free burst slot of a package serves, 13 a table read: a table read first, then in rotation the sluices
that hold tokens with their caps not reached, then in rotation the others whose caps are not reached (R493). -/
def State.rvNext (s : State) (k : Nat) : Option Nat :=
  if s.slotsOf k ≤ tabGet 0 s.rvSlots k then none
  else if s.rvWaiting k 13 ≠ [] then some 13
  else
    let turn := tabGet 0 s.rvTurn k
    let open_ := ((List.range 13).map (fun i => (turn + i) % 13)).filter (fun p =>
      !(s.rvWaiting k p).isEmpty && s.sluiceOpen k p)
    (open_.find? (fun p => decide (0 < tabGet 0 s.buckets (k * 13 + p)))).or open_.head?

/-- One burst served to p at package k: its sluice is debited while its bucket holds tokens, and the rotation goes on
behind it (R493). -/
def State.takeBurst (s : State) (k p : Nat) : State :=
  let s := { s with rvSlots := tabMod 0 s.rvSlots k (· + 1) }
  if 13 ≤ p then s
  else
    { s with buckets := tabMod 0 s.buckets (k * 13 + p) (· - 1), bursts := tabMod 0 s.bursts (k * 13 + p) (· + 1),
             rvTurn := tabPut 0 s.rvTurn k ((p + 1) % 13) }

/-- Bursts served to p at package k while each next slot is its own; the bursts of n that remain. -/
def State.grant : Nat → Nat → Nat → State → Nat × State
  | 0, _, _, s => (0, s)
  | n + 1, k, p, s => if s.rvNext k = some p then State.grant n k p (s.takeBurst k p) else (n + 1, s)

/-- A request for sector n of package k comes through p and needs b bursts: it waits there, keeps what it was served,
and leaves once it has them all, which the flag says (R493). -/
def State.burstsFor (s : State) (k p n b : Nat) : State × Bool :=
  let w := s.rvWaiting k p
  let had := ((w.find? (fun e => e.1 == n)).map Prod.snd).getD 0
  let s := s.setWaiting k p (if w.any (fun e => e.1 == n) then w else w ++ [(n, 0)])
  let r := State.grant (b - had) k p s
  let t := r.2
  if r.1 = 0 then (t.setWaiting k p ((t.rvWaiting k p).filter (fun e => e.1 != n)), true)
  else (t.setWaiting k p ((t.rvWaiting k p).map (fun e => if e.1 = n then (n, b - r.1) else e)), false)

/-- A request for sector n through p that needs b bursts: on a FAILED package it ends at once (R500), under R483, R499 or
R501 it stalls, and without its burst slots it waits (R493). -/
def State.sectorReq (s : State) (n p b src : Nat) (f : State → State) : Res :=
  let k := (s.sectorAt n).1
  need (decide (n < rvSectors)) 480 (
    match s.tierWait ⟨.reservoir, n * 64⟩ with
    | .error _ => s.stalls 499
    | .ok _ =>
      if s.deadBlock ⟨.reservoir, n * 64⟩ then
        .next ((s.setWaiting k p ((s.rvWaiting k p).filter (fun e => e.1 != n))).sectorLost n src)
      else
        let r := s.burstsFor k p n b
        .next (if r.2 then f r.1 else r.1))

/-- F of R492. -/
def State.refill (s : State) (k : Nat) : Nat :=
  let r := s.fld rRvSluiceCtl 8 0
  (if r = 0 then 360 else min r 400) * s.slowest k / 256

/-- The bucket of a sluice after a tick (R492). -/
def State.bucketAfter (s : State) (k p : Nat) : Nat :=
  let w := s.fld (rRvSluice p) 7 0
  let W := ((List.range 13).map (fun i => s.fld (rRvSluice i) 7 0)).sum
  let b := tabGet 0 s.buckets (k * 13 + p)
  if w = 0 then b else min (s.fld rRvSluiceCtl 26 16) (b + s.refill k * w / W)

/-- SLUICE_TICK (R492, R505): every 375 ns of timebase. -/
def execSluiceTick (s : State) : Res :=
  let put (t : Tab Nat) (i : Nat) : Tab Nat := tabPut 0 t i (s.bucketAfter (i / 13) (i % 13))
  let cap (t : Tab Nat) (p : Nat) : Tab Nat := tabPut 0 t p (s.fld (rRvSluice p) 24 16)
  need (decide (s.rvTicks ≤ s.now / 375)) 492 (
    .next { s with buckets := (List.range 468).foldl put s.buckets, bursts := [], caps := (List.range 13).foldl cap [],
                   rvSlots := [], rvTicks := s.now / 375 + 1 })

/-! ### Commands on sectors -/

/-- RESERVOIR_SECTOR_READ (R485): sector n through sluice p (13: a table read); `chk`: the check sector was read. -/
def execReservoirSectorRead (n : BitVec 36) (p : Fin 14) (chk : Bool) (ev : SectorEv) (s : State) : Res :=
  let src := if p.val = 13 then 4 else 0
  s.sectorReq n.toNat p (sectorBursts chk ev) src (fun t => (t.sectorRead n.toNat src ev).1)

/-- RESERVOIR_SECTOR_WRITE (R486): bytes from offset o of sector n with their check word, two bursts; a part of a sector is
first read, with its check sector where the check cache does not hold it, which is open. -/
def execReservoirSectorWrite (n : BitVec 36) (o : Fin 64) (bytes : List Byte) (p : Fin 14) (ev : SectorEv) (s : State) :
    Res :=
  let l : Loc := ⟨.reservoir, n.toNat * 64⟩
  need (decide (bytes ≠ [] ∧ o.val + bytes.length ≤ 64)) 486 (
    if bytes.length = 64 then s.sectorReq n.toNat p 2 1 (fun t => (t.clearPoison l 64).rawWrite l bytes)
    else
      let d := s.freeBit
      d.2.sectorReq n.toNat p (sectorBursts d.1 ev + 2) 1 (fun t =>
        match t.sectorRead n.toNat 1 ev with
        | (t, true) => t.rawWrite ⟨.reservoir, n.toNat * 64 + o.val⟩ bytes
        | (t, false) => t))

/-- RESERVOIR_PATROL_SCRUB (R488): a sector that is read, unless a rule makes it wait. -/
def execReservoirPatrolScrub (n : BitVec 36) (ev : SectorEv) (s : State) : Res :=
  need (decide (n.toNat < rvSectors)) 488 (
    match s.tierWait ⟨.reservoir, n.toNat * 64⟩ with
    | .error _ => s.stalls 499
    | .ok _ =>
      if s.deadBlock ⟨.reservoir, n.toNat * 64⟩ then .next (s.sectorLost n.toNat 2)
      else .next (s.sectorRead n.toNat 2 ev).1)

/-- The repeat threshold (R504). -/
def State.retrainN (s : State) : Nat :=
  let n := s.fld rRvSluiceCtl 31 27
  if n = 0 then 8 else n

/-- DRIFT_COMPENSATION (R489): RETRAIN_N repeats on the channel within 1 ms. -/
def execDriftCompensation (k : Fin 36) (ch : Fin 4) (s : State) : Res :=
  let key := k.val * 4 + ch.val
  let fresh := (tabGet [] s.repeats key).filter (fun t => s.now < t + 1000000)
  need (decide (s.retrainN ≤ fresh.length)) 489 (.next { s with repeats := tabPut [] s.repeats key [] })

/-- MR4_READ (R477, R503): every 32 ms; `above` says that the code reports a package above its range. -/
def execMr4Read (k : Fin 36) (code : Fin 32) (above : Bool) (s : State) : Res :=
  let last := tabGet 0 s.mr4At k
  need (decide (last = 0 ∨ last + 32000000 ≤ s.now)) 477 (
    let s := { s with mr4At := tabPut 0 s.mr4At k s.now }
    let s := s.setFld (rRvPkgStat k) 20 16 code
    .next (if above then s.reportSelf 13 0xB 0 k code else s))

/-! ### Fencing and evacuation (R496 to R500) -/

/-- State of a package replaced. -/
def State.setRvState (s : State) (k v : Nat) : State := s.setFld (rRvPkgStat k) 34 32 v

/-- Granules of package r among n granules from g0 on, in the interleaved region. -/
def granulesOn (g0 n r : Nat) : Nat := (g0 + n + 35 - r) / 36 - (g0 + 35 - r) / 36

/-- Data granules of a package (R498). -/
def pkgGranules : Nat := 15728640

/-- The RESULT of a fence command and the packages whose donor granules it would use (R496, R498, R504). -/
def State.fenceJudge (s : State) (pkg donor : Nat) : Nat × List Nat :=
  let act := (List.range 36).filter (fun r => r != pkg && s.rvState r == 0)
  let st := s.rvState pkg
  if 36 ≤ pkg ∨ (st ≠ 0 ∧ st ≠ 4) ∨ s.evacs.any (fun e => e.pkg == pkg) then (1, act)
  else if 2 ≤ s.evacs.length then (3, act)
  else if 36 * (60 - s.localGib) * 2 ^ 30 < donor + 2 ^ 36 then (2, act)
  else if (act.map (granulesOn (donor / 4096) (2 ^ 24))).sum < pkgGranules then (3, act)
  else (0, act)

/-- RV_FENCE_CMD (R496): the value written with OP 1. -/
def execRvFenceCmd (v : Word) (s : State) : Res :=
  need (bitsOf v 59 58 == 1) 496 (
    let pkg := bitsOf v 57 52
    let donor := bitsOf v 41 21 * 2 ^ 21
    let r := s.fenceJudge pkg donor
    let s := s.setReg rRvFence (setBits (setBits (setBits 0#64 62 60 r.1) 57 52 pkg) 41 21 (bitsOf v 41 21))
    if r.1 ≠ 0 then .next s
    else
      let e : Evac := { pkg := pkg, donor := donor, active := r.2 }
      let s := { s with evacs := s.evacs ++ [e] }
      let s := s.reportSelf 13 0x6 2 pkg donor
      .next (if s.rvState pkg = 0 then (s.setRvState pkg 2).setFld (rRvPkgStat pkg) 63 40 0 else s))

/-- The first granule not copied yet. -/
def evacNext : Nat → Nat → List Nat → Nat × List Nat
  | 0, n, early => (n, early)
  | fuel + 1, n, early => if early.contains n then evacNext fuel (n + 1) (early.erase n) else (n, early)

/-- A granule noted as copied. -/
def Evac.note (e : Evac) (G : Nat) : Evac :=
  if G = e.next then
    let r := evacNext (e.early.length + 1) (G + 1) e.early
    { e with next := r.1, early := r.2 }
  else { e with early := e.early ++ [G] }

/-- What the copy of a granule finds in its sectors, 64 sectors from each address that it holds (R485, R499). -/
def State.copyReads (s : State) (as_ : List Nat) (evs : List (Fin 64 × SectorEv)) : State :=
  as_.foldl (fun t a => (List.range 64).foldl (fun u i =>
    (u.sectorRead (a / 64 + i) 3 (((evs.find? (fun e => e.1.val == i)).map Prod.snd).getD .good)).1) t) s

/-- EVACUATION_GRANULE_COPY (R499): granule G of package k, next in order or with a stalled access; `evs` says what the
reads of its sectors find where the first read is not good. -/
def execEvacuationGranuleCopy (k : Fin 36) (G : Nat) (evs : List (Fin 64 × SectorEv)) (s : State) : Res :=
  needSome (s.evacs.find? (fun e => e.pkg == k.val)) 499 (fun e =>
    need (s.rvState k == 2 && !s.rvSelfRefresh && decide (G < pkgGranules) && !e.copied G) 499 (
      let s := s.copyReads (s.rvHeld k G) evs
      let s := { s with evacs := s.evacs.map (fun (x : Evac) => if x.pkg = k.val then x.note G else x) }
      .next (s.setFld (rRvPkgStat k) 63 40 (s.fld (rRvPkgStat k) 63 40 + 1))))

/-- A FAILED package's uncopied granules read as zeros in the donor range (R500). -/
def State.zeroPkg (s : State) (e : Evac) : State :=
  let keep (a : Nat) : Bool := (s.rvWhere a).1 != e.pkg
  { s with reservoir := s.reservoir.filter (fun c => keep c.1),
           poison := s.poison.filter (fun c => !(2 ^ 40 ≤ c.1 && c.1 < 2 ^ 45) || keep (c.1 - 2 ^ 40)) }.recountPoison
    .reservoir

/-- EVACUATION_COMPLETE (R500). -/
def execEvacuationComplete (k : Fin 36) (s : State) : Res :=
  needSome (s.evacs.find? (fun e => e.pkg == k.val)) 500 (fun e =>
    let fin (t : State) : State :=
      { t with evacs := t.evacs.map (fun (x : Evac) => if x.pkg = k.val then { x with next := pkgGranules, early := [] } else x) }
    if s.rvState k = 4 then .next ((fin (s.zeroPkg e)).setRvState k 3)
    else need (s.rvState k == 2 && decide (pkgGranules ≤ e.next)) 500 (.next (s.setRvState k 3)))

/-- RESERVOIR_PACKAGE_FAILURE (R500): a package stops answering in service. -/
def execReservoirPackageFailure (k : Fin 36) (s : State) : Res :=
  need (decide (s.rvState k ≤ 2)) 500 (.next ((s.setRvState k 4).reportSelf 13 0x7 2 k 0))

/-! ### Placement (R483) -/

/-- A write of a block after its commit is ignored and recorded (R14). -/
def State.lockedWrite (s : State) (f o : Nat) : State := s.reportSelf 21 0xD 0 (64 + f) o

/-- RV_PLACE_COMMIT (R483): the value written with COMMIT, through function f. -/
def execRvPlaceCommit (v : Word) (f : Fin 2) (s : State) : Res :=
  need (bitOf v 31) 483 (
    .next (if s.fld rRvPlace 31 31 = 1 then s.lockedWrite f rRvPlace
      else (s.setFld rRvPlace 5 0 (bitsOf v 5 0)).setFld rRvPlace 31 31 1))

end Sys2Proof.Machine
end

