-- ==== Sys2Proof/Machine/Power.lean ====
section
/-!
DEFINITION. Power states, entries and wakes (R472, R703 to R723), references and the timebase (R726 to R735), and the
waits on host memory (R469, R601).
-/

namespace Sys2Proof.Machine

/-- The power record changed. -/
def State.modPw (s : State) (f : Power → Power) : State := { s with pw := f s.pw }
/-- A power event's vector (R711, R721, R735). -/
def State.powerVector (s : State) : State := s.signal 0 (s.fld rPmPolicy 15 8)
/-- State of well w in PM_STATE: 0 W0, 1 W1, 2 W2, 7 off or lost. -/
def State.wellPm (s : State) (w : Nat) : Nat := s.fld rPmState (3 * w + 2) (3 * w)
/-- That state replaced, from now on. -/
def State.setWellPm (s : State) (w v : Nat) : State :=
  let s := s.setFld rPmState (3 * w + 2) (3 * w) v
  s.modPw (fun p => { p with stateAt := tabPut 0 p.stateAt w s.now })
/-- State of the device in PM_STATE: 0 W0, 3 W3. -/
def State.devicePm (s : State) : Nat := s.fld rPmState 38 36
/-- Well w is LOST. -/
def State.wellLost (s : State) (w : Nat) : Bool := s.fld rWhWellState (2 * w + 25) (2 * w + 24) == 3
/-- Every bobbin of well w changed. -/
def State.mapBobs (s : State) (w : Nat) (f : Bobbin → Bobbin) : State :=
  { s with bobs := tabMap {} (fun k b => if k / 136 = w then f b else b) s.bobs }

/-! ### Array supply -/

/-- VARRAY of a well and the reason for it (R736). -/
def State.setVarray (s : State) (w mv limit : Nat) : State :=
  (s.setFld (rPmWellStat w) 15 0 mv).setFld (rPmWellStat w) 27 26 limit

/-- The array supply that a well comes up with, which the manual leaves open within R724's bounds. -/
def State.firstSupply (s : State) (w : Nat) : State :=
  let (n, s) := s.freeNat
  let mv := 600 + n % 251
  (s.modPw (fun p => { p with vtherm := tabPut 600 p.vtherm w mv })).setVarray w mv 0

/-! ### Draining (R472, R709, R710) -/

/-- Store queues, cistern-unit queues and pumps of a well are empty (R472). -/
def State.drained (s : State) (w : Nat) : Bool :=
  (List.range 136).all (fun p => (s.bob w p).storeQ.isEmpty)
  && (List.range 64).all (fun u =>
    let x := s.unit w u
    x.cur.isNone && x.bobQ.isEmpty && x.opQ.isEmpty && x.combQ.isEmpty)
  && (List.range 8).all (fun n => (s.pump w n).state != 1)

/-- WL_DRAIN_STAT and the report of a well that did not drain (R472, R474). -/
def State.noteBusy (s : State) (w : Nat) : State :=
  let pumps := ((List.range 8).map (fun n => if (s.pump w n).state = 1 then 2 ^ n else 0)).sum
  let cu := ((List.range 64).map (fun u =>
    let x := s.unit w u
    x.bobQ.length + x.opQ.length + x.combQ.length + x.cur.isSome.toNat)).sum
  let stq := ((List.range 136).filter (fun p => !(s.bob w p).storeQ.isEmpty)).length
  let v := setBits (setBits (setBits (setBits 0#64 31 31 1) 23 16 pumps) 15 8 (min cu 255)) 7 0 (min stq 255)
  (s.setReg (rWlDrainStat w) v).reportSelf w 0xA 0 144 0

/-! ### States of a well -/

/-- W1 entered (R703, R704): the bobbins lose their power, and with it the pillows. -/
def State.enterW1 (s : State) (w : Nat) : State :=
  let s := s.mapBobs w (fun b => { b with powered := false, admitted := false })
  let s := (s.setWell w { s.well w with exitAt := none }).setWellPm w 1
  s.modPw (fun p => { p with w1Req := tabPut none p.w1Req w none })

/-- Event counters of a well at 0 (R703, R742). -/
def State.zeroCounts (s : State) (w : Nat) : State :=
  (List.range 8).foldl (fun t i => t.setReg (rEvCnt (8 * w + i)) 0#64) s

/-- The translation buffer and misses of a well lost (R703, R742). -/
def State.dropTlb (s : State) (w : Nat) : State :=
  { s with tlb := tabDrop (fun k => k / 512 == w) s.tlb, missQs := tabDrop (fun k => k == w) s.missQs,
           walkers := tabMap none (fun _ x => x.bind (fun m =>
             let r := m.2.reqs.filter (fun i => i / 256 != w)
             if r.isEmpty then none else some (m.1, { m.2 with reqs := r }))) s.walkers }

/-- W2 entered (R703, R546): caches written back; the controller's registers, the translation buffer and the event counters
are lost. -/
def State.enterW2 (s : State) (w : Nat) : State :=
  let s := ((s.flushCache w).dropTlb w).zeroCounts w
  let s := (s.mapBobs w (fun b => { b with powered := false, admitted := false })).setWell w {}
  (s.setVarray w 0 0).setWellPm w 2

/-- A stitch runs or waits on the well, or its walker holds a walk (R704). -/
def State.wellBusy (s : State) (w : Nat) : Bool :=
  s.bobs.any (fun e => e.1 / 136 == w && (e.2.run.isSome || !e.2.leaving.isEmpty))
  || s.deques.any (fun e => e.1 / 128 == w && !e.2.isEmpty) || !(s.well w).walks.isEmpty

/-- Idle times brought up to date at an advance of the timebase (R704). -/
def State.noteIdle (s : State) : State :=
  let t := (List.range 12).foldl (fun (t : Tab (Option Nat)) w =>
    if s.wellBusy w then tabPut none t w none
    else if (tabGet none t w).isSome then t else tabPut none t w (some s.now)) s.pw.idleAt
  s.modPw (fun p => { p with idleAt := t })

/-- A PM_POLICY time; 0 acts as its default. -/
def State.policy (s : State) (hi lo dflt unit : Nat) : Nat :=
  let v := s.fld rPmPolicy hi lo
  (if v = 0 then dflt else v) * unit

/-- W1_IDLE_ENTRY (R704, R472): at once when the well is drained, otherwise requested. -/
def execW1IdleEntry (w : WellId) (s : State) : Res :=
  need (decide (s.wellPm w = 0) && s.inService w && !s.wellBusy w
      && (tabGet none s.pw.idleAt w.val).any (fun t => decide (t + s.policy 31 16 100 1000 ≤ s.now))) 704 (
    if s.drained w then .next (s.enterW1 w)
    else
      need (tabGet none s.pw.w1Req w.val).isNone 472
        (.next (s.modPw (fun p => { p with w1Req := tabPut none p.w1Req w (some s.now) }))))

/-! ### Entries of W2, W3 and W4 (R707 to R714) -/

/-- The W2 condition of a well (R707). -/
def State.mayW2 (s : State) (w : Nat) : Bool :=
  decide (s.wellPm w ≤ 1) && (s.well w).job.all (fun j => (s.job j).all (fun x => decide (x.phase ≠ .running)))
  && (s.well w).job.isNone

/-- The W3 condition (R707). -/
def State.mayW3 (s : State) : Bool :=
  (List.range 12).all (fun w => s.wellLost w || decide (s.wellPm w = 2 ∨ s.wellPm w = 7) || s.mayW2 w)
  && (List.range 64).all (fun q => !s.undecided q)
  && s.jobs.all (fun x => decide (x.phase ≠ .running ∧ x.phase ≠ .waiting ∧ x.phase ≠ .preempting ∧ x.phase ≠ .preempted
      ∧ x.phase ≠ .stopping))
  && s.sessions.all (fun e => decide (3 ≤ e.state)) && (List.range 36).all (fun k => s.rvState k != 2)
  && s.pairState != 2

/-- The W4 condition (R707). -/
def State.mayW4 (s : State) : Bool :=
  s.mayW3 && s.fld rJnStat 31 0 == 0 && (s.pairState == 0 || s.pairState == 8 || s.pairState == 7)

/-- Wells that a list of numbers of a register names. -/
def wellsOf (mask : Nat) : List Nat := (List.range 12).filter (fun w => mask.testBit w)

/-- Wells on which the first job of the list would run (R623). -/
def State.jobWells (s : State) : List Nat :=
  match s.firstJob.bind s.job with
  | some x => if s.mayBind then (s.bindWells [] x).getD [] else []
  | none => []

/-- A queue whose doorbell is pending (R712). -/
def State.rung (s : State) : Option Nat :=
  (List.range 64).find? (fun q => s.fld (rQCtl q) 63 63 == 1 && s.fld (rQStatus q) 63 48 != s.fld (rQSqTail q) 15 0)

/-- The alarm's level (R735). -/
def State.alarmLevel (s : State) : Bool := s.fld rPmAlarm 63 63 == 1 && decide (s.fld rPmAlarm 62 0 ≤ s.now)

/-- Does a wake source hold, for a state of the device (3, 4) or of the wells (2) (R712)? None wakes a module that is off or
in standby (R62, R723). -/
def State.wakes (s : State) (from_ : Nat) (wells : List Nat) (code : Nat) : Bool :=
  !s.pw.off && !s.pw.standby && (s.fld rPmWake 23 16).testBit (code - 1) && (match code with
    | 1 => from_ == 3 && s.rung.isSome
    | 2 => from_ == 3 && s.pw.twinWaits
    | 3 => from_ == 3 && (s.fld rPmWake 7 0).testBit 2
    | 4 => 3 ≤ from_ && (s.fld rPmWake 7 0).testBit 3
    | 5 => 3 ≤ from_ && s.alarmLevel
    | 6 => 3 ≤ from_ && s.pw.thermal
    | 8 => from_ == 2 && wells.any (fun w => s.jobWells.contains w)
    | _ => false)

/-- The level sources that hold. -/
def State.levelSource (s : State) (from_ : Nat) (wells : List Nat) : Option Nat :=
  [1, 2, 4, 5, 8].find? (s.wakes from_ wells)

/-- PM_CMD completes (R736). -/
def State.pmDone (s : State) (r : Nat) : State := (s.setFld rPmCmd 31 31 0).setFld rPmCmd 30 28 r

/-- An entry requested (R707, R714): refused, ended at once by a level source, or under way. -/
def State.requestEntry (s : State) (target : Nat) (wells : List Nat) (cmd ok : Bool) : State :=
  if !ok then (if cmd then s.pmDone 1 else s)
  else if (s.levelSource target wells).isSome then (if cmd then s.pmDone 3 else s)
  else
    let s := if cmd then (s.setFld rPmCmd 31 31 1).setFld rPmCmd 30 28 0 else s
    s.modPw (fun p => { p with entry := some { target := target, wells := wells, at_ := s.now, cmd := cmd } })

/-- A write of PM_CMD with GO and a TARGET: ignored while BUSY (R736). -/
def State.pmCmd (s : State) (v : Word) (target : Nat) (f : State → State) : Res :=
  need (bitOf v 27 && bitsOf v 26 24 == target) 736 (
    if s.fld rPmCmd 31 31 = 1 then .next s
    else .next (f ((s.setFld rPmCmd 26 24 target).setFld rPmCmd 11 0 (bitsOf v 11 0))))

/-- PM_CMD_W2 (R707). -/
def execPmCmdW2 (v : Word) (s : State) : Res :=
  s.pmCmd v 2 (fun s =>
    let l := wellsOf (bitsOf v 11 0)
    s.requestEntry 2 l true (s.pw.entry.isNone && s.devicePm == 0 && l.all (fun w => s.inService w && s.mayW2 w)))

/-- Wells that an entry into W3 or W4 takes through W2. -/
def State.keptWells (s : State) : List Nat :=
  (List.range 12).filter (fun w => !s.wellLost w && decide (s.wellPm w ≤ 1))

/-- PM_CMD_W3 (R709). -/
def execPmCmdW3 (v : Word) (s : State) : Res :=
  s.pmCmd v 3 (fun s => s.requestEntry 3 s.keptWells true (s.pw.entry.isNone && s.booted && s.mayW3))

/-- PM_CMD_W4 (R709). -/
def execPmCmdW4 (v : Word) (s : State) : Res :=
  s.pmCmd v 4 (fun s => s.requestEntry 4 s.keptWells true (s.pw.entry.isNone && s.booted && s.mayW4))

/-- W2_AUTO_ENTRY (R708). -/
def execW2AutoEntry (w : WellId) (s : State) : Res :=
  need (s.fld rPmPolicy 0 0 == 1 && decide (s.wellPm w = 1) && s.inService w && s.mayW2 w && s.pw.entry.isNone
      && decide (tabGet 0 s.pw.stateAt w.val + s.policy 47 32 100 1000000 ≤ s.now)) 708
    (.next (s.requestEntry 2 [w] false true))

/-- W3_AUTO_ENTRY (R708). -/
def execW3AutoEntry (s : State) : Res :=
  need (s.fld rPmPolicy 1 1 == 1 && s.booted && s.pw.entry.isNone && s.mayW3
      && (List.range 12).all (fun w => s.wellLost w || (decide (s.wellPm w = 2)
        && decide (tabGet 0 s.pw.stateAt w + s.policy 63 48 1000 1000000 ≤ s.now)))) 708
    (.next (s.requestEntry 3 s.keptWells false true))

/-- Every queue, pump and journal program of an entry has drained (R709 orders 2 and 3). -/
def State.entryDrained (s : State) (e : Entry) : Bool :=
  e.wells.all (fun w => s.noStitches w && s.drained w)
  && (e.target == 2 || (s.hqs.all (fun h => h.2.waiting.isEmpty) && s.jn.program.isNone && s.jn.joining.isEmpty
    && s.engine.moves.isEmpty))

/-- What the periphery holds of translations, lines and counts lost with its power; its registers and the wellhead's SRAM are
kept (R703; log entry 129). -/
def State.dropPeriphery (s : State) : State :=
  { s with tlb := [], walkPtrs := [], missQs := [], walkers := [], lines := [], dir := [],
           engine := { s.engine with fills := [] } }

/-- W3 (R703, R706, R709): wells off, packages in self-refresh, span ports down, the periphery's state lost. -/
def State.enterW3 (s : State) : State :=
  let s := s.dropPeriphery
  let s := (List.range 12).foldl (fun (t : State) w => t.setWellPm w 7) s
  let s := (List.range 36).foldl (fun (t : State) k => if t.rvState k = 0 then t.setRvState k 1 else t) s
  let s := (List.range 8).foldl (fun (t : State) p => if t.portState p = 0 then t else t.dropPort p 0) s
  { s with rvSelfRefresh := true }.setFld rPmState 38 36 3

/-- What checkpoint areas hold, by the tags of their jobs (R684, R696): kept for the jobs that the journal brings back. -/
def State.heldAreas (s : State) : List CpHeader :=
  s.saved.filterMap (fun c => (s.job c.job).map (fun x =>
    { queue := x.queue, gen := x.gen, seq := x.seq, root := x.root, area := c.area, fields := [], saved := c }))
  ++ s.pw.areas

/-- What a power loss or a cold reset keeps (R518, R622, R696, R730, R742, R745): the aquifer with its journal and reserve,
its LOST packages, and fused values. Commands that wait, what the block has sent and the model's own counters are no part
of the device. -/
def State.coldBase (s : State) : State :=
  let t : State := {}
  let sync := s.pw.wasSync || s.pairState == 3 || s.pairState == 4 || s.pairState == 5 || s.pairState == 7
  let bobs := tabMap {} (fun _ b => { listed := b.listed }) s.bobs
  let pw : Power :=
    { floor := s.pw.floor, boots := s.pw.boots, wasSync := sync, copyUsed := s.pw.copyUsed, areas := s.heldAreas,
      uv := s.pw.uv, ov := s.pw.ov, enLow := s.pw.enLow }
  let links : Links := { sent := s.links.sent, delivered := s.links.delivered }
  let pair : Pair := { epochHeld := s.pair.epochHeld, journal := s.pair.journal, sent := s.pair.sent }
  let t := { t with
    pending := s.pending, fresh := s.fresh, nextId := s.nextId, hostMem := s.hostMem, aquifer := s.aquifer, boot := s.boot,
    bobs := bobs, poison := s.poison.filter (fun e => 2 ^ 45 ≤ e.1 && e.1 < 2 ^ 62), jn := { pages := s.jn.pages },
    pair := pair, pw := pw, links := links, msix := s.msix }
  let t := (t.setFld rTlPairStatus 31 0 s.pair.epochHeld).setFld rPmTbStatus 47 32 s.pw.boots
  (List.range 12).foldl (fun (t : State) k => if s.aqLost k then t.setFld (rAqPkgStat k) 31 29 1 else t) t

/-- Registers that a state without the rest of the device keeps. -/
def State.keepRegs (s old : State) (l : List Nat) : State := l.foldl (fun (t : State) o => t.setReg o (old.reg o)) s

/-- What the management controller holds, which lies on the standby rails (R69). -/
def State.keepMgmt (s old : State) : State :=
  let q := old.pw
  s.modPw (fun p => { p with vin := q.vin, iin := q.iin, pin := q.pin, stInput := q.stInput, stTemp := q.stTemp,
                             answer := q.answer })

/-- W4 (R703, R706, R709, R719): only the timebase, PM_POLICY, PM_ALARM, PM_WAKE and the wake record stay, and what the
management controller holds (log entry 84). BIFURC's sample is lost with the wellhead, and the boot of the exit samples
again (log entry 83). -/
def State.enterW4 (s : State) : State :=
  let t := s.coldBase.keepRegs s
    [rPmTimebase, rPmTbStatus, rPmPolicy, rPmAlarm, rPmWake, rPmWakeLast, rPmRefStat 0, rPmRefStat 1, rPmRefStat 2,
     rPmRefStat 3, rPmCmd, rPmTherm]
  let old := s.pw
  (t.keepMgmt s).modPw (fun p =>
    { p with w4 := true, frac := old.frac, edges := old.edges, errBase := old.errBase, alarmed := old.alarmed,
             refAt := old.refAt, hbOut := old.hbOut })

/-! ### Wakes (R712 to R723) -/

/-- A wake begins (R715, R716): its record, the domains to start, in order. -/
def State.startWake (s : State) (src from_ q : Nat) (wells : List Nat) (cmd : Bool) : State :=
  let s := s.setReg rPmWakeLast (setBits (setBits (setBits (setBits 0#64 63 63 1) 55 52 src) 51 48 from_) 47 42 q)
  let s := s.setFld rPmWake (src - 1) (src - 1) 1
  let now := s.now
  let off := decide (3 ≤ from_)
  let l := s.pw.staging ++ wells.filter (fun w => !s.pw.staging.contains w)
  let s := s.modPw (fun p =>
    { p with staging := l, deep := (p.deep || off), wakeAt := now, wakeCmd := (p.wakeCmd || cmd), degraded := false,
             twinWaits := false })
  let s := if cmd then (s.setFld rPmCmd 31 31 1).setFld rPmCmd 30 28 0 else s
  if from_ = 3 then s.modPw (fun p => { p with rails := tabPut {} p.rails 24 { phase := 1, at_ := now } }) else s

/-- Wells in W2 among a list. -/
def State.asleep (s : State) (l : List Nat) : List Nat := l.filter (fun w => s.wellPm w == 2)

/-- Wells that an exit from W3 starts. -/
def State.offWells (s : State) : List Nat := (List.range 12).filter (fun w => !s.wellLost w)

/-- Exit from W4 (R719): module power-up from the wellhead core domain on, then a boot. PM_THERM, which the thermal wake of
W4 needs, holds its reset value from then on (R799). -/
def State.leaveW4 (s : State) (src : Nat) : State :=
  let s := s.setReg rPmWakeLast (setBits (setBits (setBits 0#64 63 63 1) 55 52 src) 51 48 4)
  let s := s.setReg rPmTherm (regReset rPmTherm)
  let s := (s.setFld rPmWake (src - 1) (src - 1) 1).setFld rWhBoot 49 48 3
  let now := s.now
  s.modPw (fun p => { p with w4 := false, wakeAt := now, rails := tabPut {} p.rails 25 { phase := 1, at_ := now } })

/-- An entry ended before its commit (R714): nothing of it stays. -/
def State.undoEntry (s : State) (r : Nat) : State :=
  match s.pw.entry with
  | some e => (if e.cmd then s.pmDone r else s).modPw (fun p => { p with entry := none })
  | none => s

/-- A command that finds the wake from W3 under way completes with it. -/
def State.joinWake (s : State) : State :=
  ((s.setFld rPmCmd 31 31 1).setFld rPmCmd 30 28 0).modPw (fun p => { p with wakeCmd := true })

/-- PM_CMD_WAKE (R712): source 7. -/
def execPmCmdWake (v : Word) (s : State) : Res :=
  s.pmCmd v 0 (fun s =>
    if !(s.fld rPmWake 23 16).testBit 6 then s.pmDone 0
    else if s.devicePm = 3 then (if s.pw.rails.isEmpty then s.startWake 7 3 0 s.offWells true else s.joinWake)
    else
      let l := s.asleep (wellsOf (bitsOf v 11 0))
      if s.pw.entry.isSome then s.undoEntry 3 else if l.isEmpty then s.pmDone 0 else s.startWake 7 2 0 l true)

/-- What an external edge or level latches in PEND: span signal, WAKE_N (R712, R736). -/
def State.latchWake (s : State) (code : Nat) : State :=
  if code = 3 ∨ code = 4 then s.setFld rPmWake (code - 1) (code - 1) 1 else s

/-- WAKE_EVENT (R712, R714): source `code`, wells for a job's wake. A signal on a span lane or WAKE_N comes with the
command; the others hold by the state. It ends an entry under way, or wakes the device or the wells. -/
def execWakeEvent (code : Fin 9) (s : State) : Res :=
  let s := s.latchWake code
  match s.pw.entry with
  | some e => need (s.wakes e.target e.wells code) 714 (.next (s.undoEntry 3))
  | none =>
    if s.pw.w4 then need (s.wakes 4 [] code) 712 (.next (s.leaveW4 code))
    else if s.devicePm = 3 ∧ s.pw.rails.isEmpty then
      need (s.wakes 3 [] code) 712 (.next (s.startWake code 3 (if code.val = 1 then s.rung.getD 0 else 0) s.offWells false))
    else if code.val = 4 then .next s
    else
      let l := s.asleep s.jobWells
      need (decide (code.val = 8) && !l.isEmpty && (s.fld rPmWake 23 16).testBit 7 && !l.all s.pw.staging.contains) 712
        (.next (s.startWake 8 2 0 l false))

/-- The new state of an entry (R709, R711, R714). -/
def State.finishEntry (s : State) (e : Entry) : State :=
  let s := e.wells.foldl State.enterW2 s
  let s := s.modPw (fun p => { p with entry := none })
  if e.target = 4 then
    let t := s.enterW4
    match t.levelSource 4 [] with
    | some c => (t.pmDone 3).leaveW4 c
    | none => t.pmDone 0
  else
    let s := if e.target = 3 then s.enterW3 else s
    let src := s.levelSource e.target e.wells
    let s := if e.cmd then (s.pmDone (if src.isSome then 3 else 0)).powerVector else s
    match src with
    | none => s
    | some c => s.startWake c e.target (if c = 1 then s.rung.getD 0 else 0) (if e.target = 3 then s.offWells else e.wells) false

/-- ENTRY_COMPLETE (R711, R714). -/
def execEntryComplete (s : State) : Res :=
  needSome s.pw.entry 709 (fun e => need (s.entryDrained e) 709 (.next (s.finishEntry e)))

/-- An entry whose drain takes longer than 1 ms is abandoned (R472, R710). -/
def State.abandonEntry (s : State) (e : Entry) : State :=
  let busy := e.wells.filter (fun w => !s.drained w)
  (busy.foldl State.noteBusy s).undoEntry 2

/-- ENTRY_DRAIN_TIMEOUT (R710). -/
def execEntryDrainTimeout (s : State) : Res :=
  needSome s.pw.entry 710 (fun e =>
    need (decide (e.at_ + 1000000 ≤ s.now) && !s.entryDrained e) 710 (.next (s.abandonEntry e)))

/-- DRAIN_TIMEOUT (R472): of an entry into W1 that was asked for, or of the entry under way. -/
def execDrainTimeout (w : WellId) (s : State) : Res :=
  need (!s.drained w) 472 (
    match tabGet none s.pw.w1Req w.val with
    | some t =>
      need (decide (t + 1000000 ≤ s.now)) 472
        (.next ((s.noteBusy w).modPw (fun p => { p with w1Req := tabPut none p.w1Req w none,
                                                        idleAt := tabPut none p.idleAt w (some s.now) })))
    | none =>
      needSome s.pw.entry 472 (fun e =>
        need (e.wells.contains w.val && decide (e.at_ + 1000000 ≤ s.now)) 472 (.next (s.abandonEntry e))))

/-! ### Staging (R716 to R723) -/

/-- Wells whose rails ramp toward power-good: power-good comes within 2 ms of their enabling, or not at all (R716, R720). -/
def State.ramping (s : State) : Nat :=
  let on (d : Nat) : Bool :=
    let r := tabGet {} s.pw.rails d
    r.phase == 1 && decide (s.now < r.at_ + 2000000)
  ((List.range 12).filter (fun w => on w || on (12 + w))).length

/-- A domain's rails as they stand. -/
def State.rail (s : State) (d : Nat) : Rail := tabGet {} s.pw.rails d
/-- Those rails replaced. -/
def State.setRail (s : State) (d : Nat) (r : Rail) : State := s.modPw (fun p => { p with rails := tabPut {} p.rails d r })

/-- WAKE_STAGING_WELL_START (R716). -/
def execWakeStagingWellStart (s : State) : Res :=
  match s.pw.staging with
  | [] => .fault (.notEnabled 716)
  | w :: rest =>
    need (s.pw.railAt.all (fun t => decide (t + 200000 ≤ s.now)) && decide (s.ramping < 2) && (s.rail 24).phase != 2) 716 (
      let now := s.now
      let s := (s.modPw (fun p => { p with staging := rest, railAt := some now })).setRail w { phase := 1, at_ := now }
      .next (if s.pw.deep then s.setRail (12 + w) { phase := 1, at_ := now } else s))

/-- The wake is over once no domain is left to start (R721, R736); at boot the self-tests begin (R747 order 7). -/
def State.wakeOver (s : State) : State :=
  if s.pw.staging.isEmpty && s.pw.rails.isEmpty then
    let s := if s.pw.wakeCmd then s.pmDone (if s.pw.degraded then 4 else 0) else s
    let s := s.modPw (fun p => { p with wakeCmd := false, deep := false })
    if s.fld rWhBoot 63 60 = 4 then
      let l := (List.range 12).filter (fun w => !s.wellLost w)
      (s.setFld rWhBoot 63 60 5).modPw (fun p => { p with testing := p.testing ++ l.map (fun w => (w, 0)) })
    else s
  else s

/-- A well whose domains are all good is in W1 (R716). -/
def State.wellUp (s : State) (w : Nat) : State :=
  if (s.rail w).phase = 0 ∧ (s.rail (12 + w)).phase = 0 then
    let t := (s.firstSupply w).setWellPm w 1
    if t.fld rWhWellState (2 * w + 25) (2 * w + 24) = 2 then t.modPw (fun p => { p with testing := p.testing ++ [(w, 2)] })
    else t
  else s

/-- DOMAIN_READY (R717): a reservoir-controller domain waits for REF100 (R729). -/
def execDomainReady (d : Fin 26) (s : State) : Res :=
  need ((s.rail d).phase == 1 && (d.val < 12 || 24 ≤ d.val || s.fld (rPmRefStat 2) 63 61 == 0)) 717 (
    let s := s.setRail d {}
    .next (if d.val < 24 then (s.wellUp (d.val % 12)).wakeOver
      else if d.val = 24 then (s.setFld rPmState 38 36 0).wakeOver
      else s.wakeOver))

/-- A well's packages FAILED with its reservoir-controller domain (R722). -/
def State.failPackages (s : State) (w : Nat) : State :=
  (List.range 3).foldl (fun (t : State) i => (t.setRvState (3 * w + i) 4).reportSelf 13 0x7 2 (3 * w + i) 0) s

/-- Domain code of PM_WAKE_FAIL. -/
def domainCode (d : Nat) : Nat := if d < 12 then d else if d < 24 then 12 else d - 11

/-- A domain marked failed after its second attempt (R721 to R723): cause 1 power-good, 2 PLL lock. -/
def State.failDomain (s : State) (d cause : Nat) : State :=
  let v := setBits (setBits (setBits 0#64 55 52 (domainCode d)) 51 48 (if d < 24 ∧ 12 ≤ d then d - 12 else 0)) 47 46 cause
  let s := ((s.latch rPmWakeFail v).reportSelf 19 0xA 2 (domainCode d) cause).powerVector
  let s := (s.setRail d {}).modPw (fun p => { p with degraded := true })
  if 24 ≤ d then
    (s.alert 5).modPw (fun p => { p with standby := true, staging := [], rails := [] })
  else
    let w := d % 12
    let s := if 12 ≤ d then s.failPackages w else s
    let s := ((s.setRail w {}).setRail (12 + w) {}).setWellPm w 7
    let s := if s.fld rWhWellState (2 * w + 25) (2 * w + 24) = 2 then
        (s.setFld rWhWellCmd 31 31 0).setFld rWhWellCmd 30 28 3
      else s
    (s.loseWell w 3).wakeOver

/-- The rails of a domain turned off (R720): a second attempt, or none. -/
def State.railOff (s : State) (d cause : Nat) : State :=
  let r := s.rail d
  if r.second then s.failDomain d cause else s.setRail d { phase := 2, at_ := s.now, second := true }

/-- POWER_GOOD_TIMEOUT (R720). -/
def execPowerGoodTimeout (d : Fin 26) (s : State) : Res :=
  need ((s.rail d).phase == 1 && decide ((s.rail d).at_ + 2000000 ≤ s.now)) 720 (.next (s.railOff d 1))

/-- PLL_LOCK_TIMEOUT (R720, R729): the limit counts from a stable reference. -/
def execPllLockTimeout (d : Fin 26) (s : State) : Res :=
  need ((s.rail d).phase == 1 && decide ((s.rail d).at_ + 200000 ≤ s.now)
      && (d.val < 12 || 24 ≤ d.val || s.fld (rPmRefStat 2) 63 61 == 0)) 720 (.next (s.railOff d 2))

/-- WAKE_RETRY (R720). -/
def execWakeRetry (d : Fin 26) (s : State) : Res :=
  need ((s.rail d).phase == 2 && decide ((s.rail d).at_ + 1000000 ≤ s.now) && (24 ≤ d.val || decide (s.ramping < 2))) 720
    (.next (s.setRail d { phase := 1, at_ := s.now, second := true }))

/-! ### Waits on host memory (R469, R601) -/

/-- The link of a half goes down; in x16 mode half 0 is the whole link. -/
def State.linkDown (s : State) (half : Nat) : State :=
  if half = 0 then { s with hostDown := some (s.hostDown.getD s.now) } else { s with halfDown := some (s.halfDown.getD s.now) }

/-- PCIE_LINK_DOWN (R601). -/
def execPcieLinkDown (half : Fin 2) (s : State) : Res :=
  need (half.val == 0 || s.bifurc) 601 (.next (s.linkDown half))

/-- PCIE_LINK_UP (R601): its reference is in service and PERST is not asserted (R57, R727). -/
def execPcieLinkUp (half : Fin 2) (s : State) : Res :=
  need (s.pw.pg && s.pw.sampled && (half.val == 0 || s.bifurc) && s.fld (rPmRefStat half) 63 61 == 0
      && !(if half.val = 0 then s.pw.perst0 else s.pw.perst1)) 601
    (.next (if half.val = 0 then { s with hostDown := none } else { s with halfDown := none }))

/-- The host bus address of an access that stalls on host memory. -/
def State.hostLoc (s : State) (ctx va : Nat) (write : Bool) : Option Loc :=
  match { s with hostDown := none }.translate ctx va write with
  | .ok ⟨.host, a⟩ => some ⟨.host, a⟩
  | _ => none

/-- The access of a requester that has waited ends as an uncorrectable read (R469). -/
def State.waitedOut (s : State) (who : Waiter) (e : AccErr) : Res :=
  match who with
  | .bobbin w p => need (s.bob w p).run.isSome 469 (s.bobError w p e)
  | .store w p => match (s.bob w p).storeQ with
    | x :: _ => .next (s.storeError w p x e)
    | [] => .fault (.notEnabled 469)
  | .controller w => need (s.well w).job.isSome 469 (s.ctlErr w e)
  | .pump w n => need ((s.pump w n).state == 1) 469 (s.unitFault w n (s.pump w n) e)
  | .unit w u =>
    let x := s.unit w u
    needSome x.next 469 (fun ix =>
      match ix.1 with
      | .bob id i => needSome ((s.reqs.find? (fun y => y.1 == id)).map Prod.snd) 469 (fun q => s.bobFault w u ix.2 id q i e)
      | .op id i => needSome (s.op id) 469 (fun op => s.opFault w u ix.2 op (s.cuArg id i op).toOption e)
      | .comb id i => needSome (s.op id) 469 (fun op => needSome op.comb 469 (fun c =>
          (s.undefComb (s.cuCtx w op.job) op.rung c i).opFault w u ix.2 op none e)))
  | .move n => needSome s.engine.moves[n]? 469 (fun m =>
      .next ({ s with engine := { s.engine with moves := s.engine.moves.eraseIdx n } }.abandonMove m e))
  | .wellhead j => s.headErr j ((s.whOf (.checkpoint j)).getD 0) e

/-- The context of a requester. -/
def State.waiterCtx (s : State) : Waiter → Nat
  | .bobbin w p => (s.bob w p).run.elim 12 (fun r => s.ctxOf r.b.job)
  | .store w p => ((s.bob w p).storeQ.head?).elim 12 (fun e => s.ctxOf e.job)
  | .controller w => s.partOf w
  | .pump w n => s.ctxOf (s.pump w n).job
  | .unit w _ => s.partOf w
  | .move n => (s.engine.moves[n]?).elim 12 (fun m => s.ctxOf m.job)
  | .wellhead j => s.ctxOf j

/-- HOST_TIER_WAIT_EXPIRY (R469): the access at va of a requester has stalled for HOST_WAIT_MS; for a move, one of its
frames is host memory. -/
def execHostTierWaitExpiry (who : Waiter) (va : BitVec 56) (write : Bool) (s : State) : Res :=
  let ms := s.fld rMgCtl 63 48
  needSome s.hostDown 469 (fun t =>
    need (decide (t + (if ms = 0 then 1000 else ms) * 1000000 ≤ s.now)) 469 (
      match who with
      | .move n => needSome s.engine.moves[n]? 469 (fun m =>
          need (m.copying && (m.src.tier == .host || m.dst.tier == .host)) 469
            (s.waitedOut who (.tier m.va (if m.src.tier = .host then m.src else m.dst) (decide (m.src.tier ≠ .host)))))
      | _ => needSome (s.hostLoc (s.waiterCtx who) va.toNat write) 469 (fun l => s.waitedOut who (.tier va.toNat l write))))

/-! ### References (R726 to R729) -/

/-- ERR_US brought up to date (R733): the drift of the coarse advance under way counts by the second begun. -/
def State.syncErr (s : State) : State :=
  let secs := (s.pw.edges * 1953125 + 64 * 10 ^ 9 - 1) / (64 * 10 ^ 9)
  s.setFld rPmTbStatus 31 0 (min (s.pw.errBase + 150 * secs) (2 ^ 32 - 1))

/-- A switch between fine and coarse advance (R733). -/
def State.switchTime (s : State) (coarse : Bool) : State :=
  let base := s.fld rPmTbStatus 31 0 + 31
  let s := s.modPw (fun p => { p with frac := 0, edges := 0, errBase := base })
  ((s.setFld rPmTbStatus 63 63 1).setFld rPmTbStatus 62 62 coarse.toNat).syncErr

/-- REF100 stops (R727): packages in self-refresh (R501), and coarse advance. -/
def State.loseRef100 (s : State) : State :=
  let s := (List.range 36).foldl (fun (t : State) k => if t.rvState k = 0 then t.setRvState k 1 else t) s
  let s := { s with rvSelfRefresh := true }
  if s.fld rPmTbStatus 62 62 = 1 then s else s.switchTime true

/-- Effects of a reference that is out of service (R727). -/
def State.refEffects (s : State) (i : Nat) : State :=
  match i with
  | 0 => s.linkDown 0
  | 1 => if s.bifurc then s.linkDown 1 else s
  | 2 => s.loseRef100
  | _ => (List.range 9).foldl (fun (t : State) p => if t.portState p = 0 then t else t.dropPort p 4) s

/-- A fault of a reference (R726, R727, R728). -/
def State.refFault (s : State) (i ppm : Nat) : State :=
  let s := ((s.setFld (rPmRefStat i) 63 61 1).setFld (rPmRefStat i) 47 32 ppm).incFld (rPmRefStat i) 31 16 1
  let s := s.reportSelf 19 0x9 0 (16 + i) ppm
  (s.modPw (fun p => { p with refAt := tabPut 0 p.refAt i s.now })).refEffects i

/-- REFERENCE_FAULT (R726, R727); in W3 and W4 a reference that stops is ABSENT and no fault (R729), and what it clocks
stops all the same (R28, R65). -/
def execReferenceFault (i : Fin 4) (ppm : BitVec 16) (s : State) : Res :=
  if (s.devicePm = 3 ∨ s.pw.w4) ∧ s.pw.rails.isEmpty then
    let t := (s.setFld (rPmRefStat i) 63 61 3).setFld (rPmRefStat i) 47 32 ppm.toNat
    .next ((t.modPw (fun p => { p with refAt := tabPut 0 p.refAt i s.now })).refEffects i)
  else .next (s.refFault i ppm.toNat)

/-- REFERENCE_RECOVERY (R728): good for 1 ms; service resumes. -/
def execReferenceRecovery (i : Fin 4) (s : State) : Res :=
  need (s.fld (rPmRefStat i) 63 61 != 0 && decide (tabGet 0 s.pw.refAt i.val + 1000000 ≤ s.now)) 728 (
    let s := s.setFld (rPmRefStat i) 63 61 0
    .next (if i.val = 2 then s.switchTime false
      else if i.val = 3 then
        (List.range 9).foldl (fun (t : State) p => if t.portState p = 4 then t.setFld (rPortStatus p) 31 29 1 else t) s
      else s))

/-- REFERENCE_ABSENT_TIMEOUT (R729). -/
def execReferenceAbsentTimeout (i : Fin 4) (s : State) : Res :=
  need (s.fld (rPmRefStat i) 63 61 == 3 && s.devicePm == 0 && !s.pw.w4 && decide (s.pw.wakeAt + 100000000 ≤ s.now)) 729
    (.next (s.refFault i (s.fld (rPmRefStat i) 47 32)))

/-- REFERENCE_GLITCH (R726). -/
def execReferenceGlitch (i : Fin 4) (s : State) : Res := .next (s.incFld (rPmRefStat i) 15 0 1)

/-- RESERVOIR_SELF_REFRESH_EXIT (R502): REF100 in service, and no well's controllers off in W3. -/
def execReservoirSelfRefreshExit (s : State) : Res :=
  need (s.rvSelfRefresh && s.fld (rPmRefStat 2) 63 61 == 0 && s.devicePm == 0
      && (List.range 12).all (fun w => (s.rail (12 + w)).phase == 0 && !s.pw.staging.contains w)) 502 (
    let s := (List.range 36).foldl (fun (t : State) k => if t.rvState k = 1 then t.setRvState k 0 else t) s
    .next { s with rvSelfRefresh := false })

/-! ### The timebase (R730 to R735) -/

/-- HB_OUT toggles every 500 µs while the wellhead runs, W0 to W3, and is static otherwise (R68, R706). -/
def State.heartbeat (s : State) : State :=
  if s.alive && s.pairState != 7 && decide (s.pw.hbAt + 500000 ≤ s.now) then
    s.modPw (fun p => { p with hbOut := !p.hbOut, hbAt := s.now })
  else s

/-- TIMEBASE_ADVANCE (R731, R732): an edge of REF100, or of the always-on oscillator while REF100 is out of service. -/
def execTimebaseAdvance (s : State) : Res :=
  if s.fld rPmTbStatus 62 62 = 0 then .next (s.setReg rPmTimebase (s.reg rPmTimebase + 10#64)).noteIdle.heartbeat
  else
    let f := s.pw.frac + 1953125
    let s := s.modPw (fun p => { p with frac := f % 64, edges := p.edges + 1 })
    .next (s.setReg rPmTimebase (s.reg rPmTimebase + BitVec.ofNat 64 (f / 64))).syncErr.noteIdle.heartbeat

/-- TIMEBASE_LOW_READ (R734). -/
def execTimebaseLowRead (s : State) : Res :=
  .next (s.modPw (fun p => { p with tbHigh := BitVec.ofNat 32 (s.fld rPmTimebase 63 32), tbLatched := true }))

/-- COARSE cleared: ERR_US is 0 (R736). -/
def State.clearCoarse (s : State) : State :=
  ((s.setFld rPmTbStatus 63 63 0).setFld rPmTbStatus 31 0 0).modPw (fun p => { p with edges := 0, errBase := 0 })

/-- TIMEBASE_COARSE_CLEAR (R733). -/
def execTimebaseCoarseClear (s : State) : Res := .next s.clearCoarse

/-- ALARM_FIRE (R735, R736): once for a setting of the alarm. -/
def execAlarmFire (s : State) : Res :=
  need (s.alarmLevel && !s.pw.alarmed) 735 (
    let s := s.modPw (fun p => { p with alarmed := true })
    .next (if s.pw.w4 then s else s.powerVector))

/-- A write of PM_ALARM: an alarm that is cleared, or moved past the timebase, may fire again. -/
def State.writeAlarm (s : State) (v : Word) : State :=
  let s := s.setReg rPmAlarm v
  if s.alarmLevel then s else s.modPw (fun p => { p with alarmed := false })

end Sys2Proof.Machine
end

