-- ==== Sys2Proof/Machine/Supply.lean ====
section
/-!
DEFINITION. The module's supply (R50 to R57, R62, R71): cold reset, loss of the input or of the wellhead core domain, the
power limit, the thermal trip; and the management bus (R69, R70).
-/

namespace Sys2Proof.Machine

/-! ### Shutdown -/

/-- A journal program in progress completes (R54, R71, R755). -/
def State.finishProgram (s : State) : State :=
  match s.jn.program with
  | some rs => s.durable rs
  | none => s

/-- The shutdown of R54: a program in progress completes within the hold-up, and all but the aquifer is lost (R471). A
member of a pair yields first (R692). What comes while the module is off already loses nothing more (R71). -/
def State.shutDown (s : State) : State := if s.pw.off then s else s.sendYield.finishProgram.coldBase.keepMgmt s

/-- COLD_RESET (R738, R742): what held the module off is over, the timebase is 0 and the cold starts count one more
(R730). -/
def execColdReset (s : State) : Res :=
  let n := s.pw.boots + 1
  .next (((s.coldBase.keepMgmt s).setFld rPmTbStatus 47 32 n).modPw (fun p =>
    { p with boots := n, uv := false, ov := false, enLow := false }))

/-- The reference inputs that a power-up needs are present: REFCLK0, REF100 and REF156 (R56; which ones is log entry 81). -/
def State.refsPresent (s : State) : Bool :=
  [0, 2, 3].all (fun i => s.fld (rPmRefStat i) 63 61 == 0 || s.fld (rPmRefStat i) 63 61 == 2)

/-- The input fell below 41.0 V (R50, R54), which takes the management controller too. -/
def State.inputLost (s : State) : State :=
  s.shutDown.modPw (fun p => { p with uv := true, vin := 0, iin := 0, pin := 0, stInput := 0#8, stTemp := 0#8, answer := [] })

/-- The input rose through 62.0 V (R50, R71). The status bit is VIN_OV_FAULT. -/
def State.overVoltage (s : State) : State :=
  s.shutDown.modPw (fun p => { p with ov := true, stInput := p.stInput ||| 0x80#8 })

/-- INPUT_LOSS_SHUTDOWN (R54): by a fall below 41.0 V or by MOD_EN. -/
def execInputLossShutdown (modEn : Bool) (s : State) : Res :=
  if modEn then need (!s.pw.enLow) 54 (.next (s.shutDown.modPw (fun p => { p with enLow := true })))
  else need (!s.pw.uv) 54 (.next s.inputLost)

/-- OVER_VOLTAGE_LOCKOUT (R71). -/
def execOverVoltageLockout (s : State) : Res := need (!s.pw.ov && !s.pw.uv) 71 (.next s.overVoltage)

/-- WELLHEAD_DOMAIN_FAILURE (R57, R692): the wellhead and what it runs are lost, until a cold reset. Whether a program in
progress completes is open. -/
def execWellheadDomainFailure (canSend : Bool) (s : State) : Res :=
  need s.pw.pg 57 (
    let s := if canSend then s.sendYield else s
    let (b, s) := s.freeBit
    let t := if b then s.finishProgram else s
    .next ((t.coldBase.keepMgmt s).modPw (fun p => { p with standby := true })))

/-! ### Input voltage and power (R51 to R55) -/

/-- INPUT_VOLTAGE_WARNING (R55): over 60 V, or under 44 V. The report's unit, the periphery, and its detail, 1 over and 0
under, are the model's choice (log entry 82). -/
def execInputVoltageWarning (high : Bool) (s : State) : Res :=
  need s.alive 55 (
    let s := s.modPw (fun p => { p with stInput := p.stInput ||| (if high then 0x40#8 else 0x20#8) })
    let s := (s.setFld rPmInputStatus (if high then 19 else 20) (if high then 19 else 20) 1).alert high.toNat
    .next (s.reportSelf 19 0xA 0 13 high.toNat))

/-- Ceiling of the array supply in mV at a hottest junction in quarters of a degree (R724). -/
def ceilingMv (tj : Int) : Nat := if tj ≤ 140 then 920 else 850

/-- Hottest junction of a well in quarters of a degree, as its base and cistern dies were last read (R765, R769). -/
def State.wellTj (s : State) (w : Nat) : Int :=
  max (signedOf 10 (s.fld (rScDie (1 + 2 * w)) 31 22)) (signedOf 10 (s.fld (rScDie (2 + 2 * w)) 31 22))

/-- VARRAY at the thermal target, and the reason for it (R736). -/
def State.thermalSupply (s : State) (w : Nat) : State :=
  let mv := tabGet 600 s.pw.vtherm w
  s.setVarray w mv (if mv < ceilingMv (s.wellTj w) then 1 else 0)

/-- VARRAY below the thermal target, as the power limit asks (R51, R52): how far is open, within the floor of R724. -/
def State.limitSupply (s : State) (w : Nat) : State :=
  let (n, s) := s.freeNat
  let t := tabGet 600 s.pw.vtherm w
  s.setVarray w (600 + n % max 1 (t - 600)) 2

/-- Wells with an array supply. -/
def State.supplied (s : State) : List Nat := (List.range 12).filter (fun w => decide (s.wellPm w ≤ 1))

/-- Does R51 allow a sample: an instantaneous power and an average over 1 s, both in W? The device keeps to it, so no other
sample occurs. -/
def State.powerOk (s : State) (inst avg1s : Nat) : Bool :=
  decide (avg1s ≤ s.pw.limitW ∧ inst ≤ 4600) && (decide (inst ≤ s.pw.limitW)
    || (if s.pw.excOn then s.pw.excAt.any (fun t => decide (s.now ≤ t + 20000000))
        else s.pw.excAt.all (fun t => decide (t + 100000000 ≤ s.now))))

/-- Does R50 allow a sample's current in mA: 104.5 A in an excursion and 90.9 A otherwise, at 44 V and above; and at most 5 W
with MOD_EN low? -/
def State.inputOk (s : State) (inst mv ma : Nat) : Bool :=
  (!s.pw.enLow || decide (inst ≤ 5))
  && (decide (mv < 44000) || decide (ma ≤ 104500) && (decide (s.pw.limitW < inst) || decide (ma ≤ 90900)))

/-- What the management controller reads of a sample (R69), and whether an excursion runs (R51). -/
def State.readInput (s : State) (inst avg1ms mv ma : Nat) : State :=
  let above := decide (s.pw.limitW < inst)
  let at_ := if above && !s.pw.excOn then some s.now else s.pw.excAt
  s.modPw (fun p => { p with excOn := above, excAt := at_, vin := mv, iin := ma, pin := avg1ms * 1000 })

/-- INPUT_POWER_SAMPLE (R50 to R52, R69): powers in W, voltage in mV, current in mA; `limited` says that the power limit asks
for a lower supply than the thermal target. A voltage beyond a lockout is the lockout; the registers and the supplies
follow while the wellhead runs, and the management controller's readings with MOD_EN low, before MOD_PG and in standby
too. -/
def execInputPowerSample (inst avg1ms avg1s : BitVec 13) (mv ma : BitVec 17) (limited : Bool) (s : State) : Res :=
  need (!s.pw.uv && s.powerOk inst.toNat avg1s.toNat && s.inputOk inst.toNat mv.toNat ma.toNat) 51 (
    let t := s.readInput inst.toNat avg1ms.toNat mv.toNat ma.toNat
    if mv.toNat < 41000 then .next s.inputLost
    else if 62000 < mv.toNat ∧ s.pw.ov = false then .next t.overVoltage
    else if s.alive then
      let t := (t.setFld rPmInputStatus 15 0 avg1ms.toNat).setFld rPmInputStatus 31 22 (mv.toNat / 100)
      let t := t.setFld rPmInputStatus 21 21 limited.toNat
      .next (t.supplied.foldl (fun (t : State) w => if limited then t.limitSupply w else t.thermalSupply w) t)
    else .next t)

/-- INPUT_LIMIT_APPLY (R55). -/
def execInputLimitApply (s : State) : Res :=
  .next (s.modPw (fun p => { p with limitW := min (max (s.fld rPmInputLimit 12 0) 1000) 4000 }))

/-! ### Thermal trip (R62) -/

/-- A well turned off with its work. -/
def State.turnOff (s : State) (w : Nat) : State :=
  let s := (s.dirForget w).clearWell w
  let s := (s.mapBobs w (fun b => { b with powered := false, admitted := false })).setWell w {}
  (s.setVarray w 0 0).setWellPm w 7

/-- THERMAL_TRIP (R62, R692): in every power state, and independently of firmware. -/
def execThermalTrip (d : Fin 25) (s : State) : Res :=
  need (!s.pw.off && s.pw.tripDie.isNone) 62 (
    let s := (List.range 12).foldl State.turnOff s.sendYield
    let s := { s with cistern := [] }
    let s := s.modPw (fun p => { p with standby := true, tripDie := some d.val, staging := [], rails := [], entry := none,
                                        stTemp := p.stTemp ||| 0x80#8 })
    .next ((s.alert 2).reportSelf 20 0xA 3 d d))

/-! ### Management bus (R69, R70) -/

/-- The management controller answers while the input is above 43.0 V, as it read it last, whether MOD_EN is low, the module
in standby or in W4 (R69; that it answers in W4 is log entry 84); before the first reading the input has just risen
through it. -/
def State.answers (s : State) : Bool := !s.pw.uv && (s.pw.vin == 0 || decide (43000 < s.pw.vin))

/-- A PMBus answer. -/
def State.pmbus (s : State) (bytes : List Byte) : Res :=
  need s.answers 69 (.next (s.modPw (fun p => { p with answer := bytes })))

/-- A reading in thousandths in Linear11 format. -/
def State.linear (s : State) (v : Int) : Res := s.pmbus (leBytes 2 (Config.linear11 v).toNat)

/-- READ_VIN. -/
def execReadVin (s : State) : Res := s.linear s.pw.vin
/-- READ_IIN. -/
def execReadIin (s : State) : Res := s.linear s.pw.iin
/-- READ_PIN. -/
def execReadPin (s : State) : Res := s.linear s.pw.pin
/-- READ_TEMPERATURE_1: the coolant inlet. -/
def execReadTemperature1 (s : State) : Res := s.linear (s.fld rScCoolant 15 0 * 625 / 10)
/-- READ_TEMPERATURE_2: the coolant outlet. -/
def execReadTemperature2 (s : State) : Res := s.linear (s.fld rScCoolant 31 16 * 625 / 10)
/-- Junctions of the dies read in the latest sweep (R768). -/
def State.current (s : State) : List Int :=
  ((List.range 25).filter (fun d => s.fld (rScDie d) 63 32 == s.fld rScSweep 63 32)).map
    (fun d => signedOf 10 (s.fld (rScDie d) 31 22))
/-- READ_TEMPERATURE_3: the hottest current junction; with no die current the reading is open. -/
def execReadTemperature3 (s : State) : Res :=
  match s.current with
  | [] =>
    let (n, s) := s.freeNat
    s.linear n
  | t :: l => s.linear (l.foldl max t * 250)

/-- STATUS_WORD: its low byte is STATUS_BYTE. PMBus 1.3 gives the places: INPUT 13, POWER_GOOD# 11, OFF 6,
VIN_UV_FAULT 3, TEMPERATURE 2. -/
def State.statusWord (s : State) : Nat :=
  (decide (s.pw.stInput ≠ 0#8)).toNat * 2 ^ 13 + (!s.pw.pg).toNat * 2 ^ 11 + s.pw.off.toNat * 2 ^ 6
  + (s.pw.stInput.toNat.testBit 4).toNat * 2 ^ 3 + (decide (s.pw.stTemp ≠ 0#8)).toNat * 2 ^ 2

/-- STATUS_WORD. -/
def execStatusWord (s : State) : Res := s.pmbus (leBytes 2 s.statusWord)
/-- STATUS_INPUT. -/
def execStatusInput (s : State) : Res := s.pmbus [s.pw.stInput]
/-- STATUS_TEMPERATURE. -/
def execStatusTemperature (s : State) : Res := s.pmbus [s.pw.stTemp]
/-- CLEAR_FAULTS (R762): no FC_ALERT bit. -/
def execClearFaults (s : State) : Res :=
  need s.answers 69 (.next (s.modPw (fun p => { p with stInput := 0#8, stTemp := 0#8, answer := [] })))
/-- PMBUS_REVISION: 1.3 in both parts. -/
def execPmbusRevision (s : State) : Res := s.pmbus [0x33#8]
/-- MFR_ID. -/
def execMfrId (s : State) : Res := s.pmbus Config.mfrId
/-- SMBUS_ALERT_RESPONSE (R63, R70): the module's address in bits 7 to 1 while ALERT_N is asserted; bit 0 is open. -/
def execSmbusAlertResponse (s : State) : Res :=
  if s.fld rFcAlert 10 0 = 0 then s.pmbus []
  else
    let (b, s) := s.freeBit
    s.pmbus [BitVec.ofNat 8 (2 * (0x58 + Config.slotId.toNat) + b.toNat)]

end Sys2Proof.Machine
end

