-- ==== Sys2Proof/Machine/Boot.lean ====
section
/-!
DEFINITION. Reset, boot and self-test (R57, R64, R65, R478, R507, R621, R622, R738 to R755).
-/

namespace Sys2Proof.Machine

/-! ### Firmware images (R744 to R746) -/

/-- STAGE of WH_BOOT. -/
def State.stage (s : State) : Nat := s.fld rWhBoot 63 60
/-- That stage entered. -/
def State.setStage (s : State) (v : Nat) : State := s.setFld rWhBoot 63 60 v

/-- A firmware image as it lies from address `at_` of a memory. -/
structure Image where
  mem : Mem
  at_ : Nat
deriving DecidableEq, Repr

/-- Bytes of an image. -/
def Image.bytes (x : Image) (o n : Nat) : List Byte := memRead x.mem (x.at_ + o) n
/-- A field of its header. -/
def Image.field (x : Image) (o n : Nat) : Nat := leVal (x.bytes o n)
/-- LEN. -/
def Image.len (x : Image) : Nat := x.field 4 4
/-- VERSION. -/
def Image.version (x : Image) : Nat := x.field 8 2
/-- SVN. -/
def Image.svn (x : Image) : Nat := x.field 10 2
/-- UCODE. -/
def Image.ucode (x : Image) : Nat := x.field 12 2
/-- KEY. -/
def Image.key (x : Image) : List Byte := x.bytes 16 97
/-- Nonzero reserved bytes. -/
def Image.dirty (x : Image) : Bool := (x.bytes 14 2 ++ x.bytes 113 15 ++ x.bytes 224 3872).any (· != 0#8)

/-- The checks of R744 that need no body, in its order: 0 passed, or the FAIL code of WH_BOOT. -/
def Image.headCode (x : Image) (floor : Nat) : Nat :=
  if x.field 0 4 ≠ 0x3256464B ∨ x.dirty ∨ x.len = 0 ∨ 67104768 < x.len then 2
  else if sha384 x.key ≠ Config.keyDigest then 3
  else if x.svn < floor then 5
  else 0

/-- Every check of R744. -/
def Image.code (x : Image) (floor : Nat) : Nat :=
  if x.headCode floor ≠ 0 then x.headCode floor
  else if ecdsaOk x.key (x.bytes 0 128 ++ x.bytes 4096 x.len) (x.bytes 128 96) then 0
  else 4

/-- Boot copy 0 (A) or 1 (B) (R525). -/
def State.bootCopy (s : State) (c : Nat) : Image := ⟨s.boot, c * 2 ^ 27⟩

/-- The copies in the order in which the ROM reads them (R746). -/
def State.bootOrder (s : State) : List Nat :=
  let a := s.bootCopy 0
  let b := s.bootCopy 1
  let okA := decide (a.headCode s.pw.floor = 0)
  let okB := decide (b.headCode s.pw.floor = 0)
  if okB && (!okA || decide (a.version < b.version)) then [1, 0] else [0, 1]

/-! ### The start of a boot (R57, R64, R747 orders 1 to 3) -/

/-- The boot ROM starts: the link trains where its reference REFCLK0 is in service (R65, R727), BIFURC is sampled, and the
headers order the copies. No well has power yet. -/
def State.startBoot (s : State) (two : Bool) : State :=
  let order := s.bootOrder
  let up := decide (s.fld (rPmRefStat 0) 63 61 = 0)
  let s := { s with hostDown := if up then none else s.hostDown, bifurc := two }.modPw (fun p =>
    { p with sampled := true, bootAt := s.now, copies := order })
  let s := (List.range 12).foldl (fun (t : State) w => t.setWellPm w 7) s
  ((s.setFld rWhFw 31 16 s.pw.floor).setFld rWhBoot 58 50 0).setStage 1

/-- PERST_DEASSERT (R57, R64): half 0's first one after a cold reset samples BIFURC and starts the boot, and the link of a half
comes up again later. PERST1_N has no effect in x16 mode (R63). A PERST0_N that the host releases before MOD_PG samples
BIFURC, and the boot waits for MOD_PG (log entry 85). -/
def execPerstDeassert (half : Fin 2) (two : Bool) (s : State) : Res :=
  if half.val = 1 then need s.pw.perst1 57 (.next (s.modPw (fun p => { p with perst1 := false })))
  else
    need s.pw.perst0 57 (
      let t := s.modPw (fun p => { p with perst0 := false })
      .next (if s.pw.sampled then t else if s.alive then t.startBoot two else { t with bifurc := two }))

/-- WELLHEAD_DOMAIN_GOOD (R56, R57). -/
def execWellheadDomainGood (s : State) : Res :=
  need (!s.pw.off && !s.pw.standby && !s.pw.w4 && !s.pw.pg && s.refsPresent) 57 (
    let t := s.modPw (fun p => { p with pg := true, rails := tabErase p.rails 25 })
    .next (if s.pw.perst0 || s.pw.sampled then t else t.startBoot s.bifurc))

/-- The queues that a half owns. -/
def State.halfQueues (s : State) (half : Nat) : List Nat := (List.range 64).filter (fun q => s.qOwner q == half)

/-- LK cleared in what the jobs had locked that a reset of a half drops (R432, R621). -/
def State.unlockHalf (s : State) (half : Nat) : State :=
  s.unlockJobs (fun j => (s.halfQueues half).any (fun q => s.dropped q j))

/-- Every queue that a half owns is reset (R621). -/
def State.resetHalf (s : State) (half : Nat) : State :=
  (s.halfQueues half).foldl State.resetQueue (s.unlockHalf half)

/-- PERST_ASSERT_HALF (R65, R621). -/
def execPerstAssertHalf (half : Fin 2) (s : State) : Res :=
  let s := s.modPw (fun p => if half.val = 0 then { p with perst0 := true } else { p with perst1 := true })
  .next (if half.val = 1 ∧ !s.bifurc then s else (if s.alive then s.resetHalf half else s).linkDown half)

/-- FUNCTION_LEVEL_RESET (R621). -/
def execFunctionLevelReset (half : Fin 2) (s : State) : Res :=
  need ((half.val == 0 || s.bifurc) && s.alive) 621 (.next (s.resetHalf half))

/-- An image runs (R747 order 5, R746): its versions, and the aquifer packages in training. -/
def State.runImage (s : State) (x : Image) : State :=
  let s := ((s.setFld rWhFw 63 48 x.version).setFld rWhFw 47 32 x.svn).setFld rVcId 31 16 x.ucode
  ((List.range 12).foldl (fun (t : State) k => if t.aqLost k then t else t.setFld (rAqPkgStat k) 31 29 2) s).setStage 3

/-- Neither copy is valid (R748). -/
def State.bootFail (s : State) : State := (s.setStage 8).alert 6

/-- A boot copy whose pages cannot be read: the failed read is counted, recorded and reported (R516, R526). -/
def State.bootReadLost (s : State) (c : Nat) : State :=
  ((s.incFld rAqEcc 15 0 1).latch rAqErr (setBits (setBits 0#64 61 59 5) 58 55 (6 * c))).reportSelf 14 0x2 0 (6 * c) 0

/-- BOOT_COPY_CHECKED (R744 to R748): the copy read next; `readOk` says that its pages could be read. -/
def execBootCopyChecked (readOk : Bool) (s : State) : Res :=
  match s.pw.copies with
  | [] => .fault (.notEnabled 746)
  | c :: rest =>
    need (s.stage == 1 && s.alive && !(readOk && s.aqLost (6 * c))) 746 (
      let x := s.bootCopy c
      let code := if readOk then x.code s.pw.floor else 1
      let s := if readOk then s else s.bootReadLost c
      let s := s.modPw (fun p => { p with copies := rest })
      let s := if c = 0 then s.setFld rWhBoot 57 54 code else s.setFld rWhBoot 53 50 code
      .next (if code = 0 then
          ((s.setFld rWhBoot 59 59 c).modPw (fun p => { p with copyUsed := c })).runImage x
        else if rest.isEmpty then s.bootFail
        else s.setFld rWhBoot 58 58 1))

/-! ### WH_RESET (R754) -/

/-- A write of WH_RESET with an OP: ignored with BUSY set, RESULT 1 where it is not allowed. -/
def State.whReset (s : State) (v : Word) (op : Nat) (allowed : Bool) (f : State → State) : Res :=
  need (bitsOf v 2 0 == op) 754 (
    if s.fld rWhReset 31 31 = 1 then .next s
    else
      let s := (s.setFld rWhReset 27 16 (bitsOf v 27 16)).setFld rWhReset 30 28 (!allowed).toNat
      .next (if allowed then f s else s))

/-- RUN_RECOVERY_IMAGE (R749): in STAGE 8; STAGE 9 stands while the ROM checks the image. -/
def execRunRecoveryImage (v : Word) (s : State) : Res :=
  s.whReset v 4 (s.stage == 8 && s.alive) (fun s =>
    let x : Image := ⟨s.recovery, 0⟩
    if x.code s.pw.floor = 0 then s.runImage x else s.setFld rWhReset 30 28 2)

/-- FIRMWARE_FLOOR_RAISE (R745): the value written to WH_FW with RAISE. -/
def execFirmwareFloorRaise (v : Word) (s : State) : Res :=
  need (bitOf v 0) 745 (
    let n := max s.pw.floor (s.fld rWhFw 47 32)
    .next ((s.modPw (fun p => { p with floor := n })).setFld rWhFw 31 16 n))

/-! ### Training (R478, R507, R747 orders 5 and 6) -/

/-- AQUIFER_TRAINING_DONE (R507): CHRATE of each package; then the wells are powered, or after a warm reset the firmware
goes on (R750). -/
def execAquiferTrainingDone (rates : List (BitVec 8)) (s : State) : Res :=
  need (s.stage == 3 && s.alive && decide (rates.length = 12)) 507 (
    let s := (List.range 12).foldl (fun (t : State) k =>
      if t.aqLost k then t
      else (t.setFld (rAqPkgStat k) 31 29 0).setFld (rAqPkgStat k) 23 16 (rates.getD k 0xFF#8).toNat) s
    if s.pw.trained then .next (s.setStage 10)
    else
      let now := s.now
      .next ((s.setStage 4).modPw (fun p => { p with staging := List.range 12, deep := true, wakeAt := now })))

/-- A channel of a package is not trained. -/
def untrained (rate : Nat) : Bool := [0, 2, 4, 6].any (fun i => rate / 2 ^ i % 4 == 3)

/-- RESERVOIR_TRAINING_DONE (R478). -/
def execReservoirTrainingDone (rates : List (BitVec 8)) (s : State) : Res :=
  need (s.stage == 5 && s.alive && !s.pw.trained && decide (rates.length = 36)) 478 (
    let s := (List.range 36).foldl (fun (t : State) k =>
      let r := (rates.getD k 0xFF#8).toNat
      let t := t.setFld (rRvPkgStat k) 31 24 r
      if untrained r && t.rvState k != 4 then (t.setRvState k 4).reportSelf 13 0x7 2 k 0 else t) s
    .next (s.modPw (fun p => { p with trained := true })))

/-! ### Self-test and mapping (R751 to R753) -/

/-- The mapping of R752 from the verdicts of the last tests: logical 0 to 15 on border bobbins, 16 to 127 on regular ones and
then on what border bobbins remain. -/
def State.mapBobbins (s : State) (w : Nat) : State :=
  let ok (p : Nat) : Bool := (s.bob w p).passedTest && !(s.bob w p).listed
  let border := (List.range 17).filter ok
  let regular := ((List.range 136).drop 17).filter ok
  let low := border.take 16
  let high := (regular ++ border.drop 16).take 112
  let phys (l : Nat) : Nat := if l < 16 then low.getD l 0xFF else high.getD (l - 16) 0xFF
  let s := (List.range 128).foldl (fun (t : State) l => t.setPhys w l (phys l)) s
  (List.range 136).foldl (fun (t : State) p =>
    t.setBobState w p (if low.contains p || high.contains p then 0 else if ok p then 1 else 2)) s

/-- The state of a well in WH_WELL_STATE. -/
def State.setWellState (s : State) (w v : Nat) : State := s.setFld rWhWellState (2 * w + 25) (2 * w + 24) v

/-- A well reset's end: the well is in W1 with its bobbins mapped (R742, R743), or LOST. -/
def State.wellRestarted (s : State) (w : Nat) (bad : Bool) : State :=
  let s := if bad then s.loseWell w 1 else ((s.mapBobbins w).setWellPm w 1).judgeWell w
  if s.pw.testing.any (fun t => t.2 == 1) then s else s.setFld rWhReset 31 31 0

/-- The bytes of a cistern lost: they read as bytes never written do. -/
def State.dropCistern (s : State) (w : Nat) : State :=
  let mine (k : Nat) : Bool := k / 2 ^ 33 == w
  { s with cistern := tabDrop mine s.cistern, poison := tabDrop mine s.poison }.recountPoison (.cistern w)

/-- The end of a TEST command (R779): the test has written the cistern. -/
def State.wellTested (s : State) (w : Nat) (bad : Bool) : State :=
  let m := s.mapBobbins w
  let pass := !bad && decide (m.usable w true ≠ 0 ∧ 64 ≤ m.usable w false)
  let s := s.dropCistern w
  let s := (s.setFld rWhWellCmd 31 31 0).setFld rWhWellState (48 + w) (48 + w) pass.toNat
  if pass then (s.setWellState w 1).setFld rWhWellCmd 30 28 0 else (s.loseWell w 6).setFld rWhWellCmd 30 28 2

/-- WELL_SELF_TEST_DONE (R751 to R753): the verdicts on the bobbins, the controller's memory and the cistern, and the
duration. At boot the bobbins are mapped later (R747 order 8). -/
def execWellSelfTestDone (w : WellId) (fail : BitVec 136) (ctl cis : Bool) (us : Word32) (s : State) : Res :=
  needSome (s.pw.testing.find? (fun t => t.1 == w.val)) 751 (fun e =>
    let bads := (List.range 136).filter (fun p => fail.toNat.testBit p)
    let v := setBits (setBits (setBits (setBits 0#64 63 56 bads.length) 55 48 ((List.range 17).filter
      (fun p => !fail.toNat.testBit p)).length) 47 47 ctl.toNat) 46 46 cis.toNat
    let s := s.setReg (rWlStResult w) (setBits v 31 0 us.toNat)
    let s := (List.range 136).foldl (fun (t : State) p =>
      t.setBob w p { t.bob w p with passedTest := !fail.toNat.testBit p }) s
    let s := s.modPw (fun p => { p with testing := p.testing.filter (fun t => t.1 != w.val) })
    let bad := ctl || cis
    .next (match e.2 with
      | 0 => if bad then s.loseWell w 1 else s
      | 1 => s.wellRestarted w bad
      | _ => s.wellTested w bad))

/-! ### Boot order 8 (R483, R622, R696, R747, R789) -/

/-- Journal records that pass their check, newest first (R42). -/
def Journal.newest (j : Journal) : List JRec := j.sound.flatMap List.reverse

/-- GEN of a queue after a cold reset (R622); a queue that the journal does not name stays at 0. -/
def State.scanGen (s : State) (q : Nat) : State :=
  match s.jn.newest.find? (fun r => r.queue == q) with
  | some r => s.setFld (rQStatus q) 47 40 (r.gen + 1)
  | none => s

/-- An accepted job without a COMMIT record: held until formation when the twin was in sync (R696), otherwise committed with
UNIT_LOST and no completion entry (R622). -/
def State.scanJob (s : State) (r : JRec) : State :=
  let j := s.jobs.length
  let x : Job :=
    { queue := r.queue, gen := r.gen, seq := r.seq, prio := r.prio, psize := r.psize, arg := r.arg, root := r.root,
      durable := true, mirrored := true, order := j + 1, tbAccept := r.tb }
  if s.pw.wasSync then
    let mine := s.pw.areas.filter (fun h => h.queue == r.queue && h.gen == r.gen && h.seq == r.seq)
    let saved := mine.map (fun h => { h.saved with job := j })
    { s with jobs := s.jobs ++ [{ x with phase := .waiting, held := true }], saved := saved ++ s.saved }
  else
    let x := { x with phase := .committed, status := some 0x60 }
    { s with jobs := s.jobs ++ [x] }.record (x.commitRec s.now)

/-- The journal scan of a cold reset; a record that fails its check is not used (R42). -/
def State.scanJournal (s : State) : State :=
  let s := s.noteJournal
  let s := (List.range 64).foldl State.scanGen s
  let l := s.jn.newest.reverse
  let opens := l.filter (fun r => r.kind == 1
    && !l.any (fun c => c.kind == 2 && c.queue == r.queue && c.gen == r.gen && c.seq == r.seq))
  ((opens.foldl State.scanJob s).modPw (fun p => { p with areas := [] })).syncOpen

/-- The span values of the configuration block written and committed (R789). -/
def State.spanConfig (s : State) (c : BitVec 12 × List (BitVec 48) × BitVec 8) : State :=
  if s.fld rSpCommit 0 0 = 1 then s
  else
    let s := s.setFld rSpDevid 11 0 c.1.toNat
    let s := (List.range 8).foldl (fun (t : State) p =>
      (t.setFld (rSpMac p) 47 0 (c.2.1.getD p 0#48).toNat).setFld (rSpCtl p) 30 30 (c.2.2.toNat.testBit p).toNat) s
    s.spCommit

/-- RV_PLACE committed with the value that the configuration block holds, or 0 (R483). -/
def State.placeConfig (s : State) (v : Option (BitVec 6)) : State :=
  if s.fld rRvPlace 31 31 = 1 then s
  else (s.setFld rRvPlace 5 0 (v.elim 0 BitVec.toNat)).setFld rRvPlace 31 31 1

/-- Order 8 of a boot that is no warm restart. -/
def State.coldConfig (s : State) (cfg : BootCfg) : State :=
  let s := ((List.range 12).filter (fun w => !s.wellLost w)).foldl (fun (t : State) w =>
    (t.mapBobbins w).judgeWell w) s
  (cfg.span.elim (s.placeConfig cfg.place) (s.placeConfig cfg.place).spanConfig).scanJournal

/-- Order 9: STAGE 6 or 7, BOOT_MS, and vector 251. -/
def State.ready (s : State) : State :=
  let lost := (List.range 12).any s.wellLost
  let s := (s.setStage (if lost then 7 else 6)).setFld rWhBoot 31 0 ((s.now - s.pw.bootAt) / 1000000)
  (s.setFld rWhReset 31 31 0).signal 0 251

/-- A member that comes back from a warm reset says PAIR_HELLO, which ends its twin's suspension (R689, R755; that it sends
one is log entry 94). -/
def State.greet (s : State) : State :=
  if s.portUp 8 ∧ 1 ≤ s.pairState ∧ s.pairState ≤ 6 then s.sayHello else s

/-- BOOT_COMPLETE (R747 orders 8 and 9; R750 after a warm reset). -/
def execBootComplete (cfg : BootCfg) (s : State) : Res :=
  need s.alive 747 (
    if s.stage = 10 then .next s.ready.greet
    else need (s.stage == 5 && s.pw.testing.isEmpty && s.pw.trained) 747 (.next (s.coldConfig cfg).ready))

/-! ### Work lost by a well (R471, R545, R742) -/

/-- The rows that an item was writing are undefined. -/
def State.undefItem (s : State) : CuItem → State
  | .bob _ _ => s
  | .op id i =>
    match s.op id with
    | none => s
    | some op =>
      match s.cuArg id i op with
      | .ok a => s.undefDest a
      | .error _ => s
  | .comb id i =>
    match s.op id with
    | none => s
    | some op =>
      match op.comb with
      | none => s
      | some c => s.undefComb (s.ctxOf op.job) op.rung c i

/-- Bytes that a unit of a transfer was writing are undefined. -/
def State.undefUnit (s : State) (p : Pump) (i : Nat) : State :=
  match tdUnit p.words i with
  | some (r, a, n) =>
    let va := tdDstAt p.words r + a
    if va < 0 then s else s.undefVa (s.ctxOf p.job) va.toNat n
  | none => s

/-- Regions that store entries, transfers and items of a well were writing are undefined (R471). -/
def State.undefWork (s : State) (w : Nat) : State :=
  let s := (List.range 136).foldl (fun (t : State) p =>
    (t.bob w p).storeQ.foldl (fun (t : State) e => t.undefVa (t.ctxOf e.job) e.va e.data.length) t) s
  let s := (List.range 8).foldl (fun (t : State) n => (t.pump w n).flight.foldl (fun (t : State) i =>
    t.undefUnit (s.pump w n) i) t) s
  (List.range 64).foldl (fun (t : State) u => (t.unit w u).cur.elim t (fun c => t.undefItem c.1)) s

/-- Everything that a reset of well w loses: its work, its cache tags, its translations. -/
def State.loseWork (s : State) (w : Nat) : State := (((s.undefWork w).clearWell w).loseCache w).dropTlb w

/-- Moves that a test picks are abandoned (R470, R471). -/
def State.dropMoves (s : State) (p : Move → Bool) : State :=
  let gone := s.engine.moves.filter p
  gone.foldl State.dropMove { s with engine := { s.engine with moves := s.engine.moves.filter (fun m => !p m) } }

/-- A job goes back to its last checkpoint (R471, R742): what it runs stops, and a failure not yet recorded is forgotten. -/
def Job.rolledBack (x : Job) : Job := { x with rollback := true, cp := none, status := none, reason := 0, addr := 0 }

/-! ### Warm reset (R739, R742, R750) -/

/-- The ring place promised to an entry of a job given back. -/
def State.unpromise (s : State) (x : Job) (typ : Nat) : State :=
  let h := s.hq x.queue
  s.setHq x.queue { h with waiting := h.waiting.filter (fun y =>
    !(y.2 == 2 && y.1.typ == typ && y.1.seq == x.seq && y.1.gen == x.gen)) }

/-- An entry fetched and not decided is fetched again (R742). -/
def State.refetch (s : State) (j : Nat) (x : Job) : State :=
  let s := ((s.modJob j (fun y => { y with phase := .committed, order := 0, locked := [] })).unlock x.locked).unpromise x 1
  if x.gen = s.qGen x.queue then
    s.setFld (rQStatus x.queue) 63 48 (s.fld (rQStatus x.queue) 63 48 + 65535)
  else s

/-- A job after a warm reset. -/
def State.warmJob (s : State) (j : Nat) (x : Job) : State :=
  match x.phase with
  | .verifying => s.refetch j x
  | .accepting => if s.inProgram x then s else s.refetch j x
  | .running | .preempting | .preempted | .stopping =>
    s.modJob j (fun y => { y.rolledBack with phase := .preempted })
  | .ended =>
    if x.commitDurable ∨ s.pairState = 7 then s
    else
      let s := s.modJob j (fun y => { y with phase := .waiting, status := none, reason := 0, addr := 0 })
      (s.unpromise x 2).loadTables j x
  | _ => s

/-- A waiting entry at a warm reset (R618): it is written from a copy that passes its check; when both fail, which is the
store's doing and so a free bit, an accepted job's entry is written again from the journal, and any other is lost and
reported. -/
def State.recheckEntry (s : State) (q : Nat) (y : CEntry × Nat) : State :=
  let (bad, s) := s.freeBit
  if bad && y.2 != 2 && (s.acceptedJob y.1.queue y.1.gen y.1.seq).isNone then
    let h := s.hq q
    (s.setHq q { h with waiting := h.waiting.erase y }).reportSelf 21 0xD 3 q y.1.seq
  else s

/-- The waiting entries of every queue after a warm reset (R618). -/
def State.recheckWaiting (s : State) : State :=
  (List.range 64).foldl (fun (t : State) q => (s.hq q).waiting.foldl (fun (t : State) y => t.recheckEntry q y) t) s

/-- A warm reset: RESETTING first (R689), a journal program in progress completes (R755), and the wellhead's SRAM and every
well's work are lost, but for the firmware's region and the waiting entries (R618). Records of queue resets and of jobs
that the scan committed are made again. -/
def State.warmReset (s : State) (intact : Bool) : State :=
  let s := if s.portUp 8 ∧ 2 ≤ s.pairState ∧ s.pairState ≤ 6 then s.tell .resetting else s
  let s := s.recheckWaiting.finishProgram.dropMoves (fun _ => true)
  let s := (List.range 12).foldl State.loseWork s
  let keep (r : JRec) : Bool := r.kind == 3 || s.jobs.any (fun j => j.phase == .committed && r.kind == 2 && recNames r j)
  let jn := { s.jn with joining := s.jn.joining.filter keep }
  let s := { s with
    jn := jn, engine := {}, reqs := [], ops := [], splits := [], colls := [], decided := [], sessions := [], tlb := [],
    walkPtrs := [], missQs := [], walkers := [], dir := [], lines := [], recovery := [], windows := [], whPumps := [],
    rvWaits := [] }.syncCores
  let s := s.jobs.zipIdx.foldl (fun (t : State) e => t.warmJob e.2 e.1) s
  let back := (s.pw.testing.filter (fun t => t.2 == 1)).map Prod.fst
  let s := back.foldl (fun (t : State) w => t.setWellPm w 1) s
  let now := s.now
  let order := s.bootOrder
  let s := s.modPw (fun p => { p with
    testing := p.testing.filter (fun t => t.2 != 1), bootAt := now, copies := if intact then [] else order })
  let s : State := (s.setFld rWhBoot 49 48 1).syncOpen
  if intact then (if 6 ≤ s.stage then s.setStage 10 else s) else (s.setFld rWhBoot 58 50 0).setStage 1

/-- Firmware runs. -/
def State.firmwareRuns (s : State) : Bool := s.alive && decide (3 ≤ s.stage) && s.stage != 8

/-- WARM_RESET (R739): `intact` says that the firmware's region still has its digest (R750). -/
def execWarmReset (v : Word) (intact : Bool) (s : State) : Res :=
  s.whReset v 1 s.firmwareRuns (fun s => (s.setFld rWhReset 31 31 1).warmReset intact)

/-- FIRMWARE_WATCHDOG_EXPIRY (R739). -/
def execFirmwareWatchdogExpiry (intact : Bool) (s : State) : Res :=
  need s.firmwareRuns 739 (.next (s.warmReset intact))

/-! ### Takeover reset (R740) -/

/-- TAKEOVER_RESET: as a cold reset, with the timebase and the count of cold starts kept. The wellhead stays powered, so a
PERST that is not asserted lets the boot begin at once. -/
def execTakeoverReset (v : Word) (two : Bool) (s : State) : Res :=
  s.whReset v 2 (s.pairState == 7) (fun s =>
    let t := (s.coldBase.keepMgmt s).keepRegs s [rPmTimebase]
    let t := t.setFld rPmTbStatus 62 62 (s.fld rPmTbStatus 62 62)
    let t := (List.range 4).foldl (fun (t : State) i => t.setFld (rPmRefStat i) 63 61 (s.fld (rPmRefStat i) 63 61)) t
    let q := s.pw
    let t := t.modPw (fun p =>
      { p with pg := q.pg, perst0 := q.perst0, perst1 := q.perst1, frac := q.frac, refAt := q.refAt, hbOut := q.hbOut,
               hbAt := q.hbAt })
    let t := t.setFld rWhBoot 49 48 2
    if q.perst0 then t else t.startBoot two)

/-! ### Well reset (R741) -/

/-- The counters and records of a well's block at their reset values (R799). -/
def State.resetBlock (s : State) (w : Nat) : State :=
  let gone (k : Nat) : Bool :=
    let o := k - rWl w 0
    decide (rWl w 0 ≤ k ∧ k < rWl w 0x100000) && decide (0xA8 ≤ o ∧ o ≠ 0x118 ∧ o ≠ 0x140 ∧ o ≠ 0x180)
  { s with regs := tabDrop gone s.regs }.recountPoison (.cistern w)

/-- A well reset: jobs that hold a slot on the well roll back (R471), and the self-test starts; the fourth within 1 s loses
the well (R774). -/
def State.resetWell (s : State) (w : Nat) : State :=
  let now := s.now
  let recent := now :: (tabGet [] s.pw.resets w).filter (fun t => now < t + 1000000000)
  let s := s.modPw (fun p => { p with resets := tabPut [] p.resets w (recent.take 4) })
  let hit (x : Job) : Bool := x.wells.contains w && !(x.phase == .committed || x.phase == .ended)
  let cist (l : Loc) : Bool := l.tier == .cistern w
  let s := (((s.dropMoves (fun m => cist m.src || cist m.dst)).loseWork w).zeroCounts w).resetBlock w
  let s := { s with jobs := s.jobs.map (fun (x : Job) =>
    if hit x then { x with rollback := x.rollback || x.status.isNone, cp := none } else x) }
  if 4 ≤ recent.length then s.loseWell w 5
  else (s.setWellPm w 7).modPw (fun p => { p with testing := p.testing ++ [(w, 1)] })

/-- Wells that a reset may restart: in service or fenced, powered, and not under test. -/
def State.resettable (s : State) (w : Nat) : Bool :=
  decide (s.fld rWhWellState (2 * w + 25) (2 * w + 24) ≤ 1 ∧ s.wellPm w ≤ 2) && !s.pw.testing.any (fun t => t.1 == w)

/-- WELL_RESET (R741): BUSY until the last self-test has ended. -/
def execWellReset (v : Word) (s : State) : Res :=
  s.whReset v 3 s.booted (fun s =>
    let t := ((wellsOf (bitsOf v 27 16)).filter s.resettable).foldl State.resetWell s
    t.setFld rWhReset 31 31 (t.pw.testing.any (fun e => e.2 == 1)).toNat)

/-- WELL_HANDSHAKE_WATCHDOG (R741): of the controller, the walker or the crossbar. -/
def execWellHandshakeWatchdog (w : WellId) (part : Fin 3) (s : State) : Res :=
  need (s.booted && s.resettable w) 741
    (.next ((s.resetWell w).reportSelf w 0x5 0 ([144, 145, 210].getD part 144) 0))

end Sys2Proof.Machine
end

