-- ==== Sys2Proof/Machine/Ras.lean ====
section
/-!
DEFINITION. Fault reporting, the sensor chain and the thermal loop, event counters and in-service commands (R24, R724, R725,
R756 to R781).
-/

namespace Sys2Proof.Machine

/-! ### The fault collector (R759 to R762) -/

/-- FAULT_REPORT (R756, R759): a part reports; class 0 is reserved. -/
def execFaultReport (r : ReportIn) (s : State) : Res :=
  need (r.cls.val != 0) 758 (.next (s.report r.src r.cls r.sev r.rsrc r.runit.toNat r.unit.toNat r.detail.toNat))

/-- SOURCES of FC_SUMMARY brought up to date for a source. -/
def State.syncSource (s : State) (src : Nat) : State :=
  s.setFld rFcSummary src src ((List.range 16).any (fun c => bitOf (s.reg (rFcRec (16 * src + c))) 63)).toNat

/-- A record freed (R760). -/
def State.clearRecord (s : State) (i : Nat) : State :=
  ((s.setFld (rFcRec i) 63 63 0).setFld (rFcRec i) 47 32 0).syncSource (i / 16)

/-- FC_RECORD_CLEAR (R760): 1 written to VALID of record i. -/
def execFcRecordClear (i : Fin 512) (s : State) : Res := .next (s.clearRecord i)

/-- FC_HOLDOFF_EXPIRY (R761). -/
def execFcHoldoffExpiry (s : State) : Res :=
  need (s.fld rFcSummary 63 63 == 1 && s.fcLast.all (fun t => decide (t + s.holdoff ≤ s.now))) 761 (
    let s := (s.setFld rFcSummary 63 63 0).signal 0 (s.fld rFcCtl 31 24)
    .next { s with fcLast := some s.now })

/-- FC_ALERT_CLEAR (R762): the value written. -/
def execFcAlertClear (v : Word) (s : State) : Res := .next (s.setReg rFcAlert (s.reg rFcAlert &&& ~~~v))

/-! ### Event counters (R770 to R772) -/

/-- A write of EV_GLOBAL. -/
def State.writeEvGlobal (s : State) (v : Word) : State :=
  let s := s.setFld rEvGlobal 1 1 (bitsOf v 1 1)
  if bitOf v 0 then (List.range 96).foldl (fun (t : State) n => t.setReg (rEvCnt n) 0#64) s else s

/-- EV_FREEZE (R772): the value written, with FREEZE. -/
def execEvFreeze (v : Word) (s : State) : Res := need (bitOf v 1) 772 (.next (s.writeEvGlobal v))
/-- EV_CLEAR (R772): the value written, with CLEAR. -/
def execEvClear (v : Word) (s : State) : Res := need (bitOf v 0) 772 (.next (s.writeEvGlobal v))

/-! ### The sensor chain (R765 to R769) -/

/-- The sensor chain runs. -/
def State.senses (s : State) : Bool := !s.pw.off && !s.pw.standby && (s.pw.pg || s.pw.w4)

/-- Only die 0 and the coolant sensors are read: W3 and W4 (R766). -/
def State.sweepsOne (s : State) : Bool := s.pw.w4 || s.devicePm == 3

/-- SENSOR_HOP_TIMEOUT (R767): hop h of the sweep under way, ascending or descending from die 24; the die beyond it is
named (R756). -/
def execSensorHopTimeout (h : Fin 25) (asc : Bool) (s : State) : Res :=
  let ok := if asc then s.pw.hopAsc.isNone && decide (h.val < 24)
    else s.pw.hopDesc.isNone && s.pw.hopAsc.any (fun a => decide (a < h.val))
  need (s.senses && !s.sweepsOne && ok) 767 (
    let s := s.modPw (fun p => if asc then { p with hopAsc := some h.val } else { p with hopDesc := some h.val })
    .next (s.report 20 0xC 0 20 0 (if asc then h.val + 1 else h.val) h))

/-- Is die d reached in the sweep under way (R767)? -/
def State.reached (s : State) (d : Nat) : Bool :=
  if s.sweepsOne then d == 0
  else match s.pw.hopAsc with
    | none => true
    | some a => decide (d ≤ a) || s.pw.hopDesc.all (fun e => decide (e < d))

/-- Dies that a sweep looks for. -/
def State.sought (s : State) : List Nat := if s.sweepsOne then [0] else List.range 25

/-- The next sweep may end: the timebase has passed the interval of R766. -/
def State.sweepDue (s : State) : Bool :=
  decide (s.fld rScSweep 63 32 = 0 ∨ s.pw.sweepAt + (if s.sweepsOne then 100000000 else 1000000) ≤ s.now)

/-- SC_SWEEP, SC_BREAK, SC_COOLANT and the dies reached (R769). -/
def State.collect (s : State) (x : Sweep) (n : Nat) : State :=
  let missed := s.sought.filter (fun d => !s.reached d)
  let brk := setBits (setBits 0#64 62 58 (s.pw.hopAsc.getD 0)) 57 53 (s.pw.hopDesc.getD 31)
  let brk := setBits (setBits brk 63 63 s.pw.hopAsc.isSome.toNat) 24 0 ((missed.map (fun d => 2 ^ d)).sum)
  let t := ((s.setReg rScSweep (setBits (setBits 0#64 63 32 n) 15 0 x.dur.toNat)).setReg rScBreak brk).setReg rScCoolant
    (setBits (setBits (setBits 0#64 63 32 n) 31 16 x.outlet.toNat) 15 0 x.inlet.toNat)
  (s.sought.filter s.reached).foldl (fun (t : State) d =>
    let v := x.dies.getD d (0#10, 0#12)
    t.setReg (rScDie d) (setBits (setBits (setBits 0#64 63 32 n) 31 22 v.1.toNat) 21 10 v.2.toNat)) t

/-- A die unreachable in a sweep: reported, and dead to the chain after 100 (R768). -/
def State.missDie (s : State) (d : Nat) : State :=
  let n := tabGet 0 s.pw.miss d + 1
  let s := (s.modPw (fun p => { p with miss := tabPut 0 p.miss d n })).report 20 0xC 0 20 0 d n
  if n ≠ 100 then s
  else
    let s := s.alert 8
    let w := (d - 1) / 2
    if d % 2 = 1 ∧ !s.wellLost w then s.loseWell w 4 else s

/-- Counts of missed sweeps brought up to date. -/
def State.countMisses (s : State) (reached missed : List Nat) : State :=
  let s := reached.foldl (fun (t : State) d => t.modPw (fun p => { p with miss := tabPut 0 p.miss d 0 })) s
  missed.foldl State.missDie s

/-! ### The thermal loop (R61, R724, R725, R768) -/

/-- Thermal target in quarters of a degree. -/
def State.targetC (s : State) : Int := 4 * min (s.fld rPmTherm 31 24) 95

/-- The array supply of well w after a sweep, in mV: `cur` says that its base die is current. -/
def State.nextSupply (s : State) (w : Nat) (cur : Bool) : Nat :=
  let v := tabGet 600 s.pw.vtherm w
  let tj := s.wellTj w
  if !cur ∨ s.targetC < tj then max 600 (min (v - 10) (ceilingMv tj))
  else if tj < s.targetC - 12 then min (v + 5) (ceilingMv tj)
  else min v (ceilingMv tj)

/-- One well's loop: TJ and the supply of R724, under the power limit while that holds it lower (R52). -/
def State.thermalWell (s : State) (w : Nat) (cur : Bool) : State :=
  let mv := s.nextSupply w cur
  let tj := ((s.wellTj w / 4) % 256).toNat
  let s := (s.modPw (fun p => { p with vtherm := tabPut 600 p.vtherm w mv })).setFld (rPmWellStat w) 23 16 tj
  if s.fld (rPmWellStat w) 27 26 = 2 then s.setVarray w (min mv (s.fld (rPmWellStat w) 15 0)) 2 else s.thermalSupply w

/-- Junctions above WARN_C (R725). -/
def State.warnDies (s : State) (reached : List Nat) : List Nat :=
  reached.filter (fun d => decide (4 * (s.fld rPmTherm 23 16 : Int) < signedOf 10 (s.fld (rScDie d) 31 22)))

/-- The warning of R725. -/
def State.warn (s : State) (l : List Nat) : State :=
  match l with
  | [] => s
  | d :: _ => ((s.modPw (fun p => { p with stTemp := p.stTemp ||| 0x40#8 })).alert 3).reportSelf 20 0xB 0 d
      (s.fld (rScDie d) 31 22)

/-- Hottest reading of the latest sweep, in quarters of a degree. -/
def State.hottest (s : State) : Int := s.current.foldl max 0

/-- Did a reading rise past WAKE_C (R712)? -/
def State.rosePast (s old : State) : Bool :=
  let c := s.fld rPmTherm 15 8
  (decide (old.hottest ≤ 4 * c) && decide (4 * (c : Int) < s.hottest))
  || (decide (old.fld rScCoolant 15 0 ≤ 16 * c) && decide (16 * c < s.fld rScCoolant 15 0))

/-- SENSOR_SWEEP (R766): the sweep ends with what it collected. -/
def execSensorSweep (x : Sweep) (s : State) : Res :=
  need (s.senses && s.sweepDue && decide (x.dies.length = 25)) 766 (
    let n := (s.fld rScSweep 63 32 + 1) % 2 ^ 32
    let reached := s.sought.filter s.reached
    let missed := s.sought.filter (fun d => !s.reached d)
    let t := (s.collect x n).countMisses reached missed
    let t := if s.sweepsOne then t
      else t.supplied.foldl (fun (t : State) w => t.thermalWell w (reached.contains (1 + 2 * w))) t
    let t := t.warn (t.warnDies reached)
    let edge := t.rosePast s
    let t := if edge then t.setFld rPmWake 5 5 1 else t
    let now := t.now
    .next (t.modPw (fun p => { p with sweepAt := now, hopAsc := none, hopDesc := none, thermal := edge })))

/-! ### Well commands (R779, R780) -/

/-- State of well w in WH_WELL_STATE: 0 IN_SERVICE, 1 FENCED, 2 TESTING, 3 LOST. -/
def State.wellState (s : State) (w : Nat) : Nat := s.fld rWhWellState (2 * w + 25) (2 * w + 24)

/-- A write of WH_WELL_CMD with an OP: ignored with BUSY set; wells 12 to 15 have no effect; RESULT 1 in a state that does
not allow it. -/
def State.wellCmd (s : State) (v : Word) (op : Nat) (allowed : Nat → Bool) (f : State → Nat → State) : Res :=
  need (bitsOf v 1 0 == op) 780 (
    if s.fld rWhWellCmd 31 31 = 1 then .next s
    else
      let w := bitsOf v 7 4
      let t := (s.setFld rWhWellCmd 8 8 (bitsOf v 8 8)).setFld rWhWellCmd 7 4 w
      .next (if 12 ≤ w then t else if allowed w then f (t.setFld rWhWellCmd 30 28 0) w else t.setFld rWhWellCmd 30 28 1))

/-- A job holds a slot on well w. -/
def State.slotHeld (s : State) (w : Nat) : Bool := s.jobs.any (fun (j : Job) =>
  j.wells.contains w && !(j.phase == JobPhase.committed))

/-- WELL_CMD_FENCE (R779): jobs that hold a slot are rebuilt when FORCE is 1. -/
def execWellCmdFence (v : Word) (s : State) : Res :=
  s.wellCmd v 1 (fun w => s.wellState w == 0 && (!s.slotHeld w || bitOf v 8)) (fun s w =>
    let s := { s with jobs := s.jobs.map (fun (j : Job) =>
      if j.wells.contains w && !(j.phase == JobPhase.committed) then { j with rebuild := true } else j) }
    (s.setWellState w 1).reportSelf w 0x6 2 145 0)

/-- WELL_CMD_TEST (R779): a well that is not powered wakes first. -/
def execWellCmdTest (v : Word) (s : State) : Res :=
  s.wellCmd v 2 (fun w => (s.wellState w == 1 || s.wellState w == 3) && !s.pw.testing.any (fun t => t.1 == w)) (fun s w =>
    let wake := s.wellState w == 3 || decide (2 ≤ s.wellPm w)
    let s := (s.setWellState w 2).setFld rWhWellCmd 31 31 1
    s.modPw (fun p => if wake then { p with staging := p.staging ++ [w] } else { p with testing := p.testing ++ [(w, 2)] }))

/-- Device scratch of well w as new (R249, R279, R309, R400). -/
def State.clearScratch (s : State) (w : Nat) : State :=
  let mine (k : Nat) : Bool := k / 64 == w
  { s with events := tabDrop (fun k => k / 65536 / 64 == w) s.events, walkRecs := tabDrop (fun k => k / 4096 == w) s.walkRecs,
           susp := tabDrop mine s.susp, savedWells := tabDrop mine s.savedWells,
           savedDeques := tabDrop (fun k => k / 128 / 64 == w) s.savedDeques }

/-- WELL_CMD_RELEASE (R779): into service in W1 with the map of R752. -/
def execWellCmdRelease (v : Word) (s : State) : Res :=
  s.wellCmd v 3 (fun w => s.wellState w == 1 && s.fld rWhWellState (48 + w) (48 + w) == 1) (fun s w =>
    let s := ((s.clearScratch w).mapBobbins w).setWellState w 0
    (s.setWellPm w 1).judgeWell w)

/-- FABRIC_LINK_FAILURE (R24): a link of the torus that is not fenced yet; the crossbar of the first well reports it. -/
def execFabricLinkFailure (a b : WellId) (s : State) : Res :=
  let l := (min a.val b.val, max a.val b.val)
  need ((wellLinks a).contains l && !s.fabric.contains l) 24 (.next ((s.fenceLink l).reportSelf a 0x6 2 210 b))

end Sys2Proof.Machine
end

