-- ==== Sys2Proof/Machine/RegWrite.lean ====
section
/-!
DEFINITION. Writes of BAR0 (R14, R15, R41, R605, R705, R782 to R789): the registers that only store fields, and those whose
writes act.
-/

namespace Sys2Proof.Machine

/-- Registers at a base, `count` of them `stride` bytes apart, with the bits that are RW and those that are W1C; every other
bit ignores writes (R14, R15). -/
structure RegRow where
  base : Nat
  count : Nat
  stride : Nat
  rw_ : Nat
  w1c : Nat
deriving DecidableEq, Repr

/-- Registers of the identity, journal, power, collector, counter and translation blocks whose writes only store fields. -/
def plainRowsA : List RegRow :=
  [⟨rWhLdrRej, 1, 8, 0x0, 0xC000000000000000⟩,
   ⟨rWhBar2Base 0, 2, 8, 0xFFFFFFFFE00000, 0x0⟩,
   ⟨rWhBar2Err, 1, 8, 0x0, 0xC000000000000000⟩,
   ⟨rWhRasCtl, 1, 8, 0x1, 0x0⟩,
   ⟨rJnStat, 1, 8, 0xFFFFFFFF00000000, 0x0⟩,
   ⟨rPmInputLimit, 1, 8, 0x1FFF, 0x0⟩,
   ⟨rPmInputStatus, 1, 8, 0x0, 0x180000⟩,
   ⟨rPmPolicy, 1, 8, 0xFFFFFFFFFFFFFF03, 0x0⟩,
   ⟨rPmWakeLast, 1, 8, 0x0, 0x8000000000000000⟩,
   ⟨rPmWakeFail, 1, 8, 0x0, 0xC000000000000000⟩,
   ⟨rPmTherm, 1, 8, 0xFFFFFF00, 0x0⟩,
   ⟨rPmRefStat 0, 4, 8, 0xFFFFFFFF, 0x0⟩,
   ⟨rFcCtl, 1, 8, 0xFFFFFF0F, 0x0⟩,
   ⟨rEvCtl 0, 96, 8, 0xCF0000FF, 0x0⟩,
   ⟨rEvCnt 0, 96, 8, 0xFFFFFFFFFFFFFFFF, 0x0⟩,
   ⟨rTrHroot, 1, 8, 0x80007FFFFFFFFFFF, 0x0⟩,
   ⟨rTrInvVa, 1, 8, 0xFFFFFFFFFF0000, 0x0⟩,
   ⟨rTrFault, 1, 8, 0x0, 0xC000000000000000⟩,
   ⟨rTrWalkStat, 1, 8, 0xFFFFFFFFFFFFFFFF, 0x0⟩]

/-- Those of the migration, directory, memory and link blocks. -/
def plainRowsB : List RegRow :=
  [⟨rMgCtl, 1, 8, 0xFFFFFFFFFF000001, 0x0⟩,
   ⟨rMgStat, 1, 8, 0xFFFFFFFFFFFFFFFF, 0x0⟩,
   ⟨rMgKvcCnt 0, 12, 8, 0xFFFFFFFFFFFFFFFF, 0x0⟩,
   ⟨rCdStat, 1, 8, 0xFFFFFFFFFFFFFFFF, 0x0⟩,
   ⟨rCdErr, 1, 8, 0x0, 0xC000000000000000⟩,
   ⟨rRvSluiceCtl, 1, 8, 0xFFFF01FF, 0x0⟩,
   ⟨rRvSluice 0, 13, 8, 0x1FF00FF, 0x0⟩,
   ⟨rRvPkgStat 0, 36, 8, 0xFFFF, 0x0⟩,
   ⟨rRvEcc, 1, 8, 0xFFFFFFFFFFFF0000, 0x0⟩,
   ⟨rRvErr, 1, 8, 0x0, 0xC000000000000000⟩,
   ⟨rAqPkgStat 0, 12, 8, 0xFFFF, 0x0⟩,
   ⟨rAqEcc, 1, 8, 0xFFFFFFFFFFFFFFFF, 0x0⟩,
   ⟨rAqErr, 1, 8, 0x0, 0xC000000000000000⟩,
   ⟨rTlVcw, 1, 8, 0xFFFFFFFFFFFFFFFF, 0x0⟩,
   ⟨rTlStat, 1, 8, 0xFFFFFFFFFFFFFFFF, 0x0⟩,
   ⟨rTlPairStat, 1, 8, 0xFFFFFFFFFFFFFFFF, 0x0⟩,
   ⟨rSpVlan 0, 8, 0x40, 0xFFF0FFF, 0x0⟩,
   ⟨rSpVcw 0, 8, 0x40, 0xFFFFFFFFFFFFFFFF, 0x0⟩,
   ⟨rSpStat 0, 8, 0x40, 0xFFFFFFFFFFFFFFFF, 0x0⟩,
   ⟨rSpTimers, 1, 8, 0xFFFFFFFFFFFF0000, 0x0⟩,
   ⟨rSpRtMac, 1, 8, 0xFFFFFFFFFFFF, 0x0⟩]

/-- Those of the collective, codec and input blocks. -/
def plainRowsC : List RegRow :=
  [⟨rCoCtl, 1, 8, 0xFFFFFF00, 0x0⟩,
   ⟨rCoStat, 1, 8, 0xFFFFFFFFFFFFFFFF, 0x0⟩,
   ⟨rCoGrpKey 0, 64, 8, 0x80000000FFFFFFFF, 0x0⟩,
   ⟨rCoGrpLa 0, 64, 8, 0xFFFC0FFFFFFC0FFF, 0x0⟩,
   ⟨rCoGrpLb 0, 64, 8, 0xFFFC0FFFFFFC0FFF, 0x0⟩,
   ⟨rCoStrmLoc 0, 16, 8, 0x8FFFFFFFFFE00000, 0x0⟩,
   ⟨rCoStrmRem 0, 16, 8, 0xF0FFFFFFFFE00000, 0x0⟩,
   ⟨rCoStrmCfg 0, 16, 8, 0xFFFFFF000000FFFF, 0x0⟩,
   ⟨rVcErr, 1, 8, 0x0, 0xC000000000000000⟩,
   ⟨rVcCore 0, 4, 8, 0xFFFFFFFFFFFF0000, 0x0⟩,
   ⟨rInStat, 1, 8, 0xFFFFFFFFFFFF0000, 0x0⟩,
   ⟨rInErr, 1, 8, 0x0, 0xC000000000000000⟩]

/-- Those of a well block. -/
def plainRowsW : List RegRow :=
  [⟨rWlBobExc 0, 12, 0x100000, 0x0, 0xC000000000000000⟩,
   ⟨rWlBobEcc 0, 12, 0x100000, 0xFFFFFFFFFFFFFFFF, 0x0⟩,
   ⟨rWlGuardStat 0, 12, 0x100000, 0xFFFFFFFFFFFFFFFF, 0x0⟩,
   ⟨rWlCtlExc 0, 12, 0x100000, 0x0, 0xC000000000000000⟩,
   ⟨rWlCtlEcc 0, 12, 0x100000, 0xFFFFFFFFFFFF0000, 0x0⟩,
   ⟨rWlEvtLimit 0, 12, 0x100000, 0xFFFF, 0x0⟩,
   ⟨rWlEvtStat 0, 12, 0x100000, 0x0, 0xC000000000000000⟩,
   ⟨rWlStealCtl 0, 12, 0x100000, 0x3, 0x0⟩,
   ⟨rWlStealStat 0, 12, 0x100000, 0xFFFFFFFFFFFFFFFF, 0x0⟩,
   ⟨rWlCisEcc 0, 12, 0x100000, 0xFFFFFFFFFFFF0000, 0x0⟩,
   ⟨rWlCisErr 0, 12, 0x100000, 0x0, 0xC000000000000000⟩,
   ⟨rWlCuStat 0, 12, 0x100000, 0xFFFFFFFFFFFFFFFF, 0x0⟩,
   ⟨rWlTlbStat 0, 12, 0x100000, 0xFFFFFFFFFFFF003F, 0x0⟩,
   ⟨rWlPumpStat 0, 12, 0x100000, 0xFFFFFFFFFFFF0000, 0x0⟩,
   ⟨rWlPumpErr 0, 12, 0x100000, 0x0, 0xC000000000000000⟩,
   ⟨rWlDrainStat 0, 12, 0x100000, 0x0, 0x80000000⟩,
   ⟨rWlWcStat 0, 12, 0x100000, 0xFFFFFFFFFFFFFFFF, 0x0⟩,
   ⟨rWlWcEvt 0, 12, 0x100000, 0xFFFFFFFFFFFFFFFF, 0x0⟩]

/-- Every register whose write only stores fields. -/
def plainRows : List RegRow := plainRowsA ++ plainRowsB ++ plainRowsC ++ plainRowsW

/-- Does a row hold the register at o? -/
def RegRow.holds (r : RegRow) (o : Nat) : Bool :=
  decide (r.base ≤ o ∧ (o - r.base) / r.stride < r.count ∧ (o - r.base) % r.stride = 0)

/-! ### A write as it reaches a register (R785) -/

/-- A BAR0 write of 4 or 8 bytes: the writing function, its value in place, and the bits that it covers. -/
structure BarWrite where
  f : Fin 2
  val : Word
  mask : Word
deriving DecidableEq, Repr

/-- The bits written; bits outside the write are 0, so no command field there acts. -/
def BarWrite.eff (x : BarWrite) : Word := x.val &&& x.mask
/-- A register's value with the covered bits replaced. -/
def BarWrite.into (x : BarWrite) (old : Word) : Word := (old &&& ~~~x.mask) ||| x.eff
/-- The value that reaches a register: its RW bits as they stand after the write, every other bit as written (R786). -/
def BarWrite.full (x : BarWrite) (old : Word) (rw_ : Nat) : Word :=
  (x.into old &&& BitVec.ofNat 64 rw_) ||| (x.eff &&& ~~~(BitVec.ofNat 64 rw_))

/-- RW and W1C fields stored (R14). -/
def State.store (s : State) (o rw_ w1c : Nat) (x : BarWrite) : State :=
  let old := s.reg o
  let m := BitVec.ofNat 64 rw_
  let v := (old &&& ~~~m) ||| (x.into old &&& m)
  s.setReg o (v &&& ~~~(x.eff &&& BitVec.ofNat 64 w1c))

/-- RW fields stored under RWL (R14, R788): once committed, ignored and reported. -/
def State.storeLocked (s : State) (o rw_ : Nat) (committed : Bool) (x : BarWrite) : State :=
  if x.mask &&& BitVec.ofNat 64 rw_ = 0#64 then s
  else if committed then s.lockedWrite x.f o
  else s.store o rw_ 0 x

/-! ### Registers whose writes act (R786) -/

/-- The queue registers (R605, R606, R630): through the function that reaches the queue. -/
def State.writeQueue (s : State) (q slot : Nat) (x : BarWrite) : State :=
  if !s.qReach q x.f then s
  else
    match slot with
    | 0x00 => if s.fld (rQCtl q) 63 63 = 1 then s else s.store (rQSqbase q) 0xFFFFFFFFFFFFF000 0 x
    | 0x08 => if s.fld (rQCtl q) 63 63 = 1 then s else s.store (rQCqbase q) 0xFFFFFFFFFFFFF000 0 x
    | 0x10 => s.writeQctl q (x.full (s.reg (rQCtl q)) 0xA1FF80FF00000000)
    | 0x18 => s.store (rQSqTail q) 0xFFFF 0 x
    | 0x20 => s.store (rQCqHead q) 0xFFFF 0 x
    | 0x28 => (s.store (rQStatus q) 0xFFFF0000 0 x).clearQError q (bitsOf x.eff 36 34)
    | 0x38 => s.store (rQIrq q) 0xFFFFFFFF 0 x
    | _ => s

/-- A write of TL_PAIR_CMD (R690, R701). -/
def State.writePairCmd (s : State) (v : Word) : Res :=
  match bitsOf v 2 0 with
  | 1 => execPairTakeoverCmd v s
  | 2 => execPairSoloCmd v s
  | 3 => execPairStanddownCmd v s
  | 4 => execPairRejoinCmd v s
  | 5 => execPairHandbackCmd v s
  | _ => .next s

/-- A write of PM_CMD (R736). -/
def State.writePmCmd (s : State) (x : BarWrite) : Res :=
  let v := x.full (s.reg rPmCmd) 0x7000FFF
  if s.fld rPmCmd 31 31 = 1 then .next s
  else
    match bitOf v 27, bitsOf v 26 24 with
    | true, 0 => execPmCmdWake v s
    | true, 2 => execPmCmdW2 v s
    | true, 3 => execPmCmdW3 v s
    | true, 4 => execPmCmdW4 v s
    | _, _ => .next (s.store rPmCmd 0x7000FFF 0 x)

/-- A write of WH_RESET (R754). Whether the firmware's region keeps its digest (R750), and the level of BIFURC, are open
here: the rows WARM_RESET and TAKEOVER_RESET carry them. -/
def State.writeReset (s : State) (x : BarWrite) : Res :=
  let v := x.full (s.reg rWhReset) 0xFFF0000
  if s.fld rWhReset 31 31 = 1 then .next s
  else
    let d := s.freeBit
    match bitsOf v 2 0 with
    | 1 => execWarmReset v d.1 d.2
    | 2 => execTakeoverReset v d.1 d.2
    | 3 => execWellReset v s
    | 4 => execRunRecoveryImage v s
    | _ => .next (s.store rWhReset 0xFFF0000 0 x)

/-- A write of WH_WELL_CMD (R780). -/
def State.writeWellCmd (s : State) (x : BarWrite) : Res :=
  let v := x.full (s.reg rWhWellCmd) 0x1F0
  if s.fld rWhWellCmd 31 31 = 1 then .next s
  else
    match bitsOf v 1 0 with
    | 1 => execWellCmdFence v s
    | 2 => execWellCmdTest v s
    | 3 => execWellCmdRelease v s
    | _ => .next (s.store rWhWellCmd 0x1F0 0 x)

/-- A write of TR_INV (R445). -/
def State.writeInv (s : State) (x : BarWrite) : Res :=
  let v := x.full (s.reg rTrInv) 0xF
  let c := Fin.ofNat 16 (bitsOf v 3 0)
  match bitsOf v 5 4 with
  | 1 => execTrInvContext c s
  | 2 => execTrInvPage c s
  | _ => .next (s.store rTrInv 0xF 0 x)

/-- A write of TR_HROOT_C (R41): judged when it covers bytes 4 to 7. -/
def State.writeHrootC (s : State) (x : BarWrite) : Res :=
  if x.mask.toNat / 2 ^ 32 = 0 then .next (s.store rTrHrootC 0xFFFFFFFFFFFFFFFF 0 x)
  else execTrHrootJudgingWrite (x.into (s.reg rTrHrootC)) x.f s

/-- A write of a port's control register: MODE is RWL and fixed for port 8 (R653, R788); a port that is enabled trains, one
that is not goes down. -/
def State.writePort (s : State) (p : Nat) (x : BarWrite) : State :=
  let s := if p = 8 then s else s.storeLocked (rPortCtl p) 0x40000000 (s.fld rSpCommit 0 0 == 1) x
  let s := s.store (rPortCtl p) 0xB800FFFF 0 x
  if s.fld (rPortCtl p) 31 31 = 1 then s.trainPort p else if s.portState p = 0 then s else s.dropPort p 0

/-- A write of RV_PLACE (R483, R788). -/
def State.writePlace (s : State) (x : BarWrite) : Res :=
  if bitOf x.eff 31 then execRvPlaceCommit (x.full (s.reg rRvPlace) 0x3F) x.f s
  else .next (s.storeLocked rRvPlace 0x3F (s.fld rRvPlace 31 31 == 1) x)

/-- A write of PM_WAKE (R736). -/
def State.writeWake (s : State) (x : BarWrite) : State :=
  let t := s.store rPmWake 0xFF0000 0xFF x
  if bitOf x.eff 5 then t.modPw (fun p => { p with thermal := false }) else t

/-- A write of WL_CIS_SPLIT (R402). -/
def State.writeSplit (s : State) (w : Nat) (x : BarWrite) : State :=
  if x.mask &&& 0xF#64 = 0#64 then s else (s.store (rWlCisSplit w) 0xF 0 x).setFld (rWlCisSplit w) 4 4 1

/-- A write of WL_BOB_CMD (R164). -/
def State.writeBobCmd (s : State) (w : Nat) (x : BarWrite) : State :=
  let v := x.full (s.reg (rWlBobCmd w)) 0xFF00
  let p := bitsOf v 15 8
  match bitsOf v 1 0 with
  | 1 => s.bobFence w p
  | 2 => s.bobTest w p
  | 3 => s.bobRelease w p
  | _ => if s.bobBusy w then s else s.store (rWlBobCmd w) 0xFF00 0 x

/-- A write of a register of well w at offset o of its block. -/
def State.writeWell (s : State) (w o : Nat) (x : BarWrite) : Option State :=
  if o = 0xC0 then some (s.writeBobCmd w x) else if o = 0x180 then some (s.writeSplit w x) else none

/-- What a slot of an MSI-X table holds at reset: Vector Control with its mask bit set, as PCI Express has it. -/
def msixReset (k : Nat) : Word := if k % 2 = 1 then 1#64 <<< 32 else 0#64

/-- A write of a function's MSI-X table (R795). -/
def State.writeMsix (s : State) (slot : Nat) (x : BarWrite) : State :=
  let k := x.f.val * 512 + slot
  { s with msixTab := tabPut (msixReset k) s.msixTab k (x.into (tabGet (msixReset k) s.msixTab k)) }

/-- The span registers that lock at SP_COMMIT, or act (R653, R788). -/
def State.writeSpan (s : State) (o : Nat) (x : BarWrite) : Option Res :=
  let done := s.fld rSpCommit 0 0 == 1
  if rSpCtl 0 ≤ o ∧ o < rSpCtl 8 ∧ o % 0x40 = 0 then some (.next (s.writePort ((o - rSpCtl 0) / 0x40) x))
  else if rSpCtl 0 ≤ o ∧ o < rSpCtl 8 ∧ o % 0x40 = 0x28 then some (.next (s.storeLocked o 0xFFFFFFFFFFFF done x))
  else if o = rSpDevid then some (.next (s.storeLocked o 0xFFF done x))
  else if o = rSpCommit then some (.next (if bitOf x.eff 0 then s.spCommit else s))
  else if o = rSpRtCmd then
    let v := x.full (s.reg o) 0xF0FFF
    some (if bitOf v 31 then execSpRtCmdGo v s else .next (s.store o 0xF0FFF 0 x))
  else none

/-- The other registers whose writes act. -/
def State.writeActing (s : State) (o : Nat) (x : BarWrite) : Option Res :=
  if o = rWhReset then some (s.writeReset x)
  else if o = rWhFw then some (if bitOf x.eff 0 then execFirmwareFloorRaise x.eff s else .next s)
  else if o = rWhWellCmd then some (s.writeWellCmd x)
  else if o = rQAbort then
    let v := x.full (s.reg o) 0x0FFFC000FFFFFFFF
    some (if bitOf v 60 then execQueueAbort v s else .next (s.store o 0x0FFFC000FFFFFFFF 0 x))
  else if o = rJnQuery then
    let v := x.full (s.reg o) 0xFFFC0000FFFFFFFF
    some (if bitOf v 32 then execJnQueryLookup v s else .next (s.store o 0xFFFC0000FFFFFFFF 0 x))
  else if o = rPmCmd then some (s.writePmCmd x)
  else if o = rPmWake then some (.next (s.writeWake x))
  else if o = rPmTbStatus then some (.next (if bitOf x.eff 63 then s.clearCoarse else s))
  else if o = rPmAlarm then some (.next (s.writeAlarm (x.into (s.reg o))))
  else if o = rFcAlert then some (execFcAlertClear x.eff s)
  else if o = rEvGlobal then some (.next (s.writeEvGlobal (x.full (s.reg o) 2)))
  else if o = rTrInv then some (s.writeInv x)
  else if o = rTrHrootC then some (s.writeHrootC x)
  else if o = rRvPlace then some (s.writePlace x)
  else if o = rRvFence then
    let v := x.full (s.reg o) 0x3F003FFFFE00000
    some (if bitsOf v 59 58 = 1 then execRvFenceCmd v s else .next (s.store o 0x3F003FFFFE00000 0 x))
  else if o = rAqFence then
    let v := x.full (s.reg o) 0xF
    some (if bitsOf v 5 4 = 1 then execAqFenceCmd v s else .next (s.store o 0xF 0 x))
  else if o = rTlCtl then some (.next (s.writePort 8 x))
  else if o = rTlPairCtl then some (.next (s.writePairCtl (x.into (s.reg o))))
  else if o = rTlPairQown then some (.next (if s.pairState = 0 then s.store o 0xFFFFFFFFFFFFFFFF 0 x else s))
  else if o = rTlPairCmd then some (s.writePairCmd x.eff)
  else if 0x31000 ≤ o ∧ o < 0x32000 then
    some (.next (if bitOf x.eff 63 then s.clearRecord ((o - 0x31000) / 8) else s))
  else if 0x1000 ≤ o ∧ o < 0x2000 then some (.next (s.writeQueue ((o - 0x1000) / 64) (o % 64) x))
  else if 0x8000 ≤ o ∧ o < 0x9000 then some (.next (s.writeMsix ((o - 0x8000) / 8) x))
  else s.writeSpan o x

/-! ### The access (R705, R785) -/

/-- Is the block that holds offset o powered (R705)? -/
def State.answersAt (s : State) (o : Nat) : Bool :=
  let up (w : Nat) : Bool := decide (s.wellPm w ≤ 1)
  if 0x1000000 ≤ o ∧ o < 0x1C00000 then up ((o - 0x1000000) / 0x100000)
  else if s.devicePm = 3 then
    decide (o < 0x10000) || (decide (0x20000 ≤ o) && decide (o < 0x40000)) || (decide (0xA0000 ≤ o) && decide (o < 0xB0000))
  else if 0x40100 ≤ o ∧ o < 0x40400 then up ((o - 0x40100) / 64)
  else if 0x40800 ≤ o ∧ o < 0x40B00 then up ((o - 0x40800) / 64)
  else true

/-- A write at the offset of a register. -/
def State.writeReg (s : State) (o : Nat) (x : BarWrite) : Res :=
  match s.writeActing o x with
  | some r => r
  | none =>
    let own := if 0x1000000 ≤ o ∧ o < 0x1C00000 then
        s.writeWell ((o - 0x1000000) / 0x100000) ((o - 0x1000000) % 0x100000) x
      else none
    match own with
    | some t => .next t
    | none => match plainRows.find? (fun r => r.holds o) with
      | some r => .next (s.store o r.rw_ r.w1c x)
      | none => .next s

/-- REGISTER_WRITE (R14, R785): n bytes at BAR0 offset o through function f; v holds them from bit 0. -/
def execRegisterWrite (f : Fin 2) (o : BitVec 26) (n : Fin 9) (v : Word) (s : State) : Res :=
  need (s.functionUp f) 705 (
    let a := o.toNat
    if !((n.val == 4 || n.val == 8) && a % n.val == 0) then .next (s.reportSelf 21 0xD 0 (64 + f) a)
    else if !s.answersAt a then .next s
    else
      let low : Word := 0xFFFFFFFF#64
      let x : BarWrite :=
        if n.val = 8 then { f := f, val := v, mask := ~~~(0#64) }
        else if a % 8 = 0 then { f := f, val := v, mask := low }
        else { f := f, val := v <<< 32, mask := low <<< 32 }
      s.writeReg (a / 8 * 8) x)

end Sys2Proof.Machine
end

