-- ==== Sys2Proof/Machine/Walkers.lean ====
section
/-!
DEFINITION. The end of a page walk (R429, R438, R440, R443, R447): the translation goes to the buffers of its requesters'
queues, and a fault to every requester that joined it.
-/

namespace Sys2Proof.Machine

/-- The state that a step answers; one that answers none leaves the state. -/
def nextOr (s : State) : Res → State
  | .next t => t
  | _ => s

/-- The item that a cistern unit waits with meets a fault (R419, R420). -/
def State.unitMeets (s : State) (w u : Nat) (e : AccErr) : State :=
  match (s.unit w u).cur, (s.unit w u).next with
  | none, some (.op id i, x) =>
    (s.op id).elim s (fun op => nextOr s (s.opFault w u x op ((s.cuArg id i op).toOption) e))
  | none, some (.comb id i, x) =>
    (s.op id).elim s (fun op => op.comb.elim s (fun c =>
      nextOr s ((s.undefComb (s.cuCtx w op.job) op.rung c i).opFault w u x op none e)))
  | none, some (.bob id i, x) =>
    match s.reqs.find? (fun y => y.1 == id) with
    | some q => nextOr s (s.bobFault w u x id q.2 i e)
    | none => s
  | _, _ => s

/-- A requester of well w takes the fault of the walk it waits for, as its own access would (R435, R440): a bobbin, a pump, the
controller, the walker or a cistern unit, by unit number (R757). -/
def State.wellMeets (s : State) (w req : Nat) (e : AccErr) : State :=
  if req < 136 then (if (s.bob w req).run.isSome then nextOr s (s.bobError w req e) else s)
  else if req < 144 then
    let p := s.pump w (req - 136)
    if p.state = 1 ∧ p.op = none then nextOr s (s.unitFault w (req - 136) p e) else s
  else if req = 144 then (if (s.well w).ctl = .running then nextOr s (s.ctlErr w e) else s)
  else if req = 145 then ((s.well w).job).elim s (fun j => nextOr s (s.walkerErr w j e))
  else s.unitMeets w (req - 146) e

/-- Every requester of a walk takes its fault at its own address; one of the wellhead meets it again at its access, which
records it there. A miss does not say what its access does: the fault is recorded as a read's (log entry 109). -/
def State.meetFault (s : State) (m : Miss) (e : AccErr) : State :=
  (m.reqs.zip m.vas).foldl (fun t x =>
    let e := match e with
      | .trans k lv _ wr => .trans k lv x.2 wr
      | e => e
    if x.1 / 256 < 12 then t.wellMeets (x.1 / 256) (x.1 % 256) e else t) s

/-- PAGE_WALK_COMPLETE (R429, R438, R440, R443): a walk of a job that has ended is discarded (R447); a fault goes to the
requesters; a page in transit keeps them waiting without a walker, and a table that cannot answer keeps the walk. -/
def execPageWalkComplete (k : Fin 16) (s : State) : Res :=
  needSome (s.feed.walker k) 443 (fun x =>
    let m := x.2
    let va := m.page * 65536
    let t := s.feed
    if m.dead then .next (t.endWalk k).feed
    else
      match t.leafWalk m.ctx va false with
      | .error (.stall r) => s.stalls r
      | .error e => .next (((t.endWalk k).meetFault m e).feed)
      | .ok l =>
        let u := (t.endWalk k).keepPath m.ctx va
        if bitOf l.val 56 then
          let y := u.missQ x.1
          .next ((u.setMissQ x.1 { y with parked := y.parked ++ [m] }).feed)
        else .next (m.queues.foldl (fun u q => u.tlbPut q ⟨m.ctx, va / l.page * l.page, l.page, l.val⟩) u).feed)

end Sys2Proof.Machine
end

