-- ==== Sys2Proof/Machine/Dispatch.lean ====
section
/-!
DEFINITION. The dispatch: one arm per command, each a direct call of its meaning.
-/

namespace Sys2Proof.Machine

def exec (i : Instr) (s : State) : Host.Outcome State Fault Refusal :=
  match i with
  | .coldReset => Sys2Proof.Machine.execColdReset s
  | .wellheadDomainGood => Sys2Proof.Machine.execWellheadDomainGood s
  | .inputLossShutdown modEn => Sys2Proof.Machine.execInputLossShutdown modEn s
  | .overVoltageLockout => Sys2Proof.Machine.execOverVoltageLockout s
  | .inputVoltageWarning high => Sys2Proof.Machine.execInputVoltageWarning high s
  | .inputPowerSample inst avg1ms avg1s mv ma limited => Sys2Proof.Machine.execInputPowerSample inst avg1ms avg1s mv ma limited s
  | .inputLimitApply => Sys2Proof.Machine.execInputLimitApply s
  | .thermalTrip d => Sys2Proof.Machine.execThermalTrip d s
  | .perstDeassert half two => Sys2Proof.Machine.execPerstDeassert half two s
  | .perstAssertHalf half => Sys2Proof.Machine.execPerstAssertHalf half s
  | .functionLevelReset half => Sys2Proof.Machine.execFunctionLevelReset half s
  | .readVin => Sys2Proof.Machine.execReadVin s
  | .readIin => Sys2Proof.Machine.execReadIin s
  | .readPin => Sys2Proof.Machine.execReadPin s
  | .readTemperature1 => Sys2Proof.Machine.execReadTemperature1 s
  | .readTemperature2 => Sys2Proof.Machine.execReadTemperature2 s
  | .readTemperature3 => Sys2Proof.Machine.execReadTemperature3 s
  | .statusWord => Sys2Proof.Machine.execStatusWord s
  | .statusInput => Sys2Proof.Machine.execStatusInput s
  | .statusTemperature => Sys2Proof.Machine.execStatusTemperature s
  | .clearFaults => Sys2Proof.Machine.execClearFaults s
  | .pmbusRevision => Sys2Proof.Machine.execPmbusRevision s
  | .mfrId => Sys2Proof.Machine.execMfrId s
  | .smbusAlertResponse => Sys2Proof.Machine.execSmbusAlertResponse s
  | .bootCopyChecked readOk => Sys2Proof.Machine.execBootCopyChecked readOk s
  | .reservoirTrainingDone rates => Sys2Proof.Machine.execReservoirTrainingDone rates s
  | .wellSelfTestDone w fail ctl cis us => Sys2Proof.Machine.execWellSelfTestDone w fail ctl cis us s
  | .bootComplete cfg => Sys2Proof.Machine.execBootComplete cfg s
  | .warmReset v intact => Sys2Proof.Machine.execWarmReset v intact s
  | .firmwareWatchdogExpiry intact => Sys2Proof.Machine.execFirmwareWatchdogExpiry intact s
  | .takeoverReset v two => Sys2Proof.Machine.execTakeoverReset v two s
  | .wellReset v => Sys2Proof.Machine.execWellReset v s
  | .wellHandshakeWatchdog w part => Sys2Proof.Machine.execWellHandshakeWatchdog w part s
  | .runRecoveryImage v => Sys2Proof.Machine.execRunRecoveryImage v s
  | .firmwareFloorRaise v => Sys2Proof.Machine.execFirmwareFloorRaise v s
  | .stitchTake w p => Sys2Proof.Machine.execStitchTake w p s
  | .stealProbe w p => Sys2Proof.Machine.execStealProbe w p s
  | .crossWellStealRequest w => Sys2Proof.Machine.execCrossWellStealRequest w s
  | .bobbinGroupPowerUp w g => Sys2Proof.Machine.execBobbinGroupPowerUp w g s
  | .bobbinGroupAdmission w g => Sys2Proof.Machine.execBobbinGroupAdmission w g s
  | .ldt w p ev => Sys2Proof.Machine.execLdt w p ev s
  | .stt w p ev => Sys2Proof.Machine.execStt w p ev s
  | .storeEntryVisible w p => Sys2Proof.Machine.execStoreEntryVisible w p s
  | .mma w p ev => Sys2Proof.Machine.execMma w p ev s
  | .zclr w p => Sys2Proof.Machine.execZclr w p s
  | .cvt w p ev => Sys2Proof.Machine.execCvt w p ev s
  | .qnt w p ev => Sys2Proof.Machine.execQnt w p ev s
  | .epiGate w p ev => Sys2Proof.Machine.execEpiGate w p ev s
  | .epiAddv w p ev => Sys2Proof.Machine.execEpiAddv w p ev s
  | .epiPst w p ev => Sys2Proof.Machine.execEpiPst w p ev s
  | .epiBas w p ev => Sys2Proof.Machine.execEpiBas w p ev s
  | .epiConv w p ev => Sys2Proof.Machine.execEpiConv w p ev s
  | .epiRecon w p ev => Sys2Proof.Machine.execEpiRecon w p ev s
  | .sfnExp w p ev => Sys2Proof.Machine.execSfnExp w p ev s
  | .sfnLog w p ev => Sys2Proof.Machine.execSfnLog w p ev s
  | .sfnRcp w p ev => Sys2Proof.Machine.execSfnRcp w p ev s
  | .sfnRsqrt w p ev => Sys2Proof.Machine.execSfnRsqrt w p ev s
  | .redSum w p ev => Sys2Proof.Machine.execRedSum w p ev s
  | .redMax w p ev => Sys2Proof.Machine.execRedMax w p ev s
  | .redSumsq w p ev => Sys2Proof.Machine.execRedSumsq w p ev s
  | .smxInit w p => Sys2Proof.Machine.execSmxInit w p s
  | .smxStep w p ev => Sys2Proof.Machine.execSmxStep w p ev s
  | .smxFold w p ev => Sys2Proof.Machine.execSmxFold w p ev s
  | .bias w p ev => Sys2Proof.Machine.execBias w p ev s
  | .guard w p => Sys2Proof.Machine.execGuard w p s
  | .gat w p ev => Sys2Proof.Machine.execGat w p ev s
  | .sct w p ev => Sys2Proof.Machine.execSct w p ev s
  | .sig w p => Sys2Proof.Machine.execSig w p s
  | .waits w p => Sys2Proof.Machine.execWaits w p s
  | .waitsSatisfied w p => Sys2Proof.Machine.execWaitsSatisfied w p s
  | .waitsLimitExpiry w p => Sys2Proof.Machine.execWaitsLimitExpiry w p s
  | .endOp w p => Sys2Proof.Machine.execEndOp w p s
  | .stitchCompletion w p => Sys2Proof.Machine.execStitchCompletion w p s
  | .bobbinWatchdogExpiry w p => Sys2Proof.Machine.execBobbinWatchdogExpiry w p s
  | .vacancyMapping w => Sys2Proof.Machine.execVacancyMapping w s
  | .bobCmdFence w phys => Sys2Proof.Machine.execBobCmdFence w phys s
  | .bobCmdTest w phys => Sys2Proof.Machine.execBobCmdTest w phys s
  | .bobTestDone w pass => Sys2Proof.Machine.execBobTestDone w pass s
  | .bobCmdRelease w phys => Sys2Proof.Machine.execBobCmdRelease w phys s
  | .addOp w ev => Sys2Proof.Machine.execAddOp w ev s
  | .subOp w ev => Sys2Proof.Machine.execSubOp w ev s
  | .andOp w ev => Sys2Proof.Machine.execAndOp w ev s
  | .orOp w ev => Sys2Proof.Machine.execOrOp w ev s
  | .xor w ev => Sys2Proof.Machine.execXor w ev s
  | .shl w ev => Sys2Proof.Machine.execShl w ev s
  | .shr w ev => Sys2Proof.Machine.execShr w ev s
  | .sra w ev => Sys2Proof.Machine.execSra w ev s
  | .mul w ev => Sys2Proof.Machine.execMul w ev s
  | .slt w ev => Sys2Proof.Machine.execSlt w ev s
  | .sltu w ev => Sys2Proof.Machine.execSltu w ev s
  | .addi w ev => Sys2Proof.Machine.execAddi w ev s
  | .andi w ev => Sys2Proof.Machine.execAndi w ev s
  | .ori w ev => Sys2Proof.Machine.execOri w ev s
  | .xori w ev => Sys2Proof.Machine.execXori w ev s
  | .shli w ev => Sys2Proof.Machine.execShli w ev s
  | .shri w ev => Sys2Proof.Machine.execShri w ev s
  | .srai w ev => Sys2Proof.Machine.execSrai w ev s
  | .slti w ev => Sys2Proof.Machine.execSlti w ev s
  | .li w ev => Sys2Proof.Machine.execLi w ev s
  | .lih w ev => Sys2Proof.Machine.execLih w ev s
  | .lds w ev => Sys2Proof.Machine.execLds w ev s
  | .sts w ev => Sys2Proof.Machine.execSts w ev s
  | .ldg w ev => Sys2Proof.Machine.execLdg w ev s
  | .beq w ev => Sys2Proof.Machine.execBeq w ev s
  | .bne w ev => Sys2Proof.Machine.execBne w ev s
  | .blt w ev => Sys2Proof.Machine.execBlt w ev s
  | .bge w ev => Sys2Proof.Machine.execBge w ev s
  | .bltu w ev => Sys2Proof.Machine.execBltu w ev s
  | .bgeu w ev => Sys2Proof.Machine.execBgeu w ev s
  | .jal w ev => Sys2Proof.Machine.execJal w ev s
  | .jr w ev => Sys2Proof.Machine.execJr w ev s
  | .walkStart w ev => Sys2Proof.Machine.execWalkStart w ev s
  | .enqTo w ev => Sys2Proof.Machine.execEnqTo w ev s
  | .enqAny w ev => Sys2Proof.Machine.execEnqAny w ev s
  | .waitWalk w ev => Sys2Proof.Machine.execWaitWalk w ev s
  | .waitEvent w ev => Sys2Proof.Machine.execWaitEvent w ev s
  | .waitPump w ev => Sys2Proof.Machine.execWaitPump w ev s
  | .fenceStore w ev => Sys2Proof.Machine.execFenceStore w ev s
  | .fenceWell w ev => Sys2Proof.Machine.execFenceWell w ev s
  | .fencePartition w ev => Sys2Proof.Machine.execFencePartition w ev s
  | .controllerStallRelease w => Sys2Proof.Machine.execControllerStallRelease w s
  | .waitEventLimitExpiry w => Sys2Proof.Machine.execWaitEventLimitExpiry w s
  | .walkRecordStallTimeout w => Sys2Proof.Machine.execWalkRecordStallTimeout w s
  | .checkpoint w ev => Sys2Proof.Machine.execCheckpoint w ev s
  | .checkpointCopy j => Sys2Proof.Machine.execCheckpointCopy j s
  | .checkpointDurable j => Sys2Proof.Machine.execCheckpointDurable j s
  | .collBarrier w ev => Sys2Proof.Machine.execCollBarrier w ev s
  | .collSum w ev => Sys2Proof.Machine.execCollSum w ev s
  | .collMax w ev => Sys2Proof.Machine.execCollMax w ev s
  | .collMin w ev => Sys2Proof.Machine.execCollMin w ev s
  | .pumpStart w ev => Sys2Proof.Machine.execPumpStart w ev s
  | .migPrefetch w ev => Sys2Proof.Machine.execMigPrefetch w ev s
  | .migDemote w ev => Sys2Proof.Machine.execMigDemote w ev s
  | .migPin w ev => Sys2Proof.Machine.execMigPin w ev s
  | .migUnpin w ev => Sys2Proof.Machine.execMigUnpin w ev s
  | .halt w ev => Sys2Proof.Machine.execHalt w ev s
  | .walkerPlaceStitch w => Sys2Proof.Machine.execWalkerPlaceStitch w s
  | .splitCombineIssue w => Sys2Proof.Machine.execSplitCombineIssue w s
  | .splitCombine w u => Sys2Proof.Machine.execSplitCombine w u s
  | .layerTriggerCombine j => Sys2Proof.Machine.execLayerTriggerCombine j s
  | .cuEwiseAdd w u => Sys2Proof.Machine.execCuEwiseAdd w u s
  | .cuEwiseSub w u => Sys2Proof.Machine.execCuEwiseSub w u s
  | .cuEwiseMul w u => Sys2Proof.Machine.execCuEwiseMul w u s
  | .cuEwiseMax w u => Sys2Proof.Machine.execCuEwiseMax w u s
  | .cuEwiseMin w u => Sys2Proof.Machine.execCuEwiseMin w u s
  | .cuEwiseAxpby w u => Sys2Proof.Machine.execCuEwiseAxpby w u s
  | .cuRedSum w u => Sys2Proof.Machine.execCuRedSum w u s
  | .cuRedMax w u => Sys2Proof.Machine.execCuRedMax w u s
  | .cuRedSumsq w u => Sys2Proof.Machine.execCuRedSumsq w u s
  | .cuQuantSupplied w u => Sys2Proof.Machine.execCuQuantSupplied w u s
  | .cuQuantComputed w u => Sys2Proof.Machine.execCuQuantComputed w u s
  | .cuConvert w u => Sys2Proof.Machine.execCuConvert w u s
  | .cuMximp w u => Sys2Proof.Machine.execCuMximp w u s
  | .cuMxexp w u => Sys2Proof.Machine.execCuMxexp w u s
  | .cuNormRms w u => Sys2Proof.Machine.execCuNormRms w u s
  | .cuNormLayer w u => Sys2Proof.Machine.execCuNormLayer w u s
  | .cuNormRmsApply w u => Sys2Proof.Machine.execCuNormRmsApply w u s
  | .cuNormRmsStats w u => Sys2Proof.Machine.execCuNormRmsStats w u s
  | .cuNormLayerStats w u => Sys2Proof.Machine.execCuNormLayerStats w u s
  | .cuNormLayerApply w u => Sys2Proof.Machine.execCuNormLayerApply w u s
  | .cuCombine w u => Sys2Proof.Machine.execCuCombine w u s
  | .cuSmxmerge w u => Sys2Proof.Machine.execCuSmxmerge w u s
  | .cuKvrelayout w u => Sys2Proof.Machine.execCuKvrelayout w u s
  | .cuVreblock w u => Sys2Proof.Machine.execCuVreblock w u s
  | .cuGather w u => Sys2Proof.Machine.execCuGather w u s
  | .cuScatter w u => Sys2Proof.Machine.execCuScatter w u s
  | .cuPoolMax w u => Sys2Proof.Machine.execCuPoolMax w u s
  | .cuPoolAvg w u => Sys2Proof.Machine.execCuPoolAvg w u s
  | .cuUpsampleNearest w u => Sys2Proof.Machine.execCuUpsampleNearest w u s
  | .cuUpsampleTrilinear w u => Sys2Proof.Machine.execCuUpsampleTrilinear w u s
  | .cuFillZero w u => Sys2Proof.Machine.execCuFillZero w u s
  | .cuFillValue w u => Sys2Proof.Machine.execCuFillValue w u s
  | .cuItemIssue w n => Sys2Proof.Machine.execCuItemIssue w n s
  | .cuItemComplete w u => Sys2Proof.Machine.execCuItemComplete w u s
  | .cisternRefresh w group bank => Sys2Proof.Machine.execCisternRefresh w group bank s
  | .cisternPatrolScrub w block ev => Sys2Proof.Machine.execCisternPatrolScrub w block ev s
  | .cisternSplitApply w => Sys2Proof.Machine.execCisternSplitApply w s
  | .pumpCopy w n => Sys2Proof.Machine.execPumpCopy w n s
  | .pumpFill w n => Sys2Proof.Machine.execPumpFill w n s
  | .pumpUnitComplete w n k => Sys2Proof.Machine.execPumpUnitComplete w n k s
  | .pumpResume w n => Sys2Proof.Machine.execPumpResume w n s
  | .drainTimeout w => Sys2Proof.Machine.execDrainTimeout w s
  | .migrationMoveStart => Sys2Proof.Machine.execMigrationMoveStart s
  | .moveDrainDone n => Sys2Proof.Machine.execMoveDrainDone n s
  | .moveCopyComplete n => Sys2Proof.Machine.execMoveCopyComplete n s
  | .accessCountPromotion w va => Sys2Proof.Machine.execAccessCountPromotion w va s
  | .countWindowClear => Sys2Proof.Machine.execCountWindowClear s
  | .hostTierWaitExpiry who va write => Sys2Proof.Machine.execHostTierWaitExpiry who va write s
  | .translationMiss q req c va => Sys2Proof.Machine.execTranslationMiss q req c va s
  | .sharedWalkerGrant => Sys2Proof.Machine.execSharedWalkerGrant s
  | .pageWalkComplete k => Sys2Proof.Machine.execPageWalkComplete k s
  | .trInvContext c => Sys2Proof.Machine.execTrInvContext c s
  | .trInvPage c => Sys2Proof.Machine.execTrInvPage c s
  | .trHrootJudgingWrite v f => Sys2Proof.Machine.execTrHrootJudgingWrite v f s
  | .gets w va ev => Sys2Proof.Machine.execGets w va ev s
  | .getx w va ev => Sys2Proof.Machine.execGetx w va ev s
  | .getxf w va ev => Sys2Proof.Machine.execGetxf w va ev s
  | .putm w line => Sys2Proof.Machine.execPutm w line s
  | .pute w line => Sys2Proof.Machine.execPute w line s
  | .nonallocatingRead line ev => Sys2Proof.Machine.execNonallocatingRead line ev s
  | .nonallocatingWrite line ev => Sys2Proof.Machine.execNonallocatingWrite line ev s
  | .reservoirSectorRead n p chk ev => Sys2Proof.Machine.execReservoirSectorRead n p chk ev s
  | .reservoirSectorWrite n o bytes p ev => Sys2Proof.Machine.execReservoirSectorWrite n o bytes p ev s
  | .sluiceTick => Sys2Proof.Machine.execSluiceTick s
  | .reservoirPatrolScrub n ev => Sys2Proof.Machine.execReservoirPatrolScrub n ev s
  | .driftCompensation k ch => Sys2Proof.Machine.execDriftCompensation k ch s
  | .mr4Read k code above => Sys2Proof.Machine.execMr4Read k code above s
  | .rvFenceCmd v => Sys2Proof.Machine.execRvFenceCmd v s
  | .evacuationGranuleCopy k g bad => Sys2Proof.Machine.execEvacuationGranuleCopy k g bad s
  | .evacuationComplete k => Sys2Proof.Machine.execEvacuationComplete k s
  | .reservoirSelfRefreshExit => Sys2Proof.Machine.execReservoirSelfRefreshExit s
  | .rvPlaceCommit v f => Sys2Proof.Machine.execRvPlaceCommit v f s
  | .aquiferReadEntry q a n src => Sys2Proof.Machine.execAquiferReadEntry q a n src s
  | .aquiferPageRead k ev => Sys2Proof.Machine.execAquiferPageRead k ev s
  | .aquiferPackageLost k => Sys2Proof.Machine.execAquiferPackageLost k s
  | .aqFenceCmd v => Sys2Proof.Machine.execAqFenceCmd v s
  | .imageRowWrite j => Sys2Proof.Machine.execImageRowWrite j s
  | .journalProgram => Sys2Proof.Machine.execJournalProgram s
  | .journalDurable => Sys2Proof.Machine.execJournalDurable s
  | .inputRecordFill j => Sys2Proof.Machine.execInputRecordFill j s
  | .noiseFill j => Sys2Proof.Machine.execNoiseFill j s
  | .noiseFillDone j => Sys2Proof.Machine.execNoiseFillDone j s
  | .codecSessionBind => Sys2Proof.Machine.execCodecSessionBind s
  | .encodePicture n => Sys2Proof.Machine.execEncodePicture n s
  | .decodePicture n => Sys2Proof.Machine.execDecodePicture n s
  | .sessionReadyReread j n => Sys2Proof.Machine.execSessionReadyReread j n s
  | .sessionEnd j n => Sys2Proof.Machine.execSessionEnd j n s
  | .doorbell q tail f => Sys2Proof.Machine.execDoorbell q tail f s
  | .submissionFetch q ok => Sys2Proof.Machine.execSubmissionFetch q ok s
  | .queueErrorClear q v f => Sys2Proof.Machine.execQueueErrorClear q v f s
  | .jobLoaderVerify j => Sys2Proof.Machine.execJobLoaderVerify j s
  | .jobAccept j => Sys2Proof.Machine.execJobAccept j s
  | .completionEntryWrite q => Sys2Proof.Machine.execCompletionEntryWrite q s
  | .waitingEntryDrain q => Sys2Proof.Machine.execWaitingEntryDrain q s
  | .msiXSignal q => Sys2Proof.Machine.execMsiXSignal q s
  | .coalesceTimerExpiry q => Sys2Proof.Machine.execCoalesceTimerExpiry q s
  | .queueReset q v f => Sys2Proof.Machine.execQueueReset q v f s
  | .queueAbort v => Sys2Proof.Machine.execQueueAbort v s
  | .jnQueryLookup v => Sys2Proof.Machine.execJnQueryLookup v s
  | .bar2Read f o n => Sys2Proof.Machine.execBar2Read f o n s
  | .bar2Write f o bytes => Sys2Proof.Machine.execBar2Write f o bytes s
  | .jobBind => Sys2Proof.Machine.execJobBind s
  | .preemption j => Sys2Proof.Machine.execPreemption j s
  | .partitionQuiescent j => Sys2Proof.Machine.execPartitionQuiescent j s
  | .jobEndCommit j => Sys2Proof.Machine.execJobEndCommit j s
  | .jobRollback j => Sys2Proof.Machine.execJobRollback j s
  | .wellLoss w cause => Sys2Proof.Machine.execWellLoss w cause s
  | .jobRebuild j => Sys2Proof.Machine.execJobRebuild j s
  | .tileFrame p f => Sys2Proof.Machine.execTileFrame p f s
  | .rdReqFrame p f => Sys2Proof.Machine.execRdReqFrame p f s
  | .rdRespFrame p f => Sys2Proof.Machine.execRdRespFrame p f s
  | .wrFrame p f => Sys2Proof.Machine.execWrFrame p f s
  | .wrAckFrame p f => Sys2Proof.Machine.execWrAckFrame p f s
  | .mgmtFrame p f => Sys2Proof.Machine.execMgmtFrame p f s
  | .ilpDataSend p peer vc g => Sys2Proof.Machine.execIlpDataSend p peer vc g s
  | .ilpAck p f => Sys2Proof.Machine.execIlpAck p f s
  | .ilpNak p f => Sys2Proof.Machine.execIlpNak p f s
  | .ilpHello p f => Sys2Proof.Machine.execIlpHello p f s
  | .ilpResync p f => Sys2Proof.Machine.execIlpResync p f s
  | .ackDelayExpiry p peer vc => Sys2Proof.Machine.execAckDelayExpiry p peer vc s
  | .rtoExpiry p peer vc => Sys2Proof.Machine.execRtoExpiry p peer vc s
  | .portDown p => Sys2Proof.Machine.execPortDown p s
  | .portUp p lanes => Sys2Proof.Machine.execPortUp p lanes s
  | .helloTimer p peer vc => Sys2Proof.Machine.execHelloTimer p peer vc s
  | .holdExpiry p peer vc => Sys2Proof.Machine.execHoldExpiry p peer vc s
  | .resyncWaitExpiry p peer vc => Sys2Proof.Machine.execResyncWaitExpiry p peer vc s
  | .tagQuarantineRelease p peer pair => Sys2Proof.Machine.execTagQuarantineRelease p peer pair s
  | .spRtCmdGo v => Sys2Proof.Machine.execSpRtCmdGo v s
  | .spCommit v => Sys2Proof.Machine.execSpCommit v s
  | .collFrame p f => Sys2Proof.Machine.execCollFrame p f s
  | .collResultFrame p f => Sys2Proof.Machine.execCollResultFrame p f s
  | .collAbortFrame p f => Sys2Proof.Machine.execCollAbortFrame p f s
  | .collDeadlineExpiry n => Sys2Proof.Machine.execCollDeadlineExpiry n s
  | .collGraceExpiry n => Sys2Proof.Machine.execCollGraceExpiry n s
  | .pairFormationStart v => Sys2Proof.Machine.execPairFormationStart v s
  | .pairHello h member qown ucode => Sys2Proof.Machine.execPairHello h member qown ucode s
  | .syncDone h => Sys2Proof.Machine.execSyncDone h s
  | .journalMirror h r q => Sys2Proof.Machine.execJournalMirror h r q s
  | .queueMirror h q => Sys2Proof.Machine.execQueueMirror h q s
  | .checkpointMirror h queue gen seq root va bytes => Sys2Proof.Machine.execCheckpointMirror h queue gen seq root va bytes s
  | .headerMirror h x => Sys2Proof.Machine.execHeaderMirror h x s
  | .mirrorAck h of_ ok => Sys2Proof.Machine.execMirrorAck h of_ ok s
  | .yield h => Sys2Proof.Machine.execYield h s
  | .resetting h => Sys2Proof.Machine.execResetting h s
  | .resettingSuspensionEnd => Sys2Proof.Machine.execResettingSuspensionEnd s
  | .heartbeatSilence => Sys2Proof.Machine.execHeartbeatSilence s
  | .linkLossTimeout => Sys2Proof.Machine.execLinkLossTimeout s
  | .pairTakeoverCmd v => Sys2Proof.Machine.execPairTakeoverCmd v s
  | .pairSoloCmd v => Sys2Proof.Machine.execPairSoloCmd v s
  | .pairStanddownCmd v => Sys2Proof.Machine.execPairStanddownCmd v s
  | .pairRejoinCmd v => Sys2Proof.Machine.execPairRejoinCmd v s
  | .pairHandbackCmd v => Sys2Proof.Machine.execPairHandbackCmd v s
  | .pmCmdWake v => Sys2Proof.Machine.execPmCmdWake v s
  | .pmCmdW2 v => Sys2Proof.Machine.execPmCmdW2 v s
  | .pmCmdW3 v => Sys2Proof.Machine.execPmCmdW3 v s
  | .pmCmdW4 v => Sys2Proof.Machine.execPmCmdW4 v s
  | .entryComplete => Sys2Proof.Machine.execEntryComplete s
  | .entryDrainTimeout => Sys2Proof.Machine.execEntryDrainTimeout s
  | .w1IdleEntry w => Sys2Proof.Machine.execW1IdleEntry w s
  | .w2AutoEntry w => Sys2Proof.Machine.execW2AutoEntry w s
  | .w3AutoEntry => Sys2Proof.Machine.execW3AutoEntry s
  | .wakeEvent code => Sys2Proof.Machine.execWakeEvent code s
  | .wakeStagingWellStart => Sys2Proof.Machine.execWakeStagingWellStart s
  | .domainReady d => Sys2Proof.Machine.execDomainReady d s
  | .powerGoodTimeout d => Sys2Proof.Machine.execPowerGoodTimeout d s
  | .pllLockTimeout d => Sys2Proof.Machine.execPllLockTimeout d s
  | .wakeRetry d => Sys2Proof.Machine.execWakeRetry d s
  | .referenceFault n ppm => Sys2Proof.Machine.execReferenceFault n ppm s
  | .referenceRecovery n => Sys2Proof.Machine.execReferenceRecovery n s
  | .referenceAbsentTimeout n => Sys2Proof.Machine.execReferenceAbsentTimeout n s
  | .alarmFire => Sys2Proof.Machine.execAlarmFire s
  | .timebaseLowRead => Sys2Proof.Machine.execTimebaseLowRead s
  | .timebaseCoarseClear => Sys2Proof.Machine.execTimebaseCoarseClear s
  | .sensorSweep sw => Sys2Proof.Machine.execSensorSweep sw s
  | .sensorHopTimeout hop asc => Sys2Proof.Machine.execSensorHopTimeout hop asc s
  | .faultReport r => Sys2Proof.Machine.execFaultReport r s
  | .fcRecordClear n => Sys2Proof.Machine.execFcRecordClear n s
  | .fcHoldoffExpiry => Sys2Proof.Machine.execFcHoldoffExpiry s
  | .fcAlertClear v => Sys2Proof.Machine.execFcAlertClear v s
  | .evFreeze v => Sys2Proof.Machine.execEvFreeze v s
  | .evClear v => Sys2Proof.Machine.execEvClear v s
  | .wellCmdFence v => Sys2Proof.Machine.execWellCmdFence v s
  | .wellCmdTest v => Sys2Proof.Machine.execWellCmdTest v s
  | .wellCmdRelease v => Sys2Proof.Machine.execWellCmdRelease v s
  | .registerWrite f o n v => Sys2Proof.Machine.execRegisterWrite f o n v s
  | .timebaseAdvance => Sys2Proof.Machine.execTimebaseAdvance s
  | .hbInToggle => Sys2Proof.Machine.execHbInToggle s
  | .pcieLinkDown half => Sys2Proof.Machine.execPcieLinkDown half s
  | .pcieLinkUp half => Sys2Proof.Machine.execPcieLinkUp half s
  | .fabricLinkFailure a b => Sys2Proof.Machine.execFabricLinkFailure a b s
  | .aquiferTrainingDone rates => Sys2Proof.Machine.execAquiferTrainingDone rates s
  | .reservoirPackageFailure k => Sys2Proof.Machine.execReservoirPackageFailure k s
  | .wellheadDomainFailure canSend => Sys2Proof.Machine.execWellheadDomainFailure canSend s
  | .discardedFrame p => Sys2Proof.Machine.execDiscardedFrame p s
  | .referenceGlitch n => Sys2Proof.Machine.execReferenceGlitch n s

end Sys2Proof.Machine
end

