-- ==== Sys2Proof/Safety.lean ====
section
/-!
DEFINITION. The terms in which claims are stated: the invariant of the memories, what a controller or bobbin is about to
run, and the tables of commands of one shape.
-/

namespace Sys2Proof.Machine

/-! ### Invariants and frames -/

/-- Every memory is in canonical form: keys strictly rising, no byte listed that equals what an unlisted one reads as. -/
def State.memOk (s : State) : Bool :=
  s.cistern.wf && s.reservoir.wf && s.aquifer.wf && s.hostMem.wf && s.boot.wf && s.recovery.wf

/-- Every memory of t is that of s. -/
def sameMem (s t : State) : Prop :=
  t.cistern = s.cistern ∧ t.reservoir = s.reservoir ∧ t.aquifer = s.aquifer ∧ t.hostMem = s.hostMem ∧ t.boot = s.boot
    ∧ t.recovery = s.recovery

/-- A place that is no byte of the n from l on. -/
def outside (l : Loc) (n : Nat) (x : Loc) : Prop := x.tier ≠ l.tier ∨ x.addr < l.addr ∨ l.addr + n ≤ x.addr

/-- t holds the bytes stored at l, and at every other place of a tier what s holds. -/
def stored (s t : State) (l : Loc) (bs : List Byte) : Prop :=
  t.rawRead l bs.length = bs
  ∧ ∀ x : Loc, x.addr < x.tier.size → outside l bs.length x → t.rawRead x 1 = s.rawRead x 1

/-- An event counter (R770). -/
def isEvCnt (o : Nat) : Prop := rEvCnt 0 ≤ o ∧ o < rEvCnt 96

/-- Every register but the event counters and those listed is that of s. -/
def sameRegs (s t : State) (l : List Nat) : Prop := ∀ o, ¬isEvCnt o → o ∉ l → t.reg o = s.reg o

/-- Registers in which accesses to memory are counted: event counters, and those of the translation buffers, the walkers, the
well caches and the directory. -/
def isAccessReg (o : Nat) : Prop :=
  isEvCnt o ∨ o = rTrWalkStat ∨ o = rCdStat ∨ ∃ v, o = rWlTlbStat v ∨ o = rWlWcStat v ∨ o = rWlWcEvt v

/-- t is s but for what accesses to memory leave in the translation buffers, the walk cache, the well caches, the directory,
the counts of well-cache fills, and the registers that count them (R403, R436, R437, R468, R529). -/
def accessed (s t : State) : Prop :=
  { t with regs := s.regs, tlb := s.tlb, walkPtrs := s.walkPtrs, lines := s.lines, dir := s.dir, engine := s.engine } = s
  ∧ { t.engine with fills := s.engine.fills } = s.engine ∧ ∀ o, ¬isAccessReg o → t.reg o = s.reg o

/-! ### Controllers (R258 to R262) -/

/-- The controller of well w runs, with no translation miss outstanding, and the instruction word at its PC is i (R441). -/
def State.ctlAt (s : State) (w : Nat) (i : Word) : Prop :=
  (s.well w).ctl = .running ∧ s.missing w 144 = false ∧ s.imWord w (s.well w).cx.pc = i

/-- A controller instruction ended at index n with RD d written: the well's controller, its frame, and WL_CTL_ECC as the
instruction memory's check left it (R260, R262). -/
def ctlWrote (s t : State) (w : Nat) (ev : EccEv) (d : Nat) (v : Word) (n : Nat) : Prop :=
  t.well w = { s.well w with
    ctl := .running, cx := { ((s.well w).cx.set d v) with pc := n, wait := .none } }
  ∧ (∀ u, u ≠ w → t.well u = s.well u)
  ∧ { t with wells := s.wells, regs := s.regs } = s
  ∧ sameRegs s t [rWlCtlEcc w]
  ∧ t.reg (rWlCtlEcc w) = (if ev = .corrected then addSat (s.reg (rWlCtlEcc w)) 63 32 1 else s.reg (rWlCtlEcc w))

/-- The state before an instruction, with a corrected error of the instruction memory counted (R260). -/
def State.checked (s : State) (w : Nat) (ev : EccEv) : State :=
  if ev = .corrected then s.incFld (rWlCtlEcc w) 63 32 1 else s

/-- A load of the controller ended at index n with RD d written: the well's controller, and the rest of the block but for what
the access leaves (R262, R263). -/
def ctlRead (s t : State) (w : Nat) (ev : EccEv) (d : Nat) (v : Word) (n : Nat) : Prop :=
  t.well w = { s.well w with
    ctl := .running, cx := { ((s.well w).cx.set d v) with pc := n, wait := .none } }
  ∧ (∀ u, u ≠ w → t.well u = s.well u)
  ∧ accessed (s.checked w ev) { t with wells := s.wells }

/-- The controller of well w at index n of its program, its instruction counted (R262, R770). -/
def State.ctlGoes (s : State) (w n : Nat) : State :=
  (s.setCtl w .running { (s.well w).cx with pc := n, wait := .none }).countEv w 0x19 1

/-- C-R instructions: opcode, and RD from RS1 and RS2 (R183, R262). -/
def ctlRegOp : Instr → Option (WellId × EccEv × Nat × (Word → Word → Word))
  | .addOp w ev => some (w, ev, 0x81, fun a b => a + b)
  | .subOp w ev => some (w, ev, 0x82, fun a b => a - b)
  | .andOp w ev => some (w, ev, 0x83, fun a b => a &&& b)
  | .orOp w ev => some (w, ev, 0x84, fun a b => a ||| b)
  | .xor w ev => some (w, ev, 0x85, fun a b => a ^^^ b)
  | .shl w ev => some (w, ev, 0x86, fun a b => a <<< (b.toNat % 64))
  | .shr w ev => some (w, ev, 0x87, fun a b => a >>> (b.toNat % 64))
  | .sra w ev => some (w, ev, 0x88, fun a b => a.sshiftRight (b.toNat % 64))
  | .mul w ev => some (w, ev, 0x89, fun a b => a * b)
  | .slt w ev => some (w, ev, 0x8A, fun a b => if a.toInt < b.toInt then 1#64 else 0#64)
  | .sltu w ev => some (w, ev, 0x8B, fun a b => if a.toNat < b.toNat then 1#64 else 0#64)
  | _ => none

/-- C-I instructions: opcode, and RD from RS1 and the sign-extended immediate (R183, R262). -/
def ctlImmOp : Instr → Option (WellId × EccEv × Nat × (Word → Word → Word))
  | .addi w ev => some (w, ev, 0x91, fun a b => a + b)
  | .andi w ev => some (w, ev, 0x93, fun a b => a &&& b)
  | .ori w ev => some (w, ev, 0x94, fun a b => a ||| b)
  | .xori w ev => some (w, ev, 0x95, fun a b => a ^^^ b)
  | .shli w ev => some (w, ev, 0x96, fun a b => a <<< (b.toNat % 64))
  | .shri w ev => some (w, ev, 0x97, fun a b => a >>> (b.toNat % 64))
  | .srai w ev => some (w, ev, 0x98, fun a b => a.sshiftRight (b.toNat % 64))
  | .slti w ev => some (w, ev, 0x9A, fun a b => if a.toInt < b.toInt then 1#64 else 0#64)
  | _ => none

/-- C-B branches: opcode and condition on RS1 and RS2 (R183, R262). -/
def ctlBranchOp : Instr → Option (WellId × EccEv × Nat × (Word → Word → Bool))
  | .beq w ev => some (w, ev, 0xB0, fun a b => decide (a = b))
  | .bne w ev => some (w, ev, 0xB1, fun a b => decide (a ≠ b))
  | .blt w ev => some (w, ev, 0xB2, fun a b => decide (a.toInt < b.toInt))
  | .bge w ev => some (w, ev, 0xB3, fun a b => decide (b.toInt ≤ a.toInt))
  | .bltu w ev => some (w, ev, 0xB4, fun a b => decide (a.toNat < b.toNat))
  | .bgeu w ev => some (w, ev, 0xB5, fun a b => decide (b.toNat ≤ a.toNat))
  | _ => none

/-- Every command of the well controllers' instruction set, with its well and what the instruction memory's check found. -/
def ctlInstr : Instr → Option (WellId × EccEv)
  | .addOp w ev | .subOp w ev | .andOp w ev | .orOp w ev | .xor w ev | .shl w ev | .shr w ev | .sra w ev | .mul w ev
  | .slt w ev | .sltu w ev | .addi w ev | .andi w ev | .ori w ev | .xori w ev | .shli w ev | .shri w ev | .srai w ev
  | .slti w ev | .li w ev | .lih w ev | .lds w ev | .sts w ev | .ldg w ev | .beq w ev | .bne w ev | .blt w ev
  | .bge w ev | .bltu w ev | .bgeu w ev | .jal w ev | .jr w ev | .walkStart w ev | .enqTo w ev | .enqAny w ev
  | .waitWalk w ev | .waitEvent w ev | .waitPump w ev | .fenceStore w ev | .fenceWell w ev | .fencePartition w ev
  | .checkpoint w ev | .collBarrier w ev | .collSum w ev | .collMax w ev | .collMin w ev | .pumpStart w ev
  | .migPrefetch w ev | .migDemote w ev | .migPin w ev | .migUnpin w ev | .halt w ev => some (w, ev)
  | _ => none

/-- COLL by its four operations (R272). -/
def collInstr : Instr → Option (WellId × EccEv × CKind)
  | .collBarrier w ev => some (w, ev, .collBarrier)
  | .collSum w ev => some (w, ev, .collSum)
  | .collMax w ev => some (w, ev, .collMax)
  | .collMin w ev => some (w, ev, .collMin)
  | _ => none

/-- MIG by its four operations, with the number of the request (R466). -/
def migInstr : Instr → Option (WellId × EccEv × CKind × Nat)
  | .migPrefetch w ev => some (w, ev, .migPrefetch, 0)
  | .migDemote w ev => some (w, ev, .migDemote, 1)
  | .migPin w ev => some (w, ev, .migPin, 2)
  | .migUnpin w ev => some (w, ev, .migUnpin, 3)
  | _ => none

/-! ### Bobbins (R169 to R173) -/

/-- Bobbin p of well w runs stitch r, neither stalled in WAITS nor on full queues nor on a translation miss, and the word of
its template at its place is i (R144, R169, R173, R251, R415, R441). -/
def State.bobAt (s : State) (w p : Nat) (r : Run) (i : Word) : Prop :=
  (s.bob w p).run = some r ∧ r.waits = none ∧ r.qStall = none ∧ r.toStore = [] ∧ s.missing w p = false
    ∧ s.readWord (s.runCtx r) (tmplAddr r.b.tmpl r.idx) = .ok i

/-- The tile and vector data instructions: well, bobbin, check of the pillow, kind, and what the instruction computes. -/
def tileInstr : Instr → Option (WellId × PhysId × EccEv × TKind × (State → Run → Word → TOut))
  | .ldt w p ev => some (w, p, ev, .ldt, State.ldt w p)
  | .stt w p ev => some (w, p, ev, .stt, State.stt w p)
  | .mma w p ev => some (w, p, ev, .mma, State.mma w)
  | .cvt w p ev => some (w, p, ev, .cvt, State.cvt w)
  | .qnt w p ev => some (w, p, ev, .qnt, State.qnt w)
  | .epiGate w p ev => some (w, p, ev, .gate, State.gate w)
  | .epiAddv w p ev => some (w, p, ev, .addv, State.addv w)
  | .epiPst w p ev => some (w, p, ev, .pst, State.pst w p)
  | .epiBas w p ev => some (w, p, ev, .bas, State.bas w)
  | .epiConv w p ev => some (w, p, ev, .conv, State.conv w)
  | .epiRecon w p ev => some (w, p, ev, .recon, State.recon w)
  | .sfnExp w p ev => some (w, p, ev, .sfn .exp, State.sfn .exp w)
  | .sfnLog w p ev => some (w, p, ev, .sfn .log, State.sfn .log w)
  | .sfnRcp w p ev => some (w, p, ev, .sfn .rcp, State.sfn .rcp w)
  | .sfnRsqrt w p ev => some (w, p, ev, .sfn .rsqrt, State.sfn .rsqrt w)
  | .redSum w p ev => some (w, p, ev, .red 0, State.red 0 w)
  | .redMax w p ev => some (w, p, ev, .red 1, State.red 1 w)
  | .redSumsq w p ev => some (w, p, ev, .red 2, State.red 2 w)
  | .smxStep w p ev => some (w, p, ev, .smx 1, State.smxStep w)
  | .smxFold w p ev => some (w, p, ev, .smx 2, State.smxFold w)
  | .bias w p ev => some (w, p, ev, .bias, State.biasOp w)
  | .gat w p ev => some (w, p, ev, .gat, State.gat w p)
  | .sct w p ev => some (w, p, ev, .sct, State.sct w p)
  | _ => none

/-- Every command that runs the next instruction of a bobbin's template: well, bobbin and kind. -/
def tileKind : Instr → Option (WellId × PhysId × TKind)
  | .zclr w p => some (w, p, .zclr)
  | .smxInit w p => some (w, p, .smx 0)
  | .guard w p => some (w, p, .guard)
  | .sig w p => some (w, p, .sig)
  | .waits w p => some (w, p, .waits)
  | .endOp w p => some (w, p, .end_)
  | i => (tileInstr i).map (fun x => (x.1, x.2.1, x.2.2.2.1))

/-- The epilogue instructions that read accumulators and pillow only (R225 to R246). -/
def TKind.epilogue : TKind → Bool
  | .gate | .addv | .bas | .conv | .recon | .sfn _ | .red _ | .smx _ => true
  | _ => false

/-- A state with the instruction's corrected pillow error counted (R140). -/
def State.pillowChecked (s : State) (w : Nat) (ev : EccEv) : State := if ev = .corrected then s.corrected w else s

/-- The run of every bobbin but p of well w is that of s. -/
def otherBobs (s t : State) (w p : Nat) : Prop := ∀ v q, q < 136 → ¬(v = w ∧ q = p) → t.bob v q = s.bob v q

/-! ### Cistern units (R408, R416) -/

/-- The operations of the cistern units: well, unit, OPC, VAR and what an item computes. -/
def cuInstr : Instr → Option (WellId × Fin 64 × Nat × Nat × (OpRun → State → CuArg → CuOut))
  | .cuEwiseAdd w u => some (w, u, 0x40, 0, fun _ => ewise (fun _ x y => round32 (x.add y)))
  | .cuEwiseSub w u => some (w, u, 0x40, 1, fun _ => ewise (fun _ x y => round32 (x.add y.neg)))
  | .cuEwiseMul w u => some (w, u, 0x40, 2, fun _ => ewise (fun _ x y => round32 (x.mul y)))
  | .cuEwiseMax w u => some (w, u, 0x40, 3, fun _ => ewise (fun _ x y => fmax (round32 x) (round32 y)))
  | .cuEwiseMin w u => some (w, u, 0x40, 4, fun _ => ewise (fun _ x y => fmin (round32 x) (round32 y)))
  | .cuEwiseAxpby w u => some (w, u, 0x40, 5, fun _ => ewise axpby)
  | .cuRedSum w u => some (w, u, 0x41, 0, fun _ => redItem .sum)
  | .cuRedMax w u => some (w, u, 0x41, 1, fun _ => redItem .max)
  | .cuRedSumsq w u => some (w, u, 0x41, 2, fun _ => redItem .sumsq)
  | .cuQuantSupplied w u => some (w, u, 0x42, 0, fun _ => convertItem)
  | .cuQuantComputed w u => some (w, u, 0x42, 1, fun _ => quantComputed)
  | .cuConvert w u => some (w, u, 0x43, 0, fun _ => convertItem)
  | .cuMximp w u => some (w, u, 0x44, 0, fun _ => mximpItem)
  | .cuMxexp w u => some (w, u, 0x45, 0, fun _ => mxexpItem)
  | .cuNormRms w u => some (w, u, 0x46, 0, fun _ => normFull false)
  | .cuNormLayer w u => some (w, u, 0x46, 1, fun _ => normFull true)
  | .cuNormRmsApply w u => some (w, u, 0x46, 2, fun _ => normApply false)
  | .cuNormRmsStats w u => some (w, u, 0x46, 3, fun _ => normPairs false)
  | .cuNormLayerStats w u => some (w, u, 0x46, 4, fun _ => normPairs true)
  | .cuNormLayerApply w u => some (w, u, 0x46, 5, fun _ => normApply true)
  | .cuCombine w u => some (w, u, 0x47, 0, fun _ => combineItem)
  | .cuSmxmerge w u => some (w, u, 0x48, 0, fun _ => smxmergeItem)
  | .cuKvrelayout w u => some (w, u, 0x49, 0, fun _ => kvItem)
  | .cuVreblock w u => some (w, u, 0x4A, 0, fun _ => vreItem)
  | .cuGather w u => some (w, u, 0x4B, 0, fun _ => gatherItem)
  | .cuScatter w u => some (w, u, 0x4C, 0, fun op => scatterItem op.job w)
  | .cuPoolMax w u => some (w, u, 0x4D, 0, fun _ => poolItem false)
  | .cuPoolAvg w u => some (w, u, 0x4D, 1, fun _ => poolItem true)
  | .cuUpsampleNearest w u => some (w, u, 0x4E, 0, fun _ => upNearest)
  | .cuUpsampleTrilinear w u => some (w, u, 0x4E, 1, fun _ => upTrilinear)
  | .cuFillZero w u => some (w, u, 0x4F, 0, fun _ => fillZero)
  | .cuFillValue w u => some (w, u, 0x4F, 1, fun _ => fillValue)
  | _ => none

/-! ### Host queues (R606 to R608, R617) -/

/-- The fetcher of queue q may fetch (R606, R608, R617). -/
def State.mayFetch (s : State) (q : Nat) : Bool :=
  s.fld (rQCtl q) 63 63 == 1 && s.fld (rQStatus q) 36 34 == 0 && s.running && s.serves q && s.linkOk q
  && s.fld (rQStatus q) 63 48 != s.fld (rQSqTail q) 15 0 && decide ((s.hq q).waiting.length < 65536) && !s.undecided q

/-- The oldest waiting entry of queue q may be written (R614, R617, R681). -/
def State.mayWriteEntry (s : State) (q wait : Nat) : Bool :=
  s.fld (rQCtl q) 63 63 == 1 && s.linkOk q && s.mayCommit && s.booted && (wait == 0 || (wait == 1 && !s.inSync))
  && decide ((s.fld (rQStatus q) 15 0 + 65536 - s.fld (rQCqHead q) 15 0) % 65536 < s.cqSize q)

/-! ### Link frames (R635 to R645) -/

/-- The DATA frames by command: port, frame, virtual channel and operation (R645). -/
def rxInstr : Instr → Option (Fin 9 × Frame × Nat × Nat)
  | .collFrame p f => if abortFlag f then none else some (p, f, 0, 0x01)
  | .collAbortFrame p f => if abortFlag f then some (p, f, 0, 0x01) else none
  | .collResultFrame p f => some (p, f, 0, 0x02)
  | .tileFrame p f => some (p, f, 1, 0x10)
  | .rdReqFrame p f => some (p, f, 2, 0x20)
  | .rdRespFrame p f => some (p, f, 2, 0x21)
  | .wrFrame p f => some (p, f, 2, 0x22)
  | .wrAckFrame p f => some (p, f, 2, 0x23)
  | .mgmtFrame p f => some (p, f, 3, 0x30)
  | _ => none

/-- A DATA frame of this channel and operation arrives on a port that runs, and not at port 8 in W3. -/
def State.arrives (s : State) (p : Nat) (f : Frame) (vc op : Nat) : Prop :=
  s.portUp p = true ∧ f.typ = 1 ∧ f.vc = vc ∧ f.op = op ∧ ¬(p = 8 ∧ s.fld rPmState 38 36 = 3)

/-- The frame is for this device, from a device that can exist, and as long as it says (R636). -/
def State.forMe (s : State) (f : Frame) : Prop :=
  f.dst = s.devId ∧ f.payload.length ≤ 4096 ∧ f.len = f.payload.length ∧ f.src ≤ 4095

/-- The place of a frame after the last one accepted on its connection (R639). -/
def State.ahead (s : State) (p : Nat) (f : Frame) : Nat := (f.seq + 65536 - (s.conn p f.src f.vc).lastRx) % 65536

/-- A frame accepted: the sixteenth since the last ACK is acknowledged at once, others within the ACK delay (R640). -/
def State.accepts (s : State) (p : Nat) (f : Frame) : State :=
  let c := s.conn p f.src f.vc
  let l := f.seq % 65536
  if 16 ≤ c.accepted + 1 then
    (s.setConn p f.src f.vc { c with lastRx := l, accepted := 0, ackDue := none }).emitCtl p f.src f.vc 2 l
  else s.setConn p f.src f.vc
    { c with lastRx := l, accepted := c.accepted + 1, ackDue := some (c.ackDue.getD s.now) }

/-! ### The pair (R676, R679, R690) -/

/-- The pair messages by command, with their header. -/
def pairInstr : Instr → Option PairHdr
  | .pairHello h _ _ _ => some h
  | .syncDone h => some h
  | .journalMirror h _ _ => some h
  | .queueMirror h _ => some h
  | .checkpointMirror h _ _ _ _ _ _ => some h
  | .headerMirror h _ => some h
  | .mirrorAck h _ _ => some h
  | .yield h => some h
  | .resetting h => some h
  | _ => none

/-- The commands of TL_PAIR_CMD: the value written, OP, and whether the member's state allows it (R690, R695). -/
def State.pairOp (s : State) : Instr → Option (Word × Nat × Bool)
  | .pairTakeoverCmd v => some (v, 1, s.pairState == 5)
  | .pairSoloCmd v => some (v, 2, s.pairState == 5)
  | .pairStanddownCmd v => some (v, 3, s.pairState != 0)
  | .pairRejoinCmd v => some (v, 4, s.pairState == 0 || s.pairState == 8 || s.pairState == 6)
  | .pairHandbackCmd v => some (v, 5, s.pairState == 6 || (s.pairState == 3 && s.pair.taken != 0#64))
  | _ => none

/-- A message for this member that is not older than its epoch, on a link that runs, outside W3. -/
def State.hears (s : State) (h : PairHdr) : Prop :=
  s.portUp 8 = true ∧ s.inW3 = false ∧ h.pairId = s.pairId ∧ s.epoch ≤ h.epoch

/-! ### Power (R707 to R714, R736) -/

/-- PM_CMD with GO by its targets W2, W3 and W4: the value, the target, the wells that it takes through W2, and whether the
state allows it (R707, R709). -/
def State.pmOp (s : State) : Instr → Option (Word × Nat × List Nat × Bool)
  | .pmCmdW2 v => some (v, 2, wellsOf (bitsOf v 11 0), s.pw.entry.isNone && s.devicePm == 0
      && (wellsOf (bitsOf v 11 0)).all (fun w => s.inService w && s.mayW2 w))
  | .pmCmdW3 v => some (v, 3, s.keptWells, s.pw.entry.isNone && s.booted && s.mayW3)
  | .pmCmdW4 v => some (v, 4, s.keptWells, s.pw.entry.isNone && s.booted && s.mayW4)
  | _ => none

/-! ### The management bus (R69, R70) -/

/-- A reading as the management controller sends it: Linear11, its low byte first. -/
def linearBytes (v : Int) : List Byte := leBytes 2 (Config.linear11 v).toNat

/-- The management commands whose answers the state gives, with the answer. -/
def State.mgmtRead (s : State) : Instr → Option (List Byte)
  | .readVin => some (linearBytes s.pw.vin)
  | .readIin => some (linearBytes s.pw.iin)
  | .readPin => some (linearBytes s.pw.pin)
  | .readTemperature1 => some (linearBytes (s.fld rScCoolant 15 0 * 625 / 10))
  | .readTemperature2 => some (linearBytes (s.fld rScCoolant 31 16 * 625 / 10))
  | .readTemperature3 => match s.current with
    | [] => none
    | t :: l => some (linearBytes (l.foldl max t * 250))
  | .statusWord => some (leBytes 2 s.statusWord)
  | .statusInput => some [s.pw.stInput]
  | .statusTemperature => some [s.pw.stTemp]
  | .pmbusRevision => some [0x33#8]
  | .mfrId => some Config.mfrId
  | .smbusAlertResponse => if s.fld rFcAlert 10 0 = 0 then some [] else none
  | _ => none

/-- What lies in the aquifer and its reserve, and what is fused, is that of s. -/
def State.keepsAquifer (s t : State) : Prop :=
  t.aquifer = s.aquifer ∧ t.boot = s.boot ∧ t.pw.floor = s.pw.floor ∧ (∀ k < 12, t.aqLost k = s.aqLost k)
    ∧ ∀ b p, (t.bob b p).listed = (s.bob b p).listed

/-- All that a loss of power takes is gone: memories, jobs, work and messages under way. -/
def isCold (t : State) : Prop :=
  t.cistern = [] ∧ t.reservoir = [] ∧ t.recovery = [] ∧ t.jobs = [] ∧ t.wells = [] ∧ t.deques = [] ∧ t.colls = []
    ∧ t.hqs = [] ∧ t.events = [] ∧ t.links.conns = [] ∧ t.jn.program = none ∧ t.pairState = 0 ∧ t.stage = 0

/-! ### Commands of WH_RESET and WH_WELL_CMD (R754, R779, R780) -/

/-- The commands of WH_RESET: the value, OP, and whether the state allows it. -/
def State.resetOp (s : State) : Instr → Option (Word × Nat × Bool)
  | .warmReset v _ => some (v, 1, s.firmwareRuns)
  | .takeoverReset v _ => some (v, 2, s.pairState == 7)
  | .wellReset v => some (v, 3, s.booted)
  | .runRecoveryImage v => some (v, 4, s.stage == 8 && s.alive)
  | _ => none

/-- The commands of WH_WELL_CMD: the value, OP, and whether the state of the well that it names allows it. -/
def State.wellOp (s : State) : Instr → Option (Word × Nat × Bool)
  | .wellCmdFence v => some (v, 1, s.wellState (bitsOf v 7 4) == 0 && (!s.slotHeld (bitsOf v 7 4) || bitOf v 8))
  | .wellCmdTest v => some (v, 2, (s.wellState (bitsOf v 7 4) == 1 || s.wellState (bitsOf v 7 4) == 3)
      && !s.pw.testing.any (fun t => t.1 == bitsOf v 7 4))
  | .wellCmdRelease v => some (v, 3, s.wellState (bitsOf v 7 4) == 1
      && s.fld rWhWellState (48 + bitsOf v 7 4) (48 + bitsOf v 7 4) == 1)
  | _ => none

end Sys2Proof.Machine
end

