-- ==== Sys2Proof/Certificates/Slice0/Obligations.lean ====
section
/-!
DEFINITION. The statements about the block, for the provers.
-/

open Sys2Proof Sys2Proof.Machine

/-- A step takes the command at the front of the queue with the queue's rest; with none waiting the block idles, which is
the model's choice (log entry 1). -/
def Obligations.StepTakesTheFrontCommand : Prop :=
  ∀ (s : State) (c : Instr) (rest : List Instr),
    step { s with pending := c :: rest } = exec c { s with pending := rest }
    ∧ step { s with pending := [] } = .next { s with pending := [] }

/-- No command touches the queue of those that wait: what a step leaves of it is the rest it was given. -/
def Obligations.CommandsLeaveTheQueue : Prop :=
  ∀ (c : Instr) (s t : State), exec c s = .next t → t.pending = s.pending

/-- Every step keeps every memory in canonical form: keys strictly rising, and no byte listed that equals what an unlisted
one reads as. -/
def Obligations.StepKeepsMemoriesCanonical : Prop :=
  ∀ s t : State, s.memOk = true → step s = .next t → t.memOk = true

/-- After reset every memory lists nothing, so it is canonical, and no command waits. -/
def Obligations.ResetHoldsTheInvariant : Prop :=
  State.reset.memOk = true ∧ State.reset.pending = []

/-- The security floor is fused: no step lowers it (R745). Raising the floor sets it to the larger of itself and the version
of the image that runs, in the fuses and in WH_FW (R745). -/
def Obligations.SecurityFloorRisesAndNeverFalls : Prop :=
  (∀ s t : State, step s = .next t → s.pw.floor ≤ t.pw.floor)
  ∧ (∀ (s : State) (v : Word), bitOf v 0 = true →
       ∃ t, exec (.firmwareFloorRaise v) s = .next t ∧ t.pw = { s.pw with floor := max s.pw.floor (s.fld rWhFw 47 32) }
         ∧ t.fld rWhFw 31 16 = max s.pw.floor (s.fld rWhFw 47 32) % 65536
         ∧ t.fld rWhFw 63 32 = s.fld rWhFw 63 32 ∧ { t with regs := s.regs, pw := s.pw } = s
         ∧ ∀ o, o ≠ rWhFw → t.reg o = s.reg o)

/-- The registers as a cold reset leaves them: those to which the tables of the register map give a value other than 0, the
map and states of the bobbins, and 0 in the registers of every kind of record (R483, R796, R798). -/
def Obligations.ResetRegistersHoldTheirValues : Prop :=
  (∀ e ∈ [(rPmInputLimit, 0xFA0), (rPmPolicy, 0x03E800640064FA00), (rPmWake, 0xFF0000), (rPmTherm, 0x5F643C00),
      (rFcCtl, 0xFC03E80E), (rTrHrootC, 0xFFFFFFFFFFFFFFFF), (rMgCtl, 0x03E810000A000001), (rRvSluiceCtl, 0x46400168),
      (rTlCtl, 0x88B5), (rTlVcw, 0x0400200040001000), (rTlPairCtl, 0x000507D000000000),
      (rTlPairQown, 0xFFFFFFFFFFFFFFFF), (rSpTimers, 0x00C80800100A0000), (rSpRtCmd, 0xF0000), (rCoCtl, 0x640A00),
      (rWhBoot, 0), (rWhWellState, 0), (rPmState, 0), (rPmTimebase, 0), (rFcAlert, 0), (rTrHroot, 0), (rRvPlace, 0),
      (rTlPairStatus, 0), (rSpDevid, 0)],
    State.reset.reg e.1 = BitVec.ofNat 64 e.2)
  ∧ (∀ q < 64, State.reset.reg (rQCtl q) = BitVec.ofNat 64 (0x0042000000000000 + q * 2 ^ 32)
      ∧ State.reset.reg (rQIrq q) = 1#64 ∧ State.reset.reg (rQStatus q) = 0#64)
  ∧ (∀ p < 8, State.reset.reg (rSpCtl p) = 0x88B5#64 ∧ State.reset.reg (rSpVcw p) = 0x0400200040001000#64)
  ∧ (∀ g < 64, State.reset.reg (rCoGrpLa g) = 0x0200000002000000#64 ∧ State.reset.reg (rCoGrpLb g) = 0x0200000002000000#64)
  ∧ (∀ n < 96, State.reset.reg (rEvCtl n) = 0x40000000#64 ∧ State.reset.reg (rEvCnt n) = 0#64)
  ∧ (∀ i < 36, State.reset.reg (rRvPkgStat i) = 0xFF000000#64) ∧ (∀ i < 12, State.reset.reg (rAqPkgStat i) = 0xFF0000#64)
  ∧ (∀ w < 12, State.reset.reg (rWlEvtLimit w) = 0x64#64 ∧ State.reset.reg (rWlStealCtl w) = 3#64
      ∧ State.reset.reg (rWlCisSplit w) = 4#64 ∧ State.reset.reg (rWlCtlExc w) = 0#64
      ∧ (∀ l < 128, State.reset.physOf w l = if l < 16 then l else l + 1)
      ∧ ∀ p < 136, State.reset.bobState w p = if p = 16 ∨ 128 < p then 1 else 0)

/-- A write of 4 or 8 bytes at its natural alignment reaches one register, and of it only the half that it covers: RW fields
take the written bits, W1C fields clear where a 1 is written, every other bit and every other register stays. Any other
access is reported and discarded, and a block without power ignores its writes. A field under RWL stores until the
commit and is reported after it; a write of a command field is the command (R14, R15, R705, R785, R788). -/
def Obligations.RegisterWritesStoreTheirFields : Prop :=
  ∀ (s : State) (f : Fin 2) (o : BitVec 26) (n : Fin 9) (v : Word), s.functionUp f = true →
    let a := o.toNat
    let ok := (n.val = 4 ∨ n.val = 8) ∧ a % n.val = 0
    let reg := a / 8 * 8
    let mask : Word := if n.val = 8 then ~~~(0#64) else if a % 8 = 0 then 0xFFFFFFFF#64 else 0xFFFFFFFF00000000#64
    let val : Word := if a % 8 = 0 then v else v <<< 32
    (¬ok → exec (.registerWrite f o n v) s = .next (s.reportSelf 21 0xD 0 (64 + f) a))
    ∧ (ok → s.answersAt a = false → exec (.registerWrite f o n v) s = .next s)
    ∧ (ok → s.answersAt a = true →
      (∀ r, plainRows.find? (fun r => r.holds reg) = some r →
        let rw_ := BitVec.ofNat 64 r.rw_ &&& mask
        ∃ t, exec (.registerWrite f o n v) s = .next t ∧ { t with regs := s.regs } = s
          ∧ t.reg reg = ((s.reg reg &&& ~~~rw_) ||| (val &&& rw_)) &&& ~~~(val &&& mask &&& BitVec.ofNat 64 r.w1c)
          ∧ ∀ q, q ≠ reg → t.reg q = s.reg q)
      ∧ (reg = rSpDevid → a = reg →
        (s.fld rSpCommit 0 0 = 0 → ∃ t, exec (.registerWrite f o n v) s = .next t ∧ { t with regs := s.regs } = s
          ∧ t.fld rSpDevid 11 0 = bitsOf v 11 0 ∧ ∀ q, q ≠ rSpDevid → t.reg q = s.reg q)
        ∧ (s.fld rSpCommit 0 0 = 1 → ∃ t, exec (.registerWrite f o n v) s = .next t
          ∧ t.reg rSpDevid = s.reg rSpDevid ∧ sameMem s t ∧ t.jobs = s.jobs
          ∧ bitOf (t.reg (rFcRec (16 * 21 + 0xD))) 63 = true))
      ∧ (reg = rWhFw → a = reg → bitOf v 0 = true →
        exec (.registerWrite f o n v) s = exec (.firmwareFloorRaise (val &&& mask)) s)
      ∧ (reg = rFcAlert → a = reg → exec (.registerWrite f o n v) s = exec (.fcAlertClear (val &&& mask)) s))

/-- s0 reads as 0 and ignores writes, and every other register holds the value last written to it (R258). -/
def Obligations.RegisterZeroIsHardWired : Prop :=
  ∀ (c : CtlCtx) (n m : Nat) (v : Word),
    c.get 0 = 0#64 ∧ (c.set 0 v) = c ∧ (n ≠ 0 → (c.set n v).get n = v) ∧ (m ≠ n → (c.set n v).get m = c.get m)
      ∧ (c.set n v).pc = c.pc ∧ (c.set n v).wait = c.wait

/-- Register and immediate instructions write RD from RS1 and RS2 or the sign-extended immediate, and go on with the next
instruction; LI and LIH write their immediates (R183, R262). Registers other than RD, every other well and the rest of
the block stay as they are; s0 ignores the write (R258). A corrected error of the instruction memory is counted in
WL_CTL_ECC (R260). -/
def Obligations.ControllerAluWritesRd : Prop :=
  ∀ (s : State) (i : Instr) (w : WellId) (ev : EccEv) (op : Nat) (f : Word → Word → Word) (word : Word),
    ev ≠ .uncorrectable → s.ctlAt w word → (s.well w).cx.pc + 1 < (s.well w).plen →
      let c := (s.well w).cx
      (ctlRegOp i = some (w, ev, op, f) → opOf word = op → bitsOf word 40 0 = 0 →
        ∃ t, exec i s = .next t
          ∧ ctlWrote s t w ev (bitsOf word 55 51) (f (c.get (bitsOf word 50 46)) (c.get (bitsOf word 45 41))) (c.pc + 1))
      ∧ (ctlImmOp i = some (w, ev, op, f) → opOf word = op →
        ∃ t, exec i s = .next t
          ∧ ctlWrote s t w ev (bitsOf word 55 51) (f (c.get (bitsOf word 50 46))
              ((BitVec.extractLsb' 0 46 word).signExtend 64)) (c.pc + 1))
      ∧ (opOf word = 0x9C →
        ∃ t, exec (.li w ev) s = .next t
          ∧ ctlWrote s t w ev (bitsOf word 55 51) ((BitVec.extractLsb' 0 51 word).signExtend 64) (c.pc + 1))
      ∧ (opOf word = 0x9D → bitsOf word 45 32 = 0 →
        ∃ t, exec (.lih w ev) s = .next t
          ∧ ctlWrote s t w ev (bitsOf word 55 51)
              (BitVec.extractLsb' 0 32 word ++ BitVec.extractLsb' 0 32 (c.get (bitsOf word 50 46))) (c.pc + 1))

/-- A branch adds its offset to its own index when its condition holds, JAL writes the index of the next instruction to RD
and jumps, JR jumps to the index in its register; nothing else changes (R262). -/
def Obligations.ControllerBranchesJump : Prop :=
  ∀ (s : State) (i : Instr) (w : WellId) (ev : EccEv) (op n : Nat) (f : Word → Word → Bool) (word : Word),
    ev ≠ .uncorrectable → s.ctlAt w word → n < (s.well w).plen →
      let c := (s.well w).cx
      let ofs := (BitVec.extractLsb' 30 16 word).toInt
      (ctlBranchOp i = some (w, ev, op, f) → opOf word = op → bitsOf word 29 0 = 0 →
        (n : Int) = (if f (c.get (bitsOf word 55 51)) (c.get (bitsOf word 50 46)) then c.pc + ofs else c.pc + 1) →
        ∃ t, exec i s = .next t ∧ ctlWrote s t w ev 0 0#64 n)
      ∧ (opOf word = 0xB8 → bitsOf word 50 46 = 0 → bitsOf word 29 0 = 0 → (n : Int) = c.pc + ofs →
        ∃ t, exec (.jal w ev) s = .next t
          ∧ ctlWrote s t w ev (bitsOf word 55 51) (BitVec.ofNat 64 (c.pc + 1)) n)
      ∧ (opOf word = 0xB9 → bitsOf word 45 0 = 0 → (n : Int) = (c.get (bitsOf word 55 51)).toNat →
        ∃ t, exec (.jr w ev) s = .next t ∧ ctlWrote s t w ev 0 0#64 n)

/-- LDS and LDG write RD with the word, or the checked guarded word, at RS1 plus the sign-extended offset; no memory changes,
and nothing else but what the access leaves in the translation buffers and caches (R38, R263). STS stores the eight little-endian bytes of its register at RS1 plus the sign-extended offset, where the
address translates to, and every other byte of the block stays (R12, R263). That an STS is visible at once is the
model's choice (log entry 12). -/
def Obligations.ControllerLoadsAndStores : Prop :=
  (∀ (s : State) (w : WellId) (ev : EccEv) (word v : Word),
     ev ≠ .uncorrectable → s.ctlAt w word → (s.well w).cx.pc + 1 < (s.well w).plen →
       let c := (s.well w).cx
       let a := (c.get (bitsOf word 50 46) + (BitVec.extractLsb' 0 46 word).signExtend 64).toNat
       (opOf word = 0xA0 → a % 8 = 0 → (s.checked w ev).readWord (s.ctlCtx w) a = .ok v →
         ∃ t, exec (.lds w ev) s = .next t ∧ ctlRead s t w ev (bitsOf word 55 51) v (c.pc + 1))
       ∧ (opOf word = 0xA2 → a % 16 = 0 → (s.checked w ev).readGuard64 (s.ctlCtx w) a = .ok v →
         ∃ t, exec (.ldg w ev) s = .next t ∧ ctlRead s t w ev (bitsOf word 55 51) v (c.pc + 1)))
  ∧ (∀ (s : State) (w : WellId) (ev : EccEv) (word : Word) (l : Loc),
       ev ≠ .uncorrectable → s.ctlAt w word → (s.well w).cx.pc + 1 < (s.well w).plen → opOf word = 0xA1 →
         let c := (s.well w).cx
         let a := (c.get (bitsOf word 50 46) + (BitVec.extractLsb' 0 46 word).signExtend 64).toNat
         let u := s.checked w ev
         a % 8 = 0 → u.translate (s.ctlCtx w) a true = .ok l → (u.clearPoison l 8).badBlock l 8 = none →
           ∃ t, exec (.sts w ev) s = .next t
             ∧ stored s t l (leBytes 8 (c.get (bitsOf word 55 51)).toNat)
             ∧ t.well w = { s.well w with ctl := .running, cx := { c with pc := c.pc + 1, wait := .none } }
             ∧ ∀ v, v ≠ w.val → t.well v = s.well v)

/-- Each wait, fence and HALT whose condition holds goes on with the next instruction, or ends the well's program, and the
last well's HALT its job, whose status is OK, or OK_WIDENED when a replay widened it; a wait that observes a walk's end
frees its record (R127, R265, R268, R274, R309). A control instruction whose condition does not hold leaves its
controller stalled at its index, waiting for that condition, and changes nothing else (R265). A stalled controller whose
condition has come to hold goes on: a wait passes, and a WALK, PUMP, ENQ or MIG that was not accepted is issued as if
for the first time (R265, R278). A WAIT EVENT beyond the limit raises controller cause 0x6 with its index and event, and
a WALK whose record stays live beyond it ends the job with INTERNAL (R268, R310).
Where a step reads device scratch, its block is sound (R399). -/
def Obligations.ControllerWaitsGoOnStallOrEnd : Prop :=
  (∀ (s : State) (w : WellId) (ev : EccEv) (word : Word),
     ev ≠ .uncorrectable → s.ctlAt w word →
       let u := s.checked w ev
       let k := u.wellSlot w
       let pc := (s.well w).cx.pc
       (pc + 1 < (s.well w).plen →
         (cKind word = some .waitWalk → u.waitWalkOk w k (bitOf word 16) (bitsOf word 15 0) = true →
           exec (.waitWalk w ev) s = .next ((u.sawWalk w k (bitOf word 16) (bitsOf word 15 0)).ctlGoes w (pc + 1)))
         ∧ (cKind word = some .waitEvent → u.scratchOk w (eventAt k (bitsOf word 15 0)) = true →
             ((s.well w).cx.get (bitsOf word 55 51)).toNat ≤ u.event w k (bitsOf word 15 0) →
           exec (.waitEvent w ev) s = .next (u.ctlGoes w (pc + 1)))
         ∧ (cKind word = some .waitPump → u.pumpsDone w (bitOf word 16) (bitsOf word 15 0) = true →
           exec (.waitPump w ev) s = .next (u.ctlGoes w (pc + 1)))
         ∧ (cKind word = some .fenceStore → exec (.fenceStore w ev) s = .next (u.ctlGoes w (pc + 1)))
         ∧ (cKind word = some .fenceWell → u.wellDone w = true →
           exec (.fenceWell w ev) s = .next ((u.sawWalk w k true 0).ctlGoes w (pc + 1))))
       ∧ (cKind word = some .halt → u.haltOk w = true →
         ∃ t, exec (.halt w ev) s = .next t ∧ (t.well w).ctl = .halted ∧ (t.well w).cx.pc = pc
           ∧ (∀ v, v ≠ w.val → t.well v = s.well v) ∧ { t with wells := s.wells, regs := s.regs, jobs := s.jobs } = s
           ∧ ∀ j x, (s.well w).job = some j → s.job j = some x → x.status = none →
               (∀ v ∈ x.wells, v = w.val ∨ (s.well v).ctl = .halted) →
               t.job j = some { x with status := some (if x.widened then 1 else 0), phase := .stopping }))
  ∧ (∀ (s : State) (w : WellId) (ev : EccEv) (word : Word),
       ev ≠ .uncorrectable → s.ctlAt w word →
         let u := s.checked w ev
         let k := u.wellSlot w
         (cKind word = some .walk → u.scratchOk w (wrecAt k (bitsOf word 15 0 % 64)) = true →
             u.walkReady w k (bitsOf word 15 0) = false →
           exec (.walkStart w ev) s = .next (u.stallCtl w (.walkAccept u.now)))
         ∧ (cKind word = some .waitWalk → u.waitWalkOk w k (bitOf word 16) (bitsOf word 15 0) = false →
           exec (.waitWalk w ev) s = .next (u.stallCtl w (.walk (bitOf word 16) (bitsOf word 15 0))))
         ∧ (cKind word = some .waitEvent → u.scratchOk w (eventAt k (bitsOf word 15 0)) = true →
             u.event w k (bitsOf word 15 0) < ((s.well w).cx.get (bitsOf word 55 51)).toNat →
           exec (.waitEvent w ev) s
             = .next (u.stallCtl w (.event (bitsOf word 15 0) ((s.well w).cx.get (bitsOf word 55 51)).toNat u.now)))
         ∧ (cKind word = some .waitPump → u.pumpsDone w (bitOf word 16) (bitsOf word 15 0) = false →
           exec (.waitPump w ev) s = .next (u.stallCtl w (.pump (bitOf word 16) (bitsOf word 15 0))))
         ∧ (cKind word = some .fenceWell → u.wellDone w = false →
           exec (.fenceWell w ev) s = .next (u.stallCtl w .fenceWell))
         ∧ (cKind word = some .pump → u.freePumpNo w = none →
           exec (.pumpStart w ev) s = .next (u.stallCtl w .pumpAccept))
         ∧ (cKind word = some .halt → u.haltOk w = false → exec (.halt w ev) s = .next (u.stallCtl w .halt)))
  ∧ (∀ (s : State) (w : WellId),
       (s.well w).ctl = .stalled →
         let c := (s.well w).cx
         let word := s.imWord w c.pc
         let k := s.wellSlot w
         (c.pc + 1 < (s.well w).plen →
           (∀ all tag, c.wait = .walk all tag → s.waitWalkOk w k all tag = true →
             exec (.controllerStallRelease w) s = .next ((s.sawWalk w k all tag).ctlGoes w (c.pc + 1)))
           ∧ (∀ e n since, c.wait = .event e n since → s.scratchOk w (eventAt k e) = true → n ≤ s.event w k e →
             exec (.controllerStallRelease w) s = .next (s.ctlGoes w (c.pc + 1)))
           ∧ (∀ all tag, c.wait = .pump all tag → s.pumpsDone w all tag = true →
             exec (.controllerStallRelease w) s = .next (s.ctlGoes w (c.pc + 1)))
           ∧ (c.wait = .fenceWell → s.wellDone w = true →
             exec (.controllerStallRelease w) s = .next ((s.sawWalk w k true 0).ctlGoes w (c.pc + 1)))
           ∧ (∀ j x d, c.wait = .fencePart true → s.wellJob w = some (j, x) →
               s.decisionOf true 0 ((s.well w).fences - 1) j = some d → d.status = 0 → s.fenceSettled w j = true →
               s.wellDone w = true →
             exec (.controllerStallRelease w) s
               = .next (((s.sawWalk w k true 0).setWell w { (s.sawWalk w k true 0).well w with layer := {} }).ctlGoes w
                   (c.pc + 1))))
         ∧ (c.wait = .halt → s.haltOk w = true → exec (.controllerStallRelease w) s = .next (s.haltWell w))
         ∧ (∀ since, c.wait = .walkAccept since → s.scratchOk w (wrecAt k (bitsOf word 15 0 % 64)) = true →
               s.walkReady w k (bitsOf word 15 0) = true →
             exec (.controllerStallRelease w) s = s.doWalk w c word)
         ∧ (∀ n, c.wait = .pumpAccept → s.freePumpNo w = some n →
             exec (.controllerStallRelease w) s = s.doPump w c word n))
  ∧ (∀ (s : State) (w : WellId),
       (∀ e n since, (s.well w).ctl = .stalled → s.wellRuns w = true → (s.well w).cx.wait = .event e n since →
           since + s.evtLimit w < s.now → s.event w (s.wellSlot w) e < n → bitOf (s.reg (rWlCtlExc w)) 63 = false →
         ∃ t, exec (.waitEventLimitExpiry w) s = .next t ∧ (t.well w).ctl = .faulted ∧ sameMem s t
           ∧ t.reg (rWlCtlExc w)
               = BitVec.ofNat 64 (2 ^ 63 + s.fld (rWlCtlExc w) 62 62 * 2 ^ 62 + 6 * 2 ^ 48
                   + (s.well w).cx.pc % 65536 * 2 ^ 32 + 0x7F * 2 ^ 24))
       ∧ (∀ j x since, (s.well w).ctl = .stalled → (s.well w).cx.wait = .walkAccept since →
           (s.wrec w (s.wellSlot w) (bitsOf (s.imWord w (s.well w).cx.pc) 15 0 % 64)).live = true →
           since + s.evtLimit w < s.now → (s.well w).job = some j → s.job j = some x → x.status = none →
           x.phase = .running →
         ∃ t, exec (.walkRecordStallTimeout w) s = .next t ∧ sameMem s t
           ∧ t.job j = some { x with status := some 0x7F, addr := 0, phase := .stopping }
           ∧ ∀ i, i ≠ j → t.job i = s.job i))

/-- An uncorrectable instruction word raises controller cause 0x3 and leaves the controller running at the same index; a
reserved encoding raises cause 0x5 with its index and opcode, whatever the command named, and stops the controller
(R277). -/
def Obligations.ControllerExceptionsAreRecorded : Prop :=
  ∀ (s : State) (i : Instr) (w : WellId) (ev : EccEv) (word : Word),
    ctlInstr i = some (w, ev) → s.ctlAt w word → bitOf (s.reg (rWlCtlExc w)) 63 = false →
      let pc := (s.well w).cx.pc
      (ev = .uncorrectable →
        ∃ t, exec i s = .next t ∧ t.wells = s.wells ∧ t.jobs = s.jobs ∧ sameMem s t
          ∧ t.reg (rWlCtlExc w) = BitVec.ofNat 64
              (2 ^ 63 + s.fld (rWlCtlExc w) 62 62 * 2 ^ 62 + 3 * 2 ^ 48 + pc % 65536 * 2 ^ 32))
      ∧ (ev ≠ .uncorrectable → cKind word = none →
        ∃ t, exec i s = .next t ∧ (t.well w).ctl = .faulted ∧ sameMem s t
          ∧ t.reg (rWlCtlExc w) = BitVec.ofNat 64 (2 ^ 63 + s.fld (rWlCtlExc w) 62 62 * 2 ^ 62 + 5 * 2 ^ 48
              + pc % 65536 * 2 ^ 32 + 0x7F * 2 ^ 24)
          ∧ ∀ j x, (s.well w).job = some j → s.job j = some x → x.status = none → x.phase ≠ .committed →
              ∃ y, t.job j = some y ∧ y.status = some 0x7F ∧ y.phase = .stopping)

/-- At the start of a job, and at each resumption from a checkpoint, the controller of each of its wells stands at index 0
with the argument block in s1, its rank in s2, the number of wells in s3, its well in s4, the pass in s5, 1 in s6 when
it resumes, and 0 in every other register (R259). -/
def Obligations.ControllersStartWithTheirRegisters : Prop :=
  ∀ (s t u : State) (j : Nat) (x : Job) (first : Bool), x.wells.Nodup → s.startJob j x first = .ok t →
    ((s.dropWork j x).dropPosts j).judgeAreas (viaQ 12 (s.ctxOf j)) (s.whFree.getD 0) (s.areasOf j) = .ok u →
    let saved := u.lastSaved j x
    ∀ r w, x.wells[r]? = some w →
      let c := (t.well w).cx
      (t.well w).ctl = .running ∧ (t.well w).job = some j ∧ c.pc = 0
      ∧ c.get 1 = BitVec.ofNat 64 x.arg ∧ c.get 2 = BitVec.ofNat 64 r ∧ c.get 3 = BitVec.ofNat 64 x.wells.length
      ∧ c.get 4 = BitVec.ofNat 64 w
      ∧ c.get 5 = BitVec.ofNat 64 (saved.elim 0 CpSaved.pass)
      ∧ c.get 6 = (if saved.isSome then 1#64 else 0#64)
      ∧ ∀ n, n = 0 ∨ 6 < n → c.get n = 0#64

/-- An accepted WALK: its record is live with its job, pricking, argument, tag and rank, the walker holds it behind the
walks accepted before, its guard entry joins the well's layer, and the controller goes on (R266, R286, R309). An
accepted ENQ: its checked descriptor stands at the tail of its deque, its walk counts one stitch more, the stitch joins
its well's layer, every other deque and record stays, and the controller goes on (R122, R267, R313). The walker, with no translation miss
outstanding, places the next stitch of its head walk on the deque of the placement rule, counted in its walk; a walk with
no point left leaves the walker (R266, R292, R314, R441).
Where a step reads device scratch, its block is sound (R399). -/
def Obligations.WalksAndEnqueuesPlaceStitches : Prop :=
  (∀ (s : State) (w : WellId) (ev : EccEv) (word : Word) (j : Nat) (x : Job) (pk : Pricking) (last : Nat) (l : Layer),
     ev ≠ .uncorrectable → s.ctlAt w word → cKind word = some .walk → (s.well w).cx.pc + 1 < (s.well w).plen →
       let u := s.checked w ev
       let c := (s.well w).cx
       let k := u.slotOf j w
       let prick := (c.get (bitsOf word 55 51)).toNat
       let arg := (c.get (bitsOf word 50 46)).toNat
       let tag := bitsOf word 15 0
       u.wellJob w = some (j, x) → u.scratchOk w (wrecAt k (tag % 64)) = true → u.walkReady w k tag = true →
       x.pricks.contains prick = true →
       u.readPricking (viaQ w (u.ctxOf j)) prick = .ok pk → u.layerLast (viaQ w (u.ctxOf j)) pk = .ok last →
       (s.well w).layer.join pk.guard last (.walk prick arg tag) = some l → arg ≤ pk.argmax →
         ∃ t, exec (.walkStart w ev) s = .next t
           ∧ t.wrec w k (tag % 64)
               = { live := true, job := j, prick := prick, arg := arg, tag := tag, rank := x.rank w }
           ∧ t.well w = { s.well w with
               ctl := .running, cx := { c with pc := c.pc + 1, wait := .none },
               walks := (s.well w).walks ++ [{ slot := k, wrec := tag % 64 }], layer := l }
           ∧ (∀ v, v ≠ w.val → t.well v = s.well v)
           ∧ { t with wells := s.wells, walkRecs := s.walkRecs, regs := s.regs } = s)
  ∧ (∀ (s : State) (i : Instr) (w : WellId) (ev : EccEv) (word d : Word) (j : Nat) (x : Job) (pk : Pricking) (l : Nat)
         (named : Option Nat) (chosen : Bool),
       ev ≠ .uncorrectable → s.ctlAt w word → (s.well w).cx.pc + 1 < (s.well w).plen →
         let u := s.checked w ev
         let c := (s.well w).cx
         let k := u.slotOf j w
         let tag := bitsOf word 15 0
         let target := (c.get (bitsOf word 50 46)).toNat % 128
         (i = .enqTo w ev ∧ cKind word = some .enqTo ∧ named = some target
           ∨ i = .enqAny w ev ∧ cKind word = some .enqAny ∧ named = none) →
         u.enqDeque w named (sdBorder d) = some (l, chosen) →
         u.wellJob w = some (j, x) → u.readGuard64 (u.ctlCtx w) (c.get (bitsOf word 55 51)).toNat = .ok d →
         u.scratchOk w (wrecAt k (tag % 64)) = true → u.enqOk w k tag j d x.wells.length = .ok (some pk) →
           ∃ t, exec i s = .next t
             ∧ t.deque w l = s.deque w l ++ [{ gw := guard64 d }]
             ∧ (∀ v m, m < 128 → ¬(v = w.val ∧ m = l) → t.deque v m = s.deque v m)
             ∧ t.wrec w k (tag % 64) = { s.wrec w k (tag % 64) with open_ := (s.wrec w k (tag % 64)).open_ + 1 }
             ∧ (t.well w).cx = { c with pc := c.pc + 1, wait := .none } ∧ (t.well w).ctl = .running
             ∧ (t.well w).layer = { (s.well w).layer with items := (s.well w).layer.items ++ [.enq d named tag] }
             ∧ (∀ v, v ≠ w.val → t.well v = s.well v) ∧ sameMem s t ∧ t.jobs = s.jobs)
  ∧ (∀ (s : State) (w : WellId) (j : Nat) (x : Job) (wk : Walk) (rest : List Walk) (pk : Pricking),
       s.wellJob w = some (j, x) → x.phase = .running → s.missing w 145 = false → (s.well w).walks = wk :: rest →
       s.scratchOk w (wrecAt wk.slot wk.wrec) = true →
       s.readPricking (viaQ w (s.ctxOf j)) (s.wrec w wk.slot wk.wrec).prick = .ok pk →
         let r := s.wrec w wk.slot wk.wrec
         let P := x.wells.length
         let v := s.visit (viaQ w (s.ctxOf j)) pk r.arg r.rank P visitFuel wk.back wk.pos
         (v = .done →
           ∃ t, exec (.walkerPlaceStitch w) s = .next t ∧ t.well w = { s.well w with walks := rest }
             ∧ (∀ y, y ≠ w.val → t.well y = s.well y) ∧ { t with wells := s.wells } = s)
         ∧ (∀ pos l, v = .point pos → wk.wrec < 64 → s.nextDeque w pk.border = some l →
           let d := mkStitch wk.wrec w pk.border (pointIndex (pk.levels.map (Level.radix · P)) (pos.map Prod.snd))
           ∃ t, exec (.walkerPlaceStitch w) s = .next t
             ∧ t.deque w l = s.deque w l ++ [{ gw := guard64 d }]
             ∧ (∀ y m, m < 128 → ¬(y = w.val ∧ m = l) → t.deque y m = s.deque y m)
             ∧ t.wrec w wk.slot wk.wrec = { r with open_ := r.open_ + 1 }
             ∧ (t.well w).walks = { wk with pos := pos, back := true } :: rest
             ∧ sameMem s t ∧ t.jobs = s.jobs))

/-- An accepted PUMP descriptor runs on the lowest free pump; an accepted operation record starts its operation; the
controller goes on (R271, R412, R451). A running pump with room issues its next unit; a unit that completes on a pump
with no translation miss outstanding has its bytes moved, and the last one frees the pump; a free pump takes a suspended
transfer from its checked watermark (R441, R448, R451, R454, R455, R473). Where a step reads device scratch, its block is sound (R399). -/
def Obligations.PumpsTakeAndMoveDescriptors : Prop :=
  (∀ (s : State) (w : WellId) (ev : EccEv) (word w0 : Word) (ws : List Word) (j n : Nat) (x : Job),
     ev ≠ .uncorrectable → s.ctlAt w word → cKind word = some .pump → (s.well w).cx.pc + 1 < (s.well w).plen →
       let u := s.checked w ev
       let c := (s.well w).cx
       let addr := (c.get (bitsOf word 55 51)).toNat
       let tag := bitsOf word 15 0
       u.wellJob w = some (j, x) → u.freePumpNo w = some n → u.readWord (u.cuCtx w j) addr = .ok w0 →
       (bitsOf w0 63 60 ≠ 4 → u.readWords (u.cuCtx w j) addr 8 = .ok ws → tdRefused addr ws = false →
         ∃ t, exec (.pumpStart w ev) s = .next t
           ∧ t.pump w n = { state := 1, job := j, tag := tag, addr := addr, words := ws }
           ∧ (∀ v m, m < 8 → ¬(v = w.val ∧ m = n) → t.pump v m = s.pump v m)
           ∧ bitOf (t.reg (rWlPumpStat w)) n = true
           ∧ t.well w = { s.well w with ctl := .running, cx := { c with pc := c.pc + 1, wait := .none } }
           ∧ (∀ v, v ≠ w.val → t.well v = s.well v)
           ∧ { t with wells := s.wells, pumps := s.pumps, regs := s.regs } = s)
       ∧ (∀ (g : Option Word) (last : Nat) (l : Layer) (t : State), bitsOf w0 63 60 = 4 → x.ops.contains addr = true →
           u.readWords (u.cuCtx w j) addr 16 = .ok ws → u.opGuardEntry (u.cuCtx w j) ws = .ok g →
           u.opLast (u.cuCtx w j) ws (g.getD 0#64) = .ok last →
           (match g with
             | none => some (s.well w).layer
             | some v => (s.well w).layer.join v last (.op addr tag)) = some l →
           u.startOp w n j addr tag ws g last = .ok t →
         exec (.pumpStart w ev) s = .next ((t.setWell w { t.well w with layer := l }).ctlGoes w (c.pc + 1))))
  ∧ (∀ (s : State) (w : WellId) (n : Fin 8),
       let p := s.pump w n
       (p.state = 1 → p.op = none → s.mayIssue p.job = true → p.issued < tdUnits p.words → p.flight.length < 16 →
         let t := s.setPump w n { p with issued := p.issued + 1, flight := p.flight ++ [p.issued] }
         (tdKind p.words = 1 → exec (.pumpCopy w n) s = .next t)
         ∧ (tdKind p.words = 2 → exec (.pumpFill w n) s = .next t))
       ∧ (∀ i u, p.state = 1 → p.flight.contains i = true → s.missing w (136 + n) = false →
           s.moveUnit (s.cuCtx w p.job) p.words i = .ok u →
         ∃ t, exec (.pumpUnitComplete w n i) s = .next t ∧ sameMem u t
           ∧ t.fld (rWlPumpStat w) 63 32 = min (u.fld (rWlPumpStat w) 63 32 + 1) (2 ^ 32 - 1)
           ∧ (tdUnits p.words ≤ raiseMark (p.ahead.length + 2) p.mark (p.ahead ++ [i]) →
               t.pump w n = {} ∧ t.fld (rWlPumpStat w) n n = 0)
           ∧ (raiseMark (p.ahead.length + 2) p.mark (p.ahead ++ [i]) < tdUnits p.words →
               (t.pump w n).state = 1 ∧ (t.pump w n).flight = p.flight.erase i
                 ∧ (t.pump w n).mark = raiseMark (p.ahead.length + 2) p.mark (p.ahead ++ [i])))
       ∧ (∀ j x q rest m, s.wellJob w = some (j, x) → s.suspended w (s.slotOf j w) = q :: rest → p.state = 0 →
           s.mayIssue j = true → s.scratchOk w (markAt (s.slotOf j w) q.no) = true → unguard64 q.gmark = some m →
         ∃ t, exec (.pumpResume w n) s = .next t
           ∧ t.pump w n = { q with state := 1, mark := m.toNat, issued := m.toNat, ahead := [], flight := [] }
           ∧ t.suspended w (s.slotOf j w) = rest ∧ t.fld (rWlPumpStat w) n n = 1
           ∧ { t with pumps := s.pumps, susp := s.susp, regs := s.regs } = s))

/-- A COLL posts its values: its group's count rises, its controller waits for the result, and the post enters the record of
its instance; one that finds its instance already decided OK and written, or with nothing to write, goes on (R272, R655,
R656, R665). FENCE PARTITION posts once FENCE WELL holds on its well, which then waits; before that it waits without a
post (R269). CHECKPOINT waits with its pass number and its list (R270 order 1). An instance past its deadline: the top
leader, or the device for its own instances, decides TIMEOUT; another device sends an ABORT upward once and waits for
the grace, after which it completes its wells with TIMEOUT (R662 to R664). -/
def Obligations.CollectivesPostAndEnd : Prop :=
  (∀ (s : State) (i : Instr) (w : WellId) (ev : EccEv) (kind : CKind) (word : Word) (j : Nat) (x : Job) (vals : List Word),
     collInstr i = some (w, ev, kind) → ev ≠ .uncorrectable → s.ctlAt w word → cKind word = some kind →
       let u := s.checked w ev
       let c := (s.well w).cx
       let g := bitsOf word 31 16
       let k := tabGet 0 (s.well w).colls g
       let sh := collShape word
       let ra := (c.get (bitsOf word 55 51)).toNat
       let rb := (c.get (bitsOf word 50 46)).toNat
       u.wellJob w = some (j, x) →
       (kind = .collBarrier ∧ vals = []
         ∨ kind ≠ .collBarrier ∧ ra % shapeWidth sh = 0 ∧ rb % shapeWidth sh = 0
           ∧ u.collRead (u.ctlCtx w) ra rb sh = .ok vals) →
       (u.decisionOf false g k j = none → (bitsOf word 34 32 = 0 ∨ u.groupValid g = true) → s.colls.length < 256 →
         exec i s = .next (((u.raiseColl w g).stallCtl w (.coll true)).enterPost
           ((u.collRec false g k (some j)).getD
             { job := none, fence := false, group := g, k := k, top := bitsOf word 34 32, shape := sh })
           w j x (bitsOf word 34 32) sh vals))
       ∧ (∀ d, u.decisionOf false g k j = some d → d.status = 0 → d.written.contains w.val = true →
           c.pc + 1 < (s.well w).plen → exec i s = .next ((u.raiseColl w g).ctlGoes w (c.pc + 1))))
  ∧ (∀ (s : State) (w : WellId) (ev : EccEv) (word : Word) (j : Nat) (x : Job),
       ev ≠ .uncorrectable → s.ctlAt w word →
         let u := s.checked w ev
         let c := (s.well w).cx
         let n := (s.well w).fences
         u.wellJob w = some (j, x) →
         (cKind word = some .fencePart → u.wellDone w = true → s.colls.length < 256 →
           exec (.fencePartition w ev) s
             = .next (((u.setWell w { s.well w with fences := n + 1 }).stallCtl w (.fencePart true)).enterPost
                 ((u.collRec true 0 n (some j)).getD
                   { job := some j, fence := true, group := 0, k := n, top := 0, shape := 0 }) w j x 0 0 []))
         ∧ (cKind word = some .fencePart → u.wellDone w = false →
           exec (.fencePartition w ev) s = .next (u.stallCtl w (.fencePart false)))
         ∧ (∀ ws, cKind word = some .checkpoint →
             u.cpWords (u.ctlCtx w) (c.get (bitsOf word 50 46)).toNat = .ok ws →
             (parseCpList (c.get (bitsOf word 50 46)).toNat ws).isSome = true →
             (∀ v ∈ x.wells, ∀ pass list, (s.well v).ctl = .stalled → (s.well v).cx.wait = .checkpoint pass list →
               pass = (c.get (bitsOf word 55 51)).toNat) →
           exec (.checkpoint w ev) s
             = .next (u.stallCtl w
                 (.checkpoint (c.get (bitsOf word 55 51)).toNat (c.get (bitsOf word 50 46)).toNat))))
  ∧ (∀ (s : State) (i : Nat) (c : Coll), s.colls[i]? = some c →
       (∀ t0, c.started = some t0 → c.aborted = none → t0 + c.deadline ≤ s.now →
         ((c.fence = true ∨ c.top = 0 ∨ s.upStage c.group c.top = none) →
           exec (.collDeadlineExpiry i) s = .next (s.settle c 1 []))
         ∧ (∀ st, c.fence = false → c.top ≠ 0 → s.upStage c.group c.top = some st →
           ∃ t, exec (.collDeadlineExpiry i) s = .next t
             ∧ t.colls = s.colls.set i { c with aborted := some s.now }
             ∧ { t with links := s.links, colls := s.colls } = s))
       ∧ (∀ t0, c.aborted = some t0 → t0 + c.grace ≤ s.now →
         exec (.collGraceExpiry i) s
           = .next ({ s with colls := s.colls.erase c }.complete
               { job := c.job, fence := c.fence, group := c.group, k := c.k, top := c.top, shape := c.shape, status := 1 })))

/-- A tile or vector data instruction whose operands can be read does its work on its run, counts its guard counts and a
corrected pillow error, or the error of a cistern block that it reads, and the run goes on to its next place in the
template (R140, R169, R173, R397, R399). It stores nothing itself: what STT and PST write leaves through the store queue
(R144). -/
def Obligations.TileInstructionsComplete : Prop :=
  ∀ (s : State) (i : Instr) (w : WellId) (p : PhysId) (ev : EccEv) (kind : TKind) (f : State → Run → Word → TOut)
      (word : Word) (r r' : Run) (u : State),
    tileInstr i = some (w, p, ev, kind, f) → ev ≠ .uncorrectable → s.bobAt w p r word → tDecode word = some kind →
    (kind.borderOnly = true → isBorder p = true) → f (s.metBlock ev) r word = .ok (r', u) →
      exec i s = .next (((u.pillowChecked w ev).countGuard w r.counts r'.counts).doneRun w p r')
      ∧ u.cistern = s.cistern ∧ u.reservoir = s.reservoir ∧ u.aquifer = s.aquifer ∧ u.hostMem = s.hostMem
      ∧ u.wells = s.wells ∧ u.jobs = s.jobs ∧ otherBobs s u w p

/-- Once an attempt knows its scale, its products and its epilogue instructions read no memory, so that they always run
(R196, R205, R227). -/
def Obligations.EpilogueReadsNoMemory : Prop :=
  ∀ (s : State) (i : Instr) (w : WellId) (p : PhysId) (ev : EccEv) (kind : TKind) (f : State → Run → Word → TOut)
      (word : Word) (r : Run),
    tileInstr i = some (w, p, ev, kind, f) → ev ≠ .uncorrectable → s.bobAt w p r word → tDecode word = some kind →
    (kind.borderOnly = true → isBorder p = true) → (kind.epilogue = true ∨ kind = .mma) → r.pil.c.isSome = true →
      ∃ t r', exec i s = .next t ∧ (t.bob w p).run = some (Run.advance r') ∧ r'.idx = r.idx ∧ r'.rep = r.rep
        ∧ r'.b = r.b ∧ otherBobs s t w p
        ∧ accessed ((s.metBlock ev).pillowChecked w ev) { t with bobs := s.bobs }

/-- ADDV adds to every accumulator of its set the element of its vector for the accumulator's column, rounded once, and
leaves every other accumulator (R227, R232). -/
def Obligations.AddvAddsItsVector : Prop :=
  ∀ (s u : State) (w : WellId) (r r' : Run) (word : Word),
    let v := r.vec word
    (∀ n ∈ v.set, n < 16 ∧ r.pil.scaled.getLsbD n = true) → State.addv w s r word = .ok (r', u) →
      (∀ n ∈ v.set, ∀ i j, i < 64 → j < 128 →
        r'.pil.zGet n i j = fadd (r.pil.zGet n i j) (r.pil.vec v.fmt v.ps1 (tileCol n j)))
      ∧ (∀ n i j, n < 16 → n ∉ v.set → i < 64 → j < 128 → r'.pil.zGet n i j = r.pil.zGet n i j)
      ∧ r'.pil.bytes = r.pil.bytes ∧ r'.counts = r.counts

/-- MMA adds to accumulator (i, j) of its M by N tile the products of row i and column j, block by block in ascending K
order, and leaves every other accumulator and every pillow byte (R206 to R208). -/
def Obligations.MmaAccumulatesItsTile : Prop :=
  ∀ (s u : State) (w : WellId) (r r' : Run) (word : Word) (c : Word32),
    r.pil.c = some c → State.mma w s r word = .ok (r', u) →
      let slot := r.slot (bitOf word 27)
      let row := r.pil.line (r.fmt word 0) (slot (bitsOf word 47 43)) (slot (bitsOf word 42 38)) (bitsOf word 6 0 + 1)
      let col := r.pil.line (r.fmt word 1) (slot (bitsOf word 37 33)) (slot (bitsOf word 32 28)) (bitsOf word 6 0 + 1)
      (∀ i j, i ≤ bitsOf word 23 16 → j ≤ bitsOf word 15 7 →
        r'.pil.tile i j = dotBlocks (r.pil.tile i j) (row i) (col j))
      ∧ (∀ i j, i < 256 → j < 512 → (bitsOf word 23 16 < i ∨ bitsOf word 15 7 < j) → r'.pil.tile i j = r.pil.tile i j)
      ∧ r'.pil.bytes = r.pil.bytes

/-- The instructions of a bobbin that need no operand: ZCLR clears the slots of its mask, SMX INIT sets its state vectors,
GUARD writes its counts into its slot, SIG raises the home event of its stitch once older stores and requests are done,
WAITS goes on or waits (R160, R209, R243, R248, R250, R251). A WAITS that waits goes on once its event counter has
reached its count, and past the limit below its count, unless its job is pre-empted, its stitch ends and its job with
INTERNAL, recorded in WL_EVT_STAT (R251, R252, R257).
END keeps an attempt that does not trigger, or cannot: its stitch leaves the bobbin, to complete when its stores and
requests are done. An attempt that triggers under stitch scope below its last rung runs again on the same bobbin one
rung up, from the template's start, and its job counts as widened; what it has written is undefined, and no other byte of memory
changes (R118, R119, R120, R121, R127, R254).
Where a step reads device scratch, its block is sound (R399). -/
def Obligations.BobbinControlCompletes : Prop :=
  (∀ (s : State) (w : WellId) (p : PhysId) (r : Run) (word : Word),
     s.bobAt w p r word →
       (tDecode word = some .zclr →
         exec (.zclr w p) s = .next (s.doneRun w p
           { r with pil := ((List.range 16).filter (fun n => bitOf word n)).foldl Pillow.zClear r.pil }))
       ∧ (tDecode word = some (.smx 0) →
         ∃ t, exec (.smxInit w p) s = .next t
           ∧ (t.bob w p).run = some (Run.advance { r with pil := r.pil.smxInit (r.vec word).pd })
           ∧ otherBobs s t w p ∧ accessed s { t with bobs := s.bobs })
       ∧ (tDecode word = some .guard →
         let rec_ := [r.counts.clamp, r.counts.edge, r.accPend, r.counts.score, r.counts.out, r.rung, r.attempt, r.rep]
         ∃ t, exec (.guard w p) s = .next t
           ∧ (t.bob w p).run = some (Run.advance { r with pil := r.pil.guardOut (bitsOf word 47 44) rec_ })
           ∧ otherBobs s t w p ∧ accessed s { t with bobs := s.bobs })
       ∧ (tDecode word = some .sig → s.storesDone w p r = true → s.reqsDone r = true →
           s.scratchOk r.b.home (eventAt r.b.slot (bitsOf word 47 32)) = true →
         ∃ t, exec (.sig w p) s = .next t
           ∧ t.event r.b.home r.b.slot (bitsOf word 47 32)
               = (if r.reqNo < r.b.entry.issued then s.event r.b.home r.b.slot (bitsOf word 47 32)
                  else min (s.event r.b.home r.b.slot (bitsOf word 47 32) + bitsOf word 31 0) (2 ^ 32 - 1))
           ∧ (t.bob w p).run = some (Run.advance { r with reqNo := r.reqNo + 1 })
           ∧ otherBobs s t w p ∧ accessed s { t with bobs := s.bobs, events := s.events })
       ∧ (tDecode word = some .waits → s.scratchOk r.b.home (eventAt r.b.slot (bitsOf word 47 32)) = true →
         let n := bitsOf word 31 0
         let e := bitsOf word 47 32
         (n ≤ s.event r.b.home r.b.slot e → exec (.waits w p) s = .next (s.doneRun w p r))
         ∧ (s.event r.b.home r.b.slot e < n →
           ∃ t, exec (.waits w p) s = .next t ∧ (t.bob w p).run = some { r with waits := some (e, n, s.now) }
             ∧ otherBobs s t w p ∧ { t with bobs := s.bobs, regs := s.regs } = s)))
  ∧ (∀ (s : State) (w : WellId) (p : PhysId) (r : Run) (e n since : Nat),
       (s.bob w p).run = some r → r.waits = some (e, n, since) →
         (s.scratchOk r.b.home (eventAt r.b.slot e) = true → n ≤ s.event r.b.home r.b.slot e →
           exec (.waitsSatisfied w p) s = .next (s.doneRun w p { r with waits := none }))
         ∧ (since + s.evtLimit w < s.now → s.event r.b.home r.b.slot e < n →
             (∀ x, s.job r.b.job = some x → x.phase ≠ .preempting) →
           ∃ t, exec (.waitsLimitExpiry w p) s = .next t ∧ (t.bob w p).run = none ∧ otherBobs s t w p ∧ sameMem s t
             ∧ (bitOf (s.reg (rWlEvtStat w)) 63 = false →
                 t.fld (rWlEvtStat w) 63 63 = 1 ∧ t.fld (rWlEvtStat w) 55 48 = p.val
                   ∧ t.fld (rWlEvtStat w) 47 32 = e % 65536 ∧ t.fld (rWlEvtStat w) 31 0 = n % 2 ^ 32)
             ∧ ∀ x, s.job r.b.job = some x → x.status = none → x.phase ≠ .committed →
                 t.job r.b.job = some { x with status := some 0x7F, addr := 0, phase := .stopping }))
  ∧ (∀ (s : State) (w : WellId) (p : PhysId) (r : Run) (word : Word),
       s.bobAt w p r word → tDecode word = some .end_ →
         let hit := r.endCounts.over r.b.guard
         (hit = false →
           ∃ t, exec (.endOp w p) s = .next t ∧ (t.bob w p).run = none
             ∧ (t.bob w p).leaving = (s.bob w p).leaving ++
                 [{ entry := r.back, job := r.b.job, home := r.b.home, slot := r.b.slot, wrec := r.b.wrec,
                    prick := r.b.prick, tmpl := r.b.tmpl, point := r.b.point, lastStore := r.lastStore,
                    reqs := r.reqs }]
             ∧ otherBobs s t w p ∧ accessed s { t with bobs := s.bobs, wells := s.wells }
             ∧ ∀ v, t.well v = if v = r.b.home then
                 { s.well v with layer := { (s.well v).layer with outs := (s.well v).layer.outs ++ r.outs } }
               else s.well v)
         ∧ (hit = true → r.rung < r.b.dlast → guardScope r.b.guard = 0 →
           ∃ t seed, exec (.endOp w p) s = .next t
             ∧ (t.bob w p).run = some (r.fresh seed (r.rung + 1) (r.attempt + 1))
             ∧ (∀ x, s.job r.b.job = some x → t.job r.b.job = some { x with widened := true })
             ∧ otherBobs s t w p ∧ t.wells = s.wells
             ∧ let u := s.readVia w (s.runCtx r) (tmplAddr r.b.tmpl r.idx) 8
               sameMem (u.undefVas (u.runCtx r) r.outs) t))

/-- A reserved encoding at a bobbin's place ends its stitch with CAUSE 0x5 and its job with INTERNAL, whatever instruction
the command named, and so does a border-only variant on a regular bobbin; no byte of memory changes (R161, R162). -/
def Obligations.ReservedTileWordEndsTheJob : Prop :=
  ∀ (s : State) (i : Instr) (w : WellId) (p : PhysId) (kind : TKind) (r : Run) (word : Word),
    tileKind i = some (w, p, kind) → s.bobAt w p r word →
    (tDecode word = none ∨ tDecode word = some kind ∧ kind.borderOnly = true ∧ isBorder p = false) →
    bitOf (s.reg (rWlBobExc w)) 63 = false →
      ∃ t, exec i s = .next t ∧ (t.bob w p).run = none ∧ otherBobs s t w p ∧ sameMem s t
        ∧ t.fld (rWlBobExc w) 63 63 = 1 ∧ t.fld (rWlBobExc w) 62 62 = s.fld (rWlBobExc w) 62 62 ∧ t.fld (rWlBobExc w) 51 48 = 5 ∧ t.fld (rWlBobExc w) 47 40 = p.val
        ∧ t.fld (rWlBobExc w) 31 16 = r.idx % 65536 ∧ t.fld (rWlBobExc w) 15 8 = 0x7F
        ∧ ∀ x, s.job r.b.job = some x → x.status = none → x.phase ≠ .committed →
            ∃ y, t.job r.b.job = some y ∧ y.status = some 0x7F ∧ y.phase = .stopping

/-- An idle bobbin takes the head of its deque and begins it: bound by its descriptor, at its starting rung, at the first
instruction of its template (R168, R308, R315). A thief that finds no entry it may take counts its probe, the 127th
ending the sweep, after which it waits; one that finds one takes the tail entry of the deque it probes (R316, R317).
Where a step reads device scratch, its block is sound (R399). -/
def Obligations.BobbinsTakeAndStealStitches : Prop :=
  (∀ (s : State) (w : WellId) (p : PhysId) (j l v : Nat) (e : DeqEntry) (rest : List DeqEntry) (d : Word) (b : Binding),
     s.idleBob w p = true → s.wellRuns w = true → (s.well w).job = some j → l = s.logOf w p →
     s.takeFrom w l = some v → s.deque w v = e :: rest → s.foreignRoom w e = true → eligible p e = true →
     unguard64 e.gw = some d → s.scratchOk (sdHome d) (wrecAt (s.slotOf j (sdHome d)) (sdWrec d)) = true →
       let q := s.setDeque w v rest
       let stub : Run := { b := { entry := e, job := j, well := w } }
       (q.setBob w p { q.bob w p with run := some stub, probes := 0, swept := false }).bindStitch w j e d = .ok b →
         ∃ t seed, exec (.stitchTake w p) s = .next t
           ∧ (t.bob w p).run = some (({ b := b, reqs := e.reqs } : Run).fresh seed
               (min (((s.job j).map Job.layerRung).getD 0) b.dlast) 0)
           ∧ t.deque w v = rest ∧ (∀ x m, m < 128 → v < 128 → ¬(x = w.val ∧ m = v) → t.deque x m = s.deque x m)
           ∧ otherBobs s t w p ∧ sameMem s t ∧ t.wells = s.wells ∧ t.jobs = s.jobs)
  ∧ (∀ (s : State) (w : WellId) (p : PhysId),
       s.idleBob w p = true → s.wellRuns w = true → s.deque w (s.logOf w p) = [] → s.fld (rWlStealCtl w) 0 0 = 1 →
       (s.bob w p).swept = false →
         let v := (s.logOf w p + (s.bob w p).probes + 1) % 128
         ((∀ e, (s.deque w v).getLast? = some e → (eligible p e && s.foreignRoom w e) = false) →
           ∃ t, exec (.stealProbe w p) s = .next t
             ∧ t.bob w p = { s.bob w p with
                 probes := ((s.bob w p).probes + 1) % 127, swept := decide (126 ≤ (s.bob w p).probes) }
             ∧ otherBobs s t w p ∧ { t with bobs := s.bobs } = s)
         ∧ (∀ e, (s.deque w v).getLast? = some e → (eligible p e && s.foreignRoom w e) = true →
           exec (.stealProbe w p) s
             = State.startStitch s (((s.setDeque w v (s.deque w v).dropLast).incFld (rWlStealStat w) 63 32 1).countEv
                 w 0x07 1) w p e))

/-- A request of a well without work always runs: it asks for the work of the well with most queued entries, which moves at
most sixteen of them, each the tail of a deque of its own to a deque of its own, marked foreign; with no such well nothing
changes (R320 to R322). -/
def Obligations.CrossWellStealMovesEntries : Prop :=
  ∀ (s : State) (w : WellId),
    s.wellRuns w = true → s.queued w = 0 → 16 ≤ (s.idleLogs w).length → s.fld (rWlStealCtl w) 1 1 = 1 →
      ∃ t, exec (.crossWellStealRequest w) s = .next t
        ∧ (s.victim w = none → t = s)
        ∧ ∀ v, s.victim w = some v →
          (∀ x l, l < 128 → x ≠ v → x ≠ w.val → t.deque x l = s.deque x l)
          ∧ (∀ l, l < 128 → ∃ es, t.deque w l = s.deque w l ++ es ∧ es.length ≤ 1 ∧ ∀ e ∈ es, e.foreign = true)
          ∧ (∀ l, l < 128 → ∃ es, s.deque v l = t.deque v l ++ es ∧ es.length ≤ 1)
          ∧ t.queued w = s.queued v - t.queued v ∧ t.queued w ≤ 16
          ∧ (∀ x q, t.bob x q = s.bob x q ∨ t.bob x q = { s.bob x q with swept := false })
          ∧ { t with deques := s.deques, bobs := s.bobs, regs := s.regs } = s

/-- The oldest store entry of a bobbin with no translation miss outstanding becomes visible: its bytes are written where its
address translates to, and it leaves the queue, in which an entry that waited for room takes its place; every other bobbin
stays (R144, R145, R441). A stitch that left its bobbin completes once its store
entries and requests are done: its walk has one stitch less outstanding (R147, R215, R323).
Where a step reads device scratch, its block is sound (R399). -/
def Obligations.StitchesDrainAndComplete : Prop :=
  (∀ (s u : State) (w : WellId) (p : PhysId) (e : StoreEntry) (rest : List StoreEntry),
     (s.bob w p).storeQ = e :: rest →
     s.reqOverlap (((s.bob w p).reqsOf e.id).filter (· < e.id)) [(e.va, e.data.length)] = false →
     s.missing w p = false → s.drain (viaQ w (s.ctxOf e.job)) e = .ok u →
       ∃ t, exec (.storeEntryVisible w p) s = .next t ∧ sameMem u t
         ∧ (t.bob w p).storeQ = rest ++ ((s.bob w p).run.elim [] Run.toStore).take 1
         ∧ (t.bob w p).run = (s.bob w p).run.map (fun r => { r with toStore := r.toStore.drop 1 })
         ∧ (t.bob w p).leaving = (s.bob w p).leaving ∧ otherBobs s t w p
         ∧ t.wells = s.wells ∧ t.jobs = s.jobs)
  ∧ (∀ (s : State) (w : WellId) (p : PhysId) (l : Leaving),
       (s.bob w p).leaving.find? (s.allVisible (s.bob w p)) = some l → s.scratchOk l.home (wrecAt l.slot l.wrec) = true →
         ∃ t, exec (.stitchCompletion w p) s = .next t
           ∧ t.bob w p = { s.bob w p with leaving := (s.bob w p).leaving.erase l } ∧ otherBobs s t w p
           ∧ t.wrec l.home l.slot l.wrec
               = { s.wrec l.home l.slot l.wrec with open_ := (s.wrec l.home l.slot l.wrec).open_ - 1 }
           ∧ { t with bobs := s.bobs, walkRecs := s.walkRecs, splits := s.splits } = s)

/-- A bobbin fenced by its watchdog or by WL_BOB_CMD is FENCED at once: it runs nothing, and its store queue is discarded
(R153, R161, R164). WL_BOB_CMD: a write with BUSY set is ignored; a bobbin above 135 or in a state that the command does
not allow completes with RESULT 1 and changes nothing else; TEST takes a FENCED bobbin to TESTING with BUSY set, its end
back to FENCED with its verdict, and RELEASE a FENCED bobbin that passed to SPARE (R152, R164). At quiescence a vacant
logical number is mapped to a spare, which is then IN_USE and not yet admitted (R154). A group of bobbins is powered 2
µs per group after the start of exit from W1 and admitted 8 µs per group after the ramp start (R157, R158). -/
def Obligations.BobbinsAreFencedAndMapped : Prop :=
  (∀ (s : State) (w : WellId) (p : PhysId),
     (s.bobState w p = 0 →
       ∃ t, exec (.bobbinWatchdogExpiry w p) s = .next t ∧ t.bobState w p = 2 ∧ (t.bob w p).run = none
         ∧ (t.bob w p).storeQ = [] ∧ sameMem s t
         ∧ t.fld (rWlBobEcc w) 15 0 = min (s.fld (rWlBobEcc w) 15 0 + 1) 65535)
     ∧ (s.fld (rWlBobCmd w) 31 31 = 0 → s.bobState w p ≠ 3 →
       ∃ t, exec (.bobCmdFence w (BitVec.ofNat 8 p.val)) s = .next t ∧ t.bobState w p = 2 ∧ (t.bob w p).run = none
         ∧ (t.bob w p).storeQ = [] ∧ sameMem s t
         ∧ t.fld (rWlBobCmd w) 31 31 = 0 ∧ t.fld (rWlBobCmd w) 15 8 = p.val))
  ∧ (∀ (s : State) (w : WellId) (b : Byte),
       let phys := b.toNat
       (s.fld (rWlBobCmd w) 31 31 = 1 →
         exec (.bobCmdFence w b) s = .next s ∧ exec (.bobCmdTest w b) s = .next s ∧ exec (.bobCmdRelease w b) s = .next s)
       ∧ (s.fld (rWlBobCmd w) 31 31 = 0 →
         let refused := s.setReg (rWlBobCmd w) (BitVec.ofNat 64 (2 ^ 28 + phys * 2 ^ 8))
         ((135 < phys ∨ s.bobState w phys = 3) → exec (.bobCmdFence w b) s = .next refused)
         ∧ ((135 < phys ∨ s.bobState w phys ≠ 2) → exec (.bobCmdTest w b) s = .next refused)
         ∧ ((135 < phys ∨ s.bobState w phys ≠ 2 ∨ (s.bob w phys).passedTest = false) →
             exec (.bobCmdRelease w b) s = .next refused)
         ∧ (phys ≤ 135 → s.bobState w phys = 2 →
           (∃ t, exec (.bobCmdTest w b) s = .next t ∧ t.bobState w phys = 3 ∧ { t with regs := s.regs } = s
             ∧ t.reg (rWlBobCmd w) = BitVec.ofNat 64 (2 ^ 31 + phys * 2 ^ 8))
           ∧ ((s.bob w phys).passedTest = true →
             ∃ t, exec (.bobCmdRelease w b) s = .next t ∧ t.bobState w phys = 1
               ∧ { t with regs := s.regs, bobs := s.bobs } = s
               ∧ t.reg (rWlBobCmd w) = BitVec.ofNat 64 (phys * 2 ^ 8))))
       ∧ (∀ pass, s.fld (rWlBobCmd w) 31 31 = 1 → s.fld (rWlBobCmd w) 15 8 ≤ 135 →
           s.bobState w (s.fld (rWlBobCmd w) 15 8) = 3 →
         ∃ t, exec (.bobTestDone w pass) s = .next t ∧ t.bobState w (s.fld (rWlBobCmd w) 15 8) = 2
           ∧ (t.bob w (s.fld (rWlBobCmd w) 15 8)).passedTest = pass
           ∧ t.fld (rWlBobCmd w) 30 28 = (if pass then 0 else 2) ∧ t.fld (rWlBobCmd w) 31 31 = 0
           ∧ { t with regs := s.regs, bobs := s.bobs } = s))
  ∧ (∀ (s : State) (w : WellId) (g : Fin 8),
       (∀ l p, s.wellQuiet w = true → s.vacancy w = some (l, p) →
         ∃ t, exec (.vacancyMapping w) s = .next t ∧ t.physOf w l = p ∧ t.bobState w p = 0
           ∧ (t.bob w p).admitted = false ∧ { t with regs := s.regs, bobs := s.bobs } = s)
       ∧ (∀ t0, (s.well w).exitAt = some t0 → t0 + 2000 * g.val ≤ s.now →
         ∃ t, exec (.bobbinGroupPowerUp w g) s = .next t ∧ { t with bobs := s.bobs } = s
           ∧ ∀ p, p < 136 → t.bob w p = if (s.groupBobs w g).contains p then { s.bob w p with powered := true } else s.bob w p)
       ∧ (∀ t0, (s.well w).rampAt = some t0 → t0 + 8000 * g.val ≤ s.now →
         ∃ t, exec (.bobbinGroupAdmission w g) s = .next t ∧ { t with bobs := s.bobs } = s
           ∧ ∀ p, p < 136 →
               t.bob w p = if (s.groupBobs w g).contains p then { s.bob w p with admitted := true } else s.bob w p))

/-- An idle cistern unit with no translation miss outstanding whose turn is an item of an operation performs it when its
record and operands can be read, and holds the item with its guard counts until it completes; the item leaves its queue
(R408, R416, R441). -/
def Obligations.CisternUnitsPerformTheirOperation : Prop :=
  ∀ (s t : State) (i : Instr) (w : WellId) (u : Fin 64) (opc var : Nat) (f : OpRun → State → CuArg → CuOut)
      (x : CuUnit) (id n c e : Nat) (op : OpRun) (g : Option Word) (a : CuArg),
    cuInstr i = some (w, u, opc, var, f) → (s.unit w u).cur = none → (s.unit w u).next = some (.op id n, x) →
    s.op id = some op → opOpc op.words = opc → opVar op.words = var → s.missing w (146 + u) = false →
    s.cuArg id n op = .ok a → s.opGuardEntry a.ctx op.words = .ok g → f op s a = .ok (t, c, e) →
      ∃ t', exec i s = .next t'
        ∧ t'.unit w u = { x with cur := some (.op id n, c, e) }
        ∧ (∀ v k, k < 64 → ¬(v = w.val ∧ k = u.val) → t'.unit v k = t.unit v k)
        ∧ { t' with units := t.units, regs := t.regs } = t

/-- A pump issues the items of its operation in order, each to the unit that R413 chooses, while fewer than eight are
outstanding there; the last item to complete ends the operation and frees its pump, and a request whose last item
completes is complete, further rows entering the queues as they have room (R413, R415 to R418). The first split point of
the well's job whose partials are complete and whose combine this well runs is combined once, its rows entering the units'
queues one combine at a time, and a unit performs its rows: the sum of the partials written to the destination (R298, R326,
R327, R416). Where a step reads device scratch, its block is sound (R399). -/
def Obligations.CisternItemsIssueAndComplete : Prop :=
  (∀ (s : State) (w : WellId),
     (∀ (n : Fin 8) id op a, (s.pump w n).state = 1 → (s.pump w n).op = some id → s.op id = some op →
         s.mayIssue op.job = true → op.issued < op.total → s.cuArg id op.issued op = .ok a →
         let v := s.itemUnit w op a
         (s.unit w v).outstanding id < 8 → (s.unit w v).opQ.length < 8 →
       ∃ t, exec (.cuItemIssue w n) s = .next t
         ∧ t.unit w v = { s.unit w v with opQ := (s.unit w v).opQ ++ [.op id op.issued] }
         ∧ t.op id = some { op with issued := op.issued + 1 }
         ∧ t.pump w n = { s.pump w n with issued := (s.pump w n).issued + 1 }
         ∧ { t with units := s.units, ops := s.ops, pumps := s.pumps } = s)
     ∧ (∀ (u : Fin 64) id i c e op n, (s.unit w u).cur = some (.op id i, c, e) → s.op id = some op →
         s.pumpOf w id = some n → s.scratchOk w (markAt (s.slotOf op.job w) n) = true →
       ∃ t, exec (.cuItemComplete w u) s = .next t ∧ t.unit w u = { s.unit w u with cur := none }
         ∧ (op.done_ + 1 < op.total →
             t.op id = some { op with done_ := op.done_ + 1, clamps := satCount op.clamps c, edges := satCount op.edges e }
               ∧ t.pump w n = { s.pump w n with mark := op.done_ + 1 })
         ∧ (op.total ≤ op.done_ + 1 → t.op id = none ∧ t.pump w n = {} ∧ t.fld (rWlPumpStat w) n n = 0)
         ∧ sameMem s t ∧ t.jobs = s.jobs)
     ∧ (∀ (u : Fin 64) (x : CuUnit) id i q v c e, (s.unit w u).cur = none → (s.unit w u).next = some (.bob id i, x) →
         (s.reqs.find? (fun y => y.1 == id)).map Prod.snd = some q → s.missing w (146 + u) = false →
         s.bobRow q i = .ok (v, c, e) →
       exec (.cuItemComplete w u) s = .next ((((v.setUnit w u x).countItem w).lessReq id).feedReqs w)))
  ∧ (∀ (s : State) (w : WellId) (u : Fin 64),
       (∀ j x (t : SplitTrack) pk c, s.wellJob w = some (j, x) → s.openComb w = none →
           s.readyHere w j x = some (.ok (t, pk)) →
           s.combOf (viaQ w (s.ctxOf j)) t x pk (x.rank w) = .ok (some c) →
         ∃ v, exec (.splitCombineIssue w) s = .next v
           ∧ (∃ op, v.op s.nextId = some op ∧ op.comb = some c ∧ op.job = j ∧ op.total = c.rows.length
               ∧ op.guard = some pk.guard ∧ op.rung = x.layerRung)
           ∧ v.splits = s.splits.map (fun y => if y = t then { y with combine := some s.nextId } else y)
           ∧ v.nextId = s.nextId + 1 ∧ (∀ id, id ≠ s.nextId → v.op id = s.op id)
           ∧ { v with ops := s.ops, splits := s.splits, units := s.units, nextId := s.nextId } = s)
       ∧ (∀ x id n op c t cl ed, (s.unit w u).cur = none → (s.unit w u).next = some (.comb id n, x) →
           s.op id = some op → op.comb = some c → s.missing w (146 + u) = false →
           s.combRow (s.cuCtx w op.job) op.rung c n = .ok (t, cl, ed) →
         exec (.splitCombine w u) s
           = .next (((t.setUnit w u { x with cur := some (.comb id n, cl, ed) }).feedComb w).countEv w 0x0A (c.steps n))))

/-- A refresh leaves every byte; a scrub leaves a clean block, counts a corrected error, and poisons an uncorrectable block,
which it counts and records; a written cache size takes effect on a well without a job, its cache written back (R396 to
R399, R402). -/
def Obligations.CisternUpkeepKeepsBytes : Prop :=
  ∀ (s : State) (w : WellId) (block : Nat),
    (∀ group bank, exec (.cisternRefresh w group bank) s = .next s)
    ∧ (64 * block < cisternSize →
      exec (.cisternPatrolScrub w block .clean) s = .next s
      ∧ exec (.cisternPatrolScrub w block .corrected) s = .next (s.incFld (rWlCisEcc w) 63 32 1)
      ∧ ∃ t, exec (.cisternPatrolScrub w block .uncorrectable) s = .next t ∧ sameMem s t
          ∧ tabGet false t.poison (blockKey ⟨.cistern w, 64 * block⟩) = true
          ∧ (∀ k, k ≠ blockKey ⟨.cistern w, 64 * block⟩ → tabGet false t.poison k = tabGet false s.poison k)
          ∧ t.fld (rWlCisEcc w) 31 16 = min (s.fld (rWlCisEcc w) 31 16 + 1) 65535
          ∧ (bitOf (s.reg (rWlCisErr w)) 63 = false →
              t.fld (rWlCisErr w) 63 63 = 1 ∧ t.fld (rWlCisErr w) 32 0 = 64 * block))
    ∧ ((s.well w).job = none → s.fld (rWlCisSplit w) 4 4 = 1 →
      ∃ t, exec (.cisternSplitApply w) s = .next t ∧ sameMem s t
        ∧ tabGet 4 t.caches w = min (s.fld (rWlCisSplit w) 3 0) 8 ∧ t.fld (rWlCisSplit w) 4 4 = 0
        ∧ (∀ l, t.lineSt w l = none) ∧ ∀ v, v ≠ w.val → tabGet 4 t.caches v = tabGet 4 s.caches v)

/-- At the end of a layer that needs its combination, with every controller of the partition at its end: a trigger below the
last rung replays the layer one rung up on every well, and what its stitches have written is undefined; without one, or at
the last rung, the layer is over, and the attempts and operations that still exceed a threshold are counted (R120, R122,
R123, R128). -/
def Obligations.LayersReplayOrClose : Prop :=
  ∀ (s : State) (j : Nat) (x : Job),
    s.job j = some x → x.phase = .running → x.wells.Nodup → s.layerEnds x = true → s.layersSettled j = false →
      let last := ((x.wells.map (fun w => (s.well w).layer)).filter (fun l => !l.items.isEmpty)).foldl
        (fun n l => min n l.last) 3
      let hits (w : Nat) : Nat := (s.well w).layer.hits + (s.well w).layer.cuHits
      (((∃ w ∈ x.wells, 0 < hits w) ∧ x.layerRung < last) →
        ∃ t, exec (.layerTriggerCombine j) s = .next t
          ∧ t.job j = some { x with layerRung := x.layerRung + 1, widened := true }
          ∧ (∀ w ∈ x.wells, (t.well w).layer
              = { (s.well w).layer with hits := 0, cuHits := 0, outs := [], replay := (s.well w).layer.items })
          ∧ sameMem (x.wells.foldl (fun u w => u.undefVas (s.ctxOf j) (s.well w).layer.outs) s) t
          ∧ { t with jobs := s.jobs, wells := s.wells, regs := s.regs, fresh := s.fresh, cistern := s.cistern,
                     reservoir := s.reservoir, aquifer := s.aquifer, hostMem := s.hostMem } = s)
      ∧ (((∀ w ∈ x.wells, hits w = 0) ∨ last ≤ x.layerRung) →
        ∃ t, exec (.layerTriggerCombine j) s = .next t ∧ t.job j = some { x with layerRung := 0 }
          ∧ (∀ w ∈ x.wells, (t.well w).layer = { guard := (s.well w).layer.guard }
              ∧ t.fld (rWlGuardStat w) 31 16 = min (s.fld (rWlGuardStat w) 31 16 + hits w) 65535)
          ∧ { t with jobs := s.jobs, wells := s.wells, regs := s.regs } = s)

/-- What a translation that succeeds allows: the address lies in the unified range, its leaf names the tier, a read needs R,
a write needs W and no LOCKED, a job's context reaches a cistern only of its own wells, and there only job scratch; and
with a well-formed leaf, as every leaf is that the tables give, the byte exists in its tier (R424, R430, R431, R433,
R434). -/
def Obligations.TranslationRespectsTheLeaf : Prop :=
  ∀ (s : State) (ctx va : Nat) (write : Bool) (l : Loc),
    s.translate ctx va write = .ok l →
      65536 ≤ va ∧ va < 2 ^ 56
      ∧ ∃ leaf, s.leafOf ctx va write = .ok leaf ∧ leafTier leaf.val = some l.tier
          ∧ l.addr = leafFrame leaf.val + va % leaf.page ∧ bitOf leaf.val 56 = false
          ∧ (write = false → bitOf leaf.val 58 = true)
          ∧ (write = true → bitOf leaf.val 57 = true ∧ bitOf leaf.val 55 = false)
          ∧ (∀ w, l.tier = .cistern w →
              devScratch ≤ l.addr ∧ l.addr < cisternSize - s.cacheBytes w
                ∧ (ctxNo ctx < 12 → (s.partWells (ctxNo ctx)).contains w = true))
          ∧ (leafMalformed leaf.val leaf.level = false → l.addr < l.tier.size ∧ ∀ w, l.tier = .cistern w → w < 12)
          ∧ ((ctxQ ctx).bind (fun q => s.tlbFind q (ctxNo ctx) va) = none →
              leafMalformed leaf.val leaf.level = false)

/-- A read or write that reaches bytes ends in them: bytes written within one page at addresses that translate are read
back, and no other byte of a tier changes (R12, R424). -/
def Obligations.VirtualStoreIsReadBack : Prop :=
  ∀ (s t : State) (ctx va : Nat) (bs : List Byte) (l : Loc),
    0 < bs.length → va % 65536 + bs.length ≤ 65536 → s.translate ctx va true = .ok l → s.writeVa ctx va bs = .ok t →
      stored s t l bs ∧ { t with cistern := s.cistern, reservoir := s.reservoir, aquifer := s.aquifer,
                                 hostMem := s.hostMem, poison := s.poison, regs := s.regs } = s

/-- A move whose leaf passes its check: once its accesses have drained one of the migration pumps copies it and its leaf reads
COPYING; its end copies the page to the new frame, whose place the leaf then gives with PHASE 0 and no T, the old frame is
free, and the move is counted (R38, R448, R464). -/
def Obligations.MovesCopyTheirPage : Prop :=
  ∀ (s : State) (n : Nat) (m : Move),
    s.engine.moves[n]? = some m →
      (∀ k v, m.copying = false → s.movePump = some k → s.leafGet m.at_ = .ok v →
        ∃ t, exec (.moveDrainDone n) s = .next t
          ∧ t.engine = { s.engine with moves := s.engine.moves.set n { m with copying := true, pump := some k } }
          ∧ t.leafAt m.at_ = leafPhase v 2
          ∧ (∀ a, a < m.at_ ∨ m.at_ + 16 ≤ a → memGet t.reservoir a = memGet s.reservoir a)
          ∧ t.cistern = s.cistern ∧ t.aquifer = s.aquifer ∧ t.hostMem = s.hostMem ∧ t.jobs = s.jobs)
      ∧ (∀ v, m.copying = true → s.copyJudge m.va m.src m.dst m.size = .ok () → s.leafGet m.at_ = .ok v →
          (m.dst.tier ≠ .reservoir ∨ m.at_ + 16 ≤ m.dst.addr ∨ m.dst.addr + m.size ≤ m.at_) →
        ∃ t, exec (.moveCopyComplete n) s = .next t
          ∧ t.engine = { s.engine with moves := s.engine.moves.erase m }
          ∧ t.leafAt m.at_ = leafPhase (leafPlace v m.dst) 0
          ∧ t.rawRead m.dst m.size = s.rawRead m.src m.size
          ∧ t.fld rMgStat 63 32 = min (s.fld rMgStat 63 32 + 1) (2 ^ 32 - 1) ∧ t.wells = s.wells)

/-- MIG puts its request behind those of the migration engine and goes on while its partition has fewer than 64; with 64 the
controller stalls (R273, R466, R467). The migration engine serves a PIN or an UNPIN by the PIN bit of the leaf, whose
page the translation buffers drop first (R438), and begins the move a PREFETCH or DEMOTE asks for (R464, R466). An automatic promotion enters a page whose
count has reached the threshold behind the engine's requests and clears its count; the window's end clears every count
(R468). -/
def Obligations.MigrationRequestsAreServed : Prop :=
  (∀ (s : State) (i : Instr) (w : WellId) (ev : EccEv) (kind : CKind) (op : Nat) (word : Word) (j : Nat) (x : Job),
     migInstr i = some (w, ev, kind, op) → ev ≠ .uncorrectable → s.ctlAt w word → cKind word = some kind →
       let u := s.checked w ev
       let c := (s.well w).cx
       let lo := (c.get (bitsOf word 55 51)).toNat
       u.wellJob w = some (j, x) →
       (u.migCount (u.ctxOf j) < 64 → c.pc + 1 < (s.well w).plen →
         ∃ t, exec i s = .next t
           ∧ t.engine = { s.engine with queue := s.engine.queue ++
               [{ job := j, part := u.ctxOf j, well := w, op := op, tier := bitsOf word 2 0, lo := lo,
                  hi := min (lo + (c.get (bitsOf word 50 46)).toNat) (2 ^ 56) }] }
           ∧ t.well w = { s.well w with ctl := .running, cx := { c with pc := c.pc + 1, wait := .none } }
           ∧ (∀ v, v ≠ w.val → t.well v = s.well v)
           ∧ { t with wells := s.wells, engine := s.engine, regs := s.regs } = s)
       ∧ (64 ≤ u.migCount (u.ctxOf j) → exec i s = .next (u.stallCtl w .mig)))
  ∧ (∀ (s : State) (r : MigReq) (l : Leaf) (n : Nat),
       s.engine.queue = [r] → s.nextReq = some r → s.migPage r = (some l, n) → r.lo < r.hi → r.hi ≤ n →
         (r.op = 2 → exec .migrationMoveStart s
             = .next ((s.putLeaf r.part (l.pageVa r.lo) l.at_ (setBits l.val 48 48 1)).migGone r n))
         ∧ (r.op = 3 → exec .migrationMoveStart s
             = .next ((s.putLeaf r.part (l.pageVa r.lo) l.at_ (setBits l.val 48 48 0)).migGone r n))
         ∧ (∀ t, r.op < 2 → r.moves l = true → s.migMove r l = .ok t →
             exec .migrationMoveStart s = .next (t.migGone r n)))
  ∧ (∀ (s : State) (w : WellId) (va : Word),
       (∀ j x l, s.wellJob w = some (j, x) → x.mig.auto_ = true → s.fld rMgCtl 0 0 = 1 → s.fld rMgCtl 47 40 ≠ 0 →
           64 * s.fld rMgCtl 47 40 ≤ tabGet 0 s.engine.fills (fillKey w va.toNat) → s.migCount (s.ctxOf j) < 64 →
           s.leafOf (s.ctxOf j) va.toNat false = .ok l →
         ∃ t, exec (.accessCountPromotion w va) s = .next t
           ∧ t.engine.queue = s.engine.queue ++
               [{ job := j, part := s.ctxOf j, well := w, op := 0, tier := 0, lo := l.pageVa va.toNat,
                  hi := l.pageVa va.toNat + l.page, promo := true }]
           ∧ tabGet 0 t.engine.fills (fillKey w va.toNat) = 0 ∧ { t with engine := s.engine } = s)
       ∧ (s.engine.windowAt + s.windowNs ≤ s.now →
         exec .countWindowClear s = .next { s with engine := { s.engine with fills := [], windowAt := s.now } }))

/-- A requester's miss enters its queue, joins one of the same page, or stalls on a full queue, and stays outstanding until
its walk ends (R440, R441); the shared walkers take the head that has waited longest (R439); a walk that finds a settled
leaf enters it in the buffers of its requesters (R438, R443), and one whose job has ended is discarded (R447). TR_INV: a bound context is refused with RESULT 1 and
nothing invalidated; an unbound one loses its translations, all of them or those of the page at TR_INV_VA, with RESULT
0; contexts 13 to 15 act as no effect (R445, R446). TR_HROOT and its complement are judged at the write of the
complement's high half: a pair that agrees takes effect, after the host context is invalidated; one that does not leaves
the kept value in use, both registers read the kept pair, and GUARD is reported with the writing function (R41, R446). -/
def Obligations.TranslationBuffersFollowWalks : Prop :=
  (∀ s : State,
     (∀ (q : Fin 13) (req : Fin 210) (c : Fin 13) (va : Word), req.val < missReqs q → 65536 ≤ va.toNat →
         va.toNat < 2 ^ 56 → s.missCtx q req c = true → s.missing q req = false → s.tlbHas q c va.toNat = false →
       ∃ t, exec (.translationMiss q req c va) s = .next t ∧ t.missing q req = true
         ∧ { t with missQs := s.missQs, walkers := s.walkers, nextId := s.nextId, regs := s.regs } = s)
     ∧ (∀ k q m rest, [12, 13, 14, 15].find? (fun k => s.feed.walker k == none) = some k → s.feed.firstHead = some q →
         (s.feed.missQ q).queue = m :: rest →
       exec .sharedWalkerGrant s
         = .next (((s.feed.setWalker k (some (q, m))).setMissQ q { s.feed.missQ q with queue := rest }).stampHead q).feed)
     ∧ (∀ (k : Fin 16) q m l, s.feed.walker k = some (q, m) → m.dead = false →
         s.feed.leafWalk m.ctx (m.page * 65536) false = .ok l → bitOf l.val 56 = false →
       exec (.pageWalkComplete k) s
         = .next (m.queues.foldl (fun u i => u.tlbPut i ⟨m.ctx, m.page * 65536 / l.page * l.page, l.page, l.val⟩)
             ((s.feed.endWalk k).keepPath m.ctx (m.page * 65536))).feed)
     ∧ (∀ (k : Fin 16) q m, s.feed.walker k = some (q, m) → m.dead = true →
       exec (.pageWalkComplete k) s = .next (s.feed.endWalk k).feed))
  ∧ (∀ (s : State) (c : Fin 16),
       ∃ t u, exec (.trInvContext c) s = .next t ∧ exec (.trInvPage c) s = .next u
         ∧ t.fld rTrInv 3 0 = c.val ∧ u.fld rTrInv 3 0 = c.val
         ∧ { t with regs := s.regs, tlb := s.tlb, walkPtrs := s.walkPtrs } = s
         ∧ { u with regs := s.regs, tlb := s.tlb, walkPtrs := s.walkPtrs } = s
         ∧ (s.ctxBound c = true → t.fld rTrInv 30 29 = 1 ∧ u.fld rTrInv 30 29 = 1 ∧ t.tlb = s.tlb
             ∧ t.walkPtrs = s.walkPtrs ∧ u.tlb = s.tlb ∧ u.walkPtrs = s.walkPtrs)
         ∧ (12 < c.val → t.tlb = s.tlb ∧ t.walkPtrs = s.walkPtrs ∧ u.tlb = s.tlb ∧ u.walkPtrs = s.walkPtrs)
         ∧ (c.val ≤ 12 → s.ctxBound c = false → t.fld rTrInv 30 29 = 0 ∧ u.fld rTrInv 30 29 = 0
             ∧ (∀ k e, e ∈ tabGet [] t.tlb k → e.ctx ≠ c.val) ∧ (∀ x ∈ t.walkPtrs, x.ctx ≠ c.val)
             ∧ ∀ k e, e ∈ tabGet [] u.tlb k → e.covers c (s.fld rTrInvVa 55 16 * 65536) = false))
  ∧ (∀ (s : State) (v : Word) (f : Fin 2),
       (s.reg rTrHroot = ~~~v →
         ∃ t, exec (.trHrootJudgingWrite v f) s = .next t ∧ t.hroot = ~~~v ∧ t.reg rTrHroot = ~~~v ∧ t.reg rTrHrootC = v
           ∧ (∀ k e, e ∈ tabGet [] t.tlb k → e.ctx ≠ 12) ∧ sameMem s t)
       ∧ (s.reg rTrHroot ≠ ~~~v →
         ∃ t, exec (.trHrootJudgingWrite v f) s = .next t ∧ t.hroot = s.hroot ∧ t.reg rTrHroot = s.hroot
           ∧ t.reg rTrHrootC = ~~~s.hroot ∧ sameMem s t ∧ t.tlb = s.tlb
           ∧ (bitOf (s.reg (rFcRec (16 * 21 + 1))) 63 = false →
               t.fld (rFcRec (16 * 21 + 1)) 63 63 = 1 ∧ t.fld (rFcRec (16 * 21 + 1)) 26 16 = 64 + f.val
                 ∧ t.fld (rFcDet (16 * 21 + 1)) 55 0 = rTrHrootC)))

/-- A drain that takes longer than 1 ms is recorded in WL_DRAIN_STAT and abandoned (R472, R474, R710); an access that has
waited for host memory longer than HOST_WAIT_MS ends as an uncorrectable read of it (R469). -/
def Obligations.LongWaitsEnd : Prop :=
  ∀ (s : State) (w : WellId),
    (s.drained w = false →
      (∀ t0, tabGet none s.pw.w1Req w.val = some t0 → t0 + 1000000 ≤ s.now →
        ∃ t, exec (.drainTimeout w) s = .next t ∧ t.fld (rWlDrainStat w) 31 31 = 1
          ∧ tabGet none t.pw.w1Req w.val = none ∧ sameMem s t ∧ t.wells = s.wells ∧ t.bobs = s.bobs)
      ∧ (∀ e, tabGet none s.pw.w1Req w.val = none → s.pw.entry = some e → e.wells.contains w.val = true →
          e.at_ + 1000000 ≤ s.now → exec (.drainTimeout w) s = .next (s.abandonEntry e)))
    ∧ (∀ (va : BitVec 56) (write : Bool) (t0 : Nat) (a : Nat) (j : Nat) (x : Job),
        s.hostDown = some t0 → t0 + (if s.fld rMgCtl 63 48 = 0 then 1000 else s.fld rMgCtl 63 48) * 1000000 ≤ s.now →
        s.hostLoc (s.partOf w) va.toNat write = some ⟨.host, a⟩ → (s.well w).job = some j → s.job j = some x →
        x.status = none → x.phase ≠ .committed →
      ∃ t, exec (.hostTierWaitExpiry (.controller w) va write) s = .next t ∧ sameMem s t
        ∧ t.job j = some { x with status := some 0x30, addr := va.toNat, phase := .stopping })

/-- Below 36 × (60 − LOCAL_GIB) GiB granule g lies on package g mod 36 at index g div 36; above it, granule g′ of well n's
part lies on package 3n + (g′ mod 3) at index (60 − LOCAL_GIB) × 262,144 + g′ div 3 (R480). Every granule so lies on one
of the 36 packages, and two granules never share a place. -/
def Obligations.ReservoirPlacementIsInjective : Prop :=
  ∀ lg a b : Nat, lg ≤ 60 → a < reservoirSize → b < reservoirSize →
    let inter := 36 * (60 - lg) * 2 ^ 30
    let part := 3 * lg * 2 ^ 30
    let g := (a - inter) % part / 4096
    (a < inter → rvPlace lg a = (a / 4096 % 36, a / 4096 / 36))
    ∧ (inter ≤ a → rvPlace lg a = (3 * ((a - inter) / part) + g % 3, (60 - lg) * 262144 + g / 3))
    ∧ (rvPlace lg a).1 < 36 ∧ (rvPlace lg a).2 < pkgGranules ∧ (rvPlace lg a = rvPlace lg b → a / 4096 = b / 4096)

/-- The units of a stripe row lie on packages of their own, none of them the row's parity package (R510). -/
def Obligations.StripeUnitsLieOnPackagesApart : Prop :=
  ∀ a b : Nat, (aqPlace a).1 < 12 ∧ (aqPlace a).2 = a / 16384 % 4
    ∧ (aqPlace a).1 ≠ a / 65536 / 11 % 12
    ∧ (a / 65536 / 11 = b / 65536 / 11 → a / 65536 ≠ b / 65536 → (aqPlace a).1 ≠ (aqPlace b).1)

/-- A line that a well asks for: GETX and GETXF leave it MODIFIED there and the directory naming the well as its only
holder, every other holder having dropped it; GETS leaves it SHARED or EXCLUSIVE. No byte changes (R531, R532, R534).
PUTM and PUTE evict a line that its well owns: it is INVALID there and the directory has no entry of it, PUTM counting a
write-back; a non-allocating write recalls the line from every holder, and a non-allocating read changes no line (R530,
R534, R535). -/
def Obligations.DirectoryGrantsAndDropsLines : Prop :=
  (∀ (s : State) (w : WellId) (va : Word) (c line : Nat),
     (∀ v, tabGet 4 s.caches v ≤ 8) → tabGet 4 s.caches w ≠ 0 → s.wellCtx w = some c →
       (s.lineAt c va.toNat false = some line → s.lineSt w line = none →
         ∃ t, exec (.gets w va .sound) s = .next t ∧ (t.lineSt w line = some .shared ∨ t.lineSt w line = some .exclusive)
           ∧ (t.dirEntry line).isSome = true ∧ sameMem s t ∧ t.wells = s.wells ∧ t.jobs = s.jobs)
       ∧ (s.lineAt c va.toNat true = some line → (s.lineSt w line = none ∨ s.lineSt w line = some .shared) →
         ∀ i, i = .getx w va .sound ∨ i = .getxf w va .sound →
           ∃ t, exec i s = .next t ∧ t.lineSt w line = some .modified
             ∧ t.dirEntry line = some { line := line, owner := some w }
             ∧ (∀ e v, s.dirEntry line = some e → v ∈ e.holders → v ≠ w.val → t.lineSt v line = none)
             ∧ sameMem s t ∧ t.wells = s.wells ∧ t.jobs = s.jobs))
  ∧ (∀ (s : State) (w : WellId) (line : BitVec 34),
       (s.lineSt w line.toNat = some .modified →
         ∃ t, exec (.putm w line) s = .next t ∧ t.lineSt w line.toNat = none ∧ t.dirEntry line.toNat = none
           ∧ t.fld (rWlWcEvt w) 63 32 = min (s.fld (rWlWcEvt w) 63 32 + 1) (2 ^ 32 - 1)
           ∧ { t with lines := s.lines, dir := s.dir, regs := s.regs } = s)
       ∧ (s.lineSt w line.toNat = some .exclusive →
         ∃ t, exec (.pute w line) s = .next t ∧ t.lineSt w line.toNat = none ∧ t.dirEntry line.toNat = none
           ∧ { t with lines := s.lines, dir := s.dir, regs := s.regs } = s)
       ∧ (∃ t, exec (.nonallocatingRead line .sound) s = .next t ∧ { t with regs := s.regs } = s)
       ∧ (∃ t, exec (.nonallocatingWrite line .sound) s = .next t ∧ t.dirEntry line.toNat = none
           ∧ { t with lines := s.lines, dir := s.dir, regs := s.regs } = s))

/-- A sector that may be served, and whose bursts its controller grants, is read as R485 says: repeats and corrections are
counted and every byte stays, and one that is poisoned, uncorrectable or under a check sector that disagrees is poisoned
and counted; a write of a whole sector stores it and ends its poison, one of a part stores its bytes once the sector is
read; a scrub reads alike (R482, R485, R486, R488). A request that is not granted its bursts waits, and no sluice passes
its cap (R493, R494). At a tick every sluice with a
weight gains its share of the refill up to DEPTH, the bursts of the tick count from 0 again, and the CAP fields are
latched (R492). The service of a package: drift compensation clears the repeats that called for it, and MR4 is read every 32 ms and kept in its register,
a code above the range being reported (R477, R489, R503). -/
def Obligations.ReservoirSectorsAreServed : Prop :=
  (∀ (s : State) (n : BitVec 36) (p : Fin 14) (chk : Bool) (ev : SectorEv),
     s.sectorOpen n.toNat = true →
       let pkg := (s.sectorAt n.toNat).1
       let key := blockKey ⟨.reservoir, n.toNat * 64⟩
       (∃ t, exec (.reservoirSectorRead n p chk ev) s = .next t ∧ sameMem s t
         ∧ ((s.burstsFor pkg p n.toNat (sectorBursts chk ev)).2 = false → t.poison = s.poison ∧ t.regs = s.regs)
         ∧ ∀ q < 13, tabGet 0 s.caps q ≠ 0 → tabGet 0 s.bursts (pkg * 13 + q) ≤ tabGet 0 s.caps q →
             tabGet 0 t.bursts (pkg * 13 + q) ≤ tabGet 0 s.caps q)
       ∧ ((s.burstsFor pkg p n.toNat (sectorBursts chk ev)).2 = true →
         ∃ t u, exec (.reservoirSectorRead n p chk ev) s = .next t ∧ exec (.reservoirPatrolScrub n ev) s = .next u
         ∧ sameMem s t ∧ sameMem s u
         ∧ ((s.sectorBad n.toNat = true ∨ ev = .uncorrectable ∨ ev = .disagree) →
             tabGet false t.poison key = true ∧ tabGet false u.poison key = true
               ∧ t.fld rRvEcc 31 16 = min (s.fld rRvEcc 31 16 + 1) 65535
               ∧ u.fld rRvEcc 31 16 = min (s.fld rRvEcc 31 16 + 1) 65535)
         ∧ (s.sectorBad n.toNat = false → ev ≠ .uncorrectable → ev ≠ .disagree →
             t.poison = s.poison ∧ u.poison = s.poison
               ∧ t.fld rRvEcc 63 32 = (if ev = .corrected then min (s.fld rRvEcc 63 32 + 1) (2 ^ 32 - 1)
                   else s.fld rRvEcc 63 32)
               ∧ u.fld rRvEcc 63 32 = t.fld rRvEcc 63 32))
       ∧ (∀ bytes, bytes.length = 64 → (s.burstsFor pkg p n.toNat 2).2 = true →
         ∃ t, exec (.reservoirSectorWrite n 0 bytes p ev) s = .next t ∧ stored s t ⟨.reservoir, n.toNat * 64⟩ bytes
           ∧ tabGet false t.poison key = false)
       ∧ (∀ (o : Fin 64) bytes, bytes ≠ [] → bytes.length < 64 → o.val + bytes.length ≤ 64 →
           s.sectorBad n.toNat = false → ev ≠ .uncorrectable → ev ≠ .disagree →
           (∀ b, (s.freeBit.2.burstsFor pkg p n.toNat (sectorBursts b ev + 2)).2 = true) →
         ∃ t, exec (.reservoirSectorWrite n o bytes p ev) s = .next t
           ∧ stored s t ⟨.reservoir, n.toNat * 64 + o.val⟩ bytes))
  ∧ (∀ s : State, s.rvTicks ≤ s.now / 375 → ∃ t, exec .sluiceTick s = .next t ∧ t.bursts = []
       ∧ { t with buckets := s.buckets, bursts := s.bursts, caps := s.caps, rvSlots := s.rvSlots,
                  rvTicks := s.rvTicks } = s
       ∧ (∀ p, p < 13 → tabGet 0 t.caps p = s.fld (rRvSluice p) 24 16)
       ∧ ∀ k p, k < 36 → p < 13 →
           let W := ((List.range 13).map (fun i => s.fld (rRvSluice i) 7 0)).sum
           let wt := s.fld (rRvSluice p) 7 0
           tabGet 0 t.buckets (k * 13 + p)
             = if wt = 0 then tabGet 0 s.buckets (k * 13 + p)
               else min (s.fld rRvSluiceCtl 26 16) (tabGet 0 s.buckets (k * 13 + p) + s.refill k * wt / W))
  ∧ (∀ (s : State) (k : Fin 36) (ch : Fin 4) (code : Fin 32) (above : Bool),
       (s.retrainN ≤ ((tabGet [] s.repeats (k.val * 4 + ch.val)).filter (fun t => s.now < t + 1000000)).length →
         ∃ t, exec (.driftCompensation k ch) s = .next t ∧ tabGet [] t.repeats (k.val * 4 + ch.val) = []
           ∧ { t with repeats := s.repeats } = s)
       ∧ ((tabGet 0 s.mr4At k.val = 0 ∨ tabGet 0 s.mr4At k.val + 32000000 ≤ s.now) →
         ∃ t, exec (.mr4Read k code above) s = .next t ∧ t.fld (rRvPkgStat k) 20 16 = code.val
           ∧ tabGet 0 t.mr4At k.val = s.now ∧ sameMem s t
           ∧ (above = false → { t with regs := s.regs, mr4At := s.mr4At } = s)))

/-- RV_FENCE: a command whose package or donor range is not good is refused with its RESULT and changes nothing else; a good
one of an ACTIVE package begins its evacuation (R496, R498). A granule copied counts, the last one fences the package,
and a FAILED package is fenced with its uncopied granules reading as zeros (R499, R500). RV_PLACE is written once: the
first write with COMMIT takes LOCAL_GIB and COMMIT, a later one changes nothing of it and is reported (R14, R483).
Self-refresh ends with the packages ACTIVE again (R502). -/
def Obligations.ReservoirPackagesAreFenced : Prop :=
  (∀ (s : State) (k : Fin 36),
     (∀ v : Word, bitsOf v 59 58 = 1 →
       let pkg := bitsOf v 57 52
       let r := s.fenceJudge pkg (bitsOf v 41 21 * 2 ^ 21)
       ∃ t, exec (.rvFenceCmd v) s = .next t ∧ t.fld rRvFence 62 60 = r.1 ∧ t.fld rRvFence 57 52 = pkg ∧ sameMem s t
         ∧ (r.1 ≠ 0 → t.evacs = s.evacs ∧ { t with regs := s.regs } = s)
         ∧ (r.1 = 0 → t.evacs = s.evacs ++ [{ pkg := pkg, donor := bitsOf v 41 21 * 2 ^ 21, active := r.2 }]
             ∧ (s.rvState pkg = 0 → t.rvState pkg = 2)))
     ∧ (∀ e G, s.evacs.find? (fun e => e.pkg == k.val) = some e → s.rvState k = 2 → s.rvSelfRefresh = false →
         G < pkgGranules → e.copied G = false → (∀ a ∈ s.rvHeld k G, ∀ i < 64, s.sectorBad (a / 64 + i) = false) →
       ∃ t, exec (.evacuationGranuleCopy k G []) s = .next t
         ∧ t.evacs = s.evacs.map (fun x => if x.pkg = k.val then x.note G else x)
         ∧ t.fld (rRvPkgStat k) 63 40 = (s.fld (rRvPkgStat k) 63 40 + 1) % 2 ^ 24
         ∧ { t with evacs := s.evacs, regs := s.regs } = s)
     ∧ (∀ e, s.evacs.find? (fun e => e.pkg == k.val) = some e →
         (s.rvState k = 2 → pkgGranules ≤ e.next →
           ∃ t, exec (.evacuationComplete k) s = .next t ∧ t.rvState k = 3 ∧ { t with regs := s.regs } = s)
         ∧ (s.rvState k = 4 →
           ∃ t, exec (.evacuationComplete k) s = .next t ∧ t.rvState k = 3
             ∧ (∀ a, memGet t.reservoir a = 0#8 ∨ memGet t.reservoir a = memGet s.reservoir a)
             ∧ (∀ a, (s.rvWhere a).1 = k.val → memGet t.reservoir a = 0#8)
             ∧ (∀ a, (s.rvWhere a).1 ≠ k.val → memGet t.reservoir a = memGet s.reservoir a)))
     ∧ (s.rvState k ≤ 2 →
       ∃ t, exec (.reservoirPackageFailure k) s = .next t ∧ t.rvState k = 4 ∧ sameMem s t ∧ t.evacs = s.evacs))
  ∧ (∀ (s : State) (v : Word) (f : Fin 2),
       (bitOf v 31 = true → s.fld rRvPlace 31 31 = 0 →
         ∃ t, exec (.rvPlaceCommit v f) s = .next t ∧ t.fld rRvPlace 31 31 = 1 ∧ t.fld rRvPlace 5 0 = bitsOf v 5 0
           ∧ { t with regs := s.regs } = s ∧ ∀ o, o ≠ rRvPlace → t.reg o = s.reg o)
       ∧ (bitOf v 31 = true → s.fld rRvPlace 31 31 = 1 →
         ∃ t, exec (.rvPlaceCommit v f) s = .next t ∧ t.reg rRvPlace = s.reg rRvPlace ∧ sameMem s t)
       ∧ (s.rvSelfRefresh = true → s.fld (rPmRefStat 2) 63 61 = 0 → s.devicePm = 0 →
           (∀ w < 12, (s.rail (12 + w)).phase = 0 ∧ s.pw.staging.contains w = false) →
         ∃ t, exec .reservoirSelfRefreshExit s = .next t ∧ t.rvSelfRefresh = false
           ∧ (∀ i, i < 36 → t.rvState i = if s.rvState i = 1 then 0 else s.rvState i)
           ∧ { t with rvSelfRefresh := s.rvSelfRefresh, regs := s.regs } = s))

/-- Reads of the aquifer queue at their package by requester, and the package serves its queues in turn, page by page: a
page that decodes counts its retries, one rebuilt is counted, one that cannot be given is poisoned, counted and recorded
(R512 to R516). A package that is lost, or that AQ_FENCE names while no other is LOST, is LOST; with another LOST the
command answers RESULT 1 and fences nothing (R517, R526). -/
def Obligations.AquiferReadsAreServed : Prop :=
  (∀ (s : State),
     (∀ (q : Fin 13) a (n : Fin 5) (src : Fin 4), a % 16384 = 0 → 1 ≤ n.val → a % 65536 / 16384 + n.val ≤ 4 →
         a < aquiferSize →
       ∃ t, exec (.aquiferReadEntry q a n src) s = .next t
         ∧ t.aqQ (aqPlace a).1 q = s.aqQ (aqPlace a).1 q ++ [{ addr := a, left := n, src := src }]
         ∧ (∀ k r, r < 13 → ¬(k = (aqPlace a).1 ∧ r = q.val) → t.aqQ k r = s.aqQ k r) ∧ { t with aqQs := s.aqQs } = s)
     ∧ (∀ (k : Fin 12) (ev : PageEv) q e rest, s.aqNext k = some q → s.aqQ k q = e :: rest → s.pageCan k e.addr ev = true →
       ∃ t, exec (.aquiferPageRead k ev) s = .next t ∧ sameMem s t
         ∧ t.aqQ k q = (if e.left ≤ 1 then rest else { e with addr := e.addr + 16384, left := e.left - 1 } :: rest)
         ∧ (ev = .rebuilt → t.fld rAqEcc 31 16 = min (s.fld rAqEcc 31 16 + 1) 65535)
         ∧ (ev = .failed → tabGet false t.poison (blockKey ⟨.aquifer, e.addr⟩) = true
             ∧ t.fld rAqEcc 15 0 = min (s.fld rAqEcc 15 0 + 1) 65535)
         ∧ (ev ≠ .failed → t.poison = s.poison)))
  ∧ (∀ (s : State),
       (∀ k : Fin 12, s.aqLost k = false →
         ∃ t, exec (.aquiferPackageLost k) s = .next t ∧ t.aqLost k = true ∧ sameMem s t
           ∧ ∀ i, i < 12 → i ≠ k.val → t.aqLost i = s.aqLost i)
       ∧ (∀ v : Word, bitsOf v 5 4 = 1 → bitsOf v 3 0 < 12 →
         ∃ t, exec (.aqFenceCmd v) s = .next t ∧ t.fld rAqFence 3 0 = bitsOf v 3 0 ∧ sameMem s t
           ∧ (s.otherLost (bitsOf v 3 0) = false → t.aqLost (bitsOf v 3 0) = true ∧ t.fld rAqFence 30 29 = 0)
           ∧ (s.otherLost (bitsOf v 3 0) = true → t.fld rAqFence 30 29 = 1 ∧ ∀ i, i < 12 → t.aqLost i = s.aqLost i)))

/-- Input records, noise records and image rows are moved in the order of their records: a record that can be read is filled
whole and leaves the list of those due, the last one raising event 65,535 on every well of its job; a noise fill takes a free
wellhead pump, and raises the event of its record once it is visible; an image row becomes readable whole (R448, R521,
R555, R560, R561, R563).
Where a step reads device scratch, its block is sound (R399). -/
def Obligations.InputsAndImagesAreMoved : Prop :=
  ∀ (s : State) (j : Nat) (x : Job), s.job j = some x → x.phase = .running →
    let ctx := viaQ 12 (s.ctxOf j)
    (∀ n rest r u, x.inputsDue = n :: rest → s.readIn ctx x.arg n = .ok r → s.fillInput ctx r = .ok u →
      let v := (u.modJob j (fun y => { y with inputsDue := rest })).incFld rInStat 31 16 1
      exec (.inputRecordFill j) s = .next (if rest = [] then v.inputsDone j x else v))
    ∧ (∀ f rest pump seed r u, x.inputsDue = [] → x.fillsDue = f :: rest → s.whFree = some pump →
        s.missing 12 pump = false → s.readWord ctx (x.arg + 0x30) = .ok seed → s.readNoise ctx x.arg (f % 16) = .ok r →
        s.fillNoise ctx seed (f / 16) r = .ok u →
      ∃ t, exec (.noiseFill j) s = .next t ∧ { t with jobs := u.jobs, whPumps := u.whPumps } = u
        ∧ t.whUse pump = some (.noise j f)
        ∧ t.job j = (u.job j).map (fun y => { y with fillsDue := rest, filling := y.filling ++ [f] }))
    ∧ (∀ f rest pump r, x.filling = f :: rest → s.fillPump j f = some pump → s.readNoise ctx x.arg (f % 16) = .ok r →
      let w := x.wells.getD (r.well % x.wells.length) 0
      s.scratchOk w (eventAt (s.slotOf j w) r.event) = true →
      ∃ t, exec (.noiseFillDone j) s = .next t
        ∧ t.job j = some { x with filling := rest, noiseN := x.noiseN + 1 }
        ∧ t.event w (s.slotOf j w) r.event = min (s.event w (s.slotOf j w) r.event + 1) (2 ^ 32 - 1)
        ∧ t.fld rInStat 63 32 = min (s.fld rInStat 63 32 + 1) (2 ^ 32 - 1) ∧ t.fld rInStat 15 0 = f / 16 % 65536
        ∧ { t with jobs := s.jobs, events := s.events, regs := s.regs } = s)
    ∧ (∀ r bs, s.readImg ctx x.arg = .ok (some r) → x.imgDone < r.len → s.rowDead r x.imgDone = false →
        s.readVa ctx (r.from_ x.imgDone) (r.bytes x.imgDone) = .ok bs →
      exec (.imageRowWrite j) s
        = .next ((s.putRow r x.imgDone bs).modJob j (fun y => { y with imgDone := y.imgDone + 1 })))

/-- A waiting session binds to the core of its kind with fewer sessions; a bound session whose next picture can be coded or
decoded, on a core with no translation miss outstanding, does so, and goes behind the others, or ends with OUT_FULL or the CODE of a unit that it cannot decode; READY is
read again; a session that has coded or taken its last picture ends, and one that a job's end leaves waiting ends
INCOMPLETE, its job with INTERNAL (R571, R572, R578, R579, R587, R593, R594). -/
def Obligations.CodecSessionsProceed : Prop :=
  ∀ (s : State),
    (∀ e u, s.sessions.find? (fun e => e.core.isNone && decide (e.state = 0) && s.sessionRuns e
          && (s.coreFor e.kind).isSome) = some e →
        s.putSession { e with core := s.coreFor e.kind, state := 1, full := e.startFull } = .ok u →
      ∃ t, exec .codecSessionBind s = .next t ∧ { t with regs := u.regs } = u
        ∧ ∀ i < 4, t.fld (rVcCore i) 15 12 = u.boundTo i % 16)
    ∧ (∀ (i : Fin 2) e c u v, s.sessions.find? (fun e => e.kind == 1 && e.canEncode i && s.sessionRuns e) = some e →
        s.missing 12 (18 + i) = false → s.nextUnit e = .ok c →
        s.putSession { e with state := 4, code := 2, core := none } = .ok u →
        (e.overflows c.2.2.1.length = false → s.encode e c = .ok v) →
      ∃ t, exec (.encodePicture i) s = .next t
        ∧ (if e.overflows c.2.2.1.length = true then t.sessions = u.sessions ∧ sameMem u t else t = v))
    ∧ (∀ (i : Fin 2) e st u v, s.sessions.find? (fun e => e.kind == 2 && e.core == some (2 + i.val)
          && decide (e.state = 1 ∧ e.bytes < e.len) && s.sessionRuns e) = some e →
        s.missing 12 (18 + (2 + i)) = false → s.stream e = .ok st →
        (e.unitCode st = 0 → e.canOutput (e.outs st) = true) →
        s.putSession { e with state := 4, code := e.unitCode st, core := none, done_ := 2 ^ 64 - 1 } = .ok u →
        (e.unitCode st = 0 → s.decode e st = .ok v) →
      ∃ t, exec (.decodePicture i) s = .next t
        ∧ (if e.unitCode st = 0 then t = v else t.sessions = u.sessions ∧ sameMem u t))
    ∧ (∀ (j : Nat) (n : Fin 4) e v, s.sessions.find? (fun e => e.job == j && e.n == n.val && decide (e.state = 1)) = some e →
        s.readWord (viaQ 12 (s.ctxOf j)) e.block = .ok v →
      ∃ t, exec (.sessionReadyReread j n) s = .next t
        ∧ t.sessions = s.sessions.map (fun x => if x.job = j ∧ x.n = n.val then { e with ready := v.toNat, readAt := s.now } else x)
        ∧ { t with sessions := s.sessions } = s)
    ∧ (∀ (j : Nat) (n : Fin 4) e, s.sessions.find? (fun e => e.job == j && e.n == n.val && decide (e.state < 3)) = some e →
        (e.state = 1 → (e.kind = 1 ∧ e.coded.length = e.frames ∨ e.kind ≠ 1 ∧ e.bytes = e.len) →
          ∀ u, s.putSession { e with state := 3, code := 0, core := none } = .ok u →
            exec (.sessionEnd j n) s = .next u.syncCores)
        ∧ (e.kind = 1 → e.state = 1 → e.coded.length ≠ e.frames → e.canEncode e.coreNo = false → s.incomplete e = true →
            let v := { s with jobs := s.jobs.modify e.job (fun x => { x with status := some 0x7F }) }
            ∀ u, v.putSession { e with state := 4, code := 1, core := none } = .ok u →
              ∃ t, exec (.sessionEnd j n) s = .next t ∧ t.sessions = u.sessions ∧ t.jobs = u.jobs ∧ sameMem u t))

/-- The decision on a fetched entry whose guarded sequence passed its check: another generation is consumed and counted; the
expected sequence is consumed and put before the loader; one ahead of it stops the queue with ERROR 1, its head unmoved;
one 4,096 or more behind is answered DUP and STALE; a nearer one whose job was accepted is answered DUP with its
acceptance time. A failed read stops the queue with ERROR 2 (R606 to R608). -/
def Obligations.FetchedEntriesAreDecided : Prop :=
  ∀ (s : State) (q : Fin 64), s.mayFetch q = true →
    (∃ t, exec (.submissionFetch q false) s = .next t ∧ t.fld (rQStatus q) 36 34 = 2 ∧ t.fld (rQStatus q) 39 37 = 2
      ∧ t.fld (rQStatus q) 63 48 = s.fld (rQStatus q) 63 48 ∧ { t with regs := s.regs } = s)
    ∧ (∀ n : Word32, unguard32 (opW (s.subWords q) 0) = some n →
      let ws := s.subWords q
      let g := bitsOf (opW ws 1) 63 56
      let last := s.fld (rQLast q) 31 0
      let d := (n.toNat + 2 ^ 32 - last) % 2 ^ 32
      let behind := (last + 2 ^ 32 - n.toNat) % 2 ^ 32
      let head := (s.fld (rQStatus q) 63 48 + 1) % 65536
      ∃ t, exec (.submissionFetch q true) s = .next t ∧ sameMem s t
        ∧ (g ≠ s.qGen q →
          t.fld (rQStatus q) 63 48 = head ∧ t.fld (rQStatus q) 31 16 = min (s.fld (rQStatus q) 31 16 + 1) 65535
          ∧ { t with regs := s.regs } = s)
        ∧ (g = s.qGen q → d = 1 → subBad ws = false →
          t.fld (rQStatus q) 63 48 = head ∧ t.fld (rQLast q) 31 0 = n.toNat
          ∧ t.jobs = s.jobs ++ [{
              queue := q, gen := g, seq := n.toNat, prio := bitsOf (opW ws 1) 55 53, psize := bitsOf (opW ws 1) 52 49,
              arg := bitsOf (opW ws 2) 55 0, root := bitsOf (opW ws 3) 55 0 }]
          ∧ { t with regs := s.regs, jobs := s.jobs } = s)
        ∧ (g = s.qGen q → 2 ≤ d → d < 2 ^ 31 →
          t.fld (rQStatus q) 36 34 = 1 ∧ t.fld (rQStatus q) 39 37 = 2
          ∧ t.fld (rQStatus q) 63 48 = s.fld (rQStatus q) 63 48 ∧ { t with regs := s.regs } = s)
        ∧ (g = s.qGen q → (d = 0 ∨ 2 ^ 31 ≤ d) → 4096 ≤ behind →
          t.fld (rQStatus q) 63 48 = head ∧ { t with regs := s.regs, hqs := s.hqs } = s
          ∧ t.hq q = { s.hq q with waiting := (s.hq q).waiting ++
              [({ typ := 1, dup := true, stale := true, gen := g, seq := n.toNat, queue := q }, 0)] })
        ∧ (∀ x, g = s.qGen q → (d = 0 ∨ 2 ^ 31 ≤ d) → behind < 4096 → s.acceptedJob q g n.toNat = some x →
          t.fld (rQStatus q) 63 48 = head ∧ { t with regs := s.regs, hqs := s.hqs } = s
          ∧ t.hq q = { s.hq q with waiting := (s.hq q).waiting ++
              [({ typ := 1, dup := true, gen := g, seq := n.toNat, queue := q, tbAccept := x.tbAccept }, 0)] }))

/-- The oldest waiting entry goes to the next place of the completion ring as its 64 bytes with the ring's phase, which
turns over at the ring's end; every other byte stays. The queue's vector is signalled after COUNT entries, or once the
oldest unsignalled one is TIME_US old (R614, R617, R629). A doorbell writes the tail; the error of a queue is cleared by
a write of its value; a reset raises the generation and leaves the queue stopped and empty, its accepted jobs going on and
what its dropped entries had locked unlocked. Through a function that does not own the queue, none of them changes
anything (R605, R606, R620, R630). -/
def Obligations.CompletionEntriesAreWritten : Prop :=
  (∀ (s : State) (q : Fin 64) (e : CEntry) (wait : Nat) (rest : List (CEntry × Nat)),
     ((s.hq q).waiting = (e, wait) :: rest → s.mayWriteEntry q wait = true →
       let i := s.fld (rQStatus q) 15 0
       let i' := (i + 1) % 65536
       let a := s.fld (rQCqbase q) 63 12 * 4096 + 64 * (i % s.cqSize q)
       let x := s.hq q
       ∃ t, exec (.completionEntryWrite q) s = .next t ∧ exec (.waitingEntryDrain q) s = .next t
         ∧ memRead t.hostMem a 64 = entryBytes e x.phase
         ∧ (∀ b, b < a ∨ a + 64 ≤ b → memRead t.hostMem b 1 = memRead s.hostMem b 1)
         ∧ t.fld (rQStatus q) 15 0 = i'
         ∧ t.hq q = { x with waiting := rest, phase := if i' % s.cqSize q = 0 then !x.phase else x.phase,
                             unsig := x.unsig + 1, unsigAt := if x.unsig = 0 then s.now else x.unsigAt }
         ∧ { t with hostMem := s.hostMem, regs := s.regs, hqs := s.hqs } = s)
     ∧ ((0 < (s.hq q).unsig ∧ (max 1 (s.fld (rQIrq q) 15 0) ≤ (s.hq q).unsig ∨ s.fld (rQIrq q) 31 16 = 0)) →
       ∃ t, exec (.msiXSignal q) s = .next t ∧ t.msix = (s.qOwner q, s.fld (rQCtl q) 39 32) :: s.msix
         ∧ t.hq q = { s.hq q with unsig := 0 } ∧ { t with hqs := s.hqs, msix := s.msix } = s)
     ∧ ((0 < (s.hq q).unsig ∧ s.fld (rQIrq q) 31 16 ≠ 0 ∧ (s.hq q).unsigAt + s.fld (rQIrq q) 31 16 * 1000 ≤ s.now) →
       ∃ t, exec (.coalesceTimerExpiry q) s = .next t ∧ t.msix = (s.qOwner q, s.fld (rQCtl q) 39 32) :: s.msix
         ∧ t.hq q = { s.hq q with unsig := 0 } ∧ { t with hqs := s.hqs, msix := s.msix } = s))
  ∧ (∀ (s : State) (q : Fin 64) (f : Fin 2) (tail : BitVec 16) (v : Fin 8) (c : Word), bitOf c 62 = true →
       (s.qReach q f = false →
         exec (.doorbell q tail f) s = .next s ∧ exec (.queueErrorClear q v f) s = .next s ∧ exec (.queueReset q c f) s = .next s)
       ∧ (s.qReach q f = true →
         (∃ t, exec (.doorbell q tail f) s = .next t ∧ t.fld (rQSqTail q) 15 0 = tail.toNat ∧ { t with regs := s.regs } = s
           ∧ ∀ o, o ≠ rQSqTail q → t.reg o = s.reg o)
         ∧ (∃ t, exec (.queueErrorClear q v f) s = .next t ∧ { t with regs := s.regs } = s
           ∧ t.fld (rQStatus q) 36 34 = s.fld (rQStatus q) 36 34 &&& (7 - v.val)
           ∧ (t.fld (rQStatus q) 36 34 = 0 → t.fld (rQStatus q) 39 37 = s.fld (rQCtl q) 63 63)
           ∧ (t.fld (rQStatus q) 36 34 ≠ 0 → t.fld (rQStatus q) 39 37 = 2)
           ∧ ∀ o, o ≠ rQStatus q → t.reg o = s.reg o)
         ∧ (∃ t, exec (.queueReset q c f) s = .next t ∧ sameMem (s.unlockJobs (s.dropped q)) t
           ∧ t.qGen q = (s.qGen q + 1) % 256 ∧ t.fld (rQStatus q) 63 48 = 0 ∧ t.fld (rQStatus q) 15 0 = 0
           ∧ t.fld (rQStatus q) 36 34 = 0 ∧ t.fld (rQStatus q) 39 37 = 0 ∧ t.reg (rQLast q) = 0#64
           ∧ t.fld (rQCtl q) 63 63 = 0 ∧ t.hq q = {}
           ∧ ∀ i x, s.job i = some x → x.phase ≠ .verifying → x.phase ≠ .accepting → t.job i = some x)))

/-- While a half of each kind has an ACTIVE package and one of the eight wellhead pumps is free, the lowest free one takes
the records that joined to their program, at most 128 at once; without a free one they wait. Once durable they are the
newest page, eight guarded fields each, and mark their jobs. JN_QUERY answers COMMIT with its status, ACCEPT, or no record
of the tag; a stored record that fails its check answers nothing and is reported (R38, R42, R448, R524, R611, R613, R615,
R630). -/
def Obligations.JournalRecordsBecomeDurable : Prop :=
  ∀ (s : State),
    (s.alive = true → s.jn.program = none → s.jn.joining ≠ [] → s.halfActive 0 = true → s.halfActive 1 = true →
      (s.whFree = none → exec .journalProgram s = .next s)
      ∧ (∀ n, s.whFree = some n →
        ∃ t, exec .journalProgram s = .next t
          ∧ t.jn = { s.jn with program := some (s.jn.joining.take 128), joining := s.jn.joining.drop 128 }
          ∧ t.whUse n = some .journal ∧ (∀ m, m < 8 → m ≠ n → s.whUse m ≠ none → t.whUse m = s.whUse m)
          ∧ { t with jn := s.jn, whPumps := s.whPumps } = s))
    ∧ (∀ rs, s.jn.program = some rs →
      ∃ t, exec .journalDurable s = .next t ∧ sameMem s t ∧ t.jn.program = none ∧ t.jn.joining = s.jn.joining
        ∧ t.jn.pages = (rs.map recStore :: s.jn.pages).take 1048576
        ∧ t.fld rJnStat 63 32 = min (s.fld rJnStat 63 32 + rs.length) (2 ^ 32 - 1)
        ∧ (∀ i x, s.job i = some x → x.phase = .accepting → x.order = 0 → (∃ r ∈ rs, r.kind = 1 ∧ recNames r x = true) →
            t.job i = some { x with durable := true })
        ∧ (∀ i x, s.job i = some x → x.phase = .ended → x.order ≠ 0 → (∃ r ∈ rs, r.kind = 2 ∧ recNames r x = true) →
            t.job i = some { x with commitDurable := true }))
    ∧ (∀ v : Word, bitOf v 32 = true →
      let c := s.jn.find 2 (bitsOf v 63 58) (bitsOf v 57 50) (bitsOf v 31 0)
      let a := s.jn.find 1 (bitsOf v 63 58) (bitsOf v 57 50) (bitsOf v 31 0)
      ∃ t, exec (.jnQueryLookup v) s = .next t ∧ sameMem s t ∧ t.jobs = s.jobs ∧ t.jn = s.jn
        ∧ (s.jn.broken = false → { t with regs := s.regs } = s)
        ∧ (s.jn.broken = true → bitOf (t.reg (rFcRec (16 * 12 + 1))) 63 = true)
        ∧ t.fld rJnResult 63 63 = 1 ∧ t.fld rJnQuery 32 32 = 0
        ∧ (∀ r, c = some r → t.fld rJnResult 62 60 = 2 ∧ t.fld rJnResult 55 48 = r.status % 256
            ∧ t.fld rJnResult 47 47 = r.widened.toNat ∧ t.fld rJnResult 31 0 = r.passes % 2 ^ 32)
        ∧ (c = none → a.isSome = true → t.fld rJnResult 62 60 = 1)
        ∧ (c = none → a = none → t.fld rJnResult 62 60 = if 1048576 ≤ s.jn.pages.length then 3 else 0))

/-- BAR2 reads and writes memory through context 12 at the base that its function set, and in the recovery stage writes the
recovery window; a read that faults gives all-ones bytes, and is recorded, by the translation too; one whose page is
missing from the buffers waits (R435, R441, R603, R748). -/
def Obligations.HostWindowReachesMemory : Prop :=
  ∀ (s : State) (f : Fin 2) (o : BitVec 36) (n : Fin 4097) (bytes : List Byte), s.functionUp f = true →
    let va := s.fld (rWhBar2Base f) 55 21 * 2 ^ 21 + o.toNat
    let c := viaQ 12 12
    (s.missing 12 17 = true → exec (.bar2Read f o n) s = .next s
      ∧ (s.fld rWhBoot 63 60 ≠ 8 → exec (.bar2Write f o bytes) s = .next s))
    ∧ (s.missing 12 17 = false →
      (∀ bs, s.readVa c va n = .ok bs →
        ∃ t, exec (.bar2Read f o n) s = .next t ∧ t.bar2Data = bs ∧ accessed s { t with bar2Data := s.bar2Data })
      ∧ (∀ k level a wr, s.readVa c va n = .error (.trans k level a wr) → bitOf (s.reg rWhBar2Err) 63 = false →
        ∃ t, exec (.bar2Read f o n) s = .next t ∧ t.bar2Data = List.replicate n 0xFF#8 ∧ sameMem s t ∧ t.jobs = s.jobs
          ∧ bitOf (t.reg rTrFault) 63 = true
          ∧ t.fld rWhBar2Err 63 63 = 1 ∧ t.fld rWhBar2Err 61 61 = f.val ∧ t.fld rWhBar2Err 60 60 = 0
          ∧ t.fld rWhBar2Err 59 56 = k % 16 ∧ t.fld rWhBar2Err 35 0 = o.toNat)
      ∧ (∀ r, s.readVa c va n = .error (.stall r) → exec (.bar2Read f o n) s = .next s)
      ∧ (s.fld rWhBoot 63 60 ≠ 8 → ∀ t, s.writeDir c va bytes = .ok t → exec (.bar2Write f o bytes) s = .next t))
    ∧ (s.fld rWhBoot 63 60 = 8 →
      exec (.bar2Write f o bytes) s
        = .next (if o.toNat + bytes.length ≤ 2 ^ 26 then { s with recovery := memWrite s.recovery o.toNat bytes } else s))

/-- A job without a finding is accepted into the journal: its ACCEPT record joins the next program, and its entry is owed;
one with findings is answered with the status, reason and address of the finding that comes first (R304, R305, R611). A
job whose record is durable, and in pair mode mirrored, is accepted: it takes its place in the list and its ACCEPT entry
joins those of its queue. The first job of the list binds when its wells are free and awake: a job that was never bound
takes the lowest free partition, a slot on each of its wells, and starts; a pre-empted job goes on from its saved state.
A job that cannot bind any more ends with UNIT_LOST (R623, R625, R626). A job that the scheduler pre-empts, or that
stops for a rollback or a rebuild, stops its controllers; once nothing of it runs, its wells are free (R624, R627). A
job whose work is over releases what it holds, once its moves past order 2 are over (R465), and its COMMIT record joins
the journal; once that record is durable, and in pair mode mirrored, its COMPLETE entry joins those of its queue. An abort of an accepted job that has not ended stops
it with HOST_ABORT; any other tag answers RESULT 1 and leaves every job (R613 to R615, R628). -/
def Obligations.JobsAreAcceptedBoundAndEnded : Prop :=
  (∀ (s : State) (j : Nat) (x : Job), s.job j = some x →
     (x.phase = .verifying → (s.jobFinds x).all (fun f => f.cls != 3) = true →
       (verdict (s.jobFinds x) = none →
         ∃ t y, exec (.jobLoaderVerify j) s = .next t ∧ t.job j = some y ∧ y.phase = .accepting ∧ y.tbAccept = s.now
           ∧ t.jn.joining = s.jn.joining ++ [x.acceptRec s.now] ∧ (∀ i, i ≠ j → t.job i = s.job i)
           ∧ t.cistern = s.cistern ∧ t.aquifer = s.aquifer ∧ t.hostMem = s.hostMem)
       ∧ (∀ f, verdict (s.jobFinds x) = some f →
         ∃ t, exec (.jobLoaderVerify j) s = .next t ∧ t.job j = some { x with phase := .committed }
           ∧ t.hq x.queue = { s.hq x.queue with waiting := (s.hq x.queue).waiting ++
               [({ typ := 2, gen := x.gen, status := f.status, reason := f.code, seq := x.seq, queue := x.queue,
                   addr := f.addr }, s.inSync.toNat)] }
           ∧ t.jn = s.jn ∧ sameMem s t))
     ∧ (x.phase = .accepting → x.durable = true → s.inSync = false → x.mirrored = false → s.mayCommit = true →
         x.gen = s.qGen x.queue → (∀ e ∈ (s.hq x.queue).waiting, e.2 ≠ 2) →
       let n := (s.jobs.filter (fun y => y.order != 0)).length + 1
       ∃ t, exec (.jobAccept j) s = .next t
         ∧ t.job j = some { x with phase := .waiting, order := n, tbAccept := s.now }
         ∧ t.fld (rQLast x.queue) 63 32 = x.seq % 2 ^ 32
         ∧ t.hq x.queue = { s.hq x.queue with waiting := (s.hq x.queue).waiting ++
             [({ typ := 1, gen := x.gen, seq := x.seq, queue := x.queue, tbAccept := s.now }, 0)] }
         ∧ { t with jobs := s.jobs, regs := s.regs, hqs := s.hqs } = s))
  ∧ (∀ (s : State) (j : Nat) (x : Job), s.job j = some x →
       (s.firstJob = some j → x.rebuild = false → x.rollback = false → s.mayBind = true →
         (s.bindLost x = true → x.status = none → x.phase = .waiting →
           ∃ t, exec .jobBind s = .next t ∧ t.job j = some { x with status := some 0x60, addr := 0, phase := .stopping }
             ∧ sameMem s t)
         ∧ (∀ wells, s.bindLost x = false → s.bindWells [] x = some wells → wells.all s.wellAwake = true →
           (x.phase = .preempted → ∀ t, s.rebind j x = .ok t → exec .jobBind s = .next t)
           ∧ (∀ p, x.phase ≠ .preempted → s.freePart = some p →
             let y := { x with part := some p, wells := wells, slots := wells.map (fun w => (s.freeSlot w).getD 0),
                               boundAt := s.nextId, free := x.mig.runs x.scratch wells }
             ∀ t, (({ s with nextId := s.nextId + 1 }.modJob j (fun _ => y)).setRoot p x.root true).startJob j y true = .ok t →
               exec .jobBind s = .next t)))
       ∧ (x.phase = .running → (x.rebuild = true ∨ x.rollback = true ∨ j ∈ s.toPreempt) →
         let u := x.wells.foldl (fun t w => (t.stopCtl w).withdrawWaits w)
           (s.modJob j (fun y => { y with phase := .preempting, cp := none, stopFor := s.firstJob }))
         (∀ t, u.pauseSessions j true = .ok t → exec (.preemption j) s = .next t)
         ∧ u.job j = some { x with phase := .preempting, cp := none, stopFor := s.firstJob }
         ∧ (∀ w ∈ x.wells, (u.well w).ctl ≠ .running ∧ (u.well w).ctl ≠ .stalled)
         ∧ ∀ w, w ∉ x.wells → u.well w = s.well w)
       ∧ (x.phase = .preempting → s.still j x = true →
         ∃ t, exec (.partitionQuiescent j) s = .next t ∧ t.job j = some { x with phase := .preempted } ∧ sameMem s t
           ∧ (∀ e ∈ x.wells.zip x.slots, (t.well e.1).job ≠ some j)
           ∧ ∀ w, w ∉ x.wells → t.well w = s.well w))
  ∧ (∀ (s : State),
       (∀ j x, s.job j = some x → x.phase = .stopping → x.status ≠ none → s.workOver j x = true → s.mayCommit = true →
         let v := s.stopSessions j
         (∀ r, ((v.liveWells j x).foldl State.withdrawWaits v).endMoves j = .error r →
           exec (.jobEndCommit j) s = .next s)
         ∧ (∀ u, ((v.liveWells j x).foldl State.withdrawWaits v).endMoves j = .ok u →
         ∃ t, exec (.jobEndCommit j) s = .next t
           ∧ (∃ y, t.job j = some y ∧ y.phase = .ended ∧ y.wells = [] ∧ y.slots = [] ∧ y.part = none ∧ y.status = x.status
               ∧ y.locked = [])
           ∧ t.jn.joining = s.jn.joining ++ [x.commitRec s.now] ∧ t.jn.pages = s.jn.pages))
       ∧ (∀ j x, s.job j = some x → x.phase = .ended → x.commitDurable = true → x.commitMirrored = true →
           s.mayCommit = true → s.pair.handback = false → x.gen = s.qGen x.queue → (∀ e ∈ (s.hq x.queue).waiting, e.2 ≠ 2) →
         ∃ t, exec (.jobEndCommit j) s = .next t ∧ t.job j = some { x with phase := .committed }
           ∧ t.hq x.queue = { s.hq x.queue with waiting := (s.hq x.queue).waiting ++
               [(x.completeEntry ((s.jn.find 2 x.queue x.gen x.seq).elim s.now JRec.tb), 0)] }
           ∧ { t with jobs := s.jobs, hqs := s.hqs } = s)
       ∧ (∀ v : Word, bitOf v 60 = true →
         let hit (x : Job) : Prop := x.queue = bitsOf v 51 46 ∧ x.gen = bitsOf v 59 52 ∧ x.seq = bitsOf v 31 0
           ∧ x.status = none ∧ (x.phase = .waiting ∨ x.phase = .running ∨ x.phase = .preempting ∨ x.phase = .preempted)
         ((∀ i x, s.job i = some x → ¬hit x) →
           ∃ t, exec (.queueAbort v) s = .next t ∧ t.fld rQAbort 62 61 = 1 ∧ { t with regs := s.regs } = s)
         ∧ (∀ j x, s.job j = some x → hit x → (∀ i y, i < j → s.job i = some y → ¬hit y) →
           ∃ t, exec (.queueAbort v) s = .next t ∧ t.fld rQAbort 62 61 = 0 ∧ sameMem s t
             ∧ t.job j = some { x with status := some 0x50, addr := 0, phase := .stopping }
             ∧ ∀ i, i ≠ j → t.job i = s.job i)))

/-- A well reported LOST is fenced: its state, cause and alert are set, its queued and running stitches are gone, and every
uncommitted job with a slot there is to be rebuilt. A rebuilt job takes the lowest-numbered wells that no other job
holds, its cistern pages with them, or ends with UNIT_LOST; a rollback returns to the last valid checkpoint, once its
partition is quiescent (R185, R774 to R777). With every well at CHECKPOINT and its work done, the regions are copied to
the older area, whose sequence is one above the last; once they are durable, and in pair mode the header is
acknowledged, the header is written, the pass counts, and the controllers go on (R270, R684 to R686). The copies need a free
wellhead pump, which the checkpoint keeps (R448). -/
def Obligations.LostWorkIsRebuiltFromCheckpoints : Prop :=
  (∀ (s : State),
     (∀ (w : WellId) (cause : Fin 16), 1 ≤ cause.val → cause.val ≤ 6 → cause.val ≠ 2 →
         s.fld rWhWellState (2 * w.val + 25) (2 * w.val + 24) ≠ 3 →
       ∃ t, exec (.wellLoss w cause) s = .next t ∧ sameMem s t
         ∧ t.fld rWhWellState (2 * w.val + 25) (2 * w.val + 24) = 3
         ∧ t.fld rWhWellLost (4 * w.val + 3) (4 * w.val) = cause.val ∧ bitOf (t.reg rFcAlert) 10 = true
         ∧ (∀ l, l < 128 → t.deque w l = []) ∧ (∀ p, p < 136 → (t.bob w p).run = none)
         ∧ (∀ v p, v ≠ w.val → p < 136 → t.bob v p = s.bob v p)
         ∧ ∀ j x, s.job j = some x →
             t.job j = some (if w.val ∈ x.wells ∧ x.phase ≠ .committed then { x with rebuild := true } else x))
     ∧ (∀ j x, s.job j = some x → x.rebuild = true → x.status = none → x.phase = .preempting → s.still j x = true →
       let l := s.rebuildWells j
       (s.fld rWhRasCtl 0 0 = 0 → l.length < x.psize →
         ∃ t, exec (.jobRebuild j) s = .next t ∧ sameMem s t
           ∧ t.job j = some { x with status := some 0x60, addr := 0, phase := .stopping })
       ∧ (∀ u0 y t, 0 < x.psize → x.psize ≤ l.length →
           let wells := l.take x.psize
           let v := (s.dropWork j x).tlbCtx (s.ctxOf j)
           let u := u0.modJob j (fun y => { y with wells := [], slots := [], free := moveFree x.wells wells y.free })
           let u' := { u with nextId := u.nextId + 1 }.modJob j (fun y =>
             { y with wells := wells, slots := wells.map (fun w => (u.freeSlot w).getD 0), boundAt := u.nextId })
           (v.cisternLeaves x.root).foldl (rewriteLeaf j x.wells wells) (some v) = some u0 →
           u'.job j = some y → u'.startJob j y false = .ok t →
         exec (.jobRebuild j) s = .next t))
     ∧ (∀ j x t, s.job j = some x → x.rollback = true → x.rebuild = false → x.status = none → s.startJob j x false = .ok t →
         (x.phase = .preempting ∧ s.still j x = true ∧ x.wells.all s.wellAwake = true
           ∨ x.phase = .preempted ∧ s.firstJob = some j
             ∧ x.wells.all (fun w => s.inService w && s.wellAwake w && s.wellFree [] w) = true) →
       exec (.jobRollback j) s = .next t))
  ∧ (∀ (s : State) (j : Nat) (x : Job), s.job j = some x →
       let ctx := viaQ 12 (s.ctxOf j)
       (s.cpReady j x = true → x.cp = none → s.cpWait x ≠ none → s.whFree = none → exec (.checkpointCopy j) s = .next s)
       ∧ (∀ pass va ws l n s' u t, s.cpReady j x = true → x.cp = none → s.cpWait x = some (pass, va) →
           s.whFree = some n → s.missing 12 n = false → s.cpWords ctx va = .ok ws → parseCpList va ws = some l →
           s.judgeAreas ctx n [l.area0, l.area1] = .ok s' →
         let area := s'.cpTarget ctx x l
         let seq := ((s'.cpLast ctx x l).elim 0 Prod.snd) + 1
         let spans := if s'.inSync then cpSpans area l else []
         let run : CpRun :=
           { pass := pass, list := l, area := area, cpseq := seq, mirror := s'.inSync.toNat, acks := spans.length }
         s'.cpCopy ctx area l = .ok u →
         (((u.cpSave j x l area seq pass).modJob j (fun y => { y with cp := some run })).whTake n (.checkpoint j)).cpMirror
             ctx x spans = .ok t →
           exec (.checkpointCopy j) s = .next t ∧ sameMem s s' ∧ sameMem u t ∧ t.whPumps = (u.whTake n (.checkpoint j)).whPumps
           ∧ t.job j = (u.job j).map (fun y => { y with cp := some run }))
       ∧ (∀ r t, x.cp = some r → x.phase = .running → (r.mirror = 0 ∨ r.mirror = 3 ∨ s.inSync = false) →
           let hs := if r.header = [] then s.cpHeader x r else (r.header, s)
           hs.2.cpFinish j x r hs.1 = .ok t →
         exec (.checkpointDurable j) s = .next t)
       ∧ (∀ r h t, s.cpFinish j x r h = .ok t → ∃ y, t.job j = some y ∧ y.passes = r.cpseq ∧ y.cp = none
           ∧ y.noiseP = r.pass % 65536))

/-- A DATA frame that is not for this device, or is malformed, is counted and dropped; one already accepted is counted as a
duplicate, and one ahead of the next is refused: neither is delivered, and neither moves the connection's receive
sequence. A refused frame is answered with a NAK of the last accepted one unless a NAK is still recent (R636, R639,
R640). In W3 a frame for this device at port 8 only waits there and is a cause of waking (R706, R712; that it is decided
later is the model's choice, log entry 89). -/
def Obligations.DataFramesAreSequenced : Prop :=
  ∀ (s : State) (i : Instr) (p : Fin 9) (f : Frame) (vc op : Nat),
    rxInstr i = some (p, f, vc, op) →
    (s.portUp 8 = true → p = 8 → f.typ = 1 → f.vc = vc → f.op = op → s.forMe f → s.fld rPmState 38 36 = 3 →
      exec i s = .next { s with pw := { s.pw with twinWaits := true } })
    ∧ (s.arrives p f vc op →
      let c := s.conn p f.src f.vc
      let d := s.ahead p f
      (¬s.forMe f → exec i s = .next (s.incFld (rPortStat p) 63 48 1))
      ∧ (s.forMe f → (d = 0 ∨ 32768 ≤ d) →
        ∃ t, exec i s = .next t ∧ sameMem s t ∧ t.jobs = s.jobs ∧ t.links.delivered = s.links.delivered
          ∧ (t.conn p f.src vc).lastRx = c.lastRx ∧ t.fld (rPortStat p) 47 32 = min (s.fld (rPortStat p) 47 32 + 1) 65535)
      ∧ (s.forMe f → 2 ≤ d → d < 32768 →
        ∃ t, exec i s = .next t ∧ sameMem s t ∧ t.jobs = s.jobs ∧ t.links.delivered = s.links.delivered
          ∧ t.regs = s.regs ∧ (t.conn p f.src vc).lastRx = c.lastRx
          ∧ t.links.sent = (if c.nakAt.all (fun n => decide (n + s.rto ≤ s.now))
              then [(p.val, { typ := 3, vc := vc, seq := c.lastRx, src := s.devId, dst := f.src, credit := 1024 })]
              else []) ++ s.links.sent))

/-- The next DATA frame of its connection is accepted, and its operation takes effect: TILE and WR write their bytes, WR
answers with its status, RD_REQ with the bytes in pieces of at most 4,096, a response releases its request's tag or is
counted LATE, MGMT goes upward, and collective frames reach their group (R640, R645 to R648, R659 to R666). A connection
sends its oldest waiting frame when the port runs and its window, credit and pool have room, with the next sequence
number, and keeps it until acknowledged. ACK and NAK release the frames they cover and grant credit; HELLO is answered
with an ACK, RESYNC sets the receive sequence, a due ACK is sent, and an RTO resends every frame until its limits make
the connection unreachable (R638 to R643, R651, R652). The answer to HELLO is the model's (log entry 42). A port that
goes down makes its connections unreachable; up again, at the width its healthy lanes give, it resends. An unreachable
connection says HELLO each millisecond; held too long it is abandoned, its jobs end with LINK_ERROR, and later it
resynchronises. Tags leave quarantine, routes are written, ports train once the block is committed, and a failed fabric
link is fenced (R24, R636, R648 to R653, R788). -/
def Obligations.LinksDeliverAndRecover : Prop :=
  (∀ (s : State) (i : Instr) (p : Fin 9) (f : Frame) (vc op : Nat),
     rxInstr i = some (p, f, vc, op) → s.arrives p f vc op → s.forMe f → s.ahead p f = 1 →
       let u := s.accepts p f
       let a := f.addr + 16 * f.offset
       (∀ t, i = .tileFrame p f → u.writeDir f.ctx a f.payload = .ok t →
         exec i s = .next (match t.jobOfCtx f.ctx with
           | none => t
           | some (j, x) => match x.wells[f.tag / 256 % 16]? with
             | none => t
             | some w => t.raiseEvent j w (t.slotOf j w) (65024 + f.tag % 256) (f.len / 16)))
       ∧ (∀ t, i = .wrFrame p f → u.writeDir f.ctx a f.payload = .ok t →
         exec i s = .next (t.postFrame p
           { vc := 2, op := 0x23, dst := f.src, epoch := f.epoch, tag := f.tag, ctx := f.ctx, rstat := 0 } none))
       ∧ (∀ bs, i = .rdReqFrame p f → f.len = 16 → 16 ≤ byteField f.payload 0 8 → byteField f.payload 0 8 ≤ 65536 →
           u.readVa f.ctx a (byteField f.payload 0 8) = .ok bs →
         exec i s = .next ((rdResps f bs).foldl (fun t r => t.postFrame p r none) u))
       ∧ ((i = .rdRespFrame p f ∨ i = .wrAckFrame p f) →
         (∃ t, exec i s = .next t ∧ sameMem s t)
         ∧ ((∀ o ∈ (u.conn p f.src 2).outst, o.pair ≠ f.epoch * 4096 + f.tag) →
             exec i s = .next (u.incFld (rPortStat p) 15 0 1))
         ∧ (∀ o, f.rstat = 0 → i = .wrAckFrame p f → (u.conn p f.src 2).outst = [o] → o.op = 0x22 →
             o.pair = f.epoch * 4096 + f.tag → exec i s = .next (u.releaseTag p f.src (u.conn p f.src 2) o)))
       ∧ (i = .mgmtFrame p f →
         exec i s = .next { u with links := { u.links with delivered := (0x30, f.payload) :: u.links.delivered } })
       ∧ (op ≤ 2 → (readColl f.payload = none ∨ ∃ m, readColl f.payload = some m ∧ u.groupOfKey m.key = none) →
         exec i s = .next (u.incFld rCoStat 15 8 1))
       ∧ (∀ m g, readColl f.payload = some m → u.groupOfKey m.key = some g →
         (i = .collFrame p f → exec i s = .next (if u.needsRecord g m then s else u.takeContrib g f.src m))
         ∧ (i = .collAbortFrame p f → exec i s = .next (u.takeAbort g f.src m))
         ∧ (i = .collResultFrame p f → m.flags ≤ 2 → exec i s = .next (u.takeResult g m))))
  ∧ (∀ (s : State) (p : Fin 9) (peer : Fin 4096) (vc : Fin 4),
       let c := s.conn p peer vc
       (∀ f j rest, c.waiting = (f, j) :: rest → s.portUp p = true → c.unreach = none → c.abandoned = none → c.resync = false →
           c.unacked.length < 128 → f.len ≤ c.room → s.poolUsed p + 32 + f.len ≤ 2 ^ 21 →
           (c.unacked = [] ∨ s.poolFirst p (s.poolUsed p + 32 + f.len) = false) →
         ∃ t, exec (.ilpDataSend p peer vc .sound) s = .next t
           ∧ t.links.sent = (p.val, { f with seq := c.nextTx }) :: s.links.sent
           ∧ t.conn p peer vc = { c with
               nextTx := (c.nextTx + 1) % 65536, waiting := rest,
               unacked := c.unacked ++ [{ frame := { f with seq := c.nextTx }, job := j, first := s.now }],
               rtoAt := some (c.rtoAt.getD s.now) }
           ∧ { t with links := s.links } = s)
       ∧ (s.portUp p = true → c.unreach = none → ∃ t, exec (.ilpDataSend p peer vc .primary) s = .next t
           ∧ t.links.sent = (c.unacked.map (fun x => (p.val, x.frame))).reverse ++ s.links.sent)
       ∧ (exec (.ilpDataSend p peer vc .both) s = .next (s.abandon p peer vc c))
       ∧ (∀ f : Frame, s.portUp p = true → f.dst = s.devId → f.src = peer.val → f.vc = vc.val →
         (f.typ = 2 → ∃ t, exec (.ilpAck p f) s = .next t ∧ t.jobs = s.jobs ∧ sameMem s t
           ∧ (t.conn p peer vc).unacked.map SentFrame.frame = (c.upTo f.seq).unacked.map SentFrame.frame
           ∧ (t.conn p peer vc).credit = f.credit ∧ (t.conn p peer vc).unreach = none ∧ (t.conn p peer vc).resync = false)
         ∧ (f.typ = 3 → ∃ t, exec (.ilpNak p f) s = .next t ∧ t.jobs = s.jobs ∧ sameMem s t
           ∧ (t.conn p peer vc).unacked.map SentFrame.frame = (c.upTo f.seq).unacked.map SentFrame.frame
           ∧ (t.conn p peer vc).credit = f.credit)
         ∧ (f.typ = 4 → exec (.ilpHello p f) s = .next (s.emitCtl p peer vc 2 c.lastRx))
         ∧ (f.typ = 5 → ∃ t, exec (.ilpResync p f) s = .next t
           ∧ t.conn p peer vc = { c with lastRx := (f.seq + 65535) % 65536, accepted := 0, ackDue := none }
           ∧ { t with links := s.links } = s))
       ∧ (∀ t0, c.ackDue = some t0 → t0 + s.ackDelay ≤ s.now → s.portUp p = true →
         ∃ t, exec (.ackDelayExpiry p peer vc) s = .next t ∧ t.conn p peer vc = { c with accepted := 0, ackDue := none }
           ∧ t.links.sent = (p.val, { typ := 2, vc := vc, seq := c.lastRx, src := s.devId, dst := peer, credit := 1024 })
               :: s.links.sent)
       ∧ (∀ t0 x rest, c.rtoAt = some t0 → t0 + s.rto * 2 ^ c.resends ≤ s.now → c.unacked = x :: rest → s.portUp p = true →
           c.unreach = none →
         ((x.first + 5000000 < s.now ∨ s.retryMax ≤ c.resends) →
           exec (.rtoExpiry p peer vc) s
             = .next (s.setConn p peer vc { c with unreach := some s.now, helloAt := s.now, rtoAt := none }))
         ∧ (s.now ≤ x.first + 5000000 → c.resends < s.retryMax →
           ∃ t, exec (.rtoExpiry p peer vc) s = .next t
             ∧ t.links.sent = (c.unacked.map (fun x => (p.val, x.frame))).reverse ++ s.links.sent
             ∧ t.conn p peer vc = { c with rtoAt := some s.now, resends := c.resends + 1 }
             ∧ t.fld (rPortStat p) 31 16 = min (s.fld (rPortStat p) 31 16 + c.unacked.length) 65535)))
  ∧ (∀ (s : State) (p : Fin 9) (peer : Fin 4096) (vc : Fin 4),
       let c := s.conn p peer vc
       (s.portUp p = true →
         (∃ t, exec (.portDown p) s = .next t ∧ t.fld (rPortStatus p) 31 29 = 1 ∧ t.fld (rPortStatus p) 26 19 = 0
           ∧ sameMem s t ∧ t.jobs = s.jobs
           ∧ (t.conn p peer vc = c ∨ (t.conn p peer vc).unreach = some s.now ∧ (t.conn p peer vc).unacked = c.unacked))
         ∧ exec (.discardedFrame p) s = .next (s.incFld (rPortStat p) 63 48 1))
       ∧ (∀ (lanes : BitVec 8) w, s.portState p = 1 → s.portWidth p lanes.toNat = some w → w ≤ 2 →
         ∃ t, exec (.portUp p lanes) s = .next t
           ∧ t.fld (rPortStatus p) 31 29 = (if w = 0 ∨ p.val ≠ 8 ∧ s.fld (rPortCtl p) 30 30 = 1 then 2 else 3)
           ∧ t.fld (rPortStatus p) 28 27 = w ∧ t.fld (rPortStatus p) 26 19 = usedLanes w lanes.toNat)
       ∧ (c.unreach.isSome = true → c.helloAt + 1000000 ≤ s.now →
         ∃ t, exec (.helloTimer p peer vc) s = .next t ∧ t.conn p peer vc = { c with helloAt := s.now }
           ∧ { t with links := s.links } = s)
       ∧ (∀ t0, c.unreach = some t0 → t0 + s.holdNs ≤ s.now →
         ∃ t, exec (.holdExpiry p peer vc) s = .next t
           ∧ (t.conn p peer vc).unacked = [] ∧ (t.conn p peer vc).waiting = [] ∧ (t.conn p peer vc).abandoned = some s.now
           ∧ ∀ j x, s.job j = some x → c.holds j = true → x.status = none → x.phase ≠ .committed →
               ∃ y, t.job j = some y ∧ y.status = some 0x31 ∧ y.phase = .stopping)
       ∧ (∀ t0, c.abandoned = some t0 → t0 + 10000000 ≤ s.now → s.portUp p = true →
         ∃ t, exec (.resyncWaitExpiry p peer vc) s = .next t
           ∧ t.conn p peer vc = { c with abandoned := none, resync := true }
           ∧ t.links.sent = (p.val, { typ := 5, vc := vc, seq := c.nextTx, src := s.devId, dst := peer }) :: s.links.sent)
       ∧ (∀ (pair : Fin 8192) q, (s.conn p peer 2).quar.find? (fun q => q.1 == pair.val) = some q → q.2 + 10000000 ≤ s.now →
           s.pair.mirrorQ = [] →
         exec (.tagQuarantineRelease p peer pair) s
           = .next (s.setConn p peer 2 { s.conn p peer 2 with quar := (s.conn p peer 2).quar.erase q }))
       ∧ (∀ v : Word, bitOf v 31 = true →
         ∃ t, exec (.spRtCmdGo v) s = .next t ∧ t.route (bitsOf v 11 0) = (bitsOf v 19 16, s.fld rSpRtMac 47 0)
           ∧ (∀ d, d ≠ bitsOf v 11 0 → t.route d = s.route d) ∧ { t with regs := s.regs, links := s.links } = s)
       ∧ (∀ v : Word, bitOf v 0 = true →
         ∃ t, exec (.spCommit v) s = .next t ∧ t.fld rSpCommit 0 0 = 1 ∧ { t with regs := s.regs } = s
           ∧ t.portState p = (if s.fld (rPortCtl p) 31 31 = 1 ∧ s.portState p = 0 then
               (if s.fld (rPmRefStat 3) 63 61 = 0 then 1 else 4) else s.portState p))
       ∧ (∀ a b : WellId, (min a.val b.val, max a.val b.val) ∈ wellLinks a →
           (min a.val b.val, max a.val b.val) ∉ s.fabric →
         ∃ t, exec (.fabricLinkFailure a b) s = .next t ∧ t.fabric = s.fabric ++ [(min a.val b.val, max a.val b.val)]
           ∧ sameMem s t ∧ t.jobs = s.jobs))

/-- Formation: a write of TL_PAIR_CTL with PAIR_EN in SOLO, with port 8 up, enters FORMING and sends PAIR_HELLO; in any
other state it does nothing. In FORMING a PAIR_HELLO is refused for another PAIR_ID, the same MEMBER, another microcode
or queues of both, and otherwise the member takes an epoch one above both and is SYNCING, which waits while bytes of a
checkpoint that it mirrors cannot be read yet (R469). SYNC_DONE completes it once
the member has sent its own (R674 to R676). A pair message with another PAIR_ID is discarded and reported; one of an
older epoch is discarded and counted: no record, queue, job or byte changes (R676, R679). Mirrors of the twin are kept
and acknowledged: journal records in the twin journal, queue states and entries, checkpoint bytes through the mirrored
ROOT, headers at their area. An acknowledgement marks what it names; a failed one leaves IN_SYNC for SYNCING. YIELD
makes a member that is IN_SYNC or SOLO_LINK take over its twin's queues, RESETTING suspends the judgement (R680 to R682,
R686, R687, R689, R692). -/
def Obligations.PairsFormAndMirror : Prop :=
  (∀ (s : State), s.portUp 8 = true →
     (∀ v : Word, bitOf v 63 = true →
       (s.pairState = 0 → ∃ t, exec (.pairFormationStart v) s = .next t ∧ t.pairState = 1 ∧ t.fld rTlPairStatus 57 54 = 0
         ∧ t.reg rTlPairCtl = setBits v 61 56 0 ∧ sameMem s t ∧ t.jobs = s.jobs
         ∧ t.pair.sent = (s.epoch, .hello (bitsOf v 62 62) (s.reg rTlPairQown) s.ucode) :: s.pair.sent)
       ∧ (s.pairState ≠ 0 → exec (.pairFormationStart v) s = .next s))
     ∧ (∀ h (member : Fin 2) (qown : Word) (ucode : BitVec 16), s.pairState = 1 → s.inW3 = false →
       let refused (r : Nat) : Prop := ∃ t, exec (.pairHello h member qown ucode) s = .next t ∧ t.pairState = 8
         ∧ t.fld rTlPairStatus 57 54 = r ∧ sameMem s t ∧ t.jobs = s.jobs
       let id := h.pairId = s.pairId
       let mem := member.val = s.fld rTlPairCtl 62 62
       (¬id → refused 1)
       ∧ (id → mem → refused 2)
       ∧ (id → ¬mem → ucode.toNat ≠ s.ucode → refused 3)
       ∧ (id → ¬mem → ucode.toNat = s.ucode → qown &&& s.reg rTlPairQown ≠ 0#64 → refused 4)
       ∧ (id → ¬mem → ucode.toNat = s.ucode → qown &&& s.reg rTlPairQown = 0#64 → s.syncWaits ≠ none →
         exec (.pairHello h member qown ucode) s = .next s)
       ∧ (id → ¬mem → ucode.toNat = s.ucode → qown &&& s.reg rTlPairQown = 0#64 → s.syncWaits = none →
         ∃ t, exec (.pairHello h member qown ucode) s = .next t ∧ t.pairState = 2
           ∧ t.epoch = (max h.epoch s.epoch + 1) % 2 ^ 32 ∧ t.pair.twinQown = qown ∧ sameMem s t ∧ t.jobs = s.jobs))
     ∧ (∀ h, s.hears h →
       (s.pairState = 2 → s.pair.sentSync = true → ∃ t, exec (.syncDone h) s = .next t ∧ t.pairState = 3)
       ∧ (s.pairState = 2 → s.pair.sentSync = false →
         exec (.syncDone h) s = .next { s with pair := { s.pair with gotSync := true } })
       ∧ (s.pairState ≠ 2 → exec (.syncDone h) s = .next s)
       ∧ (∀ member qown ucode, s.pairState ≠ 1 →
         exec (.pairHello h member qown ucode) s = .next { s with pair := { s.pair with suspended := none } })))
  ∧ (∀ (s : State) (i : Instr) (h : PairHdr), pairInstr i = some h → s.portUp 8 = true → s.inW3 = false →
       ((∀ m q u, i ≠ .pairHello h m q u) ∨ s.pairState ≠ 1) →
         (h.pairId ≠ s.pairId → ∃ t, exec i s = .next t ∧ sameMem s t ∧ t.jobs = s.jobs ∧ t.hqs = s.hqs
             ∧ t.pair = s.pair ∧ t.jn = s.jn ∧ t.fld (rFcRec (16 * 24 + 0xE)) 63 63 = 1)
         ∧ (h.pairId = s.pairId → h.epoch < s.epoch →
           exec i s = .next { s with pair := { s.pair with stale := s.pair.stale + 1 } }))
  ∧ (∀ (s : State) (h : PairHdr), s.hears h →
       (∀ r, ∃ t, exec (.journalMirror h r none) s = .next t ∧ t.pair.journal = (recStore r :: s.pair.journal).take 134217728 ∧ sameMem s t
           ∧ t.pair.sent = (s.epoch, .ack (.journal r.kind r.queue r.gen r.seq) true) :: s.pair.sent)
       ∧ (∀ q : QMirror, q.entry.typ ≠ 0 →
         ∃ t, exec (.queueMirror h q) s = .next t ∧ tabGet none t.pair.queues q.entry.queue = some q
           ∧ t.pair.entries = (q.entry, (q.cqTail + 65535) % 65536, q.phase) :: s.pair.entries
           ∧ t.pair.sent = (s.epoch, .ack (.queue q.entry.queue q.entry.gen q.entry.seq) true) :: s.pair.sent
           ∧ { t with pair := s.pair } = s)
       ∧ (∀ (queue : Fin 64) (gen : BitVec 8) (seq : Word32) (root va : BitVec 56) (bytes : List Byte) u,
           s.writeDir (rootCtx root.toNat) va.toNat bytes = .ok u →
         ∃ t, exec (.checkpointMirror h queue gen seq root va bytes) s = .next t ∧ sameMem u t
           ∧ t.pair.sent = (u.epoch, .ack (.checkpoint queue gen.toNat seq.toNat) true) :: u.pair.sent)
       ∧ (∀ (x : CpHeader) u, s.writeDir (rootCtx x.root) x.area (x.fields.flatMap guardBytes) = .ok u →
         ∃ t, exec (.headerMirror h x) s = .next t ∧ sameMem u t ∧ x ∈ t.pair.headers
           ∧ t.pair.sent = (u.epoch, .ack (.header x.queue x.gen x.seq) true) :: u.pair.sent)
       ∧ (∀ m, exec (.mirrorAck h m true) s = .next (s.mirrorAnswered.ackGood m)
         ∧ exec (.mirrorAck h m false) s = .next (s.mirrorAnswered.ackBad m)
         ∧ (∀ o rest, (s.conn 8 s.twinPeer 2).outst = o :: rest → o.op = 0x28 →
             (s.mirrorAnswered.conn 8 s.twinPeer 2).outst = rest) ∧ (s.pairState = 3 → (s.ackBad m).pairState = 2))
       ∧ (∀ k q g n j x, s.tagJob q g n (fun y => decide (y.phase = .accepting ∨ y.phase = .ended)) = some j →
           s.job j = some x → s.pairState = 3 →
         (s.ackGood (.journal k q g n)).job j = some (if k = 1 then { x with mirrored := true }
           else if k = 2 then { x with commitMirrored := true } else x))
       ∧ ((s.pairState = 3 ∨ s.pairState = 4) → s.pair.frozen = false →
         ∃ t, exec (.yield h) s = .next t ∧ t.pairState = 6 ∧ t.epoch = (s.epoch + 1) % 2 ^ 32
           ∧ t.reg rTlPairQown = s.reg rTlPairQown ||| s.pair.twinQown)
       ∧ (¬((s.pairState = 3 ∨ s.pairState = 4) ∧ s.pair.frozen = false) → exec (.yield h) s = .next s)
       ∧ exec (.resetting h) s = .next { s with pair := { s.pair with suspended := some s.now } })

/-- The member judges its twin by the heartbeat and the link: HB and LINK follow what is present, and in SYNCING to ISOLATED
a link that is present brings a separated member back to SYNCING, a heartbeat alone means SOLO_LINK, and neither means
ISOLATED. A toggle, a silence, a lost link and the end of a suspension each make it judge (R688, R689). A command of
TL_PAIR_CMD is ignored while one is under way, and answers RESULT 1 in a state that does not allow it. TAKEOVER answers
RESULT 2 while the twin is present and otherwise takes over, SOLO goes on alone, STANDDOWN stops the member for good,
REJOIN forms again, and HANDBACK waits with RESULT 3 until the taken queues' jobs have committed (R690, R695). -/
def Obligations.PairTakesOverAndAnswers : Prop :=
  (∀ (s : State),
     (exec .hbInToggle s = .next ({ s with pair := { s.pair with hbAt := some s.now } }).judge)
     ∧ (s.pair.suspended = none → s.fld rTlPairStatus 59 59 = 1 → s.hbPresent = false →
       exec .heartbeatSilence s = .next s.judge)
     ∧ (s.pair.suspended = none → s.fld rTlPairStatus 58 58 = 1 → s.linkPresent = false →
       exec .linkLossTimeout s = .next s.judge)
     ∧ (∀ t0, s.pair.suspended = some t0 → t0 + 3000000000 ≤ s.now →
       exec .resettingSuspensionEnd s = .next ({ s with pair := { s.pair with suspended := none } }).judge)
     ∧ (s.pair.suspended.isSome = true → s.judge = s)
     ∧ (s.pair.suspended = none →
       let t := s.judge
       t.fld rTlPairStatus 59 59 = s.hbPresent.toNat ∧ t.fld rTlPairStatus 58 58 = s.linkPresent.toNat
       ∧ (2 ≤ s.pairState → s.pairState ≤ 5 →
         t.pairState = (if s.linkPresent then (if 4 ≤ s.pairState ∧ s.syncWaits = none then 2 else s.pairState)
           else if s.hbPresent then 4 else 5))))
  ∧ (∀ (s : State) (i : Instr) (v : Word) (op : Nat) (allowed : Bool),
       s.pairOp i = some (v, op, allowed) → bitsOf v 2 0 = op →
         (s.fld rTlPairCmd 31 31 = 1 → exec i s = .next s)
         ∧ (s.fld rTlPairCmd 31 31 = 0 → allowed = false →
           ∃ t, exec i s = .next t ∧ t.fld rTlPairCmd 30 28 = 1 ∧ { t with regs := s.regs } = s
             ∧ ∀ o, o ≠ rTlPairCmd → t.reg o = s.reg o)
         ∧ (s.fld rTlPairCmd 31 31 = 0 → allowed = true →
           ∃ t, exec i s = .next t
             ∧ (op = 1 → (s.linkPresent = true ∨ s.hbPresent = true) →
                 t.fld rTlPairCmd 30 28 = 2 ∧ t.pairState = 5 ∧ sameMem s t ∧ t.jobs = s.jobs)
             ∧ (op = 1 → s.linkPresent = false → s.hbPresent = false → t.fld rTlPairCmd 30 28 = 0 ∧ t.pairState = 6
                 ∧ t.reg rTlPairQown = s.reg rTlPairQown ||| s.pair.twinQown)
             ∧ (op = 2 → t.fld rTlPairCmd 30 28 = 0 ∧ t.pairState = 4 ∧ { t with regs := s.regs } = s)
             ∧ (op = 3 → t.fld rTlPairCmd 30 28 = 0 ∧ t.pairState = 7 ∧ t.pair.frozen = true)
             ∧ (op = 4 → s.fld rTlPairCtl 63 63 = 1 → t.fld rTlPairCmd 30 28 = 0 ∧ t.pairState = 1 ∧ sameMem s t)
             ∧ (op = 5 → s.takenBusy = true →
                 t.fld rTlPairCmd 31 31 = 1 ∧ t.fld rTlPairCmd 30 28 = 3 ∧ t.pair.handback = true
                 ∧ t.reg rTlPairQown = s.reg rTlPairQown ∧ sameMem s t)
             ∧ (op = 5 → s.takenBusy = false →
                 t.fld rTlPairCmd 31 31 = 0 ∧ t.fld rTlPairCmd 30 28 = 0 ∧ t.pair.handback = false ∧ t.pair.taken = 0#64
                 ∧ t.reg rTlPairQown = s.reg rTlPairQown &&& ~~~s.pair.taken ∧ sameMem s t)))

/-- PM_CMD is ignored while BUSY; a state that the wells or the device may not leave answers RESULT 1, a wake source that
holds RESULT 3, and otherwise the entry is under way with BUSY set. A wake ends an entry with RESULT 3, is done at once
where nothing sleeps, and otherwise begins (R707, R709, R712, R714, R736). A drained well that has been idle for its
time enters W1 and its bobbins lose their power; wells in W1 for theirs, and a device whose wells are all in W2, are
asked for their next state. A drained entry completes: its wells are in W2, the device in W3 or W4; an entry that does
not drain within 1 ms is given up with RESULT 2 (R472, R703, R704, R708 to R711). A wake source ends an entry under way,
brings the module back from W4, starts the domains of W3, or wakes the wells that the next job needs. Wells start in
order, two ramping at most; a well whose domains are good is in W1; a domain that misses power-good or its PLL is tried
once more after 1 ms, and then its well is LOST, or the device waits for a cold reset (R712 to R723). A reference that
faults is in FAULT, counted and recorded, and what it clocks stops: the host link, the packages, which refresh
themselves, with coarse advance, or the ports. In W3 and W4 it is ABSENT instead, and that too is a fault 100 ms after
the wake. After 1 ms of good clock it is GOOD and fine advance returns; glitches are only counted (R726 to R729, R733). -/
def Obligations.PowerStatesAreEnteredAndLeft : Prop :=
  (∀ (s : State),
     (∀ i v target wells ok, s.pmOp i = some (v, target, wells, ok) → bitOf v 27 = true → bitsOf v 26 24 = target →
       (s.fld rPmCmd 31 31 = 1 → exec i s = .next s)
       ∧ (s.fld rPmCmd 31 31 = 0 →
         ∃ t, exec i s = .next t ∧ t.fld rPmCmd 26 24 = target ∧ (∀ o, o ≠ rPmCmd → t.reg o = s.reg o)
           ∧ { t with regs := s.regs, pw := s.pw } = s
           ∧ (ok = false → t.fld rPmCmd 31 31 = 0 ∧ t.fld rPmCmd 30 28 = 1 ∧ t.pw = s.pw)
           ∧ (ok = true → (s.levelSource target wells).isSome = true →
               t.fld rPmCmd 31 31 = 0 ∧ t.fld rPmCmd 30 28 = 3 ∧ t.pw = s.pw)
           ∧ (ok = true → s.levelSource target wells = none → t.fld rPmCmd 31 31 = 1 ∧ t.fld rPmCmd 30 28 = 0
               ∧ t.pw = { s.pw with entry := some { target := target, wells := wells, at_ := s.now, cmd := true } })))
     ∧ (∀ v : Word, bitOf v 27 = true → bitsOf v 26 24 = 0 →
       (s.fld rPmCmd 31 31 = 1 → exec (.pmCmdWake v) s = .next s)
       ∧ (s.fld rPmCmd 31 31 = 0 → (s.fld rPmWake 23 16).testBit 6 = false →
         ∃ t, exec (.pmCmdWake v) s = .next t ∧ t.fld rPmCmd 31 31 = 0 ∧ t.fld rPmCmd 30 28 = 0
           ∧ { t with regs := s.regs } = s)
       ∧ (s.fld rPmCmd 31 31 = 0 → (s.fld rPmWake 23 16).testBit 6 = true →
         ∃ t, exec (.pmCmdWake v) s = .next t ∧ sameMem s t ∧ t.jobs = s.jobs
           ∧ (s.devicePm = 3 → t.fld rPmCmd 31 31 = 1 ∧ t.pw.wakeCmd = true)
           ∧ (s.devicePm = 3 → s.pw.rails = [] → t.fld rPmWakeLast 55 52 = 7)
           ∧ (s.devicePm = 3 → s.pw.rails ≠ [] → t.pw = { s.pw with wakeCmd := true })
           ∧ (s.devicePm ≠ 3 → s.pw.entry = none → (s.asleep (wellsOf (bitsOf v 11 0))) = [] →
               t.fld rPmCmd 31 31 = 0 ∧ t.fld rPmCmd 30 28 = 0 ∧ t.pw = s.pw)
           ∧ (s.devicePm ≠ 3 → s.pw.entry = none → (s.asleep (wellsOf (bitsOf v 11 0))) ≠ [] →
               t.fld rPmCmd 31 31 = 1 ∧ (∀ w ∈ s.asleep (wellsOf (bitsOf v 11 0)), w ∈ t.pw.staging))
           ∧ (s.devicePm ≠ 3 → s.pw.entry.isSome = true → t.pw = { s.pw with entry := none }))))
  ∧ (∀ (s : State),
       (∀ (w : WellId) t0, s.wellPm w = 0 → s.inService w = true → s.wellBusy w = false →
           tabGet none s.pw.idleAt w.val = some t0 → t0 + s.policy 31 16 100 1000 ≤ s.now →
         (s.drained w = true → ∃ t, exec (.w1IdleEntry w) s = .next t ∧ t.wellPm w = 1
           ∧ (∀ p, p < 136 → (t.bob w p).powered = false ∧ (t.bob w p).admitted = false) ∧ sameMem s t)
         ∧ (s.drained w = false → tabGet none s.pw.w1Req w.val = none →
           exec (.w1IdleEntry w) s
             = .next { s with pw := { s.pw with w1Req := tabPut none s.pw.w1Req w.val (some s.now) } }))
       ∧ (∀ w : WellId, s.fld rPmPolicy 0 0 = 1 → s.wellPm w = 1 → s.inService w = true → s.mayW2 w = true →
           s.pw.entry = none → tabGet 0 s.pw.stateAt w.val + s.policy 47 32 100 1000000 ≤ s.now →
           s.levelSource 2 [w.val] = none →
         exec (.w2AutoEntry w) s
           = .next { s with pw := { s.pw with entry := some { target := 2, wells := [w.val], at_ := s.now, cmd := false } } })
       ∧ (s.fld rPmPolicy 1 1 = 1 → s.booted = true → s.pw.entry = none → s.mayW3 = true → s.levelSource 3 s.keptWells = none →
           (∀ w < 12, s.wellLost w = true ∨ s.wellPm w = 2
             ∧ tabGet 0 s.pw.stateAt w + s.policy 63 48 1000 1000000 ≤ s.now) →
         exec .w3AutoEntry s
           = .next { s with pw := { s.pw with
               entry := some { target := 3, wells := s.keptWells, at_ := s.now, cmd := false } } })
       ∧ (∀ e, s.pw.entry = some e → (∀ w ∈ e.wells, w < 12) → s.entryDrained e = true →
         ∃ t, exec .entryComplete s = .next t ∧ t.pw.entry = none
           ∧ (e.target = 2 → ∀ w ∈ e.wells, t.wellPm w = 2 ∧ t.fld (rPmWellStat w) 15 0 = 0)
           ∧ (e.target = 3 → t.rvSelfRefresh = true ∧ ∀ w < 12, t.wellPm w = 7)
           ∧ (e.target = 4 → t.aquifer = s.aquifer ∧ t.boot = s.boot ∧ t.cistern = [] ∧ t.jobs = []
               ∧ t.reg rPmTimebase = s.reg rPmTimebase ∧ t.pw.floor = s.pw.floor))
       ∧ (∀ e, s.pw.entry = some e → (∀ w ∈ e.wells, w < 12) → e.at_ + 1000000 ≤ s.now → s.entryDrained e = false →
         ∃ t, exec .entryDrainTimeout s = .next t ∧ t.pw.entry = none ∧ sameMem s t ∧ t.jobs = s.jobs
           ∧ (e.cmd = true → t.fld rPmCmd 31 31 = 0 ∧ t.fld rPmCmd 30 28 = 2)
           ∧ ∀ w ∈ e.wells, s.drained w = false → t.fld (rWlDrainStat w) 31 31 = 1))
  ∧ (∀ (s : State),
       (∀ code : Fin 9,
         let u := s.latchWake code
         (∀ e, s.pw.entry = some e → u.wakes e.target e.wells code = true →
           exec (.wakeEvent code) s = .next (u.undoEntry 3))
         ∧ (s.pw.entry = none → s.pw.w4 = true → u.wakes 4 [] code = true →
           ∃ t, exec (.wakeEvent code) s = .next t ∧ t.pw.w4 = false ∧ t.fld rPmWakeLast 51 48 = 4
             ∧ t.fld rWhBoot 49 48 = 3 ∧ sameMem s t)
         ∧ (s.pw.entry = none → s.pw.w4 = false → s.devicePm = 3 → s.pw.rails = [] → u.wakes 3 [] code = true →
           ∃ t, exec (.wakeEvent code) s = .next t ∧ (t.rail 24).phase = 1 ∧ t.pw.deep = true ∧ t.pw.wakeAt = s.now
             ∧ t.fld rPmWakeLast 55 52 = code.val ∧ t.fld rPmWakeLast 51 48 = 3 ∧ sameMem s t)
         ∧ (s.pw.entry = none → s.pw.w4 = false → s.devicePm ≠ 3 → code.val = 4 → exec (.wakeEvent code) s = .next u)
         ∧ (s.pw.entry = none → s.pw.w4 = false → s.devicePm ≠ 3 → code.val = 8 → (s.fld rPmWake 23 16).testBit 7 = true →
             (∃ w ∈ s.asleep s.jobWells, w ∉ s.pw.staging) →
           exec (.wakeEvent code) s = .next (s.startWake 8 2 0 (s.asleep s.jobWells) false)))
       ∧ (∀ w rest, s.pw.staging = w :: rest → (∀ t0, s.pw.railAt = some t0 → t0 + 200000 ≤ s.now) → s.ramping < 2 →
           (s.rail 24).phase ≠ 2 →
         ∃ t, exec .wakeStagingWellStart s = .next t ∧ t.pw.staging = rest ∧ t.pw.railAt = some s.now
           ∧ t.rail w = { phase := 1, at_ := s.now } ∧ (s.pw.deep = true → t.rail (12 + w) = { phase := 1, at_ := s.now })
           ∧ { t with pw := s.pw } = s)
       ∧ (∀ d : Fin 26, (s.rail d).phase = 1 →
         ((d.val < 12 ∨ 24 ≤ d.val ∨ s.fld (rPmRefStat 2) 63 61 = 0) →
           ∃ t, exec (.domainReady d) s = .next t ∧ (t.rail d).phase = 0 ∧ sameMem s t
             ∧ (d.val < 24 → (s.rail ((d.val + 12) % 24)).phase = 0 → t.wellPm (d.val % 12) = 1)
             ∧ (d.val = 24 → t.devicePm = 0))
         ∧ (∀ i lim cause, (i = .powerGoodTimeout d ∧ lim = 2000000 ∧ cause = 1
               ∨ i = .pllLockTimeout d ∧ lim = 200000 ∧ cause = 2
                 ∧ (d.val < 12 ∨ 24 ≤ d.val ∨ s.fld (rPmRefStat 2) 63 61 = 0)) → (s.rail d).at_ + lim ≤ s.now →
           ((s.rail d).second = false → ∃ t, exec i s = .next t
             ∧ t.rail d = { phase := 2, at_ := s.now, second := true } ∧ { t with pw := s.pw } = s)
           ∧ ((s.rail d).second = true → ∃ t, exec i s = .next t ∧ sameMem s t
             ∧ (bitOf (s.reg rPmWakeFail) 63 = false → t.fld rPmWakeFail 47 46 = cause)
             ∧ (d.val < 24 → t.fld rWhWellState (2 * (d.val % 12) + 25) (2 * (d.val % 12) + 24) = 3
                 ∧ t.fld rWhWellLost (4 * (d.val % 12) + 3) (4 * (d.val % 12)) = 3)
             ∧ (24 ≤ d.val → t.pw.standby = true))))
       ∧ (∀ d : Fin 26, (s.rail d).phase = 2 → (s.rail d).at_ + 1000000 ≤ s.now → (24 ≤ d.val ∨ s.ramping < 2) →
         ∃ t, exec (.wakeRetry d) s = .next t ∧ t.rail d = { phase := 1, at_ := s.now, second := true }
           ∧ { t with pw := s.pw } = s))
  ∧ (∀ (s : State) (i : Fin 4),
       (∀ ppm : BitVec 16, ((s.devicePm ≠ 3 ∧ s.pw.w4 = false) ∨ s.pw.rails ≠ []) →
         ∃ t, exec (.referenceFault i ppm) s = .next t ∧ sameMem s t ∧ t.jobs = s.jobs
           ∧ t.fld (rPmRefStat i) 63 61 = 1 ∧ t.fld (rPmRefStat i) 47 32 = ppm.toNat
           ∧ t.fld (rPmRefStat i) 31 16 = min (s.fld (rPmRefStat i) 31 16 + 1) 65535
           ∧ (i.val = 0 → t.hostDown.isSome = true)
           ∧ (i.val = 2 → t.rvSelfRefresh = true ∧ t.fld rPmTbStatus 62 62 = 1 ∧ ∀ k < 36, t.rvState k ≠ 0)
           ∧ (i.val = 3 → ∀ p < 9, t.portState p = if s.portState p = 0 then 0 else 4))
       ∧ (∀ ppm : BitVec 16, (s.devicePm = 3 ∨ s.pw.w4 = true) → s.pw.rails = [] →
         ∃ t, exec (.referenceFault i ppm) s = .next t ∧ sameMem s t ∧ t.fld (rPmRefStat i) 63 61 = 3
           ∧ t.fld (rPmRefStat i) 31 16 = s.fld (rPmRefStat i) 31 16)
       ∧ (s.fld (rPmRefStat i) 63 61 ≠ 0 → tabGet 0 s.pw.refAt i.val + 1000000 ≤ s.now →
         ∃ t, exec (.referenceRecovery i) s = .next t ∧ sameMem s t ∧ t.fld (rPmRefStat i) 63 61 = 0
           ∧ (i.val = 2 → t.fld rPmTbStatus 62 62 = 0 ∧ t.fld rPmTbStatus 63 63 = 1)
           ∧ (i.val = 3 → ∀ p < 9, t.portState p = if s.portState p = 4 then 1 else s.portState p))
       ∧ (s.fld (rPmRefStat i) 63 61 = 3 → s.devicePm = 0 → s.pw.w4 = false → s.pw.wakeAt + 100000000 ≤ s.now →
         ∃ t, exec (.referenceAbsentTimeout i) s = .next t ∧ sameMem s t ∧ t.fld (rPmRefStat i) 63 61 = 1)
       ∧ exec (.referenceGlitch i) s = .next (s.incFld (rPmRefStat i) 15 0 1))

/-- The timebase counts nanoseconds: 10 at each edge of REF100, and 1,953,125 sixty-fourths, the rest kept, at each edge of
the always-on oscillator. A read of its low half keeps the high half; the alarm fires once for its setting; a clear of
COARSE clears ERR_US (R730 to R736). -/
def Obligations.TimebaseCountsNanoseconds : Prop :=
  ∀ (s : State),
    (∃ t, exec .timebaseAdvance s = .next t ∧ { t with regs := s.regs, pw := s.pw } = s
      ∧ (s.fld rPmTbStatus 62 62 = 0 → t.reg rPmTimebase = s.reg rPmTimebase + 10#64 ∧ t.pw.frac = s.pw.frac
          ∧ ∀ o, o ≠ rPmTimebase → t.reg o = s.reg o)
      ∧ (s.fld rPmTbStatus 62 62 = 1 →
          t.reg rPmTimebase = s.reg rPmTimebase + BitVec.ofNat 64 ((s.pw.frac + 1953125) / 64)
          ∧ t.pw.frac = (s.pw.frac + 1953125) % 64 ∧ t.pw.edges = s.pw.edges + 1))
    ∧ (∃ t, exec .timebaseLowRead s = .next t ∧ t.pw.tbHigh = BitVec.extractLsb' 32 32 (s.reg rPmTimebase)
        ∧ { t with pw := s.pw } = s)
    ∧ (∃ t, exec .timebaseCoarseClear s = .next t ∧ t.fld rPmTbStatus 63 63 = 0 ∧ t.fld rPmTbStatus 31 0 = 0
        ∧ { t with regs := s.regs, pw := s.pw } = s)
    ∧ (s.fld rPmAlarm 63 63 = 1 → s.fld rPmAlarm 62 0 ≤ s.now → s.pw.alarmed = false →
      ∃ t, exec .alarmFire s = .next t ∧ t.pw = { s.pw with alarmed := true }
        ∧ t.msix = (if s.pw.w4 then s.msix else (0, s.fld rPmPolicy 15 8) :: s.msix)
        ∧ { t with pw := s.pw, msix := s.msix } = s)

/-- A cold reset counts a cold start and restarts the timebase; the loss of the input, MOD_EN or an over-voltage turn the
module off, and the failure of the wellhead core domain leaves it in standby. Each keeps what lies in the aquifer and
what is fused, and nothing else of the machine. A thermal trip turns every well off with its cistern. The wellhead
starts once its domain is good (R54, R56, R57, R62, R71, R738, R742). An input voltage out of its limits is latched and
alerted. A sample of the input power is recorded, and marks the power limit; while that does not limit it, each well's
supply is at its thermal target. PM_INPUT_LIMIT is applied within 1,000 and 4,000 W (R51, R52, R55). The management
controller answers each command with what the machine holds, and changes nothing else; CLEAR_FAULTS clears its status
bytes, and no alert. With no current junction the hottest one is open, and so is the low bit of the alert response (R69,
R70, R762). The places of the bits and the formats are the family's (PMBus 1.3, SMBus), which the log presumes. The
first release of PERST of half 0 starts the boot; an assertion resets the queues of its half and takes its link down, a
function-level reset its queues alone. Links go down and come up (R57, R64, R65, R601, R621). -/
def Obligations.SupplyAndLinksLoseTheirState : Prop :=
  (∀ (s : State),
     (∃ t, exec .coldReset s = .next t ∧ s.keepsAquifer t ∧ isCold t ∧ t.reg rPmTimebase = 0#64
       ∧ t.fld rPmTbStatus 47 32 = (s.pw.boots + 1) % 65536 ∧ t.pw.off = false)
     ∧ (s.pw.off = false →
       (∀ modEn, ∃ t, exec (.inputLossShutdown modEn) s = .next t ∧ s.keepsAquifer t ∧ isCold t ∧ t.pw.off = true)
       ∧ (∃ t, exec .overVoltageLockout s = .next t ∧ s.keepsAquifer t ∧ isCold t ∧ t.pw.off = true
           ∧ t.pw.stInput = s.pw.stInput ||| 0x80#8))
     ∧ (∀ canSend, s.pw.pg = true →
       ∃ t, exec (.wellheadDomainFailure canSend) s = .next t ∧ s.keepsAquifer t ∧ isCold t ∧ t.pw.standby = true)
     ∧ (s.pw.off = false → s.pw.standby = false → s.pw.w4 = false → s.pw.pg = false → s.refsPresent = true →
         s.pw.perst0 = true →
       exec .wellheadDomainGood s = .next { s with pw := { s.pw with pg := true, rails := tabErase s.pw.rails 25 } })
     ∧ (∀ d : Fin 25, s.pw.off = false → s.pw.tripDie = none →
       ∃ t, exec (.thermalTrip d) s = .next t ∧ t.cistern = [] ∧ t.reservoir = s.reservoir ∧ t.aquifer = s.aquifer
         ∧ t.pw.standby = true ∧ t.pw.tripDie = some d.val ∧ bitOf (t.reg rFcAlert) 2 = true
         ∧ ∀ w < 12, t.wellPm w = 7 ∧ (t.well w).job = none ∧ t.fld (rPmWellStat w) 15 0 = 0))
  ∧ (∀ (s : State),
       (∀ high, s.alive = true →
         ∃ t, exec (.inputVoltageWarning high) s = .next t ∧ sameMem s t ∧ t.jobs = s.jobs
           ∧ t.fld rPmInputStatus (if high then 19 else 20) (if high then 19 else 20) = 1
           ∧ bitOf (t.reg rFcAlert) high.toNat = true)
       ∧ (∀ (inst avg1ms avg1s : BitVec 13) (mv ma : BitVec 17) (limited : Bool), s.alive = true →
           s.powerOk inst.toNat avg1s.toNat = true → s.inputOk inst.toNat mv.toNat ma.toNat = true →
           41000 ≤ mv.toNat → mv.toNat ≤ 62000 →
         ∃ t, exec (.inputPowerSample inst avg1ms avg1s mv ma limited) s = .next t
           ∧ t.pw.vin = mv.toNat ∧ t.pw.iin = ma.toNat ∧ t.pw.pin = avg1ms.toNat * 1000
           ∧ t.fld rPmInputStatus 15 0 = avg1ms.toNat ∧ t.fld rPmInputStatus 21 21 = limited.toNat
           ∧ (limited = false → ∀ w ∈ s.supplied, t.fld (rPmWellStat w) 15 0 = tabGet 600 s.pw.vtherm w % 65536)
           ∧ (limited = true → ∀ w ∈ s.supplied, tabGet 600 s.pw.vtherm w ≤ 920 → 600 < tabGet 600 s.pw.vtherm w →
               600 ≤ t.fld (rPmWellStat w) 15 0 ∧ t.fld (rPmWellStat w) 15 0 < tabGet 600 s.pw.vtherm w
                 ∧ t.fld (rPmWellStat w) 27 26 = 2)
           ∧ { t with regs := s.regs, pw := s.pw, fresh := s.fresh } = s)
       ∧ (∃ t, exec .inputLimitApply s = .next t ∧ { t with pw := s.pw } = s
         ∧ 1000 ≤ t.pw.limitW ∧ t.pw.limitW ≤ 4000
         ∧ (1000 ≤ s.fld rPmInputLimit 12 0 → s.fld rPmInputLimit 12 0 ≤ 4000 → t.pw.limitW = s.fld rPmInputLimit 12 0)))
  ∧ (∀ (s : State), s.answers = true →
       (∀ i bytes, s.mgmtRead i = some bytes → exec i s = .next { s with pw := { s.pw with answer := bytes } })
       ∧ exec .clearFaults s = .next { s with pw := { s.pw with stInput := 0#8, stTemp := 0#8, answer := [] } }
       ∧ (s.current = [] → ∃ t n, exec .readTemperature3 s = .next t ∧ t.pw = { s.pw with answer := linearBytes n }
           ∧ { t with pw := s.pw, fresh := s.fresh } = s)
       ∧ (s.fld rFcAlert 10 0 ≠ 0 → ∃ t b, exec .smbusAlertResponse s = .next t ∧ b < 2
           ∧ t.pw = { s.pw with answer := [BitVec.ofNat 8 (2 * (0x58 + Config.slotId.toNat) + b)] }
           ∧ { t with pw := s.pw, fresh := s.fresh } = s))
  ∧ (∀ (s : State) (half : Fin 2),
       (∀ two, s.pw.perst0 = true → s.alive = true →
         ∃ t, exec (.perstDeassert 0 two) s = .next t ∧ t.pw.perst0 = false ∧ sameMem s t ∧ t.jobs = s.jobs
           ∧ (s.pw.sampled = false → t.stage = 1 ∧ t.bifurc = two ∧ t.pw.bootAt = s.now
               ∧ t.hostDown = (if s.fld (rPmRefStat 0) 63 61 = 0 then none else s.hostDown))
           ∧ (s.pw.sampled = true → t.regs = s.regs ∧ t.bifurc = s.bifurc ∧ t.hostDown = s.hostDown))
       ∧ (∀ two, s.pw.perst1 = true →
         exec (.perstDeassert 1 two) s = .next { s with pw := { s.pw with perst1 := false } })
       ∧ (∃ t, exec (.perstAssertHalf half) s = .next t
         ∧ sameMem (if half.val = 1 ∧ s.bifurc = false ∨ s.alive = false then s else s.unlockHalf half) t ∧ (half.val = 0 → t.pw.perst0 = true ∧ t.hostDown.isSome = true)
         ∧ (half.val = 1 → t.pw.perst1 = true ∧ (s.bifurc = true → t.halfDown.isSome = true)))
       ∧ ((half.val = 0 ∨ s.bifurc = true) → s.alive = true →
         ∃ t, exec (.functionLevelReset half) s = .next t ∧ sameMem (s.unlockHalf half) t
           ∧ (∀ q < 64, s.qOwner q = half.val → t.qGen q = (s.qGen q + 1) % 256 ∧ t.fld (rQCtl q) 63 63 = 0)
           ∧ ∀ q < 64, s.qOwner q ≠ half.val → t.hq q = s.hq q ∧ t.qGen q = s.qGen q)
       ∧ ((half.val = 0 ∨ s.bifurc = true) →
         ∃ t, exec (.pcieLinkDown half) s = .next t ∧ (half.val = 0 → t.hostDown = some (s.hostDown.getD s.now))
           ∧ (half.val = 1 → t.halfDown = some (s.halfDown.getD s.now))
           ∧ { t with hostDown := s.hostDown, halfDown := s.halfDown } = s)
       ∧ (s.pw.pg = true → s.pw.sampled = true → (half.val = 0 ∨ s.bifurc = true) → s.fld (rPmRefStat half) 63 61 = 0 →
           (half.val = 0 → s.pw.perst0 = false) → (half.val = 1 → s.pw.perst1 = false) →
         exec (.pcieLinkUp half) s
           = .next (if half.val = 0 then { s with hostDown := none } else { s with halfDown := none })))

/-- A command of WH_RESET is ignored while one is under way, and answers RESULT 1 where the state does not allow it. A warm
reset rolls running jobs back and keeps the timebase, and the firmware's watchdog does the same; a takeover reset keeps
the aquifer, the timebase and the count of cold starts; a recovery image runs if its checks pass and answers RESULT 2 if
not; a well reset is BUSY while a self-test runs (R739 to R742, R749, R750, R754). The boot: the ROM takes its copies in
order and runs the first whose checks pass, which a clear bit of its FAIL code shows, and with none left waits for
recovery; trained packages lead to the staging of the wells, trained reservoir channels to their rates; tested wells are
mapped or LOST; and the configuration leaves the device ready, with BOOT_MS and vector 251 (R478, R507, R744 to R753,
R779). -/
def Obligations.ResetsAndBootFollowTheirOrder : Prop :=
  (∀ (s : State),
     (∀ i v op allowed, s.resetOp i = some (v, op, allowed) → bitsOf v 2 0 = op →
       (s.fld rWhReset 31 31 = 1 → exec i s = .next s)
       ∧ (s.fld rWhReset 31 31 = 0 → allowed = false →
         ∃ t, exec i s = .next t ∧ t.fld rWhReset 30 28 = 1 ∧ { t with regs := s.regs } = s
           ∧ ∀ o, o ≠ rWhReset → t.reg o = s.reg o)
       ∧ (s.fld rWhReset 31 31 = 0 → allowed = true →
         ∃ t, exec i s = .next t ∧ t.pw.floor = s.pw.floor
           ∧ (op = 1 → t.reg rPmTimebase = s.reg rPmTimebase ∧ t.colls = [] ∧ t.sessions = [] ∧ t.jn.program = none
             ∧ ∀ j x, s.job j = some x → x.phase = .running →
                 ∃ y, t.job j = some y ∧ y.phase = .preempted ∧ y.rollback = true ∧ y.status = none)
           ∧ (op = 2 → s.keepsAquifer t ∧ t.cistern = [] ∧ t.reservoir = [] ∧ t.jobs = [] ∧ t.pw.boots = s.pw.boots
             ∧ t.reg rPmTimebase = s.reg rPmTimebase ∧ t.pairState = 0)
           ∧ (op = 3 → t.fld rWhReset 31 31 = (t.pw.testing.any (fun e => e.2 == 1)).toNat)
           ∧ (op = 4 → sameMem s t
             ∧ (Image.code ⟨s.recovery, 0⟩ s.pw.floor = 0 →
                 t.stage = 3 ∧ t.fld rWhFw 47 32 = Image.svn ⟨s.recovery, 0⟩ ∧ t.fld rWhReset 30 28 = 0)
             ∧ (Image.code ⟨s.recovery, 0⟩ s.pw.floor ≠ 0 → t.stage = 8 ∧ t.fld rWhReset 30 28 = 2))))
     ∧ (∀ intact, s.firmwareRuns = true →
       ∃ t, exec (.firmwareWatchdogExpiry intact) s = .next t ∧ t.reg rPmTimebase = s.reg rPmTimebase
         ∧ t.stage = (if intact then (if 6 ≤ s.stage then 10 else s.stage) else 1) ∧ t.colls = [] ∧ t.jn.program = none)
     ∧ (∀ (w : WellId) (part : Fin 3), s.booted = true → s.resettable w = true →
       ∃ t, exec (.wellHandshakeWatchdog w part) s = .next t ∧ (t.well w).job = none
         ∧ (∀ l, l < 128 → t.deque w l = []) ∧ (∀ k, k < 8 → t.reg (rEvCnt (8 * w.val + k)) = 0#64)
         ∧ (∀ v, v ≠ w.val → t.well v = s.well v)
         ∧ (((tabGet [] s.pw.resets w.val).filter (fun n => decide (s.now < n + 1000000000))).length < 3 →
             t.wellPm w = 7 ∧ (w.val, 1) ∈ t.pw.testing)
         ∧ (3 ≤ ((tabGet [] s.pw.resets w.val).filter (fun n => decide (s.now < n + 1000000000))).length →
             t.wellState w = 3)))
  ∧ (∀ (s : State), s.alive = true →
       (∀ c rest (readOk : Bool), s.stage = 1 → s.pw.copies = c :: rest → c < 2 → (readOk = true → s.aqLost (6 * c) = false) →
         let code := if readOk then (s.bootCopy c).code s.pw.floor else 1
         ∃ t, exec (.bootCopyChecked readOk) s = .next t ∧ sameMem s t ∧ t.pw.copies = rest
           ∧ t.fld rWhBoot (if c = 0 then 57 else 53) (if c = 0 then 54 else 50) = code
           ∧ (code = 0 → t.stage = 3 ∧ t.pw.copyUsed = c ∧ t.fld rWhBoot 59 59 = c
               ∧ t.fld rWhFw 47 32 = (s.bootCopy c).svn)
           ∧ (code ≠ 0 → rest ≠ [] → t.stage = 1 ∧ t.fld rWhBoot 58 58 = 1)
           ∧ (code ≠ 0 → rest = [] → t.stage = 8 ∧ bitOf (t.reg rFcAlert) 6 = true))
       ∧ (∀ rates : List (BitVec 8), s.stage = 3 → rates.length = 12 →
         ∃ t, exec (.aquiferTrainingDone rates) s = .next t ∧ sameMem s t
           ∧ (s.pw.trained = true → t.stage = 10) ∧ (s.pw.trained = false → t.stage = 4 ∧ t.pw.staging = List.range 12)
           ∧ ∀ k < 12, s.aqLost k = false →
               t.fld (rAqPkgStat k) 31 29 = 0 ∧ t.fld (rAqPkgStat k) 23 16 = (rates.getD k 0xFF#8).toNat)
       ∧ (∀ rates : List (BitVec 8), s.stage = 5 → s.pw.trained = false → rates.length = 36 →
         ∃ t, exec (.reservoirTrainingDone rates) s = .next t ∧ sameMem s t ∧ t.pw.trained = true
           ∧ ∀ k < 36, t.fld (rRvPkgStat k) 31 24 = (rates.getD k 0xFF#8).toNat
             ∧ (untrained (rates.getD k 0xFF#8).toNat = true → t.rvState k = 4))
       ∧ (∀ (w : WellId) (fail : BitVec 136) (ctl cis : Bool) (us : Word32) k,
           s.pw.testing.find? (fun t => t.1 == w.val) = some (w.val, k) →
         ∃ t, exec (.wellSelfTestDone w fail ctl cis us) s = .next t
           ∧ (∀ p, p < 136 → (t.bob w p).passedTest = !fail.toNat.testBit p)
           ∧ (∀ e ∈ t.pw.testing, e.1 ≠ w.val)
           ∧ t.fld (rWlStResult w) 31 0 = us.toNat ∧ t.fld (rWlStResult w) 47 47 = ctl.toNat
           ∧ t.fld (rWlStResult w) 46 46 = cis.toNat
           ∧ (ctl = true ∨ cis = true → t.wellState w = 3)
           ∧ (2 ≤ k → t.fld rWhWellCmd 31 31 = 0 ∧ (t.fld rWhWellCmd 30 28 = 0 ∧ t.wellState w = 1
               ∨ t.fld rWhWellCmd 30 28 = 2 ∧ t.wellState w = 3)))
       ∧ (∀ cfg, (s.stage = 10 ∨ s.stage = 5 ∧ s.pw.testing = [] ∧ s.pw.trained = true) →
         ∃ t, exec (.bootComplete cfg) s = .next t ∧ (t.stage = 6 ∨ t.stage = 7)
           ∧ (t.stage = 7 ↔ ∃ w < 12, t.wellLost w = true)
           ∧ t.fld rWhBoot 31 0 = (s.now - s.pw.bootAt) / 1000000 % 2 ^ 32 ∧ (0, 251) ∈ t.msix
           ∧ (s.stage = 5 → t.fld rRvPlace 31 31 = 1)))

/-- A command of WH_WELL_CMD is ignored while one is under way, has no effect on wells 12 to 15, and answers RESULT 1 in a
state that does not allow it. FENCE takes a well out of service, TEST puts it under test with BUSY set, waking it first
if it sleeps, and RELEASE returns a tested well to service in W1 (R779, R780). A report takes the record of its source
and class, or is counted in it with the larger severity; a cleared record is free. The collector's interrupt waits for
its hold-off, alerts are cleared by ones, and event counters freeze and clear (R756, R759 to R762, R770, R772). A sweep
of the sensor chain numbers itself, records every die that it reaches with that number, and gives each well its
junction; a hop that does not answer is recorded and reported: the other end still reaches the dies beyond it, and two
such hops leave out the dies between them (R765 to R769). -/
def Obligations.WellsReportsAndSensorsAnswer : Prop :=
  (∀ (s : State) (i : Instr) (v : Word) (op : Nat) (allowed : Bool),
     s.wellOp i = some (v, op, allowed) → bitsOf v 1 0 = op →
       let w := bitsOf v 7 4
       (s.fld rWhWellCmd 31 31 = 1 → exec i s = .next s)
       ∧ (s.fld rWhWellCmd 31 31 = 0 → (12 ≤ w ∨ allowed = false) →
         ∃ t, exec i s = .next t ∧ (w < 12 → t.fld rWhWellCmd 30 28 = 1) ∧ { t with regs := s.regs } = s
           ∧ ∀ o, o ≠ rWhWellCmd → t.reg o = s.reg o)
       ∧ (s.fld rWhWellCmd 31 31 = 0 → w < 12 → allowed = true →
         ∃ t, exec i s = .next t ∧ t.fld rWhWellCmd 30 28 = 0 ∧ t.fld rWhWellCmd 7 4 = w ∧ sameMem s t
           ∧ (op = 1 → t.wellState w = 1 ∧ ∀ j x, s.job j = some x →
               t.job j = some (if w ∈ x.wells ∧ x.phase ≠ .committed then { x with rebuild := true } else x))
           ∧ (op = 2 → t.wellState w = 2 ∧ t.fld rWhWellCmd 31 31 = 1 ∧ t.jobs = s.jobs
               ∧ ((s.wellState w = 3 ∨ 2 ≤ s.wellPm w) → w ∈ t.pw.staging)
               ∧ (s.wellState w = 1 → s.wellPm w < 2 → (w, 2) ∈ t.pw.testing))
           ∧ (op = 3 → (t.wellState w = 0 ∧ t.wellPm w = 1 ∨ t.wellState w = 3)
               ∧ ∀ e k, k < 64 → e < 65536 → t.event w k e = 0)))
  ∧ (∀ (s : State),
       (∀ r : ReportIn, r.cls.val ≠ 0 →
         let o := rFcRec (16 * r.src.val + r.cls.val)
         ∃ t, exec (.faultReport r) s = .next t ∧ sameMem s t ∧ t.jobs = s.jobs ∧ bitOf (t.reg o) 63 = true
           ∧ t.fld rFcSummary r.src.val r.src.val = 1
           ∧ (bitOf (s.reg o) 63 = false →
               t.fld o 62 61 = r.sev.val ∧ t.fld o 47 32 = 0 ∧ t.fld o 26 16 = r.runit.toNat
                 ∧ t.reg (rFcTb (16 * r.src.val + r.cls.val)) = s.reg rPmTimebase)
           ∧ (bitOf (s.reg o) 63 = true →
               t.fld o 62 61 = max r.sev.val (s.fld o 62 61) ∧ t.fld o 47 32 = min (s.fld o 47 32 + 1) 65535))
       ∧ (∀ i : Fin 512, ∃ t, exec (.fcRecordClear i) s = .next t ∧ { t with regs := s.regs } = s
           ∧ bitOf (t.reg (rFcRec i)) 63 = false ∧ ∀ k, k < 512 → k ≠ i.val → t.reg (rFcRec k) = s.reg (rFcRec k))
       ∧ (s.fld rFcSummary 63 63 = 1 → (∀ t0, s.fcLast = some t0 → t0 + s.holdoff ≤ s.now) →
         ∃ t, exec .fcHoldoffExpiry s = .next t ∧ t.fld rFcSummary 63 63 = 0 ∧ t.fcLast = some s.now
           ∧ t.msix = (0, s.fld rFcCtl 31 24) :: s.msix)
       ∧ (∀ v : Word, ∃ t, exec (.fcAlertClear v) s = .next t ∧ t.reg rFcAlert = s.reg rFcAlert &&& ~~~v
           ∧ { t with regs := s.regs } = s ∧ ∀ o, o ≠ rFcAlert → t.reg o = s.reg o)
       ∧ (∀ v : Word,
         (bitOf v 1 = true → bitOf v 0 = false → ∃ t, exec (.evFreeze v) s = .next t ∧ t.fld rEvGlobal 1 1 = 1
           ∧ { t with regs := s.regs } = s ∧ ∀ n, n < 96 → t.reg (rEvCnt n) = s.reg (rEvCnt n))
         ∧ (bitOf v 0 = true → ∃ t, exec (.evClear v) s = .next t ∧ t.fld rEvGlobal 1 1 = bitsOf v 1 1
           ∧ { t with regs := s.regs } = s ∧ ∀ n, n < 96 → t.reg (rEvCnt n) = 0#64)))
  ∧ (∀ (s : State), s.senses = true →
       (∀ x : Sweep, s.sweepDue = true → x.dies.length = 25 →
         ∃ t, exec (.sensorSweep x) s = .next t ∧ sameMem s t
           ∧ t.fld rScSweep 63 32 = (s.fld rScSweep 63 32 + 1) % 2 ^ 32 ∧ t.fld rScSweep 15 0 = x.dur.toNat
           ∧ t.fld rScCoolant 15 0 = x.inlet.toNat ∧ t.fld rScCoolant 31 16 = x.outlet.toNat
           ∧ (∀ d ∈ s.sought, s.reached d = true →
               t.fld (rScDie d) 63 32 = t.fld rScSweep 63 32 ∧ t.fld (rScDie d) 31 22 = (x.dies.getD d (0#10, 0#12)).1.toNat)
           ∧ (∀ d < 25, (d ∉ s.sought ∨ s.reached d = false) → t.reg (rScDie d) = s.reg (rScDie d))
           ∧ t.pw.sweepAt = s.now ∧ t.pw.hopAsc = none ∧ t.pw.hopDesc = none)
       ∧ (∀ h : Fin 25, s.sweepsOne = false →
         (s.pw.hopAsc = none → h.val < 24 →
           ∃ t, exec (.sensorHopTimeout h true) s = .next t ∧ t.pw = { s.pw with hopAsc := some h.val } ∧ sameMem s t
             ∧ t.jobs = s.jobs ∧ (s.pw.hopDesc = none → ∀ d, t.reached d = true))
         ∧ (∀ a, s.pw.hopAsc = some a → s.pw.hopDesc = none → a < h.val →
           ∃ t, exec (.sensorHopTimeout h false) s = .next t ∧ t.pw = { s.pw with hopDesc := some h.val } ∧ sameMem s t
             ∧ t.jobs = s.jobs ∧ (∀ d, t.reached d = true ↔ d ≤ a ∨ h.val < d))))
end

