-- ==== Sys2Proof/Laws/Table.lean ====
section
/-!
SUPPORT. The laws of sparse tables: what is read after a write, and that every table operation keeps the canonical form.
-/

namespace Sys2Proof.Machine

section
variable {α : Type}

/-- A key below every listed key reads as the default. -/
theorem tabGet_of_rising (d : α) : ∀ (b : Nat) (t : Tab α) (k : Nat), tabRising b t = true → k < b → tabGet d t k = d
  | _, [], _, _, _ => rfl
  | b, (j, u) :: t, k, h, hk => by
    simp only [tabRising, Bool.and_eq_true, decide_eq_true_eq] at h
    have hj : j ≠ k := by omega
    simpa [tabGet, hj] using tabGet_of_rising d (j + 1) t k h.2 (by omega)

/-- Keys that rise from a bound rise from any lower one. -/
theorem tabRising_mono : ∀ (t : Tab α) {b c : Nat}, tabRising b t = true → c ≤ b → tabRising c t = true
  | [], _, _, _, _ => rfl
  | (j, u) :: t, b, c, h, hc => by
    simp only [tabRising, Bool.and_eq_true, decide_eq_true_eq] at h ⊢
    exact ⟨by omega, h.2⟩

/-- Inserting keeps keys rising. -/
theorem tabRising_ins : ∀ (t : Tab α) {b : Nat} (k : Nat) (v : α), tabRising b t = true → b ≤ k →
    tabRising b (tabIns t k v) = true
  | [], b, k, v, _, hk => by simp [tabIns, tabRising, hk]
  | (j, u) :: t, b, k, v, h, hk => by
    simp only [tabRising, Bool.and_eq_true, decide_eq_true_eq] at h
    unfold tabIns
    split
    · rename_i hlt
      simp only [tabRising, Bool.and_eq_true, decide_eq_true_eq]
      exact ⟨hk, by omega, h.2⟩
    · split
      · rename_i he
        subst he
        simp only [tabRising, Bool.and_eq_true, decide_eq_true_eq]
        exact ⟨hk, h.2⟩
      · simp only [tabRising, Bool.and_eq_true, decide_eq_true_eq]
        exact ⟨h.1, tabRising_ins t k v h.2 (by omega)⟩

/-- A part of a rising table rises. -/
theorem tabRising_filter : ∀ (t : Tab α) {b : Nat} (p : Nat × α → Bool), tabRising b t = true →
    tabRising b (t.filter p) = true
  | [], _, _, _ => rfl
  | (j, u) :: t, b, p, h => by
    simp only [tabRising, Bool.and_eq_true, decide_eq_true_eq] at h
    by_cases hp : p (j, u) = true
    · simp only [List.filter, hp, tabRising, Bool.and_eq_true, decide_eq_true_eq]
      exact ⟨h.1, tabRising_filter t p h.2⟩
    · simp only [Bool.not_eq_true] at hp
      simp only [List.filter, hp]
      exact tabRising_filter t p (tabRising_mono t h.2 (by omega))

/-- What insertion lists is what was listed, or the new value. -/
theorem mem_tabIns : ∀ (t : Tab α) (k : Nat) (v : α) (e : Nat × α), e ∈ tabIns t k v → e = (k, v) ∨ e ∈ t
  | [], k, v, e, h => by simp [tabIns] at h; exact .inl h
  | (j, u) :: t, k, v, e, h => by
    unfold tabIns at h
    split at h
    · simpa using h
    · split at h
      · rcases List.mem_cons.mp h with h | h
        · exact .inl h
        · exact .inr (List.mem_cons_of_mem _ h)
      · rcases List.mem_cons.mp h with h | h
        · exact .inr (h ▸ List.mem_cons_self ..)
        · exact (mem_tabIns t k v e h).imp id (List.mem_cons_of_mem _)

/-- Reading the key just inserted. -/
theorem tabGet_ins_self (d : α) : ∀ (t : Tab α) (k : Nat) (v : α), tabGet d (tabIns t k v) k = v
  | [], k, v => by simp [tabIns, tabGet]
  | (j, u) :: t, k, v => by
    unfold tabIns
    split
    · simp [tabGet]
    · split
      · simp [tabGet]
      · rename_i h1 h2
        have hj : j ≠ k := fun h => h2 h.symm
        simpa [tabGet, hj] using tabGet_ins_self d t k v

/-- Reading any other key after an insertion. -/
theorem tabGet_ins_ne (d : α) : ∀ (t : Tab α) {k i : Nat} (v : α), i ≠ k → tabGet d (tabIns t k v) i = tabGet d t i
  | [], k, i, v, h => by simp [tabIns, tabGet, Ne.symm h]
  | (j, u) :: t, k, i, v, h => by
    unfold tabIns
    split
    · simp [tabGet, Ne.symm h]
    · split
      · rename_i he
        subst he
        simp [tabGet, Ne.symm h]
      · simp [tabGet, tabGet_ins_ne d t v h]

/-- Reading a key after another was erased. -/
theorem tabGet_erase_ne (d : α) : ∀ (t : Tab α) {k i : Nat}, i ≠ k → tabGet d (tabErase t k) i = tabGet d t i
  | [], _, _, _ => rfl
  | (j, u) :: t, k, i, h => by
    have ih := tabGet_erase_ne d t (k := k) (i := i) h
    unfold tabErase at ih ⊢
    by_cases hj : j = k
    · subst hj
      simp [List.filter, tabGet, Ne.symm h, ih]
    · have : (j != k) = true := by simp [hj]
      simp [List.filter, this, tabGet, ih]

/-- Reading the key just erased. -/
theorem tabGet_erase_self (d : α) : ∀ (t : Tab α) (k : Nat), tabGet d (tabErase t k) k = d
  | [], _ => rfl
  | (j, u) :: t, k => by
    have ih := tabGet_erase_self d t k
    unfold tabErase at ih ⊢
    by_cases hj : j = k
    · subst hj
      simp [List.filter, ih]
    · have : (j != k) = true := by simp [hj]
      simp [List.filter, this, tabGet, hj, ih]

end

section
variable {α : Type} [DecidableEq α]

/-- The value just written is read. -/
@[simp] theorem tabGet_put_self (d : α) (t : Tab α) (k : Nat) (v : α) : tabGet d (tabPut d t k v) k = v := by
  unfold tabPut
  split
  · rename_i h
    rw [h]
    exact tabGet_erase_self d t k
  · exact tabGet_ins_self d t k v

/-- A write leaves every other key alone. -/
theorem tabGet_put_ne (d : α) (t : Tab α) {k i : Nat} (v : α) (h : i ≠ k) : tabGet d (tabPut d t k v) i = tabGet d t i := by
  unfold tabPut
  split
  · exact tabGet_erase_ne d t h
  · exact tabGet_ins_ne d t v h

/-- Read after write, at any key. -/
theorem tabGet_put (d : α) (t : Tab α) (k i : Nat) (v : α) :
    tabGet d (tabPut d t k v) i = if i = k then v else tabGet d t i := by
  by_cases h : i = k
  · subst h
    simp
  · simp [h, tabGet_put_ne d t v h]

/-- A part of a canonical table is canonical. -/
theorem tabWf_filter (d : α) (t : Tab α) (p : Nat × α → Bool) (h : tabWf d t = true) : tabWf d (t.filter p) = true := by
  simp only [tabWf, Bool.and_eq_true, List.all_eq_true] at h ⊢
  exact ⟨tabRising_filter t p h.1, fun x hx => h.2 x (List.mem_filter.mp hx).1⟩

/-- A write keeps the canonical form. -/
theorem tabWf_put (d : α) (t : Tab α) (k : Nat) (v : α) (h : tabWf d t = true) : tabWf d (tabPut d t k v) = true := by
  unfold tabPut
  split
  · exact tabWf_filter d t _ h
  · rename_i hv
    simp only [tabWf, Bool.and_eq_true, List.all_eq_true] at h ⊢
    refine ⟨tabRising_ins t k v h.1 (Nat.zero_le _), fun x hx => ?_⟩
    rcases mem_tabIns t k v x hx with rfl | hx
    · simp [hv]
    · exact h.2 x hx

/-- Dropping keys keeps the canonical form. -/
theorem tabWf_drop (d : α) (t : Tab α) (p : Nat → Bool) (h : tabWf d t = true) : tabWf d (tabDrop p t) = true :=
  tabWf_filter d t _ h

/-- The empty table is canonical. -/
@[simp] theorem tabWf_nil (d : α) : tabWf d [] = true := rfl

end

end Sys2Proof.Machine
end

