-- ==== Sys2Proof/Laws/Regs.lean ====
section
/-!
SUPPORT. The laws of registers and units: what is read after one is replaced.
-/

namespace Sys2Proof.Machine

section
variable (s : State)

/-- A register just written. -/
@[simp] theorem State.reg_setReg (o : Nat) (v : Word) : (s.setReg o v).reg o = v := by
  simp [State.reg, State.setReg]

/-- Any other register. -/
theorem State.reg_setReg_ne {o i : Nat} (v : Word) (h : i ≠ o) : (s.setReg o v).reg i = s.reg i := by
  simp [State.reg, State.setReg, tabGet]
  have := tabGet_put_ne (regReset i) s.regs v h
  unfold tabPut at this ⊢
  split at this <;> split <;> first
    | exact tabGet_erase_ne (regReset i) s.regs h
    | exact tabGet_ins_ne (regReset i) s.regs v h

/-- Any other register, after one field was replaced. -/
theorem State.reg_setFld_ne {o i : Nat} (hi lo v : Nat) (h : i ≠ o) : (s.setFld o hi lo v).reg i = s.reg i :=
  s.reg_setReg_ne _ h

/-- Any other register, after one field was raised. -/
theorem State.reg_incFld_ne {o i : Nat} (hi lo n : Nat) (h : i ≠ o) : (s.incFld o hi lo n).reg i = s.reg i :=
  s.reg_setReg_ne _ h

/-- Any other register, after a record register latched. -/
theorem State.reg_latch_ne {o i : Nat} (v : Word) (h : i ≠ o) : (s.latch o v).reg i = s.reg i := by
  unfold State.latch
  split
  · exact s.reg_setFld_ne _ _ _ h
  · exact s.reg_setReg_ne _ h

/-- The well just replaced. -/
@[simp] theorem State.well_setWell (w : Nat) (x : Well) : (s.setWell w x).well w = x := by simp [State.well, State.setWell]

/-- Any other well. -/
theorem State.well_setWell_ne {w v : Nat} (x : Well) (h : v ≠ w) : (s.setWell w x).well v = s.well v := by
  simp [State.well, State.setWell, tabGet_put_ne _ _ _ h]

/-- The bobbin just replaced. -/
@[simp] theorem State.bob_setBob (w p : Nat) (b : Bobbin) : (s.setBob w p b).bob w p = b := by simp [State.bob, State.setBob]

/-- The deque just replaced. -/
@[simp] theorem State.deque_setDeque (w l : Nat) (d : List DeqEntry) : (s.setDeque w l d).deque w l = d := by
  simp [State.deque, State.setDeque]

/-- The event counter just written. -/
@[simp] theorem State.event_setEvent (w k ev v : Nat) : (s.setEvent w k ev v).event w k ev = v := by
  simp [State.event, State.setEvent]

/-- The walk record just written. -/
@[simp] theorem State.wrec_setWrec (w k r : Nat) (x : WalkRec) : (s.setWrec w k r x).wrec w k r = x := by
  simp [State.wrec, State.setWrec]

end

/-! ### Fields -/

/-- A field replaced is read back, reduced to its width. -/
theorem bitsOf_setBits (w : Word) (hi lo v : Nat) (h1 : lo ≤ hi) (h2 : hi < 64) :
    bitsOf (setBits w hi lo v) hi lo = v % 2 ^ (hi - lo + 1) := by
  have hw : w.toNat < 2 ^ 64 := w.isLt
  have e1 : (2 : Nat) ^ (hi + 1) = 2 ^ lo * 2 ^ (hi - lo + 1) := by rw [← Nat.pow_add]; congr 1; omega
  have e2 : (2 : Nat) ^ 64 = 2 ^ (hi + 1) * 2 ^ (64 - (hi + 1)) := by rw [← Nat.pow_add]; congr 1; omega
  unfold bitsOf setBits
  simp only [BitVec.toNat_ofNat, Nat.shiftRight_eq_div_pow]
  have hv : v % 2 ^ (hi - lo + 1) < 2 ^ (hi - lo + 1) := Nat.mod_lt _ (by positivity)
  have hl : w.toNat % 2 ^ lo < 2 ^ lo := Nat.mod_lt _ (by positivity)
  have hq : w.toNat / 2 ^ (hi + 1) < 2 ^ (64 - (hi + 1)) := by
    rw [Nat.div_lt_iff_lt_mul (by positivity), mul_comm, ← e2]; exact hw
  set A := w.toNat % 2 ^ lo
  set B := v % 2 ^ (hi - lo + 1)
  set C := w.toNat / 2 ^ (hi + 1)
  have hlt : A + B * 2 ^ lo + C * 2 ^ (hi + 1) < 2 ^ 64 := by
    have : A + B * 2 ^ lo < 2 ^ (hi + 1) := by
      rw [e1]
      calc A + B * 2 ^ lo < 2 ^ lo + B * 2 ^ lo := by omega
        _ = 2 ^ lo * (B + 1) := by ring
        _ ≤ 2 ^ lo * 2 ^ (hi - lo + 1) := Nat.mul_le_mul_left _ hv
    calc A + B * 2 ^ lo + C * 2 ^ (hi + 1) < 2 ^ (hi + 1) + C * 2 ^ (hi + 1) := by omega
      _ = 2 ^ (hi + 1) * (C + 1) := by ring
      _ ≤ 2 ^ (hi + 1) * 2 ^ (64 - (hi + 1)) := Nat.mul_le_mul_left _ hq
      _ = 2 ^ 64 := e2.symm
  rw [Nat.mod_eq_of_lt hlt, e1]
  have : A + B * 2 ^ lo + C * (2 ^ lo * 2 ^ (hi - lo + 1)) = A + 2 ^ lo * (B + C * 2 ^ (hi - lo + 1)) := by ring
  rw [this, Nat.add_mul_div_left _ _ (by positivity), Nat.div_eq_of_lt hl, Nat.zero_add, Nat.add_mul_mod_self_right,
    Nat.mod_eq_of_lt hv]

/-- A register field replaced is read back, reduced to its width. -/
theorem State.fld_setFld (s : State) (o hi lo v : Nat) (h1 : lo ≤ hi) (h2 : hi < 64) :
    (s.setFld o hi lo v).fld o hi lo = v % 2 ^ (hi - lo + 1) := by
  simp [State.fld, State.setFld, bitsOf_setBits _ hi lo v h1 h2]

/-- A field of any other register. -/
theorem State.fld_setFld_ne (s : State) {o i : Nat} (hi lo v a b : Nat) (h : i ≠ o) :
    (s.setFld o hi lo v).fld i a b = s.fld i a b := by
  simp [State.fld, s.reg_setFld_ne hi lo v h]

end Sys2Proof.Machine
end

