-- ==== Sys2Proof/Laws/State.lean ====
section
/-!
SUPPORT. What each update of the state leaves alone: one lemma per field and update, so that no proof unfolds a record
update.
-/

namespace Sys2Proof.Machine

section
variable (s : State)

/-! ### setReg -/

@[simp] theorem State.setReg_pending (o : Nat) (v : Word) : (s.setReg o v).pending = s.pending := rfl
@[simp] theorem State.setReg_fresh (o : Nat) (v : Word) : (s.setReg o v).fresh = s.fresh := rfl
@[simp] theorem State.setReg_cistern (o : Nat) (v : Word) : (s.setReg o v).cistern = s.cistern := rfl
@[simp] theorem State.setReg_reservoir (o : Nat) (v : Word) : (s.setReg o v).reservoir = s.reservoir := rfl
@[simp] theorem State.setReg_aquifer (o : Nat) (v : Word) : (s.setReg o v).aquifer = s.aquifer := rfl
@[simp] theorem State.setReg_hostMem (o : Nat) (v : Word) : (s.setReg o v).hostMem = s.hostMem := rfl
@[simp] theorem State.setReg_poison (o : Nat) (v : Word) : (s.setReg o v).poison = s.poison := rfl
@[simp] theorem State.setReg_wells (o : Nat) (v : Word) : (s.setReg o v).wells = s.wells := rfl
@[simp] theorem State.setReg_bobs (o : Nat) (v : Word) : (s.setReg o v).bobs = s.bobs := rfl
@[simp] theorem State.setReg_faultRecs (o : Nat) (v : Word) : (s.setReg o v).faultRecs = s.faultRecs := rfl
@[simp] theorem State.setReg_deques (o : Nat) (v : Word) : (s.setReg o v).deques = s.deques := rfl
@[simp] theorem State.setReg_events (o : Nat) (v : Word) : (s.setReg o v).events = s.events := rfl
@[simp] theorem State.setReg_walkRecs (o : Nat) (v : Word) : (s.setReg o v).walkRecs = s.walkRecs := rfl
@[simp] theorem State.setReg_imem (o : Nat) (v : Word) : (s.setReg o v).imem = s.imem := rfl
@[simp] theorem State.setReg_splits (o : Nat) (v : Word) : (s.setReg o v).splits = s.splits := rfl
@[simp] theorem State.setReg_savedWells (o : Nat) (v : Word) : (s.setReg o v).savedWells = s.savedWells := rfl
@[simp] theorem State.setReg_savedDeques (o : Nat) (v : Word) : (s.setReg o v).savedDeques = s.savedDeques := rfl
@[simp] theorem State.setReg_jobs (o : Nat) (v : Word) : (s.setReg o v).jobs = s.jobs := rfl
@[simp] theorem State.setReg_reqs (o : Nat) (v : Word) : (s.setReg o v).reqs = s.reqs := rfl
@[simp] theorem State.setReg_units (o : Nat) (v : Word) : (s.setReg o v).units = s.units := rfl
@[simp] theorem State.setReg_pumps (o : Nat) (v : Word) : (s.setReg o v).pumps = s.pumps := rfl
@[simp] theorem State.setReg_susp (o : Nat) (v : Word) : (s.setReg o v).susp = s.susp := rfl
@[simp] theorem State.setReg_caches (o : Nat) (v : Word) : (s.setReg o v).caches = s.caches := rfl
@[simp] theorem State.setReg_engine (o : Nat) (v : Word) : (s.setReg o v).engine = s.engine := rfl
@[simp] theorem State.setReg_whPumps (o : Nat) (v : Word) : (s.setReg o v).whPumps = s.whPumps := rfl
@[simp] theorem State.setReg_ops (o : Nat) (v : Word) : (s.setReg o v).ops = s.ops := rfl
@[simp] theorem State.setReg_nextId (o : Nat) (v : Word) : (s.setReg o v).nextId = s.nextId := rfl
@[simp] theorem State.setReg_hroot (o : Nat) (v : Word) : (s.setReg o v).hroot = s.hroot := rfl
@[simp] theorem State.setReg_fcLast (o : Nat) (v : Word) : (s.setReg o v).fcLast = s.fcLast := rfl
@[simp] theorem State.setReg_hostDown (o : Nat) (v : Word) : (s.setReg o v).hostDown = s.hostDown := rfl
@[simp] theorem State.setReg_rvSelfRefresh (o : Nat) (v : Word) : (s.setReg o v).rvSelfRefresh = s.rvSelfRefresh := rfl
@[simp] theorem State.setReg_tlb (o : Nat) (v : Word) : (s.setReg o v).tlb = s.tlb := rfl
@[simp] theorem State.setReg_walkPtrs (o : Nat) (v : Word) : (s.setReg o v).walkPtrs = s.walkPtrs := rfl
@[simp] theorem State.setReg_missQs (o : Nat) (v : Word) : (s.setReg o v).missQs = s.missQs := rfl
@[simp] theorem State.setReg_walkers (o : Nat) (v : Word) : (s.setReg o v).walkers = s.walkers := rfl
@[simp] theorem State.setReg_lines (o : Nat) (v : Word) : (s.setReg o v).lines = s.lines := rfl
@[simp] theorem State.setReg_dir (o : Nat) (v : Word) : (s.setReg o v).dir = s.dir := rfl
@[simp] theorem State.setReg_evacs (o : Nat) (v : Word) : (s.setReg o v).evacs = s.evacs := rfl
@[simp] theorem State.setReg_buckets (o : Nat) (v : Word) : (s.setReg o v).buckets = s.buckets := rfl
@[simp] theorem State.setReg_bursts (o : Nat) (v : Word) : (s.setReg o v).bursts = s.bursts := rfl
@[simp] theorem State.setReg_caps (o : Nat) (v : Word) : (s.setReg o v).caps = s.caps := rfl
@[simp] theorem State.setReg_rvWaits (o : Nat) (v : Word) : (s.setReg o v).rvWaits = s.rvWaits := rfl
@[simp] theorem State.setReg_rvTurn (o : Nat) (v : Word) : (s.setReg o v).rvTurn = s.rvTurn := rfl
@[simp] theorem State.setReg_rvSlots (o : Nat) (v : Word) : (s.setReg o v).rvSlots = s.rvSlots := rfl
@[simp] theorem State.setReg_rvTicks (o : Nat) (v : Word) : (s.setReg o v).rvTicks = s.rvTicks := rfl
@[simp] theorem State.setReg_repeats (o : Nat) (v : Word) : (s.setReg o v).repeats = s.repeats := rfl
@[simp] theorem State.setReg_mr4At (o : Nat) (v : Word) : (s.setReg o v).mr4At = s.mr4At := rfl
@[simp] theorem State.setReg_aqQs (o : Nat) (v : Word) : (s.setReg o v).aqQs = s.aqQs := rfl
@[simp] theorem State.setReg_aqTurn (o : Nat) (v : Word) : (s.setReg o v).aqTurn = s.aqTurn := rfl
@[simp] theorem State.setReg_boot (o : Nat) (v : Word) : (s.setReg o v).boot = s.boot := rfl
@[simp] theorem State.setReg_links (o : Nat) (v : Word) : (s.setReg o v).links = s.links := rfl
@[simp] theorem State.setReg_colls (o : Nat) (v : Word) : (s.setReg o v).colls = s.colls := rfl
@[simp] theorem State.setReg_decided (o : Nat) (v : Word) : (s.setReg o v).decided = s.decided := rfl
@[simp] theorem State.setReg_saved (o : Nat) (v : Word) : (s.setReg o v).saved = s.saved := rfl
@[simp] theorem State.setReg_sessions (o : Nat) (v : Word) : (s.setReg o v).sessions = s.sessions := rfl
@[simp] theorem State.setReg_windows (o : Nat) (v : Word) : (s.setReg o v).windows = s.windows := rfl
@[simp] theorem State.setReg_fabric (o : Nat) (v : Word) : (s.setReg o v).fabric = s.fabric := rfl
@[simp] theorem State.setReg_bifurc (o : Nat) (v : Word) : (s.setReg o v).bifurc = s.bifurc := rfl
@[simp] theorem State.setReg_halfDown (o : Nat) (v : Word) : (s.setReg o v).halfDown = s.halfDown := rfl
@[simp] theorem State.setReg_recovery (o : Nat) (v : Word) : (s.setReg o v).recovery = s.recovery := rfl
@[simp] theorem State.setReg_hqs (o : Nat) (v : Word) : (s.setReg o v).hqs = s.hqs := rfl
@[simp] theorem State.setReg_jn (o : Nat) (v : Word) : (s.setReg o v).jn = s.jn := rfl
@[simp] theorem State.setReg_pair (o : Nat) (v : Word) : (s.setReg o v).pair = s.pair := rfl
@[simp] theorem State.setReg_pw (o : Nat) (v : Word) : (s.setReg o v).pw = s.pw := rfl
@[simp] theorem State.setReg_msixTab (o : Nat) (v : Word) : (s.setReg o v).msixTab = s.msixTab := rfl
@[simp] theorem State.setReg_bar2Data (o : Nat) (v : Word) : (s.setReg o v).bar2Data = s.bar2Data := rfl
@[simp] theorem State.setReg_msix (o : Nat) (v : Word) : (s.setReg o v).msix = s.msix := rfl

/-! ### setFld -/

@[simp] theorem State.setFld_pending (o hi lo v : Nat) : (s.setFld o hi lo v).pending = s.pending := rfl
@[simp] theorem State.setFld_fresh (o hi lo v : Nat) : (s.setFld o hi lo v).fresh = s.fresh := rfl
@[simp] theorem State.setFld_cistern (o hi lo v : Nat) : (s.setFld o hi lo v).cistern = s.cistern := rfl
@[simp] theorem State.setFld_reservoir (o hi lo v : Nat) : (s.setFld o hi lo v).reservoir = s.reservoir := rfl
@[simp] theorem State.setFld_aquifer (o hi lo v : Nat) : (s.setFld o hi lo v).aquifer = s.aquifer := rfl
@[simp] theorem State.setFld_hostMem (o hi lo v : Nat) : (s.setFld o hi lo v).hostMem = s.hostMem := rfl
@[simp] theorem State.setFld_poison (o hi lo v : Nat) : (s.setFld o hi lo v).poison = s.poison := rfl
@[simp] theorem State.setFld_wells (o hi lo v : Nat) : (s.setFld o hi lo v).wells = s.wells := rfl
@[simp] theorem State.setFld_bobs (o hi lo v : Nat) : (s.setFld o hi lo v).bobs = s.bobs := rfl
@[simp] theorem State.setFld_faultRecs (o hi lo v : Nat) : (s.setFld o hi lo v).faultRecs = s.faultRecs := rfl
@[simp] theorem State.setFld_deques (o hi lo v : Nat) : (s.setFld o hi lo v).deques = s.deques := rfl
@[simp] theorem State.setFld_events (o hi lo v : Nat) : (s.setFld o hi lo v).events = s.events := rfl
@[simp] theorem State.setFld_walkRecs (o hi lo v : Nat) : (s.setFld o hi lo v).walkRecs = s.walkRecs := rfl
@[simp] theorem State.setFld_imem (o hi lo v : Nat) : (s.setFld o hi lo v).imem = s.imem := rfl
@[simp] theorem State.setFld_splits (o hi lo v : Nat) : (s.setFld o hi lo v).splits = s.splits := rfl
@[simp] theorem State.setFld_savedWells (o hi lo v : Nat) : (s.setFld o hi lo v).savedWells = s.savedWells := rfl
@[simp] theorem State.setFld_savedDeques (o hi lo v : Nat) : (s.setFld o hi lo v).savedDeques = s.savedDeques := rfl
@[simp] theorem State.setFld_jobs (o hi lo v : Nat) : (s.setFld o hi lo v).jobs = s.jobs := rfl
@[simp] theorem State.setFld_reqs (o hi lo v : Nat) : (s.setFld o hi lo v).reqs = s.reqs := rfl
@[simp] theorem State.setFld_units (o hi lo v : Nat) : (s.setFld o hi lo v).units = s.units := rfl
@[simp] theorem State.setFld_pumps (o hi lo v : Nat) : (s.setFld o hi lo v).pumps = s.pumps := rfl
@[simp] theorem State.setFld_susp (o hi lo v : Nat) : (s.setFld o hi lo v).susp = s.susp := rfl
@[simp] theorem State.setFld_caches (o hi lo v : Nat) : (s.setFld o hi lo v).caches = s.caches := rfl
@[simp] theorem State.setFld_engine (o hi lo v : Nat) : (s.setFld o hi lo v).engine = s.engine := rfl
@[simp] theorem State.setFld_whPumps (o hi lo v : Nat) : (s.setFld o hi lo v).whPumps = s.whPumps := rfl
@[simp] theorem State.setFld_ops (o hi lo v : Nat) : (s.setFld o hi lo v).ops = s.ops := rfl
@[simp] theorem State.setFld_nextId (o hi lo v : Nat) : (s.setFld o hi lo v).nextId = s.nextId := rfl
@[simp] theorem State.setFld_hroot (o hi lo v : Nat) : (s.setFld o hi lo v).hroot = s.hroot := rfl
@[simp] theorem State.setFld_fcLast (o hi lo v : Nat) : (s.setFld o hi lo v).fcLast = s.fcLast := rfl
@[simp] theorem State.setFld_hostDown (o hi lo v : Nat) : (s.setFld o hi lo v).hostDown = s.hostDown := rfl
@[simp] theorem State.setFld_rvSelfRefresh (o hi lo v : Nat) : (s.setFld o hi lo v).rvSelfRefresh = s.rvSelfRefresh := rfl
@[simp] theorem State.setFld_tlb (o hi lo v : Nat) : (s.setFld o hi lo v).tlb = s.tlb := rfl
@[simp] theorem State.setFld_walkPtrs (o hi lo v : Nat) : (s.setFld o hi lo v).walkPtrs = s.walkPtrs := rfl
@[simp] theorem State.setFld_missQs (o hi lo v : Nat) : (s.setFld o hi lo v).missQs = s.missQs := rfl
@[simp] theorem State.setFld_walkers (o hi lo v : Nat) : (s.setFld o hi lo v).walkers = s.walkers := rfl
@[simp] theorem State.setFld_lines (o hi lo v : Nat) : (s.setFld o hi lo v).lines = s.lines := rfl
@[simp] theorem State.setFld_dir (o hi lo v : Nat) : (s.setFld o hi lo v).dir = s.dir := rfl
@[simp] theorem State.setFld_evacs (o hi lo v : Nat) : (s.setFld o hi lo v).evacs = s.evacs := rfl
@[simp] theorem State.setFld_buckets (o hi lo v : Nat) : (s.setFld o hi lo v).buckets = s.buckets := rfl
@[simp] theorem State.setFld_bursts (o hi lo v : Nat) : (s.setFld o hi lo v).bursts = s.bursts := rfl
@[simp] theorem State.setFld_caps (o hi lo v : Nat) : (s.setFld o hi lo v).caps = s.caps := rfl
@[simp] theorem State.setFld_rvWaits (o hi lo v : Nat) : (s.setFld o hi lo v).rvWaits = s.rvWaits := rfl
@[simp] theorem State.setFld_rvTurn (o hi lo v : Nat) : (s.setFld o hi lo v).rvTurn = s.rvTurn := rfl
@[simp] theorem State.setFld_rvSlots (o hi lo v : Nat) : (s.setFld o hi lo v).rvSlots = s.rvSlots := rfl
@[simp] theorem State.setFld_rvTicks (o hi lo v : Nat) : (s.setFld o hi lo v).rvTicks = s.rvTicks := rfl
@[simp] theorem State.setFld_repeats (o hi lo v : Nat) : (s.setFld o hi lo v).repeats = s.repeats := rfl
@[simp] theorem State.setFld_mr4At (o hi lo v : Nat) : (s.setFld o hi lo v).mr4At = s.mr4At := rfl
@[simp] theorem State.setFld_aqQs (o hi lo v : Nat) : (s.setFld o hi lo v).aqQs = s.aqQs := rfl
@[simp] theorem State.setFld_aqTurn (o hi lo v : Nat) : (s.setFld o hi lo v).aqTurn = s.aqTurn := rfl
@[simp] theorem State.setFld_boot (o hi lo v : Nat) : (s.setFld o hi lo v).boot = s.boot := rfl
@[simp] theorem State.setFld_links (o hi lo v : Nat) : (s.setFld o hi lo v).links = s.links := rfl
@[simp] theorem State.setFld_colls (o hi lo v : Nat) : (s.setFld o hi lo v).colls = s.colls := rfl
@[simp] theorem State.setFld_decided (o hi lo v : Nat) : (s.setFld o hi lo v).decided = s.decided := rfl
@[simp] theorem State.setFld_saved (o hi lo v : Nat) : (s.setFld o hi lo v).saved = s.saved := rfl
@[simp] theorem State.setFld_sessions (o hi lo v : Nat) : (s.setFld o hi lo v).sessions = s.sessions := rfl
@[simp] theorem State.setFld_windows (o hi lo v : Nat) : (s.setFld o hi lo v).windows = s.windows := rfl
@[simp] theorem State.setFld_fabric (o hi lo v : Nat) : (s.setFld o hi lo v).fabric = s.fabric := rfl
@[simp] theorem State.setFld_bifurc (o hi lo v : Nat) : (s.setFld o hi lo v).bifurc = s.bifurc := rfl
@[simp] theorem State.setFld_halfDown (o hi lo v : Nat) : (s.setFld o hi lo v).halfDown = s.halfDown := rfl
@[simp] theorem State.setFld_recovery (o hi lo v : Nat) : (s.setFld o hi lo v).recovery = s.recovery := rfl
@[simp] theorem State.setFld_hqs (o hi lo v : Nat) : (s.setFld o hi lo v).hqs = s.hqs := rfl
@[simp] theorem State.setFld_jn (o hi lo v : Nat) : (s.setFld o hi lo v).jn = s.jn := rfl
@[simp] theorem State.setFld_pair (o hi lo v : Nat) : (s.setFld o hi lo v).pair = s.pair := rfl
@[simp] theorem State.setFld_pw (o hi lo v : Nat) : (s.setFld o hi lo v).pw = s.pw := rfl
@[simp] theorem State.setFld_msixTab (o hi lo v : Nat) : (s.setFld o hi lo v).msixTab = s.msixTab := rfl
@[simp] theorem State.setFld_bar2Data (o hi lo v : Nat) : (s.setFld o hi lo v).bar2Data = s.bar2Data := rfl
@[simp] theorem State.setFld_msix (o hi lo v : Nat) : (s.setFld o hi lo v).msix = s.msix := rfl

/-! ### incFld -/

@[simp] theorem State.incFld_pending (o hi lo n : Nat) : (s.incFld o hi lo n).pending = s.pending := rfl
@[simp] theorem State.incFld_fresh (o hi lo n : Nat) : (s.incFld o hi lo n).fresh = s.fresh := rfl
@[simp] theorem State.incFld_cistern (o hi lo n : Nat) : (s.incFld o hi lo n).cistern = s.cistern := rfl
@[simp] theorem State.incFld_reservoir (o hi lo n : Nat) : (s.incFld o hi lo n).reservoir = s.reservoir := rfl
@[simp] theorem State.incFld_aquifer (o hi lo n : Nat) : (s.incFld o hi lo n).aquifer = s.aquifer := rfl
@[simp] theorem State.incFld_hostMem (o hi lo n : Nat) : (s.incFld o hi lo n).hostMem = s.hostMem := rfl
@[simp] theorem State.incFld_poison (o hi lo n : Nat) : (s.incFld o hi lo n).poison = s.poison := rfl
@[simp] theorem State.incFld_wells (o hi lo n : Nat) : (s.incFld o hi lo n).wells = s.wells := rfl
@[simp] theorem State.incFld_bobs (o hi lo n : Nat) : (s.incFld o hi lo n).bobs = s.bobs := rfl
@[simp] theorem State.incFld_faultRecs (o hi lo n : Nat) : (s.incFld o hi lo n).faultRecs = s.faultRecs := rfl
@[simp] theorem State.incFld_deques (o hi lo n : Nat) : (s.incFld o hi lo n).deques = s.deques := rfl
@[simp] theorem State.incFld_events (o hi lo n : Nat) : (s.incFld o hi lo n).events = s.events := rfl
@[simp] theorem State.incFld_walkRecs (o hi lo n : Nat) : (s.incFld o hi lo n).walkRecs = s.walkRecs := rfl
@[simp] theorem State.incFld_imem (o hi lo n : Nat) : (s.incFld o hi lo n).imem = s.imem := rfl
@[simp] theorem State.incFld_splits (o hi lo n : Nat) : (s.incFld o hi lo n).splits = s.splits := rfl
@[simp] theorem State.incFld_savedWells (o hi lo n : Nat) : (s.incFld o hi lo n).savedWells = s.savedWells := rfl
@[simp] theorem State.incFld_savedDeques (o hi lo n : Nat) : (s.incFld o hi lo n).savedDeques = s.savedDeques := rfl
@[simp] theorem State.incFld_jobs (o hi lo n : Nat) : (s.incFld o hi lo n).jobs = s.jobs := rfl
@[simp] theorem State.incFld_reqs (o hi lo n : Nat) : (s.incFld o hi lo n).reqs = s.reqs := rfl
@[simp] theorem State.incFld_units (o hi lo n : Nat) : (s.incFld o hi lo n).units = s.units := rfl
@[simp] theorem State.incFld_pumps (o hi lo n : Nat) : (s.incFld o hi lo n).pumps = s.pumps := rfl
@[simp] theorem State.incFld_susp (o hi lo n : Nat) : (s.incFld o hi lo n).susp = s.susp := rfl
@[simp] theorem State.incFld_caches (o hi lo n : Nat) : (s.incFld o hi lo n).caches = s.caches := rfl
@[simp] theorem State.incFld_engine (o hi lo n : Nat) : (s.incFld o hi lo n).engine = s.engine := rfl
@[simp] theorem State.incFld_whPumps (o hi lo n : Nat) : (s.incFld o hi lo n).whPumps = s.whPumps := rfl
@[simp] theorem State.incFld_ops (o hi lo n : Nat) : (s.incFld o hi lo n).ops = s.ops := rfl
@[simp] theorem State.incFld_nextId (o hi lo n : Nat) : (s.incFld o hi lo n).nextId = s.nextId := rfl
@[simp] theorem State.incFld_hroot (o hi lo n : Nat) : (s.incFld o hi lo n).hroot = s.hroot := rfl
@[simp] theorem State.incFld_fcLast (o hi lo n : Nat) : (s.incFld o hi lo n).fcLast = s.fcLast := rfl
@[simp] theorem State.incFld_hostDown (o hi lo n : Nat) : (s.incFld o hi lo n).hostDown = s.hostDown := rfl
@[simp] theorem State.incFld_rvSelfRefresh (o hi lo n : Nat) : (s.incFld o hi lo n).rvSelfRefresh = s.rvSelfRefresh := rfl
@[simp] theorem State.incFld_tlb (o hi lo n : Nat) : (s.incFld o hi lo n).tlb = s.tlb := rfl
@[simp] theorem State.incFld_walkPtrs (o hi lo n : Nat) : (s.incFld o hi lo n).walkPtrs = s.walkPtrs := rfl
@[simp] theorem State.incFld_missQs (o hi lo n : Nat) : (s.incFld o hi lo n).missQs = s.missQs := rfl
@[simp] theorem State.incFld_walkers (o hi lo n : Nat) : (s.incFld o hi lo n).walkers = s.walkers := rfl
@[simp] theorem State.incFld_lines (o hi lo n : Nat) : (s.incFld o hi lo n).lines = s.lines := rfl
@[simp] theorem State.incFld_dir (o hi lo n : Nat) : (s.incFld o hi lo n).dir = s.dir := rfl
@[simp] theorem State.incFld_evacs (o hi lo n : Nat) : (s.incFld o hi lo n).evacs = s.evacs := rfl
@[simp] theorem State.incFld_buckets (o hi lo n : Nat) : (s.incFld o hi lo n).buckets = s.buckets := rfl
@[simp] theorem State.incFld_bursts (o hi lo n : Nat) : (s.incFld o hi lo n).bursts = s.bursts := rfl
@[simp] theorem State.incFld_caps (o hi lo n : Nat) : (s.incFld o hi lo n).caps = s.caps := rfl
@[simp] theorem State.incFld_rvWaits (o hi lo n : Nat) : (s.incFld o hi lo n).rvWaits = s.rvWaits := rfl
@[simp] theorem State.incFld_rvTurn (o hi lo n : Nat) : (s.incFld o hi lo n).rvTurn = s.rvTurn := rfl
@[simp] theorem State.incFld_rvSlots (o hi lo n : Nat) : (s.incFld o hi lo n).rvSlots = s.rvSlots := rfl
@[simp] theorem State.incFld_rvTicks (o hi lo n : Nat) : (s.incFld o hi lo n).rvTicks = s.rvTicks := rfl
@[simp] theorem State.incFld_repeats (o hi lo n : Nat) : (s.incFld o hi lo n).repeats = s.repeats := rfl
@[simp] theorem State.incFld_mr4At (o hi lo n : Nat) : (s.incFld o hi lo n).mr4At = s.mr4At := rfl
@[simp] theorem State.incFld_aqQs (o hi lo n : Nat) : (s.incFld o hi lo n).aqQs = s.aqQs := rfl
@[simp] theorem State.incFld_aqTurn (o hi lo n : Nat) : (s.incFld o hi lo n).aqTurn = s.aqTurn := rfl
@[simp] theorem State.incFld_boot (o hi lo n : Nat) : (s.incFld o hi lo n).boot = s.boot := rfl
@[simp] theorem State.incFld_links (o hi lo n : Nat) : (s.incFld o hi lo n).links = s.links := rfl
@[simp] theorem State.incFld_colls (o hi lo n : Nat) : (s.incFld o hi lo n).colls = s.colls := rfl
@[simp] theorem State.incFld_decided (o hi lo n : Nat) : (s.incFld o hi lo n).decided = s.decided := rfl
@[simp] theorem State.incFld_saved (o hi lo n : Nat) : (s.incFld o hi lo n).saved = s.saved := rfl
@[simp] theorem State.incFld_sessions (o hi lo n : Nat) : (s.incFld o hi lo n).sessions = s.sessions := rfl
@[simp] theorem State.incFld_windows (o hi lo n : Nat) : (s.incFld o hi lo n).windows = s.windows := rfl
@[simp] theorem State.incFld_fabric (o hi lo n : Nat) : (s.incFld o hi lo n).fabric = s.fabric := rfl
@[simp] theorem State.incFld_bifurc (o hi lo n : Nat) : (s.incFld o hi lo n).bifurc = s.bifurc := rfl
@[simp] theorem State.incFld_halfDown (o hi lo n : Nat) : (s.incFld o hi lo n).halfDown = s.halfDown := rfl
@[simp] theorem State.incFld_recovery (o hi lo n : Nat) : (s.incFld o hi lo n).recovery = s.recovery := rfl
@[simp] theorem State.incFld_hqs (o hi lo n : Nat) : (s.incFld o hi lo n).hqs = s.hqs := rfl
@[simp] theorem State.incFld_jn (o hi lo n : Nat) : (s.incFld o hi lo n).jn = s.jn := rfl
@[simp] theorem State.incFld_pair (o hi lo n : Nat) : (s.incFld o hi lo n).pair = s.pair := rfl
@[simp] theorem State.incFld_pw (o hi lo n : Nat) : (s.incFld o hi lo n).pw = s.pw := rfl
@[simp] theorem State.incFld_msixTab (o hi lo n : Nat) : (s.incFld o hi lo n).msixTab = s.msixTab := rfl
@[simp] theorem State.incFld_bar2Data (o hi lo n : Nat) : (s.incFld o hi lo n).bar2Data = s.bar2Data := rfl
@[simp] theorem State.incFld_msix (o hi lo n : Nat) : (s.incFld o hi lo n).msix = s.msix := rfl

/-! ### setWell -/

@[simp] theorem State.setWell_pending (w : Nat) (x : Well) : (s.setWell w x).pending = s.pending := rfl
@[simp] theorem State.setWell_fresh (w : Nat) (x : Well) : (s.setWell w x).fresh = s.fresh := rfl
@[simp] theorem State.setWell_regs (w : Nat) (x : Well) : (s.setWell w x).regs = s.regs := rfl
@[simp] theorem State.setWell_cistern (w : Nat) (x : Well) : (s.setWell w x).cistern = s.cistern := rfl
@[simp] theorem State.setWell_reservoir (w : Nat) (x : Well) : (s.setWell w x).reservoir = s.reservoir := rfl
@[simp] theorem State.setWell_aquifer (w : Nat) (x : Well) : (s.setWell w x).aquifer = s.aquifer := rfl
@[simp] theorem State.setWell_hostMem (w : Nat) (x : Well) : (s.setWell w x).hostMem = s.hostMem := rfl
@[simp] theorem State.setWell_poison (w : Nat) (x : Well) : (s.setWell w x).poison = s.poison := rfl
@[simp] theorem State.setWell_bobs (w : Nat) (x : Well) : (s.setWell w x).bobs = s.bobs := rfl
@[simp] theorem State.setWell_faultRecs (w : Nat) (x : Well) : (s.setWell w x).faultRecs = s.faultRecs := rfl
@[simp] theorem State.setWell_deques (w : Nat) (x : Well) : (s.setWell w x).deques = s.deques := rfl
@[simp] theorem State.setWell_events (w : Nat) (x : Well) : (s.setWell w x).events = s.events := rfl
@[simp] theorem State.setWell_walkRecs (w : Nat) (x : Well) : (s.setWell w x).walkRecs = s.walkRecs := rfl
@[simp] theorem State.setWell_imem (w : Nat) (x : Well) : (s.setWell w x).imem = s.imem := rfl
@[simp] theorem State.setWell_splits (w : Nat) (x : Well) : (s.setWell w x).splits = s.splits := rfl
@[simp] theorem State.setWell_savedWells (w : Nat) (x : Well) : (s.setWell w x).savedWells = s.savedWells := rfl
@[simp] theorem State.setWell_savedDeques (w : Nat) (x : Well) : (s.setWell w x).savedDeques = s.savedDeques := rfl
@[simp] theorem State.setWell_jobs (w : Nat) (x : Well) : (s.setWell w x).jobs = s.jobs := rfl
@[simp] theorem State.setWell_reqs (w : Nat) (x : Well) : (s.setWell w x).reqs = s.reqs := rfl
@[simp] theorem State.setWell_units (w : Nat) (x : Well) : (s.setWell w x).units = s.units := rfl
@[simp] theorem State.setWell_pumps (w : Nat) (x : Well) : (s.setWell w x).pumps = s.pumps := rfl
@[simp] theorem State.setWell_susp (w : Nat) (x : Well) : (s.setWell w x).susp = s.susp := rfl
@[simp] theorem State.setWell_caches (w : Nat) (x : Well) : (s.setWell w x).caches = s.caches := rfl
@[simp] theorem State.setWell_engine (w : Nat) (x : Well) : (s.setWell w x).engine = s.engine := rfl
@[simp] theorem State.setWell_whPumps (w : Nat) (x : Well) : (s.setWell w x).whPumps = s.whPumps := rfl
@[simp] theorem State.setWell_ops (w : Nat) (x : Well) : (s.setWell w x).ops = s.ops := rfl
@[simp] theorem State.setWell_nextId (w : Nat) (x : Well) : (s.setWell w x).nextId = s.nextId := rfl
@[simp] theorem State.setWell_hroot (w : Nat) (x : Well) : (s.setWell w x).hroot = s.hroot := rfl
@[simp] theorem State.setWell_fcLast (w : Nat) (x : Well) : (s.setWell w x).fcLast = s.fcLast := rfl
@[simp] theorem State.setWell_hostDown (w : Nat) (x : Well) : (s.setWell w x).hostDown = s.hostDown := rfl
@[simp] theorem State.setWell_rvSelfRefresh (w : Nat) (x : Well) : (s.setWell w x).rvSelfRefresh = s.rvSelfRefresh := rfl
@[simp] theorem State.setWell_tlb (w : Nat) (x : Well) : (s.setWell w x).tlb = s.tlb := rfl
@[simp] theorem State.setWell_walkPtrs (w : Nat) (x : Well) : (s.setWell w x).walkPtrs = s.walkPtrs := rfl
@[simp] theorem State.setWell_missQs (w : Nat) (x : Well) : (s.setWell w x).missQs = s.missQs := rfl
@[simp] theorem State.setWell_walkers (w : Nat) (x : Well) : (s.setWell w x).walkers = s.walkers := rfl
@[simp] theorem State.setWell_lines (w : Nat) (x : Well) : (s.setWell w x).lines = s.lines := rfl
@[simp] theorem State.setWell_dir (w : Nat) (x : Well) : (s.setWell w x).dir = s.dir := rfl
@[simp] theorem State.setWell_evacs (w : Nat) (x : Well) : (s.setWell w x).evacs = s.evacs := rfl
@[simp] theorem State.setWell_buckets (w : Nat) (x : Well) : (s.setWell w x).buckets = s.buckets := rfl
@[simp] theorem State.setWell_bursts (w : Nat) (x : Well) : (s.setWell w x).bursts = s.bursts := rfl
@[simp] theorem State.setWell_caps (w : Nat) (x : Well) : (s.setWell w x).caps = s.caps := rfl
@[simp] theorem State.setWell_rvWaits (w : Nat) (x : Well) : (s.setWell w x).rvWaits = s.rvWaits := rfl
@[simp] theorem State.setWell_rvTurn (w : Nat) (x : Well) : (s.setWell w x).rvTurn = s.rvTurn := rfl
@[simp] theorem State.setWell_rvSlots (w : Nat) (x : Well) : (s.setWell w x).rvSlots = s.rvSlots := rfl
@[simp] theorem State.setWell_rvTicks (w : Nat) (x : Well) : (s.setWell w x).rvTicks = s.rvTicks := rfl
@[simp] theorem State.setWell_repeats (w : Nat) (x : Well) : (s.setWell w x).repeats = s.repeats := rfl
@[simp] theorem State.setWell_mr4At (w : Nat) (x : Well) : (s.setWell w x).mr4At = s.mr4At := rfl
@[simp] theorem State.setWell_aqQs (w : Nat) (x : Well) : (s.setWell w x).aqQs = s.aqQs := rfl
@[simp] theorem State.setWell_aqTurn (w : Nat) (x : Well) : (s.setWell w x).aqTurn = s.aqTurn := rfl
@[simp] theorem State.setWell_boot (w : Nat) (x : Well) : (s.setWell w x).boot = s.boot := rfl
@[simp] theorem State.setWell_links (w : Nat) (x : Well) : (s.setWell w x).links = s.links := rfl
@[simp] theorem State.setWell_colls (w : Nat) (x : Well) : (s.setWell w x).colls = s.colls := rfl
@[simp] theorem State.setWell_decided (w : Nat) (x : Well) : (s.setWell w x).decided = s.decided := rfl
@[simp] theorem State.setWell_saved (w : Nat) (x : Well) : (s.setWell w x).saved = s.saved := rfl
@[simp] theorem State.setWell_sessions (w : Nat) (x : Well) : (s.setWell w x).sessions = s.sessions := rfl
@[simp] theorem State.setWell_windows (w : Nat) (x : Well) : (s.setWell w x).windows = s.windows := rfl
@[simp] theorem State.setWell_fabric (w : Nat) (x : Well) : (s.setWell w x).fabric = s.fabric := rfl
@[simp] theorem State.setWell_bifurc (w : Nat) (x : Well) : (s.setWell w x).bifurc = s.bifurc := rfl
@[simp] theorem State.setWell_halfDown (w : Nat) (x : Well) : (s.setWell w x).halfDown = s.halfDown := rfl
@[simp] theorem State.setWell_recovery (w : Nat) (x : Well) : (s.setWell w x).recovery = s.recovery := rfl
@[simp] theorem State.setWell_hqs (w : Nat) (x : Well) : (s.setWell w x).hqs = s.hqs := rfl
@[simp] theorem State.setWell_jn (w : Nat) (x : Well) : (s.setWell w x).jn = s.jn := rfl
@[simp] theorem State.setWell_pair (w : Nat) (x : Well) : (s.setWell w x).pair = s.pair := rfl
@[simp] theorem State.setWell_pw (w : Nat) (x : Well) : (s.setWell w x).pw = s.pw := rfl
@[simp] theorem State.setWell_msixTab (w : Nat) (x : Well) : (s.setWell w x).msixTab = s.msixTab := rfl
@[simp] theorem State.setWell_bar2Data (w : Nat) (x : Well) : (s.setWell w x).bar2Data = s.bar2Data := rfl
@[simp] theorem State.setWell_msix (w : Nat) (x : Well) : (s.setWell w x).msix = s.msix := rfl

/-! ### setBob -/

@[simp] theorem State.setBob_faultRecs (w p : Nat) (b : Bobbin) : (s.setBob w p b).faultRecs = s.faultRecs := rfl
@[simp] theorem State.setBob_pending (w p : Nat) (b : Bobbin) : (s.setBob w p b).pending = s.pending := rfl
@[simp] theorem State.setBob_fresh (w p : Nat) (b : Bobbin) : (s.setBob w p b).fresh = s.fresh := rfl
@[simp] theorem State.setBob_regs (w p : Nat) (b : Bobbin) : (s.setBob w p b).regs = s.regs := rfl
@[simp] theorem State.setBob_cistern (w p : Nat) (b : Bobbin) : (s.setBob w p b).cistern = s.cistern := rfl
@[simp] theorem State.setBob_reservoir (w p : Nat) (b : Bobbin) : (s.setBob w p b).reservoir = s.reservoir := rfl
@[simp] theorem State.setBob_aquifer (w p : Nat) (b : Bobbin) : (s.setBob w p b).aquifer = s.aquifer := rfl
@[simp] theorem State.setBob_hostMem (w p : Nat) (b : Bobbin) : (s.setBob w p b).hostMem = s.hostMem := rfl
@[simp] theorem State.setBob_poison (w p : Nat) (b : Bobbin) : (s.setBob w p b).poison = s.poison := rfl
@[simp] theorem State.setBob_wells (w p : Nat) (b : Bobbin) : (s.setBob w p b).wells = s.wells := rfl
@[simp] theorem State.setBob_deques (w p : Nat) (b : Bobbin) : (s.setBob w p b).deques = s.deques := rfl
@[simp] theorem State.setBob_events (w p : Nat) (b : Bobbin) : (s.setBob w p b).events = s.events := rfl
@[simp] theorem State.setBob_walkRecs (w p : Nat) (b : Bobbin) : (s.setBob w p b).walkRecs = s.walkRecs := rfl
@[simp] theorem State.setBob_imem (w p : Nat) (b : Bobbin) : (s.setBob w p b).imem = s.imem := rfl
@[simp] theorem State.setBob_splits (w p : Nat) (b : Bobbin) : (s.setBob w p b).splits = s.splits := rfl
@[simp] theorem State.setBob_savedWells (w p : Nat) (b : Bobbin) : (s.setBob w p b).savedWells = s.savedWells := rfl
@[simp] theorem State.setBob_savedDeques (w p : Nat) (b : Bobbin) : (s.setBob w p b).savedDeques = s.savedDeques := rfl
@[simp] theorem State.setBob_jobs (w p : Nat) (b : Bobbin) : (s.setBob w p b).jobs = s.jobs := rfl
@[simp] theorem State.setBob_reqs (w p : Nat) (b : Bobbin) : (s.setBob w p b).reqs = s.reqs := rfl
@[simp] theorem State.setBob_units (w p : Nat) (b : Bobbin) : (s.setBob w p b).units = s.units := rfl
@[simp] theorem State.setBob_pumps (w p : Nat) (b : Bobbin) : (s.setBob w p b).pumps = s.pumps := rfl
@[simp] theorem State.setBob_susp (w p : Nat) (b : Bobbin) : (s.setBob w p b).susp = s.susp := rfl
@[simp] theorem State.setBob_caches (w p : Nat) (b : Bobbin) : (s.setBob w p b).caches = s.caches := rfl
@[simp] theorem State.setBob_engine (w p : Nat) (b : Bobbin) : (s.setBob w p b).engine = s.engine := rfl
@[simp] theorem State.setBob_whPumps (w p : Nat) (b : Bobbin) : (s.setBob w p b).whPumps = s.whPumps := rfl
@[simp] theorem State.setBob_ops (w p : Nat) (b : Bobbin) : (s.setBob w p b).ops = s.ops := rfl
@[simp] theorem State.setBob_nextId (w p : Nat) (b : Bobbin) : (s.setBob w p b).nextId = s.nextId := rfl
@[simp] theorem State.setBob_hroot (w p : Nat) (b : Bobbin) : (s.setBob w p b).hroot = s.hroot := rfl
@[simp] theorem State.setBob_fcLast (w p : Nat) (b : Bobbin) : (s.setBob w p b).fcLast = s.fcLast := rfl
@[simp] theorem State.setBob_hostDown (w p : Nat) (b : Bobbin) : (s.setBob w p b).hostDown = s.hostDown := rfl
@[simp] theorem State.setBob_rvSelfRefresh (w p : Nat) (b : Bobbin) : (s.setBob w p b).rvSelfRefresh = s.rvSelfRefresh := rfl
@[simp] theorem State.setBob_tlb (w p : Nat) (b : Bobbin) : (s.setBob w p b).tlb = s.tlb := rfl
@[simp] theorem State.setBob_walkPtrs (w p : Nat) (b : Bobbin) : (s.setBob w p b).walkPtrs = s.walkPtrs := rfl
@[simp] theorem State.setBob_missQs (w p : Nat) (b : Bobbin) : (s.setBob w p b).missQs = s.missQs := rfl
@[simp] theorem State.setBob_walkers (w p : Nat) (b : Bobbin) : (s.setBob w p b).walkers = s.walkers := rfl
@[simp] theorem State.setBob_lines (w p : Nat) (b : Bobbin) : (s.setBob w p b).lines = s.lines := rfl
@[simp] theorem State.setBob_dir (w p : Nat) (b : Bobbin) : (s.setBob w p b).dir = s.dir := rfl
@[simp] theorem State.setBob_evacs (w p : Nat) (b : Bobbin) : (s.setBob w p b).evacs = s.evacs := rfl
@[simp] theorem State.setBob_buckets (w p : Nat) (b : Bobbin) : (s.setBob w p b).buckets = s.buckets := rfl
@[simp] theorem State.setBob_bursts (w p : Nat) (b : Bobbin) : (s.setBob w p b).bursts = s.bursts := rfl
@[simp] theorem State.setBob_caps (w p : Nat) (b : Bobbin) : (s.setBob w p b).caps = s.caps := rfl
@[simp] theorem State.setBob_rvWaits (w p : Nat) (b : Bobbin) : (s.setBob w p b).rvWaits = s.rvWaits := rfl
@[simp] theorem State.setBob_rvTurn (w p : Nat) (b : Bobbin) : (s.setBob w p b).rvTurn = s.rvTurn := rfl
@[simp] theorem State.setBob_rvSlots (w p : Nat) (b : Bobbin) : (s.setBob w p b).rvSlots = s.rvSlots := rfl
@[simp] theorem State.setBob_rvTicks (w p : Nat) (b : Bobbin) : (s.setBob w p b).rvTicks = s.rvTicks := rfl
@[simp] theorem State.setBob_repeats (w p : Nat) (b : Bobbin) : (s.setBob w p b).repeats = s.repeats := rfl
@[simp] theorem State.setBob_mr4At (w p : Nat) (b : Bobbin) : (s.setBob w p b).mr4At = s.mr4At := rfl
@[simp] theorem State.setBob_aqQs (w p : Nat) (b : Bobbin) : (s.setBob w p b).aqQs = s.aqQs := rfl
@[simp] theorem State.setBob_aqTurn (w p : Nat) (b : Bobbin) : (s.setBob w p b).aqTurn = s.aqTurn := rfl
@[simp] theorem State.setBob_boot (w p : Nat) (b : Bobbin) : (s.setBob w p b).boot = s.boot := rfl
@[simp] theorem State.setBob_links (w p : Nat) (b : Bobbin) : (s.setBob w p b).links = s.links := rfl
@[simp] theorem State.setBob_colls (w p : Nat) (b : Bobbin) : (s.setBob w p b).colls = s.colls := rfl
@[simp] theorem State.setBob_decided (w p : Nat) (b : Bobbin) : (s.setBob w p b).decided = s.decided := rfl
@[simp] theorem State.setBob_saved (w p : Nat) (b : Bobbin) : (s.setBob w p b).saved = s.saved := rfl
@[simp] theorem State.setBob_sessions (w p : Nat) (b : Bobbin) : (s.setBob w p b).sessions = s.sessions := rfl
@[simp] theorem State.setBob_windows (w p : Nat) (b : Bobbin) : (s.setBob w p b).windows = s.windows := rfl
@[simp] theorem State.setBob_fabric (w p : Nat) (b : Bobbin) : (s.setBob w p b).fabric = s.fabric := rfl
@[simp] theorem State.setBob_bifurc (w p : Nat) (b : Bobbin) : (s.setBob w p b).bifurc = s.bifurc := rfl
@[simp] theorem State.setBob_halfDown (w p : Nat) (b : Bobbin) : (s.setBob w p b).halfDown = s.halfDown := rfl
@[simp] theorem State.setBob_recovery (w p : Nat) (b : Bobbin) : (s.setBob w p b).recovery = s.recovery := rfl
@[simp] theorem State.setBob_hqs (w p : Nat) (b : Bobbin) : (s.setBob w p b).hqs = s.hqs := rfl
@[simp] theorem State.setBob_jn (w p : Nat) (b : Bobbin) : (s.setBob w p b).jn = s.jn := rfl
@[simp] theorem State.setBob_pair (w p : Nat) (b : Bobbin) : (s.setBob w p b).pair = s.pair := rfl
@[simp] theorem State.setBob_pw (w p : Nat) (b : Bobbin) : (s.setBob w p b).pw = s.pw := rfl
@[simp] theorem State.setBob_msixTab (w p : Nat) (b : Bobbin) : (s.setBob w p b).msixTab = s.msixTab := rfl
@[simp] theorem State.setBob_bar2Data (w p : Nat) (b : Bobbin) : (s.setBob w p b).bar2Data = s.bar2Data := rfl
@[simp] theorem State.setBob_msix (w p : Nat) (b : Bobbin) : (s.setBob w p b).msix = s.msix := rfl

/-! ### setDeque -/

@[simp] theorem State.setDeque_pending (w l : Nat) (d : List DeqEntry) : (s.setDeque w l d).pending = s.pending := rfl
@[simp] theorem State.setDeque_fresh (w l : Nat) (d : List DeqEntry) : (s.setDeque w l d).fresh = s.fresh := rfl
@[simp] theorem State.setDeque_regs (w l : Nat) (d : List DeqEntry) : (s.setDeque w l d).regs = s.regs := rfl
@[simp] theorem State.setDeque_cistern (w l : Nat) (d : List DeqEntry) : (s.setDeque w l d).cistern = s.cistern := rfl
@[simp] theorem State.setDeque_reservoir (w l : Nat) (d : List DeqEntry) : (s.setDeque w l d).reservoir = s.reservoir := rfl
@[simp] theorem State.setDeque_aquifer (w l : Nat) (d : List DeqEntry) : (s.setDeque w l d).aquifer = s.aquifer := rfl
@[simp] theorem State.setDeque_hostMem (w l : Nat) (d : List DeqEntry) : (s.setDeque w l d).hostMem = s.hostMem := rfl
@[simp] theorem State.setDeque_poison (w l : Nat) (d : List DeqEntry) : (s.setDeque w l d).poison = s.poison := rfl
@[simp] theorem State.setDeque_wells (w l : Nat) (d : List DeqEntry) : (s.setDeque w l d).wells = s.wells := rfl
@[simp] theorem State.setDeque_bobs (w l : Nat) (d : List DeqEntry) : (s.setDeque w l d).bobs = s.bobs := rfl
@[simp] theorem State.setDeque_faultRecs (w l : Nat) (d : List DeqEntry) : (s.setDeque w l d).faultRecs = s.faultRecs := rfl
@[simp] theorem State.setDeque_events (w l : Nat) (d : List DeqEntry) : (s.setDeque w l d).events = s.events := rfl
@[simp] theorem State.setDeque_walkRecs (w l : Nat) (d : List DeqEntry) : (s.setDeque w l d).walkRecs = s.walkRecs := rfl
@[simp] theorem State.setDeque_imem (w l : Nat) (d : List DeqEntry) : (s.setDeque w l d).imem = s.imem := rfl
@[simp] theorem State.setDeque_splits (w l : Nat) (d : List DeqEntry) : (s.setDeque w l d).splits = s.splits := rfl
@[simp] theorem State.setDeque_savedWells (w l : Nat) (d : List DeqEntry) : (s.setDeque w l d).savedWells = s.savedWells := rfl
@[simp] theorem State.setDeque_savedDeques (w l : Nat) (d : List DeqEntry) : (s.setDeque w l d).savedDeques = s.savedDeques := rfl
@[simp] theorem State.setDeque_jobs (w l : Nat) (d : List DeqEntry) : (s.setDeque w l d).jobs = s.jobs := rfl
@[simp] theorem State.setDeque_reqs (w l : Nat) (d : List DeqEntry) : (s.setDeque w l d).reqs = s.reqs := rfl
@[simp] theorem State.setDeque_units (w l : Nat) (d : List DeqEntry) : (s.setDeque w l d).units = s.units := rfl
@[simp] theorem State.setDeque_pumps (w l : Nat) (d : List DeqEntry) : (s.setDeque w l d).pumps = s.pumps := rfl
@[simp] theorem State.setDeque_susp (w l : Nat) (d : List DeqEntry) : (s.setDeque w l d).susp = s.susp := rfl
@[simp] theorem State.setDeque_caches (w l : Nat) (d : List DeqEntry) : (s.setDeque w l d).caches = s.caches := rfl
@[simp] theorem State.setDeque_engine (w l : Nat) (d : List DeqEntry) : (s.setDeque w l d).engine = s.engine := rfl
@[simp] theorem State.setDeque_whPumps (w l : Nat) (d : List DeqEntry) : (s.setDeque w l d).whPumps = s.whPumps := rfl
@[simp] theorem State.setDeque_ops (w l : Nat) (d : List DeqEntry) : (s.setDeque w l d).ops = s.ops := rfl
@[simp] theorem State.setDeque_nextId (w l : Nat) (d : List DeqEntry) : (s.setDeque w l d).nextId = s.nextId := rfl
@[simp] theorem State.setDeque_hroot (w l : Nat) (d : List DeqEntry) : (s.setDeque w l d).hroot = s.hroot := rfl
@[simp] theorem State.setDeque_fcLast (w l : Nat) (d : List DeqEntry) : (s.setDeque w l d).fcLast = s.fcLast := rfl
@[simp] theorem State.setDeque_hostDown (w l : Nat) (d : List DeqEntry) : (s.setDeque w l d).hostDown = s.hostDown := rfl
@[simp] theorem State.setDeque_rvSelfRefresh (w l : Nat) (d : List DeqEntry) : (s.setDeque w l d).rvSelfRefresh = s.rvSelfRefresh := rfl
@[simp] theorem State.setDeque_tlb (w l : Nat) (d : List DeqEntry) : (s.setDeque w l d).tlb = s.tlb := rfl
@[simp] theorem State.setDeque_walkPtrs (w l : Nat) (d : List DeqEntry) : (s.setDeque w l d).walkPtrs = s.walkPtrs := rfl
@[simp] theorem State.setDeque_missQs (w l : Nat) (d : List DeqEntry) : (s.setDeque w l d).missQs = s.missQs := rfl
@[simp] theorem State.setDeque_walkers (w l : Nat) (d : List DeqEntry) : (s.setDeque w l d).walkers = s.walkers := rfl
@[simp] theorem State.setDeque_lines (w l : Nat) (d : List DeqEntry) : (s.setDeque w l d).lines = s.lines := rfl
@[simp] theorem State.setDeque_dir (w l : Nat) (d : List DeqEntry) : (s.setDeque w l d).dir = s.dir := rfl
@[simp] theorem State.setDeque_evacs (w l : Nat) (d : List DeqEntry) : (s.setDeque w l d).evacs = s.evacs := rfl
@[simp] theorem State.setDeque_buckets (w l : Nat) (d : List DeqEntry) : (s.setDeque w l d).buckets = s.buckets := rfl
@[simp] theorem State.setDeque_bursts (w l : Nat) (d : List DeqEntry) : (s.setDeque w l d).bursts = s.bursts := rfl
@[simp] theorem State.setDeque_caps (w l : Nat) (d : List DeqEntry) : (s.setDeque w l d).caps = s.caps := rfl
@[simp] theorem State.setDeque_rvWaits (w l : Nat) (d : List DeqEntry) : (s.setDeque w l d).rvWaits = s.rvWaits := rfl
@[simp] theorem State.setDeque_rvTurn (w l : Nat) (d : List DeqEntry) : (s.setDeque w l d).rvTurn = s.rvTurn := rfl
@[simp] theorem State.setDeque_rvSlots (w l : Nat) (d : List DeqEntry) : (s.setDeque w l d).rvSlots = s.rvSlots := rfl
@[simp] theorem State.setDeque_rvTicks (w l : Nat) (d : List DeqEntry) : (s.setDeque w l d).rvTicks = s.rvTicks := rfl
@[simp] theorem State.setDeque_repeats (w l : Nat) (d : List DeqEntry) : (s.setDeque w l d).repeats = s.repeats := rfl
@[simp] theorem State.setDeque_mr4At (w l : Nat) (d : List DeqEntry) : (s.setDeque w l d).mr4At = s.mr4At := rfl
@[simp] theorem State.setDeque_aqQs (w l : Nat) (d : List DeqEntry) : (s.setDeque w l d).aqQs = s.aqQs := rfl
@[simp] theorem State.setDeque_aqTurn (w l : Nat) (d : List DeqEntry) : (s.setDeque w l d).aqTurn = s.aqTurn := rfl
@[simp] theorem State.setDeque_boot (w l : Nat) (d : List DeqEntry) : (s.setDeque w l d).boot = s.boot := rfl
@[simp] theorem State.setDeque_links (w l : Nat) (d : List DeqEntry) : (s.setDeque w l d).links = s.links := rfl
@[simp] theorem State.setDeque_colls (w l : Nat) (d : List DeqEntry) : (s.setDeque w l d).colls = s.colls := rfl
@[simp] theorem State.setDeque_decided (w l : Nat) (d : List DeqEntry) : (s.setDeque w l d).decided = s.decided := rfl
@[simp] theorem State.setDeque_saved (w l : Nat) (d : List DeqEntry) : (s.setDeque w l d).saved = s.saved := rfl
@[simp] theorem State.setDeque_sessions (w l : Nat) (d : List DeqEntry) : (s.setDeque w l d).sessions = s.sessions := rfl
@[simp] theorem State.setDeque_windows (w l : Nat) (d : List DeqEntry) : (s.setDeque w l d).windows = s.windows := rfl
@[simp] theorem State.setDeque_fabric (w l : Nat) (d : List DeqEntry) : (s.setDeque w l d).fabric = s.fabric := rfl
@[simp] theorem State.setDeque_bifurc (w l : Nat) (d : List DeqEntry) : (s.setDeque w l d).bifurc = s.bifurc := rfl
@[simp] theorem State.setDeque_halfDown (w l : Nat) (d : List DeqEntry) : (s.setDeque w l d).halfDown = s.halfDown := rfl
@[simp] theorem State.setDeque_recovery (w l : Nat) (d : List DeqEntry) : (s.setDeque w l d).recovery = s.recovery := rfl
@[simp] theorem State.setDeque_hqs (w l : Nat) (d : List DeqEntry) : (s.setDeque w l d).hqs = s.hqs := rfl
@[simp] theorem State.setDeque_jn (w l : Nat) (d : List DeqEntry) : (s.setDeque w l d).jn = s.jn := rfl
@[simp] theorem State.setDeque_pair (w l : Nat) (d : List DeqEntry) : (s.setDeque w l d).pair = s.pair := rfl
@[simp] theorem State.setDeque_pw (w l : Nat) (d : List DeqEntry) : (s.setDeque w l d).pw = s.pw := rfl
@[simp] theorem State.setDeque_msixTab (w l : Nat) (d : List DeqEntry) : (s.setDeque w l d).msixTab = s.msixTab := rfl
@[simp] theorem State.setDeque_bar2Data (w l : Nat) (d : List DeqEntry) : (s.setDeque w l d).bar2Data = s.bar2Data := rfl
@[simp] theorem State.setDeque_msix (w l : Nat) (d : List DeqEntry) : (s.setDeque w l d).msix = s.msix := rfl

/-! ### setEvent -/

@[simp] theorem State.setEvent_pending (w k ev v : Nat) : (s.setEvent w k ev v).pending = s.pending := rfl
@[simp] theorem State.setEvent_fresh (w k ev v : Nat) : (s.setEvent w k ev v).fresh = s.fresh := rfl
@[simp] theorem State.setEvent_regs (w k ev v : Nat) : (s.setEvent w k ev v).regs = s.regs := rfl
@[simp] theorem State.setEvent_cistern (w k ev v : Nat) : (s.setEvent w k ev v).cistern = s.cistern := rfl
@[simp] theorem State.setEvent_reservoir (w k ev v : Nat) : (s.setEvent w k ev v).reservoir = s.reservoir := rfl
@[simp] theorem State.setEvent_aquifer (w k ev v : Nat) : (s.setEvent w k ev v).aquifer = s.aquifer := rfl
@[simp] theorem State.setEvent_hostMem (w k ev v : Nat) : (s.setEvent w k ev v).hostMem = s.hostMem := rfl
@[simp] theorem State.setEvent_poison (w k ev v : Nat) : (s.setEvent w k ev v).poison = s.poison := rfl
@[simp] theorem State.setEvent_wells (w k ev v : Nat) : (s.setEvent w k ev v).wells = s.wells := rfl
@[simp] theorem State.setEvent_bobs (w k ev v : Nat) : (s.setEvent w k ev v).bobs = s.bobs := rfl
@[simp] theorem State.setEvent_faultRecs (w k ev v : Nat) : (s.setEvent w k ev v).faultRecs = s.faultRecs := rfl
@[simp] theorem State.setEvent_deques (w k ev v : Nat) : (s.setEvent w k ev v).deques = s.deques := rfl
@[simp] theorem State.setEvent_walkRecs (w k ev v : Nat) : (s.setEvent w k ev v).walkRecs = s.walkRecs := rfl
@[simp] theorem State.setEvent_imem (w k ev v : Nat) : (s.setEvent w k ev v).imem = s.imem := rfl
@[simp] theorem State.setEvent_splits (w k ev v : Nat) : (s.setEvent w k ev v).splits = s.splits := rfl
@[simp] theorem State.setEvent_savedWells (w k ev v : Nat) : (s.setEvent w k ev v).savedWells = s.savedWells := rfl
@[simp] theorem State.setEvent_savedDeques (w k ev v : Nat) : (s.setEvent w k ev v).savedDeques = s.savedDeques := rfl
@[simp] theorem State.setEvent_jobs (w k ev v : Nat) : (s.setEvent w k ev v).jobs = s.jobs := rfl
@[simp] theorem State.setEvent_reqs (w k ev v : Nat) : (s.setEvent w k ev v).reqs = s.reqs := rfl
@[simp] theorem State.setEvent_units (w k ev v : Nat) : (s.setEvent w k ev v).units = s.units := rfl
@[simp] theorem State.setEvent_pumps (w k ev v : Nat) : (s.setEvent w k ev v).pumps = s.pumps := rfl
@[simp] theorem State.setEvent_susp (w k ev v : Nat) : (s.setEvent w k ev v).susp = s.susp := rfl
@[simp] theorem State.setEvent_caches (w k ev v : Nat) : (s.setEvent w k ev v).caches = s.caches := rfl
@[simp] theorem State.setEvent_engine (w k ev v : Nat) : (s.setEvent w k ev v).engine = s.engine := rfl
@[simp] theorem State.setEvent_whPumps (w k ev v : Nat) : (s.setEvent w k ev v).whPumps = s.whPumps := rfl
@[simp] theorem State.setEvent_ops (w k ev v : Nat) : (s.setEvent w k ev v).ops = s.ops := rfl
@[simp] theorem State.setEvent_nextId (w k ev v : Nat) : (s.setEvent w k ev v).nextId = s.nextId := rfl
@[simp] theorem State.setEvent_hroot (w k ev v : Nat) : (s.setEvent w k ev v).hroot = s.hroot := rfl
@[simp] theorem State.setEvent_fcLast (w k ev v : Nat) : (s.setEvent w k ev v).fcLast = s.fcLast := rfl
@[simp] theorem State.setEvent_hostDown (w k ev v : Nat) : (s.setEvent w k ev v).hostDown = s.hostDown := rfl
@[simp] theorem State.setEvent_rvSelfRefresh (w k ev v : Nat) : (s.setEvent w k ev v).rvSelfRefresh = s.rvSelfRefresh := rfl
@[simp] theorem State.setEvent_tlb (w k ev v : Nat) : (s.setEvent w k ev v).tlb = s.tlb := rfl
@[simp] theorem State.setEvent_walkPtrs (w k ev v : Nat) : (s.setEvent w k ev v).walkPtrs = s.walkPtrs := rfl
@[simp] theorem State.setEvent_missQs (w k ev v : Nat) : (s.setEvent w k ev v).missQs = s.missQs := rfl
@[simp] theorem State.setEvent_walkers (w k ev v : Nat) : (s.setEvent w k ev v).walkers = s.walkers := rfl
@[simp] theorem State.setEvent_lines (w k ev v : Nat) : (s.setEvent w k ev v).lines = s.lines := rfl
@[simp] theorem State.setEvent_dir (w k ev v : Nat) : (s.setEvent w k ev v).dir = s.dir := rfl
@[simp] theorem State.setEvent_evacs (w k ev v : Nat) : (s.setEvent w k ev v).evacs = s.evacs := rfl
@[simp] theorem State.setEvent_buckets (w k ev v : Nat) : (s.setEvent w k ev v).buckets = s.buckets := rfl
@[simp] theorem State.setEvent_bursts (w k ev v : Nat) : (s.setEvent w k ev v).bursts = s.bursts := rfl
@[simp] theorem State.setEvent_caps (w k ev v : Nat) : (s.setEvent w k ev v).caps = s.caps := rfl
@[simp] theorem State.setEvent_rvWaits (w k ev v : Nat) : (s.setEvent w k ev v).rvWaits = s.rvWaits := rfl
@[simp] theorem State.setEvent_rvTurn (w k ev v : Nat) : (s.setEvent w k ev v).rvTurn = s.rvTurn := rfl
@[simp] theorem State.setEvent_rvSlots (w k ev v : Nat) : (s.setEvent w k ev v).rvSlots = s.rvSlots := rfl
@[simp] theorem State.setEvent_rvTicks (w k ev v : Nat) : (s.setEvent w k ev v).rvTicks = s.rvTicks := rfl
@[simp] theorem State.setEvent_repeats (w k ev v : Nat) : (s.setEvent w k ev v).repeats = s.repeats := rfl
@[simp] theorem State.setEvent_mr4At (w k ev v : Nat) : (s.setEvent w k ev v).mr4At = s.mr4At := rfl
@[simp] theorem State.setEvent_aqQs (w k ev v : Nat) : (s.setEvent w k ev v).aqQs = s.aqQs := rfl
@[simp] theorem State.setEvent_aqTurn (w k ev v : Nat) : (s.setEvent w k ev v).aqTurn = s.aqTurn := rfl
@[simp] theorem State.setEvent_boot (w k ev v : Nat) : (s.setEvent w k ev v).boot = s.boot := rfl
@[simp] theorem State.setEvent_links (w k ev v : Nat) : (s.setEvent w k ev v).links = s.links := rfl
@[simp] theorem State.setEvent_colls (w k ev v : Nat) : (s.setEvent w k ev v).colls = s.colls := rfl
@[simp] theorem State.setEvent_decided (w k ev v : Nat) : (s.setEvent w k ev v).decided = s.decided := rfl
@[simp] theorem State.setEvent_saved (w k ev v : Nat) : (s.setEvent w k ev v).saved = s.saved := rfl
@[simp] theorem State.setEvent_sessions (w k ev v : Nat) : (s.setEvent w k ev v).sessions = s.sessions := rfl
@[simp] theorem State.setEvent_windows (w k ev v : Nat) : (s.setEvent w k ev v).windows = s.windows := rfl
@[simp] theorem State.setEvent_fabric (w k ev v : Nat) : (s.setEvent w k ev v).fabric = s.fabric := rfl
@[simp] theorem State.setEvent_bifurc (w k ev v : Nat) : (s.setEvent w k ev v).bifurc = s.bifurc := rfl
@[simp] theorem State.setEvent_halfDown (w k ev v : Nat) : (s.setEvent w k ev v).halfDown = s.halfDown := rfl
@[simp] theorem State.setEvent_recovery (w k ev v : Nat) : (s.setEvent w k ev v).recovery = s.recovery := rfl
@[simp] theorem State.setEvent_hqs (w k ev v : Nat) : (s.setEvent w k ev v).hqs = s.hqs := rfl
@[simp] theorem State.setEvent_jn (w k ev v : Nat) : (s.setEvent w k ev v).jn = s.jn := rfl
@[simp] theorem State.setEvent_pair (w k ev v : Nat) : (s.setEvent w k ev v).pair = s.pair := rfl
@[simp] theorem State.setEvent_pw (w k ev v : Nat) : (s.setEvent w k ev v).pw = s.pw := rfl
@[simp] theorem State.setEvent_msixTab (w k ev v : Nat) : (s.setEvent w k ev v).msixTab = s.msixTab := rfl
@[simp] theorem State.setEvent_bar2Data (w k ev v : Nat) : (s.setEvent w k ev v).bar2Data = s.bar2Data := rfl
@[simp] theorem State.setEvent_msix (w k ev v : Nat) : (s.setEvent w k ev v).msix = s.msix := rfl

/-! ### setWrec -/

@[simp] theorem State.setWrec_pending (w k r : Nat) (x : WalkRec) : (s.setWrec w k r x).pending = s.pending := rfl
@[simp] theorem State.setWrec_fresh (w k r : Nat) (x : WalkRec) : (s.setWrec w k r x).fresh = s.fresh := rfl
@[simp] theorem State.setWrec_regs (w k r : Nat) (x : WalkRec) : (s.setWrec w k r x).regs = s.regs := rfl
@[simp] theorem State.setWrec_cistern (w k r : Nat) (x : WalkRec) : (s.setWrec w k r x).cistern = s.cistern := rfl
@[simp] theorem State.setWrec_reservoir (w k r : Nat) (x : WalkRec) : (s.setWrec w k r x).reservoir = s.reservoir := rfl
@[simp] theorem State.setWrec_aquifer (w k r : Nat) (x : WalkRec) : (s.setWrec w k r x).aquifer = s.aquifer := rfl
@[simp] theorem State.setWrec_hostMem (w k r : Nat) (x : WalkRec) : (s.setWrec w k r x).hostMem = s.hostMem := rfl
@[simp] theorem State.setWrec_poison (w k r : Nat) (x : WalkRec) : (s.setWrec w k r x).poison = s.poison := rfl
@[simp] theorem State.setWrec_wells (w k r : Nat) (x : WalkRec) : (s.setWrec w k r x).wells = s.wells := rfl
@[simp] theorem State.setWrec_bobs (w k r : Nat) (x : WalkRec) : (s.setWrec w k r x).bobs = s.bobs := rfl
@[simp] theorem State.setWrec_faultRecs (w k r : Nat) (x : WalkRec) : (s.setWrec w k r x).faultRecs = s.faultRecs := rfl
@[simp] theorem State.setWrec_deques (w k r : Nat) (x : WalkRec) : (s.setWrec w k r x).deques = s.deques := rfl
@[simp] theorem State.setWrec_events (w k r : Nat) (x : WalkRec) : (s.setWrec w k r x).events = s.events := rfl
@[simp] theorem State.setWrec_imem (w k r : Nat) (x : WalkRec) : (s.setWrec w k r x).imem = s.imem := rfl
@[simp] theorem State.setWrec_splits (w k r : Nat) (x : WalkRec) : (s.setWrec w k r x).splits = s.splits := rfl
@[simp] theorem State.setWrec_savedWells (w k r : Nat) (x : WalkRec) : (s.setWrec w k r x).savedWells = s.savedWells := rfl
@[simp] theorem State.setWrec_savedDeques (w k r : Nat) (x : WalkRec) : (s.setWrec w k r x).savedDeques = s.savedDeques := rfl
@[simp] theorem State.setWrec_jobs (w k r : Nat) (x : WalkRec) : (s.setWrec w k r x).jobs = s.jobs := rfl
@[simp] theorem State.setWrec_reqs (w k r : Nat) (x : WalkRec) : (s.setWrec w k r x).reqs = s.reqs := rfl
@[simp] theorem State.setWrec_units (w k r : Nat) (x : WalkRec) : (s.setWrec w k r x).units = s.units := rfl
@[simp] theorem State.setWrec_pumps (w k r : Nat) (x : WalkRec) : (s.setWrec w k r x).pumps = s.pumps := rfl
@[simp] theorem State.setWrec_susp (w k r : Nat) (x : WalkRec) : (s.setWrec w k r x).susp = s.susp := rfl
@[simp] theorem State.setWrec_caches (w k r : Nat) (x : WalkRec) : (s.setWrec w k r x).caches = s.caches := rfl
@[simp] theorem State.setWrec_engine (w k r : Nat) (x : WalkRec) : (s.setWrec w k r x).engine = s.engine := rfl
@[simp] theorem State.setWrec_whPumps (w k r : Nat) (x : WalkRec) : (s.setWrec w k r x).whPumps = s.whPumps := rfl
@[simp] theorem State.setWrec_ops (w k r : Nat) (x : WalkRec) : (s.setWrec w k r x).ops = s.ops := rfl
@[simp] theorem State.setWrec_nextId (w k r : Nat) (x : WalkRec) : (s.setWrec w k r x).nextId = s.nextId := rfl
@[simp] theorem State.setWrec_hroot (w k r : Nat) (x : WalkRec) : (s.setWrec w k r x).hroot = s.hroot := rfl
@[simp] theorem State.setWrec_fcLast (w k r : Nat) (x : WalkRec) : (s.setWrec w k r x).fcLast = s.fcLast := rfl
@[simp] theorem State.setWrec_hostDown (w k r : Nat) (x : WalkRec) : (s.setWrec w k r x).hostDown = s.hostDown := rfl
@[simp] theorem State.setWrec_rvSelfRefresh (w k r : Nat) (x : WalkRec) : (s.setWrec w k r x).rvSelfRefresh = s.rvSelfRefresh := rfl
@[simp] theorem State.setWrec_tlb (w k r : Nat) (x : WalkRec) : (s.setWrec w k r x).tlb = s.tlb := rfl
@[simp] theorem State.setWrec_walkPtrs (w k r : Nat) (x : WalkRec) : (s.setWrec w k r x).walkPtrs = s.walkPtrs := rfl
@[simp] theorem State.setWrec_missQs (w k r : Nat) (x : WalkRec) : (s.setWrec w k r x).missQs = s.missQs := rfl
@[simp] theorem State.setWrec_walkers (w k r : Nat) (x : WalkRec) : (s.setWrec w k r x).walkers = s.walkers := rfl
@[simp] theorem State.setWrec_lines (w k r : Nat) (x : WalkRec) : (s.setWrec w k r x).lines = s.lines := rfl
@[simp] theorem State.setWrec_dir (w k r : Nat) (x : WalkRec) : (s.setWrec w k r x).dir = s.dir := rfl
@[simp] theorem State.setWrec_evacs (w k r : Nat) (x : WalkRec) : (s.setWrec w k r x).evacs = s.evacs := rfl
@[simp] theorem State.setWrec_buckets (w k r : Nat) (x : WalkRec) : (s.setWrec w k r x).buckets = s.buckets := rfl
@[simp] theorem State.setWrec_bursts (w k r : Nat) (x : WalkRec) : (s.setWrec w k r x).bursts = s.bursts := rfl
@[simp] theorem State.setWrec_caps (w k r : Nat) (x : WalkRec) : (s.setWrec w k r x).caps = s.caps := rfl
@[simp] theorem State.setWrec_rvWaits (w k r : Nat) (x : WalkRec) : (s.setWrec w k r x).rvWaits = s.rvWaits := rfl
@[simp] theorem State.setWrec_rvTurn (w k r : Nat) (x : WalkRec) : (s.setWrec w k r x).rvTurn = s.rvTurn := rfl
@[simp] theorem State.setWrec_rvSlots (w k r : Nat) (x : WalkRec) : (s.setWrec w k r x).rvSlots = s.rvSlots := rfl
@[simp] theorem State.setWrec_rvTicks (w k r : Nat) (x : WalkRec) : (s.setWrec w k r x).rvTicks = s.rvTicks := rfl
@[simp] theorem State.setWrec_repeats (w k r : Nat) (x : WalkRec) : (s.setWrec w k r x).repeats = s.repeats := rfl
@[simp] theorem State.setWrec_mr4At (w k r : Nat) (x : WalkRec) : (s.setWrec w k r x).mr4At = s.mr4At := rfl
@[simp] theorem State.setWrec_aqQs (w k r : Nat) (x : WalkRec) : (s.setWrec w k r x).aqQs = s.aqQs := rfl
@[simp] theorem State.setWrec_aqTurn (w k r : Nat) (x : WalkRec) : (s.setWrec w k r x).aqTurn = s.aqTurn := rfl
@[simp] theorem State.setWrec_boot (w k r : Nat) (x : WalkRec) : (s.setWrec w k r x).boot = s.boot := rfl
@[simp] theorem State.setWrec_links (w k r : Nat) (x : WalkRec) : (s.setWrec w k r x).links = s.links := rfl
@[simp] theorem State.setWrec_colls (w k r : Nat) (x : WalkRec) : (s.setWrec w k r x).colls = s.colls := rfl
@[simp] theorem State.setWrec_decided (w k r : Nat) (x : WalkRec) : (s.setWrec w k r x).decided = s.decided := rfl
@[simp] theorem State.setWrec_saved (w k r : Nat) (x : WalkRec) : (s.setWrec w k r x).saved = s.saved := rfl
@[simp] theorem State.setWrec_sessions (w k r : Nat) (x : WalkRec) : (s.setWrec w k r x).sessions = s.sessions := rfl
@[simp] theorem State.setWrec_windows (w k r : Nat) (x : WalkRec) : (s.setWrec w k r x).windows = s.windows := rfl
@[simp] theorem State.setWrec_fabric (w k r : Nat) (x : WalkRec) : (s.setWrec w k r x).fabric = s.fabric := rfl
@[simp] theorem State.setWrec_bifurc (w k r : Nat) (x : WalkRec) : (s.setWrec w k r x).bifurc = s.bifurc := rfl
@[simp] theorem State.setWrec_halfDown (w k r : Nat) (x : WalkRec) : (s.setWrec w k r x).halfDown = s.halfDown := rfl
@[simp] theorem State.setWrec_recovery (w k r : Nat) (x : WalkRec) : (s.setWrec w k r x).recovery = s.recovery := rfl
@[simp] theorem State.setWrec_hqs (w k r : Nat) (x : WalkRec) : (s.setWrec w k r x).hqs = s.hqs := rfl
@[simp] theorem State.setWrec_jn (w k r : Nat) (x : WalkRec) : (s.setWrec w k r x).jn = s.jn := rfl
@[simp] theorem State.setWrec_pair (w k r : Nat) (x : WalkRec) : (s.setWrec w k r x).pair = s.pair := rfl
@[simp] theorem State.setWrec_pw (w k r : Nat) (x : WalkRec) : (s.setWrec w k r x).pw = s.pw := rfl
@[simp] theorem State.setWrec_msixTab (w k r : Nat) (x : WalkRec) : (s.setWrec w k r x).msixTab = s.msixTab := rfl
@[simp] theorem State.setWrec_bar2Data (w k r : Nat) (x : WalkRec) : (s.setWrec w k r x).bar2Data = s.bar2Data := rfl
@[simp] theorem State.setWrec_msix (w k r : Nat) (x : WalkRec) : (s.setWrec w k r x).msix = s.msix := rfl

/-! ### modJob -/

@[simp] theorem State.modJob_pending (j : Nat) (f : Job → Job) : (s.modJob j f).pending = s.pending := rfl
@[simp] theorem State.modJob_fresh (j : Nat) (f : Job → Job) : (s.modJob j f).fresh = s.fresh := rfl
@[simp] theorem State.modJob_regs (j : Nat) (f : Job → Job) : (s.modJob j f).regs = s.regs := rfl
@[simp] theorem State.modJob_cistern (j : Nat) (f : Job → Job) : (s.modJob j f).cistern = s.cistern := rfl
@[simp] theorem State.modJob_reservoir (j : Nat) (f : Job → Job) : (s.modJob j f).reservoir = s.reservoir := rfl
@[simp] theorem State.modJob_aquifer (j : Nat) (f : Job → Job) : (s.modJob j f).aquifer = s.aquifer := rfl
@[simp] theorem State.modJob_hostMem (j : Nat) (f : Job → Job) : (s.modJob j f).hostMem = s.hostMem := rfl
@[simp] theorem State.modJob_poison (j : Nat) (f : Job → Job) : (s.modJob j f).poison = s.poison := rfl
@[simp] theorem State.modJob_wells (j : Nat) (f : Job → Job) : (s.modJob j f).wells = s.wells := rfl
@[simp] theorem State.modJob_bobs (j : Nat) (f : Job → Job) : (s.modJob j f).bobs = s.bobs := rfl
@[simp] theorem State.modJob_faultRecs (j : Nat) (f : Job → Job) : (s.modJob j f).faultRecs = s.faultRecs := rfl
@[simp] theorem State.modJob_deques (j : Nat) (f : Job → Job) : (s.modJob j f).deques = s.deques := rfl
@[simp] theorem State.modJob_events (j : Nat) (f : Job → Job) : (s.modJob j f).events = s.events := rfl
@[simp] theorem State.modJob_walkRecs (j : Nat) (f : Job → Job) : (s.modJob j f).walkRecs = s.walkRecs := rfl
@[simp] theorem State.modJob_imem (j : Nat) (f : Job → Job) : (s.modJob j f).imem = s.imem := rfl
@[simp] theorem State.modJob_splits (j : Nat) (f : Job → Job) : (s.modJob j f).splits = s.splits := rfl
@[simp] theorem State.modJob_savedWells (j : Nat) (f : Job → Job) : (s.modJob j f).savedWells = s.savedWells := rfl
@[simp] theorem State.modJob_savedDeques (j : Nat) (f : Job → Job) : (s.modJob j f).savedDeques = s.savedDeques := rfl
@[simp] theorem State.modJob_reqs (j : Nat) (f : Job → Job) : (s.modJob j f).reqs = s.reqs := rfl
@[simp] theorem State.modJob_units (j : Nat) (f : Job → Job) : (s.modJob j f).units = s.units := rfl
@[simp] theorem State.modJob_pumps (j : Nat) (f : Job → Job) : (s.modJob j f).pumps = s.pumps := rfl
@[simp] theorem State.modJob_susp (j : Nat) (f : Job → Job) : (s.modJob j f).susp = s.susp := rfl
@[simp] theorem State.modJob_caches (j : Nat) (f : Job → Job) : (s.modJob j f).caches = s.caches := rfl
@[simp] theorem State.modJob_engine (j : Nat) (f : Job → Job) : (s.modJob j f).engine = s.engine := rfl
@[simp] theorem State.modJob_whPumps (j : Nat) (f : Job → Job) : (s.modJob j f).whPumps = s.whPumps := rfl
@[simp] theorem State.modJob_ops (j : Nat) (f : Job → Job) : (s.modJob j f).ops = s.ops := rfl
@[simp] theorem State.modJob_nextId (j : Nat) (f : Job → Job) : (s.modJob j f).nextId = s.nextId := rfl
@[simp] theorem State.modJob_hroot (j : Nat) (f : Job → Job) : (s.modJob j f).hroot = s.hroot := rfl
@[simp] theorem State.modJob_fcLast (j : Nat) (f : Job → Job) : (s.modJob j f).fcLast = s.fcLast := rfl
@[simp] theorem State.modJob_hostDown (j : Nat) (f : Job → Job) : (s.modJob j f).hostDown = s.hostDown := rfl
@[simp] theorem State.modJob_rvSelfRefresh (j : Nat) (f : Job → Job) : (s.modJob j f).rvSelfRefresh = s.rvSelfRefresh := rfl
@[simp] theorem State.modJob_tlb (j : Nat) (f : Job → Job) : (s.modJob j f).tlb = s.tlb := rfl
@[simp] theorem State.modJob_walkPtrs (j : Nat) (f : Job → Job) : (s.modJob j f).walkPtrs = s.walkPtrs := rfl
@[simp] theorem State.modJob_missQs (j : Nat) (f : Job → Job) : (s.modJob j f).missQs = s.missQs := rfl
@[simp] theorem State.modJob_walkers (j : Nat) (f : Job → Job) : (s.modJob j f).walkers = s.walkers := rfl
@[simp] theorem State.modJob_lines (j : Nat) (f : Job → Job) : (s.modJob j f).lines = s.lines := rfl
@[simp] theorem State.modJob_dir (j : Nat) (f : Job → Job) : (s.modJob j f).dir = s.dir := rfl
@[simp] theorem State.modJob_evacs (j : Nat) (f : Job → Job) : (s.modJob j f).evacs = s.evacs := rfl
@[simp] theorem State.modJob_buckets (j : Nat) (f : Job → Job) : (s.modJob j f).buckets = s.buckets := rfl
@[simp] theorem State.modJob_bursts (j : Nat) (f : Job → Job) : (s.modJob j f).bursts = s.bursts := rfl
@[simp] theorem State.modJob_caps (j : Nat) (f : Job → Job) : (s.modJob j f).caps = s.caps := rfl
@[simp] theorem State.modJob_rvWaits (j : Nat) (f : Job → Job) : (s.modJob j f).rvWaits = s.rvWaits := rfl
@[simp] theorem State.modJob_rvTurn (j : Nat) (f : Job → Job) : (s.modJob j f).rvTurn = s.rvTurn := rfl
@[simp] theorem State.modJob_rvSlots (j : Nat) (f : Job → Job) : (s.modJob j f).rvSlots = s.rvSlots := rfl
@[simp] theorem State.modJob_rvTicks (j : Nat) (f : Job → Job) : (s.modJob j f).rvTicks = s.rvTicks := rfl
@[simp] theorem State.modJob_repeats (j : Nat) (f : Job → Job) : (s.modJob j f).repeats = s.repeats := rfl
@[simp] theorem State.modJob_mr4At (j : Nat) (f : Job → Job) : (s.modJob j f).mr4At = s.mr4At := rfl
@[simp] theorem State.modJob_aqQs (j : Nat) (f : Job → Job) : (s.modJob j f).aqQs = s.aqQs := rfl
@[simp] theorem State.modJob_aqTurn (j : Nat) (f : Job → Job) : (s.modJob j f).aqTurn = s.aqTurn := rfl
@[simp] theorem State.modJob_boot (j : Nat) (f : Job → Job) : (s.modJob j f).boot = s.boot := rfl
@[simp] theorem State.modJob_links (j : Nat) (f : Job → Job) : (s.modJob j f).links = s.links := rfl
@[simp] theorem State.modJob_colls (j : Nat) (f : Job → Job) : (s.modJob j f).colls = s.colls := rfl
@[simp] theorem State.modJob_decided (j : Nat) (f : Job → Job) : (s.modJob j f).decided = s.decided := rfl
@[simp] theorem State.modJob_saved (j : Nat) (f : Job → Job) : (s.modJob j f).saved = s.saved := rfl
@[simp] theorem State.modJob_sessions (j : Nat) (f : Job → Job) : (s.modJob j f).sessions = s.sessions := rfl
@[simp] theorem State.modJob_windows (j : Nat) (f : Job → Job) : (s.modJob j f).windows = s.windows := rfl
@[simp] theorem State.modJob_fabric (j : Nat) (f : Job → Job) : (s.modJob j f).fabric = s.fabric := rfl
@[simp] theorem State.modJob_bifurc (j : Nat) (f : Job → Job) : (s.modJob j f).bifurc = s.bifurc := rfl
@[simp] theorem State.modJob_halfDown (j : Nat) (f : Job → Job) : (s.modJob j f).halfDown = s.halfDown := rfl
@[simp] theorem State.modJob_recovery (j : Nat) (f : Job → Job) : (s.modJob j f).recovery = s.recovery := rfl
@[simp] theorem State.modJob_hqs (j : Nat) (f : Job → Job) : (s.modJob j f).hqs = s.hqs := rfl
@[simp] theorem State.modJob_jn (j : Nat) (f : Job → Job) : (s.modJob j f).jn = s.jn := rfl
@[simp] theorem State.modJob_pair (j : Nat) (f : Job → Job) : (s.modJob j f).pair = s.pair := rfl
@[simp] theorem State.modJob_pw (j : Nat) (f : Job → Job) : (s.modJob j f).pw = s.pw := rfl
@[simp] theorem State.modJob_msixTab (j : Nat) (f : Job → Job) : (s.modJob j f).msixTab = s.msixTab := rfl
@[simp] theorem State.modJob_bar2Data (j : Nat) (f : Job → Job) : (s.modJob j f).bar2Data = s.bar2Data := rfl
@[simp] theorem State.modJob_msix (j : Nat) (f : Job → Job) : (s.modJob j f).msix = s.msix := rfl

/-! ### signal -/

@[simp] theorem State.signal_pending (f vec : Nat) : (s.signal f vec).pending = s.pending := rfl
@[simp] theorem State.signal_fresh (f vec : Nat) : (s.signal f vec).fresh = s.fresh := rfl
@[simp] theorem State.signal_regs (f vec : Nat) : (s.signal f vec).regs = s.regs := rfl
@[simp] theorem State.signal_cistern (f vec : Nat) : (s.signal f vec).cistern = s.cistern := rfl
@[simp] theorem State.signal_reservoir (f vec : Nat) : (s.signal f vec).reservoir = s.reservoir := rfl
@[simp] theorem State.signal_aquifer (f vec : Nat) : (s.signal f vec).aquifer = s.aquifer := rfl
@[simp] theorem State.signal_hostMem (f vec : Nat) : (s.signal f vec).hostMem = s.hostMem := rfl
@[simp] theorem State.signal_poison (f vec : Nat) : (s.signal f vec).poison = s.poison := rfl
@[simp] theorem State.signal_wells (f vec : Nat) : (s.signal f vec).wells = s.wells := rfl
@[simp] theorem State.signal_bobs (f vec : Nat) : (s.signal f vec).bobs = s.bobs := rfl
@[simp] theorem State.signal_faultRecs (f vec : Nat) : (s.signal f vec).faultRecs = s.faultRecs := rfl
@[simp] theorem State.signal_deques (f vec : Nat) : (s.signal f vec).deques = s.deques := rfl
@[simp] theorem State.signal_events (f vec : Nat) : (s.signal f vec).events = s.events := rfl
@[simp] theorem State.signal_walkRecs (f vec : Nat) : (s.signal f vec).walkRecs = s.walkRecs := rfl
@[simp] theorem State.signal_imem (f vec : Nat) : (s.signal f vec).imem = s.imem := rfl
@[simp] theorem State.signal_splits (f vec : Nat) : (s.signal f vec).splits = s.splits := rfl
@[simp] theorem State.signal_savedWells (f vec : Nat) : (s.signal f vec).savedWells = s.savedWells := rfl
@[simp] theorem State.signal_savedDeques (f vec : Nat) : (s.signal f vec).savedDeques = s.savedDeques := rfl
@[simp] theorem State.signal_jobs (f vec : Nat) : (s.signal f vec).jobs = s.jobs := rfl
@[simp] theorem State.signal_reqs (f vec : Nat) : (s.signal f vec).reqs = s.reqs := rfl
@[simp] theorem State.signal_units (f vec : Nat) : (s.signal f vec).units = s.units := rfl
@[simp] theorem State.signal_pumps (f vec : Nat) : (s.signal f vec).pumps = s.pumps := rfl
@[simp] theorem State.signal_susp (f vec : Nat) : (s.signal f vec).susp = s.susp := rfl
@[simp] theorem State.signal_caches (f vec : Nat) : (s.signal f vec).caches = s.caches := rfl
@[simp] theorem State.signal_engine (f vec : Nat) : (s.signal f vec).engine = s.engine := rfl
@[simp] theorem State.signal_whPumps (f vec : Nat) : (s.signal f vec).whPumps = s.whPumps := rfl
@[simp] theorem State.signal_ops (f vec : Nat) : (s.signal f vec).ops = s.ops := rfl
@[simp] theorem State.signal_nextId (f vec : Nat) : (s.signal f vec).nextId = s.nextId := rfl
@[simp] theorem State.signal_hroot (f vec : Nat) : (s.signal f vec).hroot = s.hroot := rfl
@[simp] theorem State.signal_fcLast (f vec : Nat) : (s.signal f vec).fcLast = s.fcLast := rfl
@[simp] theorem State.signal_hostDown (f vec : Nat) : (s.signal f vec).hostDown = s.hostDown := rfl
@[simp] theorem State.signal_rvSelfRefresh (f vec : Nat) : (s.signal f vec).rvSelfRefresh = s.rvSelfRefresh := rfl
@[simp] theorem State.signal_tlb (f vec : Nat) : (s.signal f vec).tlb = s.tlb := rfl
@[simp] theorem State.signal_walkPtrs (f vec : Nat) : (s.signal f vec).walkPtrs = s.walkPtrs := rfl
@[simp] theorem State.signal_missQs (f vec : Nat) : (s.signal f vec).missQs = s.missQs := rfl
@[simp] theorem State.signal_walkers (f vec : Nat) : (s.signal f vec).walkers = s.walkers := rfl
@[simp] theorem State.signal_lines (f vec : Nat) : (s.signal f vec).lines = s.lines := rfl
@[simp] theorem State.signal_dir (f vec : Nat) : (s.signal f vec).dir = s.dir := rfl
@[simp] theorem State.signal_evacs (f vec : Nat) : (s.signal f vec).evacs = s.evacs := rfl
@[simp] theorem State.signal_buckets (f vec : Nat) : (s.signal f vec).buckets = s.buckets := rfl
@[simp] theorem State.signal_bursts (f vec : Nat) : (s.signal f vec).bursts = s.bursts := rfl
@[simp] theorem State.signal_caps (f vec : Nat) : (s.signal f vec).caps = s.caps := rfl
@[simp] theorem State.signal_rvWaits (f vec : Nat) : (s.signal f vec).rvWaits = s.rvWaits := rfl
@[simp] theorem State.signal_rvTurn (f vec : Nat) : (s.signal f vec).rvTurn = s.rvTurn := rfl
@[simp] theorem State.signal_rvSlots (f vec : Nat) : (s.signal f vec).rvSlots = s.rvSlots := rfl
@[simp] theorem State.signal_rvTicks (f vec : Nat) : (s.signal f vec).rvTicks = s.rvTicks := rfl
@[simp] theorem State.signal_repeats (f vec : Nat) : (s.signal f vec).repeats = s.repeats := rfl
@[simp] theorem State.signal_mr4At (f vec : Nat) : (s.signal f vec).mr4At = s.mr4At := rfl
@[simp] theorem State.signal_aqQs (f vec : Nat) : (s.signal f vec).aqQs = s.aqQs := rfl
@[simp] theorem State.signal_aqTurn (f vec : Nat) : (s.signal f vec).aqTurn = s.aqTurn := rfl
@[simp] theorem State.signal_boot (f vec : Nat) : (s.signal f vec).boot = s.boot := rfl
@[simp] theorem State.signal_links (f vec : Nat) : (s.signal f vec).links = s.links := rfl
@[simp] theorem State.signal_colls (f vec : Nat) : (s.signal f vec).colls = s.colls := rfl
@[simp] theorem State.signal_decided (f vec : Nat) : (s.signal f vec).decided = s.decided := rfl
@[simp] theorem State.signal_saved (f vec : Nat) : (s.signal f vec).saved = s.saved := rfl
@[simp] theorem State.signal_sessions (f vec : Nat) : (s.signal f vec).sessions = s.sessions := rfl
@[simp] theorem State.signal_windows (f vec : Nat) : (s.signal f vec).windows = s.windows := rfl
@[simp] theorem State.signal_fabric (f vec : Nat) : (s.signal f vec).fabric = s.fabric := rfl
@[simp] theorem State.signal_bifurc (f vec : Nat) : (s.signal f vec).bifurc = s.bifurc := rfl
@[simp] theorem State.signal_halfDown (f vec : Nat) : (s.signal f vec).halfDown = s.halfDown := rfl
@[simp] theorem State.signal_recovery (f vec : Nat) : (s.signal f vec).recovery = s.recovery := rfl
@[simp] theorem State.signal_hqs (f vec : Nat) : (s.signal f vec).hqs = s.hqs := rfl
@[simp] theorem State.signal_jn (f vec : Nat) : (s.signal f vec).jn = s.jn := rfl
@[simp] theorem State.signal_pair (f vec : Nat) : (s.signal f vec).pair = s.pair := rfl
@[simp] theorem State.signal_pw (f vec : Nat) : (s.signal f vec).pw = s.pw := rfl
@[simp] theorem State.signal_msixTab (f vec : Nat) : (s.signal f vec).msixTab = s.msixTab := rfl
@[simp] theorem State.signal_bar2Data (f vec : Nat) : (s.signal f vec).bar2Data = s.bar2Data := rfl

/-! ### setUnit -/

@[simp] theorem State.setUnit_pending (w u : Nat) (x : CuUnit) : (s.setUnit w u x).pending = s.pending := rfl
@[simp] theorem State.setUnit_fresh (w u : Nat) (x : CuUnit) : (s.setUnit w u x).fresh = s.fresh := rfl
@[simp] theorem State.setUnit_regs (w u : Nat) (x : CuUnit) : (s.setUnit w u x).regs = s.regs := rfl
@[simp] theorem State.setUnit_cistern (w u : Nat) (x : CuUnit) : (s.setUnit w u x).cistern = s.cistern := rfl
@[simp] theorem State.setUnit_reservoir (w u : Nat) (x : CuUnit) : (s.setUnit w u x).reservoir = s.reservoir := rfl
@[simp] theorem State.setUnit_aquifer (w u : Nat) (x : CuUnit) : (s.setUnit w u x).aquifer = s.aquifer := rfl
@[simp] theorem State.setUnit_hostMem (w u : Nat) (x : CuUnit) : (s.setUnit w u x).hostMem = s.hostMem := rfl
@[simp] theorem State.setUnit_poison (w u : Nat) (x : CuUnit) : (s.setUnit w u x).poison = s.poison := rfl
@[simp] theorem State.setUnit_wells (w u : Nat) (x : CuUnit) : (s.setUnit w u x).wells = s.wells := rfl
@[simp] theorem State.setUnit_bobs (w u : Nat) (x : CuUnit) : (s.setUnit w u x).bobs = s.bobs := rfl
@[simp] theorem State.setUnit_faultRecs (w u : Nat) (x : CuUnit) : (s.setUnit w u x).faultRecs = s.faultRecs := rfl
@[simp] theorem State.setUnit_deques (w u : Nat) (x : CuUnit) : (s.setUnit w u x).deques = s.deques := rfl
@[simp] theorem State.setUnit_events (w u : Nat) (x : CuUnit) : (s.setUnit w u x).events = s.events := rfl
@[simp] theorem State.setUnit_walkRecs (w u : Nat) (x : CuUnit) : (s.setUnit w u x).walkRecs = s.walkRecs := rfl
@[simp] theorem State.setUnit_imem (w u : Nat) (x : CuUnit) : (s.setUnit w u x).imem = s.imem := rfl
@[simp] theorem State.setUnit_splits (w u : Nat) (x : CuUnit) : (s.setUnit w u x).splits = s.splits := rfl
@[simp] theorem State.setUnit_savedWells (w u : Nat) (x : CuUnit) : (s.setUnit w u x).savedWells = s.savedWells := rfl
@[simp] theorem State.setUnit_savedDeques (w u : Nat) (x : CuUnit) : (s.setUnit w u x).savedDeques = s.savedDeques := rfl
@[simp] theorem State.setUnit_jobs (w u : Nat) (x : CuUnit) : (s.setUnit w u x).jobs = s.jobs := rfl
@[simp] theorem State.setUnit_reqs (w u : Nat) (x : CuUnit) : (s.setUnit w u x).reqs = s.reqs := rfl
@[simp] theorem State.setUnit_pumps (w u : Nat) (x : CuUnit) : (s.setUnit w u x).pumps = s.pumps := rfl
@[simp] theorem State.setUnit_susp (w u : Nat) (x : CuUnit) : (s.setUnit w u x).susp = s.susp := rfl
@[simp] theorem State.setUnit_caches (w u : Nat) (x : CuUnit) : (s.setUnit w u x).caches = s.caches := rfl
@[simp] theorem State.setUnit_engine (w u : Nat) (x : CuUnit) : (s.setUnit w u x).engine = s.engine := rfl
@[simp] theorem State.setUnit_whPumps (w u : Nat) (x : CuUnit) : (s.setUnit w u x).whPumps = s.whPumps := rfl
@[simp] theorem State.setUnit_ops (w u : Nat) (x : CuUnit) : (s.setUnit w u x).ops = s.ops := rfl
@[simp] theorem State.setUnit_nextId (w u : Nat) (x : CuUnit) : (s.setUnit w u x).nextId = s.nextId := rfl
@[simp] theorem State.setUnit_hroot (w u : Nat) (x : CuUnit) : (s.setUnit w u x).hroot = s.hroot := rfl
@[simp] theorem State.setUnit_fcLast (w u : Nat) (x : CuUnit) : (s.setUnit w u x).fcLast = s.fcLast := rfl
@[simp] theorem State.setUnit_hostDown (w u : Nat) (x : CuUnit) : (s.setUnit w u x).hostDown = s.hostDown := rfl
@[simp] theorem State.setUnit_rvSelfRefresh (w u : Nat) (x : CuUnit) : (s.setUnit w u x).rvSelfRefresh = s.rvSelfRefresh := rfl
@[simp] theorem State.setUnit_tlb (w u : Nat) (x : CuUnit) : (s.setUnit w u x).tlb = s.tlb := rfl
@[simp] theorem State.setUnit_walkPtrs (w u : Nat) (x : CuUnit) : (s.setUnit w u x).walkPtrs = s.walkPtrs := rfl
@[simp] theorem State.setUnit_missQs (w u : Nat) (x : CuUnit) : (s.setUnit w u x).missQs = s.missQs := rfl
@[simp] theorem State.setUnit_walkers (w u : Nat) (x : CuUnit) : (s.setUnit w u x).walkers = s.walkers := rfl
@[simp] theorem State.setUnit_lines (w u : Nat) (x : CuUnit) : (s.setUnit w u x).lines = s.lines := rfl
@[simp] theorem State.setUnit_dir (w u : Nat) (x : CuUnit) : (s.setUnit w u x).dir = s.dir := rfl
@[simp] theorem State.setUnit_evacs (w u : Nat) (x : CuUnit) : (s.setUnit w u x).evacs = s.evacs := rfl
@[simp] theorem State.setUnit_buckets (w u : Nat) (x : CuUnit) : (s.setUnit w u x).buckets = s.buckets := rfl
@[simp] theorem State.setUnit_bursts (w u : Nat) (x : CuUnit) : (s.setUnit w u x).bursts = s.bursts := rfl
@[simp] theorem State.setUnit_caps (w u : Nat) (x : CuUnit) : (s.setUnit w u x).caps = s.caps := rfl
@[simp] theorem State.setUnit_rvWaits (w u : Nat) (x : CuUnit) : (s.setUnit w u x).rvWaits = s.rvWaits := rfl
@[simp] theorem State.setUnit_rvTurn (w u : Nat) (x : CuUnit) : (s.setUnit w u x).rvTurn = s.rvTurn := rfl
@[simp] theorem State.setUnit_rvSlots (w u : Nat) (x : CuUnit) : (s.setUnit w u x).rvSlots = s.rvSlots := rfl
@[simp] theorem State.setUnit_rvTicks (w u : Nat) (x : CuUnit) : (s.setUnit w u x).rvTicks = s.rvTicks := rfl
@[simp] theorem State.setUnit_repeats (w u : Nat) (x : CuUnit) : (s.setUnit w u x).repeats = s.repeats := rfl
@[simp] theorem State.setUnit_mr4At (w u : Nat) (x : CuUnit) : (s.setUnit w u x).mr4At = s.mr4At := rfl
@[simp] theorem State.setUnit_aqQs (w u : Nat) (x : CuUnit) : (s.setUnit w u x).aqQs = s.aqQs := rfl
@[simp] theorem State.setUnit_aqTurn (w u : Nat) (x : CuUnit) : (s.setUnit w u x).aqTurn = s.aqTurn := rfl
@[simp] theorem State.setUnit_boot (w u : Nat) (x : CuUnit) : (s.setUnit w u x).boot = s.boot := rfl
@[simp] theorem State.setUnit_links (w u : Nat) (x : CuUnit) : (s.setUnit w u x).links = s.links := rfl
@[simp] theorem State.setUnit_colls (w u : Nat) (x : CuUnit) : (s.setUnit w u x).colls = s.colls := rfl
@[simp] theorem State.setUnit_decided (w u : Nat) (x : CuUnit) : (s.setUnit w u x).decided = s.decided := rfl
@[simp] theorem State.setUnit_saved (w u : Nat) (x : CuUnit) : (s.setUnit w u x).saved = s.saved := rfl
@[simp] theorem State.setUnit_sessions (w u : Nat) (x : CuUnit) : (s.setUnit w u x).sessions = s.sessions := rfl
@[simp] theorem State.setUnit_windows (w u : Nat) (x : CuUnit) : (s.setUnit w u x).windows = s.windows := rfl
@[simp] theorem State.setUnit_fabric (w u : Nat) (x : CuUnit) : (s.setUnit w u x).fabric = s.fabric := rfl
@[simp] theorem State.setUnit_bifurc (w u : Nat) (x : CuUnit) : (s.setUnit w u x).bifurc = s.bifurc := rfl
@[simp] theorem State.setUnit_halfDown (w u : Nat) (x : CuUnit) : (s.setUnit w u x).halfDown = s.halfDown := rfl
@[simp] theorem State.setUnit_recovery (w u : Nat) (x : CuUnit) : (s.setUnit w u x).recovery = s.recovery := rfl
@[simp] theorem State.setUnit_hqs (w u : Nat) (x : CuUnit) : (s.setUnit w u x).hqs = s.hqs := rfl
@[simp] theorem State.setUnit_jn (w u : Nat) (x : CuUnit) : (s.setUnit w u x).jn = s.jn := rfl
@[simp] theorem State.setUnit_pair (w u : Nat) (x : CuUnit) : (s.setUnit w u x).pair = s.pair := rfl
@[simp] theorem State.setUnit_pw (w u : Nat) (x : CuUnit) : (s.setUnit w u x).pw = s.pw := rfl
@[simp] theorem State.setUnit_msixTab (w u : Nat) (x : CuUnit) : (s.setUnit w u x).msixTab = s.msixTab := rfl
@[simp] theorem State.setUnit_bar2Data (w u : Nat) (x : CuUnit) : (s.setUnit w u x).bar2Data = s.bar2Data := rfl
@[simp] theorem State.setUnit_msix (w u : Nat) (x : CuUnit) : (s.setUnit w u x).msix = s.msix := rfl

/-! ### setPump -/

@[simp] theorem State.setPump_pending (w n : Nat) (p : Pump) : (s.setPump w n p).pending = s.pending := rfl
@[simp] theorem State.setPump_fresh (w n : Nat) (p : Pump) : (s.setPump w n p).fresh = s.fresh := rfl
@[simp] theorem State.setPump_regs (w n : Nat) (p : Pump) : (s.setPump w n p).regs = s.regs := rfl
@[simp] theorem State.setPump_cistern (w n : Nat) (p : Pump) : (s.setPump w n p).cistern = s.cistern := rfl
@[simp] theorem State.setPump_reservoir (w n : Nat) (p : Pump) : (s.setPump w n p).reservoir = s.reservoir := rfl
@[simp] theorem State.setPump_aquifer (w n : Nat) (p : Pump) : (s.setPump w n p).aquifer = s.aquifer := rfl
@[simp] theorem State.setPump_hostMem (w n : Nat) (p : Pump) : (s.setPump w n p).hostMem = s.hostMem := rfl
@[simp] theorem State.setPump_poison (w n : Nat) (p : Pump) : (s.setPump w n p).poison = s.poison := rfl
@[simp] theorem State.setPump_wells (w n : Nat) (p : Pump) : (s.setPump w n p).wells = s.wells := rfl
@[simp] theorem State.setPump_bobs (w n : Nat) (p : Pump) : (s.setPump w n p).bobs = s.bobs := rfl
@[simp] theorem State.setPump_faultRecs (w n : Nat) (p : Pump) : (s.setPump w n p).faultRecs = s.faultRecs := rfl
@[simp] theorem State.setPump_deques (w n : Nat) (p : Pump) : (s.setPump w n p).deques = s.deques := rfl
@[simp] theorem State.setPump_events (w n : Nat) (p : Pump) : (s.setPump w n p).events = s.events := rfl
@[simp] theorem State.setPump_walkRecs (w n : Nat) (p : Pump) : (s.setPump w n p).walkRecs = s.walkRecs := rfl
@[simp] theorem State.setPump_imem (w n : Nat) (p : Pump) : (s.setPump w n p).imem = s.imem := rfl
@[simp] theorem State.setPump_splits (w n : Nat) (p : Pump) : (s.setPump w n p).splits = s.splits := rfl
@[simp] theorem State.setPump_savedWells (w n : Nat) (p : Pump) : (s.setPump w n p).savedWells = s.savedWells := rfl
@[simp] theorem State.setPump_savedDeques (w n : Nat) (p : Pump) : (s.setPump w n p).savedDeques = s.savedDeques := rfl
@[simp] theorem State.setPump_jobs (w n : Nat) (p : Pump) : (s.setPump w n p).jobs = s.jobs := rfl
@[simp] theorem State.setPump_reqs (w n : Nat) (p : Pump) : (s.setPump w n p).reqs = s.reqs := rfl
@[simp] theorem State.setPump_units (w n : Nat) (p : Pump) : (s.setPump w n p).units = s.units := rfl
@[simp] theorem State.setPump_susp (w n : Nat) (p : Pump) : (s.setPump w n p).susp = s.susp := rfl
@[simp] theorem State.setPump_caches (w n : Nat) (p : Pump) : (s.setPump w n p).caches = s.caches := rfl
@[simp] theorem State.setPump_engine (w n : Nat) (p : Pump) : (s.setPump w n p).engine = s.engine := rfl
@[simp] theorem State.setPump_whPumps (w n : Nat) (p : Pump) : (s.setPump w n p).whPumps = s.whPumps := rfl
@[simp] theorem State.setPump_ops (w n : Nat) (p : Pump) : (s.setPump w n p).ops = s.ops := rfl
@[simp] theorem State.setPump_nextId (w n : Nat) (p : Pump) : (s.setPump w n p).nextId = s.nextId := rfl
@[simp] theorem State.setPump_hroot (w n : Nat) (p : Pump) : (s.setPump w n p).hroot = s.hroot := rfl
@[simp] theorem State.setPump_fcLast (w n : Nat) (p : Pump) : (s.setPump w n p).fcLast = s.fcLast := rfl
@[simp] theorem State.setPump_hostDown (w n : Nat) (p : Pump) : (s.setPump w n p).hostDown = s.hostDown := rfl
@[simp] theorem State.setPump_rvSelfRefresh (w n : Nat) (p : Pump) : (s.setPump w n p).rvSelfRefresh = s.rvSelfRefresh := rfl
@[simp] theorem State.setPump_tlb (w n : Nat) (p : Pump) : (s.setPump w n p).tlb = s.tlb := rfl
@[simp] theorem State.setPump_walkPtrs (w n : Nat) (p : Pump) : (s.setPump w n p).walkPtrs = s.walkPtrs := rfl
@[simp] theorem State.setPump_missQs (w n : Nat) (p : Pump) : (s.setPump w n p).missQs = s.missQs := rfl
@[simp] theorem State.setPump_walkers (w n : Nat) (p : Pump) : (s.setPump w n p).walkers = s.walkers := rfl
@[simp] theorem State.setPump_lines (w n : Nat) (p : Pump) : (s.setPump w n p).lines = s.lines := rfl
@[simp] theorem State.setPump_dir (w n : Nat) (p : Pump) : (s.setPump w n p).dir = s.dir := rfl
@[simp] theorem State.setPump_evacs (w n : Nat) (p : Pump) : (s.setPump w n p).evacs = s.evacs := rfl
@[simp] theorem State.setPump_buckets (w n : Nat) (p : Pump) : (s.setPump w n p).buckets = s.buckets := rfl
@[simp] theorem State.setPump_bursts (w n : Nat) (p : Pump) : (s.setPump w n p).bursts = s.bursts := rfl
@[simp] theorem State.setPump_caps (w n : Nat) (p : Pump) : (s.setPump w n p).caps = s.caps := rfl
@[simp] theorem State.setPump_rvWaits (w n : Nat) (p : Pump) : (s.setPump w n p).rvWaits = s.rvWaits := rfl
@[simp] theorem State.setPump_rvTurn (w n : Nat) (p : Pump) : (s.setPump w n p).rvTurn = s.rvTurn := rfl
@[simp] theorem State.setPump_rvSlots (w n : Nat) (p : Pump) : (s.setPump w n p).rvSlots = s.rvSlots := rfl
@[simp] theorem State.setPump_rvTicks (w n : Nat) (p : Pump) : (s.setPump w n p).rvTicks = s.rvTicks := rfl
@[simp] theorem State.setPump_repeats (w n : Nat) (p : Pump) : (s.setPump w n p).repeats = s.repeats := rfl
@[simp] theorem State.setPump_mr4At (w n : Nat) (p : Pump) : (s.setPump w n p).mr4At = s.mr4At := rfl
@[simp] theorem State.setPump_aqQs (w n : Nat) (p : Pump) : (s.setPump w n p).aqQs = s.aqQs := rfl
@[simp] theorem State.setPump_aqTurn (w n : Nat) (p : Pump) : (s.setPump w n p).aqTurn = s.aqTurn := rfl
@[simp] theorem State.setPump_boot (w n : Nat) (p : Pump) : (s.setPump w n p).boot = s.boot := rfl
@[simp] theorem State.setPump_links (w n : Nat) (p : Pump) : (s.setPump w n p).links = s.links := rfl
@[simp] theorem State.setPump_colls (w n : Nat) (p : Pump) : (s.setPump w n p).colls = s.colls := rfl
@[simp] theorem State.setPump_decided (w n : Nat) (p : Pump) : (s.setPump w n p).decided = s.decided := rfl
@[simp] theorem State.setPump_saved (w n : Nat) (p : Pump) : (s.setPump w n p).saved = s.saved := rfl
@[simp] theorem State.setPump_sessions (w n : Nat) (p : Pump) : (s.setPump w n p).sessions = s.sessions := rfl
@[simp] theorem State.setPump_windows (w n : Nat) (p : Pump) : (s.setPump w n p).windows = s.windows := rfl
@[simp] theorem State.setPump_fabric (w n : Nat) (p : Pump) : (s.setPump w n p).fabric = s.fabric := rfl
@[simp] theorem State.setPump_bifurc (w n : Nat) (p : Pump) : (s.setPump w n p).bifurc = s.bifurc := rfl
@[simp] theorem State.setPump_halfDown (w n : Nat) (p : Pump) : (s.setPump w n p).halfDown = s.halfDown := rfl
@[simp] theorem State.setPump_recovery (w n : Nat) (p : Pump) : (s.setPump w n p).recovery = s.recovery := rfl
@[simp] theorem State.setPump_hqs (w n : Nat) (p : Pump) : (s.setPump w n p).hqs = s.hqs := rfl
@[simp] theorem State.setPump_jn (w n : Nat) (p : Pump) : (s.setPump w n p).jn = s.jn := rfl
@[simp] theorem State.setPump_pair (w n : Nat) (p : Pump) : (s.setPump w n p).pair = s.pair := rfl
@[simp] theorem State.setPump_pw (w n : Nat) (p : Pump) : (s.setPump w n p).pw = s.pw := rfl
@[simp] theorem State.setPump_msixTab (w n : Nat) (p : Pump) : (s.setPump w n p).msixTab = s.msixTab := rfl
@[simp] theorem State.setPump_bar2Data (w n : Nat) (p : Pump) : (s.setPump w n p).bar2Data = s.bar2Data := rfl
@[simp] theorem State.setPump_msix (w n : Nat) (p : Pump) : (s.setPump w n p).msix = s.msix := rfl

/-! ### setConn -/

@[simp] theorem State.setConn_pending (p peer vc : Nat) (c : Conn) : (s.setConn p peer vc c).pending = s.pending := rfl
@[simp] theorem State.setConn_fresh (p peer vc : Nat) (c : Conn) : (s.setConn p peer vc c).fresh = s.fresh := rfl
@[simp] theorem State.setConn_regs (p peer vc : Nat) (c : Conn) : (s.setConn p peer vc c).regs = s.regs := rfl
@[simp] theorem State.setConn_cistern (p peer vc : Nat) (c : Conn) : (s.setConn p peer vc c).cistern = s.cistern := rfl
@[simp] theorem State.setConn_reservoir (p peer vc : Nat) (c : Conn) : (s.setConn p peer vc c).reservoir = s.reservoir := rfl
@[simp] theorem State.setConn_aquifer (p peer vc : Nat) (c : Conn) : (s.setConn p peer vc c).aquifer = s.aquifer := rfl
@[simp] theorem State.setConn_hostMem (p peer vc : Nat) (c : Conn) : (s.setConn p peer vc c).hostMem = s.hostMem := rfl
@[simp] theorem State.setConn_poison (p peer vc : Nat) (c : Conn) : (s.setConn p peer vc c).poison = s.poison := rfl
@[simp] theorem State.setConn_wells (p peer vc : Nat) (c : Conn) : (s.setConn p peer vc c).wells = s.wells := rfl
@[simp] theorem State.setConn_bobs (p peer vc : Nat) (c : Conn) : (s.setConn p peer vc c).bobs = s.bobs := rfl
@[simp] theorem State.setConn_faultRecs (p peer vc : Nat) (c : Conn) : (s.setConn p peer vc c).faultRecs = s.faultRecs := rfl
@[simp] theorem State.setConn_deques (p peer vc : Nat) (c : Conn) : (s.setConn p peer vc c).deques = s.deques := rfl
@[simp] theorem State.setConn_events (p peer vc : Nat) (c : Conn) : (s.setConn p peer vc c).events = s.events := rfl
@[simp] theorem State.setConn_walkRecs (p peer vc : Nat) (c : Conn) : (s.setConn p peer vc c).walkRecs = s.walkRecs := rfl
@[simp] theorem State.setConn_imem (p peer vc : Nat) (c : Conn) : (s.setConn p peer vc c).imem = s.imem := rfl
@[simp] theorem State.setConn_splits (p peer vc : Nat) (c : Conn) : (s.setConn p peer vc c).splits = s.splits := rfl
@[simp] theorem State.setConn_savedWells (p peer vc : Nat) (c : Conn) : (s.setConn p peer vc c).savedWells = s.savedWells := rfl
@[simp] theorem State.setConn_savedDeques (p peer vc : Nat) (c : Conn) : (s.setConn p peer vc c).savedDeques = s.savedDeques := rfl
@[simp] theorem State.setConn_jobs (p peer vc : Nat) (c : Conn) : (s.setConn p peer vc c).jobs = s.jobs := rfl
@[simp] theorem State.setConn_reqs (p peer vc : Nat) (c : Conn) : (s.setConn p peer vc c).reqs = s.reqs := rfl
@[simp] theorem State.setConn_units (p peer vc : Nat) (c : Conn) : (s.setConn p peer vc c).units = s.units := rfl
@[simp] theorem State.setConn_pumps (p peer vc : Nat) (c : Conn) : (s.setConn p peer vc c).pumps = s.pumps := rfl
@[simp] theorem State.setConn_susp (p peer vc : Nat) (c : Conn) : (s.setConn p peer vc c).susp = s.susp := rfl
@[simp] theorem State.setConn_caches (p peer vc : Nat) (c : Conn) : (s.setConn p peer vc c).caches = s.caches := rfl
@[simp] theorem State.setConn_engine (p peer vc : Nat) (c : Conn) : (s.setConn p peer vc c).engine = s.engine := rfl
@[simp] theorem State.setConn_whPumps (p peer vc : Nat) (c : Conn) : (s.setConn p peer vc c).whPumps = s.whPumps := rfl
@[simp] theorem State.setConn_ops (p peer vc : Nat) (c : Conn) : (s.setConn p peer vc c).ops = s.ops := rfl
@[simp] theorem State.setConn_nextId (p peer vc : Nat) (c : Conn) : (s.setConn p peer vc c).nextId = s.nextId := rfl
@[simp] theorem State.setConn_hroot (p peer vc : Nat) (c : Conn) : (s.setConn p peer vc c).hroot = s.hroot := rfl
@[simp] theorem State.setConn_fcLast (p peer vc : Nat) (c : Conn) : (s.setConn p peer vc c).fcLast = s.fcLast := rfl
@[simp] theorem State.setConn_hostDown (p peer vc : Nat) (c : Conn) : (s.setConn p peer vc c).hostDown = s.hostDown := rfl
@[simp] theorem State.setConn_rvSelfRefresh (p peer vc : Nat) (c : Conn) : (s.setConn p peer vc c).rvSelfRefresh = s.rvSelfRefresh := rfl
@[simp] theorem State.setConn_tlb (p peer vc : Nat) (c : Conn) : (s.setConn p peer vc c).tlb = s.tlb := rfl
@[simp] theorem State.setConn_walkPtrs (p peer vc : Nat) (c : Conn) : (s.setConn p peer vc c).walkPtrs = s.walkPtrs := rfl
@[simp] theorem State.setConn_missQs (p peer vc : Nat) (c : Conn) : (s.setConn p peer vc c).missQs = s.missQs := rfl
@[simp] theorem State.setConn_walkers (p peer vc : Nat) (c : Conn) : (s.setConn p peer vc c).walkers = s.walkers := rfl
@[simp] theorem State.setConn_lines (p peer vc : Nat) (c : Conn) : (s.setConn p peer vc c).lines = s.lines := rfl
@[simp] theorem State.setConn_dir (p peer vc : Nat) (c : Conn) : (s.setConn p peer vc c).dir = s.dir := rfl
@[simp] theorem State.setConn_evacs (p peer vc : Nat) (c : Conn) : (s.setConn p peer vc c).evacs = s.evacs := rfl
@[simp] theorem State.setConn_buckets (p peer vc : Nat) (c : Conn) : (s.setConn p peer vc c).buckets = s.buckets := rfl
@[simp] theorem State.setConn_bursts (p peer vc : Nat) (c : Conn) : (s.setConn p peer vc c).bursts = s.bursts := rfl
@[simp] theorem State.setConn_caps (p peer vc : Nat) (c : Conn) : (s.setConn p peer vc c).caps = s.caps := rfl
@[simp] theorem State.setConn_rvWaits (p peer vc : Nat) (c : Conn) : (s.setConn p peer vc c).rvWaits = s.rvWaits := rfl
@[simp] theorem State.setConn_rvTurn (p peer vc : Nat) (c : Conn) : (s.setConn p peer vc c).rvTurn = s.rvTurn := rfl
@[simp] theorem State.setConn_rvSlots (p peer vc : Nat) (c : Conn) : (s.setConn p peer vc c).rvSlots = s.rvSlots := rfl
@[simp] theorem State.setConn_rvTicks (p peer vc : Nat) (c : Conn) : (s.setConn p peer vc c).rvTicks = s.rvTicks := rfl
@[simp] theorem State.setConn_repeats (p peer vc : Nat) (c : Conn) : (s.setConn p peer vc c).repeats = s.repeats := rfl
@[simp] theorem State.setConn_mr4At (p peer vc : Nat) (c : Conn) : (s.setConn p peer vc c).mr4At = s.mr4At := rfl
@[simp] theorem State.setConn_aqQs (p peer vc : Nat) (c : Conn) : (s.setConn p peer vc c).aqQs = s.aqQs := rfl
@[simp] theorem State.setConn_aqTurn (p peer vc : Nat) (c : Conn) : (s.setConn p peer vc c).aqTurn = s.aqTurn := rfl
@[simp] theorem State.setConn_boot (p peer vc : Nat) (c : Conn) : (s.setConn p peer vc c).boot = s.boot := rfl
@[simp] theorem State.setConn_colls (p peer vc : Nat) (c : Conn) : (s.setConn p peer vc c).colls = s.colls := rfl
@[simp] theorem State.setConn_decided (p peer vc : Nat) (c : Conn) : (s.setConn p peer vc c).decided = s.decided := rfl
@[simp] theorem State.setConn_saved (p peer vc : Nat) (c : Conn) : (s.setConn p peer vc c).saved = s.saved := rfl
@[simp] theorem State.setConn_sessions (p peer vc : Nat) (c : Conn) : (s.setConn p peer vc c).sessions = s.sessions := rfl
@[simp] theorem State.setConn_windows (p peer vc : Nat) (c : Conn) : (s.setConn p peer vc c).windows = s.windows := rfl
@[simp] theorem State.setConn_fabric (p peer vc : Nat) (c : Conn) : (s.setConn p peer vc c).fabric = s.fabric := rfl
@[simp] theorem State.setConn_bifurc (p peer vc : Nat) (c : Conn) : (s.setConn p peer vc c).bifurc = s.bifurc := rfl
@[simp] theorem State.setConn_halfDown (p peer vc : Nat) (c : Conn) : (s.setConn p peer vc c).halfDown = s.halfDown := rfl
@[simp] theorem State.setConn_recovery (p peer vc : Nat) (c : Conn) : (s.setConn p peer vc c).recovery = s.recovery := rfl
@[simp] theorem State.setConn_hqs (p peer vc : Nat) (c : Conn) : (s.setConn p peer vc c).hqs = s.hqs := rfl
@[simp] theorem State.setConn_jn (p peer vc : Nat) (c : Conn) : (s.setConn p peer vc c).jn = s.jn := rfl
@[simp] theorem State.setConn_pair (p peer vc : Nat) (c : Conn) : (s.setConn p peer vc c).pair = s.pair := rfl
@[simp] theorem State.setConn_pw (p peer vc : Nat) (c : Conn) : (s.setConn p peer vc c).pw = s.pw := rfl
@[simp] theorem State.setConn_msixTab (p peer vc : Nat) (c : Conn) : (s.setConn p peer vc c).msixTab = s.msixTab := rfl
@[simp] theorem State.setConn_bar2Data (p peer vc : Nat) (c : Conn) : (s.setConn p peer vc c).bar2Data = s.bar2Data := rfl
@[simp] theorem State.setConn_msix (p peer vc : Nat) (c : Conn) : (s.setConn p peer vc c).msix = s.msix := rfl

/-! ### setHq -/

@[simp] theorem State.setHq_pending (q : Nat) (x : HostQ) : (s.setHq q x).pending = s.pending := rfl
@[simp] theorem State.setHq_fresh (q : Nat) (x : HostQ) : (s.setHq q x).fresh = s.fresh := rfl
@[simp] theorem State.setHq_regs (q : Nat) (x : HostQ) : (s.setHq q x).regs = s.regs := rfl
@[simp] theorem State.setHq_cistern (q : Nat) (x : HostQ) : (s.setHq q x).cistern = s.cistern := rfl
@[simp] theorem State.setHq_reservoir (q : Nat) (x : HostQ) : (s.setHq q x).reservoir = s.reservoir := rfl
@[simp] theorem State.setHq_aquifer (q : Nat) (x : HostQ) : (s.setHq q x).aquifer = s.aquifer := rfl
@[simp] theorem State.setHq_hostMem (q : Nat) (x : HostQ) : (s.setHq q x).hostMem = s.hostMem := rfl
@[simp] theorem State.setHq_poison (q : Nat) (x : HostQ) : (s.setHq q x).poison = s.poison := rfl
@[simp] theorem State.setHq_wells (q : Nat) (x : HostQ) : (s.setHq q x).wells = s.wells := rfl
@[simp] theorem State.setHq_bobs (q : Nat) (x : HostQ) : (s.setHq q x).bobs = s.bobs := rfl
@[simp] theorem State.setHq_faultRecs (q : Nat) (x : HostQ) : (s.setHq q x).faultRecs = s.faultRecs := rfl
@[simp] theorem State.setHq_deques (q : Nat) (x : HostQ) : (s.setHq q x).deques = s.deques := rfl
@[simp] theorem State.setHq_events (q : Nat) (x : HostQ) : (s.setHq q x).events = s.events := rfl
@[simp] theorem State.setHq_walkRecs (q : Nat) (x : HostQ) : (s.setHq q x).walkRecs = s.walkRecs := rfl
@[simp] theorem State.setHq_imem (q : Nat) (x : HostQ) : (s.setHq q x).imem = s.imem := rfl
@[simp] theorem State.setHq_splits (q : Nat) (x : HostQ) : (s.setHq q x).splits = s.splits := rfl
@[simp] theorem State.setHq_savedWells (q : Nat) (x : HostQ) : (s.setHq q x).savedWells = s.savedWells := rfl
@[simp] theorem State.setHq_savedDeques (q : Nat) (x : HostQ) : (s.setHq q x).savedDeques = s.savedDeques := rfl
@[simp] theorem State.setHq_jobs (q : Nat) (x : HostQ) : (s.setHq q x).jobs = s.jobs := rfl
@[simp] theorem State.setHq_reqs (q : Nat) (x : HostQ) : (s.setHq q x).reqs = s.reqs := rfl
@[simp] theorem State.setHq_units (q : Nat) (x : HostQ) : (s.setHq q x).units = s.units := rfl
@[simp] theorem State.setHq_pumps (q : Nat) (x : HostQ) : (s.setHq q x).pumps = s.pumps := rfl
@[simp] theorem State.setHq_susp (q : Nat) (x : HostQ) : (s.setHq q x).susp = s.susp := rfl
@[simp] theorem State.setHq_caches (q : Nat) (x : HostQ) : (s.setHq q x).caches = s.caches := rfl
@[simp] theorem State.setHq_engine (q : Nat) (x : HostQ) : (s.setHq q x).engine = s.engine := rfl
@[simp] theorem State.setHq_whPumps (q : Nat) (x : HostQ) : (s.setHq q x).whPumps = s.whPumps := rfl
@[simp] theorem State.setHq_ops (q : Nat) (x : HostQ) : (s.setHq q x).ops = s.ops := rfl
@[simp] theorem State.setHq_nextId (q : Nat) (x : HostQ) : (s.setHq q x).nextId = s.nextId := rfl
@[simp] theorem State.setHq_hroot (q : Nat) (x : HostQ) : (s.setHq q x).hroot = s.hroot := rfl
@[simp] theorem State.setHq_fcLast (q : Nat) (x : HostQ) : (s.setHq q x).fcLast = s.fcLast := rfl
@[simp] theorem State.setHq_hostDown (q : Nat) (x : HostQ) : (s.setHq q x).hostDown = s.hostDown := rfl
@[simp] theorem State.setHq_rvSelfRefresh (q : Nat) (x : HostQ) : (s.setHq q x).rvSelfRefresh = s.rvSelfRefresh := rfl
@[simp] theorem State.setHq_tlb (q : Nat) (x : HostQ) : (s.setHq q x).tlb = s.tlb := rfl
@[simp] theorem State.setHq_walkPtrs (q : Nat) (x : HostQ) : (s.setHq q x).walkPtrs = s.walkPtrs := rfl
@[simp] theorem State.setHq_missQs (q : Nat) (x : HostQ) : (s.setHq q x).missQs = s.missQs := rfl
@[simp] theorem State.setHq_walkers (q : Nat) (x : HostQ) : (s.setHq q x).walkers = s.walkers := rfl
@[simp] theorem State.setHq_lines (q : Nat) (x : HostQ) : (s.setHq q x).lines = s.lines := rfl
@[simp] theorem State.setHq_dir (q : Nat) (x : HostQ) : (s.setHq q x).dir = s.dir := rfl
@[simp] theorem State.setHq_evacs (q : Nat) (x : HostQ) : (s.setHq q x).evacs = s.evacs := rfl
@[simp] theorem State.setHq_buckets (q : Nat) (x : HostQ) : (s.setHq q x).buckets = s.buckets := rfl
@[simp] theorem State.setHq_bursts (q : Nat) (x : HostQ) : (s.setHq q x).bursts = s.bursts := rfl
@[simp] theorem State.setHq_caps (q : Nat) (x : HostQ) : (s.setHq q x).caps = s.caps := rfl
@[simp] theorem State.setHq_rvWaits (q : Nat) (x : HostQ) : (s.setHq q x).rvWaits = s.rvWaits := rfl
@[simp] theorem State.setHq_rvTurn (q : Nat) (x : HostQ) : (s.setHq q x).rvTurn = s.rvTurn := rfl
@[simp] theorem State.setHq_rvSlots (q : Nat) (x : HostQ) : (s.setHq q x).rvSlots = s.rvSlots := rfl
@[simp] theorem State.setHq_rvTicks (q : Nat) (x : HostQ) : (s.setHq q x).rvTicks = s.rvTicks := rfl
@[simp] theorem State.setHq_repeats (q : Nat) (x : HostQ) : (s.setHq q x).repeats = s.repeats := rfl
@[simp] theorem State.setHq_mr4At (q : Nat) (x : HostQ) : (s.setHq q x).mr4At = s.mr4At := rfl
@[simp] theorem State.setHq_aqQs (q : Nat) (x : HostQ) : (s.setHq q x).aqQs = s.aqQs := rfl
@[simp] theorem State.setHq_aqTurn (q : Nat) (x : HostQ) : (s.setHq q x).aqTurn = s.aqTurn := rfl
@[simp] theorem State.setHq_boot (q : Nat) (x : HostQ) : (s.setHq q x).boot = s.boot := rfl
@[simp] theorem State.setHq_links (q : Nat) (x : HostQ) : (s.setHq q x).links = s.links := rfl
@[simp] theorem State.setHq_colls (q : Nat) (x : HostQ) : (s.setHq q x).colls = s.colls := rfl
@[simp] theorem State.setHq_decided (q : Nat) (x : HostQ) : (s.setHq q x).decided = s.decided := rfl
@[simp] theorem State.setHq_saved (q : Nat) (x : HostQ) : (s.setHq q x).saved = s.saved := rfl
@[simp] theorem State.setHq_sessions (q : Nat) (x : HostQ) : (s.setHq q x).sessions = s.sessions := rfl
@[simp] theorem State.setHq_windows (q : Nat) (x : HostQ) : (s.setHq q x).windows = s.windows := rfl
@[simp] theorem State.setHq_fabric (q : Nat) (x : HostQ) : (s.setHq q x).fabric = s.fabric := rfl
@[simp] theorem State.setHq_bifurc (q : Nat) (x : HostQ) : (s.setHq q x).bifurc = s.bifurc := rfl
@[simp] theorem State.setHq_halfDown (q : Nat) (x : HostQ) : (s.setHq q x).halfDown = s.halfDown := rfl
@[simp] theorem State.setHq_recovery (q : Nat) (x : HostQ) : (s.setHq q x).recovery = s.recovery := rfl
@[simp] theorem State.setHq_jn (q : Nat) (x : HostQ) : (s.setHq q x).jn = s.jn := rfl
@[simp] theorem State.setHq_pair (q : Nat) (x : HostQ) : (s.setHq q x).pair = s.pair := rfl
@[simp] theorem State.setHq_pw (q : Nat) (x : HostQ) : (s.setHq q x).pw = s.pw := rfl
@[simp] theorem State.setHq_msixTab (q : Nat) (x : HostQ) : (s.setHq q x).msixTab = s.msixTab := rfl
@[simp] theorem State.setHq_bar2Data (q : Nat) (x : HostQ) : (s.setHq q x).bar2Data = s.bar2Data := rfl
@[simp] theorem State.setHq_msix (q : Nat) (x : HostQ) : (s.setHq q x).msix = s.msix := rfl

/-! ### modPair -/

@[simp] theorem State.modPair_pending (f : Pair → Pair) : (s.modPair f).pending = s.pending := rfl
@[simp] theorem State.modPair_fresh (f : Pair → Pair) : (s.modPair f).fresh = s.fresh := rfl
@[simp] theorem State.modPair_regs (f : Pair → Pair) : (s.modPair f).regs = s.regs := rfl
@[simp] theorem State.modPair_cistern (f : Pair → Pair) : (s.modPair f).cistern = s.cistern := rfl
@[simp] theorem State.modPair_reservoir (f : Pair → Pair) : (s.modPair f).reservoir = s.reservoir := rfl
@[simp] theorem State.modPair_aquifer (f : Pair → Pair) : (s.modPair f).aquifer = s.aquifer := rfl
@[simp] theorem State.modPair_hostMem (f : Pair → Pair) : (s.modPair f).hostMem = s.hostMem := rfl
@[simp] theorem State.modPair_poison (f : Pair → Pair) : (s.modPair f).poison = s.poison := rfl
@[simp] theorem State.modPair_wells (f : Pair → Pair) : (s.modPair f).wells = s.wells := rfl
@[simp] theorem State.modPair_bobs (f : Pair → Pair) : (s.modPair f).bobs = s.bobs := rfl
@[simp] theorem State.modPair_faultRecs (f : Pair → Pair) : (s.modPair f).faultRecs = s.faultRecs := rfl
@[simp] theorem State.modPair_deques (f : Pair → Pair) : (s.modPair f).deques = s.deques := rfl
@[simp] theorem State.modPair_events (f : Pair → Pair) : (s.modPair f).events = s.events := rfl
@[simp] theorem State.modPair_walkRecs (f : Pair → Pair) : (s.modPair f).walkRecs = s.walkRecs := rfl
@[simp] theorem State.modPair_imem (f : Pair → Pair) : (s.modPair f).imem = s.imem := rfl
@[simp] theorem State.modPair_splits (f : Pair → Pair) : (s.modPair f).splits = s.splits := rfl
@[simp] theorem State.modPair_savedWells (f : Pair → Pair) : (s.modPair f).savedWells = s.savedWells := rfl
@[simp] theorem State.modPair_savedDeques (f : Pair → Pair) : (s.modPair f).savedDeques = s.savedDeques := rfl
@[simp] theorem State.modPair_jobs (f : Pair → Pair) : (s.modPair f).jobs = s.jobs := rfl
@[simp] theorem State.modPair_reqs (f : Pair → Pair) : (s.modPair f).reqs = s.reqs := rfl
@[simp] theorem State.modPair_units (f : Pair → Pair) : (s.modPair f).units = s.units := rfl
@[simp] theorem State.modPair_pumps (f : Pair → Pair) : (s.modPair f).pumps = s.pumps := rfl
@[simp] theorem State.modPair_susp (f : Pair → Pair) : (s.modPair f).susp = s.susp := rfl
@[simp] theorem State.modPair_caches (f : Pair → Pair) : (s.modPair f).caches = s.caches := rfl
@[simp] theorem State.modPair_engine (f : Pair → Pair) : (s.modPair f).engine = s.engine := rfl
@[simp] theorem State.modPair_whPumps (f : Pair → Pair) : (s.modPair f).whPumps = s.whPumps := rfl
@[simp] theorem State.modPair_ops (f : Pair → Pair) : (s.modPair f).ops = s.ops := rfl
@[simp] theorem State.modPair_nextId (f : Pair → Pair) : (s.modPair f).nextId = s.nextId := rfl
@[simp] theorem State.modPair_hroot (f : Pair → Pair) : (s.modPair f).hroot = s.hroot := rfl
@[simp] theorem State.modPair_fcLast (f : Pair → Pair) : (s.modPair f).fcLast = s.fcLast := rfl
@[simp] theorem State.modPair_hostDown (f : Pair → Pair) : (s.modPair f).hostDown = s.hostDown := rfl
@[simp] theorem State.modPair_rvSelfRefresh (f : Pair → Pair) : (s.modPair f).rvSelfRefresh = s.rvSelfRefresh := rfl
@[simp] theorem State.modPair_tlb (f : Pair → Pair) : (s.modPair f).tlb = s.tlb := rfl
@[simp] theorem State.modPair_walkPtrs (f : Pair → Pair) : (s.modPair f).walkPtrs = s.walkPtrs := rfl
@[simp] theorem State.modPair_missQs (f : Pair → Pair) : (s.modPair f).missQs = s.missQs := rfl
@[simp] theorem State.modPair_walkers (f : Pair → Pair) : (s.modPair f).walkers = s.walkers := rfl
@[simp] theorem State.modPair_lines (f : Pair → Pair) : (s.modPair f).lines = s.lines := rfl
@[simp] theorem State.modPair_dir (f : Pair → Pair) : (s.modPair f).dir = s.dir := rfl
@[simp] theorem State.modPair_evacs (f : Pair → Pair) : (s.modPair f).evacs = s.evacs := rfl
@[simp] theorem State.modPair_buckets (f : Pair → Pair) : (s.modPair f).buckets = s.buckets := rfl
@[simp] theorem State.modPair_bursts (f : Pair → Pair) : (s.modPair f).bursts = s.bursts := rfl
@[simp] theorem State.modPair_caps (f : Pair → Pair) : (s.modPair f).caps = s.caps := rfl
@[simp] theorem State.modPair_rvWaits (f : Pair → Pair) : (s.modPair f).rvWaits = s.rvWaits := rfl
@[simp] theorem State.modPair_rvTurn (f : Pair → Pair) : (s.modPair f).rvTurn = s.rvTurn := rfl
@[simp] theorem State.modPair_rvSlots (f : Pair → Pair) : (s.modPair f).rvSlots = s.rvSlots := rfl
@[simp] theorem State.modPair_rvTicks (f : Pair → Pair) : (s.modPair f).rvTicks = s.rvTicks := rfl
@[simp] theorem State.modPair_repeats (f : Pair → Pair) : (s.modPair f).repeats = s.repeats := rfl
@[simp] theorem State.modPair_mr4At (f : Pair → Pair) : (s.modPair f).mr4At = s.mr4At := rfl
@[simp] theorem State.modPair_aqQs (f : Pair → Pair) : (s.modPair f).aqQs = s.aqQs := rfl
@[simp] theorem State.modPair_aqTurn (f : Pair → Pair) : (s.modPair f).aqTurn = s.aqTurn := rfl
@[simp] theorem State.modPair_boot (f : Pair → Pair) : (s.modPair f).boot = s.boot := rfl
@[simp] theorem State.modPair_links (f : Pair → Pair) : (s.modPair f).links = s.links := rfl
@[simp] theorem State.modPair_colls (f : Pair → Pair) : (s.modPair f).colls = s.colls := rfl
@[simp] theorem State.modPair_decided (f : Pair → Pair) : (s.modPair f).decided = s.decided := rfl
@[simp] theorem State.modPair_saved (f : Pair → Pair) : (s.modPair f).saved = s.saved := rfl
@[simp] theorem State.modPair_sessions (f : Pair → Pair) : (s.modPair f).sessions = s.sessions := rfl
@[simp] theorem State.modPair_windows (f : Pair → Pair) : (s.modPair f).windows = s.windows := rfl
@[simp] theorem State.modPair_fabric (f : Pair → Pair) : (s.modPair f).fabric = s.fabric := rfl
@[simp] theorem State.modPair_bifurc (f : Pair → Pair) : (s.modPair f).bifurc = s.bifurc := rfl
@[simp] theorem State.modPair_halfDown (f : Pair → Pair) : (s.modPair f).halfDown = s.halfDown := rfl
@[simp] theorem State.modPair_recovery (f : Pair → Pair) : (s.modPair f).recovery = s.recovery := rfl
@[simp] theorem State.modPair_hqs (f : Pair → Pair) : (s.modPair f).hqs = s.hqs := rfl
@[simp] theorem State.modPair_jn (f : Pair → Pair) : (s.modPair f).jn = s.jn := rfl
@[simp] theorem State.modPair_pw (f : Pair → Pair) : (s.modPair f).pw = s.pw := rfl
@[simp] theorem State.modPair_msixTab (f : Pair → Pair) : (s.modPair f).msixTab = s.msixTab := rfl
@[simp] theorem State.modPair_bar2Data (f : Pair → Pair) : (s.modPair f).bar2Data = s.bar2Data := rfl
@[simp] theorem State.modPair_msix (f : Pair → Pair) : (s.modPair f).msix = s.msix := rfl

/-! ### modPw -/

@[simp] theorem State.modPw_pending (f : Power → Power) : (s.modPw f).pending = s.pending := rfl
@[simp] theorem State.modPw_fresh (f : Power → Power) : (s.modPw f).fresh = s.fresh := rfl
@[simp] theorem State.modPw_regs (f : Power → Power) : (s.modPw f).regs = s.regs := rfl
@[simp] theorem State.modPw_cistern (f : Power → Power) : (s.modPw f).cistern = s.cistern := rfl
@[simp] theorem State.modPw_reservoir (f : Power → Power) : (s.modPw f).reservoir = s.reservoir := rfl
@[simp] theorem State.modPw_aquifer (f : Power → Power) : (s.modPw f).aquifer = s.aquifer := rfl
@[simp] theorem State.modPw_hostMem (f : Power → Power) : (s.modPw f).hostMem = s.hostMem := rfl
@[simp] theorem State.modPw_poison (f : Power → Power) : (s.modPw f).poison = s.poison := rfl
@[simp] theorem State.modPw_wells (f : Power → Power) : (s.modPw f).wells = s.wells := rfl
@[simp] theorem State.modPw_bobs (f : Power → Power) : (s.modPw f).bobs = s.bobs := rfl
@[simp] theorem State.modPw_faultRecs (f : Power → Power) : (s.modPw f).faultRecs = s.faultRecs := rfl
@[simp] theorem State.modPw_deques (f : Power → Power) : (s.modPw f).deques = s.deques := rfl
@[simp] theorem State.modPw_events (f : Power → Power) : (s.modPw f).events = s.events := rfl
@[simp] theorem State.modPw_walkRecs (f : Power → Power) : (s.modPw f).walkRecs = s.walkRecs := rfl
@[simp] theorem State.modPw_imem (f : Power → Power) : (s.modPw f).imem = s.imem := rfl
@[simp] theorem State.modPw_splits (f : Power → Power) : (s.modPw f).splits = s.splits := rfl
@[simp] theorem State.modPw_savedWells (f : Power → Power) : (s.modPw f).savedWells = s.savedWells := rfl
@[simp] theorem State.modPw_savedDeques (f : Power → Power) : (s.modPw f).savedDeques = s.savedDeques := rfl
@[simp] theorem State.modPw_jobs (f : Power → Power) : (s.modPw f).jobs = s.jobs := rfl
@[simp] theorem State.modPw_reqs (f : Power → Power) : (s.modPw f).reqs = s.reqs := rfl
@[simp] theorem State.modPw_units (f : Power → Power) : (s.modPw f).units = s.units := rfl
@[simp] theorem State.modPw_pumps (f : Power → Power) : (s.modPw f).pumps = s.pumps := rfl
@[simp] theorem State.modPw_susp (f : Power → Power) : (s.modPw f).susp = s.susp := rfl
@[simp] theorem State.modPw_caches (f : Power → Power) : (s.modPw f).caches = s.caches := rfl
@[simp] theorem State.modPw_engine (f : Power → Power) : (s.modPw f).engine = s.engine := rfl
@[simp] theorem State.modPw_whPumps (f : Power → Power) : (s.modPw f).whPumps = s.whPumps := rfl
@[simp] theorem State.modPw_ops (f : Power → Power) : (s.modPw f).ops = s.ops := rfl
@[simp] theorem State.modPw_nextId (f : Power → Power) : (s.modPw f).nextId = s.nextId := rfl
@[simp] theorem State.modPw_hroot (f : Power → Power) : (s.modPw f).hroot = s.hroot := rfl
@[simp] theorem State.modPw_fcLast (f : Power → Power) : (s.modPw f).fcLast = s.fcLast := rfl
@[simp] theorem State.modPw_hostDown (f : Power → Power) : (s.modPw f).hostDown = s.hostDown := rfl
@[simp] theorem State.modPw_rvSelfRefresh (f : Power → Power) : (s.modPw f).rvSelfRefresh = s.rvSelfRefresh := rfl
@[simp] theorem State.modPw_tlb (f : Power → Power) : (s.modPw f).tlb = s.tlb := rfl
@[simp] theorem State.modPw_walkPtrs (f : Power → Power) : (s.modPw f).walkPtrs = s.walkPtrs := rfl
@[simp] theorem State.modPw_missQs (f : Power → Power) : (s.modPw f).missQs = s.missQs := rfl
@[simp] theorem State.modPw_walkers (f : Power → Power) : (s.modPw f).walkers = s.walkers := rfl
@[simp] theorem State.modPw_lines (f : Power → Power) : (s.modPw f).lines = s.lines := rfl
@[simp] theorem State.modPw_dir (f : Power → Power) : (s.modPw f).dir = s.dir := rfl
@[simp] theorem State.modPw_evacs (f : Power → Power) : (s.modPw f).evacs = s.evacs := rfl
@[simp] theorem State.modPw_buckets (f : Power → Power) : (s.modPw f).buckets = s.buckets := rfl
@[simp] theorem State.modPw_bursts (f : Power → Power) : (s.modPw f).bursts = s.bursts := rfl
@[simp] theorem State.modPw_caps (f : Power → Power) : (s.modPw f).caps = s.caps := rfl
@[simp] theorem State.modPw_rvWaits (f : Power → Power) : (s.modPw f).rvWaits = s.rvWaits := rfl
@[simp] theorem State.modPw_rvTurn (f : Power → Power) : (s.modPw f).rvTurn = s.rvTurn := rfl
@[simp] theorem State.modPw_rvSlots (f : Power → Power) : (s.modPw f).rvSlots = s.rvSlots := rfl
@[simp] theorem State.modPw_rvTicks (f : Power → Power) : (s.modPw f).rvTicks = s.rvTicks := rfl
@[simp] theorem State.modPw_repeats (f : Power → Power) : (s.modPw f).repeats = s.repeats := rfl
@[simp] theorem State.modPw_mr4At (f : Power → Power) : (s.modPw f).mr4At = s.mr4At := rfl
@[simp] theorem State.modPw_aqQs (f : Power → Power) : (s.modPw f).aqQs = s.aqQs := rfl
@[simp] theorem State.modPw_aqTurn (f : Power → Power) : (s.modPw f).aqTurn = s.aqTurn := rfl
@[simp] theorem State.modPw_boot (f : Power → Power) : (s.modPw f).boot = s.boot := rfl
@[simp] theorem State.modPw_links (f : Power → Power) : (s.modPw f).links = s.links := rfl
@[simp] theorem State.modPw_colls (f : Power → Power) : (s.modPw f).colls = s.colls := rfl
@[simp] theorem State.modPw_decided (f : Power → Power) : (s.modPw f).decided = s.decided := rfl
@[simp] theorem State.modPw_saved (f : Power → Power) : (s.modPw f).saved = s.saved := rfl
@[simp] theorem State.modPw_sessions (f : Power → Power) : (s.modPw f).sessions = s.sessions := rfl
@[simp] theorem State.modPw_windows (f : Power → Power) : (s.modPw f).windows = s.windows := rfl
@[simp] theorem State.modPw_fabric (f : Power → Power) : (s.modPw f).fabric = s.fabric := rfl
@[simp] theorem State.modPw_bifurc (f : Power → Power) : (s.modPw f).bifurc = s.bifurc := rfl
@[simp] theorem State.modPw_halfDown (f : Power → Power) : (s.modPw f).halfDown = s.halfDown := rfl
@[simp] theorem State.modPw_recovery (f : Power → Power) : (s.modPw f).recovery = s.recovery := rfl
@[simp] theorem State.modPw_hqs (f : Power → Power) : (s.modPw f).hqs = s.hqs := rfl
@[simp] theorem State.modPw_jn (f : Power → Power) : (s.modPw f).jn = s.jn := rfl
@[simp] theorem State.modPw_pair (f : Power → Power) : (s.modPw f).pair = s.pair := rfl
@[simp] theorem State.modPw_msixTab (f : Power → Power) : (s.modPw f).msixTab = s.msixTab := rfl
@[simp] theorem State.modPw_bar2Data (f : Power → Power) : (s.modPw f).bar2Data = s.bar2Data := rfl
@[simp] theorem State.modPw_msix (f : Power → Power) : (s.modPw f).msix = s.msix := rfl

/-! ### setMissQ -/

@[simp] theorem State.setMissQ_pending (q : Nat) (x : MissQ) : (s.setMissQ q x).pending = s.pending := rfl
@[simp] theorem State.setMissQ_fresh (q : Nat) (x : MissQ) : (s.setMissQ q x).fresh = s.fresh := rfl
@[simp] theorem State.setMissQ_regs (q : Nat) (x : MissQ) : (s.setMissQ q x).regs = s.regs := rfl
@[simp] theorem State.setMissQ_cistern (q : Nat) (x : MissQ) : (s.setMissQ q x).cistern = s.cistern := rfl
@[simp] theorem State.setMissQ_reservoir (q : Nat) (x : MissQ) : (s.setMissQ q x).reservoir = s.reservoir := rfl
@[simp] theorem State.setMissQ_aquifer (q : Nat) (x : MissQ) : (s.setMissQ q x).aquifer = s.aquifer := rfl
@[simp] theorem State.setMissQ_hostMem (q : Nat) (x : MissQ) : (s.setMissQ q x).hostMem = s.hostMem := rfl
@[simp] theorem State.setMissQ_poison (q : Nat) (x : MissQ) : (s.setMissQ q x).poison = s.poison := rfl
@[simp] theorem State.setMissQ_wells (q : Nat) (x : MissQ) : (s.setMissQ q x).wells = s.wells := rfl
@[simp] theorem State.setMissQ_bobs (q : Nat) (x : MissQ) : (s.setMissQ q x).bobs = s.bobs := rfl
@[simp] theorem State.setMissQ_faultRecs (q : Nat) (x : MissQ) : (s.setMissQ q x).faultRecs = s.faultRecs := rfl
@[simp] theorem State.setMissQ_deques (q : Nat) (x : MissQ) : (s.setMissQ q x).deques = s.deques := rfl
@[simp] theorem State.setMissQ_events (q : Nat) (x : MissQ) : (s.setMissQ q x).events = s.events := rfl
@[simp] theorem State.setMissQ_walkRecs (q : Nat) (x : MissQ) : (s.setMissQ q x).walkRecs = s.walkRecs := rfl
@[simp] theorem State.setMissQ_imem (q : Nat) (x : MissQ) : (s.setMissQ q x).imem = s.imem := rfl
@[simp] theorem State.setMissQ_splits (q : Nat) (x : MissQ) : (s.setMissQ q x).splits = s.splits := rfl
@[simp] theorem State.setMissQ_savedWells (q : Nat) (x : MissQ) : (s.setMissQ q x).savedWells = s.savedWells := rfl
@[simp] theorem State.setMissQ_savedDeques (q : Nat) (x : MissQ) : (s.setMissQ q x).savedDeques = s.savedDeques := rfl
@[simp] theorem State.setMissQ_jobs (q : Nat) (x : MissQ) : (s.setMissQ q x).jobs = s.jobs := rfl
@[simp] theorem State.setMissQ_reqs (q : Nat) (x : MissQ) : (s.setMissQ q x).reqs = s.reqs := rfl
@[simp] theorem State.setMissQ_units (q : Nat) (x : MissQ) : (s.setMissQ q x).units = s.units := rfl
@[simp] theorem State.setMissQ_pumps (q : Nat) (x : MissQ) : (s.setMissQ q x).pumps = s.pumps := rfl
@[simp] theorem State.setMissQ_susp (q : Nat) (x : MissQ) : (s.setMissQ q x).susp = s.susp := rfl
@[simp] theorem State.setMissQ_caches (q : Nat) (x : MissQ) : (s.setMissQ q x).caches = s.caches := rfl
@[simp] theorem State.setMissQ_engine (q : Nat) (x : MissQ) : (s.setMissQ q x).engine = s.engine := rfl
@[simp] theorem State.setMissQ_whPumps (q : Nat) (x : MissQ) : (s.setMissQ q x).whPumps = s.whPumps := rfl
@[simp] theorem State.setMissQ_ops (q : Nat) (x : MissQ) : (s.setMissQ q x).ops = s.ops := rfl
@[simp] theorem State.setMissQ_nextId (q : Nat) (x : MissQ) : (s.setMissQ q x).nextId = s.nextId := rfl
@[simp] theorem State.setMissQ_hroot (q : Nat) (x : MissQ) : (s.setMissQ q x).hroot = s.hroot := rfl
@[simp] theorem State.setMissQ_fcLast (q : Nat) (x : MissQ) : (s.setMissQ q x).fcLast = s.fcLast := rfl
@[simp] theorem State.setMissQ_hostDown (q : Nat) (x : MissQ) : (s.setMissQ q x).hostDown = s.hostDown := rfl
@[simp] theorem State.setMissQ_rvSelfRefresh (q : Nat) (x : MissQ) : (s.setMissQ q x).rvSelfRefresh = s.rvSelfRefresh := rfl
@[simp] theorem State.setMissQ_tlb (q : Nat) (x : MissQ) : (s.setMissQ q x).tlb = s.tlb := rfl
@[simp] theorem State.setMissQ_walkPtrs (q : Nat) (x : MissQ) : (s.setMissQ q x).walkPtrs = s.walkPtrs := rfl
@[simp] theorem State.setMissQ_walkers (q : Nat) (x : MissQ) : (s.setMissQ q x).walkers = s.walkers := rfl
@[simp] theorem State.setMissQ_lines (q : Nat) (x : MissQ) : (s.setMissQ q x).lines = s.lines := rfl
@[simp] theorem State.setMissQ_dir (q : Nat) (x : MissQ) : (s.setMissQ q x).dir = s.dir := rfl
@[simp] theorem State.setMissQ_evacs (q : Nat) (x : MissQ) : (s.setMissQ q x).evacs = s.evacs := rfl
@[simp] theorem State.setMissQ_buckets (q : Nat) (x : MissQ) : (s.setMissQ q x).buckets = s.buckets := rfl
@[simp] theorem State.setMissQ_bursts (q : Nat) (x : MissQ) : (s.setMissQ q x).bursts = s.bursts := rfl
@[simp] theorem State.setMissQ_caps (q : Nat) (x : MissQ) : (s.setMissQ q x).caps = s.caps := rfl
@[simp] theorem State.setMissQ_rvWaits (q : Nat) (x : MissQ) : (s.setMissQ q x).rvWaits = s.rvWaits := rfl
@[simp] theorem State.setMissQ_rvTurn (q : Nat) (x : MissQ) : (s.setMissQ q x).rvTurn = s.rvTurn := rfl
@[simp] theorem State.setMissQ_rvSlots (q : Nat) (x : MissQ) : (s.setMissQ q x).rvSlots = s.rvSlots := rfl
@[simp] theorem State.setMissQ_rvTicks (q : Nat) (x : MissQ) : (s.setMissQ q x).rvTicks = s.rvTicks := rfl
@[simp] theorem State.setMissQ_repeats (q : Nat) (x : MissQ) : (s.setMissQ q x).repeats = s.repeats := rfl
@[simp] theorem State.setMissQ_mr4At (q : Nat) (x : MissQ) : (s.setMissQ q x).mr4At = s.mr4At := rfl
@[simp] theorem State.setMissQ_aqQs (q : Nat) (x : MissQ) : (s.setMissQ q x).aqQs = s.aqQs := rfl
@[simp] theorem State.setMissQ_aqTurn (q : Nat) (x : MissQ) : (s.setMissQ q x).aqTurn = s.aqTurn := rfl
@[simp] theorem State.setMissQ_boot (q : Nat) (x : MissQ) : (s.setMissQ q x).boot = s.boot := rfl
@[simp] theorem State.setMissQ_links (q : Nat) (x : MissQ) : (s.setMissQ q x).links = s.links := rfl
@[simp] theorem State.setMissQ_colls (q : Nat) (x : MissQ) : (s.setMissQ q x).colls = s.colls := rfl
@[simp] theorem State.setMissQ_decided (q : Nat) (x : MissQ) : (s.setMissQ q x).decided = s.decided := rfl
@[simp] theorem State.setMissQ_saved (q : Nat) (x : MissQ) : (s.setMissQ q x).saved = s.saved := rfl
@[simp] theorem State.setMissQ_sessions (q : Nat) (x : MissQ) : (s.setMissQ q x).sessions = s.sessions := rfl
@[simp] theorem State.setMissQ_windows (q : Nat) (x : MissQ) : (s.setMissQ q x).windows = s.windows := rfl
@[simp] theorem State.setMissQ_fabric (q : Nat) (x : MissQ) : (s.setMissQ q x).fabric = s.fabric := rfl
@[simp] theorem State.setMissQ_bifurc (q : Nat) (x : MissQ) : (s.setMissQ q x).bifurc = s.bifurc := rfl
@[simp] theorem State.setMissQ_halfDown (q : Nat) (x : MissQ) : (s.setMissQ q x).halfDown = s.halfDown := rfl
@[simp] theorem State.setMissQ_recovery (q : Nat) (x : MissQ) : (s.setMissQ q x).recovery = s.recovery := rfl
@[simp] theorem State.setMissQ_hqs (q : Nat) (x : MissQ) : (s.setMissQ q x).hqs = s.hqs := rfl
@[simp] theorem State.setMissQ_jn (q : Nat) (x : MissQ) : (s.setMissQ q x).jn = s.jn := rfl
@[simp] theorem State.setMissQ_pair (q : Nat) (x : MissQ) : (s.setMissQ q x).pair = s.pair := rfl
@[simp] theorem State.setMissQ_pw (q : Nat) (x : MissQ) : (s.setMissQ q x).pw = s.pw := rfl
@[simp] theorem State.setMissQ_msixTab (q : Nat) (x : MissQ) : (s.setMissQ q x).msixTab = s.msixTab := rfl
@[simp] theorem State.setMissQ_bar2Data (q : Nat) (x : MissQ) : (s.setMissQ q x).bar2Data = s.bar2Data := rfl
@[simp] theorem State.setMissQ_msix (q : Nat) (x : MissQ) : (s.setMissQ q x).msix = s.msix := rfl

/-! ### setWalker -/

@[simp] theorem State.setWalker_pending (k : Nat) (x : Option (Nat × Miss)) : (s.setWalker k x).pending = s.pending := rfl
@[simp] theorem State.setWalker_fresh (k : Nat) (x : Option (Nat × Miss)) : (s.setWalker k x).fresh = s.fresh := rfl
@[simp] theorem State.setWalker_regs (k : Nat) (x : Option (Nat × Miss)) : (s.setWalker k x).regs = s.regs := rfl
@[simp] theorem State.setWalker_cistern (k : Nat) (x : Option (Nat × Miss)) : (s.setWalker k x).cistern = s.cistern := rfl
@[simp] theorem State.setWalker_reservoir (k : Nat) (x : Option (Nat × Miss)) : (s.setWalker k x).reservoir = s.reservoir := rfl
@[simp] theorem State.setWalker_aquifer (k : Nat) (x : Option (Nat × Miss)) : (s.setWalker k x).aquifer = s.aquifer := rfl
@[simp] theorem State.setWalker_hostMem (k : Nat) (x : Option (Nat × Miss)) : (s.setWalker k x).hostMem = s.hostMem := rfl
@[simp] theorem State.setWalker_poison (k : Nat) (x : Option (Nat × Miss)) : (s.setWalker k x).poison = s.poison := rfl
@[simp] theorem State.setWalker_wells (k : Nat) (x : Option (Nat × Miss)) : (s.setWalker k x).wells = s.wells := rfl
@[simp] theorem State.setWalker_bobs (k : Nat) (x : Option (Nat × Miss)) : (s.setWalker k x).bobs = s.bobs := rfl
@[simp] theorem State.setWalker_faultRecs (k : Nat) (x : Option (Nat × Miss)) : (s.setWalker k x).faultRecs = s.faultRecs := rfl
@[simp] theorem State.setWalker_deques (k : Nat) (x : Option (Nat × Miss)) : (s.setWalker k x).deques = s.deques := rfl
@[simp] theorem State.setWalker_events (k : Nat) (x : Option (Nat × Miss)) : (s.setWalker k x).events = s.events := rfl
@[simp] theorem State.setWalker_walkRecs (k : Nat) (x : Option (Nat × Miss)) : (s.setWalker k x).walkRecs = s.walkRecs := rfl
@[simp] theorem State.setWalker_imem (k : Nat) (x : Option (Nat × Miss)) : (s.setWalker k x).imem = s.imem := rfl
@[simp] theorem State.setWalker_splits (k : Nat) (x : Option (Nat × Miss)) : (s.setWalker k x).splits = s.splits := rfl
@[simp] theorem State.setWalker_savedWells (k : Nat) (x : Option (Nat × Miss)) : (s.setWalker k x).savedWells = s.savedWells := rfl
@[simp] theorem State.setWalker_savedDeques (k : Nat) (x : Option (Nat × Miss)) : (s.setWalker k x).savedDeques = s.savedDeques := rfl
@[simp] theorem State.setWalker_jobs (k : Nat) (x : Option (Nat × Miss)) : (s.setWalker k x).jobs = s.jobs := rfl
@[simp] theorem State.setWalker_reqs (k : Nat) (x : Option (Nat × Miss)) : (s.setWalker k x).reqs = s.reqs := rfl
@[simp] theorem State.setWalker_units (k : Nat) (x : Option (Nat × Miss)) : (s.setWalker k x).units = s.units := rfl
@[simp] theorem State.setWalker_pumps (k : Nat) (x : Option (Nat × Miss)) : (s.setWalker k x).pumps = s.pumps := rfl
@[simp] theorem State.setWalker_susp (k : Nat) (x : Option (Nat × Miss)) : (s.setWalker k x).susp = s.susp := rfl
@[simp] theorem State.setWalker_caches (k : Nat) (x : Option (Nat × Miss)) : (s.setWalker k x).caches = s.caches := rfl
@[simp] theorem State.setWalker_engine (k : Nat) (x : Option (Nat × Miss)) : (s.setWalker k x).engine = s.engine := rfl
@[simp] theorem State.setWalker_whPumps (k : Nat) (x : Option (Nat × Miss)) : (s.setWalker k x).whPumps = s.whPumps := rfl
@[simp] theorem State.setWalker_ops (k : Nat) (x : Option (Nat × Miss)) : (s.setWalker k x).ops = s.ops := rfl
@[simp] theorem State.setWalker_nextId (k : Nat) (x : Option (Nat × Miss)) : (s.setWalker k x).nextId = s.nextId := rfl
@[simp] theorem State.setWalker_hroot (k : Nat) (x : Option (Nat × Miss)) : (s.setWalker k x).hroot = s.hroot := rfl
@[simp] theorem State.setWalker_fcLast (k : Nat) (x : Option (Nat × Miss)) : (s.setWalker k x).fcLast = s.fcLast := rfl
@[simp] theorem State.setWalker_hostDown (k : Nat) (x : Option (Nat × Miss)) : (s.setWalker k x).hostDown = s.hostDown := rfl
@[simp] theorem State.setWalker_rvSelfRefresh (k : Nat) (x : Option (Nat × Miss)) : (s.setWalker k x).rvSelfRefresh = s.rvSelfRefresh := rfl
@[simp] theorem State.setWalker_tlb (k : Nat) (x : Option (Nat × Miss)) : (s.setWalker k x).tlb = s.tlb := rfl
@[simp] theorem State.setWalker_walkPtrs (k : Nat) (x : Option (Nat × Miss)) : (s.setWalker k x).walkPtrs = s.walkPtrs := rfl
@[simp] theorem State.setWalker_missQs (k : Nat) (x : Option (Nat × Miss)) : (s.setWalker k x).missQs = s.missQs := rfl
@[simp] theorem State.setWalker_lines (k : Nat) (x : Option (Nat × Miss)) : (s.setWalker k x).lines = s.lines := rfl
@[simp] theorem State.setWalker_dir (k : Nat) (x : Option (Nat × Miss)) : (s.setWalker k x).dir = s.dir := rfl
@[simp] theorem State.setWalker_evacs (k : Nat) (x : Option (Nat × Miss)) : (s.setWalker k x).evacs = s.evacs := rfl
@[simp] theorem State.setWalker_buckets (k : Nat) (x : Option (Nat × Miss)) : (s.setWalker k x).buckets = s.buckets := rfl
@[simp] theorem State.setWalker_bursts (k : Nat) (x : Option (Nat × Miss)) : (s.setWalker k x).bursts = s.bursts := rfl
@[simp] theorem State.setWalker_caps (k : Nat) (x : Option (Nat × Miss)) : (s.setWalker k x).caps = s.caps := rfl
@[simp] theorem State.setWalker_rvWaits (k : Nat) (x : Option (Nat × Miss)) : (s.setWalker k x).rvWaits = s.rvWaits := rfl
@[simp] theorem State.setWalker_rvTurn (k : Nat) (x : Option (Nat × Miss)) : (s.setWalker k x).rvTurn = s.rvTurn := rfl
@[simp] theorem State.setWalker_rvSlots (k : Nat) (x : Option (Nat × Miss)) : (s.setWalker k x).rvSlots = s.rvSlots := rfl
@[simp] theorem State.setWalker_rvTicks (k : Nat) (x : Option (Nat × Miss)) : (s.setWalker k x).rvTicks = s.rvTicks := rfl
@[simp] theorem State.setWalker_repeats (k : Nat) (x : Option (Nat × Miss)) : (s.setWalker k x).repeats = s.repeats := rfl
@[simp] theorem State.setWalker_mr4At (k : Nat) (x : Option (Nat × Miss)) : (s.setWalker k x).mr4At = s.mr4At := rfl
@[simp] theorem State.setWalker_aqQs (k : Nat) (x : Option (Nat × Miss)) : (s.setWalker k x).aqQs = s.aqQs := rfl
@[simp] theorem State.setWalker_aqTurn (k : Nat) (x : Option (Nat × Miss)) : (s.setWalker k x).aqTurn = s.aqTurn := rfl
@[simp] theorem State.setWalker_boot (k : Nat) (x : Option (Nat × Miss)) : (s.setWalker k x).boot = s.boot := rfl
@[simp] theorem State.setWalker_links (k : Nat) (x : Option (Nat × Miss)) : (s.setWalker k x).links = s.links := rfl
@[simp] theorem State.setWalker_colls (k : Nat) (x : Option (Nat × Miss)) : (s.setWalker k x).colls = s.colls := rfl
@[simp] theorem State.setWalker_decided (k : Nat) (x : Option (Nat × Miss)) : (s.setWalker k x).decided = s.decided := rfl
@[simp] theorem State.setWalker_saved (k : Nat) (x : Option (Nat × Miss)) : (s.setWalker k x).saved = s.saved := rfl
@[simp] theorem State.setWalker_sessions (k : Nat) (x : Option (Nat × Miss)) : (s.setWalker k x).sessions = s.sessions := rfl
@[simp] theorem State.setWalker_windows (k : Nat) (x : Option (Nat × Miss)) : (s.setWalker k x).windows = s.windows := rfl
@[simp] theorem State.setWalker_fabric (k : Nat) (x : Option (Nat × Miss)) : (s.setWalker k x).fabric = s.fabric := rfl
@[simp] theorem State.setWalker_bifurc (k : Nat) (x : Option (Nat × Miss)) : (s.setWalker k x).bifurc = s.bifurc := rfl
@[simp] theorem State.setWalker_halfDown (k : Nat) (x : Option (Nat × Miss)) : (s.setWalker k x).halfDown = s.halfDown := rfl
@[simp] theorem State.setWalker_recovery (k : Nat) (x : Option (Nat × Miss)) : (s.setWalker k x).recovery = s.recovery := rfl
@[simp] theorem State.setWalker_hqs (k : Nat) (x : Option (Nat × Miss)) : (s.setWalker k x).hqs = s.hqs := rfl
@[simp] theorem State.setWalker_jn (k : Nat) (x : Option (Nat × Miss)) : (s.setWalker k x).jn = s.jn := rfl
@[simp] theorem State.setWalker_pair (k : Nat) (x : Option (Nat × Miss)) : (s.setWalker k x).pair = s.pair := rfl
@[simp] theorem State.setWalker_pw (k : Nat) (x : Option (Nat × Miss)) : (s.setWalker k x).pw = s.pw := rfl
@[simp] theorem State.setWalker_msixTab (k : Nat) (x : Option (Nat × Miss)) : (s.setWalker k x).msixTab = s.msixTab := rfl
@[simp] theorem State.setWalker_bar2Data (k : Nat) (x : Option (Nat × Miss)) : (s.setWalker k x).bar2Data = s.bar2Data := rfl
@[simp] theorem State.setWalker_msix (k : Nat) (x : Option (Nat × Miss)) : (s.setWalker k x).msix = s.msix := rfl

/-! ### whTake -/

@[simp] theorem State.whTake_pending (n : Nat) (u : WhUse) : (s.whTake n u).pending = s.pending := rfl
@[simp] theorem State.whTake_fresh (n : Nat) (u : WhUse) : (s.whTake n u).fresh = s.fresh := rfl
@[simp] theorem State.whTake_regs (n : Nat) (u : WhUse) : (s.whTake n u).regs = s.regs := rfl
@[simp] theorem State.whTake_cistern (n : Nat) (u : WhUse) : (s.whTake n u).cistern = s.cistern := rfl
@[simp] theorem State.whTake_reservoir (n : Nat) (u : WhUse) : (s.whTake n u).reservoir = s.reservoir := rfl
@[simp] theorem State.whTake_aquifer (n : Nat) (u : WhUse) : (s.whTake n u).aquifer = s.aquifer := rfl
@[simp] theorem State.whTake_hostMem (n : Nat) (u : WhUse) : (s.whTake n u).hostMem = s.hostMem := rfl
@[simp] theorem State.whTake_poison (n : Nat) (u : WhUse) : (s.whTake n u).poison = s.poison := rfl
@[simp] theorem State.whTake_wells (n : Nat) (u : WhUse) : (s.whTake n u).wells = s.wells := rfl
@[simp] theorem State.whTake_bobs (n : Nat) (u : WhUse) : (s.whTake n u).bobs = s.bobs := rfl
@[simp] theorem State.whTake_faultRecs (n : Nat) (u : WhUse) : (s.whTake n u).faultRecs = s.faultRecs := rfl
@[simp] theorem State.whTake_deques (n : Nat) (u : WhUse) : (s.whTake n u).deques = s.deques := rfl
@[simp] theorem State.whTake_events (n : Nat) (u : WhUse) : (s.whTake n u).events = s.events := rfl
@[simp] theorem State.whTake_walkRecs (n : Nat) (u : WhUse) : (s.whTake n u).walkRecs = s.walkRecs := rfl
@[simp] theorem State.whTake_imem (n : Nat) (u : WhUse) : (s.whTake n u).imem = s.imem := rfl
@[simp] theorem State.whTake_splits (n : Nat) (u : WhUse) : (s.whTake n u).splits = s.splits := rfl
@[simp] theorem State.whTake_savedWells (n : Nat) (u : WhUse) : (s.whTake n u).savedWells = s.savedWells := rfl
@[simp] theorem State.whTake_savedDeques (n : Nat) (u : WhUse) : (s.whTake n u).savedDeques = s.savedDeques := rfl
@[simp] theorem State.whTake_jobs (n : Nat) (u : WhUse) : (s.whTake n u).jobs = s.jobs := rfl
@[simp] theorem State.whTake_reqs (n : Nat) (u : WhUse) : (s.whTake n u).reqs = s.reqs := rfl
@[simp] theorem State.whTake_units (n : Nat) (u : WhUse) : (s.whTake n u).units = s.units := rfl
@[simp] theorem State.whTake_pumps (n : Nat) (u : WhUse) : (s.whTake n u).pumps = s.pumps := rfl
@[simp] theorem State.whTake_susp (n : Nat) (u : WhUse) : (s.whTake n u).susp = s.susp := rfl
@[simp] theorem State.whTake_caches (n : Nat) (u : WhUse) : (s.whTake n u).caches = s.caches := rfl
@[simp] theorem State.whTake_engine (n : Nat) (u : WhUse) : (s.whTake n u).engine = s.engine := rfl
@[simp] theorem State.whTake_ops (n : Nat) (u : WhUse) : (s.whTake n u).ops = s.ops := rfl
@[simp] theorem State.whTake_nextId (n : Nat) (u : WhUse) : (s.whTake n u).nextId = s.nextId := rfl
@[simp] theorem State.whTake_hroot (n : Nat) (u : WhUse) : (s.whTake n u).hroot = s.hroot := rfl
@[simp] theorem State.whTake_fcLast (n : Nat) (u : WhUse) : (s.whTake n u).fcLast = s.fcLast := rfl
@[simp] theorem State.whTake_hostDown (n : Nat) (u : WhUse) : (s.whTake n u).hostDown = s.hostDown := rfl
@[simp] theorem State.whTake_rvSelfRefresh (n : Nat) (u : WhUse) : (s.whTake n u).rvSelfRefresh = s.rvSelfRefresh := rfl
@[simp] theorem State.whTake_tlb (n : Nat) (u : WhUse) : (s.whTake n u).tlb = s.tlb := rfl
@[simp] theorem State.whTake_walkPtrs (n : Nat) (u : WhUse) : (s.whTake n u).walkPtrs = s.walkPtrs := rfl
@[simp] theorem State.whTake_missQs (n : Nat) (u : WhUse) : (s.whTake n u).missQs = s.missQs := rfl
@[simp] theorem State.whTake_walkers (n : Nat) (u : WhUse) : (s.whTake n u).walkers = s.walkers := rfl
@[simp] theorem State.whTake_lines (n : Nat) (u : WhUse) : (s.whTake n u).lines = s.lines := rfl
@[simp] theorem State.whTake_dir (n : Nat) (u : WhUse) : (s.whTake n u).dir = s.dir := rfl
@[simp] theorem State.whTake_evacs (n : Nat) (u : WhUse) : (s.whTake n u).evacs = s.evacs := rfl
@[simp] theorem State.whTake_buckets (n : Nat) (u : WhUse) : (s.whTake n u).buckets = s.buckets := rfl
@[simp] theorem State.whTake_bursts (n : Nat) (u : WhUse) : (s.whTake n u).bursts = s.bursts := rfl
@[simp] theorem State.whTake_caps (n : Nat) (u : WhUse) : (s.whTake n u).caps = s.caps := rfl
@[simp] theorem State.whTake_rvWaits (n : Nat) (u : WhUse) : (s.whTake n u).rvWaits = s.rvWaits := rfl
@[simp] theorem State.whTake_rvTurn (n : Nat) (u : WhUse) : (s.whTake n u).rvTurn = s.rvTurn := rfl
@[simp] theorem State.whTake_rvSlots (n : Nat) (u : WhUse) : (s.whTake n u).rvSlots = s.rvSlots := rfl
@[simp] theorem State.whTake_rvTicks (n : Nat) (u : WhUse) : (s.whTake n u).rvTicks = s.rvTicks := rfl
@[simp] theorem State.whTake_repeats (n : Nat) (u : WhUse) : (s.whTake n u).repeats = s.repeats := rfl
@[simp] theorem State.whTake_mr4At (n : Nat) (u : WhUse) : (s.whTake n u).mr4At = s.mr4At := rfl
@[simp] theorem State.whTake_aqQs (n : Nat) (u : WhUse) : (s.whTake n u).aqQs = s.aqQs := rfl
@[simp] theorem State.whTake_aqTurn (n : Nat) (u : WhUse) : (s.whTake n u).aqTurn = s.aqTurn := rfl
@[simp] theorem State.whTake_boot (n : Nat) (u : WhUse) : (s.whTake n u).boot = s.boot := rfl
@[simp] theorem State.whTake_links (n : Nat) (u : WhUse) : (s.whTake n u).links = s.links := rfl
@[simp] theorem State.whTake_colls (n : Nat) (u : WhUse) : (s.whTake n u).colls = s.colls := rfl
@[simp] theorem State.whTake_decided (n : Nat) (u : WhUse) : (s.whTake n u).decided = s.decided := rfl
@[simp] theorem State.whTake_saved (n : Nat) (u : WhUse) : (s.whTake n u).saved = s.saved := rfl
@[simp] theorem State.whTake_sessions (n : Nat) (u : WhUse) : (s.whTake n u).sessions = s.sessions := rfl
@[simp] theorem State.whTake_windows (n : Nat) (u : WhUse) : (s.whTake n u).windows = s.windows := rfl
@[simp] theorem State.whTake_fabric (n : Nat) (u : WhUse) : (s.whTake n u).fabric = s.fabric := rfl
@[simp] theorem State.whTake_bifurc (n : Nat) (u : WhUse) : (s.whTake n u).bifurc = s.bifurc := rfl
@[simp] theorem State.whTake_halfDown (n : Nat) (u : WhUse) : (s.whTake n u).halfDown = s.halfDown := rfl
@[simp] theorem State.whTake_recovery (n : Nat) (u : WhUse) : (s.whTake n u).recovery = s.recovery := rfl
@[simp] theorem State.whTake_hqs (n : Nat) (u : WhUse) : (s.whTake n u).hqs = s.hqs := rfl
@[simp] theorem State.whTake_jn (n : Nat) (u : WhUse) : (s.whTake n u).jn = s.jn := rfl
@[simp] theorem State.whTake_pair (n : Nat) (u : WhUse) : (s.whTake n u).pair = s.pair := rfl
@[simp] theorem State.whTake_pw (n : Nat) (u : WhUse) : (s.whTake n u).pw = s.pw := rfl
@[simp] theorem State.whTake_msixTab (n : Nat) (u : WhUse) : (s.whTake n u).msixTab = s.msixTab := rfl
@[simp] theorem State.whTake_bar2Data (n : Nat) (u : WhUse) : (s.whTake n u).bar2Data = s.bar2Data := rfl
@[simp] theorem State.whTake_msix (n : Nat) (u : WhUse) : (s.whTake n u).msix = s.msix := rfl

end

end Sys2Proof.Machine
end

