-- ==== Sys2Proof/Laws/Ops.lean ====
section
/-!
SUPPORT. What the shared operations of a meaning can do: conditions, event counting, and the steps of a controller.
-/

namespace Sys2Proof.Machine

/-! ### Conditions -/

/-- A condition that holds. -/
theorem need_of {c : Bool} (h : c = true) (rule : Nat) (r : Res) : need c rule r = r := by simp [need, h]

/-- What a guarded step can answer as a next state. -/
theorem need_next {c : Bool} {rule : Nat} {r : Res} {t : State} :
    need c rule r = .next t ↔ c = true ∧ r = .next t := by
  unfold need
  split <;> simp_all

/-- A value that is there. -/
@[simp] theorem needSome_some {α : Type} (a : α) (rule : Nat) (f : α → Res) : needSome (some a) rule f = f a := rfl

/-- What a step that needs a value can answer as a next state. -/
theorem needSome_next {α : Type} {o : Option α} {rule : Nat} {f : α → Res} {t : State} :
    needSome o rule f = .next t ↔ ∃ a, o = some a ∧ f a = .next t := by
  cases o <;> simp [needSome]

/-! ### Event counters -/

/-- Counting on one counter changes registers only. -/
theorem State.countOne_rest (s : State) (w src n i : Nat) :
    { s.countOne w src n i with regs := s.regs } = s := by
  unfold State.countOne
  simp only
  split <;> rfl

/-- Counting on one counter leaves every other register. -/
theorem State.countOne_reg (s : State) (w src n i o : Nat) (h : o ≠ rEvCnt (8 * w + i)) :
    (s.countOne w src n i).reg o = s.reg o := by
  unfold State.countOne
  simp only
  split
  · exact s.reg_setReg_ne _ h
  · rfl

/-- Counting changes registers only (R770). -/
theorem State.countEv_rest (s : State) (w src n : Nat) : { s.countEv w src n with regs := s.regs } = s := by
  unfold State.countEv
  split
  · rfl
  · generalize List.range 8 = l
    suffices H : ∀ (l : List Nat) (t : State), { t with regs := s.regs } = s →
        { l.foldl (fun t i => t.countOne w src n i) t with regs := s.regs } = s from H l s rfl
    intro l
    induction l with
    | nil => intro t h; exact h
    | cons i l ih =>
      intro t h
      apply ih
      have h2 := t.countOne_rest w src n i
      have h3 : { t.countOne w src n i with regs := s.regs }
          = { { t.countOne w src n i with regs := t.regs } with regs := s.regs } := rfl
      rw [h3, h2, h]

/-- Counting on a well leaves every register but the event counters (R770). -/
theorem State.countEv_reg (s : State) (w src n o : Nat) (h : ¬isEvCnt o) :
    (s.countEv w src n).reg o = s.reg o := by
  unfold State.countEv
  split
  · rfl
  · rename_i hw
    have H : ∀ (l : List Nat) (t : State), (∀ i ∈ l, i < 8) →
        (l.foldl (fun t i => t.countOne w src n i) t).reg o = t.reg o := by
      intro l
      induction l with
      | nil => intro t _; rfl
      | cons i l ih =>
        intro t hl
        rw [List.foldl_cons, ih _ (fun j hj => hl j (List.mem_cons_of_mem _ hj))]
        refine t.countOne_reg w src n i o (fun he => h ?_)
        have := hl i (List.mem_cons_self ..)
        subst he
        simp only [isEvCnt, rEvCnt]
        omega
    exact H _ s (fun i hi => List.mem_range.mp hi)

/-- Counting leaves the wells. -/
@[simp] theorem State.countEv_wells (s : State) (w src n : Nat) : (s.countEv w src n).wells = s.wells := by
  have := congrArg State.wells (s.countEv_rest w src n)
  exact this

/-- Counting leaves a well. -/
@[simp] theorem State.countEv_well (s : State) (w src n v : Nat) : (s.countEv w src n).well v = s.well v := by
  simp [State.well]

/-! ### Device scratch -/

/-- A step that can read its device scratch runs (R399). -/
theorem State.scratch_of_ok {s : State} {w a : Nat} (h : s.scratchOk w a = true) (j : Nat) (r : Res) :
    s.scratch j w a r = r := if_pos h

/-- A controller that can read its device scratch goes on (R399). -/
theorem State.ctlScratch_of_ok {s : State} {w a : Nat} (h : s.scratchOk w a = true) (r : Res) :
    s.ctlScratch w a r = r := by
  unfold State.ctlScratch
  split
  · exact State.scratch_of_ok h _ _
  · rfl

/-- A counter that can be read is raised (R250). -/
theorem State.raiseEvent_of_ok {s : State} {w k ev : Nat} (h : s.scratchOk w (eventAt k ev) = true) (j n : Nat) :
    s.raiseEvent j w k ev n = s.setEvent w k ev (min (s.event w k ev + n) (2 ^ 32 - 1)) := if_pos h

/-- Only the poisoned blocks of a cistern say what its device scratch can be read (R399). -/
theorem State.scratchOk_congr {s t : State} (h : t.poison = s.poison) (w a : Nat) : t.scratchOk w a = s.scratchOk w a := by
  have hb : ∀ b ∈ blocksOf ⟨.cistern w, a⟩ 1, ∃ x, b = ⟨.cistern w, x⟩ := by
    intro b hb
    simp only [blocksOf, List.mem_map] at hb
    obtain ⟨i, -, rfl⟩ := hb
    exact ⟨_, rfl⟩
  have hp : ∀ b ∈ blocksOf ⟨.cistern w, a⟩ 1,
      (tabGet false t.poison (blockKey b) || t.deadBlock b) = (tabGet false s.poison (blockKey b) || s.deadBlock b) := by
    intro b hb'
    obtain ⟨x, rfl⟩ := hb b hb'
    simp [State.deadBlock, h]
  unfold State.scratchOk State.badBlock
  congr 1
  exact List.find?_congr hp

/-! ### Controllers -/

/-- A controller step that finds the commanded instruction and no uncorrectable error runs it (R260, R262). -/
theorem cStep_runs {kind : CKind} {w : WellId} {ev : EccEv} {s : State} {i : Word} (h : s.ctlAt w i)
    (hev : ev ≠ .uncorrectable) (hk : cKind i = some kind) (k : State → CtlCtx → Word → Res) :
    cStep kind w ev s k = k (s.checked w ev) (s.well w).cx i := by
  obtain ⟨h1, h2⟩ := h
  cases ev with
  | uncorrectable => exact absurd rfl hev
  | clean => simp [cStep, need, h1, h2, hk, State.checked]
  | corrected => simp [cStep, need, h1, h2, hk, State.checked]
  | block v n bad => simp [cStep, need, h1, h2, hk, State.checked]

/-- A next instruction inside the program (R262, R277). -/
theorem cGo_goes {s t : State} {w : Nat} {next : Int} (h0 : 0 ≤ next) (h1 : next < (s.well w).plen) :
    cGo s t w next = .next (t.ctlGoes w next.toNat) :=
  if_neg (by rintro (h | h) <;> omega)

/-- A corrected error leaves every well. -/
@[simp] theorem State.checked_well (s : State) (w v : Nat) (ev : EccEv) : (s.checked w ev).well v = s.well v := by
  unfold State.checked
  split
  · exact congrArg (fun x => tabGet {} x v) (s.incFld_wells _ _ _ _)
  · rfl

end Sys2Proof.Machine
end

