-- ==== Sys2Proof/Laws/Access.lean ====
section
/-!
SUPPORT. What an access to memory can leave behind: translations, lines, directory entries and their counts, and nothing
else.
-/

namespace Sys2Proof.Machine

section
variable {s t u : State}

theorem accessed.refl (s : State) : accessed s s := ⟨rfl, rfl, fun _ _ => rfl⟩

/-- What two accesses leave is what accesses leave. -/
theorem accessed.trans (h : accessed s t) (k : accessed t u) : accessed s u := by
  refine ⟨?_, ?_, fun o ho => (k.2.2 o ho).trans (h.2.2 o ho)⟩
  · calc { u with regs := s.regs, tlb := s.tlb, walkPtrs := s.walkPtrs, lines := s.lines, dir := s.dir, engine := s.engine }
        = { { u with regs := t.regs, tlb := t.tlb, walkPtrs := t.walkPtrs, lines := t.lines, dir := t.dir,
                     engine := t.engine } with
              regs := s.regs, tlb := s.tlb, walkPtrs := s.walkPtrs, lines := s.lines, dir := s.dir, engine := s.engine } := rfl
      _ = _ := by rw [k.1]; exact h.1
  · calc { u.engine with fills := s.engine.fills }
        = { { u.engine with fills := t.engine.fills } with fills := s.engine.fills } := rfl
      _ = _ := by rw [k.2.1]; exact h.2.1

/-- A chain of accesses. -/
theorem accessed.foldl {α : Type} {f : State → α → State} (hf : ∀ t a, accessed t (f t a)) :
    ∀ (l : List α) (s : State), accessed s (l.foldl f s)
  | [], s => accessed.refl s
  | a :: l, s => (hf s a).trans (accessed.foldl hf l (f s a))

/-- An access leaves every well. -/
theorem accessed.wells (h : accessed s t) : t.wells = s.wells := (congrArg State.wells h.1 :)
/-- An access leaves every bobbin. -/
theorem accessed.bobs (h : accessed s t) : t.bobs = s.bobs := (congrArg State.bobs h.1 :)
/-- An access leaves every job. -/
theorem accessed.jobs (h : accessed s t) : t.jobs = s.jobs := (congrArg State.jobs h.1 :)
/-- What an access leaves holds the same bytes. -/
theorem accessed.sameMem (h : accessed s t) : sameMem s t :=
  ⟨(congrArg State.cistern h.1 :), (congrArg State.reservoir h.1 :), (congrArg State.aquifer h.1 :),
    (congrArg State.hostMem h.1 :), (congrArg State.boot h.1 :), (congrArg State.recovery h.1 :)⟩

end

section
variable (s : State)

theorem State.incFld_accessed {o : Nat} (hi lo n : Nat) (h : isAccessReg o) : accessed s (s.incFld o hi lo n) :=
  ⟨rfl, rfl, fun i hi' => s.reg_incFld_ne hi lo n (fun e => hi' (e ▸ h))⟩

theorem State.countEv_accessed (w src n : Nat) : accessed s (s.countEv w src n) := by
  have h := s.countEv_rest w src n
  refine ⟨?_, ?_, fun o ho => s.countEv_reg w src n o (fun h => ho (.inl h))⟩
  · calc _ = { { s.countEv w src n with regs := s.regs } with
              tlb := s.tlb, walkPtrs := s.walkPtrs, lines := s.lines, dir := s.dir, engine := s.engine } := rfl
      _ = _ := by rw [h]
  · rw [show (s.countEv w src n).engine = s.engine from (congrArg State.engine h :)]

/-! ### Translations -/

theorem State.tlbPut_accessed (q : Nat) (e : TlbEntry) : accessed s (s.tlbPut q e) := ⟨rfl, rfl, fun _ _ => rfl⟩

theorem State.keepPath_accessed (ctx va : Nat) : accessed s (s.keepPath ctx va) := by
  unfold State.keepPath
  split
  · exact accessed.refl s
  · exact ⟨rfl, rfl, fun _ _ => rfl⟩

/-- What the use of a translation can do (R436, R437). -/
theorem State.useTlb_accessed (ctx va : Nat) : accessed s (s.useTlb ctx va) := by
  have walk : isAccessReg rTrWalkStat := .inr (.inl rfl)
  unfold State.useTlb
  split
  · exact accessed.refl s
  · rename_i q _
    simp only
    split
    · exact s.tlbPut_accessed q _
    · split
      · exact accessed.refl s
      · split
        · exact accessed.refl s
        · split
          · exact (((s.incFld_accessed 63 32 1 (.inr (.inr (.inr ⟨q, .inl rfl⟩)))).trans
              (State.countEv_accessed _ _ 0x0F 1)).trans (State.incFld_accessed _ 63 32 1 walk)).trans
              ((State.keepPath_accessed _ _ _).trans (State.tlbPut_accessed _ _ _))
          · exact (s.incFld_accessed 63 32 1 walk).trans
              ((State.keepPath_accessed _ _ _).trans (State.tlbPut_accessed _ _ _))

theorem State.useTlbs_accessed (ctx va n : Nat) : accessed s (s.useTlbs ctx va n) :=
  accessed.foldl (fun t (r : Nat × Nat) => t.useTlb_accessed ctx r.1) _ s

/-! ### Lines and the directory -/

theorem State.setLine_accessed (w line : Nat) (st : Option LineSt) : accessed s (s.setLine w line st) :=
  ⟨rfl, rfl, fun _ _ => rfl⟩
theorem State.dirErase_accessed (line : Nat) : accessed s (s.dirErase line) := ⟨rfl, rfl, fun _ _ => rfl⟩
theorem State.dirPut_accessed (e : DirEntry) : accessed s (s.dirPut e) := ⟨rfl, rfl, fun _ _ => rfl⟩

theorem State.evtFld_accessed (w hi lo n : Nat) : accessed s (s.incFld (rWlWcEvt w) hi lo n) :=
  s.incFld_accessed hi lo n (.inr (.inr (.inr ⟨w, .inr (.inr rfl)⟩)))
theorem State.hitFld_accessed (w hi lo n : Nat) : accessed s (s.incFld (rWlWcStat w) hi lo n) :=
  s.incFld_accessed hi lo n (.inr (.inr (.inr ⟨w, .inr (.inl rfl)⟩)))
theorem State.cdFld_accessed (hi lo n : Nat) : accessed s (s.incFld rCdStat hi lo n) :=
  s.incFld_accessed hi lo n (.inr (.inr (.inl rfl)))

theorem State.invalLine_accessed (w line : Nat) : accessed s (s.invalLine w line) :=
  (s.evtFld_accessed w 31 16 1).trans (State.setLine_accessed _ _ _ _)

theorem State.sendLine_accessed (w : Nat) : accessed s (s.sendLine w) := s.countEv_accessed w 0x1B 4
theorem State.writeBack_accessed (w : Nat) : accessed s (s.writeBack w) :=
  (s.evtFld_accessed w 63 32 1).trans (State.sendLine_accessed _ w)

theorem State.dropLine_accessed (w line : Nat) : accessed s (s.dropLine w line) := by
  unfold State.dropLine
  simp only
  split
  · exact (s.writeBack_accessed w).trans (State.invalLine_accessed _ _ _)
  · exact s.invalLine_accessed w line

theorem State.recallLine_accessed (line : Nat) : accessed s (s.recallLine line) := by
  unfold State.recallLine
  split
  · exact accessed.refl s
  · exact (accessed.foldl (fun t w => t.dropLine_accessed w line) _ s).trans (State.dirErase_accessed _ _)

theorem State.dirRoom_accessed (line : Nat) : accessed s (s.dirRoom line) := by
  unfold State.dirRoom
  simp only
  split
  · exact accessed.refl s
  · split
    · exact (s.recallLine_accessed _).trans (State.cdFld_accessed _ _ _ _)
    · exact accessed.refl s

theorem State.evict_accessed (w line : Nat) : accessed s (s.evict w line) := by
  unfold State.evict
  split
  · exact accessed.refl s
  · exact s.setLine_accessed w line none
  · exact ((s.setLine_accessed w line none).trans (State.dirErase_accessed _ _)).trans (State.cdFld_accessed _ _ _ _)
  · exact (((s.setLine_accessed w line none).trans (State.dirErase_accessed _ _)).trans
      (State.cdFld_accessed _ _ _ _)).trans (State.writeBack_accessed _ _)

theorem State.wayFor_accessed (w line : Nat) : accessed s (s.wayFor w line) := by
  unfold State.wayFor
  simp only
  split
  · exact accessed.refl s
  · split
    · exact s.evict_accessed w _
    · exact accessed.refl s

/-- An entry of the directory and a line of a well set. -/
theorem State.grant_accessed (e : DirEntry) (w line : Nat) (st : LineSt) :
    accessed s ((s.dirPut e).setLine w line (some st)) :=
  (s.dirPut_accessed e).trans (State.setLine_accessed _ _ _ _)

/-- What a GETS can do (R531, R532, R534). -/
theorem State.dirGets_accessed (w line : Nat) : accessed s (s.dirGets w line) := by
  unfold State.dirGets
  simp only
  refine ((s.wayFor_accessed w line).trans (State.dirRoom_accessed _ line)).trans ?_
  generalize (s.wayFor w line).dirRoom line = t
  split
  · exact t.grant_accessed _ _ _ _
  · split
    · split
      · exact t.grant_accessed _ _ _ _
      · split
        · exact ((((t.writeBack_accessed _).trans (State.setLine_accessed _ _ _ _)).trans
            (State.cdFld_accessed _ _ _ _)).trans (State.sendLine_accessed _ _)).trans (State.grant_accessed _ _ _ _ _)
        · exact (((t.setLine_accessed _ _ _).trans (State.cdFld_accessed _ _ _ _)).trans
            (State.sendLine_accessed _ _)).trans (State.grant_accessed _ _ _ _ _)
    · split
      · exact t.grant_accessed _ _ _ _
      · exact t.grant_accessed _ _ _ _

/-- What a GETX or GETXF can do (R531, R532, R534). -/
theorem State.dirGetx_accessed (w line : Nat) (full : Bool) : accessed s (s.dirGetx w line full) := by
  unfold State.dirGetx
  simp only
  refine ((s.wayFor_accessed w line).trans (State.dirRoom_accessed _ line)).trans ?_
  generalize (s.wayFor w line).dirRoom line = t
  refine accessed.trans ?_ (State.grant_accessed _ _ _ _ _)
  split
  · exact accessed.refl t
  · split
    · exact ((t.cdFld_accessed _ _ _).trans (State.sendLine_accessed _ _)).trans
        (accessed.foldl (fun u v => u.invalLine_accessed v line) _ _)
    · exact accessed.foldl (fun u v => u.invalLine_accessed v line) _ t

theorem State.countFill_accessed (w va : Nat) : accessed s (s.countFill w va) := by
  unfold State.countFill
  simp only
  split
  · exact accessed.refl s
  · exact ⟨rfl, rfl, fun _ _ => rfl⟩

theorem State.countPage_accessed (w ctx va : Nat) : accessed s (s.countPage w ctx va) := by
  unfold State.countPage
  split
  · exact s.countFill_accessed w _
  · exact accessed.refl s

theorem State.cacheMiss_accessed (w : Nat) : accessed s (s.cacheMiss w) :=
  ((s.cdFld_accessed 63 32 1).trans (State.hitFld_accessed _ w 31 0 1)).trans (State.countEv_accessed _ w 0x0E 1)

theorem State.cacheHit_accessed (w line : Nat) (st : LineSt) : accessed s (s.cacheHit w line st) :=
  ((s.setLine_accessed w line (some st)).trans (State.hitFld_accessed _ w 63 32 1)).trans
    (State.countEv_accessed _ w 0x0D 1)

theorem State.useLine_accessed (w ctx va line : Nat) : accessed s (s.useLine w ctx va line) := by
  unfold State.useLine
  split
  · exact s.cacheHit_accessed w line _
  · exact ((s.cacheMiss_accessed w).trans (State.dirGets_accessed _ w line)).trans (State.countPage_accessed _ w ctx va)

theorem State.ownLine_accessed (w ctx va line : Nat) (full : Bool) :
    accessed s (s.ownLine w ctx va line full) := by
  have h := (s.cacheMiss_accessed w).trans (State.dirGetx_accessed _ w line full)
  unfold State.ownLine
  split
  · exact s.cacheHit_accessed w line _
  · exact s.cacheHit_accessed w line _
  · simp only
    split
    · exact h
    · exact h.trans (State.countPage_accessed _ w ctx va)

/-! ### Whole accesses -/

/-- What an access counts leaves all but the event counters (R771). -/
theorem State.traffic_accessed (me ctx va n : Nat) (write : Bool) : accessed s (s.traffic me ctx va n write) := by
  refine accessed.foldl (fun t (r : Nat × Nat) => ?_) _ s
  split
  · rename_i l _
    have count (w src k : Nat) (c : Prop) [Decidable c] : accessed t (if c then t.countEv w src k else t) := by
      split
      · exact t.countEv_accessed w src k
      · exact accessed.refl t
    simp only
    split
    · exact (t.countEv_accessed _ _ _).trans (State.countEv_accessed _ _ _ _)
    · exact count _ _ _ _
    · exact count _ _ _ _
  · exact accessed.refl t

/-- What the translations of an access and its traffic leave. -/
theorem State.reach_accessed (me ctx va n : Nat) (write : Bool) :
    accessed s ((s.traffic me ctx va n write).useTlbs ctx va n) :=
  (s.traffic_accessed me ctx va n write).trans (State.useTlbs_accessed _ ctx va n)

/-- What a well's read leaves (R403, R436, R529). -/
theorem State.readVia_accessed (w ctx va n : Nat) : accessed s (s.readVia w ctx va n) := by
  unfold State.readVia
  simp only
  split
  · exact s.reach_accessed w ctx va n false
  · exact (s.reach_accessed w ctx va n false).trans (accessed.foldl
      (fun t (r : Nat × Nat) => accessed.foldl (fun u (l : Nat × Bool) => u.useLine_accessed w ctx r.1 l.1) _ t) _ _)

/-- What a non-allocating write leaves beside its bytes (R530). -/
theorem State.wroteDir_accessed (lines : List Nat) : accessed s (s.wroteDir lines) := by
  unfold State.wroteDir
  exact ((s.cdFld_accessed _ _ _).trans (State.cdFld_accessed _ _ _ _)).trans
    (accessed.foldl (fun t l => t.recallLine_accessed l) _ _)

/-- What a well's write leaves beside its bytes (R529, R540). -/
theorem State.wroteVia_accessed (w ctx va n : Nat) : accessed s (s.wroteVia w ctx va n) := by
  unfold State.wroteVia
  simp only
  split
  · exact (s.reach_accessed w ctx va n true).trans (State.wroteDir_accessed _ _)
  · exact (s.reach_accessed w ctx va n true).trans (accessed.foldl
      (fun t (r : Nat × Nat) => accessed.foldl (fun u (l : Nat × Bool) => u.ownLine_accessed w ctx r.1 l.1 l.2) _ t) _ _)

/-- A run that ends an instruction: its fetch is an access, and the run stands at its next place (R173). -/
theorem State.doneRun_accessed (w : WellId) (p : PhysId) (r : Run) :
    accessed s { s.doneRun w p r with bobs := s.bobs } := by
  have h := s.readVia_accessed w (s.runCtx r) (tmplAddr r.b.tmpl r.idx) 8
  refine accessed.trans h ⟨?_, rfl, fun _ _ => rfl⟩
  have hb : (s.readVia w (s.runCtx r) (tmplAddr r.b.tmpl r.idx) 8).bobs = s.bobs := h.bobs
  show ({ s.readVia w (s.runCtx r) (tmplAddr r.b.tmpl r.idx) 8 with bobs := s.bobs } : State) = _
  rw [← hb]

end

end Sys2Proof.Machine
end

