-- ==== Sys2Proof/Laws/Memory.lean ====
section
/-!
SUPPORT. The laws of memory: what a read gives after a write, and that every memory operation keeps the canonical form.
-/

namespace Sys2Proof.Machine

/-- A byte read after a run of bytes was written. -/
theorem memGet_write : ∀ (bs : List Byte) (m : Mem) (a i : Nat),
    memGet (memWrite m a bs) i = if a ≤ i ∧ i < a + bs.length then bs.getD (i - a) 0#8 else memGet m i
  | [], m, a, i => by
    have : ¬(a ≤ i ∧ i < a + 0) := by omega
    simp [memWrite, this]
  | b :: t, m, a, i => by
    rw [memWrite, memGet_write t]
    by_cases h1 : i = a
    · subst h1
      have : ¬(i + 1 ≤ i ∧ i < i + 1 + t.length) := by omega
      simp [this, memGet]
    · by_cases h2 : a + 1 ≤ i ∧ i < a + 1 + t.length
      · have h3 : a ≤ i ∧ i < a + (b :: t).length := by simp; omega
        obtain ⟨k, hk⟩ : ∃ k, i - a = k + 1 := ⟨i - a - 1, by omega⟩
        have hk' : i - (a + 1) = k := by omega
        rw [if_pos h2, if_pos h3, hk, hk']
        simp
      · have h3 : ¬(a ≤ i ∧ i < a + (b :: t).length) := by simp; omega
        rw [if_neg h2, if_neg h3]
        simp [memGet, tabGet_put_ne _ _ _ h1]

/-- Bytes just written are read back. -/
theorem memRead_write_self (m : Mem) (a : Nat) (bs : List Byte) : memRead (memWrite m a bs) a bs.length = bs := by
  apply List.ext_getElem
  · simp [memRead]
  · intro i h1 h2
    simp [memRead, memGet_write, h2]

/-- A write leaves every byte outside it alone. -/
theorem memGet_write_ne (m : Mem) (a i : Nat) (bs : List Byte) (h : i < a ∨ a + bs.length ≤ i) :
    memGet (memWrite m a bs) i = memGet m i := by
  rw [memGet_write, if_neg (by omega)]

/-- A write keeps the canonical form. -/
theorem Mem.wf_write : ∀ (bs : List Byte) (m : Mem) (a : Nat), m.wf = true → (memWrite m a bs).wf = true
  | [], _, _, h => h
  | b :: t, m, a, h => Mem.wf_write t _ _ (tabWf_put 0#8 m a b h)

/-- Dropping bytes keeps the canonical form. -/
theorem Mem.wf_filter (m : Mem) (p : Host.Cell → Bool) (h : m.wf = true) : Mem.wf (m.filter p) = true :=
  tabWf_filter 0#8 m p h

/-- Memory with nothing listed is canonical. -/
@[simp] theorem Mem.wf_nil : Mem.wf [] = true := rfl

/-- A tier's bytes just written are read back. -/
theorem State.rawRead_rawWrite (s : State) (l : Loc) (bs : List Byte) : (s.rawWrite l bs).rawRead l bs.length = bs := by
  obtain ⟨t, a⟩ := l
  cases t <;> exact memRead_write_self _ _ _

end Sys2Proof.Machine
end

