-- ==== Sys2Proof/Machine/View.lean ====
section
/-!
DEFINITION. What a BAR0 read returns (R705, R797): no command of the table reads BAR0 and no step uses this; it names the fields
that report live state, which no register of the state holds, configuration space, and the test port's identity.
-/

namespace Sys2Proof.Machine

/-- STATE of WL_CTL_STATUS (R281). -/
def CtlState.code : CtlState → Nat
  | .idle => 0
  | .loading => 1
  | .running => 2
  | .stalled => 3
  | .preempted => 4
  | .halted => 5
  | .faulted => 6

/-- WL_CTL_STATUS of a well (R281): the state, the opcode at PC, and PC. -/
def State.ctlStatus (s : State) (w : Nat) : Word :=
  let y := s.well w
  BitVec.ofNat 64 (y.ctl.code * 2 ^ 32 + opOf (s.imWord w y.cx.pc) * 2 ^ 24 + y.cx.pc % 2 ^ 16)

/-- Foreign entries queued on a well's deques (R325). -/
def State.foreignQueued (s : State) (w : Nat) : Nat :=
  ((List.range 128).map (fun l => ((s.deque w l).filter (fun e => e.foreign)).length)).sum

/-- WL_DEQ_STAT of a well (R325): foreign entries and all entries queued. -/
def State.deqStat (s : State) (w : Nat) : Word :=
  BitVec.ofNat 64 (min (s.foreignQueued w) 2047 * 2 ^ 16 + min (s.queued w) 32767)

/-- PM_WAKE as it reads (R712, R736): the latched bits of WAKE_N, span and thermal, and each level source's condition. -/
def State.wakeView (s : State) : Word :=
  let v := s.reg rPmWake &&& 0xFFFFFFFFFFFFFF2C#64
  let v := setBits (setBits (setBits v 0 0 s.rung.isSome.toNat) 1 1 s.pw.twinWaits.toNat) 4 4 s.alarmLevel.toNat
  setBits v 7 7 (!(s.asleep s.jobWells).isEmpty).toNat

/-- The value that the register at 8-byte offset o has for a reader through function f: all ones where its block is powered down
(R705), a live field as the state has it, and otherwise the register. -/
def State.regView (s : State) (f o : Nat) : Word :=
  if !s.answersAt o then ~~~(0#64)
  else if 0x1000000 ≤ o ∧ o < 0x1C00000 then
    let w := (o - 0x1000000) / 0x100000
    if o = rWlCtlStatus w then s.ctlStatus w else if o = rWlDeqStat w then s.deqStat w else s.reg o
  else if 0x8000 ≤ o ∧ o < 0x9000 then
    tabGet (msixReset ((o - 0x8000) / 8)) s.msixTab (f * 512 + (o - 0x8000) / 8)
  else if o = rPmWake then s.wakeView
  else s.reg o

/-- A read of BAR0 at offset a (R734, R785): its value, and what it leaves. An access that is neither 4 nor 8 bytes at its
alignment reads as all ones and is reported; PM_TIMEBASE's halves read as one value. -/
def State.bar0Read (s : State) (f : Fin 2) (a n : Nat) : Word × State :=
  if !((n == 4 || n == 8) && a % n == 0) then (~~~(0#64), s.reportSelf 21 0xD 0 (64 + f) a)
  else
    let v := s.regView f (a / 8 * 8)
    if n = 8 then (v, s)
    else if a = rPmTimebase then
      (v &&& 0xFFFFFFFF#64, s.modPw (fun p => { p with tbHigh := BitVec.ofNat 32 (bitsOf v 63 32), tbLatched := true }))
    else if a = rPmTimebase + 4 ∧ s.pw.tbLatched then
      (s.pw.tbHigh.setWidth 64, s.modPw (fun p => { p with tbLatched := false }))
    else (if a % 8 = 0 then v &&& 0xFFFFFFFF#64 else v >>> 32, s)

/-! ### Configuration space and the test port (R3, R783, R791, R795) -/

/-- The fields of a function's configuration space that the manual gives values to. -/
inductive CfgField where
  | vendorId | deviceId | revisionId | subsystemVendorId | subsystemId | serialNumber
  /-- Of the MSI-X capability: entries of the table, its BAR and offset, the pending bits' BAR and offset. -/
  | msixSize | msixBir | msixOffset | pbaBir | pbaOffset
deriving DecidableEq, Repr

/-- What a function's configuration space reports (R3, R790, R791, R795). -/
def State.config (s : State) : CfgField → Nat
  | .vendorId => s.fld rWhId 31 16
  | .deviceId => s.fld rWhId 15 0
  | .revisionId => s.fld rWhRev 7 0
  | .subsystemVendorId => s.fld rWhId 31 16
  | .subsystemId => 0x2512
  | .serialNumber => (s.reg rWhSerial).toNat
  | .msixSize => 256
  | .msixBir => 0
  | .msixOffset => 0x8000
  | .pbaBir => 0
  | .pbaOffset => 0x9000

/-- IDCODE of the IEEE 1149.1 port (R63, R783): STEP's letter, the part, the manufacturer, and 1. -/
def State.idcode (s : State) : Nat :=
  s.fld rWhRev 7 4 * 2 ^ 28 + 0x2512 * 2 ^ 12 + Config.jedecId.toNat * 2 + 1

end Sys2Proof.Machine
end

