-- ==== Sys2Proof/WellFormed.lean ====
section
/-!
DEFINITION. What a command's operands must satisfy beside their types: the widths of what a message carries, the lengths
of what a measurement lists, and the shape of an access.
-/

namespace Sys2Proof

/-- The fields of a frame fit the header of R635, and LEN is the payload's length (R638). -/
def Frame.wf (f : Frame) : Bool :=
  decide (1 ≤ f.typ ∧ f.typ ≤ 5 ∧ f.vc < 4 ∧ f.op < 64 ∧ f.seq < 65536 ∧ f.len = f.payload.length ∧ f.len ≤ 4096)
  && decide (f.epoch < 2 ∧ f.tag < 4096 ∧ f.src < 4096 ∧ f.dst < 4096 ∧ f.ctx < 16 ∧ f.rstat < 16)
  && decide (f.credit < 65536 ∧ f.offset < 65536 ∧ f.addr < 2 ^ 56)

/-- The fields of a journal record fit R613. -/
def JRec.wf (r : JRec) : Bool :=
  decide (1 ≤ r.kind ∧ r.kind ≤ 3 ∧ r.queue < 64 ∧ r.gen < 256 ∧ r.seq < 2 ^ 32 ∧ r.prio < 8 ∧ r.psize < 16)
  && decide (r.arg < 2 ^ 64 ∧ r.root < 2 ^ 64 ∧ r.tb < 2 ^ 64 ∧ r.status < 256 ∧ r.reason < 256)
  && decide (r.passes < 2 ^ 32 ∧ r.addr < 2 ^ 56)

/-- The fields of a completion entry fit R614. -/
def CEntry.wf (e : CEntry) : Bool :=
  decide (1 ≤ e.typ ∧ e.typ ≤ 2 ∧ e.gen < 256 ∧ e.status < 256 ∧ e.reason < 256 ∧ e.seq < 2 ^ 32 ∧ e.queue < 64)
  && decide (e.addr < 2 ^ 56 ∧ e.passes < 2 ^ 32 ∧ e.tbAccept < 2 ^ 64 ∧ e.tbEnd < 2 ^ 64)

/-- A queue mirror's entry fits, and so do the queue's fields (R605, R680). -/
def QMirror.wf (q : QMirror) : Bool :=
  q.entry.wf && decide (q.sqHead < 65536 ∧ q.last < 2 ^ 32 ∧ q.accepted < 2 ^ 32 ∧ q.gen < 256 ∧ q.cqTail < 65536)

/-- PAIR_ID and epoch are 32 bits each (R676). -/
def PairHdr.wf (h : PairHdr) : Bool := decide (h.pairId < 2 ^ 32 ∧ h.epoch < 2 ^ 32)

/-- A checkpoint header has eight fields (R684). -/
def CpHeader.wf (h : CpHeader) : Bool :=
  decide (h.queue < 64 ∧ h.gen < 256 ∧ h.seq < 2 ^ 32 ∧ h.root < 2 ^ 56 ∧ h.area < 2 ^ 56 ∧ h.fields.length = 8)

/-- The tag an acknowledgement names fits its fields (R613). -/
def MirrorOf.wf : MirrorOf → Bool
  | .journal kind q g n => decide (1 ≤ kind ∧ kind ≤ 3 ∧ q < 64 ∧ g < 256 ∧ n < 2 ^ 32)
  | .queue q g n => decide (q < 64 ∧ g < 256 ∧ n < 2 ^ 32)
  | .checkpoint q g n => decide (q < 64 ∧ g < 256 ∧ n < 2 ^ 32)
  | .header q g n => decide (q < 64 ∧ g < 256 ∧ n < 2 ^ 32)

/-- A requester exists (R13). -/
def Waiter.wf : Waiter → Bool
  | .bobbin w p => decide (w < 12 ∧ p < 136)
  | .store w p => decide (w < 12 ∧ p < 136)
  | .controller w => decide (w < 12)
  | .pump w n => decide (w < 12 ∧ n < 8)
  | .unit w u => decide (w < 12 ∧ u < 64)
  | .move _ => true
  | .wellhead _ => true

/-- A block in which an error is found lies in its cistern (R392). -/
def EccEv.wf : EccEv → Bool
  | .block _ n _ => decide (n < 83886080)
  | _ => true

/-- The span values hold one MAC for each of the eight ports (R789). -/
def BootCfg.wf (c : BootCfg) : Bool := c.span.all (fun (x : BitVec 12 × List (BitVec 48) × BitVec 8) => x.2.1.length == 8)

/-- A sweep answers for the 25 dies (R765). -/
def Sweep.wf (x : Sweep) : Bool := x.dies.length == 25

/-- A command is well formed. -/
def Instr.wf (i : Instr) : Bool :=
  match i with
  | .coldReset => true
  | .wellheadDomainGood => true
  | .inputLossShutdown _ => true
  | .overVoltageLockout => true
  | .inputVoltageWarning _ => true
  | .inputPowerSample _ _ _ _ _ _ => true
  | .inputLimitApply => true
  | .thermalTrip _ => true
  | .perstDeassert _ _ => true
  | .perstAssertHalf _ => true
  | .functionLevelReset _ => true
  | .readVin => true
  | .readIin => true
  | .readPin => true
  | .readTemperature1 => true
  | .readTemperature2 => true
  | .readTemperature3 => true
  | .statusWord => true
  | .statusInput => true
  | .statusTemperature => true
  | .clearFaults => true
  | .pmbusRevision => true
  | .mfrId => true
  | .smbusAlertResponse => true
  | .bootCopyChecked _ => true
  | .reservoirTrainingDone rates => rates.length == 36
  | .wellSelfTestDone _ _ _ _ _ => true
  | .bootComplete cfg => cfg.wf
  | .warmReset _ _ => true
  | .firmwareWatchdogExpiry _ => true
  | .takeoverReset _ _ => true
  | .wellReset _ => true
  | .wellHandshakeWatchdog _ _ => true
  | .runRecoveryImage _ => true
  | .firmwareFloorRaise _ => true
  | .stitchTake _ _ => true
  | .stealProbe _ _ => true
  | .crossWellStealRequest _ => true
  | .bobbinGroupPowerUp _ _ => true
  | .bobbinGroupAdmission _ _ => true
  | .ldt _ _ ev => ev.wf
  | .stt _ _ ev => ev.wf
  | .storeEntryVisible _ _ => true
  | .mma _ _ ev => ev.wf
  | .zclr _ _ => true
  | .cvt _ _ ev => ev.wf
  | .qnt _ _ ev => ev.wf
  | .epiGate _ _ ev => ev.wf
  | .epiAddv _ _ ev => ev.wf
  | .epiPst _ _ ev => ev.wf
  | .epiBas _ _ ev => ev.wf
  | .epiConv _ _ ev => ev.wf
  | .epiRecon _ _ ev => ev.wf
  | .sfnExp _ _ ev => ev.wf
  | .sfnLog _ _ ev => ev.wf
  | .sfnRcp _ _ ev => ev.wf
  | .sfnRsqrt _ _ ev => ev.wf
  | .redSum _ _ ev => ev.wf
  | .redMax _ _ ev => ev.wf
  | .redSumsq _ _ ev => ev.wf
  | .smxInit _ _ => true
  | .smxStep _ _ ev => ev.wf
  | .smxFold _ _ ev => ev.wf
  | .bias _ _ ev => ev.wf
  | .guard _ _ => true
  | .gat _ _ ev => ev.wf
  | .sct _ _ ev => ev.wf
  | .sig _ _ => true
  | .waits _ _ => true
  | .waitsSatisfied _ _ => true
  | .waitsLimitExpiry _ _ => true
  | .endOp _ _ => true
  | .stitchCompletion _ _ => true
  | .bobbinWatchdogExpiry _ _ => true
  | .vacancyMapping _ => true
  | .bobCmdFence _ _ => true
  | .bobCmdTest _ _ => true
  | .bobTestDone _ _ => true
  | .bobCmdRelease _ _ => true
  | .addOp _ ev => ev.wf
  | .subOp _ ev => ev.wf
  | .andOp _ ev => ev.wf
  | .orOp _ ev => ev.wf
  | .xor _ ev => ev.wf
  | .shl _ ev => ev.wf
  | .shr _ ev => ev.wf
  | .sra _ ev => ev.wf
  | .mul _ ev => ev.wf
  | .slt _ ev => ev.wf
  | .sltu _ ev => ev.wf
  | .addi _ ev => ev.wf
  | .andi _ ev => ev.wf
  | .ori _ ev => ev.wf
  | .xori _ ev => ev.wf
  | .shli _ ev => ev.wf
  | .shri _ ev => ev.wf
  | .srai _ ev => ev.wf
  | .slti _ ev => ev.wf
  | .li _ ev => ev.wf
  | .lih _ ev => ev.wf
  | .lds _ ev => ev.wf
  | .sts _ ev => ev.wf
  | .ldg _ ev => ev.wf
  | .beq _ ev => ev.wf
  | .bne _ ev => ev.wf
  | .blt _ ev => ev.wf
  | .bge _ ev => ev.wf
  | .bltu _ ev => ev.wf
  | .bgeu _ ev => ev.wf
  | .jal _ ev => ev.wf
  | .jr _ ev => ev.wf
  | .walkStart _ ev => ev.wf
  | .enqTo _ ev => ev.wf
  | .enqAny _ ev => ev.wf
  | .waitWalk _ ev => ev.wf
  | .waitEvent _ ev => ev.wf
  | .waitPump _ ev => ev.wf
  | .fenceStore _ ev => ev.wf
  | .fenceWell _ ev => ev.wf
  | .fencePartition _ ev => ev.wf
  | .controllerStallRelease _ => true
  | .waitEventLimitExpiry _ => true
  | .walkRecordStallTimeout _ => true
  | .checkpoint _ ev => ev.wf
  | .checkpointCopy _ => true
  | .checkpointDurable _ => true
  | .collBarrier _ ev => ev.wf
  | .collSum _ ev => ev.wf
  | .collMax _ ev => ev.wf
  | .collMin _ ev => ev.wf
  | .pumpStart _ ev => ev.wf
  | .migPrefetch _ ev => ev.wf
  | .migDemote _ ev => ev.wf
  | .migPin _ ev => ev.wf
  | .migUnpin _ ev => ev.wf
  | .halt _ ev => ev.wf
  | .walkerPlaceStitch _ => true
  | .splitCombineIssue _ => true
  | .splitCombine _ _ => true
  | .layerTriggerCombine _ => true
  | .cuEwiseAdd _ _ => true
  | .cuEwiseSub _ _ => true
  | .cuEwiseMul _ _ => true
  | .cuEwiseMax _ _ => true
  | .cuEwiseMin _ _ => true
  | .cuEwiseAxpby _ _ => true
  | .cuRedSum _ _ => true
  | .cuRedMax _ _ => true
  | .cuRedSumsq _ _ => true
  | .cuQuantSupplied _ _ => true
  | .cuQuantComputed _ _ => true
  | .cuConvert _ _ => true
  | .cuMximp _ _ => true
  | .cuMxexp _ _ => true
  | .cuNormRms _ _ => true
  | .cuNormLayer _ _ => true
  | .cuNormRmsApply _ _ => true
  | .cuNormRmsStats _ _ => true
  | .cuNormLayerStats _ _ => true
  | .cuNormLayerApply _ _ => true
  | .cuCombine _ _ => true
  | .cuSmxmerge _ _ => true
  | .cuKvrelayout _ _ => true
  | .cuVreblock _ _ => true
  | .cuGather _ _ => true
  | .cuScatter _ _ => true
  | .cuPoolMax _ _ => true
  | .cuPoolAvg _ _ => true
  | .cuUpsampleNearest _ _ => true
  | .cuUpsampleTrilinear _ _ => true
  | .cuFillZero _ _ => true
  | .cuFillValue _ _ => true
  | .cuItemIssue _ _ => true
  | .cuItemComplete _ _ => true
  | .cisternRefresh _ _ _ => true
  | .cisternPatrolScrub _ block _ => decide (block < 2 ^ 27)
  | .cisternSplitApply _ => true
  | .pumpCopy _ _ => true
  | .pumpFill _ _ => true
  | .pumpUnitComplete _ _ _ => true
  | .pumpResume _ _ => true
  | .drainTimeout _ => true
  | .migrationMoveStart => true
  | .moveDrainDone _ => true
  | .moveCopyComplete _ => true
  | .accessCountPromotion _ _ => true
  | .countWindowClear => true
  | .hostTierWaitExpiry who _ _ => who.wf
  | .translationMiss _ _ _ _ => true
  | .sharedWalkerGrant => true
  | .pageWalkComplete _ => true
  | .trInvContext _ => true
  | .trInvPage _ => true
  | .trHrootJudgingWrite _ _ => true
  | .gets _ _ _ => true
  | .getx _ _ _ => true
  | .getxf _ _ _ => true
  | .putm _ _ => true
  | .pute _ _ => true
  | .nonallocatingRead _ _ => true
  | .nonallocatingWrite _ _ => true
  | .reservoirSectorRead _ _ _ _ => true
  | .reservoirSectorWrite _ o bytes _ _ => !bytes.isEmpty && decide (o.val + bytes.length ≤ 64)
  | .sluiceTick => true
  | .reservoirPatrolScrub _ _ => true
  | .driftCompensation _ _ => true
  | .mr4Read _ _ _ => true
  | .rvFenceCmd _ => true
  | .evacuationGranuleCopy _ g _ => decide (g < 15728640)
  | .evacuationComplete _ => true
  | .reservoirSelfRefreshExit => true
  | .rvPlaceCommit _ _ => true
  | .aquiferReadEntry _ a n _ => a % 16384 == 0 && decide (1 ≤ n.val ∧ a % 65536 / 16384 + n.val ≤ 4)
  | .aquiferPageRead _ _ => true
  | .aquiferPackageLost _ => true
  | .aqFenceCmd _ => true
  | .imageRowWrite _ => true
  | .journalProgram => true
  | .journalDurable => true
  | .inputRecordFill _ => true
  | .noiseFill _ => true
  | .noiseFillDone _ => true
  | .codecSessionBind => true
  | .encodePicture _ => true
  | .decodePicture _ => true
  | .sessionReadyReread _ _ => true
  | .sessionEnd _ _ => true
  | .doorbell _ _ _ => true
  | .submissionFetch _ _ => true
  | .queueErrorClear _ _ _ => true
  | .jobLoaderVerify _ => true
  | .jobAccept _ => true
  | .completionEntryWrite _ => true
  | .waitingEntryDrain _ => true
  | .msiXSignal _ => true
  | .coalesceTimerExpiry _ => true
  | .queueReset _ _ _ => true
  | .queueAbort _ => true
  | .jnQueryLookup _ => true
  | .bar2Read _ o n => decide (1 ≤ n.val ∧ o.toNat + n.val ≤ 2 ^ 36)
  | .bar2Write _ o bytes => !bytes.isEmpty && decide (bytes.length ≤ 4096 ∧ o.toNat + bytes.length ≤ 2 ^ 36)
  | .jobBind => true
  | .preemption _ => true
  | .partitionQuiescent _ => true
  | .jobEndCommit _ => true
  | .jobRollback _ => true
  | .wellLoss _ _ => true
  | .jobRebuild _ => true
  | .tileFrame _ f => f.wf
  | .rdReqFrame _ f => f.wf
  | .rdRespFrame _ f => f.wf
  | .wrFrame _ f => f.wf
  | .wrAckFrame _ f => f.wf
  | .mgmtFrame _ f => f.wf
  | .ilpDataSend _ _ _ _ => true
  | .ilpAck _ f => f.wf
  | .ilpNak _ f => f.wf
  | .ilpHello _ f => f.wf
  | .ilpResync _ f => f.wf
  | .ackDelayExpiry _ _ _ => true
  | .rtoExpiry _ _ _ => true
  | .portDown _ => true
  | .portUp _ _ => true
  | .helloTimer _ _ _ => true
  | .holdExpiry _ _ _ => true
  | .resyncWaitExpiry _ _ _ => true
  | .tagQuarantineRelease _ _ _ => true
  | .spRtCmdGo _ => true
  | .spCommit _ => true
  | .collFrame _ f => f.wf
  | .collResultFrame _ f => f.wf
  | .collAbortFrame _ f => f.wf
  | .collDeadlineExpiry _ => true
  | .collGraceExpiry _ => true
  | .pairFormationStart _ => true
  | .pairHello h _ _ _ => h.wf
  | .syncDone h => h.wf
  | .journalMirror h r q => h.wf && r.wf && q.all QMirror.wf
  | .queueMirror h q => h.wf && q.wf
  | .checkpointMirror h _ _ _ _ _ bytes => h.wf && decide (bytes.length ≤ 4096)
  | .headerMirror h x => h.wf && x.wf
  | .mirrorAck h of_ _ => h.wf && of_.wf
  | .yield h => h.wf
  | .resetting h => h.wf
  | .resettingSuspensionEnd => true
  | .heartbeatSilence => true
  | .linkLossTimeout => true
  | .pairTakeoverCmd _ => true
  | .pairSoloCmd _ => true
  | .pairStanddownCmd _ => true
  | .pairRejoinCmd _ => true
  | .pairHandbackCmd _ => true
  | .pmCmdWake _ => true
  | .pmCmdW2 _ => true
  | .pmCmdW3 _ => true
  | .pmCmdW4 _ => true
  | .entryComplete => true
  | .entryDrainTimeout => true
  | .w1IdleEntry _ => true
  | .w2AutoEntry _ => true
  | .w3AutoEntry => true
  | .wakeEvent _ => true
  | .wakeStagingWellStart => true
  | .domainReady _ => true
  | .powerGoodTimeout _ => true
  | .pllLockTimeout _ => true
  | .wakeRetry _ => true
  | .referenceFault _ _ => true
  | .referenceRecovery _ => true
  | .referenceAbsentTimeout _ => true
  | .alarmFire => true
  | .timebaseLowRead => true
  | .timebaseCoarseClear => true
  | .sensorSweep sw => sw.wf
  | .sensorHopTimeout _ _ => true
  | .faultReport _ => true
  | .fcRecordClear _ => true
  | .fcHoldoffExpiry => true
  | .fcAlertClear _ => true
  | .evFreeze _ => true
  | .evClear _ => true
  | .wellCmdFence _ => true
  | .wellCmdTest _ => true
  | .wellCmdRelease _ => true
  | .registerWrite _ _ n _ => decide (1 ≤ n.val)
  | .timebaseAdvance => true
  | .hbInToggle => true
  | .pcieLinkDown _ => true
  | .pcieLinkUp _ => true
  | .fabricLinkFailure a b => a != b
  | .aquiferTrainingDone rates => rates.length == 12
  | .reservoirPackageFailure _ => true
  | .wellheadDomainFailure _ => true
  | .discardedFrame _ => true
  | .referenceGlitch _ => true

end Sys2Proof
end

