-- ==== Sys2Proof/Tests/Slice0.lean ====
section
/-!
SUPPORT. Tests: commands that are not well formed, results worked out by hand from the manual, and for each statement with
hypotheses a state and operands that meet them together.
-/

namespace Sys2Proof.Tests

open Sys2Proof Sys2Proof.Machine

set_option maxRecDepth 20000
set_option Elab.async false

/-! ### WellFormed -/

/-- A frame that fits. -/
def okFrame : Frame := { typ := 1, vc := 1, op := 0x10, len := 1, payload := [7#8] }
/-- A pair header that fits, a record, an entry, a mirror and a checkpoint header. -/
def okHdr : PairHdr := { pairId := 1, epoch := 1 }
def okRec : JRec := { kind := 1, queue := 0, gen := 0 }
def okEntry : CEntry := { typ := 1, gen := 0, seq := 1, queue := 0 }
def okMirror : QMirror := { entry := okEntry, sqHead := 0, last := 0, accepted := 0, gen := 0, cqTail := 0 }
def okCp : CpHeader := { queue := 0, gen := 0, seq := 0, root := 0, area := 0, fields := List.replicate 8 0#64 }

/-- Each check of the well-formed commands refuses a command that breaks it and nothing else. -/
theorem test_wf_refuses :
    ([.reservoirTrainingDone [], .aquiferTrainingDone [], .bootComplete { span := some (0#12, [], 0#8) },
      .cisternPatrolScrub 0 (2 ^ 27) .clean, .hostTierWaitExpiry (.bobbin 12 0) 0#56 false,
      .hostTierWaitExpiry (.bobbin 0 136) 0#56 false, .hostTierWaitExpiry (.store 0 136) 0#56 false,
      .hostTierWaitExpiry (.controller 12) 0#56 false, .hostTierWaitExpiry (.pump 0 8) 0#56 false,
      .hostTierWaitExpiry (.unit 0 64) 0#56 false, .reservoirSectorWrite 0#36 0 [] 0 .good,
      .reservoirSectorWrite 0#36 63 [1#8, 2#8] 0 .good, .evacuationGranuleCopy 0 15728640 [],
      .aquiferReadEntry 0 1 1 0, .aquiferReadEntry 0 0 0 0, .aquiferReadEntry 0 49152 2 0, .bar2Read 0 0#36 0,
      .bar2Read 0 (BitVec.ofNat 36 (2 ^ 36 - 1)) 2, .bar2Write 0 0#36 [],
      .bar2Write 0 (BitVec.ofNat 36 (2 ^ 36 - 1)) [1#8, 2#8], .registerWrite 0 0#26 0 0#64, .fabricLinkFailure 0 0,
      .sensorSweep { dies := [], inlet := 0, outlet := 0, dur := 0 }] : List Instr).all (fun i => !i.wf) = true := by
  decide

/-- A frame whose header fields do not fit, field by field. -/
theorem test_wf_frames :
    okFrame.wf = true ∧ ([{ okFrame with typ := 0 }, { okFrame with typ := 6 }, { okFrame with vc := 4 },
      { okFrame with op := 64 }, { okFrame with seq := 65536 }, { okFrame with len := 2 }, { okFrame with epoch := 2 },
      { okFrame with tag := 4096 }, { okFrame with src := 4096 }, { okFrame with dst := 4096 }, { okFrame with ctx := 16 },
      { okFrame with rstat := 16 }, { okFrame with credit := 65536 }, { okFrame with offset := 65536 },
      { okFrame with addr := 2 ^ 56 }] : List Frame).all (fun f => !(Instr.wf (.tileFrame 0 f))) = true := by
  decide

/-- Pair messages whose fields do not fit, and checkpoint bytes that are too many. -/
theorem test_wf_pair :
    ([.syncDone { okHdr with epoch := 2 ^ 32 }, .pairHello { okHdr with pairId := 2 ^ 32 } 0 0 0,
      .journalMirror okHdr { okRec with kind := 0 } none, .journalMirror okHdr { okRec with queue := 64 } none,
      .journalMirror okHdr { okRec with arg := 2 ^ 64 } none, .journalMirror okHdr { okRec with passes := 2 ^ 32 } none,
      .queueMirror okHdr { okMirror with cqTail := 65536 },
      .queueMirror okHdr { okMirror with entry := { okEntry with typ := 0 } },
      .headerMirror okHdr { okCp with fields := [] }, .mirrorAck okHdr (.journal 4 0 0 0) true,
      .mirrorAck okHdr (.queue 64 0 0) true, .mirrorAck okHdr (.checkpoint 0 256 0) true,
      .mirrorAck okHdr (.header 0 0 (2 ^ 32)) true] : List Instr).all (fun i => !i.wf) = true
    ∧ Instr.wf (.checkpointMirror okHdr 0 0 0 0 0 (List.replicate 4097 0#8)) = false
    ∧ Instr.wf (.bar2Write 0 0#36 (List.replicate 4097 0#8)) = false
    ∧ Instr.wf (.headerMirror okHdr okCp) = true ∧ Instr.wf (.queueMirror okHdr okMirror) = true := by
  refine ⟨by decide, ?_, ?_, by decide, by decide⟩
  · show (okHdr.wf && decide ((List.replicate 4097 0#8).length ≤ 4096)) = false
    rw [List.length_replicate]; decide
  · show (!(List.replicate 4097 0#8).isEmpty && decide ((List.replicate 4097 0#8).length ≤ 4096
      ∧ (0#36).toNat + (List.replicate 4097 0#8).length ≤ 2 ^ 36)) = false
    rw [List.length_replicate]; decide


/-! ### The queue and the invariants -/

/-- A command runs. -/
theorem witness_exec : ∃ t, exec (.fcAlertClear 0#64) State.reset = .next t := ⟨_, rfl⟩
/-- A step from canonical memories that answers a next state. -/
theorem witness_step : ∃ t, State.memOk { pending := [.fcAlertClear 0#64] } = true
    ∧ step { pending := [.fcAlertClear 0#64] } = .next t := ⟨_, by decide, rfl⟩
/-- Raising the floor: RAISE is 1. -/
theorem witness_floor : bitOf 1#64 0 = true := by decide

/-! ### Well controllers -/

/-- Well 0's controller runs at index 0 of a program of two instructions whose first word is i, with s1 = 7 and s2 = 3. -/
def tCtl (i : Word) : State :=
  { wells := [(0, { ctl := .running, plen := 2, cx := { regs := [(1, 7#64), (2, 3#64)] } })], imem := [(0, i)] }

/-- A C-class word: opcode, RD, RS1, low bits. -/
def cw (op rd rs1 low : Nat) : Word := BitVec.ofNat 64 (op * 2 ^ 56 + rd * 2 ^ 51 + rs1 * 2 ^ 46 + low)

/-- ADD s3, s1, s2 writes 10 and goes on (R262). -/
theorem test_add : (match exec (.addOp 0 .clean) (tCtl (cw 0x81 3 1 (2 * 2 ^ 41))) with
    | .next t => ((t.well 0).cx.get 3, (t.well 0).cx.pc) | _ => (0#64, 0)) = (10#64, 1) := by decide
/-- LI sign-extends its 51-bit immediate (R183). -/
theorem test_li : (match exec (.li 0 .clean) (tCtl (cw 0x9C 4 31 (2 ^ 46 - 1))) with
    | .next t => (t.well 0).cx.get 4 | _ => 0#64) = ~~~0#64 := by decide
/-- SLT compares as signed, SLTU as unsigned: −1 against 3 (R262). -/
theorem test_slti : (match exec (.slti 0 .clean) (tCtl (cw 0x9A 4 1 (2 ^ 46 - 1))) with
    | .next t => (t.well 0).cx.get 4 | _ => 1#64) = 0#64 := by decide
/-- BNE at index 0 with offset 1 jumps to index 1; JAL writes the index of the next instruction (R262). -/
theorem test_bne : (match exec (.bne 0 .clean) (tCtl (cw 0xB1 1 2 (2 ^ 30))) with
    | .next t => (t.well 0).cx.pc | _ => 9) = 1 := by decide
theorem test_jal : (match exec (.jal 0 .clean) (tCtl (cw 0xB8 5 0 (2 ^ 30))) with
    | .next t => ((t.well 0).cx.get 5, (t.well 0).cx.pc) | _ => (0#64, 9)) = (1#64, 1) := by decide
/-- s0 ignores a write (R258). -/
theorem test_s0 : (match exec (.addi 0 .clean) (tCtl (cw 0x91 0 1 5)) with
    | .next t => ((t.well 0).cx.get 0, (t.well 0).cx.pc) | _ => (1#64, 0)) = (0#64, 1) := by decide

/-- What every statement about a running controller asks: its word, and another instruction behind it. -/
theorem witness_alu_reg :
    (tCtl (cw 0x81 3 1 (2 * 2 ^ 41))).ctlAt (0 : WellId) (cw 0x81 3 1 (2 * 2 ^ 41))
    ∧ ((tCtl (cw 0x81 3 1 (2 * 2 ^ 41))).well 0).cx.pc + 1 < ((tCtl (cw 0x81 3 1 (2 * 2 ^ 41))).well 0).plen
    ∧ (ctlRegOp (.addOp 0 .corrected)).isSome = true
    ∧ opOf (cw 0x81 3 1 (2 * 2 ^ 41)) = 0x81 ∧ bitsOf (cw 0x81 3 1 (2 * 2 ^ 41)) 40 0 = 0 := by
  unfold State.ctlAt; decide
theorem witness_alu_imm :
    (tCtl (cw 0x91 3 1 5)).ctlAt (0 : WellId) (cw 0x91 3 1 5) ∧ opOf (cw 0x91 3 1 5) = 0x91
    ∧ (ctlImmOp (.addi 0 .clean)).isSome = true := by
  unfold State.ctlAt; decide
theorem witness_li :
    (tCtl (cw 0x9C 3 0 5)).ctlAt (0 : WellId) (cw 0x9C 3 0 5) ∧ opOf (cw 0x9C 3 0 5) = 0x9C
    ∧ (tCtl (cw 0x9D 3 1 5)).ctlAt (0 : WellId) (cw 0x9D 3 1 5) ∧ opOf (cw 0x9D 3 1 5) = 0x9D
    ∧ bitsOf (cw 0x9D 3 1 5) 45 32 = 0 := by
  unfold State.ctlAt; decide
/-- A branch taken to the last index, one not taken, JAL, and JR to the index in s2 of a longer program. -/
theorem witness_branch :
    (tCtl (cw 0xB1 1 2 (2 ^ 30))).ctlAt (0 : WellId) (cw 0xB1 1 2 (2 ^ 30)) ∧ bitsOf (cw 0xB1 1 2 (2 ^ 30)) 29 0 = 0
    ∧ (ctlBranchOp (.bne 0 .clean)).isSome = true
    ∧ ((1 : Nat) : Int) = (if decide ((7#64 : Word) ≠ 3#64) then
        ((tCtl (cw 0xB1 1 2 (2 ^ 30))).well 0).cx.pc + (BitVec.extractLsb' 30 16 (cw 0xB1 1 2 (2 ^ 30))).toInt
        else ((tCtl (cw 0xB1 1 2 (2 ^ 30))).well 0).cx.pc + 1) := by
  unfold State.ctlAt; decide
theorem witness_jump :
    (tCtl (cw 0xB8 5 0 (2 ^ 30))).ctlAt (0 : WellId) (cw 0xB8 5 0 (2 ^ 30)) ∧ bitsOf (cw 0xB8 5 0 (2 ^ 30)) 50 46 = 0
    ∧ bitsOf (cw 0xB8 5 0 (2 ^ 30)) 29 0 = 0
    ∧ ((1 : Nat) : Int) = ((tCtl (cw 0xB8 5 0 (2 ^ 30))).well 0).cx.pc
        + (BitVec.extractLsb' 30 16 (cw 0xB8 5 0 (2 ^ 30))).toInt
    ∧ (tCtl (cw 0xB9 9 0 0)).ctlAt (0 : WellId) (cw 0xB9 9 0 0) ∧ bitsOf (cw 0xB9 9 0 0) 50 0 = 0
    ∧ ((0 : Nat) : Int) = (((tCtl (cw 0xB9 9 0 0)).well 0).cx.get 9).toNat := by
  unfold State.ctlAt; decide

/-! ### A mapped page and a job -/

/-- Bytes in a memory from address a, zeros unlisted. -/
def tBytes (a : Nat) (bs : List Byte) : Mem :=
  (bs.zipIdx.filter (fun e => e.1 != 0#8)).map (fun e => (a + e.2, e.1))
/-- A guarded word. -/
def tEnt (a v : Nat) : Mem := tBytes a (leBytes 16 (guard64 (BitVec.ofNat 64 v)).toNat)
/-- Words as they are. -/
def tWords (a : Nat) (ws : List Nat) : Mem := tBytes a (ws.flatMap (leBytes 8))
/-- A page table at 0, its own child on every level down to 1, whose leaf maps 2 MiB from 2 MiB, readable and writable, to the reservoir at 4 MiB. -/
def tPt : Mem :=
  tEnt 0 (2 ^ 62) ++ tEnt 16 (2 ^ 63 + 2 ^ 59 + 2 ^ 58 + 2 ^ 57 + 64)
/-- The place of virtual address 2 MiB. -/
def tVa : Nat := 2 ^ 21
def tAt : Nat := 2 ^ 22
/-- A pricking at 2 MiB: one level, one register, its template at 1000H and its register's descriptor at 2000H. -/
def tPrick : Mem :=
  tPt ++ ([0, tVa + 4096, 0, 0, tVa + 8192, 0, 0, 0, 0, 0, 0].zipIdx).flatMap (fun e => tEnt (tAt + 16 * e.2) e.1)
/-- Host context and partition 0 translate by those tables, and the placement is committed; job 0 runs on well 0. -/
def tJob : Job :=
  { queue := 0, gen := 0, seq := 1, prio := 0, psize := 1, arg := tVa, root := 0, phase := .running, order := 1,
    part := some 0, wells := [0], slots := [0], pricks := [tVa] }
def tRegs : Tab Word :=
  tabPut 0#64 (tabPut 0#64 [] rRvPlace 0x80000000#64) (rTrRoot 0) 0x8000000000000000#64
def tS (i : Word) : State :=
  { tCtl i with
    hroot := 0x8000000000000000#64, regs := tRegs,
    reservoir := tPrick, jobs := [tJob],
    wells := [(0, { ctl := .running, plen := 2, job := some 0, cx := { regs := [(1, 7#64), (2, BitVec.ofNat 64 tVa)] } })] }

theorem test_translate : (tS 0).translate 0 (tVa + 5) true = .ok ⟨.reservoir, tAt + 5⟩ := by decide

/-- Does an access answer? -/
def okE {α : Type} (e : Except AccErr α) : Bool := match e with | .ok _ => true | .error _ => false
/-- Does an access answer yes? -/
def okB (e : Except AccErr Bool) : Bool := match e with | .ok b => b | .error _ => false
/-- Answered, and with this value. -/
def okIs {α : Type} [DecidableEq α] (e : Except AccErr α) (v : α) : Bool :=
  match e with | .ok b => decide (b = v) | .error _ => false

/-- A C-K word: opcode, SUB, RA, RB, IMM. -/
def ckw (op sub ra rb imm : Nat) : Word := cw op ra rb (sub * 2 ^ 40 + imm)

/-- LDS and LDG of s2, and STS to it: aligned addresses that are mapped, readable and writable (R263). -/
theorem witness_loads :
    (tS (cw 0xA0 3 2 0)).ctlAt (0 : WellId) (cw 0xA0 3 2 0) ∧ opOf (cw 0xA0 3 2 0) = 0xA0 ∧ tVa % 8 = 0
    ∧ okE ((tS (cw 0xA0 3 2 0)).readWord ((tS (cw 0xA0 3 2 0)).ctlCtx 0) tVa) = true
    ∧ (tS (cw 0xA2 3 2 0)).ctlAt (0 : WellId) (cw 0xA2 3 2 0) ∧ opOf (cw 0xA2 3 2 0) = 0xA2 ∧ tVa % 16 = 0
    ∧ okE ((tS (cw 0xA2 3 2 0)).readGuard64 ((tS (cw 0xA2 3 2 0)).ctlCtx 0) tVa) = true := by
  unfold State.ctlAt; decide
theorem witness_sts :
    (tS (cw 0xA1 1 2 0)).ctlAt (0 : WellId) (cw 0xA1 1 2 0) ∧ opOf (cw 0xA1 1 2 0) = 0xA1
    ∧ ((tS (cw 0xA1 1 2 0)).well 0).cx.pc + 1 < ((tS (cw 0xA1 1 2 0)).well 0).plen
    ∧ ((tS (cw 0xA1 1 2 0)).checked 0 .clean).translate ((tS (cw 0xA1 1 2 0)).ctlCtx 0) tVa true = .ok ⟨.reservoir, tAt⟩
    ∧ (((tS (cw 0xA1 1 2 0)).checked 0 .clean).clearPoison ⟨.reservoir, tAt⟩ 8).badBlock ⟨.reservoir, tAt⟩ 8 = none := by
  unfold State.ctlAt; decide
/-- STS stores s1 as eight little-endian bytes (R12). -/
theorem test_sts : (match exec (.sts 0 .clean) (tS (cw 0xA1 1 2 16)) with
    | .next t => memRead t.reservoir (tAt + 16) 9 | _ => []) = [7#8, 0#8, 0#8, 0#8, 0#8, 0#8, 0#8, 0#8, 0xFF#8] := by
  decide

/-- The waits whose condition holds, at its boundary: an event count of 0, no pump, no walk. -/
theorem witness_waits :
    (tS (ckw 0xC2 0 0 0 5)).ctlAt (0 : WellId) (ckw 0xC2 0 0 0 5) ∧ cKind (ckw 0xC2 0 0 0 5) = some .waitWalk
    ∧ (tS 0).waitWalkOk 0 0 false 5 = true ∧ (tS 0).waitWalkOk 0 0 true 0 = true
    ∧ cKind (ckw 0xC2 1 0 0 5) = some .waitEvent ∧ (((tS 0).well 0).cx.get 0).toNat ≤ (tS 0).event 0 0 5
    ∧ (tS 0).scratchOk 0 (eventAt ((tS 0).wellSlot 0) 5) = true
    ∧ cKind (ckw 0xC2 2 0 0 0x10000) = some .waitPump ∧ (tS 0).pumpsDone 0 true 0 = true
    ∧ cKind (ckw 0xC3 0 0 0 0) = some .fenceStore ∧ cKind (ckw 0xC3 1 0 0 0) = some .fenceWell
    ∧ (tS 0).wellDone 0 = true := by
  unfold State.ctlAt; decide
theorem witness_halt :
    (tS (ckw 0xCF 0 0 0 0)).ctlAt (0 : WellId) (ckw 0xCF 0 0 0 0) ∧ cKind (ckw 0xCF 0 0 0 0) = some .halt
    ∧ (tS 0).haltOk 0 = true ∧ ((tS 0).well 0).job = some 0 ∧ (tS 0).job 0 = some tJob ∧ tJob.status = none
    ∧ (∀ v ∈ tJob.wells, v = 0 ∨ ((tS 0).well v).ctl = .halted) := by
  unfold State.ctlAt; decide
/-- HALT of the only well ends the job with OK (R274). -/
theorem test_halt : (match exec (.halt 0 .clean) (tS (ckw 0xCF 0 0 0 0)) with
    | .next t => (t.job 0).map (fun x => (x.status, x.phase)) | _ => none) = some (some 0, .stopping) := by decide

/-- A walk of tag 5 under way, all pumps busy, and 64 requests at the migration engine. -/
def tBusy (i : Word) : State :=
  { tS i with
    walkRecs := [(5, { live := true, tag := 5, open_ := 1 })],
    pumps := (List.range 8).map (fun n => (n, { state := 1, job := 0, tag := 5 })),
    engine := { queue := List.replicate 64 { job := 0, part := 0, well := 0, op := 2, lo := 0, hi := 0 } } }

/-- Each control instruction whose condition does not hold. -/
theorem witness_stalls :
    (tBusy (ckw 0xC0 0 2 0 5)).ctlAt (0 : WellId) (ckw 0xC0 0 2 0 5) ∧ cKind (ckw 0xC0 0 2 0 5) = some .walk
    ∧ (tBusy 0).scratchOk 0 (wrecAt ((tBusy 0).wellSlot 0) 5) = true
    ∧ (tBusy 0).scratchOk 0 (eventAt ((tBusy 0).wellSlot 0) 5) = true
    ∧ (tBusy 0).walkReady 0 0 5 = false ∧ cKind (ckw 0xC2 0 0 0 5) = some .waitWalk
    ∧ (tBusy 0).waitWalkOk 0 0 false 5 = false ∧ cKind (ckw 0xC2 1 1 0 5) = some .waitEvent
    ∧ (tBusy 0).event 0 0 5 < (((tBusy 0).well 0).cx.get 1).toNat ∧ cKind (ckw 0xC2 2 0 0 5) = some .waitPump
    ∧ (tBusy 0).pumpsDone 0 false 5 = false ∧ cKind (ckw 0xC3 1 0 0 0) = some .fenceWell
    ∧ (tBusy 0).wellDone 0 = false ∧ cKind (ckw 0xC6 0 2 0 5) = some .pump ∧ (tBusy 0).freePumpNo 0 = none
    ∧ (tBusy 0).haltOk 0 = false := by
  unfold State.ctlAt; decide

/-- The controller of well 0 stalled in a wait. -/
def tStall (s : State) (wt : CtlWait) : State := s.stallCtl 0 wt

/-- A stalled controller whose condition has come to hold, for each release. -/
theorem witness_releases :
    ((tStall (tS 0) (.walk false 5)).well (0 : WellId)).ctl = .stalled
    ∧ ((tStall (tS 0) (.walk false 5)).well 0).cx.pc + 1 < ((tStall (tS 0) (.walk false 5)).well 0).plen
    ∧ (tStall (tS 0) (.walk false 5)).waitWalkOk 0 0 false 5 = true
    ∧ (tStall (tS 0) (.event 5 0 0)).scratchOk 0 (eventAt 0 5) = true
    ∧ (tStall (tS (ckw 0xC0 0 2 0 5)) (.walkAccept 0)).scratchOk 0 (wrecAt 0 5) = true
    ∧ (tStall (tS 0) (.event 5 0 0)).event 0 0 5 = 0 ∧ (tStall (tS 0) (.pump true 0)).pumpsDone 0 true 0 = true
    ∧ (tStall (tS 0) .fenceWell).wellDone 0 = true ∧ (tStall (tS 0) .halt).haltOk 0 = true
    ∧ (tStall (tS (ckw 0xC0 0 2 0 5)) (.walkAccept 0)).walkReady 0 0 5 = true
    ∧ (tStall (tS (ckw 0xC6 0 2 0 5)) .pumpAccept).freePumpNo 0 = some 0 := by decide
/-- FENCE PARTITION posted and decided OK. -/
def tFenced : State :=
  { tStall (tS 0) (.fencePart true) with
    decided := [{ job := some 0, fence := true, group := 0, k := 0, top := 0, shape := 0, status := 0 }] }
theorem witness_fence_release :
    (tFenced.well (0 : WellId)).cx.wait = .fencePart true ∧ tFenced.wellJob 0 = some (0, tJob)
    ∧ (tFenced.decisionOf true 0 ((tFenced.well 0).fences - 1) 0).isSome = true
    ∧ tFenced.fenceSettled 0 0 = true ∧ tFenced.wellDone 0 = true := by decide
/-- A limited stall one nanosecond past its limit of 100 ms, with its record still live. -/
def tLate (wt : CtlWait) : State := (tStall (tBusy (ckw 0xC0 0 2 0 5)) wt).setReg rPmTimebase 100000001#64
theorem witness_limits :
    ((tLate (.event 5 7 0)).well (0 : WellId)).cx.wait = .event 5 7 0
    ∧ ((tLate (.event 5 7 0)).well 0).ctl = .stalled ∧ (tLate (.event 5 7 0)).wellRuns (0 : WellId) = true
    ∧ (tLate (.event 5 7 0)).event 0 ((tLate (.event 5 7 0)).wellSlot 0) 5 < 7 ∧ ((tLate (.walkAccept 0)).well 0).ctl = .stalled
    ∧ 0 + (tLate (.event 5 7 0)).evtLimit 0 < (tLate (.event 5 7 0)).now
    ∧ bitOf ((tLate (.event 5 7 0)).reg (rWlCtlExc 0)) 63 = false
    ∧ ((tLate (.walkAccept 0)).wrec 0 ((tLate (.walkAccept 0)).wellSlot 0) 5).live = true
    ∧ 0 + (tLate (.walkAccept 0)).evtLimit 0 < (tLate (.walkAccept 0)).now
    ∧ (tLate (.walkAccept 0)).job 0 = some tJob ∧ tJob.status = none ∧ tJob.phase = .running := by decide

/-- An uncorrectable word, and the reserved encoding 0. -/
theorem witness_ctl_exc :
    ctlInstr (.halt 0 .uncorrectable) = some ((0 : WellId), .uncorrectable)
    ∧ (tS 0).ctlAt (0 : WellId) 0#64 ∧ bitOf ((tS 0).reg (rWlCtlExc 0)) 63 = false ∧ cKind 0#64 = none
    ∧ ((tS 0).well 0).job = some 0 ∧ tJob.status = none ∧ tJob.phase ≠ .committed := by
  unfold State.ctlAt; decide
/-- A reserved encoding ends the job with INTERNAL and is recorded as cause 0x5 (R277). -/
theorem test_ctl_reserved : (match exec (.halt 0 .clean) (tS 0) with
    | .next t => (t.fld (rWlCtlExc 0) 51 48, (t.job 0).bind Job.status) | _ => (0, none)) = (5, some 0x7F) := by decide

/-! ### Walks, stitches, pumps, collectives -/

/-- WL_CTL_STATUS and WL_DEQ_STAT read their reset values after reset, and a well in W2 reads as ones (R281, R325, R705). -/
theorem test_view :
    State.reset.regView 0 (rWlCtlStatus 3) = 0#64 ∧ State.reset.regView 0 (rWlDeqStat 3) = 0#64
    ∧ (State.reset.setWellPm 3 2).regView 0 (rWlCtlStatus 3) = 0xFFFFFFFFFFFFFFFF#64
    ∧ (State.reset.setReg rPmAlarm 0x8000000000000000#64).regView 0 rPmWake = 0x00FF0010#64 := by decide +kernel

/-- A WALK of the pricking at 2 MiB with argument 0 (s0) and tag 5. -/
theorem witness_walk :
    (tS (ckw 0xC0 0 2 0 5)).ctlAt (0 : WellId) (ckw 0xC0 0 2 0 5) ∧ cKind (ckw 0xC0 0 2 0 5) = some .walk
    ∧ (tS 0).wellJob 0 = some (0, tJob) ∧ (tS 0).scratchOk 0 (wrecAt ((tS 0).slotOf 0 0) 5) = true
    ∧ (tS 0).walkReady 0 0 5 = true ∧ tJob.pricks.contains tVa = true
    ∧ okB (do
        let pk ← (tS 0).readPricking (viaQ 0 ((tS 0).ctxOf 0)) tVa
        let last ← (tS 0).layerLast (viaQ 0 ((tS 0).ctxOf 0)) pk
        pure ((((tS 0).well 0).layer.join pk.guard last (.walk tVa 0 5)).isSome && decide (0 ≤ pk.argmax))) = true := by
  unfold State.ctlAt; decide +kernel
/-- A stitch descriptor of point 0 for record 5 of well 0, at 64 KiB behind the pricking; its walk is live. -/
def tEnq (i : Word) : State :=
  { tS i with
    reservoir := tPrick ++ tEnt (tAt + 65536) (5 * 2 ^ 58), walkRecs := [(5, { live := true, tag := 5, prick := tVa })],
    wells := [(0, { ctl := .running, plen := 2, job := some 0,
                    cx := { regs := [(1, 3#64), (2, BitVec.ofNat 64 (tVa + 65536))] } })] }
theorem witness_enq :
    (tEnq (ckw 0xC1 0 2 1 5)).ctlAt (0 : WellId) (ckw 0xC1 0 2 1 5) ∧ cKind (ckw 0xC1 0 2 1 5) = some .enqTo
    ∧ cKind (ckw 0xC1 1 2 0 5) = some .enqAny
    ∧ (tEnq 0).scratchOk 0 (wrecAt ((tEnq 0).slotOf 0 0) 5) = true
    ∧ (tEnq 0).enqDeque 0 (some 3) false = some (3, false) ∧ (tEnq 0).enqDeque 0 none false = some (0, true)
    ∧ okIs ((tEnq 0).readGuard64 ((tEnq 0).ctlCtx 0) (tVa + 65536)) (BitVec.ofNat 64 (5 * 2 ^ 58)) = true
    ∧ okB (do let p ← (tEnq 0).enqOk 0 0 5 0 (BitVec.ofNat 64 (5 * 2 ^ 58)) 1; pure p.isSome) = true := by
  unfold State.ctlAt; decide +kernel
/-- ENQ_TO places the stitch on the deque that RB names (R267, R313). -/
theorem test_enq : (match exec (.enqTo 0 .clean) (tEnq (ckw 0xC1 0 2 1 5)) with
    | .next t => ((t.deque 0 3).map DeqEntry.val, (t.wrec 0 0 5).open_) | _ => ([], 9))
    = ([BitVec.ofNat 64 (5 * 2 ^ 58)], 1) := by decide +kernel

/-- Behind the pricking: an FP32 descriptor of one row of four elements at 3000H, whose elements lie at 40000H; the record of
a FILL ZERO of that row at 5000H; a FILL of 16 bytes at 6000H. -/
def tData : Mem :=
  tPrick ++ tWords (tAt + 0x3000) [8 * 2 ^ 60 + tVa + 0x40000, 0, 0, 4 * 2 ^ 32 + 1]
    ++ tWords (tAt + 0x5000) [0x4F * 2 ^ 56, 2 ^ 32 + 4, tVa + 0x3000]
    ++ tWords (tAt + 0x6000) [2 * 2 ^ 56, tVa + 0x50000, 2 ^ 32 + 16]
/-- The memories of the tests are canonical. -/
theorem test_memory : tData.wf = true := by decide +kernel
/-- That record and that descriptor. -/
def tOp : List Word := [BitVec.ofNat 64 (0x4F * 2 ^ 56), BitVec.ofNat 64 (2 ^ 32 + 4), BitVec.ofNat 64 (tVa + 0x3000)]
  ++ List.replicate 13 0#64
def tTd : List Word := [BitVec.ofNat 64 (2 * 2 ^ 56), BitVec.ofNat 64 (tVa + 0x50000), BitVec.ofNat 64 (2 ^ 32 + 16),
  0#64, 0#64, 0#64, 0#64, 0#64]
/-- The job with those bytes, its controller's s1 at the descriptor, s2 at the record, s3 = 16. -/
def tM (i : Word) : State :=
  { tS i with
    reservoir := tData, jobs := [{ tJob with ops := [tVa + 0x5000] }],
    wells := [(0, { ctl := .running, plen := 2, job := some 0,
                    cx := { regs := [(1, BitVec.ofNat 64 (tVa + 0x6000)), (2, BitVec.ofNat 64 (tVa + 0x5000)), (3, 16#64)] } })] }

/-- PUMP of a transfer descriptor that is not refused, and of an operation record of the job. -/
theorem witness_pump :
    (tM (ckw 0xC6 0 1 0 5)).ctlAt (0 : WellId) (ckw 0xC6 0 1 0 5) ∧ cKind (ckw 0xC6 0 1 0 5) = some .pump
    ∧ (tM 0).freePumpNo 0 = some 0 ∧ okIs ((tM 0).readWords ((tM 0).cuCtx 0 0) (tVa + 0x6000) 8) tTd = true
    ∧ tdRefused (tVa + 0x6000) tTd = false ∧ okIs ((tM 0).readWord ((tM 0).cuCtx 0 0) (tVa + 0x5000)) (BitVec.ofNat 64 (0x4F * 2 ^ 56)) = true
    ∧ okIs ((tM 0).readWords ((tM 0).cuCtx 0 0) (tVa + 0x5000) 16) tOp = true ∧ okIs ((tM 0).opGuardEntry ((tM 0).cuCtx 0 0) tOp) none = true
    ∧ okIs ((tM 0).opLast ((tM 0).cuCtx 0 0) tOp 0#64) 0 = true
    ∧ okE ((tM 0).startOp 0 0 0 (tVa + 0x5000) 5 tOp none 0) = true := by
  unfold State.ctlAt; decide +kernel
/-- PUMP starts pump 0 (R271). -/
theorem test_pump : (match exec (.pumpStart 0 .clean) (tM (ckw 0xC6 0 1 0 5)) with
    | .next t => ((t.pump 0 0).state, (t.pump 0 0).tag, t.fld (rWlPumpStat 0) 0 0) | _ => (0, 0, 0)) = (1, 5, 1) := by
  decide +kernel

/-- A pump that runs that FILL, one unit issued or in flight, or suspended; and one that issues the operation's item. -/
def tPumps (p : Pump) : State := { tM 0 with pumps := [(0, p)] }
def tFill : Pump := { state := 1, job := 0, tag := 5, words := tTd }
theorem witness_units :
    tFill.state = 1 ∧ tFill.op = none ∧ (tPumps tFill).mayIssue 0 = true ∧ tFill.issued < tdUnits tTd
    ∧ tFill.flight.length < 16 ∧ tdKind tTd = 2
    ∧ okE ((tPumps { tFill with issued := 1, flight := [0] }).moveUnit ((tM 0).cuCtx 0 0) tTd 0) = true
    ∧ (tPumps { tFill with issued := 1, flight := [0] }).missing 0 136 = false ∧ unguard64 ({ tFill with gmark := guard64 0#64 } : Pump).gmark = some 0#64
    ∧ tdUnits tTd ≤ raiseMark 2 0 ([] ++ [0]) ∧ raiseMark 2 0 [1] < tdUnits tTd
    ∧ (tM 0).scratchOk 0 (markAt ((tM 0).slotOf 0 0) tFill.no) = true
    ∧ ({ tM 0 with susp := [(0, [{ tFill with state := 2, gmark := guard64 0#64 }])] } : State).suspended 0 0 = [{ tFill with state := 2, gmark := guard64 0#64 }] := by
  decide +kernel
/-- A unit of a COPY, kind 1. -/
theorem witness_copy_kind : tdKind [BitVec.ofNat 64 (2 ^ 56)] = 1 := by decide

/-- MIG of a request with room, at its boundary: one request below 64; and with 64. -/
theorem witness_mig :
    (tS (ckw 0xC7 2 1 2 0)).ctlAt (0 : WellId) (ckw 0xC7 2 1 2 0) ∧ cKind (ckw 0xC7 2 1 2 0) = some .migPin
    ∧ migInstr (.migPin 0 .clean) = some ((0 : WellId), .clean, .migPin, 2)
    ∧ ({ tBusy 0 with engine := { (tBusy 0).engine with queue := (tBusy 0).engine.queue.take 63 } } : State).migCount 0 < 64
    ∧ 64 ≤ (tBusy 0).migCount ((tBusy 0).ctxOf 0) := by
  unfold State.ctlAt; decide

/-- COLL BARRIER, and COLL SUM of one FP32 value, at level 0; a decision already written at the well. -/
theorem witness_coll :
    (tM (ckw 0xC5 0 0 0 0)).ctlAt (0 : WellId) (ckw 0xC5 0 0 0 0) ∧ cKind (ckw 0xC5 0 0 0 0) = some .collBarrier
    ∧ collInstr (.collBarrier 0 .clean) = some ((0 : WellId), .clean, .collBarrier)
    ∧ (tM 0).decisionOf false 0 0 0 = none ∧ bitsOf (ckw 0xC5 0 0 0 0) 34 32 = 0 ∧ (tM 0).colls.length < 256
    ∧ cKind (ckw 0xC5 1 1 2 0) = some .collSum
    ∧ (tVa + 0x6000) % shapeWidth (collShape (ckw 0xC5 1 1 2 0)) = 0
    ∧ okE ((tM 0).collRead ((tM 0).ctlCtx 0) (tVa + 0x6000) (tVa + 0x5000) (collShape (ckw 0xC5 1 1 2 0))) = true
    ∧ (({ tM 0 with decided := [{ job := some 0, fence := false, group := 0, k := 0, top := 0, shape := 0, status := 0, written := [0] }] } : State).decisionOf
        false 0 0 0).isSome = true := by
  unfold State.ctlAt; decide +kernel
/-- A barrier of a partition of one well completes at once (R657). -/
theorem test_barrier : (match exec (.collBarrier 0 .clean) (tM (ckw 0xC5 0 0 0 0)) with
    | .next t => (t.decided.map Decision.status, t.colls.length) | _ => ([], 9)) = ([0], 0) := by decide +kernel
theorem witness_fence_part :
    (tM (ckw 0xC3 2 0 0 0)).ctlAt (0 : WellId) (ckw 0xC3 2 0 0 0) ∧ cKind (ckw 0xC3 2 0 0 0) = some .fencePart
    ∧ (tM 0).wellDone 0 = true ∧ (tBusy 0).wellDone 0 = false := by
  unfold State.ctlAt; decide
/-- A checkpoint list at 2 MiB + 7000H: two areas of 1 MiB and no region. -/
def tCpMem : Mem :=
  tData ++ tEnt (tAt + 0x7000) (2 ^ 56 + tVa + 2 ^ 21) ++ tEnt (tAt + 0x7010) (tVa + 2 ^ 22) ++ tEnt (tAt + 0x7020) (2 ^ 32)
    ++ tEnt (tAt + 0x7030) 0
theorem witness_checkpoint :
    (tM (ckw 0xC4 0 0 2 0)).ctlAt (0 : WellId) (ckw 0xC4 0 0 2 0) ∧ cKind (ckw 0xC4 0 0 2 0) = some .checkpoint
    ∧ okB (do
        let ws ← ({ tM 0 with reservoir := tCpMem } : State).cpWords ((tM 0).ctlCtx 0) (tVa + 0x7000)
        pure (parseCpList (tVa + 0x7000) ws).isSome) = true
    ∧ (∀ v ∈ tJob.wells, ∀ pass list, ((tM 0).well v).ctl = .stalled →
        ((tM 0).well v).cx.wait = .checkpoint pass list → pass = 0) := by
  unfold State.ctlAt
  refine ⟨by decide, by decide, by decide +kernel, ?_⟩
  intro v hv pass list h
  simp [tJob] at hv
  subst hv
  exact absurd h (by decide)
/-- Instances past their deadline: one of level 0, one with an upward stage, one whose grace has passed. -/
def tLateColl (c : Coll) : State := { tM 0 with colls := [c] }.setReg rPmTimebase 100000000#64
def tColl : Coll := { job := some 0, fence := false, group := 0, k := 0, top := 0, shape := 0, started := some 0, deadline := 100000000,
                      grace := 10000000 }
theorem witness_late_coll :
    0 + tColl.deadline ≤ (tLateColl tColl).now ∧ tColl.aborted = none
    ∧ ((({ tLateColl { tColl with top := 1 } with regs := (tLateColl tColl).regs } : State).setReg (rCoGrpLa 0)
        (BitVec.ofNat 64 (2 * 2 ^ 25 + 2 ^ 18 + 5))).upStage 0 1).isSome = true
    ∧ 90000000 + tColl.grace ≤ (tLateColl { tColl with aborted := some 90000000 }).now := by decide

/-- The walker's head walk: a walk of the pricking whose one loop point is still to come, and one that is done. -/
def tWalk (wk : Walk) : State :=
  { tM 0 with
    walkRecs := [(5, { live := true, job := 0, prick := tVa, tag := 5 })],
    wells := [(0, { ctl := .running, plen := 2, job := some 0, walks := [wk] })] }
theorem witness_walker :
    (tWalk { slot := 0, wrec := 5 }).wellJob 0 = some (0, { tJob with ops := [tVa + 0x5000] })
    ∧ (tWalk { slot := 0, wrec := 5 }).scratchOk 0 (wrecAt 0 5) = true
    ∧ okB (do
        let pk ← (tWalk { slot := 0, wrec := 5 }).readPricking (viaQ 0 ((tM 0).ctxOf 0)) tVa
        pure (decide ((tWalk { slot := 0, wrec := 5 }).visit (viaQ 0 ((tM 0).ctxOf 0)) pk 0 0 1 visitFuel false [] = .point [(1, 0)])
          && decide ((tWalk { slot := 0, wrec := 5 }).visit (viaQ 0 ((tM 0).ctxOf 0)) pk 0 0 1 visitFuel true [(1, 0)] = .done)
          && ((tWalk { slot := 0, wrec := 5 }).nextDeque 0 pk.border).isSome)) = true 
    ∧ (tWalk { slot := 0, wrec := 5 }).missing 0 145 = false := by decide +kernel
/-- The walker places its one stitch on deque 0 (R292, R314). -/
theorem test_walker : (match exec (.walkerPlaceStitch 0) (tWalk { slot := 0, wrec := 5 }) with
    | .next t => ((t.deque 0 0).map DeqEntry.val, (t.wrec 0 0 5).open_) | _ => ([], 9)) = ([BitVec.ofNat 64 (5 * 2 ^ 58)], 1) := by
  decide +kernel

/-! ### Bobbins -/

/-- Bobbin 0 of well 0 runs r, the word of whose template at its place is i. -/
def tRun : Run := { b := { tmpl := tVa + 0x8000, wrec := 5, prick := tVa }, pil := { c := some f32One } }
def tBob (i : Nat) (r : Run) : State :=
  { tM 0 with
    reservoir := tData ++ tWords (tAt + 0x8000) [0, i], bobs := [(0, { run := some r, powered := true, admitted := true })] }

/-- ADDV and MMA with c known, each over data that the pillow holds (R207, R232); LDT's operands are read from memory. -/
theorem witness_tile :
    (tBob (0x10 * 2 ^ 56 + 0x81 * 2 ^ 48) tRun).bobAt (0 : WellId) (0 : PhysId) tRun (BitVec.ofNat 64 (0x10 * 2 ^ 56 + 0x81 * 2 ^ 48))
    ∧ tDecode (BitVec.ofNat 64 (0x10 * 2 ^ 56 + 0x81 * 2 ^ 48)) = some .addv ∧ tRun.pil.c.isSome = true
    ∧ (tileInstr (.epiAddv 0 0 .clean)).map (fun x => x.2.2.2.1) = some .addv
    ∧ okE (State.addv 0 ((tBob 0 tRun).metBlock .clean) tRun (BitVec.ofNat 64 (0x10 * 2 ^ 56 + 0x81 * 2 ^ 48))) = true
    ∧ TKind.addv.epilogue = true ∧ TKind.addv.borderOnly = false := by
  unfold State.bobAt; decide +kernel
/-- An epilogue on accumulator slot 0, already scaled. -/
theorem witness_addv :
    (∀ n ∈ (tRun.vec (BitVec.ofNat 64 (0x10 * 2 ^ 56 + 0x81 * 2 ^ 48))).set, n < 16 ∧ (0xFFFF#16).getLsbD n = true)
    ∧ okE (State.addv 0 (tBob 0 tRun) { tRun with pil := { tRun.pil with scaled := 0xFFFF#16 } }
        (BitVec.ofNat 64 (0x10 * 2 ^ 56 + 0x81 * 2 ^ 48))) = true := by decide +kernel
theorem witness_mma :
    (tBob (0x08 * 2 ^ 56) tRun).bobAt (0 : WellId) (0 : PhysId) tRun (BitVec.ofNat 64 (0x08 * 2 ^ 56))
    ∧ tDecode (BitVec.ofNat 64 (0x08 * 2 ^ 56)) = some .mma ∧ tRun.pil.c = some f32One
    ∧ okE (State.mma 0 (tBob 0 tRun) tRun (BitVec.ofNat 64 (0x08 * 2 ^ 56))) = true := by
  unfold State.bobAt; decide +kernel
/-- The control instructions: ZCLR, SMX INIT, GUARD, SIG, WAITS (whose count 0 is reached, and 1 is not) and END. -/
theorem witness_bobbin_control :
    (tBob (0x20 * 2 ^ 56 + 1) tRun).bobAt (0 : WellId) (0 : PhysId) tRun (BitVec.ofNat 64 (0x20 * 2 ^ 56 + 1))
    ∧ tDecode (BitVec.ofNat 64 (0x20 * 2 ^ 56 + 1)) = some .sig
    ∧ (tBob 0 tRun).storesDone 0 0 tRun = true ∧ (tBob 0 tRun).reqsDone tRun = true
    ∧ tDecode (BitVec.ofNat 64 (0x09 * 2 ^ 56 + 1)) = some .zclr ∧ tDecode (BitVec.ofNat 64 (0x13 * 2 ^ 56 + 8 * 2 ^ 52)) = some (.smx 0)
    ∧ tDecode (BitVec.ofNat 64 (0x28 * 2 ^ 56 + 8 * 2 ^ 52)) = some .guard ∧ tDecode (BitVec.ofNat 64 (0x21 * 2 ^ 56 + 1)) = some .waits
    ∧ (tBob 0 tRun).scratchOk 0 (eventAt 0 0) = true
    ∧ bitsOf (BitVec.ofNat 64 (0x21 * 2 ^ 56)) 31 0 ≤ (tBob 0 tRun).event 0 0 0
    ∧ (tBob 0 tRun).event 0 0 0 < bitsOf (BitVec.ofNat 64 (0x21 * 2 ^ 56 + 1)) 31 0
    ∧ tDecode (BitVec.ofNat 64 (0x3F * 2 ^ 56)) = some .end_ ∧ tRun.endCounts.over tRun.b.guard = false := by
  unfold State.bobAt; decide +kernel
/-- SIG raises the home event of its stitch (R250). -/
theorem test_sig : (match exec (.sig 0 0) (tBob (0x20 * 2 ^ 56 + 3 * 2 ^ 32 + 2) tRun) with
    | .next t => t.event 0 0 3 | _ => 9) = 2 := by decide +kernel
/-- SIG of a counter in a poisoned block ends the job with TIER_ERROR and raises no event (R399, R423). -/
theorem test_scratch :
    (match exec (.sig 0 0) ((tBob (0x20 * 2 ^ 56 + 3 * 2 ^ 32 + 2) tRun).setPoison ⟨.cistern 0, eventAt 0 0⟩) with
    | .next t => (t.event 0 0 3, (t.job 0).bind Job.status, t.fld (rWlCisErr 0) 61 59) | _ => (9, none, 9))
      = (0, some 0x30, 4) := by decide +kernel
/-- An attempt whose one clamp exceeds the threshold 0, below its last rung, under stitch scope. -/
def tHot : Run := { tRun with counts := { clamp := 1 }, b := { tRun.b with dlast := 1 } }
theorem witness_replay :
    tHot.endCounts.over tHot.b.guard = true ∧ tHot.rung < tHot.b.dlast ∧ guardScope tHot.b.guard = 0
    ∧ (tBob 0 tHot).job tHot.b.job = some { tJob with ops := [tVa + 0x5000] } := by decide +kernel
/-- END replays that attempt one rung up (R121). -/
theorem test_replay : (match exec (.endOp 0 0) (tBob (0x3F * 2 ^ 56) tHot) with
    | .next t => ((t.bob 0 0).run.map Run.rung, (t.job 0).map Job.widened) | _ => (none, none)) = (some 1, some true) := by
  decide +kernel
/-- The reserved word 0, and BAS on a regular bobbin. -/
theorem witness_reserved :
    tDecode 0#64 = none ∧ tDecode (BitVec.ofNat 64 (0x10 * 2 ^ 56 + 0x88 * 2 ^ 48)) = some .bas ∧ TKind.bas.borderOnly = true
    ∧ isBorder 17 = false ∧ isBorder 16 = true ∧ bitOf ((tBob 0 tRun).reg (rWlBobExc 0)) 63 = false
    ∧ tileKind (.epiBas 0 17 .clean) = some ((0 : WellId), (17 : PhysId), .bas) := by decide +kernel
/-- A WAITS whose event has come, and one a nanosecond past its limit. -/
def tWaits (n : Nat) : State :=
  (tBob 0 { tRun with waits := some (3, n, 0) }).setReg rPmTimebase 100000001#64
theorem witness_waits_end :
    0 ≤ (tWaits 0).event 0 0 3 ∧ (tWaits 0).scratchOk 0 (eventAt 0 3) = true
    ∧ (tWaits 1).event 0 0 3 < 1 ∧ ((tWaits 1).job 0).map Job.phase = some .running ∧ 0 + (tWaits 1).evtLimit (0 : WellId) < (tWaits 1).now
    ∧ bitOf ((tWaits 1).reg (rWlEvtStat (0 : WellId))) 63 = false
    ∧ ((tWaits 1).bob 0 0).run = some { tRun with waits := some (3, 1, 0) } := by decide +kernel

/-- Bobbin 0 idle, with the stitch of point 0 at the head of its deque, or at the tail of deque 1. -/
def tEntry : DeqEntry := { gw := guard64 (BitVec.ofNat 64 (5 * 2 ^ 58)) }
def tIdle (l : Nat) : State :=
  { tM 0 with
    bobs := [(0, { powered := true, admitted := true })], deques := [(l, [tEntry])],
    walkRecs := [(5, { live := true, tag := 5, prick := tVa, open_ := 1 })] }
theorem witness_take :
    (tIdle 0).idleBob (0 : WellId) (0 : PhysId) = true ∧ (tIdle 0).wellRuns (0 : WellId) = true
    ∧ (tIdle 0).logOf 0 0 = 0 ∧ (tIdle 0).takeFrom 0 0 = some 0 ∧ (tIdle 0).foreignRoom 0 tEntry = true
    ∧ eligible 0 tEntry = true ∧ (tIdle 0).scratchOk 0 (wrecAt ((tIdle 0).slotOf 0 0) 5) = true
    ∧ sdHome (BitVec.ofNat 64 (5 * 2 ^ 58)) = 0 ∧ sdWrec (BitVec.ofNat 64 (5 * 2 ^ 58)) = 5
    ∧ unguard64 tEntry.gw = some (BitVec.ofNat 64 (5 * 2 ^ 58))
    ∧ okE ((((tIdle 0).setDeque 0 0 []).setBob 0 0 { powered := true, admitted := true, run := some { b := { entry := tEntry, job := 0 } } }).bindStitch
        0 0 tEntry (BitVec.ofNat 64 (5 * 2 ^ 58))) = true := by decide +kernel
/-- The thief probes deque 1 first: empty, and with an entry it may take. -/
theorem witness_probe :
    (tIdle 1).deque 0 ((tIdle 1).logOf 0 0) = [] ∧ ((tIdle 1).bob 0 0).swept = false ∧ (tIdle 1).fld (rWlStealCtl 0) 0 0 = 1
    ∧ ((0 + ((tIdle 1).bob 0 0).probes + 1) % 128 = 1) ∧ ((tIdle 1).deque 0 1).getLast? = some tEntry
    ∧ (eligible 0 tEntry && (tIdle 1).foreignRoom 0 tEntry) = true
    ∧ ((tIdle 2).deque 0 1).getLast? = none := by decide +kernel
/-- Sixteen idle bobbins on well 0 without work, 32 entries on well 1 of the same job; and no victim. -/
def tCross (n : Nat) : State :=
  { tM 0 with
    jobs := [{ tJob with wells := [0, 1], slots := [0, 0] }],
    bobs := (List.range 16).map (fun p => (p, { powered := true, admitted := true })),
    deques := [(128, List.replicate n tEntry)] }
theorem witness_cross :
    (tCross 32).wellRuns (0 : WellId) = true ∧ (tCross 32).queued (0 : WellId) = 0
    ∧ 16 ≤ ((tCross 32).idleLogs (0 : WellId)).length ∧ (tCross 32).fld (rWlStealCtl (0 : WellId)) 1 1 = 1
    ∧ (tCross 32).victim (0 : WellId) = some 1 ∧ (tCross 31).victim (0 : WellId) = none := by decide +kernel

/-- A store entry of eight bytes at the head of its queue. -/
def tStore : State :=
  { tM 0 with bobs := [(0, { storeQ := [{ id := 1, instr := 0, va := tVa + 0x9000, data := leBytes 8 77, job := 0 }] })] }
theorem witness_store :
    (tStore.bob (0 : WellId) (0 : PhysId)).storeQ.length = 1 ∧ tStore.missing 0 0 = false
    ∧ ((tStore.bob 0 0).storeQ.head?.map (fun e =>
        !tStore.reqOverlap (((tStore.bob 0 0).reqsOf e.id).filter (· < e.id)) [(e.va, e.data.length)]
        && okE (tStore.drain (viaQ 0 (tStore.ctxOf e.job)) e))) = some true := by decide +kernel
/-- A stitch that left bobbin 0 with nothing outstanding. -/
def tLeft : Leaving :=
  { entry := tEntry, job := 0, home := 0, slot := 0, wrec := 5, prick := tVa, point := [0], lastStore := 0, reqs := [] }
theorem witness_leave :
    (({ leaving := [tLeft] } : Bobbin).leaving.find? ((tIdle 0).allVisible { leaving := [tLeft] })) = some tLeft
    ∧ (tIdle 0).scratchOk tLeft.home (wrecAt tLeft.slot tLeft.wrec) = true := by
  decide +kernel

/-- Bobbin states: 0 IN_USE, 16 SPARE after reset; 3 FENCED with its test passed; 4 TESTING under a busy command. -/
def tFence : State :=
  { State.reset.setBobState 0 3 2 with bobs := [(3, { passedTest := true })] }
def tTest : State := ((State.reset.setBobState 0 4 3).setReg (rWlBobCmd 0) (BitVec.ofNat 64 (2 ^ 31 + 4 * 2 ^ 8)))
theorem witness_bob_cmd :
    tFence.bobState (0 : WellId) 0 = 0 ∧ tFence.fld (rWlBobCmd 0) 31 31 = 0 ∧ tFence.bobState 0 3 = 2
    ∧ (tFence.bob 0 3).passedTest = true ∧ tFence.bobState 0 16 ≠ 2 ∧ 135 < 136 ∧ tTest.bobState 0 4 = 3
    ∧ tTest.fld (rWlBobCmd 0) 31 31 = 1 ∧ tTest.fld (rWlBobCmd 0) 15 8 = 4 := by decide +kernel
/-- A vacant number beside the spares of reset, on a quiet well; the first group's steps are due at once, the last group's
14 µs and 56 µs after the start. -/
theorem witness_mapping :
    (State.reset.setPhys 0 0 0xFF).wellQuiet (0 : WellId) = true
    ∧ ((State.reset.setPhys 0 0 0xFF).vacancy (0 : WellId)).isSome = true
    ∧ (({ wells := [(0, { exitAt := some 0, rampAt := some 0 })] } : State).well (0 : WellId)).exitAt = some 0
    ∧ 0 + 2000 * (7 : Fin 8).val ≤ (State.reset.setReg rPmTimebase 14000#64).now
    ∧ 0 + 8000 * (7 : Fin 8).val ≤ (State.reset.setReg rPmTimebase 56000#64).now := by decide +kernel

/-! ### Cistern units, layers, migration and translation -/

/-- The operation of the job under way as number 1 on pump 0, some of its items issued or done, and unit 7 with queue q. -/
def tCu (issued done_ : Nat) (u : CuUnit) : State :=
  { tM 0 with
    ops := [(1, { job := 0, well := 0, words := tOp, total := 1, issued := issued, done_ := done_ })], nextId := 2,
    pumps := [(0, { state := 1, job := 0, op := some 1 })], units := [(7, u)] }
theorem witness_unit_works :
    cuInstr (.cuFillZero 0 7) = some ((0 : WellId), (7 : Fin 64), 0x4F, 0, fun _ => fillZero)
    ∧ ((tCu 1 0 { opQ := [.op 1 0] }).unit 0 7).cur = none
    ∧ ((tCu 1 0 { opQ := [.op 1 0] }).unit 0 7).next = some (.op 1 0, { turn := 2 })
    ∧ okIs ((tCu 1 0 {}).opGuardEntry ((tCu 1 0 {}).cuCtx 0 0) tOp) none = true ∧ (tCu 1 0 {}).missing 0 (146 + 7) = false
    ∧ (∃ a, (tCu 1 0 {}).cuArg 1 0 { job := 0, well := 0, words := tOp, total := 1, issued := 1 } = .ok a)
    ∧ okB (do
        let a ← (tCu 1 0 {}).cuArg 1 0 { job := 0, well := 0, words := tOp, total := 1, issued := 1 }
        let _ ← fillZero (tCu 1 0 {}) a
        pure true) = true :=
  ⟨rfl, by decide +kernel, by decide +kernel, by decide +kernel, by decide +kernel, ⟨_, rfl⟩, by decide +kernel⟩
/-- FILL ZERO of a row of four FP32 elements writes sixteen zero bytes over ones (R408). -/
theorem test_fill_zero :
    (match exec (.cuFillZero 0 7) ((tCu 1 0 { opQ := [.op 1 0] }).rawWrite ⟨.reservoir, tAt + 0x40000⟩ (List.replicate 17 1#8)) with
    | .next t => memRead t.reservoir (tAt + 0x40000) 17 | _ => []) = List.replicate 16 0#8 ++ [1#8] := by decide +kernel
theorem witness_item_issue :
    ((tCu 0 0 {}).pump 0 0).state = 1 ∧ ((tCu 0 0 {}).pump 0 0).op = some 1 ∧ (tCu 0 0 {}).mayIssue 0 = true
    ∧ okB (do
        let op : OpRun := { job := 0, well := 0, words := tOp, total := 1 }
        let a ← (tCu 0 0 {}).cuArg 1 0 op
        let x := (tCu 0 0 {}).unit 0 ((tCu 0 0 {}).itemUnit 0 op a)
        pure (decide (x.outstanding 1 < 8 ∧ x.opQ.length < 8))) = true := by decide +kernel
/-- The last item of an operation, one before it, and a row of a request that writes nothing. -/
theorem witness_item_complete :
    ((tCu 1 0 { cur := some (.op 1 0, 0, 0) }).unit 0 7).cur = some (.op 1 0, 0, 0) ∧ 1 ≤ 0 + 1
    ∧ (tCu 1 0 {}).pumpOf 0 1 = some 0
    ∧ (({} : CuUnit).setQueue 0 [.bob 3 0]).next = some (.bob 3 0, { turn := 1 })
    ∧ okB ((({ (tCu 1 0 {}) with reqs := [(3, { well := 0, phys := 0, job := 0, gat := true, fmt := .fp32, dst := {}, dstK := 0, rows := [none], left := 1 })] } : State).bobRow
        { well := 0, phys := 0, job := 0, gat := true, fmt := .fp32, dst := {}, dstK := 0, rows := [none], left := 1 } 0).map (fun _ => true)) = true
    ∧ (0 : Nat) + 1 < 2 ∧ (tCu 1 0 {}).scratchOk 0 (markAt ((tCu 1 0 {}).slotOf 0 0) 0) = true := by decide +kernel
/-- COMPLETE of the only item ends the operation and frees its pump (R413, R455). -/
theorem test_item_complete :
    (match exec (.cuItemComplete 0 7) (tCu 1 0 { cur := some (.op 1 0, 0, 0) }) with
    | .next t => (t.ops.length, (t.pump 0 0).state, t.fld (rWlPumpStat 0) 0 0) | _ => (9, 9, 9)) = (0, 0, 0) := by
  decide +kernel

/-- A pricking at 2 MiB + A000H with one split level of one canonical split, whose template at B000H stores one row of 32
elements through its one register. -/
def tSplitMem : Mem :=
  tPt ++ tWords (tAt + 0x3000) [8 * 2 ^ 60 + tVa + 0x40000, 0, 0, 4 * 2 ^ 32 + 1] ++ ([0, tVa + 0xB000, 0, 2 ^ 35 + 2 ^ 34, tVa + 0x3000, 0, 0, 0, 0, 0, 0].zipIdx).flatMap
      (fun e => tEnt (tAt + 0xA000 + 16 * e.2) e.1)
    ++ tWords (tAt + 0xB000) [2 ^ 40, 2 * 2 ^ 56 + 8 * 2 ^ 52]
def tTrack : SplitTrack := { job := 0, prick := tVa + 0xA000, arg := 0, tag := 5, home := some 0, point := [], need := 1,
                             members := [(0, 5)], done := [0] }
def tSplit : State := { tS 0 with reservoir := tSplitMem, splits := [tTrack] }
def tComb : Comb :=
  { src := { base := tVa + 0x40000, kext := 4, rows := 1 }, dst := { base := tVa + 0x50000, kext := 4, rows := 1 },
    r0 := 0, k0 := 0, parts := [(0, 0)], rects := [(0, 0, 1, 4)] }
theorem witness_split :
    tSplit.openComb 0 = none ∧ (tSplit.readyHere 0 0 tJob).any (fun r => okB (r.map (fun y => decide (y.1 = tTrack)))) = true
    ∧ okB (do
        let pk ← tSplit.readPricking (viaQ 0 (tSplit.ctxOf 0)) tTrack.prick
        let c ← tSplit.combOf (viaQ 0 (tSplit.ctxOf 0)) tTrack tJob pk (tJob.rank 0)
        match c with
        | none => pure false
        | some c => pure (decide (tTrack.runner tJob pk = 0 ∧ c.rects = [(0, 0, 1, 32)] ∧ c.rows.length = 1))) = true
    ∧ okE ((tS 0).combRow ((tS 0).cuCtx 0 0) 0 tComb 0) = true
    ∧ (({} : CuUnit).setQueue 2 [.comb 3 0]).next = some (.comb 3 0, { turn := 0 }) ∧ (tS 0).missing 0 146 = false := by decide +kernel
/-- The last block of a cistern, and a cache size written to a well without a job. -/
theorem witness_upkeep :
    64 * (5 * 2 ^ 24 - 1) < cisternSize ∧ cisternSize ≤ 64 * (5 * 2 ^ 24) ∧ bitOf (State.reset.reg (rWlCisErr 0)) 63 = false ∧ (State.reset.well 0).job = none
    ∧ (State.reset.setReg (rWlCisSplit 0) 24#64).fld (rWlCisSplit 0) 4 4 = 1 := by decide
/-- An uncorrectable block is counted, poisoned and recorded (R399). -/
theorem test_cistern_scrub : (match exec (.cisternPatrolScrub 0 5 .uncorrectable) State.reset with
    | .next t => (t.fld (rWlCisEcc 0) 31 16, t.fld (rWlCisErr 0) 32 0, tabGet false t.poison (blockKey ⟨.cistern 0, 320⟩))
    | _ => (0, 0, false)) = (1, 320, true) := by decide

/-- A well whose controller has ended with a layer of one walk that triggered, or did not, and may go up to rung l. -/
def tLayer (hits : Nat) (l : Nat) : State :=
  { tM 0 with
    wells := [(0, { ctl := .halted, plen := 2, job := some 0,
                    layer := { guard := some 0#64, items := [.walk tVa 0 5], hits := hits, last := l } })] }
def tLayerJob : Job := { tJob with ops := [tVa + 0x5000] }
theorem witness_layer :
    (tLayer 2 1).layerEnds tLayerJob = true ∧ (tLayer 2 1).layersSettled 0 = false
    ∧ (∃ w ∈ tLayerJob.wells, 0 < ((tLayer 2 1).well w).layer.hits + ((tLayer 2 1).well w).layer.cuHits) ∧ tLayerJob.layerRung < 1 ∧ tLayerJob.wells.Nodup
    ∧ ((tLayerJob.wells.map (fun w => ((tLayer 2 1).well w).layer)).filter (fun l => !l.items.isEmpty)).foldl
        (fun n l => min n l.last) 3 = 1
    ∧ (tLayer 2 0).layerEnds tLayerJob = true ∧ (tLayer 2 0).layersSettled 0 = false
    ∧ ((tLayerJob.wells.map (fun w => ((tLayer 2 0).well w).layer)).filter (fun l => !l.items.isEmpty)).foldl
        (fun n l => min n l.last) 3 = 0
    ∧ (tLayer 2 1).job 0 = some tLayerJob := by decide +kernel

/-- A write through the leaf of the tests, of one byte and of a whole 64 KiB page. -/
theorem witness_store_va :
    (tS 0).translate 0 tVa true = .ok ⟨.reservoir, tAt⟩ ∧ (tS 0).translate 0 tVa false = .ok ⟨.reservoir, tAt⟩
    ∧ okE ((tS 0).writeVa 0 (tVa + 65535) [7#8]) = true ∧ tVa % 65536 + 65536 ≤ 65536 := by decide
/-- A move of a 64 KiB page to 8 MiB, draining or copying, with seven copies already running. -/
def tMove (c : Bool) : Move :=
  { job := 0, va := tVa, at_ := 16, size := 2 ^ 16, src := ⟨.reservoir, tAt⟩, dst := ⟨.reservoir, 2 ^ 23⟩, copying := c }
theorem witness_move :
    ({ tS 0 with engine := { moves := List.replicate 7 (tMove true) ++ [tMove false] } } : State).engine.moves[7]? = some (tMove false)
    ∧ ({ tS 0 with engine := { moves := List.replicate 7 (tMove true) ++ [tMove false] } } : State).movePump.isSome = true
    ∧ okE ((tS 0).leafGet 16) = true
    ∧ okE ((tS 0).copyJudge tVa (tMove true).src (tMove true).dst (tMove true).size) = true ∧ (tMove true).at_ + 16 ≤ (tMove true).dst.addr := by decide +kernel

/-- PIN, UNPIN and a PREFETCH of the page to the cistern, in which a frame is free. -/
def tMig (op : Nat) : MigReq := { job := 0, part := 0, well := 0, op := op, tier := 0, lo := tVa, hi := 2 * tVa }
def tMigS (op : Nat) : State :=
  { tS 0 with engine := { queue := [tMig op] }, jobs := [{ tJob with free := [(⟨.cistern 0, devScratch⟩, 2 ^ 21)] }] }
theorem witness_mig_served :
    (tMigS 2).nextReq = some (tMig 2) ∧ (tMigS 3).nextReq = some (tMig 3) ∧ (tMigS 0).nextReq = some (tMig 0)
    ∧ (match (tMigS 0).migPage (tMig 0) with
       | (some l, n) => decide (n = 2 * tVa) && (tMig 0).moves l && okE ((tMigS 0).migMove (tMig 0) l)
       | _ => false) = true := by decide +kernel
/-- PIN sets bit 48 of the leaf (R463, R466). -/
theorem test_pin : (match exec .migrationMoveStart (tMigS 2) with
    | .next t => (bitOf (t.leafAt 16) 48, t.engine.queue.length) | _ => (false, 9)) = (true, 0) := by decide +kernel
/-- A page whose count has just reached 64 × THRESH of 1, and the end of a window of 10 ms. -/
def tCount : State :=
  { (tS 0).setReg rMgCtl (BitVec.ofNat 64 (2 ^ 40 + 1)) with
    engine := { fills := [(fillKey 0 tVa, 64)] }, jobs := [{ tJob with mig := { auto_ := true } }] }
theorem witness_promotion :
    (tCount.wellJob 0).map (fun x => (x.1, x.2.mig.auto_)) = some (0, true) ∧ tCount.fld rMgCtl 0 0 = 1 ∧ tCount.fld rMgCtl 47 40 ≠ 0
    ∧ 64 * tCount.fld rMgCtl 47 40 ≤ tabGet 0 tCount.engine.fills (fillKey 0 tVa) ∧ tCount.migCount 0 < 64
    ∧ okE (tCount.leafOf 0 tVa false) = true
    ∧ 0 + tCount.windowNs ≤ (tCount.setReg rPmTimebase 10000000#64).now := by decide

/-- A miss of the well's requester 209, of BAR2, the wellhead's requester 17; a head that waits for a shared walker; a walk. -/
def tMiss : Miss := { ctx := 0, page := 32, reqs := [256 * 12] }
theorem witness_walks :
    (209 : Fin 210).val < missReqs 0 ∧ (tS 0).missCtx 0 209 0 = true ∧ (tS 0).missing 0 209 = false ∧ (tS 0).tlbHas 0 0 tVa = false
    ∧ 17 < missReqs 12 ∧ (tS 0).missCtx 12 17 12 = true ∧ (65536#64 : Word).toNat = 65536
    ∧ ([12, 13, 14, 15].find? (fun k => ({ tS 0 with missQs := [(12, { queue := [tMiss] })] } : State).feed.walker k == none)) = some 12
    ∧ ({ tS 0 with missQs := [(12, { queue := [tMiss] })] } : State).feed.firstHead = some 12
    ∧ ({ tS 0 with walkers := [(15, some (12, tMiss))] } : State).feed.walker 15 = some (12, tMiss)
    ∧ okE (({ tS 0 with walkers := [(15, some (12, tMiss))] } : State).feed.leafWalk 0 (32 * 65536) false) = true := by
  decide +kernel
/-- Contexts: 0 is bound, 1 and 12 are not; a pair of TR_HROOT that agrees and one that does not. -/
theorem witness_contexts :
    (tS 0).ctxBound 0 = true ∧ (tS 0).ctxBound 1 = false ∧ (tS 0).ctxBound 12 = false
    ∧ ((tS 0).setReg rTrHroot 5#64).reg rTrHroot = ~~~(~~~5#64) ∧ ((tS 0).setReg rTrHroot 5#64).reg rTrHroot ≠ ~~~5#64
    ∧ bitOf ((tS 0).reg (rFcRec (16 * 21 + 1))) 63 = false := by decide

/-- A well that does not drain 1 ms after its entry into W1, or an entry into W2, was requested. -/
def tDrain : State := { (tS 0).setReg rPmTimebase 1000000#64 with pumps := [(0, { state := 1 })] }
def tEntry2 : Entry := { target := 2, wells := [0], at_ := 0, cmd := true }
theorem witness_drain :
    (tDrain.drained 0) = false ∧ 0 + 1000000 ≤ tDrain.now
    ∧ tabGet none (tDrain.modPw (fun p => { p with w1Req := [(0, some 0)] })).pw.w1Req 0 = some 0
    ∧ tabGet none (tDrain.modPw (fun p => { p with entry := some tEntry2 })).pw.w1Req 0 = none ∧ tEntry2.wells.contains 0 = true := by
  decide +kernel
/-- The page in host memory, which has been gone for HOST_WAIT_MS, 1,000 ms as MG_CTL reads 0. -/
def tHostPt : Mem :=
  tEnt 0 (2 ^ 62) ++ tEnt 16 (2 ^ 63 + 2 ^ 60 + 2 ^ 59 + 2 ^ 58 + 2 ^ 57 + 64)
def tHost : State := { (tS 0).setReg rPmTimebase 1000000000#64 with reservoir := tHostPt, hostDown := some 0 }
theorem witness_host_wait :
    0 + (if tHost.fld rMgCtl 63 48 = 0 then 1000 else tHost.fld rMgCtl 63 48) * 1000000 ≤ tHost.now
    ∧ tHost.hostLoc (tHost.partOf 0) tVa false = some ⟨.host, tAt⟩ ∧ (tHost.well 0).job = some 0 ∧ tHost.job 0 = some tJob
    ∧ tJob.status = none ∧ tJob.phase ≠ .committed := by decide +kernel

/-! ### Placement, directory, reservoir and aquifer -/

/-- Both ends of the reservoir at LOCAL_GIB 0 and 60. -/
theorem witness_placement :
    (0 ≤ 60 ∧ 60 ≤ 60) ∧ 0 < reservoirSize ∧ reservoirSize - 1 < reservoirSize ∧ ¬(reservoirSize - 1 < 36 * (60 - 60) * 2 ^ 30)
    ∧ reservoirSize - 1 < 36 * (60 - 0) * 2 ^ 30 := by decide
/-- Granule 37 lies on package 1 at index 1; with LOCAL_GIB 60 granule 1 of well 1's part on package 4 (R480). -/
theorem test_placement : rvPlace 0 (37 * 4096) = (1, 1) ∧ rvPlace 60 (180 * 2 ^ 30 + 4096) = (4, 0) := by decide
/-- Two units of stripe row 0. -/
theorem witness_stripe : 0 / 65536 / 11 = 65536 * 10 / 65536 / 11 ∧ 0 / 65536 ≠ 65536 * 10 / 65536 := by decide

/-- Line 4000H of the page SHARED, EXCLUSIVE or MODIFIED in well 0's cache. -/
def tLine (st : LineSt) : State :=
  { tS 0 with lines := [((tS 0).lineKey 0 (tAt / 256), [(tAt / 256, st)])],
              dir := [(dirKey (tAt / 256), [{ line := tAt / 256, owner := some 0 }])] }
theorem witness_lines :
    tabGet 4 (tS 0).caches 0 ≤ 8 ∧ tabGet 4 (tS 0).caches 0 ≠ 0 ∧ (tS 0).wellCtx 0 = some 0
    ∧ (tS 0).lineAt 0 tVa false = some (tAt / 256) ∧ (tS 0).lineSt 0 (tAt / 256) = none
    ∧ (tS 0).lineAt 0 tVa true = some (tAt / 256) ∧ (tLine .shared).lineSt 0 (tAt / 256) = some .shared
    ∧ (tLine .shared).lineAt 0 tVa true = some (tAt / 256)
    ∧ (tLine .modified).lineSt 0 (tAt / 256) = some .modified ∧ (tLine .exclusive).lineSt 0 (tAt / 256) = some .exclusive := by
  decide
theorem witness_caches : ∀ v, tabGet 4 (tS 0).caches v ≤ 8 := by intro v; exact Nat.le_of_lt_succ (by show 4 < 9; decide)
/-- The second well to ask for a line shares it with the first (R534). -/
theorem test_gets : (match exec (.gets 1 (BitVec.ofNat 64 tVa) .sound)
      { tLine .exclusive with
        jobs := [{ tJob with wells := [0, 1], slots := [0, 0] }], wells := [(0, { job := some 0 }), (1, { job := some 0 })] } with
    | .next t => (t.lineSt 0 (tAt / 256), t.lineSt 1 (tAt / 256)) | _ => (none, none)) = (some .shared, some .shared) := by decide

/-- The reservoir with every channel of a sector's package trained, and two bursts through sluice 0 left in its cap. -/
def tRv : State := { (tS 0).setFld (rRvPkgStat ((tS 0).sectorAt (tAt / 64)).1) 31 24 0 with caps := [(0, 2)] }
/-- A sector of the page, sound or poisoned, whose bursts are granted, whatever the check cache holds, or not, for want of
slots or of cap; and the last byte of one. -/
theorem witness_sector :
    tRv.sectorOpen (tAt / 64) = true ∧ (tRv.burstsFor (tRv.sectorAt (tAt / 64)).1 13 (tAt / 64) 2).2 = true
    ∧ (tRv.burstsFor (tRv.sectorAt (tAt / 64)).1 0 (tAt / 64) 2).2 = true
    ∧ (tRv.burstsFor (tRv.sectorAt (tAt / 64)).1 0 (tAt / 64) 3).2 = false
    ∧ (tS 0).sectorOpen (tAt / 64) = true ∧ ((tS 0).burstsFor (tRv.sectorAt (tAt / 64)).1 13 (tAt / 64) 1).2 = false
    ∧ (∀ b, (tRv.freeBit.2.burstsFor (tRv.sectorAt (tAt / 64)).1 13 (tAt / 64) (sectorBursts b .good + 2)).2 = true)
    ∧ tRv.rvTicks ≤ tRv.now / 375 ∧ (tS 0).sectorBad (tAt / 64) = false
    ∧ ({ tS 0 with poison := [(blockKey ⟨.reservoir, tAt⟩, true)] } : State).sectorBad (tAt / 64) = true
    ∧ ({ tS 0 with poison := [(blockKey ⟨.reservoir, tAt⟩, true)] } : State).sectorOpen (tAt / 64) = true
    ∧ 63 + 1 ≤ 64 ∧ (List.replicate 64 7#8).length = 64 := by decide
/-- Eight repeats within 1 ms; MR4 never read, or 32 ms ago. -/
theorem witness_package_service :
    ({ repeats := [(0, List.replicate 8 0)] } : State).retrainN
      ≤ ((tabGet [] ({ repeats := [(0, List.replicate 8 0)] } : State).repeats 0).filter
          (fun t => ({} : State).now < t + 1000000)).length
    ∧ tabGet 0 ({} : State).mr4At 0 = 0
    ∧ tabGet 0 ({ mr4At := [(0, 1)] } : State).mr4At 0 + 32000000 ≤ (State.reset.setReg rPmTimebase 32000001#64).now := by
  decide

/-- Package 5 under evacuation: ACTIVE before the command, EVACUATING with granule 7 copied early, all copied, FAILED. -/
def tEvac (st next : Nat) : State :=
  { (tS 0).setRvState 5 st with
    evacs := [{ pkg := 5, donor := 0, active := (List.range 36).filter (· != 5), next := next, early := [7] }] }
theorem witness_evac :
    bitsOf (BitVec.ofNat 64 (2 ^ 58 + 5 * 2 ^ 52)) 59 58 = 1 ∧ ((tS 0).fenceJudge 5 0).1 = 0 ∧ ((tS 0).fenceJudge 36 0).1 ≠ 0
    ∧ (tS 0).rvState 5 = 0
    ∧ ((tEvac 2 3).evacs.find? (fun e => e.pkg == 5)).isSome = true ∧ (tEvac 2 3).rvState 5 = 2 ∧ (tEvac 2 3).rvSelfRefresh = false
    ∧ ((tEvac 2 3).rvHeld 5 (pkgGranules - 1)).all (fun a => (List.range 64).all (fun i => !(tEvac 2 3).sectorBad (a / 64 + i)))
    ∧ pkgGranules - 1 < pkgGranules ∧ ((tEvac 2 3).evacs.all (fun e => !e.copied (pkgGranules - 1))) = true
    ∧ (tEvac 2 pkgGranules).rvState 5 = 2 ∧ ((tEvac 2 pkgGranules).evacs.all (fun e => decide (pkgGranules ≤ e.next))) = true
    ∧ (tEvac 4 3).rvState 5 = 4 := by decide +kernel
/-- RV_PLACE before and after its commit; self-refresh with every supply up. -/
theorem witness_place_commit :
    bitOf 0x80000001#64 31 = true ∧ State.reset.fld rRvPlace 31 31 = 0 ∧ (tS 0).fld rRvPlace 31 31 = 1
    ∧ ({ tS 0 with rvSelfRefresh := true } : State).rvSelfRefresh = true ∧ (tS 0).fld (rPmRefStat 2) 63 61 = 0
    ∧ (tS 0).devicePm = 0 ∧ (∀ w, w < 12 → ((tS 0).rail (12 + w)).phase = 0 ∧ (tS 0).pw.staging.contains w = false) := by decide

/-- A read entry of the last page of a unit, and of its four pages; an entry that a package serves next. -/
def tAq : State := { tS 0 with aqQs := [(13, [{ addr := 0, left := 1, src := 0 }])] }
theorem witness_aquifer :
    49152 % 16384 = 0 ∧ 49152 % 65536 / 16384 + 1 ≤ 4 ∧ 0 % 65536 / 16384 + 4 ≤ 4 ∧ 49152 < aquiferSize
    ∧ tAq.aqNext 1 = some 0 ∧ tAq.aqQ 1 0 = [{ addr := 0, left := 1, src := 0 }] ∧ tAq.pageCan 1 0 .good = true
    ∧ tAq.pageCan 1 0 .rebuilt = true ∧ tAq.pageCan 1 0 .failed = true ∧ tAq.aqLost 1 = false := by decide
theorem witness_aq_fence :
    bitsOf 0x1B#64 5 4 = 1 ∧ bitsOf 0x1B#64 3 0 < 12 ∧ (tS 0).otherLost (bitsOf 0x1B#64 3 0) = false
    ∧ ((tS 0).setFld (rAqPkgStat 0) 31 29 1).otherLost (bitsOf 0x1B#64 3 0) = true := by decide
/-- AQ_FENCE of package 11 loses it (R517, R526). -/
theorem test_aq_fence : (match exec (.aqFenceCmd 0x1B#64) State.reset with
    | .next t => (t.aqLost 11, t.fld rAqFence 30 29) | _ => (false, 9)) = (true, 0) := by decide

/-! ### Inputs, image and codec -/

/-- The argument block at 2 MiB: an image record of one boot row, input record 0 of one token of four BF16 elements, and noise
record 0 of one row of four elements, with their BF16 descriptor. -/
def tArg : Mem :=
  tPt ++ tWords (tAt + 0x1040) [tVa + 0x40000, 2 ^ 62, 1]
    ++ tWords (tAt + 0x1100) [5 * 2 ^ 60 + tVa + 0x40000, 8 * 2 ^ 32 + 4 * 2 ^ 16 + 1, tVa + 0x3000, 0]
    ++ tWords (tAt + 0x1200) [tVa + 0x3000, 0, 2 ^ 32 + 4, 9 * 2 ^ 24]
    ++ tWords (tAt + 0x3000) [6 * 2 ^ 60 + tVa + 0x50000, 0, 0, 4 * 2 ^ 32 + 1]
def tIn (x : Job) : State := { tS 0 with reservoir := tArg, jobs := [x] }
theorem witness_inputs :
    (tIn { tJob with inputsDue := [0] }).job 0 = some { tJob with inputsDue := [0] } ∧ tJob.phase = .running
    ∧ okE (do
        let r ← (tIn tJob).readIn (viaQ 12 ((tIn tJob).ctxOf 0)) tVa 0
        (tIn tJob).fillInput (viaQ 12 ((tIn tJob).ctxOf 0)) r) = true := by decide +kernel
theorem witness_noise :
    ({ tJob with fillsDue := [0] } : Job).inputsDue = []
    ∧ okE (do
        let seed ← (tIn tJob).readWord (viaQ 12 ((tIn tJob).ctxOf 0)) (tVa + 0x30)
        let r ← (tIn tJob).readNoise (viaQ 12 ((tIn tJob).ctxOf 0)) tVa 0
        (tIn tJob).fillNoise (viaQ 12 ((tIn tJob).ctxOf 0)) seed 0 r) = true
    ∧ (tIn { tJob with filling := [0] }).scratchOk 0 (eventAt ((tIn { tJob with filling := [0] }).slotOf 0 0) 9) = true
    ∧ okE ((tIn { tJob with filling := [0] }).readNoise (viaQ 12 ((tIn tJob).ctxOf 0)) tVa 0) = true
    ∧ (tIn { tJob with fillsDue := [0] }).whFree = some 0 ∧ (tIn { tJob with fillsDue := [0] }).missing 12 0 = false
    ∧ (tIn { tJob with filling := [0] }).fillPump 0 0 = some 0 := by decide +kernel
theorem witness_image :
    okB (do
      match ← (tIn tJob).readImg (viaQ 12 ((tIn tJob).ctxOf 0)) tVa with
      | none => pure false
      | some r => do
        let _ ← (tIn tJob).readVa (viaQ 12 ((tIn tJob).ctxOf 0)) (r.from_ 0) (r.bytes 0)
        pure (decide (0 < r.len) && !(tIn tJob).rowDead r 0)) = true := by decide +kernel
/-- A visible fill raises event 9 once (R561). -/
theorem test_noise_done : (match exec (.noiseFillDone 0) (tIn { tJob with filling := [0] }) with
    | .next t => (t.event 0 0 9, t.fld rInStat 63 32) | _ => (9, 9)) = (1, 1) := by decide +kernel

/-- An encode session of one empty frame and no bitstream buffer, and a decode session of a stream of two bytes. -/
def tEnc (st : Nat) : Session :=
  { job := 0, n := 0, state := st, core := if st = 0 then none else some 0, ready := 1,
    words := [BitVec.ofNat 64 (2 ^ 60), 1#64, 0#64, 0#64, 0#64, BitVec.ofNat 64 (tVa + 0x40000), 65536#64,
              BitVec.ofNat 64 (tVa + 0x50000), 0#64, 0#64, 0#64, BitVec.ofNat 64 (tVa + 0x60000)] }
def tDec : Session :=
  { job := 0, n := 0, state := 1, core := some 2, ready := 0,
    words := [BitVec.ofNat 64 (2 * 2 ^ 60), 0#64, 0#64, 0#64, 0#64, BitVec.ofNat 64 (tVa + 0x40000), 0#64,
              BitVec.ofNat 64 (tVa + 0x50000), 2#64, 0#64, 0#64, BitVec.ofNat 64 (tVa + 0x60000)] }
def tSes (e : Session) : State := { tS 0 with sessions := [e] }
theorem witness_session_bind :
    (tSes (tEnc 0)).sessions.find? (fun e => e.core.isNone && decide (e.state = 0) && (tSes (tEnc 0)).sessionRuns e
      && ((tSes (tEnc 0)).coreFor e.kind).isSome) = some (tEnc 0)
    ∧ okE ((tSes (tEnc 0)).putSession { tEnc 0 with core := some 0, state := 1 }) = true
    ∧ (tSes (tEnc 1)).sessions.find? (fun e => e.job == 0 && e.n == 0 && decide (e.state = 1)) = some (tEnc 1)
    ∧ okE ((tSes (tEnc 1)).readWord (viaQ 12 ((tSes (tEnc 1)).ctxOf 0)) (tEnc 1).block) = true := by decide +kernel
theorem okE_ok {α : Type} {e : Except AccErr α} (h : okE e = true) : ∃ v, e = .ok v := by
  cases e with
  | ok v => exact ⟨v, rfl⟩
  | error _ => exact absurd h (by simp [okE])
theorem okE_bind {α β : Type} {e : Except AccErr α} {c : α} {f : α → Except AccErr β} (he : e = .ok c)
    (h : okE (e >>= f) = true) : ∃ v, f c = .ok v := by
  subst he
  exact okE_ok h
theorem encode_made : okE ((tSes (tEnc 1)).nextUnit (tEnc 1)) = true
    ∧ okE ((tSes (tEnc 1)).putSession { tEnc 1 with state := 4, code := 2, core := none }) = true
    ∧ okE ((tSes (tEnc 1)).nextUnit (tEnc 1) >>= fun c =>
        (tSes (tEnc 1)).encode (tEnc 1) (c.1, c.2.1, [], c.2.2.2)) = true := by decide +kernel
theorem unit_fits {n : Nat} (h : (tEnc 1).overflows n = false) : n = 0 := by
  have hl : (tEnc 1).len = 0 := by decide
  have hb : (tEnc 1).bytes = 0 := rfl
  simpa [Session.overflows, hl, hb] using h
/-- Whatever access unit the codec makes: it is empty, and written, or it does not fit. -/
theorem witness_encode :
    (tSes (tEnc 1)).sessions.find? (fun e => e.kind == 1 && e.canEncode 0 && (tSes (tEnc 1)).sessionRuns e) = some (tEnc 1)
    ∧ (tSes (tEnc 1)).missing 12 (18 + 0) = false
    ∧ ∃ c u v, (tSes (tEnc 1)).nextUnit (tEnc 1) = .ok c
      ∧ (tSes (tEnc 1)).putSession { tEnc 1 with state := 4, code := 2, core := none } = .ok u
      ∧ ((tEnc 1).overflows c.2.2.1.length = false → (tSes (tEnc 1)).encode (tEnc 1) c = .ok v) := by
  refine ⟨by decide +kernel, by decide +kernel, ?_⟩
  obtain ⟨c, hc⟩ := okE_ok encode_made.1
  obtain ⟨u, hu⟩ := okE_ok encode_made.2.1
  obtain ⟨v, hv⟩ := okE_bind hc encode_made.2.2
  refine ⟨c, u, v, hc, hu, fun ho => ?_⟩
  obtain ⟨coded, a, bytes, full⟩ := c
  have hb : bytes = [] := List.eq_nil_of_length_eq_zero (unit_fits ho)
  subst hb
  exact hv
theorem witness_decode :
    (tSes tDec).sessions.find? (fun e => e.kind == 2 && e.core == some 2 && decide (e.state = 1 ∧ e.bytes < e.len)
      && (tSes tDec).sessionRuns e) = some tDec
    ∧ tDec.done_ + tDec.npool ≤ tDec.ready + tDec.nslot
    ∧ (tSes tDec).missing 12 (18 + (2 + 0)) = false
    ∧ okIs ((tSes tDec).stream tDec) [0#8, 0#8] = true
    ∧ okE ((tSes tDec).putSession { tDec with
        state := 4, code := tDec.unitCode [0#8, 0#8], core := none, done_ := 2 ^ 64 - 1 }) = true
    ∧ okE ((tSes tDec).decode tDec [0#8, 0#8]) = true := by
  refine ⟨by decide +kernel, by decide, by decide +kernel, by decide +kernel, by decide +kernel, ?_⟩
  have hk : tDec.outs [0#8, 0#8] = 0 := by simp [Session.outs, show tDec.npool = 0 by decide]
  unfold State.decode
  rw [hk]
  decide +kernel
/-- A session that has coded its one frame; a halted job's session that waits for its frame. -/
theorem witness_session_end :
    ({ tEnc 1 with coded := [(0, [])] } : Session).coded.length = ({ tEnc 1 with coded := [(0, [])] } : Session).frames
    ∧ okE ((tSes { tEnc 1 with coded := [(0, [])] }).putSession { tEnc 1 with coded := [(0, [])], state := 3, core := none }) = true
    ∧ (tEnc 1).coded.length ≠ (tEnc 1).frames ∧ ({ tEnc 1 with ready := 0 } : Session).canEncode 0 = false
    ∧ ({ tSes { tEnc 1 with ready := 0 } with jobs := [{ tJob with phase := .stopping, status := some 0 }] } : State).incomplete
        { tEnc 1 with ready := 0 } = true
    ∧ okE (({ tSes { tEnc 1 with ready := 0 } with jobs := [{ tJob with phase := .stopping, status := some 0x7F }] } : State).putSession
        { tEnc 1 with ready := 0, state := 4, code := 1, core := none }) = true := by decide +kernel

/-! ### Queues, the journal and the host window -/

/-- A booted device whose queue 3 is enabled, its submission ring at 10000H and its completion ring at 20000H, with the tail at 1
and one entry of these words at place 0. -/
def tQ (ws : List Nat) : State :=
  ((((({ tS 0 with hostDown := none, hostMem := tWords 65536 ws, jobs := [] }
      |>.setFld rWhBoot 63 60 6).setFld (rQCtl 3) 63 63 1).setFld (rQStatus 3) 39 37 1).setReg (rQSqbase 3) 65536#64).setReg (rQCqbase 3)
    131072#64).setFld (rQSqTail 3) 15 0 1
/-- The first word of an entry: its sequence with its complement. -/
def tSeq (n : Nat) : Nat := (guard32 (BitVec.ofNat 32 n)).toNat
theorem witness_fetch :
    (tQ [tSeq 1]).mayFetch 3 = true ∧ unguard32 (opW ((tQ [tSeq 1]).subWords 3) 0) = some 1#32
    ∧ bitsOf (opW ((tQ [tSeq 1]).subWords 3) 1) 63 56 = (tQ [tSeq 1]).qGen 3 ∧ subBad ((tQ [tSeq 1]).subWords 3) = false
    ∧ bitsOf (opW ((tQ [tSeq 1, 2 ^ 56]).subWords 3) 1) 63 56 ≠ (tQ [tSeq 1, 2 ^ 56]).qGen 3 ∧ (tQ [tSeq 1, 2 ^ 56]).mayFetch 3 = true
    ∧ unguard32 (opW ((tQ [tSeq 2]).subWords 3) 0) = some 2#32 ∧ (2 + 2 ^ 32 - 0) % 2 ^ 32 = 2 ∧ (2 : Nat) < 2 ^ 31 := by
  decide +kernel
/-- Sequences 4,096 behind and 1 behind the last, 4,097; the latter of a job that was accepted. -/
def tBehind (n : Nat) : State := { (tQ [tSeq n]).setFld (rQLast 3) 31 0 4097 with jobs := [{ tJob with queue := 3, seq := 4097 }] }
theorem witness_fetch_dup :
    (tBehind 1).mayFetch 3 = true ∧ 2 ^ 31 ≤ (1 + 2 ^ 32 - (tBehind 1).fld (rQLast 3) 31 0) % 2 ^ 32
    ∧ 4096 ≤ ((tBehind 1).fld (rQLast 3) 31 0 + 2 ^ 32 - 1) % 2 ^ 32
    ∧ (tBehind 4097).mayFetch 3 = true ∧ (4097 + 2 ^ 32 - (tBehind 4097).fld (rQLast 3) 31 0) % 2 ^ 32 = 0
    ∧ ((tBehind 4097).acceptedJob 3 0 4097).isSome = true := by decide +kernel
/-- The expected entry is put before the loader (R606, R608). -/
theorem test_fetch : (match exec (.submissionFetch 3 true) (tQ [tSeq 1]) with
    | .next t => (t.jobs.map Job.seq, t.fld (rQStatus 3) 63 48, t.fld (rQLast 3) 31 0) | _ => ([], 9, 9)) = ([1], 1, 1) := by
  decide +kernel

/-- An entry that waits, at the last place of the ring of 16; three that are not signalled, the oldest 5 µs old. -/
def tWaiting : State :=
  { (tQ []).setFld (rQStatus 3) 15 0 15 |>.setFld (rQCqHead 3) 15 0 15 with
    hqs := [(3, { waiting := [(okEntry, 0)], unsig := 3 })] }
theorem witness_entry :
    (tWaiting.hq 3).waiting = [(okEntry, 0)] ∧ tWaiting.mayWriteEntry 3 0 = true ∧ 0 < (tWaiting.hq 3).unsig
    ∧ max 1 (tWaiting.fld (rQIrq 3) 15 0) ≤ (tWaiting.hq 3).unsig
    ∧ ((tWaiting.setReg rPmTimebase 5000#64).setFld (rQIrq 3) 31 16 5).fld (rQIrq 3) 31 16 ≠ 0
    ∧ (tWaiting.hq 3).unsigAt + 5 * 1000 ≤ (tWaiting.setReg rPmTimebase 5000#64).now := by decide +kernel
/-- At the ring's end PHASE turns over (R614, R617). -/
theorem test_entry : (match exec (.completionEntryWrite 3) tWaiting with
    | .next t => ((t.hq 3).phase, t.fld (rQStatus 3) 15 0, (t.hq 3).waiting.length) | _ => (true, 0, 9)) = (false, 16, 0) := by
  decide +kernel
/-- A queue of its own function; one of the other half under BIFURC; a stopped queue's error 2 cleared. -/
theorem witness_queue_regs :
    bitOf (BitVec.ofNat 64 (2 ^ 62)) 62 = true ∧ (tQ []).qReach 3 0 = true ∧ ({ tQ [] with bifurc := true } : State).qReach 3 1 = false
    ∧ ((tQ []).setFld (rQStatus 3) 36 34 2).fld (rQStatus 3) 36 34 &&& (7 - 1) = 2
    ∧ ((tQ []).setFld (rQStatus 3) 36 34 1).fld (rQStatus 3) 36 34 &&& (7 - 3) = 0 := by decide

/-- The eight wellhead pumps, each with a noise fill of the running job. -/
def tFull : State :=
  { tQ [] with jobs := [{ tJob with filling := List.range 8 }], whPumps := (List.range 8).map (fun n => (n, some (.noise 0 n))) }
/-- A record that joins the next page, with both halves ACTIVE; a program under way; a query of tags with no record. -/
theorem witness_journal :
    (tQ []).jn.program = none ∧ ({ tQ [] with jn := { joining := [okRec] } } : State).jn.joining ≠ []
    ∧ (tQ []).halfActive 0 = true ∧ (tQ []).halfActive 1 = true
    ∧ ({ tQ [] with jn := { program := some [okRec] } } : State).jn.program = some [okRec]
    ∧ recNames okRec { tJob with seq := 0, phase := .accepting, order := 0 } = true ∧ okRec.kind = 1
    ∧ recNames { okRec with kind := 2 } { tJob with seq := 0, phase := .ended } = true ∧ tJob.order ≠ 0
    ∧ bitOf (BitVec.ofNat 64 (2 ^ 32)) 32 = true ∧ (tQ []).jn.find 2 0 0 0 = none ∧ (tQ []).jn.find 1 0 0 0 = none
    ∧ (({ pages := [[recStore okRec, recStore { okRec with kind := 2 }]] } : Journal).find 2 0 0 0).isSome = true
    ∧ (({ pages := [[recStore okRec]] } : Journal).find 2 0 0 0) = none
    ∧ (({ pages := [[recStore okRec]] } : Journal).find 1 0 0 0).isSome = true
    ∧ ({ pages := [[recStore okRec]] } : Journal).broken = false
    ∧ ({ pages := [[(recStore okRec).map (· ^^^ 1#128)]] } : Journal).broken = true
    ∧ (({ pages := [[(recStore okRec).map (· ^^^ 1#128)]] } : Journal).find 1 0 0 0) = none
    ∧ ((tQ []).modPw (fun p => { p with pg := true })).alive = true
    ∧ (tQ []).whFree = some 0 ∧ tFull.whFree = none := by
  decide +kernel
/-- BAR2 through function 0 at 2 MiB: bytes that are read, an offset past the mapped page, a write, and the recovery stage. -/
def tBar : State := ((tQ []).setFld (rWhBar2Base 0) 55 21 1).modPw (fun p => { p with pg := true })
theorem witness_bar2 :
    tBar.functionUp 0 = true ∧ tBar.missing 12 17 = false ∧ tBar.fld (rWhBar2Base 0) 55 21 * 2 ^ 21 + 0 = tVa ∧ okE (tBar.readVa (viaQ 12 12) tVa 4096) = true
    ∧ (match tBar.readVa (viaQ 12 12) (tVa + 2 ^ 21) 1 with | .error (.trans _ _ _ _) => true | _ => false) = true
    ∧ bitOf (tBar.reg rWhBar2Err) 63 = false ∧ tBar.fld rWhBoot 63 60 ≠ 8 ∧ okE (tBar.writeDir (viaQ 12 12) tVa [7#8]) = true
    ∧ ({ tBar with missQs := [(12, { queue := [{ ctx := 12, page := 32, reqs := [256 * 12 + 17] }] })] } : State).missing 12 17 = true
    ∧ (match ({ tBar with reservoir := tHostPt, hostDown := some 0 } : State).readVa (viaQ 12 12) tVa 1 with
       | .error (.stall 469) => true | _ => false) = true
    ∧ (tBar.setFld rWhBoot 63 60 8).fld rWhBoot 63 60 = 8 ∧ (tBar.setFld rWhBoot 63 60 8).functionUp 0 = true := by decide +kernel
/-- A read that does not translate gives all-ones bytes (R603). -/
theorem test_bar2_fault : (match exec (.bar2Read 0 0x200000#36 2) tBar with | .next t => t.bar2Data | _ => []) = [0xFF#8, 0xFF#8] := by
  decide +kernel

/-! ### Jobs -/

/-- The argument block at 2 MiB of a job whose program is one HALT. -/
def tArgMem : Mem := tPt ++ tWords tAt [2 ^ 56, tVa + 0x2000, 2 ^ 32] ++ tWords (tAt + 0x2000) [(ckw 0xCF 0 0 0 0).toNat]
/-- A job that was never bound, in this phase. -/
def tNew (ph : JobPhase) : Job := { queue := 3, gen := 0, seq := 1, prio := 0, psize := 1, arg := tVa, root := 0, phase := ph }
def tJobs (l : List Job) : State := { tQ [] with reservoir := tArgMem, jobs := l, wells := [] }
theorem test_arg_memory : tArgMem.wf = true := by decide
theorem witness_verify :
    (tJobs [tNew .verifying]).job 0 = some (tNew .verifying)
    ∧ (tJobs [tNew .verifying]).jobFinds (tNew .verifying) = []
    ∧ (verdict ((tJobs []).jobFinds { tNew .verifying with root := 1 })).map Find.code = some 0x01
    ∧ ((tJobs []).jobFinds { tNew .verifying with root := 1 }).all (fun f => f.cls != 3) = true := by decide +kernel
/-- A root that is not aligned is refused with reason 01H (R304). -/
theorem test_root : (match exec (.jobLoaderVerify 0) (tJobs [{ tNew .verifying with root := 1 }]) with
    | .next t => (t.hq 3).waiting.map (fun e => (e.1.status, e.1.reason)) | _ => []) = [(0x10, 0x01)] := by decide +kernel
theorem witness_accept :
    (tJobs [{ tNew .accepting with durable := true }]).inSync = false ∧ (tJobs []).mayCommit = true
    ∧ (tNew .accepting).gen = (tJobs []).qGen 3 ∧ ((tJobs []).hq 3).waiting = [] := by decide +kernel

/-- Well 0 kept and awake, and every well LOST. -/
def tWait : State := tJobs [{ tNew .waiting with order := 1 }]
def tLost : State := (List.range 12).foldl (fun t w => t.setFld rWhWellState (2 * w + 25) (2 * w + 24) 3) tWait
theorem witness_bind :
    tWait.firstJob = some 0 ∧ tWait.mayBind = true ∧ tWait.bindLost { tNew .waiting with order := 1 } = false
    ∧ tWait.bindWells [] { tNew .waiting with order := 1 } = some [0] ∧ [0].all tWait.wellAwake = true
    ∧ tWait.freePart = some 0
    ∧ okE ((({ tWait with nextId := tWait.nextId + 1 }.modJob 0 (fun _ =>
        { tNew .waiting with order := 1, part := some 0, wells := [0], slots := [0], boundAt := tWait.nextId })).setRoot 0 0 true).startJob 0
        { tNew .waiting with order := 1, part := some 0, wells := [0], slots := [0], boundAt := tWait.nextId } true) = true
    ∧ tLost.firstJob = some 0 ∧ tLost.mayBind = true ∧ tLost.bindLost { tNew .waiting with order := 1 } = true := by decide +kernel
/-- A bound job's controller runs at index 0 with its argument in s1 (R259, R623). -/
theorem test_bind : (match exec .jobBind tWait with
    | .next t => ((t.well 0).ctl, (t.well 0).cx.get 1, (t.job 0).map Job.phase) | _ => (.idle, 0#64, none))
    = (.running, BitVec.ofNat 64 tVa, some .running) := by decide +kernel
/-- A job bound to well 0, its phase, and a pre-empted one whose wells are free. -/
def tBound (ph : JobPhase) : Job := { tNew ph with order := 1, part := some 0, wells := [0], slots := [0] }
def tHeld (x : Job) (run : Bool) : State :=
  { tJobs [x] with
    wells := if run then [(0, { ctl := .running, plen := 1, job := some 0 })] else [],
    regs := tabPut 0#64 (tJobs []).regs (rTrRoot 0) 0x8000000000000000#64 }
theorem witness_preempt :
    (tHeld { tBound .running with rollback := true } true).job 0 = some { tBound .running with rollback := true }
    ∧ okE (([0].foldl (fun (t : State) w => (t.stopCtl w).withdrawWaits w)
        ((tHeld { tBound .running with rollback := true } true).modJob 0 (fun y => { y with phase := .preempting, cp := none, stopFor := none }))).pauseSessions
        0 true) = true
    ∧ (tHeld (tBound .preempting) true).still 0 (tBound .preempting) = true
    ∧ (tHeld (tBound .preempted) false).firstJob = some 0
    ∧ (tHeld (tBound .preempted) false).bindWells [] (tBound .preempted) = some [0]
    ∧ okE ((tHeld (tBound .preempted) false).rebind 0 (tBound .preempted)) = true := by decide +kernel
/-- A move of the job from host memory, past order 2. -/
def tHostMove : Move := { tMove true with src := ⟨.host, 0⟩, dst := ⟨.reservoir, 2 ^ 23⟩ }
theorem witness_end :
    (tHeld { tBound .stopping with status := some 0 } true).workOver 0 { tBound .stopping with status := some 0 } = true
    ∧ (tHeld (tBound .stopping) true).mayCommit = true
    ∧ (match (tHeld (tBound .stopping) true).endMoves 0 with | .ok _ => true | .error _ => false) = true
    ∧ (match ({ tHeld (tBound .stopping) true with hostDown := some 0, engine := { moves := [tHostMove] } } : State).endMoves 0 with
       | .ok _ => false | .error r => r == 469) = true
    ∧ (tHeld { tBound .ended with commitDurable := true, commitMirrored := true } false).pair.handback = false
    ∧ ((tHeld (tBound .ended) false).hq 3).waiting = [] := by decide +kernel
/-- An abort of the waiting job's tag, and of another. -/
theorem witness_abort :
    bitOf (BitVec.ofNat 64 (2 ^ 60 + 3 * 2 ^ 46 + 1)) 60 = true ∧ bitsOf (BitVec.ofNat 64 (2 ^ 60 + 3 * 2 ^ 46 + 1)) 51 46 = (tNew .waiting).queue
    ∧ bitsOf (BitVec.ofNat 64 (2 ^ 60 + 3 * 2 ^ 46 + 1)) 59 52 = (tNew .waiting).gen
    ∧ bitsOf (BitVec.ofNat 64 (2 ^ 60 + 3 * 2 ^ 46 + 1)) 31 0 = (tNew .waiting).seq ∧ (tNew .waiting).status = none
    ∧ bitsOf (BitVec.ofNat 64 (2 ^ 60 + 3 * 2 ^ 46 + 2)) 31 0 ≠ (tNew .waiting).seq := by decide
/-- HOST_ABORT, 50H, stops the waiting job (R628). -/
theorem test_abort : (match exec (.queueAbort (BitVec.ofNat 64 (2 ^ 60 + 3 * 2 ^ 46 + 1))) tWait with
    | .next t => (t.job 0).map (fun x => (x.phase, x.status)) | _ => none) = some (.stopping, some 0x50) := by decide +kernel

/-- Causes 1 and 6 of a loss; a job that is rebuilt on well 0 again, and one with no well left. -/
theorem witness_loss :
    (1 : Fin 16).val ≤ 6 ∧ (6 : Fin 16).val ≤ 6 ∧ (6 : Fin 16).val ≠ 2 ∧ tWait.fld rWhWellState 25 24 ≠ 3
    ∧ tLost.rebuildWells 0 = [] ∧ tLost.fld rWhRasCtl 0 0 = 0 := by decide +kernel
theorem tabGet_above {α : Type} (d : α) : ∀ (t : Tab α) (k : Nat), (∀ e ∈ t, e.1 < k) → tabGet d t k = d
  | [], _, _ => rfl
  | (j, v) :: t, k, h => by
    have hj : ¬ j = k := Nat.ne_of_lt (h (j, v) (by simp))
    simp only [tabGet, hj, if_false]
    exact tabGet_above d t k (fun e he => h e (by simp [he]))
/-- A table above every byte that is listed has no leaf. -/
theorem leaves_above (s : State) (root : Nat) (h : ∀ c ∈ s.reservoir, c.1 < root) : s.cisternLeaves root = [] := by
  have hr : ∀ i n, s.rawRead ⟨.reservoir, root + i⟩ n = List.replicate n 0#8 := by
    intro i n
    refine List.eq_replicate_iff.2 ⟨by simp [State.rawRead, memRead], ?_⟩
    intro b hb
    simp only [State.rawRead, memRead, List.mem_map] at hb
    obtain ⟨k, -, rfl⟩ := hb
    exact tabGet_above _ _ _ (fun e he => Nat.lt_of_lt_of_le (h e he) (by omega))
  have hu : unguard64 (BitVec.ofNat 128 (leVal (List.replicate 16 0#8))) = none := by decide
  have hl : s.leavesBelow ptLevels root 0 = [] := by
    simp only [ptLevels, State.leavesBelow, hr, hu]
    simp
  simp [State.cisternLeaves, hl]
def tRebuild : Job := { tBound .preempting with rebuild := true, root := 2 ^ 30 }
theorem witness_rebuild :
    (tHeld tRebuild true).still 0 tRebuild = true ∧ 0 < tRebuild.psize ∧ 1 ≤ ((tHeld tRebuild true).rebuildWells 0).length
    ∧ tRebuild.status = none
    ∧ (let v := ((tHeld tRebuild true).dropWork 0 tRebuild).tlbCtx 0
       let u := v.modJob 0 (fun y => { y with wells := [], slots := [], free := moveFree [0] [0] y.free })
       let u' := { u with nextId := u.nextId + 1 }.modJob 0 (fun y => { y with wells := [0], slots := [(u.freeSlot 0).getD 0], boundAt := u.nextId })
       (u'.job 0).any (fun y => okE (u'.startJob 0 y false))) = true
    ∧ (tHeld { tBound .preempting with rollback := true } true).still 0 (tBound .preempting) = true
    ∧ (tBound .preempting).wells.all (tHeld (tBound .preempting) true).wellAwake = true
    ∧ okE ((tHeld { tBound .preempting with rollback := true } true).startJob 0 { tBound .preempting with rollback := true } false) = true
    ∧ (tHeld { tBound .preempted with rollback := true } false).firstJob = some 0
    ∧ (tBound .preempted).wells.all (fun w => (tHeld (tBound .preempted) false).inService w
        && (tHeld (tBound .preempted) false).wellAwake w && (tHeld (tBound .preempted) false).wellFree [] w) = true := by decide +kernel

/-- Well 0 at CHECKPOINT of pass 4 with a list at 2 MiB + 7000H whose areas lie at 2 MiB; and past its barrier, without and with
the header that the twin has acknowledged. -/
def tCp (cp : Option CpRun) : State :=
  { tHeld { tBound .running with cp := cp } true with
    reservoir := tArgMem ++ tEnt (tAt + 0x7000) (2 ^ 56 + tVa) ++ tEnt (tAt + 0x7010) tVa ++ tEnt (tAt + 0x7020) (2 ^ 32) ++ tEnt (tAt + 0x7030) 0,
    wells := [(0, { ctl := .stalled, plen := 2, job := some 0, cx := { wait := .checkpoint 4 (tVa + 0x7000) } })] }
def tCpList : CpList := { area0 := tVa, area1 := tVa, mib := 1, regions := [] }
/-- The same list naming areas in cistern 0 at 128 MiB, mapped at 4 MiB. -/
def tCpCis : State :=
  { tCp none with
    reservoir := tPt ++ tEnt 32 (2 ^ 63 + 2 ^ 58 + 2 ^ 57 + 2048) ++ tWords tAt [2 ^ 56, tVa + 0x2000, 2 ^ 32]
      ++ tWords (tAt + 0x2000) [(ckw 0xCF 0 0 0 0).toNat]
      ++ tEnt (tAt + 0x7000) (2 ^ 56 + 2 ^ 22) ++ tEnt (tAt + 0x7010) (2 ^ 22) ++ tEnt (tAt + 0x7020) (2 ^ 32)
      ++ tEnt (tAt + 0x7030) 0 }
def tCpCisList : CpList := { tCpList with area0 := 2 ^ 22, area1 := 2 ^ 22 }
def tCpRun (h : List Word) : CpRun := { pass := 4, list := tCpList, area := tVa, cpseq := 1, mirror := if h = [] then 0 else 3, header := h }
theorem witness_cp_copy :
    tCpCis.cpReady 0 (tBound .running) = true ∧ tCpCis.cpWait (tBound .running) = some (4, tVa + 0x7000)
    ∧ (match tCpCis.cpWords (viaQ 12 (tCpCis.ctxOf 0)) (tVa + 0x7000) with
       | .ok ws => decide (parseCpList (tVa + 0x7000) ws = some tCpCisList)
       | .error _ => false) = true
    ∧ tCpCis.cpTarget (viaQ 12 (tCpCis.ctxOf 0)) (tBound .running) tCpCisList = 2 ^ 22 ∧ tCpCis.inSync = false
    ∧ tCpCis.whFree = some 0 ∧ tCpCis.missing 12 0 = false
    ∧ okE (tCpCis.judgeAreas (viaQ 12 (tCpCis.ctxOf 0)) 0 [2 ^ 22, 2 ^ 22]) = true
    ∧ okE (do
        let u ← tCpCis.cpCopy (viaQ 12 (tCpCis.ctxOf 0)) (2 ^ 22) tCpCisList
        ((u.cpSave 0 (tBound .running) tCpCisList (2 ^ 22) 1 4).modJob 0 (fun y => { y with cp := some { tCpRun [] with list := tCpCisList, area := 2 ^ 22 } })).cpMirror (viaQ 12 (tCpCis.ctxOf 0)) (tBound .running) [])
      = true := by decide +kernel
/-- A save area in cistern 0 at 128 MiB, mapped at 4 MiB, so that the header's free number lies apart from the tables. -/
def tCpHeadRun : CpRun := { tCpRun [] with area := 2 ^ 22 }
def tCpHead : State :=
  { tCp (some tCpHeadRun) with
    reservoir := tPt ++ tEnt 32 (2 ^ 63 + 2 ^ 58 + 2 ^ 57 + 2048) ++ tWords tAt [2 ^ 56, tVa + 0x2000, 2 ^ 32]
      ++ tWords (tAt + 0x2000) [(ckw 0xCF 0 0 0 0).toNat] }
theorem witness_cp_durable :
    tCpHead.job 0 = some { tBound .running with cp := some tCpHeadRun }
    ∧ (let hs := tCpHead.cpHeader { tBound .running with cp := some tCpHeadRun } tCpHeadRun;
       okE (hs.2.cpFinish 0 { tBound .running with cp := some tCpHeadRun } tCpHeadRun hs.1)) = true
    ∧ (tCpRun [1#64]).mirror = 3
    ∧ okE ((tCp (some (tCpRun [1#64]))).cpFinish 0 { tBound .running with cp := some (tCpRun [1#64]) } (tCpRun [1#64]) [1#64]) = true := by
  decide +kernel
theorem witness_rebuild_leaves :
    (((tHeld tRebuild true).dropWork 0 tRebuild).tlbCtx 0).cisternLeaves tRebuild.root = [] :=
  leaves_above _ _ (by decide +kernel)

/-! ### Links -/

/-- Port 0 up at DEVID 0, its connection with device 1 on this VC in this state. -/
def tLink (vc : Nat) (c : Conn) : State :=
  { (tS 0).setFld (rSpStatus 0) 31 29 2 with links := { conns := [(connKey 0 1 vc, c)] } }
/-- The next frame of device 1. -/
def tFrame (vc op : Nat) (bs : List Byte) : Frame := { vc := vc, op := op, src := 1, addr := tVa, payload := bs, len := bs.length }
def t16 : List Byte := leBytes 16 16
theorem witness_frames :
    rxInstr (.mgmtFrame 0 (tFrame 3 0x30 t16)) = some (0, tFrame 3 0x30 t16, 3, 0x30)
    ∧ (tLink 3 {}).portUp 0 = true ∧ (tFrame 3 0x30 t16).dst = (tLink 3 {}).devId ∧ t16.length ≤ 4096
    ∧ (tLink 3 {}).ahead 0 (tFrame 3 0x30 t16) = 1 ∧ (tLink 3 {}).ahead 0 { tFrame 3 0x30 t16 with seq := 65535 } = 0
    ∧ (tLink 3 {}).ahead 0 { tFrame 3 0x30 t16 with seq := 32767 } = 32768
    ∧ (tLink 3 {}).ahead 0 { tFrame 3 0x30 t16 with seq := 1 } = 2 ∧ (tLink 3 {}).ahead 0 { tFrame 3 0x30 t16 with seq := 32766 } = 32767
    ∧ ({ tFrame 3 0x30 t16 with dst := 1 } : Frame).dst ≠ (tLink 3 {}).devId := by decide
/-- What each operation asks of an accepted frame: places that can be written or read, at both ends of a read's length. -/
theorem witness_accepted :
    okE (((tLink 1 {}).accepts 0 (tFrame 1 0x10 t16)).writeDir 0 tVa t16) = true
    ∧ okE (((tLink 2 {}).accepts 0 (tFrame 2 0x22 t16)).writeDir 0 tVa t16) = true
    ∧ byteField t16 0 8 = 16 ∧ okE (((tLink 2 {}).accepts 0 (tFrame 2 0x20 t16)).readVa 0 tVa 16) = true
    ∧ byteField (leBytes 16 65536) 0 8 = 65536
    ∧ ((((tLink 2 {}).accepts 0 (tFrame 2 0x23 [])).conn 0 1 2).outst = [])
    ∧ ((((tLink 2 { outst := [{ pair := 0, op := 0x22 }] }).accepts 0 (tFrame 2 0x23 [])).conn 0 1 2).outst = [{ pair := 0, op := 0x22 }])
    ∧ readColl [] = none ∧ readColl (List.replicate 32 0#8) = some { key := 0, k := 0, top := 0, stage := 0, rank := 0, shape := 0, flags := 0, vals := [] }
    ∧ ((tLink 0 {}).accepts 0 (tFrame 0 0x01 (List.replicate 32 0#8))).groupOfKey 0 = none
    ∧ (((tLink 0 {}).setReg (rCoGrpKey 0) 0x8000000000000000#64).accepts 0 (tFrame 0 0x01 (List.replicate 32 0#8))).groupOfKey 0 = some 0
    ∧ rxInstr (.collAbortFrame 0 (tFrame 0 0x01 (List.replicate 12 0#8 ++ [2#8] ++ List.replicate 19 0#8)))
        = some (0, tFrame 0 0x01 (List.replicate 12 0#8 ++ [2#8] ++ List.replicate 19 0#8), 0, 0x01) := by decide +kernel
/-- A WR frame stores its payload and answers with a WR_ACK (R645, R646). -/
theorem test_wr : (match exec (.wrFrame 0 (tFrame 2 0x22 [7#8])) (tLink 2 {}) with
    | .next t => (memRead t.reservoir tAt 1, (t.conn 0 1 2).waiting.map (fun x => x.1.op)) | _ => ([], [])) = ([7#8], [0x23]) := by
  decide +kernel
/-- Device 1's frame two ahead is refused with a NAK of the last one accepted, 65,535 (R639, R640). -/
theorem test_nak : (match exec (.mgmtFrame 0 { tFrame 3 0x30 t16 with seq := 1 }) (tLink 3 {}) with
    | .next t => (t.links.sent.map (fun x => (x.2.typ, x.2.seq)), t.links.delivered.length) | _ => ([], 9)) = ([(3, 65535)], 0) := by decide

/-- A frame that waits, one that is not acknowledged and whose RTO of 16 µs has run, first sent 5 ms ago or before. -/
def tOut (first now : Nat) : State :=
  (tLink 1 { waiting := [(tFrame 1 0x10 t16, none)], unacked := [{ frame := tFrame 1 0x10 t16, first := first }], rtoAt := some 0 }).setReg
    rPmTimebase (BitVec.ofNat 64 now)
theorem witness_send :
    ((tOut 0 0).conn 0 1 1).waiting = [(tFrame 1 0x10 t16, none)] ∧ (tOut 0 0).portUp 0 = true ∧ ((tOut 0 0).conn 0 1 1).unacked.length < 128
    ∧ t16.length ≤ ((tOut 0 0).conn 0 1 1).room ∧ (tOut 0 0).poolUsed 0 + 32 + 16 ≤ 2 ^ 21
    ∧ (tOut 0 0).poolFirst 0 ((tOut 0 0).poolUsed 0 + 32 + 16) = false := by decide
theorem witness_rto :
    0 + (tOut 0 5000001).rto * 2 ^ 0 ≤ (tOut 0 5000001).now ∧ 0 + 5000000 < (tOut 0 5000001).now
    ∧ (tOut 0 5000000).now ≤ 0 + 5000000 ∧ 0 + (tOut 0 5000000).rto * 2 ^ 0 ≤ (tOut 0 5000000).now ∧ 0 < (tOut 0 5000000).retryMax := by
  decide
/-- An ACK due, a connection unreachable for 200 ms, abandoned for 10 ms, a tag in quarantine for 10 ms. -/
def tTimed (c : Conn) : State := (tLink 2 c).setReg rPmTimebase 200000000#64
theorem witness_link_timers :
    0 + (tTimed {}).ackDelay ≤ (tTimed {}).now ∧ ((tTimed { ackDue := some 0 }).conn 0 1 2).ackDue = some 0
    ∧ ((tTimed { unreach := some 0 }).conn 0 1 2).unreach.isSome = true ∧ 0 + 1000000 ≤ (tTimed {}).now
    ∧ 0 + (tTimed {}).holdNs ≤ (tTimed {}).now ∧ ((tTimed { abandoned := some 0 }).conn 0 1 2).abandoned = some 0
    ∧ 0 + 10000000 ≤ (tTimed {}).now ∧ (({ quar := [(5, 0)] } : Conn).quar.find? (fun q => q.1 == 5)) = some (5, 0)
    ∧ ({ unacked := [{ frame := tFrame 2 0x22 t16, job := some 0 }] } : Conn).holds 0 = true := by decide
/-- A port that trains, with every lane, four, two, and none healthy. -/
theorem witness_ports :
    ((tS 0).setFld (rSpStatus 0) 31 29 1).portState 0 = 1 ∧ (tS 0).portWidth 0 255 = some 0 ∧ (tS 0).portWidth 0 15 = some 1
    ∧ (tS 0).portWidth 0 0x30 = some 2 ∧ (tS 0).portWidth 0 0x21 = none ∧ bitOf 0x80000000#64 31 = true ∧ bitOf 1#64 0 = true := by
  decide
/-- Wells 0 and 3 are neighbours of one row, 0 and 8 of one column (R21). -/
theorem witness_fabric :
    (0, 3) ∈ wellLinks 0 ∧ (0, 8) ∈ wellLinks 0 ∧ (0, 3) ∉ (tS 0).fabric := by decide
/-- Frames of each control type for this device (R640, R651, R652). -/
theorem witness_control_frames :
    (tLink 1 {}).portUp 0 = true ∧ (tFrame 1 0 []).dst = (tLink 1 {}).devId ∧ (tFrame 1 0 []).src = (1 : Fin 4096).val
    ∧ (tFrame 1 0 []).vc = (1 : Fin 4).val := by decide

/-! ### The pair -/

/-- A booted device with port 8 up in this pair state, member 0 of pair 1 at epoch 1; the timebase is at one second. -/
def tPair (st : Nat) : State :=
  (((((tQ []).modPw (fun p => { p with pg := true })).setFld rTlStatus 31 29 2).setFld rTlPairStatus 63 60 st).setFld rTlPairStatus 31 0 1
    |>.setReg rPmTimebase 1000000000#64).setReg rTlPairCtl 0x8000000000000001#64
/-- A frame at port 8 in W3, which only waits there (R706). -/
theorem witness_frame_w3 :
    ((tPair 3).setFld rPmState 38 36 3).portUp 8 = true ∧ ((tPair 3).setFld rPmState 38 36 3).fld rPmState 38 36 = 3
    ∧ (tFrame 3 0x30 t16).typ = 1 ∧ (tFrame 3 0x30 t16).dst = ((tPair 3).setFld rPmState 38 36 3).devId := by decide
/-- A member whose job's checkpoint lies in host memory, which is gone. -/
def tSyncHeld : State :=
  { tPair 1 with reservoir := tHostPt, hostDown := some 0, jobs := [tBound .running], saved := [{ job := 0, area := tVa, cpseq := 1 }] }
theorem witness_sync_waits :
    tSyncHeld.syncWaits = some 469 ∧ tSyncHeld.pairState = 1 ∧ (tPair 1).syncWaits = none ∧ (tPair 1).inW3 = false
    ∧ (tPair 3).inW3 = false := by decide +kernel
theorem witness_formation :
    (tPair 0).portUp 8 = true ∧ bitOf 0x8000000000000001#64 63 = true ∧ (tPair 0).pairState = 0 ∧ (tPair 1).pairState = 1
    ∧ okHdr.pairId = (tPair 1).pairId ∧ ({ okHdr with pairId := 2 } : PairHdr).pairId ≠ (tPair 1).pairId
    ∧ (0 : Fin 2).val = (tPair 1).fld rTlPairCtl 62 62 ∧ (1 : Fin 2).val ≠ (tPair 1).fld rTlPairCtl 62 62
    ∧ (7#16).toNat ≠ (tPair 1).ucode ∧ (0#16).toNat = (tPair 1).ucode
    ∧ 1#64 &&& ((tPair 1).setReg rTlPairQown 1#64).reg rTlPairQown ≠ 0#64 ∧ 2#64 &&& ((tPair 1).setReg rTlPairQown 1#64).reg rTlPairQown = 0#64
    ∧ (tPair 2).epoch ≤ okHdr.epoch ∧ ({ okHdr with epoch := 0 } : PairHdr).epoch < (tPair 2).epoch
    ∧ ((tPair 2).modPair (fun p => { p with sentSync := true })).pair.sentSync = true ∧ (tPair 2).pair.sentSync = false
    ∧ pairInstr (.yield okHdr) = some okHdr := by decide
/-- Members of one pair that are both member 0 refuse each other with reason 2 (R676). -/
theorem test_hello : ((match exec (.pairHello okHdr 0 0#64 0#16) (tPair 1) with
    | .next t => (t.pairState, t.fld rTlPairStatus 57 54) | _ => (0, 0)) = (8, 2)) := by decide

/-- A place that the mirrored tables reach; a journal record under way; a member that yields and one that does not. -/
theorem witness_mirror :
    (tPair 3).portUp 8 = true ∧ okHdr.pairId = (tPair 3).pairId ∧ (tPair 3).epoch ≤ okHdr.epoch ∧ okEntry.typ ≠ 0
    ∧ okE ((tPair 3).writeDir (rootCtx 0) tVa [7#8]) = true
    ∧ okE ((tPair 3).writeDir (rootCtx 0) tVa (okCp.fields.flatMap guardBytes)) = true
    ∧ ({ tPair 3 with jobs := [tNew .accepting] } : State).tagJob 3 0 1 (fun y => decide (y.phase = .accepting ∨ y.phase = .ended)) = some 0
    ∧ (tPair 3).pair.frozen = false ∧ (tPair 3).pairState = 3 ∧ (tPair 2).pairState = 2 := by decide +kernel

/-- A twin heard 1 ms ago, before that, and one never heard; a link down for 5 ms; a suspension of 3 s. -/
def tTwin (hb : Option Nat) (st : Nat) : State := (tPair st).modPair (fun p => { p with hbAt := hb, linkDownAt := some 5 })
theorem witness_judge :
    (tTwin none 3).hbPresent = false ∧ ((tTwin none 3).setFld rTlPairStatus 59 58 3).fld rTlPairStatus 59 59 = 1
    ∧ ((tTwin none 3).setFld rTlPairStatus 59 58 3).fld rTlPairStatus 58 58 = 1 ∧ (tTwin none 3).linkPresent = false
    ∧ (tTwin (some 999000000) 3).hbPresent = true ∧ (tTwin (some 998999999) 3).hbPresent = false
    ∧ ((tPair 4).modPair (fun p => { p with linkDownAt := none })).linkPresent = true ∧ (tTwin none 3).pair.suspended = none
    ∧ 2 ≤ (tTwin none 2).pairState ∧ (tTwin none 5).pairState ≤ 5
    ∧ 0 + 3000000000 ≤ ((tTwin none 3).setReg rPmTimebase 3000000000#64).now := by decide
/-- The member that neither hears its twin nor has the link is ISOLATED, and one that hears it goes on alone (R688). -/
theorem test_judge : (tTwin none 3).judge.pairState = 5 ∧ (tTwin (some 999000000) 3).judge.pairState = 4 := by decide

/-- Each command of TL_PAIR_CMD where it is allowed, where it is not, and while another is under way. -/
theorem witness_pair_commands :
    (tTwin none 5).pairOp (.pairTakeoverCmd 1#64) = some (1#64, 1, true) ∧ (tTwin none 5).pairOp (.pairSoloCmd 2#64) = some (2#64, 2, true)
    ∧ (tPair 3).pairOp (.pairStanddownCmd 3#64) = some (3#64, 3, true) ∧ (tPair 6).pairOp (.pairRejoinCmd 4#64) = some (4#64, 4, true)
    ∧ (tPair 6).pairOp (.pairHandbackCmd 5#64) = some (5#64, 5, true) ∧ (tPair 3).pairOp (.pairTakeoverCmd 1#64) = some (1#64, 1, false)
    ∧ bitsOf 5#64 2 0 = 5 ∧ (tPair 3).fld rTlPairCmd 31 31 = 0 ∧ ((tPair 3).setFld rTlPairCmd 31 31 1).fld rTlPairCmd 31 31 = 1
    ∧ (tTwin none 5).linkPresent = false ∧ (tTwin none 5).hbPresent = false ∧ (tTwin (some 999000000) 5).hbPresent = true
    ∧ (tPair 6).fld rTlPairCtl 63 63 = 1 ∧ (tPair 6).takenBusy = false
    ∧ ({ (tPair 6).modPair (fun p => { p with taken := 8#64 }) with jobs := [tNew .waiting] } : State).takenBusy = true := by decide

/-! ### Power -/

/-- A booted device at one second, with no jobs and no wells at work. -/
def tDev : State := { (tQ []).setReg rPmTimebase 1000000000#64 with wells := [] } |>.modPw (fun p => { p with pg := true })
theorem witness_entries :
    tDev.pmOp (.pmCmdW2 0xA000001#64) = some (0xA000001#64, 2, [0], true) ∧ bitOf 0xA000001#64 27 = true ∧ bitsOf 0xA000001#64 26 24 = 2
    ∧ tDev.levelSource 2 [0] = none ∧ tDev.fld rPmCmd 31 31 = 0 ∧ (tDev.setFld rPmCmd 31 31 1).fld rPmCmd 31 31 = 1
    ∧ (tS 0).pmOp (.pmCmdW2 0xA000001#64) = some (0xA000001#64, 2, [0], false)
    ∧ (tDev.modPw (fun p => { p with entry := some { target := 2, wells := [0], at_ := 0, cmd := true } })).pmOp (.pmCmdW3 0xB000000#64)
      = some (0xB000000#64, 3, List.range 12, false)
    := by decide
theorem witness_wake_command :
    bitsOf 0x8000001#64 26 24 = 0 ∧ bitOf 0x8000001#64 27 = true
    ∧ ((tDev.setFld rPmWake 23 16 0).fld rPmWake 23 16).testBit 6 = false ∧ ((tDev.setFld rPmWake 23 16 0x40).fld rPmWake 23 16).testBit 6 = true
    ∧ (tDev.setFld rPmState 38 36 3).devicePm = 3 ∧ tDev.devicePm ≠ 3 ∧ tDev.asleep (wellsOf 1) = []
    ∧ (tDev.setFld rPmState 2 0 2).asleep (wellsOf 1) = [0] := by decide
/-- With every queue decided, no session, no poison under way and the pair alone, the device may enter W3 and W4; the alarm's
level ends that entry at once. -/
theorem witness_deep_entries :
    ((tDev.setFld (rQSqTail 3) 15 0 0).pmOp (.pmCmdW3 0xB000000#64) = some (0xB000000#64, 3, List.range 12, true))
    ∧ ((tDev.setFld (rQSqTail 3) 15 0 0).pmOp (.pmCmdW4 0xC000000#64) = some (0xC000000#64, 4, List.range 12, true))
    ∧ (((tDev.setFld rPmWake 23 16 0x10).setReg rPmAlarm 0x8000000000000000#64).levelSource 3 []).isSome = true := by decide
/-- A command that a W2 entry refuses while job 0 runs on the well answers RESULT 1 (R707, R736). -/
theorem test_w2_refused : ((match exec (.pmCmdW2 0xA000001#64) (tS 0) with
    | .next t => (t.fld rPmCmd 31 31, t.fld rPmCmd 30 28) | _ => (9, 9)) = (0, 1)) := by decide

/-- A well idle since 0 for its 100 µs, with and without a store under way; wells in W1 and W2 for their times. -/
def tIdleAt : State := tDev.modPw (fun p => { p with idleAt := [(0, some 0)] })
theorem witness_idle :
    tIdleAt.wellPm 0 = 0 ∧ tIdleAt.inService 0 = true ∧ tIdleAt.wellBusy 0 = false ∧ tabGet none tIdleAt.pw.idleAt 0 = some 0
    ∧ 0 + tIdleAt.policy 31 16 100 1000 ≤ (tIdleAt.setReg rPmTimebase 100000#64).now ∧ tIdleAt.drained 0 = true
    ∧ ({ tIdleAt with pumps := [(0, { state := 1 })] } : State).drained 0 = false ∧ tabGet none tIdleAt.pw.w1Req 0 = none
    ∧ ((tDev.setFld rPmPolicy 1 0 3).fld rPmPolicy 0 0) = 1 ∧ ((tDev.setFld rPmPolicy 1 0 3).fld rPmPolicy 1 1) = 1
    ∧ (tDev.setFld rPmState 2 0 1).wellPm 0 = 1 ∧ (tDev.setFld rPmState 2 0 1).mayW2 0 = true
    ∧ 0 + tDev.policy 47 32 100 1000000 ≤ (tDev.setReg rPmTimebase 100000000#64).now
    ∧ 0 + tDev.policy 63 48 1000 1000000 ≤ tDev.now := by decide
def tAsleep : State := (List.range 12).foldl (fun (t : State) w => t.setFld rPmState (3 * w + 2) (3 * w) 2) (tDev.setFld (rQSqTail 3) 15 0 0)
theorem witness_asleep :
    tAsleep.booted = true ∧ tAsleep.mayW3 = true ∧ tAsleep.levelSource 3 tAsleep.keptWells = none
    ∧ ∀ w < 12, tAsleep.wellLost w = true ∨ tAsleep.wellPm w = 2 ∧ tabGet 0 tAsleep.pw.stateAt w + tAsleep.policy 63 48 1000 1000000 ≤ tAsleep.now := by
  decide
/-- Entries under way to each state, drained or, with a pump at work, not for 1 ms. -/
def tEntering (target : Nat) : State := tDev.modPw (fun p => { p with entry := some { target := target, wells := [0], at_ := 0, cmd := true } })
theorem witness_entry_drain :
    (tEntering 2).entryDrained { target := 2, wells := [0], at_ := 0, cmd := true } = true
    ∧ (tEntering 3).entryDrained { target := 3, wells := [0], at_ := 0, cmd := true } = true
    ∧ (tEntering 4).entryDrained { target := 4, wells := [0], at_ := 0, cmd := true } = true
    ∧ ({ tEntering 2 with pumps := [(0, { state := 1 })] } : State).entryDrained { target := 2, wells := [0], at_ := 0, cmd := true } = false
    ∧ 0 + 1000000 ≤ (tEntering 2).now := by decide
theorem test_entry_complete : ((match exec .entryComplete (tEntering 2) with
    | .next t => (t.wellPm 0, t.wellPm 1, t.fld rPmCmd 30 28) | _ => (9, 9, 9)) = (2, 0, 0)) := by decide +kernel

/-- Sources 4 in W4, in W3 and during an entry; the next job of the list on a well in W2 (8). -/
def tWake (s : State) : State := s.setFld rPmWake 23 16 0x88 |>.setFld rPmWake 7 0 0x88
theorem witness_wakes :
    ((tWake (tEntering 3)).latchWake 4).wakes 3 [0] 4 = true
    ∧ ((tWake (tDev.modPw (fun p => { p with w4 := true }))).latchWake 4).wakes 4 [] 4 = true
    ∧ ((tWake (tDev.setFld rPmState 38 36 3)).latchWake 4).wakes 3 [] 4 = true ∧ (tWake (tDev.setFld rPmState 38 36 3)).pw.rails = []
    ∧ (tWake tDev).pw.entry = none ∧ (tWake tDev).pw.w4 = false ∧ (tWake tDev).devicePm ≠ 3 ∧ (4 : Fin 9).val = 4
    ∧ ((tWake tDev).fld rPmWake 23 16).testBit 7 = true
    ∧ 0 ∈ (tWait.setFld rPmState 2 0 2).asleep (tWait.setFld rPmState 2 0 2).jobWells ∧ tWait.pw.staging = [] := by decide +kernel

/-- Wells to start, 200 µs after the last; rails that ramp, past each limit, at the first and the second attempt; rails off
for 1 ms; a reservoir controller's domain with a good REF100. -/
def tRail (d : Nat) (r : Rail) : State := tDev.modPw (fun p => { p with rails := [(d, r)] })
theorem witness_staging :
    (tDev.modPw (fun p => { p with staging := [0, 1], railAt := some 999800000 })).pw.staging = 0 :: [1]
    ∧ 999800000 + 200000 ≤ tDev.now ∧ (tRail 3 { phase := 1 }).ramping < 2 ∧ (tDev.rail 24).phase ≠ 2
    ∧ (tRail 0 { phase := 1 }).rail 0 = { phase := 1 } ∧ ((tRail 0 { phase := 1 }).rail 12).phase = 0
    ∧ (tRail 12 { phase := 1 }).fld (rPmRefStat 2) 63 61 = 0 ∧ ((tRail 25 { phase := 1 }).rail 25).phase = 1
    ∧ ((tRail 24 { phase := 1 }).rail 24).phase = 1
    ∧ 998000000 + 2000000 ≤ tDev.now ∧ 999800000 + 200000 ≤ tDev.now
    ∧ ((tRail 0 { phase := 1, at_ := 998000000, second := true }).rail 0).second = true ∧ bitOf (tDev.reg rPmWakeFail) 63 = false
    ∧ ((tRail 0 { phase := 2, at_ := 999000000 }).rail 0).phase = 2 ∧ 999000000 + 1000000 ≤ tDev.now := by decide
/-- A well whose rails fail twice is LOST, with cause 3 of WH_WELL_LOST (R721). -/
theorem test_domain_failure :
    ((match exec (.powerGoodTimeout 0) (tRail 0 { phase := 1, at_ := 0, second := true }) with
      | .next t => (t.wellState 0, t.fld rWhWellLost 3 0) | _ => (9, 9)) = (3, 3)) := by decide +kernel

/-- References in W0 and in W3, FAULT for 1 ms, ABSENT for 100 ms. -/
theorem witness_references :
    tDev.devicePm ≠ 3 ∧ tDev.pw.w4 = false ∧ (tDev.setFld rPmState 38 36 3).devicePm = 3 ∧ tDev.pw.rails = []
    ∧ (tRail 24 { phase := 1 }).pw.rails ≠ [] ∧ (tDev.setFld (rPmRefStat 2) 63 61 1).fld (rPmRefStat 2) 63 61 ≠ 0
    ∧ tabGet 0 tDev.pw.refAt 2 + 1000000 ≤ tDev.now ∧ (tDev.setFld (rPmRefStat 2) 63 61 3).fld (rPmRefStat 2) 63 61 = 3
    ∧ tDev.devicePm = 0 ∧ tDev.pw.wakeAt + 100000000 ≤ tDev.now := by decide
/-- A fault of REF100 puts the packages in self-refresh and the timebase on the oscillator (R728, R733). -/
theorem test_reference : ((match exec (.referenceFault 2 100#16) tDev with
    | .next t => (t.rvSelfRefresh, t.fld rPmTbStatus 62 62, t.fld (rPmRefStat 2) 63 61) | _ => (false, 9, 9)) = (true, 1, 1)) := by
  decide +kernel
/-- The alarm at the present time, not yet fired. -/
theorem witness_alarm :
    (tDev.setReg rPmAlarm 0x800000003B9ACA00#64).fld rPmAlarm 63 63 = 1
    ∧ (tDev.setReg rPmAlarm 0x800000003B9ACA00#64).fld rPmAlarm 62 0 = tDev.now ∧ tDev.pw.alarmed = false := by decide
/-- An edge of REF100 counts 10 ns; the oscillator's first counts 30,517 ns and keeps 37 sixty-fourths (R730). -/
theorem test_timebase :
    ((match exec .timebaseAdvance tDev with | .next t => t.now | _ => 0) = 1000000010)
    ∧ ((match exec .timebaseAdvance (tDev.setFld rPmTbStatus 62 62 1) with | .next t => (t.now, t.pw.frac) | _ => (0, 0)) = (1000030517, 37)) := by
  decide +kernel
/-! ### Supply, reset and boot -/

theorem witness_supply :
    tDev.pw.off = false ∧ tDev.pw.pg = true ∧ (tQ []).pw.off = false ∧ (tQ []).pw.standby = false ∧ (tQ []).pw.w4 = false
    ∧ (tQ []).pw.pg = false ∧ tDev.alive = true ∧ tDev.pw.tripDie = none ∧ tDev.answers = true
    ∧ tDev.powerOk tDev.pw.limitW tDev.pw.limitW = true ∧ tDev.pw.excOn = false ∧ tDev.powerOk 4600 tDev.pw.limitW = true
    ∧ tDev.powerOk 4601 0 = false ∧ 0 ∈ tDev.supplied ∧ tabGet 600 ({ vtherm := [(0, 850)] } : Power).vtherm 0 ≤ 920
    ∧ (tDev.setReg rPmInputLimit 4000#64).fld rPmInputLimit 12 0 ≤ 4000 := by decide
theorem witness_management :
    tDev.mgmtRead .statusInput = some [tDev.pw.stInput] ∧ (tDev.setFld rFcAlert 2 2 1).fld rFcAlert 10 0 ≠ 0
    ∧ (tDev.setReg rScSweep 0x0000000100000000#64).current = [] ∧ tDev.current ≠ []
    ∧ tDev.mgmtRead .smbusAlertResponse = some [] := by decide
theorem witness_perst :
    (tDev.modPw (fun p => { p with perst0 := true })).pw.perst0 = true ∧ (tDev.modPw (fun p => { p with perst0 := true })).alive = true
    ∧ tDev.pw.sampled = false ∧ (tDev.modPw (fun p => { p with sampled := true, perst0 := false })).pw.sampled = true
    ∧ (tDev.modPw (fun p => { p with perst1 := true })).pw.perst1 = true ∧ ({ tDev with bifurc := true } : State).bifurc = true
    ∧ tDev.qOwner 3 = (0 : Fin 2).val ∧ ({ tDev.setFld (rQCtl 32) 61 61 1 with bifurc := true } : State).qOwner 32 ≠ (0 : Fin 2).val
    ∧ tDev.fld (rPmRefStat (0 : Fin 2)) 63 61 = 0 := by decide +kernel
/-- A cold reset leaves nothing of a job, and the count of cold starts is one more (R730, R738). -/
theorem test_cold_reset : ((match exec .coldReset (tS 0) with | .next t => (t.jobs, t.reservoir, t.fld rPmTbStatus 47 32) | _ => ([], [], 0))
    = ([], [], 1)) := by decide +kernel
/-- PM_INPUT_LIMIT above the range is applied as 4,000 W (R55). -/
theorem test_limit : ((match exec .inputLimitApply (tDev.setReg rPmInputLimit 5000#64) with | .next t => t.pw.limitW | _ => 0) = 4000) := by
  decide +kernel

theorem witness_resets :
    tDev.resetOp (.warmReset 1#64 true) = some (1#64, 1, true) ∧ (tDev.setFld rTlPairStatus 63 60 7).resetOp (.takeoverReset 2#64 true) = some (2#64, 2, true)
    ∧ tDev.resetOp (.wellReset 0x10003#64) = some (0x10003#64, 3, true) ∧ (tDev.setFld rWhBoot 63 60 8).resetOp (.runRecoveryImage 4#64) = some (4#64, 4, true)
    ∧ tDev.resetOp (.runRecoveryImage 4#64) = some (4#64, 4, false) ∧ bitsOf 0x10003#64 2 0 = 3 ∧ tDev.fld rWhReset 31 31 = 0
    ∧ (tDev.setFld rWhReset 31 31 1).fld rWhReset 31 31 = 1 ∧ tDev.firmwareRuns = true ∧ tDev.booted = true ∧ tDev.resettable 0 = true
    ∧ ((tabGet [] tDev.pw.resets 0).filter (fun n => decide (tDev.now < n + 1000000000))).length < 3
    ∧ 3 ≤ ((tabGet [] (tDev.modPw (fun p => { p with resets := [(0, [1, 2, 3])] })).pw.resets 0).filter
        (fun n => decide (tDev.now < n + 1000000000))).length := by decide
/-- A recovery image of no bytes fails its checks: RESULT 2, and recovery goes on (R744, R748, R754). -/
theorem test_recovery : ((match exec (.runRecoveryImage 4#64) (tDev.setFld rWhBoot 63 60 8) with
    | .next t => (t.stage, t.fld rWhReset 30 28) | _ => (0, 0)) = (8, 2)) := by decide +kernel

def tBoot (st : Nat) : State := tDev.setFld rWhBoot 63 60 st
theorem witness_boot :
    ((tBoot 1).modPw (fun p => { p with copies := [0, 1] })).pw.copies = 0 :: [1] ∧ (tBoot 1).stage = 1
    ∧ ((tBoot 1).modPw (fun p => { p with copies := [1] })).pw.copies = 1 :: [] ∧ tDev.aqLost (6 * 1) = false
    ∧ (tBoot 3).stage = 3 ∧ (List.replicate 12 (0xFF#8)).length = 12 ∧ (tBoot 5).stage = 5 ∧ (tBoot 5).pw.trained = false
    ∧ (List.replicate 36 (0#8)).length = 36 ∧ untrained ((List.replicate 36 (0xFF#8)).getD 35 0#8).toNat = true
    ∧ ((tBoot 5).modPw (fun p => { p with testing := [(0, 0), (11, 2)] })).pw.testing.find? (fun t => t.1 == 11) = some (11, 2)
    ∧ (tBoot 10).stage = 10 ∧ (tBoot 5).pw.testing = [] ∧ ((tBoot 5).modPw (fun p => { p with trained := true })).pw.trained = true := by decide
/-- A copy that cannot be read leaves the other, and with none left the device waits in stage 8 (R746, R748). -/
theorem test_boot_copy :
    ((match exec (.bootCopyChecked false) ((tBoot 1).modPw (fun p => { p with copies := [0, 1] })) with
      | .next t => (t.stage, t.fld rWhBoot 57 54, t.pw.copies) | _ => (0, 0, [])) = (1, 1, [1]))
    ∧ ((match exec (.bootCopyChecked false) ((tBoot 1).modPw (fun p => { p with copies := [1] })) with
      | .next t => (t.stage, t.fld rWhBoot 53 50) | _ => (0, 0)) = (8, 1)) := by decide +kernel
/-- A well whose controller fails its self-test is LOST (R750, R779). -/
theorem test_self_test : ((match exec (.wellSelfTestDone 11 0#136 true false 5#32) ((tBoot 5).modPw (fun p => { p with testing := [(11, 2)] })) with
    | .next t => (t.wellState 11, t.fld rWhWellCmd 30 28, t.fld (rWlStResult 11) 31 0) | _ => (0, 0, 0)) = (3, 2, 5)) := by decide +kernel

/-! ### Wells, reports, sensors and register writes -/

/-- FENCE and TEST and RELEASE of well 11 where they are allowed, of well 12, and while another is under way. -/
def tFencedWell : State := (tDev.setFld rWhWellState 47 46 1).setFld rWhWellState 59 59 1
theorem witness_well_commands :
    tDev.wellOp (.wellCmdFence 0xB1#64) = some (0xB1#64, 1, true) ∧ tFencedWell.wellOp (.wellCmdTest 0xB2#64) = some (0xB2#64, 2, true)
    ∧ tFencedWell.wellOp (.wellCmdRelease 0xB3#64) = some (0xB3#64, 3, true) ∧ tDev.wellOp (.wellCmdRelease 0xB3#64) = some (0xB3#64, 3, false)
    ∧ bitsOf 0xB3#64 1 0 = 3 ∧ bitsOf 0xB3#64 7 4 = 11 ∧ 12 ≤ bitsOf 0xC1#64 7 4 ∧ (tDev.wellOp (.wellCmdFence 0xC1#64)).isSome = true
    ∧ tDev.fld rWhWellCmd 31 31 = 0 ∧ (tDev.setFld rWhWellCmd 31 31 1).fld rWhWellCmd 31 31 = 1
    ∧ tFencedWell.wellState 11 = 1 ∧ tFencedWell.wellPm 11 < 2 ∧ (tFencedWell.setFld rPmState 35 33 2).wellPm 11 = 2 := by decide
/-- The fenced well with every bobbin tested good. -/
def tTested : State := { tFencedWell with bobs := (List.range 136).map (fun p => (11 * 136 + p, { passedTest := true })) }
/-- A fenced well that ran its self-test returns to service in W1 (R780). -/
theorem test_release : ((match exec (.wellCmdRelease 0xB3#64) tTested with
    | .next t => (t.wellState 11, t.wellPm 11, t.fld rWhWellCmd 30 28) | _ => (9, 9, 9)) = (0, 1, 0)) := by decide +kernel

def tReport (sev : Fin 4) : ReportIn := { src := 3, cls := 5, sev := sev, rsrc := 3, runit := 7, unit := 7, detail := 0 }
theorem witness_reports :
    (tReport 1).cls.val ≠ 0 ∧ bitOf (tDev.reg (rFcRec (16 * 3 + 5))) 63 = false ∧ bitOf ((tDev.setFld (rFcRec (16 * 3 + 5)) 63 63 1).reg (rFcRec (16 * 3 + 5))) 63 = true
    ∧ (tDev.setFld rFcSummary 63 63 1).fld rFcSummary 63 63 = 1 ∧ tDev.fcLast = none ∧ bitOf 2#64 1 = true ∧ bitOf 2#64 0 = false
    ∧ bitOf 1#64 0 = true := by decide
/-- A second report of one source and class counts the first's record and keeps the larger severity (R759). -/
theorem test_report : ((match exec (.faultReport (tReport 1)) ((tDev.setFld (rFcRec (16 * 3 + 5)) 63 63 1).setFld (rFcRec (16 * 3 + 5)) 62 61 2) with
    | .next t => (t.fld (rFcRec (16 * 3 + 5)) 62 61, t.fld (rFcRec (16 * 3 + 5)) 47 32) | _ => (9, 9)) = (2, 1)) := by decide +kernel

def tSweep : Sweep := { dies := List.replicate 25 (40#10, 0#12), inlet := 300#16, outlet := 400#16, dur := 9#16 }
theorem witness_sensors :
    tDev.senses = true ∧ tDev.sweepDue = true ∧ tSweep.dies.length = 25 ∧ tDev.sweepsOne = false ∧ tDev.pw.hopAsc = none
    ∧ tDev.reached 24 = true ∧ 24 ∈ tDev.sought ∧ (tDev.setFld rPmState 38 36 3).sought = [0] ∧ (23 : Fin 25).val < 24
    ∧ (tDev.modPw (fun p => { p with hopAsc := some 4, hopDesc := some 9 })).reached 5 = false
    ∧ (tDev.modPw (fun p => { p with hopAsc := some 4, hopDesc := some 9 })).reached 10 = true
    ∧ (tDev.modPw (fun p => { p with hopAsc := some 4 })).pw.hopAsc = some 4 ∧ (4 : Nat) < (5 : Fin 25).val := by decide
/-- Die 24's junction in quarter degrees, from the first sweep (R766, R769). -/
theorem test_sweep : ((match exec (.sensorSweep tSweep) tDev with
    | .next t => (t.fld rScSweep 63 32, t.fld (rScDie 24) 31 22, t.fld rScCoolant 31 16) | _ => (9, 9, 9)) = (1, 40, 400)) := by decide +kernel

/-- PM_POLICY, whose fields only store; SP_DEVID before and after the commit; a well's block without power. -/
theorem witness_register_writes :
    tDev.functionUp 0 = true ∧ (BitVec.ofNat 26 rPmPolicy).toNat / 8 * 8 = rPmPolicy ∧ (BitVec.ofNat 26 rPmPolicy).toNat % (8 : Fin 9).val = 0
    ∧ (plainRows.find? (fun r => r.holds rPmPolicy)).isSome = true ∧ tDev.answersAt rPmPolicy = true
    ∧ (BitVec.ofNat 26 rSpDevid).toNat / 8 * 8 = rSpDevid ∧ tDev.answersAt rSpDevid = true ∧ tDev.fld rSpCommit 0 0 = 0
    ∧ (tDev.setFld rSpCommit 0 0 1).fld rSpCommit 0 0 = 1 ∧ (BitVec.ofNat 26 rWhFw).toNat / 8 * 8 = rWhFw ∧ tDev.answersAt rWhFw = true
    ∧ (BitVec.ofNat 26 rFcAlert).toNat / 8 * 8 = rFcAlert ∧ tDev.answersAt rFcAlert = true
    ∧ (tDev.setFld rPmState 2 0 2).answersAt (rWlStResult 0) = false ∧ (BitVec.ofNat 26 (rWlStResult 0)).toNat % (8 : Fin 9).val = 0 := by
  decide
/-- The upper half of PM_POLICY alone (R785); an access that is not aligned is reported by source 21 (R14). -/
theorem test_register_write :
    ((match exec (.registerWrite 0 (BitVec.ofNat 26 (rPmPolicy + 4)) 4 0x00050006#64) tDev with
      | .next t => (t.fld rPmPolicy 63 48, t.fld rPmPolicy 47 32, t.fld rPmPolicy 31 0) | _ => (9, 9, 9))
      = (5, 6, tDev.fld rPmPolicy 31 0))
    ∧ ((match exec (.registerWrite 0 (BitVec.ofNat 26 (rPmPolicy + 2)) 4 0x00050006#64) tDev with
      | .next t => (t.reg rPmPolicy == tDev.reg rPmPolicy, t.fld (rFcRec (16 * 21 + 13)) 63 63) | _ => (false, 9)) = (true, 1)) := by
  decide +kernel

end Sys2Proof.Tests
end

section
/-!
SUPPORT. Bytes stored by a virtual address (R12, R424).
-/
namespace Sys2Proof.Machine

/-- Bytes within one 64 KiB page are one run. -/
theorem runsOf_of_within {va n : Nat} (hn : 0 < n) (h : va % 65536 + n ≤ 65536) : runsOf va n = [(va, n)] := by
  have hk : min n (65536 - va % 65536) = n := by omega
  simp [runsOf, pageRuns, hk, Nat.ne_of_gt hn]

theorem Leaf.page_eq (l : Leaf) : l.page = 65536 ∨ l.page = 2 ^ 21 := by
  unfold Leaf.page
  split <;> simp

/-- An offset into a page has the rest of its 64 KiB before the page's end. -/
theorem Leaf.offset_add_le {l : Leaf} {va n : Nat} (h : va % 65536 + n ≤ 65536) : va % l.page + n ≤ l.page := by
  obtain hp | hp := l.page_eq <;> rw [hp] <;> omega

variable {s : State}

/-- A tier that answers gives the place it was asked for. -/
theorem State.tierWait_ok {l m : Loc} (h : s.tierWait l = .ok m) : m = l := by
  unfold State.tierWait at h
  split at h
  · split at h <;> cases h
    rfl
  · split at h
    · cases h
    · split at h
      · cases h
      · dsimp only at h
        split at h <;> cases h
        rfl
  · cases h
    rfl

/-- A translation that succeeds gives a place in the page of a leaf that the context may reach. -/
theorem State.translate_ok {ctx va : Nat} {write : Bool} {l : Loc} (h : s.translate ctx va write = .ok l) :
    ∃ leaf, s.isolated ctx leaf = false ∧ leafTier leaf.val = some l.tier
      ∧ l.addr = leafFrame leaf.val + va % leaf.page := by
  unfold State.translate at h
  split at h
  · cases h
  next leaf _ =>
    split_ifs at h with _ isolated
    split at h
    next t tier =>
      cases State.tierWait_ok h
      exact ⟨leaf, Bool.eq_false_iff.mpr isolated, tier, rfl⟩
    · cases h

/-- A leaf that a context may reach in a cistern has its page there (R434). -/
theorem State.page_le_of_not_isolated {ctx w : Nat} {leaf : Leaf} (h : s.isolated ctx leaf = false)
    (tier : leafTier leaf.val = some (.cistern w)) : leafFrame leaf.val + leaf.page ≤ cisternSize := by
  simp only [State.isolated, tier, Bool.or_eq_false_iff, decide_eq_false_iff_not] at h
  omega

/-- Bytes of one 64 KiB page that translate to a cistern lie in it. -/
theorem State.translate_cistern_le {ctx va n w : Nat} {write : Bool} {l : Loc} (h : s.translate ctx va write = .ok l)
    (hl : l.tier = .cistern w) (hn : va % 65536 + n ≤ 65536) : l.addr + n ≤ cisternSize := by
  obtain ⟨leaf, reach, tier, addr⟩ := State.translate_ok h
  have frame := State.page_le_of_not_isolated reach (hl ▸ tier)
  have offset := leaf.offset_add_le hn
  omega

theorem State.setFld_frame (o hi lo v : Nat) : { s.setFld o hi lo v with regs := s.regs } = s := rfl

theorem State.recountPoison_frame (t : Tier) : { s.recountPoison t with regs := s.regs } = s := by
  cases t
  case cistern => exact State.setFld_frame ..
  case reservoir => exact State.setFld_frame ..
  all_goals rfl

/-- Poison lies beside the bytes. -/
theorem State.clearPoison_frame (l : Loc) (n : Nat) :
    { s.clearPoison l n with poison := s.poison, regs := s.regs } = s := by
  unfold State.clearPoison
  dsimp only
  split
  · rfl
  · exact congrArg (fun u : State => { u with poison := s.poison })
      (State.recountPoison_frame (s := { s with poison := _ }) _)

theorem State.rawRead_clearPoison (l x : Loc) (n k : Nat) : (s.clearPoison l n).rawRead x k = s.rawRead x k := by
  conv_rhs => rw [← s.clearPoison_frame l n]
  rfl

theorem memRead_one_write_ne {m : Mem} {a i : Nat} {bs : List Byte} (h : i < a ∨ a + bs.length ≤ i) :
    memRead (memWrite m a bs) i 1 = memRead m i 1 :=
  congrArg (fun b => [b]) (memGet_write_ne m a i bs h)

/-- A write of bytes that end in their cistern leaves every other byte of a tier. -/
theorem State.rawRead_rawWrite_outside {l x : Loc} {bs : List Byte} (hx : x.addr < x.tier.size)
    (ho : outside l bs.length x) (hl : ∀ w, l.tier = .cistern w → l.addr + bs.length ≤ cisternSize) :
    (s.rawWrite l bs).rawRead x 1 = s.rawRead x 1 := by
  obtain ⟨tier, a⟩ := l
  obtain ⟨tierX, b⟩ := x
  simp only [outside, ne_eq] at ho
  cases tier with
  | cistern w =>
    cases tierX with
    | cistern v =>
      have end_le := hl w rfl
      simp only [Tier.size, cisternSize, Tier.cistern.injEq] at hx end_le ho
      exact memRead_one_write_ne (by simp only [cisKey]; omega)
    | _ => rfl
  | reservoir =>
    cases tierX with
    | reservoir => exact memRead_one_write_ne (by simpa using ho)
    | _ => rfl
  | aquifer =>
    cases tierX with
    | aquifer => exact memRead_one_write_ne (by simpa using ho)
    | _ => rfl
  | host =>
    cases tierX with
    | host => exact memRead_one_write_ne (by simpa using ho)
    | _ => rfl

/-- A write within one page stores its bytes at the place of the first. -/
theorem State.writeVa_of_within {t : State} {ctx va : Nat} {bs : List Byte} {l : Loc} (hn : 0 < bs.length)
    (h : va % 65536 + bs.length ≤ 65536) (hl : s.translate ctx va true = .ok l) (hw : s.writeVa ctx va bs = .ok t) :
    t = (s.clearPoison l bs.length).rawWrite l bs := by
  rw [State.writeVa, runsOf_of_within hn h] at hw
  split at hw
  · cases hw
  · simp only [List.foldlM_cons, List.foldlM_nil, hl, bind, Except.bind, pure, Except.pure, Nat.sub_self,
      List.drop_zero, List.take_length] at hw
    split at hw
    · cases hw
    next e =>
      split at e
      · cases e
      · cases e
        cases hw
        rfl

/-- Settles O33: bytes within one page are one run, whose write changes them alone and the poison it clears. -/
theorem virtualStoreIsReadBack : Obligations.VirtualStoreIsReadBack := by
  intro s t ctx va bs l hn hpage hl hw
  obtain rfl := State.writeVa_of_within hn hpage hl hw
  refine ⟨⟨State.rawRead_rawWrite _ l bs, fun x hx ho => ?_⟩, ?_⟩
  · rw [State.rawRead_rawWrite_outside hx ho (fun w tier => State.translate_cistern_le hl tier hpage),
      State.rawRead_clearPoison]
  · obtain ⟨tier, a⟩ := l
    have frame := s.clearPoison_frame ⟨tier, a⟩ bs.length
    generalize s.clearPoison ⟨tier, a⟩ bs.length = u at frame ⊢
    rw [← frame]
    cases tier <;> rfl

end Sys2Proof.Machine
end

section
/-!
SUPPORT. Writes of BAR0 (R14, R15, R705, R785, R788).
-/
namespace Sys2Proof.Machine

/-! ### Bits of a word -/

/-- A field replaced leaves the bits above it. -/
theorem bitOf_setBits_of_lt {w : Word} {hi lo v i : Nat} (hlo : lo ≤ hi) (hi_lt : hi < i) (h64 : i < 64) :
    bitOf (setBits w hi lo v) i = bitOf w i := by
  have low : w.toNat % 2 ^ lo + v % 2 ^ (hi - lo + 1) * 2 ^ lo < 2 ^ (hi + 1) := by
    have e : 2 ^ (hi + 1) = 2 ^ (hi - lo + 1) * 2 ^ lo := by
      rw [← Nat.pow_add]
      congr 1
      omega
    rw [e]
    have h1 : w.toNat % 2 ^ lo < 2 ^ lo := Nat.mod_lt _ (by positivity)
    have h2 : v % 2 ^ (hi - lo + 1) + 1 ≤ 2 ^ (hi - lo + 1) := Nat.mod_lt _ (by positivity)
    have h3 := Nat.mul_le_mul_right (2 ^ lo) h2
    rw [Nat.add_mul] at h3
    omega
  have not_lt : ¬ i < hi + 1 := by omega
  rw [bitOf, setBits, BitVec.toNat_ofNat, Nat.testBit_mod_two_pow, Nat.add_comm, Nat.mul_comm _ (2 ^ (hi + 1)),
    Nat.testBit_two_pow_mul_add _ low, if_neg not_lt, Nat.testBit_div_two_pow, Nat.sub_add_cancel hi_lt]
  simp [h64, bitOf]

/-! ### Fault reports (R756, R759) -/

variable {s : State}

/-- The collector's interrupt changes no register but FC_SUMMARY. -/
theorem State.reg_fcSignal {o : Nat} (h : o ≠ rFcSummary) : s.fcSignal.reg o = s.reg o := by
  unfold State.fcSignal
  extract_lets quiet
  split
  · rfl
  · exact State.reg_setFld_ne _ _ _ _ h

/-- The collector's interrupt stands in registers, in the vectors signalled and in the collector's time. -/
theorem State.fcSignal_eq : ∃ regs msix last, s.fcSignal = { s with regs := regs, msix := msix, fcLast := last } := by
  unfold State.fcSignal
  extract_lets quiet
  split
  · exact ⟨_, _, _, rfl⟩
  · exact ⟨_, _, _, rfl⟩

/-- The registers that a report under record r can change. -/
def reportRegs (r : Nat) : List Nat := [rFcRec r, rFcTb r, rFcDet r, rFcSummary, rFcAlert]

theorem State.reg_report {src cls sev rsrc runit unit detail o : Nat} (h : o ∉ reportRegs (16 * src + cls)) :
    (s.report src cls sev rsrc runit unit detail).reg o = s.reg o := by
  simp only [reportRegs, List.mem_cons, List.not_mem_nil, or_false, not_or] at h
  obtain ⟨hrec, htb, hdet, hsum, halert⟩ := h
  unfold State.report
  extract_lets r old valid rises t t1 t2
  have ht1 : t1.reg o = s.reg o := by
    rw [State.reg_setFld_ne _ _ _ _ hsum]
    unfold t
    split
    · rw [State.reg_setReg_ne _ _ hrec]
    · rw [State.reg_setReg_ne _ _ hdet, State.reg_setReg_ne _ _ htb, State.reg_setReg_ne _ _ hrec]
  have ht2 : t2.reg o = s.reg o := by
    unfold t2
    split
    · rw [State.alert, State.reg_setFld_ne _ _ _ _ halert, ht1]
    · exact ht1
  split
  · exact ht1
  · split
    · rw [State.reg_fcSignal hsum, ht2]
    · exact ht2

/-- A report leaves its record valid. -/
theorem State.report_valid (src cls sev rsrc runit unit detail : Nat) :
    bitOf ((s.report src cls sev rsrc runit unit detail).reg (rFcRec (16 * src + cls))) 63 = true := by
  unfold State.report
  extract_lets r old valid rises t t1 t2
  have hsum : rFcRec r ≠ rFcSummary := by simp only [rFcRec, rFcSummary]; omega
  have halert : rFcRec r ≠ rFcAlert := by simp only [rFcRec, rFcAlert]; omega
  have htb : rFcRec r ≠ rFcTb r := by simp only [rFcRec, rFcTb]; omega
  have hdet : rFcRec r ≠ rFcDet r := by simp only [rFcRec, rFcDet]; omega
  have ht1 : bitOf (t1.reg (rFcRec r)) 63 = true := by
    rw [State.reg_setFld_ne _ _ _ _ hsum]
    unfold t
    split
    next hv =>
      rw [State.reg_setReg, bitOf_setBits_of_lt (by decide) (by decide) (by decide), addSat,
        bitOf_setBits_of_lt (by decide) (by decide) (by decide)]
      exact hv
    next =>
      rw [State.reg_setReg_ne _ _ hdet, State.reg_setReg_ne _ _ htb, State.reg_setReg,
        bitOf_setBits_of_lt (by decide) (by decide) (by decide),
        bitOf_setBits_of_lt (by decide) (by decide) (by decide),
        bitOf_setBits_of_lt (by decide) (by decide) (by decide)]
      decide
  have ht2 : bitOf (t2.reg (rFcRec r)) 63 = true := by
    unfold t2
    split
    · rw [State.alert, State.reg_setFld_ne _ _ _ _ halert, ht1]
    · exact ht1
  split
  · exact ht1
  · split
    · rw [State.reg_fcSignal hsum, ht2]
    · exact ht2

/-- t is s but for its registers. -/
def OnlyRegs (s t : State) : Prop := ∃ regs, t = { s with regs := regs }

theorem OnlyRegs.refl : OnlyRegs s s := ⟨_, rfl⟩

theorem OnlyRegs.setReg {t : State} {o : Nat} {v : Word} (h : OnlyRegs s t) : OnlyRegs s (t.setReg o v) := by
  obtain ⟨regs, rfl⟩ := h
  exact ⟨_, rfl⟩

theorem OnlyRegs.setFld {t : State} {o hi lo v : Nat} (h : OnlyRegs s t) : OnlyRegs s (t.setFld o hi lo v) := h.setReg

theorem OnlyRegs.ite {t u : State} {c : Prop} [Decidable c] (ht : OnlyRegs s t) (hu : OnlyRegs s u) :
    OnlyRegs s (if c then t else u) := by
  split
  · exact ht
  · exact hu

/-- A report changes nothing but registers and what the collector's interrupt changes. -/
theorem State.report_eq (src cls sev rsrc runit unit detail : Nat) : ∃ regs msix last,
    s.report src cls sev rsrc runit unit detail = { s with regs := regs, msix := msix, fcLast := last } := by
  unfold State.report
  extract_lets r old valid rises t t1 t2
  have ht1 : OnlyRegs s t1 := (OnlyRegs.refl.setReg.ite OnlyRegs.refl.setReg.setReg.setReg).setFld
  have ht2 : OnlyRegs s t2 := ht1.setFld.ite ht1
  obtain ⟨regs1, ht1⟩ := ht1
  obtain ⟨regs2, ht2⟩ := ht2
  split
  · exact ⟨_, _, _, ht1⟩
  · split
    · obtain ⟨regs, msix, last, e⟩ := t2.fcSignal_eq
      exact ⟨regs, msix, last, by rw [e, ht2]⟩
    · exact ⟨_, _, _, ht2⟩

theorem State.sameMem_reportSelf (src cls sev unit detail : Nat) :
    sameMem s (s.reportSelf src cls sev unit detail) := by
  obtain ⟨regs, msix, last, e⟩ := s.report_eq src cls sev src unit unit detail
  rw [State.reportSelf, e]
  exact ⟨rfl, rfl, rfl, rfl, rfl, rfl⟩

theorem State.jobs_reportSelf (src cls sev unit detail : Nat) :
    (s.reportSelf src cls sev unit detail).jobs = s.jobs := by
  obtain ⟨regs, msix, last, e⟩ := s.report_eq src cls sev src unit unit detail
  rw [State.reportSelf, e]

/-! ### Registers whose writes only store fields (R14) -/

/-- What a write does at o where a well block has a register whose write acts. -/
def State.writeOwn (s : State) (o : Nat) (x : BarWrite) : Option State :=
  if 0x1000000 ≤ o ∧ o < 0x1C00000 then s.writeWell ((o - 0x1000000) / 0x100000) ((o - 0x1000000) % 0x100000) x
  else none

theorem RegRow.exists_of_holds {r : RegRow} {o : Nat} (h : r.holds o = true) :
    ∃ k < r.count, o = r.base + k * r.stride := by
  simp only [RegRow.holds, decide_eq_true_eq] at h
  obtain ⟨base_le, lt, aligned⟩ := h
  refine ⟨_, lt, ?_⟩
  rw [Nat.div_mul_cancel (Nat.dvd_of_mod_eq_zero aligned)]
  omega

/-- No register of a plain row acts. -/
theorem plainRows_passive (s : State) (x : BarWrite) : plainRows.all (fun r => (List.range r.count).all (fun k =>
    (s.writeActing (r.base + k * r.stride) x).isNone && (s.writeOwn (r.base + k * r.stride) x).isNone)) = true := rfl

/-- A write of a register of a plain row only stores. -/
theorem State.writeReg_of_plain {o : Nat} {x : BarWrite} {r : RegRow}
    (h : plainRows.find? (fun r => r.holds o) = some r) : s.writeReg o x = .next (s.store o r.rw_ r.w1c x) := by
  obtain ⟨k, lt, rfl⟩ : ∃ k < r.count, o = r.base + k * r.stride :=
    RegRow.exists_of_holds (List.find?_some (p := (RegRow.holds · o)) h)
  have passive := List.all_eq_true.mp (List.all_eq_true.mp (plainRows_passive s x) r (List.mem_of_find?_eq_some h)) k
    (List.mem_range.mpr lt)
  simp only [Bool.and_eq_true, Option.isNone_iff_eq_none] at passive
  obtain ⟨acting, own⟩ := passive
  rw [State.writeOwn] at own
  simp only [State.writeReg, acting, own, h]

theorem State.reg_store_ne {o rw_ w1c q : Nat} {x : BarWrite} (h : q ≠ o) : (s.store o rw_ w1c x).reg q = s.reg q :=
  State.reg_setReg_ne _ _ h

/-- Of the register, the RW fields that the write covers take its bits, and its 1s clear W1C fields. -/
theorem State.reg_store {o rw_ w1c : Nat} {x : BarWrite} : (s.store o rw_ w1c x).reg o =
    ((s.reg o &&& ~~~(BitVec.ofNat 64 rw_ &&& x.mask)) ||| (x.val &&& (BitVec.ofNat 64 rw_ &&& x.mask)))
      &&& ~~~(x.val &&& x.mask &&& BitVec.ofNat 64 w1c) := by
  rw [State.store, State.reg_setReg, BarWrite.into, BarWrite.eff]
  ext i
  simp only [BitVec.getElem_and, BitVec.getElem_or, BitVec.getElem_not]
  generalize (s.reg o)[i] = old, x.mask[i] = mask, x.val[i] = val, (BitVec.ofNat 64 rw_)[i] = m
  cases m <;> cases mask <;> simp

/-! ### The access (R705, R785) -/

/-- The bits of its register that an access of n bytes at a covers. -/
def coveredBits (a n : Nat) : Word :=
  if n = 8 then ~~~(0#64) else if a % 8 = 0 then 0xFFFFFFFF#64 else 0xFFFFFFFF00000000#64

/-- The written value as it stands in the register. -/
def valueInPlace (a : Nat) (v : Word) : Word := if a % 8 = 0 then v else v <<< 32

section
variable {f : Fin 2} {o : BitVec 26} {n : Fin 9} {v : Word}

/-- The access that the model judges, by the half of the register that it covers. -/
theorem barWrite_eq {a n : Nat} (aligned : a % n = 0) :
    (if n = 8 then { f := f, val := v, mask := ~~~(0#64) }
      else if a % 8 = 0 then { f := f, val := v, mask := 0xFFFFFFFF#64 }
      else { f := f, val := v <<< 32, mask := 0xFFFFFFFF#64 <<< 32 } : BarWrite)
      = ⟨f, valueInPlace a v, coveredBits a n⟩ := by
  unfold valueInPlace coveredBits
  by_cases whole : n = 8
  · subst whole
    simp [aligned]
  · by_cases low : a % 8 = 0
    · simp [whole, low]
    · simp [whole, low]

/-- The access is one of 4 or 8 bytes at its natural alignment (R14). -/
theorem aligned_iff {a m : Nat} : ((m == 4 || m == 8) && a % m == 0) = true ↔ (m = 4 ∨ m = 8) ∧ a % m = 0 := by
  simp

theorem exec_registerWrite_misaligned (up : s.functionUp f = true)
    (bad : ¬((n.val = 4 ∨ n.val = 8) ∧ o.toNat % n.val = 0)) :
    exec (.registerWrite f o n v) s = .next (s.reportSelf 21 0xD 0 (64 + f) o.toNat) := by
  change execRegisterWrite f o n v s = _
  rw [execRegisterWrite, need_of up]
  exact if_pos (by simpa only [Bool.not_eq_true', ← Bool.not_eq_true, aligned_iff] using bad)

/-- What an aligned access of 4 or 8 bytes does. -/
theorem exec_registerWrite_aligned (up : s.functionUp f = true)
    (good : (n.val = 4 ∨ n.val = 8) ∧ o.toNat % n.val = 0) :
    exec (.registerWrite f o n v) s =
      if s.answersAt o.toNat = true then
        s.writeReg (o.toNat / 8 * 8) ⟨f, valueInPlace o.toNat v, coveredBits o.toNat n⟩
      else .next s := by
  change execRegisterWrite f o n v s = _
  rw [execRegisterWrite, need_of up, ← barWrite_eq good.2]
  by_cases answers : s.answersAt o.toNat = true
  · simp [aligned_iff.mpr good, answers]
  · simp [aligned_iff.mpr good, answers]

end

/-! ### SP_DEVID, whose field is RWL, and WH_FW -/

theorem coveredBits_devid {n : Nat} : coveredBits rSpDevid n &&& 0xFFF#64 = 0xFFF#64 := by
  unfold coveredBits
  split <;> decide

section
variable {x : BarWrite} (covered : x.mask &&& 0xFFF#64 = 0xFFF#64)
include covered

/-- DEVICE_ID stores until the commit and is reported after it (R14, R788). -/
theorem State.writeReg_devid : s.writeReg rSpDevid x =
    .next (if s.fld rSpCommit 0 0 = 1 then s.reportSelf 21 0xD 0 (64 + x.f) rSpDevid
      else s.store rSpDevid 0xFFF 0 x) := by
  change Host.Outcome.next (s.storeLocked rSpDevid 0xFFF (s.fld rSpCommit 0 0 == 1) x) = _
  simp [State.storeLocked, State.lockedWrite, covered]

theorem State.fld_store_devid : (s.store rSpDevid 0xFFF 0 x).fld rSpDevid 11 0 = bitsOf x.val 11 0 := by
  have low (w : Word) : bitsOf w 11 0 = (w &&& 0xFFF#64).toNat := by
    rw [bitsOf, BitVec.toNat_and]
    exact (Nat.and_two_pow_sub_one_eq_mod _ 12).symm
  rw [State.fld, State.reg_store, BitVec.and_comm _ x.mask, covered, low, low]
  congr 1
  ext i
  simp only [BitVec.getElem_and, BitVec.getElem_or, BitVec.getElem_not, BitVec.getElem_zero]
  cases (0xFFF#64)[i] <;> simp

end

/-- RAISE lies in the lower half of WH_FW, which an access at its offset covers. -/
theorem bitOf_raise {n : Nat} {v : Word} (raise : bitOf v 0 = true) :
    bitOf (valueInPlace rWhFw v &&& coveredBits rWhFw n) 0 = true := by
  have covers : bitOf (coveredBits rWhFw n) 0 = true := by
    unfold coveredBits
    split <;> decide
  rw [bitOf] at covers raise ⊢
  rw [BitVec.toNat_and, Nat.testBit_and, covers]
  exact (Bool.and_true _).trans raise

/-- Settles O7: each access is that of `writeReg`, whose registers of plain rows only store; the two commands are the
branches of `writeActing`, and the field under RWL that of `writeSpan`. -/
theorem registerWritesStoreTheirFields : Obligations.RegisterWritesStoreTheirFields := by
  intro s f o n v up a ok reg mask val
  refine ⟨exec_registerWrite_misaligned up, fun good off => ?_, fun good answers => ?_⟩
  · rw [exec_registerWrite_aligned up good, if_neg (Bool.eq_false_iff.mp off)]
  have run : exec (.registerWrite f o n v) s = s.writeReg reg ⟨f, val, mask⟩ := by
    rw [exec_registerWrite_aligned up good, if_pos answers]
    rfl
  refine ⟨fun r plain => ?_, fun at_ whole => ?_, fun at_ whole raise => ?_, fun at_ whole => ?_⟩
  · exact ⟨_, run.trans (State.writeReg_of_plain plain), rfl, State.reg_store, fun q => State.reg_store_ne⟩
  · have covered : mask &&& 0xFFF#64 = 0xFFF#64 := by
      change coveredBits a n &&& _ = _
      rw [whole, at_, coveredBits_devid]
    have inPlace : val = v := by
      change valueInPlace a v = v
      rw [whole, at_]
      rfl
    rw [at_, State.writeReg_devid covered] at run
    refine ⟨fun notYet => ?_, fun done => ?_⟩
    · rw [if_neg (by simp [notYet])] at run
      refine ⟨_, run, rfl, ?_, fun q => State.reg_store_ne⟩
      rw [State.fld_store_devid covered, inPlace]
    · rw [if_pos done] at run
      refine ⟨_, run, State.reg_report ?_, State.sameMem_reportSelf .., State.jobs_reportSelf ..,
        State.report_valid ..⟩
      simp only [reportRegs]
      decide
  · have raised : bitOf (val &&& mask) 0 = true := by
      change bitOf (valueInPlace a v &&& coveredBits a n) 0 = true
      rw [whole, at_]
      exact bitOf_raise raise
    rw [run, at_]
    exact if_pos raised
  · rw [run, at_]
    rfl

end Sys2Proof.Machine
end

section
/-!
SUPPORT. What every command keeps: the queue, the security floor (R745) and the canonical form of the memories. A rule
for each way to put a step together, a lemma for each function of the model that gives a state, and `Keeps.exec` of
every command.
-/
namespace Sys2Proof.Machine

/-! ### The relation and its rules -/

/-- What every command keeps: from s₀ to s the queue has stayed and the floor has not fallen, and s has canonical
memories when s₀ has. -/
structure Keeps (s₀ s : State) : Prop where
  queue : s.pending = s₀.pending
  floor : s₀.pw.floor ≤ s.pw.floor
  mem : s₀.memOk = true → s.memOk = true

/-- The next state of an outcome, where there is one, keeps what s₀ has. -/
def ResOk (s₀ : State) (r : Res) : Prop := ∀ t, r = .next t → Keeps s₀ t

/-- The value of a computation that succeeds satisfies P. -/
def ExOk {ε α : Type} (P : α → Prop) (x : Except ε α) : Prop := ∀ a, x = .ok a → P a

/-- The value of an option that has one satisfies P. -/
def OptOk {α : Type} (P : α → Prop) (o : Option α) : Prop := ∀ a, o = some a → P a

section
variable {α β ε : Type} {s₀ s t : State}

theorem memOk_iff : s.memOk = true ↔ Mem.wf s.cistern ∧ Mem.wf s.reservoir ∧ Mem.wf s.aquifer ∧ Mem.wf s.hostMem
    ∧ Mem.wf s.boot ∧ Mem.wf s.recovery := by
  simp [State.memOk, and_assoc]

theorem Keeps.refl : Keeps s s := ⟨rfl, le_rfl, id⟩

/-- New contents of the memories need a proof that they are canonical. -/
theorem Keeps.mems (h : Keeps s₀ s) (hm : s.memOk = true → t.memOk = true) (hq : t.pending = s.pending := by rfl)
    (hf : t.pw.floor = s.pw.floor := by rfl) : Keeps s₀ t :=
  ⟨hq.trans h.queue, hf ▸ h.floor, hm ∘ h.mem⟩

section
variable {fresh : Nat} {regs : Tab Word} {poison : Tab Bool} {wells : Tab Well} {bobs : Tab
  Bobbin} {faultRecs : List FaultRec} {deques : Tab (List DeqEntry)} {events : Tab Nat} {walkRecs : Tab
  WalkRec} {imem : Tab Word} {splits : List SplitTrack} {savedWells : Tab Well} {savedDeques : Tab (List
  DeqEntry)} {jobs : List Job} {reqs : List (Nat × Req)} {units : Tab CuUnit} {pumps : Tab Pump} {susp : Tab
  (List Pump)} {caches : Tab Nat} {engine : Engine} {whPumps : Tab (Option WhUse)} {ops : List (Nat × OpRun)}
  {nextId : Nat} {hroot : Word} {fcLast hostDown : Option Nat} {rvSelfRefresh : Bool} {tlb : Tab (List
  TlbEntry)} {walkPtrs : List WalkPtr} {missQs : Tab MissQ} {walkers : Tab (Option (Nat × Miss))} {lines : Tab
  (List (Nat × LineSt))} {dir : Tab (List DirEntry)} {evacs : List Evac} {buckets bursts caps : Tab Nat}
  {rvWaits : Tab (List (Nat × Nat))} {rvTurn rvSlots : Tab Nat} {rvTicks : Nat} {repeats : Tab (List Nat)}
  {mr4At : Tab Nat} {aqQs : Tab (List AqEntry)} {aqTurn : Tab Nat} {links : Links} {colls : List Coll}
  {decided : List Decision} {saved : List CpSaved} {sessions : List Session} {windows : Tab (List RefWindow)}
  {fabric : List (Nat × Nat)} {bifurc : Bool} {halfDown : Option Nat} {hqs : Tab HostQ} {jn : Journal} {pair :
  Pair} {msixTab : Tab Word} {bar2Data : List Byte} {msix : List (Nat × Nat)}

/-- New contents of any field but the queue, the memories and the power state need no proof. -/
theorem Keeps.update (h : Keeps s₀ s) :
    Keeps s₀ ⟨s.pending, fresh, regs, s.cistern, s.reservoir, s.aquifer, s.hostMem, poison, wells, bobs, faultRecs,
      deques, events, walkRecs, imem, splits, savedWells, savedDeques, jobs, reqs, units, pumps, susp, caches,
      engine, whPumps, ops, nextId, hroot, fcLast, hostDown, rvSelfRefresh, tlb, walkPtrs, missQs, walkers,
      lines, dir, evacs, buckets, bursts, caps, rvWaits, rvTurn, rvSlots, rvTicks, repeats, mr4At, aqQs,
      aqTurn, s.boot, links, colls, decided, saved, sessions, windows, fabric, bifurc, halfDown, s.recovery,
      hqs, jn, pair, s.pw, msixTab, bar2Data, msix⟩ :=
  h.mems id

end

/-- A new power state keeps the floor. -/
theorem Keeps.setPw {pw : Power} (h : Keeps s₀ s) (hf : pw.floor = s.pw.floor := by rfl) :
    Keeps s₀ { s with pw := pw } :=
  h.mems id rfl hf

section
variable {m : Mem}

theorem Keeps.setCistern (h : Keeps s₀ s) (hm : s.cistern.wf → m.wf) : Keeps s₀ { s with cistern := m } :=
  h.mems (fun ok => by
    obtain ⟨hc, hr, ha, hh, hb, hv⟩ := memOk_iff.mp ok
    exact memOk_iff.mpr ⟨hm hc, hr, ha, hh, hb, hv⟩)

theorem Keeps.setReservoir (h : Keeps s₀ s) (hm : s.reservoir.wf → m.wf) : Keeps s₀ { s with reservoir := m } :=
  h.mems (fun ok => by
    obtain ⟨hc, hr, ha, hh, hb, hv⟩ := memOk_iff.mp ok
    exact memOk_iff.mpr ⟨hc, hm hr, ha, hh, hb, hv⟩)

theorem Keeps.setAquifer (h : Keeps s₀ s) (hm : s.aquifer.wf → m.wf) : Keeps s₀ { s with aquifer := m } :=
  h.mems (fun ok => by
    obtain ⟨hc, hr, ha, hh, hb, hv⟩ := memOk_iff.mp ok
    exact memOk_iff.mpr ⟨hc, hr, hm ha, hh, hb, hv⟩)

theorem Keeps.setHostMem (h : Keeps s₀ s) (hm : s.hostMem.wf → m.wf) : Keeps s₀ { s with hostMem := m } :=
  h.mems (fun ok => by
    obtain ⟨hc, hr, ha, hh, hb, hv⟩ := memOk_iff.mp ok
    exact memOk_iff.mpr ⟨hc, hr, ha, hm hh, hb, hv⟩)

theorem Keeps.setBoot (h : Keeps s₀ s) (hm : s.boot.wf → m.wf) : Keeps s₀ { s with boot := m } :=
  h.mems (fun ok => by
    obtain ⟨hc, hr, ha, hh, hb, hv⟩ := memOk_iff.mp ok
    exact memOk_iff.mpr ⟨hc, hr, ha, hh, hm hb, hv⟩)

theorem Keeps.setRecovery (h : Keeps s₀ s) (hm : s.recovery.wf → m.wf) : Keeps s₀ { s with recovery := m } :=
  h.mems (fun ok => by
    obtain ⟨hc, hr, ha, hh, hb, hv⟩ := memOk_iff.mp ok
    exact memOk_iff.mpr ⟨hc, hr, ha, hh, hb, hm hv⟩)

end

theorem Keeps.ite {c : Prop} [Decidable c] (h : Keeps s₀ s) (k : Keeps s₀ t) : Keeps s₀ (if c then s else t) := by
  split
  · exact h
  · exact k

theorem Keeps.ite_fst {c : Prop} [Decidable c] {x y : State × β} (h : Keeps s₀ x.1) (k : Keeps s₀ y.1) :
    Keeps s₀ (if c then x else y).1 := by
  split
  · exact h
  · exact k

theorem Keeps.ite_snd {c : Prop} [Decidable c] {x y : β × State} (h : Keeps s₀ x.2) (k : Keeps s₀ y.2) :
    Keeps s₀ (if c then x else y).2 := by
  split
  · exact h
  · exact k

/-- A fold keeps what each of its steps keeps. -/
theorem Keeps.foldl {f : State → α → State} {l : List α} (h : Keeps s₀ s)
    (hf : ∀ t a, Keeps s₀ t → Keeps s₀ (f t a)) : Keeps s₀ (l.foldl f s) := by
  induction l generalizing s with
  | nil => exact h
  | cons a l ih => exact ih (hf s a h)

theorem Keeps.foldl_fst {f : State × β → α → State × β} {l : List α} {u : State × β} (h : Keeps s₀ u.1)
    (hf : ∀ t a, Keeps s₀ t.1 → Keeps s₀ (f t a).1) : Keeps s₀ (l.foldl f u).1 := by
  induction l generalizing u with
  | nil => exact h
  | cons a l ih => exact ih (hf u a h)

theorem Keeps.of_fst {x : State × β} {b : β} (h : Keeps s₀ x.1) (e : x = (t, b)) : Keeps s₀ t := by
  subst e
  exact h

theorem Keeps.elim {o : Option α} {f : α → State} (h : Keeps s₀ s) (hf : ∀ a, o = some a → Keeps s₀ (f a)) :
    Keeps s₀ (o.elim s f) := by
  cases o with
  | none => exact h
  | some a => exact hf a rfl

theorem Keeps.getD {o : Option State} (h : Keeps s₀ s) (ho : OptOk (Keeps s₀) o) : Keeps s₀ (o.getD s) := by
  cases o with
  | none => exact h
  | some t => exact ho t rfl

theorem Keeps.next (h : Keeps s₀ s) : ResOk s₀ (.next s) := by
  rintro t ⟨⟩
  exact h

theorem Keeps.stalls {rule : Nat} (h : Keeps s₀ s) : ResOk s₀ (s.stalls rule) := h.next

theorem ResOk.fault {e : Fault} : ResOk s₀ (.fault e) := by
  intro t h
  cases h

theorem ResOk.ite {c : Prop} [Decidable c] {a b : Res} (ha : ResOk s₀ a) (hb : ResOk s₀ b) :
    ResOk s₀ (if c then a else b) := by
  split
  · exact ha
  · exact hb

theorem ResOk.elim {o : Option α} {f : α → Res} {r : Res} (h : ResOk s₀ r)
    (hf : ∀ a, o = some a → ResOk s₀ (f a)) : ResOk s₀ (o.elim r f) := by
  cases o with
  | none => exact h
  | some a => exact hf a rfl

theorem ResOk.need {c : Bool} {rule : Nat} {r : Res} (hr : ResOk s₀ r) : ResOk s₀ (need c rule r) := hr.ite fault

theorem ResOk.needSome {o : Option α} {rule : Nat} {f : α → Res} (hf : ∀ a, o = some a → ResOk s₀ (f a)) :
    ResOk s₀ (needSome o rule f) := by
  cases o with
  | none => exact fault
  | some a => exact hf a rfl

theorem Keeps.nextOr {r : Res} (h : Keeps s₀ s) (hr : ResOk s₀ r) : Keeps s₀ (nextOr s r) := by
  unfold Machine.nextOr
  split
  next t => exact hr t rfl
  next => exact h

variable {P : α → Prop} {Q : β → Prop}

theorem ExOk.ok {a : α} (h : P a) : ExOk P (.ok a : Except ε α) := by
  rintro b ⟨⟩
  exact h

theorem ExOk.pure {a : α} (h : P a) : ExOk P (pure a : Except ε α) := ok h

theorem ExOk.error {e : ε} : ExOk P (.error e : Except ε α) := nofun

theorem ExOk.any {x : Except ε α} : ExOk (fun _ => True) x := fun _ _ => trivial

theorem ExOk.ite {c : Prop} [Decidable c] {x y : Except ε α} (hx : ExOk P x) (hy : ExOk P y) :
    ExOk P (if c then x else y) := by
  split
  · exact hx
  · exact hy

/-- The rest of a computation is judged for each value that its first part can give. -/
theorem ExOk.bind {x : Except ε β} {f : β → Except ε α} (hx : ExOk Q x) (hf : ∀ a, Q a → ExOk P (f a)) :
    ExOk P (x >>= f) := by
  cases x with
  | error e => exact nofun
  | ok a => exact hf a (hx a rfl)

theorem ExOk.bindAny {x : Except ε β} {f : β → Except ε α} (hf : ∀ a, ExOk P (f a)) : ExOk P (x >>= f) :=
  any.bind (fun a _ => hf a)

theorem ExOk.map {x : Except ε β} {f : β → α} (hx : ExOk (fun b => P (f b)) x) : ExOk P (x.map f) := by
  cases x with
  | error e => exact nofun
  | ok a => exact ok (hx a rfl)

theorem ExOk.foldlM {f : α → β → Except ε α} {l : List β} {a : α} (hf : ∀ a b, P a → ExOk P (f a b)) (h : P a) :
    ExOk P (l.foldlM f a) := by
  induction l generalizing a with
  | nil => exact pure h
  | cons b l ih => exact (hf a b h).bind (fun _ hc => ih hc)

theorem OptOk.some {a : α} (h : P a) : OptOk P (some a) := by
  rintro b ⟨⟩
  exact h

theorem OptOk.none : OptOk P none := nofun

theorem OptOk.getD {o : Option α} {a : α} (ho : OptOk P o) (h : P a) : P (o.getD a) := by
  cases o with
  | none => exact h
  | some b => exact ho b rfl

theorem ExOk.toOption {x : Except ε α} (hx : ExOk P x) : OptOk P x.toOption := by
  cases x with
  | error e => exact nofun
  | ok a => exact .some (hx a rfl)

theorem OptOk.foldl {f : Option α → β → Option α} {l : List β} {o : Option α} (ho : OptOk P o)
    (hf : ∀ o b, OptOk P o → OptOk P (f o b)) : OptOk P (l.foldl f o) := by
  induction l generalizing o with
  | nil => exact ho
  | cons b l ih => exact ih (hf o b ho)

theorem OptOk.map {o : Option β} {f : β → α} (hf : ∀ b, o = Option.some b → P (f b)) : OptOk P (o.map f) := by
  cases o with
  | none => exact nofun
  | some b => exact some (hf b rfl)

theorem OptOk.ite {c : Prop} [Decidable c] {x y : Option α} (hx : OptOk P x) (hy : OptOk P y) :
    OptOk P (if c then x else y) := by
  split
  · exact hx
  · exact hy

end

section
-- One proof after another: the stacks of as many threads as there are lemmas here do not fit in memory.
set_option Elab.async false
variable {s₀ s : State} (hs : Keeps s₀ s)
include hs

/-! ### Ops: Registers -/

theorem Keeps.setReg {o : Nat} {v : Word} : Keeps s₀ (s.setReg o v) := hs.update

theorem Keeps.setFld {o hi lo v : Nat} : Keeps s₀ (s.setFld o hi lo v) := hs.setReg

theorem Keeps.incFld {o hi lo n : Nat} : Keeps s₀ (s.incFld o hi lo n) := hs.setReg

theorem Keeps.latch {o : Nat} {v : Word} : Keeps s₀ (s.latch o v) := hs.setFld.ite hs.setReg

/-! ### Ops: Units -/

theorem Keeps.setWell {w : Nat} {x : Well} : Keeps s₀ (s.setWell w x) := hs.update

theorem Keeps.setBob {w p : Nat} {b : Bobbin} : Keeps s₀ (s.setBob w p b) := hs.update

theorem Keeps.setDeque {w l : Nat} {d : List DeqEntry} : Keeps s₀ (s.setDeque w l d) := hs.update

theorem Keeps.setEvent {w k ev v : Nat} : Keeps s₀ (s.setEvent w k ev v) := hs.update

theorem Keeps.clearEvents {w k : Nat} : Keeps s₀ (s.clearEvents w k) := hs.update

theorem Keeps.setWrec {w k r : Nat} {x : WalkRec} : Keeps s₀ (s.setWrec w k r x) := hs.update

theorem Keeps.modJob {j : Nat} {f : Job → Job} : Keeps s₀ (s.modJob j f) := hs.update

theorem Keeps.setBobState {w p v : Nat} : Keeps s₀ (s.setBobState w p v) := hs.setFld

theorem Keeps.setPhys {w l v : Nat} : Keeps s₀ (s.setPhys w l v) := hs.setFld

/-! ### Ops: Free values -/

theorem Keeps.freeBytes {n : Nat} : Keeps s₀ (s.freeBytes n).2 := hs.update

theorem Keeps.freeNat : Keeps s₀ s.freeNat.2 := hs.update

theorem Keeps.freeBit : Keeps s₀ s.freeBit.2 := hs.update

/-! ### Ops: Tiers -/

theorem Keeps.rawWrite {l : Loc} {bs : List Byte} : Keeps s₀ (s.rawWrite l bs) := by
  unfold State.rawWrite
  split
  · exact hs.setCistern (Mem.wf_write _ _ _)
  · exact hs.setReservoir (Mem.wf_write _ _ _)
  · exact hs.setAquifer (Mem.wf_write _ _ _)
  · exact hs.setHostMem (Mem.wf_write _ _ _)

/-! ### Ops: Where reservoir and aquifer bytes lie (R480, R510) -/

theorem Keeps.recountPoison {t : Tier} : Keeps s₀ (s.recountPoison t) := by
  unfold State.recountPoison
  split
  · exact hs.setFld
  · exact hs.setFld
  · exact hs

theorem Keeps.setPoison {l : Loc} : Keeps s₀ (s.setPoison l) := hs.update.recountPoison

theorem Keeps.clearPoison {l : Loc} {n : Nat} : Keeps s₀ (s.clearPoison l n) := hs.ite hs.update.recountPoison

theorem Keeps.meetBlock {w n : Nat} {bad : Bool} : Keeps s₀ (s.meetBlock w n bad) :=
  hs.ite (hs.setPoison.ite hs.incFld)

theorem Keeps.undefine {l : Loc} {n : Nat} : Keeps s₀ (s.undefine l n) := by
  unfold State.undefine
  dsimp only
  exact hs.freeBytes.rawWrite

/-! ### Ops: Translation (R424 to R435) -/

theorem Keeps.writeVa {ctx va : Nat} {bs : List Byte} : ExOk (Keeps s₀) (s.writeVa ctx va bs) := by
  unfold State.writeVa
  refine ExOk.error.ite ?_
  refine ExOk.foldlM (fun _ _ h => ?_) hs
  refine ExOk.bindAny (fun _ => ?_)
  dsimp only
  split
  · exact ExOk.error
  · exact ExOk.pure h.clearPoison.rawWrite

/-! ### Ops: Interrupts and fault reports -/

theorem Keeps.signal {f vec : Nat} : Keeps s₀ (s.signal f vec) := hs.update

theorem Keeps.fcSignal : Keeps s₀ s.fcSignal := hs.signal.update.ite hs.setFld

theorem Keeps.alert {bit : Nat} : Keeps s₀ (s.alert bit) := hs.setFld

theorem Keeps.report {src cls sev rsrc runit unit detail : Nat} :
    Keeps s₀ (s.report src cls sev rsrc runit unit detail) := by
  unfold State.report
  extract_lets _ _ _ _ _ t t1
  have ht : Keeps s₀ t := (hs.setReg.ite hs.setReg.setReg.setReg).setFld
  have ht1 : Keeps s₀ t1 := ht.alert.ite ht
  exact ht.ite (ht1.fcSignal.ite ht1)

theorem Keeps.reportSelf {src cls sev unit detail : Nat} : Keeps s₀ (s.reportSelf src cls sev unit detail) :=
  hs.report

theorem Keeps.noteTable {ctx w va : Nat} : Keeps s₀ (s.noteTable ctx w va) := by
  unfold State.noteTable
  split
  · exact hs
  · dsimp only
    exact hs.incFld.latch.report

theorem Keeps.noteTransBy {ctx w src unit : Nat} {e : AccErr} : Keeps s₀ (s.noteTransBy ctx w src unit e) := by
  unfold State.noteTransBy
  split
  · exact ((hs.noteTable.ite hs).update.ite (hs.noteTable.ite hs).update.setReg).latch.reportSelf
  · exact hs

theorem Keeps.noteTrans {ctx w : Nat} {e : AccErr} : Keeps s₀ (s.noteTrans ctx w e) := hs.noteTransBy

theorem Keeps.noteGuard {src unit va : Nat} : Keeps s₀ (s.noteGuard src unit va) := hs.reportSelf

theorem Keeps.countTier {who : Who} {l : Loc} {write : Bool} : Keeps s₀ (s.countTier who l write) := by
  unfold State.countTier
  split
  · exact hs.incFld.latch
  · exact hs.incFld.latch
  · exact hs.incFld.latch
  · exact hs

theorem Keeps.noteTier {who : Who} {rsrc runit : Nat} {l : Loc} {write : Bool} :
    Keeps s₀ (s.noteTier who rsrc runit l write) := hs.countTier.report

theorem Keeps.noteHead {ctx src unit : Nat} {e : AccErr} : Keeps s₀ (s.noteHead ctx src unit e) := by
  unfold State.noteHead
  split
  · exact hs
  · exact hs.noteTier
  · exact hs.noteGuard
  · exact hs.noteTransBy

/-! ### Ops: The end of a job -/

theorem Keeps.failJob {j status addr : Nat} : Keeps s₀ (s.failJob j status addr) := by
  unfold State.failJob
  split
  · exact hs
  · exact hs.ite (hs.modJob.foldl (fun _ _ h => h.setWell.ite h))

/-! ### Ops: Device scratch (R249, R309, R399, R400, R457) -/

theorem Keeps.scratchErr {j w a : Nat} : Keeps s₀ (s.scratchErr j w a) := hs.noteTier.failJob

theorem Keeps.scratch {j w a : Nat} {r : Res} (hr : ResOk s₀ r) : ResOk s₀ (s.scratch j w a r) :=
  hr.ite hs.scratchErr.next

theorem Keeps.zeroEvents {w k : Nat} : Keeps s₀ (s.zeroEvents w k) :=
  hs.clearEvents.update.recountPoison.ite hs.clearEvents

/-! ### Ops: Wellhead pumps 0 to 7 (R448, R561) -/

theorem Keeps.whTake {n : Nat} {u : WhUse} : Keeps s₀ (s.whTake n u) := hs.update

/-! ### Frames: Connections and routes -/

theorem Keeps.setConn {p peer vc : Nat} {c : Conn} : Keeps s₀ (s.setConn p peer vc c) := hs.update

theorem Keeps.emit {p : Nat} {f : Frame} : Keeps s₀ (s.emit p f) := hs.update

/-! ### Frames: Bytes on the wire (R633, R635) -/

theorem Keeps.postFrame {p : Nat} {f : Frame} {job : Option Nat} : Keeps s₀ (s.postFrame p f job) := hs.setConn

theorem Keeps.sendFrame {f : Frame} {job : Option Nat} : Keeps s₀ (s.sendFrame f job) := hs.postFrame

/-! ### Frames: Requests of VC2 (R647, R648) -/

theorem Keeps.openRequest {p peer op left : Nat} {job : Option Nat} :
    OptOk (Keeps s₀) (s.openRequest p peer op left job) := OptOk.map (fun _ _ => hs.setConn)

theorem Keeps.releaseTag {p peer : Nat} {c : Conn} {o : OutReq} : Keeps s₀ (s.releaseTag p peer c o) := hs.setConn

/-! ### Frames: Stream windows (R669) -/

theorem Keeps.windowFrames {x ctx job va n : Nat} : Keeps s₀ (s.windowFrames x ctx job va n) := by
  unfold State.windowFrames
  refine Keeps.ite ?_ hs
  refine hs.foldl (fun _ _ h => ?_)
  split
  · exact h
  · exact h.sendFrame

theorem Keeps.windowSees {job va n : Nat} : Keeps s₀ (s.windowSees job va n) :=
  hs.foldl (fun _ _ h => h.windowFrames)

/-! ### Flags -/

theorem Keeps.countOne {w src n i : Nat} : Keeps s₀ (s.countOne w src n i) := hs.setReg.ite hs

theorem Keeps.countEv {w src n : Nat} : Keeps s₀ (s.countEv w src n) := hs.ite (hs.foldl (fun _ _ h => h.countOne))

/-! ### Tlb: Translation buffers (R436, R442) -/

theorem Keeps.tlbPut {q : Nat} {e : TlbEntry} : Keeps s₀ (s.tlbPut q e) := hs.update

theorem Keeps.tlbDrop {p : TlbEntry → Bool} : Keeps s₀ (s.tlbDrop p) := hs.update

theorem Keeps.tlbPage {ctx va : Nat} : Keeps s₀ (s.tlbPage ctx va) := hs.tlbDrop

theorem Keeps.tlbCtx {ctx : Nat} : Keeps s₀ (s.tlbCtx ctx) := hs.tlbDrop.update

/-! ### Tlb: Walk cache (R437) -/

theorem Keeps.keepPath {ctx va : Nat} : Keeps s₀ (s.keepPath ctx va) := by
  unfold State.keepPath
  split
  · exact hs
  · exact hs.update

/-! ### Tlb: Miss queues (R439 to R441) -/

theorem Keeps.setMissQ {q : Nat} {x : MissQ} : Keeps s₀ (s.setMissQ q x) := hs.update

theorem Keeps.setWalker {k : Nat} {x : Option (Nat × Miss)} : Keeps s₀ (s.setWalker k x) := hs.update

theorem Keeps.joinWalk {k : Nat} {m : Miss} : Keeps s₀ (s.joinWalk k m) := by
  unfold State.joinWalk
  split
  · exact hs.setWalker.incFld
  · exact hs

theorem Keeps.stampHead {q : Nat} : Keeps s₀ (s.stampHead q) := hs.update.setMissQ

theorem Keeps.enterMiss {q : Nat} {m : Miss} : Keeps s₀ (s.enterMiss q m) := by
  unfold State.enterMiss
  refine hs.setMissQ.incFld.ite ?_
  split
  · exact hs.joinWalk
  · exact (hs.setMissQ.stampHead.ite hs.setMissQ).ite hs.setMissQ

theorem Keeps.feedOne {q : Nat} : OptOk (Keeps s₀) (s.feedOne q) := by
  unfold State.feedOne
  dsimp only
  split
  · exact OptOk.some hs.setMissQ.stampHead
  · refine OptOk.ite ?_ ?_
    · split
      · exact OptOk.none
      · exact OptOk.some hs.setMissQ.enterMiss
    · split
      · exact OptOk.none
      · split
        · exact OptOk.some hs.joinWalk.setMissQ.stampHead
        · exact (OptOk.some hs.setWalker.setMissQ.stampHead).ite OptOk.none

theorem Keeps.feedQ {q n : Nat} : Keeps s₀ (s.feedQ q n) := by
  induction n generalizing s with
  | zero => exact hs
  | succ n ih =>
    unfold State.feedQ
    split
    next t heq => exact ih (hs.feedOne _ heq)
    · exact hs

theorem Keeps.feed : Keeps s₀ s.feed := hs.foldl (fun _ _ h => h.feedQ)

/-! ### Tlb: Commands -/

theorem Keeps.execTranslationMiss {q : Fin 13} {req : Fin 210} {c : Fin 13} {va : Word} :
    ResOk s₀ (execTranslationMiss q req c va s) := by
  unfold Machine.execTranslationMiss
  extract_lets s1 _ _ s2 _ s3
  have hs1 : Keeps s₀ s1 := hs.feed
  have hs2 : Keeps s₀ s2 := (hs1.incFld.countEv.ite hs1).enterMiss
  have hs3 : Keeps s₀ s3 := hs2.incFld.ite hs2
  exact ((hs3.setFld.ite hs3).ite hs2).feed.next.need

theorem Keeps.execSharedWalkerGrant : ResOk s₀ (execSharedWalkerGrant s) := by
  unfold Machine.execSharedWalkerGrant
  refine ResOk.needSome (fun _ _ => ?_)
  refine ResOk.needSome (fun _ _ => ?_)
  split
  · exact ResOk.fault
  · exact hs.feed.setWalker.setMissQ.stampHead.feed.next

theorem Keeps.endWalk {k : Nat} : Keeps s₀ (s.endWalk k) := hs.setWalker.incFld.incFld.ite hs.setWalker.incFld

theorem Keeps.dropMisses {ctx : Nat} : Keeps s₀ (s.dropMisses ctx) := hs.update

/-! ### Tlb: Accesses (R436, R443) -/

theorem Keeps.useTlb {ctx va : Nat} : Keeps s₀ (s.useTlb ctx va) := by
  unfold State.useTlb
  split
  · exact hs
  · dsimp only
    split
    · exact hs.tlbPut
    · split
      · exact hs
      · exact hs.ite (hs.incFld.countEv.ite hs).incFld.keepPath.tlbPut

theorem Keeps.useTlbs {ctx va n : Nat} : Keeps s₀ (s.useTlbs ctx va n) := hs.foldl (fun _ _ h => h.useTlb)

/-! ### Tlb: TR_INV (R445) -/

theorem Keeps.execTrInvContext {c : Fin 16} : ResOk s₀ (execTrInvContext c s) :=
  (hs.setFld.ite (hs.setFld.setFld.ite hs.setFld.tlbCtx.setFld)).next

theorem Keeps.execTrInvPage {c : Fin 16} : ResOk s₀ (execTrInvPage c s) :=
  hs.setFld.next.ite (hs.setFld.setFld.next.ite hs.setFld.tlbPage.update.setFld.next)

theorem Keeps.execTrHrootJudgingWrite {v : Word} {f : Fin 2} : ResOk s₀ (execTrHrootJudgingWrite v f s) :=
  hs.setReg.tlbCtx.update.next.ite hs.setReg.setReg.setReg.reportSelf.next

/-! ### Directory: Lines of a well (R403, R531) -/

theorem Keeps.setLine {w line : Nat} {st : Option LineSt} : Keeps s₀ (s.setLine w line st) := hs.update

/-! ### Directory: The directory (R532) -/

theorem Keeps.dirErase {line : Nat} : Keeps s₀ (s.dirErase line) := hs.update

theorem Keeps.dirPut {e : DirEntry} : Keeps s₀ (s.dirPut e) := hs.update

theorem Keeps.invalLine {w line : Nat} : Keeps s₀ (s.invalLine w line) := hs.incFld.setLine

theorem Keeps.sendLine {w : Nat} : Keeps s₀ (s.sendLine w) := hs.countEv

theorem Keeps.writeBack {w : Nat} : Keeps s₀ (s.writeBack w) := hs.incFld.sendLine

theorem Keeps.dropLine {w line : Nat} : Keeps s₀ (s.dropLine w line) := (hs.writeBack.ite hs).invalLine

theorem Keeps.recallLine {line : Nat} : Keeps s₀ (s.recallLine line) := by
  unfold State.recallLine
  split
  · exact hs
  · exact (hs.foldl (fun _ _ h => h.dropLine)).dirErase

theorem Keeps.dirRoom {line : Nat} : Keeps s₀ (s.dirRoom line) := by
  unfold State.dirRoom
  refine hs.ite ?_
  split
  · exact hs.recallLine.incFld
  · exact hs

/-! ### Directory: Errors (R547) -/

theorem Keeps.cdErr {src well line : Nat} : Keeps s₀ (s.cdErr src well line) := hs.latch.reportSelf

theorem Keeps.dirEntryErr {line : Nat} : Keeps s₀ (s.dirEntryErr line) :=
  (hs.foldl (fun _ _ h => (h.foldl (fun _ _ h => h.dropLine)).dirErase)).cdErr

theorem Keeps.cacheBlock {w : Nat} : Keeps s₀ (s.cacheBlock w).2 := hs.freeNat

theorem Keeps.lineErr {w line : Nat} : Keeps s₀ (s.lineErr w line) := by
  unfold State.lineErr
  extract_lets _ s1
  have hs1 : Keeps s₀ s1 := hs.cacheBlock.noteTier.setLine
  split
  · exact hs
  · split
    · exact (hs1.foldl (fun _ _ h => h.setPoison)).dirErase.cdErr
    · exact hs1.dirErase.incFld.cdErr
    · exact hs1.incFld.cdErr

theorem Keeps.meetErr {line : Nat} {a : LineEv} : Keeps s₀ (s.meetErr line a) := by
  unfold State.meetErr
  split
  · exact hs
  · exact hs.dirEntryErr
  · split
    · exact hs.lineErr
    · exact hs

/-! ### Directory: Requests (R534) -/

theorem Keeps.dirReq : Keeps s₀ s.dirReq := hs.incFld

theorem Keeps.cacheMiss {w : Nat} : Keeps s₀ (s.cacheMiss w) := hs.dirReq.incFld.countEv

theorem Keeps.evict {w line : Nat} : Keeps s₀ (s.evict w line) := by
  unfold State.evict
  split
  · exact hs
  · exact hs.setLine
  · exact hs.setLine.dirErase.dirReq
  · exact hs.setLine.dirErase.dirReq.writeBack

theorem Keeps.wayFor {w line : Nat} : Keeps s₀ (s.wayFor w line) := by
  unfold State.wayFor
  refine hs.ite ?_
  split
  · exact hs.evict
  · exact hs

theorem Keeps.dirGets {w line : Nat} : Keeps s₀ (s.dirGets w line) := by
  unfold State.dirGets
  extract_lets s1
  have hs1 : Keeps s₀ s1 := hs.wayFor.dirRoom
  split
  · exact hs1.dirPut.setLine
  · split
    · exact hs1.dirPut.setLine.ite (hs1.writeBack.ite hs1).setLine.incFld.sendLine.dirPut.setLine
    · exact hs1.dirPut.setLine.ite hs1.dirPut.setLine

theorem Keeps.dirGetx {w line : Nat} {full : Bool} : Keeps s₀ (s.dirGetx w line full) := by
  unfold State.dirGetx
  refine Keeps.setLine ?_
  refine Keeps.dirPut ?_
  dsimp only
  split
  · exact hs.wayFor.dirRoom
  · exact (hs.wayFor.dirRoom.incFld.sendLine.ite hs.wayFor.dirRoom).foldl (fun _ _ h => h.invalLine)

/-! ### Directory: Accesses (R403, R529, R530, R540) -/

theorem Keeps.cacheHit {w line : Nat} {st : LineSt} : Keeps s₀ (s.cacheHit w line st) := hs.setLine.incFld.countEv

theorem Keeps.traffic {me ctx va n : Nat} {write : Bool} : Keeps s₀ (s.traffic me ctx va n write) := by
  unfold State.traffic
  refine hs.foldl (fun _ _ h => ?_)
  split
  · dsimp only
    split
    · exact h.countEv.countEv
    · exact h.countEv.ite h
    · exact h.countEv.ite h
  · exact h

theorem Keeps.countFill {w va : Nat} : Keeps s₀ (s.countFill w va) := hs.ite hs.update

theorem Keeps.countPage {w ctx va : Nat} : Keeps s₀ (s.countPage w ctx va) := by
  unfold State.countPage
  split
  · exact hs.countFill
  · exact hs

theorem Keeps.useLine {w ctx va line : Nat} : Keeps s₀ (s.useLine w ctx va line) := by
  unfold State.useLine
  split
  · exact hs.cacheHit
  · exact hs.cacheMiss.dirGets.countPage

theorem Keeps.ownLine {w ctx va line : Nat} {full : Bool} : Keeps s₀ (s.ownLine w ctx va line full) := by
  unfold State.ownLine
  split
  · exact hs.cacheHit
  · exact hs.cacheHit
  · exact hs.cacheMiss.dirGetx.ite hs.cacheMiss.dirGetx.countPage

theorem Keeps.wroteDir {lines : List Nat} : Keeps s₀ (s.wroteDir lines) :=
  hs.incFld.incFld.foldl (fun _ _ h => h.recallLine)

theorem Keeps.wroteVia {w ctx va n : Nat} : Keeps s₀ (s.wroteVia w ctx va n) :=
  hs.traffic.useTlbs.wroteDir.ite (hs.traffic.useTlbs.foldl (fun _ _ h => h.foldl (fun _ _ h => h.ownLine)))

theorem Keeps.readVia {w ctx va n : Nat} : Keeps s₀ (s.readVia w ctx va n) :=
  hs.traffic.useTlbs.ite (hs.traffic.useTlbs.foldl (fun _ _ h => h.foldl (fun _ _ h => h.useLine)))

theorem Keeps.readVias {w ctx : Nat} {rs : List (Nat × Nat)} : Keeps s₀ (s.readVias w ctx rs) :=
  hs.foldl (fun _ _ h => h.readVia)

theorem Keeps.writeDir {ctx va : Nat} {bs : List Byte} : ExOk (Keeps s₀) (s.writeDir ctx va bs) :=
  hs.writeVa.bind (fun _ h => ExOk.pure h.wroteDir.traffic.useTlbs)

/-! ### Directory: Whole caches -/

theorem Keeps.dirForget {w : Nat} : Keeps s₀ (s.dirForget w) := hs.update

theorem Keeps.flushCache {w : Nat} : Keeps s₀ (s.flushCache w) := hs.dirForget.incFld

theorem Keeps.loseCache {w : Nat} : Keeps s₀ (s.loseCache w) := hs.dirForget.foldl (fun _ _ h => h.undefine)

theorem Keeps.recallRange {a n : Nat} : Keeps s₀ (s.recallRange a n) := hs.foldl (fun _ _ h => h.recallLine)

/-! ### Directory: Commands -/

theorem Keeps.lineReq {w va : Nat} {write full : Bool} {held : List LineSt} {ev : LineEv}
    {f : State → Nat → State} (hf : ∀ a b, Keeps s₀ a → Keeps s₀ (f a b)) :
    ResOk s₀ (s.lineReq w va write full held ev f) :=
  (ResOk.needSome (fun _ _ => (hs.meetErr.cacheMiss.ite (hf _ _ hs.meetErr.cacheMiss)).next.need)).need

theorem Keeps.execGetx {w : WellId} {va : Word} {ev : LineEv} : ResOk s₀ (execGetx w va ev s) :=
  hs.lineReq (fun _ _ h => h.dirGetx.countPage)

theorem Keeps.execGetxf {w : WellId} {va : Word} {ev : LineEv} : ResOk s₀ (execGetxf w va ev s) :=
  hs.lineReq (fun _ _ h => h.dirGetx)

theorem Keeps.execPutm {w : WellId} {line : BitVec 34} : ResOk s₀ (execPutm w line s) := hs.evict.next.need

theorem Keeps.execPute {w : WellId} {line : BitVec 34} : ResOk s₀ (execPute w line s) := hs.evict.next.need

theorem Keeps.execNonallocatingRead {line : BitVec 34} {ev : LineEv} :
    ResOk s₀ (execNonallocatingRead line ev s) := by
  unfold Machine.execNonallocatingRead
  extract_lets _ s1
  have hs1 : Keeps s₀ s1 := hs.meetErr.dirReq
  refine Keeps.next ?_
  split
  · exact hs1.incFld
  · exact hs1

theorem Keeps.execNonallocatingWrite {line : BitVec 34} {ev : LineEv} :
    ResOk s₀ (execNonallocatingWrite line ev s) := by
  unfold Machine.execNonallocatingWrite
  extract_lets _ s1 s2
  have hs1 : Keeps s₀ s1 := hs.meetErr.dirReq
  have hs2 : Keeps s₀ s2 := by
    unfold s2
    split
    · exact hs1.incFld
    · exact hs1
  exact hs2.recallLine.next

/-! ### Operands: Pieces of memory written -/

theorem Keeps.writeRuns {ctx : Nat} {rs : List (Nat × List Byte)} : ExOk (Keeps s₀) (s.writeRuns ctx rs) :=
  ExOk.foldlM (fun _ _ h => h.writeDir) hs

theorem Keeps.undefVa {ctx va n : Nat} : Keeps s₀ (s.undefVa ctx va n) := by
  unfold State.undefVa
  refine hs.foldl (fun _ _ h => ?_)
  split
  · exact h.undefine
  · exact h

theorem Keeps.undefVas {ctx : Nat} {rs : List (Nat × Nat)} : Keeps s₀ (s.undefVas ctx rs) :=
  hs.foldl (fun _ _ h => h.undefVa)

/-! ### Stitch: Wells lost, bobbins fenced -/

theorem Keeps.fenceLink {l : Nat × Nat} : Keeps s₀ (s.fenceLink l) := hs.ite hs.update

theorem Keeps.loseWell {w cause : Nat} : Keeps s₀ (s.loseWell w cause) :=
  hs.setFld.setFld.alert.report.setFld.update.foldl (fun _ _ h => h.fenceLink)

theorem Keeps.judgeWell {w : Nat} : Keeps s₀ (s.judgeWell w) := hs.loseWell.ite hs

theorem Keeps.requeue {w : Nat} {e : DeqEntry} : Keeps s₀ (s.requeue w e) := by
  unfold State.requeue
  split
  · exact hs.setDeque
  · exact hs

theorem Keeps.setUnit {w u : Nat} {x : CuUnit} : Keeps s₀ (s.setUnit w u x) := hs.update

theorem Keeps.setPump {w n : Nat} {p : Pump} : Keeps s₀ (s.setPump w n p) := hs.update

theorem Keeps.withdrawReq {r : Run} : Keeps s₀ (s.withdrawReq r) := by
  unfold State.withdrawReq
  split
  · exact hs
  · exact hs.update

theorem Keeps.moveRun {w : Nat} {r : Run} : Keeps s₀ (s.moveRun w r) :=
  hs.withdrawReq.modJob.ite hs.withdrawReq.requeue

theorem Keeps.moveLeft {w : Nat} {x : Leaving} : Keeps s₀ (s.moveLeft w x) := hs.modJob.ite hs.requeue

theorem Keeps.fenceBobbin {w p : Nat} : Keeps s₀ (s.fenceBobbin w p) := by
  unfold State.fenceBobbin
  extract_lets _ _ _ _ s1 _ _ _ s2 s3
  have hs1 : Keeps s₀ s1 := hs.setBobState
  have hs2 : Keeps s₀ s2 := (hs1.ite hs1.setPhys).setBob.foldl (fun _ _ h => h.moveLeft)
  have hs3 : Keeps s₀ s3 := by
    unfold s3
    split
    · exact hs2.moveRun
    · exact hs2
  exact hs3.report.judgeWell

/-! ### Stitch: Runs -/

theorem Keeps.pillowSeed : Keeps s₀ s.pillowSeed.2 := hs.update

theorem Keeps.latchBob {w p cause instr status : Nat} : Keeps s₀ (s.latchBob w p cause instr status) := hs.latch

theorem Keeps.faultRec {w p cause instr : Nat} {st : Option StitchAt} : Keeps s₀ (s.faultRec w p cause instr st) :=
  hs.update

theorem Keeps.noteBob {w p cause instr status detail : Nat} {st : Option StitchAt} :
    Keeps s₀ (s.noteBob w p cause instr status detail st) := hs.faultRec.latchBob.reportSelf

theorem Keeps.terminateStitch {w p cause status addr : Nat} :
    Keeps s₀ (s.terminateStitch w p cause status addr) := by
  unfold State.terminateStitch
  dsimp only
  split
  · exact hs
  · exact hs.noteBob.withdrawReq.setBob.failJob

theorem Keeps.restartHere {w p exc : Nat} : Keeps s₀ (s.restartHere w p exc) := by
  unfold State.restartHere
  dsimp only
  split
  · exact hs
  · exact hs.withdrawReq.pillowSeed.setBob

theorem Keeps.rollbackStitch {w p : Nat} {r : Run} : Keeps s₀ (s.rollbackStitch w p r) :=
  hs.withdrawReq.setBob.modJob

theorem Keeps.pillowException {w p : Nat} : Keeps s₀ (s.pillowException w p) := by
  unfold State.pillowException
  extract_lets s1
  have hs1 : Keeps s₀ s1 := hs.incFld
  split
  · exact hs1
  · exact (hs1.noteBob.rollbackStitch.fenceBobbin.ite hs1.noteBob.rollbackStitch).ite
      (hs1.noteBob.fenceBobbin.ite hs1.noteBob.restartHere)

theorem Keeps.bobError {w p : Nat} {e : AccErr} : ResOk s₀ (s.bobError w p e) := by
  unfold State.bobError
  split
  · exact hs.stalls
  · exact hs.noteGuard.terminateStitch.next
  · exact hs.noteTier.terminateStitch.next
  · exact hs.noteTrans.terminateStitch.next

/-! ### Stitch: Start (R167 to R173) -/

theorem Keeps.startStitch {orig : State} {w p : Nat} {e : DeqEntry} (horig : Keeps s₀ orig) :
    ResOk s₀ (orig.startStitch s w p e) := by
  unfold State.startStitch
  split
  · exact ResOk.fault
  · dsimp only
    split
    · exact hs.setBob.noteGuard.terminateStitch.next
    · refine hs.scratch ?_
      split
      · exact horig.stalls
      · exact hs.setBob.setBob.bobError
      · exact hs.setBob.pillowSeed.setBob.countEv.next

/-! ### Stitch: Sequencing (R169 to R172) -/

theorem Keeps.tStep {kind : TKind} {w : WellId} {p : PhysId} {k : Run → Word → Res} (hk : ∀ a b, ResOk s₀ (k a b)) :
    ResOk s₀ (tStep kind w p s k) := by
  unfold Machine.tStep
  split
  · exact ResOk.fault
  · refine hs.stalls.ite ?_
    refine hs.stalls.ite ?_
    refine hs.stalls.ite ?_
    refine hs.stalls.ite ?_
    split
    · exact hs.bobError
    · split
      · exact hs.terminateStitch.next
      · exact (hs.terminateStitch.next.ite (hk _ _)).ite ResOk.fault

theorem Keeps.putRun {w p : Nat} {r : Run} : Keeps s₀ (s.putRun w p r) := hs.setBob

theorem Keeps.doneRun {w p : Nat} {r : Run} : Keeps s₀ (s.doneRun w p r) := hs.readVia.putRun

/-! ### Tile: The shared step -/

theorem Keeps.countGuard {w : Nat} {a b : Counts} : Keeps s₀ (s.countGuard w a b) :=
  hs.countEv.countEv.countEv.countEv.countEv

theorem Keeps.corrected {w : Nat} : Keeps s₀ (s.corrected w) := hs.incFld.countEv

theorem Keeps.tFinish {ev : EccEv} {w p : Nat} {r : Run} {o : TOut} (ho : ExOk (Keeps s₀ ·.2) o) :
    ResOk s₀ (tFinish ev w p s r o) := by
  unfold Machine.tFinish
  split
  · exact hs.stalls
  · exact hs.incFld.bobError
  · exact hs.corrected.bobError
  · exact hs.bobError
  · exact hs.pillowException.next
  · exact (ho _ rfl).corrected.countGuard.doneRun.next
  · exact (ho _ rfl).countGuard.doneRun.next

theorem Keeps.metBlock {a : EccEv} : Keeps s₀ (s.metBlock a) := by
  unfold State.metBlock
  split
  · exact hs.meetBlock
  · exact hs

theorem Keeps.tWork {kind : TKind} {w : WellId} {p : PhysId} {ev : EccEv} {f : State → Run → Word → TOut}
    (hf : ∀ a b c, Keeps s₀ a → ExOk (Keeps s₀ ·.2) (f a b c)) : ResOk s₀ (tWork kind w p ev s f) :=
  hs.tStep (fun _ _ => hs.metBlock.tFinish (hf _ _ _ hs.metBlock))

/-! ### Tile: Conversions of whole rows -/

theorem Keeps.convert {f : Fmt} {t : Word32} {rows : List (List Num)} : Keeps s₀ (s.convert f t rows).2 := hs.update

/-! ### Tile: LDT -/

theorem Keeps.loadRows {r : Run} {t : TReg} {f : Fmt} {r0 : Int} {nr : Nat} {k0 : Int} {nb : Nat} {sc : Bool} :
    ExOk (Keeps s₀ ·.2.2) (s.loadRows r t f r0 nr k0 nb sc) := by
  unfold State.loadRows
  refine ExOk.bindAny (fun _ => ?_)
  dsimp only
  exact ExOk.ite (ExOk.ite (ExOk.bindAny (fun _ => ExOk.pure hs)) (ExOk.bindAny (fun _ => ExOk.pure hs)))
    (ExOk.ite (ExOk.bindAny (fun _ => ExOk.bindAny (fun _ => ExOk.bindAny (fun _ =>
      ExOk.pure hs.convert)))) (ExOk.bindAny (fun _ => ExOk.bindAny
        (fun _ => ExOk.bindAny (fun _ => ExOk.pure hs.convert)))))

theorem Keeps.ldt {w p : Nat} {r : Run} {word : Word} : ExOk (Keeps s₀ ·.2) (State.ldt w p s r word) := by
  unfold State.ldt
  refine ExOk.error.ite ?_
  refine ExOk.error.ite ?_
  refine hs.loadRows.bind (fun _ h => ?_)
  dsimp only
  exact ExOk.ite (ExOk.pure h.readVias) (ExOk.pure h.readVias)

theorem Keeps.execLdt {w : WellId} {p : PhysId} {ev : EccEv} : ResOk s₀ (execLdt w p ev s) :=
  hs.tWork (fun _ _ _ h => h.ldt)

/-! ### Tile: Store queue -/

theorem Keeps.pushStores {w p : Nat} {r : Run} {runs : List MaskRun} : Keeps s₀ (s.pushStores w p r runs).2 :=
  hs.ite_snd hs.setBob.update

theorem Keeps.storeRect {w p : Nat} {r : Run} {d : TDesc} {r0 k0 : Int} {cs : List Conv} :
    Keeps s₀ (s.storeRect w p r d r0 k0 cs).2 := hs.pushStores

theorem Keeps.handshakes {w n : Nat} {before after : Pillow} : Keeps s₀ (s.handshakes w n before after) :=
  hs.countEv

theorem Keeps.stt {w p : Nat} {r : Run} {word : Word} : ExOk (Keeps s₀ ·.2) (State.stt w p s r word) := by
  unfold State.stt
  refine ExOk.bindAny (fun _ => ?_)
  refine ExOk.bindAny (fun _ => ?_)
  dsimp only
  exact ExOk.pure hs.handshakes.convert.storeRect

theorem Keeps.execStt {w : WellId} {p : PhysId} {ev : EccEv} : ResOk s₀ (execStt w p ev s) :=
  hs.tWork (fun _ _ _ h => h.stt)

theorem Keeps.storeError {w p : Nat} {e : StoreEntry} {err : AccErr} : Keeps s₀ (s.storeError w p e err) := by
  unfold State.storeError
  refine Keeps.failJob ?_
  refine Keeps.setBob ?_
  refine Keeps.noteBob ?_
  split
  · exact hs.noteTrans
  · exact hs.noteTier
  · exact hs

theorem Keeps.drain {ctx : Nat} {e : StoreEntry} : ExOk (Keeps s₀) (s.drain ctx e) :=
  ExOk.bindAny (fun _ => hs.writeVa)

theorem Keeps.execStoreEntryVisible {w : WellId} {p : PhysId} : ResOk s₀ (execStoreEntryVisible w p s) := by
  unfold Machine.execStoreEntryVisible
  dsimp only
  split
  · exact ResOk.fault
  · refine hs.stalls.ite ?_
    refine hs.stalls.ite ?_
    split
    · exact hs.stalls
    · exact hs.storeError.next
    next h => exact (hs.drain _ h).wroteVia.setBob.countEv.windowSees.next

/-! ### Tile: MMA, ZCLR -/

theorem Keeps.mma {w : Nat} {r : Run} {word : Word} : ExOk (Keeps s₀ ·.2) (State.mma w s r word) := by
  unfold State.mma
  dsimp only
  split <;> exact ExOk.bindAny (fun _ => ExOk.pure (hs.countEv.countEv.ite hs.countEv))

theorem Keeps.execMma {w : WellId} {p : PhysId} {ev : EccEv} : ResOk s₀ (execMma w p ev s) :=
  hs.tWork (fun _ _ _ h => h.mma)

theorem Keeps.execZclr {w : WellId} {p : PhysId} : ResOk s₀ (execZclr w p s) :=
  hs.tStep (fun _ _ => hs.doneRun.next)

/-! ### Tile: CVT, QNT -/

theorem Keeps.cvt {w : Nat} {r : Run} {word : Word} : ExOk (Keeps s₀ ·.2) (State.cvt w s r word) := by
  unfold State.cvt
  refine ExOk.bindAny (fun _ => ?_)
  dsimp only
  exact ExOk.bindAny (fun _ => ExOk.pure hs.convert.countEv)

theorem Keeps.execCvt {w : WellId} {p : PhysId} {ev : EccEv} : ResOk s₀ (execCvt w p ev s) :=
  hs.tWork (fun _ _ _ h => h.cvt)

theorem Keeps.qnt {w : Nat} {r : Run} {word : Word} : ExOk (Keeps s₀ ·.2) (State.qnt w s r word) := by
  unfold State.qnt
  refine ExOk.bindAny (fun _ => ?_)
  refine ExOk.bindAny (fun _ => ?_)
  dsimp only
  exact ExOk.pure hs.handshakes.convert

theorem Keeps.execQnt {w : WellId} {p : PhysId} {ev : EccEv} : ResOk s₀ (execQnt w p ev s) :=
  hs.tWork (fun _ _ _ h => h.qnt)

/-! ### Vector: Fields -/

theorem Keeps.mapSet {w : Nat} {r : Run} {v : VecOp} {per : Nat} {f : Run → Nat → Nat → Nat → Word32 → Word32} :
    ExOk (Keeps s₀ ·.2) (State.mapSet w s r v per f) := ExOk.bindAny (fun _ => ExOk.pure hs.handshakes)

/-! ### Vector: EPI -/

theorem Keeps.gate {w : Nat} {r : Run} {word : Word} : ExOk (Keeps s₀ ·.2) (State.gate w s r word) :=
  ExOk.bindAny (fun _ => ExOk.pure hs.handshakes)

theorem Keeps.execEpiGate {w : WellId} {p : PhysId} {ev : EccEv} : ResOk s₀ (execEpiGate w p ev s) :=
  hs.tWork (fun _ _ _ h => h.gate)

theorem Keeps.addv {w : Nat} {r : Run} {word : Word} : ExOk (Keeps s₀ ·.2) (State.addv w s r word) := hs.mapSet

theorem Keeps.execEpiAddv {w : WellId} {p : PhysId} {ev : EccEv} : ResOk s₀ (execEpiAddv w p ev s) :=
  hs.tWork (fun _ _ _ h => h.addv)

theorem Keeps.pst {w p : Nat} {r : Run} {word : Word} : ExOk (Keeps s₀ ·.2) (State.pst w p s r word) := by
  unfold State.pst
  dsimp only
  exact ExOk.ok hs.storeRect.handshakes

theorem Keeps.execEpiPst {w : WellId} {p : PhysId} {ev : EccEv} : ResOk s₀ (execEpiPst w p ev s) :=
  hs.tWork (fun _ _ _ h => h.pst)

theorem Keeps.bas {w : Nat} {r : Run} {word : Word} : ExOk (Keeps s₀ ·.2) (State.bas w s r word) := hs.mapSet

theorem Keeps.execEpiBas {w : WellId} {p : PhysId} {ev : EccEv} : ResOk s₀ (execEpiBas w p ev s) :=
  hs.tWork (fun _ _ _ h => h.bas)

theorem Keeps.conv {w : Nat} {r : Run} {word : Word} : ExOk (Keeps s₀ ·.2) (State.conv w s r word) := hs.mapSet

theorem Keeps.execEpiConv {w : WellId} {p : PhysId} {ev : EccEv} : ResOk s₀ (execEpiConv w p ev s) :=
  hs.tWork (fun _ _ _ h => h.conv)

theorem Keeps.recon {w : Nat} {r : Run} {word : Word} : ExOk (Keeps s₀ ·.2) (State.recon w s r word) := hs.mapSet

theorem Keeps.execEpiRecon {w : WellId} {p : PhysId} {ev : EccEv} : ResOk s₀ (execEpiRecon w p ev s) :=
  hs.tWork (fun _ _ _ h => h.recon)

/-! ### Vector: SFN -/

theorem Keeps.sfn {g : SpFn} {w : Nat} {r : Run} {word : Word} : ExOk (Keeps s₀ ·.2) (State.sfn g w s r word) := by
  unfold State.sfn
  refine ExOk.bindAny (fun _ => ?_)
  refine hs.mapSet.bind (fun _ h => ?_)
  dsimp only
  exact ExOk.pure h

theorem Keeps.execSfnExp {w : WellId} {p : PhysId} {ev : EccEv} : ResOk s₀ (execSfnExp w p ev s) :=
  hs.tWork (fun _ _ _ h => h.sfn)

theorem Keeps.execSfnLog {w : WellId} {p : PhysId} {ev : EccEv} : ResOk s₀ (execSfnLog w p ev s) :=
  hs.tWork (fun _ _ _ h => h.sfn)

theorem Keeps.execSfnRcp {w : WellId} {p : PhysId} {ev : EccEv} : ResOk s₀ (execSfnRcp w p ev s) :=
  hs.tWork (fun _ _ _ h => h.sfn)

theorem Keeps.execSfnRsqrt {w : WellId} {p : PhysId} {ev : EccEv} : ResOk s₀ (execSfnRsqrt w p ev s) :=
  hs.tWork (fun _ _ _ h => h.sfn)

/-! ### Vector: RED -/

theorem Keeps.red {var w : Nat} {r : Run} {word : Word} : ExOk (Keeps s₀ ·.2) (State.red var w s r word) :=
  ExOk.bindAny (fun _ => ExOk.pure hs.handshakes)

theorem Keeps.execRedSum {w : WellId} {p : PhysId} {ev : EccEv} : ResOk s₀ (execRedSum w p ev s) :=
  hs.tWork (fun _ _ _ h => h.red)

theorem Keeps.execRedMax {w : WellId} {p : PhysId} {ev : EccEv} : ResOk s₀ (execRedMax w p ev s) :=
  hs.tWork (fun _ _ _ h => h.red)

theorem Keeps.execRedSumsq {w : WellId} {p : PhysId} {ev : EccEv} : ResOk s₀ (execRedSumsq w p ev s) :=
  hs.tWork (fun _ _ _ h => h.red)

/-! ### Vector: SMX -/

theorem Keeps.execSmxInit {w : WellId} {p : PhysId} : ResOk s₀ (execSmxInit w p s) :=
  hs.tStep (fun _ _ => hs.countEv.doneRun.next)

theorem Keeps.smxStep {w : Nat} {r : Run} {word : Word} : ExOk (Keeps s₀ ·.2) (State.smxStep w s r word) :=
  ExOk.bindAny (fun _ => ExOk.pure hs.handshakes)

theorem Keeps.execSmxStep {w : WellId} {p : PhysId} {ev : EccEv} : ResOk s₀ (execSmxStep w p ev s) :=
  hs.tWork (fun _ _ _ h => h.smxStep)

theorem Keeps.smxFold {w : Nat} {r : Run} {word : Word} : ExOk (Keeps s₀ ·.2) (State.smxFold w s r word) :=
  ExOk.bindAny (fun _ => ExOk.pure hs.handshakes)

theorem Keeps.execSmxFold {w : WellId} {p : PhysId} {ev : EccEv} : ResOk s₀ (execSmxFold w p ev s) :=
  hs.tWork (fun _ _ _ h => h.smxFold)

/-! ### Vector: BIAS -/

theorem Keeps.biasOp {w : Nat} {r : Run} {word : Word} : ExOk (Keeps s₀ ·.2) (State.biasOp w s r word) := hs.mapSet

theorem Keeps.execBias {w : WellId} {p : PhysId} {ev : EccEv} : ResOk s₀ (execBias w p ev s) :=
  hs.tWork (fun _ _ _ h => h.biasOp)

/-! ### Vector: GUARD -/

theorem Keeps.execGuard {w : WellId} {p : PhysId} : ResOk s₀ (execGuard w p s) :=
  hs.tStep (fun _ _ => hs.countEv.doneRun.next)

/-! ### Sync: Requests -/

theorem Keeps.enterRows {w id n : Nat} : Keeps s₀ (s.enterRows w id n) := by
  induction n generalizing s with
  | zero => exact hs
  | succ n ih =>
    unfold State.enterRows
    split
    · exact hs
    · exact hs.ite (Keeps.ite (ih hs.update) hs)

theorem Keeps.afterEnter {w : Nat} {r : Run} {n : Nat} {sct : Bool} : Keeps s₀ (s.afterEnter w r n sct).2 :=
  hs.ite_snd hs.incFld

theorem Keeps.issueReq {w : Nat} {r : Run} {q : Req} : Keeps s₀ (s.issueReq w r q).2 :=
  hs.update.enterRows.afterEnter

theorem Keeps.gat {w p : Nat} {r : Run} {word : Word} : ExOk (Keeps s₀ ·.2) (State.gat w p s r word) :=
  ExOk.error.ite (ExOk.ok hs.issueReq)

theorem Keeps.execGat {w : WellId} {p : PhysId} {ev : EccEv} : ResOk s₀ (execGat w p ev s) :=
  hs.tWork (fun _ _ _ h => h.gat)

theorem Keeps.sctData {r : Run} {word : Word} {f : Fmt} {t : TReg} :
    ExOk (Keeps s₀ ·.2.2) (s.sctData r word f t) := by
  unfold State.sctData
  refine ExOk.ite ?_ (ExOk.ok hs)
  refine ExOk.bindAny (fun _ => ?_)
  refine ExOk.bindAny (fun _ => ?_)
  dsimp only
  exact ExOk.pure hs.handshakes.convert

theorem Keeps.sct {w p : Nat} {r : Run} {word : Word} : ExOk (Keeps s₀ ·.2) (State.sct w p s r word) := by
  unfold State.sct
  refine ExOk.error.ite ?_
  refine hs.sctData.bind (fun _ h => ?_)
  dsimp only
  exact ExOk.ite (ExOk.pure h) (ExOk.bindAny (fun _ => ExOk.pure h.readVias.issueReq))

theorem Keeps.execSct {w : WellId} {p : PhysId} {ev : EccEv} : ResOk s₀ (execSct w p ev s) :=
  hs.tWork (fun _ _ _ h => h.sct)

/-! ### Sync: Events -/

theorem Keeps.raiseEvent {j w k ev n : Nat} : Keeps s₀ (s.raiseEvent j w k ev n) := hs.setEvent.ite hs.scratchErr

theorem Keeps.execSig {w : WellId} {p : PhysId} : ResOk s₀ (execSig w p s) :=
  hs.tStep (fun _ _ => hs.stalls.ite (hs.doneRun.next.ite (hs.scratch hs.raiseEvent.countEv.doneRun.next)))

theorem Keeps.execWaits {w : WellId} {p : PhysId} : ResOk s₀ (execWaits w p s) :=
  hs.tStep (fun _ _ => hs.scratch (hs.doneRun.next.ite hs.putRun.countEv.next))

theorem Keeps.execWaitsSatisfied {w : WellId} {p : PhysId} : ResOk s₀ (execWaitsSatisfied w p s) :=
  ResOk.needSome (fun _ _ => ResOk.needSome (fun _ _ => hs.scratch hs.doneRun.next.need))

theorem Keeps.execWaitsLimitExpiry {w : WellId} {p : PhysId} : ResOk s₀ (execWaitsLimitExpiry w p s) :=
  ResOk.needSome (fun _ _ => ResOk.needSome (fun _ _ => hs.faultRec.latch.reportSelf.setBob.failJob.next.need))

/-! ### Sync: END and completion -/

theorem Keeps.undefQueue {w p : Nat} {gw : BitVec 128} : Keeps s₀ (s.undefQueue w p gw) := by
  unfold State.undefQueue
  refine hs.foldl (fun _ _ h => ?_)
  refine Keeps.ite ?_ h
  dsimp only
  exact h.freeBytes.setBob

theorem Keeps.replayRun {w p : Nat} {r : Run} : Keeps s₀ (s.replayRun w p r) := by
  unfold State.replayRun
  dsimp only
  exact hs.undefVas.undefQueue.pillowSeed.incFld.countEv.countEv.modJob.putRun

theorem Keeps.keepOuts {r : Run} : Keeps s₀ (s.keepOuts r) := hs.ite hs.setWell

theorem Keeps.keepRun {w p : Nat} {r : Run} : Keeps s₀ (s.keepRun w p r) := hs.setBob.keepOuts.countEv

theorem Keeps.addHit {w : Nat} : Keeps s₀ (s.addHit w) := hs.setWell

theorem Keeps.execEndOp {w : WellId} {p : PhysId} : ResOk s₀ (execEndOp w p s) :=
  hs.tStep (fun _ _ => hs.readVia.countGuard.replayRun.next.ite
    ((hs.readVia.countGuard.incFld.ite hs.readVia.countGuard).addHit.ite
    (hs.readVia.countGuard.incFld.ite hs.readVia.countGuard)).keepRun.next)

theorem Keeps.stitchDone {l : Leaving} : Keeps s₀ (s.stitchDone l) := by
  unfold State.stitchDone
  extract_lets _ s1
  have hs1 : Keeps s₀ s1 := hs.setWrec
  refine hs.scratchErr.ite ?_
  split
  · exact hs1
  · split
    · exact hs1
    · exact hs1.update

theorem Keeps.execStitchCompletion {w : WellId} {p : PhysId} : ResOk s₀ (execStitchCompletion w p s) :=
  ResOk.needSome (fun _ _ => hs.setBob.stitchDone.next)

/-! ### Sync: Watchdog -/

theorem Keeps.execBobbinWatchdogExpiry {w : WellId} {p : PhysId} : ResOk s₀ (execBobbinWatchdogExpiry w p s) :=
  hs.incFld.noteBob.fenceBobbin.next.need

/-! ### Steal: Takers -/

theorem Keeps.execStitchTake {w : WellId} {p : PhysId} : ResOk s₀ (execStitchTake w p s) := by
  unfold Machine.execStitchTake
  refine ResOk.need ?_
  refine ResOk.needSome (fun _ _ => ?_)
  split
  · exact ResOk.fault
  · exact (hs.setDeque.startStitch hs).ite hs.stalls

theorem Keeps.nextProbe {w p : Nat} : Keeps s₀ (s.nextProbe w p) := hs.setBob

theorem Keeps.execStealProbe {w : WellId} {p : PhysId} : ResOk s₀ (execStealProbe w p s) := by
  unfold Machine.execStealProbe
  refine ResOk.need ?_
  refine hs.stalls.ite ?_
  dsimp only
  split
  · exact hs.nextProbe.next
  · exact (hs.setDeque.incFld.countEv.startStitch hs).ite hs.nextProbe.next

/-! ### Steal: Across wells -/

omit hs in
theorem Keeps.moveOne {w v : Nat} {acc : State × List Nat × Nat} {l : Nat} (hacc : Keeps s₀ acc.1) :
    Keeps s₀ (moveOne w v acc l).1 := by
  unfold Machine.moveOne
  dsimp only
  refine hacc.ite_fst ?_
  split
  · exact hacc
  · refine hacc.ite_fst ?_
    split
    · exact hacc
    · exact hacc.setDeque.setDeque.setBob.incFld.incFld.countEv

theorem Keeps.execCrossWellStealRequest {w : WellId} : ResOk s₀ (execCrossWellStealRequest w s) := by
  unfold Machine.execCrossWellStealRequest
  refine ResOk.need ?_
  split
  · exact hs.next
  · exact (hs.foldl_fst (fun _ _ h => h.moveOne)).next

/-! ### Steal: Ramps -/

theorem Keeps.execBobbinGroupPowerUp {w : WellId} {g : Fin 8} : ResOk s₀ (execBobbinGroupPowerUp w g s) :=
  ResOk.needSome (fun _ _ => (hs.foldl (fun _ _ h => h.setBob)).next.need)

theorem Keeps.execBobbinGroupAdmission {w : WellId} {g : Fin 8} : ResOk s₀ (execBobbinGroupAdmission w g s) :=
  ResOk.needSome (fun _ _ => (hs.foldl (fun _ _ h => h.setBob)).next.need)

/-! ### Steal: Vacancies and bobbin commands -/

theorem Keeps.execVacancyMapping {w : WellId} : ResOk s₀ (execVacancyMapping w s) :=
  (ResOk.needSome (fun _ _ => hs.setPhys.setBobState.setBob.next)).need

theorem Keeps.bobResult {w busy r phys : Nat} : Keeps s₀ (s.bobResult w busy r phys) := hs.setReg

theorem Keeps.bobFence {w phys : Nat} : Keeps s₀ (s.bobFence w phys) := by
  unfold State.bobFence
  refine hs.ite ?_
  refine hs.bobResult.ite ?_
  refine Keeps.bobResult ?_
  refine Keeps.fenceBobbin ?_
  split
  · exact hs.faultRec.latchBob
  · exact hs

theorem Keeps.bobTest {w phys : Nat} : Keeps s₀ (s.bobTest w phys) :=
  hs.ite (hs.bobResult.ite hs.setBobState.bobResult)

theorem Keeps.bobRelease {w phys : Nat} : Keeps s₀ (s.bobRelease w phys) :=
  hs.ite (hs.bobResult.ite hs.setBob.setBobState.bobResult)

theorem Keeps.execBobCmdFence {w : WellId} {phys : Byte} : ResOk s₀ (execBobCmdFence w phys s) := hs.bobFence.next

theorem Keeps.execBobCmdTest {w : WellId} {phys : Byte} : ResOk s₀ (execBobCmdTest w phys s) := hs.bobTest.next

theorem Keeps.execBobCmdRelease {w : WellId} {phys : Byte} : ResOk s₀ (execBobCmdRelease w phys s) :=
  hs.bobRelease.next

theorem Keeps.execBobTestDone {w : WellId} {pass : Bool} : ResOk s₀ (execBobTestDone w pass s) :=
  hs.setBob.setBobState.bobResult.next.need

/-! ### Control: Controllers -/

theorem Keeps.setCtl {w : Nat} {st : CtlState} {cx : CtlCtx} : Keeps s₀ (s.setCtl w st cx) := hs.setWell

/-! ### Control: Exceptions -/

theorem Keeps.ctlExc {w cause status detail : Nat} : Keeps s₀ (s.ctlExc w cause status detail) := by
  unfold State.ctlExc
  extract_lets _ _ s1 _ s2
  have hs1 : Keeps s₀ s1 := hs.latch.reportSelf
  have hs2 : Keeps s₀ s2 := hs1.setCtl
  refine hs1.ite ?_
  split
  · exact hs2.failJob
  · exact hs2

theorem Keeps.ctlErr {w : Nat} {e : AccErr} : ResOk s₀ (s.ctlErr w e) := by
  unfold State.ctlErr
  split
  · exact hs.stalls
  · exact hs.noteGuard.ctlExc.next
  · exact hs.noteTier.ctlExc.next
  · exact hs.noteTrans.ctlExc.next

theorem Keeps.cGo {t : State} {w : Nat} {next : Int} (ht : Keeps s₀ t) : ResOk s₀ (cGo s t w next) :=
  hs.ctlExc.next.ite ht.setCtl.countEv.next

theorem Keeps.imemReload {w : Nat} : Keeps s₀ (s.imemReload w) := hs.incFld.ctlExc

theorem Keeps.cStep {kind : CKind} {w : WellId} {ev : EccEv} {k : State → CtlCtx → Word → Res}
    (hk : ∀ a b c, Keeps s₀ a → ResOk s₀ (k a b c)) : ResOk s₀ (cStep kind w ev s k) := by
  unfold Machine.cStep
  refine ResOk.need ?_
  refine hs.stalls.ite ?_
  dsimp only
  split
  · exact hs.imemReload.next
  · split
    · exact (hs.incFld.ite hs).ctlExc.next
    · exact (hk _ _ _ (hs.incFld.ite hs)).need

/-! ### Control: Scalar instructions (R262) -/

theorem Keeps.cWrite {kind : CKind} {w : WellId} {ev : EccEv} {f : CtlCtx → Word → Word} :
    ResOk s₀ (cWrite kind w ev s f) := hs.cStep (fun _ _ _ h => h.cGo h.setCtl)

theorem Keeps.cR {kind : CKind} {f : Word → Word → Word} {w : WellId} {ev : EccEv} : ResOk s₀ (cR kind f w ev s) :=
  hs.cWrite

theorem Keeps.cI {kind : CKind} {f : Word → Word → Word} {w : WellId} {ev : EccEv} : ResOk s₀ (cI kind f w ev s) :=
  hs.cWrite

theorem Keeps.execAddOp {w : WellId} {ev : EccEv} : ResOk s₀ (execAddOp w ev s) := hs.cR

theorem Keeps.execSubOp {w : WellId} {ev : EccEv} : ResOk s₀ (execSubOp w ev s) := hs.cR

theorem Keeps.execAndOp {w : WellId} {ev : EccEv} : ResOk s₀ (execAndOp w ev s) := hs.cR

theorem Keeps.execOrOp {w : WellId} {ev : EccEv} : ResOk s₀ (execOrOp w ev s) := hs.cR

theorem Keeps.execXor {w : WellId} {ev : EccEv} : ResOk s₀ (execXor w ev s) := hs.cR

theorem Keeps.execShl {w : WellId} {ev : EccEv} : ResOk s₀ (execShl w ev s) := hs.cR

theorem Keeps.execShr {w : WellId} {ev : EccEv} : ResOk s₀ (execShr w ev s) := hs.cR

theorem Keeps.execSra {w : WellId} {ev : EccEv} : ResOk s₀ (execSra w ev s) := hs.cR

theorem Keeps.execMul {w : WellId} {ev : EccEv} : ResOk s₀ (execMul w ev s) := hs.cR

theorem Keeps.execSlt {w : WellId} {ev : EccEv} : ResOk s₀ (execSlt w ev s) := hs.cR

theorem Keeps.execSltu {w : WellId} {ev : EccEv} : ResOk s₀ (execSltu w ev s) := hs.cR

theorem Keeps.execAddi {w : WellId} {ev : EccEv} : ResOk s₀ (execAddi w ev s) := hs.cI

theorem Keeps.execAndi {w : WellId} {ev : EccEv} : ResOk s₀ (execAndi w ev s) := hs.cI

theorem Keeps.execOri {w : WellId} {ev : EccEv} : ResOk s₀ (execOri w ev s) := hs.cI

theorem Keeps.execXori {w : WellId} {ev : EccEv} : ResOk s₀ (execXori w ev s) := hs.cI

theorem Keeps.execShli {w : WellId} {ev : EccEv} : ResOk s₀ (execShli w ev s) := hs.cI

theorem Keeps.execShri {w : WellId} {ev : EccEv} : ResOk s₀ (execShri w ev s) := hs.cI

theorem Keeps.execSrai {w : WellId} {ev : EccEv} : ResOk s₀ (execSrai w ev s) := hs.cI

theorem Keeps.execSlti {w : WellId} {ev : EccEv} : ResOk s₀ (execSlti w ev s) := hs.cI

theorem Keeps.execLi {w : WellId} {ev : EccEv} : ResOk s₀ (execLi w ev s) := hs.cWrite

theorem Keeps.execLih {w : WellId} {ev : EccEv} : ResOk s₀ (execLih w ev s) := hs.cWrite

/-! ### Control: Loads and stores (R263) -/

theorem Keeps.execLds {w : WellId} {ev : EccEv} : ResOk s₀ (execLds w ev s) := by
  unfold Machine.execLds
  refine hs.cStep (fun _ _ _ h => ?_)
  refine h.ctlExc.next.ite ?_
  split
  · exact h.ctlErr
  · exact h.cGo h.readVia.setCtl

theorem Keeps.execSts {w : WellId} {ev : EccEv} : ResOk s₀ (execSts w ev s) := by
  unfold Machine.execSts
  refine hs.cStep (fun _ _ _ h => ?_)
  refine h.ctlExc.next.ite ?_
  split
  · exact h.ctlErr
  next h1 => exact h.cGo (h.writeVa _ h1).wroteVia

theorem Keeps.execLdg {w : WellId} {ev : EccEv} : ResOk s₀ (execLdg w ev s) := by
  unfold Machine.execLdg
  refine hs.cStep (fun _ _ _ h => ?_)
  refine h.ctlExc.next.ite ?_
  split
  · exact h.ctlErr
  · exact h.cGo h.readVia.setCtl

/-! ### Control: Branches and jumps (R262) -/

theorem Keeps.cB {kind : CKind} {f : Word → Word → Bool} {w : WellId} {ev : EccEv} : ResOk s₀ (cB kind f w ev s) :=
  hs.cStep (fun _ _ _ h => h.cGo h)

theorem Keeps.execBeq {w : WellId} {ev : EccEv} : ResOk s₀ (execBeq w ev s) := hs.cB

theorem Keeps.execBne {w : WellId} {ev : EccEv} : ResOk s₀ (execBne w ev s) := hs.cB

theorem Keeps.execBlt {w : WellId} {ev : EccEv} : ResOk s₀ (execBlt w ev s) := hs.cB

theorem Keeps.execBge {w : WellId} {ev : EccEv} : ResOk s₀ (execBge w ev s) := hs.cB

theorem Keeps.execBltu {w : WellId} {ev : EccEv} : ResOk s₀ (execBltu w ev s) := hs.cB

theorem Keeps.execBgeu {w : WellId} {ev : EccEv} : ResOk s₀ (execBgeu w ev s) := hs.cB

theorem Keeps.execJal {w : WellId} {ev : EccEv} : ResOk s₀ (execJal w ev s) :=
  hs.cStep (fun _ _ _ h => h.cGo h.setCtl)

theorem Keeps.execJr {w : WellId} {ev : EccEv} : ResOk s₀ (execJr w ev s) := hs.cStep (fun _ _ _ h => h.cGo h)

/-! ### Walk: Placement -/

theorem Keeps.leaveW1 {w : Nat} : Keeps s₀ (s.leaveW1 w) := by
  unfold State.leaveW1
  extract_lets _ s1
  have hs1 : Keeps s₀ s1 := hs.setPw
  exact hs1.setFld.setWell.ite hs1

theorem Keeps.movePlace {w : Nat} {border : Bool} {l : Nat} : Keeps s₀ (s.movePlace w border l) := hs.setWell

theorem Keeps.wakeThieves {w : Nat} : Keeps s₀ (s.wakeThieves w) := hs.update

theorem Keeps.placeOn {w k l : Nat} {d : Word} : Keeps s₀ (s.placeOn w k l d) :=
  hs.leaveW1.wakeThieves.setDeque.setWrec

theorem Keeps.trackSplit {w job : Nat} {wr : WalkRec} {wrec : Nat} {pk : Pricking} {P : Nat} {point : List Nat} :
    Keeps s₀ (s.trackSplit w job wr wrec pk P point) := by
  unfold State.trackSplit
  split
  · exact hs
  · exact hs.update.ite hs.update

/-! ### Walk: WALK -/

theorem Keeps.endByWalker {w u cls job status addr detail : Nat} :
    Keeps s₀ (s.endByWalker w u cls job status addr detail) := hs.reportSelf.failJob

theorem Keeps.startWalk {w k job prick arg tag rank : Nat} : Keeps s₀ (s.startWalk w k job prick arg tag rank) :=
  hs.setWrec.setWell

theorem Keeps.walkAccept {w job k : Nat} {x : Job} {prick arg tag : Nat} :
    ResOk s₀ (s.walkAccept w job k x prick arg tag) := by
  unfold State.walkAccept
  refine hs.endByWalker.next.ite ?_
  split
  · exact hs.ctlErr
  · split
    · exact hs.ctlErr
    · split
      · exact hs.endByWalker.next
      · exact hs.endByWalker.next.ite (hs.cGo hs.startWalk.setWell)

theorem Keeps.doWalk {w : Nat} {c : CtlCtx} {i : Word} : ResOk s₀ (s.doWalk w c i) :=
  ResOk.needSome (fun _ _ => hs.walkAccept)

theorem Keeps.stallCtl {w : Nat} {wt : CtlWait} : Keeps s₀ (s.stallCtl w wt) := hs.setCtl

theorem Keeps.ctlScratch {w a : Nat} {r : Res} (hr : ResOk s₀ r) : ResOk s₀ (s.ctlScratch w a r) := by
  unfold State.ctlScratch
  split
  · exact hs.scratch hr
  · exact hr

theorem Keeps.execWalkStart {w : WellId} {ev : EccEv} : ResOk s₀ (execWalkStart w ev s) :=
  hs.cStep (fun _ _ _ h => h.ctlScratch (h.doWalk.ite h.stallCtl.next))

theorem Keeps.execWalkRecordStallTimeout {w : WellId} : ResOk s₀ (execWalkRecordStallTimeout w s) := by
  unfold Machine.execWalkRecordStallTimeout
  dsimp only
  split
  · exact (ResOk.needSome (fun _ _ => hs.endByWalker.next)).need
  · exact ResOk.fault

/-! ### Walk: ENQ -/

theorem Keeps.enqPlace {w job k tag P : Nat} {pk : Pricking} {d : Word} {lc : Nat × Bool} :
    Keeps s₀ (s.enqPlace w job k tag P pk d lc) := (hs.movePlace.ite hs).trackSplit.placeOn

theorem Keeps.addItem {w : Nat} {i : LayerItem} : Keeps s₀ (s.addItem w i) := hs.setWell

theorem Keeps.doEnq {w : Nat} {c : CtlCtx} {i : Word} {any : Bool} : ResOk s₀ (s.doEnq w c i any) := by
  unfold State.doEnq
  refine ResOk.needSome (fun _ _ => ?_)
  dsimp only
  split
  · exact hs.ctlErr
  · refine hs.scratch ?_
    split
    · exact hs.ctlErr
    · exact hs.endByWalker.next
    · split
      · exact hs.stallCtl.next
      · exact hs.cGo hs.addItem.enqPlace

theorem Keeps.execEnqTo {w : WellId} {ev : EccEv} : ResOk s₀ (execEnqTo w ev s) := hs.cStep (fun _ _ _ h => h.doEnq)

theorem Keeps.execEnqAny {w : WellId} {ev : EccEv} : ResOk s₀ (execEnqAny w ev s) :=
  hs.cStep (fun _ _ _ h => h.doEnq)

/-! ### Walk: Waits -/

theorem Keeps.freeRec {w k r : Nat} : Keeps s₀ (s.freeRec w k r) := hs.setWrec

theorem Keeps.sawWalk {w k : Nat} {all : Bool} {tag : Nat} : Keeps s₀ (s.sawWalk w k all tag) :=
  (hs.foldl (fun _ _ h => h.freeRec.ite h)).ite (hs.freeRec.ite hs)

theorem Keeps.execWaitWalk {w : WellId} {ev : EccEv} : ResOk s₀ (execWaitWalk w ev s) :=
  hs.cStep (fun _ _ _ h => (h.cGo h.sawWalk).ite h.stallCtl.next)

theorem Keeps.execWaitEvent {w : WellId} {ev : EccEv} : ResOk s₀ (execWaitEvent w ev s) :=
  hs.cStep (fun _ _ _ h => h.ctlScratch ((h.cGo h).ite h.stallCtl.next))

theorem Keeps.execWaitEventLimitExpiry {w : WellId} : ResOk s₀ (execWaitEventLimitExpiry w s) := by
  unfold Machine.execWaitEventLimitExpiry
  dsimp only
  split
  · exact hs.ctlExc.next.need
  · exact ResOk.fault

theorem Keeps.execWaitPump {w : WellId} {ev : EccEv} : ResOk s₀ (execWaitPump w ev s) :=
  hs.cStep (fun _ _ _ h => (h.cGo h).ite h.stallCtl.next)

theorem Keeps.execFenceStore {w : WellId} {ev : EccEv} : ResOk s₀ (execFenceStore w ev s) :=
  hs.cStep (fun _ _ _ h => h.cGo h)

theorem Keeps.execFenceWell {w : WellId} {ev : EccEv} : ResOk s₀ (execFenceWell w ev s) :=
  hs.cStep (fun _ _ _ h => (h.cGo h.sawWalk).ite h.stallCtl.next)

/-! ### Walk: The end of a program -/

theorem Keeps.haltWell {w : Nat} : Keeps s₀ (s.haltWell w) := by
  unfold State.haltWell
  extract_lets _ _ s1
  have hs1 : Keeps s₀ s1 := hs.setCtl.countEv
  split
  · exact hs1
  · split
    · exact hs1
    · exact hs1.modJob.ite hs1

theorem Keeps.execHalt {w : WellId} {ev : EccEv} : ResOk s₀ (execHalt w ev s) :=
  hs.cStep (fun _ _ _ h => h.haltWell.next.ite h.stallCtl.next)

/-! ### Walk: The walker (R288 to R294) -/

theorem Keeps.walkerErr {w job : Nat} {e : AccErr} : ResOk s₀ (s.walkerErr w job e) := by
  unfold State.walkerErr
  split
  · exact hs.stalls
  · exact hs.noteGuard.failJob.next
  · exact hs.noteTier.failJob.next
  · exact hs.noteTrans.failJob.next

theorem Keeps.setHeadWalk {w : Nat} {x : Option Walk} : Keeps s₀ (s.setHeadWalk w x) := hs.setWell

theorem Keeps.placePoint {w job : Nat} {x : Job} {pk : Pricking} {wk : Walk} {pos : List (Nat × Nat)} :
    ResOk s₀ (s.placePoint w job x pk wk pos) := by
  unfold State.placePoint
  split
  · exact hs.stalls
  · exact hs.movePlace.trackSplit.placeOn.setHeadWalk.countEv.next

theorem Keeps.walkStep {w job : Nat} {x : Job} {wk : Walk} : ResOk s₀ (s.walkStep w job x wk) := by
  unfold State.walkStep
  dsimp only
  split
  · exact hs.walkerErr
  · split
    · exact hs.walkerErr
    · exact hs.setHeadWalk.next
    · exact hs.setHeadWalk.next
    · exact hs.placePoint

theorem Keeps.dropReplay {w : Nat} : Keeps s₀ (s.dropReplay w) := hs.setWell

theorem Keeps.replayEnq {w job : Nat} {x : Job} {d : Word} {named : Option Nat} {tag : Nat} :
    ResOk s₀ (s.replayEnq w job x d named tag) := by
  unfold State.replayEnq
  dsimp only
  split
  · exact hs.walkerErr
  · split
    · exact hs.stalls
    · exact hs.enqPlace.dropReplay.next

theorem Keeps.replayWalk {w job : Nat} {x : Job} : ResOk s₀ (s.replayWalk w job x) := by
  unfold State.replayWalk
  split
  · exact hs.startWalk.dropReplay.next.ite hs.stalls
  · exact hs.replayEnq.ite hs.stalls
  · exact ResOk.fault

theorem Keeps.execWalkerPlaceStitch {w : WellId} : ResOk s₀ (execWalkerPlaceStitch w s) := by
  unfold Machine.execWalkerPlaceStitch
  refine ResOk.needSome (fun _ _ => ?_)
  refine ResOk.need ?_
  refine hs.stalls.ite ?_
  split
  · exact hs.scratch hs.walkStep
  · exact hs.replayWalk

/-! ### Walk: Split combines (R298, R326, R327) -/

theorem Keeps.enterComb {w id n : Nat} : Keeps s₀ (s.enterComb w id n) := by
  induction n generalizing s with
  | zero => exact hs
  | succ n ih =>
    unfold State.enterComb
    split
    · exact hs
    · split
      · exact hs
      · exact hs.ite (Keeps.ite (ih hs.update) hs)

theorem Keeps.feedComb {w : Nat} : Keeps s₀ (s.feedComb w) := by
  unfold State.feedComb
  refine hs.foldl (fun _ _ h => ?_)
  split
  · exact h.enterComb
  · exact h

theorem Keeps.startComb {w job : Nat} {x : Job} {t : SplitTrack} {pk : Pricking} {c : Comb} :
    Keeps s₀ (s.startComb w job x t pk c) := hs.update.enterComb

theorem Keeps.execSplitCombineIssue {w : WellId} : ResOk s₀ (execSplitCombineIssue w s) := by
  unfold Machine.execSplitCombineIssue
  refine ResOk.needSome (fun _ _ => ?_)
  refine ResOk.needSome (fun _ _ => ?_)
  refine hs.stalls.ite ?_
  split
  · exact hs.walkerErr
  · split
    · exact hs.walkerErr
    · exact ResOk.fault
    · exact hs.startComb.next

/-! ### Migrate: Leaves (R463) -/

theorem Keeps.setLeaf {at_ : Nat} {v : Word} : Keeps s₀ (s.setLeaf at_ v) := hs.rawWrite

theorem Keeps.putLeaf {ctx va at_ : Nat} {v : Word} : Keeps s₀ (s.putLeaf ctx va at_ v) := hs.tlbPage.setLeaf

theorem Keeps.leafBit {bit : Nat} {v : Bool} {at_ : Nat} : Keeps s₀ (s.leafBit bit v at_) := by
  unfold State.leafBit
  split
  · exact hs.setLeaf
  · exact hs.noteGuard
  · exact hs.noteTier
  · exact hs.setLeaf

/-! ### Migrate: Pool registers (R373) -/

theorem Keeps.kvcAdd {p : Nat} {t : Tier} {more : Bool} : Keeps s₀ (s.kvcAdd p t more) := by
  unfold State.kvcAdd
  split
  · exact hs
  · exact hs.setFld

theorem Keeps.kvcMove {p : Nat} {a b : Tier} : Keeps s₀ (s.kvcMove p a b) := hs.kvcAdd.kvcAdd

/-! ### Migrate: Moves (R464, R470) -/

theorem Keeps.beginMove {j va : Nat} {l : Leaf} {t : Tier} {prefetch : Bool} :
    OptOk (Keeps s₀) (s.beginMove j va l t prefetch) := by
  unfold State.beginMove
  split
  · split
    · exact OptOk.none
    · exact OptOk.some hs.modJob.putLeaf.update
  · exact OptOk.none

theorem Keeps.recallLoc {l : Loc} {n : Nat} : Keeps s₀ (s.recallLoc l n) := hs.recallRange.ite hs

theorem Keeps.copyPage {src dst : Loc} {n : Nat} : Keeps s₀ (s.copyPage src dst n) := hs.clearPoison.rawWrite

theorem Keeps.endMove {m : Move} : ExOk (Keeps s₀) (s.endMove m) := by
  refine ExOk.bindAny (fun v => ?_)
  extract_lets s1 s2 s3 s4
  have hs2 : Keeps s₀ s2 := hs.copyPage.setLeaf.modJob
  have hs3 : Keeps s₀ s3 := hs2.kvcMove.ite hs2
  exact ExOk.pure (hs3.incFld.ite hs3).incFld

theorem Keeps.dropMove {m : Move} : Keeps s₀ (s.dropMove m) := by
  unfold State.dropMove
  refine Keeps.incFld ?_
  refine Keeps.modJob ?_
  split
  · exact hs.setLeaf
  · exact hs

theorem Keeps.moveNow {j va : Nat} {l : Leaf} {t : Tier} : ExOk (OptOk (Keeps s₀)) (s.moveNow j va l t) := by
  unfold State.moveNow
  split
  · refine (ExOk.ok OptOk.none).ite ?_
    split
    · exact ExOk.ok OptOk.none
    · exact ExOk.bindAny (fun _ => hs.modJob.tlbPage.recallLoc.endMove.bind (fun _ h => ExOk.pure (OptOk.some h)))
  · exact ExOk.ok OptOk.none

/-! ### Migrate: The pool (R365 to R370) -/

theorem Keeps.spillTo {j ctx va : Nat} {t : Tier} : ExOk (OptOk (Keeps s₀)) (s.spillTo j ctx va t) :=
  ExOk.bindAny (fun _ => hs.moveNow.bind (fun _ h => ExOk.pure (OptOk.map (fun _ h1 => (h _ h1).incFld))))

theorem Keeps.roomRes {j ctx : Nat} {job : Job} : ExOk (OptOk (Keeps s₀)) (s.roomRes j ctx job) := by
  unfold State.roomRes
  refine ExOk.bindAny (fun _ => ?_)
  refine (ExOk.pure (OptOk.some hs)).ite ?_
  split
  · exact ExOk.pure OptOk.none
  · exact hs.spillTo

theorem Keeps.roomCis {j ctx : Nat} {job : Job} : ExOk (OptOk (Keeps s₀)) (s.roomCis j ctx job) := by
  unfold State.roomCis
  refine ExOk.bindAny (fun _ => ?_)
  refine (ExOk.pure (OptOk.some hs)).ite ?_
  split
  · exact ExOk.pure OptOk.none
  · refine hs.roomRes.bind (fun _ h => ?_)
    split
    · exact ExOk.pure h
    · exact (h _ rfl).spillTo

theorem Keeps.appendMove {j w va : Nat} : ExOk (Keeps s₀) (s.appendMove j w va) := by
  unfold State.appendMove
  split
  · exact ExOk.ok hs
  · refine (ExOk.ok hs).ite ?_
    refine ExOk.bindAny (fun _ => ?_)
    refine ExOk.error.ite ?_
    refine ExOk.bind (Q := (Keeps s₀)) ?_ (fun _ h => ExOk.pure h.modJob)
    refine (ExOk.pure hs).ite ?_
    refine hs.roomCis.bind (fun _ h1 => ?_)
    split
    · exact ExOk.pure hs
    · exact ExOk.bindAny (fun _ => (h1 _ rfl).moveNow.bind (fun _ h2 => ExOk.pure ((h1 _ rfl).getD h2)))

theorem Keeps.appendMoves {j w : Nat} {rs : List (Nat × Nat)} : ExOk (Keeps s₀) (s.appendMoves j w rs) :=
  ExOk.foldlM (fun _ _ h => h.appendMove) hs

theorem Keeps.poolPlace {j ctx i va : Nat} {pool : PoolRec} : ExOk (Keeps s₀) (s.poolPlace j ctx i va pool) := by
  unfold State.poolPlace
  split
  · exact ExOk.error
  · extract_lets _ _ _ s1
    have hs1 : Keeps s₀ s1 := hs.putLeaf.elim (fun _ _ => hs.putLeaf.kvcAdd)
    refine (ExOk.ok hs1).ite ?_
    split
    next h => exact ExOk.ok (hs1.getD (hs1.moveNow _ h))
    · exact ExOk.ok (hs1.getD hs1.beginMove)
    · exact ExOk.error

theorem Keeps.poolStart {j : Nat} : ExOk (Keeps s₀) (s.poolStart j) := by
  unfold State.poolStart
  split
  · exact ExOk.ok hs
  · exact ExOk.foldlM (fun _ _ h => h.poolPlace) hs.setReg

/-! ### Migrate: Requests (R466, R467) -/

theorem Keeps.migGone {r : MigReq} {lo : Nat} : Keeps s₀ (s.migGone r lo) := hs.update.ite hs.update

theorem Keeps.poolRoom {r : MigReq} {l : Leaf} : ExOk (OptOk (Keeps s₀)) (s.poolRoom r l) := by
  unfold State.poolRoom
  split
  · split
    · exact hs.roomCis
    · exact hs.roomRes
    · exact ExOk.ok (OptOk.some hs)
  · exact ExOk.ok (OptOk.some hs)

theorem Keeps.migMove {r : MigReq} {l : Leaf} : ExOk (Keeps s₀) (s.migMove r l) := by
  unfold State.migMove
  refine hs.poolRoom.bind (fun _ h => ?_)
  split
  · exact ExOk.pure hs.incFld
  · dsimp only
    split
    · exact ExOk.pure (h _ rfl).incFld
    · split
      · exact ExOk.pure (h _ rfl).incFld
      next h1 => exact ExOk.pure (((h _ rfl).beginMove _ h1).modJob.ite ((h _ rfl).beginMove _ h1))

theorem Keeps.engineRun {n : Nat} : Keeps s₀ (s.engineRun n).1 := by
  induction n generalizing s with
  | zero => exact hs
  | succ n ih =>
    unfold State.engineRun
    split
    · exact hs
    next r _ =>
      split
      · exact ih hs.migGone
      · generalize s.migPage r = m
        obtain ⟨lf, lo⟩ := m
        dsimp only
        split
        · exact ih hs.migGone
        · split
          · exact ih hs.putLeaf.migGone
          · split
            · exact ih hs.putLeaf.migGone
            · split
              · split
                · exact hs
                · exact hs.migGone
                next t heq => exact (hs.migMove _ heq).migGone
              · exact ih hs.migGone

theorem Keeps.noteWhPump {n j : Nat} {e : AccErr} : Keeps s₀ (s.noteWhPump n j e) := hs.noteHead

theorem Keeps.engineErr {n j : Nat} {a : AccErr} : ResOk s₀ (s.engineErr n j a) := by
  unfold State.engineErr
  split
  · exact hs.stalls
  · exact hs.noteWhPump.failJob.next

theorem Keeps.execMigrationMoveStart : ResOk s₀ (execMigrationMoveStart s) := by
  unfold Machine.execMigrationMoveStart
  refine ResOk.needSome (fun _ _ => ?_)
  split
  next h => exact (hs.engineRun.of_fst h).next
  next h => exact (hs.engineRun.of_fst h).engineErr

theorem Keeps.abandonMove {m : Move} {e : AccErr} : Keeps s₀ (s.abandonMove m e) :=
  hs.dropMove.noteWhPump.failJob.ite hs.dropMove.noteWhPump

theorem Keeps.execMoveDrainDone {n : Nat} : ResOk s₀ (execMoveDrainDone n s) := by
  unfold Machine.execMoveDrainDone
  refine ResOk.needSome (fun _ _ => ?_)
  refine ResOk.need ?_
  split
  · exact hs.stalls
  · split
    · exact hs.stalls
    · exact hs.update.abandonMove.next
    · exact hs.setLeaf.recallLoc.update.next

theorem Keeps.finishMove {m : Move} : ResOk s₀ (s.finishMove m) := by
  unfold State.finishMove
  dsimp only
  split
  next h => exact ((ExOk.bindAny (fun _ => hs.update.endMove)) _ h).next
  · exact hs.stalls
  · exact hs.update.abandonMove.next

theorem Keeps.execMoveCopyComplete {n : Nat} : ResOk s₀ (execMoveCopyComplete n s) :=
  ResOk.needSome (fun _ _ => hs.finishMove.need)

theorem Keeps.migPush {r : MigReq} : Keeps s₀ (s.migPush r) := hs.update

theorem Keeps.doMig {w op : Nat} {c : CtlCtx} {i : Word} : ResOk s₀ (s.doMig w op c i) :=
  ResOk.needSome (fun _ _ => (hs.cGo hs.migPush).ite hs.stallCtl.next)

theorem Keeps.execMigPrefetch {w : WellId} {ev : EccEv} : ResOk s₀ (execMigPrefetch w ev s) :=
  hs.cStep (fun _ _ _ h => h.doMig)

theorem Keeps.execMigDemote {w : WellId} {ev : EccEv} : ResOk s₀ (execMigDemote w ev s) :=
  hs.cStep (fun _ _ _ h => h.doMig)

theorem Keeps.execMigPin {w : WellId} {ev : EccEv} : ResOk s₀ (execMigPin w ev s) :=
  hs.cStep (fun _ _ _ h => h.doMig)

theorem Keeps.execMigUnpin {w : WellId} {ev : EccEv} : ResOk s₀ (execMigUnpin w ev s) :=
  hs.cStep (fun _ _ _ h => h.doMig)

/-! ### Migrate: Access counts (R468) -/

theorem Keeps.getsGo {w va : Nat} {ev : LineEv} : ResOk s₀ (s.getsGo w va ev) :=
  hs.lineReq (fun _ _ h => h.dirGets.countPage)

theorem Keeps.execGets {w : WellId} {va : Word} {ev : LineEv} : ResOk s₀ (execGets w va ev s) := by
  unfold Machine.execGets
  dsimp only
  split
  · exact hs.lineErr.next.ite hs.lineErr.getsGo
  · exact hs.getsGo

theorem Keeps.execAccessCountPromotion {w : WellId} {va : Word} : ResOk s₀ (execAccessCountPromotion w va s) := by
  unfold Machine.execAccessCountPromotion
  refine ResOk.needSome (fun _ _ => ?_)
  refine ResOk.need ?_
  refine hs.stalls.ite ?_
  refine Keeps.next ?_
  refine Keeps.update ?_
  split
  · exact hs
  · exact hs.migPush

theorem Keeps.execCountWindowClear : ResOk s₀ (execCountWindowClear s) := hs.update.next.need

theorem Keeps.endMoves {j : Nat} : ExOk (Keeps s₀) (s.endMoves j) := by
  unfold State.endMoves
  refine ExOk.foldlM (fun _ _ h => ?_) hs.update
  split
  next h1 => exact ExOk.ok ((ExOk.bindAny (fun _ => h.recallLoc.endMove)) _ h1)
  · exact ExOk.error
  · exact ExOk.ok h.abandonMove

/-! ### CuOps: Operation records (R406) -/

theorem Keeps.putVals {ctx : Nat} {d : TDesc} {r k : Int} {vals : List Num} :
    ExOk (Keeps s₀ ·.1) (s.putVals ctx d r k vals) := by
  unfold State.putVals
  dsimp only
  exact ExOk.ite (ExOk.pure hs) (ExOk.ite (ExOk.bindAny (fun _ => ExOk.bindAny
    (fun _ => ExOk.bindAny (fun _ => hs.convert.writeRuns.bind (fun _ h => ExOk.pure h))))) (ExOk.bindAny (fun _ =>
      hs.convert.writeRuns.bind (fun _ h => ExOk.pure h))))

theorem Keeps.put32 {ctx : Nat} {d : TDesc} {r k : Int} {vals : List Word32} :
    ExOk (Keeps s₀ ·.1) (s.put32 ctx d r k vals) := hs.putVals

theorem Keeps.putBits {ctx : Nat} {d : TDesc} {r k : Int} {codes scales : List Nat} :
    ExOk (Keeps s₀ ·.1) (s.putBits ctx d r k codes scales) :=
  ExOk.bindAny (fun _ => hs.writeRuns.bind (fun _ h => ExOk.pure h))

theorem Keeps.copyElems {ctx : Nat} {a : Opd} {r k : Int} {d : TDesc} {r' k' : Int} {n : Nat} :
    ExOk (Keeps s₀ ·.1) (s.copyElems ctx a r k d r' k' n) :=
  (ExOk.bindAny (fun _ => (ExOk.bindAny (fun _ => hs.putBits)).ite (ExOk.bindAny (fun _ => hs.putBits)))).ite
    (ExOk.bindAny (fun _ => hs.putVals))

theorem Keeps.putZeros {ctx : Nat} {d : TDesc} {r k : Int} {n : Nat} :
    ExOk (Keeps s₀ ·.1) (s.putZeros ctx d r k n) := hs.putBits.ite hs.putVals

omit hs in
theorem ExOk.cuNext {a : CuOut} {f : State → CuOut} (ha : ExOk (Keeps s₀ ·.1) a)
    (hf : ∀ t, Keeps s₀ t → ExOk (Keeps s₀ ·.1) (f t)) : ExOk (Keeps s₀ ·.1) (a.next f) := by
  unfold CuOut.next
  refine ha.bind (fun _ h => ?_)
  dsimp only
  exact (hf _ h).bind (fun _ h => ExOk.pure h)

theorem Keeps.cuEach {α : Type} {l : List α} {f : State → α → CuOut}
    (hf : ∀ t a, Keeps s₀ t → ExOk (Keeps s₀ ·.1) (f t a)) : ExOk (Keeps s₀ ·.1) (cuEach s l f) := by
  unfold Machine.cuEach
  suffices h : ∀ acc : CuOut, ExOk (Keeps s₀ ·.1) acc →
      ExOk (Keeps s₀ ·.1) (l.foldl (fun acc x => CuOut.next acc (f · x)) acc) from
    h _ (ExOk.ok (a := (s, 0, 0)) hs)
  induction l with
  | nil => exact fun _ h => h
  | cons a l ih => exact fun _ h => ih _ (ExOk.cuNext h (fun t ht => hf t a ht))

/-! ### CuOps: EWISE, QUANT, CONVERT, FILL -/

theorem Keeps.ewise {f : List Word → Num → Num → Word32} {a : CuArg} : ExOk (Keeps s₀ ·.1) (ewise f s a) :=
  ExOk.bindAny (fun _ => ExOk.bindAny (fun _ => ExOk.bindAny
    (fun _ => ExOk.bindAny (fun _ => ExOk.bindAny (fun _ => hs.put32)))))

theorem Keeps.convertItem {a : CuArg} : ExOk (Keeps s₀ ·.1) (convertItem s a) :=
  ExOk.bindAny (fun _ => ExOk.bindAny (fun _ => ExOk.bindAny (fun _ => hs.putVals)))

theorem Keeps.noteScale {id : Nat} {v : Word32} : Keeps s₀ (s.noteScale id v) := hs.update

theorem Keeps.putScale {ctx id addr : Nat} {v : Word32} : ExOk (Keeps s₀) (s.putScale ctx id addr v) :=
  hs.writeDir.bind (fun _ h => ExOk.pure h.noteScale)

theorem Keeps.quantComputed {a : CuArg} : ExOk (Keeps s₀ ·.1) (quantComputed s a) :=
  ExOk.bindAny (fun _ => ExOk.bindAny (fun _ => hs.convertItem.ite
    (ExOk.bindAny (fun _ => hs.putScale.bind (fun _ h => h.convertItem)))))

theorem Keeps.fillZero {a : CuArg} : ExOk (Keeps s₀ ·.1) (fillZero s a) := ExOk.bindAny (fun _ => hs.putZeros)

theorem Keeps.fillValue {a : CuArg} : ExOk (Keeps s₀ ·.1) (fillValue s a) := ExOk.bindAny (fun _ => hs.put32)

/-! ### CuOps: RED (R239, R240) -/

theorem Keeps.redItem {k : RedKind} {a : CuArg} : ExOk (Keeps s₀ ·.1) (redItem k s a) :=
  ExOk.bindAny (fun _ => ExOk.bindAny (fun _ => (ExOk.bindAny (fun _ => hs.put32)).ite
    ((ExOk.bindAny (fun _ => ExOk.bindAny (fun _ => hs.put32))).ite (ExOk.pure hs))))

/-! ### CuOps: MX operands (R104 to R108) -/

theorem Keeps.mxScale {a : CuArg} {f : Fmt} {A B D : Opd} : ExOk (Keeps s₀) (s.mxScale a f A B D) :=
  (ExOk.pure hs).ite (ExOk.bindAny (fun _ => hs.putScale.ite (ExOk.pure hs.noteScale)))

theorem Keeps.mxWhole {a : CuArg} {f : Fmt} {k : Int} {A B D : Opd} {n : Nat} :
    ExOk (Keeps s₀ ·.1) (mxWhole s a f k A B D n) := by
  unfold Machine.mxWhole
  refine ExOk.bindAny (fun _ => ?_)
  refine hs.putBits.bind (fun _ h => ?_)
  dsimp only
  exact ExOk.pure h

theorem Keeps.mximpItem {a : CuArg} : ExOk (Keeps s₀ ·.1) (mximpItem s a) := by
  unfold Machine.mximpItem
  refine ExOk.bindAny (fun _ => ?_)
  refine ExOk.bindAny (fun _ => ?_)
  refine ExOk.bindAny (fun _ => ?_)
  split
  · exact ExOk.pure hs
  · exact hs.mxScale.bind (fun _ h => h.mxWhole.cuNext (fun _ h => ExOk.bindAny (fun _ => h.putVals)))

theorem Keeps.mxexpItem {a : CuArg} : ExOk (Keeps s₀ ·.1) (mxexpItem s a) := by
  unfold Machine.mxexpItem
  refine ExOk.bindAny (fun _ => ?_)
  refine ExOk.bindAny (fun _ => ?_)
  refine ExOk.bindAny (fun _ => ?_)
  split
  · exact ExOk.pure hs
  · refine ExOk.bindAny (fun _ => ?_)
    refine hs.putBits.bind (fun _ h => ?_)
    dsimp only
    exact h.putBits.bind (fun _ h => ExOk.pure h)

/-! ### CuOps: NORM (R345 to R348, R804) -/

theorem Keeps.putPair {a : CuArg} {mu r : Word32} : ExOk (Keeps s₀ ·.1) (s.putPair a mu r) :=
  ExOk.bindAny (fun _ => hs.put32)

theorem Keeps.normOut {a : CuArg} {layer inf : Bool} {mu r : Word32} {xs : List Num} {j : Nat} :
    ExOk (Keeps s₀ ·.1) (s.normOut a layer inf mu r xs j) :=
  ExOk.bindAny (fun _ => ExOk.bindAny (fun _ => ExOk.bindAny (fun _ => hs.put32)))

theorem Keeps.normFull {layer : Bool} {a : CuArg} : ExOk (Keeps s₀ ·.1) (normFull layer s a) := by
  unfold Machine.normFull
  refine ExOk.ite ?_ (ExOk.pure hs)
  refine ExOk.bindAny (fun _ => ?_)
  dsimp only
  exact (hs.normOut.cuNext (fun _ h => h.putPair)).ite hs.normOut

theorem Keeps.normPairs {layer : Bool} {a : CuArg} : ExOk (Keeps s₀ ·.1) (normPairs layer s a) := by
  unfold Machine.normPairs
  refine ExOk.ite ?_ (ExOk.pure hs)
  refine ExOk.bindAny (fun _ => ?_)
  dsimp only
  exact hs.putPair

theorem Keeps.normApply {layer : Bool} {a : CuArg} : ExOk (Keeps s₀ ·.1) (normApply layer s a) := by
  unfold Machine.normApply
  refine ExOk.bindAny (fun _ => ?_)
  dsimp only
  exact ExOk.bindAny (fun _ => (ExOk.bindAny (fun _ => hs.normOut)).ite (ExOk.bindAny (fun _ => hs.normOut)))

/-! ### CuOps: COMBINE and SMXMERGE (R326, R328) -/

theorem Keeps.combineItem {a : CuArg} : ExOk (Keeps s₀ ·.1) (combineItem s a) :=
  ExOk.bindAny (fun _ => ExOk.bindAny (fun _ => ExOk.bindAny (fun _ => hs.put32)))

theorem Keeps.smxmergeItem {a : CuArg} : ExOk (Keeps s₀ ·.1) (smxmergeItem s a) := by
  unfold Machine.smxmergeItem
  refine ExOk.bindAny (fun _ => ?_)
  refine ExOk.bindAny (fun _ => ?_)
  refine ExOk.bindAny (fun _ => ?_)
  refine ExOk.bindAny (fun _ => ?_)
  split
  · exact ExOk.pure hs
  · exact hs.put32

/-! ### CuOps: Re-layouts and index lists (R354, R355, R408, R806) -/

theorem Keeps.kvItem {a : CuArg} : ExOk (Keeps s₀ ·.1) (kvItem s a) :=
  ExOk.bindAny (fun _ => ExOk.bindAny (fun _ => hs.cuEach (fun _ _ h => h.copyElems)))

theorem Keeps.vreItem {a : CuArg} : ExOk (Keeps s₀ ·.1) (vreItem s a) :=
  ExOk.bindAny (fun _ => ExOk.bindAny (fun _ => ExOk.bindAny (fun _ => hs.putVals)))

theorem Keeps.gatherItem {a : CuArg} : ExOk (Keeps s₀ ·.1) (gatherItem s a) :=
  ExOk.bindAny (fun _ => ExOk.bindAny (fun _ => ExOk.bindAny (fun _ => hs.putZeros.ite hs.copyElems)))

theorem Keeps.scatterItem {job w : Nat} {a : CuArg} : ExOk (Keeps s₀ ·.1) (scatterItem job w s a) :=
  ExOk.bindAny (fun _ => ExOk.bindAny (fun _ => ExOk.bindAny
    (fun _ => ExOk.ite (ExOk.pure hs) (hs.appendMoves.bind (fun _ h => h.copyElems)))))

/-! ### CuOps: Geometry records (R379, R380) -/

theorem Keeps.gatRow {ctx : Nat} {q : Req} {e : Int} : ExOk (Keeps s₀ ·.1) (s.gatRow ctx q e) := by
  unfold State.gatRow
  dsimp only
  split
  · exact hs.putZeros
  · exact hs.cuEach (fun _ _ h => h.putZeros.ite h.copyElems)

/-! ### CuOps: POOL and UPSAMPLE (R385 to R387) -/

theorem Keeps.poolItem {avg : Bool} {a : CuArg} : ExOk (Keeps s₀ ·.1) (poolItem avg s a) := by
  unfold Machine.poolItem
  refine ExOk.bindAny (fun _ => ?_)
  refine ExOk.bindAny (fun _ => ?_)
  refine ExOk.bindAny (fun _ => ?_)
  split
  · exact hs.putZeros
  · exact ExOk.bindAny (fun _ => hs.putVals)

theorem Keeps.upNearest {a : CuArg} : ExOk (Keeps s₀ ·.1) (upNearest s a) := by
  unfold Machine.upNearest
  refine ExOk.bindAny (fun _ => ?_)
  refine ExOk.bindAny (fun _ => ?_)
  refine ExOk.bindAny (fun _ => ?_)
  split
  · exact hs.putZeros
  · refine hs.copyElems.bind (fun _ h => ?_)
    dsimp only
    exact ExOk.pure h

theorem Keeps.upTrilinear {a : CuArg} : ExOk (Keeps s₀ ·.1) (upTrilinear s a) := by
  unfold Machine.upTrilinear
  refine ExOk.bindAny (fun _ => ?_)
  refine ExOk.bindAny (fun _ => ?_)
  refine ExOk.bindAny (fun _ => ?_)
  split
  · exact hs.putZeros
  · dsimp only
    exact ExOk.bindAny (fun _ => hs.putVals)

/-! ### Cu: Operations in progress -/

theorem Keeps.modOp {id : Nat} {f : OpRun → OpRun} : Keeps s₀ (s.modOp id f) := hs.update

theorem Keeps.dropOp {id : Nat} : Keeps s₀ (s.dropOp id) := hs.update

theorem Keeps.startOp {w n job addr tag : Nat} {ws : List Word} {g : Option Word} {last : Nat} :
    ExOk (Keeps s₀) (s.startOp w n job addr tag ws g last) :=
  ExOk.bindAny (fun _ => ExOk.pure hs.update.setPump.setFld)

/-! ### Cu: Units (R415, R416) -/

theorem Keeps.undefRow {ctx : Nat} {d : TDesc} {r k : Int} {n : Nat} : Keeps s₀ (s.undefRow ctx d r k n) :=
  hs.undefVas

theorem Keeps.noteItem {w u ctx : Nat} {who : Who} {a : AccErr} : Keeps s₀ (s.noteItem w u ctx who a) := by
  unfold State.noteItem
  split
  · exact hs.noteTier
  · exact hs.noteGuard
  · exact hs
  · exact hs.noteTrans

theorem Keeps.cancelItems {w : Nat} {p : CuItem → Bool} : Keeps s₀ (s.cancelItems w p) :=
  hs.foldl (fun _ _ h => h.setUnit)

theorem Keeps.undefDest {a : CuArg} : Keeps s₀ (s.undefDest a) := by
  unfold State.undefDest
  refine Keeps.ite ?_ ?_
  · dsimp only
    split
    · exact hs.undefRow
    · exact hs
  · split
    · exact hs
    · dsimp only
      split
      · exact hs.undefRow.ite hs.undefRow
      · split
        · exact hs.undefVas.undefVas
        · exact hs.undefVas
      · refine Keeps.ite ?_ (hs.undefRow.ite hs.undefRow)
        split
        · exact (hs.undefRow.ite hs.undefRow).undefRow
        · exact hs.undefRow.ite hs.undefRow
      · split
        · exact hs.ite hs.undefRow
        · exact hs
      · exact hs.undefRow

theorem Keeps.opFault {w u : Nat} {x : CuUnit} {op : OpRun} {a : Option CuArg} {e : AccErr} :
    ResOk s₀ (s.opFault w u x op a e) := by
  unfold State.opFault
  split
  · exact hs.stalls
  · refine Keeps.next ?_
    refine Keeps.failJob ?_
    split
    · exact hs.setUnit.noteItem
    · exact hs.setUnit.noteItem.undefDest

theorem Keeps.countSteps {w : Nat} {a : CuArg} {steps : Nat} : Keeps s₀ (s.countSteps w a steps) :=
  hs.countEv.countEv

theorem Keeps.cuWork {opc var : Nat} {w : WellId} {u : Fin 64} {f : OpRun → State → CuArg → CuOut}
    (hf : ∀ a b c, Keeps s₀ b → ExOk (Keeps s₀ ·.1) (f a b c)) : ResOk s₀ (cuWork opc var w u s f) := by
  unfold Machine.cuWork
  refine ResOk.need ?_
  refine ResOk.needSome (fun _ _ => ?_)
  split
  · refine ResOk.needSome (fun _ _ => ?_)
    refine ResOk.need ?_
    refine hs.stalls.ite ?_
    split
    · exact hs.opFault
    · split
      · exact hs.opFault
      next h => exact ((ExOk.bindAny (fun _ => hf _ _ _ hs)) _ h).setUnit.countSteps.next
  · exact ResOk.fault

/-! ### Cu: The operations (R408) -/

theorem Keeps.execCuEwiseAdd {w : WellId} {u : Fin 64} : ResOk s₀ (execCuEwiseAdd w u s) :=
  hs.cuWork (fun _ _ _ h => h.ewise)

theorem Keeps.execCuEwiseSub {w : WellId} {u : Fin 64} : ResOk s₀ (execCuEwiseSub w u s) :=
  hs.cuWork (fun _ _ _ h => h.ewise)

theorem Keeps.execCuEwiseMul {w : WellId} {u : Fin 64} : ResOk s₀ (execCuEwiseMul w u s) :=
  hs.cuWork (fun _ _ _ h => h.ewise)

theorem Keeps.execCuEwiseMax {w : WellId} {u : Fin 64} : ResOk s₀ (execCuEwiseMax w u s) :=
  hs.cuWork (fun _ _ _ h => h.ewise)

theorem Keeps.execCuEwiseMin {w : WellId} {u : Fin 64} : ResOk s₀ (execCuEwiseMin w u s) :=
  hs.cuWork (fun _ _ _ h => h.ewise)

theorem Keeps.execCuEwiseAxpby {w : WellId} {u : Fin 64} : ResOk s₀ (execCuEwiseAxpby w u s) :=
  hs.cuWork (fun _ _ _ h => h.ewise)

theorem Keeps.execCuRedSum {w : WellId} {u : Fin 64} : ResOk s₀ (execCuRedSum w u s) :=
  hs.cuWork (fun _ _ _ h => h.redItem)

theorem Keeps.execCuRedMax {w : WellId} {u : Fin 64} : ResOk s₀ (execCuRedMax w u s) :=
  hs.cuWork (fun _ _ _ h => h.redItem)

theorem Keeps.execCuRedSumsq {w : WellId} {u : Fin 64} : ResOk s₀ (execCuRedSumsq w u s) :=
  hs.cuWork (fun _ _ _ h => h.redItem)

theorem Keeps.execCuQuantSupplied {w : WellId} {u : Fin 64} : ResOk s₀ (execCuQuantSupplied w u s) :=
  hs.cuWork (fun _ _ _ h => h.convertItem)

theorem Keeps.execCuQuantComputed {w : WellId} {u : Fin 64} : ResOk s₀ (execCuQuantComputed w u s) :=
  hs.cuWork (fun _ _ _ h => h.quantComputed)

theorem Keeps.execCuConvert {w : WellId} {u : Fin 64} : ResOk s₀ (execCuConvert w u s) :=
  hs.cuWork (fun _ _ _ h => h.convertItem)

theorem Keeps.execCuMximp {w : WellId} {u : Fin 64} : ResOk s₀ (execCuMximp w u s) :=
  hs.cuWork (fun _ _ _ h => h.mximpItem)

theorem Keeps.execCuMxexp {w : WellId} {u : Fin 64} : ResOk s₀ (execCuMxexp w u s) :=
  hs.cuWork (fun _ _ _ h => h.mxexpItem)

theorem Keeps.execCuNormRms {w : WellId} {u : Fin 64} : ResOk s₀ (execCuNormRms w u s) :=
  hs.cuWork (fun _ _ _ h => h.normFull)

theorem Keeps.execCuNormLayer {w : WellId} {u : Fin 64} : ResOk s₀ (execCuNormLayer w u s) :=
  hs.cuWork (fun _ _ _ h => h.normFull)

theorem Keeps.execCuNormRmsApply {w : WellId} {u : Fin 64} : ResOk s₀ (execCuNormRmsApply w u s) :=
  hs.cuWork (fun _ _ _ h => h.normApply)

theorem Keeps.execCuNormRmsStats {w : WellId} {u : Fin 64} : ResOk s₀ (execCuNormRmsStats w u s) :=
  hs.cuWork (fun _ _ _ h => h.normPairs)

theorem Keeps.execCuNormLayerStats {w : WellId} {u : Fin 64} : ResOk s₀ (execCuNormLayerStats w u s) :=
  hs.cuWork (fun _ _ _ h => h.normPairs)

theorem Keeps.execCuNormLayerApply {w : WellId} {u : Fin 64} : ResOk s₀ (execCuNormLayerApply w u s) :=
  hs.cuWork (fun _ _ _ h => h.normApply)

theorem Keeps.execCuCombine {w : WellId} {u : Fin 64} : ResOk s₀ (execCuCombine w u s) :=
  hs.cuWork (fun _ _ _ h => h.combineItem)

theorem Keeps.execCuSmxmerge {w : WellId} {u : Fin 64} : ResOk s₀ (execCuSmxmerge w u s) :=
  hs.cuWork (fun _ _ _ h => h.smxmergeItem)

theorem Keeps.execCuKvrelayout {w : WellId} {u : Fin 64} : ResOk s₀ (execCuKvrelayout w u s) :=
  hs.cuWork (fun _ _ _ h => h.kvItem)

theorem Keeps.execCuVreblock {w : WellId} {u : Fin 64} : ResOk s₀ (execCuVreblock w u s) :=
  hs.cuWork (fun _ _ _ h => h.vreItem)

theorem Keeps.execCuGather {w : WellId} {u : Fin 64} : ResOk s₀ (execCuGather w u s) :=
  hs.cuWork (fun _ _ _ h => h.gatherItem)

theorem Keeps.execCuScatter {w : WellId} {u : Fin 64} : ResOk s₀ (execCuScatter w u s) :=
  hs.cuWork (fun _ _ _ h => h.scatterItem)

theorem Keeps.execCuPoolMax {w : WellId} {u : Fin 64} : ResOk s₀ (execCuPoolMax w u s) :=
  hs.cuWork (fun _ _ _ h => h.poolItem)

theorem Keeps.execCuPoolAvg {w : WellId} {u : Fin 64} : ResOk s₀ (execCuPoolAvg w u s) :=
  hs.cuWork (fun _ _ _ h => h.poolItem)

theorem Keeps.execCuUpsampleNearest {w : WellId} {u : Fin 64} : ResOk s₀ (execCuUpsampleNearest w u s) :=
  hs.cuWork (fun _ _ _ h => h.upNearest)

theorem Keeps.execCuUpsampleTrilinear {w : WellId} {u : Fin 64} : ResOk s₀ (execCuUpsampleTrilinear w u s) :=
  hs.cuWork (fun _ _ _ h => h.upTrilinear)

theorem Keeps.execCuFillZero {w : WellId} {u : Fin 64} : ResOk s₀ (execCuFillZero w u s) :=
  hs.cuWork (fun _ _ _ h => h.fillZero)

theorem Keeps.execCuFillValue {w : WellId} {u : Fin 64} : ResOk s₀ (execCuFillValue w u s) :=
  hs.cuWork (fun _ _ _ h => h.fillValue)

/-! ### Cu: Combines (R298, R326) -/

theorem Keeps.combRow {ctx rung : Nat} {c : Comb} {i : Nat} : ExOk (Keeps s₀ ·.1) (s.combRow ctx rung c i) :=
  ExOk.bindAny (fun _ => hs.countEv.put32)

theorem Keeps.undefComb {ctx rung : Nat} {c : Comb} {i : Nat} : Keeps s₀ (s.undefComb ctx rung c i) := hs.undefRow

theorem Keeps.execSplitCombine {w : WellId} {u : Fin 64} : ResOk s₀ (execSplitCombine w u s) := by
  unfold Machine.execSplitCombine
  refine ResOk.need ?_
  refine ResOk.needSome (fun _ _ => ?_)
  split
  · refine ResOk.needSome (fun _ _ => ?_)
    refine ResOk.needSome (fun _ _ => ?_)
    refine hs.stalls.ite ?_
    split
    · exact hs.stalls
    · exact hs.undefComb.opFault
    next h => exact (hs.combRow _ h).setUnit.feedComb.countEv.next
  · exact ResOk.fault

/-! ### Cu: Issue (R413) -/

theorem Keeps.issueItem {w n : Nat} {p : Pump} {id : Nat} {op : OpRun} : ResOk s₀ (s.issueItem w n p id op) := by
  unfold State.issueItem
  refine ResOk.need ?_
  split
  · exact hs.stalls
  · exact hs.noteItem.failJob.next
  · exact hs.setUnit.modOp.setPump.next.ite hs.stalls

theorem Keeps.replayOp {w n : Nat} : ResOk s₀ (s.replayOp w n) := by
  unfold State.replayOp
  split
  · refine ResOk.needSome (fun _ _ => ?_)
    refine ResOk.need ?_
    refine hs.stalls.ite ?_
    dsimp only
    split
    · exact hs.stalls
    · exact hs.noteItem.failJob.next
    next h =>
      exact ((ExOk.bindAny (fun _ => ExOk.bindAny (fun _ => ExOk.bindAny (fun _ =>
          hs.startOp)))) _ h).dropReplay.next
  · exact ResOk.fault

theorem Keeps.execCuItemIssue {w : WellId} {n : Fin 8} : ResOk s₀ (execCuItemIssue w n s) :=
  hs.replayOp.ite (ResOk.needSome (fun _ _ => ResOk.needSome (fun _ _ => hs.issueItem))).need

/-! ### Cu: Completion (R417, R418) -/

theorem Keeps.judgeOp {op : OpRun} : Keeps s₀ (s.judgeOp op) := hs.ite (hs.incFld.ite hs.setWell)

theorem Keeps.freePump {w n : Nat} : Keeps s₀ (s.freePump w n) := hs.setPump.setFld

theorem Keeps.noteProgress {j w n : Nat} : Keeps s₀ (s.noteProgress j w n) := hs.ite hs.scratchErr

theorem Keeps.doneItem {w id c e : Nat} {op : OpRun} : Keeps s₀ (s.doneItem w id c e op) := by
  unfold State.doneItem
  extract_lets _ _ s1
  have hs1 : Keeps s₀ s1 := hs.modOp.incFld.countEv
  split
  · exact hs1
  · exact hs1.noteProgress.setPump.dropOp.freePump.incFld.judgeOp.ite hs1.noteProgress.setPump

theorem Keeps.doneComb {id c e : Nat} {op : OpRun} : Keeps s₀ (s.doneComb id c e op) :=
  hs.dropOp.update.judgeOp.ite hs.modOp

theorem Keeps.countItem {w : Nat} : Keeps s₀ (s.countItem w) := hs.incFld.countEv

theorem Keeps.bobRow {q : Req} {i : Nat} : ExOk (Keeps s₀ ·.1) (s.bobRow q i) := by
  unfold State.bobRow
  dsimp only
  split
  · exact ExOk.ok hs
  · exact hs.gatRow.ite (hs.appendMoves.bind (fun _ h => h.putBits))

theorem Keeps.lessReq {id : Nat} : Keeps s₀ (s.lessReq id) := hs.update

theorem Keeps.undefReq {ctx : Nat} {q : Req} {i : Nat} : Keeps s₀ (s.undefReq ctx q i) :=
  (hs.foldl (fun _ _ h => h.undefRow)).ite (hs.elim (fun _ _ => hs.undefRow))

theorem Keeps.endIssuer {w p id : Nat} : Keeps s₀ (s.endIssuer w p id) := by
  unfold State.endIssuer
  dsimp only
  split
  · exact hs.withdrawReq.setBob.ite hs.setBob
  · exact hs.setBob

theorem Keeps.bobFault {w u : Nat} {x : CuUnit} {id : Nat} {q : Req} {i : Nat} {e : AccErr} :
    ResOk s₀ (s.bobFault w u x id q i e) := by
  unfold State.bobFault
  split
  · exact hs.stalls
  · exact hs.setUnit.noteItem.undefReq.cancelItems.update.noteBob.endIssuer.failJob.next

theorem Keeps.unstall {w p : Nat} : Keeps s₀ (s.unstall w p) := by
  unfold State.unstall
  split
  · exact hs
  · split
    · exact hs
    · exact hs.putRun.ite hs

theorem Keeps.feedReqs {w : Nat} : Keeps s₀ (s.feedReqs w) :=
  (hs.foldl (fun _ _ h => h.enterRows)).foldl (fun _ _ h => h.unstall)

theorem Keeps.execCuItemComplete {w : WellId} {u : Fin 64} : ResOk s₀ (execCuItemComplete w u s) := by
  unfold Machine.execCuItemComplete
  extract_lets _ s1
  have hs1 : Keeps s₀ s1 := hs.setUnit.countItem
  split
  · split
    · exact hs1.next
    · exact hs1.doneItem.next
  · split
    · exact hs1.next
    · exact hs1.doneComb.next
  · exact ResOk.fault
  · refine ResOk.needSome (fun _ _ => ?_)
    split
    · refine ResOk.needSome (fun _ _ => ?_)
      refine hs.stalls.ite ?_
      split
      · exact hs.bobFault
      next h => exact (hs.bobRow _ h).setUnit.countItem.lessReq.feedReqs.next
    · exact ResOk.fault

/-! ### Cu: The cistern's upkeep -/

theorem Keeps.execCisternRefresh {xw : WellId} {xgroup : Fin 64} {xbank : Fin 16} :
    ResOk s₀ (execCisternRefresh xw xgroup xbank s) := hs.next

theorem Keeps.execCisternPatrolScrub {w : WellId} {block : Nat} {ev : EccEv} :
    ResOk s₀ (execCisternPatrolScrub w block ev s) := by
  unfold Machine.execCisternPatrolScrub
  refine ResOk.need ?_
  dsimp only
  split
  · exact hs.next
  · exact hs.incFld.next
  · exact hs.meetBlock.next
  · exact hs.setPoison.incFld.latch.report.next

theorem Keeps.execCisternSplitApply {w : WellId} : ResOk s₀ (execCisternSplitApply w s) :=
  hs.flushCache.update.setFld.next.need

/-! ### Pumps: Acceptance -/

theorem Keeps.pumpErr {w n : Nat} {refused : Bool} {addr : Nat} : Keeps s₀ (s.pumpErr w n refused addr) := hs.latch

theorem Keeps.pumpReadErr {w n addr : Nat} {e : AccErr} : ResOk s₀ (s.pumpReadErr w n addr e) := by
  unfold State.pumpReadErr
  split
  · exact hs.stalls
  · exact hs.pumpErr.ctlErr

theorem Keeps.acceptOp {w n job : Nat} {x : Job} {addr tag : Nat} {ws : List Word} :
    ResOk s₀ (s.acceptOp w n job x addr tag ws) := by
  unfold State.acceptOp
  refine hs.endByWalker.next.ite ?_
  split
  · exact hs.pumpReadErr
  · split
    · exact hs.pumpReadErr
    · dsimp only
      split
      · exact hs.endByWalker.next
      · split
        · exact hs.pumpReadErr
        next h => exact hs.cGo (hs.startOp _ h).setWell

theorem Keeps.acceptCopy {w n job addr tag : Nat} {ws : List Word} : ResOk s₀ (s.acceptCopy w n job addr tag ws) :=
  hs.pumpErr.ctlExc.next.ite (hs.cGo hs.setPump.setFld)

theorem Keeps.doPump {w : Nat} {c : CtlCtx} {i : Word} {n : Nat} : ResOk s₀ (s.doPump w c i n) := by
  unfold State.doPump
  refine ResOk.needSome (fun _ _ => ?_)
  dsimp only
  split
  · exact hs.pumpReadErr
  · refine ResOk.ite ?_ ?_
    · refine hs.endByWalker.next.ite ?_
      split
      · exact hs.pumpReadErr
      · exact hs.acceptOp
    · split
      · exact hs.pumpReadErr
      · exact hs.acceptCopy

theorem Keeps.execPumpStart {w : WellId} {ev : EccEv} : ResOk s₀ (execPumpStart w ev s) := by
  unfold Machine.execPumpStart
  refine hs.cStep (fun _ _ _ h => ?_)
  split
  · exact h.doPump
  · exact h.stallCtl.next

/-! ### Pumps: Running -/

theorem Keeps.issueUnit {w n kind : Nat} : ResOk s₀ (s.issueUnit w n kind) := (hs.stalls.ite hs.setPump.next).need

theorem Keeps.execPumpCopy {w : WellId} {n : Fin 8} : ResOk s₀ (execPumpCopy w n s) := hs.issueUnit

theorem Keeps.execPumpFill {w : WellId} {n : Fin 8} : ResOk s₀ (execPumpFill w n s) := hs.issueUnit

theorem Keeps.writeAt {ctx : Nat} {va : Int} {bs : List Byte} : ExOk (Keeps s₀) (s.writeAt ctx va bs) :=
  ExOk.error.ite hs.writeDir

theorem Keeps.moveUnit {ctx : Nat} {ws : List Word} {i : Nat} : ExOk (Keeps s₀) (s.moveUnit ctx ws i) := by
  unfold State.moveUnit
  split
  · exact ExOk.error
  · exact (ExOk.bindAny (fun _ => (hs.ite hs.traffic.useTlbs).writeAt)).ite
      (ExOk.bindAny (fun _ => (hs.ite hs.traffic.useTlbs).writeAt))

theorem Keeps.undefUnits {ctx : Nat} {p : Pump} : Keeps s₀ (s.undefUnits ctx p) := by
  unfold State.undefUnits
  refine hs.foldl (fun _ _ h => ?_)
  split
  · exact h.ite h.undefVa
  · exact h

theorem Keeps.unitFault {w n : Nat} {p : Pump} {e : AccErr} : ResOk s₀ (s.unitFault w n p e) := by
  unfold State.unitFault
  split
  · exact hs.stalls
  · refine Keeps.next ?_
    refine Keeps.failJob ?_
    refine Keeps.setFld ?_
    refine Keeps.setPump ?_
    refine Keeps.pumpErr ?_
    refine Keeps.undefUnits ?_
    split
    · exact hs.noteTier
    · exact hs.noteGuard
    · exact hs.noteTrans

theorem Keeps.endTransfer {w n : Nat} {p : Pump} : Keeps s₀ (s.endTransfer w n p) :=
  hs.freePump.raiseEvent.ite hs.freePump

theorem Keeps.unitDone {w n : Nat} {p : Pump} {i : Nat} : Keeps s₀ (s.unitDone w n p i) :=
  hs.incFld.countEv.endTransfer.ite hs.incFld.countEv.setPump

theorem Keeps.execPumpUnitComplete {w : WellId} {n : Fin 8} {i : Nat} :
    ResOk s₀ (execPumpUnitComplete w n i s) := by
  unfold Machine.execPumpUnitComplete
  refine ResOk.need ?_
  refine hs.stalls.ite ?_
  split
  · exact hs.unitFault
  next h => exact (hs.moveUnit _ h).windowSees.noteProgress.unitDone.next

/-! ### Pumps: Suspension and resumption (R473) -/

theorem Keeps.suspendPump {w n : Nat} : Keeps s₀ (s.suspendPump w n) := hs.update.freePump.incFld.ite hs

theorem Keeps.takeRecord {w n job : Nat} {p : Pump} {rest : List Pump} :
    ResOk s₀ (s.takeRecord w n job p rest) := by
  unfold State.takeRecord
  dsimp only
  split
  · exact hs.update.noteGuard.failJob.next
  · exact hs.update.setPump.setFld.next

theorem Keeps.execPumpResume {w : WellId} {n : Fin 8} : ResOk s₀ (execPumpResume w n s) := by
  unfold Machine.execPumpResume
  refine ResOk.needSome (fun _ _ => ?_)
  dsimp only
  split
  · exact ResOk.fault
  · exact (hs.scratch hs.takeRecord).need

/-! ### Collect: Frames (R660) -/

theorem Keeps.sendColl {g dst : Nat} {c : Contrib} {k flags : Nat} : Keeps s₀ (s.sendColl g dst c k flags) :=
  hs.sendFrame

theorem Keeps.sendResult {d : Decision} {dst stage : Nat} : Keeps s₀ (s.sendResult d dst stage) := hs.sendFrame

/-! ### Collect: Decisions (R660, R663, R665) -/

theorem Keeps.countDecision {status : Nat} : Keeps s₀ (s.countDecision status) := by
  unfold State.countDecision
  extract_lets s1
  have hs1 : Keeps s₀ s1 := hs.incFld
  split
  · exact hs1.incFld
  · exact hs1.incFld
  · exact hs1

theorem Keeps.writeResult {w : Nat} {d : Decision} : Keeps s₀ (s.writeResult w d) := by
  unfold State.writeResult
  refine hs.update.ite ?_
  split
  next h => exact (hs.writeDir _ h).update
  · exact hs
  · split
    next h => exact (hs.ctlErr _ h).update
    · exact hs

theorem Keeps.complete {d : Decision} : Keeps s₀ (s.complete d) := by
  unfold State.complete
  refine hs.update.countDecision.foldl (fun _ _ h => ?_)
  split
  · exact h.writeResult
  · exact h

theorem Keeps.settle {c : Coll} {status : Nat} {vals : List Word} : Keeps s₀ (s.settle c status vals) :=
  (hs.update.foldl (fun _ _ h => h.sendResult)).complete

/-! ### Collect: Stages (R659, R661) -/

theorem Keeps.collGo {c : Coll} {n : Nat} : Keeps s₀ (collGo s c n) := by
  induction n generalizing s c with
  | zero => exact hs.update
  | succ n ih =>
    unfold Machine.collGo
    split
    · exact hs.update
    · refine hs.settle.ite ?_
      dsimp only
      refine (ih hs).ite (Keeps.ite hs.sendColl.update ?_)
      exact (ih hs).ite hs.update

theorem Keeps.collStep {c : Coll} : Keeps s₀ (s.collStep c) := hs.update.ite hs.update.collGo

theorem Keeps.enterPost {c : Coll} {w j : Nat} {x : Job} {top shape : Nat} {vals : List Word} :
    Keeps s₀ (s.enterPost c w j x top shape vals) := hs.collStep

theorem Keeps.raiseColl {w g : Nat} : Keeps s₀ (s.raiseColl w g) := hs.setWell

/-! ### Collect: COLL (R272, R807) -/

theorem Keeps.collFinish {w : Nat} {d : Decision} : ResOk s₀ (s.collFinish w d) :=
  hs.ctlExc.next.ite ((hs.cGo hs).ite (hs.writeResult.next.ite ((hs.cGo hs.writeResult).ite hs.stalls)))

theorem Keeps.collPost {w j : Nat} {x : Job} {i : Word} {vals : List Word} :
    ResOk s₀ (s.collPost w j x i vals) := by
  unfold State.collPost
  dsimp only
  split
  · exact hs.raiseColl.collFinish
  · refine hs.raiseColl.complete.collFinish.ite ?_
    split
    · exact hs.raiseColl.stallCtl.enterPost.next
    · exact hs.stallCtl.next.ite hs.raiseColl.stallCtl.enterPost.next

theorem Keeps.doColl {w : Nat} {c : CtlCtx} {i : Word} : ResOk s₀ (s.doColl w c i) := by
  unfold State.doColl
  refine ResOk.needSome (fun _ _ => ?_)
  refine hs.collPost.ite ?_
  refine hs.ctlExc.next.ite ?_
  refine hs.ctlExc.next.ite ?_
  split
  · exact hs.ctlErr
  · exact hs.collPost

theorem Keeps.execCollBarrier {w : WellId} {ev : EccEv} : ResOk s₀ (execCollBarrier w ev s) :=
  hs.cStep (fun _ _ _ h => h.doColl)

theorem Keeps.execCollSum {w : WellId} {ev : EccEv} : ResOk s₀ (execCollSum w ev s) :=
  hs.cStep (fun _ _ _ h => h.doColl)

theorem Keeps.execCollMax {w : WellId} {ev : EccEv} : ResOk s₀ (execCollMax w ev s) :=
  hs.cStep (fun _ _ _ h => h.doColl)

theorem Keeps.execCollMin {w : WellId} {ev : EccEv} : ResOk s₀ (execCollMin w ev s) :=
  hs.cStep (fun _ _ _ h => h.doColl)

/-! ### Collect: FENCE PARTITION (R269) -/

theorem Keeps.postFence {w j : Nat} {x : Job} : ResOk s₀ (s.postFence w j x) := by
  unfold State.postFence
  dsimp only
  split
  · exact hs.setWell.stallCtl.enterPost.next
  · exact hs.stallCtl.next.ite hs.setWell.stallCtl.enterPost.next

theorem Keeps.execFencePartition {w : WellId} {ev : EccEv} : ResOk s₀ (execFencePartition w ev s) :=
  hs.cStep (fun _ _ _ h => ResOk.needSome (fun _ _ => h.postFence.ite h.stallCtl.next))

theorem Keeps.passFence {w j : Nat} {d : Decision} : ResOk s₀ (s.passFence w j d) :=
  hs.collFinish.ite (hs.stalls.ite (hs.cGo hs.sawWalk.setWell))

/-! ### Collect: Layers (R122) -/

theorem Keeps.beginReplay {j : Nat} {x : Job} : Keeps s₀ (s.beginReplay j x) :=
  hs.modJob.foldl (fun _ _ h => h.incFld.undefVas.setWell.ite h.incFld.undefVas.setWell.incFld.countEv)

theorem Keeps.closeLayer {j : Nat} {x : Job} : Keeps s₀ (s.closeLayer j x) :=
  hs.modJob.foldl (fun _ _ h => h.incFld.setWell)

theorem Keeps.execLayerTriggerCombine {j : Nat} : ResOk s₀ (execLayerTriggerCombine j s) :=
  ResOk.needSome (fun _ _ => (hs.beginReplay.next.ite hs.closeLayer.next).need)

/-! ### Collect: Arriving collective frames (R660 to R666) -/

theorem Keeps.badColl : Keeps s₀ s.badColl := hs.incFld

theorem Keeps.takeContrib {g src : Nat} {m : CollMsg} : Keeps s₀ (s.takeContrib g src m) := by
  unfold State.takeContrib
  dsimp only
  split
  · exact hs.sendResult
  · split
    · exact hs.ite hs.update.collStep
    · exact hs.sendResult.ite (hs.ite hs.update)

theorem Keeps.timeOut {c : Coll} : Keeps s₀ (s.timeOut c) := hs.settle

theorem Keeps.takeAbort {g src : Nat} {m : CollMsg} : Keeps s₀ (s.takeAbort g src m) := by
  unfold State.takeAbort
  split
  · exact hs.sendResult
  · split
    · exact hs.sendColl
    · split
      · exact hs.timeOut
      · exact hs.complete

theorem Keeps.takeResult {g : Nat} {m : CollMsg} : Keeps s₀ (s.takeResult g m) := by
  unfold State.takeResult
  split
  · exact hs.settle
  · exact hs.ite hs.complete

theorem Keeps.collMsg {f : Frame} {k : State → Nat → CollMsg → State}
    (hk : ∀ a b c, Keeps s₀ a → Keeps s₀ (k a b c)) : Keeps s₀ (s.collMsg f k) := by
  unfold State.collMsg
  split
  · exact hs.badColl
  · split
    · exact hs.badColl
    · exact hk _ _ _ hs

/-! ### Collect: Deadlines (R662 to R664) -/

theorem Keeps.execCollDeadlineExpiry {i : Nat} : ResOk s₀ (execCollDeadlineExpiry i s) := by
  unfold Machine.execCollDeadlineExpiry
  refine ResOk.needSome (fun _ _ => ?_)
  refine ResOk.needSome (fun _ _ => ?_)
  refine ResOk.need ?_
  refine hs.timeOut.next.ite ?_
  split
  · exact hs.timeOut.next
  · exact hs.sendColl.update.next

theorem Keeps.execCollGraceExpiry {i : Nat} : ResOk s₀ (execCollGraceExpiry i s) :=
  ResOk.needSome (fun _ _ => ResOk.needSome (fun _ _ => hs.update.complete.next.need))

/-! ### Inputs: Input records (R550) -/

theorem Keeps.fillInput {ctx : Nat} {r : InRec} : ExOk (Keeps s₀) (s.fillInput ctx r) :=
  ExOk.bindAny (fun _ => ExOk.bindAny (fun _ => ExOk.bindAny (fun _ => hs.writeRuns)))

theorem Keeps.inputErr {j n : Nat} {noise : Bool} {pump : Nat} {e : AccErr} :
    ResOk s₀ (s.inputErr j n noise pump e) := by
  unfold State.inputErr
  split
  · exact hs.stalls
  · exact hs.noteHead.latch.failJob.next

theorem Keeps.inputsDone {j : Nat} {x : Job} : Keeps s₀ (s.inputsDone j x) := hs.foldl (fun _ _ h => h.raiseEvent)

theorem Keeps.execInputRecordFill {j : Nat} : ResOk s₀ (execInputRecordFill j s) := by
  unfold Machine.execInputRecordFill
  refine ResOk.needSome (fun _ _ => ?_)
  refine ResOk.need ?_
  split
  · exact ResOk.fault
  · dsimp only
    split
    · exact hs.inputErr
    · split
      · exact hs.inputErr
      next h => exact ((hs.fillInput _ h).modJob.incFld.inputsDone.ite (hs.fillInput _ h).modJob.incFld).next

/-! ### Inputs: The generator (R557, R558) -/

theorem Keeps.fillNoise {ctx : Nat} {seed : Word} {p : Nat} {r : NoiseRec} :
    ExOk (Keeps s₀) (s.fillNoise ctx seed p r) := ExOk.bindAny (fun _ => ExOk.bindAny (fun _ => hs.writeRuns))

theorem Keeps.execNoiseFill {j : Nat} : ResOk s₀ (execNoiseFill j s) := by
  unfold Machine.execNoiseFill
  refine ResOk.needSome (fun _ _ => ?_)
  refine ResOk.need ?_
  split
  · exact ResOk.fault
  · split
    · exact hs.stalls
    · refine hs.stalls.ite ?_
      dsimp only
      split
      · exact hs.inputErr
      next h => exact ((ExOk.bindAny (fun _ => ExOk.bindAny (fun _ => hs.fillNoise))) _ h).modJob.whTake.next

theorem Keeps.execNoiseFillDone {j : Nat} : ResOk s₀ (execNoiseFillDone j s) := by
  unfold Machine.execNoiseFillDone
  refine ResOk.needSome (fun _ _ => ?_)
  refine ResOk.need ?_
  split
  · exact ResOk.fault
  · split
    · exact hs.stalls
    · split
      · exact hs.inputErr
      · exact hs.modJob.raiseEvent.incFld.setFld.next

/-! ### Checkpoint: Pair messages -/

theorem Keeps.tellNow {m : PairMsg} : Keeps s₀ (s.tellNow m) := hs.update

theorem Keeps.tell {m : PairMsg} : Keeps s₀ (s.tell m) :=
  hs.tellNow.ite (hs.update.ite (hs.update.elim (fun _ h => (hs.openRequest _ h).tellNow)))

theorem Keeps.flushMirrors : Keeps s₀ s.flushMirrors :=
  hs.foldl (fun _ _ h => (h.elim (fun _ h1 => (h.openRequest _ h1).update.tellNow)).ite h)

theorem Keeps.mirrorAnswered : Keeps s₀ s.mirrorAnswered := hs.elim (fun _ _ => hs.releaseTag)

/-! ### Checkpoint: Checkpoint lists (R682, R683) -/

theorem Keeps.execCheckpoint {w : WellId} {ev : EccEv} : ResOk s₀ (execCheckpoint w ev s) := by
  unfold Machine.execCheckpoint
  refine hs.cStep (fun _ _ _ h => ?_)
  refine ResOk.needSome (fun _ _ => ?_)
  dsimp only
  split
  · exact h.ctlErr
  · exact h.ctlExc.next.ite (h.endByWalker.next.ite h.stallCtl.next)

/-! ### Checkpoint: Areas (R684, R685) -/

theorem Keeps.noteField {ctx n va : Nat} : Keeps s₀ (s.noteField ctx n va) := by
  unfold State.noteField
  split
  · exact hs
  · exact hs.reportSelf
  · exact hs.noteHead

theorem Keeps.judgeAreas {ctx n : Nat} {areas : List Nat} : ExOk (Keeps s₀) (s.judgeAreas ctx n areas) := by
  unfold State.judgeAreas
  refine ExOk.foldlM (fun _ _ h => ?_) hs
  split
  · exact ExOk.error
  · exact ExOk.ok h.noteField

theorem Keeps.cpState {ctx area : Nat} : ExOk (Keeps s₀) (s.cpState ctx area) := by
  unfold State.cpState
  refine ExOk.bind (Q := (Keeps s₀)) ?_ (fun _ h => ExOk.pure h.wroteDir.useTlbs)
  refine ExOk.foldlM (fun _ _ h => ?_) hs
  refine ExOk.bindAny (fun _ => ?_)
  dsimp only
  split
  · exact ExOk.error
  · exact ExOk.pure h.clearPoison.undefine

theorem Keeps.cpCopy {ctx area : Nat} {l : CpList} : ExOk (Keeps s₀) (s.cpCopy ctx area l) :=
  hs.writeDir.bind (fun _ h => h.cpState.bind (fun _ h => ExOk.foldlM
    (fun _ _ h => ExOk.bindAny (fun _ => h.writeDir)) h))

theorem Keeps.cpMirror {ctx : Nat} {x : Job} {spans : List (Nat × Nat)} :
    ExOk (Keeps s₀) (s.cpMirror ctx x spans) :=
  ExOk.foldlM (fun _ _ h => ExOk.bindAny (fun _ => ExOk.pure h.tell)) hs

theorem Keeps.headErr {j n : Nat} {e : AccErr} : ResOk s₀ (s.headErr j n e) := by
  unfold State.headErr
  split
  · exact hs.stalls
  · exact hs.noteHead.failJob.next

theorem Keeps.cpSave {j : Nat} {x : Job} {l : CpList} {area cpseq pass : Nat} :
    Keeps s₀ (s.cpSave j x l area cpseq pass) := hs.update

theorem Keeps.cpStart {j n : Nat} {x : Job} {pass : Nat} {l : CpList} : ExOk (Keeps s₀) (s.cpStart j n x pass l) :=
  hs.judgeAreas.bind (fun _ h => h.cpCopy.bind (fun _ h => h.cpSave.modJob.whTake.cpMirror))

theorem Keeps.execCheckpointCopy {j : Nat} : ResOk s₀ (execCheckpointCopy j s) := by
  unfold Machine.execCheckpointCopy
  refine ResOk.needSome (fun _ _ => ?_)
  refine ResOk.need ?_
  refine ResOk.needSome (fun _ _ => ?_)
  split
  · exact hs.stalls
  · refine hs.stalls.ite ?_
    split
    · exact hs.headErr
    · split
      · exact hs.ctlExc.next
      · split
        · exact hs.headErr
        next h => exact (hs.cpStart _ h).next

theorem Keeps.cpHeader {x : Job} {r : CpRun} : Keeps s₀ (s.cpHeader x r).2 := by
  unfold State.cpHeader
  dsimp only
  exact hs.freeNat

theorem Keeps.resumeAfter {w : Nat} : Keeps s₀ (s.resumeAfter w) := by
  unfold State.resumeAfter
  split
  next h => exact (hs.cGo hs) _ h
  · exact hs

theorem Keeps.cpFinish {j : Nat} {x : Job} {r : CpRun} {h : List Word} : ExOk (Keeps s₀) (s.cpFinish j x r h) :=
  hs.writeDir.bind (fun _ h => ExOk.bindAny (fun _ => ExOk.pure
    ((h.foldl (fun _ _ h => h.zeroEvents)).modJob.foldl (fun _ _ h => h.sawWalk.resumeAfter))))

theorem Keeps.execCheckpointDurable {j : Nat} : ResOk s₀ (execCheckpointDurable j s) := by
  unfold Machine.execCheckpointDurable
  refine ResOk.needSome (fun _ _ => ?_)
  refine ResOk.needSome (fun _ _ => ?_)
  refine ResOk.need ?_
  dsimp only
  split
  · exact hs.headErr
  next h => exact ((hs.cpHeader.ite_snd hs).cpFinish _ h).next

/-! ### Checkpoint: Stalled controllers (R265) -/

theorem Keeps.release {w : Nat} {x : Well} {i : Word} : ResOk s₀ (s.release w x i) := by
  unfold State.release
  dsimp only
  split
  · exact ResOk.fault
  · exact hs.ctlScratch hs.doWalk.need
  · exact hs.doEnq.need
  · exact (hs.cGo hs.sawWalk).need
  · exact hs.ctlScratch (hs.cGo hs).need
  · exact (hs.cGo hs).need
  · exact ResOk.needSome (fun _ _ => hs.doPump)
  · exact (hs.cGo hs.sawWalk).need
  · exact ResOk.needSome (fun _ _ => hs.postFence.need)
  · exact ResOk.needSome (fun _ _ => ResOk.needSome (fun _ _ => hs.passFence))
  · exact ResOk.fault
  · exact ResOk.needSome (fun _ _ => hs.doColl.need)
  · exact ResOk.needSome (fun _ _ => ResOk.needSome (fun _ _ => hs.collFinish))
  · exact hs.doMig.need
  · exact hs.haltWell.next.need

theorem Keeps.execControllerStallRelease {w : WellId} : ResOk s₀ (execControllerStallRelease w s) := hs.release.need

/-! ### Links: Timers (R653) -/

theorem Keeps.linkReport {sev p detail : Nat} : Keeps s₀ (s.linkReport sev p detail) := hs.reportSelf

/-! ### Links: Sending (R638, R641 to R643) -/

theorem Keeps.emitCtl {p peer vc typ seq : Nat} : Keeps s₀ (s.emitCtl p peer vc typ seq) := hs.emit

theorem Keeps.resend {p peer vc : Nat} {c : Conn} : Keeps s₀ (s.resend p peer vc c) :=
  (hs.foldl (fun _ _ h => h.emit)).incFld.setConn

theorem Keeps.unreachable {p peer vc : Nat} {c : Conn} : Keeps s₀ (s.unreachable p peer vc c) := hs.setConn

theorem Keeps.tryResend {p peer vc : Nat} {c : Conn} : Keeps s₀ (s.tryResend p peer vc c) := by
  unfold State.tryResend
  split
  · exact hs.setConn
  · exact hs.unreachable.ite hs.resend

theorem Keeps.abandon {p peer vc : Nat} {c : Conn} : Keeps s₀ (s.abandon p peer vc c) :=
  hs.setConn.linkReport.foldl (fun _ _ h => h.failJob)

theorem Keeps.sendNext {p peer vc : Nat} {c : Conn} : ResOk s₀ (s.sendNext p peer vc c) := by
  unfold State.sendNext
  split
  · exact ResOk.fault
  · exact hs.emit.setConn.next.need.need

theorem Keeps.execIlpDataSend {p : Fin 9} {peer : Fin 4096} {vc : Fin 4} {g : ConnEv} :
    ResOk s₀ (execIlpDataSend p peer vc g s) := by
  unfold Machine.execIlpDataSend
  dsimp only
  split
  · exact hs.sendNext
  · exact (hs.linkReport.resend.ite hs.linkReport).next
  · exact hs.abandon.next

/-! ### Links: Acknowledgements (R640, R641) -/

theorem Keeps.rxCtl {typ p : Nat} {f : Frame} {k : Conn → Res} (hk : ∀ a, ResOk s₀ (k a)) :
    ResOk s₀ (rxCtl typ p f s k) := (hs.incFld.next.ite (hk _)).need

theorem Keeps.execIlpAck {p : Fin 9} {f : Frame} : ResOk s₀ (execIlpAck p f s) :=
  hs.rxCtl (fun _ => (hs.setConn.ite hs.resend).next.ite hs.setConn.next)

theorem Keeps.execIlpNak {p : Fin 9} {f : Frame} : ResOk s₀ (execIlpNak p f s) :=
  hs.rxCtl (fun _ => hs.tryResend.next)

theorem Keeps.execIlpHello {p : Fin 9} {f : Frame} : ResOk s₀ (execIlpHello p f s) :=
  hs.rxCtl (fun _ => hs.emitCtl.next)

theorem Keeps.execIlpResync {p : Fin 9} {f : Frame} : ResOk s₀ (execIlpResync p f s) :=
  hs.rxCtl (fun _ => hs.setConn.emitCtl.next)

theorem Keeps.execAckDelayExpiry {p : Fin 9} {peer : Fin 4096} {vc : Fin 4} :
    ResOk s₀ (execAckDelayExpiry p peer vc s) := ResOk.needSome (fun _ _ => hs.setConn.emitCtl.next.need)

theorem Keeps.execRtoExpiry {p : Fin 9} {peer : Fin 4096} {vc : Fin 4} : ResOk s₀ (execRtoExpiry p peer vc s) :=
  ResOk.needSome (fun _ _ => hs.tryResend.next.need)

/-! ### Links: Unreachable connections (R651, R652) -/

theorem Keeps.execHelloTimer {p : Fin 9} {peer : Fin 4096} {vc : Fin 4} : ResOk s₀ (execHelloTimer p peer vc s) :=
  (hs.setConn.emitCtl.ite hs.setConn).next.need

theorem Keeps.execHoldExpiry {p : Fin 9} {peer : Fin 4096} {vc : Fin 4} : ResOk s₀ (execHoldExpiry p peer vc s) :=
  ResOk.needSome (fun _ _ => hs.abandon.next.need)

theorem Keeps.execResyncWaitExpiry {p : Fin 9} {peer : Fin 4096} {vc : Fin 4} :
    ResOk s₀ (execResyncWaitExpiry p peer vc s) := ResOk.needSome (fun _ _ => hs.setConn.emitCtl.next.need)

theorem Keeps.execTagQuarantineRelease {p : Fin 9} {peer : Fin 4096} {pair : Fin 8192} :
    ResOk s₀ (execTagQuarantineRelease p peer pair s) :=
  ResOk.needSome (fun _ _ => hs.setConn.flushMirrors.next.need)

/-! ### Links: Ports (R649, R650) -/

theorem Keeps.mapPort {p : Nat} {f : Conn → Conn} : Keeps s₀ (s.mapPort p f) := hs.update

theorem Keeps.dropPort {p st : Nat} : Keeps s₀ (s.dropPort p st) :=
  (hs.setFld.setFld.mapPort.update.ite hs.setFld.setFld.mapPort).linkReport

theorem Keeps.execPortDown {p : Fin 9} : ResOk s₀ (execPortDown p s) := hs.dropPort.next.need

theorem Keeps.raisePort {p lanes w : Nat} : Keeps s₀ (s.raisePort p lanes w) := by
  unfold State.raisePort
  extract_lets _ s1 _ s2
  have hs1 : Keeps s₀ s1 := hs.setFld.setFld.setFld
  have hs2 : Keeps s₀ s2 := hs1.update.ite hs1
  exact (hs2.ite hs2.reportSelf).foldl (fun _ _ h => h.ite (h.setConn.ite h.resend))

theorem Keeps.execDiscardedFrame {p : Fin 9} : ResOk s₀ (execDiscardedFrame p s) := hs.incFld.next.need

theorem Keeps.execSpRtCmdGo {v : Word} : ResOk s₀ (execSpRtCmdGo v s) := hs.setFld.setFld.update.next.need

theorem Keeps.trainPort {p : Nat} : Keeps s₀ (s.trainPort p) := hs.setFld.ite hs

theorem Keeps.spCommit : Keeps s₀ s.spCommit := hs.setFld.foldl (fun _ _ h => h.trainPort)

theorem Keeps.execSpCommit {v : Word} : ResOk s₀ (execSpCommit v s) := hs.spCommit.next.need

/-! ### Links: Received DATA frames (R636, R639, R640) -/

theorem Keeps.rxData {vc : Nat} {ops : List Nat} {p : Nat} {f : Frame} {k : State → Res}
    (hk : ∀ a, Keeps s₀ a → ResOk s₀ (k a)) : ResOk s₀ (rxData vc ops p f s k) := by
  unfold Machine.rxData
  extract_lets _ _ _ _ _ s1
  have hs1 : Keeps s₀ s1 := hs.incFld
  exact (hs.incFld.next.ite (hs.setPw.next.ite (((hk _ hs.setConn.emitCtl).ite (hk _ hs.setConn)).ite
    ((hs1.setConn.emitCtl.ite hs1).next.ite (hs.setConn.emitCtl.ite hs).next)))).need

theorem Keeps.noteRemote {p ctx : Nat} {e : AccErr} : Keeps s₀ (s.noteRemote p ctx e) := by
  unfold State.noteRemote
  split
  · exact hs.noteTier
  · exact hs.noteTrans

theorem Keeps.onErr {e : AccErr} {k : AccErr → Res} (hk : ∀ a, ResOk s₀ (k a)) : ResOk s₀ (s.onErr e k) := by
  unfold State.onErr
  split
  · exact hs.stalls
  · exact hk _

theorem Keeps.execTileFrame {p : Fin 9} {f : Frame} : ResOk s₀ (execTileFrame p f s) := by
  unfold Machine.execTileFrame
  refine hs.rxData (fun _ h => ?_)
  split
  · exact hs.onErr (fun _ => h.noteRemote.next)
  next h1 =>
    split
    · exact (h.writeDir _ h1).next
    · split
      · exact (h.writeDir _ h1).next
      · exact (h.writeDir _ h1).raiseEvent.next

theorem Keeps.execRdReqFrame {p : Fin 9} {f : Frame} : ResOk s₀ (execRdReqFrame p f s) := by
  unfold Machine.execRdReqFrame
  refine hs.rxData (fun _ h => ?_)
  refine h.incFld.next.ite ?_
  split
  · exact hs.onErr (fun _ => h.noteRemote.postFrame.next)
  · exact (h.foldl (fun _ _ h => h.postFrame)).next

theorem Keeps.execWrFrame {p : Fin 9} {f : Frame} : ResOk s₀ (execWrFrame p f s) := by
  unfold Machine.execWrFrame
  refine hs.rxData (fun _ h => ?_)
  dsimp only
  split
  · exact hs.onErr (fun _ => h.noteRemote.postFrame.next)
  next h1 => exact (h.writeDir _ h1).postFrame.next

theorem Keeps.matchResp {p op : Nat} {f : Frame} {k : Conn → OutReq → State} (hk : ∀ a b, Keeps s₀ (k a b)) :
    Keeps s₀ (s.matchResp p op f k) := by
  unfold State.matchResp
  dsimp only
  split
  · exact hs.incFld
  · exact hk _ _

theorem Keeps.remoteFault {o : OutReq} {f : Frame} : Keeps s₀ (s.remoteFault o f) := hs.elim (fun _ _ => hs.failJob)

theorem Keeps.execRdRespFrame {p : Fin 9} {f : Frame} : ResOk s₀ (execRdRespFrame p f s) :=
  hs.rxData (fun _ h => (h.matchResp (fun _ _ => h.releaseTag.remoteFault.ite
    (h.update.releaseTag.ite h.update.setConn))).next)

theorem Keeps.execWrAckFrame {p : Fin 9} {f : Frame} : ResOk s₀ (execWrAckFrame p f s) :=
  hs.rxData (fun _ h => (h.matchResp (fun _ _ => h.releaseTag.remoteFault.ite h.releaseTag)).next)

theorem Keeps.execMgmtFrame {p : Fin 9} {f : Frame} : ResOk s₀ (execMgmtFrame p f s) :=
  hs.rxData (fun _ h => h.update.next)

/-! ### Links: Collective frames (R659 to R665) -/

theorem Keeps.execCollFrame {p : Fin 9} {f : Frame} : ResOk s₀ (execCollFrame p f s) :=
  (hs.rxData (fun _ h => hs.stalls.ite (h.collMsg (fun _ _ _ h => h.takeContrib)).next)).need

theorem Keeps.execCollAbortFrame {p : Fin 9} {f : Frame} : ResOk s₀ (execCollAbortFrame p f s) :=
  (hs.rxData (fun _ h => (h.collMsg (fun _ _ _ h => h.takeAbort)).next)).need

theorem Keeps.execCollResultFrame {p : Fin 9} {f : Frame} : ResOk s₀ (execCollResultFrame p f s) :=
  hs.rxData (fun _ h => (h.collMsg (fun _ _ _ h => h.badColl.ite h.takeResult)).next)

/-! ### Host: Queues -/

theorem Keeps.setHq {q : Nat} {x : HostQ} : Keeps s₀ (s.setHq q x) := hs.update

theorem Keeps.syncQ {q : Nat} : Keeps s₀ (s.syncQ q) := hs.setFld

/-! ### Host: Completion entries (R614) -/

theorem Keeps.pushRaw {e : CEntry} {wait : Nat} : Keeps s₀ (s.pushRaw e wait) := hs.setHq

theorem Keeps.pushEntry {e : CEntry} {wait : Nat} : Keeps s₀ (s.pushEntry e wait) := hs.incFld.ite hs.pushRaw

theorem Keeps.promise {r : JRec} {e : CEntry} : Keeps s₀ (s.promise r e) := hs.tell.pushRaw.ite hs.tell

theorem Keeps.settleEntry {e : CEntry} : Keeps s₀ (s.settleEntry e) := by
  unfold State.settleEntry
  dsimp only
  split
  · exact hs.setHq
  · exact hs.pushEntry

theorem Keeps.pushMirrored {e : CEntry} : Keeps s₀ (s.pushMirrored e) := hs.tell.pushRaw.ite hs.pushRaw

theorem Keeps.writeEntry {q : Nat} : ResOk s₀ (s.writeEntry q) := by
  unfold State.writeEntry
  dsimp only
  split
  · exact ResOk.fault
  · exact hs.rawWrite.setFld.setHq.next.need.need.need

theorem Keeps.execCompletionEntryWrite {q : Fin 64} : ResOk s₀ (execCompletionEntryWrite q s) := hs.writeEntry

theorem Keeps.execWaitingEntryDrain {q : Fin 64} : ResOk s₀ (execWaitingEntryDrain q s) := hs.writeEntry

theorem Keeps.signalQ {q : Nat} : Keeps s₀ (s.signalQ q) := hs.setHq.signal

theorem Keeps.execMsiXSignal {q : Fin 64} : ResOk s₀ (execMsiXSignal q s) := hs.signalQ.next.need

theorem Keeps.execCoalesceTimerExpiry {q : Fin 64} : ResOk s₀ (execCoalesceTimerExpiry q s) := hs.signalQ.next.need

/-! ### Host: The journal (R524, R613, R622) -/

theorem Keeps.noteJournal : Keeps s₀ s.noteJournal := hs.reportSelf.ite hs

theorem Keeps.record {r : JRec} : Keeps s₀ (s.record r) := hs.update

theorem Keeps.execJournalProgram : ResOk s₀ (execJournalProgram s) := by
  unfold Machine.execJournalProgram
  refine ResOk.need ?_
  split
  · exact hs.stalls
  · exact hs.whTake.update.next

theorem Keeps.syncOpen : Keeps s₀ s.syncOpen := hs.setFld

theorem Keeps.durable {rs : List JRec} : Keeps s₀ (s.durable rs) := hs.update.incFld.syncOpen

theorem Keeps.execJournalDurable : ResOk s₀ (execJournalDurable s) := ResOk.needSome (fun _ _ => hs.durable.next)

theorem Keeps.execJnQueryLookup {v : Word} : ResOk s₀ (execJnQueryLookup v s) :=
  hs.noteJournal.setReg.setReg.next.need

/-! ### Host: Doorbells, fetch and decision (R606 to R608) -/

theorem Keeps.execDoorbell {q : Fin 64} {tail : BitVec 16} {f : Fin 2} : ResOk s₀ (execDoorbell q tail f s) :=
  (hs.setFld.ite hs).next

theorem Keeps.consume {q : Nat} : Keeps s₀ (s.consume q) := hs.setFld

theorem Keeps.noteReject {q g n status reason addr : Nat} : Keeps s₀ (s.noteReject q g n status reason addr) :=
  hs.latch.setReg.ite hs.latch

theorem Keeps.reject {q g n status reason addr : Nat} : Keeps s₀ (s.reject q g n status reason addr) :=
  hs.noteReject.pushMirrored

theorem Keeps.verifyEntry {q g n : Nat} {ws : List Word} : Keeps s₀ (s.verifyEntry q g n ws) :=
  hs.reject.ite hs.update

theorem Keeps.decideEntry {q n : Nat} {ws : List Word} : Keeps s₀ (s.decideEntry q n ws) := by
  unfold State.decideEntry
  refine hs.consume.incFld.ite ?_
  refine hs.consume.setFld.verifyEntry.ite ?_
  refine hs.setFld.syncQ.ite ?_
  refine hs.consume.pushRaw.ite ?_
  split
  · exact hs.consume.pushRaw
  · exact hs.consume.verifyEntry

theorem Keeps.execSubmissionFetch {q : Fin 64} {ok : Bool} : ResOk s₀ (execSubmissionFetch q ok s) := by
  unfold Machine.execSubmissionFetch
  refine ResOk.need ?_
  refine ResOk.need ?_
  refine ResOk.need ?_
  refine hs.setFld.syncQ.next.ite ?_
  dsimp only
  split
  · exact hs.consume.reportSelf.pushMirrored.next
  · exact hs.decideEntry.next

theorem Keeps.clearQError {q v : Nat} : Keeps s₀ (s.clearQError q v) := hs.setFld.syncQ

theorem Keeps.execQueueErrorClear {q : Fin 64} {v : Fin 8} {f : Fin 2} : ResOk s₀ (execQueueErrorClear q v f s) :=
  (hs.clearQError.ite hs).next

/-! ### Host: Acceptance (R611) -/

theorem Keeps.execJobAccept {j : Nat} : ResOk s₀ (execJobAccept j s) :=
  ResOk.needSome (fun _ _ => (hs.modJob.setFld.ite hs.modJob).settleEntry.syncOpen.next.need)

/-! ### Host: Queue resets (R620, R621) -/

theorem Keeps.unlock {l : List Nat} : Keeps s₀ (s.unlock l) := hs.foldl (fun _ _ h => h.leafBit)

theorem Keeps.unlockJobs {p : Job → Bool} : Keeps s₀ (s.unlockJobs p) := hs.update.unlock

theorem Keeps.resetQueue {q : Nat} : Keeps s₀ (s.resetQueue q) :=
  (hs.update.record.tell.ite hs.update.record).incFld.setHq.setFld.setFld.setFld.setFld.setReg.setFld.syncQ

theorem Keeps.writeQctl {q : Nat} {v : Word} : Keeps s₀ (s.writeQctl q v) := by
  unfold State.writeQctl
  extract_lets _ _ _ s1 s2
  have hs1 : Keeps s₀ s1 := (hs.unlockJobs.ite hs).setFld.setFld.setFld
  have hs2 : Keeps s₀ s2 := hs1.ite hs1.setFld
  exact hs2.resetQueue.ite hs2.syncQ

theorem Keeps.execQueueReset {q : Fin 64} {v : Word} {f : Fin 2} : ResOk s₀ (execQueueReset q v f s) :=
  (hs.writeQctl.ite hs).next.need

/-! ### Host: BAR2 (R603) -/

theorem Keeps.noteHost {f : Nat} {e : AccErr} : Keeps s₀ (s.noteHost f e) := by
  unfold State.noteHost
  split
  · exact hs.noteTrans
  · exact hs.noteTier
  · exact hs.noteGuard
  · exact hs

theorem Keeps.bar2Err {f : Nat} {write : Bool} {o : Nat} {e : AccErr} : ResOk s₀ (s.bar2Err f write o e) := by
  unfold State.bar2Err
  split
  · exact hs.stalls
  · exact hs.noteHost.latch.reportSelf.next

theorem Keeps.execBar2Read {f : Fin 2} {o : BitVec 36} {n : Fin 4097} : ResOk s₀ (execBar2Read f o n s) := by
  unfold Machine.execBar2Read
  refine ResOk.need ?_
  refine hs.stalls.ite ?_
  split
  · exact hs.traffic.useTlbs.update.next
  · exact hs.stalls
  · exact hs.update.bar2Err

theorem Keeps.execBar2Write {f : Fin 2} {o : BitVec 36} {bytes : List Byte} :
    ResOk s₀ (execBar2Write f o bytes s) := by
  unfold Machine.execBar2Write
  refine ResOk.need (((hs.setRecovery (Mem.wf_write _ _ _)).ite hs).next.ite (hs.stalls.ite ?_))
  split
  next t heq => exact Keeps.next (hs.writeDir _ heq)
  · exact hs.bar2Err

/-! ### Aquifer: Read entries (R512 to R514) -/

theorem Keeps.setAqQ {k q : Nat} {l : List AqEntry} : Keeps s₀ (s.setAqQ k q l) := hs.update

theorem Keeps.execAquiferReadEntry {q : Fin 13} {a : Nat} {n : Fin 5} {src : Fin 4} :
    ResOk s₀ (execAquiferReadEntry q a n src s) := hs.setAqQ.next.need

theorem Keeps.pageLost {src a : Nat} : Keeps s₀ (s.pageLost src a) := hs.setPoison.incFld.latch.reportSelf

theorem Keeps.pageCount {k src a : Nat} {ev : PageEv} : Keeps s₀ (s.pageCount k src a ev) := by
  unfold State.pageCount
  extract_lets s1
  have hs1 : Keeps s₀ s1 := hs.ite hs.incFld
  split
  · exact hs1.incFld.incFld
  · exact hs1.pageLost
  · exact hs1

theorem Keeps.execAquiferPageRead {k : Fin 12} {ev : PageEv} : ResOk s₀ (execAquiferPageRead k ev s) := by
  unfold Machine.execAquiferPageRead
  refine ResOk.needSome (fun _ _ => ?_)
  split
  · exact ResOk.fault
  · exact (hs.pageCount.setAqQ.update.next.ite hs.pageCount.setAqQ.update.next).need

/-! ### Aquifer: Lost packages (R517, R518) -/

theorem Keeps.loseAq {k : Nat} : Keeps s₀ (s.loseAq k) :=
  hs.setFld.reportSelf.ite hs.setFld.reportSelf.alert.reportSelf

theorem Keeps.execAquiferPackageLost {k : Fin 12} : ResOk s₀ (execAquiferPackageLost k s) := hs.loseAq.next.need

theorem Keeps.execAqFenceCmd {v : Word} : ResOk s₀ (execAqFenceCmd v s) :=
  (hs.setFld.ite (hs.setFld.setFld.ite (hs.setFld.ite hs.setFld.loseAq).setFld)).next.need

/-! ### Aquifer: Image writes (R519 to R522) -/

theorem Keeps.putRow {r : ImgRec} {i : Nat} {bs : List Byte} : Keeps s₀ (s.putRow r i bs) :=
  (hs.setBoot (Mem.wf_write _ _ _)).ite hs.clearPoison.rawWrite

theorem Keeps.execImageRowWrite {j : Nat} : ResOk s₀ (execImageRowWrite j s) := by
  unfold Machine.execImageRowWrite
  refine ResOk.needSome (fun _ _ => ?_)
  refine ResOk.need ?_
  dsimp only
  split
  · exact hs.headErr
  · exact ResOk.fault
  · refine ResOk.need ?_
    refine hs.failJob.next.ite ?_
    split
    · exact hs.headErr
    · exact hs.putRow.modJob.next

/-! ### Codec: The session block (R578) -/

theorem Keeps.putSession {e : Session} : ExOk (Keeps s₀) (s.putSession e) := hs.update.writeDir

theorem Keeps.turnSession {e : Session} : Keeps s₀ (s.turnSession e) := hs.update

theorem Keeps.codecErr {e : Session} {err : AccErr} : ResOk s₀ (s.codecErr e err) := by
  unfold State.codecErr
  split
  · exact hs.stalls
  · exact hs.noteHead.update.failJob.next

theorem Keeps.coreStep {i : Nat} {r : Res} (hr : ResOk s₀ r) : ResOk s₀ (s.coreStep i r) := hs.stalls.ite hr

theorem Keeps.codecGo {e : Session} {r : Except AccErr State} (hr : ExOk (Keeps s₀) r) :
    ResOk s₀ (s.codecGo e r) := by
  unfold State.codecGo
  split
  · exact (hr _ rfl).next
  · exact hs.codecErr

/-! ### Codec: Binding (R571) -/

theorem Keeps.syncCores : Keeps s₀ s.syncCores := hs.foldl (fun _ _ h => h.setFld)

theorem Keeps.execCodecSessionBind : ResOk s₀ (execCodecSessionBind s) := by
  unfold Machine.execCodecSessionBind
  refine ResOk.needSome (fun _ _ => hs.codecGo ?_)
  exact ExOk.map (fun _ heq => (hs.putSession _ heq).syncCores)

theorem Keeps.execSessionReadyReread {j : Nat} {n : Fin 4} : ResOk s₀ (execSessionReadyReread j n s) := by
  unfold Machine.execSessionReadyReread
  refine ResOk.needSome (fun _ _ => ?_)
  split
  · exact hs.codecErr
  · exact hs.update.next

/-! ### Codec: The motion-search window (R590) -/

theorem Keeps.fetchWindows {e : Session} {coded : List (Nat × List Byte)} {a : Nat} :
    ExOk (Keeps s₀) (s.fetchWindows e coded a) := ExOk.bindAny (fun _ => ExOk.pure hs.update)

theorem Keeps.encode {e : Session} {u : List (Nat × List Byte) × Nat × List Byte × Nat} :
    ExOk (Keeps s₀) (s.encode e u) := by
  unfold State.encode
  dsimp only
  exact ExOk.bindAny (fun _ => hs.fetchWindows.bind (fun _ h => h.writeDir.bind
    (fun _ h => (ExOk.foldlM (fun _ _ h => h.writeDir) h).bind
    (fun _ h => h.putSession.bind (fun _ h => ExOk.pure h.turnSession.incFld.incFld)))))

/-! ### Codec: Decoding (R566, R577, R593) -/

theorem Keeps.decode {e : Session} {stream : List Byte} : ExOk (Keeps s₀) (s.decode e stream) :=
  (ExOk.foldlM (fun _ _ h => h.writeDir) hs).bind (fun _ h => (ExOk.foldlM (fun _ _ h => h.writeDir) h).bind
    (fun _ h => h.putSession.bind (fun _ h => ExOk.pure h.turnSession.incFld)))

/-! ### Codec: Ends (R594) -/

theorem Keeps.endSession {e : Session} {code : Nat} : ResOk s₀ (s.endSession e code) := by
  unfold State.endSession
  dsimp only
  split
  · exact hs.codecErr
  next h => exact ((hs.putSession _ h).syncCores.ite (hs.putSession _ h).syncCores.latch).next

theorem Keeps.execEncodePicture {i : Fin 2} : ResOk s₀ (execEncodePicture i s) := by
  unfold Machine.execEncodePicture
  refine ResOk.needSome (fun _ _ => ?_)
  refine hs.coreStep ?_
  split
  · exact hs.codecErr
  · exact hs.endSession.ite (hs.codecGo hs.encode)

theorem Keeps.execDecodePicture {i : Fin 2} : ResOk s₀ (execDecodePicture i s) := by
  unfold Machine.execDecodePicture
  refine ResOk.needSome (fun _ _ => ?_)
  refine hs.coreStep ?_
  split
  · exact hs.codecErr
  · exact hs.endSession.ite ((hs.codecGo hs.decode).ite hs.stalls)

theorem Keeps.endIncomplete {e : Session} : ResOk s₀ (s.endIncomplete e) := hs.update.endSession

theorem Keeps.execSessionEnd {j : Nat} {n : Fin 4} : ResOk s₀ (execSessionEnd j n s) := by
  unfold Machine.execSessionEnd
  refine ResOk.needSome (fun _ _ => ?_)
  refine ResOk.ite ?_ ?_
  · refine hs.endSession.ite ?_
    refine ResOk.ite ?_ hs.endIncomplete.need
    split
    · exact hs.codecErr
    · exact hs.endSession.need
  · refine hs.endSession.ite ?_
    split
    · exact hs.codecErr
    · exact hs.endSession.ite hs.endIncomplete.need

/-! ### Codec: Pre-emption and rollback (R595, R596) -/

theorem Keeps.openSessions {j : Nat} {l : List Session} : Keeps s₀ (s.openSessions j l) := hs.update.syncCores

theorem Keeps.pauseSessions {j : Nat} {pause : Bool} : ExOk (Keeps s₀) (s.pauseSessions j pause) :=
  ExOk.foldlM (fun _ _ h => h.putSession) hs

theorem Keeps.restoreSessions {j : Nat} {l : List Session} : ExOk (Keeps s₀) (s.restoreSessions j l) :=
  ExOk.foldlM (fun _ _ h => (ExOk.pure h).ite h.putSession) hs.openSessions

/-! ### Sched: Starting the controllers of a job -/

theorem Keeps.loadImem {w : Nat} {ws : List Word} : Keeps s₀ (s.loadImem w ws) := hs.update

theorem Keeps.startRamp {w : Nat} : Keeps s₀ (s.startRamp w) := hs.update.setWell

theorem Keeps.startWell {j : Nat} {x : Job} {prog : List Word} {rank w pass : Nat} {resumed : Bool}
    {colls : Tab Nat} {n : Nat} : Keeps s₀ (s.startWell j x prog rank w pass resumed colls n) :=
  hs.setWell.startRamp.loadImem.zeroEvents.update

/-! ### Sched: Discarding a job's work -/

theorem Keeps.clearWell {w : Nat} : Keeps s₀ (s.clearWell w) := hs.update.setWell.foldl (fun _ _ h => h.freePump)

theorem Keeps.clearSlot {w k : Nat} : Keeps s₀ (s.clearSlot w k) := hs.clearEvents.update

theorem Keeps.dropWork {j : Nat} {x : Job} : Keeps s₀ (s.dropWork j x) :=
  (hs.foldl (fun _ _ h => (h.clearWell.ite h).clearSlot)).update

theorem Keeps.dropPosts {j : Nat} : Keeps s₀ (s.dropPosts j) := hs.update

/-! ### Sched: Starting afresh, or from a checkpoint (R185, R259, R555, R560, R596, R684) -/

theorem Keeps.copyBack {ctx : Nat} {c : CpSaved} : ExOk (Keeps s₀) (s.copyBack ctx c) :=
  ExOk.foldlM (fun _ _ h => ExOk.bindAny (fun _ => h.writeDir)) hs

theorem Keeps.startFrom {j : Nat} {x : Job} {prog : List Word} {fence : Nat} {c : CpSaved} :
    ExOk (Keeps s₀) (s.startFrom j x prog fence c) :=
  hs.copyBack.bind (fun _ h => h.restoreSessions.bind (fun _ h => ExOk.bindAny
    (fun _ => ExOk.pure (h.modJob.foldl (fun _ _ h => h.startWell)))))

theorem Keeps.startAfresh {j : Nat} {x : Job} {prog : List Word} {fence : Nat} :
    ExOk (Keeps s₀) (s.startAfresh j x prog fence) :=
  ExOk.bindAny (fun _ => ExOk.bindAny (fun _ => ExOk.bindAny
    (fun _ => (hs.openSessions.modJob.foldl (fun _ _ h => h.startWell)).poolStart.bind
    (fun _ h => ExOk.pure (h.inputsDone.ite h)))))

theorem Keeps.startJob {j : Nat} {x : Job} {first : Bool} : ExOk (Keeps s₀) (s.startJob j x first) := by
  unfold State.startJob
  refine ExOk.bindAny (fun _ => ?_)
  refine hs.dropWork.dropPosts.judgeAreas.bind (fun _ h => ?_)
  split
  · exact (h.poolStart.ite (ExOk.pure h)).bind (fun _ h => h.startFrom)
  · exact h.startAfresh

theorem Keeps.startOr {orig : State} {j : Nat} {r : Except AccErr State} (horig : Keeps s₀ orig)
    (hr : ExOk (Keeps s₀) r) : ResOk s₀ (s.startOr orig j r) := by
  unfold State.startOr
  split
  · exact (hr _ rfl).next
  · exact horig.stalls
  · exact hs.headErr

/-! ### Sched: Binding (R623 to R626) -/

theorem Keeps.setRoot {p root : Nat} {on : Bool} : Keeps s₀ (s.setRoot p root on) := hs.setReg

theorem Keeps.bindNew {j : Nat} {x : Job} {wells : List Nat} : ResOk s₀ (s.bindNew j x wells) :=
  ResOk.needSome (fun _ _ => hs.update.modJob.setRoot.startOr hs hs.update.modJob.setRoot.startJob)

theorem Keeps.resumeWell {j : Nat} {prog : List Word} {w k : Nat} : Keeps s₀ (s.resumeWell j prog w k) :=
  hs.update.setWell.startRamp.loadImem.update

theorem Keeps.rebind {j : Nat} {x : Job} : ExOk (Keeps s₀) (s.rebind j x) :=
  ExOk.bindAny (fun _ => (hs.update.modJob.foldl (fun _ _ h => h.resumeWell)).pauseSessions)

theorem Keeps.execJobBind : ResOk s₀ (execJobBind s) :=
  ResOk.needSome (fun _ _ => ResOk.needSome (fun _ _ => (hs.failJob.next.ite
    (ResOk.needSome (fun _ _ => ((hs.startOr hs hs.rebind).ite hs.bindNew).need))).need))

/-! ### Sched: Pre-emption (R624, R627) -/

theorem Keeps.withdrawWaits {w : Nat} : Keeps s₀ (s.withdrawWaits w) := by
  unfold State.withdrawWaits
  refine hs.foldl (fun _ _ h => ?_)
  dsimp only
  split
  · exact h
  · split
    · exact h
    · exact h.ite (h.setBob.requeue.ite h.setBob.setDeque)

theorem Keeps.stopCtl {w : Nat} : Keeps s₀ (s.stopCtl w) := hs.setWell.ite hs

theorem Keeps.execPreemption {j : Nat} : ResOk s₀ (execPreemption j s) := by
  unfold Machine.execPreemption
  extract_lets t
  have ht : Keeps s₀ t := hs.modJob
  exact ResOk.needSome (fun _ _ => ((ht.foldl (fun _ _ h => h.stopCtl.withdrawWaits)).startOr hs
    (ht.foldl (fun _ _ h => h.stopCtl.withdrawWaits)).pauseSessions).need)

theorem Keeps.saveWell {w k : Nat} : Keeps s₀ (s.saveWell w k) :=
  (hs.withdrawWaits.foldl (fun _ _ h => h.suspendPump)).update.setWell

theorem Keeps.execPartitionQuiescent {j : Nat} : ResOk s₀ (execPartitionQuiescent j s) :=
  ResOk.needSome (fun _ _ => (hs.foldl (fun _ _ h => h.saveWell.ite h)).modJob.next.need)

/-! ### Sched: Rollback (R185, R471) -/

theorem Keeps.execJobRollback {j : Nat} : ResOk s₀ (execJobRollback j s) :=
  ResOk.needSome (fun _ _ => ((hs.startOr hs hs.startJob).ite (hs.startOr hs hs.startJob).need).need)

/-! ### Sched: Loss of a well and rebuilding (R774 to R778) -/

theorem Keeps.execWellLoss {w : WellId} {cause : Fin 16} : ResOk s₀ (execWellLoss w cause s) :=
  hs.loseWell.next.need

omit hs in
theorem OptOk.rewriteLeaf {j : Nat} {old new_ : List Nat} {acc : Option State} {e : Leaf × Nat × Nat}
    (hacc : OptOk (Keeps s₀) acc) : OptOk (Keeps s₀) (rewriteLeaf j old new_ acc e) := by
  unfold Machine.rewriteLeaf
  split
  · exact none
  next s =>
    have hs : Keeps s₀ s := hacc _ rfl
    dsimp only
    split
    · exact (some hs).ite (some hs.setLeaf.undefine)
    · split
      · exact none
      · split
        · exact none
        · exact some (hs.modJob.setLeaf.undefine.kvcMove.ite hs.modJob.setLeaf.undefine)

theorem Keeps.execJobRebuild {j : Nat} : ResOk s₀ (execJobRebuild j s) := by
  unfold Machine.execJobRebuild
  refine ResOk.needSome (fun x _ => ResOk.need (hs.failJob.next.ite ?_))
  have leaves {l : List (Leaf × Nat × Nat)} {old new_ : List Nat} : OptOk (Keeps s₀)
    (l.foldl (rewriteLeaf j old new_) (some ((s.dropWork j x).tlbCtx (s.ctxOf j)))) :=
    (OptOk.some hs.dropWork.tlbCtx).foldl (fun _ _ h => h.rewriteLeaf)
  dsimp only
  split
  · exact hs.failJob.next
  next t heq =>
    have ht : Keeps s₀ t := leaves _ heq
    exact ResOk.needSome (fun _ _ => Keeps.startOr ht.modJob.update.modJob hs ht.modJob.update.modJob.startJob)

/-! ### Sched: Abort (R628) -/

theorem Keeps.execQueueAbort {v : Word} : ResOk s₀ (execQueueAbort v s) := by
  unfold Machine.execQueueAbort
  refine ResOk.need ?_
  refine Keeps.next ?_
  split
  · exact hs.setReg.failJob
  · exact hs.setReg.setFld

/-! ### Sched: The end of a job (R432, R465, R543, R615) -/

theorem Keeps.freeCtx {p : Nat} : Keeps s₀ (s.freeCtx p) := hs.tlbCtx.dropMisses.setRoot.setReg

theorem Keeps.giveBack {j : Nat} {x : Job} : Keeps s₀ (s.giveBack j x) := by
  unfold State.giveBack
  extract_lets _ s1
  have hs1 : Keeps s₀ s1 := (hs.foldl (fun _ _ h => h.flushCache)).dropWork.dropPosts.modJob.unlock
  exact (hs1.elim (fun _ _ => hs1.freeCtx)).update.openSessions.modJob

theorem Keeps.release_ {j : Nat} {x : Job} : ExOk (Keeps s₀) (s.release_ j x) :=
  (hs.foldl (fun _ _ h => h.withdrawWaits)).endMoves.bind (fun _ h => ExOk.pure h.giveBack)

theorem Keeps.stopSessions {j : Nat} : Keeps s₀ (s.stopSessions j) := by
  unfold State.stopSessions
  refine hs.foldl (fun _ _ h => ?_)
  split
  next h1 => exact h.putSession _ h1
  · exact h

theorem Keeps.endJob {j : Nat} {x : Job} : ExOk (Keeps s₀) (s.endJob j x) :=
  hs.stopSessions.release_.bind (fun _ h => ExOk.pure (h.record.modJob.promise.ite
    (h.record.modJob.tell.ite h.record.modJob)))

theorem Keeps.completeJob {j : Nat} {x : Job} : Keeps s₀ (s.completeJob j x) := hs.modJob.settleEntry

/-! ### Loader: The job -/

theorem Keeps.lock {l : List Nat} : Keeps s₀ (s.lock l) := hs.foldl (fun _ _ h => h.leafBit)

theorem Keeps.loadTables {j : Nat} {x : Job} : Keeps s₀ (s.loadTables j x) := hs.lock.modJob

theorem Keeps.passJob {j : Nat} {x : Job} : Keeps s₀ (s.passJob j x) := by
  unfold State.passJob
  extract_lets _ _ s1
  have hs1 : Keeps s₀ s1 := hs.loadTables.record.modJob
  exact hs1.promise.ite hs1

theorem Keeps.noteFind {root : Nat} {e : AccErr} : Keeps s₀ (s.noteFind root e) := by
  unfold State.noteFind
  split
  · exact hs.noteGuard
  · exact hs.noteTier
  · exact hs.noteTable
  · exact hs

theorem Keeps.noteFinds {root : Nat} {l : List Find} : Keeps s₀ (s.noteFinds root l) :=
  hs.foldl (fun _ _ h => h.noteFind)

theorem Keeps.execJobLoaderVerify {j : Nat} : ResOk s₀ (execJobLoaderVerify j s) := by
  unfold Machine.execJobLoaderVerify
  refine ResOk.needSome (fun _ _ => ?_)
  refine ResOk.need ?_
  dsimp only
  split
  · exact hs.stalls
  · refine Keeps.next ?_
    split
    · exact hs.noteFinds.modJob.reject
    · exact hs.passJob

/-! ### Pair: The member -/

theorem Keeps.modPair {f : Pair → Pair} : Keeps s₀ (s.modPair f) := hs.update

theorem Keeps.enterPair {st : Nat} : Keeps s₀ (s.enterPair st) := hs.setFld

theorem Keeps.setEpoch {e : Nat} : Keeps s₀ (s.setEpoch e) := hs.setFld.modPair

theorem Keeps.pairReport {detail : Nat} : Keeps s₀ (s.pairReport detail) := hs.reportSelf

theorem Keeps.mapWaiting {f : List (CEntry × Nat) → List (CEntry × Nat)} : Keeps s₀ (s.mapWaiting f) := hs.update

theorem Keeps.leaveSync : Keeps s₀ s.leaveSync := hs.mapWaiting.modPair

/-! ### Pair: Formation (R676) -/

theorem Keeps.sayHello : Keeps s₀ s.sayHello := hs.tell

theorem Keeps.startForming : Keeps s₀ s.startForming :=
  hs.ite (hs.enterPair.setFld.sayHello.ite hs.enterPair.setFld)

theorem Keeps.writePairCtl {v : Word} : Keeps s₀ (s.writePairCtl v) := hs.ite (hs.setReg.startForming.ite hs.setReg)

theorem Keeps.execPairFormationStart {v : Word} : ResOk s₀ (execPairFormationStart v s) := hs.writePairCtl.next.need

theorem Keeps.sendCheckpoint {j : Nat} {x : Job} : ExOk (Keeps s₀ ·.1) (s.sendCheckpoint j x) := by
  unfold State.sendCheckpoint
  dsimp only
  split
  · exact ExOk.error
  next h =>
    split
    · exact ExOk.ok (hs.judgeAreas _ h)
    · split
      next h1 _ => exact ExOk.ok ((hs.judgeAreas _ h).cpMirror _ h1).tell
      · exact ExOk.error
      · exact ExOk.ok (hs.judgeAreas _ h)

theorem Keeps.maybeSyncDone : Keeps s₀ s.maybeSyncDone := hs.tell.modPair.ite hs

theorem Keeps.startSync : Keeps s₀ s.startSync := by
  unfold State.startSync
  extract_lets s1
  have hs1 : Keeps s₀ s1 := hs.enterPair.modPair
  refine Keeps.maybeSyncDone (Keeps.modPair (Keeps.foldl ?_ (fun _ _ h => h.tell)))
  refine Keeps.foldl_fst hs1 (fun a e ha => ?_)
  have ht (l : List JRec) : Keeps s₀ (l.foldl (fun (t : State) r => t.tell (.journal r none)) a.1) :=
    ha.foldl (fun _ _ h => h.tell)
  dsimp only
  generalize e.2.records _ = rs
  replace ht := ht rs
  generalize rs.foldl _ a.1 = t at ht ⊢
  split
  · exact ht.sendCheckpoint.toOption.getD (a := (t, 0)) ht
  · exact ht

theorem Keeps.enterInSync : Keeps s₀ s.enterInSync := by
  unfold State.enterInSync
  extract_lets s1 s2
  have hs2 : Keeps s₀ s2 := hs.enterPair.foldl (fun _ _ h => h.loadTables)
  exact (hs2.setPw.update.foldl (fun _ _ h => h.promise.ite (h.modJob.promise.ite h))).ite hs

theorem Keeps.twinKnocks : Keeps s₀ s.twinKnocks := hs.setPw

theorem Keeps.rxPair {h : PairHdr} {k : State → Res} (hk : ∀ a, Keeps s₀ a → ResOk s₀ (k a)) :
    ResOk s₀ (rxPair h s k) :=
  (hs.twinKnocks.next.ite (hs.pairReport.next.ite (hs.modPair.next.ite (hk _ hs)))).need

theorem Keeps.refuse {r : Nat} : Keeps s₀ (s.refuse r) := hs.enterPair.setFld

theorem Keeps.judgeHello {h : PairHdr} {member : Nat} {qown : Word} {ucode : Nat} :
    Keeps s₀ (s.judgeHello h member qown ucode) :=
  hs.pairReport.refuse.ite (hs.refuse.ite (hs.refuse.ite (hs.refuse.ite hs.sayHello.setEpoch.modPair.startSync)))

theorem Keeps.execPairHello {h : PairHdr} {member : Fin 2} {qown : Word} {ucode : BitVec 16} :
    ResOk s₀ (execPairHello h member qown ucode s) := by
  unfold Machine.execPairHello
  extract_lets t
  have ht : Keeps s₀ t := hs.judgeHello
  refine ResOk.ite ?_ (hs.rxPair (fun _ h => h.modPair.next))
  refine ResOk.need ?_
  refine hs.twinKnocks.next.ite ?_
  split
  · exact ht.next.ite hs.stalls
  · exact ht.next

theorem Keeps.execSyncDone {h : PairHdr} : ResOk s₀ (execSyncDone h s) :=
  hs.rxPair (fun _ h => (h.modPair.enterInSync.ite h).next)

/-! ### Pair: Mirrors received (R680, R682, R686, R687, R696) -/

theorem Keeps.sendAck {m : MirrorOf} {ok : Bool} : Keeps s₀ (s.sendAck m ok) := hs.tell

theorem Keeps.keepQueue {q : QMirror} : Keeps s₀ (s.keepQueue q) := hs.modPair

theorem Keeps.dropHeld {r : JRec} : Keeps s₀ (s.dropHeld r) := hs.update

theorem Keeps.execJournalMirror {h : PairHdr} {r : JRec} {q : Option QMirror} :
    ResOk s₀ (execJournalMirror h r q s) :=
  hs.rxPair (fun _ h => (h.dropHeld.modPair.elim (fun _ _ => h.dropHeld.modPair.keepQueue)).syncOpen.sendAck.next)

/-! ### Pair: Records taken over (R692, R694, R695) -/

theorem Keeps.adopt {r : JRec} : Keeps s₀ (s.adopt r) := by
  unfold State.adopt
  refine hs.ite ?_
  dsimp only
  split
  · exact hs.update
  · exact hs.update.loadTables

theorem Keeps.adoptAll {mask : Word} : Keeps s₀ (s.adoptAll mask) :=
  ((hs.reportSelf.ite hs).foldl (fun _ _ h => h.adopt)).syncOpen

theorem Keeps.restoreQueue {q : Nat} {m : QMirror} : Keeps s₀ (s.restoreQueue q m) :=
  hs.setFld.setFld.setFld.setReg.setHq

theorem Keeps.execQueueMirror {h : PairHdr} {q : QMirror} : ResOk s₀ (execQueueMirror h q s) :=
  hs.rxPair (fun _ h => (h.keepQueue.restoreQueue.setFld.adoptAll.ite h.keepQueue).sendAck.next)

theorem Keeps.execCheckpointMirror {h : PairHdr} {queue : Fin 64} {gen : BitVec 8} {seq : Word32}
    {root va : BitVec 56} {bytes : List Byte} :
    ResOk s₀ (execCheckpointMirror h queue gen seq root va bytes s) := by
  unfold Machine.execCheckpointMirror
  refine hs.rxPair (fun _ h1 => ?_)
  dsimp only
  split
  next h2 => exact (h1.writeDir _ h2).sendAck.next
  · exact hs.stalls
  · exact h1.pairReport.sendAck.next

theorem Keeps.execHeaderMirror {h : PairHdr} {x : CpHeader} : ResOk s₀ (execHeaderMirror h x s) := by
  unfold Machine.execHeaderMirror
  refine hs.rxPair (fun _ h1 => ?_)
  dsimp only
  split
  next h2 => exact (h1.writeDir _ h2).modPair.sendAck.next
  · exact hs.stalls
  · exact h1.pairReport.sendAck.next

/-! ### Pair: Acknowledgements (R680, R686, R687) -/

theorem Keeps.ackQueue {q g n : Nat} : Keeps s₀ (s.ackQueue q g n) := by
  unfold State.ackQueue
  dsimp only
  split
  · exact hs.setHq
  · exact hs

theorem Keeps.ackBytes {j : Nat} : Keeps s₀ (s.ackBytes j) := by
  unfold State.ackBytes
  split
  · exact hs
  · split
    · exact hs
    · refine hs.ite ?_
      refine hs.modJob.ite ?_
      dsimp only
      exact hs.cpHeader.tell.modJob

theorem Keeps.ackOwed : Keeps s₀ s.ackOwed := hs.modPair.maybeSyncDone.enterInSync.ite hs

theorem Keeps.ackGood {m : MirrorOf} : Keeps s₀ (s.ackGood m) := by
  unfold State.ackGood
  split
  · refine Keeps.ackOwed ?_
    split
    · exact hs.modJob
    · exact hs
  · exact hs.ackQueue.ackOwed
  · split
    · exact hs.ackBytes
    · exact hs.ackOwed
  · split
    · exact hs.modJob
    · exact hs.ackOwed

theorem Keeps.ackBad {m : MirrorOf} : Keeps s₀ (s.ackBad m) := by
  unfold State.ackBad
  extract_lets s1
  have hs1 : Keeps s₀ s1 := by
    unfold s1
    split
    · split
      · exact hs.modJob
      · exact hs
    · split
      · exact hs.modJob
      · exact hs
    · exact hs
  exact hs1.leaveSync.enterPair.modPair.ite hs1

theorem Keeps.execMirrorAck {h : PairHdr} {of_ : MirrorOf} {ok : Bool} : ResOk s₀ (execMirrorAck h of_ ok s) :=
  hs.rxPair (fun _ h => (h.mirrorAnswered.ackGood.ite h.mirrorAnswered.ackBad).next)

/-! ### Pair: The judgement of the twin (R688, R689) -/

theorem Keeps.judgeBits : Keeps s₀ s.judgeBits := by
  unfold State.judgeBits
  extract_lets _ _ s1
  have hs1 : Keeps s₀ s1 := hs.incFld.pairReport.alert.ite hs
  exact (hs1.incFld.ite hs1).setFld.setFld

theorem Keeps.judgeState : Keeps s₀ s.judgeState :=
  hs.ite ((hs.startSync.ite hs).ite ((hs.ite hs.leaveSync.enterPair).ite (hs.ite hs.leaveSync.enterPair.fcSignal)))

theorem Keeps.judge : Keeps s₀ s.judge := hs.ite hs.judgeBits.judgeState

theorem Keeps.execResetting {h : PairHdr} : ResOk s₀ (execResetting h s) := hs.rxPair (fun _ h => h.modPair.next)

theorem Keeps.execResettingSuspensionEnd : ResOk s₀ (execResettingSuspensionEnd s) :=
  ResOk.needSome (fun _ _ => hs.modPair.judge.next.need)

theorem Keeps.execHeartbeatSilence : ResOk s₀ (execHeartbeatSilence s) := hs.judge.next.need

theorem Keeps.execLinkLossTimeout : ResOk s₀ (execLinkLossTimeout s) := hs.judge.next.need

theorem Keeps.execHbInToggle : ResOk s₀ (execHbInToggle s) := hs.modPair.judge.next

theorem Keeps.execPortUp {p : Fin 9} {lanes : BitVec 8} : ResOk s₀ (execPortUp p lanes s) :=
  (ResOk.needSome (fun _ _ => (hs.raisePort.ite (hs.raisePort.judge.startForming.ite
    (hs.raisePort.judge.sayHello.ite hs.raisePort.judge))).next)).need

/-! ### Pair: Takeover (R692 to R694) -/

theorem Keeps.rewriteQueue {q : Nat} {m : QMirror} : Keeps s₀ (s.rewriteQueue q m) := by
  unfold State.rewriteQueue
  refine Keeps.signalQ ?_
  refine hs.restoreQueue.foldl (fun _ _ h => ?_)
  dsimp only
  split
  · exact h.rawWrite
  · exact h

theorem Keeps.takeOver : Keeps s₀ s.takeOver :=
  (hs.leaveSync.enterPair.setEpoch.setReg.modPair.incFld.foldl
    (fun _ _ h => (h.elim (fun _ _ => h.rewriteQueue)).ite h)).adoptAll.incFld

theorem Keeps.execYield {h : PairHdr} : ResOk s₀ (execYield h s) := hs.rxPair (fun _ h => (h.takeOver.ite h).next)

theorem Keeps.sendYield : Keeps s₀ s.sendYield := by
  unfold State.sendYield
  exact (hs.tell.ite hs).modPair

/-! ### Pair: Commands (R690, R695) -/

theorem Keeps.pairCmd {v : Word} {op : Nat} {allowed : Bool} {f : State → State}
    (hf : ∀ a, Keeps s₀ a → Keeps s₀ (f a)) : ResOk s₀ (s.pairCmd v op allowed f) :=
  (hs.next.ite (hs.setFld.next.ite (hf _ hs.setFld).next)).need

theorem Keeps.execPairTakeoverCmd {v : Word} : ResOk s₀ (execPairTakeoverCmd v s) :=
  hs.pairCmd (fun _ h => h.setFld.ite h.takeOver)

theorem Keeps.execPairSoloCmd {v : Word} : ResOk s₀ (execPairSoloCmd v s) := hs.pairCmd (fun _ h => h.enterPair)

theorem Keeps.dropRelease {j : Nat} {x : Job} : Keeps s₀ (s.dropRelease j x) := by
  unfold State.dropRelease
  split
  next h => exact hs.release_ _ h
  · exact (hs.update.foldl (fun _ _ h => h.dropMove)).giveBack

theorem Keeps.dropJob {j : Nat} : Keeps s₀ (s.dropJob j) := by
  unfold State.dropJob
  split
  · exact hs.stopSessions.dropRelease.modJob.ite hs
  · exact hs

theorem Keeps.dropJobs : Keeps s₀ s.dropJobs := hs.foldl (fun _ _ h => h.dropJob)

theorem Keeps.execPairStanddownCmd {v : Word} : ResOk s₀ (execPairStanddownCmd v s) :=
  hs.pairCmd (fun _ h => h.dropJobs.sendYield.enterPair)

theorem Keeps.execPairRejoinCmd {v : Word} : ResOk s₀ (execPairRejoinCmd v s) :=
  hs.pairCmd (fun _ h => h.startForming)

theorem Keeps.tryHandback : Keeps s₀ s.tryHandback :=
  (hs.foldl (fun _ _ h => h.tell)).setReg.modPair.setFld.setFld.ite hs

theorem Keeps.execPairHandbackCmd {v : Word} : ResOk s₀ (execPairHandbackCmd v s) :=
  hs.pairCmd (fun _ h => h.modPair.setFld.setFld.tryHandback)

/-! ### Pair: The end of a job (R615) -/

theorem Keeps.execJobEndCommit {j : Nat} : ResOk s₀ (execJobEndCommit j s) := by
  unfold Machine.execJobEndCommit
  refine ResOk.needSome (fun _ _ => ?_)
  refine ResOk.ite ?_ hs.completeJob.tryHandback.next.need
  refine ResOk.need ?_
  split
  next h => exact (hs.endJob _ h).next
  · exact hs.stalls

/-! ### Reservoir: Reads and writes of sectors (R485, R486) -/

theorem Keeps.countRepeats {pkg ch n : Nat} : Keeps s₀ (s.countRepeats pkg ch n) := hs.ite hs.incFld.update

theorem Keeps.sectorLost {n src : Nat} : Keeps s₀ (s.sectorLost n src) :=
  (hs.ite hs.setPoison).incFld.latch.reportSelf

theorem Keeps.sectorRead {n src : Nat} {ev : SectorEv} : Keeps s₀ (s.sectorRead n src ev).1 := by
  unfold State.sectorRead
  extract_lets _ s1
  have hs1 : Keeps s₀ s1 := hs.countRepeats
  refine hs1.sectorLost.ite_fst ?_
  split
  · exact hs1.incFld
  · exact hs1.sectorLost
  · exact (hs1.foldl (fun _ _ h => h.setPoison)).sectorLost
  · exact hs1

/-! ### Reservoir: Sluices (R491 to R495) -/

theorem Keeps.setWaiting {k p : Nat} {l : List (Nat × Nat)} : Keeps s₀ (s.setWaiting k p l) := hs.update

theorem Keeps.takeBurst {k p : Nat} : Keeps s₀ (s.takeBurst k p) := hs.update.ite hs.update

theorem Keeps.grant {n k p : Nat} : Keeps s₀ (State.grant n k p s).2 := by
  induction n generalizing s with
  | zero => exact hs
  | succ n ih => exact Keeps.ite_snd (ih hs.takeBurst) hs

theorem Keeps.burstsFor {k p n b : Nat} : Keeps s₀ (s.burstsFor k p n b).1 := by
  unfold State.burstsFor
  extract_lets _ _ _ r
  have hr : Keeps s₀ r.2 := hs.setWaiting.grant
  exact hr.setWaiting.ite_fst hr.setWaiting

theorem Keeps.sectorReq {n p b src : Nat} {f : State → State} (hf : ∀ a, Keeps s₀ a → Keeps s₀ (f a)) :
    ResOk s₀ (s.sectorReq n p b src f) := by
  unfold State.sectorReq
  refine ResOk.need ?_
  split
  · exact hs.stalls
  · exact hs.setWaiting.sectorLost.next.ite ((hf _ hs.burstsFor).ite hs.burstsFor).next

theorem Keeps.execSluiceTick : ResOk s₀ (execSluiceTick s) := hs.update.next.need

/-! ### Reservoir: Commands on sectors -/

theorem Keeps.execReservoirSectorRead {n : BitVec 36} {p : Fin 14} {chk : Bool} {ev : SectorEv} :
    ResOk s₀ (execReservoirSectorRead n p chk ev s) := hs.sectorReq (fun _ h => h.sectorRead)

theorem Keeps.execReservoirSectorWrite {n : BitVec 36} {o : Fin 64} {bytes : List Byte} {p : Fin 14}
    {ev : SectorEv} : ResOk s₀ (execReservoirSectorWrite n o bytes p ev s) := by
  unfold Machine.execReservoirSectorWrite
  refine ResOk.need ?_
  refine (hs.sectorReq (fun _ h => h.clearPoison.rawWrite)).ite ?_
  refine hs.freeBit.sectorReq (fun _ h1 => ?_)
  split
  next h2 => exact (h1.sectorRead.of_fst h2).rawWrite
  next h3 => exact h1.sectorRead.of_fst h3

theorem Keeps.execReservoirPatrolScrub {n : BitVec 36} {ev : SectorEv} :
    ResOk s₀ (execReservoirPatrolScrub n ev s) := by
  unfold Machine.execReservoirPatrolScrub
  refine ResOk.need ?_
  split
  · exact hs.stalls
  · exact hs.sectorLost.next.ite hs.sectorRead.next

theorem Keeps.execDriftCompensation {k : Fin 36} {ch : Fin 4} : ResOk s₀ (execDriftCompensation k ch s) :=
  hs.update.next.need

theorem Keeps.execMr4Read {k : Fin 36} {code : Fin 32} {above : Bool} : ResOk s₀ (execMr4Read k code above s) :=
  (hs.update.setFld.reportSelf.ite hs.update.setFld).next.need

/-! ### Reservoir: Fencing and evacuation (R496 to R500) -/

theorem Keeps.setRvState {k v : Nat} : Keeps s₀ (s.setRvState k v) := hs.setFld

theorem Keeps.execRvFenceCmd {v : Word} : ResOk s₀ (execRvFenceCmd v s) := by
  unfold Machine.execRvFenceCmd
  extract_lets _ _ _ s1 _ _ s2
  have hs1 : Keeps s₀ s1 := hs.setReg
  have hs2 : Keeps s₀ s2 := hs1.update.reportSelf
  exact (hs1.next.ite (hs2.setRvState.setFld.ite hs2).next).need

theorem Keeps.copyReads {as_ : List Nat} {evs : List (Fin 64 × SectorEv)} : Keeps s₀ (s.copyReads as_ evs) :=
  hs.foldl (fun _ _ h => h.foldl (fun _ _ h => h.sectorRead))

theorem Keeps.execEvacuationGranuleCopy {k : Fin 36} {G : Nat} {evs : List (Fin 64 × SectorEv)} :
    ResOk s₀ (execEvacuationGranuleCopy k G evs s) :=
  ResOk.needSome (fun _ _ => hs.copyReads.update.setFld.next.need)

theorem Keeps.zeroPkg {e : Evac} : Keeps s₀ (s.zeroPkg e) := by
  unfold State.zeroPkg
  extract_lets keep
  exact (hs.setReservoir (Mem.wf_filter _ (fun c => keep c.1))).update.recountPoison

theorem Keeps.execEvacuationComplete {k : Fin 36} : ResOk s₀ (execEvacuationComplete k s) :=
  ResOk.needSome (fun _ _ => hs.zeroPkg.update.setRvState.next.ite hs.setRvState.next.need)

theorem Keeps.execReservoirPackageFailure {k : Fin 36} : ResOk s₀ (execReservoirPackageFailure k s) :=
  hs.setRvState.reportSelf.next.need

/-! ### Reservoir: Placement (R483) -/

theorem Keeps.lockedWrite {f o : Nat} : Keeps s₀ (s.lockedWrite f o) := hs.reportSelf

theorem Keeps.execRvPlaceCommit {v : Word} {f : Fin 2} : ResOk s₀ (execRvPlaceCommit v f s) :=
  (hs.lockedWrite.ite hs.setFld.setFld).next.need

/-! ### Power -/

theorem Keeps.modPw {f : Power → Power} (hf : ∀ p, (f p).floor = p.floor := by exact fun _ => rfl) :
    Keeps s₀ (s.modPw f) := hs.setPw (hf _)

theorem Keeps.powerVector : Keeps s₀ s.powerVector := hs.signal

theorem Keeps.setWellPm {w v : Nat} : Keeps s₀ (s.setWellPm w v) := by
  unfold State.setWellPm
  exact hs.setFld.modPw

theorem Keeps.mapBobs {w : Nat} {f : Bobbin → Bobbin} : Keeps s₀ (s.mapBobs w f) := hs.update

/-! ### Power: Array supply -/

theorem Keeps.setVarray {w mv limit : Nat} : Keeps s₀ (s.setVarray w mv limit) := hs.setFld.setFld

theorem Keeps.firstSupply {w : Nat} : Keeps s₀ (s.firstSupply w) := by
  unfold State.firstSupply
  dsimp only
  exact hs.freeNat.modPw.setVarray

/-! ### Power: Draining (R472, R709, R710) -/

theorem Keeps.noteBusy {w : Nat} : Keeps s₀ (s.noteBusy w) := hs.setReg.reportSelf

/-! ### Power: States of a well -/

theorem Keeps.enterW1 {w : Nat} : Keeps s₀ (s.enterW1 w) := by
  unfold State.enterW1
  exact hs.mapBobs.setWell.setWellPm.modPw

theorem Keeps.zeroCounts {w : Nat} : Keeps s₀ (s.zeroCounts w) := hs.foldl (fun _ _ h => h.setReg)

theorem Keeps.dropTlb {w : Nat} : Keeps s₀ (s.dropTlb w) := hs.update

theorem Keeps.enterW2 {w : Nat} : Keeps s₀ (s.enterW2 w) :=
  hs.flushCache.dropTlb.zeroCounts.mapBobs.setWell.setVarray.setWellPm

theorem Keeps.noteIdle : Keeps s₀ s.noteIdle := by
  unfold State.noteIdle
  exact hs.modPw

theorem Keeps.execW1IdleEntry {w : WellId} : ResOk s₀ (execW1IdleEntry w s) :=
  (hs.enterW1.next.ite hs.modPw.next.need).need

/-! ### Power: Entries of W2, W3 and W4 (R707 to R714) -/

theorem Keeps.pmDone {r : Nat} : Keeps s₀ (s.pmDone r) := hs.setFld.setFld

theorem Keeps.requestEntry {target : Nat} {wells : List Nat} {cmd ok : Bool} :
    Keeps s₀ (s.requestEntry target wells cmd ok) :=
  (hs.pmDone.ite hs).ite ((hs.pmDone.ite hs).ite (hs.setFld.setFld.ite hs).modPw)

theorem Keeps.pmCmd {v : Word} {target : Nat} {f : State → State} (hf : ∀ a, Keeps s₀ a → Keeps s₀ (f a)) :
    ResOk s₀ (s.pmCmd v target f) := (hs.next.ite (hf _ hs.setFld.setFld).next).need

theorem Keeps.execPmCmdW2 {v : Word} : ResOk s₀ (execPmCmdW2 v s) := hs.pmCmd (fun _ h => h.requestEntry)

theorem Keeps.execPmCmdW3 {v : Word} : ResOk s₀ (execPmCmdW3 v s) := hs.pmCmd (fun _ h => h.requestEntry)

theorem Keeps.execPmCmdW4 {v : Word} : ResOk s₀ (execPmCmdW4 v s) := hs.pmCmd (fun _ h => h.requestEntry)

theorem Keeps.execW2AutoEntry {w : WellId} : ResOk s₀ (execW2AutoEntry w s) := hs.requestEntry.next.need

theorem Keeps.execW3AutoEntry : ResOk s₀ (execW3AutoEntry s) := hs.requestEntry.next.need

theorem Keeps.dropPeriphery : Keeps s₀ s.dropPeriphery := hs.update

theorem Keeps.enterW3 : Keeps s₀ s.enterW3 :=
  (((hs.dropPeriphery.foldl (fun _ _ h => h.setWellPm)).foldl (fun _ _ h => h.setRvState.ite h)).foldl
    (fun _ _ h => h.ite h.dropPort)).update.setFld

theorem Keeps.coldBase : Keeps s₀ s.coldBase := by
  unfold State.coldBase
  refine (hs.mems (fun h => ?_)).setFld.setFld.foldl (fun _ _ h => h.setFld.ite h)
  obtain ⟨-, -, ha, hh, hb, -⟩ := memOk_iff.mp h
  exact memOk_iff.mpr ⟨Mem.wf_nil, Mem.wf_nil, ha, hh, hb, Mem.wf_nil⟩

theorem Keeps.keepRegs {old : State} {l : List Nat} : Keeps s₀ (s.keepRegs old l) :=
  hs.foldl (fun _ _ h => h.setReg)

theorem Keeps.keepMgmt {old : State} : Keeps s₀ (s.keepMgmt old) := by
  unfold State.keepMgmt
  exact hs.modPw

theorem Keeps.enterW4 : Keeps s₀ s.enterW4 := by
  unfold State.enterW4
  exact hs.coldBase.keepRegs.keepMgmt.modPw

/-! ### Power: Wakes (R712 to R723) -/

theorem Keeps.startWake {src from_ q : Nat} {wells : List Nat} {cmd : Bool} :
    Keeps s₀ (s.startWake src from_ q wells cmd) := by
  unfold State.startWake
  extract_lets _ _ _ _ _ s1 s2
  have hs1 : Keeps s₀ s1 := hs.setReg.setFld.modPw
  have hs2 : Keeps s₀ s2 := hs1.setFld.setFld.ite hs1
  exact hs2.modPw.ite hs2

theorem Keeps.leaveW4 {src : Nat} : Keeps s₀ (s.leaveW4 src) := by
  unfold State.leaveW4
  exact hs.setReg.setReg.setFld.setFld.modPw

theorem Keeps.undoEntry {r : Nat} : Keeps s₀ (s.undoEntry r) := by
  unfold State.undoEntry
  split
  · exact (hs.pmDone.ite hs).modPw
  · exact hs

theorem Keeps.joinWake : Keeps s₀ s.joinWake := hs.setFld.setFld.modPw

theorem Keeps.execPmCmdWake {v : Word} : ResOk s₀ (execPmCmdWake v s) :=
  hs.pmCmd (fun _ h => h.pmDone.ite ((h.startWake.ite h.joinWake).ite (h.undoEntry.ite (h.pmDone.ite h.startWake))))

theorem Keeps.latchWake {code : Nat} : Keeps s₀ (s.latchWake code) := hs.setFld.ite hs

theorem Keeps.execWakeEvent {code : Fin 9} : ResOk s₀ (execWakeEvent code s) := by
  unfold Machine.execWakeEvent
  extract_lets s1
  have hs1 : Keeps s₀ s1 := hs.latchWake
  split
  · exact hs1.undoEntry.next.need
  · exact hs1.leaveW4.next.need.ite (hs1.startWake.next.need.ite (hs1.next.ite hs1.startWake.next.need))

theorem Keeps.finishEntry {e : Entry} : Keeps s₀ (s.finishEntry e) := by
  unfold State.finishEntry
  extract_lets _ s1 t s2 src s3
  have hs1 : Keeps s₀ s1 := (hs.foldl (fun _ _ h => h.enterW2)).modPw
  have hs2 : Keeps s₀ s2 := hs1.enterW3.ite hs1
  have hs3 : Keeps s₀ s3 := hs2.pmDone.powerVector.ite hs2
  refine Keeps.ite ?_ ?_
  · split
    · exact hs1.enterW4.pmDone.leaveW4
    · exact hs1.enterW4.pmDone
  · clear_value src
    split
    · exact hs3
    · exact hs3.startWake

theorem Keeps.execEntryComplete : ResOk s₀ (execEntryComplete s) :=
  ResOk.needSome (fun _ _ => hs.finishEntry.next.need)

theorem Keeps.abandonEntry {e : Entry} : Keeps s₀ (s.abandonEntry e) :=
  (hs.foldl (fun _ _ h => h.noteBusy)).undoEntry

theorem Keeps.execEntryDrainTimeout : ResOk s₀ (execEntryDrainTimeout s) :=
  ResOk.needSome (fun _ _ => hs.abandonEntry.next.need)

theorem Keeps.execDrainTimeout {w : WellId} : ResOk s₀ (execDrainTimeout w s) := by
  unfold Machine.execDrainTimeout
  refine ResOk.need ?_
  split
  · exact hs.noteBusy.modPw.next.need
  · exact ResOk.needSome (fun _ _ => hs.abandonEntry.next.need)

/-! ### Power: Staging (R716 to R723) -/

theorem Keeps.setRail {d : Nat} {r : Rail} : Keeps s₀ (s.setRail d r) := hs.modPw

theorem Keeps.execWakeStagingWellStart : ResOk s₀ (execWakeStagingWellStart s) := by
  unfold Machine.execWakeStagingWellStart
  split
  · exact ResOk.fault
  · exact (hs.modPw.setRail.setRail.ite hs.modPw.setRail).next.need

theorem Keeps.wakeOver : Keeps s₀ s.wakeOver := by
  unfold State.wakeOver
  extract_lets _ s1
  have hs1 : Keeps s₀ s1 := (hs.pmDone.ite hs).modPw
  exact (hs1.setFld.modPw.ite hs1).ite hs

theorem Keeps.wellUp {w : Nat} : Keeps s₀ (s.wellUp w) := by
  unfold State.wellUp
  extract_lets t
  have ht : Keeps s₀ t := hs.firstSupply.setWellPm
  exact (ht.modPw.ite ht).ite hs

theorem Keeps.execDomainReady {d : Fin 26} : ResOk s₀ (execDomainReady d s) :=
  (hs.setRail.wellUp.wakeOver.ite (hs.setRail.setFld.wakeOver.ite hs.setRail.wakeOver)).next.need

theorem Keeps.failPackages {w : Nat} : Keeps s₀ (s.failPackages w) :=
  hs.foldl (fun _ _ h => h.setRvState.reportSelf)

theorem Keeps.failDomain {d cause : Nat} : Keeps s₀ (s.failDomain d cause) := by
  unfold State.failDomain
  extract_lets _ _ s1 _ _ s2
  have hs1 : Keeps s₀ s1 := hs.latch.reportSelf.powerVector.setRail.modPw
  have hs2 : Keeps s₀ s2 := (hs1.failPackages.ite hs1).setRail.setRail.setWellPm
  exact hs1.alert.modPw.ite (hs2.setFld.setFld.ite hs2).loseWell.wakeOver

theorem Keeps.railOff {d cause : Nat} : Keeps s₀ (s.railOff d cause) := hs.failDomain.ite hs.setRail

theorem Keeps.execPowerGoodTimeout {d : Fin 26} : ResOk s₀ (execPowerGoodTimeout d s) := hs.railOff.next.need

theorem Keeps.execPllLockTimeout {d : Fin 26} : ResOk s₀ (execPllLockTimeout d s) := hs.railOff.next.need

theorem Keeps.execWakeRetry {d : Fin 26} : ResOk s₀ (execWakeRetry d s) := hs.setRail.next.need

/-! ### Power: Waits on host memory (R469, R601) -/

theorem Keeps.linkDown {half : Nat} : Keeps s₀ (s.linkDown half) := hs.update.ite hs.update

theorem Keeps.execPcieLinkDown {half : Fin 2} : ResOk s₀ (execPcieLinkDown half s) := hs.linkDown.next.need

theorem Keeps.execPcieLinkUp {half : Fin 2} : ResOk s₀ (execPcieLinkUp half s) :=
  (hs.update.ite hs.update).next.need

theorem Keeps.waitedOut {who : Waiter} {e : AccErr} : ResOk s₀ (s.waitedOut who e) := by
  unfold State.waitedOut
  split
  · exact hs.bobError.need
  · split
    · exact hs.storeError.next
    · exact ResOk.fault
  · exact hs.ctlErr.need
  · exact hs.unitFault.need
  · refine ResOk.needSome (fun _ _ => ?_)
    split
    · exact ResOk.needSome (fun _ _ => hs.bobFault)
    · exact ResOk.needSome (fun _ _ => hs.opFault)
    · exact ResOk.needSome (fun _ _ => ResOk.needSome (fun _ _ => hs.undefComb.opFault))
  · exact ResOk.needSome (fun _ _ => hs.update.abandonMove.next)
  · exact hs.headErr

theorem Keeps.execHostTierWaitExpiry {who : Waiter} {va : BitVec 56} {write : Bool} :
    ResOk s₀ (execHostTierWaitExpiry who va write s) := by
  unfold Machine.execHostTierWaitExpiry
  refine ResOk.needSome (fun _ _ => ?_)
  refine ResOk.need ?_
  split
  · exact ResOk.needSome (fun _ _ => hs.waitedOut.need)
  · exact ResOk.needSome (fun _ _ => hs.waitedOut)

/-! ### Power: References (R726 to R729) -/

theorem Keeps.syncErr : Keeps s₀ s.syncErr := hs.setFld

theorem Keeps.switchTime {coarse : Bool} : Keeps s₀ (s.switchTime coarse) := hs.modPw.setFld.setFld.syncErr

theorem Keeps.loseRef100 : Keeps s₀ s.loseRef100 := by
  unfold State.loseRef100
  extract_lets _ s1
  have hs1 : Keeps s₀ s1 := (hs.foldl (fun _ _ h => h.setRvState.ite h)).update
  exact hs1.ite hs1.switchTime

theorem Keeps.refEffects {i : Nat} : Keeps s₀ (s.refEffects i) := by
  unfold State.refEffects
  split
  · exact hs.linkDown
  · exact hs.linkDown.ite hs
  · exact hs.loseRef100
  · exact hs.foldl (fun _ _ h => h.ite h.dropPort)

theorem Keeps.refFault {i ppm : Nat} : Keeps s₀ (s.refFault i ppm) :=
  hs.setFld.setFld.incFld.reportSelf.modPw.refEffects

theorem Keeps.execReferenceFault {i : Fin 4} {ppm : BitVec 16} : ResOk s₀ (execReferenceFault i ppm s) :=
  hs.setFld.setFld.modPw.refEffects.next.ite hs.refFault.next

theorem Keeps.execReferenceRecovery {i : Fin 4} : ResOk s₀ (execReferenceRecovery i s) :=
  (hs.setFld.switchTime.ite ((hs.setFld.foldl (fun _ _ h => h.setFld.ite h)).ite hs.setFld)).next.need

theorem Keeps.execReferenceAbsentTimeout {i : Fin 4} : ResOk s₀ (execReferenceAbsentTimeout i s) :=
  hs.refFault.next.need

theorem Keeps.execReferenceGlitch {i : Fin 4} : ResOk s₀ (execReferenceGlitch i s) := hs.incFld.next

theorem Keeps.execReservoirSelfRefreshExit : ResOk s₀ (execReservoirSelfRefreshExit s) :=
  (hs.foldl (fun _ _ h => h.setRvState.ite h)).update.next.need

/-! ### Power: The timebase (R730 to R735) -/

theorem Keeps.heartbeat : Keeps s₀ s.heartbeat := hs.modPw.ite hs

theorem Keeps.execTimebaseAdvance : ResOk s₀ (execTimebaseAdvance s) :=
  hs.setReg.noteIdle.heartbeat.next.ite hs.modPw.setReg.syncErr.noteIdle.heartbeat.next

theorem Keeps.execTimebaseLowRead : ResOk s₀ (execTimebaseLowRead s) := hs.modPw.next

theorem Keeps.clearCoarse : Keeps s₀ s.clearCoarse := hs.setFld.setFld.modPw

theorem Keeps.execTimebaseCoarseClear : ResOk s₀ (execTimebaseCoarseClear s) := hs.clearCoarse.next

theorem Keeps.execAlarmFire : ResOk s₀ (execAlarmFire s) := by
  unfold Machine.execAlarmFire
  extract_lets s1
  have hs1 : Keeps s₀ s1 := hs.modPw
  exact (hs1.ite hs1.powerVector).next.need

theorem Keeps.writeAlarm {v : Word} : Keeps s₀ (s.writeAlarm v) := by
  unfold State.writeAlarm
  extract_lets s1
  have hs1 : Keeps s₀ s1 := hs.setReg
  exact hs1.ite hs1.modPw

/-! ### Supply: Shutdown -/

theorem Keeps.finishProgram : Keeps s₀ s.finishProgram := by
  unfold State.finishProgram
  split
  · exact hs.durable
  · exact hs

theorem Keeps.shutDown : Keeps s₀ s.shutDown := hs.ite hs.sendYield.finishProgram.coldBase.keepMgmt

theorem Keeps.execColdReset : ResOk s₀ (execColdReset s) := hs.coldBase.keepMgmt.setFld.modPw.next

theorem Keeps.inputLost : Keeps s₀ s.inputLost := hs.shutDown.modPw

theorem Keeps.overVoltage : Keeps s₀ s.overVoltage := hs.shutDown.modPw

theorem Keeps.execInputLossShutdown {modEn : Bool} : ResOk s₀ (execInputLossShutdown modEn s) :=
  hs.shutDown.modPw.next.need.ite hs.inputLost.next.need

theorem Keeps.execOverVoltageLockout : ResOk s₀ (execOverVoltageLockout s) := hs.overVoltage.next.need

theorem Keeps.execWellheadDomainFailure {canSend : Bool} : ResOk s₀ (execWellheadDomainFailure canSend s) := by
  unfold Machine.execWellheadDomainFailure
  extract_lets s1
  have hs1 : Keeps s₀ s1 := hs.sendYield.ite hs
  refine ResOk.need ?_
  dsimp only
  exact (hs1.freeBit.finishProgram.ite hs1.freeBit).coldBase.keepMgmt.modPw.next

/-! ### Supply: Input voltage and power (R51 to R55) -/

theorem Keeps.execInputVoltageWarning {high : Bool} : ResOk s₀ (execInputVoltageWarning high s) :=
  hs.modPw.setFld.alert.reportSelf.next.need

theorem Keeps.thermalSupply {w : Nat} : Keeps s₀ (s.thermalSupply w) := hs.setVarray

theorem Keeps.limitSupply {w : Nat} : Keeps s₀ (s.limitSupply w) := by
  unfold State.limitSupply
  dsimp only
  exact hs.freeNat.setVarray

theorem Keeps.readInput {inst avg1ms mv ma : Nat} : Keeps s₀ (s.readInput inst avg1ms mv ma) := by
  unfold State.readInput
  exact hs.modPw

theorem Keeps.execInputPowerSample {inst avg1ms avg1s : BitVec 13} {mv ma : BitVec 17} {limited : Bool} :
    ResOk s₀ (execInputPowerSample inst avg1ms avg1s mv ma limited s) :=
  (hs.inputLost.next.ite (hs.readInput.overVoltage.next.ite
    ((hs.readInput.setFld.setFld.setFld.foldl (fun _ _ h => h.limitSupply.ite h.thermalSupply)).next.ite
    hs.readInput.next))).need

theorem Keeps.execInputLimitApply : ResOk s₀ (execInputLimitApply s) := hs.modPw.next

/-! ### Supply: Thermal trip (R62) -/

theorem Keeps.turnOff {w : Nat} : Keeps s₀ (s.turnOff w) :=
  hs.dirForget.clearWell.mapBobs.setWell.setVarray.setWellPm

theorem Keeps.execThermalTrip {d : Fin 25} : ResOk s₀ (execThermalTrip d s) := by
  unfold Machine.execThermalTrip
  extract_lets s1 s2
  have hs1 : Keeps s₀ s1 := hs.sendYield.foldl (fun _ _ h => h.turnOff)
  have hs2 : Keeps s₀ s2 := hs1.setCistern (fun _ => Mem.wf_nil)
  exact hs2.modPw.alert.reportSelf.next.need

/-! ### Supply: Management bus (R69, R70) -/

theorem Keeps.pmbus {bytes : List Byte} : ResOk s₀ (s.pmbus bytes) := hs.modPw.next.need

theorem Keeps.linear {v : Int} : ResOk s₀ (s.linear v) := hs.pmbus

theorem Keeps.execReadVin : ResOk s₀ (execReadVin s) := hs.linear

theorem Keeps.execReadIin : ResOk s₀ (execReadIin s) := hs.linear

theorem Keeps.execReadPin : ResOk s₀ (execReadPin s) := hs.linear

theorem Keeps.execReadTemperature1 : ResOk s₀ (execReadTemperature1 s) := hs.linear

theorem Keeps.execReadTemperature2 : ResOk s₀ (execReadTemperature2 s) := hs.linear

theorem Keeps.execReadTemperature3 : ResOk s₀ (execReadTemperature3 s) := by
  unfold Machine.execReadTemperature3
  split
  · dsimp only
    exact hs.freeNat.linear
  · exact hs.linear

theorem Keeps.execStatusWord : ResOk s₀ (execStatusWord s) := hs.pmbus

theorem Keeps.execStatusInput : ResOk s₀ (execStatusInput s) := hs.pmbus

theorem Keeps.execStatusTemperature : ResOk s₀ (execStatusTemperature s) := hs.pmbus

theorem Keeps.execClearFaults : ResOk s₀ (execClearFaults s) := hs.modPw.next.need

theorem Keeps.execPmbusRevision : ResOk s₀ (execPmbusRevision s) := hs.pmbus

theorem Keeps.execMfrId : ResOk s₀ (execMfrId s) := hs.pmbus

theorem Keeps.execSmbusAlertResponse : ResOk s₀ (execSmbusAlertResponse s) := by
  unfold Machine.execSmbusAlertResponse
  refine hs.pmbus.ite ?_
  dsimp only
  exact hs.freeBit.pmbus

/-! ### Boot: Firmware images (R744 to R746) -/

theorem Keeps.setStage {v : Nat} : Keeps s₀ (s.setStage v) := hs.setFld

/-! ### Boot: The start of a boot (R57, R64, R747 orders 1 to 3) -/

theorem Keeps.startBoot {two : Bool} : Keeps s₀ (s.startBoot two) :=
  (hs.update.modPw.foldl (fun _ _ h => h.setWellPm)).setFld.setFld.setStage

theorem Keeps.execPerstDeassert {half : Fin 2} {two : Bool} : ResOk s₀ (execPerstDeassert half two s) := by
  unfold Machine.execPerstDeassert
  extract_lets t
  have ht : Keeps s₀ t := hs.modPw
  exact hs.modPw.next.need.ite (ht.ite (ht.startBoot.ite ht.update)).next.need

theorem Keeps.execWellheadDomainGood : ResOk s₀ (execWellheadDomainGood s) := by
  unfold Machine.execWellheadDomainGood
  extract_lets t
  have ht : Keeps s₀ t := hs.modPw
  exact (ht.ite ht.startBoot).next.need

theorem Keeps.unlockHalf {half : Nat} : Keeps s₀ (s.unlockHalf half) := hs.unlockJobs

theorem Keeps.resetHalf {half : Nat} : Keeps s₀ (s.resetHalf half) :=
  hs.unlockHalf.foldl (fun _ _ h => h.resetQueue)

theorem Keeps.execPerstAssertHalf {half : Fin 2} : ResOk s₀ (execPerstAssertHalf half s) := by
  unfold Machine.execPerstAssertHalf
  extract_lets s1
  have hs1 : Keeps s₀ s1 := hs.modPw (fun p => by split <;> rfl)
  exact (hs1.ite (hs1.resetHalf.ite hs1).linkDown).next

theorem Keeps.execFunctionLevelReset {half : Fin 2} : ResOk s₀ (execFunctionLevelReset half s) :=
  hs.resetHalf.next.need

theorem Keeps.runImage {x : Image} : Keeps s₀ (s.runImage x) :=
  (hs.setFld.setFld.setFld.foldl (fun _ _ h => h.ite h.setFld)).setStage

theorem Keeps.bootFail : Keeps s₀ s.bootFail := hs.setStage.alert

theorem Keeps.bootReadLost {c : Nat} : Keeps s₀ (s.bootReadLost c) := hs.incFld.latch.reportSelf

theorem Keeps.execBootCopyChecked {readOk : Bool} : ResOk s₀ (execBootCopyChecked readOk s) := by
  unfold Machine.execBootCopyChecked
  split
  · exact ResOk.fault
  · extract_lets _ _ _ s1 s2
    have hs1 : Keeps s₀ s1 := (hs.ite hs.bootReadLost).modPw
    have hs2 : Keeps s₀ s2 := hs1.setFld.ite hs1.setFld
    exact (hs2.setFld.modPw.runImage.ite (hs2.bootFail.ite hs2.setFld)).next.need

/-! ### Boot: WH_RESET (R754) -/

theorem Keeps.whReset {v : Word} {op : Nat} {allowed : Bool} {f : State → State}
    (hf : ∀ a, Keeps s₀ a → Keeps s₀ (f a)) : ResOk s₀ (s.whReset v op allowed f) :=
  (hs.next.ite ((hf _ hs.setFld.setFld).ite hs.setFld.setFld).next).need

theorem Keeps.execRunRecoveryImage {v : Word} : ResOk s₀ (execRunRecoveryImage v s) :=
  hs.whReset (fun _ h => h.runImage.ite h.setFld)

theorem Keeps.execFirmwareFloorRaise {v : Word} : ResOk s₀ (execFirmwareFloorRaise v s) := by
  have raised {n : Nat} (hn : s.pw.floor ≤ n) : Keeps s₀ (s.modPw ({ · with floor := n })) :=
    ⟨hs.queue, hs.floor.trans hn, hs.mem⟩
  exact ResOk.need (raised (le_max_left _ _)).setFld.next

/-! ### Boot: Training (R478, R507, R747 orders 5 and 6) -/

theorem Keeps.execAquiferTrainingDone {rates : List (BitVec 8)} : ResOk s₀ (execAquiferTrainingDone rates s) := by
  unfold Machine.execAquiferTrainingDone
  extract_lets s1
  have hs1 : Keeps s₀ s1 := hs.foldl (fun _ _ h => h.ite h.setFld.setFld)
  exact (hs1.setStage.next.ite hs1.setStage.modPw.next).need

theorem Keeps.execReservoirTrainingDone {rates : List (BitVec 8)} : ResOk s₀ (execReservoirTrainingDone rates s) :=
  (hs.foldl (fun _ _ h => h.setFld.setRvState.reportSelf.ite h.setFld)).modPw.next.need

/-! ### Boot: Self-test and mapping (R751 to R753) -/

theorem Keeps.mapBobbins {w : Nat} : Keeps s₀ (s.mapBobbins w) :=
  (hs.foldl (fun _ _ h => h.setPhys)).foldl (fun _ _ h => h.setBobState)

theorem Keeps.setWellState {w v : Nat} : Keeps s₀ (s.setWellState w v) := hs.setFld

theorem Keeps.wellRestarted {w : Nat} {bad : Bool} : Keeps s₀ (s.wellRestarted w bad) := by
  unfold State.wellRestarted
  extract_lets s1
  have hs1 : Keeps s₀ s1 := hs.loseWell.ite hs.mapBobbins.setWellPm.judgeWell
  exact hs1.ite hs1.setFld

theorem Keeps.dropCistern {w : Nat} : Keeps s₀ (s.dropCistern w) := by
  unfold State.dropCistern
  extract_lets mine
  exact (hs.setCistern (tabWf_drop _ _ mine)).update.recountPoison

theorem Keeps.wellTested {w : Nat} {bad : Bool} : Keeps s₀ (s.wellTested w bad) := by
  unfold State.wellTested
  extract_lets _ _ _ s1
  have hs1 : Keeps s₀ s1 := hs.dropCistern.setFld.setFld
  exact hs1.setWellState.setFld.ite hs1.loseWell.setFld

theorem Keeps.execWellSelfTestDone {w : WellId} {fail : BitVec 136} {ctl cis : Bool} {us : Word32} :
    ResOk s₀ (execWellSelfTestDone w fail ctl cis us s) := by
  unfold Machine.execWellSelfTestDone
  extract_lets _ _ _ _ s1
  have hs1 : Keeps s₀ s1 := (hs.setReg.foldl (fun _ _ h => h.setBob)).modPw
  refine ResOk.needSome (fun _ _ => ?_)
  refine Keeps.next ?_
  split
  · exact hs1.loseWell.ite hs1
  · exact hs1.wellRestarted
  · exact hs1.wellTested

/-! ### Boot: Boot order 8 (R483, R622, R696, R747, R789) -/

theorem Keeps.scanGen {q : Nat} : Keeps s₀ (s.scanGen q) := by
  unfold State.scanGen
  split
  · exact hs.setFld
  · exact hs

theorem Keeps.scanJob {r : JRec} : Keeps s₀ (s.scanJob r) := hs.update.ite hs.update.record

theorem Keeps.scanJournal : Keeps s₀ s.scanJournal :=
  ((hs.noteJournal.foldl (fun _ _ h => h.scanGen)).foldl (fun _ _ h => h.scanJob)).modPw.syncOpen

theorem Keeps.spanConfig {c : BitVec 12 × List (BitVec 48) × BitVec 8} : Keeps s₀ (s.spanConfig c) :=
  hs.ite (hs.setFld.foldl (fun _ _ h => h.setFld.setFld)).spCommit

theorem Keeps.placeConfig {v : Option (BitVec 6)} : Keeps s₀ (s.placeConfig v) := hs.ite hs.setFld.setFld

theorem Keeps.coldConfig {cfg : BootCfg} : Keeps s₀ (s.coldConfig cfg) := by
  unfold State.coldConfig
  extract_lets s1
  have hs1 : Keeps s₀ s1 := hs.foldl (fun _ _ h => h.mapBobbins.judgeWell)
  exact (hs1.placeConfig.elim (fun _ _ => hs1.placeConfig.spanConfig)).scanJournal

theorem Keeps.ready : Keeps s₀ s.ready := hs.setStage.setFld.setFld.signal

theorem Keeps.greet : Keeps s₀ s.greet := hs.sayHello.ite hs

theorem Keeps.execBootComplete {cfg : BootCfg} : ResOk s₀ (execBootComplete cfg s) :=
  (hs.ready.greet.next.ite hs.coldConfig.ready.next.need).need

/-! ### Boot: Work lost by a well (R471, R545, R742) -/

theorem Keeps.undefItem {a : CuItem} : Keeps s₀ (s.undefItem a) := by
  unfold State.undefItem
  split
  · exact hs
  · split
    · exact hs
    · split
      · exact hs.undefDest
      · exact hs
  · split
    · exact hs
    · split
      · exact hs
      · exact hs.undefComb

theorem Keeps.undefUnit {p : Pump} {i : Nat} : Keeps s₀ (s.undefUnit p i) := by
  unfold State.undefUnit
  split
  · exact hs.ite hs.undefVa
  · exact hs

theorem Keeps.undefWork {w : Nat} : Keeps s₀ (s.undefWork w) :=
  ((hs.foldl (fun _ _ h => h.foldl (fun _ _ h => h.undefVa))).foldl
    (fun _ _ h => h.foldl (fun _ _ h => h.undefUnit))).foldl (fun _ _ h => h.elim (fun _ _ => h.undefItem))

theorem Keeps.loseWork {w : Nat} : Keeps s₀ (s.loseWork w) := hs.undefWork.clearWell.loseCache.dropTlb

theorem Keeps.dropMoves {p : Move → Bool} : Keeps s₀ (s.dropMoves p) := hs.update.foldl (fun _ _ h => h.dropMove)

/-! ### Boot: Warm reset (R739, R742, R750) -/

theorem Keeps.unpromise {x : Job} {typ : Nat} : Keeps s₀ (s.unpromise x typ) := hs.setHq

theorem Keeps.refetch {j : Nat} {x : Job} : Keeps s₀ (s.refetch j x) := by
  unfold State.refetch
  extract_lets s1
  have hs1 : Keeps s₀ s1 := hs.modJob.unlock.unpromise
  exact hs1.setFld.ite hs1

theorem Keeps.warmJob {j : Nat} {x : Job} : Keeps s₀ (s.warmJob j x) := by
  unfold State.warmJob
  split
  · exact hs.refetch
  · exact hs.ite hs.refetch
  · exact hs.modJob
  · exact hs.modJob
  · exact hs.modJob
  · exact hs.modJob
  · exact hs.ite hs.modJob.unpromise.loadTables
  · exact hs

theorem Keeps.recheckEntry {q : Nat} {y : CEntry × Nat} : Keeps s₀ (s.recheckEntry q y) := by
  unfold State.recheckEntry
  dsimp only
  exact hs.freeBit.setHq.reportSelf.ite hs.freeBit

theorem Keeps.recheckWaiting : Keeps s₀ s.recheckWaiting :=
  hs.foldl (fun _ _ h => h.foldl (fun _ _ h => h.recheckEntry))

/-- What a warm reset drops at once. -/
theorem Keeps.warmDrop {jn : Journal} : Keeps s₀ { s with
    jn := jn, engine := {}, reqs := [], ops := [], splits := [], colls := [], decided := [], sessions := [], tlb := [],
    walkPtrs := [], missQs := [], walkers := [], dir := [], lines := [], recovery := [], windows := [], whPumps := [],
    rvWaits := [] }.syncCores :=
  (hs.setRecovery (fun _ => Mem.wf_nil)).update.syncCores

theorem Keeps.warmReset {intact : Bool} : Keeps s₀ (s.warmReset intact) := by
  unfold State.warmReset
  extract_lets _ _ s1 _ _ _ s2 _ _ _ _ _ _ s3
  have hs1 : Keeps s₀ s1 :=
    (hs.tell.ite hs).recheckWaiting.finishProgram.dropMoves.foldl (fun _ _ h => h.loseWork)
  have hs2 : Keeps s₀ s2 := hs1.warmDrop
  have hs3 : Keeps s₀ s3 :=
    ((hs2.foldl (fun _ _ h => h.warmJob)).foldl (fun _ _ h => h.setWellPm)).modPw.setFld.syncOpen
  exact (hs3.setStage.ite hs3).ite hs3.setFld.setStage

theorem Keeps.execWarmReset {v : Word} {intact : Bool} : ResOk s₀ (execWarmReset v intact s) :=
  hs.whReset (fun _ h => h.setFld.warmReset)

theorem Keeps.execFirmwareWatchdogExpiry {intact : Bool} : ResOk s₀ (execFirmwareWatchdogExpiry intact s) :=
  hs.warmReset.next.need

/-! ### Boot: Takeover reset (R740) -/

theorem Keeps.execTakeoverReset {v : Word} {two : Bool} : ResOk s₀ (execTakeoverReset v two s) := by
  refine hs.whReset (fun u hu => ?_)
  extract_lets t1 t2 t3 _ _ t4
  have ht3 : Keeps s₀ t3 := hu.coldBase.keepMgmt.keepRegs.setFld.foldl (fun _ _ h => h.setFld)
  have ht4 : Keeps s₀ t4 := ht3.modPw.setFld
  exact ht4.ite ht4.startBoot

/-! ### Boot: Well reset (R741) -/

theorem Keeps.resetBlock {w : Nat} : Keeps s₀ (s.resetBlock w) := by
  unfold State.resetBlock
  exact hs.update.recountPoison

theorem Keeps.resetWell {w : Nat} : Keeps s₀ (s.resetWell w) := by
  unfold State.resetWell
  extract_lets _ _ _ _ _ _ s1
  have hs1 : Keeps s₀ s1 := hs.modPw.dropMoves.loseWork.zeroCounts.resetBlock.update
  exact hs1.loseWell.ite hs1.setWellPm.modPw

theorem Keeps.execWellReset {v : Word} : ResOk s₀ (execWellReset v s) :=
  hs.whReset (fun _ h => (h.foldl (fun _ _ h => h.resetWell)).setFld)

theorem Keeps.execWellHandshakeWatchdog {w : WellId} {part : Fin 3} :
    ResOk s₀ (execWellHandshakeWatchdog w part s) := hs.resetWell.reportSelf.next.need

/-! ### Ras: The fault collector (R759 to R762) -/

theorem Keeps.execFaultReport {r : ReportIn} : ResOk s₀ (execFaultReport r s) := hs.report.next.need

theorem Keeps.syncSource {src : Nat} : Keeps s₀ (s.syncSource src) := hs.setFld

theorem Keeps.clearRecord {i : Nat} : Keeps s₀ (s.clearRecord i) := hs.setFld.setFld.syncSource

theorem Keeps.execFcRecordClear {i : Fin 512} : ResOk s₀ (execFcRecordClear i s) := hs.clearRecord.next

theorem Keeps.execFcHoldoffExpiry : ResOk s₀ (execFcHoldoffExpiry s) := hs.setFld.signal.update.next.need

theorem Keeps.execFcAlertClear {v : Word} : ResOk s₀ (execFcAlertClear v s) := hs.setReg.next

/-! ### Ras: Event counters (R770 to R772) -/

theorem Keeps.writeEvGlobal {v : Word} : Keeps s₀ (s.writeEvGlobal v) :=
  (hs.setFld.foldl (fun _ _ h => h.setReg)).ite hs.setFld

theorem Keeps.execEvFreeze {v : Word} : ResOk s₀ (execEvFreeze v s) := hs.writeEvGlobal.next.need

theorem Keeps.execEvClear {v : Word} : ResOk s₀ (execEvClear v s) := hs.writeEvGlobal.next.need

/-! ### Ras: The sensor chain (R765 to R769) -/

theorem Keeps.execSensorHopTimeout {h : Fin 25} {asc : Bool} : ResOk s₀ (execSensorHopTimeout h asc s) :=
  (hs.modPw (fun p => by split <;> rfl)).report.next.need

theorem Keeps.collect {x : Sweep} {n : Nat} : Keeps s₀ (s.collect x n) :=
  hs.setReg.setReg.setReg.foldl (fun _ _ h => h.setReg)

theorem Keeps.missDie {d : Nat} : Keeps s₀ (s.missDie d) := by
  unfold State.missDie
  extract_lets _ s1 s2
  have hs1 : Keeps s₀ s1 := hs.modPw.report
  have hs2 : Keeps s₀ s2 := hs1.alert
  exact hs1.ite (hs2.loseWell.ite hs2)

theorem Keeps.countMisses {reached missed : List Nat} : Keeps s₀ (s.countMisses reached missed) :=
  (hs.foldl (fun _ _ h => h.modPw)).foldl (fun _ _ h => h.missDie)

/-! ### Ras: The thermal loop (R61, R724, R725, R768) -/

theorem Keeps.thermalWell {w : Nat} {cur : Bool} : Keeps s₀ (s.thermalWell w cur) := by
  unfold State.thermalWell
  extract_lets _ _ s1
  have hs1 : Keeps s₀ s1 := hs.modPw.setFld
  exact hs1.setVarray.ite hs1.thermalSupply

theorem Keeps.warn {l : List Nat} : Keeps s₀ (s.warn l) := by
  unfold State.warn
  split
  · exact hs
  · exact hs.modPw.alert.reportSelf

theorem Keeps.execSensorSweep {x : Sweep} : ResOk s₀ (execSensorSweep x s) := by
  unfold Machine.execSensorSweep
  extract_lets _ _ _ t _ t1
  have ht : Keeps s₀ t := hs.collect.countMisses
  have ht1 : Keeps s₀ t1 := (ht.ite (ht.foldl (fun _ _ h => h.thermalWell))).warn
  exact (ht1.setFld.ite ht1).modPw.next.need

/-! ### Ras: Well commands (R779, R780) -/

theorem Keeps.wellCmd {v : Word} {op : Nat} {allowed : Nat → Bool} {f : State → Nat → State}
    (hf : ∀ a b, Keeps s₀ a → Keeps s₀ (f a b)) : ResOk s₀ (s.wellCmd v op allowed f) := by
  unfold State.wellCmd
  extract_lets _ t
  have ht : Keeps s₀ t := hs.setFld.setFld
  exact (hs.next.ite (ht.ite ((hf _ _ ht.setFld).ite ht.setFld)).next).need

theorem Keeps.execWellCmdFence {v : Word} : ResOk s₀ (execWellCmdFence v s) :=
  hs.wellCmd (fun _ _ h => h.update.setWellState.reportSelf)

theorem Keeps.execWellCmdTest {v : Word} : ResOk s₀ (execWellCmdTest v s) :=
  hs.wellCmd (fun _ _ h => h.setWellState.setFld.modPw (fun p => by split <;> rfl))

theorem Keeps.clearScratch {w : Nat} : Keeps s₀ (s.clearScratch w) := hs.update

theorem Keeps.execWellCmdRelease {v : Word} : ResOk s₀ (execWellCmdRelease v s) :=
  hs.wellCmd (fun _ _ h => h.clearScratch.mapBobbins.setWellState.setWellPm.judgeWell)

theorem Keeps.execFabricLinkFailure {a b : WellId} : ResOk s₀ (execFabricLinkFailure a b s) :=
  hs.fenceLink.reportSelf.next.need

/-! ### RegWrite: A write as it reaches a register (R785) -/

theorem Keeps.store {o rw_ w1c : Nat} {x : BarWrite} : Keeps s₀ (s.store o rw_ w1c x) := hs.setReg

theorem Keeps.storeLocked {o rw_ : Nat} {committed : Bool} {x : BarWrite} :
    Keeps s₀ (s.storeLocked o rw_ committed x) := hs.ite (hs.lockedWrite.ite hs.store)

/-! ### RegWrite: Registers whose writes act (R786) -/

theorem Keeps.writeQueue {q slot : Nat} {x : BarWrite} : Keeps s₀ (s.writeQueue q slot x) := by
  unfold State.writeQueue
  refine hs.ite ?_
  split
  · exact hs.ite hs.store
  · exact hs.ite hs.store
  · exact hs.writeQctl
  · exact hs.store
  · exact hs.store
  · exact hs.store.clearQError
  · exact hs.store
  · exact hs

theorem Keeps.writePairCmd {v : Word} : ResOk s₀ (s.writePairCmd v) := by
  unfold State.writePairCmd
  split
  · exact hs.execPairTakeoverCmd
  · exact hs.execPairSoloCmd
  · exact hs.execPairStanddownCmd
  · exact hs.execPairRejoinCmd
  · exact hs.execPairHandbackCmd
  · exact hs.next

theorem Keeps.writePmCmd {x : BarWrite} : ResOk s₀ (s.writePmCmd x) := by
  unfold State.writePmCmd
  refine hs.next.ite ?_
  split
  · exact hs.execPmCmdWake
  · exact hs.execPmCmdW2
  · exact hs.execPmCmdW3
  · exact hs.execPmCmdW4
  · exact hs.store.next

theorem Keeps.writeReset {x : BarWrite} : ResOk s₀ (s.writeReset x) := by
  unfold State.writeReset
  extract_lets _ d
  have hd : Keeps s₀ d.2 := hs.freeBit
  refine hs.next.ite ?_
  split
  · exact hd.execWarmReset
  · exact hd.execTakeoverReset
  · exact hs.execWellReset
  · exact hs.execRunRecoveryImage
  · exact hs.store.next

theorem Keeps.writeWellCmd {x : BarWrite} : ResOk s₀ (s.writeWellCmd x) := by
  unfold State.writeWellCmd
  refine hs.next.ite ?_
  split
  · exact hs.execWellCmdFence
  · exact hs.execWellCmdTest
  · exact hs.execWellCmdRelease
  · exact hs.store.next

theorem Keeps.writeInv {x : BarWrite} : ResOk s₀ (s.writeInv x) := by
  unfold State.writeInv
  dsimp only
  split
  · exact hs.execTrInvContext
  · exact hs.execTrInvPage
  · exact hs.store.next

theorem Keeps.writeHrootC {x : BarWrite} : ResOk s₀ (s.writeHrootC x) :=
  hs.store.next.ite hs.execTrHrootJudgingWrite

theorem Keeps.writePort {p : Nat} {x : BarWrite} : Keeps s₀ (s.writePort p x) := by
  unfold State.writePort
  extract_lets _ s1
  have hs1 : Keeps s₀ s1 := (hs.ite hs.storeLocked).store
  exact hs1.trainPort.ite (hs1.ite hs1.dropPort)

theorem Keeps.writePlace {x : BarWrite} : ResOk s₀ (s.writePlace x) := hs.execRvPlaceCommit.ite hs.storeLocked.next

theorem Keeps.writeWake {x : BarWrite} : Keeps s₀ (s.writeWake x) := by
  unfold State.writeWake
  extract_lets t
  have ht : Keeps s₀ t := hs.store
  exact ht.modPw.ite ht

theorem Keeps.writeSplit {w : Nat} {x : BarWrite} : Keeps s₀ (s.writeSplit w x) := hs.ite hs.store.setFld

theorem Keeps.writeBobCmd {w : Nat} {x : BarWrite} : Keeps s₀ (s.writeBobCmd w x) := by
  unfold State.writeBobCmd
  dsimp only
  split
  · exact hs.bobFence
  · exact hs.bobTest
  · exact hs.bobRelease
  · exact hs.ite hs.store

theorem Keeps.writeWell {w o : Nat} {x : BarWrite} : OptOk (Keeps s₀) (s.writeWell w o x) :=
  (OptOk.some hs.writeBobCmd).ite ((OptOk.some hs.writeSplit).ite OptOk.none)

theorem Keeps.writeMsix {slot : Nat} {x : BarWrite} : Keeps s₀ (s.writeMsix slot x) := hs.update

theorem Keeps.writeSpan {o : Nat} {x : BarWrite} : OptOk (ResOk s₀) (s.writeSpan o x) :=
  (OptOk.some hs.writePort.next).ite ((OptOk.some hs.storeLocked.next).ite
    ((OptOk.some hs.storeLocked.next).ite ((OptOk.some (hs.spCommit.ite hs).next).ite
    ((OptOk.some (hs.execSpRtCmdGo.ite hs.store.next)).ite OptOk.none))))

theorem Keeps.writeActing {o : Nat} {x : BarWrite} : OptOk (ResOk s₀) (s.writeActing o x) := by
  unfold State.writeActing
  refine (OptOk.some hs.writeReset).ite ?_
  refine (OptOk.some (hs.execFirmwareFloorRaise.ite hs.next)).ite ?_
  refine (OptOk.some hs.writeWellCmd).ite ?_
  refine (OptOk.some (hs.execQueueAbort.ite hs.store.next)).ite ?_
  refine (OptOk.some (hs.execJnQueryLookup.ite hs.store.next)).ite ?_
  refine (OptOk.some hs.writePmCmd).ite ?_
  refine (OptOk.some hs.writeWake.next).ite ?_
  refine (OptOk.some (hs.clearCoarse.ite hs).next).ite ?_
  refine (OptOk.some hs.writeAlarm.next).ite ?_
  refine (OptOk.some hs.execFcAlertClear).ite ?_
  refine (OptOk.some hs.writeEvGlobal.next).ite ?_
  refine (OptOk.some hs.writeInv).ite ?_
  refine (OptOk.some hs.writeHrootC).ite ?_
  refine (OptOk.some hs.writePlace).ite ?_
  refine (OptOk.some (hs.execRvFenceCmd.ite hs.store.next)).ite ?_
  refine (OptOk.some (hs.execAqFenceCmd.ite hs.store.next)).ite ?_
  refine (OptOk.some hs.writePort.next).ite ?_
  refine (OptOk.some hs.writePairCtl.next).ite ?_
  refine (OptOk.some (hs.store.ite hs).next).ite ?_
  refine (OptOk.some hs.writePairCmd).ite ?_
  refine (OptOk.some (hs.clearRecord.ite hs).next).ite ?_
  refine (OptOk.some hs.writeQueue.next).ite ?_
  exact (OptOk.some hs.writeMsix.next).ite hs.writeSpan

/-! ### RegWrite: The access (R705, R785) -/

theorem Keeps.writeReg {o : Nat} {x : BarWrite} : ResOk s₀ (s.writeReg o x) := by
  unfold State.writeReg
  split
  next h => exact hs.writeActing _ h
  · dsimp only
    split
    next h => exact ((hs.writeWell.ite OptOk.none) _ h).next
    · split
      · exact hs.store.next
      · exact hs.next

theorem Keeps.execRegisterWrite {f : Fin 2} {o : BitVec 26} {n : Fin 9} {v : Word} :
    ResOk s₀ (execRegisterWrite f o n v s) := (hs.reportSelf.next.ite (hs.next.ite hs.writeReg)).need

/-! ### Walkers -/

theorem Keeps.unitMeets {w u : Nat} {e : AccErr} : Keeps s₀ (s.unitMeets w u e) := by
  unfold State.unitMeets
  split
  · exact hs.elim (fun _ _ => hs.nextOr hs.opFault)
  · exact hs.elim (fun _ _ => hs.elim (fun _ _ => hs.nextOr hs.undefComb.opFault))
  · split
    · exact hs.nextOr hs.bobFault
    · exact hs
  · exact hs

theorem Keeps.wellMeets {w req : Nat} {e : AccErr} : Keeps s₀ (s.wellMeets w req e) :=
  ((hs.nextOr hs.bobError).ite hs).ite (((hs.nextOr hs.unitFault).ite hs).ite
    (((hs.nextOr hs.ctlErr).ite hs).ite ((hs.elim (fun _ _ => hs.nextOr hs.walkerErr)).ite hs.unitMeets)))

theorem Keeps.meetFault {m : Miss} {e : AccErr} : Keeps s₀ (s.meetFault m e) :=
  hs.foldl (fun _ _ h => h.wellMeets.ite h)

theorem Keeps.execPageWalkComplete {k : Fin 16} : ResOk s₀ (execPageWalkComplete k s) := by
  unfold Machine.execPageWalkComplete
  extract_lets t
  have ht : Keeps s₀ t := hs.feed
  refine ResOk.needSome (fun _ _ => ?_)
  refine ht.endWalk.feed.next.ite ?_
  split
  · exact hs.stalls
  · exact ht.endWalk.meetFault.feed.next
  · exact ht.endWalk.keepPath.setMissQ.feed.next.ite (ht.endWalk.keepPath.foldl (fun _ _ h => h.tlbPut)).feed.next

/-! ### Dispatch -/

/-- Every command keeps what `Keeps` says. -/
theorem Keeps.exec (i : Instr) : ResOk s₀ (exec i s) :=
  match i with
  | .coldReset => hs.execColdReset
  | .wellheadDomainGood => hs.execWellheadDomainGood
  | .inputLossShutdown .. => hs.execInputLossShutdown
  | .overVoltageLockout => hs.execOverVoltageLockout
  | .inputVoltageWarning .. => hs.execInputVoltageWarning
  | .inputPowerSample .. => hs.execInputPowerSample
  | .inputLimitApply => hs.execInputLimitApply
  | .thermalTrip .. => hs.execThermalTrip
  | .perstDeassert .. => hs.execPerstDeassert
  | .perstAssertHalf .. => hs.execPerstAssertHalf
  | .functionLevelReset .. => hs.execFunctionLevelReset
  | .readVin => hs.execReadVin
  | .readIin => hs.execReadIin
  | .readPin => hs.execReadPin
  | .readTemperature1 => hs.execReadTemperature1
  | .readTemperature2 => hs.execReadTemperature2
  | .readTemperature3 => hs.execReadTemperature3
  | .statusWord => hs.execStatusWord
  | .statusInput => hs.execStatusInput
  | .statusTemperature => hs.execStatusTemperature
  | .clearFaults => hs.execClearFaults
  | .pmbusRevision => hs.execPmbusRevision
  | .mfrId => hs.execMfrId
  | .smbusAlertResponse => hs.execSmbusAlertResponse
  | .bootCopyChecked .. => hs.execBootCopyChecked
  | .reservoirTrainingDone .. => hs.execReservoirTrainingDone
  | .wellSelfTestDone .. => hs.execWellSelfTestDone
  | .bootComplete .. => hs.execBootComplete
  | .warmReset .. => hs.execWarmReset
  | .firmwareWatchdogExpiry .. => hs.execFirmwareWatchdogExpiry
  | .takeoverReset .. => hs.execTakeoverReset
  | .wellReset .. => hs.execWellReset
  | .wellHandshakeWatchdog .. => hs.execWellHandshakeWatchdog
  | .runRecoveryImage .. => hs.execRunRecoveryImage
  | .firmwareFloorRaise .. => hs.execFirmwareFloorRaise
  | .stitchTake .. => hs.execStitchTake
  | .stealProbe .. => hs.execStealProbe
  | .crossWellStealRequest .. => hs.execCrossWellStealRequest
  | .bobbinGroupPowerUp .. => hs.execBobbinGroupPowerUp
  | .bobbinGroupAdmission .. => hs.execBobbinGroupAdmission
  | .ldt .. => hs.execLdt
  | .stt .. => hs.execStt
  | .storeEntryVisible .. => hs.execStoreEntryVisible
  | .mma .. => hs.execMma
  | .zclr .. => hs.execZclr
  | .cvt .. => hs.execCvt
  | .qnt .. => hs.execQnt
  | .epiGate .. => hs.execEpiGate
  | .epiAddv .. => hs.execEpiAddv
  | .epiPst .. => hs.execEpiPst
  | .epiBas .. => hs.execEpiBas
  | .epiConv .. => hs.execEpiConv
  | .epiRecon .. => hs.execEpiRecon
  | .sfnExp .. => hs.execSfnExp
  | .sfnLog .. => hs.execSfnLog
  | .sfnRcp .. => hs.execSfnRcp
  | .sfnRsqrt .. => hs.execSfnRsqrt
  | .redSum .. => hs.execRedSum
  | .redMax .. => hs.execRedMax
  | .redSumsq .. => hs.execRedSumsq
  | .smxInit .. => hs.execSmxInit
  | .smxStep .. => hs.execSmxStep
  | .smxFold .. => hs.execSmxFold
  | .bias .. => hs.execBias
  | .guard .. => hs.execGuard
  | .gat .. => hs.execGat
  | .sct .. => hs.execSct
  | .sig .. => hs.execSig
  | .waits .. => hs.execWaits
  | .waitsSatisfied .. => hs.execWaitsSatisfied
  | .waitsLimitExpiry .. => hs.execWaitsLimitExpiry
  | .endOp .. => hs.execEndOp
  | .stitchCompletion .. => hs.execStitchCompletion
  | .bobbinWatchdogExpiry .. => hs.execBobbinWatchdogExpiry
  | .vacancyMapping .. => hs.execVacancyMapping
  | .bobCmdFence .. => hs.execBobCmdFence
  | .bobCmdTest .. => hs.execBobCmdTest
  | .bobTestDone .. => hs.execBobTestDone
  | .bobCmdRelease .. => hs.execBobCmdRelease
  | .addOp .. => hs.execAddOp
  | .subOp .. => hs.execSubOp
  | .andOp .. => hs.execAndOp
  | .orOp .. => hs.execOrOp
  | .xor .. => hs.execXor
  | .shl .. => hs.execShl
  | .shr .. => hs.execShr
  | .sra .. => hs.execSra
  | .mul .. => hs.execMul
  | .slt .. => hs.execSlt
  | .sltu .. => hs.execSltu
  | .addi .. => hs.execAddi
  | .andi .. => hs.execAndi
  | .ori .. => hs.execOri
  | .xori .. => hs.execXori
  | .shli .. => hs.execShli
  | .shri .. => hs.execShri
  | .srai .. => hs.execSrai
  | .slti .. => hs.execSlti
  | .li .. => hs.execLi
  | .lih .. => hs.execLih
  | .lds .. => hs.execLds
  | .sts .. => hs.execSts
  | .ldg .. => hs.execLdg
  | .beq .. => hs.execBeq
  | .bne .. => hs.execBne
  | .blt .. => hs.execBlt
  | .bge .. => hs.execBge
  | .bltu .. => hs.execBltu
  | .bgeu .. => hs.execBgeu
  | .jal .. => hs.execJal
  | .jr .. => hs.execJr
  | .walkStart .. => hs.execWalkStart
  | .enqTo .. => hs.execEnqTo
  | .enqAny .. => hs.execEnqAny
  | .waitWalk .. => hs.execWaitWalk
  | .waitEvent .. => hs.execWaitEvent
  | .waitPump .. => hs.execWaitPump
  | .fenceStore .. => hs.execFenceStore
  | .fenceWell .. => hs.execFenceWell
  | .fencePartition .. => hs.execFencePartition
  | .controllerStallRelease .. => hs.execControllerStallRelease
  | .waitEventLimitExpiry .. => hs.execWaitEventLimitExpiry
  | .walkRecordStallTimeout .. => hs.execWalkRecordStallTimeout
  | .checkpoint .. => hs.execCheckpoint
  | .checkpointCopy .. => hs.execCheckpointCopy
  | .checkpointDurable .. => hs.execCheckpointDurable
  | .collBarrier .. => hs.execCollBarrier
  | .collSum .. => hs.execCollSum
  | .collMax .. => hs.execCollMax
  | .collMin .. => hs.execCollMin
  | .pumpStart .. => hs.execPumpStart
  | .migPrefetch .. => hs.execMigPrefetch
  | .migDemote .. => hs.execMigDemote
  | .migPin .. => hs.execMigPin
  | .migUnpin .. => hs.execMigUnpin
  | .halt .. => hs.execHalt
  | .walkerPlaceStitch .. => hs.execWalkerPlaceStitch
  | .splitCombineIssue .. => hs.execSplitCombineIssue
  | .splitCombine .. => hs.execSplitCombine
  | .layerTriggerCombine .. => hs.execLayerTriggerCombine
  | .cuEwiseAdd .. => hs.execCuEwiseAdd
  | .cuEwiseSub .. => hs.execCuEwiseSub
  | .cuEwiseMul .. => hs.execCuEwiseMul
  | .cuEwiseMax .. => hs.execCuEwiseMax
  | .cuEwiseMin .. => hs.execCuEwiseMin
  | .cuEwiseAxpby .. => hs.execCuEwiseAxpby
  | .cuRedSum .. => hs.execCuRedSum
  | .cuRedMax .. => hs.execCuRedMax
  | .cuRedSumsq .. => hs.execCuRedSumsq
  | .cuQuantSupplied .. => hs.execCuQuantSupplied
  | .cuQuantComputed .. => hs.execCuQuantComputed
  | .cuConvert .. => hs.execCuConvert
  | .cuMximp .. => hs.execCuMximp
  | .cuMxexp .. => hs.execCuMxexp
  | .cuNormRms .. => hs.execCuNormRms
  | .cuNormLayer .. => hs.execCuNormLayer
  | .cuNormRmsApply .. => hs.execCuNormRmsApply
  | .cuNormRmsStats .. => hs.execCuNormRmsStats
  | .cuNormLayerStats .. => hs.execCuNormLayerStats
  | .cuNormLayerApply .. => hs.execCuNormLayerApply
  | .cuCombine .. => hs.execCuCombine
  | .cuSmxmerge .. => hs.execCuSmxmerge
  | .cuKvrelayout .. => hs.execCuKvrelayout
  | .cuVreblock .. => hs.execCuVreblock
  | .cuGather .. => hs.execCuGather
  | .cuScatter .. => hs.execCuScatter
  | .cuPoolMax .. => hs.execCuPoolMax
  | .cuPoolAvg .. => hs.execCuPoolAvg
  | .cuUpsampleNearest .. => hs.execCuUpsampleNearest
  | .cuUpsampleTrilinear .. => hs.execCuUpsampleTrilinear
  | .cuFillZero .. => hs.execCuFillZero
  | .cuFillValue .. => hs.execCuFillValue
  | .cuItemIssue .. => hs.execCuItemIssue
  | .cuItemComplete .. => hs.execCuItemComplete
  | .cisternRefresh w g b => hs.execCisternRefresh (xw := w) (xgroup := g) (xbank := b)
  | .cisternPatrolScrub .. => hs.execCisternPatrolScrub
  | .cisternSplitApply .. => hs.execCisternSplitApply
  | .pumpCopy .. => hs.execPumpCopy
  | .pumpFill .. => hs.execPumpFill
  | .pumpUnitComplete .. => hs.execPumpUnitComplete
  | .pumpResume .. => hs.execPumpResume
  | .drainTimeout .. => hs.execDrainTimeout
  | .migrationMoveStart => hs.execMigrationMoveStart
  | .moveDrainDone .. => hs.execMoveDrainDone
  | .moveCopyComplete .. => hs.execMoveCopyComplete
  | .accessCountPromotion .. => hs.execAccessCountPromotion
  | .countWindowClear => hs.execCountWindowClear
  | .hostTierWaitExpiry .. => hs.execHostTierWaitExpiry
  | .translationMiss .. => hs.execTranslationMiss
  | .sharedWalkerGrant => hs.execSharedWalkerGrant
  | .pageWalkComplete .. => hs.execPageWalkComplete
  | .trInvContext .. => hs.execTrInvContext
  | .trInvPage .. => hs.execTrInvPage
  | .trHrootJudgingWrite .. => hs.execTrHrootJudgingWrite
  | .gets .. => hs.execGets
  | .getx .. => hs.execGetx
  | .getxf .. => hs.execGetxf
  | .putm .. => hs.execPutm
  | .pute .. => hs.execPute
  | .nonallocatingRead .. => hs.execNonallocatingRead
  | .nonallocatingWrite .. => hs.execNonallocatingWrite
  | .reservoirSectorRead .. => hs.execReservoirSectorRead
  | .reservoirSectorWrite .. => hs.execReservoirSectorWrite
  | .sluiceTick => hs.execSluiceTick
  | .reservoirPatrolScrub .. => hs.execReservoirPatrolScrub
  | .driftCompensation .. => hs.execDriftCompensation
  | .mr4Read .. => hs.execMr4Read
  | .rvFenceCmd .. => hs.execRvFenceCmd
  | .evacuationGranuleCopy .. => hs.execEvacuationGranuleCopy
  | .evacuationComplete .. => hs.execEvacuationComplete
  | .reservoirSelfRefreshExit => hs.execReservoirSelfRefreshExit
  | .rvPlaceCommit .. => hs.execRvPlaceCommit
  | .aquiferReadEntry .. => hs.execAquiferReadEntry
  | .aquiferPageRead .. => hs.execAquiferPageRead
  | .aquiferPackageLost .. => hs.execAquiferPackageLost
  | .aqFenceCmd .. => hs.execAqFenceCmd
  | .imageRowWrite .. => hs.execImageRowWrite
  | .journalProgram => hs.execJournalProgram
  | .journalDurable => hs.execJournalDurable
  | .inputRecordFill .. => hs.execInputRecordFill
  | .noiseFill .. => hs.execNoiseFill
  | .noiseFillDone .. => hs.execNoiseFillDone
  | .codecSessionBind => hs.execCodecSessionBind
  | .encodePicture .. => hs.execEncodePicture
  | .decodePicture .. => hs.execDecodePicture
  | .sessionReadyReread .. => hs.execSessionReadyReread
  | .sessionEnd .. => hs.execSessionEnd
  | .doorbell .. => hs.execDoorbell
  | .submissionFetch .. => hs.execSubmissionFetch
  | .queueErrorClear .. => hs.execQueueErrorClear
  | .jobLoaderVerify .. => hs.execJobLoaderVerify
  | .jobAccept .. => hs.execJobAccept
  | .completionEntryWrite .. => hs.execCompletionEntryWrite
  | .waitingEntryDrain .. => hs.execWaitingEntryDrain
  | .msiXSignal .. => hs.execMsiXSignal
  | .coalesceTimerExpiry .. => hs.execCoalesceTimerExpiry
  | .queueReset .. => hs.execQueueReset
  | .queueAbort .. => hs.execQueueAbort
  | .jnQueryLookup .. => hs.execJnQueryLookup
  | .bar2Read .. => hs.execBar2Read
  | .bar2Write .. => hs.execBar2Write
  | .jobBind => hs.execJobBind
  | .preemption .. => hs.execPreemption
  | .partitionQuiescent .. => hs.execPartitionQuiescent
  | .jobEndCommit .. => hs.execJobEndCommit
  | .jobRollback .. => hs.execJobRollback
  | .wellLoss .. => hs.execWellLoss
  | .jobRebuild .. => hs.execJobRebuild
  | .tileFrame .. => hs.execTileFrame
  | .rdReqFrame .. => hs.execRdReqFrame
  | .rdRespFrame .. => hs.execRdRespFrame
  | .wrFrame .. => hs.execWrFrame
  | .wrAckFrame .. => hs.execWrAckFrame
  | .mgmtFrame .. => hs.execMgmtFrame
  | .ilpDataSend .. => hs.execIlpDataSend
  | .ilpAck .. => hs.execIlpAck
  | .ilpNak .. => hs.execIlpNak
  | .ilpHello .. => hs.execIlpHello
  | .ilpResync .. => hs.execIlpResync
  | .ackDelayExpiry .. => hs.execAckDelayExpiry
  | .rtoExpiry .. => hs.execRtoExpiry
  | .portDown .. => hs.execPortDown
  | .portUp .. => hs.execPortUp
  | .helloTimer .. => hs.execHelloTimer
  | .holdExpiry .. => hs.execHoldExpiry
  | .resyncWaitExpiry .. => hs.execResyncWaitExpiry
  | .tagQuarantineRelease .. => hs.execTagQuarantineRelease
  | .spRtCmdGo .. => hs.execSpRtCmdGo
  | .spCommit .. => hs.execSpCommit
  | .collFrame .. => hs.execCollFrame
  | .collResultFrame .. => hs.execCollResultFrame
  | .collAbortFrame .. => hs.execCollAbortFrame
  | .collDeadlineExpiry .. => hs.execCollDeadlineExpiry
  | .collGraceExpiry .. => hs.execCollGraceExpiry
  | .pairFormationStart .. => hs.execPairFormationStart
  | .pairHello .. => hs.execPairHello
  | .syncDone .. => hs.execSyncDone
  | .journalMirror .. => hs.execJournalMirror
  | .queueMirror .. => hs.execQueueMirror
  | .checkpointMirror .. => hs.execCheckpointMirror
  | .headerMirror .. => hs.execHeaderMirror
  | .mirrorAck .. => hs.execMirrorAck
  | .yield .. => hs.execYield
  | .resetting .. => hs.execResetting
  | .resettingSuspensionEnd => hs.execResettingSuspensionEnd
  | .heartbeatSilence => hs.execHeartbeatSilence
  | .linkLossTimeout => hs.execLinkLossTimeout
  | .pairTakeoverCmd .. => hs.execPairTakeoverCmd
  | .pairSoloCmd .. => hs.execPairSoloCmd
  | .pairStanddownCmd .. => hs.execPairStanddownCmd
  | .pairRejoinCmd .. => hs.execPairRejoinCmd
  | .pairHandbackCmd .. => hs.execPairHandbackCmd
  | .pmCmdWake .. => hs.execPmCmdWake
  | .pmCmdW2 .. => hs.execPmCmdW2
  | .pmCmdW3 .. => hs.execPmCmdW3
  | .pmCmdW4 .. => hs.execPmCmdW4
  | .entryComplete => hs.execEntryComplete
  | .entryDrainTimeout => hs.execEntryDrainTimeout
  | .w1IdleEntry .. => hs.execW1IdleEntry
  | .w2AutoEntry .. => hs.execW2AutoEntry
  | .w3AutoEntry => hs.execW3AutoEntry
  | .wakeEvent .. => hs.execWakeEvent
  | .wakeStagingWellStart => hs.execWakeStagingWellStart
  | .domainReady .. => hs.execDomainReady
  | .powerGoodTimeout .. => hs.execPowerGoodTimeout
  | .pllLockTimeout .. => hs.execPllLockTimeout
  | .wakeRetry .. => hs.execWakeRetry
  | .referenceFault .. => hs.execReferenceFault
  | .referenceRecovery .. => hs.execReferenceRecovery
  | .referenceAbsentTimeout .. => hs.execReferenceAbsentTimeout
  | .alarmFire => hs.execAlarmFire
  | .timebaseLowRead => hs.execTimebaseLowRead
  | .timebaseCoarseClear => hs.execTimebaseCoarseClear
  | .sensorSweep .. => hs.execSensorSweep
  | .sensorHopTimeout .. => hs.execSensorHopTimeout
  | .faultReport .. => hs.execFaultReport
  | .fcRecordClear .. => hs.execFcRecordClear
  | .fcHoldoffExpiry => hs.execFcHoldoffExpiry
  | .fcAlertClear .. => hs.execFcAlertClear
  | .evFreeze .. => hs.execEvFreeze
  | .evClear .. => hs.execEvClear
  | .wellCmdFence .. => hs.execWellCmdFence
  | .wellCmdTest .. => hs.execWellCmdTest
  | .wellCmdRelease .. => hs.execWellCmdRelease
  | .registerWrite .. => hs.execRegisterWrite
  | .timebaseAdvance => hs.execTimebaseAdvance
  | .hbInToggle => hs.execHbInToggle
  | .pcieLinkDown .. => hs.execPcieLinkDown
  | .pcieLinkUp .. => hs.execPcieLinkUp
  | .fabricLinkFailure .. => hs.execFabricLinkFailure
  | .aquiferTrainingDone .. => hs.execAquiferTrainingDone
  | .reservoirPackageFailure .. => hs.execReservoirPackageFailure
  | .wellheadDomainFailure .. => hs.execWellheadDomainFailure
  | .discardedFrame .. => hs.execDiscardedFrame
  | .referenceGlitch .. => hs.execReferenceGlitch

end

/-- Settles O3: the command at the front of the queue keeps what `Keeps` says. -/
theorem stepKeepsMemoriesCanonical : Obligations.StepKeepsMemoriesCanonical := by
  intro s t ok h
  unfold step at h
  split at h
  · cases h
    exact ok
  next c rest _ => exact (Keeps.refl.exec c t h).mem ok

end Sys2Proof.Machine
end

section
/-!
SUPPORT. Loads and stores of the well controllers (R12, R38, R263).
-/
namespace Sys2Proof.Machine

/-! ### Fields of a word (R12, R183) -/

/-- A field is a slice of its word. -/
theorem toNat_extractLsb'_eq_bitsOf (i : Word) (hi lo : Nat) :
    (BitVec.extractLsb' lo (hi - lo + 1) i).toNat = bitsOf i hi lo := rfl

theorem signedOf_toNat {n : Nat} (x : BitVec n) : signedOf n x.toNat = x.toInt := by
  have pos : 0 < n → 2 ^ n = 2 * 2 ^ (n - 1) := fun h => by
    rw [← Nat.pow_succ', Nat.succ_eq_add_one, Nat.sub_add_cancel h]
  rw [signedOf, BitVec.toInt_eq_toNat_cond]
  obtain rfl | h := Nat.eq_zero_or_pos n
  · simp [BitVec.of_length_zero]
  · simp only [pos h]
    congr 1
    exact propext ⟨fun h => by omega, fun h => by omega⟩

theorem cImm46_eq (i : Word) : cImm46 i = (BitVec.extractLsb' 0 46 i).signExtend 64 := by
  rw [cImm46, ← toNat_extractLsb'_eq_bitsOf, signedOf_toNat, BitVec.signExtend]

/-- The effective address of R263. -/
theorem cAddr_eq (c : CtlCtx) (i : Word) :
    cAddr c i = (c.get (bitsOf i 50 46) + (BitVec.extractLsb' 0 46 i).signExtend 64).toNat := by
  rw [cAddr, cImm46_eq, cRs1]

theorem cKind_lds {i : Word} (h : opOf i = 0xA0) : cKind i = some .lds := by simp only [cKind, h]
theorem cKind_sts {i : Word} (h : opOf i = 0xA1) : cKind i = some .sts := by simp only [cKind, h]
theorem cKind_ldg {i : Word} (h : opOf i = 0xA2) : cKind i = some .ldg := by simp only [cKind, h]

/-! ### What a controller's step leaves -/

section
variable (s : State) (w : Nat)

@[simp] theorem State.well_setCtl (st : CtlState) (cx : CtlCtx) :
    (s.setCtl w st cx).well w = { s.well w with ctl := st, cx := cx } := s.well_setWell w _

theorem State.well_setCtl_ne {v : Nat} (h : v ≠ w) (st : CtlState) (cx : CtlCtx) :
    (s.setCtl w st cx).well v = s.well v := s.well_setWell_ne _ h

@[simp] theorem State.well_ctlGoes (n : Nat) : (s.ctlGoes w n).well w =
    { s.well w with ctl := .running, cx := { (s.well w).cx with pc := n, wait := .none } } := by
  simp [State.ctlGoes]

theorem State.well_ctlGoes_ne {v : Nat} (h : v ≠ w) (n : Nat) : (s.ctlGoes w n).well v = s.well v := by
  rw [State.ctlGoes, State.countEv_well, State.well_setCtl_ne _ _ h]

/-- A controller that goes on stores nothing. -/
theorem State.sameMem_ctlGoes (n : Nat) : sameMem s (s.ctlGoes w n) := (State.countEv_accessed _ w 0x19 1).sameMem

theorem State.incFld_frame (o hi lo n : Nat) : { s.incFld o hi lo n with regs := s.regs } = s := rfl

/-- A check of the instruction memory counts its corrected error, and no more (R260). -/
theorem State.checked_frame (ev : EccEv) : { s.checked w ev with regs := s.regs } = s := by
  unfold State.checked
  split
  · exact s.incFld_frame ..
  · rfl

theorem State.wells_checked (ev : EccEv) : (s.checked w ev).wells = s.wells :=
  (congrArg State.wells (s.checked_frame w ev) :)

@[simp] theorem State.ctlCtx_checked (ev : EccEv) (v : Nat) : (s.checked w ev).ctlCtx v = s.ctlCtx v := by
  conv_rhs => rw [← s.checked_frame w ev]
  rfl

theorem State.sameMem_checked (ev : EccEv) : sameMem s (s.checked w ev) := by
  have mem : sameMem { s.checked w ev with regs := s.regs } (s.checked w ev) := ⟨rfl, rfl, rfl, rfl, rfl, rfl⟩
  rwa [s.checked_frame w ev] at mem

end

theorem State.well_of_wells {s t : State} (h : t.wells = s.wells) (v : Nat) : t.well v = s.well v := by
  rw [State.well, h, State.well]

/-- The next instruction in order, inside the program (R262). -/
theorem cGo_pcNext {s t : State} {w : Nat} {ev : EccEv} (inside : (s.well w).cx.pc + 1 < (s.well w).plen) :
    cGo (s.checked w ev) t w ((s.checked w ev).pcNext w) = .next (t.ctlGoes w ((s.well w).cx.pc + 1)) := by
  have next : (s.checked w ev).pcNext w = ((s.well w).cx.pc + 1 : Nat) := by
    rw [State.pcNext, State.checked_well, Int.natCast_succ]
  rw [next, cGo_goes (Int.natCast_nonneg _) (by rw [State.checked_well]; exact_mod_cast inside), Int.toNat_natCast]

/-! ### Loads (R38, R263) -/

section
variable {s t u : State} {w : WellId} {ev : EccEv} {i v : Word}

/-- What accesses leave does not depend on the wells. -/
theorem accessed.withWells (h : accessed s t) (ws : Tab Well) :
    accessed { s with wells := ws } { t with wells := ws } := by
  obtain ⟨frame, fills, regs⟩ := h
  exact ⟨congrArg (fun x : State => { x with wells := ws }) frame, fills, regs⟩

theorem State.setCtl_frame (w : Nat) (st : CtlState) (cx : CtlCtx) :
    { s.setCtl w st cx with wells := s.wells } = s := rfl

/-- Beside the wells, a controller that goes on leaves a count (R770). -/
theorem State.ctlGoes_accessed (w n : Nat) (ws : Tab Well) :
    accessed { s with wells := ws } { s.ctlGoes w n with wells := ws } := by
  rw [State.ctlGoes]
  exact (State.countEv_accessed _ w 0x19 1).withWells ws

/-- A load: an access, RD written, and the controller at its next index. -/
theorem ctlRead_of_accessed (h : accessed (s.checked w ev) u) (d : Nat) (v : Word) (n : Nat) :
    ctlRead s ((u.setCtl w .running ((s.well w).cx.set d v)).ctlGoes w n) w ev d v n := by
  have wells : u.wells = s.wells := h.wells.trans (s.wells_checked w ev)
  refine ⟨?_, fun x hx => ?_, h.trans ?_⟩
  · simp [State.well_of_wells wells]
  · rw [State.well_ctlGoes_ne _ _ hx, State.well_setCtl_ne _ _ hx, State.well_of_wells wells]
  · rw [← wells]
    have goes := (u.setCtl w .running ((s.well w).cx.set d v)).ctlGoes_accessed w n u.wells
    rwa [State.setCtl_frame] at goes

variable (clean : ev ≠ .uncorrectable) (at_ : s.ctlAt w i) (inside : (s.well w).cx.pc + 1 < (s.well w).plen)
include clean at_ inside

theorem exec_lds (op : opOf i = 0xA0) (aligned : cAddr (s.well w).cx i % 8 = 0)
    (read : (s.checked w ev).readWord (s.ctlCtx w) (cAddr (s.well w).cx i) = .ok v) :
    exec (.lds w ev) s = .next
      ((((s.checked w ev).readVia w (s.ctlCtx w) (cAddr (s.well w).cx i) 8).setCtl w .running
        ((s.well w).cx.set (cRd i) v)).ctlGoes w ((s.well w).cx.pc + 1)) := by
  change execLds w ev s = _
  rw [execLds, cStep_runs at_ clean (cKind_lds op)]
  simp only [aligned, ne_eq, not_true_eq_false, if_false, State.ctlCtx_checked, read, cGo_pcNext inside]

theorem exec_ldg (op : opOf i = 0xA2) (aligned : cAddr (s.well w).cx i % 16 = 0)
    (read : (s.checked w ev).readGuard64 (s.ctlCtx w) (cAddr (s.well w).cx i) = .ok v) :
    exec (.ldg w ev) s = .next
      ((((s.checked w ev).readVia w (s.ctlCtx w) (cAddr (s.well w).cx i) 16).setCtl w .running
        ((s.well w).cx.set (cRd i) v)).ctlGoes w ((s.well w).cx.pc + 1)) := by
  change execLdg w ev s = _
  rw [execLdg, cStep_runs at_ clean (cKind_ldg op)]
  simp only [aligned, ne_eq, not_true_eq_false, if_false, State.ctlCtx_checked, read, cGo_pcNext inside]

/-! ### Stores (R12, R263) -/

theorem exec_sts (op : opOf i = 0xA1) (aligned : cAddr (s.well w).cx i % 8 = 0)
    (write : (s.checked w ev).writeVa (s.ctlCtx w) (cAddr (s.well w).cx i)
      (leBytes 8 ((s.well w).cx.get (cRd i)).toNat) = .ok u) :
    exec (.sts w ev) s = .next
      ((u.wroteVia w (s.ctlCtx w) (cAddr (s.well w).cx i) 8).ctlGoes w ((s.well w).cx.pc + 1)) := by
  change execSts w ev s = _
  rw [execSts, cStep_runs at_ clean (cKind_sts op)]
  simp only [aligned, ne_eq, not_true_eq_false, if_false, State.ctlCtx_checked, write, cGo_pcNext inside]

end

section
variable {s t : State} {ctx va : Nat} {bs : List Byte} {l : Loc}

@[simp] theorem length_leBytes : ∀ n v : Nat, (leBytes n v).length = n
  | 0, _ => rfl
  | n + 1, v => congrArg (· + 1) (length_leBytes n (v / 256))

/-- An address that translates is one of 56 bits (R424). -/
theorem State.lt_of_translate {write : Bool} (h : s.translate ctx va write = .ok l) : va < 2 ^ 56 := by
  by_contra big
  rw [State.translate, State.leafOf, if_pos (Nat.not_lt.mp big)] at h
  cases h

/-- Bytes of one page that translates, with no block uncorrectable under them, are written. -/
theorem State.exists_writeVa (hn : 0 < bs.length) (page : va % 65536 + bs.length ≤ 65536)
    (hl : s.translate ctx va true = .ok l) (sound : (s.clearPoison l bs.length).badBlock l bs.length = none) :
    ∃ t, s.writeVa ctx va bs = .ok t := by
  have lt := State.lt_of_translate hl
  have room : ¬ 2 ^ 56 < va + bs.length := by omega
  refine ⟨(s.clearPoison l bs.length).rawWrite l bs, ?_⟩
  rw [State.writeVa, runsOf_of_within hn page, if_neg room]
  simp [hl, sound, bind, Except.bind, pure, Except.pure]

theorem State.rawRead_of_sameMem (h : sameMem s t) (x : Loc) (n : Nat) : t.rawRead x n = s.rawRead x n := by
  obtain ⟨cistern, reservoir, aquifer, host, -, -⟩ := h
  simp only [State.rawRead, cistern, reservoir, aquifer, host]

theorem sameMem.trans {u : State} (h : sameMem s t) (k : sameMem t u) : sameMem s u := by
  obtain ⟨h1, h2, h3, h4, h5, h6⟩ := h
  obtain ⟨k1, k2, k3, k4, k5, k6⟩ := k
  exact ⟨k1.trans h1, k2.trans h2, k3.trans h3, k4.trans h4, k5.trans h5, k6.trans h6⟩

/-- What is stored depends on the memories alone. -/
theorem stored.of_sameMem {s' t' : State} (h : stored s t l bs) (hs : sameMem s' s) (ht : sameMem t t') :
    stored s' t' l bs := by
  obtain ⟨at_, elsewhere⟩ := h
  refine ⟨(State.rawRead_of_sameMem ht l _).trans at_, fun x hx ho => ?_⟩
  rw [State.rawRead_of_sameMem ht, elsewhere x hx ho, State.rawRead_of_sameMem hs]

end

/-- Settles O11: a load leaves its access beside RD and the next index, and a store is that of `virtualStoreIsReadBack`,
whose eight bytes lie within one page because they are aligned. -/
theorem controllerLoadsAndStores : Obligations.ControllerLoadsAndStores := by
  refine ⟨fun s w ev word v clean at_ inside => ?_, fun s w ev word l clean at_ inside op => ?_⟩
  · intro c a
    rw [show a = cAddr c word from (cAddr_eq c word).symm]
    exact ⟨
      fun op aligned read =>
        ⟨_, exec_lds clean at_ inside op aligned read, ctlRead_of_accessed (State.readVia_accessed ..) _ v _⟩,
      fun op aligned read =>
        ⟨_, exec_ldg clean at_ inside op aligned read, ctlRead_of_accessed (State.readVia_accessed ..) _ v _⟩⟩
  · intro c a u aligned place sound
    have addr : a = cAddr c word := (cAddr_eq c word).symm
    let bs := leBytes 8 (c.get (cRd word)).toNat
    have len : bs.length = 8 := length_leBytes 8 _
    have page : a % 65536 + bs.length ≤ 65536 := by omega
    have some_bytes : 0 < bs.length := by omega
    obtain ⟨t, write⟩ := State.exists_writeVa some_bytes page place (by rwa [len])
    obtain ⟨bytes, frame⟩ := virtualStoreIsReadBack u t _ a bs l some_bytes page place write
    have access := t.wroteVia_accessed w (s.ctlCtx w) (cAddr c word) 8
    have wells : (t.wroteVia w (s.ctlCtx w) (cAddr c word) 8).wells = s.wells :=
      access.wells.trans ((congrArg State.wells frame).trans (s.wells_checked w ev))
    refine ⟨_, exec_sts clean at_ inside op (addr ▸ aligned) (addr ▸ write), ?_, ?_, fun x hx => ?_⟩
    · exact bytes.of_sameMem (s.sameMem_checked w ev) (access.sameMem.trans (State.sameMem_ctlGoes ..))
    · rw [State.well_ctlGoes, State.well_of_wells wells]
    · rw [State.well_ctlGoes_ne _ _ hx, State.well_of_wells wells]

end Sys2Proof.Machine
end

section
/-!
SUPPORT. What a cold reset makes of the bobbins' table (R738, R752).
-/
namespace Sys2Proof.Machine

variable {s t : State}

/-- Of each listed bobbin, what the aquifer reserve lists stays; the registers set beside it are no part of the table. -/
theorem State.bobs_coldBase : s.coldBase.bobs = tabMap {} (fun _ b => { listed := b.listed }) s.bobs := by
  unfold State.coldBase
  extract_lets base sync bobs pw links pair kept marked
  refine List.foldlRecOn (motive := fun u : State => u.bobs = bobs) _ _ ?_ fun u same k _ => ?_
  · simp only [marked, kept, State.setFld_bobs]
  · rw [apply_ite State.bobs, State.setFld_bobs, ite_self, same]

@[simp] theorem State.keepMgmt_bobs (old : State) : (s.keepMgmt old).bobs = s.bobs := rfl

theorem State.bobs_of_coldReset (run : exec .coldReset s = .next t) :
    t.bobs = tabMap {} (fun _ b => { listed := b.listed }) s.bobs := by
  have result : execColdReset s = .next t := run
  rw [execColdReset, Host.Outcome.next.injEq] at result
  rw [← result, State.modPw_bobs, State.setFld_bobs, State.keepMgmt_bobs, State.bobs_coldBase]

/-- Refutes O58: the statement speaks of every state, and so of one whose table of bobbins lists key 0 twice, first listed
as failing and then not. A read takes the first entry, and the `tabMap` of a cold reset leaves the last, so the bobbin's
place in the aquifer reserve is lost. A canonical table (`tabWf`) lists no key twice. -/
theorem not_supplyAndLinksLoseTheirState : ¬ Obligations.SupplyAndLinksLoseTheirState := by
  intro h
  obtain ⟨supply, -⟩ := h
  obtain ⟨⟨t, run, keeps, -⟩, -⟩ := supply { bobs := [(0, { listed := true }), (0, {})] }
  obtain ⟨-, -, -, -, listed⟩ := keeps
  have none_left : t.bobs = [] := State.bobs_of_coldReset run
  have unlisted : (t.bob 0 0).listed = false := by
    rw [State.bob, none_left]
    rfl
  have was_listed : (t.bob 0 0).listed = true := listed 0 0
  exact absurd was_listed (Bool.eq_false_iff.mp unlisted)

end Sys2Proof.Machine
end

section
/-!
SUPPORT. Waits, fences and the end of a program on the well controllers (R265, R268, R274, R278, R309, R310), and what a
controller exception leaves (R277).
-/
namespace Sys2Proof.Machine

/-! ### Control instructions at their word (R265 to R268, R271, R274) -/

section
variable {s : State} {w : WellId} {ev : EccEv} {i : Word} (clean : ev ≠ .uncorrectable) (at_ : s.ctlAt w i)
include clean at_

theorem exec_walkStart (kind : cKind i = some .walk) :
    let u := s.checked w ev
    exec (.walkStart w ev) s = u.ctlScratch w (wrecAt (u.wellSlot w) (bitsOf i 15 0 % 64))
      (if u.walkReady w (u.wellSlot w) (bitsOf i 15 0) then u.doWalk w (s.well w).cx i
      else .next (u.stallCtl w (.walkAccept u.now))) :=
  (cStep_runs at_ clean kind _ : execWalkStart w ev s = _)

theorem exec_waitWalk (kind : cKind i = some .waitWalk) :
    let u := s.checked w ev
    let k := u.wellSlot w
    exec (.waitWalk w ev) s =
      if u.waitWalkOk w k (bitOf i 16) (bitsOf i 15 0) then
        cGo u (u.sawWalk w k (bitOf i 16) (bitsOf i 15 0)) w (u.pcNext w)
      else .next (u.stallCtl w (.walk (bitOf i 16) (bitsOf i 15 0))) :=
  (cStep_runs at_ clean kind _ : execWaitWalk w ev s = _)

theorem exec_waitEvent (kind : cKind i = some .waitEvent) :
    let u := s.checked w ev
    let k := u.wellSlot w
    let n := ((s.well w).cx.get (bitsOf i 55 51)).toNat
    exec (.waitEvent w ev) s = u.ctlScratch w (eventAt k (bitsOf i 15 0))
      (if n ≤ u.event w k (bitsOf i 15 0) then cGo u u w (u.pcNext w)
      else .next (u.stallCtl w (.event (bitsOf i 15 0) n u.now))) :=
  (cStep_runs at_ clean kind _ : execWaitEvent w ev s = _)

theorem exec_waitPump (kind : cKind i = some .waitPump) :
    let u := s.checked w ev
    exec (.waitPump w ev) s =
      if u.pumpsDone w (bitOf i 16) (bitsOf i 15 0) then cGo u u w (u.pcNext w)
      else .next (u.stallCtl w (.pump (bitOf i 16) (bitsOf i 15 0))) :=
  (cStep_runs at_ clean kind _ : execWaitPump w ev s = _)

theorem exec_fenceStore (kind : cKind i = some .fenceStore) :
    let u := s.checked w ev
    exec (.fenceStore w ev) s = cGo u u w (u.pcNext w) :=
  (cStep_runs at_ clean kind _ : execFenceStore w ev s = _)

theorem exec_fenceWell (kind : cKind i = some .fenceWell) :
    let u := s.checked w ev
    exec (.fenceWell w ev) s =
      if u.wellDone w then cGo u (u.sawWalk w (u.wellSlot w) true 0) w (u.pcNext w)
      else .next (u.stallCtl w .fenceWell) :=
  (cStep_runs at_ clean kind _ : execFenceWell w ev s = _)

theorem exec_pumpStart_full (kind : cKind i = some .pump) (busy : (s.checked w ev).freePumpNo w = none) :
    exec (.pumpStart w ev) s = .next ((s.checked w ev).stallCtl w .pumpAccept) := by
  change execPumpStart w ev s = _
  rw [execPumpStart, cStep_runs at_ clean kind, busy]

theorem exec_halt (kind : cKind i = some .halt) :
    let u := s.checked w ev
    exec (.halt w ev) s = if u.haltOk w then .next (u.haltWell w) else .next (u.stallCtl w .halt) :=
  (cStep_runs at_ clean kind _ : execHalt w ev s = _)

end

/-! ### The end of a program (R127, R274) -/

section
variable {s : State} {w : Nat}

/-- The controller of well w ends its program, its instruction counted (R274, R770). -/
def State.ctlHalts (s : State) (w : Nat) : State :=
  (s.setCtl w .halted { (s.well w).cx with wait := .none }).countEv w 0x19 1

@[simp] theorem State.well_ctlHalts :
    (s.ctlHalts w).well w = { s.well w with ctl := .halted, cx := { (s.well w).cx with wait := .none } } := by
  simp [State.ctlHalts]

theorem State.well_ctlHalts_ne {v : Nat} (h : v ≠ w) : (s.ctlHalts w).well v = s.well v := by
  rw [State.ctlHalts, State.countEv_well, State.well_setCtl_ne _ _ h]

theorem State.ctlHalts_frame : { s.ctlHalts w with wells := s.wells, regs := s.regs } = s :=
  (congrArg (fun u : State => { u with wells := s.wells })
    (State.countEv_rest (s.setCtl w .halted { (s.well w).cx with wait := .none }) w 0x19 1) :)

theorem State.jobs_ctlHalts : (s.ctlHalts w).jobs = s.jobs := (congrArg State.jobs s.ctlHalts_frame :)

/-- A HALT ends its well's program; beside that it can only end a job. -/
theorem State.haltWell_eq : ∃ jobs, s.haltWell w = { s.ctlHalts w with jobs := jobs } := by
  unfold State.haltWell
  dsimp only
  split
  · exact ⟨_, rfl⟩
  · split
    · exact ⟨_, rfl⟩
    · split <;> exact ⟨_, rfl⟩

theorem State.haltWell_well (v : Nat) : (s.haltWell w).well v = (s.ctlHalts w).well v := by
  obtain ⟨jobs, e⟩ := s.haltWell_eq (w := w)
  rw [e]
  rfl

theorem State.haltWell_frame : { s.haltWell w with wells := s.wells, regs := s.regs, jobs := s.jobs } = s := by
  obtain ⟨jobs, e⟩ := s.haltWell_eq (w := w)
  rw [e]
  exact (congrArg (fun u : State => { u with jobs := s.jobs }) s.ctlHalts_frame :)

theorem State.job_modJob {j : Nat} {x : Job} (h : s.job j = some x) (f : Job → Job) :
    (s.modJob j f).job j = some (f x) := by
  rw [State.job] at h ⊢
  simp [State.modJob, h]

theorem State.job_modJob_ne {j i : Nat} (h : i ≠ j) (f : Job → Job) : (s.modJob j f).job i = s.job i := by
  simp [State.job, State.modJob, Ne.symm h]

/-- The last well's HALT ends its job (R127, R274). -/
theorem State.haltWell_of_last {j : Nat} {x : Job} (bound : (s.well w).job = some j) (job : s.job j = some x)
    (none_yet : x.status = none) (last : ∀ v ∈ x.wells, v = w ∨ (s.well v).ctl = .halted) :
    s.haltWell w = (s.ctlHalts w).modJob j
      (fun y => { y with status := some (if y.widened then 1 else 0), phase := .stopping }) := by
  have job' : (s.ctlHalts w).job j = some x := by
    rw [← job, State.job, State.job, State.jobs_ctlHalts]
  have all_halted : ∀ v ∈ x.wells, ((s.ctlHalts w).well v).ctl = .halted := fun v hv => by
    by_cases same : v = w
    · rw [same, State.well_ctlHalts]
    · rw [State.well_ctlHalts_ne same]
      exact (last v hv).resolve_left same
  rw [State.ctlHalts] at job' all_halted
  simp only [State.haltWell, bound, job']
  simp only [none_yet, Option.isNone_none, Bool.and_true, List.all_eq_true, decide_eq_true_eq]
  exact if_pos all_halted

end

/-! ### The end of a job by its status (R277, R619) -/

section
variable {s : State} {j status addr : Nat}

/-- The job's status ends its controllers; it changes nothing but jobs and wells. -/
theorem State.failJob_eq : ∃ jobs wells, s.failJob j status addr = { s with jobs := jobs, wells := wells } := by
  unfold State.failJob
  split
  · exact ⟨_, _, rfl⟩
  · dsimp only
    split
    · exact ⟨_, _, rfl⟩
    · refine List.foldlRecOn (motive := fun t : State => ∃ jobs wells, t = { s with jobs := jobs, wells := wells }) _ _
        ⟨_, _, rfl⟩ ?_
      rintro _ ⟨jobs, wells, rfl⟩ v -
      split
      · exact ⟨_, _, rfl⟩
      · exact ⟨_, _, rfl⟩

theorem State.sameMem_failJob : sameMem s (s.failJob j status addr) := by
  obtain ⟨jobs, wells, e⟩ := s.failJob_eq (j := j) (status := status) (addr := addr)
  rw [e]
  exact ⟨rfl, rfl, rfl, rfl, rfl, rfl⟩

theorem State.reg_failJob (o : Nat) : (s.failJob j status addr).reg o = s.reg o := by
  obtain ⟨jobs, wells, e⟩ := s.failJob_eq (j := j) (status := status) (addr := addr)
  rw [e]
  rfl

/-- A controller that has faulted stays so when its job ends. -/
theorem State.faulted_failJob {w : Nat} (h : (s.well w).ctl = .faulted) :
    ((s.failJob j status addr).well w).ctl = .faulted := by
  unfold State.failJob
  split
  · exact h
  · dsimp only
    split
    · exact h
    · refine List.foldlRecOn (motive := fun t : State => (t.well w).ctl = .faulted) _ _ h fun t faulted v _ => ?_
      split
      · by_cases same : w = v
        · subst same
          simp [faulted]
        · rwa [State.well_setWell_ne _ _ same]
      · exact faulted

/-- A job without a status that has not committed takes the status, and no other job changes. -/
theorem State.jobs_failJob {x : Job} (job : s.job j = some x) (none_yet : x.status = none)
    (open_ : x.phase ≠ .committed) : (s.failJob j status addr).jobs =
      (s.modJob j (fun y => { y with status := some status, addr := addr, phase := .stopping })).jobs := by
  simp only [State.failJob, job, none_yet, open_, Option.isSome_none, decide_false, Bool.or_self,
    Bool.false_eq_true, if_false]
  refine List.foldlRecOn (motive := fun t : State => t.jobs =
    (s.modJob j (fun y => { y with status := some status, addr := addr, phase := .stopping })).jobs) _ _ rfl
    fun t same v _ => ?_
  split
  · exact same
  · exact same

end

/-! ### Controller exceptions (R277) -/

section
variable {s : State} {w cause status detail : Nat}

/-- The state in which a controller exception of well w is recorded and reported (R277). -/
def State.excNoted (s : State) (w cause status detail : Nat) : State :=
  (s.latch (rWlCtlExc w)
    (setBits (setBits (setBits 0#64 51 48 cause) 47 32 (s.well w).cx.pc) 31 24 status)).reportSelf w 0x4
      (if status = 0 then 0 else 1) 144 detail

/-- A terminating exception stops its controller, and ends the job of the well where it has one. -/
theorem State.ctlExc_terminates (terminates : status ≠ 0) :
    let t := (s.excNoted w cause status detail).setCtl w .faulted { (s.well w).cx with wait := .none }
    s.ctlExc w cause status detail = t ∨ ∃ j addr, s.ctlExc w cause status detail = t.failJob j status addr := by
  intro t
  simp only [State.ctlExc, terminates, if_false]
  split
  next j _ =>
    refine .inr ⟨j, if cause = 1 ∨ cause = 2 ∨ cause = 8 then detail else 0, ?_⟩
    simp only [t, State.excNoted, terminates, if_false]
  next =>
    left
    simp only [t, State.excNoted, terminates, if_false]

theorem State.faulted_ctlExc (terminates : status ≠ 0) :
    ((s.ctlExc w cause status detail).well w).ctl = .faulted := by
  have stopped (t : State) (cx : CtlCtx) : ((t.setCtl w .faulted cx).well w).ctl = .faulted := by
    rw [State.well_setCtl]
  obtain e | ⟨j, addr, e⟩ := s.ctlExc_terminates (cause := cause) (w := w) (detail := detail) terminates
  · rw [e, stopped]
  · rw [e, State.faulted_failJob (stopped _ _)]

theorem State.onlyRegs_latch (o : Nat) (v : Word) : OnlyRegs s (s.latch o v) :=
  OnlyRegs.refl.setFld.ite OnlyRegs.refl.setReg

theorem OnlyRegs.sameMem {t : State} (h : OnlyRegs s t) : sameMem s t := by
  obtain ⟨regs, rfl⟩ := h
  exact ⟨rfl, rfl, rfl, rfl, rfl, rfl⟩

theorem State.sameMem_ctlExc (terminates : status ≠ 0) : sameMem s (s.ctlExc w cause status detail) := by
  have noted : sameMem s (s.excNoted w cause status detail) :=
    (s.onlyRegs_latch _ _).sameMem.trans (State.sameMem_reportSelf ..)
  obtain e | ⟨j, addr, e⟩ := s.ctlExc_terminates (cause := cause) (w := w) (detail := detail) terminates
  · rw [e]
    exact noted
  · rw [e]
    exact noted.trans State.sameMem_failJob

/-- The record of a controller exception: cause, index and status, with the OVERRUN that stood there (R14, R277). -/
theorem excRecord_eq (cause pc status overrun : Nat) :
    setBits (setBits (setBits (setBits (setBits 0#64 51 48 cause) 47 32 pc) 31 24 status) 63 63 1) 62 62 overrun
      = BitVec.ofNat 64 (2 ^ 63 + overrun % 2 * 2 ^ 62 + cause % 16 * 2 ^ 48 + pc % 65536 * 2 ^ 32
          + status % 256 * 2 ^ 24) := by
  refine BitVec.eq_of_toNat_eq ?_
  simp only [setBits, BitVec.toNat_ofNat]
  omega

theorem State.fld_bit_lt (o i : Nat) : s.fld o i i < 2 := by
  rw [State.fld, bitsOf, Nat.sub_self]
  exact Nat.mod_lt _ (by decide)

/-- What ends after a terminating exception leaves the registers as the exception was noted. -/
theorem State.reg_ctlExc (terminates : status ≠ 0) (o : Nat) :
    (s.ctlExc w cause status detail).reg o = (s.excNoted w cause status detail).reg o := by
  obtain e | ⟨j, addr, e⟩ := s.ctlExc_terminates (cause := cause) (w := w) (detail := detail) terminates
  · rw [e]
    rfl
  · rw [e, State.reg_failJob]
    rfl

/-- The first exception of a controller stands in its record (R14, R277). -/
theorem State.record_ctlExc (terminates : status ≠ 0) (first : bitOf (s.reg (rWlCtlExc w)) 63 = false) :
    (s.ctlExc w cause status detail).reg (rWlCtlExc w) =
      BitVec.ofNat 64 (2 ^ 63 + s.fld (rWlCtlExc w) 62 62 * 2 ^ 62 + cause % 16 * 2 ^ 48
        + (s.well w).cx.pc % 65536 * 2 ^ 32 + status % 256 * 2 ^ 24) := by
  have apart : rWlCtlExc w ∉ reportRegs (16 * w + 0x4) := by
    simp only [reportRegs, List.mem_cons, List.not_mem_nil, or_false, not_or, rWlCtlExc, rWl, rFcRec, rFcTb, rFcDet,
      rFcSummary, rFcAlert]
    omega
  rw [State.reg_ctlExc terminates, State.excNoted, State.reportSelf, State.reg_report apart, State.latch,
    if_neg (by simp [first]), State.reg_setReg, excRecord_eq, Nat.mod_eq_of_lt (State.fld_bit_lt ..)]

end

/-! ### Stalled controllers (R265, R278) -/

section
variable {s : State} {w : WellId} (stalled : (s.well w).ctl = .stalled)
include stalled

theorem exec_controllerStallRelease :
    exec (.controllerStallRelease w) s = s.release w (s.well w) (s.imWord w (s.well w).cx.pc) :=
  need_of (decide_eq_true stalled) 265 _

theorem exec_release_walkAccept {since : Nat} (wait : (s.well w).cx.wait = .walkAccept since) :
    let i := s.imWord w (s.well w).cx.pc
    exec (.controllerStallRelease w) s = s.ctlScratch w (wrecAt (s.wellSlot w) (bitsOf i 15 0 % 64))
      (need (s.walkReady w (s.wellSlot w) (bitsOf i 15 0)) 266 (s.doWalk w (s.well w).cx i)) := by
  rw [exec_controllerStallRelease stalled, State.release]
  simp only [wait]

theorem exec_release_walk {all : Bool} {tag : Nat} (wait : (s.well w).cx.wait = .walk all tag) :
    exec (.controllerStallRelease w) s = need (s.waitWalkOk w (s.wellSlot w) all tag) 265
      (cGo s (s.sawWalk w (s.wellSlot w) all tag) w (s.pcNext w)) := by
  rw [exec_controllerStallRelease stalled, State.release]
  simp only [wait]

theorem exec_release_event {e n since : Nat} (wait : (s.well w).cx.wait = .event e n since) :
    exec (.controllerStallRelease w) s = s.ctlScratch w (eventAt (s.wellSlot w) e)
      (need (decide (n ≤ s.event w (s.wellSlot w) e)) 268 (cGo s s w (s.pcNext w))) := by
  rw [exec_controllerStallRelease stalled, State.release]
  simp only [wait]

theorem exec_release_pump {all : Bool} {tag : Nat} (wait : (s.well w).cx.wait = .pump all tag) :
    exec (.controllerStallRelease w) s = need (s.pumpsDone w all tag) 265 (cGo s s w (s.pcNext w)) := by
  rw [exec_controllerStallRelease stalled, State.release]
  simp only [wait]

theorem exec_release_pumpAccept (wait : (s.well w).cx.wait = .pumpAccept) :
    exec (.controllerStallRelease w) s = needSome (s.freePumpNo w) 271
      (fun n => s.doPump w (s.well w).cx (s.imWord w (s.well w).cx.pc) n) := by
  rw [exec_controllerStallRelease stalled, State.release]
  simp only [wait]

theorem exec_release_fenceWell (wait : (s.well w).cx.wait = .fenceWell) :
    exec (.controllerStallRelease w) s = need (s.wellDone w) 265
      (cGo s (s.sawWalk w (s.wellSlot w) true 0) w (s.pcNext w)) := by
  rw [exec_controllerStallRelease stalled, State.release]
  simp only [wait]

theorem exec_release_fencePart (wait : (s.well w).cx.wait = .fencePart true) :
    exec (.controllerStallRelease w) s = needSome (s.wellJob w) 269 (fun jx =>
      needSome (s.decisionOf true 0 ((s.well w).fences - 1) jx.1) 269 (fun d => s.passFence w jx.1 d)) := by
  rw [exec_controllerStallRelease stalled, State.release]
  simp only [wait]

theorem exec_release_halt (wait : (s.well w).cx.wait = .halt) :
    exec (.controllerStallRelease w) s = need (s.haltOk w) 274 (.next (s.haltWell w)) := by
  rw [exec_controllerStallRelease stalled, State.release]
  simp only [wait]

end

/-- The next instruction in order after a release, inside the program (R262). -/
theorem cGo_pcNext_released {s t : State} {w : Nat} (inside : (s.well w).cx.pc + 1 < (s.well w).plen) :
    cGo s t w (s.pcNext w) = .next (t.ctlGoes w ((s.well w).cx.pc + 1)) :=
  cGo_pcNext (ev := .clean) inside

/-- A fence decided OK, whose layer is over and whose FENCE WELL holds, ends the layer of its well (R269, R286). -/
theorem State.passFence_of_settled {s : State} {w j : Nat} {d : Decision}
    (inside : (s.well w).cx.pc + 1 < (s.well w).plen) (ok : d.status = 0) (settled : s.fenceSettled w j = true)
    (done_ : s.wellDone w = true) :
    let t := s.sawWalk w (s.wellSlot w) true 0
    s.passFence w j d = .next ((t.setWell w { t.well w with layer := {} }).ctlGoes w ((s.well w).cx.pc + 1)) := by
  intro t
  simp only [State.passFence, ok, settled, done_, ne_eq, not_true_eq_false, if_false, Bool.and_self, Bool.not_true,
    Bool.false_eq_true, cGo_pcNext_released inside, t]

/-! ### Limits (R268, R310) -/

section
variable {s : State} {w : WellId} (stalled : (s.well w).ctl = .stalled) (runs : s.wellRuns w = true) {since : Nat}
  (late : since + s.evtLimit w < s.now)
include stalled runs late

theorem exec_waitEventLimitExpiry {e n : Nat} (wait : (s.well w).cx.wait = .event e n since)
    (below : s.event w (s.wellSlot w) e < n) :
    exec (.waitEventLimitExpiry w) s = .next (s.ctlExc w 6 0x7F ((s.well w).cx.pc + e * 65536)) := by
  change execWaitEventLimitExpiry w s = _
  simp only [execWaitEventLimitExpiry, wait, stalled, late, below, runs, and_self, decide_true, Bool.and_self]
  rfl

theorem exec_walkRecordStallTimeout {j : Nat} (wait : (s.well w).cx.wait = .walkAccept since)
    (live : (s.wrec w (s.wellSlot w) (bitsOf (s.imWord w (s.well w).cx.pc) 15 0 % 64)).live = true)
    (bound : (s.well w).job = some j) :
    exec (.walkRecordStallTimeout w) s = .next
      (s.endByWalker w 145 0x5 j 0x7F 0 (bitsOf (s.imWord w (s.well w).cx.pc) 15 0)) := by
  change execWalkRecordStallTimeout w s = _
  simp only [execWalkRecordStallTimeout, wait, stalled, late, live, runs, bound, and_self, decide_true,
    Bool.and_self]
  rfl

end

theorem State.wellRuns_of {s : State} {w j : Nat} {x : Job} (bound : (s.well w).job = some j)
    (job : s.job j = some x) (running : x.phase = .running) : s.wellRuns w = true := by
  simp [State.wellRuns, bound, job, running]

/-- A job that its walker or controller ends takes the status, and no memory and no other job changes (R619). -/
theorem State.endByWalker_ends {s : State} {w u cls j status addr detail : Nat} {x : Job} (job : s.job j = some x)
    (none_yet : x.status = none) (open_ : x.phase ≠ .committed) :
    let t := s.endByWalker w u cls j status addr detail
    sameMem s t ∧ t.job j = some { x with status := some status, addr := addr, phase := .stopping }
      ∧ ∀ i, i ≠ j → t.job i = s.job i := by
  intro t
  have same : (s.reportSelf w cls 1 u detail).jobs = s.jobs := State.jobs_reportSelf ..
  have job' : (s.reportSelf w cls 1 u detail).job j = some x := by rw [State.job, same, ← job, State.job]
  have jobs : t.jobs = (s.modJob j
      (fun y => { y with status := some status, addr := addr, phase := .stopping })).jobs := by
    rw [State.modJob, ← same]
    exact State.jobs_failJob job' none_yet open_
  refine ⟨(State.sameMem_reportSelf ..).trans State.sameMem_failJob, ?_, fun i other => ?_⟩
  · rw [State.job, jobs]
    exact State.job_modJob job _
  · rw [State.job, jobs]
    exact State.job_modJob_ne other _

/-! ### HALT (R127, R274) -/

section
variable {s : State} {w : WellId} {ev : EccEv} {word : Word}

theorem State.jobs_checked (w : Nat) : (s.checked w ev).jobs = s.jobs :=
  (congrArg State.jobs (s.checked_frame w ev) :)

/-- A HALT whose condition holds: its well's program ends, and with the last one the job (R127, R274). -/
theorem exec_halt_ends (clean : ev ≠ .uncorrectable) (at_ : s.ctlAt w word) (kind : cKind word = some .halt)
    (ok : (s.checked w ev).haltOk w = true) :
    ∃ t, exec (.halt w ev) s = .next t ∧ (t.well w).ctl = .halted ∧ (t.well w).cx.pc = (s.well w).cx.pc
      ∧ (∀ v, v ≠ w.val → t.well v = s.well v) ∧ { t with wells := s.wells, regs := s.regs, jobs := s.jobs } = s
      ∧ ∀ j x, (s.well w).job = some j → s.job j = some x → x.status = none →
          (∀ v ∈ x.wells, v = w.val ∨ (s.well v).ctl = .halted) →
          t.job j = some { x with status := some (if x.widened then 1 else 0), phase := .stopping } := by
  refine ⟨(s.checked w ev).haltWell w, (exec_halt clean at_ kind).trans (if_pos ok), ?_, ?_, fun v other => ?_, ?_,
    fun j x bound job none_yet last => ?_⟩
  · rw [State.haltWell_well, State.well_ctlHalts]
  · rw [State.haltWell_well, State.well_ctlHalts, State.checked_well]
  · rw [State.haltWell_well, State.well_ctlHalts_ne other, State.checked_well]
  · have frame := (s.checked w ev).haltWell_frame (w := w)
    rw [State.jobs_checked, State.wells_checked] at frame
    exact (congrArg (fun u : State => { u with regs := s.regs }) frame).trans (s.checked_frame w ev)
  · have job' : (s.checked w ev).job j = some x := by rw [State.job, State.jobs_checked, ← job, State.job]
    rw [State.haltWell_of_last (by rwa [State.checked_well]) job' none_yet (by simpa using last)]
    exact State.job_modJob (by rw [State.job, State.jobs_ctlHalts]; exact job') _

end

/-- Settles O12: each control instruction is its equation at its word, each release that of its wait, and a next state
follows from the branch that its condition takes; the end of a job is that of `haltWell`, and that of a limit the
exception's or the walker's. -/
theorem controllerWaitsGoOnStallOrEnd : Obligations.ControllerWaitsGoOnStallOrEnd := by
  refine ⟨fun s w ev word clean at_ => ?_, fun s w ev word clean at_ => ?_, fun s w stalled => ?_, fun s w => ?_⟩
  · intro u k pc
    refine ⟨fun inside => ⟨fun kind ok => ?_, fun kind sound reached => ?_, fun kind ok => ?_, fun kind => ?_,
      fun kind ok => ?_⟩, exec_halt_ends clean at_⟩
    · exact (exec_waitWalk clean at_ kind).trans ((if_pos ok).trans (cGo_pcNext inside))
    · exact (exec_waitEvent clean at_ kind).trans
        ((State.ctlScratch_of_ok sound _).trans ((if_pos reached).trans (cGo_pcNext inside)))
    · exact (exec_waitPump clean at_ kind).trans ((if_pos ok).trans (cGo_pcNext inside))
    · exact (exec_fenceStore clean at_ kind).trans (cGo_pcNext inside)
    · exact (exec_fenceWell clean at_ kind).trans ((if_pos ok).trans (cGo_pcNext inside))
  · intro u k
    refine ⟨fun kind sound no => ?_, fun kind no => ?_, fun kind sound below => ?_, fun kind no => ?_,
      fun kind no => ?_, fun kind busy => ?_, fun kind no => ?_⟩
    · exact (exec_walkStart clean at_ kind).trans
        ((State.ctlScratch_of_ok sound _).trans (if_neg (Bool.eq_false_iff.mp no)))
    · exact (exec_waitWalk clean at_ kind).trans (if_neg (Bool.eq_false_iff.mp no))
    · exact (exec_waitEvent clean at_ kind).trans
        ((State.ctlScratch_of_ok sound _).trans (if_neg (Nat.not_le.mpr below)))
    · exact (exec_waitPump clean at_ kind).trans (if_neg (Bool.eq_false_iff.mp no))
    · exact (exec_fenceWell clean at_ kind).trans (if_neg (Bool.eq_false_iff.mp no))
    · exact exec_pumpStart_full clean at_ kind busy
    · exact (exec_halt clean at_ kind).trans (if_neg (Bool.eq_false_iff.mp no))
  · intro c word k
    refine ⟨fun inside => ⟨fun all tag wait ok => ?_, fun e n since wait sound reached => ?_, fun all tag wait ok => ?_,
      fun wait ok => ?_, fun j x d wait job decided ok settled done_ => ?_⟩, fun wait ok => ?_,
      fun since wait sound ready => ?_, fun n wait free => ?_⟩
    · exact (exec_release_walk stalled wait).trans ((need_of ok 265 _).trans (cGo_pcNext_released inside))
    · exact (exec_release_event stalled wait).trans ((State.ctlScratch_of_ok sound _).trans
        ((need_of (decide_eq_true reached) 268 _).trans (cGo_pcNext_released inside)))
    · exact (exec_release_pump stalled wait).trans ((need_of ok 265 _).trans (cGo_pcNext_released inside))
    · exact (exec_release_fenceWell stalled wait).trans ((need_of ok 265 _).trans (cGo_pcNext_released inside))
    · rw [exec_release_fencePart stalled wait, job, needSome_some, decided, needSome_some]
      exact State.passFence_of_settled inside ok settled done_
    · exact (exec_release_halt stalled wait).trans (need_of ok 274 _)
    · exact (exec_release_walkAccept stalled wait).trans ((State.ctlScratch_of_ok sound _).trans (need_of ready 266 _))
    · rw [exec_release_pumpAccept stalled wait, free, needSome_some]
  · refine ⟨fun e n since stalled runs wait late below first => ?_,
      fun j x since stalled wait live late bound job none_yet running => ?_⟩
    · exact ⟨_, exec_waitEventLimitExpiry stalled runs late wait below, State.faulted_ctlExc (by decide),
        State.sameMem_ctlExc (by decide), State.record_ctlExc (by decide) first⟩
    · exact ⟨_, exec_walkRecordStallTimeout stalled (State.wellRuns_of bound job running) late wait live bound,
        State.endByWalker_ends job none_yet (by rw [running]; decide)⟩

end Sys2Proof.Machine
end

section
/-!
SUPPORT. The end of a layer (R120, R122, R123, R128): what translations read, and the passes over a partition's wells.
-/
namespace Sys2Proof.Machine

/-! ### Fields beside a replaced one -/

/-- A field replaced leaves the bits below it. -/
theorem bitOf_setBits_of_gt {w : Word} {hi lo v i : Nat} (hlo : lo ≤ hi) (lt : i < lo) (h64 : i < 64) :
    bitOf (setBits w hi lo v) i = bitOf w i := by
  have split : w.toNat % 2 ^ lo + v % 2 ^ (hi - lo + 1) * 2 ^ lo + w.toNat / 2 ^ (hi + 1) * 2 ^ (hi + 1)
      = 2 ^ lo * (v % 2 ^ (hi - lo + 1) + w.toNat / 2 ^ (hi + 1) * 2 ^ (hi + 1 - lo)) + w.toNat % 2 ^ lo := by
    rw [show hi + 1 = lo + (hi + 1 - lo) by omega, Nat.pow_add]
    simp only [Nat.add_sub_cancel_left]
    ring
  rw [bitOf, setBits, BitVec.toNat_ofNat, Nat.testBit_mod_two_pow, split,
    Nat.testBit_two_pow_mul_add _ (Nat.mod_lt _ (by positivity)), if_pos lt, Nat.testBit_mod_two_pow]
  simp [h64, lt, bitOf]

/-- A field apart from a replaced one stays. -/
theorem bitsOf_setBits_of_apart {w : Word} {hi lo v a b : Nat} (hlo : lo ≤ hi) (hab : b ≤ a) (ha : a < 64)
    (apart : a < lo ∨ hi < b) : bitsOf (setBits w hi lo v) a b = bitsOf w a b := by
  refine Nat.eq_of_testBit_eq fun i => ?_
  simp only [bitsOf, Nat.testBit_mod_two_pow, Nat.testBit_shiftRight]
  by_cases inside : i < a - b + 1
  · have bit : bitOf (setBits w hi lo v) (b + i) = bitOf w (b + i) := by
      obtain below | above := apart
      · exact bitOf_setBits_of_gt hlo (by omega) (by omega)
      · exact bitOf_setBits_of_lt hlo (by omega) (by omega)
    simp only [bitOf] at bit
    rw [bit]
  · simp [inside]

theorem State.fld_incFld_of_apart (s : State) {o o' hi lo n a b : Nat} (hlo : lo ≤ hi) (hab : b ≤ a) (ha : a < 64)
    (apart : a < lo ∨ hi < b) : (s.incFld o hi lo n).fld o' a b = s.fld o' a b := by
  by_cases same : o' = o
  · rw [same, State.fld, State.incFld, State.reg_setReg, addSat, bitsOf_setBits_of_apart hlo hab ha apart, State.fld]
  · rw [State.fld, State.reg_incFld_ne _ _ _ _ same, State.fld]

theorem State.fld_incFld (s : State) {o hi lo n : Nat} (hlo : lo ≤ hi) (h64 : hi < 64) :
    (s.incFld o hi lo n).fld o hi lo = min (s.fld o hi lo + n) (2 ^ (hi - lo + 1) - 1) := by
  have le : min (bitsOf (s.reg o) hi lo + n) (2 ^ (hi - lo + 1) - 1) < 2 ^ (hi - lo + 1) := by
    have pos : 0 < 2 ^ (hi - lo + 1) := by positivity
    omega
  rw [State.fld, State.incFld, State.reg_setReg, addSat, bitsOf_setBits _ _ _ _ hlo h64, Nat.mod_eq_of_lt le, State.fld]

/-! ### What a translation reads (R424 to R435) -/

/-- t translates as s: it is s but for the wells, the jobs and the registers, and has of those what a translation
reads. -/
structure Translates (s t : State) : Prop where
  rest : ∃ wells jobs regs, t = { s with wells := wells, jobs := jobs, regs := regs }
  partWells : ∀ p, t.partWells p = s.partWells p
  root : ∀ c < 12, t.reg (rTrRoot c) = s.reg (rTrRoot c)
  place : t.reg rRvPlace = s.reg rRvPlace
  rvState : ∀ i, t.rvState i = s.rvState i
  aqLost : ∀ i, t.aqLost i = s.aqLost i

section
variable {s t u : State}

theorem Translates.trans (h : Translates s t) (k : Translates t u) : Translates s u where
  rest := by
    obtain ⟨_, _, _, rfl⟩ := h.rest
    obtain ⟨_, _, _, rfl⟩ := k.rest
    exact ⟨_, _, _, rfl⟩
  partWells p := (k.partWells p).trans (h.partWells p)
  root c lt := (k.root c lt).trans (h.root c lt)
  place := k.place.trans h.place
  rvState i := (k.rvState i).trans (h.rvState i)
  aqLost i := (k.aqLost i).trans (h.aqLost i)

section
variable (h : Translates s t)
include h

theorem Translates.localGib : t.localGib = s.localGib := by
  simp only [State.localGib, State.fld, h.place]

theorem Translates.rvHop (pg : Nat × Nat) : t.rvHop pg = s.rvHop pg := by
  obtain ⟨_, _, _, rfl⟩ := h.rest
  rfl

theorem Translates.rvWhere (a : Nat) : t.rvWhere a = s.rvWhere a := by
  simp only [State.rvWhere, h.localGib, h.rvHop]

theorem Translates.evacDone (pkg g : Nat) : t.evacDone pkg g = s.evacDone pkg g := by
  obtain ⟨_, _, _, rfl⟩ := h.rest
  rfl

theorem Translates.tierWait (l : Loc) : t.tierWait l = s.tierWait l := by
  have host : t.hostDown = s.hostDown := by
    obtain ⟨_, _, _, rfl⟩ := h.rest
    rfl
  have refresh : t.rvSelfRefresh = s.rvSelfRefresh := by
    obtain ⟨_, _, _, rfl⟩ := h.rest
    rfl
  simp only [State.tierWait, State.fld, host, refresh, h.place, h.rvWhere, h.rvState, h.evacDone]

theorem Translates.deadBlock (l : Loc) : t.deadBlock l = s.deadBlock l := by
  simp only [State.deadBlock, State.rvServing, h.rvWhere, h.rvState, h.aqLost]

theorem Translates.badBlock (l : Loc) (n : Nat) : t.badBlock l n = s.badBlock l n := by
  have poison : t.poison = s.poison := by
    obtain ⟨_, _, _, rfl⟩ := h.rest
    rfl
  simp only [State.badBlock, poison, h.deadBlock]

theorem Translates.rawRead (l : Loc) (n : Nat) : t.rawRead l n = s.rawRead l n := by
  obtain ⟨_, _, _, rfl⟩ := h.rest
  rfl

theorem Translates.entryWait (a : Nat) : t.entryWait a = s.entryWait a := by
  simp only [State.entryWait, h.tierWait]

theorem Translates.walkTables (va : Nat) (levels : List (Nat × Nat × Nat)) (table : Nat) :
    t.walkTables va levels table = s.walkTables va levels table := by
  induction levels generalizing table with
  | nil => rfl
  | cons level rest ih => simp only [State.walkTables, h.entryWait, h.badBlock, h.rawRead, ih]

theorem Translates.rootOf (ctx : Nat) : t.rootOf ctx = s.rootOf ctx := by
  have hroot : t.hroot = s.hroot := by
    obtain ⟨_, _, _, rfl⟩ := h.rest
    rfl
  unfold State.rootOf
  by_cases job : ctx % 16 < 12
  · simp only [job, if_true, h.root _ job]
  · simp only [job, if_false, hroot]

theorem Translates.leafOf (ctx va : Nat) (write : Bool) : t.leafOf ctx va write = s.leafOf ctx va write := by
  have held (q : Nat) : t.tlbFind q (ctxNo ctx) va = s.tlbFind q (ctxNo ctx) va := by
    obtain ⟨_, _, _, rfl⟩ := h.rest
    rfl
  have start (root : Nat) : t.walkFrom (ctxNo ctx) va root = s.walkFrom (ctxNo ctx) va root := by
    obtain ⟨_, _, _, rfl⟩ := h.rest
    rfl
  simp only [State.leafOf, State.leafWalk, held, start, h.rootOf, h.walkTables]

theorem Translates.isolated (ctx : Nat) (l : Leaf) : t.isolated ctx l = s.isolated ctx l := by
  have cache (w : Nat) : t.cacheBytes w = s.cacheBytes w := by
    obtain ⟨_, _, _, rfl⟩ := h.rest
    rfl
  simp only [State.isolated, cache, h.partWells]

theorem Translates.translate (ctx va : Nat) (write : Bool) : t.translate ctx va write = s.translate ctx va write := by
  simp only [State.translate, h.leafOf, h.isolated, h.tierWait]

/-- Bytes left undefined are drawn alike on both sides (R17). -/
theorem Translates.undefine (l : Loc) (n : Nat) : Translates (s.undefine l n) (t.undefine l n) := by
  obtain ⟨⟨wells, jobs, regs, rfl⟩, parts, root, place, rv, aq⟩ := h
  obtain ⟨tier, a⟩ := l
  cases tier <;> exact ⟨⟨wells, jobs, regs, rfl⟩, parts, root, place, rv, aq⟩

theorem Translates.undefVa (ctx va n : Nat) : Translates (s.undefVa ctx va n) (t.undefVa ctx va n) := by
  unfold State.undefVa
  induction runsOf va n generalizing s t with
  | nil => exact h
  | cons r rs ih =>
    refine ih ?_
    dsimp only
    rw [h.translate]
    split
    · exact h.undefine _ _
    · exact h

theorem Translates.undefVas (ctx : Nat) (rs : List (Nat × Nat)) :
    Translates (s.undefVas ctx rs) (t.undefVas ctx rs) := by
  unfold State.undefVas
  induction rs generalizing s t with
  | nil => exact h
  | cons r rs ih => exact ih (h.undefVa ctx r.1 r.2)

end

/-! ### What a translation does not read -/

theorem State.partWells_congr (h : t.jobs = s.jobs) (p : Nat) : t.partWells p = s.partWells p := by
  rw [State.partWells, h, State.partWells]

theorem Translates.setWell (w : Nat) (x : Well) : Translates s (s.setWell w x) :=
  ⟨⟨_, _, _, rfl⟩, State.partWells_congr rfl, fun _ _ => rfl, rfl, fun _ => rfl, fun _ => rfl⟩

/-- The counts of WL_GUARD_STAT lie in no register that a translation reads. A package number past the last one could
name its offset, but a package's state and loss are fields between the counts that are raised. -/
theorem Translates.incGuardStat (w hi lo n : Nat) (hlo : lo ≤ hi) (outer : hi < 29 ∨ 34 < lo) :
    Translates s (s.incFld (rWlGuardStat w) hi lo n) where
  rest := ⟨_, _, _, rfl⟩
  partWells := State.partWells_congr (s.incFld_jobs ..)
  root c lt := s.reg_incFld_ne _ _ _ (by simp only [rTrRoot, rWlGuardStat, rWl]; omega)
  place := s.reg_incFld_ne _ _ _ (by simp only [rRvPlace, rWlGuardStat, rWl]; omega)
  rvState _ := s.fld_incFld_of_apart hlo (by decide) (by decide) (by omega)
  aqLost _ := congrArg (· == 1) (s.fld_incFld_of_apart hlo (by decide) (by decide) (by omega))

theorem Translates.countEv (w src n : Nat) : Translates s (s.countEv w src n) := by
  have same (o : Nat) (h : ¬isEvCnt o) : (s.countEv w src n).reg o = s.reg o := s.countEv_reg w src n o h
  have frame := s.countEv_rest w src n
  refine ⟨⟨s.wells, s.jobs, (s.countEv w src n).regs,
    (congrArg (fun u : State => { u with regs := (s.countEv w src n).regs }) frame :)⟩,
    State.partWells_congr (congrArg State.jobs frame :), fun c lt => same _ ?_, same _ ?_, fun i => ?_, fun i => ?_⟩
  · simp only [isEvCnt, rEvCnt, rTrRoot]
    omega
  · simp only [isEvCnt, rEvCnt, rRvPlace]
    omega
  · rw [State.rvState, State.fld, same _ (by simp only [isEvCnt, rEvCnt, rRvPkgStat]; omega), State.rvState, State.fld]
  · rw [State.aqLost, State.fld, same _ (by simp only [isEvCnt, rEvCnt, rAqPkgStat]; omega), State.aqLost, State.fld]

/-- A list of jobs, one of which changes in neither its partition nor its wells, names the same wells of a partition. -/
theorem map_wells_find?_modify {f : Job → Job} (part : ∀ x, (f x).part = x.part) (wells : ∀ x, (f x).wells = x.wells)
    (p : Nat) (l : List Job) (j : Nat) :
    ((l.modify j f).find? (fun x => x.part == some p)).map Job.wells
      = (l.find? (fun x => x.part == some p)).map Job.wells := by
  induction l generalizing j with
  | nil => simp
  | cons a l ih =>
    cases j with
    | zero =>
      rw [List.modify_zero_cons, List.find?_cons, List.find?_cons, part]
      split
      · exact congrArg some (wells a)
      · rfl
    | succ j =>
      rw [List.modify_succ_cons, List.find?_cons, List.find?_cons]
      split
      · rfl
      · exact ih j

theorem State.partWells_eq (s : State) (p : Nat) :
    s.partWells p = ((s.jobs.find? (fun x => x.part == some p)).map Job.wells).getD [] := by
  rw [State.partWells]
  split
  next found => rw [found]; rfl
  next found => rw [found]; rfl

/-- A job may change in all but its partition and its wells. -/
theorem Translates.modJob (j : Nat) {f : Job → Job} (part : ∀ x, (f x).part = x.part)
    (wells : ∀ x, (f x).wells = x.wells) : Translates s (s.modJob j f) where
  rest := ⟨_, _, _, rfl⟩
  partWells p := by
    rw [State.partWells_eq, State.partWells_eq]
    exact congrArg (·.getD []) (map_wells_find?_modify part wells p s.jobs j)
  root _ _ := rfl
  place := rfl
  rvState _ := rfl
  aqLost _ := rfl

end

/-! ### What undefined bytes leave (R17) -/

section
variable {s t : State}

/-- t is s but for the bytes of the tiers and the free values drawn. -/
def OnlyBytes (s t : State) : Prop :=
  { t with fresh := s.fresh, cistern := s.cistern, reservoir := s.reservoir, aquifer := s.aquifer,
           hostMem := s.hostMem } = s

theorem State.undefine_onlyBytes (l : Loc) (n : Nat) : OnlyBytes s (s.undefine l n) := by
  obtain ⟨tier, a⟩ := l
  cases tier <;> rfl

theorem OnlyBytes.trans {u : State} (h : OnlyBytes s t) (k : OnlyBytes t u) : OnlyBytes s u := by
  unfold OnlyBytes at h k ⊢
  exact (congrArg (fun x : State => { x with
    fresh := s.fresh, cistern := s.cistern, reservoir := s.reservoir, aquifer := s.aquifer, hostMem := s.hostMem })
    k).trans h

theorem OnlyBytes.foldl {α : Type} {f : State → α → State} (hf : ∀ t a, OnlyBytes t (f t a)) (l : List α)
    (s : State) : OnlyBytes s (l.foldl f s) := by
  induction l generalizing s with
  | nil => rfl
  | cons a l ih => exact (hf s a).trans (ih (f s a))

theorem State.undefVa_onlyBytes (ctx va n : Nat) : OnlyBytes s (s.undefVa ctx va n) := by
  refine OnlyBytes.foldl (fun t r => ?_) _ s
  split
  · exact t.undefine_onlyBytes ..
  · rfl

theorem State.undefVas_onlyBytes (ctx : Nat) (rs : List (Nat × Nat)) : OnlyBytes s (s.undefVas ctx rs) :=
  OnlyBytes.foldl (fun t (r : Nat × Nat) => t.undefVa_onlyBytes ctx r.1 r.2) rs s

end

/-! ### A pass over the wells of a partition -/

/-- A pass over distinct items, whose step changes what is observed of its own item alone, makes the change of each. -/
theorem foldl_observed {σ β α : Type} {f : σ → β → σ} {obs : σ → β → α} {g : α → α}
    (own : ∀ t b, obs (f t b) b = g (obs t b)) (other : ∀ t b c, c ≠ b → obs (f t b) c = obs t c)
    {l : List β} (distinct : l.Nodup) (s : σ) {b : β} (mem : b ∈ l) : obs (l.foldl f s) b = g (obs s b) := by
  have untouched : ∀ (l : List β) (s : σ), b ∉ l → obs (l.foldl f s) b = obs s b := by
    intro l s out
    refine List.foldlRecOn (motive := fun t => obs t b = obs s b) l f rfl fun t same c hc => ?_
    rw [other t c b (fun e => out (e ▸ hc)), same]
  induction l generalizing s with
  | nil => cases mem
  | cons c l ih =>
    obtain ⟨out, distinct⟩ := List.nodup_cons.mp distinct
    obtain rfl | mem := List.mem_cons.mp mem
    · rw [List.foldl_cons, untouched l _ out, own]
    · rw [List.foldl_cons, ih distinct _ mem, other s c b (fun e => out (e ▸ mem))]

/-- The layer of a well as its replay begins (R122). -/
def Layer.replayed (l : Layer) : Layer := { l with hits := 0, cuHits := 0, outs := [], replay := l.items }

/-- The replay of a layer begins on well w, whose WL_GUARD_STAT lies at o (R120, R122, R128). -/
def State.replayOn (j : Nat) (t : State) (o w : Nat) : State :=
  let y := t.well w
  let t := (t.incFld o 15 0 y.layer.cuHits).undefVas (t.ctxOf j) y.layer.outs
  let t := t.setWell w { y with layer := y.layer.replayed }
  if y.layer.items.isEmpty then t else (t.incFld o 63 48 1).countEv w 0x06 1

/-- A layer is over on well w, whose WL_GUARD_STAT lies at o (R128, R130). -/
def State.closeOn (t : State) (o w : Nat) : State :=
  let y := t.well w
  (t.incFld o 31 16 (y.layer.hits + y.layer.cuHits)).setWell w { y with layer := { guard := y.layer.guard } }

/-- A well, and the count of the attempts and operations that exceed a threshold at their last rung, in the
WL_GUARD_STAT at o (R128, R130). -/
def State.wellExceeding (s : State) (o w : Nat) : Well × Nat := (s.well w, s.fld o 31 16)

/-- What the end of a layer makes of them. -/
def exceedingClosed (y : Well × Nat) : Well × Nat :=
  ({ y.1 with layer := { guard := y.1.layer.guard } }, min (y.2 + (y.1.layer.hits + y.1.layer.cuHits)) 65535)

section
variable {s t : State} {j : Nat} {x : Job}

theorem State.beginReplay_eq : s.beginReplay j x = x.wells.foldl (fun t w => t.replayOn j (rWlGuardStat w) w)
    (s.modJob j (fun y => { y with layerRung := y.layerRung + 1, widened := true })) := rfl

theorem State.closeLayer_eq : s.closeLayer j x = x.wells.foldl (fun t w => t.closeOn (rWlGuardStat w) w)
    (s.modJob j (fun y => { y with layerRung := 0 })) := rfl

/-! ### The pass that begins a replay -/

/-- Beside the undefined bytes, a replay that begins on a well translates as before. -/
theorem Translates.replayOn (h : Translates s t) (w : Nat) :
    Translates (s.undefVas (t.ctxOf j) (t.well w).layer.outs) (t.replayOn j (rWlGuardStat w) w) := by
  have counted := h.trans (.incGuardStat w 15 0 (t.well w).layer.cuHits (by decide) (.inl (by decide)))
  refine (counted.undefVas (t.ctxOf j) (t.well w).layer.outs).trans ?_
  unfold State.replayOn
  dsimp only
  split
  · exact .setWell ..
  · exact ((Translates.setWell ..).trans (.incGuardStat _ _ _ _ (by decide) (.inr (by decide)))).trans (.countEv ..)

theorem State.wells_undefVas (ctx : Nat) (rs : List (Nat × Nat)) : (s.undefVas ctx rs).wells = s.wells :=
  (congrArg State.wells (s.undefVas_onlyBytes ctx rs) :)

theorem State.jobs_undefVas (ctx : Nat) (rs : List (Nat × Nat)) : (s.undefVas ctx rs).jobs = s.jobs :=
  (congrArg State.jobs (s.undefVas_onlyBytes ctx rs) :)

theorem State.jobs_countEv (w src n : Nat) : (s.countEv w src n).jobs = s.jobs :=
  (congrArg State.jobs (s.countEv_rest w src n) :)

theorem State.jobs_replayOn (o w : Nat) : (t.replayOn j o w).jobs = t.jobs := by
  unfold State.replayOn
  dsimp only
  split
  · rw [State.setWell_jobs, State.jobs_undefVas, State.incFld_jobs]
  · rw [State.jobs_countEv, State.incFld_jobs, State.setWell_jobs, State.jobs_undefVas, State.incFld_jobs]

theorem State.wells_replayOn (o w : Nat) :
    (t.replayOn j o w).wells = (t.setWell w { t.well w with layer := (t.well w).layer.replayed }).wells := by
  unfold State.replayOn
  dsimp only
  split
  · simp only [State.setWell, State.wells_undefVas, State.incFld_wells]
  · simp only [State.countEv_wells, State.incFld_wells, State.setWell, State.wells_undefVas]

theorem State.well_replayOn (o w : Nat) :
    (t.replayOn j o w).well w = { t.well w with layer := (t.well w).layer.replayed } := by
  rw [State.well_of_wells (State.wells_replayOn o w), State.well_setWell]

theorem State.well_replayOn_ne {w v : Nat} (h : v ≠ w) (o : Nat) : (t.replayOn j o w).well v = t.well v := by
  rw [State.well_of_wells (State.wells_replayOn o w), State.well_setWell_ne _ _ h]

theorem State.ctxOf_congr (h : t.jobs = s.jobs) : t.ctxOf j = s.ctxOf j := by
  rw [State.ctxOf, State.job, h, State.ctxOf, State.job]

theorem Translates.foldl_replayOn {ctx : Nat} {outs : Nat → List (Nat × Nat)} {l : List Nat} (distinct : l.Nodup)
    (h : Translates s t) (ctx_eq : t.ctxOf j = ctx) (outs_eq : ∀ w ∈ l, (t.well w).layer.outs = outs w) :
    Translates (l.foldl (fun u w => u.undefVas ctx (outs w)) s)
      (l.foldl (fun u w => u.replayOn j (rWlGuardStat w) w) t) := by
  induction l generalizing s t with
  | nil => exact h
  | cons w l ih =>
    obtain ⟨out, distinct⟩ := List.nodup_cons.mp distinct
    refine ih distinct ?_ ((State.ctxOf_congr (State.jobs_replayOn _ w)).trans ctx_eq) fun v hv => ?_
    · have first := h.replayOn (j := j) w
      rwa [ctx_eq, outs_eq w List.mem_cons_self] at first
    · rw [State.well_replayOn_ne (ne_of_mem_of_not_mem hv out), outs_eq v (List.mem_cons_of_mem _ hv)]

theorem Translates.sameMem (h : Translates s t) : sameMem s t := by
  obtain ⟨_, _, _, rfl⟩ := h.rest
  exact ⟨rfl, rfl, rfl, rfl, rfl, rfl⟩

/-- A layer replayed one rung up, on every well of its partition (R120, R122). -/
theorem State.beginReplay_replays (job : s.job j = some x) (distinct : x.wells.Nodup) :
    let t := s.beginReplay j x
    t.job j = some { x with layerRung := x.layerRung + 1, widened := true }
      ∧ (∀ w ∈ x.wells, (t.well w).layer = (s.well w).layer.replayed)
      ∧ Translates (x.wells.foldl (fun u w => u.undefVas (s.ctxOf j) (s.well w).layer.outs) s) t := by
  rw [State.beginReplay_eq]
  intro t
  refine ⟨?_, fun w mem => ?_, ?_⟩
  · have jobs : t.jobs = (s.modJob j (fun y => { y with layerRung := y.layerRung + 1, widened := true })).jobs :=
      List.foldlRecOn (motive := fun u : State => u.jobs = _) _ _ rfl
        fun u same w _ => (u.jobs_replayOn _ w).trans same
    rw [State.job, jobs]
    exact State.job_modJob job _
  · have well := foldl_observed (obs := State.well) (g := fun y : Well => { y with layer := y.layer.replayed })
      (fun u v => u.well_replayOn (j := j) (rWlGuardStat v) v)
      (fun u v c other => u.well_replayOn_ne (j := j) other (rWlGuardStat v)) distinct
      (s.modJob j (fun y => { y with layerRung := y.layerRung + 1, widened := true })) mem
    exact congrArg Well.layer well
  · refine Translates.foldl_replayOn distinct (.modJob j (fun _ => rfl) (fun _ => rfl)) ?_ (fun _ _ => rfl)
    rw [State.ctxOf, State.job_modJob job, State.ctxOf, job]

/-! ### The pass that closes a layer -/

theorem State.jobs_closeOn (o w : Nat) : (t.closeOn o w).jobs = t.jobs := by
  rw [State.closeOn, State.setWell_jobs, State.incFld_jobs]

theorem State.incFld_setWell_frame (o hi lo n w : Nat) (y : Well) (jobs : List Job) (wells : Tab Well)
    (regs : Tab Word) : { (t.incFld o hi lo n).setWell w y with jobs := jobs, wells := wells, regs := regs }
      = { t with jobs := jobs, wells := wells, regs := regs } := rfl

theorem State.fld_setWell (w : Nat) (y : Well) (o hi lo : Nat) : (t.setWell w y).fld o hi lo = t.fld o hi lo := rfl

theorem State.wellExceeding_closeOn (o w : Nat) :
    (t.closeOn o w).wellExceeding o w = exceedingClosed (t.wellExceeding o w) := by
  rw [State.closeOn, State.wellExceeding, State.well_setWell, State.fld_setWell,
    State.fld_incFld _ (by decide) (by decide)]
  rfl

theorem State.wellExceeding_closeOn_ne {o p w v : Nat} (apart : p ≠ o) (h : v ≠ w) :
    (t.closeOn o w).wellExceeding p v = t.wellExceeding p v := by
  rw [State.closeOn, State.wellExceeding, State.well_setWell_ne _ _ h, State.well_of_wells (State.incFld_wells ..),
    State.fld_setWell, State.fld, State.reg_incFld_ne _ _ _ _ apart]
  rfl

theorem rWlGuardStat_ne {v w : Nat} (h : v ≠ w) : rWlGuardStat v ≠ rWlGuardStat w := by
  simp only [rWlGuardStat, rWl]
  omega

theorem State.wellExceeding_modJob (f : Job → Job) (o w : Nat) :
    (s.modJob j f).wellExceeding o w = s.wellExceeding o w := rfl

/-- A layer that is over, on every well of its partition (R128, R130). -/
theorem State.closeLayer_closes (job : s.job j = some x) (distinct : x.wells.Nodup) :
    let t := s.closeLayer j x
    t.job j = some { x with layerRung := 0 }
      ∧ (∀ w ∈ x.wells,
          t.wellExceeding (rWlGuardStat w) w = exceedingClosed (s.wellExceeding (rWlGuardStat w) w))
      ∧ { t with jobs := s.jobs, wells := s.wells, regs := s.regs } = s := by
  rw [State.closeLayer_eq]
  intro t
  refine ⟨?_, fun w mem => ?_, ?_⟩
  · have jobs : t.jobs = (s.modJob j (fun y => { y with layerRung := 0 })).jobs :=
      List.foldlRecOn (motive := fun u : State => u.jobs = _) _ _ rfl
        fun u same w _ => (u.jobs_closeOn _ w).trans same
    rw [State.job, jobs]
    exact State.job_modJob job _
  · rw [← s.wellExceeding_modJob (j := j) (fun y => { y with layerRung := 0 })]
    exact foldl_observed (obs := fun (u : State) v => u.wellExceeding (rWlGuardStat v) v)
      (fun u v => u.wellExceeding_closeOn (rWlGuardStat v) v)
      (fun u v c other => u.wellExceeding_closeOn_ne (rWlGuardStat_ne other) other) distinct _ mem
  · exact List.foldlRecOn
      (motive := fun u : State => { u with jobs := s.jobs, wells := s.wells, regs := s.regs } = s) _ _ rfl
      fun u same w _ => (u.incFld_setWell_frame ..).trans same

/-- What a layer that needs its combination does at its end (R122, R123). -/
theorem exec_layerTriggerCombine (job : s.job j = some x) (running : x.phase = .running) (ends : s.layerEnds x = true)
    (unsettled : s.layersSettled j = false) :
    let layers := x.wells.map (fun w => (s.well w).layer)
    exec (.layerTriggerCombine j) s =
      if layers.any (fun l => decide (0 < l.hits + l.cuHits)) && decide (x.layerRung < layersLast layers) then
        .next (s.beginReplay j x)
      else .next (s.closeLayer j x) := by
  change execLayerTriggerCombine j s = _
  rw [execLayerTriggerCombine, job, needSome_some, need_of (by simp [running, ends, unsettled])]

end

/-- Settles O31: the trigger flags and the last rung choose between `beginReplay` and `closeLayer`, each a pass over the
partition's distinct wells; the undefined bytes are those of the passes' `undefVas`, since nothing else that a replay
changes is read by a translation. -/
theorem layersReplayOrClose : Obligations.LayersReplayOrClose := by
  intro s j x job running distinct ends unsettled last hits
  have run := exec_layerTriggerCombine job running ends unsettled
  refine ⟨fun ⟨⟨w, mem, hit⟩, below⟩ => ?_, fun done_ => ?_⟩
  · obtain ⟨job', layers, alike⟩ := State.beginReplay_replays job distinct
    refine ⟨_, run.trans (if_pos ?_), job', layers, alike.sameMem, ?_⟩
    · rw [Bool.and_eq_true, List.any_eq_true, decide_eq_true_eq]
      exact ⟨⟨_, List.mem_map_of_mem mem, decide_eq_true hit⟩, below⟩
    · have bytes : OnlyBytes s (x.wells.foldl (fun u w => u.undefVas (s.ctxOf j) (s.well w).layer.outs) s) :=
        OnlyBytes.foldl (fun u w => u.undefVas_onlyBytes _ _) _ s
      have frame := alike.rest
      generalize x.wells.foldl (fun u w => u.undefVas (s.ctxOf j) (s.well w).layer.outs) s = u at bytes frame
      obtain ⟨_, _, _, e⟩ := frame
      rw [e]
      exact (congrArg (fun y : State => { y with wells := s.wells, jobs := s.jobs, regs := s.regs }) bytes :)
  · obtain ⟨job', closed, frame⟩ := State.closeLayer_closes job distinct
    refine ⟨_, run.trans (if_neg ?_), job', fun w mem => ?_, frame⟩
    case refine_2 =>
      obtain ⟨well, count⟩ := Prod.ext_iff.mp (closed w mem)
      exact ⟨congrArg Well.layer well, count⟩
    rw [Bool.and_eq_true, List.any_eq_true, decide_eq_true_eq]
    rintro ⟨⟨l, hl, hit⟩, below⟩
    obtain ⟨w, mem, rfl⟩ := List.mem_map.mp hl
    obtain none_hit | last_le := done_
    · exact absurd (of_decide_eq_true hit) (by have := none_hit w mem; simp only [hits] at this; omega)
    · exact absurd below (Nat.not_lt.mpr last_le)

end Sys2Proof.Machine
end

section
/-!
SUPPORT. The template steps of a bobbin (R144, R169, R173, R190): when one runs, and what the tile and vector data
instructions leave unchanged.
-/
namespace Sys2Proof.Machine

/-! ### Bobbins -/

section
variable {s t u : State} {w p : Nat}

/-- Any other bobbin. -/
theorem State.bob_setBob_ne {v q : Nat} (hp : p < 136) (hq : q < 136) (other : ¬(v = w ∧ q = p)) (b : Bobbin) :
    (s.setBob w p b).bob v q = s.bob v q := by
  have apart : v * 136 + q ≠ w * 136 + p := by omega
  exact tabGet_put_ne {} s.bobs b apart

theorem State.bob_of_bobs (h : t.bobs = s.bobs) (v q : Nat) : t.bob v q = s.bob v q := by
  rw [State.bob, h, State.bob]

theorem otherBobs.of_bobs (h : t.bobs = s.bobs) : otherBobs s t w p := fun v q _ _ => State.bob_of_bobs h v q

theorem otherBobs.setBob (h : otherBobs s t w p) (hp : p < 136) (b : Bobbin) : otherBobs s (t.setBob w p b) w p :=
  fun v q hq other => (State.bob_setBob_ne hp hq other b).trans (h v q hq other)

/-- A step that leaves every bobbin ends with the same other bobbins. -/
theorem otherBobs.trans_bobs (h : otherBobs s t w p) (k : u.bobs = t.bobs) : otherBobs s u w p :=
  fun v q hq other => (State.bob_of_bobs k v q).trans (h v q hq other)

theorem otherBobs.trans (h : otherBobs s t w p) (k : otherBobs t u w p) : otherBobs s u w p :=
  fun v q hq other => (k v q hq other).trans (h v q hq other)

theorem State.bobs_countEv (v src n : Nat) : (s.countEv v src n).bobs = s.bobs := (s.countEv_accessed v src n).bobs

/-! ### The run that an instruction ends with (R169, R173) -/

variable (r : Run)

theorem State.run_doneRun : ((s.doneRun w p r).bob w p).run = some r.advance := by
  rw [State.doneRun, State.putRun, State.bob_setBob]

theorem State.otherBobs_doneRun (hp : p < 136) : otherBobs s (s.doneRun w p r) w p :=
  (otherBobs.of_bobs (s.readVia_accessed w (s.runCtx r) (tmplAddr r.b.tmpl r.idx) 8).bobs).setBob hp _

end

/-! ### When a template step runs (R148, R169, R190) -/

section
variable {s : State} {w : WellId} {p : PhysId} {r : Run} {word : Word} {kind : TKind} (at_ : s.bobAt w p r word)
  (k : Run → Word → Res)
include at_

/-- A bobbin that finds an instruction of the commanded kind, not a border-only variant on a regular bobbin, runs it. -/
theorem tStep_runs (decoded : tDecode word = some kind) (border : kind.borderOnly = true → isBorder p = true) :
    tStep kind w p s k = k r word := by
  obtain ⟨run, waits, qStall, toStore, missing, fetched⟩ := at_
  have may : (kind.borderOnly && !isBorder p) = false := by
    cases only : kind.borderOnly with
    | false => rfl
    | true => simp [border only]
  simp [tStep, run, waits, qStall, toStore, missing, fetched, decoded, may]

/-- A bobbin that finds a reserved encoding, or a border-only variant on a regular bobbin, ends its stitch (R161, R190). -/
theorem tStep_reserved (reserved : tDecode word = none
    ∨ tDecode word = some kind ∧ kind.borderOnly = true ∧ isBorder p = false) :
    tStep kind w p s k = .next (s.terminateStitch w p 5 0x7F word.toNat) := by
  obtain ⟨run, waits, qStall, toStore, missing, fetched⟩ := at_
  obtain decoded | ⟨decoded, only, regular⟩ := reserved
  · simp [tStep, run, waits, qStall, toStore, missing, fetched, decoded]
  · simp [tStep, run, waits, qStall, toStore, missing, fetched, decoded, only, regular]

end

/-- A data instruction is fetched and checked, its work done, and its end judged. -/
theorem exec_tileInstr {s : State} {i : Instr} {w : WellId} {p : PhysId} {ev : EccEv} {kind : TKind}
    {f : State → Run → Word → TOut} (h : tileInstr i = some (w, p, ev, kind, f)) : exec i s = tWork kind w p ev s f := by
  unfold tileInstr at h
  split at h <;> cases h <;> rfl

/-- Every command that runs an instruction of a template is a template step. -/
theorem exec_tileKind {s : State} {i : Instr} {w : WellId} {p : PhysId} {kind : TKind}
    (h : tileKind i = some (w, p, kind)) : ∃ k, exec i s = tStep kind w p s k := by
  unfold tileKind at h
  split at h
  case h_7 =>
    obtain ⟨⟨w', p', ev, kind', f⟩, instr, same⟩ := Option.map_eq_some_iff.mp h
    cases same
    exact ⟨_, exec_tileInstr instr⟩
  all_goals
    cases h
    exact ⟨_, rfl⟩

/-! ### What a data instruction leaves unchanged (R144) -/

/-- From s to t no byte of a memory, no well, no job and no bobbin but p of well w has changed. -/
structure StoresNothing (w p : Nat) (s t : State) : Prop where
  mem : sameMem s t
  wells : t.wells = s.wells
  jobs : t.jobs = s.jobs
  others : otherBobs s t w p

section
variable {w p : Nat} {s₀ s t : State}

theorem StoresNothing.refl : StoresNothing w p s s :=
  ⟨⟨rfl, rfl, rfl, rfl, rfl, rfl⟩, rfl, rfl, otherBobs.of_bobs rfl⟩

variable (hs : StoresNothing w p s₀ s)
include hs

/-- A step that leaves the memories, the wells, the jobs and the bobbins. -/
theorem StoresNothing.update (mem : sameMem s t := by exact ⟨rfl, rfl, rfl, rfl, rfl, rfl⟩)
    (wells : t.wells = s.wells := by rfl) (jobs : t.jobs = s.jobs := by rfl) (bobs : t.bobs = s.bobs := by rfl) :
    StoresNothing w p s₀ t :=
  ⟨hs.mem.trans mem, wells.trans hs.wells, jobs.trans hs.jobs, hs.others.trans_bobs bobs⟩

theorem StoresNothing.access (h : accessed s t) : StoresNothing w p s₀ t := hs.update h.sameMem h.wells h.jobs h.bobs

theorem StoresNothing.onlyRegs (h : OnlyRegs s t) : StoresNothing w p s₀ t := by
  obtain ⟨regs, rfl⟩ := h
  exact hs.update

theorem StoresNothing.incFld {o hi lo n : Nat} : StoresNothing w p s₀ (s.incFld o hi lo n) :=
  hs.onlyRegs OnlyRegs.refl.setReg

theorem StoresNothing.countEv {v src n : Nat} : StoresNothing w p s₀ (s.countEv v src n) :=
  hs.access (s.countEv_accessed v src n)

theorem StoresNothing.handshakes {v n : Nat} {before after : Pillow} :
    StoresNothing w p s₀ (s.handshakes v n before after) := hs.countEv

theorem StoresNothing.readVias {v ctx : Nat} {rs : List (Nat × Nat)} : StoresNothing w p s₀ (s.readVias v ctx rs) :=
  hs.access (accessed.foldl (fun t (r : Nat × Nat) => t.readVia_accessed v ctx r.1 r.2) rs s)

theorem StoresNothing.convert {f : Fmt} {c : Word32} {rows : List (List Num)} :
    StoresNothing w p s₀ (s.convert f c rows).2 := by
  unfold State.convert
  exact hs.update

theorem StoresNothing.ite {c : Prop} [Decidable c] (ht : StoresNothing w p s₀ t) :
    StoresNothing w p s₀ (if c then s else t) := by
  split
  · exact hs
  · exact ht

theorem StoresNothing.setPoison {l : Loc} : StoresNothing w p s₀ (s.setPoison l) := by
  have frame := { s with poison := tabPut false s.poison (blockKey l) true }.recountPoison_frame l.tier
  refine hs.update ⟨?_, ?_, ?_, ?_, ?_, ?_⟩ ?_ ?_ ?_
  · exact (congrArg State.cistern frame :)
  · exact (congrArg State.reservoir frame :)
  · exact (congrArg State.aquifer frame :)
  · exact (congrArg State.hostMem frame :)
  · exact (congrArg State.boot frame :)
  · exact (congrArg State.recovery frame :)
  · exact (congrArg State.wells frame :)
  · exact (congrArg State.jobs frame :)
  · exact (congrArg State.bobs frame :)

/-- An error of a cistern block that a step meets is counted or marks the block (R397, R399). -/
theorem StoresNothing.metBlock {ev : EccEv} : StoresNothing w p s₀ (s.metBlock ev) := by
  unfold State.metBlock
  split
  · exact hs.ite (hs.setPoison.ite hs.incFld)
  · exact hs

/-! ### Movement (R197 to R204, R215 to R220) -/

theorem StoresNothing.loadRows {r : Run} {d : TReg} {f : Fmt} {r0 : Int} {nr : Nat} {k0 : Int} {nb : Nat} {sc : Bool} :
    ExOk (StoresNothing w p s₀ ·.2.2) (s.loadRows r d f r0 nr k0 nb sc) := by
  unfold State.loadRows
  refine ExOk.bindAny fun _ => ?_
  dsimp only
  refine ExOk.ite (ExOk.ite (ExOk.bindAny fun _ => ExOk.pure hs) (ExOk.bindAny fun _ => ExOk.pure hs)) ?_
  exact ExOk.ite (ExOk.bindAny fun _ => ExOk.bindAny fun _ => ExOk.bindAny fun _ => ExOk.pure hs.convert)
    (ExOk.bindAny fun _ => ExOk.bindAny fun _ => ExOk.bindAny fun _ => ExOk.pure hs.convert)

theorem StoresNothing.ldt {r : Run} {word : Word} : ExOk (StoresNothing w p s₀ ·.2) (State.ldt w p s r word) := by
  unfold State.ldt
  refine ExOk.error.ite (ExOk.error.ite (hs.loadRows.bind fun _ h => ?_))
  dsimp only
  exact ExOk.ite (ExOk.pure h.readVias) (ExOk.pure h.readVias)

theorem StoresNothing.pushStores (hp : p < 136) {r : Run} {runs : List MaskRun} :
    StoresNothing w p s₀ (s.pushStores w p r runs).2 := by
  unfold State.pushStores
  dsimp only
  split
  · exact hs
  · exact ⟨hs.mem, hs.wells, hs.jobs, hs.others.setBob hp _⟩

theorem StoresNothing.stt (hp : p < 136) {r : Run} {word : Word} :
    ExOk (StoresNothing w p s₀ ·.2) (State.stt w p s r word) := by
  unfold State.stt
  refine ExOk.bindAny fun _ => ExOk.bindAny fun _ => ?_
  dsimp only
  exact ExOk.pure (hs.handshakes.convert.pushStores hp)

theorem StoresNothing.pst (hp : p < 136) {r : Run} {word : Word} :
    ExOk (StoresNothing w p s₀ ·.2) (State.pst w p s r word) := by
  unfold State.pst
  dsimp only
  exact ExOk.ok (hs.pushStores hp).handshakes

theorem StoresNothing.enterRows {v id n : Nat} : StoresNothing w p s₀ (s.enterRows v id n) := by
  induction n generalizing s with
  | zero => exact hs
  | succ n ih =>
    unfold State.enterRows
    split
    · exact hs
    · exact hs.ite (StoresNothing.ite (ih hs.update) hs)

theorem StoresNothing.issueReq {v : Nat} {r : Run} {q : Req} : StoresNothing w p s₀ (s.issueReq v r q).2 := by
  have entered {q : Req} : StoresNothing w p s₀
      (({ s with nextId := s.nextId + 1, reqs := (s.nextId, q) :: s.reqs }).enterRows v s.nextId rowFuel) :=
    StoresNothing.enterRows hs.update
  unfold State.issueReq State.afterEnter
  dsimp only
  split
  · exact entered
  · exact entered.incFld

theorem StoresNothing.gat {r : Run} {word : Word} : ExOk (StoresNothing w p s₀ ·.2) (State.gat w p s r word) :=
  ExOk.error.ite (ExOk.ok hs.issueReq)

theorem StoresNothing.sctData {r : Run} {word : Word} {f : Fmt} {d : TReg} :
    ExOk (StoresNothing w p s₀ ·.2.2) (s.sctData r word f d) := by
  unfold State.sctData
  refine ExOk.ite (ExOk.bindAny fun _ => ExOk.bindAny fun _ => ?_) (ExOk.ok hs)
  dsimp only
  exact ExOk.pure hs.handshakes.convert

theorem StoresNothing.sct {r : Run} {word : Word} : ExOk (StoresNothing w p s₀ ·.2) (State.sct w p s r word) := by
  unfold State.sct
  refine ExOk.error.ite (hs.sctData.bind fun _ h => ?_)
  dsimp only
  exact ExOk.ite (ExOk.pure h) (ExOk.bindAny fun _ => ExOk.pure h.readVias.issueReq)

/-! ### Products, conversions and the epilogue unit (R206 to R246) -/

theorem StoresNothing.mma {v : Nat} {r : Run} {word : Word} : ExOk (StoresNothing w p s₀ ·.2) (State.mma v s r word) := by
  unfold State.mma
  dsimp only
  split
  · exact ExOk.bindAny fun _ => ExOk.pure (hs.countEv.countEv.ite hs.countEv)
  · exact ExOk.bindAny fun _ => ExOk.pure (hs.countEv.countEv.ite hs.countEv)

theorem StoresNothing.cvt {v : Nat} {r : Run} {word : Word} : ExOk (StoresNothing w p s₀ ·.2) (State.cvt v s r word) := by
  unfold State.cvt
  refine ExOk.bindAny fun _ => ?_
  dsimp only
  exact ExOk.bindAny fun _ => ExOk.pure hs.convert.countEv

theorem StoresNothing.qnt {v : Nat} {r : Run} {word : Word} : ExOk (StoresNothing w p s₀ ·.2) (State.qnt v s r word) := by
  unfold State.qnt
  refine ExOk.bindAny fun _ => ExOk.bindAny fun _ => ?_
  dsimp only
  exact ExOk.pure hs.handshakes.convert

/-- What works on accumulators alone, once they are scaled, counts its handshakes and no more (R225, R227). -/
theorem StoresNothing.scaled {r : Run} {ns : List Nat} {v : Nat} {n : Run → Nat} {g : Run → Run} :
    ExOk (StoresNothing w p s₀ ·.2)
      (s.scaleSlots r ns >>= fun r' => pure (g r', s.handshakes v (n r') r.pil r'.pil) : TOut) :=
  ExOk.bindAny fun _ => ExOk.pure hs.handshakes

theorem StoresNothing.mapSet {v : Nat} {r : Run} {x : VecOp} {per : Nat} {f : Run → Nat → Nat → Nat → Word32 → Word32} :
    ExOk (StoresNothing w p s₀ ·.2) (s.mapSet v r x per f) := hs.scaled

theorem StoresNothing.sfn {g : SpFn} {v : Nat} {r : Run} {word : Word} :
    ExOk (StoresNothing w p s₀ ·.2) (State.sfn g v s r word) := by
  unfold State.sfn
  refine ExOk.bindAny fun _ => hs.mapSet.bind fun _ h => ?_
  dsimp only
  exact ExOk.pure h

end

/-- A data instruction stores nothing itself: what STT and PST write stands in the store queue of their bobbin (R144). -/
theorem StoresNothing.tileInstr {i : Instr} {w : WellId} {p : PhysId} {ev : EccEv} {kind : TKind}
    {f : State → Run → Word → TOut} (h : tileInstr i = some (w, p, ev, kind, f)) {s₀ s : State}
    (hs : StoresNothing w p s₀ s) (r : Run) (word : Word) : ExOk (StoresNothing w p s₀ ·.2) (f s r word) := by
  have hp : p.val < 136 := p.isLt
  cases i <;> cases h
  case ldt => exact hs.ldt
  case stt => exact hs.stt hp
  case mma => exact hs.mma
  case cvt => exact hs.cvt
  case qnt => exact hs.qnt
  case epiPst => exact hs.pst hp
  case epiGate | redSum | redMax | redSumsq | smxStep | smxFold => exact hs.scaled
  case epiAddv | epiBas | epiConv | epiRecon | bias => exact hs.mapSet
  case sfnExp | sfnLog | sfnRcp | sfnRsqrt => exact hs.sfn
  case gat => exact hs.gat
  case sct => exact hs.sct

/-- The end of a data instruction whose work is done, with no uncorrectable error in the pillow (R140, R169). -/
theorem tFinish_done {ev : EccEv} (clean : ev ≠ .uncorrectable) (w p : Nat) (s : State) (r r' : Run) (u : State) :
    tFinish ev w p s r (.ok (r', u))
      = .next (((u.pillowChecked w ev).countGuard w r.counts r'.counts).doneRun w p r') := by
  cases ev with
  | uncorrectable => exact absurd rfl clean
  | clean => simp [tFinish, State.pillowChecked]
  | corrected => simp [tFinish, State.pillowChecked]
  | block v n bad => simp [tFinish, State.pillowChecked]

/-- Settles O18: the template step runs, its end counts, and each instruction's work leaves what `StoresNothing` says. -/
theorem tileInstructionsComplete : Obligations.TileInstructionsComplete := by
  intro s i w p ev kind f word r r' u instr clean at_ decoded border work
  have done_ := StoresNothing.tileInstr instr (StoresNothing.refl.metBlock (ev := ev)) r word _ work
  obtain ⟨cistern, reservoir, aquifer, hostMem, -, -⟩ := done_.mem
  refine ⟨?_, cistern, reservoir, aquifer, hostMem, done_.wells, done_.jobs, done_.others⟩
  rw [exec_tileInstr instr, tWork, tStep_runs at_ _ decoded border, work, tFinish_done clean]

end Sys2Proof.Machine
end

section
/-!
SUPPORT. Stitches that end before their time (R159, R161, R162, R252): the record of a bobbin's exception, and what the
terminate class leaves.
-/
namespace Sys2Proof.Machine

/-! ### Registers of a well beside reports (R757, R796, R798) -/

theorem le_rWl (w o : Nat) : 0x1000000 ≤ rWl w o := by
  rw [rWl, Nat.add_assoc]
  exact Nat.le_add_right _ _

/-- The collector's registers lie below the wells' blocks. -/
theorem not_mem_reportRegs {r o : Nat} (source : r < 2 ^ 16) (well : 0x1000000 ≤ o) : o ∉ reportRegs r := by
  simp only [reportRegs, List.mem_cons, List.not_mem_nil, or_false, not_or, rFcRec, rFcTb, rFcDet, rFcSummary, rFcAlert]
  omega

section
variable {s : State}

/-- A part of a well reports, and no register of a well's block changes. -/
theorem State.reg_reportSelf_of_well {src cls sev unit detail o : Nat} (src_lt : src < 12) (cls_lt : cls < 16)
    (well : 0x1000000 ≤ o) : (s.reportSelf src cls sev unit detail).reg o = s.reg o :=
  State.reg_report (not_mem_reportRegs (by omega) well)

theorem State.bobs_reportSelf (src cls sev unit detail : Nat) : (s.reportSelf src cls sev unit detail).bobs = s.bobs := by
  obtain ⟨regs, msix, last, e⟩ := s.report_eq src cls sev src unit unit detail
  rw [State.reportSelf, e]

/-! ### Record registers with VALID and OVERRUN (R14) -/

section
variable {o : Nat} {v : Word} (first : bitOf (s.reg o) 63 = false)
include first

theorem State.reg_latch_of_first : (s.latch o v).reg o = setBits (setBits v 63 63 1) 62 62 (s.fld o 62 62) := by
  rw [State.latch, if_neg (by simp [first]), State.reg_setReg]

theorem State.valid_latch_of_first : (s.latch o v).fld o 63 63 = 1 := by
  rw [State.fld, State.reg_latch_of_first first,
    bitsOf_setBits_of_apart (by decide) (by decide) (by decide) (.inr (by decide)),
    bitsOf_setBits _ _ _ _ (by decide) (by decide)]
  rfl

theorem State.overrun_latch_of_first : (s.latch o v).fld o 62 62 = s.fld o 62 62 := by
  rw [State.fld, State.reg_latch_of_first first, bitsOf_setBits _ _ _ _ (by decide) (by decide)]
  exact Nat.mod_eq_of_lt (State.fld_bit_lt ..)

/-- The first record since VALID was cleared stands in the fields below. -/
theorem State.fld_latch_of_first {a b : Nat} (hab : b ≤ a) (below : a < 62) : (s.latch o v).fld o a b = bitsOf v a b := by
  rw [State.fld, State.reg_latch_of_first first,
    bitsOf_setBits_of_apart (by decide) hab (by omega) (.inl below),
    bitsOf_setBits_of_apart (by decide) hab (by omega) (.inl (by omega))]

end

/-- A job without a status that has not committed takes the status. -/
theorem State.job_failJob {j status addr : Nat} {x : Job} (job : s.job j = some x) (none_yet : x.status = none)
    (open_ : x.phase ≠ .committed) :
    (s.failJob j status addr).job j = some { x with status := some status, addr := addr, phase := .stopping } := by
  rw [State.job, State.jobs_failJob job none_yet open_]
  exact State.job_modJob job _

theorem State.bobs_failJob {j status addr : Nat} : (s.failJob j status addr).bobs = s.bobs := by
  obtain ⟨jobs, wells, e⟩ := s.failJob_eq (j := j) (status := status) (addr := addr)
  rw [e]

/-! ### Exceptions of a bobbin (R162, R189) -/

section
variable {w p cause instr status detail : Nat} {st : Option StitchAt}

theorem bobClass_lt (cause : Nat) : bobClass cause < 16 := by
  unfold bobClass
  split <;> decide

/-- An exception noted stands in registers, fault records, vectors signalled and the collector's time. -/
theorem State.noteBob_eq : ∃ regs msix last recs, s.noteBob w p cause instr status detail st
    = { s with regs := regs, msix := msix, fcLast := last, faultRecs := recs } := by
  obtain ⟨regs, latched⟩ := (s.faultRec w p cause instr st).onlyRegs_latch (rWlBobExc w)
    (setBits (setBits (setBits (setBits (setBits 0#64 51 48 cause) 47 40 p) 39 32
      ((s.faultRec w p cause instr st).logOf w p)) 31 16 instr) 15 8 status)
  obtain ⟨regs', msix, last, e⟩ := ((s.faultRec w p cause instr st).latchBob w p cause instr status).report_eq w
    (bobClass cause) (if status = 0 then 0 else 1) w p p detail
  refine ⟨regs', msix, last, (s.faultRec w p cause instr st).faultRecs, ?_⟩
  rw [State.noteBob, State.reportSelf, e, State.latchBob, latched]
  rfl

theorem State.sameMem_noteBob : sameMem s (s.noteBob w p cause instr status detail st) := by
  obtain ⟨regs, msix, last, recs, e⟩ :=
    s.noteBob_eq (w := w) (p := p) (cause := cause) (instr := instr) (status := status) (detail := detail) (st := st)
  rw [e]
  exact ⟨rfl, rfl, rfl, rfl, rfl, rfl⟩

theorem State.bobs_noteBob : (s.noteBob w p cause instr status detail st).bobs = s.bobs := by
  obtain ⟨regs, msix, last, recs, e⟩ :=
    s.noteBob_eq (w := w) (p := p) (cause := cause) (instr := instr) (status := status) (detail := detail) (st := st)
  rw [e]

theorem State.jobs_noteBob : (s.noteBob w p cause instr status detail st).jobs = s.jobs := by
  obtain ⟨regs, msix, last, recs, e⟩ :=
    s.noteBob_eq (w := w) (p := p) (cause := cause) (instr := instr) (status := status) (detail := detail) (st := st)
  rw [e]

/-- Of a well's registers, an exception noted reaches WL_BOB_EXC alone. -/
theorem State.reg_noteBob {o : Nat} (hw : w < 12) (well : 0x1000000 ≤ o) :
    (s.noteBob w p cause instr status detail st).reg o
      = ((s.faultRec w p cause instr st).latchBob w p cause instr status).reg o :=
  State.reg_reportSelf_of_well hw (bobClass_lt cause) well

theorem State.reg_noteBob_ne {o : Nat} (hw : w < 12) (well : 0x1000000 ≤ o) (other : o ≠ rWlBobExc w) :
    (s.noteBob w p cause instr status detail st).reg o = s.reg o := by
  rw [State.reg_noteBob hw well, State.latchBob, State.reg_latch_ne _ _ other]
  rfl

/-- The first exception of a well's bobbins stands in WL_BOB_EXC (R14, R162). -/
theorem State.record_noteBob (hw : w < 12) (first : bitOf (s.reg (rWlBobExc w)) 63 = false) :
    let t := s.noteBob w p cause instr status detail st
    t.fld (rWlBobExc w) 63 63 = 1 ∧ t.fld (rWlBobExc w) 62 62 = s.fld (rWlBobExc w) 62 62
      ∧ t.fld (rWlBobExc w) 51 48 = cause % 16 ∧ t.fld (rWlBobExc w) 47 40 = p % 256
      ∧ t.fld (rWlBobExc w) 31 16 = instr % 65536 ∧ t.fld (rWlBobExc w) 15 8 = status % 256 := by
  intro t
  have fld (a b : Nat) : t.fld (rWlBobExc w) a b
      = ((s.faultRec w p cause instr st).latchBob w p cause instr status).fld (rWlBobExc w) a b := by
    rw [State.fld, State.reg_noteBob (o := rWlBobExc w) hw (le_rWl w 0xC8), State.fld]
  replace first : bitOf ((s.faultRec w p cause instr st).reg (rWlBobExc w)) 63 = false := first
  simp only [fld, State.latchBob]
  refine ⟨State.valid_latch_of_first first, State.overrun_latch_of_first first, ?_, ?_, ?_, ?_⟩
  all_goals
    rw [State.fld_latch_of_first first (by decide) (by decide)]
    simp (disch := omega) only [bitsOf_setBits_of_apart, bitsOf_setBits]
    rfl

end

/-! ### The terminate class (R159, R185) -/

theorem State.withdrawReq_eq (r : Run) : ∃ reqs, s.withdrawReq r = { s with reqs := reqs } := by
  unfold State.withdrawReq
  split
  · exact ⟨_, rfl⟩
  · exact ⟨_, rfl⟩

section
variable {w p cause status addr : Nat} {r : Run} (run : (s.bob w p).run = some r)
include run

/-- A stitch that ends is withdrawn from its bobbin after its exception is noted, and its job takes the status. -/
theorem State.terminateStitch_eq : ∃ reqs, s.terminateStitch w p cause status addr =
    ({ s.noteBob w p cause r.idx status addr (some r.place) with reqs := reqs }.setBob w p
      { s.bob w p with run := none }).failJob r.b.job status addr := by
  obtain ⟨reqs, withdrawn⟩ := (s.noteBob w p cause r.idx status addr (some r.place)).withdrawReq_eq r
  refine ⟨reqs, ?_⟩
  rw [← withdrawn]
  simp only [State.terminateStitch, run]

theorem State.terminateStitch_leaves (hp : p < 136) :
    let t := s.terminateStitch w p cause status addr
    (t.bob w p).run = none ∧ otherBobs s t w p ∧ sameMem s t := by
  obtain ⟨reqs, e⟩ := State.terminateStitch_eq (cause := cause) (status := status) (addr := addr) run
  simp only [e]
  refine ⟨?_, ?_, ?_⟩
  · rw [State.bob_of_bobs State.bobs_failJob, State.bob_setBob]
  · exact ((otherBobs.of_bobs State.bobs_noteBob).setBob hp _).trans_bobs State.bobs_failJob
  · exact State.sameMem_noteBob.trans State.sameMem_failJob

theorem State.reg_terminateStitch (o : Nat) : (s.terminateStitch w p cause status addr).reg o
    = (s.noteBob w p cause r.idx status addr (some r.place)).reg o := by
  obtain ⟨reqs, e⟩ := State.terminateStitch_eq (cause := cause) (status := status) (addr := addr) run
  rw [e, State.reg_failJob]
  rfl

theorem State.job_terminateStitch {x : Job} (job : s.job r.b.job = some x) (none_yet : x.status = none)
    (open_ : x.phase ≠ .committed) : (s.terminateStitch w p cause status addr).job r.b.job
      = some { x with status := some status, addr := addr, phase := .stopping } := by
  obtain ⟨reqs, e⟩ := State.terminateStitch_eq (cause := cause) (status := status) (addr := addr) run
  rw [e]
  refine State.job_failJob ?_ none_yet open_
  rw [State.job, State.setBob_jobs, State.jobs_noteBob, ← job, State.job]

end

end

/-- Settles O23: the step ends its stitch whatever its kind, with CAUSE 0x5 in the well's exception record. -/
theorem reservedTileWordEndsTheJob : Obligations.ReservedTileWordEndsTheJob := by
  intro s i w p kind r word kindOf at_ reserved first
  obtain ⟨k, step⟩ := exec_tileKind kindOf
  have run : (s.bob w p).run = some r := at_.1
  obtain ⟨gone, others, mem⟩ :=
    State.terminateStitch_leaves (cause := 5) (status := 0x7F) (addr := word.toNat) run p.isLt
  obtain ⟨valid, overrun, cause, phys, instr, status⟩ := State.record_noteBob (p := p) (cause := 5) (instr := r.idx)
    (status := 0x7F) (detail := word.toNat) (st := some r.place) w.isLt first
  have fld (a b : Nat) : (s.terminateStitch w p 5 0x7F word.toNat).fld (rWlBobExc w) a b
      = (s.noteBob w p 5 r.idx 0x7F word.toNat (some r.place)).fld (rWlBobExc w) a b := by
    rw [State.fld, State.reg_terminateStitch run, State.fld]
  refine ⟨_, step.trans (tStep_reserved at_ k reserved), gone, others, mem, ?_⟩
  simp only [fld]
  refine ⟨valid, overrun, cause, phys.trans (Nat.mod_eq_of_lt (by omega)), instr, status, fun x job none_yet open_ => ?_⟩
  exact ⟨_, State.job_terminateStitch run job none_yet open_, rfl, rfl⟩

end Sys2Proof.Machine
end

section
/-!
SUPPORT. The store queue's draining and the completion of a stitch (R144, R145, R147, R669).
-/
namespace Sys2Proof.Machine

section
variable {s u : State}

/-! ### Store entries (R144, R145) -/

/-- From s to t bytes of the tiers have been written, whose poison and its count they clear, and nothing else has changed. -/
def Written (s t : State) : Prop :=
  { t with cistern := s.cistern, reservoir := s.reservoir, aquifer := s.aquifer, hostMem := s.hostMem, poison := s.poison,
           regs := s.regs } = s

theorem Written.trans {t : State} (h : Written s t) (k : Written t u) : Written s u :=
  Eq.trans (congrArg (fun x : State => { x with
    cistern := s.cistern, reservoir := s.reservoir, aquifer := s.aquifer, hostMem := s.hostMem, poison := s.poison,
    regs := s.regs }) k :) h

theorem State.rawWrite_written (l : Loc) (bs : List Byte) : Written s (s.rawWrite l bs) := by
  obtain ⟨tier, a⟩ := l
  cases tier <;> rfl

theorem State.clearPoison_written (l : Loc) (n : Nat) : Written s (s.clearPoison l n) :=
  (congrArg (fun x : State => { x with
    cistern := s.cistern, reservoir := s.reservoir, aquifer := s.aquifer, hostMem := s.hostMem })
    (s.clearPoison_frame l n) :)

theorem State.writeVa_written {ctx va : Nat} {bs : List Byte} : ExOk (Written s) (s.writeVa ctx va bs) := by
  refine ExOk.error.ite (ExOk.foldlM (fun t r written => ExOk.bindAny fun l => ?_) rfl)
  dsimp only
  split
  · exact ExOk.error
  · exact ExOk.pure ((written.trans (t.clearPoison_written ..)).trans (State.rawWrite_written ..))

theorem State.drain_written {ctx : Nat} {e : StoreEntry} (drained : s.drain ctx e = .ok u) : Written s u :=
  ExOk.bindAny (fun _ => State.writeVa_written) u drained

/-- Stream windows hand frames to ports, and change nothing else (R669). -/
theorem State.windowFrames_eq (x ctx job va n : Nat) :
    ∃ links, s.windowFrames x ctx job va n = { s with links := links } := by
  unfold State.windowFrames
  dsimp only
  split
  · refine List.foldlRecOn (motive := fun t : State => ∃ links, t = { s with links := links }) _ _ ⟨_, rfl⟩ ?_
    rintro _ ⟨links, rfl⟩ c -
    split
    · exact ⟨_, rfl⟩
    · exact ⟨_, rfl⟩
  · exact ⟨_, rfl⟩

theorem State.windowSees_eq (job va n : Nat) : ∃ links, s.windowSees job va n = { s with links := links } := by
  refine List.foldlRecOn (motive := fun t : State => ∃ links, t = { s with links := links }) _ _ ⟨_, rfl⟩ ?_
  rintro _ ⟨links, rfl⟩ x -
  obtain ⟨links', e⟩ := State.windowFrames_eq (s := { s with links := links }) x
    (State.ctxOf { s with links := links } job) job va n
  exact ⟨links', e⟩

theorem StoresNothing.windowSees {w p job va n : Nat} {s₀ : State} (hs : StoresNothing w p s₀ s) :
    StoresNothing w p s₀ (s.windowSees job va n) := by
  obtain ⟨links, e⟩ := s.windowSees_eq job va n
  rw [e]
  exact hs.update

theorem State.bobs_windowSees (job va n : Nat) : (s.windowSees job va n).bobs = s.bobs := by
  obtain ⟨links, e⟩ := s.windowSees_eq job va n
  rw [e]

theorem Bobbin.drained_storeQ {b : Bobbin} {e : StoreEntry} {rest : List StoreEntry} (queue : b.storeQ = e :: rest) :
    b.drained.storeQ = rest ++ (b.run.elim [] Run.toStore).take 1 := by
  unfold Bobbin.drained
  split
  next idle => simp [queue, idle]
  next r runs => simp [queue, runs]

theorem Bobbin.drained_run (b : Bobbin) : b.drained.run = b.run.map (fun r => { r with toStore := r.toStore.drop 1 }) := by
  unfold Bobbin.drained
  split
  next idle => simp [idle]
  next r runs => simp [runs]

theorem Bobbin.drained_leaving (b : Bobbin) : b.drained.leaving = b.leaving := by
  unfold Bobbin.drained
  split
  · rfl
  · rfl

/-- The oldest entry of a queue, which waits neither for requests of its stitch nor for a miss, is written. -/
theorem exec_storeEntryVisible {w : WellId} {p : PhysId} {e : StoreEntry} {rest : List StoreEntry}
    (queue : (s.bob w p).storeQ = e :: rest)
    (free : s.reqOverlap (((s.bob w p).reqsOf e.id).filter (· < e.id)) [(e.va, e.data.length)] = false)
    (hit : s.missing w p = false) (drained : s.drain (viaQ w (s.ctxOf e.job)) e = .ok u) :
    exec (.storeEntryVisible w p) s = .next ((((u.wroteVia w (viaQ w (s.ctxOf e.job)) e.va e.data.length).setBob w p
      (u.bob w p).drained).countEv w 0x11 1).windowSees e.job e.va e.data.length) := by
  change execStoreEntryVisible w p s = _
  simp [execStoreEntryVisible, queue, free, hit, drained]

/-! ### Completion (R147, R298, R323) -/

/-- A stitch that completes is counted in its walk, and marked at its split point (R298, R323). -/
theorem State.stitchDone_eq {l : Leaving} (sound : s.scratchOk l.home (wrecAt l.slot l.wrec) = true) :
    ∃ splits, s.stitchDone l = { s.setWrec l.home l.slot l.wrec
      { s.wrec l.home l.slot l.wrec with open_ := (s.wrec l.home l.slot l.wrec).open_ - 1 } with splits := splits } := by
  unfold State.stitchDone
  simp only [sound, Bool.not_true, Bool.false_eq_true, if_false]
  split
  · exact ⟨_, rfl⟩
  · split
    · exact ⟨_, rfl⟩
    · exact ⟨_, rfl⟩

end

/-- Settles O26: after the entry's bytes are written the step changes no memory, and of the bobbins its own queue; a
stitch's completion is that of `stitchDone`. -/
theorem stitchesDrainAndComplete : Obligations.StitchesDrainAndComplete := by
  refine ⟨fun s u w p e rest queue free hit drained => ?_, fun s w p l oldest sound => ?_⟩
  · have frame : Written s u := State.drain_written drained
    have bobs : u.bobs = s.bobs := (congrArg State.bobs frame :)
    have wells : u.wells = s.wells := (congrArg State.wells frame :)
    have jobs : u.jobs = s.jobs := (congrArg State.jobs frame :)
    have step := exec_storeEntryVisible queue free hit drained
    rw [State.bob_of_bobs bobs] at step
    have wrote : StoresNothing w p u (u.wroteVia w (viaQ w (s.ctxOf e.job)) e.va e.data.length) :=
      StoresNothing.refl.access (u.wroteVia_accessed w _ _ _)
    have left : StoresNothing w p u ((u.wroteVia w (viaQ w (s.ctxOf e.job)) e.va e.data.length).setBob w p
        (s.bob w p).drained) := ⟨wrote.mem, wrote.wells, wrote.jobs, wrote.others.setBob p.isLt _⟩
    have seen := (left.countEv (v := w) (src := 0x11) (n := 1)).windowSees (job := e.job) (va := e.va) (n := e.data.length)
    refine ⟨_, step, seen.mem, ?_⟩
    rw [State.bob_of_bobs (State.bobs_windowSees ..), State.bob_of_bobs (State.bobs_countEv ..), State.bob_setBob]
    exact ⟨Bobbin.drained_storeQ queue, Bobbin.drained_run _, Bobbin.drained_leaving _,
      (otherBobs.of_bobs bobs).trans seen.others, seen.wells.trans wells, seen.jobs.trans jobs⟩
  · have step : exec (.stitchCompletion w p) s = .next ((s.setBob w p
        { s.bob w p with leaving := (s.bob w p).leaving.erase l }).stitchDone l) := by
      change execStitchCompletion w p s = _
      rw [execStitchCompletion, oldest, needSome_some]
    obtain ⟨splits, counted⟩ := State.stitchDone_eq
      (s := s.setBob w p { s.bob w p with leaving := (s.bob w p).leaving.erase l })
      ((State.scratchOk_congr rfl ..).trans sound)
    rw [counted] at step
    exact ⟨_, step, State.bob_setBob .., (otherBobs.of_bobs rfl).setBob p.isLt _, State.wrec_setWrec .., rfl⟩

end Sys2Proof.Machine
end

section
/-!
SUPPORT. The control instructions of a bobbin (R160, R209, R243, R248, R250 to R254): their equations at their words,
waits and their limit, and the two ends of an attempt.
-/
namespace Sys2Proof.Machine

/-! ### Accesses beside the bobbins and the event counters -/

section
variable {s t u : State} {w p : Nat}

theorem accessed.withBobs (h : accessed s t) (bobs : Tab Bobbin) :
    accessed { s with bobs := bobs } { t with bobs := bobs } := by
  obtain ⟨frame, fills, regs⟩ := h
  exact ⟨congrArg (fun x : State => { x with bobs := bobs }) frame, fills, regs⟩

/-- What an access leaves where event counters were raised. -/
theorem accessed.exceptEvents {events : Tab Nat} (h : accessed { s with events := events } t) :
    accessed s { t with events := s.events } := by
  obtain ⟨frame, fills, regs⟩ := h
  exact ⟨(congrArg (fun x : State => { x with events := s.events }) frame :), fills, regs⟩

/-- What an instruction leaves that makes an access, and goes on. -/
theorem accessed.doneRun (h : accessed s u) (w : WellId) (p : PhysId) (r : Run) :
    accessed s { u.doneRun w p r with bobs := s.bobs } := by
  have done_ := u.doneRun_accessed w p r
  rw [h.bobs] at done_
  exact h.trans done_

theorem State.event_doneRun (w p : Nat) (r : Run) (v k e : Nat) : (s.doneRun w p r).event v k e = s.event v k e := by
  have fetched : (s.readVia w (s.runCtx r) (tmplAddr r.b.tmpl r.idx) 8).events = s.events :=
    (congrArg State.events (s.readVia_accessed ..).1 :)
  rw [State.event, State.doneRun, State.putRun, State.setBob_events, fetched, State.event]

theorem State.event_countEv (w src n v k e : Nat) : (s.countEv w src n).event v k e = s.event v k e := by
  have events : (s.countEv w src n).events = s.events := (congrArg State.events (s.countEv_rest w src n) :)
  rw [State.event, events, State.event]

end

/-- An event counter of a stitch's job slot on its home well raised and counted (R250). -/
def State.signalled (s : State) (w : Nat) (r : Run) (e n : Nat) : State :=
  (s.setEvent r.b.home r.b.slot e (min (s.event r.b.home r.b.slot e + n) (2 ^ 32 - 1))).countEv w 0x12 1

section
variable (s : State) (w : Nat) (r : Run) (e n : Nat)

theorem State.bobs_signalled : (s.signalled w r e n).bobs = s.bobs := by
  rw [State.signalled, State.bobs_countEv, State.setEvent_bobs]

theorem State.event_signalled :
    (s.signalled w r e n).event r.b.home r.b.slot e = min (s.event r.b.home r.b.slot e + n) (2 ^ 32 - 1) := by
  rw [State.signalled, State.event_countEv, State.event_setEvent]

theorem State.signalled_accessed : accessed (s.setEvent r.b.home r.b.slot e (min (s.event r.b.home r.b.slot e + n)
    (2 ^ 32 - 1))) (s.signalled w r e n) := State.countEv_accessed _ w 0x12 1

end

/-! ### The instructions at their words (R209, R243, R248, R250, R251, R254) -/

section
variable {s : State} {w : WellId} {p : PhysId} {r : Run} {word : Word} (at_ : s.bobAt w p r word)
include at_

theorem exec_zclr (kind : tDecode word = some .zclr) : exec (.zclr w p) s = .next (s.doneRun w p
    { r with pil := ((List.range 16).filter (fun n => bitOf word n)).foldl Pillow.zClear r.pil }) :=
  tStep_runs at_ _ kind nofun

theorem exec_smxInit (kind : tDecode word = some (.smx 0)) : exec (.smxInit w p) s
    = .next ((s.countEv w 0x09 6).doneRun w p { r with pil := r.pil.smxInit (r.vec word).pd }) :=
  tStep_runs at_ _ kind nofun

theorem exec_guard (kind : tDecode word = some .guard) : exec (.guard w p) s = .next ((s.countEv w 0x09 1).doneRun w p { r with
      pil := r.pil.guardOut (bitsOf word 47 44)
        [r.counts.clamp, r.counts.edge, r.accPend, r.counts.score, r.counts.out, r.rung, r.attempt, r.rep] }) :=
  tStep_runs at_ _ kind nofun

section
variable (kind : tDecode word = some .sig) (stores : s.storesDone w p r = true) (reqs : s.reqsDone r = true)
include kind stores reqs

/-- A SIG that an earlier run of the stitch has issued only goes on (R160). -/
theorem exec_sig_issued (issued : r.reqNo < r.b.entry.issued) :
    exec (.sig w p) s = .next (s.doneRun w p { r with reqNo := r.reqNo + 1 }) := by
  refine (tStep_runs at_ _ kind nofun).trans ?_
  simp [stores, reqs, issued]

/-- A SIG raises its event (R250). -/
theorem exec_sig_raises (new : ¬ r.reqNo < r.b.entry.issued)
    (sound : s.scratchOk r.b.home (eventAt r.b.slot (bitsOf word 47 32)) = true) : exec (.sig w p) s
      = .next ((s.signalled w r (bitsOf word 47 32) (bitsOf word 31 0)).doneRun w p { r with reqNo := r.reqNo + 1 }) := by
  refine (tStep_runs at_ _ kind nofun).trans ?_
  simp only [stores, reqs, new, Bool.and_self, Bool.not_true, Bool.false_eq_true, if_false]
  rw [State.scratch_of_ok sound, State.raiseEvent_of_ok sound]
  rfl

end

theorem exec_waits (kind : tDecode word = some .waits)
    (sound : s.scratchOk r.b.home (eventAt r.b.slot (bitsOf word 47 32)) = true) :
    exec (.waits w p) s =
      if bitsOf word 31 0 ≤ s.event r.b.home r.b.slot (bitsOf word 47 32) then .next (s.doneRun w p r)
      else .next ((s.putRun w p { r with waits := some (bitsOf word 47 32, bitsOf word 31 0, s.now) }).countEv w 0x13 1) :=
  (tStep_runs at_ _ kind nofun).trans (State.scratch_of_ok sound _ _)

/-- The state in which an END judges its attempt: its word fetched, the counts of its accumulators counted (R254). -/
def State.endCounted (s : State) (w : Nat) (r : Run) : State :=
  (s.readVia w (s.runCtx r) (tmplAddr r.b.tmpl r.idx) 8).countGuard w r.counts r.endCounts

theorem exec_endOp (kind : tDecode word = some .end_) : exec (.endOp w p) s =
    let u := s.endCounted w r
    let hit := r.endCounts.over r.b.guard
    let top := u.atTop r
    if hit && !top && guardScope r.b.guard == 0 then .next (u.replayRun w p r)
    else
      let u := if hit && top then u.incFld (rWlGuardStat w) 31 16 1 else u
      let u := if hit && !top then u.addHit w else u
      .next (u.keepRun w p r) :=
  tStep_runs at_ _ kind nofun

end

/-! ### SIG and WAITS (R250 to R252) -/

section
variable {s : State} {w : WellId} {p : PhysId} {r : Run} {word : Word}

/-- What a SIG leaves: its run goes on, and its event stands as it raised it. -/
theorem exec_sig_goes (at_ : s.bobAt w p r word) (kind : tDecode word = some .sig)
    (stores : s.storesDone w p r = true) (reqs : s.reqsDone r = true)
    (sound : s.scratchOk r.b.home (eventAt r.b.slot (bitsOf word 47 32)) = true) :
    ∃ t, exec (.sig w p) s = .next t
      ∧ t.event r.b.home r.b.slot (bitsOf word 47 32)
          = (if r.reqNo < r.b.entry.issued then s.event r.b.home r.b.slot (bitsOf word 47 32)
             else min (s.event r.b.home r.b.slot (bitsOf word 47 32) + bitsOf word 31 0) (2 ^ 32 - 1))
      ∧ (t.bob w p).run = some (Run.advance { r with reqNo := r.reqNo + 1 })
      ∧ otherBobs s t w p ∧ accessed s { t with bobs := s.bobs, events := s.events } := by
  by_cases issued : r.reqNo < r.b.entry.issued
  · have left := (accessed.refl s).doneRun w p { r with reqNo := r.reqNo + 1 }
    refine ⟨_, exec_sig_issued at_ kind stores reqs issued, ?_, State.run_doneRun _,
      State.otherBobs_doneRun _ p.isLt, (accessed.exceptEvents (s := s) (events := s.events) left :)⟩
    rw [if_pos issued, State.event_doneRun]
  · have left := (s.signalled_accessed w r (bitsOf word 47 32) (bitsOf word 31 0)).doneRun w p
      { r with reqNo := r.reqNo + 1 }
    refine ⟨_, exec_sig_raises at_ kind stores reqs issued sound, ?_, State.run_doneRun _,
      (otherBobs.of_bobs (State.bobs_signalled ..)).trans (State.otherBobs_doneRun _ p.isLt),
      (accessed.exceptEvents (s := s) left :)⟩
    rw [if_neg issued, State.event_doneRun, State.event_signalled]

theorem exec_waits_stalls (at_ : s.bobAt w p r word) (kind : tDecode word = some .waits)
    (sound : s.scratchOk r.b.home (eventAt r.b.slot (bitsOf word 47 32)) = true)
    (below : s.event r.b.home r.b.slot (bitsOf word 47 32) < bitsOf word 31 0) :
    ∃ t, exec (.waits w p) s = .next t
      ∧ (t.bob w p).run = some { r with waits := some (bitsOf word 47 32, bitsOf word 31 0, s.now) }
      ∧ otherBobs s t w p ∧ { t with bobs := s.bobs, regs := s.regs } = s := by
  refine ⟨_, (exec_waits at_ kind sound).trans (if_neg (Nat.not_le.mpr below)), ?_, ?_, ?_⟩
  · rw [State.bob_of_bobs (State.bobs_countEv ..), State.putRun, State.bob_setBob]
  · exact ((otherBobs.of_bobs rfl).setBob p.isLt _).trans_bobs (State.bobs_countEv ..)
  · exact (congrArg (fun u : State => { u with bobs := s.bobs, regs := s.regs }) (State.countEv_rest _ w 0x13 1) :)

variable {e n since : Nat} (run : (s.bob w p).run = some r) (waits : r.waits = some (e, n, since))
include run waits

theorem exec_waitsSatisfied (sound : s.scratchOk r.b.home (eventAt r.b.slot e) = true)
    (reached : n ≤ s.event r.b.home r.b.slot e) :
    exec (.waitsSatisfied w p) s = .next (s.doneRun w p { r with waits := none }) := by
  change execWaitsSatisfied w p s = _
  rw [execWaitsSatisfied, run, needSome_some, waits, needSome_some, State.scratch_of_ok sound,
    need_of (decide_eq_true reached)]

/-- The state in which the limit of a WAITS is recorded and reported (R252). -/
def State.limitNoted (s : State) (w p : Nat) (r : Run) (e n : Nat) : State :=
  ((s.faultRec w p 0 r.idx (some r.place)).latch (rWlEvtStat w)
    (setBits (setBits (setBits 0#64 55 48 p) 47 32 e) 31 0 n)).reportSelf w 0x5 1 p e

theorem exec_waitsLimitExpiry (late : since + s.evtLimit w < s.now) (below : s.event r.b.home r.b.slot e < n)
    (running : ∀ x, s.job r.b.job = some x → x.phase ≠ .preempting) :
    exec (.waitsLimitExpiry w p) s = .next (((s.limitNoted w p r e n).setBob w p
      { (s.limitNoted w p r e n).bob w p with run := none }).failJob r.b.job 0x7F 0) := by
  have expired : s.waitsOver w r (e, n, since) = true := by
    have kept : (s.job r.b.job).any (fun j => decide (j.phase = .preempting)) = false := by
      cases job : s.job r.b.job with
      | none => rfl
      | some x => simpa using running x job
    simp [State.waitsOver, late, below, kept]
  change execWaitsLimitExpiry w p s = _
  rw [execWaitsLimitExpiry, run, needSome_some, waits, needSome_some, need_of expired]
  rfl

end

section
variable {s : State} {w : WellId} {p : PhysId} {r : Run} {e n : Nat}

theorem State.bobs_limitNoted : (s.limitNoted w p r e n).bobs = s.bobs := by
  obtain ⟨regs, latched⟩ := (s.faultRec w p 0 r.idx (some r.place)).onlyRegs_latch (rWlEvtStat w)
    (setBits (setBits (setBits 0#64 55 48 p.val) 47 32 e) 31 0 n)
  rw [State.limitNoted, State.bobs_reportSelf, latched]
  rfl

theorem State.jobs_limitNoted : (s.limitNoted w p r e n).jobs = s.jobs := by
  obtain ⟨regs, latched⟩ := (s.faultRec w p 0 r.idx (some r.place)).onlyRegs_latch (rWlEvtStat w)
    (setBits (setBits (setBits 0#64 55 48 p.val) 47 32 e) 31 0 n)
  rw [State.limitNoted, State.jobs_reportSelf, latched]
  rfl

theorem State.sameMem_limitNoted : sameMem s (s.limitNoted w p r e n) :=
  (State.onlyRegs_latch (s := s.faultRec w p 0 r.idx (some r.place)) _ _).sameMem.trans (State.sameMem_reportSelf ..)

/-- The first limit of a well stands in WL_EVT_STAT (R252, R257). -/
theorem State.record_limitNoted (first : bitOf (s.reg (rWlEvtStat w)) 63 = false) :
    let t := s.limitNoted w p r e n
    t.fld (rWlEvtStat w) 63 63 = 1 ∧ t.fld (rWlEvtStat w) 55 48 = p.val ∧ t.fld (rWlEvtStat w) 47 32 = e % 65536
      ∧ t.fld (rWlEvtStat w) 31 0 = n % 2 ^ 32 := by
  have fld (a b : Nat) : (s.limitNoted w p r e n).fld (rWlEvtStat w) a b
      = ((s.faultRec w p 0 r.idx (some r.place)).latch (rWlEvtStat w)
      (setBits (setBits (setBits 0#64 55 48 p.val) 47 32 e) 31 0 n)).fld (rWlEvtStat w) a b := by
    rw [State.fld, State.limitNoted, State.reg_reportSelf_of_well (o := rWlEvtStat w) w.isLt (by decide) (le_rWl w 0x120),
      State.fld]
  replace first : bitOf ((s.faultRec w p 0 r.idx (some r.place)).reg (rWlEvtStat w)) 63 = false := first
  simp only [fld]
  refine ⟨State.valid_latch_of_first first, ?_, ?_, ?_⟩
  all_goals
    rw [State.fld_latch_of_first first (by decide) (by decide)]
    simp (disch := omega) only [bitsOf_setBits_of_apart, bitsOf_setBits]
  case refine_1 => exact Nat.mod_eq_of_lt (by omega)
  all_goals rfl

/-- A stitch past the limit of its WAITS ends, and its job with INTERNAL (R252). -/
theorem exec_waitsLimitExpiry_ends {since : Nat} (run : (s.bob w p).run = some r) (waits : r.waits = some (e, n, since))
    (late : since + s.evtLimit w < s.now) (below : s.event r.b.home r.b.slot e < n)
    (running : ∀ x, s.job r.b.job = some x → x.phase ≠ .preempting) :
    ∃ t, exec (.waitsLimitExpiry w p) s = .next t ∧ (t.bob w p).run = none ∧ otherBobs s t w p ∧ sameMem s t
      ∧ (bitOf (s.reg (rWlEvtStat w)) 63 = false →
          t.fld (rWlEvtStat w) 63 63 = 1 ∧ t.fld (rWlEvtStat w) 55 48 = p.val
            ∧ t.fld (rWlEvtStat w) 47 32 = e % 65536 ∧ t.fld (rWlEvtStat w) 31 0 = n % 2 ^ 32)
      ∧ ∀ x, s.job r.b.job = some x → x.status = none → x.phase ≠ .committed →
          t.job r.b.job = some { x with status := some 0x7F, addr := 0, phase := .stopping } := by
  refine ⟨_, exec_waitsLimitExpiry run waits late below running, ?_, ?_, ?_, fun first => ?_,
    fun x job none_yet open_ => State.job_failJob ?_ none_yet open_⟩
  · rw [State.bob_of_bobs State.bobs_failJob, State.bob_setBob]
  · exact ((otherBobs.of_bobs State.bobs_limitNoted).setBob p.isLt _).trans_bobs State.bobs_failJob
  · exact State.sameMem_limitNoted.trans State.sameMem_failJob
  · simp only [State.fld, State.reg_failJob]
    exact State.record_limitNoted first
  · rw [State.job, State.setBob_jobs, State.jobs_limitNoted, ← job, State.job]

/-! ### The ends of an attempt (R118 to R121, R147, R254) -/

theorem State.countGuard_accessed (v : Nat) (a b : Counts) : accessed s (s.countGuard v a b) :=
  ((((s.countEv_accessed v 0x14 _).trans (State.countEv_accessed _ v 0x15 _)).trans
    (State.countEv_accessed _ v 0x16 _)).trans (State.countEv_accessed _ v 0x17 _)).trans
    (State.countEv_accessed _ v 0x18 _)

theorem Translates.countGuard (v : Nat) (a b : Counts) : Translates s (s.countGuard v a b) :=
  ((((Translates.countEv v 0x14 _).trans (.countEv v 0x15 _)).trans (.countEv v 0x16 _)).trans
    (.countEv v 0x17 _)).trans (.countEv v 0x18 _)

theorem State.endCounted_accessed (v : Nat) (r : Run) : accessed s (s.endCounted v r) :=
  (s.readVia_accessed ..).trans (State.countGuard_accessed ..)

theorem State.keepOuts_eq (r : Run) : ∃ wells, s.keepOuts r = { s with wells := wells } := by
  unfold State.keepOuts
  split
  · exact ⟨_, rfl⟩
  · exact ⟨_, rfl⟩

/-- What a layer replay may discard is kept with the home well, and no other well changes (R120, R122). -/
theorem State.well_keepOuts (r : Run) (v : Nat) : (s.keepOuts r).well v = if v = r.b.home then
    { s.well v with layer := { (s.well v).layer with outs := (s.well v).layer.outs ++ r.outs } } else s.well v := by
  by_cases home : v = r.b.home
  · subst home
    unfold State.keepOuts
    split
    next nothing => simp [List.isEmpty_iff.mp nothing]
    next => simp
  · rw [if_neg home]
    unfold State.keepOuts
    split
    · rfl
    · exact State.well_setWell_ne _ _ home

/-- The stitch of a kept attempt as it waits for its entries and requests (R147). -/
def Run.left (r : Run) : Leaving :=
  { entry := r.back, job := r.b.job, home := r.b.home, slot := r.b.slot, wrec := r.b.wrec, prick := r.b.prick,
    tmpl := r.b.tmpl, point := r.b.point, lastStore := r.lastStore, reqs := r.reqs }

/-- The bobbin that a kept attempt leaves. -/
def Bobbin.leftBy (b : Bobbin) (r : Run) : Bobbin := { b with run := none, leaving := b.leaving ++ [r.left] }

theorem State.keepRun_eq (r : Run) :
    s.keepRun w p r = ((s.setBob w p ((s.bob w p).leftBy r)).keepOuts r).countEv w 0x04 1 := rfl

theorem State.bobs_keepRun (r : Run) : (s.keepRun w p r).bobs = (s.setBob w p ((s.bob w p).leftBy r)).bobs := by
  obtain ⟨wells, e⟩ := State.keepOuts_eq (s := s.setBob w p ((s.bob w p).leftBy r)) r
  rw [State.keepRun_eq, State.bobs_countEv, e]

theorem State.keepRun_accessed (r : Run) : accessed s { s.keepRun w p r with bobs := s.bobs, wells := s.wells } := by
  obtain ⟨wells, e⟩ := State.keepOuts_eq (s := s.setBob w p ((s.bob w p).leftBy r)) r
  rw [State.keepRun_eq, e]
  exact (((State.countEv_accessed _ w 0x04 1).withBobs s.bobs).withWells s.wells :)

/-- The pending entries of a discarded attempt change, and nothing else but free values drawn (R17, R120). -/
theorem StoresNothing.undefQueue {s₀ : State} (hs : StoresNothing w p s₀ s) (gw : BitVec 128) :
    StoresNothing w p s₀ (s.undefQueue w p gw) := by
  refine List.foldlRecOn (motive := StoresNothing w p s₀) _ _ hs fun t ht e _ => ?_
  split
  · exact ⟨ht.mem, ht.wells, ht.jobs, ht.others.setBob p.isLt _⟩
  · exact ht

/-- The state in which a discarded attempt begins again: its bytes undefined, a seed drawn, and the replay counted (R120,
R128). -/
def State.replayCounted (s : State) (w p : Nat) (r : Run) : State :=
  (((((s.undefVas (s.runCtx r) r.outs).undefQueue w p r.b.entry.gw).pillowSeed.2.incFld (rWlGuardStat w) 47 32 1).countEv
    w 0x05 1).countEv w 0x03 1)

theorem State.replayRun_eq (r : Run) : ∃ seed, s.replayRun w p r = ((s.replayCounted w p r).modJob r.b.job
    (fun x => { x with widened := true })).putRun w p (r.fresh seed (r.rung + 1) (r.attempt + 1)) := ⟨_, rfl⟩

theorem StoresNothing.replayCounted (r : Run) :
    StoresNothing w p (s.undefVas (s.runCtx r) r.outs) (s.replayCounted w p r) := by
  have queue := (StoresNothing.refl (w := w) (p := p) (s := s.undefVas (s.runCtx r) r.outs)).undefQueue r.b.entry.gw
  have seeded : StoresNothing w p (s.undefVas (s.runCtx r) r.outs)
      ((s.undefVas (s.runCtx r) r.outs).undefQueue w p r.b.entry.gw).pillowSeed.2 :=
    ⟨queue.mem, queue.wells, queue.jobs, queue.others⟩
  exact seeded.incFld.countEv.countEv

/-- A replay keeps all but the undefined bytes of its attempt, its bobbin, and its job, which counts as widened (R119 to
R121). -/
theorem State.replayRun_leaves (r : Run) :
    let t := s.replayRun w p r
    (∃ seed, (t.bob w p).run = some (r.fresh seed (r.rung + 1) (r.attempt + 1)))
      ∧ t.jobs = (s.modJob r.b.job (fun x => { x with widened := true })).jobs
      ∧ otherBobs s t w p ∧ t.wells = s.wells ∧ sameMem (s.undefVas (s.runCtx r) r.outs) t := by
  have bytes : OnlyBytes s (s.undefVas (s.runCtx r) r.outs) := s.undefVas_onlyBytes ..
  have bobs : (s.undefVas (s.runCtx r) r.outs).bobs = s.bobs := (congrArg State.bobs bytes :)
  have counted := StoresNothing.replayCounted (s := s) (w := w) (p := p) r
  obtain ⟨seed, e⟩ := State.replayRun_eq (s := s) (w := w) (p := p) r
  simp only [e, State.putRun]
  refine ⟨⟨seed, ?_⟩, ?_, ?_, ?_, counted.mem⟩
  · rw [State.bob_setBob]
  · rw [State.setBob_jobs, State.modJob, counted.jobs, State.jobs_undefVas, State.modJob]
  · exact ((otherBobs.of_bobs bobs).trans counted.others).setBob p.isLt _
  · rw [State.setBob_wells, State.modJob_wells, counted.wells, State.wells_undefVas]

end

section
variable {s : State} {w : WellId} {p : PhysId} {r : Run} {word : Word} (at_ : s.bobAt w p r word)
  (kind : tDecode word = some .end_)
include at_ kind

/-- An attempt that does not trigger is kept: its stitch leaves the bobbin (R147, R254). -/
theorem exec_endOp_keeps (hit : r.endCounts.over r.b.guard = false) :
    ∃ t, exec (.endOp w p) s = .next t ∧ (t.bob w p).run = none
      ∧ (t.bob w p).leaving = (s.bob w p).leaving ++ [r.left]
      ∧ otherBobs s t w p ∧ accessed s { t with bobs := s.bobs, wells := s.wells }
      ∧ ∀ v, t.well v = if v = r.b.home then
          { s.well v with layer := { (s.well v).layer with outs := (s.well v).layer.outs ++ r.outs } } else s.well v := by
  have counted : accessed s (s.endCounted w r) := State.endCounted_accessed ..
  have bob : (s.endCounted w r).bob w p = s.bob w p := State.bob_of_bobs counted.bobs w p
  have well (v : Nat) : (s.endCounted w r).well v = s.well v := State.well_of_wells counted.wells v
  refine ⟨(s.endCounted w r).keepRun w p r, ?_, ?_, ?_, ?_, ?_, fun v => ?_⟩
  · rw [exec_endOp at_ kind]
    simp [hit]
  · rw [State.bob_of_bobs (State.bobs_keepRun r), State.bob_setBob]
    rfl
  · rw [State.bob_of_bobs (State.bobs_keepRun r), State.bob_setBob, bob]
    rfl
  · have others := (otherBobs.of_bobs (w := w) (p := p) counted.bobs).setBob p.isLt (((s.endCounted w r).bob w p).leftBy r)
    exact others.trans_bobs (State.bobs_keepRun r)
  · have kept := State.keepRun_accessed (s := s.endCounted w r) (w := w) (p := p) r
    rw [counted.bobs, counted.wells] at kept
    exact counted.trans kept
  · rw [State.keepRun_eq, State.countEv_well, State.well_keepOuts, State.well_of_wells (State.setBob_wells ..), well]

/-- An attempt that triggers under stitch scope below its last rung is replayed one rung up (R118 to R121, R254). -/
theorem exec_endOp_replays (hit : r.endCounts.over r.b.guard = true) (below : r.rung < r.b.dlast)
    (scope : guardScope r.b.guard = 0) :
    ∃ t seed, exec (.endOp w p) s = .next t
      ∧ (t.bob w p).run = some (r.fresh seed (r.rung + 1) (r.attempt + 1))
      ∧ (∀ x, s.job r.b.job = some x → t.job r.b.job = some { x with widened := true })
      ∧ otherBobs s t w p ∧ t.wells = s.wells
      ∧ let u := s.readVia w (s.runCtx r) (tmplAddr r.b.tmpl r.idx) 8
        sameMem (u.undefVas (u.runCtx r) r.outs) t := by
  have counted : accessed s (s.endCounted w r) := State.endCounted_accessed ..
  obtain ⟨⟨seed, run⟩, jobs, others, wells, mem⟩ :=
    State.replayRun_leaves (s := s.endCounted w r) (w := w) (p := p) r
  refine ⟨_, seed, ?_, run, fun x job => ?_, (otherBobs.of_bobs counted.bobs).trans others,
    wells.trans counted.wells, ?_⟩
  · rw [exec_endOp at_ kind]
    simp [hit, scope, State.atTop, below]
  · rw [State.job, jobs]
    refine State.job_modJob ?_ _
    rw [State.job, counted.jobs, ← job, State.job]
  · have alike : Translates (s.readVia w (s.runCtx r) (tmplAddr r.b.tmpl r.idx) 8) (s.endCounted w r) :=
      .countGuard w r.counts r.endCounts
    have ctx : (s.endCounted w r).runCtx r
        = (s.readVia w (s.runCtx r) (tmplAddr r.b.tmpl r.idx) 8).runCtx r :=
      congrArg (viaQ r.b.well) (State.ctxOf_congr (State.countGuard_accessed ..).jobs)
    rw [ctx] at mem
    exact (alike.undefVas _ _).sameMem.trans mem

end

/-- Settles O22: each instruction is its equation at its word; a limit ends its stitch as an exception does, and END keeps
its attempt by `keepRun` or replays it by `replayRun`. -/
theorem bobbinControlCompletes : Obligations.BobbinControlCompletes := by
  refine ⟨fun s w p r word at_ => ⟨exec_zclr at_, fun kind => ?_, fun kind => ?_, exec_sig_goes at_,
    fun kind sound => ⟨fun reached => ?_, exec_waits_stalls at_ kind sound⟩⟩, fun s w p r e n since run waits =>
    ⟨exec_waitsSatisfied run waits, exec_waitsLimitExpiry_ends run waits⟩, fun s w p r word at_ kind =>
    ⟨exec_endOp_keeps at_ kind, exec_endOp_replays at_ kind⟩⟩
  · exact ⟨_, exec_smxInit at_ kind, State.run_doneRun _,
      (otherBobs.of_bobs (State.bobs_countEv ..)).trans (State.otherBobs_doneRun _ p.isLt),
      (s.countEv_accessed w 0x09 6).doneRun w p _⟩
  · exact ⟨_, exec_guard at_ kind, State.run_doneRun _,
      (otherBobs.of_bobs (State.bobs_countEv ..)).trans (State.otherBobs_doneRun _ p.isLt),
      (s.countEv_accessed w 0x09 1).doneRun w p _⟩
  · exact (exec_waits at_ kind sound).trans (if_pos reached)

end Sys2Proof.Machine
end

section
/-!
SUPPORT. Bobbins fenced, tested, mapped, powered and admitted (R152 to R158, R161, R164).
-/
namespace Sys2Proof.Machine

/-! ### States and mapping of bobbins (R152, R163) -/

section
variable {s t : State} {w p : Nat}

/-- A bobbin's state stands in the well's register of its 32. -/
theorem State.bobState_of_reg (h : t.reg (rWlBobState w (p / 32)) = s.reg (rWlBobState w (p / 32))) :
    t.bobState w p = s.bobState w p := by
  rw [State.bobState, State.fld, h, State.bobState, State.fld]

theorem State.bobState_setBobState (v : Nat) : (s.setBobState w p v).bobState w p = v % 4 := by
  rw [State.bobState, State.setBobState, State.fld_setFld _ _ _ _ _ (by omega) (by omega), Nat.add_sub_cancel_left]
  rfl

theorem State.physOf_setPhys (l v : Nat) : (s.setPhys w l v).physOf w l = v % 256 := by
  rw [State.physOf, State.setPhys, State.fld_setFld _ _ _ _ _ (by omega) (by omega), Nat.add_sub_cancel_left]
  rfl

theorem State.fld_setBob {v q o hi lo : Nat} {b : Bobbin} : (s.setBob v q b).fld o hi lo = s.fld o hi lo := by
  rw [State.fld, State.reg, State.setBob, State.fld, State.reg]

theorem State.logOf_lt (h : s.logOf w p ≠ 0xFF) : s.logOf w p < 128 := by
  unfold State.logOf at h ⊢
  cases found : (List.range 128).find? (fun l => s.physOf w l == p) with
  | none => exact absurd (by rw [found]; rfl) h
  | some l => exact List.mem_range.mp (List.mem_of_find?_eq_some found)

end

/-! ### Fencing (R153) -/

/-- From s to t bobbin p of well w is fenced: no byte of a memory and no register of a well from WL_BOB_CMD on has changed,
and the bobbin is FENCED with neither a run nor a store entry (R153, R161). -/
structure Fenced (w p : Nat) (s t : State) : Prop where
  mem : sameMem s t
  regs : ∀ o, rWlBobCmd w ≤ o → t.reg o = s.reg o
  state : t.bobState w p = 2
  run : (t.bob w p).run = none
  storeQ : (t.bob w p).storeQ = []

section
variable {w p : Nat} {s t u : State}

/-- A step that leaves the memories, the bobbins and the registers of the wells. -/
theorem Fenced.update (hs : Fenced w p s t) (mem : sameMem t u := by exact ⟨rfl, rfl, rfl, rfl, rfl, rfl⟩)
    (bobs : u.bobs = t.bobs := by rfl) (regs : ∀ o, 0x1000000 ≤ o → u.reg o = t.reg o := by exact fun _ _ => rfl) :
    Fenced w p s u where
  mem := hs.mem.trans mem
  regs o ho := (regs o ((le_rWl w 0xC0).trans ho)).trans (hs.regs o ho)
  state := (State.bobState_of_reg (regs _ (le_rWl w _))).trans hs.state
  run := (congrArg Bobbin.run (State.bob_of_bobs bobs w p)).trans hs.run
  storeQ := (congrArg Bobbin.storeQ (State.bob_of_bobs bobs w p)).trans hs.storeQ

variable (hs : Fenced w p s t)
include hs

theorem Fenced.requeue {v : Nat} {e : DeqEntry} : Fenced w p s (t.requeue v e) := by
  unfold State.requeue
  split
  · exact hs.update
  · exact hs

theorem Fenced.moveRun {v : Nat} {r : Run} : Fenced w p s (t.moveRun v r) := by
  obtain ⟨reqs, withdrawn⟩ := t.withdrawReq_eq r
  have left : Fenced w p s { t with reqs := reqs } := hs.update
  unfold State.moveRun
  rw [withdrawn]
  dsimp only
  split
  · exact left.update
  · exact left.requeue

theorem Fenced.moveLeft {v : Nat} {x : Leaving} : Fenced w p s (t.moveLeft v x) := by
  unfold State.moveLeft
  split
  · exact hs.update
  · exact hs.requeue

theorem Fenced.report {src cls sev rsrc unit detail : Nat} {runit : Nat} (src_lt : src < 12) (cls_lt : cls < 16) :
    Fenced w p s (t.report src cls sev rsrc runit unit detail) := by
  obtain ⟨regs, msix, last, e⟩ := t.report_eq src cls sev rsrc runit unit detail
  refine hs.update ?_ ?_ fun o ho => State.reg_report (not_mem_reportRegs (by omega) ho)
  · rw [e]
    exact ⟨rfl, rfl, rfl, rfl, rfl, rfl⟩
  · rw [e]

theorem Fenced.setFld {o hi lo v : Nat} (global : o < 0x1000000) : Fenced w p s (t.setFld o hi lo v) :=
  hs.update (bobs := rfl) (regs := fun i hi' => State.reg_setFld_ne _ _ _ _ (by omega))

end

/-- A table whose every listed value is changed at key k to one with a property that the default has, has it at k. -/
theorem tabGet_tabMap_of_forall {α : Type} [DecidableEq α] {d : α} {f : Nat → α → α} {P : α → Prop} {k : Nat}
    (hd : P d) (hf : ∀ a, P (f k a)) (t : Tab α) : P (tabGet d (tabMap d f t) k) := by
  refine List.foldlRecOn (motive := fun u => P (tabGet d u k)) _ _ hd fun u hu e _ => ?_
  rw [tabGet_put]
  split
  next same => exact same ▸ hf e.2
  next => exact hu

section
variable {w p : Nat} {s t : State}

theorem State.fenceLink_eq (l : Nat × Nat) : ∃ fabric, s.fenceLink l = { s with fabric := fabric } := by
  unfold State.fenceLink
  split
  · exact ⟨_, rfl⟩
  · exact ⟨_, rfl⟩

/-- A fenced bobbin stays so when its well is lost, whose bobbins all lose their work (R774). -/
theorem Fenced.loseWell (hs : Fenced w p s t) (hw : w < 12) (hp : p < 136) {cause : Nat} :
    Fenced w p s (t.loseWell w cause) := by
  unfold State.loseWell
  extract_lets t1 t2 t3
  have reported : Fenced w p s t2 :=
    ((((hs.setFld (by decide)).setFld (by decide)).setFld (by decide)).report hw (by decide)).setFld (by decide)
  have abandoned (P : Bobbin → Prop) (hd : P {})
      (hf : ∀ b : Bobbin, P { b with run := none, leaving := [], storeQ := [] }) :
      P (t3.bob w p) := by
    have own : (w * 136 + p) / 136 = w := by omega
    refine tabGet_tabMap_of_forall (f := fun k b =>
      if k / 136 = w then { b with run := none, leaving := [], storeQ := [] } else b) hd (fun b => ?_) t2.bobs
    rw [if_pos own]
    exact hf b
  have lost : Fenced w p s t3 := ⟨reported.mem, reported.regs, reported.state,
    abandoned (·.run = none) rfl (fun _ => rfl), abandoned (·.storeQ = []) rfl (fun _ => rfl)⟩
  refine List.foldlRecOn (motive := Fenced w p s) _ _ lost fun u hu l _ => ?_
  obtain ⟨fabric, e⟩ := u.fenceLink_eq l
  rw [e]
  exact hu.update

theorem Fenced.judgeWell (hs : Fenced w p s t) (hw : w < 12) (hp : p < 136) : Fenced w p s (t.judgeWell w) := by
  unfold State.judgeWell
  split
  · exact hs.loseWell hw hp
  · exact hs

/-- What fencing a bobbin does (R153). -/
theorem State.fenceBobbin_fences (hw : w < 12) (hp : p < 136) : Fenced w p s (s.fenceBobbin w p) := by
  unfold State.fenceBobbin
  extract_lets b l lost kept s1 s2 b' s3 s4 s5
  have regs1 (o : Nat) (ho : rWlBobCmd w ≤ o) : s1.reg o = s.reg o :=
    State.reg_setFld_ne _ _ _ _ (by simp only [rWlBobState, rWlBobCmd, rWl] at ho ⊢; omega)
  have vacant : OnlyRegs s s2 ∧ (∀ o, rWlBobState w (p / 32) ≤ o → s2.reg o = s1.reg o) := by
    unfold s2
    split
    · exact ⟨OnlyRegs.refl.setFld, fun _ _ => rfl⟩
    next numbered =>
      have l_lt : l < 128 := State.logOf_lt numbered
      refine ⟨OnlyRegs.refl.setFld.setFld, fun o ho => State.reg_setFld_ne _ _ _ _ ?_⟩
      simp only [rWlBobState, rWlBobMap, rWl] at ho ⊢
      omega
  obtain ⟨only, regs2⟩ := vacant
  have fenced : Fenced w p s s3 := by
    refine ⟨only.sameMem, fun o ho => (regs2 o ?_).trans (regs1 o ho), ?_, ?_, ?_⟩
    · exact le_trans (by simp only [rWlBobState, rWlBobCmd, rWl]; omega) ho
    · exact (State.bobState_of_reg (regs2 _ le_rfl)).trans (State.bobState_setBobState 2)
    · exact congrArg Bobbin.run (State.bob_setBob ..)
    · exact congrArg Bobbin.storeQ (State.bob_setBob ..)
  have left : Fenced w p s s4 :=
    List.foldlRecOn (motive := Fenced w p s) _ _ fenced fun u hu x _ => hu.moveLeft
  have moved : Fenced w p s s5 := by
    unfold s5
    split
    · exact left.moveRun
    · exact left
  exact (moved.report hw (by decide)).judgeWell hw hp

end

/-- A watchdog's expiry on a bobbin that is in use (R161): counted, noted with CAUSE 0x4, and the bobbin fenced. -/
theorem exec_bobbinWatchdogExpiry {s : State} {w : WellId} {p : PhysId} (inUse : s.bobState w p = 0) : ∃ u t,
    exec (.bobbinWatchdogExpiry w p) s = .next t ∧ Fenced w p u t ∧ sameMem s u
      ∧ u.fld (rWlBobEcc w) 15 0 = min (s.fld (rWlBobEcc w) 15 0 + 1) 65535 := by
  have step : exec (.bobbinWatchdogExpiry w p) s = .next (((s.incFld (rWlBobEcc w) 15 0 1).noteBob w p 4
      (((s.bob w p).run.map Run.idx).getD 0) 0 p ((s.bob w p).run.map Run.place)).fenceBobbin w p) := by
    change execBobbinWatchdogExpiry w p s = _
    rw [execBobbinWatchdogExpiry, need_of (by simp [inUse])]
  have counted : sameMem s (s.incFld (rWlBobEcc w) 15 0 1) := (OnlyRegs.refl.setFld : OnlyRegs s _).sameMem
  refine ⟨_, _, step, State.fenceBobbin_fences w.isLt p.isLt, counted.trans State.sameMem_noteBob, ?_⟩
  rw [State.fld, State.reg_noteBob_ne (o := rWlBobEcc w) w.isLt (le_rWl w 0xD0)
    (by simp only [rWlBobExc, rWlBobEcc, rWl]; omega)]
  exact State.fld_incFld _ (by decide) (by decide)

/-! ### WL_BOB_CMD (R164) -/

section
variable {s t : State} {w p : Nat} {b : Bobbin}

theorem OnlyRegs.frame (h : OnlyRegs s t) : { t with regs := s.regs } = s := by
  obtain ⟨regs, rfl⟩ := h
  rfl

theorem OnlyRegs.setBobState {v : Nat} (h : OnlyRegs s t) : OnlyRegs s (t.setBobState w p v) := h.setFld

theorem OnlyRegs.setPhys {v : Nat} (h : OnlyRegs s t) : OnlyRegs s (t.setPhys w p v) := h.setFld

theorem OnlyRegs.bobResult {busy r : Nat} (h : OnlyRegs s t) : OnlyRegs s (t.bobResult w busy r p) := h.setReg

theorem OnlyRegs.bob (h : OnlyRegs s t) : t.bob w p = s.bob w p := by
  obtain ⟨regs, rfl⟩ := h
  rfl

/-- A bobbin set after registers. -/
theorem OnlyRegs.setBob_frame (h : OnlyRegs s t) : { t.setBob w p b with regs := s.regs, bobs := s.bobs } = s := by
  obtain ⟨regs, rfl⟩ := h
  rfl

/-- A bobbin set before registers. -/
theorem OnlyRegs.frame_of_setBob (h : OnlyRegs (s.setBob w p b) t) : { t with regs := s.regs, bobs := s.bobs } = s := by
  obtain ⟨regs, rfl⟩ := h
  rfl

end

section
variable {s : State} {w phys : Nat}

/-- The value of WL_BOB_CMD that a command leaves. -/
theorem bobResult_eq (busy r phys : Nat) : setBits (setBits (setBits 0#64 31 31 busy) 30 28 r) 15 8 phys
    = BitVec.ofNat 64 (busy % 2 * 2 ^ 31 + r % 8 * 2 ^ 28 + phys % 256 * 2 ^ 8) := by
  refine BitVec.eq_of_toNat_eq ?_
  simp only [setBits, BitVec.toNat_ofNat]
  omega

theorem State.bobBusy_iff : s.bobBusy w = true ↔ s.fld (rWlBobCmd w) 31 31 = 1 := beq_iff_eq

section
variable (busy r : Nat)

theorem State.reg_bobResult : (s.bobResult w busy r phys).reg (rWlBobCmd w)
    = BitVec.ofNat 64 (busy % 2 * 2 ^ 31 + r % 8 * 2 ^ 28 + phys % 256 * 2 ^ 8) := by
  rw [State.bobResult, State.reg_setReg, bobResult_eq]

theorem State.busy_bobResult : (s.bobResult w busy r phys).fld (rWlBobCmd w) 31 31 = busy % 2 := by
  rw [State.bobResult, State.fld, State.reg_setReg]
  simp (disch := omega) only [bitsOf_setBits_of_apart, bitsOf_setBits]
  rfl

theorem State.result_bobResult : (s.bobResult w busy r phys).fld (rWlBobCmd w) 30 28 = r % 8 := by
  rw [State.bobResult, State.fld, State.reg_setReg]
  simp (disch := omega) only [bitsOf_setBits_of_apart, bitsOf_setBits]
  rfl

theorem State.phys_bobResult : (s.bobResult w busy r phys).fld (rWlBobCmd w) 15 8 = phys % 256 := by
  rw [State.bobResult, State.fld, State.reg_setReg, bitsOf_setBits _ _ _ _ (by decide) (by decide)]
  rfl

/-- The result of a command changes no bobbin's state. -/
theorem State.bobState_bobResult {p q : Nat} (hq : q < 256) : (s.bobResult w busy r p).bobState w q = s.bobState w q :=
  State.bobState_of_reg (State.reg_setReg_ne _ _ (by simp only [rWlBobState, rWlBobCmd, rWl]; omega))

end

end

section
variable {s : State} {w : WellId} {b : Byte}

/-- A write with BUSY set is ignored. -/
theorem exec_bobCmd_busy (busy : s.fld (rWlBobCmd w) 31 31 = 1) : exec (.bobCmdFence w b) s = .next s
    ∧ exec (.bobCmdTest w b) s = .next s ∧ exec (.bobCmdRelease w b) s = .next s :=
  have busy := State.bobBusy_iff.mpr busy
  ⟨congrArg Host.Outcome.next (if_pos busy), congrArg Host.Outcome.next (if_pos busy),
    congrArg Host.Outcome.next (if_pos busy)⟩

/-- RESULT 1 and the bobbin that a refused command named (R164). -/
theorem State.bobResult_refused : s.bobResult w 0 1 b.toNat
    = s.setReg (rWlBobCmd w) (BitVec.ofNat 64 (2 ^ 28 + b.toNat * 2 ^ 8)) := by
  have b_lt : b.toNat < 256 := b.isLt
  rw [State.bobResult, bobResult_eq, Nat.mod_eq_of_lt b_lt, Nat.zero_mod, Nat.zero_mul, Nat.zero_add,
    Nat.mod_eq_of_lt (by decide), Nat.one_mul]

variable (ready : s.fld (rWlBobCmd w) 31 31 = 0)
include ready

theorem State.not_bobBusy : ¬ s.bobBusy w = true := by
  rw [State.bobBusy_iff, ready]
  decide

theorem exec_bobCmdFence_refused (no : 135 < b.toNat ∨ s.bobState w b.toNat = 3) :
    exec (.bobCmdFence w b) s = .next (s.setReg (rWlBobCmd w) (BitVec.ofNat 64 (2 ^ 28 + b.toNat * 2 ^ 8))) := by
  rw [← State.bobResult_refused]
  exact congrArg Host.Outcome.next ((if_neg (State.not_bobBusy ready)).trans (if_pos no))

theorem exec_bobCmdTest_refused (no : 135 < b.toNat ∨ s.bobState w b.toNat ≠ 2) :
    exec (.bobCmdTest w b) s = .next (s.setReg (rWlBobCmd w) (BitVec.ofNat 64 (2 ^ 28 + b.toNat * 2 ^ 8))) := by
  rw [← State.bobResult_refused]
  exact congrArg Host.Outcome.next ((if_neg (State.not_bobBusy ready)).trans (if_pos no))

theorem exec_bobCmdRelease_refused
    (no : 135 < b.toNat ∨ s.bobState w b.toNat ≠ 2 ∨ (s.bob w b.toNat).passedTest = false) :
    exec (.bobCmdRelease w b) s = .next (s.setReg (rWlBobCmd w) (BitVec.ofNat 64 (2 ^ 28 + b.toNat * 2 ^ 8))) := by
  rw [← State.bobResult_refused]
  exact congrArg Host.Outcome.next ((if_neg (State.not_bobBusy ready)).trans (if_pos
    (no.imp_right (Or.imp_right fun failed => by rw [failed]; rfl))))

/-- FENCE of a bobbin that is not being tested fences it, and says whether a spare was left for its number (R153, R164). -/
theorem exec_bobCmdFence {p : PhysId} (testing : s.bobState w p ≠ 3) : ∃ t,
    exec (.bobCmdFence w (BitVec.ofNat 8 p.val)) s = .next t ∧ t.bobState w p = 2 ∧ (t.bob w p).run = none
      ∧ (t.bob w p).storeQ = [] ∧ sameMem s t ∧ t.fld (rWlBobCmd w) 31 31 = 0 ∧ t.fld (rWlBobCmd w) 15 8 = p := by
  have phys : (BitVec.ofNat 8 p.val).toNat = p.val := by
    rw [BitVec.toNat_ofNat, Nat.mod_eq_of_lt (by omega)]
  obtain ⟨v, u, r, step, noted, fenced⟩ : ∃ v u r, exec (.bobCmdFence w (BitVec.ofNat 8 p.val)) s
      = .next (u.bobResult w 0 r p) ∧ sameMem s v ∧ Fenced w p v u := by
    change ∃ v u r, Host.Outcome.next (s.bobFence w (BitVec.ofNat 8 p.val).toNat) = _ ∧ _
    rw [phys, State.bobFence, if_neg (State.not_bobBusy ready), if_neg (by omega)]
    extract_lets used l s1 s2
    refine ⟨s1, s2, _, rfl, ?_, State.fenceBobbin_fences w.isLt p.isLt⟩
    unfold s1
    split
    · exact (State.onlyRegs_latch ..).sameMem
    · exact ⟨rfl, rfl, rfl, rfl, rfl, rfl⟩
  have only : OnlyRegs u (u.bobResult w 0 r p) := OnlyRegs.refl.bobResult
  refine ⟨_, step, ?_, ?_, ?_, (noted.trans fenced.mem).trans only.sameMem, State.busy_bobResult .., ?_⟩
  · rw [State.bobState_bobResult _ _ (by omega), fenced.state]
  · rw [only.bob, fenced.run]
  · rw [only.bob, fenced.storeQ]
  · rw [State.phys_bobResult, Nat.mod_eq_of_lt (by omega)]

theorem exec_bobCmdTest (exists_ : b.toNat ≤ 135) (fenced : s.bobState w b.toNat = 2) :
    ∃ t, exec (.bobCmdTest w b) s = .next t ∧ t.bobState w b.toNat = 3 ∧ { t with regs := s.regs } = s
    ∧ t.reg (rWlBobCmd w) = BitVec.ofNat 64 (2 ^ 31 + b.toNat * 2 ^ 8) := by
  have b_lt : b.toNat < 256 := b.isLt
  have may : ¬ (136 ≤ b.toNat ∨ s.bobState w b.toNat ≠ 2) := by omega
  have step : exec (.bobCmdTest w b) s = .next ((s.setBobState w b.toNat 3).bobResult w 1 0 b.toNat) :=
    congrArg Host.Outcome.next ((if_neg (State.not_bobBusy ready)).trans (if_neg may))
  refine ⟨_, step, ?_, OnlyRegs.refl.setBobState.bobResult.frame, ?_⟩
  · rw [State.bobState_bobResult _ _ b_lt, State.bobState_setBobState]
  · rw [State.reg_bobResult, Nat.mod_eq_of_lt b_lt]
    rfl

theorem exec_bobCmdRelease (exists_ : b.toNat ≤ 135) (fenced : s.bobState w b.toNat = 2)
    (passed : (s.bob w b.toNat).passedTest = true) : ∃ t, exec (.bobCmdRelease w b) s = .next t
    ∧ t.bobState w b.toNat = 1 ∧ { t with regs := s.regs, bobs := s.bobs } = s
    ∧ t.reg (rWlBobCmd w) = BitVec.ofNat 64 (b.toNat * 2 ^ 8) := by
  have b_lt : b.toNat < 256 := b.isLt
  have may : ¬ (136 ≤ b.toNat ∨ s.bobState w b.toNat ≠ 2 ∨ (!(s.bob w b.toNat).passedTest) = true) := by
    simp [passed, fenced, Nat.lt_succ_of_le exists_]
  have step : exec (.bobCmdRelease w b) s = .next (((s.setBob w b.toNat
      { s.bob w b.toNat with listed := false }).setBobState w b.toNat 1).bobResult w 0 0 b.toNat) :=
    congrArg Host.Outcome.next ((if_neg (State.not_bobBusy ready)).trans (if_neg may))
  refine ⟨_, step, ?_, OnlyRegs.refl.setBobState.bobResult.frame_of_setBob, ?_⟩
  · rw [State.bobState_bobResult _ _ b_lt, State.bobState_setBobState]
  · rw [State.reg_bobResult, Nat.mod_eq_of_lt b_lt]
    simp

end

/-- The end of a test: FENCED again, with the verdict (R164). -/
theorem exec_bobTestDone {s : State} {w : WellId} (pass : Bool) (busy : s.fld (rWlBobCmd w) 31 31 = 1)
    (exists_ : s.fld (rWlBobCmd w) 15 8 ≤ 135) (testing : s.bobState w (s.fld (rWlBobCmd w) 15 8) = 3) :
    ∃ t, exec (.bobTestDone w pass) s = .next t ∧ t.bobState w (s.fld (rWlBobCmd w) 15 8) = 2
      ∧ (t.bob w (s.fld (rWlBobCmd w) 15 8)).passedTest = pass
      ∧ t.fld (rWlBobCmd w) 30 28 = (if pass then 0 else 2) ∧ t.fld (rWlBobCmd w) 31 31 = 0
      ∧ { t with regs := s.regs, bobs := s.bobs } = s := by
  generalize phys_eq : s.fld (rWlBobCmd w) 15 8 = phys at exists_ testing ⊢
  have step : exec (.bobTestDone w pass) s = .next (((s.setBob w phys
      { s.bob w phys with passedTest := pass }).setBobState w phys 2).bobResult w 0 (if pass then 0 else 2) phys) := by
    change execBobTestDone w pass s = _
    rw [execBobTestDone, phys_eq, need_of (by simp [State.bobBusy_iff.mpr busy, testing])]
  refine ⟨_, step, ?_, ?_, ?_, State.busy_bobResult ..,
    OnlyRegs.refl.setBobState.bobResult.frame_of_setBob⟩
  · rw [State.bobState_bobResult _ _ (by omega), State.bobState_setBobState]
  · rw [OnlyRegs.refl.setBobState.bobResult.bob, State.bob_setBob]
  · rw [State.result_bobResult]
    cases pass <;> rfl

/-! ### Mapping, power and admission (R154, R157, R158) -/

section
variable {s : State} {w : Nat}

theorem State.spareFor_lt {l p : Nat} (h : s.spareFor w l = some p) : p < 136 := by
  have found {a b : Nat} (le : a ≤ b) (hb : b ≤ 136)
      (h : ((List.range (b - a)).map (· + a)).find? (fun p => s.bobState w p == 1) = some p) : p < 136 := by
    obtain ⟨i, hi, rfl⟩ := List.mem_map.mp (List.mem_of_find?_eq_some h)
    have := List.mem_range.mp hi
    omega
  unfold State.spareFor at h
  dsimp only at h
  split at h
  · exact found (by decide) (by decide) h
  · obtain regular | ⟨-, border⟩ := (Option.orElse_eq_some ..).mp h
    · exact found (by decide) (by decide) regular
    · exact found (by decide) (by decide) border

theorem State.vacancy_lt {l p : Nat} (h : s.vacancy w = some (l, p)) : l < 128 ∧ p < 136 := by
  obtain ⟨k, mem, spare⟩ := List.exists_of_findSome?_eq_some h
  split at spare
  · obtain ⟨q, spare, same⟩ := Option.map_eq_some_iff.mp spare
    cases same
    exact ⟨List.mem_range.mp mem, State.spareFor_lt spare⟩
  · cases spare

/-- A change made to each listed bobbin of a well, made once or more often. -/
theorem State.bob_foldl_setBob {f : Bobbin → Bobbin} (again : ∀ b, f (f b) = f b) (l : List Nat) (s : State) (p : Nat) :
    (l.foldl (fun t q => t.setBob w q (f (t.bob w q))) s).bob w p = if l.contains p then f (s.bob w p) else s.bob w p := by
  induction l generalizing s with
  | nil => rfl
  | cons q l ih =>
    rw [List.foldl_cons, ih, List.contains_cons]
    by_cases same : p = q
    · subst same
      simp [again]
    · have key : w * 136 + p ≠ w * 136 + q := by omega
      have apart : (s.setBob w q (f (s.bob w q))).bob w p = s.bob w p := by
        exact tabGet_put_ne {} s.bobs (f (s.bob w q)) key
      simp [same, apart]

theorem State.foldl_setBob_frame {f : Bobbin → Bobbin} (l : List Nat) (s : State) :
    { l.foldl (fun t q => t.setBob w q (f (t.bob w q))) s with bobs := s.bobs } = s :=
  List.foldlRecOn (motive := fun t : State => { t with bobs := s.bobs } = s) _ _ rfl fun _ same _ _ => same

end

theorem exec_vacancyMapping {s : State} {w : WellId} {l p : Nat} (quiet : s.wellQuiet w = true)
    (vacant : s.vacancy w = some (l, p)) : ∃ t, exec (.vacancyMapping w) s = .next t ∧ t.physOf w l = p
      ∧ t.bobState w p = 0 ∧ (t.bob w p).admitted = false ∧ { t with regs := s.regs, bobs := s.bobs } = s := by
  obtain ⟨l_lt, p_lt⟩ := State.vacancy_lt vacant
  have step : exec (.vacancyMapping w) s = .next (((s.setPhys w l p).setBobState w p 0).setBob w p
      { s.bob w p with powered := decide ((s.well w).exitAt.isSome), admitted := false }) := by
    change execVacancyMapping w s = _
    rw [execVacancyMapping, need_of quiet, vacant, needSome_some]
  refine ⟨_, step, ?_, ?_, ?_, OnlyRegs.refl.setPhys.setBobState.setBob_frame⟩
  · rw [State.physOf, State.fld_setBob, State.setBobState,
      State.fld_setFld_ne _ _ _ _ _ _ (by simp only [rWlBobMap, rWlBobState, rWl]; omega), ← State.physOf,
      State.physOf_setPhys, Nat.mod_eq_of_lt (by omega)]
  · rw [State.bobState, State.fld_setBob, ← State.bobState, State.bobState_setBobState]
  · rw [State.bob_setBob]

/-- A pass over a group of bobbins makes one change to each of them and to nothing else. -/
theorem State.foldl_groupBobs {s : State} {w : Nat} (f : Bobbin → Bobbin) (again : ∀ b, f (f b) = f b) (g : Nat) :
    { (s.groupBobs w g).foldl (fun t q => t.setBob w q (f (t.bob w q))) s with bobs := s.bobs } = s
      ∧ ∀ p, p < 136 → ((s.groupBobs w g).foldl (fun t q => t.setBob w q (f (t.bob w q))) s).bob w p
        = if (s.groupBobs w g).contains p then f (s.bob w p) else s.bob w p :=
  ⟨State.foldl_setBob_frame _ s, fun p _ => State.bob_foldl_setBob again _ s p⟩

/-- Powered, as a group's ramp leaves it (R157). -/
def Bobbin.withPower (b : Bobbin) : Bobbin := { b with powered := true }

/-- Admitted to work (R158). -/
def Bobbin.withAdmission (b : Bobbin) : Bobbin := { b with admitted := true }

section
variable {s : State} {w : WellId} {g : Fin 8} {t0 : Nat}

theorem exec_bobbinGroupPowerUp (exit_ : (s.well w).exitAt = some t0) (due : t0 + 2000 * g.val ≤ s.now) :
    exec (.bobbinGroupPowerUp w g) s
      = .next ((s.groupBobs w g).foldl (fun t q => t.setBob w q (t.bob w q).withPower) s) := by
  change execBobbinGroupPowerUp w g s = _
  rw [execBobbinGroupPowerUp, exit_, needSome_some, need_of (decide_eq_true due)]
  rfl

theorem exec_bobbinGroupAdmission (ramp : (s.well w).rampAt = some t0) (due : t0 + 8000 * g.val ≤ s.now) :
    exec (.bobbinGroupAdmission w g) s
      = .next ((s.groupBobs w g).foldl (fun t q => t.setBob w q (t.bob w q).withAdmission) s) := by
  change execBobbinGroupAdmission w g s = _
  rw [execBobbinGroupAdmission, ramp, needSome_some, need_of (decide_eq_true due)]
  rfl

end

/-- Settles O27: a fenced bobbin is what `Fenced` says, each command of WL_BOB_CMD its branch, and a group's pass is over
the bobbins that its logical numbers map to. -/
theorem bobbinsAreFencedAndMapped : Obligations.BobbinsAreFencedAndMapped := by
  refine ⟨fun s w p => ⟨fun inUse => ?_, fun ready testing => ?_⟩, fun s w b => ⟨exec_bobCmd_busy, fun ready => ?_,
    fun pass => exec_bobTestDone pass⟩, fun s w g => ⟨fun l p => exec_vacancyMapping, fun t0 exit_ due => ?_,
    fun t0 ramp due => ?_⟩⟩
  · obtain ⟨u, t, step, fenced, noted, counted⟩ := exec_bobbinWatchdogExpiry inUse
    refine ⟨t, step, fenced.state, fenced.run, fenced.storeQ, noted.trans fenced.mem, ?_⟩
    rw [State.fld, fenced.regs (rWlBobEcc w) (by simp only [rWlBobCmd, rWlBobEcc, rWl]; omega)]
    exact counted
  · exact exec_bobCmdFence ready testing
  · exact ⟨exec_bobCmdFence_refused ready, exec_bobCmdTest_refused ready, exec_bobCmdRelease_refused ready,
      fun exists_ fenced => ⟨exec_bobCmdTest ready exists_ fenced, exec_bobCmdRelease ready exists_ fenced⟩⟩
  · exact ⟨_, exec_bobbinGroupPowerUp exit_ due, State.foldl_groupBobs Bobbin.withPower (fun _ => rfl) g⟩
  · exact ⟨_, exec_bobbinGroupAdmission ramp due, State.foldl_groupBobs Bobbin.withAdmission (fun _ => rfl) g⟩

end Sys2Proof.Machine
end

section
/-!
SUPPORT. Scalar instructions of the well controllers (R183, R258, R260, R262).
-/
namespace Sys2Proof.Machine

/-! ### The result of a scalar instruction (R260, R262) -/

section
variable {s : State} {w : Nat} {ev : EccEv}

/-- The count of corrected instruction-memory errors is no event counter (R260, R770). -/
theorem not_isEvCnt_rWlCtlEcc (w : Nat) : ¬isEvCnt (rWlCtlEcc w) := by
  simp only [isEvCnt, rEvCnt, rWlCtlEcc, rWl]
  omega

theorem State.reg_ctlGoes {o : Nat} (other : ¬isEvCnt o) (n : Nat) : (s.ctlGoes w n).reg o = s.reg o :=
  State.countEv_reg _ w 0x19 1 o other

/-- A controller that goes on changes wells, and counts in registers (R262, R770). -/
theorem State.ctlGoes_frame (n : Nat) : { s.ctlGoes w n with wells := s.wells, regs := s.regs } = s :=
  (congrArg (fun u : State => { u with wells := s.wells })
    (State.countEv_rest (s.setCtl w .running { (s.well w).cx with pc := n, wait := .none }) w 0x19 1) :)

theorem State.reg_checked_ne {o : Nat} (other : o ≠ rWlCtlEcc w) : (s.checked w ev).reg o = s.reg o := by
  unfold State.checked
  split
  · exact s.reg_incFld_ne _ _ _ other
  · rfl

/-- WL_CTL_ECC counts a corrected error, and no other event (R260). -/
theorem State.reg_checked : (s.checked w ev).reg (rWlCtlEcc w)
    = if ev = .corrected then addSat (s.reg (rWlCtlEcc w)) 63 32 1 else s.reg (rWlCtlEcc w) := by
  unfold State.checked
  split
  · exact State.reg_setReg ..
  · rfl

/-- RD written, and the controller at index n. -/
theorem ctlWrote_ctlGoes (d : Nat) (v : Word) (n : Nat) : ctlWrote s
    (((s.checked w ev).setCtl w .running ((s.well w).cx.set d v)).ctlGoes w n) w ev d v n := by
  refine ⟨?_, fun u other => ?_, ?_, fun o counter other => ?_, ?_⟩
  · simp
  · rw [State.well_ctlGoes_ne _ _ other, State.well_setCtl_ne _ _ other, State.checked_well]
  · have goes := congrArg (fun u : State => { u with wells := s.wells, regs := s.regs })
      (((s.checked w ev).setCtl w .running ((s.well w).cx.set d v)).ctlGoes_frame (w := w) n)
    have checked := congrArg (fun u : State => { u with wells := s.wells }) (s.checked_frame w ev)
    exact Eq.trans goes checked
  · rw [State.reg_ctlGoes counter]
    exact State.reg_checked_ne (by simpa using other)
  · rw [State.reg_ctlGoes (not_isEvCnt_rWlCtlEcc w)]
    exact State.reg_checked

end

/-- A scalar instruction whose next one lies inside the program writes RD and goes on (R262). -/
theorem cWrite_writes {s : State} {w : WellId} {ev : EccEv} {i : Word} {kind : CKind} (clean : ev ≠ .uncorrectable)
    (at_ : s.ctlAt w i) (inside : (s.well w).cx.pc + 1 < (s.well w).plen) (decoded : cKind i = some kind)
    (f : CtlCtx → Word → Word) :
    ∃ t, cWrite kind w ev s f = .next t
      ∧ ctlWrote s t w ev (bitsOf i 55 51) (f (s.well w).cx i) ((s.well w).cx.pc + 1) := by
  refine ⟨_, ?_, ctlWrote_ctlGoes (s := s) (ev := ev) (cRd i) (f (s.well w).cx i) _⟩
  rw [cWrite, cStep_runs at_ clean decoded, cGo_pcNext inside]

/-! ### Opcodes (R183, R262) -/

theorem flagWord_slt (a b : Word) : flagWord (a.slt b) = if a.toInt < b.toInt then 1#64 else 0#64 := by
  simp [flagWord, BitVec.slt]

theorem flagWord_ult (a b : Word) : flagWord (a.ult b) = if a.toNat < b.toNat then 1#64 else 0#64 := by
  simp [flagWord, BitVec.ult]

section
variable {i : Instr} {w : WellId} {ev : EccEv} {op : Nat} {f : Word → Word → Word}

/-- Each C-R instruction computes its function, at the words of its opcode whose bits below RS2 are 0. -/
theorem exec_ctlRegOp (h : ctlRegOp i = some (w, ev, op, f)) :
    ∃ kind, (∀ s, exec i s = cR kind f w ev s)
      ∧ ∀ word, opOf word = op → bitsOf word 40 0 = 0 → cKind word = some kind := by
  unfold ctlRegOp at h
  split at h
  case h_10 | h_11 =>
    cases h
    simp only [← flagWord_slt, ← flagWord_ult]
    exact ⟨_, fun s => rfl, fun word is_op zero => by simp only [cKind, is_op, if_pos zero]⟩
  case h_12 => cases h
  all_goals
    cases h
    exact ⟨_, fun s => rfl, fun word is_op zero => by simp only [cKind, is_op, if_pos zero]⟩

/-- Each C-I instruction computes its function, at the words of its opcode. -/
theorem exec_ctlImmOp (h : ctlImmOp i = some (w, ev, op, f)) :
    ∃ kind, (∀ s, exec i s = cI kind f w ev s) ∧ ∀ word, opOf word = op → cKind word = some kind := by
  unfold ctlImmOp at h
  split at h
  case h_8 =>
    cases h
    simp only [← flagWord_slt]
    exact ⟨_, fun s => rfl, fun word is_op => by simp only [cKind, is_op]⟩
  case h_9 => cases h
  all_goals
    cases h
    exact ⟨_, fun s => rfl, fun word is_op => by simp only [cKind, is_op]⟩

end

theorem cKind_li {i : Word} (h : opOf i = 0x9C) : cKind i = some .li := by simp only [cKind, h]

theorem cKind_lih {i : Word} (h : opOf i = 0x9D) (zero : bitsOf i 45 32 = 0) : cKind i = some .lih := by
  simp only [cKind, h, if_pos zero]

/-! ### Immediates (R183, R262) -/

theorem cImm51_eq (i : Word) : cImm51 i = (BitVec.extractLsb' 0 51 i).signExtend 64 := by
  rw [cImm51, ← toNat_extractLsb'_eq_bitsOf, signedOf_toNat, BitVec.signExtend]

/-- Two 32-bit fields side by side. -/
theorem ofNat_bitsOf_bitsOf_eq_append (a b : Word) : BitVec.ofNat 64 (bitsOf a 31 0 * 2 ^ 32 + bitsOf b 31 0)
    = BitVec.extractLsb' 0 32 a ++ BitVec.extractLsb' 0 32 b := by
  rw [← toNat_extractLsb'_eq_bitsOf, ← toNat_extractLsb'_eq_bitsOf, ← Nat.shiftLeft_eq,
    Nat.shiftLeft_add_eq_or_of_lt (BitVec.isLt _), ← BitVec.toNat_append]
  exact (BitVec.ofNat_toNat 64 _).trans (BitVec.setWidth_eq _)

/-- Settles O9: each instruction is a `cWrite` of its kind at its word, which writes RD alone and goes on. -/
theorem controllerAluWritesRd : Obligations.ControllerAluWritesRd := by
  intro s i w ev op f word clean at_ inside c
  refine ⟨fun reg is_op zero => ?_, fun imm is_op => ?_, fun is_op => ?_, fun is_op zero => ?_⟩
  · obtain ⟨kind, run, decoded⟩ := exec_ctlRegOp reg
    rw [run s]
    exact cWrite_writes clean at_ inside (decoded word is_op zero) _
  · obtain ⟨kind, run, decoded⟩ := exec_ctlImmOp imm
    rw [run s, ← cImm46_eq]
    exact cWrite_writes clean at_ inside (decoded word is_op) _
  · rw [← cImm51_eq]
    exact cWrite_writes clean at_ inside (cKind_li is_op) fun _ j => cImm51 j
  · rw [← ofNat_bitsOf_bitsOf_eq_append]
    exact cWrite_writes clean at_ inside (cKind_lih is_op zero) fun c j =>
      BitVec.ofNat 64 (bitsOf j 31 0 * 2 ^ 32 + bitsOf (c.get (cRs1 j)) 31 0)

end Sys2Proof.Machine
end

section
/-!
SUPPORT. How an idle bobbin comes to its next stitch (R168, R308, R315 to R317).
-/
namespace Sys2Proof.Machine

section
variable {s : State} {w p : Nat}

/-- Any other deque. -/
theorem State.deque_setDeque_ne {l v m : Nat} (hl : l < 128) (hm : m < 128) (other : ¬(v = w ∧ m = l))
    (d : List DeqEntry) : (s.setDeque w l d).deque v m = s.deque v m := by
  have apart : v * 128 + m ≠ w * 128 + l := by omega
  exact tabGet_put_ne [] s.deques d apart

theorem State.deque_countEv (x src n v l : Nat) : (s.countEv x src n).deque v l = s.deque v l :=
  (congrArg (fun u : State => u.deque v l) (s.countEv_rest x src n) :)

/-! ### A stitch begun (R168, R308) -/

/-- A stitch is bound to the job whose bobbin takes it. -/
theorem State.bindStitch_job {j : Nat} {e : DeqEntry} {d : Word} :
    ExOk (fun b : Binding => b.job = j) (s.bindStitch w j e d) :=
  ExOk.bindAny fun _ => ExOk.bindAny fun _ => ExOk.bindAny fun _ => ExOk.bindAny fun _ => ExOk.pure rfl

/-- The bobbin while its stitch is being bound: the entry, and no binding yet. -/
def State.takes (s : State) (w p j : Nat) (e : DeqEntry) : State :=
  s.setBob w p { s.bob w p with run := some { b := { entry := e, job := j, well := w } }, probes := 0, swept := false }

/-- The first attempt of a bound stitch, at the starting rung and the first instruction of its template. -/
def State.firstRun (s : State) (e : DeqEntry) (b : Binding) : Run :=
  ({ b := b, reqs := e.reqs } : Run).fresh s.fresh (s.startRung b) 0

/-- The bobbin with its stitch begun, and free pillow bytes drawn for it. -/
def State.begins (s : State) (w p : Nat) (e : DeqEntry) (b : Binding) : State :=
  { s with fresh := s.fresh + 2 ^ 20 }.setBob w p { s.bob w p with run := some (s.firstRun e b) }

/-- A stitch whose descriptor is good, whose walk record can be read and whose binding succeeds begins (R168, R308). -/
theorem State.startStitch_of_ok {orig : State} {j : Nat} {e : DeqEntry} {d : Word} {b : Binding}
    (bound : (s.well w).job = some j) (valid : unguard64 e.gw = some d)
    (sound : s.scratchOk (sdHome d) (wrecAt (s.slotOf j (sdHome d)) (sdWrec d)) = true)
    (binds : (s.takes w p j e).bindStitch w j e d = .ok b) :
    orig.startStitch s w p e = .next (((s.takes w p j e).begins w p e b).countEv w 0x03 1) := by
  rw [State.takes] at binds
  simp only [State.startStitch, bound, valid, State.scratch_of_ok sound, binds]
  rfl

/-- What a stitch's start leaves: its run on its bobbin, and no other bobbin, deque, well, job or byte changed. -/
theorem State.startStitch_leaves {j : Nat} {e : DeqEntry} {b : Binding} (job : b.job = j) (hp : p < 136) :
    let t := ((s.takes w p j e).begins w p e b).countEv w 0x03 1
    (t.bob w p).run = some (({ b := b, reqs := e.reqs } : Run).fresh s.fresh
        (min (((s.job j).map Job.layerRung).getD 0) b.dlast) 0)
      ∧ (∀ v l, t.deque v l = s.deque v l) ∧ otherBobs s t w p ∧ sameMem s t ∧ t.wells = s.wells ∧ t.jobs = s.jobs := by
  intro t
  have count := ((s.takes w p j e).begins w p e b).countEv_accessed w 0x03 1
  have taken : otherBobs s (s.takes w p j e) w p := (otherBobs.of_bobs rfl).setBob hp _
  have begun : otherBobs s ((s.takes w p j e).begins w p e b) w p := (taken.trans_bobs rfl).setBob hp _
  refine ⟨?_, fun v l => State.deque_countEv .., begun.trans_bobs count.bobs, count.sameMem, count.wells, count.jobs⟩
  rw [State.bob_of_bobs count.bobs, State.begins, State.bob_setBob, ← job]
  rfl

end

/-! ### STITCH_TAKE and STEAL_PROBE (R315 to R317) -/

section
variable {s : State} {w : WellId} {p : PhysId} (idle : s.idleBob w p = true) (runs : s.wellRuns w = true)
include idle runs

theorem exec_stitchTake {v : Nat} {e : DeqEntry} {rest : List DeqEntry} (from_ : s.takeFrom w (s.logOf w p) = some v)
    (queue : s.deque w v = e :: rest) (room : s.foreignRoom w e = true) (may : eligible p e = true) :
    exec (.stitchTake w p) s = s.startStitch (s.setDeque w v rest) w p e := by
  change execStitchTake w p s = _
  rw [execStitchTake, need_of (by rw [idle, runs]; rfl)]
  simp only [from_, needSome_some, queue, room, may, Bool.and_self, if_true]

variable (empty : s.deque w (s.logOf w p) = []) (steals : s.fld (rWlStealCtl w) 0 0 = 1)
  (sweeping : (s.bob w p).swept = false)
include empty steals sweeping

/-- A thief judges the tail entry of the deque that it probes (R316). -/
theorem exec_stealProbe : exec (.stealProbe w p) s =
    let v := (s.logOf w p + (s.bob w p).probes + 1) % 128
    match (s.deque w v).getLast? with
    | none => .next (s.nextProbe w p)
    | some e =>
      if eligible p e && s.foreignRoom w e then
        s.startStitch (((s.setDeque w v (s.deque w v).dropLast).incFld (rWlStealStat w) 63 32 1).countEv w 0x07 1) w p e
      else .next (s.nextProbe w p) := by
  change execStealProbe w p s = _
  exact (need_of (by simp [idle, runs, empty, steals]) 316 _).trans (if_neg (Bool.eq_false_iff.mp sweeping))

theorem exec_stealProbe_finds {e : DeqEntry}
    (tail : (s.deque w ((s.logOf w p + (s.bob w p).probes + 1) % 128)).getLast? = some e)
    (may : (eligible p e && s.foreignRoom w e) = true) :
    let v := (s.logOf w p + (s.bob w p).probes + 1) % 128
    exec (.stealProbe w p) s = s.startStitch
      (((s.setDeque w v (s.deque w v).dropLast).incFld (rWlStealStat w) 63 32 1).countEv w 0x07 1) w p e := by
  rw [exec_stealProbe idle runs empty steals sweeping]
  simp only [tail, may, if_true]

theorem exec_stealProbe_misses
    (none_ : ∀ e, (s.deque w ((s.logOf w p + (s.bob w p).probes + 1) % 128)).getLast? = some e →
      (eligible p e && s.foreignRoom w e) = false) :
    exec (.stealProbe w p) s = .next (s.nextProbe w p) := by
  rw [exec_stealProbe idle runs empty steals sweeping]
  dsimp only
  split
  next => rfl
  next e tail => exact if_neg (Bool.eq_false_iff.mp (none_ e tail))

end

/-- Settles O24: a take is `startStitch` on the deque without its head, whose start leaves what `startStitch_leaves`
says; a probe starts the tail entry or counts on. -/
theorem bobbinsTakeAndStealStitches : Obligations.BobbinsTakeAndStealStitches := by
  refine ⟨fun s w p j l v e rest d b idle runs bound own from_ queue room may valid sound => ?_,
    fun s w p idle runs empty steals sweeping => ?_⟩
  · intro q stub binds
    subst own
    have sound' : q.scratchOk (sdHome d) (wrecAt (q.slotOf j (sdHome d)) (sdWrec d)) = true :=
      (State.scratchOk_congr rfl ..).trans sound
    obtain ⟨run, deques, others, mem, wells, jobs⟩ :=
      q.startStitch_leaves (w := w) (e := e) (State.bindStitch_job b binds) p.isLt
    refine ⟨_, s.fresh, (exec_stitchTake idle runs from_ queue room may).trans
      (State.startStitch_of_ok bound valid sound' binds), run, ?_, fun x m hm hv other => ?_, others, mem, wells, jobs⟩
    · rw [deques, State.deque_setDeque]
    · rw [deques, State.deque_setDeque_ne hv hm other]
  · intro v
    refine ⟨fun none_ => ?_, fun e tail may => exec_stealProbe_finds idle runs empty steals sweeping tail may⟩
    exact ⟨_, exec_stealProbe_misses idle runs empty steals sweeping none_, State.bob_setBob ..,
      (otherBobs.of_bobs rfl).setBob p.isLt _, rfl⟩

end Sys2Proof.Machine
end

section
/-!
SUPPORT. What the loss of a well makes of the bobbins' table (R774, R775).
-/
namespace Sys2Proof.Machine

/-- The bobbin listed at key k once well w is lost: one of that well has no work left. -/
def Bobbin.afterLoss (w k : Nat) (b : Bobbin) : Bobbin :=
  if k / 136 = w then { b with run := none, leaving := [], storeQ := [] } else b

variable {s : State}

theorem State.bobs_loseWell (w cause : Nat) : (s.loseWell w cause).bobs = tabMap {} (Bobbin.afterLoss w) s.bobs := by
  unfold State.loseWell
  extract_lets stated reported lost
  have kept : reported.bobs = s.bobs := by
    simp only [reported, State.setFld_bobs]
    exact (State.bobs_reportSelf w 0x7 2 145 cause).trans (by simp only [State.alert, stated, State.setFld_bobs])
  have fenced : ((wellLinks w).foldl State.fenceLink lost).bobs = lost.bobs := by
    refine List.foldlRecOn (motive := fun u : State => u.bobs = lost.bobs) _ _ rfl fun u same l _ => ?_
    obtain ⟨fabric, e⟩ := u.fenceLink_eq l
    rw [e]
    exact same
  have abandoned : lost.bobs = tabMap {} (Bobbin.afterLoss w) reported.bobs := rfl
  rw [fenced, abandoned, kept]

theorem exec_wellLoss {w : WellId} {cause : Fin 16} (known : 1 ≤ cause.val ∧ cause.val ≤ 6)
    (there : s.fld rWhWellState (2 * w.val + 25) (2 * w.val + 24) ≠ 3) (told : cause.val ≠ 2) :
    exec (.wellLoss w cause) s = .next (s.loseWell w cause) :=
  (need_of (by simp [known, there, told]) 774 _ : execWellLoss w cause s = _)

/-- Refutes O51: the statement speaks of every state, and so of one whose table of bobbins lists bobbin 0 of well 1 twice,
first listed as failing and then not. A read takes the first entry, and the `tabMap` that drops the work of well 0 leaves
the last, so the loss of well 0 changes a bobbin of well 1. A canonical table (`tabWf`) lists no key twice. -/
theorem not_lostWorkIsRebuiltFromCheckpoints : ¬ Obligations.LostWorkIsRebuiltFromCheckpoints := by
  intro h
  obtain ⟨ofState, -⟩ := h
  obtain ⟨losses, -⟩ := ofState { bobs := [(136, { listed := true }), (136, {})] }
  obtain ⟨t, run, -, -, -, -, -, -, others, -⟩ := losses 0 1 (by decide) (by decide) (by decide) (by decide)
  rw [exec_wellLoss (by decide) (by decide) (by decide), Host.Outcome.next.injEq] at run
  have unlisted : (t.bob 1 0).listed = false := by
    rw [← run, State.bob, State.bobs_loseWell]
    rfl
  have was_listed : (t.bob 1 0).listed = true := congrArg Bobbin.listed (others 1 0 (by decide) (by decide))
  exact absurd was_listed (Bool.eq_false_iff.mp unlisted)

end Sys2Proof.Machine
end

section
/-!
SUPPORT. The products of a bobbin (R138, R206 to R208): accumulators after a write, and MMA's tile.
-/
namespace Sys2Proof.Machine

/-! ### Accumulators (R137, R138) -/

/-- A drop takes the keys that it names and no other. -/
theorem tabGet_drop {α : Type} (d : α) (f : Nat → Bool) (k : Nat) :
    ∀ t : Tab α, tabGet d (tabDrop f t) k = if f k then d else tabGet d t k
  | [] => by simp [tabDrop, tabGet]
  | (j, v) :: t => by
    have rest := tabGet_drop d f k t
    unfold tabDrop at rest ⊢
    by_cases same : j = k
    · subst same
      cases dropped : f j <;> simp [dropped, tabGet, rest]
    · cases dropped : f j <;> simp [dropped, tabGet, same, rest]

section
variable (p : Pillow)

/-- The listed elements when slot n is written: a slot that was clear has none (R138). -/
theorem Pillow.zGet_opened {n m i j : Nat} (inside : i < 64 ∧ j < 128) :
    tabGet 0#32 (if p.clear.getLsbD n then tabDrop (fun k => k / 8192 == n) p.z else p.z) (m * 8192 + 128 * i + j)
      = if m = n then p.zGet n i j else tabGet 0#32 p.z (m * 8192 + 128 * i + j) := by
  have slot : (m * 8192 + 128 * i + j) / 8192 = m := by omega
  by_cases same : m = n
  · subst same
    cases clear : p.clear.getLsbD m <;> simp [Pillow.zGet, clear, tabGet_drop, slot]
  · cases clear : p.clear.getLsbD n <;> simp [tabGet_drop, slot, same]

theorem Pillow.clear_zSet {n m : Nat} (hm : m < 16) (i j : Nat) (v : Word32) :
    (p.zSet n i j v).clear.getLsbD m = (p.clear.getLsbD m && decide (m ≠ n)) := by
  rcases Nat.lt_trichotomy m n with below | rfl | above
  · simp [Pillow.zSet, hm, below, below.ne]
  · simp [Pillow.zSet]
  · simp [Pillow.zSet, hm, above.ne', above.not_gt, Nat.sub_ne_zero_of_lt above]

/-- An accumulator read after one was written (R138). -/
theorem Pillow.zGet_zSet {n m i j k l : Nat} (hm : m < 16) (written : i < 64 ∧ j < 128) (read : k < 64 ∧ l < 128)
    (v : Word32) :
    (p.zSet n i j v).zGet m k l = if m = n ∧ k = i ∧ l = j then v else p.zGet m k l := by
  have key : m * 8192 + 128 * k + l = n * 8192 + 128 * i + j ↔ m = n ∧ k = i ∧ l = j := by omega
  have listed : tabGet 0#32 (p.zSet n i j v).z (m * 8192 + 128 * k + l)
      = if m = n ∧ k = i ∧ l = j then v
        else if m = n then p.zGet n k l else tabGet 0#32 p.z (m * 8192 + 128 * k + l) := by
    rw [← p.zGet_opened read]
    simp only [Pillow.zSet, tabGet_put, key]
  rw [Pillow.zGet, p.clear_zSet hm, listed]
  by_cases same : m = n
  · simp [same]
  · simp [same, Pillow.zGet]

/-- A tile element read after one was written. -/
theorem Pillow.tile_setTile {i j k l : Nat} (written : i < 256 ∧ j < 512) (read : k < 256 ∧ l < 512) (v : Word32) :
    (p.setTile i j v).tile k l = if k = i ∧ l = j then v else p.tile k l := by
  have place : (4 * (k / 64) + l / 128 = 4 * (i / 64) + j / 128 ∧ k % 64 = i % 64 ∧ l % 128 = j % 128)
      ↔ k = i ∧ l = j := by omega
  unfold Pillow.setTile Pillow.tile
  rw [p.zGet_zSet (by omega) (by omega) (by omega)]
  simp only [place]

theorem Pillow.bytes_setTile (i j : Nat) (v : Word32) : (p.setTile i j v).bytes = p.bytes := rfl

end

/-! ### Products (R206 to R208) -/

/-- Row i of a product: the products of its line with the first n columns, each added into its accumulator. -/
def Pillow.dotRow (p : Pillow) (i : Nat) (line : MmaLine) (col : Nat → MmaLine) (n : Nat) : Pillow :=
  (List.range n).foldl (fun q j => q.setTile i j (dotBlocks (q.tile i j) line (col j))) p

/-- The first m rows of a product of n columns. -/
def Pillow.dotRows (p : Pillow) (row col : Nat → MmaLine) (m n : Nat) : Pillow :=
  (List.range m).foldl (fun q i => q.dotRow i (row i) col n) p

theorem zipIdx_map_range {α : Type} (f : Nat → α) (n : Nat) :
    ((List.range n).map f).zipIdx = (List.range n).map (fun i => (f i, i)) :=
  List.ext_getElem (by simp) (by simp)

section
variable (p : Pillow) (row col : Nat → MmaLine)

theorem Pillow.product_eq_dotRows (m n : Nat) :
    p.product ((List.range m).map row) ((List.range n).map col) = p.dotRows row col m n := by
  simp only [Pillow.product, zipIdx_map_range, List.foldl_map]
  rfl

theorem Pillow.dotRow_succ (i : Nat) (line : MmaLine) (n : Nat) :
    p.dotRow i line col (n + 1) = (p.dotRow i line col n).setTile i n
      (dotBlocks ((p.dotRow i line col n).tile i n) line (col n)) := by
  simp [Pillow.dotRow, List.range_succ]

theorem Pillow.dotRows_succ (m n : Nat) :
    p.dotRows row col (m + 1) n = (p.dotRows row col m n).dotRow m (row m) col n := by
  simp [Pillow.dotRows, List.range_succ]

/-- A row of a product adds to the accumulators of its columns, each once, and to no other. -/
theorem Pillow.tile_dotRow {i n k l : Nat} (hi : i < 256) (line : MmaLine) (hn : n ≤ 512) (read : k < 256 ∧ l < 512) :
    (p.dotRow i line col n).tile k l = if k = i ∧ l < n then dotBlocks (p.tile k l) line (col l) else p.tile k l := by
  induction n generalizing k l with
  | zero => simp [Pillow.dotRow]
  | succ n ih =>
    have untouched : (p.dotRow i line col n).tile i n = p.tile i n := by simp [ih (by omega) ⟨hi, hn⟩]
    rw [p.dotRow_succ, Pillow.tile_setTile _ ⟨hi, hn⟩ read, untouched, ih (by omega) read]
    by_cases here : k = i ∧ l = n
    · simp [here]
    · have reached : (k = i ∧ l < n + 1) ↔ (k = i ∧ l < n) := by omega
      simp only [if_neg here, reached]

/-- A product adds to every accumulator of its tile, once, and to no other (R206 to R208). -/
theorem Pillow.tile_dotRows {m n k l : Nat} (hm : m ≤ 256) (hn : n ≤ 512) (read : k < 256 ∧ l < 512) :
    (p.dotRows row col m n).tile k l = if k < m ∧ l < n then dotBlocks (p.tile k l) (row k) (col l) else p.tile k l := by
  induction m with
  | zero => simp [Pillow.dotRows]
  | succ m ih =>
    rw [p.dotRows_succ, Pillow.tile_dotRow _ _ hm _ hn read, ih (by omega)]
    by_cases here : k = m
    · simp [here]
    · have reached : k < m + 1 ↔ k < m := by omega
      simp only [here, false_and, if_false, reached]

theorem Pillow.bytes_dotRow (i : Nat) (line : MmaLine) (n : Nat) : (p.dotRow i line col n).bytes = p.bytes :=
  List.foldlRecOn (motive := fun q : Pillow => q.bytes = p.bytes) _ _ rfl fun _ same _ _ => same

theorem Pillow.bytes_dotRows (m n : Nat) : (p.dotRows row col m n).bytes = p.bytes :=
  List.foldlRecOn (motive := fun q : Pillow => q.bytes = p.bytes) _ _ rfl
    fun q same i _ => (q.bytes_dotRow col i (row i) n).trans same

end

/-! ### MMA (R196, R206 to R208) -/

/-- Row i that an MMA word names, as the run holds it. -/
def Run.mmaRow (r : Run) (word : Word) : Nat → MmaLine :=
  r.pil.line (r.fmt word 0) (r.slot (bitOf word 27) (bitsOf word 47 43)) (r.slot (bitOf word 27) (bitsOf word 42 38))
    (bitsOf word 6 0 + 1)

/-- Column j that an MMA word names, as the run holds it. -/
def Run.mmaCol (r : Run) (word : Word) : Nat → MmaLine :=
  r.pil.line (r.fmt word 1) (r.slot (bitOf word 27) (bitsOf word 37 33)) (r.slot (bitOf word 27) (bitsOf word 32 28))
    (bitsOf word 6 0 + 1)

/-- MMA once its attempt knows its scale: its product is added into the accumulators and its steps are counted. -/
theorem State.mma_of_scale {w : Nat} {s : State} {r : Run} {word : Word} {c : Word32} (scale : r.pil.c = some c) :
    ∃ u, State.mma w s r word
        = .ok ({ r with pil := r.pil.dotRows (r.mmaRow word) (r.mmaCol word) (bitsOf word 23 16 + 1) (bitsOf word 15 7 + 1) },
            u)
      ∧ accessed s u := by
  simp only [State.mma, scale, ← Pillow.product_eq_dotRows]
  refine ⟨_, rfl, ?_⟩
  split
  · exact (s.countEv_accessed ..).trans (State.countEv_accessed ..)
  · exact s.countEv_accessed ..

/-- Settles O21: MMA's product is `Pillow.dotRows`, and an M by N word is within the tile. -/
theorem mmaAccumulatesItsTile : Obligations.MmaAccumulatesItsTile := by
  intro s u w r r' word c scale work slot row col
  obtain ⟨u', work', -⟩ := State.mma_of_scale (w := w) (s := s) (word := word) scale
  obtain ⟨rfl, -⟩ : _ ∧ u' = u := by simpa using work'.symm.trans work
  have hm : bitsOf word 23 16 < 256 := Nat.mod_lt _ (by decide)
  have hn : bitsOf word 15 7 < 512 := Nat.mod_lt _ (by decide)
  have tile {i j : Nat} (read : i < 256 ∧ j < 512) :=
    r.pil.tile_dotRows (r.mmaRow word) (r.mmaCol word) (m := bitsOf word 23 16 + 1) (n := bitsOf word 15 7 + 1) hm hn read
  refine ⟨fun i j hi hj => ?_, fun i j hi hj out => ?_, r.pil.bytes_dotRows ..⟩
  · exact (tile ⟨by omega, by omega⟩).trans (if_pos ⟨by omega, by omega⟩)
  · exact (tile ⟨hi, hj⟩).trans (if_neg (by omega))

end Sys2Proof.Machine
end

section
/-!
SUPPORT. Work that reads no memory (R196, R205, R227): scaling once the scale is known, and the epilogue instructions.
-/
namespace Sys2Proof.Machine

/-! ### Computations that end with a value -/

/-- The computation has a value, and P holds of it. -/
def ExEnds {ε α : Type} (P : α → Prop) (x : Except ε α) : Prop := ∃ a, x = .ok a ∧ P a

section
variable {ε α β : Type} {P : α → Prop} {Q : β → Prop}

theorem ExEnds.ok {a : α} (h : P a) : ExEnds P (.ok a : Except ε α) := ⟨a, rfl, h⟩

theorem ExEnds.bind {x : Except ε β} {f : β → Except ε α} (hx : ExEnds Q x) (hf : ∀ b, Q b → ExEnds P (f b)) :
    ExEnds P (x >>= f) := by
  obtain ⟨b, rfl, hb⟩ := hx
  exact hf b hb

theorem ExEnds.foldlM {f : α → β → Except ε α} (hf : ∀ a b, P a → ExEnds P (f a b)) (l : List β) {a : α} (h : P a) :
    ExEnds P (l.foldlM f a) := by
  induction l generalizing a with
  | nil => exact ExEnds.ok h
  | cons b l ih => exact (hf a b h).bind fun _ hc => ih hc

end

/-! ### Scaling (R196, R205) -/

/-- r' stands at the place of r in its template. -/
structure Run.SamePlace (r r' : Run) : Prop where
  idx : r'.idx = r.idx
  rep : r'.rep = r.rep
  binding : r'.b = r.b

theorem Run.SamePlace.trans {r r' r'' : Run} (h : r.SamePlace r') (k : r'.SamePlace r'') : r.SamePlace r'' :=
  ⟨k.idx.trans h.idx, k.rep.trans h.rep, k.binding.trans h.binding⟩

theorem Pillow.c_zMap (p : Pillow) (n : Nat) (f : Nat → Nat → Word32 → Word32) : (p.zMap n f).c = p.c := by
  unfold Pillow.zMap
  refine List.foldlRecOn (motive := fun q : Pillow => q.c = p.c) _ _ rfl fun q kept i _ => ?_
  exact List.foldlRecOn (motive := fun q : Pillow => q.c = p.c) _ _ kept fun _ same _ _ => same

theorem Pillow.c_markScaled (p : Pillow) (n : Nat) : (p.markScaled n).c = p.c := rfl

theorem Pillow.c_scaleBy (p : Pillow) (c : Word32) (n : Nat) : (p.scaleBy c n).c = p.c := by
  unfold Pillow.scaleBy
  dsimp only
  split
  · rfl
  · exact (Pillow.c_markScaled _ n).trans (p.c_zMap n _)

section
variable {s : State} {r : Run} {c : Word32} (scale : r.pil.c = some c)
include scale

/-- A slot is scaled with no reading of memory once the attempt knows its scale. -/
theorem State.scaleSlot_ends (n : Nat) : ExEnds (fun r' => r.SamePlace r' ∧ r'.pil.c = some c) (s.scaleSlot r n) := by
  unfold State.scaleSlot
  split
  · exact ExEnds.ok ⟨⟨rfl, rfl, rfl⟩, scale⟩
  · simp only [State.cOf, scale]
    exact ExEnds.ok ⟨⟨rfl, rfl, rfl⟩, (Pillow.c_scaleBy ..).trans scale⟩

/-- So are the slots that an instruction reads. -/
theorem State.scaleSlots_ends (ns : List Nat) : ExEnds r.SamePlace (s.scaleSlots r ns) := by
  obtain ⟨r', scaled, place, -⟩ := ExEnds.foldlM (P := fun r' => r.SamePlace r' ∧ r'.pil.c = some c) (f := s.scaleSlot)
    (fun _ n ⟨place, known⟩ => by
      obtain ⟨r', slot, next, kept⟩ := s.scaleSlot_ends known n
      exact ⟨r', slot, place.trans next, kept⟩)
    ns ⟨⟨rfl, rfl, rfl⟩, scale⟩
  exact ⟨r', scaled, place⟩

end

/-! ### Instructions on accumulators and pillow alone (R206 to R208, R227) -/

/-- The work of an instruction ends with no access error, whatever the memories hold, at the place of its run, and leaves
in the state no more than an access can. -/
def WorkEnds (s : State) (r : Run) (o : TOut) : Prop := ExEnds (fun x => r.SamePlace x.1 ∧ accessed s x.2) o

section
variable {s : State} {r : Run} {c : Word32} (scale : r.pil.c = some c)
include scale

/-- What works on accumulators alone, once they are scaled. -/
theorem WorkEnds.scaled {ns : List Nat} {w : Nat} {n : Run → Nat} {g : Run → Run} (stays : ∀ r' : Run, r'.SamePlace (g r')) :
    WorkEnds s r (s.scaleSlots r ns >>= fun r' => pure (g r', s.handshakes w (n r') r.pil r'.pil)) :=
  (State.scaleSlots_ends scale ns).bind fun r' place => ExEnds.ok ⟨place.trans (stays r'), s.countEv_accessed ..⟩

theorem WorkEnds.mapSet {w per : Nat} {v : VecOp} {f : Run → Nat → Nat → Nat → Word32 → Word32} :
    WorkEnds s r (s.mapSet w r v per f) :=
  WorkEnds.scaled scale fun _ => ⟨rfl, rfl, rfl⟩

theorem WorkEnds.sfn {g : SpFn} {w : Nat} {word : Word} : WorkEnds s r (State.sfn g w s r word) := by
  unfold State.sfn
  refine (State.scaleSlots_ends scale _).bind fun _ _ => (WorkEnds.mapSet scale).bind fun x ⟨place, counted⟩ => ?_
  exact ExEnds.ok ⟨place.trans ⟨rfl, rfl, rfl⟩, counted⟩

theorem WorkEnds.mma {w : Nat} {word : Word} : WorkEnds s r (State.mma w s r word) := by
  obtain ⟨u, work, counted⟩ := State.mma_of_scale (w := w) (s := s) (word := word) scale
  exact ⟨_, work, ⟨rfl, rfl, rfl⟩, counted⟩

/-- The work of a product or an epilogue instruction ends once the attempt knows its scale (R196, R205, R227). -/
theorem WorkEnds.tileInstr {i : Instr} {w : WellId} {p : PhysId} {ev : EccEv} {kind : TKind}
    {f : State → Run → Word → TOut} (instr : tileInstr i = some (w, p, ev, kind, f))
    (epilogue : kind.epilogue = true ∨ kind = .mma) (word : Word) : WorkEnds s r (f s r word) := by
  cases i <;> cases instr
  case mma => exact .mma scale
  case epiGate | redSum | redMax | redSumsq | smxStep | smxFold => exact .scaled scale fun _ => ⟨rfl, rfl, rfl⟩
  case epiAddv | epiBas | epiConv | epiRecon => exact .mapSet scale
  case sfnExp | sfnLog | sfnRcp | sfnRsqrt => exact .sfn scale
  case ldt | stt | cvt | qnt | epiPst | bias | gat | sct => simp [TKind.epilogue] at epilogue

end

/-! ### The state beside the bobbins (R140, R397, R399) -/

section
variable {s t : State}

theorem accessed.symm (h : accessed s t) : accessed t s := by
  obtain ⟨frame, fills, regs⟩ := h
  refine ⟨?_, ?_, fun o ho => (regs o ho).symm⟩
  · rw [← frame]
  · rw [← fills]

/-- A count raised on both sides of an access. -/
theorem accessed.incFld (h : accessed s t) (o hi lo n : Nat) : accessed (s.incFld o hi lo n) (t.incFld o hi lo n) := by
  obtain ⟨frame, fills, regs⟩ := h
  refine ⟨congrArg (fun x : State => { x with regs := (s.incFld o hi lo n).regs }) frame, fills, fun i hi' => ?_⟩
  by_cases same : i = o
  · subst same
    simp only [State.incFld, State.reg_setReg, regs i hi']
  · rw [State.reg_incFld_ne _ _ _ _ same, State.reg_incFld_ne _ _ _ _ same, regs i hi']

theorem accessed.countEv (h : accessed s t) (w src n : Nat) : accessed (s.countEv w src n) (t.countEv w src n) :=
  ((s.countEv_accessed w src n).symm.trans h).trans (t.countEv_accessed w src n)

theorem accessed.pillowChecked (h : accessed s t) (w : Nat) (ev : EccEv) :
    accessed (s.pillowChecked w ev) (t.pillowChecked w ev) := by
  unfold State.pillowChecked
  split
  · exact (h.incFld ..).countEv ..
  · exact h

theorem State.bobs_pillowChecked (w : Nat) (ev : EccEv) : (s.pillowChecked w ev).bobs = s.bobs := by
  unfold State.pillowChecked
  split
  · rw [State.corrected, State.bobs_countEv, State.incFld_bobs]
  · rfl

theorem State.bobs_setPoison (l : Loc) : (s.setPoison l).bobs = s.bobs :=
  (congrArg State.bobs ({ s with poison := tabPut false s.poison (blockKey l) true }.recountPoison_frame l.tier) :)

theorem State.bobs_metBlock (ev : EccEv) : (s.metBlock ev).bobs = s.bobs := by
  cases ev with
  | block w n bad =>
    simp only [State.metBlock, State.meetBlock]
    split
    · rfl
    · split
      · exact State.bobs_setPoison _
      · exact State.incFld_bobs ..
  | _ => rfl

end

/-- Settles O19: `WorkEnds.tileInstr` gives the work's end, and a template step whose work ends goes on. -/
theorem epilogueReadsNoMemory : Obligations.EpilogueReadsNoMemory := by
  intro s i w p ev kind f word r instr clean at_ decoded border epilogue known
  obtain ⟨c, scale⟩ := Option.isSome_iff_exists.mp known
  obtain ⟨⟨r', u⟩, work, place, counted⟩ := WorkEnds.tileInstr (s := s.metBlock ev) scale instr epilogue word
  have checked := (counted.pillowChecked w ev).trans (State.countGuard_accessed w r.counts r'.counts)
  have bobs : ((s.metBlock ev).pillowChecked w ev).bobs = s.bobs :=
    (State.bobs_pillowChecked ..).trans (State.bobs_metBlock ev)
  refine ⟨((u.pillowChecked w ev).countGuard w r.counts r'.counts).doneRun w p r', r', ?_, State.run_doneRun _, place.idx,
    place.rep, place.binding, ?_, bobs ▸ checked.doneRun w p r'⟩
  · rw [exec_tileInstr instr, tWork, tStep_runs at_ _ decoded border, work, tFinish_done clean]
  · exact (otherBobs.of_bobs (checked.bobs.trans bobs)).trans (State.otherBobs_doneRun _ p.isLt)

end Sys2Proof.Machine
end

section
/-!
SUPPORT. The vector instructions that map the slots of their set (R226, R227, R232): a slot mapped, the slots of a set
mapped, and scaling where every slot is scaled.
-/
namespace Sys2Proof.Machine

/-! ### Slots mapped (R137, R138) -/

section
variable (p : Pillow)

/-- The accumulators of slot n at a list of places written, each with its place's value. -/
def Pillow.zSetAt (n : Nat) (places : List (Nat × Nat)) (g : Nat → Nat → Word32) : Pillow :=
  places.foldl (fun q x => q.zSet n x.1 x.2 (g x.1 x.2)) p

theorem Pillow.zGet_zSetAt {n m k l : Nat} {places : List (Nat × Nat)} (g : Nat → Nat → Word32)
    (inside : ∀ x ∈ places, x.1 < 64 ∧ x.2 < 128) (hm : m < 16) (read : k < 64 ∧ l < 128) :
    (p.zSetAt n places g).zGet m k l = if m = n ∧ (k, l) ∈ places then g k l else p.zGet m k l := by
  induction places generalizing p with
  | nil => simp [Pillow.zSetAt]
  | cons x places ih =>
    obtain ⟨i, j⟩ := x
    have first : p.zSetAt n ((i, j) :: places) g = (p.zSet n i j (g i j)).zSetAt n places g := List.foldl_cons ..
    rw [first, ih _ fun y hy => inside y (List.mem_cons_of_mem _ hy),
      p.zGet_zSet hm (inside (i, j) List.mem_cons_self) read]
    by_cases here : k = i ∧ l = j
    · obtain ⟨rfl, rfl⟩ := here
      by_cases slot : m = n <;> simp [slot]
    · simp [here]

theorem Pillow.bytes_zSetAt (n : Nat) (places : List (Nat × Nat)) (g : Nat → Nat → Word32) :
    (p.zSetAt n places g).bytes = p.bytes :=
  List.foldlRecOn (motive := fun q : Pillow => q.bytes = p.bytes) _ _ rfl fun _ same _ _ => same

theorem Pillow.zMap_eq_zSetAt (n : Nat) (f : Nat → Nat → Word32 → Word32) :
    p.zMap n f = p.zSetAt n (List.range 64 ×ˢ List.range 128) (fun i j => f i j (p.zGet n i j)) := by
  simp only [Pillow.zMap, Pillow.zSetAt, SProd.sprod, List.product, List.foldl_flatMap, List.foldl_map]

/-- A mapped slot reads as its map's values, every other slot as before. -/
theorem Pillow.zGet_zMap {n m k l : Nat} (f : Nat → Nat → Word32 → Word32) (hm : m < 16) (read : k < 64 ∧ l < 128) :
    (p.zMap n f).zGet m k l = if m = n then f k l (p.zGet m k l) else p.zGet m k l := by
  rw [p.zMap_eq_zSetAt, p.zGet_zSetAt _ (by simp) hm read]
  by_cases slot : m = n <;> simp [slot, read]

theorem Pillow.bytes_zMap (n : Nat) (f : Nat → Nat → Word32 → Word32) : (p.zMap n f).bytes = p.bytes := by
  rw [p.zMap_eq_zSetAt, Pillow.bytes_zSetAt]

/-- The slots of a set mapped in order, each by its own function. -/
def Pillow.zMapSet (set : List Nat) (f : Nat → Nat → Nat → Word32 → Word32) : Pillow :=
  set.foldl (fun q n => q.zMap n (f n)) p

/-- Where a set names no slot twice, each of its slots is mapped once and no other slot is (R226). -/
theorem Pillow.zGet_zMapSet {m k l : Nat} {set : List Nat} (f : Nat → Nat → Nat → Word32 → Word32) (once : set.Nodup)
    (hm : m < 16) (read : k < 64 ∧ l < 128) :
    (p.zMapSet set f).zGet m k l = if m ∈ set then f m k l (p.zGet m k l) else p.zGet m k l := by
  induction set generalizing p with
  | nil => simp [Pillow.zMapSet]
  | cons n set ih =>
    obtain ⟨fresh, once⟩ := List.nodup_cons.mp once
    have first : p.zMapSet (n :: set) f = (p.zMap n (f n)).zMapSet set f := List.foldl_cons ..
    rw [first, ih _ once, p.zGet_zMap _ hm read]
    by_cases slot : m = n
    · subst slot
      simp [fresh]
    · simp [slot]

theorem Pillow.bytes_zMapSet (set : List Nat) (f : Nat → Nat → Nat → Word32 → Word32) :
    (p.zMapSet set f).bytes = p.bytes :=
  List.foldlRecOn (motive := fun q : Pillow => q.bytes = p.bytes) _ _ rfl
    fun q same n _ => (q.bytes_zMap n (f n)).trans same

end

/-! ### Sets (R226, R227) -/

/-- A set names no slot twice, in a row or in a column of slots. -/
theorem nodup_accSet (za zn : Nat) (col : Bool) : (accSet za zn col).Nodup := by
  refine List.nodup_range.map fun i j same => ?_
  cases col <;> simpa using same

section
variable {s : State} {r : Run}

/-- Slots that are all scaled are read as they stand (R205). -/
theorem State.scaleSlots_of_scaled {ns : List Nat} (scaled : ∀ n ∈ ns, r.pil.scaled.getLsbD n = true) :
    s.scaleSlots r ns = .ok r := by
  induction ns with
  | nil => rfl
  | cons n ns ih =>
    have slot : s.scaleSlot r n = .ok r := if_pos (scaled n List.mem_cons_self)
    rw [State.scaleSlots, List.foldlM_cons, slot]
    exact ih fun m hm => scaled m (List.mem_cons_of_mem _ hm)

/-- A vector instruction on scaled slots maps the accumulators of its set, and nothing else of its run (R227). -/
theorem State.mapSet_of_scaled {w per : Nat} {v : VecOp} {f : Run → Nat → Nat → Nat → Word32 → Word32}
    (scaled : ∀ n ∈ v.set, r.pil.scaled.getLsbD n = true) :
    ∃ u, s.mapSet w r v per f = .ok ({ r with pil := r.pil.zMapSet v.set (f r) }, u) := by
  rw [State.mapSet, State.scaleSlots_of_scaled scaled]
  exact ⟨_, rfl⟩

end

/-- Settles O20: ADDV's work is `Pillow.zMapSet` over its set, which names no slot twice. -/
theorem addvAddsItsVector : Obligations.AddvAddsItsVector := by
  intro s u w r r' word v known work
  have once : v.set.Nodup := nodup_accSet ..
  obtain ⟨u', work'⟩ := State.mapSet_of_scaled (s := s) (w := w) (per := 64)
    (f := fun r' n _ j z => fadd z (r'.pil.vec v.fmt v.ps1 (tileCol n j))) fun n hn => (known n hn).2
  obtain ⟨rfl, -⟩ : _ ∧ u' = u := by simpa using work'.symm.trans work
  have read {n i j : Nat} (hn : n < 16) (at_ : i < 64 ∧ j < 128) :=
    r.pil.zGet_zMapSet (fun n _ j z => fadd z (r.pil.vec v.fmt v.ps1 (tileCol n j))) once hn at_
  refine ⟨fun n hn i j hi hj => ?_, fun n i j hn out hi hj => ?_, r.pil.bytes_zMapSet .., rfl⟩
  · exact (read (known n hn).1 ⟨hi, hj⟩).trans (if_pos hn)
  · exact (read hn ⟨hi, hj⟩).trans (if_neg out)

end Sys2Proof.Machine
end

section
/-!
SUPPORT. Registers, branches, jumps and exceptions of the well controllers (R258, R262, R277).
-/
namespace Sys2Proof.Machine

/-! ### Registers of a controller (R258) -/

section
variable (c : CtlCtx)

@[simp] theorem CtlCtx.get_zero : c.get 0 = 0#64 := rfl

@[simp] theorem CtlCtx.set_zero (v : Word) : c.set 0 v = c := rfl

theorem CtlCtx.get_of_ne_zero {n : Nat} (h : n ≠ 0) : c.get n = tabGet 0#64 c.regs n := if_neg h

theorem CtlCtx.set_of_ne_zero {n : Nat} (h : n ≠ 0) (v : Word) :
    c.set n v = { c with regs := tabPut 0#64 c.regs n v } := if_neg h

theorem CtlCtx.get_set_same {n : Nat} (h : n ≠ 0) (v : Word) : (c.set n v).get n = v := by
  rw [CtlCtx.get_of_ne_zero _ h, CtlCtx.set_of_ne_zero _ h, tabGet_put_self]

theorem CtlCtx.get_set_ne {n m : Nat} (h : m ≠ n) (v : Word) : (c.set n v).get m = c.get m := by
  obtain rfl | hn := eq_or_ne n 0
  · rw [CtlCtx.set_zero]
  obtain rfl | hm := eq_or_ne m 0
  · rw [CtlCtx.get_zero, CtlCtx.get_zero]
  · rw [CtlCtx.set_of_ne_zero _ hn, CtlCtx.get_of_ne_zero _ hm, CtlCtx.get_of_ne_zero _ hm, tabGet_put_ne _ _ _ h]

@[simp] theorem CtlCtx.pc_set (n : Nat) (v : Word) : (c.set n v).pc = c.pc := by
  unfold CtlCtx.set
  split <;> rfl

@[simp] theorem CtlCtx.wait_set (n : Nat) (v : Word) : (c.set n v).wait = c.wait := by
  unfold CtlCtx.set
  split <;> rfl

end

/-- Settles O8: each clause is a law of `CtlCtx.get` and `CtlCtx.set`. -/
theorem registerZeroIsHardWired : Obligations.RegisterZeroIsHardWired := fun c n _ v =>
  ⟨c.get_zero, c.set_zero v, (c.get_set_same · v), (c.get_set_ne · v), c.pc_set n v, c.wait_set n v⟩

/-! ### Branches and jumps (R183, R262) -/

theorem cOfs_eq (i : Word) : cOfs i = (BitVec.extractLsb' 30 16 i).toInt := by
  rw [cOfs, ← toNat_extractLsb'_eq_bitsOf, signedOf_toNat]

section
variable {s : State} {w : WellId} {ev : EccEv} {word : Word}

/-- A branch writes no register: the controller stands at index n. -/
theorem ctlWrote_checked_ctlGoes (n : Nat) : ctlWrote s ((s.checked w ev).ctlGoes w n) w ev 0 0#64 n := by
  refine ⟨?_, fun u other => ?_, ?_, fun o counter other => ?_, ?_⟩
  · rw [State.well_ctlGoes, State.checked_well, CtlCtx.set_zero]
  · rw [State.well_ctlGoes_ne _ _ other, State.checked_well]
  · have goes := (s.checked w ev).ctlGoes_frame (w := w) n
    rw [State.wells_checked] at goes
    exact (congrArg (fun u : State => { u with regs := s.regs }) goes).trans (s.checked_frame w ev)
  · rw [State.reg_ctlGoes counter]
    exact State.reg_checked_ne (by simpa using other)
  · rw [State.reg_ctlGoes (not_isEvCnt_rWlCtlEcc w)]
    exact State.reg_checked

/-- A next index inside the program (R262, R277). -/
theorem cGo_checked {t : State} {n : Nat} {next : Int} (inside : n < (s.well w).plen) (at_n : (n : Int) = next) :
    cGo (s.checked w ev) t w next = .next (t.ctlGoes w n) := by
  subst at_n
  exact cGo_goes (Int.natCast_nonneg n) (by rw [State.checked_well]; exact_mod_cast inside)

variable (clean : ev ≠ .uncorrectable) (at_ : s.ctlAt w word) {n : Nat} (inside : n < (s.well w).plen)
include clean at_ inside

/-- A branch whose target lies inside the program goes there (R262). -/
theorem cB_branches {kind : CKind} (decoded : cKind word = some kind) (f : Word → Word → Bool)
    (target : (n : Int) = if f ((s.well w).cx.get (bitsOf word 55 51)) ((s.well w).cx.get (bitsOf word 50 46)) then
      (s.well w).cx.pc + (BitVec.extractLsb' 30 16 word).toInt else (s.well w).cx.pc + 1) :
    cB kind f w ev s = .next ((s.checked w ev).ctlGoes w n) := by
  rw [← cOfs_eq] at target
  rw [cB, cStep_runs at_ clean decoded]
  exact cGo_checked inside (by rwa [State.pcNext, State.checked_well])

theorem exec_jal (op : opOf word = 0xB8) (no_rs1 : bitsOf word 50 46 = 0) (zero : bitsOf word 29 0 = 0)
    (target : (n : Int) = (s.well w).cx.pc + (BitVec.extractLsb' 30 16 word).toInt) :
    exec (.jal w ev) s = .next (((s.checked w ev).setCtl w .running
      ((s.well w).cx.set (bitsOf word 55 51) (BitVec.ofNat 64 ((s.well w).cx.pc + 1)))).ctlGoes w n) := by
  have decoded : cKind word = some .jal := by simp only [cKind, op, cRs1, if_pos no_rs1, if_pos zero]
  change execJal w ev s = _
  rw [execJal, cStep_runs at_ clean decoded]
  exact cGo_checked inside (by rwa [cOfs_eq])

theorem exec_jr (op : opOf word = 0xB9) (zero : bitsOf word 45 0 = 0)
    (target : (n : Int) = ((s.well w).cx.get (bitsOf word 55 51)).toNat) :
    exec (.jr w ev) s = .next ((s.checked w ev).ctlGoes w n) := by
  have decoded : cKind word = some .jr := by simp only [cKind, op, if_pos zero]
  change execJr w ev s = _
  rw [execJr, cStep_runs at_ clean decoded]
  exact cGo_checked inside target

end

/-- Each branch judges its condition, at the words of its opcode whose bits below the offset are 0. -/
theorem exec_ctlBranchOp {i : Instr} {w : WellId} {ev : EccEv} {op : Nat} {f : Word → Word → Bool}
    (h : ctlBranchOp i = some (w, ev, op, f)) :
    ∃ kind, (∀ s, exec i s = cB kind f w ev s)
      ∧ ∀ word, opOf word = op → bitsOf word 29 0 = 0 → cKind word = some kind := by
  unfold ctlBranchOp at h
  split at h
  case h_4 | h_6 =>
    cases h
    simp only [← not_lt, decide_not, ← BitVec.slt_eq_decide, ← BitVec.ult_eq_decide]
    exact ⟨_, fun s => rfl, fun word is_op zero => by simp only [cKind, is_op, if_pos zero]⟩
  case h_2 =>
    cases h
    simp only [decide_not]
    exact ⟨_, fun s => rfl, fun word is_op zero => by simp only [cKind, is_op, if_pos zero]⟩
  case h_7 => cases h
  all_goals
    cases h
    exact ⟨_, fun s => rfl, fun word is_op zero => by simp only [cKind, is_op, if_pos zero]⟩

/-- Settles O10: each branch is a `cB` of its kind at its word, and JAL and JR are their equations. -/
theorem controllerBranchesJump : Obligations.ControllerBranchesJump := by
  intro s i w ev op n f word clean at_ inside c ofs
  refine ⟨fun branch is_op zero target => ?_, fun is_op no_rs1 zero target => ?_, fun is_op zero target => ?_⟩
  · obtain ⟨kind, run, decoded⟩ := exec_ctlBranchOp branch
    exact ⟨_, (run s).trans (cB_branches clean at_ inside (decoded word is_op zero) f target),
      ctlWrote_checked_ctlGoes n⟩
  · exact ⟨_, exec_jal clean at_ inside is_op no_rs1 zero target, ctlWrote_ctlGoes ..⟩
  · exact ⟨_, exec_jr clean at_ inside is_op zero target, ctlWrote_checked_ctlGoes n⟩

/-! ### Exceptions of the fetch (R260, R277) -/

section
variable {s : State} {w : WellId} {ev : EccEv} {word : Word} {kind : CKind} (at_ : s.ctlAt w word)
include at_

/-- An uncorrectable instruction word is loaded again, and the instruction is not run (R277, cause 0x3). -/
theorem cStep_uncorrectable (k : State → CtlCtx → Word → Res) :
    cStep kind w .uncorrectable s k = .next (s.imemReload w) := by
  obtain ⟨running, present, -⟩ := at_
  simp [cStep, need, running, present]

/-- A reserved encoding is met whatever the command named (R277, cause 0x5). -/
theorem cStep_reserved (clean : ev ≠ .uncorrectable) (reserved : cKind word = none) (k : State → CtlCtx → Word → Res) :
    cStep kind w ev s k = .next ((s.checked w ev).ctlExc w 5 0x7F ((s.well w).cx.pc + opOf word * 65536)) := by
  obtain ⟨running, present, here⟩ := at_
  cases ev with
  | uncorrectable => exact absurd rfl clean
  | _ => simp [cStep, need, running, present, here, reserved, State.checked]

end

section
variable {s : State} {w : WellId} {ev : EccEv} {kind : CKind}

theorem cWrite_eq_cStep (f : CtlCtx → Word → Word) : ∃ kind' k, cWrite kind w ev s f = cStep kind' w ev s k :=
  ⟨_, _, rfl⟩

theorem cR_eq_cStep (f : Word → Word → Word) : ∃ kind' k, cR kind f w ev s = cStep kind' w ev s k := cWrite_eq_cStep _

theorem cI_eq_cStep (f : Word → Word → Word) : ∃ kind' k, cI kind f w ev s = cStep kind' w ev s k := cWrite_eq_cStep _

theorem cB_eq_cStep (f : Word → Word → Bool) : ∃ kind' k, cB kind f w ev s = cStep kind' w ev s k := ⟨_, _, rfl⟩

end

/-- Every command of the controllers' instruction set is a step of its kind. -/
theorem exec_ctlInstr {i : Instr} {w : WellId} {ev : EccEv} (h : ctlInstr i = some (w, ev)) (s : State) :
    ∃ kind k, exec i s = cStep kind w ev s k := by
  unfold ctlInstr at h
  split at h
  case h_53 => cases h
  all_goals
    cases h
    delta exec
    dsimp only
  case h_1 | h_2 | h_3 | h_4 | h_5 | h_6 | h_7 | h_8 | h_9 | h_10 | h_11 => exact cR_eq_cStep _
  case h_12 | h_13 | h_14 | h_15 | h_16 | h_17 | h_18 | h_19 => exact cI_eq_cStep _
  case h_20 | h_21 => exact cWrite_eq_cStep _
  case h_25 | h_26 | h_27 | h_28 | h_29 | h_30 => exact cB_eq_cStep _
  all_goals exact ⟨_, _, rfl⟩

section
variable {s : State} {w cause status detail : Nat}

theorem State.jobs_latch (o : Nat) (v : Word) : (s.latch o v).jobs = s.jobs := by
  obtain ⟨regs, e⟩ := s.onlyRegs_latch o v
  rw [e]

theorem State.wells_excNoted : (s.excNoted w cause status detail).wells = s.wells := by
  obtain ⟨regs, e⟩ := s.onlyRegs_latch (rWlCtlExc w)
    (setBits (setBits (setBits 0#64 51 48 cause) 47 32 (s.well w).cx.pc) 31 24 status)
  rw [State.excNoted, e, State.reportSelf]
  obtain ⟨regs', msix, last, e'⟩ := State.report_eq (s := { s with regs := regs }) w 4 (if status = 0 then 0 else 1) w 144
    144 detail
  rw [e']

theorem State.jobs_excNoted : (s.excNoted w cause status detail).jobs = s.jobs := by
  rw [State.excNoted, State.jobs_reportSelf, State.jobs_latch]

theorem State.sameMem_excNoted : sameMem s (s.excNoted w cause status detail) :=
  (s.onlyRegs_latch _ _).sameMem.trans (State.sameMem_reportSelf ..)

/-- The record of the first exception, terminating or not (R14, R277). -/
theorem State.record_excNoted (first : bitOf (s.reg (rWlCtlExc w)) 63 = false) :
    (s.excNoted w cause status detail).reg (rWlCtlExc w) =
      BitVec.ofNat 64 (2 ^ 63 + s.fld (rWlCtlExc w) 62 62 * 2 ^ 62 + cause % 16 * 2 ^ 48
        + (s.well w).cx.pc % 65536 * 2 ^ 32 + status % 256 * 2 ^ 24) := by
  have apart : rWlCtlExc w ∉ reportRegs (16 * w + 0x4) := by
    simp only [reportRegs, List.mem_cons, List.not_mem_nil, or_false, not_or, rWlCtlExc, rWl, rFcRec, rFcTb, rFcDet,
      rFcSummary, rFcAlert]
    omega
  rw [State.excNoted, State.reportSelf, State.reg_report apart, State.reg_latch_of_first first, excRecord_eq,
    Nat.mod_eq_of_lt (State.fld_bit_lt ..)]

/-- An exception that ends nothing is recorded and reported. -/
theorem State.ctlExc_of_status_zero : s.ctlExc w cause 0 detail = s.excNoted w cause 0 detail := by
  rw [State.ctlExc]
  exact if_pos rfl

/-- A terminating exception ends the job of its well. -/
theorem State.job_ctlExc (terminates : status ≠ 0) {j : Nat} {x : Job} (bound : (s.well w).job = some j)
    (job : s.job j = some x) (none_yet : x.status = none) (open_ : x.phase ≠ .committed) :
    ∃ addr, (s.ctlExc w cause status detail).job j
      = some { x with status := some status, addr := addr, phase := .stopping } := by
  have noted : ((s.excNoted w cause status detail).setCtl w .faulted { (s.well w).cx with wait := .none }).job j
      = some x := by
    rw [← job]
    exact congrArg (·[j]?) State.jobs_excNoted
  have ends : ∃ addr, s.ctlExc w cause status detail = ((s.excNoted w cause status detail).setCtl w .faulted
      { (s.well w).cx with wait := .none }).failJob j status addr := by
    simp only [State.ctlExc, State.excNoted, terminates, if_false, bound]
    exact ⟨_, rfl⟩
  obtain ⟨addr, e⟩ := ends
  exact ⟨addr, e ▸ State.job_failJob noted none_yet open_⟩

end

theorem rWlCtlExc_ne_rWlCtlEcc (w : Nat) : rWlCtlExc w ≠ rWlCtlEcc w := by
  simp only [rWlCtlExc, rWlCtlEcc, rWl]
  omega

/-- What the reload of an instruction word leaves: its counts, its record and its report (R260, R277). -/
theorem State.imemReload_leaves {s : State} {w : Nat} (first : bitOf (s.reg (rWlCtlExc w)) 63 = false) :
    let t := s.imemReload w
    t.wells = s.wells ∧ t.jobs = s.jobs ∧ sameMem s t
      ∧ t.reg (rWlCtlExc w) = BitVec.ofNat 64
          (2 ^ 63 + s.fld (rWlCtlExc w) 62 62 * 2 ^ 62 + 3 * 2 ^ 48 + (s.well w).cx.pc % 65536 * 2 ^ 32) := by
  have same : (s.incFld (rWlCtlEcc w) 31 16 1).reg (rWlCtlExc w) = s.reg (rWlCtlExc w) :=
    s.reg_incFld_ne _ _ _ (rWlCtlExc_ne_rWlCtlEcc w)
  have wells : (s.incFld (rWlCtlEcc w) 31 16 1).wells = s.wells := s.incFld_wells ..
  have counted : OnlyRegs s (s.incFld (rWlCtlEcc w) 31 16 1) := OnlyRegs.refl.setReg
  have reload : s.imemReload w = (s.incFld (rWlCtlEcc w) 31 16 1).excNoted w 3 0 (s.well w).cx.pc := by
    rw [State.imemReload, State.ctlExc_of_status_zero]
  rw [reload]
  clear reload
  generalize s.incFld (rWlCtlEcc w) 31 16 1 = u at *
  refine ⟨State.wells_excNoted.trans wells, State.jobs_excNoted.trans ?_, counted.sameMem.trans State.sameMem_excNoted, ?_⟩
  · obtain ⟨regs, rfl⟩ := counted
    rfl
  · have record := State.record_excNoted (s := u) (w := w) (cause := 3) (status := 0) (detail := (s.well w).cx.pc)
      (same ▸ first)
    rw [State.fld, same, State.well_of_wells wells, Nat.zero_mod, Nat.zero_mul, Nat.add_zero] at record
    rw [record, State.fld]

/-- Settles O13: both findings are the step's own, whatever instruction the command named; the first is an exception
without a status, and the second one that ends the well's job. -/
theorem controllerExceptionsAreRecorded : Obligations.ControllerExceptionsAreRecorded := by
  intro s i w ev word named at_ first pc
  obtain ⟨kind, k, run⟩ := exec_ctlInstr named s
  refine ⟨?_, fun clean reserved => ?_⟩
  · rintro rfl
    exact ⟨_, run.trans (cStep_uncorrectable at_ k), State.imemReload_leaves first⟩
  · have same : (s.checked w ev).reg (rWlCtlExc w) = s.reg (rWlCtlExc w) :=
      State.reg_checked_ne (rWlCtlExc_ne_rWlCtlEcc w)
    have record := State.record_ctlExc (s := s.checked w ev) (w := w) (cause := 5) (status := 0x7F)
      (detail := pc + opOf word * 65536) (by decide) (same ▸ first)
    refine ⟨_, run.trans (cStep_reserved at_ clean reserved k), State.faulted_ctlExc (by decide),
      (s.sameMem_checked w ev).trans (State.sameMem_ctlExc (by decide)), ?_, fun j x bound job none_yet open_ => ?_⟩
    · simpa only [State.fld, same, State.checked_well, Nat.reduceMod] using record
    · obtain ⟨addr, ended⟩ := State.job_ctlExc (s := s.checked w ev) (cause := 5) (status := 0x7F)
        (detail := pc + opOf word * 65536) (by decide) (by rwa [State.checked_well])
        ((congrArg (·[j]?) (State.jobs_checked w)).trans job) none_yet open_
      exact ⟨_, ended, rfl, rfl⟩

end Sys2Proof.Machine
end

section
/-!
SUPPORT. WALK and ENQ as they are accepted, and the walker's placement (R122, R266, R267, R286, R292, R309, R313, R314).
-/
namespace Sys2Proof.Machine

/-! ### The job of a well -/

section
variable {s : State} {w j : Nat} {x : Job}

theorem State.wellJob_eq_some_iff : s.wellJob w = some (j, x) ↔ (s.well w).job = some j ∧ s.job j = some x := by
  simp only [State.wellJob, Option.bind_eq_some_iff, Option.map_eq_some_iff, Prod.mk.injEq]
  constructor
  · rintro ⟨_, bound, _, job, rfl, rfl⟩
    exact ⟨bound, job⟩
  · rintro ⟨bound, job⟩
    exact ⟨j, bound, x, job, rfl, rfl⟩

theorem State.wellSlot_of_wellJob (h : s.wellJob w = some (j, x)) : s.wellSlot w = s.slotOf j w := by
  obtain ⟨bound, -⟩ := State.wellJob_eq_some_iff.mp h
  rw [State.wellSlot, bound]
  rfl

end

/-! ### What a controller's step leaves of deques and records -/

section
variable (s : State) (w : Nat)

theorem State.deques_checked (ev : EccEv) : (s.checked w ev).deques = s.deques :=
  (congrArg State.deques (s.checked_frame w ev) :)

theorem State.walkRecs_checked (ev : EccEv) : (s.checked w ev).walkRecs = s.walkRecs :=
  (congrArg State.walkRecs (s.checked_frame w ev) :)

theorem State.deques_ctlGoes (n : Nat) : (s.ctlGoes w n).deques = s.deques :=
  (congrArg State.deques (s.ctlGoes_frame (w := w) n) :)

theorem State.walkRecs_ctlGoes (n : Nat) : (s.ctlGoes w n).walkRecs = s.walkRecs :=
  (congrArg State.walkRecs (s.ctlGoes_frame (w := w) n) :)

theorem State.jobs_ctlGoes (n : Nat) : (s.ctlGoes w n).jobs = s.jobs :=
  (congrArg State.jobs (s.ctlGoes_frame (w := w) n) :)

end

theorem State.deque_of_deques {s t : State} (h : t.deques = s.deques) (v m : Nat) : t.deque v m = s.deque v m := by
  rw [State.deque, h, State.deque]

theorem State.wrec_of_walkRecs {s t : State} (h : t.walkRecs = s.walkRecs) (v k r : Nat) :
    t.wrec v k r = s.wrec v k r := by
  rw [State.wrec, h, State.wrec]

/-! ### An accepted WALK (R266, R286, R309) -/

section
variable {s : State} {w : Nat} {ev : EccEv} {k j prick arg tag rank : Nat} {l : Layer}

/-- A walk started, its part in the well's layer. -/
def State.walks (s : State) (w k j prick arg tag rank : Nat) (l : Layer) : State :=
  (s.startWalk w k j prick arg tag rank).setWell w
    { (s.startWalk w k j prick arg tag rank).well w with layer := l }

theorem State.wrec_walks : (s.walks w k j prick arg tag rank l).wrec w k (tag % 64)
    = { live := true, job := j, prick := prick, arg := arg, tag := tag, rank := rank } := by
  rw [State.walks, State.startWalk]
  exact s.wrec_setWrec w k (tag % 64) { live := true, job := j, prick := prick, arg := arg, tag := tag, rank := rank }

theorem State.well_walks : (s.walks w k j prick arg tag rank l).well w =
    { s.well w with walks := (s.well w).walks ++ [{ slot := k, wrec := tag % 64 }], layer := l } := by
  rw [State.walks, State.well_setWell, State.startWalk, State.well_setWell]
  rfl

theorem State.well_walks_ne {v : Nat} (h : v ≠ w) : (s.walks w k j prick arg tag rank l).well v = s.well v := by
  rw [State.walks, State.well_setWell_ne _ _ h, State.startWalk, State.well_setWell_ne _ _ h]
  rfl

theorem State.walkAccept_of_ok {x : Job} {pk : Pricking} {last : Nat} (listed : x.pricks.contains prick = true)
    (read : s.readPricking (viaQ w (s.ctxOf j)) prick = .ok pk)
    (bound : s.layerLast (viaQ w (s.ctxOf j)) pk = .ok last)
    (joins : (s.well w).layer.join pk.guard last (.walk prick arg tag) = some l) (within : arg ≤ pk.argmax) :
    s.walkAccept w j k x prick arg tag = cGo s (s.walks w k j prick arg tag (x.rank w) l) w (s.pcNext w) := by
  simp only [State.walkAccept, listed, read, bound, joins, Nat.not_lt.mpr within, Bool.not_true, Bool.false_eq_true,
    if_false, State.walks]

/-- What a started walk leaves once the controller goes on. -/
theorem State.walks_leaves (n : Nat) :
    let t := ((s.checked w ev).walks w k j prick arg tag rank l).ctlGoes w n
    t.wrec w k (tag % 64) = { live := true, job := j, prick := prick, arg := arg, tag := tag, rank := rank }
      ∧ t.well w = { s.well w with
          ctl := .running, cx := { (s.well w).cx with pc := n, wait := .none },
          walks := (s.well w).walks ++ [{ slot := k, wrec := tag % 64 }], layer := l }
      ∧ (∀ v, v ≠ w → t.well v = s.well v)
      ∧ { t with wells := s.wells, walkRecs := s.walkRecs, regs := s.regs } = s := by
  refine ⟨?_, ?_, fun v other => ?_, ?_⟩
  · rw [State.wrec_of_walkRecs (State.walkRecs_ctlGoes ..), State.wrec_walks]
  · rw [State.well_ctlGoes, State.well_walks, State.checked_well]
  · rw [State.well_ctlGoes_ne _ _ other, State.well_walks_ne other, State.checked_well]
  · have goes := congrArg (fun u : State => { u with wells := s.wells, walkRecs := s.walkRecs, regs := s.regs })
      (State.ctlGoes_frame (s := (s.checked w ev).walks w k j prick arg tag rank l) (w := w) n)
    have checked := congrArg (fun u : State => { u with wells := s.wells, walkRecs := s.walkRecs })
      (s.checked_frame w ev)
    exact Eq.trans goes checked

end

/-- A WALK that the walker accepts, whose pricking the job lists, whose layer it joins and whose argument is within range. -/
theorem State.walkScratch_accepts {s : State} {w : Nat} {c : CtlCtx} {i : Word} {r : Res} {j : Nat} {x : Job}
    {pk : Pricking} {last : Nat} {l : Layer} (job : s.wellJob w = some (j, x))
    (sound : s.scratchOk w (wrecAt (s.slotOf j w) (bitsOf i 15 0 % 64)) = true)
    (ready : s.walkReady w (s.slotOf j w) (bitsOf i 15 0) = true)
    (listed : x.pricks.contains (c.get (bitsOf i 55 51)).toNat = true)
    (read : s.readPricking (viaQ w (s.ctxOf j)) (c.get (bitsOf i 55 51)).toNat = .ok pk)
    (bound : s.layerLast (viaQ w (s.ctxOf j)) pk = .ok last)
    (joins : (s.well w).layer.join pk.guard last
      (.walk (c.get (bitsOf i 55 51)).toNat (c.get (bitsOf i 50 46)).toNat (bitsOf i 15 0)) = some l)
    (within : (c.get (bitsOf i 50 46)).toNat ≤ pk.argmax) :
    s.ctlScratch w (wrecAt (s.wellSlot w) (bitsOf i 15 0 % 64))
      (if s.walkReady w (s.wellSlot w) (bitsOf i 15 0) then s.doWalk w c i else r)
      = cGo s (s.walks w (s.slotOf j w) j (c.get (bitsOf i 55 51)).toNat (c.get (bitsOf i 50 46)).toNat (bitsOf i 15 0)
          (x.rank w) l) w (s.pcNext w) := by
  rw [State.wellSlot_of_wellJob job, State.ctlScratch_of_ok sound, if_pos ready, State.doWalk, job, needSome_some]
  exact State.walkAccept_of_ok listed read bound joins within

/-! ### Placing a stitch (R292, R313, R314) -/

/-- t is s but for what placement changes beside the deque and the record of the stitch: the placement pointers of well w
and its leaving of W1, the thieves woken, and the split points noted (R298, R314, R317, R704). -/
structure PlacesBeside (w : Nat) (s t : State) : Prop where
  rest : { t with pw := s.pw, regs := s.regs, wells := s.wells, bobs := s.bobs, splits := s.splits } = s
  own : ∃ p b e, t.well w = { s.well w with place := p, placeBorder := b, exitAt := e }
  others : ∀ v, v ≠ w → t.well v = s.well v

section
variable {s t : State} {w : Nat}

theorem PlacesBeside.of_wells (wells : t.wells = s.wells)
    (rest : { t with pw := s.pw, regs := s.regs, wells := s.wells, bobs := s.bobs, splits := s.splits } = s) :
    PlacesBeside w s t :=
  ⟨rest, ⟨_, _, _, State.well_of_wells wells w⟩, fun v _ => State.well_of_wells wells v⟩

theorem PlacesBeside.refl : PlacesBeside w s s := .of_wells rfl rfl

theorem PlacesBeside.trans {u : State} (h : PlacesBeside w s t) (k : PlacesBeside w t u) : PlacesBeside w s u := by
  obtain ⟨hrest, ⟨p, b, e, hown⟩, hothers⟩ := h
  obtain ⟨krest, ⟨p', b', e', kown⟩, kothers⟩ := k
  refine ⟨?_, ⟨p', b', e', by rw [kown, hown]⟩, fun v other => (kothers v other).trans (hothers v other)⟩
  exact (congrArg (fun y : State =>
    { y with pw := s.pw, regs := s.regs, wells := s.wells, bobs := s.bobs, splits := s.splits }) krest).trans hrest

/-- A well that only moves its placement or leaves W1. -/
theorem PlacesBeside.setWell {y : Well} (h : PlacesBeside w s t)
    (own : ∃ p b e, y = { t.well w with place := p, placeBorder := b, exitAt := e }) :
    PlacesBeside w s (t.setWell w y) := by
  obtain ⟨p, b, e, rfl⟩ := own
  exact h.trans ⟨rfl, ⟨p, b, e, t.well_setWell w _⟩, fun v other => t.well_setWell_ne _ other⟩

theorem State.movePlace_beside (border : Bool) (l : Nat) : PlacesBeside w s (s.movePlace w border l) := by
  unfold State.movePlace
  refine .setWell .refl ?_
  split
  · exact ⟨_, _, _, rfl⟩
  · exact ⟨_, _, _, rfl⟩

theorem State.trackSplit_beside (job : Nat) (wr : WalkRec) (wrec : Nat) (pk : Pricking) (P : Nat) (point : List Nat) :
    PlacesBeside w s (s.trackSplit w job wr wrec pk P point) := by
  unfold State.trackSplit
  split
  · exact .refl
  · extract_lets home pt same
    split
    · exact .of_wells rfl rfl
    · exact .of_wells rfl rfl

theorem State.leaveW1_beside : PlacesBeside w s (s.leaveW1 w) := by
  unfold State.leaveW1
  dsimp only
  split
  · exact .setWell (.of_wells rfl rfl) ⟨_, _, _, rfl⟩
  · exact .of_wells rfl rfl

theorem State.wakeThieves_beside : PlacesBeside w s (s.wakeThieves w) := .of_wells rfl rfl

theorem PlacesBeside.deques (h : PlacesBeside w s t) : t.deques = s.deques := (congrArg State.deques h.rest :)
theorem PlacesBeside.walkRecs (h : PlacesBeside w s t) : t.walkRecs = s.walkRecs := (congrArg State.walkRecs h.rest :)
theorem PlacesBeside.jobs (h : PlacesBeside w s t) : t.jobs = s.jobs := (congrArg State.jobs h.rest :)
theorem PlacesBeside.sameMem (h : PlacesBeside w s t) : sameMem s t :=
  ⟨(congrArg State.cistern h.rest :), (congrArg State.reservoir h.rest :), (congrArg State.aquifer h.rest :),
    (congrArg State.hostMem h.rest :), (congrArg State.boot h.rest :), (congrArg State.recovery h.rest :)⟩

end

/-- The stitch d placed on deque l of well w: it stands at the tail and its walk counts one stitch more; no other deque, no
other well, no job and no byte changes (R292, R313). -/
structure Placed (w k l : Nat) (d : Word) (s t : State) : Prop where
  deque : t.deque w l = s.deque w l ++ [{ gw := guard64 d }]
  deques : ∀ v m, m < 128 → ¬(v = w ∧ m = l) → t.deque v m = s.deque v m
  wrec : t.wrec w k (sdWrec d) = { s.wrec w k (sdWrec d) with open_ := (s.wrec w k (sdWrec d)).open_ + 1 }
  own : ∃ p b e, t.well w = { s.well w with place := p, placeBorder := b, exitAt := e }
  others : ∀ v, v ≠ w → t.well v = s.well v
  mem : sameMem s t
  jobs : t.jobs = s.jobs

section
variable {s t u : State} {w k l : Nat} {d : Word}

theorem Placed.of_beside (h : PlacesBeside w s t) (hp : Placed w k l d t u) : Placed w k l d s u where
  deque := by rw [hp.deque, State.deque_of_deques h.deques]
  deques v m hm other := by rw [hp.deques v m hm other, State.deque_of_deques h.deques]
  wrec := by rw [hp.wrec, State.wrec_of_walkRecs h.walkRecs]
  own := by
    obtain ⟨_, _, _, first⟩ := h.own
    obtain ⟨p, b, e, second⟩ := hp.own
    exact ⟨p, b, e, by rw [second, first]⟩
  others v other := (hp.others v other).trans (h.others v other)
  mem := h.sameMem.trans hp.mem
  jobs := hp.jobs.trans h.jobs

theorem State.placeOn_placed (hl : l < 128) : Placed w k l d s (s.placeOn w k l d) := by
  have beside : PlacesBeside w s ((s.leaveW1 w).wakeThieves w) := State.leaveW1_beside.trans State.wakeThieves_beside
  unfold State.placeOn
  rw [← State.deque_of_deques beside.deques w l]
  refine .of_beside beside ?_
  generalize (s.leaveW1 w).wakeThieves w = q
  refine ⟨q.deque_setDeque w l _, fun v m hm other => State.deque_setDeque_ne hl hm other _, ?_, ⟨_, _, _, rfl⟩,
    fun _ _ => rfl, ⟨rfl, rfl, rfl, rfl, rfl, rfl⟩, rfl⟩
  exact State.wrec_setWrec ..

theorem State.enqPlace_placed (hl : l < 128) (job tag P : Nat) (pk : Pricking) (chosen : Bool) :
    Placed w k l d s (s.enqPlace w job k tag P pk d (l, chosen)) := by
  have moved : PlacesBeside w s (if chosen then s.movePlace w (sdBorder d) l else s) := by
    split
    · exact State.movePlace_beside ..
    · exact .refl
  exact .of_beside (moved.trans (State.trackSplit_beside ..)) (State.placeOn_placed hl)

/-- The placement rule chooses one of the 128 deques (R314). -/
theorem State.nextDeque_lt {border : Bool} (h : s.nextDeque w border = some l) : l < 128 := by
  have mem := List.mem_of_find?_eq_some h
  obtain ⟨i, -, rfl⟩ := List.mem_map.mp mem
  cases border
  · exact Nat.mod_lt _ (by decide)
  · exact (Nat.mod_lt _ (by decide)).trans (by decide)

theorem State.enqDeque_lt {named : Option Nat} {border chosen : Bool} (below : ∀ n ∈ named, n < 128)
    (h : s.enqDeque w named border = some (l, chosen)) : l < 128 := by
  have by_rule (h : (s.nextDeque w border).map (fun x => (x, true)) = some (l, chosen)) : l < 128 := by
    obtain ⟨n, next, e⟩ := Option.map_eq_some_iff.mp h
    cases e
    exact State.nextDeque_lt next
  unfold State.enqDeque at h
  split at h
  next n =>
    split at h
    · exact by_rule h
    · split at h <;> cases h
      exact below _ rfl
  next => exact by_rule h

/-- ENQ accepts only descriptors of the record that its tag names (R311). -/
theorem State.sdWrec_of_enqOk {tag j P : Nat} {pk : Pricking} (h : s.enqOk w k tag j d P = .ok (some pk)) :
    sdWrec d = tag % 64 := by
  unfold State.enqOk at h
  dsimp only at h
  split at h
  next named =>
    obtain ⟨same, -⟩ := named
    exact same
  next => cases h

end

/-! ### An accepted ENQ (R122, R267, R311) -/

theorem State.doEnq_of_ok {s : State} {w : Nat} {c : CtlCtx} {i d : Word} {any : Bool} {j : Nat} {x : Job} {pk : Pricking}
    {lc : Nat × Bool} (job : s.wellJob w = some (j, x))
    (read : s.readGuard64 (s.ctlCtx w) (c.get (bitsOf i 55 51)).toNat = .ok d)
    (sound : s.scratchOk w (wrecAt (s.slotOf j w) (bitsOf i 15 0 % 64)) = true)
    (ok : s.enqOk w (s.slotOf j w) (bitsOf i 15 0) j d x.wells.length = .ok (some pk)) :
    let named := if any then none else some ((c.get (bitsOf i 50 46)).toNat % 128)
    s.enqDeque w named (sdBorder d) = some lc →
    s.doEnq w c i any = cGo s ((s.addItem w (.enq d named (bitsOf i 15 0))).enqPlace w j (s.slotOf j w) (bitsOf i 15 0)
      x.wells.length pk d lc) w (s.pcNext w) := by
  intro named room
  rw [State.doEnq, job, needSome_some]
  simp only [cRd, cRs1, read, State.scratch_of_ok sound, ok]
  simp only [named] at room
  rw [room]

/-- ENQ TO and ENQ ANY, by the deque that they name. -/
theorem exec_enq {s : State} {i : Instr} {w : WellId} {ev : EccEv} {word : Word} {named : Option Nat}
    (clean : ev ≠ .uncorrectable) (at_ : s.ctlAt w word) :
    let target := ((s.well w).cx.get (bitsOf word 50 46)).toNat % 128
    (i = .enqTo w ev ∧ cKind word = some .enqTo ∧ named = some target
      ∨ i = .enqAny w ev ∧ cKind word = some .enqAny ∧ named = none) →
    ∃ any, exec i s = (s.checked w ev).doEnq w (s.well w).cx word any ∧ named = if any then none else some target := by
  rintro target (⟨rfl, kind, rfl⟩ | ⟨rfl, kind, rfl⟩)
  · exact ⟨false, (cStep_runs at_ clean kind _ : execEnqTo w ev s = _), rfl⟩
  · exact ⟨true, (cStep_runs at_ clean kind _ : execEnqAny w ev s = _), rfl⟩

section
variable {s : State} {w k : Nat} {ev : EccEv}

theorem State.well_addItem (i : LayerItem) : (s.addItem w i).well w =
    { s.well w with layer := { (s.well w).layer with items := (s.well w).layer.items ++ [i] } } :=
  s.well_setWell w _

theorem State.well_addItem_ne {v : Nat} (h : v ≠ w) (i : LayerItem) : (s.addItem w i).well v = s.well v :=
  s.well_setWell_ne _ h

/-- What an enqueued stitch leaves once the controller goes on. -/
theorem State.enq_leaves {l tag r n : Nat} {d : Word} {named : Option Nat} {t : State} (record : sdWrec d = r)
    (placed : Placed w k l d ((s.checked w ev).addItem w (.enq d named tag)) t) :
    let u := t.ctlGoes w n
    u.deque w l = s.deque w l ++ [{ gw := guard64 d }]
      ∧ (∀ v m, m < 128 → ¬(v = w ∧ m = l) → u.deque v m = s.deque v m)
      ∧ u.wrec w k r = { s.wrec w k r with open_ := (s.wrec w k r).open_ + 1 }
      ∧ (u.well w).cx = { (s.well w).cx with pc := n, wait := .none } ∧ (u.well w).ctl = .running
      ∧ (u.well w).layer = { (s.well w).layer with items := (s.well w).layer.items ++ [.enq d named tag] }
      ∧ (∀ v, v ≠ w → u.well v = s.well v) ∧ sameMem s u ∧ u.jobs = s.jobs := by
  obtain ⟨deque, deques, wrec, ⟨p, b, e, own⟩, others, mem, jobs⟩ := placed
  rw [State.well_addItem, State.checked_well] at own
  have listed (v m : Nat) : ((s.checked w ev).addItem w (.enq d named tag)).deque v m = s.deque v m :=
    State.deque_of_deques (s.deques_checked w ev) v m
  have recorded : ((s.checked w ev).addItem w (.enq d named tag)).wrec w k r = s.wrec w k r :=
    State.wrec_of_walkRecs (s.walkRecs_checked w ev) w k r
  have goes (v m : Nat) : (t.ctlGoes w n).deque v m = t.deque v m := State.deque_of_deques (t.deques_ctlGoes w n) v m
  refine ⟨?_, fun v m hm other => ?_, ?_, ?_, ?_, ?_, fun v other => ?_, ?_, ?_⟩
  · rw [goes, deque, listed]
  · rw [goes, deques v m hm other, listed]
  · rw [State.wrec_of_walkRecs (t.walkRecs_ctlGoes w n), ← record, wrec, record, recorded]
  · rw [State.well_ctlGoes, own]
  · rw [State.well_ctlGoes]
  · rw [State.well_ctlGoes, own]
  · rw [State.well_ctlGoes_ne _ _ other, others v other, State.well_addItem_ne other, State.checked_well]
  · have added : Sys2Proof.Machine.sameMem (s.checked w ev) ((s.checked w ev).addItem w (.enq d named tag)) :=
      ⟨rfl, rfl, rfl, rfl, rfl, rfl⟩
    exact ((s.sameMem_checked w ev).trans added).trans (mem.trans (State.sameMem_ctlGoes ..))
  · exact (t.jobs_ctlGoes w n).trans (jobs.trans (s.jobs_checked w))

end

/-! ### The walker (R266, R292, R314) -/

section
variable {s : State} {w : WellId} {j : Nat} {x : Job} {wk : Walk} {rest : List Walk} {pk : Pricking}

/-- A walker with no translation miss outstanding takes a step of its head walk (R292, R441). -/
theorem exec_walkerPlaceStitch (job : s.wellJob w = some (j, x)) (running : x.phase = .running)
    (present : s.missing w 145 = false) (head : (s.well w).walks = wk :: rest)
    (sound : s.scratchOk w (wrecAt wk.slot wk.wrec) = true) :
    exec (.walkerPlaceStitch w) s = s.walkStep w j x wk := by
  change execWalkerPlaceStitch w s = _
  simp only [execWalkerPlaceStitch, job, needSome_some, need_of (decide_eq_true running), present, Bool.false_eq_true,
    if_false, head, State.scratch_of_ok sound]

variable (read : s.readPricking (viaQ w (s.ctxOf j)) (s.wrec w wk.slot wk.wrec).prick = .ok pk)
include read

theorem State.walkStep_of_done (done_ : s.visit (viaQ w (s.ctxOf j)) pk (s.wrec w wk.slot wk.wrec).arg
    (s.wrec w wk.slot wk.wrec).rank x.wells.length visitFuel wk.back wk.pos = .done) :
    s.walkStep w j x wk = .next (s.setHeadWalk w none) := by
  simp only [State.walkStep, read, done_]

theorem State.walkStep_of_point {pos : List (Nat × Nat)} (point : s.visit (viaQ w (s.ctxOf j)) pk
    (s.wrec w wk.slot wk.wrec).arg (s.wrec w wk.slot wk.wrec).rank x.wells.length visitFuel wk.back wk.pos = .point pos) :
    s.walkStep w j x wk = s.placePoint w j x pk wk pos := by
  simp only [State.walkStep, read, point]

end

section
variable {s : State} {w : Nat}

theorem State.well_setHeadWalk {wk : Walk} {rest : List Walk} (head : (s.well w).walks = wk :: rest) (o : Option Walk) :
    (s.setHeadWalk w o).well w = { s.well w with walks := o.toList ++ rest } := by
  rw [State.setHeadWalk, State.well_setWell, head, List.drop_one, List.tail_cons]

theorem State.well_setHeadWalk_ne {v : Nat} (h : v ≠ w) (o : Option Walk) : (s.setHeadWalk w o).well v = s.well v :=
  s.well_setWell_ne _ h

/-- A descriptor names the record that it was made for (R308). -/
theorem sdWrec_mkStitch {wrec : Nat} (h : wrec < 64) (home : Nat) (border : Bool) (point : Nat) :
    sdWrec (mkStitch wrec home border point) = wrec := by
  rw [sdWrec, mkStitch, bitsOf_setBits_of_apart (by decide) (by decide) (by decide) (.inr (by decide)),
    bitsOf_setBits_of_apart (by decide) (by decide) (by decide) (.inr (by decide)),
    bitsOf_setBits_of_apart (by decide) (by decide) (by decide) (.inr (by decide)),
    bitsOf_setBits _ _ _ _ (by decide) (by decide)]
  exact Nat.mod_eq_of_lt h

/-- What a point of the walk leaves: its stitch placed, and the head walk there (R292). -/
theorem State.placePoint_leaves {j : Nat} {x : Job} {wk : Walk} {rest : List Walk} {pk : Pricking}
    {pos : List (Nat × Nat)} {l : Nat} (head : (s.well w).walks = wk :: rest) (wrec : wk.wrec < 64)
    (room : s.nextDeque w pk.border = some l) :
    let P := x.wells.length
    let d := mkStitch wk.wrec w pk.border (pointIndex (pk.levels.map (Level.radix · P)) (pos.map Prod.snd))
    ∃ t, s.placePoint w j x pk wk pos = .next t
      ∧ t.deque w l = s.deque w l ++ [{ gw := guard64 d }]
      ∧ (∀ y m, m < 128 → ¬(y = w ∧ m = l) → t.deque y m = s.deque y m)
      ∧ t.wrec w wk.slot wk.wrec
          = { s.wrec w wk.slot wk.wrec with open_ := (s.wrec w wk.slot wk.wrec).open_ + 1 }
      ∧ (t.well w).walks = { wk with pos := pos, back := true } :: rest
      ∧ sameMem s t ∧ t.jobs = s.jobs := by
  intro P d
  let tracked := (s.movePlace w pk.border l).trackSplit w j (s.wrec w wk.slot wk.wrec) wk.wrec pk P (pos.map Prod.snd)
  have placed : Placed w wk.slot l d s (tracked.placeOn w wk.slot l d) :=
    .of_beside ((State.movePlace_beside ..).trans (State.trackSplit_beside ..))
      (State.placeOn_placed (State.nextDeque_lt room))
  have run : s.placePoint w j x pk wk pos = .next (((tracked.placeOn w wk.slot l d).setHeadWalk w
      (some { wk with pos := pos, back := true })).countEv w 0x1A 1) := by
    simp only [State.placePoint, room]
    rfl
  generalize tracked.placeOn w wk.slot l d = q at placed run
  obtain ⟨deque, deques, record, ⟨p, b, e, own⟩, -, mem, jobs⟩ := placed
  rw [sdWrec_mkStitch wrec] at record
  have walkRecs : ((q.setHeadWalk w (some { wk with pos := pos, back := true })).countEv w 0x1A 1).walkRecs = q.walkRecs :=
    (congrArg State.walkRecs (State.countEv_rest ..) :)
  refine ⟨_, run, ?_, fun y m hm other => ?_, ?_, ?_, ?_, ?_⟩
  · rw [State.deque_countEv]
    exact deque
  · rw [State.deque_countEv]
    exact deques y m hm other
  · rw [State.wrec_of_walkRecs walkRecs]
    exact record
  · rw [State.countEv_well, State.well_setHeadWalk (by rw [own]; exact head)]
    rfl
  · exact mem.trans (State.countEv_accessed _ w 0x1A 1).sameMem
  · exact (State.countEv_accessed _ w 0x1A 1).jobs.trans jobs

end

/-- Settles O15: WALK and ENQ are their accepted branches, whose states are those of `walks` and of a stitch placed; the
walker's step is that of its head walk, which leaves the walker or places a point. -/
theorem walksAndEnqueuesPlaceStitches : Obligations.WalksAndEnqueuesPlaceStitches := by
  refine ⟨?_, ?_, ?_⟩
  · intro s w ev word j x pk last l clean at_ kind inside u c k prick arg tag job sound ready listed read bound joins within
    rw [← State.checked_well s w w ev] at joins
    exact ⟨_, (exec_walkStart clean at_ kind).trans ((State.walkScratch_accepts job sound ready listed read bound joins
      within).trans (cGo_pcNext inside)), State.walks_leaves _⟩
  · intro s i w ev word d j x pk l named chosen clean at_ inside u c k tag target form room job read sound ok
    obtain ⟨any, run, named_eq⟩ := exec_enq clean at_ form
    have below : ∀ n ∈ named, n < 128 := by
      rintro n hn
      obtain ⟨-, -, rfl⟩ | ⟨-, -, rfl⟩ := form
      · cases hn
        exact Nat.mod_lt _ (by decide)
      · cases hn
    have placed : Placed w k l d (u.addItem w (.enq d named tag)) _ :=
      State.enqPlace_placed (State.enqDeque_lt below room) j tag x.wells.length pk chosen
    rw [named_eq] at room
    refine ⟨_, run.trans ((State.doEnq_of_ok job read sound ok room).trans (cGo_pcNext inside)), ?_⟩
    rw [← named_eq]
    exact State.enq_leaves (State.sdWrec_of_enqOk ok) placed
  · intro s w j x wk rest pk job running present head sound read r P v
    have step := exec_walkerPlaceStitch job running present head sound
    refine ⟨fun done_ => ?_, fun pos l point wrec room => ?_⟩
    · exact ⟨_, step.trans (State.walkStep_of_done read done_), State.well_setHeadWalk head none,
        fun y other => State.well_setHeadWalk_ne other none, rfl⟩
    · rw [step, State.walkStep_of_point read point]
      exact State.placePoint_leaves head wrec room

end Sys2Proof.Machine
end

section
/-!
SUPPORT. Pumps: what they accept, issue, complete and resume (R271, R412, R448, R451, R454, R455, R473).
-/
namespace Sys2Proof.Machine

/-! ### The pumps' table -/

section
variable (s : State) {w n : Nat}

@[simp] theorem State.pump_setPump (p : Pump) : (s.setPump w n p).pump w n = p := by
  simp [State.pump, State.setPump]

/-- Any other pump. -/
theorem State.pump_setPump_ne {v m : Nat} (hn : n < 8) (hm : m < 8) (other : ¬(v = w ∧ m = n)) (p : Pump) :
    (s.setPump w n p).pump v m = s.pump v m := by
  have apart : v * 8 + m ≠ w * 8 + n := by omega
  exact tabGet_put_ne {} s.pumps p apart

theorem State.fld_setPump (p : Pump) (o hi lo : Nat) : (s.setPump w n p).fld o hi lo = s.fld o hi lo := rfl

theorem State.pump_setFld (o hi lo v : Nat) : (s.setFld o hi lo v).pump w n = s.pump w n := rfl

theorem State.suspended_setFld (o hi lo v : Nat) : (s.setFld o hi lo v).suspended w n = s.suspended w n := rfl

/-- What a suspended record taken by a pump leaves (R473). -/
theorem State.pump_setFld_frame (susp : Tab (List Pump)) (p : Pump) (o hi lo v : Nat) :
    { ({ s with susp := susp }.setPump w n p).setFld o hi lo v with
      pumps := s.pumps, susp := s.susp, regs := s.regs } = s := rfl

theorem State.sameMem_setPump (p : Pump) : sameMem s (s.setPump w n p) := ⟨rfl, rfl, rfl, rfl, rfl, rfl⟩

end

theorem State.pump_of_pumps {s t : State} (h : t.pumps = s.pumps) (v m : Nat) : t.pump v m = s.pump v m := by
  rw [State.pump, h, State.pump]

theorem State.pumps_ctlGoes (s : State) (w n : Nat) : (s.ctlGoes w n).pumps = s.pumps :=
  (congrArg State.pumps (s.ctlGoes_frame (w := w) n) :)

theorem State.freePumpNo_lt {s : State} {w n : Nat} (h : s.freePumpNo w = some n) : n < 8 :=
  List.mem_range.mp (List.mem_of_find?_eq_some h)

/-- A bit of a word is its field of that one bit. -/
theorem bitOf_eq_decide_bitsOf (v : Word) (i : Nat) : bitOf v i = decide (bitsOf v i i = 1) := by
  rw [bitOf, bitsOf, Nat.sub_self, Nat.testBit_eq_decide_div_mod_eq, Nat.shiftRight_eq_div_pow]
  rfl

theorem not_isEvCnt_rWlPumpStat (w : Nat) : ¬isEvCnt (rWlPumpStat w) := by
  simp only [isEvCnt, rEvCnt, rWlPumpStat, rWl]
  omega

/-! ### An accepted descriptor or record (R271, R412, R451) -/

/-- OPC of a record's first word, whose high half tells records from descriptors (R412). -/
theorem bitsOf_div_sixteen (v : Word) : bitsOf v 63 56 / 16 = bitsOf v 63 60 := by
  simp only [bitsOf, Nat.shiftRight_eq_div_pow]
  omega

section
variable {s : State} {w n j : Nat} {x : Job} {c : CtlCtx} {i w0 : Word} {ws : List Word} (job : s.wellJob w = some (j, x))
  (read : s.readWord (s.cuCtx w j) (c.get (bitsOf i 55 51)).toNat = .ok w0)
include job read

theorem State.doPump_of_copy (copy : bitsOf w0 63 60 ≠ 4)
    (words : s.readWords (s.cuCtx w j) (c.get (bitsOf i 55 51)).toNat 8 = .ok ws)
    (good : tdRefused (c.get (bitsOf i 55 51)).toNat ws = false) :
    s.doPump w c i n = cGo s ((s.setPump w n
      { state := 1, job := j, tag := bitsOf i 15 0, addr := (c.get (bitsOf i 55 51)).toNat, words := ws }).setFld
        (rWlPumpStat w) n n 1) w (s.pcNext w) := by
  simp only [State.doPump, job, needSome_some, cRd, read, bitsOf_div_sixteen, copy, if_false, words, State.acceptCopy,
    good, Bool.false_eq_true]

theorem State.doPump_of_op {g : Option Word} {last : Nat} {l : Layer} {t : State} (op : bitsOf w0 63 60 = 4)
    (listed : x.ops.contains (c.get (bitsOf i 55 51)).toNat = true)
    (words : s.readWords (s.cuCtx w j) (c.get (bitsOf i 55 51)).toNat 16 = .ok ws)
    (guard : s.opGuardEntry (s.cuCtx w j) ws = .ok g) (bound : s.opLast (s.cuCtx w j) ws (g.getD 0#64) = .ok last)
    (joins : g.elim (some (s.well w).layer)
      (fun v => (s.well w).layer.join v last (.op (c.get (bitsOf i 55 51)).toNat (bitsOf i 15 0))) = some l)
    (starts : s.startOp w n j (c.get (bitsOf i 55 51)).toNat (bitsOf i 15 0) ws g last = .ok t) :
    s.doPump w c i n = cGo s (t.setWell w { t.well w with layer := l }) w (s.pcNext w) := by
  simp only [State.doPump, job, needSome_some, cRd, read, bitsOf_div_sixteen, op, if_true, listed, Bool.not_true,
    Bool.false_eq_true, if_false, words, State.acceptOp, guard, bound]
  cases g with
  | none =>
    simp only [Option.elim_none, Option.some.injEq] at joins
    simp only [joins, starts]
  | some v =>
    simp only [Option.elim_some] at joins
    simp only [joins, starts]

end

section
variable {s : State} {w : WellId} {ev : EccEv} {word : Word} {n : Nat}

theorem exec_pumpStart_free (clean : ev ≠ .uncorrectable) (at_ : s.ctlAt w word) (kind : cKind word = some .pump)
    (free : (s.checked w ev).freePumpNo w = some n) :
    exec (.pumpStart w ev) s = (s.checked w ev).doPump w (s.well w).cx word n := by
  change execPumpStart w ev s = _
  rw [execPumpStart, cStep_runs at_ clean kind, free]

/-- What an accepted descriptor leaves once the controller goes on: its pump runs. -/
theorem State.acceptCopy_leaves (hn : n < 8) (p : Pump) (pc : Nat) :
    let t := (((s.checked w ev).setPump w n p).setFld (rWlPumpStat w) n n 1).ctlGoes w pc
    t.pump w n = p ∧ (∀ v m, m < 8 → ¬(v = w.val ∧ m = n) → t.pump v m = s.pump v m)
      ∧ bitOf (t.reg (rWlPumpStat w)) n = true
      ∧ t.well w = { s.well w with ctl := .running, cx := { (s.well w).cx with pc := pc, wait := .none } }
      ∧ (∀ v, v ≠ w.val → t.well v = s.well v)
      ∧ { t with wells := s.wells, pumps := s.pumps, regs := s.regs } = s := by
  have pumps_checked : (s.checked w ev).pumps = s.pumps := (congrArg State.pumps (s.checked_frame w ev) :)
  have wells : (((s.checked w ev).setPump w n p).setFld (rWlPumpStat w) n n 1).wells = s.wells := by
    rw [State.setFld_wells, State.setPump_wells, State.wells_checked]
  have pumps : ((((s.checked w ev).setPump w n p).setFld (rWlPumpStat w) n n 1).ctlGoes w pc).pumps
      = ((s.checked w ev).setPump w n p).pumps := (State.pumps_ctlGoes ..).trans (State.setFld_pumps ..)
  refine ⟨?_, fun v m hm other => ?_, ?_, ?_, fun v other => ?_, ?_⟩
  · rw [State.pump_of_pumps pumps]
    exact State.pump_setPump ..
  · rw [State.pump_of_pumps pumps, ← State.pump_of_pumps pumps_checked]
    exact State.pump_setPump_ne _ hn hm other p
  · rw [State.reg_ctlGoes (not_isEvCnt_rWlPumpStat w), bitOf_eq_decide_bitsOf, ← State.fld,
      State.fld_setFld _ _ _ _ _ le_rfl (by omega), Nat.sub_self]
    rfl
  · rw [State.well_ctlGoes, State.well_of_wells wells]
  · rw [State.well_ctlGoes_ne _ _ other, State.well_of_wells wells]
  · have goes := congrArg (fun u : State => { u with wells := s.wells, pumps := s.pumps, regs := s.regs })
      (State.ctlGoes_frame (s := ((s.checked w ev).setPump w n p).setFld (rWlPumpStat w) n n 1) (w := w) pc)
    exact Eq.trans goes (congrArg (fun u : State => { u with wells := s.wells, pumps := s.pumps }) (s.checked_frame w ev))

end

/-! ### Units (R448, R454, R455) -/

/-- A running pump with room issues its next unit (R449, R454). -/
theorem State.issueUnit_of_room {s : State} {w n kind : Nat} (running : (s.pump w n).state = 1)
    (transfer : (s.pump w n).op = none) (may : s.mayIssue (s.pump w n).job = true)
    (more : (s.pump w n).issued < tdUnits (s.pump w n).words) (room : (s.pump w n).flight.length < 16)
    (of_kind : tdKind (s.pump w n).words = kind) :
    s.issueUnit w n kind = .next (s.setPump w n { s.pump w n with
      issued := (s.pump w n).issued + 1, flight := (s.pump w n).flight ++ [(s.pump w n).issued] }) := by
  rw [State.issueUnit, need_of (by simp [running, transfer, may, more, of_kind]), if_neg (Nat.not_le.mpr room)]

/-- From s to t no byte has changed, no pump, and not well w's count and state of its pumps. -/
structure KeepsPumps (w : Nat) (s t : State) : Prop where
  mem : sameMem s t
  pumps : t.pumps = s.pumps
  stat : t.reg (rWlPumpStat w) = s.reg (rWlPumpStat w)

section
variable {s t : State} {w : Nat}

theorem KeepsPumps.refl : KeepsPumps w s s := ⟨⟨rfl, rfl, rfl, rfl, rfl, rfl⟩, rfl, rfl⟩

theorem KeepsPumps.trans {u : State} (h : KeepsPumps w s t) (k : KeepsPumps w t u) : KeepsPumps w s u :=
  ⟨h.mem.trans k.mem, k.pumps.trans h.pumps, k.stat.trans h.stat⟩

theorem State.windowSees_keepsPumps (job va n : Nat) : KeepsPumps w s (s.windowSees job va n) := by
  obtain ⟨links, e⟩ := s.windowSees_eq job va n
  rw [e]
  exact ⟨⟨rfl, rfl, rfl, rfl, rfl, rfl⟩, rfl, rfl⟩

theorem State.failJob_keepsPumps (j status addr : Nat) : KeepsPumps w s (s.failJob j status addr) := by
  obtain ⟨jobs, wells, e⟩ := s.failJob_eq (j := j) (status := status) (addr := addr)
  rw [e]
  exact ⟨⟨rfl, rfl, rfl, rfl, rfl, rfl⟩, rfl, rfl⟩

theorem State.report_keepsPumps {src cls : Nat} (src_lt : src < 12) (cls_lt : cls < 16)
    (sev rsrc runit unit detail : Nat) : KeepsPumps w s (s.report src cls sev rsrc runit unit detail) := by
  have stat := State.reg_report (s := s) (sev := sev) (rsrc := rsrc) (runit := runit) (unit := unit) (detail := detail)
    (not_mem_reportRegs (r := 16 * src + cls) (by omega) (le_rWl w 0x1C8))
  obtain ⟨regs, msix, last, e⟩ := s.report_eq src cls sev rsrc runit unit detail
  rw [e] at stat ⊢
  exact ⟨⟨rfl, rfl, rfl, rfl, rfl, rfl⟩, rfl, stat⟩

theorem State.setReg_keepsPumps {o : Nat} (other : rWlPumpStat w ≠ o) (v : Word) : KeepsPumps w s (s.setReg o v) :=
  ⟨⟨rfl, rfl, rfl, rfl, rfl, rfl⟩, rfl, s.reg_setReg_ne v other⟩

/-- An error of well w's cistern is counted and recorded apart from its pumps (R422). -/
theorem State.countTier_keepsPumps (who : Who) (a : Nat) (write : Bool) :
    KeepsPumps w s (s.countTier who ⟨.cistern w, a⟩ write) := by
  have ecc : rWlPumpStat w ≠ rWlCisEcc w := by
    simp only [rWlPumpStat, rWlCisEcc, rWl]
    omega
  have err : rWlPumpStat w ≠ rWlCisErr w := by
    simp only [rWlPumpStat, rWlCisErr, rWl]
    omega
  simp only [State.countTier]
  have counted : KeepsPumps w s (s.incFld (rWlCisEcc w) 31 16 1) := State.setReg_keepsPumps ecc _
  refine counted.trans ?_
  rw [State.latch]
  split
  · exact State.setReg_keepsPumps err _
  · exact State.setReg_keepsPumps err _

/-- A block of device scratch that cannot be read ends its job, and moves no byte and no pump (R399). -/
theorem State.scratchErr_keepsPumps (hw : w < 12) (j a : Nat) : KeepsPumps w s (s.scratchErr j w a) := by
  rw [State.scratchErr, State.noteTier]
  exact ((State.countTier_keepsPumps ..).trans (State.report_keepsPumps hw (by decide) ..)).trans
    (State.failJob_keepsPumps ..)

theorem State.noteProgress_keepsPumps (hw : w < 12) (j n : Nat) : KeepsPumps w s (s.noteProgress j w n) := by
  unfold State.noteProgress
  dsimp only
  split
  · exact .refl
  · exact State.scratchErr_keepsPumps hw ..

theorem State.raiseEvent_keepsPumps (hw : w < 12) (j k ev n : Nat) : KeepsPumps w s (s.raiseEvent j w k ev n) := by
  unfold State.raiseEvent
  split
  · exact ⟨⟨rfl, rfl, rfl, rfl, rfl, rfl⟩, rfl, rfl⟩
  · exact State.scratchErr_keepsPumps hw ..

/-- The end of a transfer raises its event, where it has one, and frees its pump (R453). -/
theorem State.endTransfer_keepsPumps (hw : w < 12) (n : Nat) (p : Pump) :
    KeepsPumps w (s.freePump w n) (s.endTransfer w n p) := by
  unfold State.endTransfer
  dsimp only
  split
  · exact State.raiseEvent_keepsPumps hw ..
  · exact .refl

/-- The transfer of pump p once unit i is complete (R455). -/
def Pump.completes (p : Pump) (i : Nat) : Pump :=
  let mark := raiseMark (p.ahead.length + 2) p.mark (p.ahead ++ [i])
  { p with flight := p.flight.erase i, ahead := (p.ahead ++ [i]).filter (fun k => mark ≤ k), mark := mark }

/-- A unit is counted in WL_PUMP_STAT and by the event counters (R474, R770). -/
def State.unitCounted (s : State) (w : Nat) : State := (s.incFld (rWlPumpStat w) 63 32 1).countEv w 0x10 1

theorem State.unitDone_eq (n : Nat) (p : Pump) (i : Nat) : s.unitDone w n p i =
    if tdUnits p.words ≤ (p.completes i).mark then (s.unitCounted w).endTransfer w n (p.completes i)
    else (s.unitCounted w).setPump w n (p.completes i) := by
  have length : (p.ahead ++ [i]).length + 1 = p.ahead.length + 2 := by rw [List.length_append, List.length_singleton]
  simp only [State.unitDone, length]
  rfl

theorem State.done_unitCounted :
    (s.unitCounted w).fld (rWlPumpStat w) 63 32 = min (s.fld (rWlPumpStat w) 63 32 + 1) (2 ^ 32 - 1) := by
  rw [State.unitCounted, State.fld, State.countEv_reg _ _ _ _ _ (not_isEvCnt_rWlPumpStat w), ← State.fld,
    State.fld_incFld _ (by decide) (by decide)]

theorem State.sameMem_unitCounted : sameMem s (s.unitCounted w) := by
  have counted : OnlyRegs s (s.incFld (rWlPumpStat w) 63 32 1) := OnlyRegs.refl.setReg
  exact counted.sameMem.trans (State.countEv_accessed _ w 0x10 1).sameMem

/-- What a complete unit leaves: its count, and its pump going on or free (R455, R474). -/
theorem State.unitDone_leaves (hw : w < 12) {n : Nat} (hn : n < 8) (p : Pump) (i : Nat) :
    let t := s.unitDone w n p i
    sameMem s t
      ∧ t.fld (rWlPumpStat w) 63 32 = min (s.fld (rWlPumpStat w) 63 32 + 1) (2 ^ 32 - 1)
      ∧ (tdUnits p.words ≤ (p.completes i).mark → t.pump w n = {} ∧ t.fld (rWlPumpStat w) n n = 0)
      ∧ ((p.completes i).mark < tdUnits p.words → t.pump w n = p.completes i) := by
  rw [State.unitDone_eq]
  split
  next last =>
    obtain ⟨mem, pumps, stat⟩ := (s.unitCounted w).endTransfer_keepsPumps hw n (p.completes i)
    have freed : sameMem (s.unitCounted w) ((s.unitCounted w).freePump w n) :=
      (State.sameMem_setPump ..).trans (OnlyRegs.refl.setFld).sameMem
    refine ⟨State.sameMem_unitCounted.trans (freed.trans mem), ?_, fun _ => ⟨?_, ?_⟩, fun more => absurd last (by omega)⟩
    · rw [State.fld, stat, State.freePump, State.setFld, State.reg_setReg,
        bitsOf_setBits_of_apart le_rfl (by decide) (by decide) (.inr (by omega))]
      exact State.done_unitCounted
    · rw [State.pump_of_pumps pumps, State.freePump, State.pump_setFld, State.pump_setPump]
    · rw [State.fld, stat, ← State.fld, State.freePump, State.fld_setFld _ _ _ _ _ le_rfl (by omega), Nat.zero_mod]
  next more =>
    have mem : sameMem s ((s.unitCounted w).setPump w n (p.completes i)) :=
      State.sameMem_unitCounted.trans ((s.unitCounted w).sameMem_setPump (p.completes i))
    refine ⟨mem, ?_, fun last => absurd last more, fun _ => State.pump_setPump ..⟩
    rw [State.fld_setPump, State.done_unitCounted]

end

/-- A unit whose bytes are moved is complete on its pump (R441, R455). -/
theorem exec_pumpUnitComplete {s u : State} {w : WellId} {n : Fin 8} {i : Nat} (running : (s.pump w n).state = 1)
    (flies : (s.pump w n).flight.contains i = true) (present : s.missing w (136 + n) = false)
    (moved : s.moveUnit (s.cuCtx w (s.pump w n).job) (s.pump w n).words i = .ok u) :
    ∃ v, KeepsPumps w u v ∧ exec (.pumpUnitComplete w n i) s = .next (v.unitDone w n (s.pump w n) i) := by
  let seen := tdSeen (s.pump w n).words i
  refine ⟨(u.windowSees (s.pump w n).job seen.1 seen.2).noteProgress (s.pump w n).job w n,
    (State.windowSees_keepsPumps ..).trans (State.noteProgress_keepsPumps w.isLt ..), ?_⟩
  change execPumpUnitComplete w n i s = _
  rw [execPumpUnitComplete, need_of (by simp only [running, flies, decide_true, Bool.and_self])]
  simp only [present, Bool.false_eq_true, if_false, moved]
  rfl

/-! ### Resumption (R458, R473) -/

/-- A free pump goes on with a suspended transfer from its checked watermark. -/
theorem exec_pumpResume {s : State} {w : WellId} {n : Fin 8} {j : Nat} {x : Job} {q : Pump} {rest : List Pump} {m : Word}
    (job : s.wellJob w = some (j, x)) (waits : s.suspended w (s.slotOf j w) = q :: rest) (free : (s.pump w n).state = 0)
    (may : s.mayIssue j = true) (sound : s.scratchOk w (markAt (s.slotOf j w) q.no) = true)
    (mark : unguard64 q.gmark = some m) :
    exec (.pumpResume w n) s = .next
      (({ s with susp := tabPut [] s.susp (w * 64 + s.slotOf j w) rest }.setPump w n
        { q with state := 1, mark := m.toNat, issued := m.toNat, ahead := [], flight := [] }).setFld
          (rWlPumpStat w) n n 1) := by
  change execPumpResume w n s = _
  simp only [execPumpResume, job, needSome_some, waits, free, may, beq_self_eq_true, Bool.and_self,
    State.scratch_of_ok sound, State.takeRecord, mark]
  rfl

/-- Settles O16: PUMP is its accepted branch, whose pump runs or whose operation starts; a unit issues by `issueUnit`, and
completes by `unitDone` after steps that move no byte and no pump; a resumed transfer is `exec_pumpResume`. -/
theorem pumpsTakeAndMoveDescriptors : Obligations.PumpsTakeAndMoveDescriptors := by
  refine ⟨?_, fun s w n => ?_⟩
  · intro s w ev word w0 ws j n x clean at_ kind inside u c addr tag job free read
    have start := exec_pumpStart_free clean at_ kind free
    refine ⟨fun copy words good => ?_, fun g last l t op listed words guard bound joins starts => ?_⟩
    · exact ⟨_, start.trans ((State.doPump_of_copy job read copy words good).trans (cGo_pcNext inside)),
        State.acceptCopy_leaves (State.freePumpNo_lt free) _ _⟩
    · have joins' : g.elim (some (u.well w).layer) (fun v => (u.well w).layer.join v last (.op addr tag)) = some l := by
        rw [State.checked_well]
        cases g <;> exact joins
      exact start.trans ((State.doPump_of_op job read op listed words guard bound joins' starts).trans (cGo_pcNext inside))
  · intro p
    refine ⟨fun running transfer may more room => ⟨fun kind => ?_, fun kind => ?_⟩,
      fun i u running flies present moved => ?_, fun j x q rest m job waits free may sound mark => ?_⟩
    · exact State.issueUnit_of_room running transfer may more room kind
    · exact State.issueUnit_of_room running transfer may more room kind
    · obtain ⟨v, ⟨mem, -, stat⟩, run⟩ := exec_pumpUnitComplete running flies present moved
      obtain ⟨same, count, last, more⟩ := v.unitDone_leaves w.isLt n.isLt p i
      refine ⟨_, run, mem.trans same, ?_, last, fun below => ?_⟩
      · rw [count, State.fld, stat, ← State.fld]
      · rw [more below]
        exact ⟨running, rfl, rfl⟩
    · refine ⟨_, exec_pumpResume job waits free may sound mark, ?_, ?_, ?_, ?_⟩
      · rw [State.pump_setFld, State.pump_setPump]
      · rw [State.suspended_setFld]
        exact tabGet_put_self ..
      · rw [State.fld_setFld _ _ _ _ _ le_rfl (by omega), Nat.sub_self]
        rfl
      · exact State.pump_setFld_frame ..

end Sys2Proof.Machine
end

section
/-!
SUPPORT. Collectives, partition fences and checkpoints on the well controllers, and late collectives (R269, R270, R272, R655,
R656, R662 to R665).
-/
namespace Sys2Proof.Machine

/-! ### The operation of a COLL word (R265, R272) -/

/-- SUB of a collective's kind. -/
def CKind.collSub : CKind → Option Nat
  | .collBarrier => some 0
  | .collSum => some 1
  | .collMax => some 2
  | .collMin => some 3
  | _ => none

/-- The kind fits the word: a collective's SUB is the word's. -/
def CollSubIs (i : Word) (k : CKind) : Prop := ∀ n ∈ k.collSub, cSub i = n

theorem CollSubIs.other {i : Word} {k : CKind} (h : k.collSub = none) : CollSubIs i k := by
  rw [CollSubIs, h]
  exact nofun

theorem CollSubIs.coll {i : Word} {k : CKind} {n : Nat} (h : k.collSub = some n) (hn : cSub i = n) : CollSubIs i k := by
  rw [CollSubIs, h]
  rintro _ ⟨⟩
  exact hn

/-- A word that decodes to a collective has its SUB. -/
theorem cKind_collSub (i : Word) : OptOk (CollSubIs i) (cKind i) := by
  unfold cKind
  extract_lets r b ck ok tier
  have when_ {c : Prop} [Decidable c] {k : CKind} (h : CollSubIs i k) :
      OptOk (CollSubIs i) (if c then some k else none) := (OptOk.some h).ite .none
  split
  case h_1 | h_2 | h_3 | h_4 | h_5 | h_6 | h_7 | h_8 | h_9 | h_10 | h_11 => exact when_ (.other rfl)
  case h_12 | h_13 | h_14 | h_15 | h_16 | h_17 | h_18 | h_19 | h_20 | h_22 | h_23 | h_24 => exact .some (.other rfl)
  case h_21 | h_25 | h_26 | h_27 | h_28 | h_29 | h_30 | h_32 | h_33 | h_37 | h_39 | h_41 => exact when_ (.other rfl)
  case h_31 => exact (when_ (.other rfl)).ite .none
  case h_34 =>
    split
    exacts [when_ (.other rfl), when_ (.other rfl), .none]
  case h_35 | h_36 =>
    split
    exacts [when_ (.other rfl), when_ (.other rfl), when_ (.other rfl), .none]
  case h_40 =>
    split
    exacts [when_ (.other rfl), when_ (.other rfl), when_ (.other rfl), when_ (.other rfl), .none]
  case h_38 =>
    split
    case h_5 => exact .none
    all_goals exact when_ (.coll rfl ‹_›)
  case h_42 => exact .none

/-- The operation of SHAPE is SUB (R660). -/
theorem shapeOp_collShape (i : Word) : shapeOp (collShape i) = cSub i % 4 := by
  unfold shapeOp collShape
  omega

/-- A word that decodes to a collective has its SUB. -/
theorem cSub_of_cKind {i : Word} {k : CKind} {n : Nat} (kind : cKind i = some k) (h : k.collSub = some n) : cSub i = n := by
  have fits := cKind_collSub i
  rw [kind] at fits
  exact fits k rfl n h

/-- A COLL instruction runs its word at its place (R260, R272). -/
theorem exec_collInstr {i : Instr} {w : WellId} {ev : EccEv} {kind : CKind} {s : State} {word : Word}
    (h : collInstr i = some (w, ev, kind)) (clean : ev ≠ .uncorrectable) (at_ : s.ctlAt w word)
    (decodes : cKind word = some kind) :
    exec i s = (s.checked w ev).doColl w (s.well w).cx word ∧ ∃ n < 4, kind.collSub = some n ∧ (n = 0 ↔ kind = .collBarrier) := by
  unfold collInstr at h
  split at h
  case h_5 => cases h
  all_goals cases h
  case h_1 => exact ⟨(cStep_runs at_ clean decodes _ : execCollBarrier w ev s = _), 0, by decide, rfl, by decide⟩
  case h_2 => exact ⟨(cStep_runs at_ clean decodes _ : execCollSum w ev s = _), 1, by decide, rfl, by decide⟩
  case h_3 => exact ⟨(cStep_runs at_ clean decodes _ : execCollMax w ev s = _), 2, by decide, rfl, by decide⟩
  case h_4 => exact ⟨(cStep_runs at_ clean decodes _ : execCollMin w ev s = _), 3, by decide, rfl, by decide⟩

/-! ### The post of a well (R655, R656, R665) -/

section
variable {s : State} {w j : Nat} {x : Job} {i : Word} {vals : List Word}

/-- A barrier has no value: it posts at once. -/
theorem State.doColl_of_barrier {c : CtlCtx} (job : s.wellJob w = some (j, x)) (barrier : shapeOp (collShape i) = 0) :
    s.doColl w c i = s.collPost w j x i [] := by
  simp only [State.doColl, job, needSome_some, barrier, if_true]

/-- A collective whose addresses are aligned and whose values are read posts them. -/
theorem State.doColl_of_read {c : CtlCtx} (job : s.wellJob w = some (j, x)) (value : shapeOp (collShape i) ≠ 0)
    (ra : (c.get (bitsOf i 55 51)).toNat % shapeWidth (collShape i) = 0)
    (rb : (c.get (bitsOf i 50 46)).toNat % shapeWidth (collShape i) = 0)
    (read : s.collRead (s.ctlCtx w) (c.get (bitsOf i 55 51)).toNat (c.get (bitsOf i 50 46)).toNat (collShape i) = .ok vals) :
    s.doColl w c i = s.collPost w j x i vals := by
  simp only [State.doColl, job, needSome_some, cRd, cRs1, value, if_false, ra, rb, ne_eq, not_true_eq_false, read]

/-- A post of an undecided collective of a valid group enters its record, a new one while fewer than 256 are held. -/
theorem State.collPost_of_undecided
    (undecided : s.decisionOf false (collGroup i) (tabGet 0 (s.well w).colls (collGroup i)) j = none)
    (valid : collLevel i = 0 ∨ s.groupValid (collGroup i) = true) (room : s.colls.length < 256) :
    s.collPost w j x i vals = .next (((s.raiseColl w (collGroup i)).stallCtl w (.coll true)).enterPost
      ((s.collRec false (collGroup i) (tabGet 0 (s.well w).colls (collGroup i)) (some j)).getD
        { job := none, fence := false, group := collGroup i, k := tabGet 0 (s.well w).colls (collGroup i),
          top := collLevel i, shape := collShape i })
      w j x (collLevel i) (collShape i) vals) := by
  have good : ¬ (collLevel i ≠ 0 ∧ s.groupValid (collGroup i) = false) := by
    rintro ⟨level, invalid⟩
    exact valid.elim level (fun h => Bool.false_ne_true (invalid.symm.trans h))
  simp only [State.collPost, undecided, good, if_false]
  cases s.collRec false (collGroup i) (tabGet 0 (s.well w).colls (collGroup i)) (some j) with
  | some c => rfl
  | none => simp only [Nat.not_le.2 room, if_false, Option.getD_none]

/-- The post raises the count of its group only: its well's controller stands where it stood. -/
theorem State.well_raiseColl (g : Nat) : (s.raiseColl w g).well w
    = { s.well w with colls := tabPut 0 (s.well w).colls g ((tabGet 0 (s.well w).colls g + 1) % 2 ^ 32) } :=
  State.well_setWell ..

/-- A post that finds its collective decided OK and written goes on. -/
theorem State.collPost_of_decided {d : Decision}
    (decided : s.decisionOf false (collGroup i) (tabGet 0 (s.well w).colls (collGroup i)) j = some d)
    (ok : d.status = 0) (written : d.written.contains w = true) (inside : (s.well w).cx.pc + 1 < (s.well w).plen) :
    s.collPost w j x i vals = .next ((s.raiseColl w (collGroup i)).ctlGoes w ((s.well w).cx.pc + 1)) := by
  have stays : ((s.raiseColl w (collGroup i)).well w).cx = (s.well w).cx ∧
      ((s.raiseColl w (collGroup i)).well w).plen = (s.well w).plen := by
    rw [State.well_raiseColl]
    exact ⟨rfl, rfl⟩
  obtain ⟨cx, plen⟩ := stays
  have goes : (s.raiseColl w (collGroup i)).collFinish w d
      = cGo (s.raiseColl w (collGroup i)) (s.raiseColl w (collGroup i)) w ((s.raiseColl w (collGroup i)).pcNext w) := by
    simp only [State.collFinish, ok, ne_eq, not_true_eq_false, if_false, written, if_true]
  simp only [State.collPost, decided]
  rw [goes, cGo_pcNext_released (by rw [cx, plen]; exact inside), cx]

/-- A well whose FENCE WELL holds posts its fence while fewer than 256 records are held (R269, R655). -/
theorem State.postFence_of_room (room : s.colls.length < 256) :
    s.postFence w j x = .next (((s.setWell w { s.well w with fences := (s.well w).fences + 1 }).stallCtl w
      (.fencePart true)).enterPost
        ((s.collRec true 0 (s.well w).fences (some j)).getD
          { job := some j, fence := true, group := 0, k := (s.well w).fences, top := 0, shape := 0 }) w j x 0 0 []) := by
  simp only [State.postFence]
  cases s.collRec true 0 (s.well w).fences (some j) with
  | some c => rfl
  | none => simp only [Nat.not_le.2 room, if_false, Option.getD_none]

theorem State.colls_checked (v : Nat) (ev : EccEv) : (s.checked v ev).colls = s.colls :=
  (congrArg State.colls (s.checked_frame v ev) :)

end

/-! ### FENCE PARTITION and CHECKPOINT (R269, R270) -/

section
variable {s : State} {w : WellId} {ev : EccEv} {i : Word} {j : Nat} {x : Job}

theorem exec_fencePartition (clean : ev ≠ .uncorrectable) (at_ : s.ctlAt w i) (kind : cKind i = some .fencePart)
    (job : (s.checked w ev).wellJob w = some (j, x)) :
    exec (.fencePartition w ev) s = if (s.checked w ev).wellDone w then (s.checked w ev).postFence w j x
      else .next ((s.checked w ev).stallCtl w (.fencePart false)) := by
  refine (cStep_runs at_ clean kind _ : execFencePartition w ev s = _).trans ?_
  simp only [job, needSome_some]

/-- A CHECKPOINT of a good list, named by no other pass of the partition, waits with its pass and its list (R270). -/
theorem exec_checkpoint_of_list (clean : ev ≠ .uncorrectable) (at_ : s.ctlAt w i) (kind : cKind i = some .checkpoint)
    (job : (s.checked w ev).wellJob w = some (j, x)) {ws : List Word}
    (words : (s.checked w ev).cpWords ((s.checked w ev).ctlCtx w) ((s.well w).cx.get (bitsOf i 50 46)).toNat = .ok ws)
    (list_ : (parseCpList ((s.well w).cx.get (bitsOf i 50 46)).toNat ws).isSome = true)
    (one : ∀ v ∈ x.wells, ∀ pass list, (s.well v).ctl = .stalled → (s.well v).cx.wait = .checkpoint pass list →
      pass = ((s.well w).cx.get (bitsOf i 55 51)).toNat) :
    exec (.checkpoint w ev) s = .next ((s.checked w ev).stallCtl w
      (.checkpoint ((s.well w).cx.get (bitsOf i 55 51)).toNat ((s.well w).cx.get (bitsOf i 50 46)).toNat)) := by
  refine (cStep_runs at_ clean kind _ : execCheckpoint w ev s = _).trans ?_
  have some_ : (parseCpList ((s.well w).cx.get (bitsOf i 50 46)).toNat ws).isNone = false := by
    rw [← Option.not_isSome, list_]
    rfl
  have other : x.wells.any (fun v => match (s.well v).ctl, (s.well v).cx.wait with
      | .stalled, .checkpoint q _ => q != ((s.well w).cx.get (bitsOf i 55 51)).toNat
      | _, _ => false) = false := by
    rw [List.any_eq_false]
    intro v hv
    split
    next q l stalled waits => simp [one v hv q l stalled waits]
    next => exact Bool.false_ne_true
  simp only [job, needSome_some, cRd, cRs1, words, some_, State.checked_well, Bool.false_eq_true, if_false]
  rw [if_neg]
  exact (Bool.not_eq_true _).mpr other

end

/-! ### Late collectives (R662 to R664) -/

/-- The ABORT of a collective sent to the leader of stage st (R662). -/
def State.abortUp (s : State) (c : Coll) (st : Nat) : State :=
  s.sendColl c.group (s.stageCfg c.group st).2.2
    { stage := st, rank := (s.stageCfg c.group st).2.1, src := s.devId, top := c.top, shape := c.shape, mism := c.mism,
      vals := List.replicate (if shapeOp c.shape = 0 then 0 else shapeN c.shape) 0#64 } c.k 2

/-- An ABORT sent changes its connection only. -/
theorem State.abortUp_frame (s : State) (c : Coll) (st : Nat) : { s.abortUp c st with links := s.links } = s := rfl

section
variable {s : State} {i : Nat} {c : Coll}

/-- The top leader, or the device for its own collectives, decides TIMEOUT. -/
theorem exec_collDeadlineExpiry_decides {t0 : Nat} (held : s.colls[i]? = some c) (started : c.started = some t0)
    (fresh : c.aborted = none) (late : t0 + c.deadline ≤ s.now)
    (own : c.fence = true ∨ c.top = 0 ∨ s.upStage c.group c.top = none) :
    exec (.collDeadlineExpiry i) s = .next (s.settle c 1 []) := by
  change execCollDeadlineExpiry i s = _
  simp only [execCollDeadlineExpiry, held, needSome_some, started, fresh, Option.isNone_none, late, decide_true,
    Bool.and_self, need_of]
  split
  · rfl
  next far =>
    rw [not_or] at far
    rw [(own.resolve_left far.1).resolve_left far.2]
    rfl

/-- Another device sends an ABORT upward and waits for the grace. -/
theorem exec_collDeadlineExpiry_aborts {t0 st : Nat} (held : s.colls[i]? = some c) (started : c.started = some t0)
    (fresh : c.aborted = none) (late : t0 + c.deadline ≤ s.now)
    (group : c.fence = false) (level : c.top ≠ 0) (up : s.upStage c.group c.top = some st) :
    exec (.collDeadlineExpiry i) s
      = .next { s.abortUp c st with colls := s.colls.set i { c with aborted := some s.now } } := by
  have far : ¬ (c.fence = true ∨ c.top = 0) := by simp [group, level]
  change execCollDeadlineExpiry i s = _
  simp only [execCollDeadlineExpiry, held, needSome_some, started, fresh, Option.isNone_none, late, decide_true,
    Bool.and_self, need_of, if_neg far, up]
  rfl

/-- After the grace the device completes its wells with TIMEOUT. -/
theorem exec_collGraceExpiry {t0 : Nat} (held : s.colls[i]? = some c) (aborted : c.aborted = some t0)
    (late : t0 + c.grace ≤ s.now) :
    exec (.collGraceExpiry i) s = .next ({ s with colls := s.colls.erase c }.complete
      { job := c.job, fence := c.fence, group := c.group, k := c.k, top := c.top, shape := c.shape, status := 1 }) := by
  change execCollGraceExpiry i s = _
  simp only [execCollGraceExpiry, held, needSome_some, aborted, late, decide_true, need_of]

end

/-- Settles O17: a collective posts by `State.collPost`, whose values are read but for a barrier's; a fence by
`State.postFence`; a late collective by the two expiries. -/
theorem collectivesPostAndEnd : Obligations.CollectivesPostAndEnd := by
  refine ⟨?_, ?_, ?_⟩
  · intro s i w ev kind word j x vals isColl clean at_ decodes u c g k sh ra rb job how
    obtain ⟨run, n, small, sub, barrier⟩ := exec_collInstr isColl clean at_ decodes
    have op : shapeOp (collShape word) = n := by
      rw [shapeOp_collShape, cSub_of_cKind decodes sub, Nat.mod_eq_of_lt small]
    have posts : u.doColl w c word = u.collPost w j x word vals := by
      obtain ⟨isBarrier, rfl⟩ | ⟨notBarrier, hra, hrb, read⟩ := how
      · exact State.doColl_of_barrier job (op.trans (barrier.2 isBarrier))
      · exact State.doColl_of_read job (fun h => notBarrier (barrier.1 (op.symm.trans h))) hra hrb read
    have count : tabGet 0 (u.well w).colls (collGroup word) = k := by
      rw [State.checked_well]
      rfl
    refine ⟨fun undecided valid room => ?_, fun d decided ok written inside => ?_⟩
    · rw [run, posts, State.collPost_of_undecided (by rw [count]; exact undecided) valid
        (by rw [State.colls_checked]; exact room), count]
      rfl
    · rw [run, posts, State.collPost_of_decided (by rw [count]; exact decided) ok written
        (by rw [State.checked_well]; exact inside), State.checked_well]
      rfl
  · intro s w ev word j x clean at_ u c n job
    refine ⟨fun kind done_ room => ?_, fun kind open_ => ?_, fun ws kind words list_ one => ?_⟩
    · rw [exec_fencePartition clean at_ kind job, if_pos done_, State.postFence_of_room
        (by rw [State.colls_checked]; exact room), State.checked_well]
    · rw [exec_fencePartition clean at_ kind job, if_neg (by rw [open_]; exact Bool.false_ne_true)]
    · exact exec_checkpoint_of_list clean at_ kind job words list_ one
  · intro s i c held
    refine ⟨fun t0 started fresh late => ⟨fun own => ?_, fun st group level up => ?_⟩, fun t0 aborted late => ?_⟩
    · exact exec_collDeadlineExpiry_decides held started fresh late own
    · exact ⟨_, exec_collDeadlineExpiry_aborts held started fresh late group level up, rfl,
        congrArg (fun t : State => { t with colls := s.colls }) (s.abortUp_frame c st)⟩
    · exact exec_collGraceExpiry held aborted late

end Sys2Proof.Machine
end

section
/-!
SUPPORT. Requests of the migration engine: put behind its queue by MIG and by the access counts, and served (R273, R464 to
R468).
-/
namespace Sys2Proof.Machine

/-! ### MIG (R273, R466, R467) -/

/-- A MIG instruction runs its word at its place with the number of its operation (R260, R466). -/
theorem exec_migInstr {i : Instr} {w : WellId} {ev : EccEv} {kind : CKind} {op : Nat} {s : State} {word : Word}
    (h : migInstr i = some (w, ev, kind, op)) (clean : ev ≠ .uncorrectable) (at_ : s.ctlAt w word)
    (decodes : cKind word = some kind) :
    exec i s = (s.checked w ev).doMig w op (s.well w).cx word := by
  unfold migInstr at h
  split at h
  case h_5 => cases h
  all_goals cases h
  case h_1 => exact (cStep_runs at_ clean decodes _ : execMigPrefetch w ev s = _)
  case h_2 => exact (cStep_runs at_ clean decodes _ : execMigDemote w ev s = _)
  case h_3 => exact (cStep_runs at_ clean decodes _ : execMigPin w ev s = _)
  case h_4 => exact (cStep_runs at_ clean decodes _ : execMigUnpin w ev s = _)

/-- The tier of a MIG word stands in the low bits of IMM (R265). -/
theorem cImmK_mod_eight (i : Word) : cImmK i % 8 = bitsOf i 2 0 := by
  simp only [cImmK, bitsOf, Nat.shiftRight_zero]
  exact Nat.mod_mod_of_dvd _ (by decide)

/-- The request of a MIG word (R466). -/
def migRequest (j part w op : Nat) (c : CtlCtx) (i : Word) : MigReq :=
  { job := j, part := part, well := w, op := op, tier := bitsOf i 2 0, lo := (c.get (bitsOf i 55 51)).toNat,
    hi := min ((c.get (bitsOf i 55 51)).toNat + (c.get (bitsOf i 50 46)).toNat) (2 ^ 56) }

section
variable {s u : State} {w j op : Nat} {x : Job} {c : CtlCtx} {i : Word}

theorem State.doMig_of_room (job : u.wellJob w = some (j, x)) (room : u.migCount (u.ctxOf j) < 64) :
    u.doMig w op c i = cGo u (u.migPush (migRequest j (u.ctxOf j) w op c i)) w (u.pcNext w) := by
  simp only [State.doMig, job, needSome_some, room, if_true, cImmK_mod_eight]
  rfl

theorem State.doMig_of_full (job : u.wellJob w = some (j, x)) (full : 64 ≤ u.migCount (u.ctxOf j)) :
    u.doMig w op c i = .next (u.stallCtl w .mig) := by
  simp only [State.doMig, job, needSome_some, Nat.not_lt.2 full, if_false]

/-- A request put in the queue leaves the wells. -/
theorem State.well_migPush (r : MigReq) (v : Nat) : (u.migPush r).well v = u.well v := rfl

/-- A request put behind the others while its controller goes on changes the engine, the well's controller and counters. -/
theorem State.migPush_ctlGoes_frame (rest : { u with regs := s.regs } = s) (r : MigReq) (n : Nat) :
    { (u.migPush r).ctlGoes w n with wells := s.wells, engine := s.engine, regs := s.regs } = s :=
  ((congrArg (fun t : State => { t with wells := s.wells, engine := s.engine, regs := s.regs })
    (State.ctlGoes_frame (s := u.migPush r) (w := w) n) :)).trans
      (congrArg (fun t : State => { t with wells := s.wells, engine := s.engine }) rest)

theorem State.engine_ctlGoes (t : State) (n : Nat) : (t.ctlGoes w n).engine = t.engine :=
  (congrArg State.engine (t.ctlGoes_frame (w := w) n) :)

theorem State.engine_checked (v : Nat) (ev : EccEv) : (s.checked v ev).engine = s.engine :=
  (congrArg State.engine (s.checked_frame v ev) :)

end

/-! ### The engine at its requests (R464, R466) -/

section
variable {s : State} {r : MigReq} {l : Leaf} {n : Nat}

/-- With no request the engine has nothing to serve. -/
theorem State.nextReq_of_empty (empty : s.engine.queue = []) : s.nextReq = none := by
  rw [State.nextReq, empty]
  exact List.findSome?_eq_none_iff.2 fun _ _ => rfl

theorem State.engineRun_of_empty (empty : s.engine.queue = []) : ∀ fuel, s.engineRun fuel = (s, none)
  | 0 => rfl
  | fuel + 1 => by simp only [State.engineRun, State.nextReq_of_empty empty]

/-- A request whose last page is served leaves the queue. -/
theorem State.queue_migGone (only : s.engine.queue = [r]) (last : r.hi ≤ n) : (s.migGone r n).engine.queue = [] := by
  simp only [State.migGone, Nat.not_lt.2 last, if_false, only]
  exact List.erase_cons_head ..

/-- A leaf written by the engine leaves the engine. -/
theorem State.engine_putLeaf (ctx va at_ : Nat) (v : Word) : (s.putLeaf ctx va at_ v).engine = s.engine := rfl

/-- The engine runs while a request is next. -/
theorem exec_migrationMoveStart {t : State} (next : s.nextReq = some r) (run : s.engineRun 1024 = (t, none)) :
    exec .migrationMoveStart s = .next t := by
  change execMigrationMoveStart s = _
  simp only [execMigrationMoveStart, next, needSome_some, run]

section
variable (only : s.engine.queue = [r]) (next : s.nextReq = some r) (page : s.migPage r = (some l, n)) (open_ : r.lo < r.hi)
  (last : r.hi ≤ n)
include next page open_

section
include only last

/-- The only request, for one page whose leaf it changes, is served at once. -/
theorem State.engineRun_of_leaf {v : Word}
    (serves : r.op = 2 ∧ v = setBits l.val 48 48 1 ∨ r.op = 3 ∧ v = setBits l.val 48 48 0) (fuel : Nat) :
    s.engineRun (fuel + 1) = ((s.putLeaf r.part (l.pageVa r.lo) l.at_ v).migGone r n, none) := by
  have served : ∀ t : State, t.engine = s.engine → (t.migGone r n).engineRun fuel = (t.migGone r n, none) := fun t h =>
    State.engineRun_of_empty (State.queue_migGone (by rw [h, only]) last) fuel
  obtain ⟨op, rfl⟩ | ⟨op, rfl⟩ := serves
  · simp only [State.engineRun, next, Nat.not_le.2 open_, if_false, page, op, if_true]
    exact served _ (State.engine_putLeaf ..)
  · simp only [State.engineRun, next, Nat.not_le.2 open_, if_false, page, op, if_true, Nat.succ_ne_self]
    exact served _ (State.engine_putLeaf ..)

end

/-- A move that begins ends the engine's run. -/
theorem State.engineRun_of_move {t : State} (op : r.op < 2) (moves : r.moves l = true) (moved : s.migMove r l = .ok t)
    (fuel : Nat) : s.engineRun (fuel + 1) = (t.migGone r n, none) := by
  simp only [State.engineRun, next, Nat.not_le.2 open_, if_false, page, show r.op ≠ 2 by omega, show r.op ≠ 3 by omega,
    moves, if_true, moved]

end

/-! ### Access counts (R468) -/

/-- A page's count cleared. -/
def State.clearFill (s : State) (k : Nat) : State :=
  { s with engine := { s.engine with fills := tabPut 0 s.engine.fills k 0 } }

theorem State.fill_clearFill (k : Nat) : tabGet 0 (s.clearFill k).engine.fills k = 0 :=
  tabGet_put_self 0 s.engine.fills k 0

/-- A page whose count has reached the threshold is asked for, and its count is cleared. -/
theorem exec_accessCountPromotion {w : WellId} {va : Word} {j : Nat} {x : Job} (job : s.wellJob w = some (j, x))
    (auto_ : x.mig.auto_ = true) (on : s.fld rMgCtl 0 0 = 1) (threshold : s.fld rMgCtl 47 40 ≠ 0)
    (reached : 64 * s.fld rMgCtl 47 40 ≤ tabGet 0 s.engine.fills (fillKey w va.toNat))
    (room : s.migCount (s.ctxOf j) < 64) (leaf : s.leafOf (s.ctxOf j) va.toNat false = .ok l) :
    exec (.accessCountPromotion w va) s = .next ((s.migPush
      { job := j, part := s.ctxOf j, well := w, op := 0, tier := 0, lo := l.pageVa va.toNat,
        hi := l.pageVa va.toNat + l.page, promo := true }).clearFill (fillKey w va.toNat)) := by
  change execAccessCountPromotion w va s = _
  simp only [execAccessCountPromotion, job, needSome_some, auto_, on, beq_self_eq_true, bne_iff_ne.2 threshold, reached,
    decide_true, Bool.and_self, need_of, Nat.not_le.2 room, if_false, leaf]
  rfl

end

/-- Settles O35: MIG puts its request behind the queue (`State.doMig_of_room`) or stalls; the engine's run is one round at its
only request; a promotion puts its request behind the queue too. -/
theorem migrationRequestsAreServed : Obligations.MigrationRequestsAreServed := by
  refine ⟨?_, ?_, fun s w va => ⟨?_, ?_⟩⟩
  · intro s i w ev kind op word j x isMig clean at_ decodes u c lo job
    have run := exec_migInstr isMig clean at_ decodes
    refine ⟨fun room inside => ?_, fun full => run.trans (State.doMig_of_full job full)⟩
    refine ⟨_, run.trans ((State.doMig_of_room job room).trans (cGo_pcNext inside)), ?_, ?_, fun v other => ?_, ?_⟩
    · rw [State.engine_ctlGoes, State.migPush, State.engine_checked]
      rfl
    · rw [State.well_ctlGoes, State.well_migPush, State.checked_well]
    · exact (State.well_ctlGoes_ne _ _ other _).trans (State.checked_well s w v ev)
    · exact State.migPush_ctlGoes_frame (s.checked_frame w ev) _ _
  · intro s r l n only next page open_ last
    refine ⟨fun pin => ?_, fun unpin => ?_, fun t move moves moved => ?_⟩
    · exact exec_migrationMoveStart next (State.engineRun_of_leaf only next page open_ last (.inl ⟨pin, rfl⟩) 1023)
    · exact exec_migrationMoveStart next (State.engineRun_of_leaf only next page open_ last (.inr ⟨unpin, rfl⟩) 1023)
    · exact exec_migrationMoveStart next (State.engineRun_of_move next page open_ move moves moved 1023)
  · intro j x l job auto_ on threshold reached room leaf
    exact ⟨_, exec_accessCountPromotion job auto_ on threshold reached room leaf, rfl, State.fill_clearFill _,
      rfl⟩
  · intro elapsed
    exact need_of (decide_eq_true elapsed) 468 _

end Sys2Proof.Machine
end

section
/-!
SUPPORT. The registers of a controller at the start and resumption of a job (R259). A fresh start homes the pool and may raise
event 65,535 after its wells were started: the pool leaves the wells and the slots, and no step of the start poisons a block.
-/
namespace Sys2Proof.Machine

/-! ### Device scratch and the poison of a cistern (R399) -/

/-- A byte of device scratch is sound when its block is not poisoned. -/
theorem State.scratchOk_iff (s : State) (w a : Nat) :
    s.scratchOk w a = true ↔ tabGet false s.poison (cisKey w (a / 64 * 64)) = false := by
  have one : blocksOf ⟨.cistern w, a⟩ 1 = [⟨.cistern w, a / 64 * 64⟩] := by
    have n : (a % 64 + 1 + 63) / 64 = 1 := by omega
    simp [blocksOf, n]
  have key : blockKey ⟨.cistern w, a / 64 * 64⟩ = cisKey w (a / 64 * 64) := by
    rw [blockKey, Nat.mul_div_cancel _ (by decide)]
  simp [State.scratchOk, State.badBlock, one, key, State.deadBlock]

/-- Sound scratch stays sound where no block becomes poisoned. -/
theorem State.scratchOk_of_poison {s t : State}
    (h : ∀ b, tabGet false s.poison b = false → tabGet false t.poison b = false) {w a : Nat}
    (sound : s.scratchOk w a = true) : t.scratchOk w a = true :=
  (t.scratchOk_iff w a).2 (h _ ((s.scratchOk_iff w a).1 sound))

/-- Blocks cleared poison no other. -/
theorem tabGet_foldl_clear (k : Nat) (bs : List Loc) (p : Tab Bool) (h : tabGet false p k = false) :
    tabGet false (bs.foldl (fun t b => tabPut false t (blockKey b) false) p) k = false := by
  induction bs generalizing p with
  | nil => exact h
  | cons b bs ih =>
    refine ih _ ?_
    rw [tabGet_put, h, ite_self]

section
variable {s t u : State}

theorem State.poison_recountPoison (tier : Tier) : (s.recountPoison tier).poison = s.poison :=
  (congrArg State.poison (s.recountPoison_frame tier) :)

/-- A block written whole clears poison and sets none. -/
theorem State.poison_clearPoison (l : Loc) (n k : Nat) (h : tabGet false s.poison k = false) :
    tabGet false (s.clearPoison l n).poison k = false := by
  unfold State.clearPoison
  dsimp only
  split
  · exact h
  · rw [State.poison_recountPoison]
    exact tabGet_foldl_clear k _ _ h

/-! ### Steps that leave the wells and the slots -/

/-- The slots of a job are those that it had. -/
def Job.sameSlots (x y : Job) : Prop := y.wells = x.wells ∧ y.slots = x.slots

theorem State.job_modJob_map (j : Nat) (f : Job → Job) : (s.modJob j f).job j = (s.job j).map f := by
  simp [State.job, State.modJob]

/-- A job changed in its slot's wells and numbers not at all keeps every slot. -/
theorem State.slotOf_modJob {j : Nat} {f : Job → Job} (same : ∀ x, s.job j = some x → x.sameSlots (f x)) (i w : Nat) :
    (s.modJob j f).slotOf i w = s.slotOf i w := by
  by_cases h : i = j
  · subst h
    unfold State.slotOf
    rw [State.job_modJob_map]
    cases job : s.job i with
    | none => rfl
    | some x =>
      obtain ⟨wells, slots⟩ := same x job
      simp only [Option.map_some, wells, slots]
  · rw [State.slotOf, State.job_modJob_ne h, State.slotOf]

/-- A step leaves every well and every slot, and poisons no block of device scratch. -/
structure WellsStay (s t : State) : Prop where
  wells : t.wells = s.wells
  slots : ∀ j w, t.slotOf j w = s.slotOf j w
  sound : ∀ w a, s.scratchOk w a = true → t.scratchOk w a = true

theorem WellsStay.refl : WellsStay s s := ⟨rfl, fun _ _ => rfl, fun _ _ h => h⟩

theorem WellsStay.trans (h : WellsStay s t) (k : WellsStay t u) : WellsStay s u :=
  ⟨k.wells.trans h.wells, fun j w => (k.slots j w).trans (h.slots j w), fun w a sound => k.sound w a (h.sound w a sound)⟩

/-- Slots are a matter of the jobs alone. -/
theorem State.slotOf_of_jobs (h : t.jobs = s.jobs) (j w : Nat) : t.slotOf j w = s.slotOf j w := by
  rw [State.slotOf, State.job, h, State.slotOf, State.job]

theorem WellsStay.of_fields (wells : t.wells = s.wells) (jobs : t.jobs = s.jobs) (poison : t.poison = s.poison) :
    WellsStay s t :=
  ⟨wells, State.slotOf_of_jobs jobs, fun w a h => (State.scratchOk_congr poison w a).trans h⟩

/-- A step that changes registers, translations, coherence and bytes of the tiers. -/
theorem WellsStay.of_frame (h : { t with
    regs := s.regs, tlb := s.tlb, walkPtrs := s.walkPtrs, lines := s.lines, dir := s.dir, engine := s.engine,
    cistern := s.cistern, reservoir := s.reservoir, aquifer := s.aquifer, hostMem := s.hostMem } = s) : WellsStay s t :=
  .of_fields (congrArg State.wells h :) (congrArg State.jobs h :) (congrArg State.poison h :)

theorem WellsStay.withEngine (h : WellsStay s t) (e : Engine) : WellsStay s { t with engine := e } :=
  h.trans (.of_fields rfl rfl rfl)

theorem State.setFld_stays (o hi lo v : Nat) : WellsStay s (s.setFld o hi lo v) :=
  .of_fields (congrArg State.wells (s.setFld_frame o hi lo v) :) (congrArg State.jobs (s.setFld_frame o hi lo v) :)
    (congrArg State.poison (s.setFld_frame o hi lo v) :)

theorem State.incFld_stays (o hi lo n : Nat) : WellsStay s (s.incFld o hi lo n) :=
  .of_fields (congrArg State.wells (s.incFld_frame o hi lo n) :) (congrArg State.jobs (s.incFld_frame o hi lo n) :)
    (congrArg State.poison (s.incFld_frame o hi lo n) :)

theorem State.setReg_stays (o : Nat) (v : Word) : WellsStay s (s.setReg o v) := .of_frame rfl

theorem State.rawWrite_stays (l : Loc) (bs : List Byte) : WellsStay s (s.rawWrite l bs) := by
  obtain ⟨tier, a⟩ := l
  cases tier <;> exact .of_frame rfl

theorem State.tlbPage_stays (ctx va : Nat) : WellsStay s (s.tlbPage ctx va) := .of_frame rfl

theorem State.setLeaf_stays (at_ : Nat) (v : Word) : WellsStay s (s.setLeaf at_ v) := State.rawWrite_stays ..

theorem State.putLeaf_stays (ctx va at_ : Nat) (v : Word) : WellsStay s (s.putLeaf ctx va at_ v) :=
  (State.tlbPage_stays ctx va).trans (State.setLeaf_stays ..)

theorem accessed.wellsStay (h : accessed s t) : WellsStay s t :=
  .of_fields h.wells h.jobs (congrArg State.poison h.1 :)

theorem State.recallLoc_stays (l : Loc) (n : Nat) : WellsStay s (s.recallLoc l n) := by
  unfold State.recallLoc
  split
  · exact (accessed.foldl (fun t line => t.recallLine_accessed line) _ s).wellsStay
  · exact .refl

theorem State.modJob_stays {j : Nat} {f : Job → Job} (same : ∀ x, s.job j = some x → x.sameSlots (f x)) :
    WellsStay s (s.modJob j f) :=
  ⟨rfl, State.slotOf_modJob same, fun w a h => (State.scratchOk_congr (s := s) (t := s.modJob j f) rfl w a).trans h⟩

/-! ### The pool at job start (R367) -/

theorem State.clearPoison_stays (l : Loc) (n : Nat) : WellsStay s (s.clearPoison l n) where
  wells := (congrArg State.wells (s.clearPoison_frame l n) :)
  slots := State.slotOf_of_jobs (congrArg State.jobs (s.clearPoison_frame l n) :)
  sound _ _ := State.scratchOk_of_poison (State.poison_clearPoison l n)

theorem State.copyPage_stays (src dst : Loc) (n : Nat) : WellsStay s (s.copyPage src dst n) :=
  (State.clearPoison_stays dst n).trans (State.rawWrite_stays ..)

/-- A frame taken leaves its job's slots. -/
theorem Job.takeFrame_sameSlots (x : Job) (tier : Tier) (n : Nat) : OptOk (fun r => x.sameSlots r.2) (x.takeFrame tier n) := by
  unfold Job.takeFrame
  split
  · exact .none
  · split
    · exact .none
    · exact .some ⟨rfl, rfl⟩

/-- A frame freed leaves its job's slots. -/
theorem Job.giveFrame_sameSlots (x : Job) (l : Loc) (n : Nat) : x.sameSlots (x.giveFrame l n) := by
  unfold Job.giveFrame
  split
  · exact ⟨rfl, rfl⟩
  · exact ⟨rfl, rfl⟩

theorem State.kvcAdd_stays (p : Nat) (tier : Tier) (more : Bool) : WellsStay s (s.kvcAdd p tier more) := by
  unfold State.kvcAdd
  split
  · exact .refl
  · exact State.setFld_stays ..

theorem State.kvcMove_stays (p : Nat) (a b : Tier) : WellsStay s (s.kvcMove p a b) :=
  (State.kvcAdd_stays ..).trans (State.kvcAdd_stays ..)

/-- The frame of a job's own move is the job with a frame taken. -/
theorem State.takenFrame_stays {j : Nat} {x y : Job} {tier : Tier} {n : Nat} {dst : Loc} (job : s.job j = some x)
    (taken : x.takeFrame tier n = some (dst, y)) : WellsStay s (s.modJob j (fun _ => y)) := by
  refine State.modJob_stays fun z hz => ?_
  cases job.symm.trans hz
  exact x.takeFrame_sameSlots tier n _ taken

theorem State.endMove_stays (m : Move) : ExOk (WellsStay s) (s.endMove m) := by
  refine ExOk.bindAny fun v => ?_
  extract_lets copied given counted prefetched
  have hGiven : WellsStay s given := ((State.copyPage_stays ..).trans (State.setLeaf_stays ..)).trans
    (State.modJob_stays fun x _ => x.giveFrame_sameSlots m.src m.size)
  have hCounted : WellsStay s counted := by
    unfold counted
    split
    · exact hGiven.trans (State.kvcMove_stays ..)
    · exact hGiven
  have hPrefetched : WellsStay s prefetched := by
    unfold prefetched
    split
    · exact hCounted.trans (State.incFld_stays ..)
    · exact hCounted
  exact ExOk.pure (hPrefetched.trans (State.incFld_stays ..))

theorem State.beginMove_stays (j va : Nat) (l : Leaf) (tier : Tier) (prefetch : Bool) :
    OptOk (WellsStay s) (s.beginMove j va l tier prefetch) := by
  unfold State.beginMove
  split
  next x src job loc =>
    split
    · exact .none
    next dst y taken =>
      exact .some (((State.takenFrame_stays job taken).trans (State.putLeaf_stays ..)).withEngine _)
  · exact .none

theorem State.moveNow_stays (j va : Nat) (l : Leaf) (tier : Tier) :
    ExOk (OptOk (WellsStay s)) (s.moveNow j va l tier) := by
  unfold State.moveNow
  split
  next x src job loc =>
    refine (ExOk.ok .none).ite ?_
    split
    · exact ExOk.ok .none
    next dst y taken =>
      refine ExOk.bindAny fun _ => (State.endMove_stays _).bind fun t ended => ExOk.pure (.some ?_)
      exact (((State.takenFrame_stays job taken).trans (State.tlbPage_stays ..)).trans (State.recallLoc_stays ..)).trans ended
  · exact ExOk.ok .none

theorem State.poolPlace_stays (j ctx i va : Nat) (pool : PoolRec) : ExOk (WellsStay s) (s.poolPlace j ctx i va pool) := by
  unfold State.poolPlace
  split
  · exact ExOk.error
  next l _ =>
    extract_lets tier marked leaf counted
    have hMarked : WellsStay s marked := State.putLeaf_stays ..
    have hCounted : WellsStay s counted := by
      unfold counted
      cases leafTier leaf.val with
      | none => exact hMarked
      | some own => exact hMarked.trans (State.kvcAdd_stays ..)
    refine (ExOk.ok hCounted).ite ?_
    split
    next r moved => exact ExOk.ok (OptOk.getD (fun t ht => hCounted.trans (State.moveNow_stays _ _ _ _ r moved t ht)) hCounted)
    · exact ExOk.ok (OptOk.getD (fun t ht => hCounted.trans (State.beginMove_stays _ _ _ _ _ t ht)) hCounted)
    · exact ExOk.error

/-- The pool is homed beside the wells. -/
theorem State.poolStart_stays (j : Nat) : ExOk (WellsStay s) (s.poolStart j) := by
  unfold State.poolStart
  split
  · exact ExOk.ok .refl
  · refine ExOk.foldlM (fun t _ stays => fun v hv => stays.trans (State.poolPlace_stays _ _ _ _ _ v hv)) ?_
    exact State.setReg_stays ..

end

/-! ### A well started (R249, R259) -/

/-- The event table of a slot written with zeros is sound, and poisons no other block. -/
theorem State.poison_zeroEvents (s : State) (w k b : Nat) : tabGet false (s.zeroEvents w k).poison b =
    if cisKey w (eventAt k 0) ≤ b ∧ b < cisKey w (eventAt k 0) + 262144 then false else tabGet false s.poison b := by
  unfold State.zeroEvents
  extract_lets lo mine cleared
  have drop : tabGet false (tabDrop mine s.poison) b
      = if lo ≤ b ∧ b < lo + 262144 then false else tabGet false s.poison b := by
    rw [tabGet_drop]
    simp only [mine, decide_eq_true_eq]
  split
  next => rw [State.poison_recountPoison]; exact drop
  next none_ =>
    have same : tabDrop mine s.poison = s.poison := by
      refine List.filter_eq_self.2 fun e he => ?_
      rw [Bool.not_eq_eq_eq_not, Bool.not_true, Bool.eq_false_iff]
      exact fun h => none_ (List.any_eq_true.2 ⟨e, he, h⟩)
    rw [← drop, same]
    rfl

theorem State.wells_zeroEvents (s : State) (w k : Nat) : (s.zeroEvents w k).wells = s.wells := by
  unfold State.zeroEvents
  dsimp only
  split
  · exact (congrArg State.wells (State.recountPoison_frame (.cistern w)) :)
  · rfl

theorem State.jobs_zeroEvents (s : State) (w k : Nat) : (s.zeroEvents w k).jobs = s.jobs := by
  unfold State.zeroEvents
  dsimp only
  split
  · exact (congrArg State.jobs (State.recountPoison_frame (.cistern w)) :)
  · rfl

/-- Zeros written to an event table leave every sound byte of device scratch sound. -/
theorem State.scratchOk_zeroEvents {s : State} {v a : Nat} (w k : Nat) (sound : s.scratchOk v a = true) :
    (s.zeroEvents w k).scratchOk v a = true := by
  refine State.scratchOk_of_poison (fun b h => ?_) sound
  rw [State.poison_zeroEvents, h, ite_self]

/-- Every event counter of a table written with zeros is sound. -/
theorem State.scratchOk_event_zeroEvents (s : State) (w k : Nat) {ev : Nat} (h : ev < 65536) :
    (s.zeroEvents w k).scratchOk w (eventAt k ev) = true := by
  rw [State.scratchOk_iff, State.poison_zeroEvents, if_pos]
  unfold cisKey eventAt
  omega

section
variable {s t : State} {j : Nat} {x : Job} {prog : List Word} {rank w pass : Nat} {resumed : Bool} {colls : Tab Nat} {n : Nat}

/-- The activity ramp of a well begun again leaves the rest of it. -/
theorem State.well_startRamp (s : State) (w : Nat) : (s.startRamp w).well w = { s.well w with rampAt := some s.now } :=
  State.well_setWell ..

theorem State.well_startRamp_ne (s : State) {v w : Nat} (other : v ≠ w) : (s.startRamp w).well v = s.well v :=
  (State.well_setWell_ne _ _ other).trans (State.well_of_wells rfl v)

/-- A well with a program started, at its ramp's old place. -/
def Well.started (y : Well) (j : Nat) (x : Job) (prog : List Word) (rank w pass : Nat) (resumed : Bool) (colls : Tab Nat)
    (n : Nat) : Well :=
  { y.bare with
    job := some j, ctl := .running, cx := startCtx x.arg rank x.wells.length w pass resumed, plen := prog.length,
    colls := colls, fences := n }

/-- The state with a program loaded, before the scratch of its slot is written. -/
def State.loaded (s : State) (w : Nat) (y : Well) (prog : List Word) : State :=
  ((s.setWell w y).startRamp w).loadImem w prog

theorem State.well_loaded (s : State) (w : Nat) (y : Well) (prog : List Word) :
    (s.loaded w y prog).well w = { y with rampAt := some s.now } := by
  refine (State.well_startRamp (s.setWell w y) w).trans ?_
  rw [State.well_setWell]
  rfl

theorem State.well_loaded_ne (s : State) {v w : Nat} (other : v ≠ w) (y : Well) (prog : List Word) :
    (s.loaded w y prog).well v = s.well v :=
  (State.well_startRamp_ne (s.setWell w y) other).trans (State.well_setWell_ne s y other)

theorem State.scratchOk_loaded (s : State) (w v a : Nat) (y : Well) (prog : List Word) :
    (s.loaded w y prog).scratchOk v a = s.scratchOk v a := State.scratchOk_congr rfl v a

theorem State.wells_startWell : (s.startWell j x prog rank w pass resumed colls n).wells =
    (s.loaded w ((s.well w).started j x prog rank w pass resumed colls n) prog).wells := State.wells_zeroEvents ..

theorem State.jobs_startWell : (s.startWell j x prog rank w pass resumed colls n).jobs = s.jobs := State.jobs_zeroEvents ..

theorem State.poison_startWell : (s.startWell j x prog rank w pass resumed colls n).poison =
    ((s.loaded w ((s.well w).started j x prog rank w pass resumed colls n) prog).zeroEvents w (s.slotOf j w)).poison := rfl

/-- The well started. -/
theorem State.well_startWell : (s.startWell j x prog rank w pass resumed colls n).well w =
    { (s.well w).started j x prog rank w pass resumed colls n with rampAt := some s.now } := by
  rw [State.well_of_wells State.wells_startWell, State.well_loaded]

/-- Any other well. -/
theorem State.well_startWell_ne {v : Nat} (other : v ≠ w) :
    (s.startWell j x prog rank w pass resumed colls n).well v = s.well v := by
  rw [State.well_of_wells State.wells_startWell, State.well_loaded_ne _ other]

/-- Sound scratch stays sound. -/
theorem State.scratchOk_startWell {v a : Nat} (sound : s.scratchOk v a = true) :
    (s.startWell j x prog rank w pass resumed colls n).scratchOk v a = true := by
  rw [State.scratchOk_congr State.poison_startWell]
  refine State.scratchOk_zeroEvents w _ ?_
  rw [State.scratchOk_loaded]
  exact sound

/-- The event counters of the well's slot are sound. -/
theorem State.scratchOk_event_startWell {ev : Nat} (h : ev < 65536) :
    (s.startWell j x prog rank w pass resumed colls n).scratchOk w (eventAt (s.slotOf j w) ev) = true := by
  rw [State.scratchOk_congr State.poison_startWell]
  exact State.scratchOk_event_zeroEvents _ w _ h

end

/-! ### The wells of a job at its start (R259) -/

/-- The controller of the well of this rank runs job j from the start of its program, and the well's event 65,535 can be
raised. -/
structure State.AtStart (s : State) (j : Nat) (x : Job) (pass : Nat) (resumed : Bool) (e : Nat × Nat) : Prop where
  ctl : (s.well e.1).ctl = .running
  job : (s.well e.1).job = some j
  cx : (s.well e.1).cx = startCtx x.arg e.2 x.wells.length e.1 pass resumed
  sound : s.scratchOk e.1 (eventAt (s.slotOf j e.1) 65535) = true

section
variable {s t : State} {j : Nat} {x : Job} {prog : List Word} {pass : Nat} {resumed : Bool} {n : Nat} {e : Nat × Nat}

theorem State.AtStart.of_startWell (s : State) (w rank : Nat) (colls : Tab Nat) :
    (s.startWell j x prog rank w pass resumed colls n).AtStart j x pass resumed (w, rank) where
  ctl := congrArg Well.ctl State.well_startWell
  job := congrArg Well.job State.well_startWell
  cx := congrArg Well.cx State.well_startWell
  sound := by
    rw [State.slotOf_of_jobs State.jobs_startWell]
    exact State.scratchOk_event_startWell (by decide)

/-- A well started stays so while others are started. -/
theorem State.AtStart.startWell (h : s.AtStart j x pass resumed e) {w : Nat} (other : e.1 ≠ w) (rank : Nat)
    (colls : Tab Nat) : (s.startWell j x prog rank w pass resumed colls n).AtStart j x pass resumed e := by
  obtain ⟨ctl, job, cx, sound⟩ := h
  refine ⟨?_, ?_, ?_, ?_⟩
  · rw [State.well_startWell_ne other, ctl]
  · rw [State.well_startWell_ne other, job]
  · rw [State.well_startWell_ne other, cx]
  · rw [State.slotOf_of_jobs State.jobs_startWell]
    exact State.scratchOk_startWell sound

/-- A well started stays so while steps leave the wells. -/
theorem State.AtStart.stays (h : s.AtStart j x pass resumed e) (stays : WellsStay s t) :
    t.AtStart j x pass resumed e := by
  obtain ⟨ctl, job, cx, sound⟩ := h
  have well := State.well_of_wells stays.wells e.1
  refine ⟨by rw [well, ctl], by rw [well, job], by rw [well, cx], ?_⟩
  rw [stays.slots]
  exact stays.sound _ _ sound

theorem State.AtStart.startWells {l : List (Nat × Nat)} (h : s.AtStart j x pass resumed e) (other : e.1 ∉ l.map Prod.fst)
    (colls : Nat → Tab Nat) :
    (l.foldl (fun t e => t.startWell j x prog e.2 e.1 pass resumed (colls e.2) n) s).AtStart j x pass resumed e := by
  induction l generalizing s with
  | nil => exact h
  | cons a l ih =>
    rw [List.map_cons, List.mem_cons, not_or] at other
    exact ih (h.startWell other.1 ..) other.2

/-- Started one after another, every well of a list is at its start. -/
theorem State.startWells_atStart {l : List (Nat × Nat)} (distinct : (l.map Prod.fst).Nodup) (s : State)
    (colls : Nat → Tab Nat) : ∀ e ∈ l,
    (l.foldl (fun t e => t.startWell j x prog e.2 e.1 pass resumed (colls e.2) n) s).AtStart j x pass resumed e := by
  induction l generalizing s with
  | nil => exact nofun
  | cons a l ih =>
    rw [List.map_cons, List.nodup_cons] at distinct
    intro e he
    obtain rfl | he := List.mem_cons.1 he
    · exact (State.AtStart.of_startWell s ..).startWells distinct.1 colls
    · exact ih distinct.2 _ e he

/-- Every well of a job, with its rank, is at its start. -/
def State.AllAtStart (s : State) (j : Nat) (x : Job) (pass : Nat) (resumed : Bool) : Prop :=
  ∀ e ∈ x.wells.zipIdx, s.AtStart j x pass resumed e

theorem State.startWells_allAtStart (distinct : x.wells.Nodup) (s : State) (colls : Nat → Tab Nat) :
    (x.wells.zipIdx.foldl (fun t e => t.startWell j x prog e.2 e.1 pass resumed (colls e.2) n) s).AllAtStart
      j x pass resumed :=
  State.startWells_atStart (by rw [List.zipIdx_map_fst]; exact distinct) s colls

theorem State.AllAtStart.stays (h : s.AllAtStart j x pass resumed) (stays : WellsStay s t) :
    t.AllAtStart j x pass resumed := fun e he => (h e he).stays stays

/-- Event 65,535, raised at every well, leaves the controllers (R555). -/
theorem State.AllAtStart.inputsDone (h : s.AllAtStart j x pass resumed) :
    (s.inputsDone j x).AllAtStart j x pass resumed := by
  refine List.foldlRecOn (motive := fun t : State => t.AllAtStart j x pass resumed) x.wells _ h fun t ht w hw => ?_
  obtain ⟨rank, hr⟩ := List.getElem?_of_mem hw
  rw [State.raiseEvent_of_ok (ht (w, rank) (List.mem_zipIdx_iff_getElem?.2 hr)).sound]
  exact ht.stays (.of_fields rfl rfl rfl)

/-- A job that starts afresh has its wells at their start in pass 0 (R259). -/
theorem State.startAfresh_allAtStart (distinct : x.wells.Nodup) (s : State) :
    ExOk (fun t => t.AllAtStart j x 0 false) (s.startAfresh j x prog n) := by
  unfold State.startAfresh
  refine ExOk.bindAny fun _ => ?_
  refine ExOk.bindAny fun inputs => ?_
  refine ExOk.bindAny fun _ => ?_
  refine ExOk.bind (State.poolStart_stays j) fun t stays => ExOk.pure ?_
  have started := (State.startWells_allAtStart distinct _ fun _ => []).stays stays
  split
  · exact started.inputsDone
  · exact started

/-- A job that starts from a checkpoint has its wells at their start in the pass of the checkpoint (R259, R684). -/
theorem State.startFrom_allAtStart (distinct : x.wells.Nodup) (s : State) (c : CpSaved) :
    ExOk (fun t => t.AllAtStart j x c.pass true) (s.startFrom j x prog n c) := by
  unfold State.startFrom
  refine ExOk.bindAny fun _ => ?_
  refine ExOk.bindAny fun _ => ?_
  refine ExOk.bindAny fun _ => ExOk.pure ?_
  exact State.startWells_allAtStart distinct _ c.collsOf

/-- A job starts in the pass of its last valid checkpoint, or in pass 0 (R259). -/
theorem State.startJob_allAtStart {u : State} (distinct : x.wells.Nodup) (first : Bool)
    (judged : ((s.dropWork j x).dropPosts j).judgeAreas (viaQ 12 (s.ctxOf j)) (s.whFree.getD 0) (s.areasOf j) = .ok u) :
    ExOk (fun t => t.AllAtStart j x ((u.lastSaved j x).elim 0 CpSaved.pass) (u.lastSaved j x).isSome)
      (s.startJob j x first) := by
  unfold State.startJob
  refine ExOk.bindAny fun prog => ?_
  rw [judged]
  change ExOk _ (match u.lastSaved j x with
    | some c => _
    | none => _)
  cases u.lastSaved j x with
  | none => exact State.startAfresh_allAtStart distinct u
  | some c => exact ExOk.bindAny fun v => State.startFrom_allAtStart distinct v c

end

/-- The registers of a controller at the start of its program (R259). -/
theorem startCtx_get (arg rank size w pass : Nat) (resumed : Bool) (n : Nat) :
    (startCtx arg rank size w pass resumed).get n =
      if n = 0 then 0#64 else if n = 6 then BitVec.ofNat 64 resumed.toNat else if n = 5 then BitVec.ofNat 64 pass
      else if n = 4 then BitVec.ofNat 64 w else if n = 3 then BitVec.ofNat 64 size
      else if n = 2 then BitVec.ofNat 64 rank else if n = 1 then BitVec.ofNat 64 arg else 0#64 := by
  simp only [CtlCtx.get, startCtx, tabGet_put, tabGet]

/-- The registers not listed hold 0. -/
theorem startCtx_get_of_not_listed (arg rank size w pass : Nat) (resumed : Bool) {n : Nat} (h : n = 0 ∨ 6 < n) :
    (startCtx arg rank size w pass resumed).get n = 0#64 := by
  rw [startCtx_get]
  obtain rfl | h := h
  · rfl
  · simp only [show n ≠ 0 ∧ n ≠ 1 ∧ n ≠ 2 ∧ n ≠ 3 ∧ n ≠ 4 ∧ n ≠ 5 ∧ n ≠ 6 by omega, if_false]

/-- Settles O14: the wells are started one after another, and what follows leaves them (`State.startJob_allAtStart`). -/
theorem controllersStartWithTheirRegisters : Obligations.ControllersStartWithTheirRegisters := by
  intro s t u j x first distinct started judged saved r w named c
  obtain ⟨ctl, job, cx, -⟩ := State.startJob_allAtStart distinct first judged t started (w, r)
    (List.mem_zipIdx_iff_getElem?.2 named)
  have get : ∀ n, c.get n = _ := fun n => (congrArg (CtlCtx.get · n) cx).trans (startCtx_get ..)
  refine ⟨ctl, job, ?_, get 1, get 2, get 3, get 4, get 5, ?_, fun n h => ?_⟩
  · exact congrArg CtlCtx.pc cx
  · rw [get 6]
    cases (u.lastSaved j x).isSome <;> rfl
  · exact (congrArg (CtlCtx.get · n) cx).trans (startCtx_get_of_not_listed _ _ _ _ _ _ h)

end Sys2Proof.Machine
end

section
/-!
SUPPORT. What recording and reporting leaves (R756 to R762).
-/
namespace Sys2Proof.Machine

section
variable {s t u : State}

/-- From s to t the block has recorded and reported: registers from the fault collector's on have changed, and vectors may
have been signalled (R756 to R762). -/
structure Noted (s t : State) : Prop where
  frame : { t with fresh := s.fresh, regs := s.regs, fcLast := s.fcLast, msix := s.msix } = s
  low : ∀ o < rFcCtl, t.reg o = s.reg o

theorem Noted.refl : Noted s s := ⟨rfl, fun _ _ => rfl⟩

theorem Noted.trans (h : Noted s t) (k : Noted t u) : Noted s u where
  frame := Eq.trans (congrArg (fun x : State => { x with
    fresh := s.fresh, regs := s.regs, fcLast := s.fcLast, msix := s.msix }) k.frame :) h.frame
  low o ho := (k.low o ho).trans (h.low o ho)

theorem Noted.jobs (h : Noted s t) : t.jobs = s.jobs := (congrArg State.jobs h.frame :)
theorem Noted.jn (h : Noted s t) : t.jn = s.jn := (congrArg State.jn h.frame :)
theorem Noted.hqs (h : Noted s t) : t.hqs = s.hqs := (congrArg State.hqs h.frame :)

theorem Noted.sameMem (h : Noted s t) : sameMem s t :=
  ⟨(congrArg State.cistern h.frame :), (congrArg State.reservoir h.frame :), (congrArg State.aquifer h.frame :),
    (congrArg State.hostMem h.frame :), (congrArg State.boot h.frame :), (congrArg State.recovery h.frame :)⟩

theorem State.setReg_noted {o : Nat} (v : Word) (high : rFcCtl ≤ o) : Noted s (s.setReg o v) :=
  ⟨rfl, fun _ low => s.reg_setReg_ne v (by omega)⟩

theorem State.incFld_noted {o : Nat} (hi lo n : Nat) (high : rFcCtl ≤ o) : Noted s (s.incFld o hi lo n) :=
  State.setReg_noted _ high

theorem State.latch_noted {o : Nat} (v : Word) (high : rFcCtl ≤ o) : Noted s (s.latch o v) := by
  unfold State.latch
  split
  · exact State.setReg_noted _ high
  · exact State.setReg_noted _ high

theorem State.report_noted (src cls sev rsrc runit unit detail : Nat) :
    Noted s (s.report src cls sev rsrc runit unit detail) where
  frame := by
    obtain ⟨regs, msix, last, e⟩ := s.report_eq src cls sev rsrc runit unit detail
    rw [e]
  low o low := by
    refine State.reg_report ?_
    simp only [rFcCtl] at low
    simp only [reportRegs, rFcRec, rFcTb, rFcDet, rFcSummary, rFcAlert, List.mem_cons, List.not_mem_nil, or_false]
    omega

theorem State.noteGuard_noted (src unit va : Nat) : Noted s (s.noteGuard src unit va) := State.report_noted ..

theorem rFcCtl_le_rWl (w o : Nat) : rFcCtl ≤ rWl w o := le_trans (by decide) (le_rWl w o)

theorem State.countTier_noted (who : Who) (l : Loc) (write : Bool) : Noted s (s.countTier who l write) := by
  obtain ⟨tier, a⟩ := l
  cases tier with
  | cistern w => exact (State.incFld_noted _ _ _ (rFcCtl_le_rWl w _)).trans (State.latch_noted _ (rFcCtl_le_rWl w _))
  | reservoir => exact (State.incFld_noted _ _ _ (by decide)).trans (State.latch_noted _ (by decide))
  | aquifer => exact (State.incFld_noted _ _ _ (by decide)).trans (State.latch_noted _ (by decide))
  | host => exact .refl

theorem State.noteTier_noted (who : Who) (rsrc runit : Nat) (l : Loc) (write : Bool) :
    Noted s (s.noteTier who rsrc runit l write) :=
  (State.countTier_noted ..).trans (State.report_noted ..)

theorem State.noteTable_noted (ctx w va : Nat) : Noted s (s.noteTable ctx w va) := by
  unfold State.noteTable
  split
  · exact .refl
  · exact ((State.incFld_noted _ _ _ (by decide)).trans (State.latch_noted _ (by decide))).trans (State.report_noted ..)

theorem State.noteTransBy_noted (ctx w src unit : Nat) (e : AccErr) : Noted s (s.noteTransBy ctx w src unit e) := by
  unfold State.noteTransBy
  split
  · extract_lets tabled level drawn v stamped latched
    have hTabled : Noted s tabled := by
      unfold tabled
      split
      · exact State.noteTable_noted ..
      · exact .refl
    have hDrawn : Noted s drawn := hTabled.trans ⟨rfl, fun _ _ => rfl⟩
    have hStamped : Noted s stamped := by
      unfold stamped
      split
      · exact hDrawn
      · exact hDrawn.trans (State.setReg_noted _ (by decide))
    exact (hStamped.trans (State.latch_noted _ (by decide))).trans (State.report_noted ..)
  · exact .refl

theorem State.noteHead_noted (ctx src unit : Nat) (e : AccErr) : Noted s (s.noteHead ctx src unit e) := by
  cases e with
  | stall _ => exact .refl
  | tier _ l write => exact State.noteTier_noted ..
  | guard va => exact State.noteGuard_noted ..
  | trans k level va write => exact s.noteTransBy_noted ctx 15 src unit (.trans k level va write)

end

end Sys2Proof.Machine
end

section
/-!
SUPPORT. What the findings of the loader can name (R304, R305).
-/
namespace Sys2Proof.Machine

/-- Every error that a computation can end with satisfies P. -/
def ErrOk {ε α : Type} (P : ε → Prop) (x : Except ε α) : Prop := ∀ e, x = .error e → P e

section
variable {ε α β : Type} {P : ε → Prop}

theorem ErrOk.ok {a : α} : ErrOk P (.ok a : Except ε α) := nofun

theorem ErrOk.error {e : ε} (h : P e) : ErrOk P (.error e : Except ε α) := by
  rintro _ ⟨⟩
  exact h

theorem ErrOk.ite {c : Prop} [Decidable c] {x y : Except ε α} (hx : ErrOk P x) (hy : ErrOk P y) :
    ErrOk P (if c then x else y) := by
  split
  · exact hx
  · exact hy

theorem ErrOk.bind {x : Except ε β} {f : β → Except ε α} (hx : ErrOk P x) (hf : ∀ b, x = .ok b → ErrOk P (f b)) :
    ErrOk P (x >>= f) := by
  cases x with
  | error e => exact fun e' h => hx e' (by cases h; rfl)
  | ok b => exact hf b rfl

theorem ErrOk.foldlM {f : α → β → Except ε α} (hf : ∀ a b, ErrOk P (f a b)) (l : List β) (a : α) :
    ErrOk P (l.foldlM f a) := by
  induction l generalizing a with
  | nil => exact ok
  | cons b l ih => exact (hf a b).bind fun c _ => ih c

theorem ErrOk.mapM {f : β → Except ε α} (hf : ∀ b, ErrOk P (f b)) (l : List β) : ErrOk P (l.mapM f) := by
  induction l with
  | nil => exact ok
  | cons b l ih =>
    rw [List.mapM_cons]
    exact (hf b).bind fun _ _ => ih.bind fun _ _ => ok

end

/-! ### Errors of accesses -/

/-- A place that a leaf can name: its well has a number of four bits (R430). -/
def Loc.Nameable (l : Loc) : Prop := ∀ w, l.tier = .cistern w → w < 16

/-- An error of an access to a place that a leaf can name. -/
def AccErr.Nameable : AccErr → Prop
  | .tier _ l _ => l.Nameable
  | _ => True

section
variable {s : State} {ctx va n : Nat} {write : Bool}

theorem bitsOf_lt (w : Word) (hi lo : Nat) : bitsOf w hi lo < 2 ^ (hi - lo + 1) := Nat.mod_lt _ (by positivity)

theorem leafTier_nameable (v : Word) : OptOk (fun t => ∀ a, Loc.Nameable ⟨t, a⟩) (leafTier v) := by
  unfold leafTier
  split
  · refine .some fun a w h => ?_
    cases h
    exact bitsOf_lt v 53 50
  · exact .some fun a w h => by cases h
  · exact .some fun a w h => by cases h
  · exact .some fun a w h => by cases h
  · exact .none

theorem State.leafWalk_errOk : ErrOk AccErr.Nameable (s.leafWalk ctx va write) := by
  unfold State.leafWalk
  split
  · exact .error trivial
  · dsimp only
    split
    · exact .error trivial
    · exact .error trivial
    · exact .ok

theorem State.leafOf_errOk : ErrOk AccErr.Nameable (s.leafOf ctx va write) := by
  unfold State.leafOf
  refine .ite (.error trivial) (.ite (.error trivial) ?_)
  split
  · exact .ok
  · exact State.leafWalk_errOk

theorem State.tierWait_errOk (l : Loc) : ErrOk AccErr.Nameable (s.tierWait l) := by
  unfold State.tierWait
  split
  · exact .ite .ok (.error trivial)
  · exact .ite (.error trivial) (.ite (.error trivial) (.ite (.error trivial) .ok))
  · exact .ok

theorem State.tierWait_same (l : Loc) : ExOk (· = l) (s.tierWait l) := by
  unfold State.tierWait
  split
  · exact .ite (.ok rfl) .error
  · exact .ite .error (.ite .error (.ite .error (.ok rfl)))
  · exact .ok rfl

theorem State.translate_errOk : ErrOk AccErr.Nameable (s.translate ctx va write) := by
  unfold State.translate
  split
  next e h => exact .error (State.leafOf_errOk e h)
  next =>
    refine .ite (.error trivial) (.ite (.error trivial) (.ite (.error trivial) (.ite (.error trivial)
      (.ite (.error trivial) ?_))))
    split
    · exact State.tierWait_errOk _
    · exact .error trivial

theorem State.translate_nameable : ExOk Loc.Nameable (s.translate ctx va write) := by
  unfold State.translate
  split
  · exact .error
  next l _ =>
    refine .ite .error (.ite .error (.ite .error (.ite .error (.ite .error ?_))))
    split
    next t h =>
      intro a found
      rw [State.tierWait_same _ a found]
      exact leafTier_nameable _ _ h _
    · exact .error

theorem State.badBlock_nameable {l : Loc} (h : l.Nameable) : OptOk Loc.Nameable (s.badBlock l n) := by
  intro b found
  obtain ⟨i, -, rfl⟩ := List.mem_map.1 (List.mem_of_find?_eq_some found)
  exact h

theorem State.readVa_errOk : ErrOk AccErr.Nameable (s.readVa ctx va n) := by
  refine .ite (.error trivial) (.foldlM (fun bytes r => State.translate_errOk.bind fun l placed => ?_) _ _)
  split
  next b bad => exact .error (State.badBlock_nameable (State.translate_nameable l placed) b bad)
  · exact .ok

theorem State.readWord_errOk : ErrOk AccErr.Nameable (s.readWord ctx va) := State.readVa_errOk.bind fun _ _ => .ok

theorem State.readWords_errOk : ErrOk AccErr.Nameable (s.readWords ctx va n) := State.readVa_errOk.bind fun _ _ => .ok

theorem State.readGuard32_errOk : ErrOk AccErr.Nameable (s.readGuard32 ctx va) :=
  State.readVa_errOk.bind fun _ _ => by
    split
    · exact .ok
    · exact .error trivial

theorem State.readGuard64_errOk : ErrOk AccErr.Nameable (s.readGuard64 ctx va) :=
  State.readVa_errOk.bind fun _ _ => by
    split
    · exact .ok
    · exact .error trivial

/-! ### Findings -/

/-- Findings whose errors are of accesses to places that a leaf can name. -/
def Nameables (l : List Find) : Prop := ∀ f ∈ l, ∀ e, f.err = some e → e.Nameable

@[simp] theorem Nameables.nil : Nameables [] := nofun

theorem Nameables.append {l m : List Find} (hl : Nameables l) (hm : Nameables m) : Nameables (l ++ m) := fun f mem =>
  (List.mem_append.1 mem).elim (hl f) (hm f)

@[simp] theorem nameables_append {l m : List Find} : Nameables (l ++ m) ↔ Nameables l ∧ Nameables m :=
  ⟨fun h => ⟨fun f mem => h f (List.mem_append_left m mem), fun f mem => h f (List.mem_append_right l mem)⟩,
    fun h => h.1.append h.2⟩

theorem Nameables.flatMap {α : Type} {l : List α} {k : α → List Find} (h : ∀ a, Nameables (k a)) :
    Nameables (l.flatMap k) := fun f mem => by
  obtain ⟨a, -, mem⟩ := List.mem_flatMap.1 mem
  exact h a f mem

theorem Nameables.ite {c : Prop} [Decidable c] {l m : List Find} (hl : Nameables l) (hm : Nameables m) :
    Nameables (if c then l else m) := by
  split
  · exact hl
  · exact hm

theorem Nameables.elim {α : Type} {o : Option α} {k : α → List Find} (h : ∀ a, Nameables (k a)) :
    Nameables (o.elim [] k) := by
  cases o with
  | none => exact nil
  | some a => exact h a

/-- Findings that no access gave. -/
theorem Nameables.map_check {α : Type} (l : List α) (code addr : α → Nat) :
    Nameables (l.map fun a => { cls := 2, code := code a, addr := addr a }) := fun f mem e err => by
  obtain ⟨a, -, rfl⟩ := List.mem_map.1 mem
  cases err

@[simp] theorem Nameables.fails {c : Bool} {code addr : Nat} : Nameables (fails c code addr) := by
  refine Nameables.ite (fun f mem e err => ?_) nil
  rw [List.mem_singleton.1 mem] at err
  cases err

theorem AccErr.find_nameable {e : AccErr} (h : e.Nameable) (g : Nat) : Nameables [e.find g] := fun f mem e' err => by
  rw [List.mem_singleton.1 mem] at err
  cases err
  exact h

theorem Nameables.ldRead {α : Type} {g : Nat} {r : Except AccErr α} {k : α → List Find}
    (hr : ErrOk AccErr.Nameable r) (hk : ∀ a, Nameables (k a)) : Nameables (ldRead g r k) := by
  cases r with
  | ok a => exact hk a
  | error e => exact AccErr.find_nameable (hr e rfl) g

theorem State.readFinds_nameable {g : Nat} : Nameables (s.readFinds ctx g va n) :=
  .flatMap fun _ => .ldRead State.readVa_errOk fun _ => .nil

theorem State.mapErr_nameable : OptOk AccErr.Nameable (s.mapErr ctx va write).1 := by
  unfold State.mapErr
  split
  next e h => exact .some (State.leafOf_errOk e h)
  · exact .ite (.some trivial) (.ite (.some trivial) (.ite (.some trivial) (.ite (.some trivial) .none)))

theorem State.mapErrs_nameable {stop : Nat} : ∀ {fuel va : Nat}, ∀ e ∈ s.mapErrs ctx write fuel va stop, e.Nameable
  | 0, _, e, mem => nomatch mem
  | fuel + 1, va, e, mem => by
    unfold State.mapErrs at mem
    split at mem
    · cases mem
    · obtain first | rest := List.mem_append.1 mem
      · exact State.mapErr_nameable e (Option.mem_toList.1 first)
      · exact State.mapErrs_nameable e rest

theorem State.mapped_nameable : Nameables (s.mapped ctx va n write) := fun f mem e err => by
  obtain ⟨e', found, rfl⟩ := List.mem_map.1 mem
  exact AccErr.find_nameable (State.mapErrs_nameable e' found) 0x02 _ (List.mem_singleton.2 rfl) e err

/-! ### Code -/

theorem State.codeFinds_nameable : Nameables (s.codeFinds ctx va n) :=
  .ite (.ldRead State.readWords_errOk fun _ => .flatMap fun _ => .fails) State.readFinds_nameable

theorem State.tmplFinds_nameable : Nameables (s.tmplFinds ctx va) :=
  .append .fails (.ldRead State.readWord_errOk fun _ => State.readFinds_nameable)

theorem instrFinds_nameable {t : Tmpl} {desc : Nat → Option TDesc} {a : Nat} {w : Word} :
    Nameables (instrFinds t desc a w) := by
  unfold instrFinds
  extract_lets f g td td2 same scales
  refine .append .fails ?_
  split
  · exact .fails
  next k _ =>
    refine .append .fails ?_
    split
    case h_10 =>
      split
      · exact .append .fails .fails
      · exact .nil
    all_goals simp only [nameables_append, Nameables.fails, and_self]

theorem Pass.step_nameable {t : Tmpl} {reg : Nat → TReg} {p : Pass} {odd : Bool} {a : Nat} {w : Word}
    (h : Nameables p.finds) : Nameables (p.step t reg odd a w).finds := by
  unfold Pass.step
  extract_lets o written
  split
  case h_4 => exact .append (.append (.append h .fails) .fails) .fails
  all_goals exact h

theorem Tmpl.pass_nameable {t : Tmpl} {reg : Nat → TReg} {marks : List (Nat × Nat)} {d i0 n : Nat} :
    Nameables (t.pass reg marks d i0 n) :=
  List.foldlRecOn (motive := fun p : Pass => Nameables p.finds) _ _ .nil fun _ h _ _ => Pass.step_nameable h

theorem Tmpl.finds_nameable {t : Tmpl} {desc : Nat → Option TDesc} {reg : Nat → TReg} {marks : List (Nat × Nat)}
    {top : Nat} {runs : List (Nat × Nat)} : Nameables (t.finds desc reg marks top runs) :=
  .append .fails (.flatMap fun _ => .append (.flatMap fun _ => .append instrFinds_nameable .fails)
    (.flatMap fun _ => Tmpl.pass_nameable))

/-! ### Tables -/

theorem State.scaleFinds_nameable {g : Nat} : Nameables (s.scaleFinds ctx va g) :=
  .ite .fails (.ldRead State.readGuard32_errOk fun _ => .fails)

theorem State.descFinds_nameable : Nameables (s.descFinds ctx va) :=
  .ite .fails (.ldRead State.readWords_errOk fun _ => .append .fails (.ite State.scaleFinds_nameable .nil))

theorem State.extent_nameable {d : TDesc} {tsWrite : Bool} : Nameables (s.extent ctx d write tsWrite) :=
  .append State.mapped_nameable (.ite (.append State.mapped_nameable State.mapped_nameable) .nil)

theorem State.descAll_nameable {tsWrite : Bool} : Nameables (s.descAll ctx va write tsWrite) := by
  refine .append State.descFinds_nameable ?_
  split
  · exact State.extent_nameable
  · exact .nil

theorem PrickLd.headFinds_nameable {x : PrickLd} {e1 : Word} : Nameables (x.headFinds e1) :=
  .append (.append (.append (.append .fails .fails) .fails) .fails) (.flatMap fun _ => .fails)

theorem PrickLd.markFinds_nameable {x : PrickLd} {a : Nat} {w : Word} : Nameables (x.markFinds a w) :=
  .flatMap fun _ => .append .fails .fails

theorem State.bindFinds_nameable {x : PrickLd} {j : Nat} {b : Bind} {b0 b3 b4 b5 : Word} :
    Nameables (s.bindFinds ctx x j b b0 b3 b4 b5) := by
  refine .append (.append (.append (.append .fails State.descAll_nameable) (.ite .nil
    (.append (.append State.mapped_nameable State.scaleFinds_nameable) .fails))) (.ite .nil
    (.append State.descAll_nameable ?_))) .fails
  split
  · exact .fails
  · exact .nil

theorem State.geoFinds_nameable {x : PrickLd} {e : Nat × Word} : Nameables (s.geoFinds ctx x e) := by
  unfold State.geoFinds
  split
  · exact .ite .fails (.flatMap fun _ => .ldRead State.readVa_errOk fun _ => .fails)
  · exact .nil

theorem State.rungExtents_nameable {d : TDesc} {steps : Nat} : Nameables (s.rungExtents ctx d steps) :=
  .ite (.flatMap fun _ => State.mapped_nameable) .nil

theorem State.splitChecks_nameable {x : PrickLd} : Nameables (match x.p.splitLevel with
    | some (i, lv) => x.splitFinds i lv ++ (x.d lv.dreg).elim [] (fun d => s.rungExtents ctx d (guardMax x.p.guard))
    | none => []) := by
  split
  · exact .append .fails (.elim fun _ => State.rungExtents_nameable)
  · exact .nil

theorem State.prickChecks_nameable {x : PrickLd} {raw : List Word} : Nameables (s.prickChecks ctx x raw) :=
  .append (.append (.append (.append (.append (.append (.append (.append (.append (.append
    PrickLd.headFinds_nameable (.flatMap fun _ => .fails)) (.flatMap fun _ => PrickLd.markFinds_nameable))
    (.flatMap fun _ => State.bindFinds_nameable)) Tmpl.finds_nameable) .fails) (.flatMap fun _ => .fails))
    State.splitChecks_nameable) .fails) (.ite (.map_check _ _ _) .nil)) (.flatMap fun _ => State.geoFinds_nameable)

theorem State.namedFinds_nameable {h : Option Word} {ent : Nat → Option Word} : Nameables (s.namedFinds ctx h ent) :=
  .append (.elim fun _ => State.tmplFinds_nameable) (.elim fun _ => .flatMap fun _ =>
    .append (.append (.elim fun _ => State.descAll_nameable)
      (.elim fun _ => .ite .nil (.append State.mapped_nameable State.scaleFinds_nameable)))
      (.elim fun _ => .ite .nil State.descAll_nameable))

theorem State.prickFinds_nameable {size : Nat} : Nameables (s.prickFinds ctx size va) := by
  refine .ite .fails ?_
  extract_lets h es broken ent
  have hBroken : Nameables broken := fun f mem => by
    obtain ⟨e, from_, mem⟩ := List.mem_flatMap.1 mem
    obtain ⟨i, -, read⟩ := List.mem_map.1 (List.fst_mem_of_mem_zipIdx from_)
    exact Nameables.ldRead (read ▸ State.readGuard64_errOk) (fun _ => .nil) f mem
  split
  · split
    · exact .append .fails State.prickChecks_nameable
    · exact State.namedFinds_nameable
  · exact hBroken.append State.namedFinds_nameable

/-! ### Records -/

theorem State.opFinds_nameable : Nameables (s.opFinds ctx va) := by
  refine .ite .fails (.ldRead State.readWords_errOk fun ws => ?_)
  extract_lets opc d aux geo g
  have hg : ErrOk AccErr.Nameable g := .ite .ok State.readGuard64_errOk
  exact .append .fails (.ite (.append (.append (.append (.append (.append (.append
    (.flatMap fun _ => .ite State.descAll_nameable .nil) (.ite State.descAll_nameable .nil))
    (.ite (.ite .fails (.ldRead State.readVa_errOk fun _ => .fails)) .nil)) .fails) .fails) .fails)
    (.ldRead hg fun _ => .append (.append .fails .fails) (.ite .nil (.elim fun _ => State.rungExtents_nameable)))) .nil)

theorem State.inputLd_nameable {arg : Nat} : Nameables (s.inputLd ctx arg n).finds := by
  unfold State.inputLd
  dsimp only
  split
  next e h => exact AccErr.find_nameable (State.readWords_errOk e h) _
  next ws _ =>
    split
    · exact .nil
    · split
      · simp only [Nameables.fails]
      · split
        · exact .append State.descFinds_nameable .fails
        · exact State.descFinds_nameable

theorem State.noiseLd_nameable {arg size : Nat} : Nameables (s.noiseLd ctx arg size n).finds := by
  unfold State.noiseLd
  dsimp only
  split
  next e h => exact AccErr.find_nameable (State.readWords_errOk e h) _
  next ws _ =>
    split
    · simp only [Nameables.fails]
    · split
      · simp only [Nameables.fails]
      · split
        · exact .append State.descFinds_nameable .fails
        · exact State.descFinds_nameable

theorem State.sessionLd_nameable {arg : Nat} : Nameables (s.sessionLd ctx arg n).finds := by
  unfold State.sessionLd
  dsimp only
  split
  next e h => exact AccErr.find_nameable (State.readWords_errOk e h) _
  next ws _ =>
    split
    · simp only [Nameables.fails]
    · split
      · simp only [Nameables.fails]
      · split
        · simp only [Nameables.fails]
        · exact .nil

theorem destOverlaps_nameable : ∀ l : List (Nat × List Strip), Nameables (destOverlaps l)
  | [] => .nil
  | _ :: rest => .append (.map_check _ _ _) (destOverlaps_nameable rest)

theorem State.recordFinds_nameable {arg size : Nat} : Nameables (s.recordFinds ctx arg size) := by
  unfold State.recordFinds
  extract_lets outs finds
  have hOuts : Nameables (outs.flatMap RecOut.finds) := fun f mem => by
    obtain ⟨o, from_, mem⟩ := List.mem_flatMap.1 mem
    simp only [outs, List.mem_append, List.mem_map] at from_
    obtain (⟨i, -, rfl⟩ | ⟨i, -, rfl⟩) | ⟨i, -, rfl⟩ := from_
    · exact State.inputLd_nameable f mem
    · exact State.noiseLd_nameable f mem
    · exact State.sessionLd_nameable f mem
  exact .ite (.flatMap fun _ => State.mapped_nameable) (hOuts.append (destOverlaps_nameable _))

theorem State.poolFinds_nameable {scratch size : Nat} {ws : List Word} :
    Nameables (s.poolFinds ctx va scratch size ws) :=
  .append .fails (.ite .nil (.append .fails State.mapped_nameable))

theorem State.imgFinds_nameable {ws : List Word} : Nameables (s.imgFinds ctx va ws) :=
  .ite .nil (.ite .fails State.mapped_nameable)

/-! ### The job -/

theorem State.listFinds_nameable {k : Nat → List Find} (h : ∀ a, Nameables (k a)) : Nameables (s.listFinds ctx va n k) :=
  .append State.readFinds_nameable (.flatMap h)

theorem State.headFinds_nameable {x : Job} {ws : List Word} : Nameables (s.headFinds ctx x ws) := by
  unfold State.headFinds
  extract_lets w prog plist olist plen scratch nprick nops size fits rec_
  have hRec (o : Nat) {k : Nat → List Word → List Find} (h : ∀ a ws, Nameables (k a ws)) : Nameables (rec_ o k) :=
    .ldRead State.readWords_errOk (h _)
  simp only [nameables_append, Nameables.fails, true_and]
  refine ⟨⟨⟨?_, ?_⟩, ?_⟩, ⟨?_, ?_⟩, ?_⟩
  · exact .ite .nil State.codeFinds_nameable
  · exact .ite .nil (State.listFinds_nameable fun _ => State.prickFinds_nameable)
  · exact .ite .nil (State.listFinds_nameable fun _ => State.opFinds_nameable)
  · exact hRec 0x1000 (k := fun a => s.poolFinds ctx a scratch size) fun _ _ => State.poolFinds_nameable
  · exact hRec 0x1020 (k := fun a => migFinds a scratch) fun _ _ => .append .fails .fails
  · exact hRec 0x1040 fun _ _ => State.imgFinds_nameable

theorem State.argFinds_nameable {x : Job} : Nameables (s.argFinds ctx x) :=
  .append (.append (.append State.readFinds_nameable (.ldRead State.readWords_errOk fun _ => State.headFinds_nameable))
    (.ldRead State.readWords_errOk fun _ => .fails)) State.recordFinds_nameable

theorem State.err_placeFind (root : Nat) (f : Find) : (s.placeFind root f).err = f.err := by
  unfold State.placeFind
  split
  · split
    · rfl
    · rfl
  · rfl

/-- What the loader finds names errors of accesses to places that a leaf can name. -/
theorem State.jobFinds_nameable {x : Job} : Nameables (s.jobFinds x) := by
  refine .append .fails (.ite .fails fun f mem e err => ?_)
  obtain ⟨f', found, rfl⟩ := List.mem_map.1 mem
  rw [State.err_placeFind] at err
  exact State.argFinds_nameable f' found e err

end

end Sys2Proof.Machine
end

section
/-!
SUPPORT. What the loader's reports, pair messages and completion entries leave (R399, R614, R680).
-/
namespace Sys2Proof.Machine

section
variable {s t u : State}

/-! ### Reports of the loader (R38, R399, R485) -/

/-- A report of a source below 256 leaves the pair state. -/
theorem State.pairStatus_report {src cls : Nat} (known : src < 256) (class_ : cls < 16) (sev rsrc runit unit detail : Nat) :
    (s.report src cls sev rsrc runit unit detail).reg rTlPairStatus = s.reg rTlPairStatus := by
  refine State.reg_report ?_
  simp only [reportRegs, rFcRec, rFcTb, rFcDet, rFcSummary, rFcAlert, rTlPairStatus, List.mem_cons, List.not_mem_nil,
    or_false]
  omega

theorem State.pairStatus_countTier (who : Who) (l : Loc) (write : Bool) :
    (s.countTier who l write).reg rTlPairStatus = s.reg rTlPairStatus := by
  obtain ⟨tier, a⟩ := l
  cases tier with
  | cistern w =>
    have apart (o : Nat) : rTlPairStatus ≠ rWl w o := Nat.ne_of_lt (lt_of_lt_of_le (by decide) (le_rWl w o))
    exact (State.reg_latch_ne _ _ (apart _)).trans (State.reg_incFld_ne _ _ _ _ (apart _))
  | reservoir => exact (State.reg_latch_ne _ _ (by decide)).trans (State.reg_incFld_ne _ _ _ _ (by decide))
  | aquifer => exact (State.reg_latch_ne _ _ (by decide)).trans (State.reg_incFld_ne _ _ _ _ (by decide))
  | host => rfl

theorem State.tierUnit_lt {l : Loc} (h : l.Nameable) : (s.tierUnit l).1 < 256 := by
  obtain ⟨tier, a⟩ := l
  cases tier with
  | cistern w => exact lt_trans (h w rfl) (by decide)
  | reservoir => exact (by decide : 13 < 256)
  | aquifer => exact (by decide : 14 < 256)
  | host => exact (by decide : 21 < 256)

theorem State.pairStatus_noteTier {l : Loc} (h : l.Nameable) (who : Who) (rsrc runit : Nat) (write : Bool) :
    (s.noteTier who rsrc runit l write).reg rTlPairStatus = s.reg rTlPairStatus :=
  (State.pairStatus_report (State.tierUnit_lt h) (by decide) ..).trans (State.pairStatus_countTier ..)

theorem State.pairStatus_noteTable (ctx w va : Nat) :
    (s.noteTable ctx w va).reg rTlPairStatus = s.reg rTlPairStatus := by
  unfold State.noteTable
  split
  · rfl
  · exact (State.pairStatus_report (by decide) (by decide) ..).trans
      ((State.reg_latch_ne _ _ (by decide)).trans (State.reg_incFld_ne _ _ _ _ (by decide)))

theorem State.noteFind_noted (root : Nat) (e : AccErr) : Noted s (s.noteFind root e) := by
  unfold State.noteFind
  split
  · exact State.noteGuard_noted ..
  · exact State.noteTier_noted ..
  · exact State.noteTable_noted ..
  · exact .refl

theorem State.pairStatus_noteFind {e : AccErr} (h : e.Nameable) (root : Nat) :
    (s.noteFind root e).reg rTlPairStatus = s.reg rTlPairStatus := by
  unfold State.noteFind
  split
  · exact State.pairStatus_report (by decide) (by decide) ..
  · exact State.pairStatus_noteTier h ..
  · exact State.pairStatus_noteTable ..
  · rfl

/-- What reporting the loader's findings leaves: all but records and reports, and the pair state. -/
theorem State.noteFinds_leaves (root : Nat) {l : List Find} (h : Nameables l) :
    Noted s (s.noteFinds root l) ∧ (s.noteFinds root l).reg rTlPairStatus = s.reg rTlPairStatus := by
  refine List.foldlRecOn (motive := fun t => Noted s t ∧ t.reg rTlPairStatus = s.reg rTlPairStatus) _ _ ⟨.refl, rfl⟩ ?_
  rintro t ⟨noted, same⟩ e mem
  obtain ⟨f, found, err⟩ := List.mem_filterMap.1 (List.mem_eraseDups.1 mem)
  exact ⟨noted.trans (State.noteFind_noted root e), (State.pairStatus_noteFind (h f found e err) root).trans same⟩

/-! ### Pair messages (R680) -/

/-- From s to t messages have left to the twin, or wait to leave. -/
def Told (s t : State) : Prop := { t with links := s.links, pair := s.pair } = s

theorem Told.refl : Told s s := rfl

theorem State.openRequest_told (p peer op left : Nat) (job : Option Nat) :
    OptOk (Told s) (s.openRequest p peer op left job) :=
  .map fun _ _ => rfl

theorem Told.tellNow (h : Told s t) (m : PairMsg) : Told s (t.tellNow m) := h

theorem State.tell_told (m : PairMsg) : Told s (s.tell m) := by
  unfold State.tell
  extract_lets wait
  split
  · exact Told.refl.tellNow m
  · split
    · rfl
    · cases opened : s.openRequest 8 s.twinPeer 0x28 0 none with
      | none => rfl
      | some t => exact (State.openRequest_told _ _ _ _ _ t opened).tellNow m

/-! ### Completion entries (R614) -/

@[simp] theorem State.hq_setHq (q : Nat) (x : HostQ) : (s.setHq q x).hq q = x := by simp [State.hq, State.setHq]

/-- A queue after an entry has joined its entries. -/
def HostQ.joined (x : HostQ) (e : CEntry) (wait : Nat) : HostQ := { x with waiting := x.waiting ++ [(e, wait)] }

theorem State.hq_pushRaw (e : CEntry) (wait : Nat) : (s.pushRaw e wait).hq e.queue = (s.hq e.queue).joined e wait :=
  State.hq_setHq ..

/-- From s to t the entries of the queues have changed, and what messages change. -/
def Answered (s t : State) : Prop := { t with links := s.links, pair := s.pair, hqs := s.hqs } = s

theorem Told.pushRaw (h : Told s t) (e : CEntry) (wait : Nat) : Answered s (t.pushRaw e wait) :=
  (congrArg (fun x : State => { x with hqs := s.hqs }) h :)

theorem Told.answered (h : Told s t) : Answered s t := (congrArg (fun x : State => { x with hqs := s.hqs }) h :)

theorem Answered.jobs (h : Answered s t) : t.jobs = s.jobs := (congrArg State.jobs h :)
theorem Answered.jn (h : Answered s t) : t.jn = s.jn := (congrArg State.jn h :)
theorem Answered.sameMem (h : Answered s t) : sameMem s t :=
  ⟨(congrArg State.cistern h :), (congrArg State.reservoir h :), (congrArg State.aquifer h :),
    (congrArg State.hostMem h :), (congrArg State.boot h :), (congrArg State.recovery h :)⟩

theorem State.promise_answered (r : JRec) (e : CEntry) : Answered s (s.promise r e) := by
  unfold State.promise
  split
  · exact (State.tell_told _).pushRaw e 2
  · exact (State.tell_told _).answered

theorem State.pushMirrored_answered (e : CEntry) : Answered s (s.pushMirrored e) := by
  unfold State.pushMirrored
  split
  · exact (State.tell_told _).pushRaw e 1
  · exact Told.refl.pushRaw e 0

theorem State.hq_pushMirrored (e : CEntry) :
    (s.pushMirrored e).hq e.queue = (s.hq e.queue).joined e s.inSync.toNat := by
  unfold State.pushMirrored
  split
  next paired =>
    have same : (s.tell (.queue (s.qMirror e))).hq e.queue = s.hq e.queue := by
      rw [State.hq, (congrArg State.hqs (State.tell_told (s := s) (.queue (s.qMirror e))) :), State.hq]
    rw [State.hq_pushRaw, same, paired, Bool.toNat_true]
  next alone =>
    rw [State.hq_pushRaw, Bool.eq_false_iff.2 alone, Bool.toNat_false]

/-- An entry whose queue holds none that waits for its job joins the queue's entries (R614, R620). -/
theorem State.settleEntry_of_none {e : CEntry} (gen : e.gen = s.qGen e.queue) (none_ : ∀ y ∈ (s.hq e.queue).waiting, y.2 ≠ 2) :
    s.settleEntry e = s.pushRaw e 0 := by
  unfold State.settleEntry
  have missing : (s.hq e.queue).waiting.findIdx?
      (fun y => y.2 == 2 && y.1.typ == e.typ && y.1.seq == e.seq && y.1.gen == e.gen) = none := by
    refine List.findIdx?_eq_none_iff.2 fun y mem => ?_
    simp [none_ y mem]
  simp only [missing]
  exact if_neg (not_not.2 gen)

end

end Sys2Proof.Machine
end

section
/-!
SUPPORT. Verification and acceptance of jobs (R304, R305, R611).
-/
namespace Sys2Proof.Machine

section
variable {s t u : State} {j : Nat} {x : Job}

/-! ### Leaf bits (R432) -/

/-- From s to t table entries in the reservoir have been written, and the block has recorded and reported. -/
def Locked (s t : State) : Prop := ∃ m, Noted { s with reservoir := m } t

theorem Locked.refl : Locked s s := ⟨s.reservoir, .refl⟩

theorem Noted.setReservoir (h : Noted s t) (m : Mem) : Noted { s with reservoir := m } { t with reservoir := m } where
  frame := (congrArg (fun x : State => { x with reservoir := m }) h.frame :)
  low := h.low

theorem Locked.trans (h : Locked s t) (k : Locked t u) : Locked s u := by
  obtain ⟨m, h⟩ := h
  obtain ⟨m', k⟩ := k
  exact ⟨m', (h.setReservoir m').trans k⟩

theorem Locked.jobs (h : Locked s t) : t.jobs = s.jobs := h.elim fun _ noted => noted.jobs
theorem Locked.jn (h : Locked s t) : t.jn = s.jn := h.elim fun _ noted => noted.jn

theorem Locked.now (h : Locked s t) : t.now = s.now :=
  h.elim fun _ noted => congrArg BitVec.toNat (noted.low rPmTimebase (by decide))

theorem Locked.memories (h : Locked s t) :
    t.cistern = s.cistern ∧ t.aquifer = s.aquifer ∧ t.hostMem = s.hostMem := by
  obtain ⟨m, noted⟩ := h
  obtain ⟨cistern, -, aquifer, host, -, -⟩ := noted.sameMem
  exact ⟨cistern, aquifer, host⟩

theorem State.leafBit_locked (bit : Nat) (v : Bool) (at_ : Nat) : Locked s (s.leafBit bit v at_) := by
  unfold State.leafBit
  split
  · exact ⟨_, .refl⟩
  · exact ⟨_, State.noteGuard_noted ..⟩
  · exact ⟨_, State.noteTier_noted ..⟩
  · exact ⟨_, .refl⟩

theorem State.lock_locked (l : List Nat) : Locked s (s.lock l) :=
  List.foldlRecOn (motive := Locked s) _ _ .refl fun _ h _ _ => h.trans (State.leafBit_locked ..)

theorem State.unlock_locked (l : List Nat) : Locked s (s.unlock l) :=
  List.foldlRecOn (motive := Locked s) _ _ .refl fun _ h _ _ => h.trans (State.leafBit_locked ..)

/-! ### Verification (R304, R305, R611) -/

/-- The loader's tables are a matter of the job and of the entries that it locks (R187, R301, R432). -/
theorem State.loadTables_eq : ∃ u f, Locked s u ∧ s.loadTables j x = u.modJob j f := ⟨_, _, State.lock_locked _, rfl⟩

theorem State.passJob_leaves (job : s.job j = some x) :
    (∃ y, (s.passJob j x).job j = some y ∧ y.phase = .accepting ∧ y.tbAccept = s.now)
    ∧ (s.passJob j x).jn.joining = s.jn.joining ++ [x.acceptRec s.now]
    ∧ (∀ i, i ≠ j → (s.passJob j x).job i = s.job i)
    ∧ (s.passJob j x).cistern = s.cistern ∧ (s.passJob j x).aquifer = s.aquifer
    ∧ (s.passJob j x).hostMem = s.hostMem := by
  obtain ⟨u, f, locked, loaded⟩ := State.loadTables_eq (s := s) (j := j) (x := x)
  obtain ⟨cistern, aquifer, host⟩ := locked.memories
  have now : u.now = s.now := locked.now
  unfold State.passJob
  rw [loaded]
  extract_lets rec_ recorded accepted e
  have same : ∀ i, u.job i = s.job i := fun i => congrArg (·[i]?) locked.jobs
  have before : Answered accepted (if accepted.inSync = true then accepted.promise rec_ e else accepted) := by
    split
    · exact State.promise_answered ..
    · exact Told.refl.answered
  have job_eq : ∀ i, (if accepted.inSync = true then accepted.promise rec_ e else accepted).job i = accepted.job i :=
    fun i => congrArg (·[i]?) before.jobs
  obtain ⟨cis, -, aq, ho, -, -⟩ := before.sameMem
  refine ⟨?_, ?_, fun i other => ?_, cis.trans cistern, aq.trans aquifer, ho.trans host⟩
  · rw [job_eq]
    exact ⟨_, State.job_modJob (State.job_modJob ((same j).trans job) f) _, rfl, now⟩
  · rw [before.jn]
    exact congrArg (·.joining ++ [rec_]) locked.jn
  · rw [job_eq]
    exact ((State.job_modJob_ne other _).trans (State.job_modJob_ne other _)).trans (same i)

theorem exec_jobLoaderVerify (job : s.job j = some x) (phase : x.phase = .verifying)
    (ready : (s.jobFinds x).all (fun f => f.cls != 3) = true) :
    exec (.jobLoaderVerify j) s = .next (match verdict (s.jobFinds x) with
      | some f => ((s.noteFinds x.root (s.jobFinds x)).modJob j (fun y => { y with phase := .committed })).reject x.queue
          x.gen x.seq f.status f.code f.addr
      | none => s.passJob j x) := by
  have found : (s.jobFinds x).find? (fun f => f.cls == 3) = none :=
    List.find?_eq_none.2 fun f mem => by simpa using List.all_eq_true.1 ready f mem
  change execJobLoaderVerify j s = _
  simp only [execJobLoaderVerify, job, needSome_some, phase, decide_true, found]
  rfl

/-- The entry that answers a rejected submission (R304, R614). -/
def rejection (q g n status reason addr : Nat) : CEntry :=
  { typ := 2, gen := g, status := status, reason := reason, seq := n, queue := q, addr := addr }

/-- A rejection is noted in the registers of the loader, and its answer joins the queue's entries (R304, R306, R607). -/
theorem State.reject_leaves (q g n status reason addr : Nat) :
    (s.reject q g n status reason addr).hq q = (s.hq q).joined (rejection q g n status reason addr) s.inSync.toNat
    ∧ (s.reject q g n status reason addr).jobs = s.jobs ∧ (s.reject q g n status reason addr).jn = s.jn
    ∧ sameMem s (s.reject q g n status reason addr) := by
  have noted : OnlyRegs s (s.noteReject q g n status reason addr) := by
    unfold State.noteReject
    extract_lets first latched
    have hLatched : OnlyRegs s latched := s.onlyRegs_latch ..
    exact hLatched.setReg.ite hLatched
  have paired : (s.noteReject q g n status reason addr).inSync = s.inSync := by
    have same : (s.noteReject q g n status reason addr).reg rTlPairStatus = s.reg rTlPairStatus := by
      unfold State.noteReject
      extract_lets first latched
      have hLatched : latched.reg rTlPairStatus = s.reg rTlPairStatus := State.reg_latch_ne _ _ (by decide)
      split
      · exact (State.reg_setReg_ne _ _ (by decide)).trans hLatched
      · exact hLatched
    exact congrArg (bitsOf · 63 60 == 3) same
  obtain ⟨regs, e⟩ := noted
  have answered := State.pushMirrored_answered (s := s.noteReject q g n status reason addr)
    (rejection q g n status reason addr)
  refine ⟨?_, answered.jobs.trans ?_, answered.jn.trans ?_, OnlyRegs.sameMem ⟨regs, e⟩ |>.trans answered.sameMem⟩
  · rw [State.reject, State.hq_pushMirrored, paired, e]
    rfl
  · rw [e]
  · rw [e]

theorem jobLoaderVerify_accepts (job : s.job j = some x) (phase : x.phase = .verifying)
    (ready : (s.jobFinds x).all (fun f => f.cls != 3) = true) (clean : verdict (s.jobFinds x) = none) :
    exec (.jobLoaderVerify j) s = .next (s.passJob j x) := by
  rw [exec_jobLoaderVerify job phase ready, clean]

theorem jobLoaderVerify_rejects {f : Find} (job : s.job j = some x) (phase : x.phase = .verifying)
    (ready : (s.jobFinds x).all (fun f => f.cls != 3) = true) (found : verdict (s.jobFinds x) = some f) :
    ∃ t, exec (.jobLoaderVerify j) s = .next t ∧ t.job j = some { x with phase := .committed }
      ∧ t.hq x.queue = (s.hq x.queue).joined (rejection x.queue x.gen x.seq f.status f.code f.addr) s.inSync.toNat
      ∧ t.jn = s.jn ∧ sameMem s t := by
  obtain ⟨noted, paired⟩ := s.noteFinds_leaves x.root (State.jobFinds_nameable (s := s) (x := x))
  have run := exec_jobLoaderVerify job phase ready
  rw [found] at run
  obtain ⟨entries, jobs, jn, mem⟩ := State.reject_leaves
    (s := (s.noteFinds x.root (s.jobFinds x)).modJob j (fun y => { y with phase := .committed }))
    x.queue x.gen x.seq f.status f.code f.addr
  refine ⟨_, run, ?_, ?_, jn.trans noted.jn, noted.sameMem.trans mem⟩
  · have job' : (s.noteFinds x.root (s.jobFinds x)).job j = some x := (congrArg (·[j]?) noted.jobs).trans job
    exact (congrArg (·[j]?) jobs).trans (State.job_modJob job' _)
  · have queue : (s.noteFinds x.root (s.jobFinds x)).hq x.queue = s.hq x.queue := by
      rw [State.hq, noted.hqs, State.hq]
    have sync : (s.noteFinds x.root (s.jobFinds x)).inSync = s.inSync := congrArg (bitsOf · 63 60 == 3) paired
    rw [entries]
    exact congrArg₂ (fun y b => HostQ.joined y _ (Bool.toNat b)) queue sync

/-! ### Acceptance (R611) -/

theorem State.fld_pushRaw (e : CEntry) (wait o hi lo : Nat) : (s.pushRaw e wait).fld o hi lo = s.fld o hi lo := rfl

theorem State.hq_setFld (o hi lo v q : Nat) : (s.setFld o hi lo v).hq q = s.hq q := rfl

theorem State.hq_modJob (f : Job → Job) (q : Nat) : (s.modJob j f).hq q = s.hq q := rfl

/-- From s to t jobs, registers and the entries of the queues have changed. -/
def Scheduled (s t : State) : Prop := { t with jobs := s.jobs, regs := s.regs, hqs := s.hqs } = s

theorem Scheduled.refl : Scheduled s s := rfl
theorem Scheduled.modJob (h : Scheduled s t) (j : Nat) (f : Job → Job) : Scheduled s (t.modJob j f) := h
theorem Scheduled.setFld (h : Scheduled s t) (o hi lo v : Nat) : Scheduled s (t.setFld o hi lo v) := h
theorem Scheduled.pushRaw (h : Scheduled s t) (e : CEntry) (wait : Nat) : Scheduled s (t.pushRaw e wait) := h

/-- The ACCEPT entry of a job accepted at a time (R614). -/
def Job.acceptEntry (x : Job) (tb : Nat) : CEntry :=
  { typ := 1, gen := x.gen, seq := x.seq, queue := x.queue, tbAccept := tb }

/-- The state in which job j has taken place n of the list, its sequence number accepted (R611 order 4). -/
def State.listed (s : State) (j : Nat) (x : Job) (n : Nat) : State :=
  (s.modJob j (fun y => { y with phase := .waiting, order := n, tbAccept := s.now })).setFld (rQLast x.queue) 63 32 x.seq

theorem exec_jobAccept (job : s.job j = some x) (phase : x.phase = .accepting) (durable : x.durable = true)
    (alone : s.inSync = false) (unmirrored : x.mirrored = false) (may : s.mayCommit = true)
    (gen : x.gen = s.qGen x.queue) : exec (.jobAccept j) s =
      .next (((s.listed j x ((s.jobs.filter (fun y => y.order != 0)).length + 1)).settleEntry
        (x.acceptEntry s.now)).syncOpen) := by
  have accepting : (decide (x.phase = .accepting) && x.durable && (!s.inSync || x.mirrored) && s.mayCommit) = true := by
    simp [phase, durable, alone, may]
  have own : (if x.mirrored then x.tbAccept else s.now) = s.now := if_neg (Bool.eq_false_iff.1 unmirrored)
  change execJobAccept j s = _
  rw [execJobAccept, job, needSome_some, need_of accepting, own]
  exact congrArg (fun w : State => Host.Outcome.next ((w.settleEntry (x.acceptEntry s.now)).syncOpen)) (if_pos gen)

theorem jobAccept_accepts (job : s.job j = some x) (phase : x.phase = .accepting) (durable : x.durable = true)
    (alone : s.inSync = false) (unmirrored : x.mirrored = false) (may : s.mayCommit = true)
    (gen : x.gen = s.qGen x.queue) (none_ : ∀ e ∈ (s.hq x.queue).waiting, e.2 ≠ 2) :
    ∃ t, exec (.jobAccept j) s = .next t
      ∧ t.job j = some { x with phase := .waiting, order := (s.jobs.filter (fun y => y.order != 0)).length + 1,
                                tbAccept := s.now }
      ∧ t.fld (rQLast x.queue) 63 32 = x.seq % 2 ^ 32
      ∧ t.hq x.queue = (s.hq x.queue).joined (x.acceptEntry s.now) 0
      ∧ { t with jobs := s.jobs, regs := s.regs, hqs := s.hqs } = s := by
  have run := exec_jobAccept job phase durable alone unmirrored may gen
  generalize (s.jobs.filter (fun y => y.order != 0)).length + 1 = n at run ⊢
  have gen' : (x.acceptEntry s.now).gen = (s.listed j x n).qGen x.queue := by
    rw [State.qGen, State.listed, State.fld_setFld_ne _ _ _ _ _ _ (by simp only [rQStatus, rQLast]; omega)]
    exact gen
  have queue : (s.listed j x n).hq x.queue = s.hq x.queue := by
    rw [State.listed, State.hq_setFld, State.hq_modJob]
  have none' : ∀ e ∈ ((s.listed j x n).hq x.queue).waiting, e.2 ≠ 2 := by rwa [queue]
  rw [State.settleEntry_of_none gen' none'] at run
  have apart : rQLast x.queue ≠ rJnStat := by
    simp only [rQLast, rJnStat]
    omega
  refine ⟨_, run, ?_, ?_, ?_, ?_⟩
  · rw [State.job, State.syncOpen, State.setFld_jobs, State.pushRaw, State.setHq_jobs, State.listed, State.setFld_jobs]
    exact State.job_modJob job _
  · rw [State.syncOpen, State.fld_setFld_ne _ _ _ _ _ _ apart, State.fld_pushRaw, State.listed,
      State.fld_setFld _ _ _ _ _ (by decide) (by decide)]
  · rw [State.syncOpen, State.hq_setFld]
    exact (State.hq_pushRaw (x.acceptEntry s.now) 0).trans (congrArg (HostQ.joined · _ 0) queue)
  · exact (((Scheduled.refl.modJob j _).setFld _ _ _ _).pushRaw _ _).setFld _ _ _ _

end

end Sys2Proof.Machine
end

section
/-!
SUPPORT. Binding, pre-emption and quiescence of jobs (R623 to R627).
-/
namespace Sys2Proof.Machine

section
variable {s t u : State} {j w : Nat} {x : Job}

/-! ### Binding (R623 to R626) -/

/-- The first job of the list, no loss or checkpoint of it pending, binds where its wells and partition let it. -/
theorem exec_jobBind (first : s.firstJob = some j) (job : s.job j = some x) (whole : x.rebuild = false)
    (forward : x.rollback = false) (may : s.mayBind = true) : exec .jobBind s =
      if s.bindLost x then .next (s.failJob j 0x60 0)
      else
        needSome (s.bindWells [] x) 623 (fun wells =>
          need (wells.all s.wellAwake) 712 (
            if x.phase = .preempted then s.startOr s j (s.rebind j x) else s.bindNew j x wells)) := by
  have ready : (!x.rebuild && !x.rollback && s.mayBind) = true := by simp [whole, forward, may]
  change execJobBind s = _
  rw [execJobBind, first, needSome_some, job, needSome_some, need_of ready]

theorem jobBind_loses (first : s.firstJob = some j) (job : s.job j = some x) (whole : x.rebuild = false)
    (forward : x.rollback = false) (may : s.mayBind = true) (lost : s.bindLost x = true) (open_ : x.status = none)
    (phase : x.phase = .waiting) : ∃ t, exec .jobBind s = .next t
      ∧ t.job j = some { x with status := some 0x60, addr := 0, phase := .stopping } ∧ sameMem s t := by
  refine ⟨_, (exec_jobBind first job whole forward may).trans (if_pos lost), ?_, State.sameMem_failJob⟩
  exact State.job_failJob job open_ (by simp [phase])

section
variable {wells : List Nat} (first : s.firstJob = some j) (job : s.job j = some x) (whole : x.rebuild = false)
  (forward : x.rollback = false) (may : s.mayBind = true) (able : s.bindLost x = false)
  (found : s.bindWells [] x = some wells) (awake : wells.all s.wellAwake = true)
include first job whole forward may able found awake

theorem exec_jobBind_found : exec .jobBind s =
    if x.phase = .preempted then s.startOr s j (s.rebind j x) else s.bindNew j x wells := by
  rw [exec_jobBind first job whole forward may, able, if_neg Bool.false_ne_true, found, needSome_some, need_of awake]

theorem jobBind_rebinds (phase : x.phase = .preempted) (done : s.rebind j x = .ok t) : exec .jobBind s = .next t := by
  rw [exec_jobBind_found first job whole forward may able found awake, if_pos phase, done]
  rfl

theorem jobBind_starts {p : Nat} (phase : x.phase ≠ .preempted) (part : s.freePart = some p)
    (done : (({ s with nextId := s.nextId + 1 }.modJob j (fun _ =>
        { x with part := some p, wells := wells, slots := wells.map (fun w => (s.freeSlot w).getD 0),
                 boundAt := s.nextId, free := x.mig.runs x.scratch wells })).setRoot p x.root true).startJob j
      { x with part := some p, wells := wells, slots := wells.map (fun w => (s.freeSlot w).getD 0),
               boundAt := s.nextId, free := x.mig.runs x.scratch wells } true = .ok t) :
    exec .jobBind s = .next t := by
  rw [exec_jobBind_found first job whole forward may able found awake, if_neg phase, State.bindNew, part, needSome_some]
  simp only [done]
  rfl

end

/-! ### Withdrawn stitches (R253) -/

/-- From s to t stitches have gone back from bobbins to deques. -/
def Withdrawn (s t : State) : Prop := { t with bobs := s.bobs, deques := s.deques } = s

theorem Withdrawn.refl : Withdrawn s s := rfl
theorem Withdrawn.trans (h : Withdrawn s t) (k : Withdrawn t u) : Withdrawn s u :=
  Eq.trans (congrArg (fun v : State => { v with bobs := s.bobs, deques := s.deques }) k :) h
theorem Withdrawn.setBob (h : Withdrawn s t) (w p : Nat) (b : Bobbin) : Withdrawn s (t.setBob w p b) := h
theorem Withdrawn.setDeque (h : Withdrawn s t) (w l : Nat) (d : List DeqEntry) : Withdrawn s (t.setDeque w l d) := h

theorem Withdrawn.requeue (h : Withdrawn s t) (w : Nat) (e : DeqEntry) : Withdrawn s (t.requeue w e) := by
  unfold State.requeue
  split
  · exact h.setDeque ..
  · exact h

theorem Withdrawn.jobs (h : Withdrawn s t) : t.jobs = s.jobs := (congrArg State.jobs h :)
theorem Withdrawn.wells (h : Withdrawn s t) : t.wells = s.wells := (congrArg State.wells h :)

theorem State.withdrawWaits_withdrawn (w : Nat) : Withdrawn s (s.withdrawWaits w) := by
  refine List.foldlRecOn (motive := Withdrawn s) _ _ .refl fun t h p _ => ?_
  extract_lets b
  split
  · exact h
  next r _ =>
    split
    · exact h
    next v _ =>
      split
      · exact h
      · split
        · exact (h.setBob ..).requeue ..
        · exact (h.setBob ..).setDeque ..

theorem State.well_withdrawWaits (v : Nat) : (s.withdrawWaits w).well v = s.well v := by
  rw [State.well, (State.withdrawWaits_withdrawn w).wells, State.well]

/-! ### Pre-emption (R624, R627) -/

@[simp] theorem State.jobs_stopCtl : (s.stopCtl w).jobs = s.jobs := by
  unfold State.stopCtl
  extract_lets y
  split <;> rfl

/-- A controller that is stopped does not run. -/
def Well.stopped (x : Well) : Prop := x.ctl ≠ .running ∧ x.ctl ≠ .stalled

theorem State.stopCtl_stopped : ((s.stopCtl w).well w).stopped := by
  unfold State.stopCtl
  extract_lets y
  split
  · rw [State.well_setWell]
    exact ⟨nofun, nofun⟩
  next idle => exact not_or.1 idle

theorem State.well_stopCtl_ne {v : Nat} (other : v ≠ w) : (s.stopCtl w).well v = s.well v := by
  unfold State.stopCtl
  extract_lets y
  split
  · exact s.well_setWell_ne _ other
  · rfl

/-- The controllers of the wells of a list stopped, and their waiting stitches withdrawn (R627). -/
def State.stopWells (s : State) (l : List Nat) : State := l.foldl (fun t w => (t.stopCtl w).withdrawWaits w) s

theorem State.stopWells_cons (l : List Nat) :
    s.stopWells (w :: l) = ((s.stopCtl w).withdrawWaits w).stopWells l :=
  List.foldl_cons ..

theorem State.jobs_stopWells (l : List Nat) : (s.stopWells l).jobs = s.jobs :=
  List.foldlRecOn (motive := fun t : State => t.jobs = s.jobs) _ _ rfl fun _ h _ _ =>
    ((State.withdrawWaits_withdrawn _).jobs.trans State.jobs_stopCtl).trans h

theorem State.well_stopWells_of_not_mem {l : List Nat} {v : Nat} (out : v ∉ l) : (s.stopWells l).well v = s.well v := by
  induction l generalizing s with
  | nil => rfl
  | cons w l ih =>
    obtain ⟨other, out⟩ := not_or.1 (mt List.mem_cons.2 out)
    rw [State.stopWells_cons, ih out, State.well_withdrawWaits, State.well_stopCtl_ne other]

theorem State.stopWells_stopped {l : List Nat} {v : Nat} (h : v ∈ l ∨ (s.well v).stopped) :
    ((s.stopWells l).well v).stopped := by
  induction l generalizing s with
  | nil => exact h.resolve_left (List.not_mem_nil)
  | cons w l ih =>
    rw [State.stopWells_cons]
    by_cases own : v ∈ l
    · exact ih (.inl own)
    · refine ih (.inr ?_)
      rw [State.well_withdrawWaits]
      by_cases same : v = w
      · rw [same]
        exact State.stopCtl_stopped
      · rw [State.well_stopCtl_ne same]
        exact h.resolve_left (mt List.mem_cons.1 (not_or.2 ⟨same, own⟩))

/-- The state of a pre-empted job's wells before its sessions pause (R627 orders 1 to 6). -/
def State.preempting (s : State) (j : Nat) (x : Job) : State :=
  (s.modJob j (fun y => { y with phase := .preempting, cp := none, stopFor := s.firstJob })).stopWells x.wells

theorem preemption_pauses (job : s.job j = some x) (phase : x.phase = .running)
    (due : x.rebuild = true ∨ x.rollback = true ∨ j ∈ s.toPreempt)
    (done : (s.preempting j x).pauseSessions j true = .ok t) : exec (.preemption j) s = .next t := by
  have ready : (decide (x.phase = .running) && (x.rebuild || x.rollback || s.toPreempt.contains j)) = true := by
    simpa [phase, or_assoc] using due
  change execPreemption j s = _
  rw [execPreemption, job, needSome_some, need_of ready]
  exact congrArg (s.preempting j x |>.startOr s j) done

theorem State.job_preempting (job : s.job j = some x) :
    (s.preempting j x).job j = some { x with phase := .preempting, cp := none, stopFor := s.firstJob } := by
  rw [State.job, State.preempting, State.jobs_stopWells]
  exact State.job_modJob job _

theorem State.preempting_stopped {v : Nat} (h : v ∈ x.wells) : ((s.preempting j x).well v).stopped :=
  State.stopWells_stopped (.inl h)

theorem State.well_preempting {v : Nat} (h : v ∉ x.wells) : (s.preempting j x).well v = s.well v :=
  State.well_stopWells_of_not_mem h

/-! ### Quiescence (R627 order 8) -/

/-- From s to t pumps have been suspended, stitches have gone back to deques, and wells have been saved. -/
def Saved (s t : State) : Prop :=
  { t with regs := s.regs, bobs := s.bobs, deques := s.deques, susp := s.susp, pumps := s.pumps, wells := s.wells,
           savedWells := s.savedWells, savedDeques := s.savedDeques } = s

theorem Saved.refl : Saved s s := rfl

theorem Withdrawn.saved (h : Withdrawn s t) : Saved s t :=
  (congrArg (fun v : State => { v with regs := s.regs, susp := s.susp, pumps := s.pumps, wells := s.wells,
                                       savedWells := s.savedWells, savedDeques := s.savedDeques }) h :)

theorem Saved.trans (h : Saved s t) (k : Saved t u) : Saved s u :=
  Eq.trans (congrArg (fun v : State =>
    { v with regs := s.regs, bobs := s.bobs, deques := s.deques, susp := s.susp, pumps := s.pumps, wells := s.wells,
             savedWells := s.savedWells, savedDeques := s.savedDeques }) k :) h

theorem Saved.jobs (h : Saved s t) : t.jobs = s.jobs := (congrArg State.jobs h :)
theorem Saved.sameMem (h : Saved s t) : sameMem s t :=
  ⟨(congrArg State.cistern h :), (congrArg State.reservoir h :), (congrArg State.aquifer h :),
    (congrArg State.hostMem h :), (congrArg State.boot h :), (congrArg State.recovery h :)⟩

theorem Saved.setSusp (h : Saved s t) (susp : Tab (List Pump)) : Saved s { t with susp := susp } := h
theorem Saved.setWell (h : Saved s t) (w : Nat) (y : Well) : Saved s (t.setWell w y) := h
theorem Saved.setPump (h : Saved s t) (w n : Nat) (p : Pump) : Saved s (t.setPump w n p) := h
theorem Saved.setFld (h : Saved s t) (o hi lo v : Nat) : Saved s (t.setFld o hi lo v) := h
theorem Saved.freePump (h : Saved s t) (w n : Nat) : Saved s (t.freePump w n) := (h.setPump w n {}).setFld _ _ _ _
theorem Saved.incFld (h : Saved s t) (o hi lo n : Nat) : Saved s (t.incFld o hi lo n) := h

theorem State.suspendPump_saved (w n : Nat) : Saved s (s.suspendPump w n) := by
  unfold State.suspendPump
  extract_lets p k q
  split
  · exact ((Saved.refl.setSusp _).freePump ..).incFld ..
  · rfl

theorem State.wells_suspendPump (w n : Nat) : (s.suspendPump w n).wells = s.wells := by
  unfold State.suspendPump
  extract_lets p k q
  split
  · rw [State.incFld_wells, State.freePump, State.setFld_wells, State.setPump_wells]
  · rfl

/-- The pumps of well w suspended and its waiting stitches withdrawn (R458, R473). -/
def State.suspendWell (s : State) (w : Nat) : State :=
  (List.range 8).foldl (fun t n => t.suspendPump w n) (s.withdrawWaits w)

theorem State.suspendWell_saved (w : Nat) : Saved s (s.suspendWell w) :=
  List.foldlRecOn (motive := Saved s) _ _ (State.withdrawWaits_withdrawn w).saved fun _ h _ _ =>
    h.trans (State.suspendPump_saved ..)

theorem State.well_suspendWell (v : Nat) : (s.suspendWell w).well v = s.well v := by
  have wells : (s.suspendWell w).wells = s.wells :=
    List.foldlRecOn (motive := fun t : State => t.wells = s.wells) _ _ (State.withdrawWaits_withdrawn w).wells
      fun _ h _ _ => (State.wells_suspendPump ..).trans h
  rw [State.well, wells, State.well]

/-- The state with the saved wells and deques, and the deques, replaced. -/
def State.withSaved (s : State) (wells : Tab Well) (saved deques : Tab (List DeqEntry)) : State :=
  { s with savedWells := wells, savedDeques := saved, deques := deques }

theorem Saved.withSaved (h : Saved s t) (wells : Tab Well) (saved deques : Tab (List DeqEntry)) :
    Saved s (t.withSaved wells saved deques) := h

theorem State.well_withSaved (wells : Tab Well) (saved deques : Tab (List DeqEntry)) (v : Nat) :
    (s.withSaved wells saved deques).well v = s.well v := rfl

theorem State.saveWell_eq (w k : Nat) : ∃ wells saved deques,
    s.saveWell w k = ((s.suspendWell w).withSaved wells saved deques).setWell w ((s.suspendWell w).well w).bare :=
  ⟨_, _, _, rfl⟩

theorem State.saveWell_saved (w k : Nat) : Saved s (s.saveWell w k) := by
  obtain ⟨wells, saved, deques, e⟩ := s.saveWell_eq w k
  rw [e]
  exact ((State.suspendWell_saved w).withSaved ..).setWell ..

theorem State.job_well_saveWell (k : Nat) : ((s.saveWell w k).well w).job = none := by
  obtain ⟨wells, saved, deques, e⟩ := s.saveWell_eq w k
  rw [e, State.well_setWell]
  rfl

theorem State.well_saveWell_ne {v : Nat} (k : Nat) (other : v ≠ w) : (s.saveWell w k).well v = s.well v := by
  obtain ⟨wells, saved, deques, e⟩ := s.saveWell_eq w k
  rw [e, State.well_setWell_ne _ _ other, State.well_withSaved]
  exact State.well_suspendWell v

/-- The wells of a list that are job j's saved in their slots (R279, R324, R457). -/
def State.saveWells (s : State) (j : Nat) (l : List (Nat × Nat)) : State :=
  l.foldl (fun t e => if (t.well e.1).job = some j then t.saveWell e.1 e.2 else t) s

theorem State.saveWells_cons (e : Nat × Nat) (l : List (Nat × Nat)) : s.saveWells j (e :: l) =
    (if (s.well e.1).job = some j then s.saveWell e.1 e.2 else s).saveWells j l :=
  List.foldl_cons ..

theorem State.saveWells_saved (l : List (Nat × Nat)) : Saved s (s.saveWells j l) := by
  refine List.foldlRecOn (motive := Saved s) _ _ .refl fun t h e _ => ?_
  split
  · exact h.trans (State.saveWell_saved ..)
  · exact h

theorem State.well_saveWells_of_not_mem {l : List (Nat × Nat)} {v : Nat} (out : ∀ e ∈ l, v ≠ e.1) :
    (s.saveWells j l).well v = s.well v := by
  refine List.foldlRecOn (motive := fun t : State => t.well v = s.well v) _ _ rfl fun t h e mem => ?_
  split
  · exact (State.well_saveWell_ne _ (out e mem)).trans h
  · exact h

theorem State.saveWells_frees {l : List (Nat × Nat)} {v : Nat} (h : (∃ e ∈ l, v = e.1) ∨ (s.well v).job ≠ some j) :
    ((s.saveWells j l).well v).job ≠ some j := by
  induction l generalizing s with
  | nil => exact h.resolve_left nofun
  | cons e l ih =>
    rw [State.saveWells_cons]
    refine ih ?_
    by_cases later : ∃ e' ∈ l, v = e'.1
    · exact .inl later
    · right
      by_cases same : v = e.1
      · rw [same]
        split
        · rw [State.job_well_saveWell]
          nofun
        next foreign_ => exact foreign_
      · have before : (s.well v).job ≠ some j := h.resolve_left fun ⟨e', mem, at_⟩ =>
          (List.mem_cons.1 mem).elim (fun own => same (own ▸ at_)) fun mem => later ⟨e', mem, at_⟩
        split
        · rwa [State.well_saveWell_ne _ same]
        · exact before

theorem partitionQuiescent_frees (job : s.job j = some x) (phase : x.phase = .preempting) (still : s.still j x = true) :
    ∃ t, exec (.partitionQuiescent j) s = .next t ∧ t.job j = some { x with phase := .preempted } ∧ sameMem s t
      ∧ (∀ e ∈ x.wells.zip x.slots, (t.well e.1).job ≠ some j) ∧ ∀ w, w ∉ x.wells → t.well w = s.well w := by
  have ready : (decide (x.phase = .preempting) && s.still j x) = true := by simp [phase, still]
  have run : exec (.partitionQuiescent j) s =
      .next ((s.saveWells j (x.wells.zip x.slots)).modJob j (fun y => { y with phase := .preempted })) := by
    change execPartitionQuiescent j s = _
    rw [execPartitionQuiescent, job, needSome_some, need_of ready]
    rfl
  have saved : Saved s (s.saveWells j (x.wells.zip x.slots)) := State.saveWells_saved _
  refine ⟨_, run, State.job_modJob ((congrArg (·[j]?) saved.jobs).trans job) _, saved.sameMem,
    fun e mem => State.saveWells_frees (.inl ⟨e, mem, rfl⟩), fun w out => State.well_saveWells_of_not_mem ?_⟩
  rintro e mem rfl
  exact out (List.of_mem_zip mem).1

end

end Sys2Proof.Machine
end

section
/-!
SUPPORT. Aborts of jobs, and the COMPLETE entries of durable ends (R613 to R615, R628).
-/
namespace Sys2Proof.Machine

section
variable {s t u : State} {j : Nat} {x : Job} {v : Word}

/-! ### The COMPLETE entry (R614, R615) -/

theorem exec_jobEndCommit_durable (job : s.job j = some x) (phase : x.phase = .ended) (durable : x.commitDurable = true)
    (mirrored : x.commitMirrored = true) (may : s.mayCommit = true) :
    exec (.jobEndCommit j) s = .next (s.completeJob j x).tryHandback := by
  have ready : (decide (x.phase = .ended) && x.commitDurable && (x.commitMirrored || !s.inSync) && s.mayCommit) = true := by
    simp [phase, durable, mirrored, may]
  have working : x.phase ≠ .stopping := by simp [phase]
  change execJobEndCommit j s = _
  rw [execJobEndCommit, job, needSome_some, if_neg working, need_of ready]

theorem State.tryHandback_of_not (idle : s.pair.handback = false) : s.tryHandback = s := by
  unfold State.tryHandback
  exact if_neg (by simp [idle])

theorem State.completeJob_eq (gen : x.gen = s.qGen x.queue) (none_ : ∀ e ∈ (s.hq x.queue).waiting, e.2 ≠ 2) :
    s.completeJob j x = (s.modJob j (fun y => { y with phase := .committed })).pushRaw
      (x.completeEntry ((s.jn.find 2 x.queue x.gen x.seq).elim s.now JRec.tb)) 0 := by
  unfold State.completeJob
  exact State.settleEntry_of_none gen none_

theorem State.pair_pushRaw (e : CEntry) (wait : Nat) : (s.pushRaw e wait).pair = s.pair := rfl

theorem State.pair_modJob (f : Job → Job) : (s.modJob j f).pair = s.pair := rfl

theorem jobEndCommit_completes (job : s.job j = some x) (phase : x.phase = .ended) (durable : x.commitDurable = true)
    (mirrored : x.commitMirrored = true) (may : s.mayCommit = true) (idle : s.pair.handback = false)
    (gen : x.gen = s.qGen x.queue) (none_ : ∀ e ∈ (s.hq x.queue).waiting, e.2 ≠ 2) :
    ∃ t, exec (.jobEndCommit j) s = .next t ∧ t.job j = some { x with phase := .committed }
      ∧ t.hq x.queue = (s.hq x.queue).joined
          (x.completeEntry ((s.jn.find 2 x.queue x.gen x.seq).elim s.now JRec.tb)) 0
      ∧ { t with jobs := s.jobs, hqs := s.hqs } = s := by
  have run := exec_jobEndCommit_durable job phase durable mirrored may
  rw [State.completeJob_eq gen none_, State.tryHandback_of_not (by rwa [State.pair_pushRaw, State.pair_modJob])] at run
  refine ⟨_, run, ?_, State.hq_pushRaw (x.completeEntry _) 0, ?_⟩
  · rw [State.job, State.pushRaw, State.setHq_jobs]
    exact State.job_modJob job _
  · rfl

/-! ### Abort (R628) -/

/-- The accepted jobs that have not ended which an abort names (R628). -/
def Job.abortedBy (x : Job) (v : Word) : Prop :=
  x.queue = bitsOf v 51 46 ∧ x.gen = bitsOf v 59 52 ∧ x.seq = bitsOf v 31 0
    ∧ x.status = none ∧ (x.phase = .waiting ∨ x.phase = .running ∨ x.phase = .preempting ∨ x.phase = .preempted)

/-- Whether an abort names a job. -/
def Job.hitBy (v : Word) (x : Job) : Bool :=
  x.queue == bitsOf v 51 46 && x.gen == bitsOf v 59 52 && x.seq == bitsOf v 31 0 && x.status.isNone
    && decide (x.phase = .waiting ∨ x.phase = .running ∨ x.phase = .preempting ∨ x.phase = .preempted)

theorem Job.hitBy_iff : x.hitBy v = true ↔ x.abortedBy v := by
  simp only [Job.hitBy, Job.abortedBy, Bool.and_eq_true, beq_iff_eq, decide_eq_true_eq, Option.isNone_iff_eq_none,
    and_assoc]

/-- The state in which Q_ABORT holds the tag of an abort, its result 0 (R628). -/
def State.aborting (s : State) (v : Word) : State := s.setReg rQAbort (v &&& 0x0FFFC000FFFFFFFF#64)

theorem State.result_aborting : (s.aborting v).fld rQAbort 62 61 = 0 := by
  have clear : (0x0FFFC000FFFFFFFF#64).toNat >>> 61 = 0 := by decide
  rw [State.fld, State.aborting, State.reg_setReg, bitsOf, BitVec.toNat_and, Nat.shiftRight_and_distrib, clear,
    Nat.and_zero, Nat.zero_mod]

theorem exec_queueAbort (op : bitOf v 60 = true) : exec (.queueAbort v) s =
    .next (match s.jobs.findIdx? (Job.hitBy v) with
      | some j => (s.aborting v).failJob j 0x50 0
      | none => (s.aborting v).setFld rQAbort 62 61 1) := by
  change execQueueAbort v s = _
  rw [execQueueAbort, need_of op]
  rfl

theorem queueAbort_misses (op : bitOf v 60 = true) (none_ : ∀ i x, s.job i = some x → ¬x.abortedBy v) :
    ∃ t, exec (.queueAbort v) s = .next t ∧ t.fld rQAbort 62 61 = 1 ∧ { t with regs := s.regs } = s := by
  have missing : s.jobs.findIdx? (Job.hitBy v) = none := by
    refine List.findIdx?_eq_none_iff.2 fun x mem => Bool.eq_false_iff.2 fun hit => ?_
    obtain ⟨i, job⟩ := List.mem_iff_getElem?.1 mem
    exact none_ i x job (Job.hitBy_iff.1 hit)
  have run := exec_queueAbort (s := s) op
  rw [missing] at run
  refine ⟨_, run, State.fld_setFld _ _ _ _ _ (by decide) (by decide), ?_⟩
  exact OnlyRegs.frame (OnlyRegs.refl.setReg.setFld)

theorem queueAbort_stops (op : bitOf v 60 = true) (job : s.job j = some x) (hit : x.abortedBy v)
    (first : ∀ i y, i < j → s.job i = some y → ¬y.abortedBy v) :
    ∃ t, exec (.queueAbort v) s = .next t ∧ t.fld rQAbort 62 61 = 0 ∧ sameMem s t
      ∧ t.job j = some { x with status := some 0x50, addr := 0, phase := .stopping }
      ∧ ∀ i, i ≠ j → t.job i = s.job i := by
  have found : s.jobs.findIdx? (Job.hitBy v) = some j := by
    obtain ⟨lt, at_⟩ := List.getElem?_eq_some_iff.1 job
    refine List.findIdx?_eq_some_iff_getElem.2 ⟨lt, Job.hitBy_iff.2 (at_ ▸ hit), fun i before => ?_⟩
    exact fun hit' => first i _ before (List.getElem?_eq_getElem (before.trans lt)) (Job.hitBy_iff.1 hit')
  have run := exec_queueAbort (s := s) op
  rw [found] at run
  obtain ⟨-, -, -, none_yet, phase⟩ := hit
  have open_ : x.phase ≠ .committed := by
    rintro ended
    simp [ended] at phase
  have job' : (s.aborting v).job j = some x := job
  refine ⟨_, run, ?_, (OnlyRegs.refl.setReg.sameMem).trans State.sameMem_failJob, State.job_failJob job' none_yet open_,
    fun i other => ?_⟩
  · rw [State.fld, State.reg_failJob]
    exact State.result_aborting
  · rw [State.job, State.jobs_failJob job' none_yet open_]
    exact State.job_modJob_ne other _

end

end Sys2Proof.Machine
end

section
/-!
SUPPORT. What the end of a job leaves of it (R465, R628).
-/
namespace Sys2Proof.Machine

section
variable {s t u : State} {j : Nat} {x : Job}

/-! ### Steps of a job's end -/

/-- From s to t no status that a job has has changed, nor have the journal and the time base. -/
structure StatusStays (s t : State) : Prop where
  jn : t.jn = s.jn
  timebase : t.reg rPmTimebase = s.reg rPmTimebase
  kept : ∀ {j x c}, s.job j = some x → x.status = some c → ∃ y, t.job j = some y ∧ y.status = some c

theorem StatusStays.refl : StatusStays s s := ⟨rfl, rfl, fun job status => ⟨_, job, status⟩⟩

theorem StatusStays.trans (h : StatusStays s t) (k : StatusStays t u) : StatusStays s u where
  jn := k.jn.trans h.jn
  timebase := k.timebase.trans h.timebase
  kept job status := by
    obtain ⟨y, job, status⟩ := h.kept job status
    exact k.kept job status

theorem StatusStays.now (h : StatusStays s t) : t.now = s.now := congrArg BitVec.toNat h.timebase

theorem StatusStays.of_jobs (jobs : t.jobs = s.jobs) (jn : t.jn = s.jn) (timebase : t.reg rPmTimebase = s.reg rPmTimebase) :
    StatusStays s t :=
  ⟨jn, timebase, fun job status => ⟨_, (congrArg (·[_]?) jobs).trans job, status⟩⟩

theorem StatusStays.of_regs (jobs : t.jobs = s.jobs) (jn : t.jn = s.jn) (regs : t.regs = s.regs) : StatusStays s t :=
  .of_jobs jobs jn (by rw [State.reg, regs, State.reg])

theorem StatusStays.foldl {α : Type} {f : State → α → State} (hf : ∀ t a, StatusStays t (f t a)) (l : List α) (s : State) :
    StatusStays s (l.foldl f s) :=
  List.foldlRecOn (motive := StatusStays s) _ _ .refl fun t h a _ => h.trans (hf t a)

theorem Noted.statusStays (h : Noted s t) : StatusStays s t := .of_jobs h.jobs h.jn (h.low _ (by decide))

theorem Locked.statusStays (h : Locked s t) : StatusStays s t :=
  h.elim fun _ noted => .of_jobs noted.jobs noted.jn (noted.low _ (by decide))

theorem Withdrawn.statusStays (h : Withdrawn s t) : StatusStays s t :=
  .of_regs h.jobs (congrArg State.jn h :) (congrArg State.regs h :)

theorem Answered.statusStays (h : Answered s t) : StatusStays s t := .of_regs h.jobs h.jn (congrArg State.regs h :)

theorem not_isAccessReg_rPmTimebase : ¬isAccessReg rPmTimebase := by
  rintro (⟨low, -⟩ | walk | dir | ⟨w, h | h | h⟩)
  · exact absurd low (by decide)
  · exact absurd walk (by decide)
  · exact absurd dir (by decide)
  all_goals exact Nat.ne_of_lt (lt_of_lt_of_le (by decide) (le_rWl w _)) h

theorem accessed.statusStays (h : accessed s t) : StatusStays s t :=
  .of_jobs h.jobs (congrArg State.jn h.1 :) (h.2.2 _ not_isAccessReg_rPmTimebase)

theorem State.setReg_statusStays {o : Nat} (v : Word) (high : rFcCtl ≤ o) : StatusStays s (s.setReg o v) :=
  (State.setReg_noted v high).statusStays

theorem State.incFld_statusStays {o : Nat} (hi lo n : Nat) (high : rFcCtl ≤ o) : StatusStays s (s.incFld o hi lo n) :=
  State.setReg_statusStays _ high

theorem State.setFld_statusStays {o : Nat} (hi lo v : Nat) (high : rFcCtl ≤ o) : StatusStays s (s.setFld o hi lo v) :=
  State.setReg_statusStays _ high

theorem State.modJob_statusStays {i : Nat} {f : Job → Job} (same : ∀ x, (f x).status = x.status) :
    StatusStays s (s.modJob i f) where
  jn := rfl
  timebase := rfl
  kept {j x c} job status := by
    by_cases own : j = i
    · subst own
      exact ⟨_, State.job_modJob job f, (same x).trans status⟩
    · exact ⟨x, (State.job_modJob_ne own f).trans job, status⟩

/-- A failure changes nothing, or the job has no status yet (R277). -/
theorem State.failJob_cases (i status addr : Nat) : s.failJob i status addr = s
    ∨ ∃ y, s.job i = some y ∧ y.status = none ∧ y.phase ≠ .committed := by
  unfold State.failJob
  cases job : s.job i with
  | none => exact .inl rfl
  | some y =>
    by_cases settled : (y.status.isSome || decide (y.phase = .committed)) = true
    · exact .inl (if_pos settled)
    · right
      simp only [Bool.or_eq_true, not_or, decide_eq_true_eq, Bool.not_eq_true, Option.isSome_eq_false_iff,
        Option.isNone_iff_eq_none] at settled
      exact ⟨y, rfl, settled⟩

/-- A job that has a status takes no other (R277). -/
theorem State.failJob_statusStays (i status addr : Nat) : StatusStays s (s.failJob i status addr) := by
  obtain same | ⟨y, own, none_yet, open_⟩ := s.failJob_cases i status addr
  · rw [same]
    exact .refl
  · obtain ⟨jobs, wells, e⟩ := s.failJob_eq (j := i) (status := status) (addr := addr)
    refine ⟨by rw [e], State.reg_failJob _, fun {j x c} job has => ⟨x, ?_, has⟩⟩
    have other : j ≠ i := by
      rintro rfl
      rw [own] at job
      cases job
      cases none_yet.symm.trans has
    rw [State.job, State.jobs_failJob own none_yet open_]
    exact (State.job_modJob_ne other _).trans job

/-! ### Bytes written -/

theorem State.rawWrite_statusStays (l : Loc) (bs : List Byte) : StatusStays s (s.rawWrite l bs) := by
  obtain ⟨tier, a⟩ := l
  cases tier <;> exact .of_regs rfl rfl rfl

theorem State.setLeaf_statusStays (at_ : Nat) (v : Word) : StatusStays s (s.setLeaf at_ v) := State.rawWrite_statusStays ..

theorem State.recountPoison_statusStays (tier : Tier) : StatusStays s (s.recountPoison tier) := by
  cases tier with
  | cistern w => exact State.setFld_statusStays _ _ _ (rFcCtl_le_rWl w _)
  | reservoir => exact State.setFld_statusStays _ _ _ (by decide)
  | aquifer => exact .refl
  | host => exact .refl

theorem State.setPoison_statusStays (poison : Tab Bool) : StatusStays s { s with poison := poison } := .of_regs rfl rfl rfl

theorem State.clearPoison_statusStays (l : Loc) (n : Nat) : StatusStays s (s.clearPoison l n) := by
  unfold State.clearPoison
  extract_lets whole poison
  split
  · exact .refl
  · exact (State.setPoison_statusStays poison).trans (State.recountPoison_statusStays _)

theorem State.writeVa_statusStays (ctx va : Nat) (bs : List Byte) : ExOk (StatusStays s) (s.writeVa ctx va bs) := by
  refine ExOk.error.ite (ExOk.foldlM (fun t r written => ExOk.bindAny fun l => ?_) .refl)
  dsimp only
  split
  · exact ExOk.error
  · exact ExOk.pure (written.trans ((State.clearPoison_statusStays ..).trans (State.rawWrite_statusStays ..)))

theorem State.writeDir_statusStays (ctx va : Nat) (bs : List Byte) : ExOk (StatusStays s) (s.writeDir ctx va bs) :=
  (State.writeVa_statusStays ctx va bs).bind fun _ h => ExOk.pure (h.trans
    ((State.wroteDir_accessed _ _).trans (State.reach_accessed _ _ _ _ _ _)).statusStays)

theorem State.setSessions_statusStays (l : List Session) : StatusStays s { s with sessions := l } := .of_regs rfl rfl rfl

theorem State.putSession_statusStays (e : Session) : ExOk (StatusStays s) (s.putSession e) := by
  intro t h
  unfold State.putSession at h
  exact (State.setSessions_statusStays _).trans (State.writeDir_statusStays _ _ _ t h)

theorem State.stopSessions_statusStays (j : Nat) : StatusStays s (s.stopSessions j) := by
  refine StatusStays.foldl (fun t e => ?_) _ s
  split
  next done => exact State.putSession_statusStays _ _ done
  · exact .refl

/-! ### Moves (R464, R465) -/

theorem Job.giveFrame_status (x : Job) (l : Loc) (n : Nat) : (x.giveFrame l n).status = x.status := by
  unfold Job.giveFrame
  split <;> rfl

theorem State.recallLoc_statusStays (l : Loc) (n : Nat) : StatusStays s (s.recallLoc l n) := by
  unfold State.recallLoc
  split
  · exact (accessed.foldl (fun t line => t.recallLine_accessed line) _ s).statusStays
  · exact .refl

theorem State.copyPage_statusStays (src dst : Loc) (n : Nat) : StatusStays s (s.copyPage src dst n) :=
  (State.clearPoison_statusStays dst n).trans (State.rawWrite_statusStays ..)

theorem rFcCtl_le_rMgKvcTier (p : Nat) : rFcCtl ≤ rMgKvcTier p := le_trans (by decide) (Nat.le_add_right 0x60200 _)
theorem rFcCtl_le_rMgKvcCnt (p : Nat) : rFcCtl ≤ rMgKvcCnt p := le_trans (by decide) (Nat.le_add_right 0x60280 _)
theorem rFcCtl_le_rTrRoot (p : Nat) : rFcCtl ≤ rTrRoot p := le_trans (by decide) (Nat.le_add_right 0x60000 _)
theorem rFcCtl_le_rVcCore (i : Nat) : rFcCtl ≤ rVcCore i := le_trans (by decide) (Nat.le_add_right 0xD0100 _)

theorem State.kvcAdd_statusStays (p : Nat) (tier : Tier) (more : Bool) : StatusStays s (s.kvcAdd p tier more) := by
  unfold State.kvcAdd
  split
  · exact .refl
  · exact State.setFld_statusStays _ _ _ (rFcCtl_le_rMgKvcTier p)

theorem State.kvcMove_statusStays (p : Nat) (a b : Tier) : StatusStays s (s.kvcMove p a b) :=
  (State.kvcAdd_statusStays ..).trans (State.kvcAdd_statusStays ..)

theorem State.endMove_statusStays (m : Move) : ExOk (StatusStays s) (s.endMove m) := by
  refine ExOk.bindAny fun v => ?_
  extract_lets copied given counted prefetched
  have hGiven : StatusStays s given := ((State.copyPage_statusStays ..).trans (State.setLeaf_statusStays ..)).trans
    (State.modJob_statusStays fun x => x.giveFrame_status m.src m.size)
  have hCounted : StatusStays s counted := by
    unfold counted
    split
    · exact hGiven.trans (State.kvcMove_statusStays ..)
    · exact hGiven
  have hPrefetched : StatusStays s prefetched := by
    unfold prefetched
    split
    · exact hCounted.trans (State.incFld_statusStays _ _ _ (rFcCtl_le_rMgKvcCnt _))
    · exact hCounted
  exact ExOk.pure (hPrefetched.trans (State.incFld_statusStays _ _ _ (by decide)))

theorem State.dropMove_statusStays (m : Move) : StatusStays s (s.dropMove m) := by
  unfold State.dropMove
  extract_lets left
  have hLeft : StatusStays s left := by
    unfold left
    split
    · exact State.setLeaf_statusStays ..
    · exact .refl
  exact (hLeft.trans (State.modJob_statusStays fun x => x.giveFrame_status m.dst m.size)).trans
    (State.incFld_statusStays _ _ _ (by decide))

theorem State.abandonMove_statusStays (m : Move) (e : AccErr) : StatusStays s (s.abandonMove m e) := by
  unfold State.abandonMove
  extract_lets noted ends
  have hNoted : StatusStays s noted := (State.dropMove_statusStays m).trans (State.noteHead_noted ..).statusStays
  split
  · exact hNoted.trans (State.failJob_statusStays ..)
  · exact hNoted

theorem State.endMoves_statusStays (j : Nat) : ExOk (StatusStays s) (s.endMoves j) := by
  unfold State.endMoves
  refine ExOk.foldlM (fun t m h => ?_) (.of_regs rfl rfl rfl)
  split
  next done =>
    refine ExOk.ok ?_
    have moved := ExOk.bindAny (fun _ => State.endMove_statusStays m) _ done
    exact (h.trans (State.recallLoc_statusStays ..)).trans moved
  · exact ExOk.error
  · exact ExOk.ok (h.trans (State.abandonMove_statusStays ..))

/-! ### What a job held (R432, R465, R543) -/

theorem State.flushCache_statusStays (w : Nat) : StatusStays s (s.flushCache w) :=
  StatusStays.trans (t := s.dirForget w) (.of_regs rfl rfl rfl) (State.incFld_statusStays _ _ _ (rFcCtl_le_rWl w _))

theorem State.freePump_statusStays (w n : Nat) : StatusStays s (s.freePump w n) :=
  StatusStays.trans (t := s.setPump w n {}) (.of_regs rfl rfl rfl) (State.setFld_statusStays _ _ _ (rFcCtl_le_rWl w _))

theorem State.setWell_statusStays (w : Nat) (y : Well) : StatusStays s (s.setWell w y) := .of_regs rfl rfl rfl

theorem State.clearWell_statusStays (w : Nat) : StatusStays s (s.clearWell w) := by
  unfold State.clearWell
  extract_lets bobs cleared
  have hCleared : StatusStays s cleared := .of_regs rfl rfl rfl
  exact (hCleared.trans (State.setWell_statusStays ..)).trans
    (StatusStays.foldl (fun _ n => State.freePump_statusStays w n) _ _)

theorem State.clearSlot_statusStays (w k : Nat) : StatusStays s (s.clearSlot w k) := .of_regs rfl rfl rfl

theorem State.dropWork_statusStays (j : Nat) (x : Job) : StatusStays s (s.dropWork j x) := by
  unfold State.dropWork
  refine StatusStays.trans (StatusStays.foldl (fun t e => ?_) _ s) (.of_regs rfl rfl rfl)
  dsimp only
  split
  · exact (State.clearWell_statusStays _).trans (State.clearSlot_statusStays ..)
  · exact State.clearSlot_statusStays ..

theorem State.dropPosts_statusStays (j : Nat) : StatusStays s (s.dropPosts j) := .of_regs rfl rfl rfl

theorem State.tlbCtx_statusStays (p : Nat) : StatusStays s (s.tlbCtx p) := .of_regs rfl rfl rfl

theorem State.dropMisses_statusStays (p : Nat) : StatusStays s (s.dropMisses p) := .of_regs rfl rfl rfl

theorem State.freeCtx_statusStays (p : Nat) : StatusStays s (s.freeCtx p) :=
  (((State.tlbCtx_statusStays p).trans (State.dropMisses_statusStays p)).trans
    (State.setReg_statusStays _ (rFcCtl_le_rTrRoot p))).trans (State.setReg_statusStays _ (rFcCtl_le_rMgKvcTier p))

theorem State.syncCores_statusStays : StatusStays s s.syncCores :=
  StatusStays.foldl (fun _ i => State.setFld_statusStays _ _ _ (rFcCtl_le_rVcCore i)) _ s

theorem State.openSessions_statusStays (j : Nat) (l : List Session) : StatusStays s (s.openSessions j l) :=
  (State.setSessions_statusStays _).trans State.syncCores_statusStays

/-- A job that holds nothing. -/
def Job.emptied (x : Job) : Job :=
  { x with wells := [], slots := [], part := none, locked := [], free := [], cp := none }

/-- A job gives back all that it holds, and keeps its status (R432, R465, R543). -/
theorem State.giveBack_eq (j : Nat) (x : Job) : ∃ t, StatusStays s t ∧ s.giveBack j x = t.modJob j Job.emptied := by
  unfold State.giveBack
  extract_lets flushed unlocked freed cleared opened
  refine ⟨opened, ?_, rfl⟩
  have hFlushed : StatusStays s flushed := StatusStays.foldl (fun _ w => State.flushCache_statusStays w) _ s
  have hUnlocked : StatusStays s unlocked :=
    (((hFlushed.trans (State.dropWork_statusStays j x)).trans (State.dropPosts_statusStays j)).trans
      (State.modJob_statusStays (f := fun y => { y with locked := [] }) fun _ => rfl)).trans
        (State.unlock_locked x.locked).statusStays
  have hFreed : StatusStays s freed := by
    unfold freed
    cases x.part with
    | none => exact hUnlocked
    | some p => exact hUnlocked.trans (State.freeCtx_statusStays p)
  have hCleared : StatusStays s cleared := hFreed.trans (.of_regs rfl rfl rfl)
  exact hCleared.trans (State.openSessions_statusStays j [])

end

end Sys2Proof.Machine
end

section
/-!
SUPPORT. Jobs are accepted, bound and ended (O50).
-/
namespace Sys2Proof.Machine

section
variable {s t u : State} {j : Nat} {x y : Job}

/-! ### The first half of a job's end (R613, R615) -/

/-- The state in which what still waits of job j's work is withdrawn (R253, R599). -/
def State.stoppedWork (s : State) (j : Nat) (x : Job) : State :=
  ((s.stopSessions j).liveWells j x).foldl State.withdrawWaits (s.stopSessions j)

theorem State.stoppedWork_statusStays (j : Nat) (x : Job) : StatusStays s (s.stoppedWork j x) :=
  (State.stopSessions_statusStays j).trans (StatusStays.foldl (fun _ w => (State.withdrawWaits_withdrawn w).statusStays) _ _)

/-- The state in which a job that has given back what it held has ended, its COMMIT record in the journal (R615). -/
def State.ended (s : State) (j : Nat) (x : Job) : State :=
  (s.record (x.commitRec s.now)).modJob j (fun y => { y with phase := .ended, commitMirrored := !s.inSync })

/-- The twin is told of the end of a job at a time, in pair mode and while it is SYNCING (R680). -/
def State.endTold (s : State) (x : Job) (now : Nat) : State :=
  if s.inSync then s.promise (x.commitRec now) (x.completeEntry s.now)
  else if s.pairState = 2 then s.tell (.journal (x.commitRec now) none)
  else s

theorem State.endTold_answered (x : Job) (now : Nat) : Answered s (s.endTold x now) := by
  unfold State.endTold
  split
  · exact State.promise_answered ..
  · split
    · exact (State.tell_told _).answered
    · exact Told.refl.answered

theorem State.endJob_ok (moved : (s.stoppedWork j x).endMoves j = .ok u) :
    s.endJob j x = .ok (((u.giveBack j x).ended j x).endTold x (u.giveBack j x).now) := by
  have released : (s.stopSessions j).release_ j x = .ok (u.giveBack j x) :=
    congrArg (Except.map (State.giveBack · j x)) moved
  rw [State.endJob, released]
  generalize u.giveBack j x = g
  rfl

theorem State.endJob_error {r : Nat} (waits : (s.stoppedWork j x).endMoves j = .error r) :
    s.endJob j x = .error r := by
  have released : (s.stopSessions j).release_ j x = .error r := congrArg (Except.map (State.giveBack · j x)) waits
  rw [State.endJob, released]
  rfl

theorem State.jn_ended : (s.ended j x).jn = (s.record (x.commitRec s.now)).jn := rfl

theorem State.job_ended (job : s.job j = some y) :
    (s.ended j x).job j = some { y with phase := .ended, commitMirrored := !s.inSync } :=
  State.job_modJob (s := s.record (x.commitRec s.now)) job _

/-- What the end of a job leaves of it, its moves over. -/
theorem State.ended_leaves (stays : StatusStays s u) (job : s.job j = some x) {c : Nat} (status : x.status = some c) :
    (∃ y, ((u.giveBack j x).ended j x).job j = some y ∧ y.phase = .ended ∧ y.wells = [] ∧ y.slots = [] ∧ y.part = none
      ∧ y.status = x.status ∧ y.locked = [])
    ∧ ((u.giveBack j x).ended j x).jn.joining = s.jn.joining ++ [x.commitRec s.now]
    ∧ ((u.giveBack j x).ended j x).jn.pages = s.jn.pages := by
  obtain ⟨v, given, e⟩ := u.giveBack_eq j x
  have stays := stays.trans given
  obtain ⟨y, job', status'⟩ := stays.kept job status
  have now : (u.giveBack j x).now = s.now := by
    rw [e]
    exact stays.now
  have jn : (u.giveBack j x).jn = s.jn := by
    rw [e]
    exact stays.jn
  have emptied : (u.giveBack j x).job j = some y.emptied := by
    rw [e]
    exact State.job_modJob job' _
  generalize u.giveBack j x = g at now jn emptied ⊢
  refine ⟨⟨_, State.job_ended emptied, rfl, rfl, rfl, rfl, status'.trans status.symm, rfl⟩, ?_, ?_⟩
  · rw [← now, ← jn, State.jn_ended, State.record]
  · rw [← jn, State.jn_ended, State.record]

section
variable (job : s.job j = some x) (phase : x.phase = .stopping) (idle : s.workOver j x = true) (may : s.mayCommit = true)
include job phase idle may

theorem exec_jobEndCommit_of_ok (done : s.endJob j x = .ok t) : exec (.jobEndCommit j) s = .next t := by
  have ready : (s.workOver j x && s.mayCommit) = true := by simp [idle, may]
  change execJobEndCommit j s = _
  simp only [execJobEndCommit, job, needSome_some, if_pos phase, need_of ready, done]

theorem exec_jobEndCommit_of_error {r : Nat} (waits : s.endJob j x = .error r) : exec (.jobEndCommit j) s = .next s := by
  have ready : (s.workOver j x && s.mayCommit) = true := by simp [idle, may]
  change execJobEndCommit j s = _
  simp only [execJobEndCommit, job, needSome_some, if_pos phase, need_of ready, waits, State.stalls]

theorem jobEndCommit_waits {r : Nat} (waits : (s.stoppedWork j x).endMoves j = .error r) :
    exec (.jobEndCommit j) s = .next s :=
  exec_jobEndCommit_of_error job phase idle may (State.endJob_error waits)

theorem jobEndCommit_ends (failed : x.status ≠ none) (moved : (s.stoppedWork j x).endMoves j = .ok u) :
    ∃ t, exec (.jobEndCommit j) s = .next t
      ∧ (∃ y, t.job j = some y ∧ y.phase = .ended ∧ y.wells = [] ∧ y.slots = [] ∧ y.part = none ∧ y.status = x.status
          ∧ y.locked = [])
      ∧ t.jn.joining = s.jn.joining ++ [x.commitRec s.now] ∧ t.jn.pages = s.jn.pages := by
  obtain ⟨c, status⟩ := Option.ne_none_iff_exists'.1 failed
  have stays : StatusStays s u := (State.stoppedWork_statusStays j x).trans (State.endMoves_statusStays j u moved)
  obtain ⟨⟨y, ended, emptied⟩, joining, pages⟩ := State.ended_leaves stays job status
  have told := ((u.giveBack j x).ended j x).endTold_answered x (u.giveBack j x).now
  have run := exec_jobEndCommit_of_ok job phase idle may (State.endJob_ok moved)
  refine ⟨_, run, ⟨y, ?_⟩, ?_, ?_⟩
  · exact ⟨(congrArg (·[j]?) told.jobs).trans ended, emptied⟩
  · rw [told.jn]
    exact joining
  · rw [told.jn]
    exact pages

end

end

/-- Settles O50: each clause is the rule for one operation of the scheduler: verification and acceptance, binding,
pre-emption and quiescence, the two halves of a job's end, and aborts. -/
theorem jobsAreAcceptedBoundAndEnded : Obligations.JobsAreAcceptedBoundAndEnded := by
  unfold Obligations.JobsAreAcceptedBoundAndEnded
  refine ⟨fun s j x job => ⟨fun phase ready => ⟨fun clean => ?_, fun f found => ?_⟩, ?_⟩, fun s j x job => ⟨?_, ?_, ?_⟩,
    fun s => ⟨fun j x job phase failed idle may => ⟨fun r waits => ?_, fun u moved => ?_⟩, ?_, fun v op => ⟨?_, ?_⟩⟩⟩
  case refine_1 =>
    obtain ⟨⟨y, accepted, accepting, time⟩, leaves⟩ := State.passJob_leaves job
    exact ⟨_, y, jobLoaderVerify_accepts job phase ready clean, accepted, accepting, time, leaves⟩
  case refine_2 => exact jobLoaderVerify_rejects job phase ready found
  case refine_3 => exact jobAccept_accepts job
  case refine_4 =>
    intro first whole forward may
    refine ⟨jobBind_loses first job whole forward may, fun wells able found awake =>
      ⟨fun phase t done => ?_, fun p phase part => ?_⟩⟩
    · exact jobBind_rebinds first job whole forward may able found awake phase done
    · exact fun t => jobBind_starts first job whole forward may able found awake phase part
  case refine_5 =>
    intro phase due
    exact ⟨fun t done => preemption_pauses job phase due done, State.job_preempting job,
      fun w => State.preempting_stopped, fun w => State.well_preempting⟩
  case refine_6 => exact partitionQuiescent_frees job
  case refine_7 => exact jobEndCommit_waits job phase idle may waits
  case refine_8 => exact jobEndCommit_ends job phase idle may failed moved
  case refine_9 => exact fun j x job => jobEndCommit_completes job
  case refine_10 => exact queueAbort_misses op
  case refine_11 => exact fun j x job => queueAbort_stops op job

end Sys2Proof.Machine
end

section
/-!
SUPPORT. Cistern units: the items of operations that they perform (R408, R416, R441).
-/
namespace Sys2Proof.Machine

/-! ### The units' table -/

section
variable (s : State) {w u : Nat}

@[simp] theorem State.unit_setUnit (x : CuUnit) : (s.setUnit w u x).unit w u = x := by
  simp [State.unit, State.setUnit]

/-- Any other unit. -/
theorem State.unit_setUnit_ne {v k : Nat} (hu : u < 64) (hk : k < 64) (other : ¬(v = w ∧ k = u)) (x : CuUnit) :
    (s.setUnit w u x).unit v k = s.unit v k := by
  have apart : v * 64 + k ≠ w * 64 + u := by omega
  exact tabGet_put_ne {} s.units x apart

end

theorem State.unit_of_units {s t : State} (h : t.units = s.units) (v k : Nat) : t.unit v k = s.unit v k := by
  rw [State.unit, h, State.unit]

/-! ### What a unit counts (R408, R770) -/

section
variable {s t : State} {w : Nat}

theorem OnlyRegs.trans {u : State} (h : OnlyRegs s t) (k : OnlyRegs t u) : OnlyRegs s u := by
  obtain ⟨regs, rfl⟩ := h
  obtain ⟨regs', rfl⟩ := k
  exact ⟨regs', rfl⟩

theorem State.onlyRegs_countEv (s : State) (w src n : Nat) : OnlyRegs s (s.countEv w src n) :=
  ⟨_, congrArg (fun u : State => { u with regs := (s.countEv w src n).regs }) (s.countEv_rest w src n)⟩

theorem State.onlyRegs_countSteps (a : CuArg) (steps : Nat) : OnlyRegs s (s.countSteps w a steps) :=
  (s.onlyRegs_countEv ..).trans (State.onlyRegs_countEv ..)

theorem OnlyRegs.units (h : OnlyRegs s t) : t.units = s.units := by
  obtain ⟨regs, rfl⟩ := h
  rfl

end

/-! ### An item performed (R408, R416) -/

/-- Each operation is the unit's work with its own OPC, VAR and computation. -/
theorem exec_cuInstr {s : State} {i : Instr} {w : WellId} {u : Fin 64} {opc var : Nat}
    {f : OpRun → State → CuArg → CuOut} (h : cuInstr i = some (w, u, opc, var, f)) : exec i s = cuWork opc var w u s f := by
  unfold cuInstr at h
  split at h <;> cases h <;> rfl

section
variable {s t : State} {w : WellId} {u : Fin 64} {opc var : Nat} {f : OpRun → State → CuArg → CuOut} {x : CuUnit}
  {id n c e : Nat} {op : OpRun} {g : Option Word} {a : CuArg}

/-- An idle unit performs the item whose turn it is, and counts its steps. -/
theorem cuWork_performs (idle : (s.unit w u).cur = none) (turn : (s.unit w u).next = some (.op id n, x))
    (runs : s.op id = some op) (hopc : opOpc op.words = opc) (hvar : opVar op.words = var)
    (present : s.missing w (146 + u) = false) (arg : s.cuArg id n op = .ok a)
    (guard : s.opGuardEntry a.ctx op.words = .ok g) (work : f op s a = .ok (t, c, e)) :
    cuWork opc var w u s f
      = .next ((t.setUnit w u { x with cur := some (.op id n, c, e) }).countSteps w a (s.opSteps a)) := by
  have kind : (opOpc op.words == opc && opVar op.words == var) = true := by simp [hopc, hvar]
  simp only [cuWork, idle, Option.isNone_none, need_of, turn, needSome_some, runs, kind, present, Bool.false_eq_true,
    if_false, arg, guard, work, Except.bind]

end

/-- Settles O28: every operation is `cuWork`, which performs the item; what it counts stands in registers alone. -/
theorem cisternUnitsPerformTheirOperation : Obligations.CisternUnitsPerformTheirOperation := by
  intro s t i w u opc var f x id n c e op g a instr idle turn runs hopc hvar present arg guard work
  have counted := (t.setUnit w u { x with cur := some (.op id n, c, e) }).onlyRegs_countSteps (w := w) a (s.opSteps a)
  refine ⟨_, (exec_cuInstr instr).trans (cuWork_performs idle turn runs hopc hvar present arg guard work), ?_,
    fun v k hk other => ?_, ?_⟩
  · rw [State.unit_of_units counted.units, State.unit_setUnit]
  · rw [State.unit_of_units counted.units, State.unit_setUnit_ne _ u.isLt hk other]
  · exact congrArg (fun y : State => { y with units := t.units, regs := t.regs }) counted.frame

end Sys2Proof.Machine
end

section
/-!
SUPPORT. Items of operations and combines: their issue and completion (R298, R326, R413, R415 to R418).
-/
namespace Sys2Proof.Machine

/-! ### The table of operations -/

/-- An entry of the table of operations, with operation id changed by f. -/
def modEntry (id : Nat) (f : OpRun → OpRun) (o : Nat × OpRun) : Nat × OpRun := if o.1 = id then (id, f o.2) else o

@[simp] theorem modEntry_fst (id : Nat) (f : OpRun → OpRun) (o : Nat × OpRun) : (modEntry id f o).1 = o.1 := by
  unfold modEntry
  split
  next same => exact same.symm
  next => rfl

section
variable {s t : State} {id : Nat} {f : OpRun → OpRun}

/-- A change of one operation keeps every number, and every other operation. -/
theorem State.op_modOp (k : Nat) : (s.modOp id f).op k = if k = id then (s.op id).map f else s.op k := by
  have keeps : (fun o => o.1 == k) ∘ modEntry id f = fun o => o.1 == k :=
    funext fun o => by rw [Function.comp, modEntry_fst]
  have named {o : Nat × OpRun} (found : o ∈ s.ops.find? (fun o => o.1 == k)) : o.1 = k := by
    simpa using List.find?_some found
  change ((s.ops.map (modEntry id f)).find? (fun o => o.1 == k)).map Prod.snd = _
  rw [List.find?_map, keeps, Option.map_map]
  split
  next same =>
    subst same
    rw [State.op, Option.map_map]
    exact Option.map_congr fun o found => by simp [modEntry, named found]
  next other => exact Option.map_congr fun o found => by simp [modEntry, named found, other]

theorem State.op_modOp_same {op : OpRun} (runs : s.op id = some op) : (s.modOp id f).op id = some (f op) := by
  rw [State.op_modOp, if_pos rfl, runs, Option.map_some]

theorem State.op_dropOp : (s.dropOp id).op id = none := by
  rw [State.op, State.dropOp, Option.map_eq_none_iff, List.find?_eq_none]
  intro o kept
  simpa using (List.mem_filter.mp kept).2

theorem State.op_setUnit {w u : Nat} {x : CuUnit} : (s.setUnit w u x).op id = s.op id := rfl

theorem State.op_setPump {w n : Nat} {p : Pump} : (s.setPump w n p).op id = s.op id := rfl

theorem State.unit_modOp {w u : Nat} : (s.modOp id f).unit w u = s.unit w u := rfl

theorem State.unit_setPump {w n v k : Nat} {p : Pump} : (s.setPump w n p).unit v k = s.unit v k := rfl

theorem State.op_of_ops (h : t.ops = s.ops) (k : Nat) : t.op k = s.op k := by
  rw [State.op, h, State.op]

end

/-! ### Issue (R413) -/

section
variable {s : State} {w : WellId} {n : Fin 8} {id : Nat} {op : OpRun} {a : CuArg}

/-- The state in which pump n of well w has handed the next item of operation id to unit v. -/
def State.itemIssued (s : State) (w n v id : Nat) (op : OpRun) : State :=
  ((s.setUnit w v { s.unit w v with opQ := (s.unit w v).opQ ++ [.op id op.issued] }).modOp id
    (fun o => { o with issued := o.issued + 1 })).setPump w n { s.pump w n with issued := (s.pump w n).issued + 1 }

/-- A running pump hands the next item of its operation to the item's unit while that has room. -/
theorem exec_cuItemIssue (running : (s.pump w n).state = 1) (serves : (s.pump w n).op = some id)
    (runs : s.op id = some op) (may : s.mayIssue op.job = true) (more : op.issued < op.total)
    (arg : s.cuArg id op.issued op = .ok a) (few : (s.unit w (s.itemUnit w op a)).outstanding id < 8)
    (room : (s.unit w (s.itemUnit w op a)).opQ.length < 8) :
    exec (.cuItemIssue w n) s = .next (s.itemIssued w n (s.itemUnit w op a) id op) := by
  have ready : (s.mayIssue op.job && decide (op.issued < op.total)) = true := by simp [may, more]
  change execCuItemIssue w n s = _
  simp only [execCuItemIssue, running, Nat.one_ne_zero, if_false, decide_true, need_of, serves, needSome_some, runs,
    State.issueItem, ready, arg, few, room, and_self, if_true, State.itemIssued]

theorem State.itemIssued_frame (w n v id : Nat) (op : OpRun) :
    { s.itemIssued w n v id op with units := s.units, ops := s.ops, pumps := s.pumps } = s := by
  obtain ⟨units, ops, pumps, issued⟩ : ∃ units ops pumps,
    s.itemIssued w n v id op = { s with units := units, ops := ops, pumps := pumps } := ⟨_, _, _, rfl⟩
  rw [issued]

theorem State.itemIssued_leaves (runs : s.op id = some op) (v : Nat) :
    let t := s.itemIssued w n v id op
    t.unit w v = { s.unit w v with opQ := (s.unit w v).opQ ++ [.op id op.issued] }
      ∧ t.op id = some { op with issued := op.issued + 1 }
      ∧ t.pump w n = { s.pump w n with issued := (s.pump w n).issued + 1 }
      ∧ { t with units := s.units, ops := s.ops, pumps := s.pumps } = s :=
by
  refine ⟨?_, ?_, ?_, State.itemIssued_frame ..⟩
  · rw [State.itemIssued, State.unit_setPump, State.unit_modOp, State.unit_setUnit]
  · rw [State.itemIssued, State.op_setPump, State.op_modOp_same (State.op_setUnit.trans runs)]
  · rw [State.itemIssued, State.pump_setPump]

end

/-! ### What the completion of an item leaves -/

section
variable {s t : State} (h : OnlyRegs s t)
include h

theorem OnlyRegs.ops : t.ops = s.ops := by
  obtain ⟨regs, rfl⟩ := h
  rfl

theorem OnlyRegs.pumps : t.pumps = s.pumps := by
  obtain ⟨regs, rfl⟩ := h
  rfl

theorem OnlyRegs.jobs : t.jobs = s.jobs := by
  obtain ⟨regs, rfl⟩ := h
  rfl

theorem OnlyRegs.poison : t.poison = s.poison := by
  obtain ⟨regs, rfl⟩ := h
  rfl

end

/-- From s to t no byte, no job and no cistern unit has changed. -/
structure KeepsUnits (s t : State) : Prop where
  mem : sameMem s t
  jobs : t.jobs = s.jobs
  units : t.units = s.units

section
variable {s t u : State}

theorem KeepsUnits.trans (h : KeepsUnits s t) (k : KeepsUnits t u) : KeepsUnits s u :=
  ⟨h.mem.trans k.mem, k.jobs.trans h.jobs, k.units.trans h.units⟩

theorem OnlyRegs.keepsUnits (h : OnlyRegs s t) : KeepsUnits s t := ⟨h.sameMem, h.jobs, h.units⟩

theorem State.modOp_keepsUnits (id : Nat) (f : OpRun → OpRun) : KeepsUnits s (s.modOp id f) :=
  ⟨⟨rfl, rfl, rfl, rfl, rfl, rfl⟩, rfl, rfl⟩

theorem State.dropOp_keepsUnits (id : Nat) : KeepsUnits s (s.dropOp id) := ⟨⟨rfl, rfl, rfl, rfl, rfl, rfl⟩, rfl, rfl⟩

theorem State.setPump_keepsUnits (w n : Nat) (p : Pump) : KeepsUnits s (s.setPump w n p) :=
  ⟨s.sameMem_setPump p, rfl, rfl⟩

theorem State.setWell_keepsUnits (w : Nat) (x : Well) : KeepsUnits s (s.setWell w x) :=
  ⟨⟨rfl, rfl, rfl, rfl, rfl, rfl⟩, rfl, rfl⟩

theorem State.pumpOf_of_pumps (h : t.pumps = s.pumps) (w id : Nat) : t.pumpOf w id = s.pumpOf w id := by
  simp only [State.pumpOf, State.pump, h]

end

/-! ### The judgement of an operation's counts (R123, R418) -/

section
variable {s : State} (op : OpRun)

/-- A judgement stands in the layer of the operation's well or in WL_GUARD_STAT. -/
theorem State.judgeOp_cases (s : State) : s.judgeOp op = s ∨ s.judgeOp op = s.incFld (rWlGuardStat op.well) 31 16 1
    ∨ ∃ x, s.judgeOp op = s.setWell op.well x := by
  unfold State.judgeOp
  dsimp only
  split
  · exact .inl rfl
  · split
    · exact .inr (.inl rfl)
    · exact .inr (.inr ⟨_, rfl⟩)

theorem State.judgeOp_keepsUnits : KeepsUnits s (s.judgeOp op) := by
  obtain e | e | ⟨x, e⟩ := s.judgeOp_cases op
  · rw [e]
    exact OnlyRegs.refl.keepsUnits
  · rw [e]
    exact OnlyRegs.refl.setReg.keepsUnits
  · rw [e]
    exact State.setWell_keepsUnits ..

theorem State.ops_judgeOp : (s.judgeOp op).ops = s.ops := by
  obtain e | e | ⟨x, e⟩ := s.judgeOp_cases op <;> rw [e]
  · exact s.incFld_ops ..
  · exact s.setWell_ops ..

theorem State.pumps_judgeOp : (s.judgeOp op).pumps = s.pumps := by
  obtain e | e | ⟨x, e⟩ := s.judgeOp_cases op <;> rw [e]
  · exact s.incFld_pumps ..
  · exact s.setWell_pumps ..

theorem State.reg_judgeOp {o : Nat} (other : o ≠ rWlGuardStat op.well) : (s.judgeOp op).reg o = s.reg o := by
  obtain e | e | ⟨x, e⟩ := s.judgeOp_cases op <;> rw [e]
  · exact s.reg_incFld_ne _ _ _ other
  · rfl

end

/-! ### Completion of an operation's item (R417, R418) -/

/-- An operation with one more item complete, and the item's counts. -/
def OpRun.itemDone (op : OpRun) (c e : Nat) : OpRun :=
  { op with done_ := op.done_ + 1, clamps := satCount op.clamps c, edges := satCount op.edges e }

/-- The state in which an item of operation id is counted, and its pump n has noted the progress. -/
def State.itemNoted (s : State) (w id c e n : Nat) (op : OpRun) : State :=
  ((s.modOp id (fun _ => op.itemDone c e)).unitCounted w).setPump w n { s.pump w n with mark := op.done_ + 1 }

/-- The state in which operation id of pump n has ended. -/
def State.opEnded (s : State) (w id n : Nat) (op : OpRun) : State :=
  (((s.dropOp id).freePump w n).incFld (rWlCuStat w) 31 16 1).judgeOp op

section
variable {s t : State} {w id c e n : Nat} {op : OpRun}

theorem State.onlyRegs_unitCounted : OnlyRegs s (s.unitCounted w) :=
  OnlyRegs.trans (OnlyRegs.setReg .refl) (State.onlyRegs_countEv ..)

theorem State.onlyRegs_countItem : OnlyRegs s (s.countItem w) :=
  OnlyRegs.trans (OnlyRegs.setReg .refl) (State.onlyRegs_countEv ..)

theorem State.itemNoted_keepsUnits : KeepsUnits s (s.itemNoted w id c e n op) :=
  ((State.modOp_keepsUnits ..).trans State.onlyRegs_unitCounted.keepsUnits).trans (State.setPump_keepsUnits ..)

theorem State.op_itemNoted (runs : s.op id = some op) : (s.itemNoted w id c e n op).op id = some (op.itemDone c e) :=
  (State.op_of_ops State.onlyRegs_unitCounted.ops id).trans (State.op_modOp_same runs)

theorem State.opEnded_keepsUnits : KeepsUnits s (s.opEnded w id n op) :=
  ((((State.dropOp_keepsUnits id).trans (State.setPump_keepsUnits w n {})).trans
    (OnlyRegs.refl.setFld.setReg.keepsUnits)).trans (State.judgeOp_keepsUnits op))

theorem State.op_opEnded : (s.opEnded w id n op).op id = none := by
  have ops : (s.opEnded w id n op).ops = (s.dropOp id).ops := by
    rw [State.opEnded, State.ops_judgeOp, State.incFld_ops, State.freePump, State.setFld_ops, State.setPump_ops]
  rw [State.op_of_ops ops, State.op_dropOp]

theorem State.pump_opEnded : (s.opEnded w id n op).pump w n = {} := by
  have pumps : (s.opEnded w id n op).pumps = ((s.dropOp id).setPump w n {}).pumps := by
    rw [State.opEnded, State.pumps_judgeOp, State.incFld_pumps, State.freePump, State.setFld_pumps]
  rw [State.pump_of_pumps pumps, State.pump_setPump]

theorem State.fld_pumpStat_opEnded (hn : n < 8) : (s.opEnded w id n op).fld (rWlPumpStat w) n n = 0 := by
  have guard : rWlPumpStat w ≠ rWlGuardStat op.well := by
    simp only [rWlPumpStat, rWlGuardStat, rWl]
    omega
  have cu : rWlPumpStat w ≠ rWlCuStat w := by
    simp only [rWlPumpStat, rWlCuStat, rWl]
    omega
  rw [State.fld, State.opEnded, State.reg_judgeOp _ guard, State.reg_incFld_ne _ _ _ _ cu, ← State.fld, State.freePump,
    State.fld_setFld _ _ _ _ _ le_rfl (by omega), Nat.zero_mod]

/-- An item of an operation whose pump can note its progress is noted; the last one ends the operation. -/
theorem State.doneItem_eq (serves : s.pumpOf w id = some n)
    (sound : s.scratchOk w (markAt (s.slotOf op.job w) n) = true) : s.doneItem w id c e op =
      if op.total ≤ op.done_ + 1 then (s.itemNoted w id c e n op).opEnded w id n (op.itemDone c e)
      else s.itemNoted w id c e n op := by
  unfold State.doneItem
  extract_lets op' changed counted
  have same : OnlyRegs changed counted := State.onlyRegs_unitCounted
  have serves' : counted.pumpOf w id = some n := (State.pumpOf_of_pumps same.pumps w id).trans serves
  have sound' : counted.scratchOk w (markAt (counted.slotOf op.job w) n) = true := by
    rw [State.slotOf_of_jobs same.jobs]
    exact (State.scratchOk_congr same.poison ..).trans sound
  have notes : counted.noteProgress op.job w n = counted := if_pos sound'
  have pump : counted.pump w n = s.pump w n := State.pump_of_pumps same.pumps w n
  rw [serves']
  dsimp only
  rw [notes, pump]
  rfl

theorem State.doneItem_keepsUnits (serves : s.pumpOf w id = some n)
    (sound : s.scratchOk w (markAt (s.slotOf op.job w) n) = true) : KeepsUnits s (s.doneItem w id c e op) := by
  rw [State.doneItem_eq serves sound]
  split
  · exact State.itemNoted_keepsUnits.trans State.opEnded_keepsUnits
  · exact State.itemNoted_keepsUnits

end

section
variable {s : State} {w : WellId} {u : Fin 64} {id i c e n : Nat} {op : OpRun}

/-- The state in which the unit of a complete item is idle and the item counted. -/
def State.unitIdled (s : State) (w u : Nat) : State :=
  (s.setUnit w u { s.unit w u with cur := none }).countItem w

theorem State.onlyRegs_unitIdled (s : State) (w u : Nat) :
    OnlyRegs (s.setUnit w u { s.unit w u with cur := none }) (s.unitIdled w u) := State.onlyRegs_countItem

theorem exec_cuItemComplete_op (works : (s.unit w u).cur = some (.op id i, c, e)) (runs : s.op id = some op) :
    exec (.cuItemComplete w u) s = .next ((s.unitIdled w u).doneItem w id c e op) := by
  have runs' : (s.unitIdled w u).op id = some op := (State.op_of_ops (s.onlyRegs_unitIdled w u).ops id).trans runs
  change execCuItemComplete w u s = _
  rw [State.unitIdled] at runs' ⊢
  simp only [execCuItemComplete, works, runs']

/-- An item of an operation completes: its unit is idle, and its operation and pump go on or are over. -/
theorem cuItemComplete_op_leaves (works : (s.unit w u).cur = some (.op id i, c, e)) (runs : s.op id = some op)
    (serves : s.pumpOf w id = some n) (sound : s.scratchOk w (markAt (s.slotOf op.job w) n) = true) :
    ∃ t, exec (.cuItemComplete w u) s = .next t ∧ t.unit w u = { s.unit w u with cur := none }
      ∧ (op.done_ + 1 < op.total →
          t.op id = some (op.itemDone c e) ∧ t.pump w n = { s.pump w n with mark := op.done_ + 1 })
      ∧ (op.total ≤ op.done_ + 1 → t.op id = none ∧ t.pump w n = {} ∧ t.fld (rWlPumpStat w) n n = 0)
      ∧ sameMem s t ∧ t.jobs = s.jobs := by
  have same := s.onlyRegs_unitIdled w u
  have runs' : (s.unitIdled w u).op id = some op := (State.op_of_ops same.ops id).trans runs
  have serves' : (s.unitIdled w u).pumpOf w id = some n := (State.pumpOf_of_pumps same.pumps w id).trans serves
  have sound' : (s.unitIdled w u).scratchOk w (markAt ((s.unitIdled w u).slotOf op.job w) n) = true := by
    rw [State.slotOf_of_jobs same.jobs]
    exact (State.scratchOk_congr same.poison ..).trans sound
  have pump : (s.unitIdled w u).pump w n = s.pump w n := State.pump_of_pumps same.pumps w n
  have hn : n < 8 := List.mem_range.mp (List.mem_of_find?_eq_some serves)
  have keeps := State.doneItem_keepsUnits (c := c) (e := e) serves' sound'
  refine ⟨_, exec_cuItemComplete_op works runs, ?_, fun more => ?_, fun last => ?_, ?_, ?_⟩
  · rw [State.unit_of_units keeps.units, State.unit_of_units same.units, State.unit_setUnit]
  · rw [State.doneItem_eq serves' sound', if_neg (by omega), ← pump]
    exact ⟨State.op_itemNoted runs', State.pump_setPump ..⟩
  · rw [State.doneItem_eq serves' sound', if_pos last]
    exact ⟨State.op_opEnded, State.pump_opEnded, State.fld_pumpStat_opEnded hn⟩
  · exact sameMem.trans ⟨rfl, rfl, rfl, rfl, rfl, rfl⟩ (same.sameMem.trans keeps.mem)
  · exact keeps.jobs.trans same.jobs

end

section
variable {s : State} {w : WellId} {u : Fin 64}

/-- An idle unit whose turn is a bobbin item performs and completes it (R415, R416). -/
theorem exec_cuItemComplete_bob {x : CuUnit} {id i c e : Nat} {q : Req} {v : State} (idle : (s.unit w u).cur = none)
    (turn : (s.unit w u).next = some (.bob id i, x))
    (request : (s.reqs.find? (fun y => y.1 == id)).map Prod.snd = some q) (present : s.missing w (146 + u) = false)
    (row : s.bobRow q i = .ok (v, c, e)) :
    exec (.cuItemComplete w u) s = .next ((((v.setUnit w u x).countItem w).lessReq id).feedReqs w) := by
  change execCuItemComplete w u s = _
  simp only [execCuItemComplete, idle, turn, needSome_some, request, present, Bool.false_eq_true, if_false, row]

end

/-! ### Combines (R298, R326, R327) -/

/-- From s to t rows of combine id have entered the units' queues, and nothing else has happened. -/
structure EntersComb (id : Nat) (s t : State) : Prop where
  entered : ∀ op, s.op id = some op → ∃ n, t.op id = some { op with issued := n }
  others : ∀ k, k ≠ id → t.op k = s.op k
  rest : ∃ ops units, t = { s with ops := ops, units := units }

section
variable {s t u : State} {id : Nat}

theorem EntersComb.refl : EntersComb id s s := ⟨fun op runs => ⟨op.issued, runs⟩, fun _ _ => rfl, _, _, rfl⟩

theorem EntersComb.trans (h : EntersComb id s t) (k : EntersComb id t u) : EntersComb id s u := by
  refine ⟨fun op runs => ?_, fun j other => (k.others j other).trans (h.others j other), ?_⟩
  · obtain ⟨n, hn⟩ := h.entered op runs
    obtain ⟨m, hm⟩ := k.entered _ hn
    exact ⟨m, hm⟩
  · obtain ⟨ops, units, rfl⟩ := h.rest
    obtain ⟨ops', units', rfl⟩ := k.rest
    exact ⟨ops', units', rfl⟩

/-- One row enters a unit's queue. -/
theorem State.entersComb_row (s : State) (w v id n : Nat) (x : CuUnit) :
    EntersComb id s ((s.setUnit w v x).modOp id (fun o => { o with issued := n })) :=
  ⟨fun _ runs => ⟨n, State.op_modOp_same (s := s.setUnit w v x) runs⟩,
    fun k other => (State.op_modOp (s := s.setUnit w v x) k).trans (if_neg other), _, _, rfl⟩

theorem State.enterComb_enters (s : State) (w id fuel : Nat) : EntersComb id s (s.enterComb w id fuel) := by
  induction fuel generalizing s with
  | zero => exact .refl
  | succ fuel ih =>
    unfold State.enterComb
    split
    · exact .refl
    · split
      · exact .refl
      · dsimp only
        split
        · exact .refl
        · split
          · exact (State.entersComb_row ..).trans (ih _)
          · exact .refl

end

section
variable {s : State} {j : Nat} {x : Job} {t : SplitTrack} {pk : Pricking} {c : Comb}

/-- A combine of well w as it begins. -/
def combRun (w j : Nat) (x : Job) (pk : Pricking) (c : Comb) : OpRun :=
  { job := j, well := w, comb := some c, rung := x.layerRung, total := c.rows.length, guard := some pk.guard,
    last := if c.dst.fmt.twoLevel then min c.dst.fmt.room (guardMax pk.guard) else guardMax pk.guard }

/-- The state in which a combine of split point t stands as an operation and none of its rows has entered a queue. -/
def State.combListed (s : State) (t : SplitTrack) (op : OpRun) : State :=
  { s with
    nextId := s.nextId + 1, ops := (s.nextId, op) :: s.ops,
    splits := s.splits.map (fun y => if y = t then { y with combine := some s.nextId } else y) }

theorem State.op_combListed (op : OpRun) (k : Nat) :
    (s.combListed t op).op k = if k = s.nextId then some op else s.op k := by
  split
  next same => simp [State.op, State.combListed, same]
  next other => simp [State.op, State.combListed, Ne.symm other]

/-- A combine begun: it stands as an operation under the next number, its split point names it, and its rows enter the
units' queues. -/
theorem State.startComb_leaves (w : Nat) :
    let v := s.startComb w j x t pk c
    (∃ op, v.op s.nextId = some op ∧ op.comb = some c ∧ op.job = j ∧ op.total = c.rows.length
        ∧ op.guard = some pk.guard ∧ op.rung = x.layerRung)
      ∧ v.splits = s.splits.map (fun y => if y = t then { y with combine := some s.nextId } else y)
      ∧ v.nextId = s.nextId + 1 ∧ (∀ id, id ≠ s.nextId → v.op id = s.op id)
      ∧ { v with ops := s.ops, splits := s.splits, units := s.units, nextId := s.nextId } = s := by
  intro v
  have enters : EntersComb s.nextId (s.combListed t (combRun w j x pk c)) v :=
    State.enterComb_enters _ w s.nextId (c.rows.length + 1)
  obtain ⟨n, stands⟩ := enters.entered (combRun w j x pk c) (by rw [State.op_combListed, if_pos rfl])
  have others (k : Nat) (other : k ≠ s.nextId) : v.op k = s.op k := by
    rw [enters.others k other, State.op_combListed, if_neg other]
  obtain ⟨ops, units, e⟩ := enters.rest
  refine ⟨⟨_, stands, rfl, rfl, rfl, rfl, rfl⟩, ?_, ?_, others, ?_⟩
  · rw [e, State.combListed]
  · rw [e, State.combListed]
  · rw [e, State.combListed]

/-- The walker begins the combine of the first ready split point while it enters no other. -/
theorem exec_splitCombineIssue {w : WellId} (job : s.wellJob w = some (j, x)) (closed : s.openComb w = none)
    (ready : s.readyHere w j x = some (.ok (t, pk)))
    (comb : s.combOf (viaQ w (s.ctxOf j)) t x pk (x.rank w) = .ok (some c)) :
    exec (.splitCombineIssue w) s = .next (s.startComb w j x t pk c) := by
  change execSplitCombineIssue w s = _
  simp only [execSplitCombineIssue, job, needSome_some, ready, closed, Option.isSome_none, Bool.false_eq_true, if_false,
    comb]

/-- An idle unit whose turn is a row of a combine performs it. -/
theorem exec_splitCombine {w : WellId} {u : Fin 64} {y : CuUnit} {id n cl ed : Nat} {op : OpRun} {v : State}
    (idle : (s.unit w u).cur = none) (turn : (s.unit w u).next = some (.comb id n, y)) (runs : s.op id = some op)
    (comb : op.comb = some c) (present : s.missing w (146 + u) = false)
    (row : s.combRow (s.cuCtx w op.job) op.rung c n = .ok (v, cl, ed)) :
    exec (.splitCombine w u) s
      = .next (((v.setUnit w u { y with cur := some (.comb id n, cl, ed) }).feedComb w).countEv w 0x0A (c.steps n)) := by
  change execSplitCombine w u s = _
  simp only [execSplitCombine, idle, Option.isNone_none, need_of, turn, needSome_some, runs, comb, present,
    Bool.false_eq_true, if_false, row]

end

/-- Settles O29: an issued item is `State.itemIssued`, a completed one `cuItemComplete_op_leaves`; a combine begun is
`State.startComb`, whose rows enter queues and change nothing else. -/
theorem cisternItemsIssueAndComplete : Obligations.CisternItemsIssueAndComplete := by
  refine ⟨fun s w => ⟨?_, ?_, ?_⟩, fun s w u => ⟨?_, ?_⟩⟩
  · intro n id op a running serves runs may more arg v few room
    exact ⟨_, exec_cuItemIssue running serves runs may more arg few room, State.itemIssued_leaves runs v⟩
  · intro u id i c e op n works runs serves sound
    exact cuItemComplete_op_leaves works runs serves sound
  · intro u x id i q v c e idle turn request present row
    exact exec_cuItemComplete_bob idle turn request present row
  · intro j x t pk c job closed ready comb
    exact ⟨_, exec_splitCombineIssue job closed ready comb, State.startComb_leaves w⟩
  · intro x id n op c t cl ed idle turn runs comb present row
    exact exec_splitCombine idle turn runs comb present row

end Sys2Proof.Machine
end

section
/-!
SUPPORT. The upkeep of a cistern: refresh, scrub and the split of its cache (R396 to R399, R402).
-/
namespace Sys2Proof.Machine

/-! ### A block scrubbed (R397 to R399) -/

section
variable {s : State}

/-- The state in which the scrub's uncorrectable block of well w is poisoned, counted and recorded. -/
def State.scrubNoted (s : State) (w block : Nat) : State :=
  ((s.setPoison ⟨.cistern w, 64 * block⟩).incFld (rWlCisEcc w) 31 16 1).latch (rWlCisErr w)
    (setBits (setBits (setBits 0#64 61 59 5) 38 33 (bankGroup (64 * block))) 32 0 (64 * block))

theorem State.onlyRegs_setPoison (l : Loc) :
    OnlyRegs { s with poison := tabPut false s.poison (blockKey l) true } (s.setPoison l) :=
  ⟨_, (congrArg (fun u : State => { u with regs := (s.setPoison l).regs })
    ({ s with poison := tabPut false s.poison (blockKey l) true }.recountPoison_frame l.tier) :)⟩

theorem State.onlyRegs_scrubNoted (w block : Nat) :
    OnlyRegs { s with poison := tabPut false s.poison (blockKey ⟨.cistern w, 64 * block⟩) true } (s.scrubNoted w block) :=
  OnlyRegs.trans (OnlyRegs.setReg (s.onlyRegs_setPoison _)) (State.onlyRegs_latch ..)

/-- A poisoned block of a cistern reaches POISONED alone (R422). -/
theorem State.reg_setPoison_cistern_ne {w a o : Nat} (other : o ≠ rWlCisEcc w) :
    (s.setPoison ⟨.cistern w, a⟩).reg o = s.reg o := State.reg_setFld_ne _ _ _ _ other

theorem State.uncorrectable_setPoison (w a : Nat) :
    (s.setPoison ⟨.cistern w, a⟩).fld (rWlCisEcc w) 31 16 = s.fld (rWlCisEcc w) 31 16 := by
  rw [State.setPoison, State.recountPoison, State.fld, State.setFld, State.reg_setReg,
    bitsOf_setBits_of_apart (by decide) (by decide) (by decide) (.inr (by decide))]
  rfl

theorem rWlCisErr_ne_rWlCisEcc (w : Nat) : rWlCisErr w ≠ rWlCisEcc w := by
  simp only [rWlCisErr, rWlCisEcc, rWl]
  omega

/-- The uncorrectable block is counted. -/
theorem State.uncorrectable_scrubNoted (w block : Nat) : (s.scrubNoted w block).fld (rWlCisEcc w) 31 16
    = min (s.fld (rWlCisEcc w) 31 16 + 1) 65535 := by
  rw [State.scrubNoted, State.fld, State.reg_latch_ne _ _ (rWlCisErr_ne_rWlCisEcc w).symm, ← State.fld,
    State.fld_incFld _ (by decide) (by decide), State.uncorrectable_setPoison]
  rfl

/-- The first error since VALID was cleared is recorded with its address. -/
theorem State.record_scrubNoted {w block : Nat} (inside : 64 * block < cisternSize)
    (first : bitOf (s.reg (rWlCisErr w)) 63 = false) :
    (s.scrubNoted w block).fld (rWlCisErr w) 63 63 = 1 ∧ (s.scrubNoted w block).fld (rWlCisErr w) 32 0 = 64 * block := by
  have first' : bitOf (((s.setPoison ⟨.cistern w, 64 * block⟩).incFld (rWlCisEcc w) 31 16 1).reg (rWlCisErr w)) 63
      = false := by
    rw [State.reg_incFld_ne _ _ _ _ (rWlCisErr_ne_rWlCisEcc w), State.reg_setPoison_cistern_ne (rWlCisErr_ne_rWlCisEcc w),
      first]
  have fits : 64 * block < 2 ^ (32 - 0 + 1) := by
    simp only [cisternSize] at inside
    omega
  refine ⟨State.valid_latch_of_first first', ?_⟩
  rw [State.scrubNoted, State.fld_latch_of_first first' (by decide) (by decide),
    bitsOf_setBits _ _ _ _ (by decide) (by decide), Nat.mod_eq_of_lt fits]

/-- A scrub that finds an uncorrectable block notes it and reports it. -/
theorem exec_cisternPatrolScrub_uncorrectable {w : WellId} {block : Nat} (inside : 64 * block < cisternSize) :
    ∃ unit, exec (.cisternPatrolScrub w block .uncorrectable) s
      = .next ((s.scrubNoted w block).report w 0x2 0 w unit unit (64 * block)) := by
  refine ⟨(s.tierUnit ⟨.cistern w, 64 * block⟩).2, ?_⟩
  change execCisternPatrolScrub w block .uncorrectable s = _
  rw [execCisternPatrolScrub, need_of (decide_eq_true inside)]
  rfl

/-- What an uncorrectable block leaves: its poison and its records, and every byte as it is. -/
theorem State.scrubReported_leaves {w block : Nat} (hw : w < 12) (unit : Nat) :
    let t := (s.scrubNoted w block).report w 0x2 0 w unit unit (64 * block)
    sameMem s t ∧ t.poison = tabPut false s.poison (blockKey ⟨.cistern w, 64 * block⟩) true
      ∧ ∀ o, 0x1000000 ≤ o → t.reg o = (s.scrubNoted w block).reg o := by
  intro t
  have regs (o : Nat) (well : 0x1000000 ≤ o) : t.reg o = (s.scrubNoted w block).reg o :=
    State.reg_report (not_mem_reportRegs (by omega) well)
  obtain ⟨regs', msix, last, reported⟩ := (s.scrubNoted w block).report_eq w 0x2 0 w unit unit (64 * block)
  obtain ⟨regs'', noted⟩ := s.onlyRegs_scrubNoted w block
  have e : t = { s with
      poison := tabPut false s.poison (blockKey ⟨.cistern w, 64 * block⟩) true, regs := regs', msix := msix,
      fcLast := last } := by
    rw [show t = _ from reported, noted]
  refine ⟨?_, ?_, regs⟩
  · rw [e]
    exact ⟨rfl, rfl, rfl, rfl, rfl, rfl⟩
  · rw [e]

end

/-! ### The split of a cistern (R402) -/

section
variable {s t : State} (h : OnlyRegs s t)
include h

theorem OnlyRegs.caches : t.caches = s.caches := by
  obtain ⟨regs, rfl⟩ := h
  rfl

theorem OnlyRegs.lines : t.lines = s.lines := by
  obtain ⟨regs, rfl⟩ := h
  rfl

end

section
variable {s : State} {w : Nat}

/-- The state in which WL_CIS_SPLIT.CACHE is in effect on well w, its cache written back. -/
def State.splitApplied (s : State) (w : Nat) : State :=
  { s.flushCache w with caches := tabPut 4 s.caches w (min (s.fld (rWlCisSplit w) 3 0) 8) }.setFld (rWlCisSplit w) 4 4 0

theorem State.onlyRegs_flushCache (s : State) (w : Nat) : OnlyRegs (s.dirForget w) (s.flushCache w) := by
  obtain ⟨n, written⟩ : ∃ n, s.flushCache w = (s.dirForget w).incFld (rWlWcEvt w) 63 32 n := ⟨_, rfl⟩
  rw [written]
  exact OnlyRegs.refl.setReg

theorem State.onlyRegs_splitApplied : OnlyRegs
    { s.dirForget w with caches := tabPut 4 s.caches w (min (s.fld (rWlCisSplit w) 3 0) 8) } (s.splitApplied w) := by
  obtain ⟨regs, flushed⟩ := s.onlyRegs_flushCache w
  rw [State.splitApplied, flushed]
  exact OnlyRegs.setFld ⟨regs, rfl⟩

theorem State.caches_splitApplied :
    (s.splitApplied w).caches = tabPut 4 s.caches w (min (s.fld (rWlCisSplit w) 3 0) 8) :=
  State.onlyRegs_splitApplied.caches

theorem State.lines_splitApplied : (s.splitApplied w).lines = tabDrop (fun k => k / 2 ^ 20 == w) s.lines :=
  State.onlyRegs_splitApplied.lines

theorem State.sameMem_splitApplied : sameMem s (s.splitApplied w) :=
  sameMem.trans ⟨rfl, rfl, rfl, rfl, rfl, rfl⟩ State.onlyRegs_splitApplied.sameMem

theorem State.reg_flushCache {o : Nat} (other : o ≠ rWlWcEvt w) : (s.flushCache w).reg o = s.reg o :=
  State.reg_incFld_ne _ _ _ _ other

/-- A cache of at most 8 × 16384 sets keeps its lines under its well's keys. -/
theorem State.lineKey_div (small : tabGet 4 s.caches w ≤ 8) (line : Nat) : s.lineKey w line / 2 ^ 20 = w := by
  have sets : line % s.cacheSets w < s.cacheSets w := Nat.mod_lt _ (by simp only [State.cacheSets]; omega)
  have bound : s.cacheSets w ≤ 2 ^ 17 := by
    simp only [State.cacheSets]
    omega
  rw [State.lineKey]
  omega

/-- A cache written back holds no line, whatever its size becomes. -/
theorem State.lineSt_splitApplied (line : Nat) : (s.splitApplied w).lineSt w line = none := by
  have small : tabGet 4 (s.splitApplied w).caches w ≤ 8 := by
    rw [State.caches_splitApplied, tabGet_put_self]
    exact Nat.min_le_right ..
  have empty : (s.splitApplied w).lineSet w line = [] := by
    rw [State.lineSet, State.lines_splitApplied, tabGet_drop, State.lineKey_div small, beq_self_eq_true, if_pos rfl]
  rw [State.lineSt, empty]
  rfl

theorem exec_cisternSplitApply {w : WellId} (free : (s.well w).job = none) (written : s.fld (rWlCisSplit w) 4 4 = 1) :
    exec (.cisternSplitApply w) s = .next (s.splitApplied w) := by
  have split : rWlCisSplit w ≠ rWlWcEvt w := by
    simp only [rWlCisSplit, rWlWcEvt, rWl]
    omega
  have size : (s.flushCache w).fld (rWlCisSplit w) 3 0 = s.fld (rWlCisSplit w) 3 0 := by
    rw [State.fld, State.reg_flushCache split, State.fld]
  have caches : (s.flushCache w).caches = s.caches := (s.onlyRegs_flushCache w).caches
  change execCisternSplitApply w s = _
  rw [execCisternSplitApply, need_of (by simp [free, written]), State.splitApplied]
  dsimp only
  rw [size, caches]

end

/-- Settles O30: a refresh is no change; an uncorrectable block is noted as `State.scrubNoted` and reported; a written cache
size is in effect in `State.splitApplied`, where no line of the well is listed. -/
theorem cisternUpkeepKeepsBytes : Obligations.CisternUpkeepKeepsBytes := by
  refine fun s w block => ⟨fun _ _ => rfl, fun inside => ⟨?_, ?_, ?_⟩, fun free written => ?_⟩
  · exact need_of (decide_eq_true inside) 398 _
  · exact need_of (decide_eq_true inside) 398 _
  · obtain ⟨unit, run⟩ := exec_cisternPatrolScrub_uncorrectable (s := s) (w := w) inside
    obtain ⟨mem, poison, regs⟩ := s.scrubReported_leaves (block := block) w.isLt unit
    refine ⟨_, run, mem, ?_, fun k other => ?_, ?_, fun first => ?_⟩
    · rw [poison, tabGet_put_self]
    · rw [poison, tabGet_put_ne _ _ _ other]
    · rw [State.fld, regs (rWlCisEcc w) (le_rWl w 0x188)]
      exact State.uncorrectable_scrubNoted w block
    · rw [State.fld, State.fld, regs (rWlCisErr w) (le_rWl w 0x190)]
      exact State.record_scrubNoted inside first
  · refine ⟨_, exec_cisternSplitApply free written, State.sameMem_splitApplied, ?_, ?_, ?_, fun v other => ?_⟩
    · rw [State.caches_splitApplied, tabGet_put_self]
    · rw [State.splitApplied, State.fld_setFld _ _ _ _ _ (by decide) (by decide), Nat.zero_mod]
    · exact State.lineSt_splitApplied
    · rw [State.caches_splitApplied, tabGet_put_ne _ _ _ other]

end Sys2Proof.Machine
end

section
/-!
SUPPORT. Steps and the queue, the security floor (R745), and fields of registers beside a written one.
-/
namespace Sys2Proof.Machine

/-- Settles O1: a step is `exec` of the front command with the queue's rest. -/
theorem stepTakesTheFrontCommand : Obligations.StepTakesTheFrontCommand := fun _ _ _ => ⟨rfl, rfl⟩

/-- Settles O2: part of what every command keeps. -/
theorem commandsLeaveTheQueue : Obligations.CommandsLeaveTheQueue := fun c _ t run =>
  (Keeps.refl.exec c t run).queue

/-- Settles O4: the reset state lists no byte and no command. -/
theorem resetHoldsTheInvariant : Obligations.ResetHoldsTheInvariant := ⟨rfl, rfl⟩

/-! ### Fields of registers -/

section
variable (s : State)

@[simp] theorem State.reg_modPw (f : Power → Power) (o : Nat) : (s.modPw f).reg o = s.reg o := rfl
@[simp] theorem State.fld_modPw (f : Power → Power) (o hi lo : Nat) : (s.modPw f).fld o hi lo = s.fld o hi lo := rfl

theorem State.fld_setReg (o : Nat) (v : Word) (hi lo : Nat) : (s.setReg o v).fld o hi lo = bitsOf v hi lo := by
  rw [State.fld, State.reg_setReg]

theorem State.fld_setReg_ne {o i : Nat} (v : Word) (hi lo : Nat) (other : i ≠ o) :
    (s.setReg o v).fld i hi lo = s.fld i hi lo := by
  rw [State.fld, State.reg_setReg_ne _ _ other, State.fld]

/-- A field beside the one replaced in the same register. -/
theorem State.fld_setFld_of_apart {o hi lo v a b : Nat} (hlo : lo ≤ hi) (hab : b ≤ a) (ha : a < 64)
    (apart : a < lo ∨ hi < b) : (s.setFld o hi lo v).fld o a b = s.fld o a b := by
  unfold State.fld State.setFld
  rw [State.reg_setReg, bitsOf_setBits_of_apart hlo hab ha apart]

theorem State.fld_incFld_ne {o i hi lo n a b : Nat} (other : i ≠ o) : (s.incFld o hi lo n).fld i a b = s.fld i a b := by
  rw [State.fld, State.reg_incFld_ne _ _ _ _ other, State.fld]

end

/-! ### The security floor (R745) -/

theorem step_keeps_floor {s t : State} (run : step s = .next t) : s.pw.floor ≤ t.pw.floor := by
  unfold step at run
  split at run
  · cases run
    exact le_rfl
  next c rest _ => exact (Keeps.refl.exec c t run).floor

/-- The floor raised to the version of the image that runs. -/
def State.withFloor (s : State) : State :=
  s.modPw (fun p => { p with floor := max s.pw.floor (s.fld rWhFw 47 32) })

theorem exec_firmwareFloorRaise (s : State) {v : Word} (raise : bitOf v 0 = true) :
    exec (.firmwareFloorRaise v) s
      = .next (s.withFloor.setFld rWhFw 31 16 (max s.pw.floor (s.fld rWhFw 47 32))) :=
  need_of raise 745 _

theorem State.withFloor_setFld_frame (s : State) (o hi lo v : Nat) :
    { s.withFloor.setFld o hi lo v with regs := s.regs, pw := s.pw } = s := by
  cases s
  rfl

/-- Settles O5: the floor is part of what every command keeps, and FW.RAISE takes the larger version. -/
theorem securityFloorRisesAndNeverFalls : Obligations.SecurityFloorRisesAndNeverFalls := by
  refine ⟨fun s t => step_keeps_floor, fun s v raise =>
    ⟨_, exec_firmwareFloorRaise s raise, rfl, ?_, ?_, s.withFloor_setFld_frame .., ?_⟩⟩
  · simp [State.fld_setFld]
  · exact State.fld_setFld_of_apart _ (by decide) (by decide) (by decide) (.inr (by decide))
  · exact fun o other => State.reg_setFld_ne _ 31 16 _ other

end Sys2Proof.Machine
end

section
/-!
SUPPORT. Registers after a cold reset (R483, R796, R798).
-/
namespace Sys2Proof.Machine

theorem State.reg_reset (o : Nat) : State.reset.reg o = regReset o := rfl

/-- A well's registers reset alike in every well (R798). -/
theorem regReset_rWl {w o : Nat} (hw : w < 12) (ho : o < 0x100000) : regReset (rWl w o) = regResetWell o := by
  have at_ : (rWl w o - 0x1000000) % 0x100000 = o := by unfold rWl; omega
  unfold regReset
  rw [if_pos (by unfold rWl; omega), at_]

theorem State.physOf_reset {w l : Nat} (hw : w < 12) (hl : l < 128) :
    State.reset.physOf w l = if l < 16 then l else l + 1 := by
  have table : ∀ l < 128, bitsOf (regResetWell (8 * (l / 8))) (8 * (l % 8) + 7) (8 * (l % 8))
      = if l < 16 then l else l + 1 := by decide +kernel
  unfold State.physOf State.fld rWlBobMap
  rw [State.reg_reset, regReset_rWl hw (by omega), table l hl]

theorem State.bobState_reset {w p : Nat} (hw : w < 12) (hp : p < 136) :
    State.reset.bobState w p = if p = 16 ∨ 128 < p then 1 else 0 := by
  have table : ∀ p < 136, bitsOf (regResetWell (0x80 + 8 * (p / 32))) (2 * (p % 32) + 1) (2 * (p % 32))
      = if p = 16 ∨ 128 < p then 1 else 0 := by decide +kernel
  unfold State.bobState State.fld rWlBobState
  rw [State.reg_reset, regReset_rWl hw (by omega), table p hp]

/-- Settles O6: a register of the reset state holds the map's reset value. -/
theorem resetRegistersHoldTheirValues : Obligations.ResetRegistersHoldTheirValues := by
  simp only [Obligations.ResetRegistersHoldTheirValues, State.reg_reset]
  refine ⟨by decide +kernel, by decide +kernel, by decide +kernel, by decide +kernel, by decide +kernel,
    by decide +kernel, by decide +kernel, fun w hw => ⟨?_, ?_, ?_, ?_, fun l hl => State.physOf_reset hw hl,
      fun p hp => State.bobState_reset hw hp⟩⟩
  · exact regReset_rWl hw (by decide)
  · exact regReset_rWl hw (by decide)
  · exact regReset_rWl hw (by decide)
  · exact regReset_rWl hw (by decide)

end Sys2Proof.Machine
end

section
/-!
SUPPORT. Where the bytes of the reservoir and of the aquifer lie (R480, R510).
-/
namespace Sys2Proof.Machine

/-! ### The map of the reservoir (R480) -/

section
variable {lg a b : Nat}

theorem rvPlace_of_lt (h : a < 36 * (60 - lg) * 2 ^ 30) : rvPlace lg a = (a / 4096 % 36, a / 4096 / 36) := if_pos h

theorem rvPlace_of_ge (h : 36 * (60 - lg) * 2 ^ 30 ≤ a) :
    rvPlace lg a = (3 * ((a - 36 * (60 - lg) * 2 ^ 30) / (3 * lg * 2 ^ 30))
        + (a - 36 * (60 - lg) * 2 ^ 30) % (3 * lg * 2 ^ 30) / 4096 % 3,
      (60 - lg) * 262144 + (a - 36 * (60 - lg) * 2 ^ 30) % (3 * lg * 2 ^ 30) / 4096 / 3) := if_neg (Nat.not_lt.mpr h)

/-- An address above the interleaved part lies at place r of the part of well n. -/
theorem exists_part_of_ge (le : lg ≤ 60) (size : a < reservoirSize) (h : 36 * (60 - lg) * 2 ^ 30 ≤ a) :
    ∃ n r, n < 12 ∧ r < 3 * lg * 2 ^ 30 ∧ a = 36 * (60 - lg) * 2 ^ 30 + (3 * lg * 2 ^ 30 * n + r)
      ∧ rvPlace lg a = (3 * n + r / 4096 % 3, (60 - lg) * 262144 + r / 4096 / 3) := by
  have pos : 0 < 3 * lg * 2 ^ 30 := by unfold reservoirSize at size; omega
  refine ⟨_, _, ?_, Nat.mod_lt _ pos, ?_, rvPlace_of_ge h⟩
  · rw [Nat.div_lt_iff_lt_mul pos]
    unfold reservoirSize at size
    omega
  · rw [Nat.div_add_mod]
    omega

theorem rvPlace_fst_lt (le : lg ≤ 60) (size : a < reservoirSize) : (rvPlace lg a).1 < 36 := by
  by_cases h : a < 36 * (60 - lg) * 2 ^ 30
  · rw [rvPlace_of_lt h]
    exact Nat.mod_lt _ (by decide)
  · obtain ⟨n, r, hn, -, -, place⟩ := exists_part_of_ge le size (Nat.not_lt.mp h)
    rw [place]
    dsimp only
    omega

theorem rvPlace_snd_lt (le : lg ≤ 60) (size : a < reservoirSize) : (rvPlace lg a).2 < pkgGranules := by
  unfold pkgGranules
  by_cases h : a < 36 * (60 - lg) * 2 ^ 30
  · rw [rvPlace_of_lt h]
    dsimp only
    omega
  · obtain ⟨n, r, -, hr, -, place⟩ := exists_part_of_ge le size (Nat.not_lt.mp h)
    rw [place]
    dsimp only
    omega

/-- The interleaved part lies below the wells' parts on every package. -/
theorem rvPlace_snd_lt_iff (le : lg ≤ 60) (size : a < reservoirSize) :
    (rvPlace lg a).2 < (60 - lg) * 262144 ↔ a < 36 * (60 - lg) * 2 ^ 30 := by
  by_cases h : a < 36 * (60 - lg) * 2 ^ 30
  · rw [rvPlace_of_lt h]
    dsimp only
    omega
  · obtain ⟨n, r, -, -, -, place⟩ := exists_part_of_ge le size (Nat.not_lt.mp h)
    rw [place]
    dsimp only
    omega

/-- Two granules never share a place: the index tells the part, package and index the granule within it. -/
theorem granule_eq_of_rvPlace_eq (le : lg ≤ 60) (ha : a < reservoirSize) (hb : b < reservoirSize)
    (same : rvPlace lg a = rvPlace lg b) : a / 4096 = b / 4096 := by
  have part := (rvPlace_snd_lt_iff le ha).symm.trans (same ▸ rvPlace_snd_lt_iff le hb)
  by_cases h : a < 36 * (60 - lg) * 2 ^ 30
  · rw [rvPlace_of_lt h, rvPlace_of_lt (part.mp h), Prod.mk.injEq] at same
    omega
  · obtain ⟨n, r, -, -, a_eq, place⟩ := exists_part_of_ge le ha (Nat.not_lt.mp h)
    obtain ⟨m, q, -, -, b_eq, place'⟩ := exists_part_of_ge le hb (Nat.not_lt.mp (mt part.mpr h))
    rw [place, place', Prod.mk.injEq] at same
    have well : n = m := by omega
    subst well
    have aligned : 3 * lg * 2 ^ 30 * n = 4096 * (3 * lg * 2 ^ 18 * n) := by ring
    omega

end

/-- Settles O38: each part of the map by itself, and the index tells the parts apart. -/
theorem reservoirPlacementIsInjective : Obligations.ReservoirPlacementIsInjective := by
  intro lg a b le ha hb
  exact ⟨rvPlace_of_lt, rvPlace_of_ge, rvPlace_fst_lt le ha, rvPlace_snd_lt le ha, granule_eq_of_rvPlace_eq le ha hb⟩

/-- Settles O39: within a stripe row a unit's package is its number's offset from the parity package's. -/
theorem stripeUnitsLieOnPackagesApart : Obligations.StripeUnitsLieOnPackagesApart := by
  intro a b
  simp only [aqPlace]
  refine ⟨by omega, by omega, by omega, fun row apart => ?_⟩
  omega

end Sys2Proof.Machine
end

section
/-!
SUPPORT. What a translation that succeeds allows (R424, R430, R431, R433, R434).
-/
namespace Sys2Proof.Machine

section
variable {s : State} {ctx va : Nat} {write : Bool} {l : Loc} {leaf : Leaf}

/-- The conditions of R430 to R434 on a leaf that an access may use. -/
structure State.Permits (s : State) (ctx : Nat) (write : Bool) (leaf : Leaf) : Prop where
  settled : bitOf leaf.val 56 = false
  reach : s.isolated ctx leaf = false
  read : write = false → bitOf leaf.val 58 = true
  write : write = true → bitOf leaf.val 57 = true ∧ bitOf leaf.val 55 = false

theorem State.translate_permits (h : s.translate ctx va write = .ok l) :
    ∃ leaf, s.leafOf ctx va write = .ok leaf ∧ s.Permits ctx write leaf ∧ leafTier leaf.val = some l.tier
      ∧ l.addr = leafFrame leaf.val + va % leaf.page := by
  unfold State.translate at h
  split at h
  · cases h
  next leaf found =>
    split_ifs at h with transit isolated unread unwritten locked
    split at h
    next t tier =>
      cases State.tierWait_ok h
      exact ⟨leaf, found, ⟨by simpa using transit, by simpa using isolated, by simp_all, by simp_all⟩, tier, rfl⟩
    · cases h

theorem State.range_of_leafOf (h : s.leafOf ctx va write = .ok leaf) : 65536 ≤ va ∧ va < 2 ^ 56 := by
  unfold State.leafOf at h
  split_ifs at h
  omega

/-- A leaf that the tables give is well formed (R431). -/
theorem State.walkTables_wellFormed {levels : List (Nat × Nat × Nat)} {table : Nat}
    (h : s.walkTables va levels table = .ok leaf) : leafMalformed leaf.val leaf.level = false := by
  induction levels generalizing table with
  | nil => cases h
  | cons entry levels ih =>
    unfold State.walkTables at h
    dsimp only at h
    split_ifs at h
    split at h
    · cases h
    · split at h
      · split_ifs at h
      · split_ifs at h
        exact ih h
      · split_ifs at h with bad
        cases h
        simpa using (not_or.mp bad).2
      · cases h

theorem State.leafWalk_wellFormed (h : s.leafWalk ctx va write = .ok leaf) :
    leafMalformed leaf.val leaf.level = false := by
  unfold State.leafWalk at h
  split at h
  · cases h
  · dsimp only at h
    split at h
    · cases h
    · cases h
    next walked =>
      cases h
      exact State.walkTables_wellFormed walked

theorem State.leafOf_wellFormed (h : s.leafOf ctx va write = .ok leaf)
    (miss : (ctxQ ctx).bind (fun q => s.tlbFind q (ctxNo ctx) va) = none) :
    leafMalformed leaf.val leaf.level = false := by
  unfold State.leafOf at h
  split_ifs at h
  rw [miss] at h
  exact State.leafWalk_wellFormed h

theorem Leaf.offset_lt (leaf : Leaf) (va : Nat) : va % leaf.page < leaf.page :=
  Nat.mod_lt _ (by obtain page | page := leaf.page_eq <;> rw [page] <;> decide)

/-- A cistern leaf in a context's reach lies in the job scratch of one of the context's wells (R434). -/
theorem State.Permits.cistern {w : Nat} (h : s.Permits ctx write leaf) (tier : leafTier leaf.val = some (.cistern w)) :
    devScratch ≤ leafFrame leaf.val ∧ leafFrame leaf.val + leaf.page ≤ cisternSize - s.cacheBytes w
      ∧ (ctxNo ctx < 12 → (s.partWells (ctxNo ctx)).contains w = true) := by
  have reach := h.reach
  simp only [State.isolated, tier, Bool.or_eq_false_iff, decide_eq_false_iff_not, Bool.and_eq_false_iff,
    decide_eq_false_iff_not, Bool.not_eq_false'] at reach
  obtain ⟨inside, own⟩ := reach
  exact ⟨by omega, by omega, fun job => own.resolve_left (not_not_intro job)⟩

/-- A well-formed leaf has its whole page in its tier (R431). -/
theorem page_of_wellFormed {t : Tier} (good : leafMalformed leaf.val leaf.level = false)
    (tier : leafTier leaf.val = some t) :
    leafFrame leaf.val + leaf.page ≤ t.size ∧ ∀ w, t = .cistern w → w < 12 := by
  simp only [leafMalformed, tier, Bool.or_eq_false_iff, decide_eq_false_iff_not] at good
  obtain ⟨⟨-, well⟩, fits⟩ := good
  refine ⟨Nat.not_lt.mp fits, fun w is => ?_⟩
  subst is
  simpa using well

end

/-- Settles O32: the translation has passed every check of its leaf, and the page holds the byte. -/
theorem translationRespectsTheLeaf : Obligations.TranslationRespectsTheLeaf := by
  intro s ctx va write l h
  obtain ⟨leaf, found, permits, tier, addr⟩ := State.translate_permits h
  have range := State.range_of_leafOf found
  have offset := leaf.offset_lt va
  refine ⟨range.1, range.2, leaf, found, tier, addr, permits.settled, permits.read, permits.write, fun w is => ?_,
    fun good => ?_, State.leafOf_wellFormed found⟩
  · obtain ⟨above, below, own⟩ := permits.cistern (is ▸ tier)
    exact ⟨by omega, by omega, own⟩
  · obtain ⟨fits, well⟩ := page_of_wellFormed good tier
    exact ⟨by omega, well⟩

end Sys2Proof.Machine
end

section
/-!
SUPPORT. Moves of the migration engine: their copies, leaves and counts (R38, R448, R464).
-/
namespace Sys2Proof.Machine

/-! ### Bytes of guarded words (R12, R36) -/

theorem leVal_take_leBytes {k n : Nat} (h : k ≤ n) (v : Nat) : leVal ((leBytes n v).take k) = v % 256 ^ k := by
  induction k generalizing n v with
  | zero => simp [leVal, Nat.mod_one]
  | succ k ih =>
    obtain ⟨m, rfl⟩ : ∃ m, n = m + 1 := ⟨n - 1, by omega⟩
    have split : v % 256 ^ (k + 1) = v % 256 + 256 * (v / 256 % 256 ^ k) := by rw [Nat.pow_succ', Nat.mod_mul]
    rw [leBytes, List.take_succ_cons, leVal, ih (by omega), BitVec.toNat_ofNat, split]

theorem memRead_write_take (m : Mem) (a : Nat) {bs : List Byte} {n : Nat} (h : n ≤ bs.length) :
    memRead (memWrite m a bs) a n = bs.take n := by
  refine List.ext_getElem (by simp [memRead, h]) fun i h1 h2 => ?_
  have inside : i < bs.length := by simp at h2; omega
  simp [memRead, memGet_write, inside]

theorem memRead_write_apart (m : Mem) {a b n : Nat} {bs : List Byte} (h : b + n ≤ a ∨ a + bs.length ≤ b) :
    memRead (memWrite m a bs) b n = memRead m b n := by
  refine List.map_congr_left fun i hi => memGet_write_ne m a (b + i) bs ?_
  have := List.mem_range.mp hi
  omega

theorem ofNat_guard64 (v : Word) : BitVec.ofNat 64 ((guard64 v).toNat % 256 ^ 8) = v := by
  have low : (guard64 v).setWidth 64 = v := BitVec.setWidth_append_eq_right
  apply BitVec.eq_of_toNat_eq
  rw [BitVec.toNat_ofNat, show (256 : Nat) ^ 8 = 2 ^ 64 by norm_num, Nat.mod_mod, ← BitVec.toNat_setWidth, low]

/-! ### Leaves (R463) -/

section
variable (s : State) (at_ : Nat) (v : Word)

theorem State.setLeaf_eq :
    s.setLeaf at_ v = { s with reservoir := memWrite s.reservoir at_ (leBytes 16 (guard64 v).toNat) } := rfl

theorem State.leafAt_setLeaf : (s.setLeaf at_ v).leafAt at_ = v := by
  unfold State.leafAt
  rw [State.setLeaf_eq]
  show BitVec.ofNat 64 (leVal (memRead _ at_ 8)) = v
  rw [memRead_write_take _ _ (by simp), leVal_take_leBytes (by decide), ofNat_guard64]

theorem State.leafAt_of_reservoir {s t : State} (h : t.reservoir = s.reservoir) (at_ : Nat) :
    t.leafAt at_ = s.leafAt at_ := by
  unfold State.leafAt State.rawRead
  rw [h]

end

/-! ### Lines recalled (R533, R542) -/

/-- t is s but for registers, lines of the well caches and the directory. -/
def OnlyLines (s t : State) : Prop := ∃ regs lines dir, t = { s with regs := regs, lines := lines, dir := dir }

section
variable {s t u : State}

theorem OnlyLines.refl : OnlyLines s s := ⟨_, _, _, rfl⟩

theorem OnlyLines.trans (h : OnlyLines s t) (k : OnlyLines t u) : OnlyLines s u := by
  obtain ⟨r, l, d, rfl⟩ := h
  obtain ⟨r', l', d', rfl⟩ := k
  exact ⟨r', l', d', rfl⟩

theorem OnlyLines.foldl {α : Type} {f : State → α → State} (hf : ∀ t a, OnlyLines t (f t a)) :
    ∀ (l : List α) (s : State), OnlyLines s (l.foldl f s)
  | [], _ => .refl
  | a :: l, s => (hf s a).trans (OnlyLines.foldl hf l (f s a))

theorem OnlyRegs.onlyLines (h : OnlyRegs s t) : OnlyLines s t := by
  obtain ⟨regs, rfl⟩ := h
  exact ⟨_, _, _, rfl⟩

theorem OnlyLines.frame (h : OnlyLines s t) : { t with lines := s.lines, dir := s.dir, regs := s.regs } = s := by
  obtain ⟨r, l, d, rfl⟩ := h
  rfl

theorem OnlyLines.sameMem (h : OnlyLines s t) : sameMem s t := by
  obtain ⟨r, l, d, rfl⟩ := h
  exact ⟨rfl, rfl, rfl, rfl, rfl, rfl⟩

theorem OnlyLines.engine (h : OnlyLines s t) : t.engine = s.engine := by
  obtain ⟨r, l, d, rfl⟩ := h
  rfl

theorem OnlyLines.jobs (h : OnlyLines s t) : t.jobs = s.jobs := by
  obtain ⟨r, l, d, rfl⟩ := h
  rfl

theorem OnlyLines.wells (h : OnlyLines s t) : t.wells = s.wells := by
  obtain ⟨r, l, d, rfl⟩ := h
  rfl

theorem State.setLine_onlyLines (w line : Nat) (st : Option LineSt) : OnlyLines s (s.setLine w line st) :=
  ⟨_, _, _, rfl⟩
theorem State.dirErase_onlyLines (line : Nat) : OnlyLines s (s.dirErase line) := ⟨_, _, _, rfl⟩
theorem State.incFld_onlyLines (o hi lo n : Nat) : OnlyLines s (s.incFld o hi lo n) := ⟨_, _, _, rfl⟩

theorem State.writeBack_onlyLines (w : Nat) : OnlyLines s (s.writeBack w) :=
  (s.incFld_onlyLines ..).trans (State.onlyRegs_countEv ..).onlyLines

theorem State.invalLine_onlyLines (w line : Nat) : OnlyLines s (s.invalLine w line) :=
  (s.incFld_onlyLines ..).trans (State.setLine_onlyLines ..)

theorem State.dropLine_onlyLines (w line : Nat) : OnlyLines s (s.dropLine w line) := by
  unfold State.dropLine
  dsimp only
  split
  · exact (s.writeBack_onlyLines w).trans (State.invalLine_onlyLines ..)
  · exact s.invalLine_onlyLines w line

theorem State.recallLine_onlyLines (line : Nat) : OnlyLines s (s.recallLine line) := by
  unfold State.recallLine
  split
  · exact .refl
  · exact (OnlyLines.foldl (fun t w => t.dropLine_onlyLines w line) _ s).trans (State.dirErase_onlyLines _)

theorem State.recallLoc_onlyLines (l : Loc) (n : Nat) : OnlyLines s (s.recallLoc l n) := by
  unfold State.recallLoc
  split
  · exact OnlyLines.foldl (fun t line => t.recallLine_onlyLines line) _ s
  · exact .refl

end

/-! ### A move that drains (R464 orders 3 and 4) -/

section
variable {s : State} {n k : Nat} {m : Move} {v : Word}

/-- The leaf of a move marked COPYING and the lines of its page recalled. -/
def State.drained4 (s : State) (m : Move) (v : Word) : State :=
  (s.setLeaf m.at_ (leafPhase v 2)).recallLoc m.src m.size

/-- Move n copies through pump k. -/
def State.copyingBy (s : State) (n k : Nat) (m : Move) : State :=
  { s with engine := { s.engine with moves := s.engine.moves.set n { m with copying := true, pump := some k } } }

theorem exec_moveDrainDone (at_n : s.engine.moves[n]? = some m) (drains : m.copying = false)
    (pump : s.movePump = some k) (leaf : s.leafGet m.at_ = .ok v) :
    exec (.moveDrainDone n) s = .next ((s.drained4 m v).copyingBy n k m) := by
  show execMoveDrainDone n s = _
  unfold execMoveDrainDone
  simp only [at_n, needSome, drains, need, pump, leaf, Bool.not_false, if_true]
  rfl

theorem moveDrainDone_leaves :
    let t := (s.drained4 m v).copyingBy n k m
    t.engine = { s.engine with moves := s.engine.moves.set n { m with copying := true, pump := some k } }
      ∧ t.leafAt m.at_ = leafPhase v 2
      ∧ (∀ a, a < m.at_ ∨ m.at_ + 16 ≤ a → memGet t.reservoir a = memGet s.reservoir a)
      ∧ t.cistern = s.cistern ∧ t.aquifer = s.aquifer ∧ t.hostMem = s.hostMem ∧ t.jobs = s.jobs := by
  obtain ⟨regs, lines, dir, recalled⟩ := State.recallLoc_onlyLines (s := s.setLeaf m.at_ (leafPhase v 2)) m.src m.size
  have written := s.leafAt_setLeaf m.at_ (leafPhase v 2)
  unfold State.drained4
  rw [recalled, State.setLeaf_eq]
  rw [State.setLeaf_eq] at written
  refine ⟨rfl, (State.leafAt_of_reservoir rfl _).trans written, fun a apart => ?_, rfl, rfl, rfl, rfl⟩
  exact memGet_write_ne _ _ _ _ (by simpa using apart)

end

/-! ### A move that ends (R464 orders 5 and 6) -/

section
variable {s t : State} {m : Move} {v : Word}

theorem State.kvcAdd_onlyRegs (p : Nat) (tier : Tier) (more : Bool) : OnlyRegs s (s.kvcAdd p tier more) := by
  unfold State.kvcAdd
  split
  · exact .refl
  · exact ⟨_, rfl⟩

theorem State.reg_kvcAdd {o : Nat} (p : Nat) (tier : Tier) (more : Bool) (low : o < 0x60200) :
    (s.kvcAdd p tier more).reg o = s.reg o := by
  unfold State.kvcAdd
  split
  · rfl
  · exact State.reg_setFld_ne _ _ _ _ (by unfold rMgKvcTier; omega)

theorem State.reg_clearPoison {o : Nat} (l : Loc) (n : Nat) (other : o ≠ rRvEcc) (global : o < 0x1000000) :
    (s.clearPoison l n).reg o = s.reg o := by
  have recount (u : State) (tier : Tier) : (u.recountPoison tier).reg o = u.reg o := by
    unfold State.recountPoison
    split
    · exact State.reg_setFld_ne _ _ _ _ (by have := le_rWl ‹_› 0x188; unfold rWlCisEcc; omega)
    · exact State.reg_setFld_ne _ _ _ _ other
    · rfl
  unfold State.clearPoison
  dsimp only
  split
  · rfl
  · exact recount _ _

/-- The page of a move copied and its leaf repointed. -/
def State.moved (s : State) (m : Move) (v : Word) : State :=
  (s.copyPage m.src m.dst m.size).setLeaf m.at_ (leafPhase (leafPlace v m.dst) 0)

theorem State.reg_rawWrite (l : Loc) (bs : List Byte) (o : Nat) : (s.rawWrite l bs).reg o = s.reg o := by
  unfold State.rawWrite
  split <;> rfl

theorem State.fld_moved (hi lo : Nat) : (s.moved m v).fld rMgStat hi lo = s.fld rMgStat hi lo := by
  unfold State.fld State.moved State.setLeaf State.copyPage
  rw [State.reg_rawWrite, State.reg_rawWrite, State.reg_clearPoison _ _ (by decide) (by decide)]

/-- t is s but for registers and jobs, and MG_STAT stays. -/
structure KeepsStat (s t : State) : Prop where
  only : ∃ regs jobs, t = { s with regs := regs, jobs := jobs }
  stat : t.reg rMgStat = s.reg rMgStat

theorem KeepsStat.modJob (j : Nat) (f : Job → Job) : KeepsStat s (s.modJob j f) := ⟨⟨_, _, rfl⟩, rfl⟩

theorem KeepsStat.onlyRegs {u : State} (h : KeepsStat s t) (k : OnlyRegs t u) (stat : u.reg rMgStat = t.reg rMgStat) :
    KeepsStat s u := by
  obtain ⟨⟨r, j, rfl⟩, same⟩ := h
  obtain ⟨r', rfl⟩ := k
  exact ⟨⟨r', j, rfl⟩, stat.trans same⟩

theorem KeepsStat.kvcMove (h : KeepsStat s t) (p : Nat) (a b : Tier) : KeepsStat s (t.kvcMove p a b) :=
  (h.onlyRegs (State.kvcAdd_onlyRegs ..) (State.reg_kvcAdd _ _ _ (by decide))).onlyRegs (State.kvcAdd_onlyRegs ..)
    (State.reg_kvcAdd _ _ _ (by decide))

theorem KeepsStat.incKvc (h : KeepsStat s t) (p : Nat) : KeepsStat s (t.incFld (rMgKvcCnt p) 31 0 1) :=
  h.onlyRegs ⟨_, rfl⟩ (State.reg_incFld_ne _ _ _ _ (by unfold rMgStat rMgKvcCnt; omega))

theorem KeepsStat.ite {u : State} {c : Prop} [Decidable c] (h : KeepsStat s t) (k : KeepsStat s u) :
    KeepsStat s (if c then t else u) := by
  split
  · exact h
  · exact k

theorem State.endMove_ok (leaf : s.leafGet m.at_ = .ok v) :
    ∃ u, KeepsStat (s.moved m v) u ∧ s.endMove m = .ok (u.incFld rMgStat 63 32 1) := by
  have given : KeepsStat (s.moved m v) ((s.moved m v).modJob m.job (fun j => j.giveFrame m.src m.size)) :=
    .modJob _ _
  unfold State.endMove
  simp only [leaf, bind, Except.bind, pure, Except.pure]
  exact ⟨_, ((given.kvcMove ..).ite given).incKvc _ |>.ite ((given.kvcMove ..).ite given), rfl⟩

/-- The page of a move lies in its new frame, where the leaf's entry does not overlap it. -/
theorem State.rawRead_moved (apart : m.dst.tier ≠ .reservoir ∨ m.at_ + 16 ≤ m.dst.addr ∨ m.dst.addr + m.size ≤ m.at_) :
    (s.moved m v).rawRead m.dst m.size = s.rawRead m.src m.size := by
  have length : (s.rawRead m.src m.size).length = m.size := by
    unfold State.rawRead
    split <;> simp [memRead]
  have copied : (s.copyPage m.src m.dst m.size).rawRead m.dst m.size = s.rawRead m.src m.size := by
    have := State.rawRead_rawWrite (s.clearPoison m.dst m.size) m.dst (s.rawRead m.src m.size)
    rwa [length] at this
  refine Eq.trans ?_ copied
  unfold State.moved
  rw [State.setLeaf_eq]
  unfold State.rawRead
  split
  · rfl
  next tier => exact memRead_write_apart _ (by
      have := apart.resolve_left (not_not_intro tier)
      simp only [length_leBytes]
      omega)
  · rfl
  · rfl

theorem State.leafGet_withEngine (e : Engine) (a : Nat) : { s with engine := e }.leafGet a = s.leafGet a := rfl

/-- s without a move in its engine. -/
def State.without (s : State) (m : Move) : State :=
  { s with engine := { s.engine with moves := s.engine.moves.erase m } }

theorem exec_moveCopyComplete {n : Nat} (at_n : s.engine.moves[n]? = some m) (copies : m.copying = true)
    (judged : s.copyJudge m.va m.src m.dst m.size = .ok ()) (leaf : s.leafGet m.at_ = .ok v) :
    ∃ u, KeepsStat ((s.without m).moved m v) u ∧ exec (.moveCopyComplete n) s = .next (u.incFld rMgStat 63 32 1) := by
  obtain ⟨u, keeps, ended⟩ := State.endMove_ok (s := s.without m) (m := m) (v := v) leaf
  refine ⟨u, keeps, ?_⟩
  show execMoveCopyComplete n s = _
  unfold execMoveCopyComplete State.finishMove
  simp only [at_n, needSome, copies, need, if_true, judged, bind, Except.bind]
  rw [show ({ s with engine := { s.engine with moves := s.engine.moves.erase m } } : State).endMove m = _ from ended]

theorem State.clearPoison_only (l : Loc) (n : Nat) :
    ∃ regs poison, s.clearPoison l n = { s with regs := regs, poison := poison } := by
  unfold State.clearPoison State.recountPoison
  dsimp only
  split
  · exact ⟨_, _, rfl⟩
  · split <;> exact ⟨_, _, rfl⟩

theorem State.moved_frame : ∃ regs poison cistern reservoir aquifer hostMem, s.moved m v
    = { s with regs := regs, poison := poison, cistern := cistern, reservoir := reservoir, aquifer := aquifer,
               hostMem := hostMem } := by
  obtain ⟨regs, poison, cleared⟩ : ∃ regs poison, s.clearPoison m.dst m.size = { s with regs := regs, poison := poison } :=
    State.clearPoison_only ..
  unfold State.moved State.copyPage
  rw [cleared, State.setLeaf_eq]
  unfold State.rawWrite
  split
  · exact ⟨_, _, _, _, _, _, rfl⟩
  · exact ⟨_, _, _, _, _, _, rfl⟩
  · exact ⟨_, _, _, _, _, _, rfl⟩
  · exact ⟨_, _, _, _, _, _, rfl⟩

end

/-- Settles O34: the drained move marks its leaf COPYING; its end copies the page, then repoints the leaf. -/
theorem movesCopyTheirPage : Obligations.MovesCopyTheirPage := by
  intro s n m at_n
  refine ⟨fun k v drains pump leaf => ⟨_, exec_moveDrainDone at_n drains pump leaf, moveDrainDone_leaves⟩,
    fun v copies judged leaf apart => ?_⟩
  obtain ⟨u, ⟨⟨regs, jobs, only⟩, stat⟩, run⟩ := exec_moveCopyComplete at_n copies judged leaf
  obtain ⟨regs', poison, cistern, reservoir, aquifer, hostMem, frame⟩ := State.moved_frame (s := s.without m) (m := m) (v := v)
  refine ⟨_, run, ?_, ?_, ?_, ?_, ?_⟩
  · rw [State.incFld_engine, only, frame]
    rfl
  · have same : (u.incFld rMgStat 63 32 1).reservoir = ((s.without m).moved m v).reservoir := by
      rw [State.incFld_reservoir, only]
    exact (State.leafAt_of_reservoir same _).trans (State.leafAt_setLeaf ..)
  · have same : sameMem ((s.without m).moved m v) (u.incFld rMgStat 63 32 1) :=
      sameMem.trans (t := u) (by rw [only]; exact ⟨rfl, rfl, rfl, rfl, rfl, rfl⟩) (State.incFld_onlyLines ..).sameMem
    rw [State.rawRead_of_sameMem same, State.rawRead_moved apart]
    exact State.rawRead_of_sameMem ⟨rfl, rfl, rfl, rfl, rfl, rfl⟩ _ _
  · rw [State.fld_incFld _ (by decide) (by decide), State.fld, stat]
    exact congrArg (fun x => min (x + 1) _) (State.fld_moved ..)
  · rw [State.incFld_wells, only, frame]
    rfl

end Sys2Proof.Machine
end

section
/-!
SUPPORT. Lines of the well caches and their directory entries: grants, evictions and recalls (R529 to R535).
-/
namespace Sys2Proof.Machine

/-! ### Lines and entries read back (R531, R532) -/

section
variable {s t : State} {w v line : Nat}

theorem State.lineSt_setLine (w line : Nat) (st : Option LineSt) : (s.setLine w line st).lineSt w line = st := by
  have absent : ((s.lineSet w line).filter (fun e => e.1 != line)).find? (fun e => e.1 == line) = none := by
    simp [List.find?_eq_none]
  have set : (s.setLine w line st).lineSet w line
      = (st.map (fun x => (line, x))).toList ++ (s.lineSet w line).filter (fun e => e.1 != line) :=
    tabGet_put_self ..
  rw [State.lineSt, set, List.find?_append, absent]
  cases st <;> simp

/-- Well caches of at most 8 × 16384 sets keep their lines apart. -/
theorem State.lineSt_setLine_ne (small : ∀ v, tabGet 4 s.caches v ≤ 8) (other : v ≠ w) (line l : Nat)
    (st : Option LineSt) : (s.setLine w line st).lineSt v l = s.lineSt v l := by
  have apart : s.lineKey v l ≠ s.lineKey w line := fun same =>
    other (by rw [← State.lineKey_div (small v) l, same, State.lineKey_div (small w)])
  have set : (s.setLine w line st).lineSet v l = s.lineSet v l := tabGet_put_ne _ _ _ apart
  rw [State.lineSt, set, State.lineSt]

theorem OnlyRegs.lineSt (h : OnlyRegs s t) (w line : Nat) : t.lineSt w line = s.lineSt w line := by
  obtain ⟨regs, rfl⟩ := h
  rfl

theorem OnlyRegs.dirEntry (h : OnlyRegs s t) (line : Nat) : t.dirEntry line = s.dirEntry line := by
  obtain ⟨regs, rfl⟩ := h
  rfl

theorem OnlyLines.caches (h : OnlyLines s t) : t.caches = s.caches := by
  obtain ⟨r, l, d, rfl⟩ := h
  rfl

/-- Bounds of the caches pass to a state whose lines alone differ. -/
theorem OnlyLines.small (h : OnlyLines s t) (small : ∀ v, tabGet 4 s.caches v ≤ 8) : ∀ v, tabGet 4 t.caches v ≤ 8 := by
  rw [h.caches]
  exact small

theorem OnlyLines.wellCtx (h : OnlyLines s t) (w : Nat) : t.wellCtx w = s.wellCtx w := by
  obtain ⟨r, l, d, rfl⟩ := h
  rfl

theorem State.dirEntry_dirPut (e : DirEntry) : (s.dirPut e).dirEntry e.line = some e := by
  rw [State.dirEntry, State.dirPut, tabMod, tabGet_put_self, List.find?_cons, beq_self_eq_true]

theorem State.dirEntry_dirErase (line : Nat) : (s.dirErase line).dirEntry line = none := by
  rw [State.dirEntry, State.dirErase, tabMod, tabGet_put_self]
  simp [List.find?_eq_none]

theorem State.dirEntry_dirErase_ne (other : line ≠ v) : (s.dirErase v).dirEntry line = s.dirEntry line := by
  unfold State.dirEntry State.dirErase tabMod
  rw [tabGet_put]
  split
  next same =>
    rw [same, List.find?_filter]
    refine congrArg (List.find? · _) (funext fun e => ?_)
    by_cases h : e.line = line <;> simp [h, other]
  · rfl

theorem State.incFld_onlyRegs (o hi lo n : Nat) : OnlyRegs s (s.incFld o hi lo n) := ⟨_, rfl⟩

theorem State.cacheMiss_onlyRegs (w : Nat) : OnlyRegs s (s.cacheMiss w) :=
  ((s.incFld_onlyRegs ..).trans (State.incFld_onlyRegs ..)).trans (State.onlyRegs_countEv ..)

theorem State.writeBack_onlyRegs (w : Nat) : OnlyRegs s (s.writeBack w) :=
  (s.incFld_onlyRegs ..).trans (State.onlyRegs_countEv ..)

end

/-! ### Evictions and recalls (R403, R533, R534) -/

section
variable {s t : State} {w v line : Nat}

theorem State.evict_onlyLines (w line : Nat) : OnlyLines s (s.evict w line) := by
  have erased : OnlyLines s (((s.setLine w line none).dirErase line).dirReq) :=
    ((s.setLine_onlyLines ..).trans (State.dirErase_onlyLines _)).trans (State.incFld_onlyLines ..)
  unfold State.evict
  split
  · exact .refl
  · exact s.setLine_onlyLines ..
  · exact erased
  · exact erased.trans (State.writeBack_onlyLines _)

theorem State.wayFor_onlyLines (w line : Nat) : OnlyLines s (s.wayFor w line) := by
  unfold State.wayFor
  dsimp only
  split
  · exact .refl
  · split
    · exact s.evict_onlyLines ..
    · exact .refl

theorem State.dirRoom_onlyLines (line : Nat) : OnlyLines s (s.dirRoom line) := by
  unfold State.dirRoom
  dsimp only
  split
  · exact .refl
  · split
    · exact (s.recallLine_onlyLines _).trans (State.incFld_onlyLines ..)
    · exact .refl

theorem State.dirPut_onlyLines (e : DirEntry) : OnlyLines s (s.dirPut e) := ⟨_, _, _, rfl⟩

theorem State.dirEntry_evict_ne (other : line ≠ v) : (s.evict w v).dirEntry line = s.dirEntry line := by
  have erased : (((s.setLine w v none).dirErase v).dirReq).dirEntry line = s.dirEntry line :=
    ((State.incFld_onlyRegs ..).dirEntry _).trans (State.dirEntry_dirErase_ne other)
  unfold State.evict
  split
  · rfl
  · rfl
  · exact erased
  · exact ((State.writeBack_onlyRegs _).dirEntry _).trans erased

/-- A way is made by evicting another line, whose entry alone changes. -/
theorem State.dirEntry_wayFor (w line : Nat) : (s.wayFor w line).dirEntry line = s.dirEntry line := by
  unfold State.wayFor
  dsimp only
  split
  · rfl
  next short =>
    split
    next e last =>
      refine State.dirEntry_evict_ne fun same => short (.inl ?_)
      have there : e ∈ s.lineSet w line := List.mem_of_getLast? last
      rw [State.lineSt, Option.isSome_map, List.find?_isSome]
      exact ⟨e, there, by simp [same]⟩
    · rfl

theorem State.dirRoom_of_entry (h : (s.dirEntry line).isSome = true) : s.dirRoom line = s := by
  unfold State.dirRoom
  rw [if_pos (.inl h)]

/-- An invalidation at one well invalidates no line elsewhere. -/
theorem State.lineSt_invalLine_none (small : ∀ v, tabGet 4 s.caches v ≤ 8) (h : v = w ∨ s.lineSt v line = none) :
    (s.invalLine w line).lineSt v line = none := by
  by_cases same : v = w
  · rw [same]
    exact State.lineSt_setLine ..
  · have counted : OnlyRegs s (s.incFld (rWlWcEvt w) 31 16 1) := State.incFld_onlyRegs ..
    rw [State.invalLine, State.lineSt_setLine_ne (counted.onlyLines.small small) same, counted.lineSt]
    exact h.resolve_left same

theorem State.lineSt_foldl_invalLine (line v : Nat) (l : List Nat) (s : State)
    (small : ∀ v, tabGet 4 s.caches v ≤ 8) (h : v ∈ l ∨ s.lineSt v line = none) :
    (l.foldl (fun t u => t.invalLine u line) s).lineSt v line = none := by
  induction l generalizing s with
  | nil => simpa using h
  | cons u l ih =>
    have only : OnlyLines s (s.invalLine u line) := s.invalLine_onlyLines u line
    rw [List.foldl_cons]
    refine ih (s.invalLine u line) (only.small small) ?_
    rcases h with h | h
    · exact (List.mem_cons.mp h).symm.imp_right fun same => State.lineSt_invalLine_none small (.inl same)
    · exact .inr (State.lineSt_invalLine_none small (.inr h))

theorem State.foldl_invalLine_onlyLines (line : Nat) (l : List Nat) :
    OnlyLines s (l.foldl (fun t u => t.invalLine u line) s) :=
  OnlyLines.foldl (fun t u => t.invalLine_onlyLines u line) l s

end

/-! ### Requests of a well (R534) -/

section
variable {s t : State} {w c va line : Nat}

/-- GETS grants the line SHARED or EXCLUSIVE, with an entry. -/
theorem State.dirGets_grants (w line : Nat) : ∃ u e st, OnlyLines s u ∧ e.line = line
    ∧ (st = .shared ∨ st = .exclusive) ∧ s.dirGets w line = (u.dirPut e).setLine w line (some st) := by
  have room : OnlyLines s ((s.wayFor w line).dirRoom line) :=
    (s.wayFor_onlyLines w line).trans (State.dirRoom_onlyLines line)
  unfold State.dirGets
  dsimp only
  split
  · exact ⟨_, _, _, room, rfl, .inr rfl, rfl⟩
  · split
    · split
      · exact ⟨_, _, _, room, rfl, .inr rfl, rfl⟩
      next v _ _ =>
        refine ⟨_, _, _, room.trans ?_, rfl, .inl rfl, rfl⟩
        refine OnlyLines.trans ?_ (State.onlyRegs_countEv ..).onlyLines
        refine OnlyLines.trans (OnlyLines.trans ?_ (State.setLine_onlyLines v line (some .shared)))
          (State.incFld_onlyLines rCdStat 15 0 1)
        split
        · exact State.writeBack_onlyLines v
        · exact .refl
    · split
      · exact ⟨_, _, _, room, rfl, .inr rfl, rfl⟩
      · exact ⟨_, _, _, room, rfl, .inl rfl, rfl⟩

/-- What GETX invalidates before the well takes the line. -/
def State.getxDrops (s : State) (w line : Nat) (full : Bool) : State :=
  match s.dirEntry line with
  | none => s
  | some e =>
    let s := if e.owner.isSome && e.owner != some w && !full then
        (s.incFld rCdStat 15 0 1).sendLine (e.owner.getD w)
      else s
    (e.holders.filter (· != w)).foldl (fun t v => t.invalLine v line) s

theorem State.dirGetx_eq (w line : Nat) (full : Bool) : s.dirGetx w line full
    = ((((s.wayFor w line).dirRoom line).getxDrops w line full).dirPut { line := line, owner := some w }).setLine w line
        (some .modified) := rfl

theorem State.getxDrops_onlyLines (w line : Nat) (full : Bool) : OnlyLines s (s.getxDrops w line full) := by
  unfold State.getxDrops
  split
  · exact .refl
  · refine OnlyLines.trans ?_ (State.foldl_invalLine_onlyLines line _)
    split
    · exact (s.incFld_onlyLines ..).trans (State.onlyRegs_countEv ..).onlyLines
    · exact .refl

/-- Every other holder of the line drops it. -/
theorem State.lineSt_getxDrops (small : ∀ v, tabGet 4 s.caches v ≤ 8) {e : DirEntry} (entry : s.dirEntry line = some e)
    {v : Nat} (holds : v ∈ e.holders) (other : v ≠ w) (full : Bool) : (s.getxDrops w line full).lineSt v line = none := by
  unfold State.getxDrops
  rw [entry]
  refine State.lineSt_foldl_invalLine line v _ _ ?_ (.inl (by simp [holds, other]))
  split
  · exact ((s.incFld_onlyLines ..).trans (State.onlyRegs_countEv ..).onlyLines).small small
  · exact small

/-- GETX and GETXF grant the line MODIFIED, with the well as its only holder. -/
theorem State.dirGetx_grants (small : ∀ v, tabGet 4 s.caches v ≤ 8) (w line : Nat) (full : Bool) :
    OnlyLines s (s.dirGetx w line full)
      ∧ (s.dirGetx w line full).lineSt w line = some .modified
      ∧ (s.dirGetx w line full).dirEntry line = some { line := line, owner := some w }
      ∧ ∀ e v, s.dirEntry line = some e → v ∈ e.holders → v ≠ w → (s.dirGetx w line full).lineSt v line = none := by
  have way := s.wayFor_onlyLines w line
  have drops := (way.trans (State.dirRoom_onlyLines line)).trans (State.getxDrops_onlyLines w line full)
  rw [State.dirGetx_eq]
  refine ⟨(drops.trans (State.dirPut_onlyLines _)).trans (State.setLine_onlyLines ..), State.lineSt_setLine ..,
    State.dirEntry_dirPut (DirEntry.mk line (some w) []), fun e v entry holds other => ?_⟩
  have room : (s.wayFor w line).dirEntry line = some e := (s.dirEntry_wayFor w line).trans entry
  refine (State.lineSt_setLine_ne ((drops.trans (State.dirPut_onlyLines _)).small small) other ..).trans ?_
  rw [State.dirRoom_of_entry (by rw [room]; rfl)]
  exact State.lineSt_getxDrops (way.small small) room holds other full

/-- A counted fill changes nothing but the engine. -/
theorem State.countPage_only (w c va : Nat) : ∃ engine, s.countPage w c va = { s with engine := engine } := by
  unfold State.countPage State.countFill
  split
  · dsimp only
    split
    · exact ⟨_, rfl⟩
    · exact ⟨_, rfl⟩
  · exact ⟨_, rfl⟩

theorem State.lineSt_countPage (w c va v line : Nat) : (s.countPage w c va).lineSt v line = s.lineSt v line := by
  obtain ⟨engine, only⟩ := s.countPage_only w c va
  rw [only]
  rfl

theorem State.dirEntry_countPage (w c va line : Nat) : (s.countPage w c va).dirEntry line = s.dirEntry line := by
  obtain ⟨engine, only⟩ := s.countPage_only w c va
  rw [only]
  rfl

/-- What a request changes no part of: memories, wells and jobs. -/
def State.restStays (s t : State) : Prop := sameMem s t ∧ t.wells = s.wells ∧ t.jobs = s.jobs

theorem OnlyLines.rest (h : OnlyLines s t) : s.restStays t := ⟨h.sameMem, h.wells, h.jobs⟩

theorem State.restStays.countPage (h : s.restStays t) (w c va : Nat) : s.restStays (t.countPage w c va) := by
  obtain ⟨engine, only⟩ := t.countPage_only w c va
  obtain ⟨mem, wells, jobs⟩ := h
  rw [only]
  exact ⟨mem, wells, jobs⟩

theorem lineReq_of {write full : Bool} {held : List LineSt} {f : State → Nat → State} (cache : tabGet 4 s.caches w ≠ 0)
    (ctx : s.wellCtx w = some c) (at_ : s.lineAt c va write = some line)
    (miss : (s.lineSt w line).any held.contains = false) :
    s.lineReq w va write full held .sound f = .next (f (s.cacheMiss w) line) := by
  unfold State.lineReq
  rw [need_of (by simpa using cache), ctx]
  simp only [Option.bind_some, at_, needSome_some]
  rw [need_of (by rw [miss]; rfl)]
  rfl

end

/-! ### Requests as commands -/

section
variable {s : State} {w : WellId} {va : Word} {c line : Nat}

theorem exec_gets : exec (.gets w va .sound) s
    = s.lineReq w va.toNat false false [.shared, .exclusive, .modified] .sound (fun t line =>
        (t.dirGets w line).countPage w ((t.wellCtx w).getD 12) va.toNat) := rfl

theorem exec_getx : exec (.getx w va .sound) s
    = s.lineReq w va.toNat true false [.exclusive, .modified] .sound (fun t line =>
        (t.dirGetx w line false).countPage w ((t.wellCtx w).getD 12) va.toNat) := rfl

theorem exec_getxf : exec (.getxf w va .sound) s
    = s.lineReq w va.toNat true true [.exclusive, .modified] .sound (fun t line => t.dirGetx w line true) := rfl

theorem gets_grants (cache : tabGet 4 s.caches w ≠ 0) (ctx : s.wellCtx w = some c)
    (at_ : s.lineAt c va.toNat false = some line) (miss : s.lineSt w line = none) :
    ∃ t, exec (.gets w va .sound) s = .next t ∧ (t.lineSt w line = some .shared ∨ t.lineSt w line = some .exclusive)
      ∧ (t.dirEntry line).isSome = true ∧ s.restStays t := by
  obtain ⟨u, e, st, only, rfl, state, grants⟩ := (s.cacheMiss w).dirGets_grants w line
  have reach := ((s.cacheMiss_onlyRegs w).onlyLines.trans only).trans (State.dirPut_onlyLines e)
  refine ⟨_, exec_gets.trans (lineReq_of cache ctx at_ (by rw [miss]; rfl)), ?_⟩
  rw [grants, State.lineSt_countPage, State.dirEntry_countPage, State.lineSt_setLine]
  refine ⟨by simpa using state, ?_, (reach.trans (State.setLine_onlyLines ..)).rest.countPage ..⟩
  exact Option.isSome_of_eq_some (State.dirEntry_dirPut e)

/-- What GETX and GETXF leave of their line. -/
def State.ownsAlone (s t : State) (w line : Nat) : Prop :=
  t.lineSt w line = some .modified ∧ t.dirEntry line = some { line := line, owner := some w }
    ∧ ∀ e v, s.dirEntry line = some e → v ∈ e.holders → v ≠ w → t.lineSt v line = none

theorem State.ownsAlone.countPage {t : State} {w : Nat} (h : s.ownsAlone t w line) (c va : Nat) :
    s.ownsAlone (t.countPage w c va) w line := by
  obtain ⟨state, entry, dropped⟩ := h
  refine ⟨?_, ?_, fun e v h1 h2 h3 => ?_⟩
  · rw [State.lineSt_countPage, state]
  · rw [State.dirEntry_countPage, entry]
  · rw [State.lineSt_countPage, dropped e v h1 h2 h3]

theorem State.dirGetx_ownsAlone (small : ∀ v, tabGet 4 s.caches v ≤ 8) (w line : Nat) (full : Bool) :
    s.ownsAlone ((s.cacheMiss w).dirGetx w line full) w line ∧ s.restStays ((s.cacheMiss w).dirGetx w line full) := by
  have counted := s.cacheMiss_onlyRegs w
  obtain ⟨lines, state, entry, dropped⟩ := State.dirGetx_grants (counted.onlyLines.small small) w line full
  exact ⟨⟨state, entry, fun e v h => dropped e v ((counted.dirEntry _).trans h)⟩, (counted.onlyLines.trans lines).rest⟩

theorem getx_grants (small : ∀ v, tabGet 4 s.caches v ≤ 8) (cache : tabGet 4 s.caches w ≠ 0)
    (ctx : s.wellCtx w = some c) (at_ : s.lineAt c va.toNat true = some line)
    (unowned : s.lineSt w line = none ∨ s.lineSt w line = some .shared) {i : Instr}
    (get : i = .getx w va .sound ∨ i = .getxf w va .sound) :
    ∃ t, exec i s = .next t ∧ s.ownsAlone t w line ∧ s.restStays t := by
  have miss : (s.lineSt w line).any [LineSt.exclusive, .modified].contains = false := by
    rcases unowned with h | h <;> rw [h] <;> rfl
  rcases get with rfl | rfl
  · obtain ⟨owns, rest⟩ := State.dirGetx_ownsAlone small w line false
    exact ⟨_, exec_getx.trans (lineReq_of cache ctx at_ miss), owns.countPage .., rest.countPage ..⟩
  · exact ⟨_, exec_getxf.trans (lineReq_of cache ctx at_ miss), State.dirGetx_ownsAlone small w line true⟩

end

/-! ### Evictions and non-allocating accesses as commands -/

section
variable {s : State} {w : WellId} {line : BitVec 34}

/-- An owned line evicted: it is INVALID there, and has no entry. -/
theorem exec_putm (modified : s.lineSt w line.toNat = some .modified) :
    exec (.putm w line) s
      = .next ((((s.setLine w line.toNat none).dirErase line.toNat).dirReq).writeBack w) := by
  refine (need_of (by rw [modified]; rfl) 534 _).trans ?_
  rw [State.evict, modified]

theorem exec_pute (exclusive : s.lineSt w line.toNat = some .exclusive) :
    exec (.pute w line) s = .next (((s.setLine w line.toNat none).dirErase line.toNat).dirReq) := by
  refine (need_of (by rw [exclusive]; rfl) 534 _).trans ?_
  rw [State.evict, exclusive]

theorem State.fld_countEv_of_ne (s : State) {o : Nat} (w src n hi lo : Nat) (h : ¬isEvCnt o) :
    (s.countEv w src n).fld o hi lo = s.fld o hi lo := by
  rw [State.fld, State.countEv_reg _ _ _ _ _ h, State.fld]

theorem State.fld_writeBack (s : State) (w : Nat) :
    (s.writeBack w).fld (rWlWcEvt w) 63 32 = min (s.fld (rWlWcEvt w) 63 32 + 1) (2 ^ 32 - 1) := by
  have other : ¬isEvCnt (rWlWcEvt w) := by
    simp only [isEvCnt, rEvCnt, rWlWcEvt, rWl]
    omega
  rw [State.writeBack, State.sendLine, State.fld_countEv_of_ne _ _ _ _ _ _ other,
    State.fld_incFld _ (by decide) (by decide)]

/-- A request that allocates no line counted, with the forward to its owner. -/
def State.passed (s : State) (line : Nat) : State :=
  match (s.dirReq.dirEntry line).bind DirEntry.owner with
  | some _ => s.dirReq.incFld rCdStat 15 0 1
  | none => s.dirReq

theorem State.passed_onlyRegs (s : State) (line : Nat) : OnlyRegs s (s.passed line) := by
  unfold State.passed
  split
  · exact (s.incFld_onlyRegs ..).trans (State.incFld_onlyRegs ..)
  · exact s.incFld_onlyRegs ..

theorem exec_nonallocatingRead : exec (.nonallocatingRead line .sound) s = .next (s.passed line.toNat) := rfl

theorem exec_nonallocatingWrite :
    exec (.nonallocatingWrite line .sound) s = .next ((s.passed line.toNat).recallLine line.toNat) := rfl

theorem State.dirEntry_recallLine (s : State) (line : Nat) : (s.recallLine line).dirEntry line = none := by
  unfold State.recallLine
  split
  next absent => exact absent
  · exact State.dirEntry_dirErase line

end

/-- Settles O40, by what GETS, GETX, an eviction and a recall leave of their line and its entry. -/
theorem directoryGrantsAndDropsLines : Obligations.DirectoryGrantsAndDropsLines := by
  refine ⟨fun s w va c line small cache ctx => ⟨fun at_ miss => gets_grants cache ctx at_ miss,
    fun at_ unowned i get => ?_⟩, fun s w line => ⟨fun modified => ?_, fun exclusive => ?_, ?_, ?_⟩⟩
  · obtain ⟨t, run, ⟨state, entry, dropped⟩, rest⟩ := getx_grants small cache ctx at_ unowned get
    exact ⟨t, run, state, entry, dropped, rest⟩
  · have erased := (s.setLine_onlyLines w line.toNat none).trans (State.dirErase_onlyLines line.toNat)
    have counted : OnlyRegs _ ((s.setLine w line.toNat none).dirErase line.toNat).dirReq := State.incFld_onlyRegs ..
    have wrote := counted.trans (State.writeBack_onlyRegs w)
    refine ⟨_, exec_putm modified, ?_, ?_, ?_, (erased.trans wrote.onlyLines).frame⟩
    · rw [wrote.lineSt]
      exact State.lineSt_setLine ..
    · rw [wrote.dirEntry]
      exact State.dirEntry_dirErase _
    · have apart : rWlWcEvt w ≠ rCdStat := by
        simp only [rWlWcEvt, rWl, rCdStat]
        omega
      rw [State.fld_writeBack, State.dirReq, State.fld_incFld_ne (s := (s.setLine w line.toNat none).dirErase line.toNat) apart]
      rfl
  · have erased := (s.setLine_onlyLines w line.toNat none).trans (State.dirErase_onlyLines line.toNat)
    have counted : OnlyRegs _ ((s.setLine w line.toNat none).dirErase line.toNat).dirReq := State.incFld_onlyRegs ..
    refine ⟨_, exec_pute exclusive, ?_, ?_, (erased.trans counted.onlyLines).frame⟩
    · rw [counted.lineSt]
      exact State.lineSt_setLine ..
    · rw [counted.dirEntry]
      exact State.dirEntry_dirErase _
  · exact ⟨_, exec_nonallocatingRead, (s.passed_onlyRegs _).frame⟩
  · exact ⟨_, exec_nonallocatingWrite, State.dirEntry_recallLine _ _,
      ((s.passed_onlyRegs _).onlyLines.trans (State.recallLine_onlyLines _)).frame⟩

end Sys2Proof.Machine
end

section
/-!
SUPPORT. The decision on a fetched submission entry (R606 to R608).
-/
namespace Sys2Proof.Machine

section
variable {s : State} {q n : Nat} {ws : List Word}

/-! ### The head, the counts and the states of a queue (R606, R630) -/

theorem State.setFld_onlyRegs (o hi lo v : Nat) : OnlyRegs s (s.setFld o hi lo v) := ⟨_, rfl⟩

theorem State.consume_onlyRegs (q : Nat) : OnlyRegs s (s.consume q) := s.setFld_onlyRegs ..

theorem State.fld_consume (q : Nat) :
    (s.consume q).fld (rQStatus q) 63 48 = (s.fld (rQStatus q) 63 48 + 1) % 65536 :=
  State.fld_setFld _ _ _ _ _ (by decide) (by decide)

theorem State.fld_consume_low (q : Nat) {a b : Nat} (hab : b ≤ a) (low : a < 48) :
    (s.consume q).fld (rQStatus q) a b = s.fld (rQStatus q) a b :=
  State.fld_setFld_of_apart _ (by decide) hab (by omega) (.inl low)

/-- ERROR code e, which stops the queue (R606, R630). -/
def State.stopQ (s : State) (q e : Nat) : State := (s.setFld (rQStatus q) 36 34 e).syncQ q

theorem State.stopQ_onlyRegs (q e : Nat) : OnlyRegs s (s.stopQ q e) :=
  (s.setFld_onlyRegs ..).trans (State.setFld_onlyRegs ..)

theorem State.fld_stopQ (q : Nat) {e : Nat} (code : 0 < e ∧ e < 8) :
    (s.stopQ q e).fld (rQStatus q) 36 34 = e ∧ (s.stopQ q e).fld (rQStatus q) 39 37 = 2
      ∧ (s.stopQ q e).fld (rQStatus q) 63 48 = s.fld (rQStatus q) 63 48 := by
  have error : (s.setFld (rQStatus q) 36 34 e).fld (rQStatus q) 36 34 = e := by
    rw [State.fld_setFld _ _ _ _ _ (by decide) (by decide)]
    omega
  unfold State.stopQ State.syncQ
  rw [error, if_pos (by omega), State.fld_setFld_of_apart _ (by decide) (by decide) (by decide) (.inl (by decide)), error,
    State.fld_setFld _ _ _ _ _ (by decide) (by decide), State.fld_setFld_of_apart _ (by decide) (by decide) (by decide)
      (.inr (by decide)), State.fld_setFld_of_apart _ (by decide) (by decide) (by decide) (.inr (by decide))]
  exact ⟨rfl, rfl, rfl⟩

/-! ### The branches of the decision (R607) -/

theorem State.decideEntry_foreign (other : bitsOf (opW ws 1) 63 56 ≠ s.qGen q) :
    s.decideEntry q n ws = (s.consume q).incFld (rQStatus q) 31 16 1 := if_pos other

theorem State.decideEntry_next (gen : bitsOf (opW ws 1) 63 56 = s.qGen q)
    (next : (n + 2 ^ 32 - s.fld (rQLast q) 31 0) % 2 ^ 32 = 1) :
    s.decideEntry q n ws = ((s.consume q).setFld (rQLast q) 31 0 n).verifyEntry q (bitsOf (opW ws 1) 63 56) n ws := by
  unfold State.decideEntry
  rw [if_neg (by simpa using gen), if_pos next]

theorem State.decideEntry_ahead (gen : bitsOf (opW ws 1) 63 56 = s.qGen q)
    (two : 2 ≤ (n + 2 ^ 32 - s.fld (rQLast q) 31 0) % 2 ^ 32)
    (near : (n + 2 ^ 32 - s.fld (rQLast q) 31 0) % 2 ^ 32 < 2 ^ 31) : s.decideEntry q n ws = s.stopQ q 1 := by
  unfold State.decideEntry
  rw [if_neg (by simpa using gen), if_neg (by omega), if_pos ⟨two, near⟩]
  rfl

/-- An entry 4,096 or more behind. -/
theorem State.decideEntry_stale (gen : bitsOf (opW ws 1) 63 56 = s.qGen q)
    (behind : (n + 2 ^ 32 - s.fld (rQLast q) 31 0) % 2 ^ 32 = 0
      ∨ 2 ^ 31 ≤ (n + 2 ^ 32 - s.fld (rQLast q) 31 0) % 2 ^ 32)
    (far : 4096 ≤ (s.fld (rQLast q) 31 0 + 2 ^ 32 - n) % 2 ^ 32) :
    s.decideEntry q n ws = (s.consume q).pushRaw
      { typ := 1, dup := true, stale := true, gen := bitsOf (opW ws 1) 63 56, seq := n, queue := q } 0 := by
  unfold State.decideEntry
  rw [if_neg (by simpa using gen), if_neg (by omega), if_neg (by omega), if_pos far]

/-- A nearer entry whose job was accepted. -/
theorem State.decideEntry_repeat {x : Job} (gen : bitsOf (opW ws 1) 63 56 = s.qGen q)
    (behind : (n + 2 ^ 32 - s.fld (rQLast q) 31 0) % 2 ^ 32 = 0
      ∨ 2 ^ 31 ≤ (n + 2 ^ 32 - s.fld (rQLast q) 31 0) % 2 ^ 32)
    (near : (s.fld (rQLast q) 31 0 + 2 ^ 32 - n) % 2 ^ 32 < 4096)
    (accepted : s.acceptedJob q (bitsOf (opW ws 1) 63 56) n = some x) :
    s.decideEntry q n ws = (s.consume q).pushRaw
      { typ := 1, dup := true, gen := bitsOf (opW ws 1) 63 56, seq := n, queue := q, tbAccept := x.tbAccept } 0 := by
  unfold State.decideEntry
  rw [if_neg (by simpa using gen), if_neg (by omega), if_neg (by omega), if_neg (by omega)]
  simp only [accepted]

/-- A job put before the loader, of an entry with no reserved bit set (R607). -/
theorem State.verifyEntry_sound (g : Nat) (sound : subBad ws = false) :
    s.verifyEntry q g n ws = { s with jobs := s.jobs ++
      [{ queue := q, gen := g, seq := n, prio := bitsOf (opW ws 1) 55 53, psize := bitsOf (opW ws 1) 52 49,
         arg := bitsOf (opW ws 2) 55 0, root := bitsOf (opW ws 3) 55 0 }] } := by
  rw [State.verifyEntry, sound]
  rfl

/-! ### The memories stay -/

theorem State.sameMem_verifyEntry (g : Nat) : sameMem s (s.verifyEntry q g n ws) := by
  unfold State.verifyEntry
  split
  · exact (State.reject_leaves ..).2.2.2
  · exact ⟨rfl, rfl, rfl, rfl, rfl, rfl⟩

theorem State.sameMem_decideEntry : sameMem s (s.decideEntry q n ws) := by
  have consumed : OnlyRegs s (s.consume q) := s.consume_onlyRegs q
  have counted : OnlyRegs (s.consume q) ((s.consume q).incFld (rQStatus q) 31 16 1) := State.incFld_onlyRegs ..
  have last : OnlyRegs (s.consume q) ((s.consume q).setFld (rQLast q) 31 0 n) := State.setFld_onlyRegs ..
  have answered (e : CEntry) : sameMem s ((s.consume q).pushRaw e 0) :=
    consumed.sameMem.trans (Told.refl.pushRaw e 0).sameMem
  unfold State.decideEntry
  dsimp only
  split
  · exact (consumed.trans counted).sameMem
  · split
    · exact (consumed.trans last).sameMem.trans (State.sameMem_verifyEntry _)
    · split
      · exact (s.stopQ_onlyRegs q 1).sameMem
      · split
        · exact answered _
        · split
          · exact answered _
          · exact consumed.sameMem.trans (State.sameMem_verifyEntry _)

/-! ### What each branch leaves -/

theorem State.decideEntry_foreign_leaves (other : bitsOf (opW ws 1) 63 56 ≠ s.qGen q) :
    (s.decideEntry q n ws).fld (rQStatus q) 63 48 = (s.fld (rQStatus q) 63 48 + 1) % 65536
    ∧ (s.decideEntry q n ws).fld (rQStatus q) 31 16 = min (s.fld (rQStatus q) 31 16 + 1) 65535
    ∧ { s.decideEntry q n ws with regs := s.regs } = s := by
  rw [State.decideEntry_foreign other]
  refine ⟨?_, ?_, ((s.consume_onlyRegs q).trans (State.incFld_onlyRegs ..)).frame⟩
  · rw [State.fld_incFld_of_apart _ (by decide) (by decide) (by decide) (.inr (by decide)), State.fld_consume]
  · rw [State.fld_incFld _ (by decide) (by decide), State.fld_consume_low _ (by decide) (by decide)]
    rfl

theorem State.decideEntry_next_leaves (gen : bitsOf (opW ws 1) 63 56 = s.qGen q) (small : n < 2 ^ 32)
    (next : (n + 2 ^ 32 - s.fld (rQLast q) 31 0) % 2 ^ 32 = 1) (sound : subBad ws = false) :
    (s.decideEntry q n ws).fld (rQStatus q) 63 48 = (s.fld (rQStatus q) 63 48 + 1) % 65536
    ∧ (s.decideEntry q n ws).fld (rQLast q) 31 0 = n
    ∧ (s.decideEntry q n ws).jobs = s.jobs ++ [{
        queue := q, gen := bitsOf (opW ws 1) 63 56, seq := n, prio := bitsOf (opW ws 1) 55 53,
        psize := bitsOf (opW ws 1) 52 49, arg := bitsOf (opW ws 2) 55 0, root := bitsOf (opW ws 3) 55 0 }]
    ∧ { s.decideEntry q n ws with regs := s.regs, jobs := s.jobs } = s := by
  have apart : rQStatus q ≠ rQLast q := by
    unfold rQStatus rQLast
    omega
  obtain ⟨regs, only⟩ : OnlyRegs s ((s.consume q).setFld (rQLast q) 31 0 n) :=
    (s.consume_onlyRegs q).trans (State.setFld_onlyRegs ..)
  have head : ((s.consume q).setFld (rQLast q) 31 0 n).fld (rQStatus q) 63 48
      = (s.fld (rQStatus q) 63 48 + 1) % 65536 := by
    rw [State.fld_setFld_ne _ _ _ _ _ _ apart, State.fld_consume]
  have last : ((s.consume q).setFld (rQLast q) 31 0 n).fld (rQLast q) 31 0 = n := by
    rw [State.fld_setFld _ _ _ _ _ (by decide) (by decide)]
    omega
  rw [State.decideEntry_next gen next, State.verifyEntry_sound _ sound]
  rw [only] at head last ⊢
  exact ⟨head, last, rfl, rfl⟩

/-- A consumed entry answered at once. -/
theorem State.consume_pushRaw_leaves (s : State) {answer : CEntry} (own : answer.queue = q) :
    ((s.consume q).pushRaw answer 0).fld (rQStatus q) 63 48 = (s.fld (rQStatus q) 63 48 + 1) % 65536
    ∧ { (s.consume q).pushRaw answer 0 with regs := s.regs, hqs := s.hqs } = s
    ∧ ((s.consume q).pushRaw answer 0).hq q
      = { s.hq q with waiting := (s.hq q).waiting ++ [(answer, 0)] } := by
  subst own
  have head := s.fld_consume answer.queue
  obtain ⟨regs, only⟩ := s.consume_onlyRegs answer.queue
  rw [State.fld_pushRaw, State.hq_pushRaw]
  rw [only] at head ⊢
  exact ⟨head, rfl, rfl⟩

end

/-! ### The fetch -/

section
variable {s : State} {q : Fin 64}

theorem exec_submissionFetch_failed (may : s.mayFetch q = true) :
    exec (.submissionFetch q false) s = .next (s.stopQ q 2) := by
  simp only [State.mayFetch, Bool.and_eq_true] at may
  show execSubmissionFetch q false s = _
  unfold execSubmissionFetch
  simp [need, may, State.stopQ]

theorem exec_submissionFetch {n : Word32} (may : s.mayFetch q = true)
    (sound : unguard32 (opW (s.subWords q) 0) = some n) :
    exec (.submissionFetch q true) s = .next (s.decideEntry q n.toNat (s.subWords q)) := by
  simp only [State.mayFetch, Bool.and_eq_true] at may
  show execSubmissionFetch q true s = _
  unfold execSubmissionFetch
  simp [need, may, sound]

end

/-- Settles O46, branch by branch of the decision. -/
theorem fetchedEntriesAreDecided : Obligations.FetchedEntriesAreDecided := by
  intro s q may
  refine ⟨?_, fun n sound => ⟨_, exec_submissionFetch may sound, State.sameMem_decideEntry,
    State.decideEntry_foreign_leaves, fun gen next => State.decideEntry_next_leaves gen n.isLt next,
    fun gen two near => ?_, fun gen behind far => ?_, fun x gen behind near accepted => ?_⟩⟩
  · obtain ⟨error, state, head⟩ := s.fld_stopQ q (e := 2) (by decide)
    exact ⟨_, exec_submissionFetch_failed may, error, state, head, (s.stopQ_onlyRegs q 2).frame⟩
  · rw [State.decideEntry_ahead gen two near]
    obtain ⟨error, state, head⟩ := s.fld_stopQ q (e := 1) (by decide)
    exact ⟨error, state, head, (s.stopQ_onlyRegs q 1).frame⟩
  · rw [State.decideEntry_stale gen behind far]
    exact s.consume_pushRaw_leaves rfl
  · rw [State.decideEntry_repeat gen behind near accepted]
    exact s.consume_pushRaw_leaves rfl

end Sys2Proof.Machine
end

section
/-!
SUPPORT. The timebase, its coarse advance and its alarm (R730 to R736).
-/
namespace Sys2Proof.Machine

/-- t is s but for registers and the power record. -/
def OnlyPower (s t : State) : Prop := ∃ regs pw, t = { s with regs := regs, pw := pw }

section
variable {s t u : State}

theorem OnlyPower.trans (h : OnlyPower s t) (k : OnlyPower t u) : OnlyPower s u := by
  obtain ⟨regs, pw, rfl⟩ := h
  obtain ⟨regs', pw', rfl⟩ := k
  exact ⟨regs', pw', rfl⟩

theorem OnlyPower.frame (h : OnlyPower s t) : { t with regs := s.regs, pw := s.pw } = s := by
  obtain ⟨regs, pw, rfl⟩ := h
  rfl

theorem OnlyRegs.onlyPower (h : OnlyRegs s t) : OnlyPower s t := by
  obtain ⟨regs, rfl⟩ := h
  exact ⟨_, _, rfl⟩

theorem State.modPw_onlyPower (s : State) (f : Power → Power) : OnlyPower s (s.modPw f) := ⟨_, _, rfl⟩

theorem State.setReg_onlyRegs (s : State) (o : Nat) (v : Word) : OnlyRegs s (s.setReg o v) := ⟨_, rfl⟩

/-! ### What follows an edge -/

/-- After an edge only the idle times and the heartbeat follow: no register, and not the fraction of R732. -/
theorem State.heartbeat_noteIdle (s : State) : OnlyPower s s.noteIdle.heartbeat
    ∧ s.noteIdle.heartbeat.regs = s.regs ∧ s.noteIdle.heartbeat.pw.frac = s.pw.frac
    ∧ s.noteIdle.heartbeat.pw.edges = s.pw.edges := by
  have idle : OnlyPower s s.noteIdle := ⟨_, _, rfl⟩
  unfold State.heartbeat
  split
  · exact ⟨idle.trans (State.modPw_onlyPower ..), rfl, rfl, rfl⟩
  · exact ⟨idle, rfl, rfl, rfl⟩

/-- The fraction of R732 after an edge of the always-on oscillator. -/
def State.carried (s : State) : State :=
  s.modPw (fun p => { p with frac := (s.pw.frac + 1953125) % 64, edges := p.edges + 1 })

/-- An edge of the always-on oscillator (R732). -/
def State.coarseEdge (s : State) : State :=
  (s.carried.setReg rPmTimebase (s.carried.reg rPmTimebase + BitVec.ofNat 64 ((s.pw.frac + 1953125) / 64))).syncErr

theorem exec_timebaseAdvance_fine (fine : s.fld rPmTbStatus 62 62 = 0) :
    exec .timebaseAdvance s = .next (s.setReg rPmTimebase (s.reg rPmTimebase + 10#64)).noteIdle.heartbeat :=
  if_pos fine

theorem exec_timebaseAdvance_coarse (coarse : s.fld rPmTbStatus 62 62 = 1) :
    exec .timebaseAdvance s = .next s.coarseEdge.noteIdle.heartbeat :=
  if_neg (by rw [coarse]; decide)

theorem State.coarseEdge_leaves (s : State) : OnlyPower s s.coarseEdge
    ∧ s.coarseEdge.reg rPmTimebase = s.reg rPmTimebase + BitVec.ofNat 64 ((s.pw.frac + 1953125) / 64)
    ∧ s.coarseEdge.pw.frac = (s.pw.frac + 1953125) % 64 ∧ s.coarseEdge.pw.edges = s.pw.edges + 1 := by
  refine ⟨?_, ?_, rfl, rfl⟩
  · have carried : OnlyPower s s.carried := s.modPw_onlyPower _
    exact (carried.trans (State.setReg_onlyRegs ..).onlyPower).trans (State.setFld_onlyRegs ..).onlyPower
  · rw [State.coarseEdge, State.syncErr, State.reg_setFld_ne _ _ _ _ (by decide), State.reg_setReg, State.carried,
      State.reg_modPw]

theorem State.reg_of_regs (h : t.regs = s.regs) (o : Nat) : t.reg o = s.reg o := by
  rw [State.reg, h, State.reg]

/-- An edge advances the timebase by what the clock in use gives (R731, R732). -/
theorem timebaseAdvance_counts (s : State) :
    ∃ t, exec .timebaseAdvance s = .next t ∧ { t with regs := s.regs, pw := s.pw } = s
      ∧ (s.fld rPmTbStatus 62 62 = 0 → t.reg rPmTimebase = s.reg rPmTimebase + 10#64 ∧ t.pw.frac = s.pw.frac
          ∧ ∀ o, o ≠ rPmTimebase → t.reg o = s.reg o)
      ∧ (s.fld rPmTbStatus 62 62 = 1 →
          t.reg rPmTimebase = s.reg rPmTimebase + BitVec.ofNat 64 ((s.pw.frac + 1953125) / 64)
          ∧ t.pw.frac = (s.pw.frac + 1953125) % 64 ∧ t.pw.edges = s.pw.edges + 1) := by
  by_cases fine : s.fld rPmTbStatus 62 62 = 0
  · have edge := s.setReg_onlyRegs rPmTimebase (s.reg rPmTimebase + 10#64)
    obtain ⟨only, regs, frac, -⟩ := (s.setReg rPmTimebase (s.reg rPmTimebase + 10#64)).heartbeat_noteIdle
    refine ⟨_, exec_timebaseAdvance_fine fine, (edge.onlyPower.trans only).frame, fun _ => ⟨?_, frac, fun o other => ?_⟩,
      fun coarse => absurd coarse (by omega)⟩
    · rw [State.reg_of_regs regs, State.reg_setReg]
    · rw [State.reg_of_regs regs, State.reg_setReg_ne _ _ other]
  · have coarse : s.fld rPmTbStatus 62 62 = 1 := by
      have := bitsOf_lt (s.reg rPmTbStatus) 62 62
      unfold State.fld at fine ⊢
      omega
    obtain ⟨edge, time, part, edges⟩ := s.coarseEdge_leaves
    obtain ⟨only, regs, frac', edges'⟩ := s.coarseEdge.heartbeat_noteIdle
    exact ⟨_, exec_timebaseAdvance_coarse coarse, (edge.trans only).frame, fun h => absurd h fine,
      fun _ => ⟨(State.reg_of_regs regs _).trans time, frac'.trans part, edges'.trans edges⟩⟩

/-! ### Reads, clears and the alarm -/

theorem State.fld_clearCoarse (s : State) :
    s.clearCoarse.fld rPmTbStatus 63 63 = 0 ∧ s.clearCoarse.fld rPmTbStatus 31 0 = 0 := by
  unfold State.clearCoarse
  rw [State.fld_modPw, State.fld_modPw, State.fld_setFld_of_apart _ (by decide) (by decide) (by decide) (.inr (by decide)),
    State.fld_setFld _ _ _ _ _ (by decide) (by decide), State.fld_setFld _ _ _ _ _ (by decide) (by decide)]
  exact ⟨rfl, rfl⟩

theorem State.clearCoarse_onlyPower (s : State) : OnlyPower s s.clearCoarse :=
  ((s.setFld_onlyRegs ..).trans (State.setFld_onlyRegs ..)).onlyPower.trans (State.modPw_onlyPower ..)

theorem exec_alarmFire (set_ : s.fld rPmAlarm 63 63 = 1) (due : s.fld rPmAlarm 62 0 ≤ s.now)
    (fresh : s.pw.alarmed = false) :
    exec .alarmFire s = .next { s with
      pw := { s.pw with alarmed := true }
      msix := if s.pw.w4 then s.msix else (0, s.fld rPmPolicy 15 8) :: s.msix } := by
  have may : (s.alarmLevel && !s.pw.alarmed) = true := by simp [State.alarmLevel, set_, due, fresh]
  refine (need_of may 735 _).trans (congrArg Host.Outcome.next ?_)
  show (if s.pw.w4 then _ else _) = _
  split
  · rfl
  · rfl

end

/-- Settles O57, by the edges of both clocks, and what a low read, a clear and the alarm leave. -/
theorem timebaseCountsNanoseconds : Obligations.TimebaseCountsNanoseconds := by
  refine fun s => ⟨timebaseAdvance_counts s, ⟨_, rfl, ?_, rfl⟩, ?_, fun set_ due fresh =>
    ⟨_, exec_alarmFire set_ due fresh, rfl, rfl, rfl⟩⟩
  · apply BitVec.eq_of_toNat_eq
    show (BitVec.ofNat 32 (bitsOf (s.reg rPmTimebase) 63 32)).toNat = _
    simp [bitsOf, BitVec.extractLsb'_toNat]
  · obtain ⟨flag, us⟩ := s.fld_clearCoarse
    exact ⟨_, rfl, flag, us, s.clearCoarse_onlyPower.frame⟩

end Sys2Proof.Machine
end

section
/-!
SUPPORT. A DATA frame for this device that a further check discards (R635, R636).
-/
namespace Sys2Proof.Machine

/-- The reset state with port 0 up at full width. -/
def portZeroUp : State := State.reset.setFld (rPortStatus 0) 31 29 2

/-- A TILE frame for this device, a duplicate by its sequence number, in context 12. -/
def strayTile : Frame := { vc := 1, op := 0x10, seq := 65535, ctx := 12, dst := portZeroUp.devId }

theorem portZeroUp_up : portZeroUp.portUp 0 = true := by decide

theorem strayTile_arrives : portZeroUp.arrives 0 strayTile 1 0x10 :=
  ⟨portZeroUp_up, rfl, rfl, rfl, fun h => absurd h.1 (by decide)⟩

theorem strayTile_forMe : portZeroUp.forMe strayTile := ⟨rfl, by decide, rfl, by decide⟩

/-- It is discarded, and counted as discarded: no job's context is 12 (R635). -/
theorem exec_strayTile :
    exec (.tileFrame 0 strayTile) portZeroUp = .next (portZeroUp.incFld (rPortStat 0) 63 48 1) := by
  show execTileFrame 0 strayTile portZeroUp = _
  unfold execTileFrame rxData
  rw [need_of (by decide), if_pos (by decide)]
  rfl

/-- Refutes O52: a frame of VC1 in a context that no job has is discarded, so a repeat of it is no counted duplicate. -/
theorem not_dataFramesAreSequenced : ¬ Obligations.DataFramesAreSequenced := by
  intro h
  obtain ⟨-, sequenced⟩ := h portZeroUp (.tileFrame 0 strayTile) 0 strayTile 1 0x10 rfl
  obtain ⟨-, duplicate, -⟩ := sequenced strayTile_arrives
  obtain ⟨t, run, -, -, -, -, counted⟩ := duplicate strayTile_forMe (.inl (by decide))
  cases exec_strayTile.symm.trans run
  exact absurd counted (by decide)

end Sys2Proof.Machine
end

section
/-!
SUPPORT. The next frame of a connection that a further check discards (R635, R636).
-/
namespace Sys2Proof.Machine

/-- A WR_ACK for this device, next by its sequence number, in context 12. -/
def strayAck : Frame := { vc := 2, op := 0x23, ctx := 12, dst := portZeroUp.devId }

theorem strayAck_arrives : portZeroUp.arrives 0 strayAck 2 0x23 :=
  ⟨portZeroUp_up, rfl, rfl, rfl, fun h => absurd h.1 (by decide)⟩

theorem strayAck_forMe : portZeroUp.forMe strayAck := ⟨rfl, by decide, rfl, by decide⟩

/-- It is discarded, and counted as discarded: no job's context is 12 (R635). -/
theorem exec_strayAck :
    exec (.wrAckFrame 0 strayAck) portZeroUp = .next (portZeroUp.incFld (rPortStat 0) 63 48 1) := by
  show execWrAckFrame 0 strayAck portZeroUp = _
  unfold execWrAckFrame rxData
  rw [need_of (by decide), if_pos (by decide)]
  rfl

/-- No request is outstanding, so the statement has it counted LATE. -/
theorem strayAck_late (h : Obligations.LinksDeliverAndRecover) :
    exec (.wrAckFrame 0 strayAck) portZeroUp
      = .next ((portZeroUp.accepts 0 strayAck).incFld (rPortStat 0) 15 0 1) := by
  obtain ⟨accepted, -⟩ := h
  obtain ⟨-, -, -, response, -⟩ := accepted portZeroUp (.wrAckFrame 0 strayAck) 0 strayAck 2 0x23 rfl
    strayAck_arrives strayAck_forMe (by decide)
  obtain ⟨-, late, -⟩ := response (.inr rfl)
  exact late (by decide)

/-- Refutes O53: a next frame of VC2 in a context that no job has is discarded, and so never counted LATE. -/
theorem not_linksDeliverAndRecover : ¬ Obligations.LinksDeliverAndRecover := by
  intro h
  have same : portZeroUp.incFld (rPortStat 0) 63 48 1 = (portZeroUp.accepts 0 strayAck).incFld (rPortStat 0) 15 0 1 :=
    Host.Outcome.next.inj (exec_strayAck.symm.trans (strayAck_late h))
  exact absurd (congrArg (fun t : State => t.fld (rPortStat 0) 15 0) same) (by decide)

end Sys2Proof.Machine
end

section
/-!
SUPPORT. Drains and waits for host memory that end at their limits (R469, R472, R474).
-/
namespace Sys2Proof.Machine

/-! ### What recording and reporting change (R14, R756) -/

/-- t is s but for registers, vectors signalled and the collector's time. -/
def OnlyNotes (s t : State) : Prop := ∃ regs msix last, t = { s with regs := regs, msix := msix, fcLast := last }

section
variable {s t u : State}

theorem OnlyNotes.trans (h : OnlyNotes s t) (k : OnlyNotes t u) : OnlyNotes s u := by
  obtain ⟨r, m, l, rfl⟩ := h
  obtain ⟨r', m', l', rfl⟩ := k
  exact ⟨r', m', l', rfl⟩

theorem OnlyRegs.onlyNotes (h : OnlyRegs s t) : OnlyNotes s t := by
  obtain ⟨regs, rfl⟩ := h
  exact ⟨_, _, _, rfl⟩

theorem State.reportSelf_onlyNotes (s : State) (src cls sev unit detail : Nat) :
    OnlyNotes s (s.reportSelf src cls sev unit detail) :=
  s.report_eq src cls sev src unit unit detail

theorem OnlyNotes.sameMem (h : OnlyNotes s t) : sameMem s t := by
  obtain ⟨r, m, l, rfl⟩ := h
  exact ⟨rfl, rfl, rfl, rfl, rfl, rfl⟩

theorem OnlyNotes.frame (h : OnlyNotes s t) : { t with regs := s.regs, msix := s.msix, fcLast := s.fcLast } = s := by
  obtain ⟨r, m, l, rfl⟩ := h
  rfl

theorem State.sameMem_modPw (s : State) (f : Power → Power) : Machine.sameMem s (s.modPw f) :=
  ⟨rfl, rfl, rfl, rfl, rfl, rfl⟩

theorem State.wells_modPw (s : State) (f : Power → Power) : (s.modPw f).wells = s.wells := rfl
theorem State.bobs_modPw (s : State) (f : Power → Power) : (s.modPw f).bobs = s.bobs := rfl

theorem OnlyNotes.wells (h : OnlyNotes s t) : t.wells = s.wells := (congrArg State.wells h.frame :)
theorem OnlyNotes.bobs (h : OnlyNotes s t) : t.bobs = s.bobs := (congrArg State.bobs h.frame :)
theorem OnlyNotes.jobs (h : OnlyNotes s t) : t.jobs = s.jobs := (congrArg State.jobs h.frame :)
theorem OnlyNotes.pw (h : OnlyNotes s t) : t.pw = s.pw := (congrArg State.pw h.frame :)

end

section
variable {s : State} {w : WellId} {va : Nat}

/-! ### Drains (R472, R474) -/

theorem State.noteBusy_onlyNotes (s : State) (w : Nat) : OnlyNotes s (s.noteBusy w) :=
  (s.setReg_onlyRegs _ _).onlyNotes.trans (State.reportSelf_onlyNotes ..)

/-- A well that did not drain is recorded. -/
theorem State.fld_noteBusy (s : State) (w : WellId) : (s.noteBusy w).fld (rWlDrainStat w) 31 31 = 1 := by
  unfold State.noteBusy
  extract_lets pumps cu stq v
  have well : 0x1000000 ≤ rWlDrainStat w := le_rWl w _
  rw [State.fld, State.reg_reportSelf_of_well w.isLt (by decide) well, State.reg_setReg,
    bitsOf_setBits_of_apart (by decide) (by decide) (by decide) (.inr (by decide)),
    bitsOf_setBits_of_apart (by decide) (by decide) (by decide) (.inr (by decide)),
    bitsOf_setBits_of_apart (by decide) (by decide) (by decide) (.inr (by decide)),
    bitsOf_setBits _ _ _ _ (by decide) (by decide)]
  rfl

/-- The request of an entry into W1 forgotten, and the well's idle time begun anew. -/
def Power.forgetW1 (p : Power) (w now : Nat) : Power :=
  { p with w1Req := tabPut none p.w1Req w none, idleAt := tabPut none p.idleAt w (some now) }

/-- An entry into W1 that was asked for and did not come is given up. -/
def State.giveUpW1 (s : State) (w : Nat) : State := (s.noteBusy w).modPw (·.forgetW1 w s.now)

theorem State.giveUpW1_leaves (s : State) (w : WellId) : (s.giveUpW1 w).fld (rWlDrainStat w) 31 31 = 1
    ∧ tabGet none (s.giveUpW1 w).pw.w1Req w = none ∧ sameMem s (s.giveUpW1 w) ∧ (s.giveUpW1 w).wells = s.wells
    ∧ (s.giveUpW1 w).bobs = s.bobs := by
  have noted := s.noteBusy_onlyNotes w
  refine ⟨?_, tabGet_put_self none (s.noteBusy w).pw.w1Req w none, noted.sameMem.trans (State.sameMem_modPw _ _),
    (State.wells_modPw _ _).trans noted.wells, (State.bobs_modPw _ _).trans noted.bobs⟩
  rw [State.giveUpW1, State.fld_modPw]
  exact s.fld_noteBusy w

theorem exec_drainTimeout_w1 {t0 : Nat} (busy : s.drained w = false) (asked : tabGet none s.pw.w1Req w.val = some t0)
    (late : t0 + 1000000 ≤ s.now) : exec (.drainTimeout w) s = .next (s.giveUpW1 w) := by
  show execDrainTimeout w s = _
  unfold execDrainTimeout
  rw [need_of (by rw [busy]; rfl), asked]
  exact need_of (by simpa using late) 472 _

theorem exec_drainTimeout_entry {e : Entry} (busy : s.drained w = false)
    (unasked : tabGet none s.pw.w1Req w.val = none) (entry : s.pw.entry = some e) (takes : e.wells.contains w.val = true)
    (late : e.at_ + 1000000 ≤ s.now) : exec (.drainTimeout w) s = .next (s.abandonEntry e) := by
  show execDrainTimeout w s = _
  unfold execDrainTimeout
  rw [need_of (by rw [busy]; rfl), unasked, entry, needSome_some]
  exact need_of (by rw [takes]; simpa using late) 472 _

/-! ### Waits for host memory (R469) -/

/-- An access error of a controller ends its job with the address of the access. -/
theorem State.job_ctlExc_access {status : Nat} (terminates : status ≠ 0) {j : Nat} {x : Job}
    (bound : (s.well w).job = some j) (job : s.job j = some x) (none_yet : x.status = none)
    (open_ : x.phase ≠ .committed) :
    (s.ctlExc w 1 status va).job j = some { x with status := some status, addr := va, phase := .stopping } := by
  have noted : ((s.excNoted w 1 status va).setCtl w .faulted { (s.well w).cx with wait := .none }).job j = some x := by
    rw [← job]
    exact congrArg (·[j]?) State.jobs_excNoted
  have ends : s.ctlExc w 1 status va
      = ((s.excNoted w 1 status va).setCtl w .faulted { (s.well w).cx with wait := .none }).failJob j status va := by
    simp only [State.ctlExc, State.excNoted, terminates, if_false, bound, true_or, if_true]
  rw [ends, State.job_failJob noted none_yet open_]

theorem Noted.wells {t : State} (h : Noted s t) : t.wells = s.wells := (congrArg State.wells h.frame :)

/-- The controller's access at va, which waited for host memory at l, recorded; its job ends (R469). -/
def State.hostLost (s : State) (w va : Nat) (l : Loc) (write : Bool) : State :=
  (s.noteTier .ctl w 144 l write).ctlExc w 1 0x30 va

theorem exec_hostTierWaitExpiry {va : BitVec 56} {write : Bool} {t0 a j : Nat} (down : s.hostDown = some t0)
    (late : t0 + (if s.fld rMgCtl 63 48 = 0 then 1000 else s.fld rMgCtl 63 48) * 1000000 ≤ s.now)
    (waits : s.hostLoc (s.partOf w) va.toNat write = some ⟨.host, a⟩) (bound : (s.well w).job = some j) :
    exec (.hostTierWaitExpiry (.controller w) va write) s = .next (s.hostLost w va.toNat ⟨.host, a⟩ write) := by
  show execHostTierWaitExpiry (.controller w) va write s = _
  unfold execHostTierWaitExpiry
  dsimp only
  rw [down, needSome_some, need_of (by simpa using late)]
  show needSome (s.hostLoc (s.partOf w) va.toNat write) 469 _ = _
  rw [waits, needSome_some]
  exact need_of (by rw [bound]; rfl) 469 _

end

/-- Settles O37, by the drain of an entry into W1, that of the entry under way, and a controller's wait. -/
theorem longWaitsEnd : Obligations.LongWaitsEnd := by
  refine fun s w => ⟨fun busy => ⟨fun t0 asked late => ?_, fun e unasked entry takes late =>
    exec_drainTimeout_entry busy unasked entry takes late⟩,
    fun va write t0 a j x down late waits bound job none_yet open_ => ?_⟩
  · exact ⟨_, exec_drainTimeout_w1 busy asked late, s.giveUpW1_leaves w⟩
  · have noted := s.noteTier_noted .ctl w 144 ⟨.host, a⟩ write
    have bound' : ((s.noteTier .ctl w 144 ⟨.host, a⟩ write).well w).job = some j := by
      rw [State.well, noted.wells]
      exact bound
    have job' : (s.noteTier .ctl w 144 ⟨.host, a⟩ write).job j = some x := by
      rw [State.job, noted.jobs]
      exact job
    exact ⟨_, exec_hostTierWaitExpiry down late waits bound, noted.sameMem.trans (State.sameMem_ctlExc (by decide)),
      State.job_ctlExc_access (by decide) bound' job' none_yet open_⟩

end Sys2Proof.Machine
end

section
/-!
SUPPORT. Misses stay outstanding until their walk ends; what grants, walks and invalidations leave (R438 to R447).
-/
namespace Sys2Proof.Machine

/-! ### Requesters that wait (R440, R441) -/

/-- A miss of the queue has requester i. -/
def MissQ.has (x : MissQ) (i : Nat) : Prop := ∃ m ∈ x.queue ++ x.stalled ++ x.parked, i ∈ m.reqs

/-- A walker walks for requester i. -/
def State.walked (s : State) (i : Nat) : Prop := ∃ k < 16, ∃ x, s.walker k = some x ∧ i ∈ x.2.reqs

/-- Requester i waits in queue q or on a walk. -/
def State.waits (s : State) (q i : Nat) : Prop := (s.missQ q).has i ∨ s.walked i

theorem State.missing_iff (s : State) (q req : Nat) : s.missing q req = true ↔ s.waits q (256 * q + req) := by
  unfold State.missing State.waits MissQ.has State.walked
  dsimp only
  rw [Bool.or_eq_true, List.any_eq_true, List.any_eq_true]
  refine or_congr (by simp) (exists_congr fun k => ?_)
  rw [List.mem_range]
  refine and_congr_right fun _ => ?_
  split
  next y at_ => simp [at_]
  next free => simp [free]

/-- t is s but for misses, walks and counts, and every requester that waits in s waits in t. -/
structure Walks (s t : State) : Prop where
  only : ∃ missQs walkers nextId regs,
    t = { s with missQs := missQs, walkers := walkers, nextId := nextId, regs := regs }
  keeps : ∀ q i, s.waits q i → t.waits q i

section
variable {s t u : State} {q k : Nat} {m : Miss} {x : MissQ}

theorem Walks.refl : Walks s s := ⟨⟨_, _, _, _, rfl⟩, fun _ _ h => h⟩

theorem Walks.trans (h : Walks s t) (g : Walks t u) : Walks s u where
  only := by
    obtain ⟨a, b, c, d, rfl⟩ := h.only
    obtain ⟨a', b', c', d', rfl⟩ := g.only
    exact ⟨a', b', c', d', rfl⟩
  keeps q i w := g.keeps q i (h.keeps q i w)

theorem OnlyRegs.walks (h : OnlyRegs s t) : Walks s t := by
  obtain ⟨regs, rfl⟩ := h
  exact ⟨⟨_, _, _, _, rfl⟩, fun _ _ w => w⟩

theorem OnlyRegs.walked (h : OnlyRegs s t) {i : Nat} (w : s.walked i) : t.walked i := by
  obtain ⟨regs, rfl⟩ := h
  exact w

theorem State.missQ_setMissQ (s : State) (q : Nat) (x : MissQ) : (s.setMissQ q x).missQ q = x :=
  tabGet_put_self ..

theorem State.missQ_setMissQ_ne (other : k ≠ q) (x : MissQ) : (s.setMissQ q x).missQ k = s.missQ k :=
  tabGet_put_ne _ _ _ other

/-- A queue changed, its requesters waiting in it still or on a walk. -/
theorem Walks.setMissQ (h : ∀ i, (s.missQ q).has i → x.has i ∨ s.walked i) : Walks s (s.setMissQ q x) where
  only := ⟨_, _, _, _, rfl⟩
  keeps r i w := by
    by_cases same : r = q
    · subst same
      refine w.elim (fun has => (h i has).imp_left fun has' => ?_) .inr
      rwa [State.missQ_setMissQ]
    · refine w.imp_left fun has => ?_
      rwa [State.missQ_setMissQ_ne same]

theorem State.walker_setWalker (s : State) (k : Nat) (y : Option (Nat × Miss)) : (s.setWalker k y).walker k = y :=
  tabGet_put_self ..

/-- A walker changed, its requesters still among its own. -/
theorem Walks.setWalker {y : Option (Nat × Miss)} (h : ∀ x, s.walker k = some x → ∃ z, y = some z ∧ x.2.reqs ⊆ z.2.reqs) :
    Walks s (s.setWalker k y) where
  only := ⟨_, _, _, _, rfl⟩
  keeps r i w := by
    refine w.imp_right fun ⟨l, lt, x, at_, mem⟩ => ?_
    by_cases same : l = k
    · subst same
      obtain ⟨z, rfl, sub⟩ := h x at_
      exact ⟨l, lt, z, State.walker_setWalker .., sub mem⟩
    · exact ⟨l, lt, x, (tabGet_put_ne _ _ _ same).trans at_, mem⟩

theorem State.stampHead_walks (s : State) (q : Nat) : Walks s (s.stampHead q) := by
  have counted : Walks s { s with nextId := s.nextId + 1 } := ⟨⟨_, _, _, _, rfl⟩, fun _ _ w => w⟩
  exact counted.trans (.setMissQ fun i has => .inl has)

/-! ### Walks joined (R440) -/

theorem State.lt_of_walking {o : Option Nat} (h : s.walking o m = some k) : k < 16 ∧ ∃ x, s.walker k = some x := by
  refine ⟨List.mem_range.mp (List.mem_of_find?_eq_some h), ?_⟩
  have found := List.find?_some h
  split at found
  next x at_ => exact ⟨x, at_⟩
  next => cases found

/-- A walk's miss with the requesters of one that joins it. -/
def Miss.joined (a b : Miss) : Miss := { a with reqs := a.reqs ++ b.reqs, vas := a.vas ++ b.vas }

theorem State.joinWalk_of {x : Nat × Miss} (at_ : s.walker k = some x) (m : Miss) :
    s.joinWalk k m = (s.setWalker k (some (x.1, x.2.joined m))).incFld rTrWalkStat 15 0 1 := by
  unfold State.joinWalk
  rw [at_]
  rfl

theorem State.joinWalk_walks (h : ∃ x, s.walker k = some x) (m : Miss) : Walks s (s.joinWalk k m) := by
  obtain ⟨x, at_⟩ := h
  rw [State.joinWalk_of at_]
  refine Walks.trans (.setWalker fun z at_' => ⟨_, rfl, ?_⟩) (State.incFld_onlyRegs ..).walks
  cases at_.symm.trans at_'
  exact List.subset_append_left ..

/-- A miss that joins a walk is walked. -/
theorem State.walked_joinWalk {o : Option Nat} (h : s.walking o m = some k) {i : Nat} (mem : i ∈ m.reqs) :
    (s.joinWalk k m).walked i := by
  obtain ⟨lt, x, at_⟩ := State.lt_of_walking h
  rw [State.joinWalk_of at_]
  refine (State.incFld_onlyRegs ..).walked ⟨k, lt, (x.1, x.2.joined m), s.walker_setWalker k _, ?_⟩
  exact List.mem_append_right _ mem

theorem State.missQ_joinWalk (h : ∃ x, s.walker k = some x) (m : Miss) (q : Nat) :
    (s.joinWalk k m).missQ q = s.missQ q := by
  obtain ⟨x, at_⟩ := h
  rw [State.joinWalk_of at_]
  rfl

/-! ### Requesters of a queue's lists -/

theorem MissQ.has_enqueue (x : MissQ) (m : Miss) (i : Nat) :
    MissQ.has { x with queue := x.queue ++ [m] } i ↔ x.has i ∨ i ∈ m.reqs := by
  simp only [MissQ.has, List.mem_append, List.mem_singleton]
  grind

theorem MissQ.has_stall (x : MissQ) (m : Miss) (i : Nat) :
    MissQ.has { x with stalled := x.stalled ++ [m] } i ↔ x.has i ∨ i ∈ m.reqs := by
  simp only [MissQ.has, List.mem_append, List.mem_singleton]
  grind

/-- The entries of a queue that a miss joins. -/
def MissQ.joined (x : MissQ) (m : Miss) : MissQ :=
  { x with queue := x.queue.map (fun e => if e.same m then e.joined m else e) }

theorem MissQ.has_joined {i : Nat} (h : x.has i) : (x.joined m).has i := by
  obtain ⟨e, mem, req⟩ := h
  simp only [List.mem_append, or_assoc] at mem
  rcases mem with queued | other
  · refine ⟨if e.same m then e.joined m else e, ?_, ?_⟩
    · exact List.mem_append_left _ (List.mem_append_left _ (List.mem_map.mpr ⟨e, queued, rfl⟩))
    · split
      · exact List.mem_append_left _ req
      · exact req
  · refine ⟨e, ?_, req⟩
    rw [List.append_assoc]
    exact List.mem_append_right _ (List.mem_append.mpr other)

theorem MissQ.has_joined_of_same {i : Nat} (some_ : x.queue.any m.same = true) (mem : i ∈ m.reqs) : (x.joined m).has i := by
  obtain ⟨e, queued, same⟩ := List.any_eq_true.mp some_
  have same' : e.same m = true := by
    simp only [Miss.same, Bool.and_eq_true, beq_iff_eq] at same ⊢
    tauto
  refine ⟨e.joined m, ?_, List.mem_append_right _ mem⟩
  refine List.mem_append_left _ (List.mem_append_left _ (List.mem_map.mpr ⟨e, queued, ?_⟩))
  rw [if_pos same']

theorem MissQ.has_dequeue {rest : List Miss} (queue : x.queue = m :: rest) {i : Nat} (h : x.has i) :
    MissQ.has { x with queue := rest } i ∨ i ∈ m.reqs := by
  simp only [MissQ.has, queue, List.mem_append, List.mem_cons] at h ⊢
  grind

theorem MissQ.has_unstall {rest : List Miss} (stalled : x.stalled = m :: rest) {i : Nat} (h : x.has i) :
    MissQ.has { x with stalled := rest } i ∨ i ∈ m.reqs := by
  simp only [MissQ.has, stalled, List.mem_append, List.mem_cons] at h ⊢
  grind

theorem MissQ.has_unpark {i : Nat} (h : x.has i) :
    MissQ.has { x with parked := x.parked.erase m, queue := m :: x.queue } i := by
  obtain ⟨e, mem, req⟩ := h
  refine ⟨e, ?_, req⟩
  by_cases same : e = m
  · simp [same]
  · simp only [List.mem_append, List.mem_cons, List.mem_erase_of_ne same] at mem ⊢
    tauto

/-! ### A miss takes its place (R440, R441) -/

/-- A miss that takes its place waits, and no other requester is lost. -/
theorem State.enterMiss_walks (s : State) (q : Nat) (m : Miss) :
    Walks s (s.enterMiss q m) ∧ ∀ i ∈ m.reqs, (s.enterMiss q m).waits q i := by
  unfold State.enterMiss
  dsimp only
  split
  next same =>
    refine ⟨Walks.trans (.setMissQ (x := (s.missQ q).joined m) fun i has => .inl (MissQ.has_joined has))
      (State.incFld_onlyRegs ..).walks, fun i mem => .inl ?_⟩
    exact (State.missQ_setMissQ s q _) ▸ MissQ.has_joined_of_same same mem
  · split
    next k walks =>
      exact ⟨State.joinWalk_walks (State.lt_of_walking walks).2 m, fun i mem => .inr (State.walked_joinWalk walks mem)⟩
    · split
      · have queued : Walks s (s.setMissQ q { s.missQ q with queue := (s.missQ q).queue ++ [m] }) :=
          .setMissQ fun i has => .inl ((MissQ.has_enqueue ..).mpr (.inl has))
        have waits : ∀ i ∈ m.reqs,
            (s.setMissQ q { s.missQ q with queue := (s.missQ q).queue ++ [m] }).waits q i := fun i mem =>
          .inl ((State.missQ_setMissQ s q _) ▸ (MissQ.has_enqueue ..).mpr (.inr mem))
        split
        · exact ⟨queued.trans (State.stampHead_walks ..), fun i mem => (State.stampHead_walks ..).keeps q i (waits i mem)⟩
        · exact ⟨queued, waits⟩
      · refine ⟨.setMissQ fun i has => .inl ((MissQ.has_stall ..).mpr (.inl has)), fun i mem => .inl ?_⟩
        exact (State.missQ_setMissQ s q _) ▸ (MissQ.has_stall ..).mpr (.inr mem)

/-- A queue changed first, and who left it waiting again after. -/
theorem Walks.after_setMissQ {y : MissQ} (g : Walks (s.setMissQ q y) t)
    (h : ∀ i, (s.missQ q).has i → y.has i ∨ t.waits q i) : Walks s t where
  only := by
    obtain ⟨a, b, c, d, rfl⟩ := g.only
    exact ⟨a, b, c, d, rfl⟩
  keeps r i w := by
    by_cases same : r = q
    · subst same
      rcases w with has | walked
      · refine (h i has).elim (fun has' => g.keeps r i (.inl ?_)) id
        rwa [State.missQ_setMissQ]
      · exact g.keeps r i (.inr walked)
    · refine g.keeps r i (w.imp_left fun has => ?_)
      rwa [State.missQ_setMissQ_ne same]

/-! ### Queues served (R438 to R440) -/

theorem State.feedOne_walks (h : s.feedOne q = some t) : Walks s t := by
  unfold State.feedOne at h
  dsimp only at h
  split at h
  next m _ =>
    cases h
    exact Walks.trans (.setMissQ fun i has => .inl (MissQ.has_unpark has)) (State.stampHead_walks ..)
  · split at h
    · split at h
      · cases h
      next m rest stalled =>
        cases h
        obtain ⟨walks, waits⟩ := (s.setMissQ q { s.missQ q with stalled := rest }).enterMiss_walks q m
        exact walks.after_setMissQ fun i has => (MissQ.has_unstall stalled has).imp_right (waits i)
    · split at h
      · cases h
      next m rest queue =>
        split at h
        next k walks =>
          cases h
          have walker := (State.lt_of_walking walks).2
          refine ((State.joinWalk_walks walker m).trans (.setMissQ fun i has => ?_)).trans (State.stampHead_walks ..)
          rw [State.missQ_joinWalk walker] at has
          exact (MissQ.has_dequeue queue has).imp_right (State.walked_joinWalk walks)
        · split at h
          next own =>
            cases h
            have walker : Walks s (s.setWalker q (some (q, m))) :=
              .setWalker fun x at_ => absurd (at_.symm.trans own.2) (by simp)
            refine (walker.trans (.setMissQ fun i has => ?_)).trans (State.stampHead_walks ..)
            exact (MissQ.has_dequeue queue has).imp_right fun mem =>
              ⟨q, by omega, (q, m), s.walker_setWalker q _, mem⟩
          · cases h

theorem State.feedQ_walks (q : Nat) : ∀ (fuel : Nat) (s : State), Walks s (s.feedQ q fuel)
  | 0, _ => .refl
  | fuel + 1, s => by
    unfold State.feedQ
    split
    next t fed => exact (State.feedOne_walks fed).trans (State.feedQ_walks q fuel t)
    · exact .refl

theorem State.feed_walks (s : State) : Walks s s.feed :=
  List.foldlRecOn (motive := fun t => Walks s t) _ _ .refl fun t walks q _ => walks.trans (State.feedQ_walks q 256 t)

end

/-! ### The commands (R439 to R443) -/

section
variable {s : State}

/-- A miss is counted, takes its place and is served where it can be; its requester waits. -/
theorem translationMiss_waits {q : Fin 13} {req : Fin 210} {c : Fin 13} {va : Word} (req_lt : req.val < missReqs q)
    (low : 65536 ≤ va.toNat) (high : va.toNat < 2 ^ 56) (ctx : s.missCtx q req c = true)
    (fresh : s.missing q req = false) (absent : s.tlbHas q c va.toNat = false) :
    ∃ t, exec (.translationMiss q req c va) s = .next t ∧ Walks s t ∧ t.missing q req = true := by
  have may : (decide (req.val < missReqs q ∧ 65536 ≤ va.toNat ∧ va.toNat < 2 ^ 56) && s.missCtx q req c
      && !s.missing q req && !s.tlbHas q c va.toNat) = true := by
    rw [decide_eq_true ⟨req_lt, low, high⟩, ctx, fresh, absent]
    rfl
  show ∃ t, execTranslationMiss q req c va s = .next t ∧ _
  unfold execTranslationMiss
  rw [need_of may]
  extract_lets fed counted waiting entered n stalls noted
  have hCounted : Walks fed counted := by
    unfold counted
    split
    · exact ((State.incFld_onlyRegs ..).trans (State.onlyRegs_countEv ..)).walks
    · exact .refl
  obtain ⟨hEntered, waits⟩ := counted.enterMiss_walks q
    { ctx := c, page := va.toNat / 65536, reqs := [256 * q.val + req.val], vas := [va.toNat] }
  have hStalls : OnlyRegs entered stalls := by
    unfold stalls
    split
    · exact State.incFld_onlyRegs ..
    · exact ⟨_, rfl⟩
  have hNoted : Walks entered noted := by
    unfold noted
    split
    · split
      · exact (hStalls.trans (State.setFld_onlyRegs ..)).walks
      · exact hStalls.walks
    · exact .refl
  have hFed := hNoted.trans noted.feed_walks
  refine ⟨_, rfl, ((s.feed_walks.trans hCounted).trans hEntered).trans hFed, ?_⟩
  exact (State.missing_iff ..).mpr (hFed.keeps _ _ (waits _ (List.mem_singleton.mpr rfl)))

theorem exec_sharedWalkerGrant {k q : Nat} {m : Miss} {rest : List Miss}
    (free : [12, 13, 14, 15].find? (fun k => s.feed.walker k == none) = some k) (first : s.feed.firstHead = some q)
    (queue : (s.feed.missQ q).queue = m :: rest) :
    exec .sharedWalkerGrant s
      = .next (((s.feed.setWalker k (some (q, m))).setMissQ q { s.feed.missQ q with queue := rest }).stampHead q).feed := by
  show execSharedWalkerGrant s = _
  unfold execSharedWalkerGrant
  dsimp only
  rw [free, needSome_some, first, needSome_some, queue]

section
variable {k : Fin 16} {q : Nat} {m : Miss} {l : Leaf}

theorem exec_pageWalkComplete_settled (walks : s.feed.walker k = some (q, m)) (alive : m.dead = false)
    (leaf : s.feed.leafWalk m.ctx (m.page * 65536) false = .ok l) (settled : bitOf l.val 56 = false) :
    exec (.pageWalkComplete k) s
      = .next (m.queues.foldl (fun u i => u.tlbPut i ⟨m.ctx, m.page * 65536 / l.page * l.page, l.page, l.val⟩)
          ((s.feed.endWalk k).keepPath m.ctx (m.page * 65536))).feed := by
  show execPageWalkComplete k s = _
  unfold execPageWalkComplete
  rw [walks, needSome_some]
  simp only [alive, leaf, settled, Bool.false_eq_true, if_false]

theorem exec_pageWalkComplete_dead (walks : s.feed.walker k = some (q, m)) (dead : m.dead = true) :
    exec (.pageWalkComplete k) s = .next (s.feed.endWalk k).feed := by
  show execPageWalkComplete k s = _
  unfold execPageWalkComplete
  rw [walks, needSome_some]
  exact if_pos dead

end

/-! ### Invalidations (R426, R445) -/

/-- t is s but for registers, translations and pointers of the walk cache. -/
def OnlyTlb (s t : State) : Prop := ∃ regs tlb walkPtrs, t = { s with regs := regs, tlb := tlb, walkPtrs := walkPtrs }

theorem OnlyTlb.frame {t : State} (h : OnlyTlb s t) :
    { t with regs := s.regs, tlb := s.tlb, walkPtrs := s.walkPtrs } = s := by
  obtain ⟨r, l, p, rfl⟩ := h
  rfl

theorem OnlyRegs.buffers {t : State} (h : OnlyRegs s t) : t.tlb = s.tlb ∧ t.walkPtrs = s.walkPtrs := by
  obtain ⟨r, rfl⟩ := h
  exact ⟨rfl, rfl⟩

theorem OnlyRegs.onlyTlb {t : State} (h : OnlyRegs s t) : OnlyTlb s t := by
  obtain ⟨r, rfl⟩ := h
  exact ⟨_, _, _, rfl⟩

theorem OnlyTlb.trans {t u : State} (h : OnlyTlb s t) (g : OnlyTlb t u) : OnlyTlb s u := by
  obtain ⟨r, l, p, rfl⟩ := h
  obtain ⟨r', l', p', rfl⟩ := g
  exact ⟨r', l', p', rfl⟩

/-- Translations dropped are in no buffer. -/
theorem State.tlb_tlbDrop (s : State) (p : TlbEntry → Bool) (k : Nat) : ∀ e ∈ tabGet [] (s.tlbDrop p).tlb k, p e = false :=
  tabGet_tabMap_of_forall (d := []) (f := fun _ l => l.filter (fun e => !p e)) (P := fun l => ∀ e ∈ l, p e = false)
    (fun _ mem => absurd mem List.not_mem_nil) (fun l e mem => by simpa using (List.mem_filter.mp mem).2) s.tlb

theorem State.tlbCtx_onlyTlb (s : State) (c : Nat) : OnlyTlb s (s.tlbCtx c) := ⟨_, _, _, rfl⟩

/-- A context invalidated is in no buffer and under no pointer. -/
theorem State.tlbCtx_leaves (s : State) (c : Nat) : (∀ k e, e ∈ tabGet [] (s.tlbCtx c).tlb k → e.ctx ≠ c)
    ∧ ∀ x ∈ (s.tlbCtx c).walkPtrs, x.ctx ≠ c := by
  refine ⟨fun k e mem => ?_, fun x mem => ?_⟩
  · simpa using s.tlb_tlbDrop (fun e => e.ctx == c) k e mem
  · simpa using (List.mem_filter.mp mem).2

/-- A page invalidated is in no buffer. -/
def State.tlbPagePtrs (s : State) (c va : Nat) : State :=
  { s.tlbPage c va with walkPtrs :=
      (s.tlbPage c va).walkPtrs.filter (fun x => x.ctx != c || x.va != va / 2 ^ (12 * x.level + 9)) }

theorem State.tlbPagePtrs_onlyTlb (s : State) (c va : Nat) : OnlyTlb s (s.tlbPagePtrs c va) := ⟨_, _, _, rfl⟩

theorem State.tlb_tlbPagePtrs (s : State) (c va k : Nat) :
    ∀ e ∈ tabGet [] (s.tlbPagePtrs c va).tlb k, e.covers c va = false :=
  s.tlb_tlbDrop (fun e => e.covers c va) k

/-! ### TR_INV (R445) -/

/-- TR_INV with the context that it names. -/
def State.invNamed (s : State) (c : Nat) : State := s.setFld rTrInv 3 0 c

/-- TR_INV with its RESULT. -/
def State.invDone (s : State) (r : Nat) : State := s.setFld rTrInv 30 29 r

theorem State.fld_invNamed {c : Nat} (lt : c < 16) : (s.invNamed c).fld rTrInv 3 0 = c := by
  rw [State.invNamed, State.fld_setFld _ _ _ _ _ (by decide) (by decide)]
  omega

theorem State.fld_invDone {r : Nat} (lt : r < 4) :
    (s.invDone r).fld rTrInv 30 29 = r ∧ (s.invDone r).fld rTrInv 3 0 = s.fld rTrInv 3 0 := by
  rw [State.invDone, State.fld_setFld _ _ _ _ _ (by decide) (by decide),
    State.fld_setFld_of_apart _ (by decide) (by decide) (by decide) (.inl (by decide))]
  exact ⟨by omega, rfl⟩

theorem State.ctxBound_invNamed (c d : Nat) : (s.invNamed d).ctxBound c = s.ctxBound c := by
  unfold State.ctxBound State.invNamed
  by_cases lt : c < 12
  · rw [State.reg_setFld_ne _ _ _ _ (by simp only [rTrRoot, rTrInv]; omega)]
  · simp [lt]

theorem exec_trInvContext_none {c : Fin 16} (none_ : 12 < c.val) :
    exec (.trInvContext c) s = .next (s.invNamed c) := congrArg Host.Outcome.next (if_pos none_)

theorem exec_trInvContext_bound {c : Fin 16} (real : c.val ≤ 12) (bound : s.ctxBound c = true) :
    exec (.trInvContext c) s = .next ((s.invNamed c).invDone 1) := by
  refine congrArg Host.Outcome.next ((if_neg (by omega)).trans (if_pos ?_))
  exact (s.ctxBound_invNamed c c).trans bound

theorem exec_trInvContext_unbound {c : Fin 16} (real : c.val ≤ 12) (unbound : s.ctxBound c = false) :
    exec (.trInvContext c) s = .next (((s.invNamed c).tlbCtx c).invDone 0) := by
  refine congrArg Host.Outcome.next ((if_neg (by omega)).trans (if_neg ?_))
  exact Bool.not_eq_true _ ▸ (s.ctxBound_invNamed c c).trans unbound

/-- What TR_INV leaves of its register, for each of its answers. -/
theorem State.fld_trInv_result {t : State} {c r : Nat} (lt : c < 16) (small : r < 4)
    (same : t.fld rTrInv 3 0 = (s.invNamed c).fld rTrInv 3 0) :
    (t.invDone r).fld rTrInv 30 29 = r ∧ (t.invDone r).fld rTrInv 3 0 = c := by
  obtain ⟨result, ctx⟩ := t.fld_invDone small
  exact ⟨result, ctx.trans (same.trans (State.fld_invNamed lt))⟩

theorem exec_trInvPage_none {c : Fin 16} (none_ : 12 < c.val) :
    exec (.trInvPage c) s = .next (s.invNamed c) := if_pos none_

theorem exec_trInvPage_bound {c : Fin 16} (real : c.val ≤ 12) (bound : s.ctxBound c = true) :
    exec (.trInvPage c) s = .next ((s.invNamed c).invDone 1) :=
  (if_neg (by omega)).trans (if_pos ((s.ctxBound_invNamed c c).trans bound))

theorem exec_trInvPage_unbound {c : Fin 16} (real : c.val ≤ 12) (unbound : s.ctxBound c = false) :
    exec (.trInvPage c) s
      = .next (((s.invNamed c).tlbPagePtrs c ((s.invNamed c).fld rTrInvVa 55 16 * 65536)).invDone 0) :=
  (if_neg (by omega)).trans (if_neg (Bool.not_eq_true _ ▸ (s.ctxBound_invNamed c c).trans unbound))

/-! ### TR_HROOT (R41, R446) -/

/-- A pair of TR_HROOT that agrees. -/
def State.hrootTaken (s : State) (v : Word) : State :=
  { (s.setReg rTrHrootC v).tlbCtx 12 with hroot := ((s.setReg rTrHrootC v).tlbCtx 12).reg rTrHroot }

/-- A pair of TR_HROOT that disagrees: both registers hold the pair in use. -/
def State.hrootKept (s : State) (v : Word) : State :=
  ((s.setReg rTrHrootC v).setReg rTrHroot s.hroot).setReg rTrHrootC (~~~s.hroot)

theorem exec_trHrootJudgingWrite_agrees {v : Word} {f : Fin 2} (agrees : s.reg rTrHroot = ~~~v) :
    exec (.trHrootJudgingWrite v f) s = .next (s.hrootTaken v) :=
  if_pos ((s.reg_setReg_ne v (by decide)).trans agrees)

theorem exec_trHrootJudgingWrite_disagrees {v : Word} {f : Fin 2} (differs : s.reg rTrHroot ≠ ~~~v) :
    exec (.trHrootJudgingWrite v f) s = .next ((s.hrootKept v).reportSelf 21 0x1 0 (64 + f) rTrHrootC) :=
  if_neg (by rwa [s.reg_setReg_ne v (by decide)])

theorem State.hrootTaken_leaves {v : Word} (agrees : s.reg rTrHroot = ~~~v) :
    (s.hrootTaken v).hroot = ~~~v ∧ (s.hrootTaken v).reg rTrHroot = ~~~v ∧ (s.hrootTaken v).reg rTrHrootC = v
      ∧ (∀ k e, e ∈ tabGet [] (s.hrootTaken v).tlb k → e.ctx ≠ 12) ∧ sameMem s (s.hrootTaken v) := by
  have root : (s.setReg rTrHrootC v).reg rTrHroot = ~~~v := (s.reg_setReg_ne v (by decide)).trans agrees
  exact ⟨root, root, State.reg_setReg .., ((s.setReg rTrHrootC v).tlbCtx_leaves 12).1, rfl, rfl, rfl, rfl, rfl, rfl⟩

theorem State.hrootKept_onlyRegs (s : State) (v : Word) : OnlyRegs s (s.hrootKept v) :=
  ((s.setReg_onlyRegs ..).trans (State.setReg_onlyRegs ..)).trans (State.setReg_onlyRegs ..)

theorem State.reg_hrootKept (s : State) (v : Word) : (s.hrootKept v).reg rTrHroot = s.hroot
    ∧ (s.hrootKept v).reg rTrHrootC = ~~~s.hroot ∧ ∀ o, o ≠ rTrHroot → o ≠ rTrHrootC → (s.hrootKept v).reg o = s.reg o := by
  unfold State.hrootKept
  refine ⟨?_, State.reg_setReg .., fun o other other' => ?_⟩
  · rw [State.reg_setReg_ne _ _ (by decide), State.reg_setReg]
  · rw [State.reg_setReg_ne _ _ other', State.reg_setReg_ne _ _ other, State.reg_setReg_ne _ _ other']

end

/-! ### The first report of a source and class (R756, R759) -/

section
variable {s : State} {src cls sev rsrc runit unit detail : Nat}

/-- Beside its record a report changes FC_SUMMARY and FC_ALERT alone. -/
theorem State.reg_report_of_free (free : bitOf (s.reg (rFcRec (16 * src + cls))) 63 = false) {o : Nat}
    (summary : o ≠ rFcSummary) (alert : o ≠ rFcAlert) :
    (s.report src cls sev rsrc runit unit detail).reg o
      = (((s.setReg (rFcRec (16 * src + cls))
          (setBits (setBits (setBits (1#64 <<< 63) 62 61 sev) 31 27 rsrc) 26 16 runit)).setReg
          (rFcTb (16 * src + cls)) (BitVec.ofNat 64 s.now)).setReg (rFcDet (16 * src + cls))
          (setBits (setBits 0#64 63 56 unit) 55 0 detail)).reg o := by
  unfold State.report
  extract_lets r old valid rises t t1 t2
  have fresh : valid = false := free
  have ht1 : t1.reg o = t.reg o := State.reg_setFld_ne _ _ _ _ summary
  have ht2 : t2.reg o = t.reg o := by
    unfold t2
    split
    · exact (State.reg_setFld_ne _ _ _ _ alert).trans ht1
    · exact ht1
  have written : t = _ := if_neg (by rw [fresh]; decide)
  rw [← written, if_neg (by simp [fresh])]
  split
  · rw [State.reg_fcSignal summary, ht2]
  · exact ht2

/-- A record that was free holds the report. -/
theorem State.report_of_free (free : bitOf (s.reg (rFcRec (16 * src + cls))) 63 = false) :
    (s.report src cls sev rsrc runit unit detail).reg (rFcRec (16 * src + cls))
        = setBits (setBits (setBits (1#64 <<< 63) 62 61 sev) 31 27 rsrc) 26 16 runit
      ∧ (s.report src cls sev rsrc runit unit detail).reg (rFcTb (16 * src + cls)) = BitVec.ofNat 64 s.now
      ∧ (s.report src cls sev rsrc runit unit detail).reg (rFcDet (16 * src + cls))
        = setBits (setBits 0#64 63 56 unit) 55 0 detail := by
  have recTb (r : Nat) : rFcRec r ≠ rFcTb r := by simp only [rFcRec, rFcTb]; omega
  have recDet (r : Nat) : rFcRec r ≠ rFcDet r := by simp only [rFcRec, rFcDet]; omega
  have tbDet (r : Nat) : rFcTb r ≠ rFcDet r := by simp only [rFcTb, rFcDet]; omega
  refine ⟨?_, ?_, ?_⟩
  · rw [State.reg_report_of_free free (by simp only [rFcRec, rFcSummary]; omega) (by simp only [rFcRec, rFcAlert]; omega),
      State.reg_setReg_ne _ _ (recDet _), State.reg_setReg_ne _ _ (recTb _), State.reg_setReg]
  · rw [State.reg_report_of_free free (by simp only [rFcTb, rFcSummary]; omega) (by simp only [rFcTb, rFcAlert]; omega),
      State.reg_setReg_ne _ _ (tbDet _), State.reg_setReg]
  · rw [State.reg_report_of_free free (by simp only [rFcDet, rFcSummary]; omega) (by simp only [rFcDet, rFcAlert]; omega),
      State.reg_setReg]

/-- The fields of a record that was free. -/
theorem State.fld_report_of_free (free : bitOf (s.reg (rFcRec (16 * src + cls))) 63 = false) :
    (s.report src cls sev rsrc runit unit detail).fld (rFcRec (16 * src + cls)) 63 63 = 1
      ∧ (s.report src cls sev rsrc runit unit detail).fld (rFcRec (16 * src + cls)) 62 61 = sev % 4
      ∧ (s.report src cls sev rsrc runit unit detail).fld (rFcRec (16 * src + cls)) 31 27 = rsrc % 32
      ∧ (s.report src cls sev rsrc runit unit detail).fld (rFcRec (16 * src + cls)) 26 16 = runit % 2048
      ∧ (s.report src cls sev rsrc runit unit detail).fld (rFcDet (16 * src + cls)) 63 56 = unit % 256
      ∧ (s.report src cls sev rsrc runit unit detail).fld (rFcDet (16 * src + cls)) 55 0 = detail % 2 ^ 56 := by
  obtain ⟨rec_, -, det⟩ := State.report_of_free (sev := sev) (rsrc := rsrc) (runit := runit) (unit := unit)
    (detail := detail) free
  have valid : bitsOf (1#64 <<< 63) 63 63 = 1 := by decide
  unfold State.fld
  rw [rec_, det, bitsOf_setBits_of_apart (by decide) (by decide) (by decide) (.inr (by decide)),
    bitsOf_setBits_of_apart (by decide) (by decide) (by decide) (.inr (by decide)),
    bitsOf_setBits_of_apart (by decide) (by decide) (by decide) (.inr (by decide)), valid,
    bitsOf_setBits_of_apart (by decide) (by decide) (by decide) (.inr (by decide)),
    bitsOf_setBits_of_apart (by decide) (by decide) (by decide) (.inr (by decide)),
    bitsOf_setBits _ _ _ _ (by decide) (by decide),
    bitsOf_setBits_of_apart (by decide) (by decide) (by decide) (.inr (by decide)),
    bitsOf_setBits _ _ _ _ (by decide) (by decide), bitsOf_setBits _ _ _ _ (by decide) (by decide),
    bitsOf_setBits_of_apart (by decide) (by decide) (by decide) (.inr (by decide)),
    bitsOf_setBits _ _ _ _ (by decide) (by decide), bitsOf_setBits _ _ _ _ (by decide) (by decide)]
  exact ⟨rfl, rfl, rfl, rfl, rfl, rfl⟩

end

/-! ### The obligation -/

section
variable {s : State}

/-- TR_INV, whose invalidation leaves `dropped`: no context, a bound one, or one that it invalidates (R445). -/
theorem trInv_answers {i : Instr} {c : Fin 16} {dropped : State} (only : OnlyTlb (s.invNamed c) dropped)
    (same : dropped.fld rTrInv 3 0 = (s.invNamed c).fld rTrInv 3 0)
    (none_ : 12 < c.val → exec i s = .next (s.invNamed c))
    (bound : c.val ≤ 12 → s.ctxBound c = true → exec i s = .next ((s.invNamed c).invDone 1))
    (unbound : c.val ≤ 12 → s.ctxBound c = false → exec i s = .next (dropped.invDone 0)) :
    ∃ t, exec i s = .next t ∧ t.fld rTrInv 3 0 = c.val ∧ OnlyTlb s t
      ∧ (s.ctxBound c = true → t.fld rTrInv 30 29 = 1 ∧ t.tlb = s.tlb ∧ t.walkPtrs = s.walkPtrs)
      ∧ (12 < c.val → t.tlb = s.tlb ∧ t.walkPtrs = s.walkPtrs)
      ∧ (c.val ≤ 12 → s.ctxBound c = false → t.fld rTrInv 30 29 = 0 ∧ t.tlb = dropped.tlb
          ∧ t.walkPtrs = dropped.walkPtrs) := by
  have named : OnlyRegs s (s.invNamed c) := s.setFld_onlyRegs ..
  have done_ (u : State) (r : Nat) : OnlyRegs u (u.invDone r) := u.setFld_onlyRegs ..
  by_cases real : c.val ≤ 12
  · cases held : s.ctxBound c
    · obtain ⟨result, ctx⟩ := State.fld_trInv_result (r := 0) c.isLt (by decide) same
      exact ⟨_, unbound real held, ctx, (named.onlyTlb.trans only).trans (done_ _ _).onlyTlb, fun h => absurd h (by simp),
        fun h => absurd h (by omega), fun _ _ => ⟨result, (done_ _ _).buffers⟩⟩
    · obtain ⟨result, ctx⟩ := State.fld_trInv_result (t := s.invNamed c) (r := 1) c.isLt (by decide) rfl
      exact ⟨_, bound real held, ctx, (named.trans (done_ _ _)).onlyTlb,
        fun _ => ⟨result, (named.trans (done_ _ _)).buffers⟩,
        fun h => absurd h (by omega), fun _ h => absurd h (by simp)⟩
  · have out : 12 < c.val := by omega
    exact ⟨_, none_ out, State.fld_invNamed c.isLt, named.onlyTlb,
      fun h => absurd h (by simp [State.ctxBound, show ¬ c.val < 12 by omega]), fun _ => named.buffers, fun h => absurd h real⟩

/-- The context and the page that TR_INV names, invalidated (R445). -/
theorem trInv_invalidates (s : State) (c : Fin 16) :
    ∃ t u, exec (.trInvContext c) s = .next t ∧ exec (.trInvPage c) s = .next u
      ∧ t.fld rTrInv 3 0 = c.val ∧ u.fld rTrInv 3 0 = c.val
      ∧ { t with regs := s.regs, tlb := s.tlb, walkPtrs := s.walkPtrs } = s
      ∧ { u with regs := s.regs, tlb := s.tlb, walkPtrs := s.walkPtrs } = s
      ∧ (s.ctxBound c = true → t.fld rTrInv 30 29 = 1 ∧ u.fld rTrInv 30 29 = 1 ∧ t.tlb = s.tlb
          ∧ t.walkPtrs = s.walkPtrs ∧ u.tlb = s.tlb ∧ u.walkPtrs = s.walkPtrs)
      ∧ (12 < c.val → t.tlb = s.tlb ∧ t.walkPtrs = s.walkPtrs ∧ u.tlb = s.tlb ∧ u.walkPtrs = s.walkPtrs)
      ∧ (c.val ≤ 12 → s.ctxBound c = false → t.fld rTrInv 30 29 = 0 ∧ u.fld rTrInv 30 29 = 0
          ∧ (∀ k e, e ∈ tabGet [] t.tlb k → e.ctx ≠ c.val) ∧ (∀ x ∈ t.walkPtrs, x.ctx ≠ c.val)
          ∧ ∀ k e, e ∈ tabGet [] u.tlb k → e.covers c (s.fld rTrInvVa 55 16 * 65536) = false) := by
  have va : (s.invNamed c).fld rTrInvVa 55 16 = s.fld rTrInvVa 55 16 := State.fld_setFld_ne _ _ _ _ _ _ (by decide)
  obtain ⟨t, runT, ctxT, onlyT, boundT, outT, dropT⟩ := trInv_answers (State.tlbCtx_onlyTlb (s.invNamed c) c) rfl
    exec_trInvContext_none exec_trInvContext_bound exec_trInvContext_unbound
  obtain ⟨u, runU, ctxU, onlyU, boundU, outU, dropU⟩ := trInv_answers (State.tlbPagePtrs_onlyTlb (s.invNamed c) c _) rfl
    exec_trInvPage_none exec_trInvPage_bound exec_trInvPage_unbound
  refine ⟨t, u, runT, runU, ctxT, ctxU, onlyT.frame, onlyU.frame, fun b => ?_, fun o => ?_, fun real free => ?_⟩
  · obtain ⟨r, l, p⟩ := boundT b
    obtain ⟨r', l', p'⟩ := boundU b
    exact ⟨r, r', l, p, l', p'⟩
  · exact ⟨(outT o).1, (outT o).2, outU o⟩
  · obtain ⟨r, l, p⟩ := dropT real free
    obtain ⟨r', l', -⟩ := dropU real free
    rw [l, p, l', va]
    exact ⟨r, r', ((s.invNamed c).tlbCtx_leaves c).1, ((s.invNamed c).tlbCtx_leaves c).2,
      (s.invNamed c).tlb_tlbPagePtrs c _⟩

end

/-- Settles O36: misses by what a queue's service keeps, and the rest command by command. -/
theorem translationBuffersFollowWalks : Obligations.TranslationBuffersFollowWalks := by
  refine ⟨fun s => ⟨fun q req c va req_lt low high ctx fresh absent => ?_, fun k q m rest => exec_sharedWalkerGrant,
    fun k q m l => exec_pageWalkComplete_settled, fun k q m => exec_pageWalkComplete_dead⟩, trInv_invalidates,
    fun s v f => ⟨fun agrees => ⟨_, exec_trHrootJudgingWrite_agrees agrees, State.hrootTaken_leaves agrees⟩,
      fun differs => ?_⟩⟩
  · obtain ⟨t, run, ⟨⟨missQs, walkers, nextId, regs, only⟩, -⟩, waits⟩ :=
      translationMiss_waits req_lt low high ctx fresh absent
    refine ⟨t, run, waits, ?_⟩
    rw [only]
  · obtain ⟨root, comp, others⟩ := s.reg_hrootKept v
    have notes := (s.hrootKept_onlyRegs v).onlyNotes.trans (State.reportSelf_onlyNotes (s.hrootKept v) 21 0x1 0 (64 + f)
      rTrHrootC)
    refine ⟨_, exec_trHrootJudgingWrite_disagrees differs, ?_, ?_, ?_, notes.sameMem, ?_, fun free => ?_⟩
    · exact (congrArg State.hroot notes.frame :)
    · rw [State.reportSelf, State.reg_report (by decide), root]
    · rw [State.reportSelf, State.reg_report (by decide), comp]
    · exact (congrArg State.tlb notes.frame :)
    · have free' : bitOf ((s.hrootKept v).reg (rFcRec (16 * 21 + 1))) 63 = false := by
        rw [others _ (by decide) (by decide), free]
      obtain ⟨valid, -, -, runit, -, detail⟩ := State.fld_report_of_free (sev := 0) (rsrc := 21) (runit := 64 + f.val)
        (unit := 64 + f.val) (detail := rTrHrootC) free'
      refine ⟨valid, runit.trans ?_, detail.trans ?_⟩
      · omega
      · decide

end Sys2Proof.Machine
end

section
/-!
SUPPORT. Sectors of the reservoir, the bursts that their controllers grant, ticks and package service (R477 to R494).
-/
namespace Sys2Proof.Machine

/-! ### What decides whether a package answers (R480, R500) -/

/-- What the placement and the package states of the reservoir are read from stays. -/
structure RvStays (s t : State) : Prop where
  evacs : t.evacs = s.evacs
  place : t.reg rRvPlace = s.reg rRvPlace
  state : ∀ i, t.rvState i = s.rvState i

section
variable {s t u : State}

theorem RvStays.refl : RvStays s s := ⟨rfl, rfl, fun _ => rfl⟩

theorem RvStays.trans (h : RvStays s t) (g : RvStays t u) : RvStays s u :=
  ⟨g.evacs.trans h.evacs, g.place.trans h.place, fun i => (g.state i).trans (h.state i)⟩

theorem RvStays.rvWhere (h : RvStays s t) (a : Nat) : t.rvWhere a = s.rvWhere a := by
  have hop (pg : Nat × Nat) : t.rvHop pg = s.rvHop pg := by
    unfold State.rvHop
    rw [h.evacs]
  have lg : t.localGib = s.localGib := congrArg (fun v => min (bitsOf v 5 0) 60) h.place
  rw [State.rvWhere, hop, hop, lg, State.rvWhere]

theorem RvStays.sectorAt (h : RvStays s t) (n : Nat) : t.sectorAt n = s.sectorAt n := by
  rw [State.sectorAt, h.rvWhere, State.sectorAt]

theorem RvStays.deadBlock (h : RvStays s t) (a : Nat) : t.deadBlock ⟨.reservoir, a⟩ = s.deadBlock ⟨.reservoir, a⟩ := by
  simp only [State.deadBlock, State.rvServing, h.rvWhere, h.state]

/-- A register below the packages' own, and not the placement, is none that they are read from. -/
theorem RvStays.of_reg {o : Nat} (only : ∀ i ≠ o, t.reg i = s.reg i) (evacs : t.evacs = s.evacs) (place : rRvPlace ≠ o)
    (low : o < rRvPkgStat 0) : RvStays s t where
  evacs := evacs
  place := only _ place
  state i := congrArg (bitsOf · 34 32) (only _ (by simp only [rRvPkgStat] at low ⊢; omega))

/-! ### Bursts (R492 to R494) -/

/-- t is s but for what sluices count and what waits at packages. -/
def OnlySluices (s t : State) : Prop :=
  ∃ buckets bursts turn slots waits,
    t = { s with buckets := buckets, bursts := bursts, rvTurn := turn, rvSlots := slots, rvWaits := waits }

/-- Sluices of package k that have not passed their cap. -/
def State.capsHold (s : State) (k : Nat) : Prop :=
  ∀ q < 13, tabGet 0 s.caps q ≠ 0 → tabGet 0 s.bursts (k * 13 + q) ≤ tabGet 0 s.caps q

theorem OnlySluices.refl : OnlySluices s s := ⟨_, _, _, _, _, rfl⟩

theorem OnlySluices.trans (h : OnlySluices s t) (g : OnlySluices t u) : OnlySluices s u := by
  obtain ⟨a, b, c, d, e, rfl⟩ := h
  obtain ⟨a', b', c', d', e', rfl⟩ := g
  exact ⟨a', b', c', d', e', rfl⟩

theorem OnlySluices.sameMem (h : OnlySluices s t) : sameMem s t := by
  obtain ⟨a, b, c, d, e, rfl⟩ := h
  exact ⟨rfl, rfl, rfl, rfl, rfl, rfl⟩

theorem OnlySluices.poison (h : OnlySluices s t) : t.poison = s.poison := by
  obtain ⟨a, b, c, d, e, rfl⟩ := h
  rfl

theorem OnlySluices.regs (h : OnlySluices s t) : t.regs = s.regs := by
  obtain ⟨a, b, c, d, e, rfl⟩ := h
  rfl

theorem OnlySluices.caps (h : OnlySluices s t) : t.caps = s.caps := by
  obtain ⟨a, b, c, d, e, rfl⟩ := h
  rfl

theorem OnlySluices.rvStays (h : OnlySluices s t) : RvStays s t := by
  obtain ⟨a, b, c, d, e, rfl⟩ := h
  exact ⟨rfl, rfl, fun _ => rfl⟩

theorem State.setWaiting_onlySluices (s : State) (k p : Nat) (l : List (Nat × Nat)) :
    OnlySluices s (s.setWaiting k p l) := ⟨_, _, _, _, _, rfl⟩

theorem State.takeBurst_onlySluices (s : State) (k p : Nat) : OnlySluices s (s.takeBurst k p) := by
  unfold State.takeBurst
  dsimp only
  split
  · exact ⟨_, _, _, _, _, rfl⟩
  · exact ⟨_, _, _, _, _, rfl⟩

/-- A slot serves none but a table read or a sluice whose cap is not reached (R493). -/
theorem State.sluiceOpen_of_rvNext {k p : Nat} (h : s.rvNext k = some p) : s.sluiceOpen k p = true := by
  have served (l : List Nat) (mem : p ∈ l.filter (fun p => !(s.rvWaiting k p).isEmpty && s.sluiceOpen k p)) :
      s.sluiceOpen k p = true := ((Bool.and_eq_true _ _).mp (List.mem_filter.mp mem).2).2
  revert h
  unfold State.rvNext
  dsimp only
  split
  · exact fun h => nomatch h
  · split
    · rintro ⟨⟩
      rfl
    · intro h
      rcases Option.or_eq_some_iff.mp h with found | ⟨-, first⟩
      · exact served _ (List.mem_of_find?_eq_some found)
      · exact served _ (List.mem_of_head? first)

theorem State.capsHold_takeBurst {k p : Nat} (open_ : s.sluiceOpen k p = true) {q : Nat} (lt : q < 13)
    (cap : tabGet 0 s.caps q ≠ 0) (h : tabGet 0 s.bursts (k * 13 + q) ≤ tabGet 0 s.caps q) :
    tabGet 0 (s.takeBurst k p).bursts (k * 13 + q) ≤ tabGet 0 s.caps q := by
  unfold State.takeBurst
  dsimp only
  split
  · exact h
  next low =>
    show tabGet 0 (tabMod 0 s.bursts (k * 13 + p) (· + 1)) (k * 13 + q) ≤ _
    rw [tabMod, tabGet_put]
    split
    next same =>
      obtain rfl : q = p := by omega
      simp only [State.sluiceOpen, Nat.not_le.mpr lt, decide_false, Bool.false_or, Bool.or_eq_true, beq_iff_eq,
        decide_eq_true_eq] at open_
      exact open_.resolve_left cap
    · exact h

/-- Bursts are granted within the caps. -/
theorem State.grant_keeps (k p : Nat) (n : Nat) (s : State) : OnlySluices s (State.grant n k p s).2
    ∧ ∀ q < 13, tabGet 0 s.caps q ≠ 0 → tabGet 0 s.bursts (k * 13 + q) ≤ tabGet 0 s.caps q →
        tabGet 0 (State.grant n k p s).2.bursts (k * 13 + q) ≤ tabGet 0 s.caps q := by
  induction n generalizing s with
  | zero => exact ⟨.refl, fun _ _ _ h => h⟩
  | succ n ih =>
    unfold State.grant
    split
    next serves =>
      have only := s.takeBurst_onlySluices k p
      obtain ⟨rest, caps⟩ := ih (s.takeBurst k p)
      refine ⟨only.trans rest, fun q lt cap h => ?_⟩
      have taken := State.capsHold_takeBurst (State.sluiceOpen_of_rvNext serves) lt cap h
      rw [only.caps] at caps
      exact caps q lt cap taken
    · exact ⟨.refl, fun _ _ _ h => h⟩

theorem State.burstsFor_keeps (s : State) (k p n b : Nat) : OnlySluices s (s.burstsFor k p n b).1
    ∧ ∀ q < 13, tabGet 0 s.caps q ≠ 0 → tabGet 0 s.bursts (k * 13 + q) ≤ tabGet 0 s.caps q →
        tabGet 0 (s.burstsFor k p n b).1.bursts (k * 13 + q) ≤ tabGet 0 s.caps q := by
  unfold State.burstsFor
  extract_lets w had waiting r t
  have waits : OnlySluices s waiting := s.setWaiting_onlySluices ..
  obtain ⟨granted, caps⟩ := State.grant_keeps k p (b - had) waiting
  split
  · exact ⟨(waits.trans granted).trans (State.setWaiting_onlySluices ..), caps⟩
  · exact ⟨(waits.trans granted).trans (State.setWaiting_onlySluices ..), caps⟩

/-! ### Reads of sectors (R482, R485, R488) -/

/-- t is s but for what a read of a sector counts, poisons, records and reports. -/
def OnlyReads (s t : State) : Prop :=
  ∃ regs poison repeats msix last,
    t = { s with regs := regs, poison := poison, repeats := repeats, msix := msix, fcLast := last }

theorem OnlyReads.refl : OnlyReads s s := ⟨_, _, _, _, _, rfl⟩

theorem OnlyReads.trans (h : OnlyReads s t) (g : OnlyReads t u) : OnlyReads s u := by
  obtain ⟨a, b, c, d, e, rfl⟩ := h
  obtain ⟨a', b', c', d', e', rfl⟩ := g
  exact ⟨a', b', c', d', e', rfl⟩

theorem OnlyReads.sameMem (h : OnlyReads s t) : sameMem s t := by
  obtain ⟨a, b, c, d, e, rfl⟩ := h
  exact ⟨rfl, rfl, rfl, rfl, rfl, rfl⟩

theorem OnlyReads.bursts (h : OnlyReads s t) : t.bursts = s.bursts := by
  obtain ⟨a, b, c, d, e, rfl⟩ := h
  rfl

theorem OnlyReads.evacs (h : OnlyReads s t) : t.evacs = s.evacs := by
  obtain ⟨a, b, c, d, e, rfl⟩ := h
  rfl

theorem OnlyNotes.poison (h : OnlyNotes s t) : t.poison = s.poison := (congrArg State.poison h.frame :)

theorem OnlyNotes.onlyReads (h : OnlyNotes s t) : OnlyReads s t := by
  obtain ⟨a, b, c, rfl⟩ := h
  exact ⟨_, _, _, _, _, rfl⟩

theorem State.setPoison_onlyReads (s : State) (l : Loc) : OnlyReads s (s.setPoison l) := by
  obtain ⟨regs, e⟩ := s.onlyRegs_setPoison l
  rw [e]
  exact ⟨_, _, _, _, _, rfl⟩

theorem State.poison_setPoison (s : State) (l : Loc) : (s.setPoison l).poison = tabPut false s.poison (blockKey l) true :=
  State.poison_recountPoison _

theorem State.reg_setPoison_reservoir_ne {o a : Nat} (other : o ≠ rRvEcc) :
    (s.setPoison ⟨.reservoir, a⟩).reg o = s.reg o := State.reg_setFld_ne _ _ _ _ other

theorem State.fld_setPoison_reservoir {a hi lo : Nat} (order : lo ≤ hi) (small : hi < 64) (high : 15 < lo) :
    (s.setPoison ⟨.reservoir, a⟩).fld rRvEcc hi lo = s.fld rRvEcc hi lo :=
  State.fld_setFld_of_apart _ (by decide) order small (.inr high)

theorem State.setPoison_rvStays (s : State) (a : Nat) : RvStays s (s.setPoison ⟨.reservoir, a⟩) :=
  .of_reg (o := rRvEcc) (fun _ other => State.reg_setPoison_reservoir_ne other) (s.setPoison_onlyReads _).evacs (by decide)
    (by decide)

/-- Repeats are counted in the package's register, beside its state, and kept with their time. -/
theorem State.countRepeats_leaves (s : State) (pkg ch n : Nat) : OnlyReads s (s.countRepeats pkg ch n)
    ∧ (s.countRepeats pkg ch n).poison = s.poison
    ∧ RvStays s (s.countRepeats pkg ch n)
    ∧ (s.countRepeats pkg ch n).reg rRvEcc = s.reg rRvEcc := by
  have apart (o : Nat) (low : o < rRvPkgStat 0) : o ≠ rRvPkgStat pkg := by
    simp only [rRvPkgStat] at low ⊢
    omega
  unfold State.countRepeats
  dsimp only
  split
  · exact ⟨.refl, rfl, .refl, rfl⟩
  · have counted : RvStays s (s.incFld (rRvPkgStat pkg) 15 0 n) :=
      ⟨rfl, State.reg_incFld_ne _ _ _ _ (apart _ (by decide)),
        fun i => s.fld_incFld_of_apart (by decide) (by decide) (by decide) (.inr (by decide))⟩
    exact ⟨⟨_, _, _, _, _, rfl⟩, rfl, counted.trans ⟨rfl, rfl, fun _ => rfl⟩,
      s.reg_incFld_ne _ _ _ (apart _ (by decide))⟩

/-- A sector lost, with its poison and its count. -/
def State.lostCounted (s : State) (n : Nat) : State := (s.setPoison ⟨.reservoir, n * 64⟩).incFld rRvEcc 31 16 1

theorem State.sectorLost_notes {n : Nat} (answers : s.deadBlock ⟨.reservoir, n * 64⟩ = false) (src : Nat) :
    OnlyNotes (s.lostCounted n) (s.sectorLost n src)
      ∧ (s.sectorLost n src).reg rRvEcc = (s.lostCounted n).reg rRvEcc := by
  unfold State.sectorLost
  rw [answers]
  refine ⟨(State.onlyRegs_latch ..).onlyNotes.trans (State.reportSelf_onlyNotes ..), ?_⟩
  exact (State.reg_report (by decide)).trans (State.reg_latch_ne _ _ (by decide))

/-- A lost sector of a package that answers is poisoned and counted. -/
theorem State.sectorLost_leaves {n : Nat} (answers : s.deadBlock ⟨.reservoir, n * 64⟩ = false) (src : Nat) :
    OnlyReads s (s.sectorLost n src) ∧ tabGet false (s.sectorLost n src).poison (blockKey ⟨.reservoir, n * 64⟩) = true
      ∧ (s.sectorLost n src).fld rRvEcc 31 16 = min (s.fld rRvEcc 31 16 + 1) 65535 := by
  obtain ⟨noted, same⟩ := s.sectorLost_notes answers src
  have counted : OnlyRegs (s.setPoison ⟨.reservoir, n * 64⟩) (s.lostCounted n) := State.incFld_onlyRegs ..
  refine ⟨((s.setPoison_onlyReads _).trans counted.onlyNotes.onlyReads).trans noted.onlyReads, ?_, ?_⟩
  · rw [noted.poison, counted.poison, State.poison_setPoison, tabGet_put_self]
  · rw [State.fld, same, ← State.fld, State.lostCounted, State.fld_incFld _ (by decide) (by decide),
      State.fld_setPoison_reservoir (by decide) (by decide) (by decide)]
    rfl

/-- Sectors of a check group poisoned: the count of lost sectors and what decides whether packages answer stay. -/
theorem State.foldl_setPoison_leaves (l : List Nat) (s : State) :
    let t := l.foldl (fun t m => t.setPoison ⟨.reservoir, m * 64⟩) s
    OnlyReads s t ∧ RvStays s t ∧ t.fld rRvEcc 31 16 = s.fld rRvEcc 31 16 := by
  refine List.foldlRecOn (motive := fun t => OnlyReads s t ∧ RvStays s t ∧ t.fld rRvEcc 31 16 = s.fld rRvEcc 31 16) l _
    ⟨.refl, .refl, rfl⟩ ?_
  rintro t ⟨only, stays, same⟩ m -
  refine ⟨only.trans (t.setPoison_onlyReads _), stays.trans (t.setPoison_rvStays _), ?_⟩
  rw [State.fld_setPoison_reservoir (by decide) (by decide) (by decide), same]

/-- A read that delivers no sector (R485). -/
def sectorFails (s : State) (n : Nat) (ev : SectorEv) : Prop :=
  s.sectorBad n = true ∨ ev = .uncorrectable ∨ ev = .disagree

/-- A sector with the repeats of its read counted. -/
def State.repeated (s : State) (n : Nat) (ev : SectorEv) : State :=
  s.countRepeats (s.sectorAt n).1 (s.sectorAt n).2 (sectorRepeats ev)

theorem State.sectorRead_eq (s : State) (n src : Nat) (ev : SectorEv) : s.sectorRead n src ev
    = if s.sectorBad n then ((s.repeated n ev).sectorLost n src, false)
      else match ev with
        | .corrected => ((s.repeated n ev).incFld rRvEcc 63 32 1, true)
        | .uncorrectable => ((s.repeated n ev).sectorLost n src, false)
        | .disagree => (((((s.repeated n ev).checkGroup n).foldl (fun t m => t.setPoison ⟨.reservoir, m * 64⟩)
            (s.repeated n ev)).sectorLost n src), false)
        | _ => (s.repeated n ev, true) := by
  have same : (s.repeated n ev).sectorBad n = s.sectorBad n := by
    rw [State.sectorBad, State.repeated, (State.countRepeats_leaves ..).2.1, State.sectorBad]
  rw [← same]
  rfl

/-- What a lost sector leaves, of a state that a read reached before. -/
theorem State.sectorLost_after {n : Nat} (answers : s.deadBlock ⟨.reservoir, n * 64⟩ = false) (only : OnlyReads s t)
    (stays : RvStays s t) (count : t.fld rRvEcc 31 16 = s.fld rRvEcc 31 16) (src : Nat) :
    OnlyReads s (t.sectorLost n src) ∧ tabGet false (t.sectorLost n src).poison (blockKey ⟨.reservoir, n * 64⟩) = true
      ∧ (t.sectorLost n src).fld rRvEcc 31 16 = min (s.fld rRvEcc 31 16 + 1) 65535 := by
  obtain ⟨lost, poison, counted⟩ := t.sectorLost_leaves ((stays.deadBlock _).trans answers) src
  exact ⟨only.trans lost, poison, count ▸ counted⟩

theorem State.sectorRead_fails {n : Nat} {ev : SectorEv} (answers : s.deadBlock ⟨.reservoir, n * 64⟩ = false)
    (fails : sectorFails s n ev) (src : Nat) :
    OnlyReads s (s.sectorRead n src ev).1
      ∧ tabGet false (s.sectorRead n src ev).1.poison (blockKey ⟨.reservoir, n * 64⟩) = true
      ∧ (s.sectorRead n src ev).1.fld rRvEcc 31 16 = min (s.fld rRvEcc 31 16 + 1) 65535 := by
  obtain ⟨only, -, stays, same⟩ := s.countRepeats_leaves (s.sectorAt n).1 (s.sectorAt n).2 (sectorRepeats ev)
  have count : (s.repeated n ev).fld rRvEcc 31 16 = s.fld rRvEcc 31 16 := congrArg (bitsOf · 31 16) same
  have lost := State.sectorLost_after answers only stays count src
  rw [State.sectorRead_eq]
  by_cases bad : s.sectorBad n = true
  · rw [if_pos bad]
    exact lost
  · rw [if_neg bad]
    rcases fails with h | rfl | rfl
    · exact absurd h bad
    · exact lost
    · obtain ⟨only', stays', count'⟩ :=
        State.foldl_setPoison_leaves ((s.repeated n .disagree).checkGroup n) (s.repeated n .disagree)
      exact State.sectorLost_after answers (only.trans only') (stays.trans stays') (count'.trans count) src

/-- A read that delivers its sector (R485). -/
theorem State.sectorRead_delivers {n : Nat} {ev : SectorEv} (fine : ¬ sectorFails s n ev) (src : Nat) :
    OnlyReads s (s.sectorRead n src ev).1 ∧ (s.sectorRead n src ev).2 = true
      ∧ (s.sectorRead n src ev).1.poison = s.poison
      ∧ (s.sectorRead n src ev).1.fld rRvEcc 63 32
        = (if ev = .corrected then min (s.fld rRvEcc 63 32 + 1) (2 ^ 32 - 1) else s.fld rRvEcc 63 32) := by
  obtain ⟨only, poison, -, same⟩ := s.countRepeats_leaves (s.sectorAt n).1 (s.sectorAt n).2 (sectorRepeats ev)
  have count : (s.repeated n ev).fld rRvEcc 63 32 = s.fld rRvEcc 63 32 := congrArg (bitsOf · 63 32) same
  simp only [sectorFails, not_or] at fine
  obtain ⟨sound, readable, agrees⟩ := fine
  rw [State.sectorRead_eq, if_neg sound]
  cases ev with
  | good => exact ⟨only, rfl, poison, count⟩
  | repeated second => exact ⟨only, rfl, poison, count⟩
  | corrected =>
    have counted : OnlyRegs (s.repeated n .corrected) ((s.repeated n .corrected).incFld rRvEcc 63 32 1) :=
      State.incFld_onlyRegs ..
    refine ⟨only.trans counted.onlyNotes.onlyReads, rfl, counted.poison.trans poison, ?_⟩
    rw [State.fld_incFld _ (by decide) (by decide), count]
    rfl
  | uncorrectable => exact absurd rfl readable
  | disagree => exact absurd rfl agrees

theorem State.sectorRead_onlyReads {n : Nat} (answers : s.deadBlock ⟨.reservoir, n * 64⟩ = false) (src : Nat)
    (ev : SectorEv) : OnlyReads s (s.sectorRead n src ev).1 := by
  by_cases fails : sectorFails s n ev
  · exact (State.sectorRead_fails answers fails src).1
  · exact (State.sectorRead_delivers fails src).1

end

/-! ### Requests for sectors (R480 to R494) -/

section
variable {s : State} {n : Nat}

theorem State.answers_of_open (h : s.sectorOpen n = true) :
    n < rvSectors ∧ (∃ l, s.tierWait ⟨.reservoir, n * 64⟩ = .ok l) ∧ s.deadBlock ⟨.reservoir, n * 64⟩ = false := by
  unfold State.sectorOpen at h
  rw [Bool.and_eq_true, decide_eq_true_eq] at h
  obtain ⟨lt, h⟩ := h
  split at h
  next l ok => exact ⟨lt, ⟨l, ok⟩, by simpa using h⟩
  · cases h

/-- A request for an open sector takes its bursts, and goes on when it has them all. -/
theorem State.sectorReq_of_open (h : s.sectorOpen n = true) (p b src : Nat) (f : State → State) :
    s.sectorReq n p b src f = .next (if (s.burstsFor (s.sectorAt n).1 p n b).2
      then f (s.burstsFor (s.sectorAt n).1 p n b).1 else (s.burstsFor (s.sectorAt n).1 p n b).1) := by
  obtain ⟨lt, ⟨l, ok⟩, answers⟩ := State.answers_of_open h
  unfold State.sectorReq
  dsimp only
  rw [need_of (decide_eq_true lt), ok]
  dsimp only
  rw [answers]
  rfl

/-- A whole block written is poisoned no more (R486). -/
theorem State.poison_clearPoison_block (s : State) (n : Nat) :
    tabGet false (s.clearPoison ⟨.reservoir, n * 64⟩ 64).poison (blockKey ⟨.reservoir, n * 64⟩) = false := by
  have blocks : blocksOf ⟨.reservoir, n * 64⟩ 64 = [⟨.reservoir, n * 64⟩] := by
    simp [blocksOf]
  unfold State.clearPoison
  rw [blocks]
  cases poisoned : tabGet false s.poison (blockKey ⟨.reservoir, n * 64⟩)
  · simp [poisoned]
  · simp [poisoned, State.poison_recountPoison]

theorem OnlySluices.fld {t : State} (h : OnlySluices s t) (o hi lo : Nat) : t.fld o hi lo = s.fld o hi lo :=
  congrArg (bitsOf · hi lo) (State.reg_of_regs h.regs o)

theorem OnlySluices.sectorFails {t : State} (h : OnlySluices s t) (n : Nat) (ev : SectorEv) :
    sectorFails t n ev ↔ sectorFails s n ev := by
  unfold Machine.sectorFails State.sectorBad
  rw [h.poison]

end

/-! ### Reads, scrubs and writes as commands -/

section
variable {s : State} {n : BitVec 36} {p : Fin 14} {chk : Bool} {ev : SectorEv}

/-- SOURCE of a read through a sluice. -/
def readSource (p : Fin 14) : Nat := if p.val = 13 then 4 else 0

/-- A read's bursts, and what it does with them. -/
def State.asked (s : State) (n : BitVec 36) (p : Fin 14) (b : Nat) : State × Bool :=
  s.burstsFor (s.sectorAt n.toNat).1 p n.toNat b

theorem State.sectorReq_of_asked (h : s.sectorOpen n.toNat = true) (b src : Nat) (f : State → State) :
    s.sectorReq n.toNat p b src f
      = .next (if (s.asked n p b).2 then f (s.asked n p b).1 else (s.asked n p b).1) :=
  State.sectorReq_of_open h p b src f

theorem exec_reservoirSectorRead (h : s.sectorOpen n.toNat = true) :
    exec (.reservoirSectorRead n p chk ev) s = .next (if (s.asked n p (sectorBursts chk ev)).2
      then ((s.asked n p (sectorBursts chk ev)).1.sectorRead n.toNat (readSource p) ev).1
      else (s.asked n p (sectorBursts chk ev)).1) :=
  State.sectorReq_of_asked h (sectorBursts chk ev) (readSource p)
    (fun t => (t.sectorRead n.toNat (readSource p) ev).1)

theorem exec_reservoirPatrolScrub (h : s.sectorOpen n.toNat = true) :
    exec (.reservoirPatrolScrub n ev) s = .next (s.sectorRead n.toNat 2 ev).1 := by
  obtain ⟨lt, ⟨l, ok⟩, answers⟩ := State.answers_of_open h
  show execReservoirPatrolScrub n ev s = _
  unfold execReservoirPatrolScrub
  rw [need_of (decide_eq_true lt), ok]
  dsimp only
  rw [answers]
  rfl

theorem State.asked_answers (h : s.sectorOpen n.toNat = true) (b : Nat) :
    (s.asked n p b).1.deadBlock ⟨.reservoir, n.toNat * 64⟩ = false :=
  ((s.burstsFor_keeps ..).1.rvStays.deadBlock _).trans (State.answers_of_open h).2.2

/-- Whatever it is granted, a read changes no memory, and passes no cap. -/
theorem reservoirSectorRead_keeps (h : s.sectorOpen n.toNat = true) :
    ∃ t, exec (.reservoirSectorRead n p chk ev) s = .next t ∧ sameMem s t
      ∧ ((s.asked n p (sectorBursts chk ev)).2 = false → t.poison = s.poison ∧ t.regs = s.regs)
      ∧ ∀ q < 13, tabGet 0 s.caps q ≠ 0 →
          tabGet 0 s.bursts ((s.sectorAt n.toNat).1 * 13 + q) ≤ tabGet 0 s.caps q →
          tabGet 0 t.bursts ((s.sectorAt n.toNat).1 * 13 + q) ≤ tabGet 0 s.caps q := by
  obtain ⟨only, caps⟩ : OnlySluices s (s.asked n p (sectorBursts chk ev)).1 ∧ _ := s.burstsFor_keeps ..
  refine ⟨_, exec_reservoirSectorRead h, ?_⟩
  cases granted : (s.asked n p (sectorBursts chk ev)).2
  · exact ⟨only.sameMem, fun _ => ⟨only.poison, only.regs⟩, caps⟩
  · have reads := State.sectorRead_onlyReads (State.asked_answers (p := p) h (sectorBursts chk ev)) (readSource p) ev
    refine ⟨only.sameMem.trans reads.sameMem, fun h => absurd h (by simp), fun q lt cap le => ?_⟩
    rw [if_pos rfl, reads.bursts]
    exact caps q lt cap le

/-- A read with its bursts and a scrub find the same. -/
theorem reservoirSectorRead_granted (h : s.sectorOpen n.toNat = true)
    (granted : (s.asked n p (sectorBursts chk ev)).2 = true) :
    ∃ t u, exec (.reservoirSectorRead n p chk ev) s = .next t ∧ exec (.reservoirPatrolScrub n ev) s = .next u
      ∧ sameMem s t ∧ sameMem s u
      ∧ (sectorFails s n.toNat ev →
          tabGet false t.poison (blockKey ⟨.reservoir, n.toNat * 64⟩) = true
            ∧ tabGet false u.poison (blockKey ⟨.reservoir, n.toNat * 64⟩) = true
            ∧ t.fld rRvEcc 31 16 = min (s.fld rRvEcc 31 16 + 1) 65535
            ∧ u.fld rRvEcc 31 16 = min (s.fld rRvEcc 31 16 + 1) 65535)
      ∧ (¬ sectorFails s n.toNat ev →
          t.poison = s.poison ∧ u.poison = s.poison
            ∧ t.fld rRvEcc 63 32 = (if ev = .corrected then min (s.fld rRvEcc 63 32 + 1) (2 ^ 32 - 1)
                else s.fld rRvEcc 63 32)
            ∧ u.fld rRvEcc 63 32 = t.fld rRvEcc 63 32) := by
  have answers := (State.answers_of_open h).2.2
  have asked := State.asked_answers (p := p) h (sectorBursts chk ev)
  have only : OnlySluices s (s.asked n p (sectorBursts chk ev)).1 := (s.burstsFor_keeps ..).1
  have reads := State.sectorRead_onlyReads asked (readSource p) ev
  have scrub := State.sectorRead_onlyReads answers 2 ev
  refine ⟨_, _, (exec_reservoirSectorRead h).trans (congrArg Host.Outcome.next (if_pos granted)),
    exec_reservoirPatrolScrub h, only.sameMem.trans reads.sameMem, scrub.sameMem, fun fails => ?_, fun fine => ?_⟩
  · obtain ⟨-, poison, count⟩ := State.sectorRead_fails asked ((only.sectorFails ..).mpr fails) (readSource p)
    obtain ⟨-, poison', count'⟩ := State.sectorRead_fails answers fails 2
    rw [only.fld] at count
    exact ⟨poison, poison', count, count'⟩
  · obtain ⟨-, -, poison, count⟩ := State.sectorRead_delivers (mt (only.sectorFails ..).mp fine) (readSource p)
    obtain ⟨-, -, poison', count'⟩ := State.sectorRead_delivers fine 2
    rw [only.fld] at count
    exact ⟨poison.trans only.poison, poison', count, count'.trans count.symm⟩

/-- Bytes written in the reservoir are stored there. -/
theorem stored_rawWrite {t : State} {a : Nat} {bytes : List Byte} (same : ∀ x k, t.rawRead x k = s.rawRead x k) :
    stored s (t.rawWrite ⟨.reservoir, a⟩ bytes) ⟨.reservoir, a⟩ bytes := by
  refine ⟨State.rawRead_rawWrite .., fun x hx ho => ?_⟩
  rw [State.rawRead_rawWrite_outside hx ho (fun w h => nomatch h), same]

theorem reservoirSectorWrite_whole (h : s.sectorOpen n.toNat = true) {bytes : List Byte} (whole : bytes.length = 64)
    (granted : (s.asked n p 2).2 = true) :
    ∃ t, exec (.reservoirSectorWrite n 0 bytes p ev) s = .next t ∧ stored s t ⟨.reservoir, n.toNat * 64⟩ bytes
      ∧ tabGet false t.poison (blockKey ⟨.reservoir, n.toNat * 64⟩) = false := by
  have only : OnlySluices s (s.asked n p 2).1 := (s.burstsFor_keeps ..).1
  have ends : exec (.reservoirSectorWrite n 0 bytes p ev) s
      = .next (((s.asked n p 2).1.clearPoison ⟨.reservoir, n.toNat * 64⟩ 64).rawWrite ⟨.reservoir, n.toNat * 64⟩ bytes) := by
    show execReservoirSectorWrite n 0 bytes p ev s = _
    unfold execReservoirSectorWrite
    have some_ : bytes ≠ [] := fun e => by simp [e] at whole
    dsimp only
    rw [need_of (decide_eq_true ⟨some_, by simp [whole]⟩), if_pos whole, State.sectorReq_of_asked h]
    exact congrArg Host.Outcome.next (if_pos granted)
  refine ⟨_, ends, stored_rawWrite fun x k => ?_, ?_⟩
  · rw [State.rawRead_clearPoison, State.rawRead_of_sameMem only.sameMem]
  · exact State.poison_clearPoison_block ..

theorem reservoirSectorWrite_part (h : s.sectorOpen n.toNat = true) {o : Fin 64} {bytes : List Byte} (some_ : bytes ≠ [])
    (part : bytes.length < 64) (inside : o.val + bytes.length ≤ 64) (fine : ¬ sectorFails s n.toNat ev)
    (granted : ∀ b, (s.freeBit.2.asked n p (sectorBursts b ev + 2)).2 = true) :
    ∃ t, exec (.reservoirSectorWrite n o bytes p ev) s = .next t
      ∧ stored s t ⟨.reservoir, n.toNat * 64 + o.val⟩ bytes := by
  have h' : s.freeBit.2.sectorOpen n.toNat = true := h
  obtain ⟨b, chosen⟩ : ∃ b, s.freeBit.1 = b := ⟨_, rfl⟩
  have only : OnlySluices s.freeBit.2 (s.freeBit.2.asked n p (sectorBursts b ev + 2)).1 := (State.burstsFor_keeps ..).1
  have fine' : ¬ sectorFails (s.freeBit.2.asked n p (sectorBursts b ev + 2)).1 n.toNat ev :=
    mt (only.sectorFails ..).mp fine
  obtain ⟨reads, given, -, -⟩ := State.sectorRead_delivers fine' 1
  have ends : exec (.reservoirSectorWrite n o bytes p ev) s
      = .next ((((s.freeBit.2.asked n p (sectorBursts b ev + 2)).1.sectorRead n.toNat 1 ev).1).rawWrite
          ⟨.reservoir, n.toNat * 64 + o.val⟩ bytes) := by
    show execReservoirSectorWrite n o bytes p ev s = _
    unfold execReservoirSectorWrite
    dsimp only
    rw [need_of (decide_eq_true ⟨some_, inside⟩), if_neg (by omega), chosen, State.sectorReq_of_asked h']
    refine congrArg Host.Outcome.next ((if_pos (granted b)).trans ?_)
    rcases found : (s.freeBit.2.asked n p (sectorBursts b ev + 2)).1.sectorRead n.toNat 1 ev with ⟨t, delivered⟩
    rw [found] at given
    cases given
    rfl
  refine ⟨_, ends, stored_rawWrite fun x k => ?_⟩
  rw [State.rawRead_of_sameMem reads.sameMem, State.rawRead_of_sameMem only.sameMem]
  rfl

end

/-! ### Ticks (R492) -/

/-- A table filled over a range of keys. -/
theorem tabGet_foldl_put {α : Type} [DecidableEq α] (d : α) (f : Nat → α) (n k : Nat) (t : Tab α) :
    tabGet d ((List.range n).foldl (fun t i => tabPut d t i (f i)) t) k = if k < n then f k else tabGet d t k := by
  induction n with
  | zero => rfl
  | succ n ih =>
    rw [List.range_succ, List.foldl_append, List.foldl_cons, List.foldl_nil, tabGet_put, ih]
    split
    next same => rw [same, if_pos (Nat.lt_succ_self n)]
    next other => exact if_congr (by omega) rfl rfl

/-- A tick of the sluices. -/
def State.ticked (s : State) : State :=
  { s with
    buckets := (List.range 468).foldl (fun t i => tabPut 0 t i (s.bucketAfter (i / 13) (i % 13))) s.buckets
    bursts := []
    caps := (List.range 13).foldl (fun t p => tabPut 0 t p (s.fld (rRvSluice p) 24 16)) []
    rvSlots := []
    rvTicks := s.now / 375 + 1 }

theorem exec_sluiceTick {s : State} (due : s.rvTicks ≤ s.now / 375) : exec .sluiceTick s = .next s.ticked :=
  need_of (decide_eq_true due) 492 _

theorem State.ticked_frame (s : State) : s.ticked.bursts = [] ∧ { s.ticked with
    buckets := s.buckets, bursts := s.bursts, caps := s.caps, rvSlots := s.rvSlots, rvTicks := s.rvTicks } = s := by
  unfold State.ticked
  exact ⟨rfl, rfl⟩

theorem State.caps_ticked (s : State) {p : Nat} (lt : p < 13) : tabGet 0 s.ticked.caps p = s.fld (rRvSluice p) 24 16 := by
  show tabGet 0 ((List.range 13).foldl (fun t p => tabPut 0 t p (s.fld (rRvSluice p) 24 16)) []) p = _
  rw [tabGet_foldl_put, if_pos lt]

theorem State.buckets_ticked (s : State) {k p : Nat} (package : k < 36) (lt : p < 13) :
    tabGet 0 s.ticked.buckets (k * 13 + p) = s.bucketAfter k p := by
  unfold State.ticked
  dsimp only
  rw [tabGet_foldl_put, if_pos (by omega), show (k * 13 + p) / 13 = k by omega,
    show (k * 13 + p) % 13 = p by omega]

/-! ### The service of a package (R477, R489, R503) -/

section
variable {s : State} {k : Fin 36}

theorem exec_driftCompensation {ch : Fin 4}
    (due : s.retrainN ≤ ((tabGet [] s.repeats (k.val * 4 + ch.val)).filter (fun t => s.now < t + 1000000)).length) :
    exec (.driftCompensation k ch) s = .next { s with repeats := tabPut [] s.repeats (k.val * 4 + ch.val) [] } :=
  need_of (decide_eq_true due) 489 _

/-- MR4 of a package kept, with the time at which it was read. -/
def State.mr4Kept (s : State) (k code : Nat) : State :=
  { s with mr4At := tabPut 0 s.mr4At k s.now }.setFld (rRvPkgStat k) 20 16 code

theorem exec_mr4Read {code : Fin 32} {above : Bool}
    (due : tabGet 0 s.mr4At k.val = 0 ∨ tabGet 0 s.mr4At k.val + 32000000 ≤ s.now) :
    exec (.mr4Read k code above) s
      = .next (if above then (s.mr4Kept k code).reportSelf 13 0xB 0 k code else s.mr4Kept k code) :=
  need_of (decide_eq_true due) 477 _

theorem State.mr4Kept_leaves (s : State) (k : Nat) {code : Nat} (lt : code < 32) :
    (s.mr4Kept k code).fld (rRvPkgStat k) 20 16 = code ∧ tabGet 0 (s.mr4Kept k code).mr4At k = s.now
      ∧ sameMem s (s.mr4Kept k code) ∧ { s.mr4Kept k code with regs := s.regs, mr4At := s.mr4At } = s := by
  have code_ : (s.mr4Kept k code).fld (rRvPkgStat k) 20 16 = code := by
    rw [State.mr4Kept, State.fld_setFld _ _ _ _ _ (by decide) (by decide)]
    omega
  obtain ⟨regs, e⟩ : OnlyRegs { s with mr4At := tabPut 0 s.mr4At k s.now } (s.mr4Kept k code) := State.setFld_onlyRegs ..
  rw [e] at code_ ⊢
  exact ⟨code_, tabGet_put_self 0 s.mr4At k s.now, ⟨rfl, rfl, rfl, rfl, rfl, rfl⟩, rfl⟩

theorem mr4Read_keeps {code : Fin 32} {above : Bool}
    (due : tabGet 0 s.mr4At k.val = 0 ∨ tabGet 0 s.mr4At k.val + 32000000 ≤ s.now) :
    ∃ t, exec (.mr4Read k code above) s = .next t ∧ t.fld (rRvPkgStat k) 20 16 = code.val
      ∧ tabGet 0 t.mr4At k.val = s.now ∧ sameMem s t
      ∧ (above = false → { t with regs := s.regs, mr4At := s.mr4At } = s) := by
  obtain ⟨kept, time, mem, frame⟩ := s.mr4Kept_leaves k code.isLt
  have run := exec_mr4Read (code := code) (above := above) due
  generalize s.mr4Kept k code = u at kept time mem frame run
  cases above
  · exact ⟨u, run.trans (congrArg Host.Outcome.next (if_neg Bool.false_ne_true)), kept, time, mem, fun _ => frame⟩
  · have notes := u.reportSelf_onlyNotes 13 0xB 0 k code
    have apart : rRvPkgStat k ∉ reportRegs (16 * 13 + 0xB) := by
      simp only [reportRegs, rRvPkgStat, rFcRec, rFcTb, rFcDet, rFcSummary, rFcAlert, List.mem_cons, List.not_mem_nil,
        or_false]
      omega
    refine ⟨_, run.trans (congrArg Host.Outcome.next (if_pos rfl)), ?_, ?_, mem.trans notes.sameMem, fun h => nomatch h⟩
    · rw [State.fld, State.reportSelf, State.reg_report apart, ← State.fld, kept]
    · obtain ⟨regs, msix, last, e⟩ := notes
      rw [e]
      exact time

end

/-- Settles O41: what a request for a sector takes and finds, a tick sluice by sluice, and the service of a package. -/
theorem reservoirSectorsAreServed : Obligations.ReservoirSectorsAreServed := by
  refine ⟨fun s n p chk ev h => ⟨reservoirSectorRead_keeps h, fun granted => ?_, fun bytes => reservoirSectorWrite_whole h,
    fun o bytes some_ part inside sound readable agrees => reservoirSectorWrite_part h some_ part inside ?_⟩,
    fun s due => ⟨_, exec_sluiceTick due, s.ticked_frame.1, s.ticked_frame.2, fun p lt => s.caps_ticked lt, fun k p package lt => s.buckets_ticked package lt⟩,
    fun s k ch code above => ⟨fun due => ⟨_, exec_driftCompensation due, tabGet_put_self [] s.repeats _ [], rfl⟩, mr4Read_keeps⟩⟩
  · obtain ⟨t, u, runT, runU, memT, memU, fails, fine⟩ := reservoirSectorRead_granted (ev := ev) h granted
    refine ⟨t, u, runT, runU, memT, memU, fails, fun sound readable agrees => fine ?_⟩
    simp [sectorFails, sound, readable, agrees]
  · simp [sectorFails, sound, readable, agrees]

end Sys2Proof.Machine
end

section
/-!
SUPPORT. Reservoir packages fenced, evacuated and failed, the placement and the end of self-refresh (R483, R496 to R502).
-/
namespace Sys2Proof.Machine

section
variable {s t : State} {k i v : Nat}

/-! ### States of packages (R504) -/

theorem State.rvState_setRvState (s : State) (k : Nat) (small : v < 8) : (s.setRvState k v).rvState k = v := by
  rw [State.rvState, State.setRvState, State.fld_setFld _ _ _ _ _ (by decide) (by decide)]
  omega

theorem State.rvState_setRvState_ne (s : State) (other : i ≠ k) (v : Nat) : (s.setRvState k v).rvState i = s.rvState i :=
  State.fld_setFld_ne _ _ _ _ _ _ (by simp only [rRvPkgStat]; omega)

theorem State.setRvState_onlyRegs (s : State) (k v : Nat) : OnlyRegs s (s.setRvState k v) := s.setFld_onlyRegs ..

/-- Registers of the reservoir's block are none that a report of source 13 or 21 changes. -/
theorem State.reg_reportSelf_reservoir {src cls sev unit detail o : Nat} (known : src < 64) (class_ : cls < 16)
    (block : 0x80000 ≤ o) : (s.reportSelf src cls sev unit detail).reg o = s.reg o := by
  refine State.reg_report ?_
  simp only [reportRegs, rFcRec, rFcTb, rFcDet, rFcSummary, rFcAlert, List.mem_cons, List.not_mem_nil, or_false]
  omega

theorem le_rRvPkgStat (k : Nat) : 0x80000 ≤ rRvPkgStat k := by
  unfold rRvPkgStat
  omega

theorem State.rvState_reportSelf {src cls sev unit detail : Nat} (known : src < 64) (class_ : cls < 16) (k : Nat) :
    (s.reportSelf src cls sev unit detail).rvState k = s.rvState k :=
  congrArg (bitsOf · 34 32) (State.reg_reportSelf_reservoir known class_ (le_rRvPkgStat k))

theorem OnlyNotes.evacs (h : OnlyNotes s t) : t.evacs = s.evacs := by
  obtain ⟨r, m, l, rfl⟩ := h
  rfl

theorem OnlyRegs.evacs (h : OnlyRegs s t) : t.evacs = s.evacs := h.onlyNotes.evacs

end

/-! ### Fence commands (R496, R498) -/

section
variable {s : State} {v : Word}

/-- RV_FENCE with its answer. -/
def State.fenceTold (s : State) (v : Word) : State :=
  s.setReg rRvFence (setBits (setBits (setBits 0#64 62 60 (s.fenceJudge (bitsOf v 57 52) (bitsOf v 41 21 * 2 ^ 21)).1)
    57 52 (bitsOf v 57 52)) 41 21 (bitsOf v 41 21))

/-- The evacuation that a good command begins. -/
def State.fenceEvac (s : State) (v : Word) : Evac :=
  { pkg := bitsOf v 57 52, donor := bitsOf v 41 21 * 2 ^ 21,
    active := (s.fenceJudge (bitsOf v 57 52) (bitsOf v 41 21 * 2 ^ 21)).2 }

/-- An evacuation listed. -/
def State.addEvac (s : State) (e : Evac) : State := { s with evacs := s.evacs ++ [e] }

theorem State.reg_addEvac (s : State) (e : Evac) (o : Nat) : (s.addEvac e).reg o = s.reg o := rfl
theorem State.evacs_addEvac (s : State) (e : Evac) : (s.addEvac e).evacs = s.evacs ++ [e] := rfl
theorem State.sameMem_addEvac (s : State) (e : Evac) : sameMem s (s.addEvac e) := ⟨rfl, rfl, rfl, rfl, rfl, rfl⟩

/-- An evacuation under way, reported. -/
def State.fenceBegun (s : State) (v : Word) : State :=
  ((s.fenceTold v).addEvac (s.fenceEvac v)).reportSelf 13 0x6 2 (bitsOf v 57 52)
    (bitsOf v 41 21 * 2 ^ 21)

theorem exec_rvFenceCmd_refused (op : bitsOf v 59 58 = 1)
    (bad : (s.fenceJudge (bitsOf v 57 52) (bitsOf v 41 21 * 2 ^ 21)).1 ≠ 0) :
    exec (.rvFenceCmd v) s = .next (s.fenceTold v) :=
  (need_of (beq_iff_eq.mpr op) 496 _).trans (if_pos bad)

theorem exec_rvFenceCmd_begun (op : bitsOf v 59 58 = 1)
    (good : (s.fenceJudge (bitsOf v 57 52) (bitsOf v 41 21 * 2 ^ 21)).1 = 0) :
    exec (.rvFenceCmd v) s = .next (if (s.fenceBegun v).rvState (bitsOf v 57 52) = 0
      then ((s.fenceBegun v).setRvState (bitsOf v 57 52) 2).setFld (rRvPkgStat (bitsOf v 57 52)) 63 40 0
      else s.fenceBegun v) := by
  show execRvFenceCmd v s = _
  unfold execRvFenceCmd
  rw [need_of (beq_iff_eq.mpr op)]
  exact if_neg (not_not_intro good)

theorem State.fenceJudge_lt (s : State) (p d : Nat) : (s.fenceJudge p d).1 < 8 := by
  unfold State.fenceJudge
  dsimp only
  split
  · exact Nat.lt_of_sub_eq_succ rfl
  · split
    · exact Nat.lt_of_sub_eq_succ rfl
    · split
      · exact Nat.lt_of_sub_eq_succ rfl
      · split
        · exact Nat.lt_of_sub_eq_succ rfl
        · exact Nat.lt_of_sub_eq_succ rfl

theorem State.fld_fenceTold (s : State) (v : Word) :
    (s.fenceTold v).fld rRvFence 62 60 = (s.fenceJudge (bitsOf v 57 52) (bitsOf v 41 21 * 2 ^ 21)).1
      ∧ (s.fenceTold v).fld rRvFence 57 52 = bitsOf v 57 52 := by
  have judged := s.fenceJudge_lt (bitsOf v 57 52) (bitsOf v 41 21 * 2 ^ 21)
  have pkg := bitsOf_lt v 57 52
  unfold State.fenceTold
  rw [State.fld_setReg, State.fld_setReg, bitsOf_setBits_of_apart (by decide) (by decide) (by decide) (.inr (by decide)),
    bitsOf_setBits_of_apart (by decide) (by decide) (by decide) (.inr (by decide)),
    bitsOf_setBits _ _ _ _ (by decide) (by decide),
    bitsOf_setBits_of_apart (by decide) (by decide) (by decide) (.inr (by decide)),
    bitsOf_setBits _ _ _ _ (by decide) (by decide)]
  omega

/-- What the begun evacuation leaves, before the package's state. -/
theorem State.fenceBegun_leaves (s : State) (v : Word) : (s.fenceBegun v).fld rRvFence 62 60 = (s.fenceTold v).fld rRvFence 62 60
    ∧ (s.fenceBegun v).fld rRvFence 57 52 = (s.fenceTold v).fld rRvFence 57 52 ∧ sameMem s (s.fenceBegun v)
    ∧ (s.fenceBegun v).evacs = s.evacs ++ [s.fenceEvac v]
    ∧ ∀ k, (s.fenceBegun v).rvState k = s.rvState k := by
  have told : OnlyRegs s (s.fenceTold v) := s.setReg_onlyRegs ..
  have state (k : Nat) : (s.fenceTold v).rvState k = s.rvState k :=
    State.fld_setReg_ne _ _ _ _ (by simp only [rRvPkgStat, rRvFence]; omega)
  have noted : OnlyNotes ((s.fenceTold v).addEvac (s.fenceEvac v)) (s.fenceBegun v) := State.reportSelf_onlyNotes ..
  have same {o : Nat} (block : 0x80000 ≤ o) : (s.fenceBegun v).reg o = (s.fenceTold v).reg o :=
    (State.reg_reportSelf_reservoir (by decide) (by decide) block).trans (State.reg_addEvac ..)
  refine ⟨congrArg (bitsOf · 62 60) (same (by decide)), congrArg (bitsOf · 57 52) (same (by decide)), ?_, ?_, fun k => ?_⟩
  · exact (told.sameMem.trans (State.sameMem_addEvac ..)).trans noted.sameMem
  · rw [noted.evacs, State.evacs_addEvac, told.evacs]
  · exact (congrArg (bitsOf · 34 32) (same (le_rRvPkgStat k))).trans (state k)

/-- A command of RV_FENCE (R496). -/
theorem rvFenceCmd_answers (op : bitsOf v 59 58 = 1) :
    let pkg := bitsOf v 57 52
    let r := s.fenceJudge pkg (bitsOf v 41 21 * 2 ^ 21)
    ∃ t, exec (.rvFenceCmd v) s = .next t ∧ t.fld rRvFence 62 60 = r.1 ∧ t.fld rRvFence 57 52 = pkg ∧ sameMem s t
      ∧ (r.1 ≠ 0 → t.evacs = s.evacs ∧ { t with regs := s.regs } = s)
      ∧ (r.1 = 0 → t.evacs = s.evacs ++ [{ pkg := pkg, donor := bitsOf v 41 21 * 2 ^ 21, active := r.2 }]
          ∧ (s.rvState pkg = 0 → t.rvState pkg = 2)) := by
  intro pkg r
  obtain ⟨result, package⟩ := s.fld_fenceTold v
  by_cases good : r.1 = 0
  · obtain ⟨result', package', mem, evacs, state⟩ := s.fenceBegun_leaves v
    have run := exec_rvFenceCmd_begun op good
    rw [state] at run
    generalize s.fenceBegun v = u at *
    by_cases active : s.rvState pkg = 0
    · have moved := (u.setRvState_onlyRegs pkg 2).trans (State.setFld_onlyRegs (rRvPkgStat pkg) 63 40 0)
      have apart : rRvFence ≠ rRvPkgStat pkg := by
        unfold rRvFence rRvPkgStat
        omega
      rw [if_pos active] at run
      refine ⟨_, run, ?_, ?_, mem.trans moved.sameMem, fun h => absurd good h, fun _ => ⟨?_, fun _ => ?_⟩⟩
      · rw [State.fld_setFld_ne _ _ _ _ _ _ apart, State.setRvState, State.fld_setFld_ne _ _ _ _ _ _ apart, result', result]
      · rw [State.fld_setFld_ne _ _ _ _ _ _ apart, State.setRvState, State.fld_setFld_ne _ _ _ _ _ _ apart, package',
          package]
      · exact moved.evacs.trans evacs
      · exact (State.fld_setFld_of_apart _ (by decide) (by decide) (by decide) (.inl (by decide))).trans
          (u.rvState_setRvState pkg (by decide))
    · rw [if_neg active] at run
      exact ⟨u, run, result'.trans result, package'.trans package, mem, fun h => absurd good h,
        fun _ => ⟨evacs, fun h => absurd h active⟩⟩
  · have told : OnlyRegs s (s.fenceTold v) := s.setReg_onlyRegs ..
    exact ⟨_, exec_rvFenceCmd_refused op good, result, package, told.sameMem, fun _ => ⟨told.evacs, told.frame⟩,
      fun h => absurd h good⟩

end

/-! ### Evacuations (R499, R500) -/

section
variable {s : State} {k : Fin 36}

theorem State.sectorRead_good {n src : Nat} (sound : s.sectorBad n = false) : (s.sectorRead n src .good).1 = s := by
  rw [State.sectorRead_eq, sound]
  rfl

/-- A granule whose sectors are all sound reads without a count. -/
theorem State.copyReads_good {l : List Nat} (sound : ∀ a ∈ l, ∀ i < 64, s.sectorBad (a / 64 + i) = false) :
    s.copyReads l [] = s := by
  have sectors (a : Nat) (mem : a ∈ l) : (List.range 64).foldl (fun u i =>
      (u.sectorRead (a / 64 + i) 3 (((([] : List (Fin 64 × SectorEv)).find? (fun e => e.1.val == i)).map
        Prod.snd).getD .good)).1) s = s :=
    List.foldlRecOn (motive := (· = s)) _ _ rfl fun t same i lt => by
      rw [same]
      exact State.sectorRead_good (sound a mem i (List.mem_range.mp lt))
  exact List.foldlRecOn (motive := (· = s)) _ _ rfl fun t same a mem => by
    rw [same]
    exact sectors a mem

/-- A granule noted as copied. -/
def State.granuleNoted (s : State) (k G : Nat) : State :=
  { s with evacs := s.evacs.map (fun (x : Evac) => if x.pkg = k then x.note G else x) }

theorem State.fld_granuleNoted (s : State) (k G o hi lo : Nat) : (s.granuleNoted k G).fld o hi lo = s.fld o hi lo := rfl

/-- A granule noted as copied, and counted. -/
def State.granuleCopied (s : State) (k G : Nat) : State :=
  (s.granuleNoted k G).setFld (rRvPkgStat k) 63 40 ((s.granuleNoted k G).fld (rRvPkgStat k) 63 40 + 1)

theorem exec_evacuationGranuleCopy {e : Evac} {G : Nat} (found : s.evacs.find? (fun e => e.pkg == k.val) = some e)
    (evacuates : s.rvState k = 2) (awake : s.rvSelfRefresh = false) (inside : G < pkgGranules) (fresh : e.copied G = false)
    (sound : ∀ a ∈ s.rvHeld k G, ∀ i < 64, s.sectorBad (a / 64 + i) = false) :
    exec (.evacuationGranuleCopy k G []) s = .next (s.granuleCopied k G) := by
  show execEvacuationGranuleCopy k G [] s = _
  unfold execEvacuationGranuleCopy
  rw [found, needSome_some, need_of (by simp [evacuates, awake, inside, fresh]), State.copyReads_good sound]
  rfl

theorem State.granuleCopied_leaves (s : State) (k G : Nat) :
    (s.granuleCopied k G).evacs = s.evacs.map (fun x => if x.pkg = k then x.note G else x)
      ∧ (s.granuleCopied k G).fld (rRvPkgStat k) 63 40 = (s.fld (rRvPkgStat k) 63 40 + 1) % 2 ^ 24
      ∧ { s.granuleCopied k G with evacs := s.evacs, regs := s.regs } = s := by
  have count : (s.granuleCopied k G).fld (rRvPkgStat k) 63 40 = (s.fld (rRvPkgStat k) 63 40 + 1) % 2 ^ 24 :=
    State.fld_setFld _ _ _ _ _ (by decide) (by decide)
  obtain ⟨regs, e⟩ : OnlyRegs (s.granuleNoted k G) (s.granuleCopied k G) := State.setFld_onlyRegs ..
  rw [e] at count ⊢
  exact ⟨rfl, count, rfl⟩

theorem exec_evacuationComplete_copied {e : Evac} (found : s.evacs.find? (fun e => e.pkg == k.val) = some e)
    (evacuates : s.rvState k = 2) (all_ : pkgGranules ≤ e.next) :
    exec (.evacuationComplete k) s = .next (s.setRvState k 3) := by
  show execEvacuationComplete k s = _
  unfold execEvacuationComplete
  rw [found, needSome_some]
  dsimp only
  rw [if_neg (by omega), need_of (by simp [evacuates, all_])]

/-- The evacuation of package k at its end. -/
def State.evacEnded (s : State) (k : Nat) : State :=
  { s with evacs := s.evacs.map (fun (x : Evac) => if x.pkg = k then { x with next := pkgGranules, early := [] } else x) }

theorem exec_evacuationComplete_failed {e : Evac} (found : s.evacs.find? (fun e => e.pkg == k.val) = some e)
    (failed : s.rvState k = 4) :
    exec (.evacuationComplete k) s = .next (((s.zeroPkg e).evacEnded k).setRvState k 3) := by
  show execEvacuationComplete k s = _
  unfold execEvacuationComplete
  rw [found, needSome_some]
  exact if_pos failed

theorem State.reservoir_recountPoison (s : State) (tier : Tier) : (s.recountPoison tier).reservoir = s.reservoir :=
  (congrArg State.reservoir (s.recountPoison_frame tier) :)

theorem State.reservoir_evacEnded (s : State) (k : Nat) : (s.evacEnded k).reservoir = s.reservoir := rfl

/-- Bytes on a package that failed read as zeros, and no other byte changes. -/
theorem State.memGet_zeroPkg (s : State) (e : Evac) (a : Nat) :
    memGet (s.zeroPkg e).reservoir a = if (s.rvWhere a).1 = e.pkg then 0#8 else memGet s.reservoir a := by
  have only : (s.zeroPkg e).reservoir = tabDrop (fun a => !((s.rvWhere a).1 != e.pkg)) s.reservoir := by
    unfold State.zeroPkg tabDrop
    rw [State.reservoir_recountPoison]
    simp only [Bool.not_not]
  rw [memGet, only, tabGet_drop]
  simp [memGet]

/-- A failed package fenced, its uncopied granules zeros. -/
theorem evacuationComplete_failed {e : Evac} (found : s.evacs.find? (fun e => e.pkg == k.val) = some e)
    (failed : s.rvState k = 4) :
    ∃ t, exec (.evacuationComplete k) s = .next t ∧ t.rvState k = 3
      ∧ (∀ a, memGet t.reservoir a = 0#8 ∨ memGet t.reservoir a = memGet s.reservoir a)
      ∧ (∀ a, (s.rvWhere a).1 = k.val → memGet t.reservoir a = 0#8)
      ∧ (∀ a, (s.rvWhere a).1 ≠ k.val → memGet t.reservoir a = memGet s.reservoir a) := by
  have own : e.pkg = k.val := by simpa using List.find?_some found
  have bytes (a : Nat) : memGet (((s.zeroPkg e).evacEnded k).setRvState k 3).reservoir a
      = if (s.rvWhere a).1 = k.val then 0#8 else memGet s.reservoir a := by
    obtain ⟨_, only⟩ := ((s.zeroPkg e).evacEnded k).setRvState_onlyRegs k 3
    rw [only, ← own, ← s.memGet_zeroPkg e a, ← (s.zeroPkg e).reservoir_evacEnded e.pkg]
  refine ⟨_, exec_evacuationComplete_failed found failed, State.rvState_setRvState _ _ (by decide), fun a => ?_,
    fun a there => ?_, fun a other => ?_⟩
  · rw [bytes]
    split
    · exact .inl rfl
    · exact .inr rfl
  · rw [bytes, if_pos there]
  · rw [bytes, if_neg other]

theorem reservoirPackageFailure_fails (works : s.rvState k ≤ 2) :
    ∃ t, exec (.reservoirPackageFailure k) s = .next t ∧ t.rvState k = 4 ∧ sameMem s t ∧ t.evacs = s.evacs := by
  have notes : OnlyNotes s ((s.setRvState k 4).reportSelf 13 0x7 2 k 0) :=
    (s.setRvState_onlyRegs k 4).onlyNotes.trans (State.reportSelf_onlyNotes ..)
  refine ⟨_, need_of (decide_eq_true works) 500 _, ?_, notes.sameMem, notes.evacs⟩
  rw [State.rvState_reportSelf (by decide) (by decide), State.rvState_setRvState _ _ (by decide)]

end

/-! ### The placement and self-refresh (R14, R483, R502) -/

section
variable {s : State}

/-- The placement committed. -/
def State.placed (s : State) (v : Word) : State := (s.setFld rRvPlace 5 0 (bitsOf v 5 0)).setFld rRvPlace 31 31 1

theorem exec_rvPlaceCommit_first {v : Word} {f : Fin 2} (commit : bitOf v 31 = true) (open_ : s.fld rRvPlace 31 31 = 0) :
    exec (.rvPlaceCommit v f) s = .next (s.placed v) :=
  (need_of commit 483 _).trans (congrArg Host.Outcome.next (if_neg (by rw [open_]; decide)))

theorem exec_rvPlaceCommit_again {v : Word} {f : Fin 2} (commit : bitOf v 31 = true) (locked : s.fld rRvPlace 31 31 = 1) :
    exec (.rvPlaceCommit v f) s = .next (s.lockedWrite f rRvPlace) :=
  (need_of commit 483 _).trans (congrArg Host.Outcome.next (if_pos locked))

theorem State.placed_leaves (s : State) (v : Word) : (s.placed v).fld rRvPlace 31 31 = 1
    ∧ (s.placed v).fld rRvPlace 5 0 = bitsOf v 5 0 ∧ { s.placed v with regs := s.regs } = s
    ∧ ∀ o, o ≠ rRvPlace → (s.placed v).reg o = s.reg o := by
  have only : OnlyRegs s (s.placed v) := (s.setFld_onlyRegs ..).trans (State.setFld_onlyRegs ..)
  have gib := bitsOf_lt v 5 0
  refine ⟨State.fld_setFld _ _ _ _ _ (by decide) (by decide), ?_, only.frame, fun o other => ?_⟩
  · rw [State.placed, State.fld_setFld_of_apart _ (by decide) (by decide) (by decide) (.inl (by decide)),
      State.fld_setFld _ _ _ _ _ (by decide) (by decide)]
    exact Nat.mod_eq_of_lt gib
  · rw [State.placed, State.reg_setFld_ne _ _ _ _ other, State.reg_setFld_ne _ _ _ _ other]

/-- The packages that refreshed themselves are ACTIVE. -/
def State.refreshEnded (s : State) (n : Nat) : State :=
  (List.range n).foldl (fun (t : State) k => if t.rvState k = 1 then t.setRvState k 0 else t) s

theorem State.refreshEnded_leaves (s : State) (n : Nat) : OnlyRegs s (s.refreshEnded n)
    ∧ ∀ i, (s.refreshEnded n).rvState i = if i < n ∧ s.rvState i = 1 then 0 else s.rvState i := by
  induction n with
  | zero => exact ⟨⟨_, rfl⟩, fun i => by simp [State.refreshEnded]⟩
  | succ n ih =>
    obtain ⟨only, states⟩ := ih
    have step : s.refreshEnded (n + 1)
        = if (s.refreshEnded n).rvState n = 1 then (s.refreshEnded n).setRvState n 0 else s.refreshEnded n := by
      rw [State.refreshEnded, List.range_succ, List.foldl_append]
      rfl
    have own : (s.refreshEnded n).rvState n = s.rvState n := by simp [states n]
    rw [step, own]
    split
    next asleep =>
      refine ⟨only.trans (State.setRvState_onlyRegs ..), fun i => ?_⟩
      by_cases same : i = n
      · rw [same, State.rvState_setRvState _ _ (by decide), if_pos ⟨Nat.lt_succ_self n, asleep⟩]
      · rw [State.rvState_setRvState_ne _ same, states]
        exact if_congr (by omega) rfl rfl
    next awake =>
      refine ⟨only, fun i => ?_⟩
      rw [states]
      by_cases same : i = n
      · simp [same, awake]
      · exact if_congr (by omega) rfl rfl

theorem exec_reservoirSelfRefreshExit (asleep : s.rvSelfRefresh = true) (clock : s.fld (rPmRefStat 2) 63 61 = 0)
    (device : s.devicePm = 0) (wells : ∀ w < 12, (s.rail (12 + w)).phase = 0 ∧ s.pw.staging.contains w = false) :
    exec .reservoirSelfRefreshExit s = .next { s.refreshEnded 36 with rvSelfRefresh := false } := by
  refine need_of ?_ 502 _
  have on : (List.range 12).all (fun w => (s.rail (12 + w)).phase == 0 && !s.pw.staging.contains w) = true :=
    List.all_eq_true.mpr fun w mem => by
      obtain ⟨phase, staged⟩ := wells w (List.mem_range.mp mem)
      rw [phase, staged]
      rfl
  rw [asleep, clock, device, on]
  rfl

end

/-- Settles O42, command by command. -/
theorem reservoirPackagesAreFenced : Obligations.ReservoirPackagesAreFenced := by
  refine ⟨fun s k => ⟨fun v op => rvFenceCmd_answers op, fun e G found evacuates awake inside fresh sound =>
      ⟨_, exec_evacuationGranuleCopy found evacuates awake inside fresh sound, s.granuleCopied_leaves k G⟩,
      fun e found => ⟨fun evacuates all_ => ⟨_, exec_evacuationComplete_copied found evacuates all_,
        s.rvState_setRvState k (by decide), (s.setRvState_onlyRegs k 3).frame⟩, evacuationComplete_failed found⟩,
      reservoirPackageFailure_fails⟩,
    fun s v f => ⟨fun commit open_ => ⟨_, exec_rvPlaceCommit_first commit open_, s.placed_leaves v⟩,
      fun commit locked => ⟨_, exec_rvPlaceCommit_again commit locked, ?_, State.sameMem_reportSelf ..⟩,
      fun asleep clock device wells => ⟨_, exec_reservoirSelfRefreshExit asleep clock device wells, rfl, ?_, ?_⟩⟩⟩
  · exact State.reg_reportSelf_reservoir (by decide) (by decide) (by decide)
  · intro i lt
    refine Eq.trans ?_ (((s.refreshEnded_leaves 36).2 i).trans (if_congr (and_iff_right lt) rfl rfl))
    rfl
  · obtain ⟨regs, e⟩ := (s.refreshEnded_leaves 36).1
    rw [e]

end Sys2Proof.Machine
end

section
/-!
SUPPORT. The queues of the aquifer's packages, what a page's read counts, and lost packages (R512 to R517, R526).
-/
namespace Sys2Proof.Machine

section
variable {s t : State} {k q i : Nat}

/-! ### Queues of a package (R512, R514) -/

theorem State.aqQ_setAqQ (s : State) (k q : Nat) (l : List AqEntry) : (s.setAqQ k q l).aqQ k q = l :=
  tabGet_put_self ..

theorem State.aqQ_setAqQ_ne {r : Nat} (l : List AqEntry) (own : q < 13) (range : r < 13) (other : ¬(i = k ∧ r = q)) :
    (s.setAqQ k q l).aqQ i r = s.aqQ i r :=
  tabGet_put_ne _ _ _ (by omega)

theorem State.setAqQ_frame (s : State) (k q : Nat) (l : List AqEntry) : { s.setAqQ k q l with aqQs := s.aqQs } = s := rfl

theorem OnlyReads.aqQ (h : OnlyReads s t) (k q : Nat) : t.aqQ k q = s.aqQ k q := by
  obtain ⟨a, b, c, d, e, rfl⟩ := h
  rfl

theorem OnlyRegs.onlyReads (h : OnlyRegs s t) : OnlyReads s t := h.onlyNotes.onlyReads

theorem exec_aquiferReadEntry {q : Fin 13} {a : Nat} {n : Fin 5} {src : Fin 4} (page : a % 16384 = 0) (some_ : 1 ≤ n.val)
    (unit : a % 65536 / 16384 + n.val ≤ 4) (inside : a < aquiferSize) :
    exec (.aquiferReadEntry q a n src) s = .next (s.setAqQ (aqPlace a).1 q
      (s.aqQ (aqPlace a).1 q ++ [{ addr := a, left := n, src := src }])) :=
  need_of (decide_eq_true ⟨page, some_, unit, inside⟩) 512 _

/-! ### Registers of the aquifer -/

/-- Registers of the aquifer's block are none that a report changes. -/
theorem State.reg_reportSelf_aquifer {src cls sev unit detail o : Nat} (known : src < 64) (class_ : cls < 16)
    (block : 0x90000 ≤ o) : (s.reportSelf src cls sev unit detail).reg o = s.reg o :=
  State.reg_reportSelf_reservoir known class_ (Nat.le_trans (by decide) block)

theorem le_rAqPkgStat (k : Nat) : 0x90100 ≤ rAqPkgStat k := Nat.le_add_right ..

theorem State.aqLost_of_reg (same : t.reg (rAqPkgStat k) = s.reg (rAqPkgStat k)) : t.aqLost k = s.aqLost k := by
  rw [State.aqLost, State.fld, same, State.aqLost, State.fld]

theorem State.aqLost_reportSelf {src cls sev unit detail : Nat} (known : src < 64) (class_ : cls < 16) (k : Nat) :
    (s.reportSelf src cls sev unit detail).aqLost k = s.aqLost k :=
  State.aqLost_of_reg (State.reg_reportSelf_aquifer known class_ (Nat.le_trans (by decide) (le_rAqPkgStat k)))

/-! ### What a page's read counts (R516) -/

theorem State.pageLost_leaves (s : State) (src a : Nat) : OnlyReads s (s.pageLost src a)
    ∧ tabGet false (s.pageLost src a).poison (blockKey ⟨.aquifer, a⟩) = true
    ∧ (s.pageLost src a).fld rAqEcc 15 0 = min (s.fld rAqEcc 15 0 + 1) 65535 := by
  unfold State.pageLost
  dsimp only
  generalize word : setBits _ 43 0 a = v
  have poisoned : OnlyReads s (s.setPoison ⟨.aquifer, a⟩) := s.setPoison_onlyReads _
  have counted := (s.setPoison ⟨.aquifer, a⟩).incFld_onlyRegs rAqEcc 15 0 1
  have latched := ((s.setPoison ⟨.aquifer, a⟩).incFld rAqEcc 15 0 1).onlyRegs_latch rAqErr v
  have reported := (((s.setPoison ⟨.aquifer, a⟩).incFld rAqEcc 15 0 1).latch rAqErr v).reportSelf_onlyNotes 14 0x2 0
    (aqPlace a).1 a
  refine ⟨poisoned.trans (counted.onlyReads.trans (latched.onlyReads.trans reported.onlyReads)), ?_, ?_⟩
  · rw [reported.poison, latched.poison, counted.poison, State.poison_setPoison, tabGet_put_self]
  · rw [State.fld, State.reg_reportSelf_aquifer (by decide) (by decide) (by decide), State.reg_latch_ne _ _ (by decide),
      ← State.fld, State.fld_incFld _ (by decide) (by decide)]
    rfl

/-- The retries of a read counted. -/
def State.retried (s : State) (k : Nat) (ev : PageEv) : State :=
  if s.aqLost k then s else s.incFld rAqEcc 63 32 (pageRetries ev)

/-- The rebuild of a page counted, for the device and for its package. -/
def State.rebuildCounted (s : State) (k : Nat) : State := (s.incFld rAqEcc 31 16 1).incFld (rAqPkgStat k) 15 0 1

theorem State.pageCount_of_rebuilt (s : State) (k src a : Nat) :
    s.pageCount k src a .rebuilt = (s.retried k .rebuilt).rebuildCounted k := rfl

theorem State.pageCount_of_failed (s : State) (k src a : Nat) :
    s.pageCount k src a .failed = (s.retried k .failed).pageLost src a := rfl

theorem State.retried_leaves (s : State) (k : Nat) (ev : PageEv) : OnlyRegs s (s.retried k ev)
    ∧ ∀ hi lo, lo ≤ hi → hi < 32 → (s.retried k ev).fld rAqEcc hi lo = s.fld rAqEcc hi lo := by
  unfold State.retried
  split
  · exact ⟨.refl, fun _ _ _ _ => rfl⟩
  · exact ⟨s.incFld_onlyRegs .., fun hi lo order low =>
      s.fld_incFld_of_apart (by decide) order (by omega) (.inl low)⟩

theorem State.pageCount_failed (s : State) (k src a : Nat) : OnlyReads s (s.pageCount k src a .failed)
    ∧ tabGet false (s.pageCount k src a .failed).poison (blockKey ⟨.aquifer, a⟩) = true
    ∧ (s.pageCount k src a .failed).fld rAqEcc 15 0 = min (s.fld rAqEcc 15 0 + 1) 65535 := by
  obtain ⟨only, same⟩ := s.retried_leaves k .failed
  obtain ⟨lost, poisoned, counted⟩ := (s.retried k .failed).pageLost_leaves src a
  rw [State.pageCount_of_failed]
  exact ⟨only.onlyReads.trans lost, poisoned, by rw [counted, same 15 0 (by decide) (by decide)]⟩

theorem State.pageCount_rebuilt (s : State) (k src a : Nat) : OnlyRegs s (s.pageCount k src a .rebuilt)
    ∧ (s.pageCount k src a .rebuilt).fld rAqEcc 31 16 = min (s.fld rAqEcc 31 16 + 1) 65535 := by
  obtain ⟨only, same⟩ := s.retried_leaves k .rebuilt
  have low := le_rAqPkgStat k
  rw [State.pageCount_of_rebuilt]
  refine ⟨only.trans ((State.incFld_onlyRegs ..).trans (State.incFld_onlyRegs ..)), ?_⟩
  rw [State.rebuildCounted, State.fld_incFld_ne _ (by simp only [rAqEcc]; omega), State.fld_incFld _ (by decide) (by decide),
    same 31 16 (by decide) (by decide)]
  rfl

theorem State.pageCount_onlyRegs (s : State) (k src a : Nat) {ev : PageEv} (given : ev ≠ .failed) :
    OnlyRegs s (s.pageCount k src a ev) := by
  cases ev with
  | failed => exact absurd rfl given
  | rebuilt => exact (s.pageCount_rebuilt k src a).1
  | good => exact (s.retried_leaves k .good).1
  | retried level => exact (s.retried_leaves k (.retried level)).1

theorem State.pageCount_onlyReads (s : State) (k src a : Nat) (ev : PageEv) : OnlyReads s (s.pageCount k src a ev) := by
  by_cases failed : ev = .failed
  · rw [failed]
    exact (s.pageCount_failed k src a).1
  · exact (s.pageCount_onlyRegs k src a failed).onlyReads

/-! ### A page read (R514) -/

/-- What the entry of a page that was read leaves in its queue. -/
def afterPage (e : AqEntry) (rest : List AqEntry) : List AqEntry :=
  if e.left ≤ 1 then rest else { e with addr := e.addr + 16384, left := e.left - 1 } :: rest

/-- The queue of a page that was read, and the queue whose turn it is. -/
def State.pageTaken (s : State) (k q : Nat) (l : List AqEntry) (turn : Nat) : State :=
  { s.setAqQ k q l with aqTurn := tabPut 0 s.aqTurn k turn }

theorem State.aqQ_pageTaken (s : State) (k q : Nat) (l : List AqEntry) (turn : Nat) :
    (s.pageTaken k q l turn).aqQ k q = l := s.aqQ_setAqQ k q l

theorem State.pageTaken_leaves (s : State) (k q : Nat) (l : List AqEntry) (turn : Nat) :
    sameMem s (s.pageTaken k q l turn) ∧ (s.pageTaken k q l turn).poison = s.poison
      ∧ (s.pageTaken k q l turn).regs = s.regs := ⟨⟨rfl, rfl, rfl, rfl, rfl, rfl⟩, rfl, rfl⟩

theorem exec_aquiferPageRead {k : Fin 12} {ev : PageEv} {e : AqEntry} {rest : List AqEntry} (turn : s.aqNext k = some q)
    (queue : s.aqQ k q = e :: rest) (can : s.pageCan k e.addr ev = true) :
    ∃ next, exec (.aquiferPageRead k ev) s
      = .next ((s.pageCount k e.src e.addr ev).pageTaken k q (afterPage e rest) next) := by
  show ∃ next, execAquiferPageRead k ev s = _
  unfold execAquiferPageRead
  rw [turn, needSome_some, queue]
  dsimp only
  rw [need_of can, afterPage]
  split
  · exact ⟨_, rfl⟩
  · exact ⟨_, rfl⟩

theorem aquiferPageRead_serves {k : Fin 12} {ev : PageEv} {e : AqEntry} {rest : List AqEntry} (turn : s.aqNext k = some q)
    (queue : s.aqQ k q = e :: rest) (can : s.pageCan k e.addr ev = true) :
    ∃ t, exec (.aquiferPageRead k ev) s = .next t ∧ sameMem s t ∧ t.aqQ k q = afterPage e rest
      ∧ (ev = .rebuilt → t.fld rAqEcc 31 16 = min (s.fld rAqEcc 31 16 + 1) 65535)
      ∧ (ev = .failed → tabGet false t.poison (blockKey ⟨.aquifer, e.addr⟩) = true
          ∧ t.fld rAqEcc 15 0 = min (s.fld rAqEcc 15 0 + 1) 65535)
      ∧ (ev ≠ .failed → t.poison = s.poison) := by
  obtain ⟨next, run⟩ := exec_aquiferPageRead turn queue can
  obtain ⟨mem, poison, regs⟩ := (s.pageCount k e.src e.addr ev).pageTaken_leaves k q (afterPage e rest) next
  have fields (o hi lo : Nat) := congrArg (bitsOf · hi lo) (State.reg_of_regs regs o)
  refine ⟨_, run, (s.pageCount_onlyReads ..).sameMem.trans mem, State.aqQ_pageTaken .., fun rebuilt => ?_,
    fun failed => ?_, fun given => poison.trans (s.pageCount_onlyRegs k _ _ given).poison⟩
  · rw [State.fld, fields, ← State.fld, rebuilt, (s.pageCount_rebuilt k e.src e.addr).2]
  · obtain ⟨_, poisoned, counted⟩ := s.pageCount_failed k e.src e.addr
    rw [poison, State.fld, fields, ← State.fld, failed]
    exact ⟨poisoned, counted⟩

/-! ### Lost packages (R517, R526) -/

/-- A package LOST and reported. -/
def State.lossTold (s : State) (k : Nat) : State := (s.setFld (rAqPkgStat k) 31 29 1).reportSelf 14 0x7 2 k 0

theorem State.loseAq_eq (s : State) (k : Nat) : s.loseAq k = if (s.lossTold k).halfActive (k / 6) then s.lossTold k
    else ((s.lossTold k).alert 7).reportSelf 14 0xF 0 k 0 := rfl

theorem State.lossTold_leaves (s : State) (k : Nat) : OnlyNotes s (s.lossTold k)
    ∧ (s.lossTold k).reg rAqFence = s.reg rAqFence
    ∧ (s.lossTold k).aqLost k = true ∧ ∀ i, i ≠ k → (s.lossTold k).aqLost i = s.aqLost i := by
  have low := le_rAqPkgStat k
  refine ⟨(s.setFld_onlyRegs ..).onlyNotes.trans (State.reportSelf_onlyNotes ..), ?_, ?_, fun i other => ?_⟩
  · rw [State.lossTold, State.reg_reportSelf_aquifer (by decide) (by decide) (by decide),
      State.reg_setFld_ne _ _ _ _ (by simp only [rAqFence]; omega)]
  · rw [State.lossTold, State.aqLost_reportSelf (by decide) (by decide), State.aqLost,
      State.fld_setFld _ _ _ _ _ (by decide) (by decide)]
    rfl
  · rw [State.lossTold, State.aqLost_reportSelf (by decide) (by decide), State.aqLost,
      State.fld_setFld_ne _ _ _ _ _ _ (by simp only [rAqPkgStat]; omega), State.aqLost]

/-- A half without an ACTIVE package alerted and reported. -/
theorem State.halfTold_leaves (s : State) (k : Nat) : OnlyNotes s ((s.alert 7).reportSelf 14 0xF 0 k 0)
    ∧ ∀ o, 0x90000 ≤ o → ((s.alert 7).reportSelf 14 0xF 0 k 0).reg o = s.reg o := by
  refine ⟨(s.setFld_onlyRegs ..).onlyNotes.trans (State.reportSelf_onlyNotes ..), fun o block => ?_⟩
  rw [State.reg_reportSelf_aquifer (by decide) (by decide) block, State.alert,
    State.reg_setFld_ne _ _ _ _ (by simp only [rFcAlert]; omega)]

theorem State.loseAq_leaves (s : State) (k : Nat) : OnlyNotes s (s.loseAq k)
    ∧ (s.loseAq k).reg rAqFence = s.reg rAqFence
    ∧ (s.loseAq k).aqLost k = true ∧ ∀ i, i ≠ k → (s.loseAq k).aqLost i = s.aqLost i := by
  obtain ⟨notes, fence, lost, others⟩ := s.lossTold_leaves k
  rw [State.loseAq_eq]
  split
  · exact ⟨notes, fence, lost, others⟩
  · obtain ⟨more, same⟩ := (s.lossTold k).halfTold_leaves k
    have stays (i : Nat) := State.aqLost_of_reg (same _ (Nat.le_trans (by decide) (le_rAqPkgStat i)))
    exact ⟨notes.trans more, (same _ (by decide)).trans fence, (stays k).trans lost,
      fun i other => (stays i).trans (others i other)⟩

theorem aquiferPackageLost_loses {k : Fin 12} (works : s.aqLost k = false) :
    exec (.aquiferPackageLost k) s = .next (s.loseAq k) := need_of (by rw [works]; rfl) 517 _

/-- AQ_FENCE with the package that it names. -/
def State.fenceNamed (s : State) (v : Word) : State := s.setFld rAqFence 3 0 (bitsOf v 3 0)

/-- A package fenced that was not LOST. -/
def State.fenced (s : State) (k : Nat) : State := if s.aqLost k then s else s.loseAq k

theorem State.fenced_leaves (s : State) (k : Nat) : OnlyNotes s (s.fenced k) ∧ (s.fenced k).reg rAqFence = s.reg rAqFence
    ∧ (s.fenced k).aqLost k = true := by
  unfold State.fenced
  split
  next already => exact ⟨OnlyRegs.refl.onlyNotes, rfl, already⟩
  next =>
    obtain ⟨notes, fence, lost, _⟩ := s.loseAq_leaves k
    exact ⟨notes, fence, lost⟩

theorem State.aqLost_setFence (s : State) (hi lo v i : Nat) : (s.setFld rAqFence hi lo v).aqLost i = s.aqLost i :=
  State.aqLost_of_reg (State.reg_setFld_ne _ _ _ _ (by have := le_rAqPkgStat i; simp only [rAqFence]; omega))

theorem State.otherLost_fenceNamed (s : State) (v : Word) (k : Nat) : (s.fenceNamed v).otherLost k = s.otherLost k := by
  simp only [State.otherLost, State.fenceNamed, State.aqLost_setFence]

theorem exec_aqFenceCmd {v : Word} (op : bitsOf v 5 4 = 1) (package : bitsOf v 3 0 < 12) :
    exec (.aqFenceCmd v) s = .next (if s.otherLost (bitsOf v 3 0) then (s.fenceNamed v).setFld rAqFence 30 29 1
      else ((s.fenceNamed v).fenced (bitsOf v 3 0)).setFld rAqFence 30 29 0) := by
  rw [← s.otherLost_fenceNamed v]
  exact (need_of (beq_iff_eq.mpr op) 526 _).trans
    (congrArg Host.Outcome.next (if_neg (Nat.not_le.mpr package)))

/-- The answer of AQ_FENCE beside the package that it names. -/
theorem State.fenceAnswered_leaves (v : Word) (answer : Nat) (notes : OnlyNotes (s.fenceNamed v) t)
    (fence : t.reg rAqFence = (s.fenceNamed v).reg rAqFence) (small : answer < 4) :
    (t.setFld rAqFence 30 29 answer).fld rAqFence 3 0 = bitsOf v 3 0
      ∧ sameMem s (t.setFld rAqFence 30 29 answer)
      ∧ (t.setFld rAqFence 30 29 answer).fld rAqFence 30 29 = answer := by
  have named := bitsOf_lt v 3 0
  refine ⟨?_, ((s.setFld_onlyRegs ..).onlyNotes.trans (notes.trans (t.setFld_onlyRegs ..).onlyNotes)).sameMem, ?_⟩
  · rw [State.fld_setFld_of_apart _ (by decide) (by decide) (by decide) (.inl (by decide)), State.fld, fence, ← State.fld,
      State.fenceNamed, State.fld_setFld _ _ _ _ _ (by decide) (by decide)]
    exact Nat.mod_eq_of_lt named
  · rw [State.fld_setFld _ _ _ _ _ (by decide) (by decide)]
    exact Nat.mod_eq_of_lt small

theorem aqFenceCmd_answers {v : Word} (op : bitsOf v 5 4 = 1) (package : bitsOf v 3 0 < 12) :
    ∃ t, exec (.aqFenceCmd v) s = .next t ∧ t.fld rAqFence 3 0 = bitsOf v 3 0 ∧ sameMem s t
      ∧ (s.otherLost (bitsOf v 3 0) = false → t.aqLost (bitsOf v 3 0) = true ∧ t.fld rAqFence 30 29 = 0)
      ∧ (s.otherLost (bitsOf v 3 0) = true → t.fld rAqFence 30 29 = 1 ∧ ∀ i, i < 12 → t.aqLost i = s.aqLost i) := by
  rw [exec_aqFenceCmd op package]
  cases other : s.otherLost (bitsOf v 3 0) with
  | true =>
    rw [if_pos rfl]
    obtain ⟨named, mem, answer⟩ := State.fenceAnswered_leaves (s := s) v 1 OnlyRegs.refl.onlyNotes rfl (by decide)
    refine ⟨_, rfl, named, mem, nofun, fun _ => ⟨answer, fun i _ => ?_⟩⟩
    rw [State.aqLost_setFence, State.fenceNamed, State.aqLost_setFence]
  | false =>
    rw [if_neg nofun]
    obtain ⟨notes, fence, lost⟩ := (s.fenceNamed v).fenced_leaves (bitsOf v 3 0)
    obtain ⟨named, mem, answer⟩ := State.fenceAnswered_leaves v 0 notes fence (by decide)
    exact ⟨_, rfl, named, mem, fun _ => ⟨(State.aqLost_setFence ..).trans lost, answer⟩, nofun⟩

end

/-- Settles O43, command by command. -/
theorem aquiferReadsAreServed : Obligations.AquiferReadsAreServed := by
  refine ⟨fun s => ⟨fun q a n src page some_ unit inside => ?_, fun k ev q e rest turn queue can => ?_⟩,
    fun s => ⟨fun k works => ?_, fun v op package => aqFenceCmd_answers op package⟩⟩
  · exact ⟨_, exec_aquiferReadEntry page some_ unit inside, s.aqQ_setAqQ .., fun i r range other =>
      State.aqQ_setAqQ_ne _ q.isLt range other, s.setAqQ_frame ..⟩
  · exact aquiferPageRead_serves turn queue can
  · obtain ⟨notes, _, lost, others⟩ := s.loseAq_leaves k
    exact ⟨_, aquiferPackageLost_loses works, lost, notes.sameMem, fun i _ other => others i other⟩

end Sys2Proof.Machine
end

section
/-!
SUPPORT. Input records, noise fills with the wellhead pumps that they take, and image rows (R448, R521, R555 to R563).
-/
namespace Sys2Proof.Machine

section
variable {s t u : State} {j : Nat} {x : Job}

/-! ### Writes through a directory leave the jobs -/

theorem Written.jobs (h : Written s t) : t.jobs = s.jobs := (congrArg State.jobs h :)

theorem State.writeDir_jobs (ctx va : Nat) (bs : List Byte) : ExOk (fun t => t.jobs = s.jobs) (s.writeDir ctx va bs) :=
  State.writeVa_written.bind fun _ written => ExOk.pure
    (((State.wroteDir_accessed _ _).trans (State.reach_accessed _ _ _ _ _ _)).jobs.trans written.jobs)

theorem State.writeRuns_jobs (ctx : Nat) (rs : List (Nat × List Byte)) :
    ExOk (fun t => t.jobs = s.jobs) (s.writeRuns ctx rs) :=
  ExOk.foldlM (fun _ r same v wrote => (State.writeDir_jobs ctx r.1 r.2 v wrote).trans same) rfl

theorem State.fillNoise_jobs (ctx : Nat) (seed : Word) (p : Nat) (r : NoiseRec) :
    ExOk (fun t => t.jobs = s.jobs) (s.fillNoise ctx seed p r) :=
  ExOk.bindAny fun _ => ExOk.bindAny fun _ => State.writeRuns_jobs ctx _

/-! ### Input records (R555) -/

theorem exec_inputRecordFill {n : Nat} {rest : List Nat} {r : InRec} (job : s.job j = some x) (running : x.phase = .running)
    (due : x.inputsDue = n :: rest) (record : s.readIn (viaQ 12 (s.ctxOf j)) x.arg n = .ok r)
    (filled : s.fillInput (viaQ 12 (s.ctxOf j)) r = .ok u) :
    let v := (u.modJob j (fun y => { y with inputsDue := rest })).incFld rInStat 31 16 1
    exec (.inputRecordFill j) s = .next (if rest = [] then v.inputsDone j x else v) := by
  show execInputRecordFill j s = _
  unfold execInputRecordFill
  rw [job, needSome_some, need_of (decide_eq_true running), due]
  dsimp only
  rw [record]
  dsimp only
  rw [filled]
  exact congrArg Host.Outcome.next (if_congr List.isEmpty_iff rfl rfl)

/-! ### Noise fills (R560, R561) -/

/-- A fill of the job taken up. -/
def Job.fillBegun (y : Job) (f : Nat) (rest : List Nat) : Job := { y with fillsDue := rest, filling := y.filling ++ [f] }

/-- A fill under way on a wellhead pump. -/
def State.fillBegun (u : State) (j f pump : Nat) (rest : List Nat) : State :=
  (u.modJob j (fun y => y.fillBegun f rest)).whTake pump (.noise j f)

theorem exec_noiseFill {f pump : Nat} {rest : List Nat} {seed : Word} {r : NoiseRec} (job : s.job j = some x)
    (running : x.phase = .running) (inputs : x.inputsDue = []) (due : x.fillsDue = f :: rest)
    (free : s.whFree = some pump) (present : s.missing 12 pump = false)
    (word : s.readWord (viaQ 12 (s.ctxOf j)) (x.arg + 0x30) = .ok seed)
    (record : s.readNoise (viaQ 12 (s.ctxOf j)) x.arg (f % 16) = .ok r)
    (filled : s.fillNoise (viaQ 12 (s.ctxOf j)) seed (f / 16) r = .ok u) :
    exec (.noiseFill j) s = .next (u.fillBegun j f pump rest) := by
  show execNoiseFill j s = _
  unfold execNoiseFill
  rw [job, needSome_some, need_of (by simp [running, inputs]), due, free]
  dsimp only
  rw [if_neg (by simp [present]), word]
  dsimp only [bind, Except.bind]
  rw [record]
  dsimp only
  rw [filled]
  rfl

theorem State.whUse_whTake (s : State) (n : Nat) {use : WhUse} (live : s.whLive use = true) :
    (s.whTake n use).whUse n = some use := by
  have taken : tabGet none (s.whTake n use).whPumps n = some use := by simp [State.whTake]
  rw [State.whUse, taken, Option.filter_some, if_pos]
  cases use <;> exact live

theorem State.fillBegun_live {f : Nat} {rest : List Nat} (job : u.job j = some x) (running : x.phase = .running) :
    (u.modJob j (fun y => y.fillBegun f rest)).whLive (.noise j f) = true := by
  rw [State.whLive, State.job_modJob job]
  simp [Job.fillBegun, running]

theorem State.fillBegun_frame (u : State) (j f pump : Nat) (rest : List Nat) :
    { u.fillBegun j f pump rest with jobs := u.jobs, whPumps := u.whPumps } = u := rfl

theorem State.job_fillBegun (u : State) (j f pump : Nat) (rest : List Nat) :
    (u.fillBegun j f pump rest).job j = (u.job j).map (fun y => y.fillBegun f rest) := State.job_modJob_map ..

/-! ### The event of a fill (R561, R563) -/

/-- A fill of the job that is visible. -/
def Job.fillDone (y : Job) (rest : List Nat) : Job := { y with filling := rest, noiseN := y.noiseN + 1 }

/-- A fill counted in IN_STAT, with its pass key. -/
def State.fillCounted (s : State) (p : Nat) : State := (s.incFld rInStat 63 32 1).setFld rInStat 15 0 p

theorem State.fillCounted_leaves (s : State) (p : Nat) : OnlyRegs s (s.fillCounted p)
    ∧ (s.fillCounted p).fld rInStat 63 32 = min (s.fld rInStat 63 32 + 1) (2 ^ 32 - 1)
    ∧ (s.fillCounted p).fld rInStat 15 0 = p % 65536 := by
  refine ⟨(s.incFld_onlyRegs ..).trans (State.setFld_onlyRegs ..), ?_, State.fld_setFld _ _ _ _ _ (by decide) (by decide)⟩
  rw [State.fillCounted, State.fld_setFld_of_apart _ (by decide) (by decide) (by decide) (.inr (by decide)),
    State.fld_incFld _ (by decide) (by decide)]

/-- A visible fill with its event raised. -/
def State.fillRaised (s : State) (j w k ev : Nat) (rest : List Nat) : State :=
  (s.modJob j (fun y => y.fillDone rest)).setEvent w k ev (min (s.event w k ev + 1) (2 ^ 32 - 1))

theorem State.fillRaised_leaves {w k ev : Nat} {rest : List Nat} (job : s.job j = some x) :
    (s.fillRaised j w k ev rest).job j = some (x.fillDone rest)
      ∧ (s.fillRaised j w k ev rest).event w k ev = min (s.event w k ev + 1) (2 ^ 32 - 1)
      ∧ (s.fillRaised j w k ev rest).regs = s.regs
      ∧ { s.fillRaised j w k ev rest with jobs := s.jobs, events := s.events } = s :=
  ⟨State.job_modJob job _, State.event_setEvent .., rfl, rfl⟩

theorem exec_noiseFillDone {f pump : Nat} {rest : List Nat} {r : NoiseRec} (job : s.job j = some x)
    (running : x.phase = .running) (filling : x.filling = f :: rest) (held : s.fillPump j f = some pump)
    (record : s.readNoise (viaQ 12 (s.ctxOf j)) x.arg (f % 16) = .ok r) :
    let w := x.wells.getD (r.well % x.wells.length) 0
    s.scratchOk w (eventAt (s.slotOf j w) r.event) = true →
    exec (.noiseFillDone j) s = .next ((s.fillRaised j w (s.slotOf j w) r.event rest).fillCounted (f / 16)) := by
  intro w sound
  have raised := State.raiseEvent_of_ok (s := s.modJob j (fun y => y.fillDone rest))
    ((State.scratchOk_congr (s := s) rfl w _).trans sound) j 1
  show execNoiseFillDone j s = _
  unfold execNoiseFillDone
  rw [job, needSome_some, need_of (decide_eq_true (.inl running)), filling]
  dsimp only
  rw [held]
  dsimp only
  rw [record]
  exact congrArg (fun t : State => Host.Outcome.next (t.fillCounted (f / 16))) raised

theorem noiseFillDone_raises {f pump : Nat} {rest : List Nat} {r : NoiseRec} (job : s.job j = some x)
    (running : x.phase = .running) (filling : x.filling = f :: rest) (held : s.fillPump j f = some pump)
    (record : s.readNoise (viaQ 12 (s.ctxOf j)) x.arg (f % 16) = .ok r) :
    let w := x.wells.getD (r.well % x.wells.length) 0
    s.scratchOk w (eventAt (s.slotOf j w) r.event) = true →
    ∃ t, exec (.noiseFillDone j) s = .next t
      ∧ t.job j = some (x.fillDone rest)
      ∧ t.event w (s.slotOf j w) r.event = min (s.event w (s.slotOf j w) r.event + 1) (2 ^ 32 - 1)
      ∧ t.fld rInStat 63 32 = min (s.fld rInStat 63 32 + 1) (2 ^ 32 - 1) ∧ t.fld rInStat 15 0 = f / 16 % 65536
      ∧ { t with jobs := s.jobs, events := s.events, regs := s.regs } = s := by
  intro w sound
  obtain ⟨done, event, regs, frame⟩ := State.fillRaised_leaves (w := w) (k := s.slotOf j w) (ev := r.event) (rest := rest) job
  refine ⟨_, exec_noiseFillDone job running filling held record sound, ?_⟩
  generalize s.fillRaised j w (s.slotOf j w) r.event rest = v at done event regs frame
  obtain ⟨⟨_, only⟩, count, key⟩ := v.fillCounted_leaves (f / 16)
  have before : v.fld rInStat 63 32 = s.fld rInStat 63 32 := congrArg (bitsOf · 63 32) (State.reg_of_regs regs _)
  refine ⟨by rw [only]; exact done, by rw [only]; exact event, by rw [count, before], key, ?_⟩
  rw [only]
  exact (congrArg (fun z : State => { z with regs := s.regs }) frame :)

/-! ### Image rows (R521) -/

theorem exec_imageRowWrite {r : ImgRec} {bs : List Byte} (job : s.job j = some x) (running : x.phase = .running)
    (record : s.readImg (viaQ 12 (s.ctxOf j)) x.arg = .ok (some r)) (more : x.imgDone < r.len)
    (works : s.rowDead r x.imgDone = false)
    (bytes : s.readVa (viaQ 12 (s.ctxOf j)) (r.from_ x.imgDone) (r.bytes x.imgDone) = .ok bs) :
    exec (.imageRowWrite j) s
      = .next ((s.putRow r x.imgDone bs).modJob j (fun y => { y with imgDone := y.imgDone + 1 })) := by
  show execImageRowWrite j s = _
  unfold execImageRowWrite
  rw [job, needSome_some, need_of (decide_eq_true running)]
  dsimp only
  rw [record]
  dsimp only
  rw [need_of (decide_eq_true more), if_neg (by simp [works]), bytes]

end

/-- Settles O44, command by command. -/
theorem inputsAndImagesAreMoved : Obligations.InputsAndImagesAreMoved := by
  intro s j x job running
  refine ⟨fun n rest r u due record filled => exec_inputRecordFill job running due record filled,
    fun f rest pump seed r u inputs due free present word record filled => ?_,
    fun f rest pump r filling held record => noiseFillDone_raises job running filling held record,
    fun r bs record more works bytes => exec_imageRowWrite job running record more works bytes⟩
  have same : u.job j = s.job j := by rw [State.job, State.fillNoise_jobs _ _ _ _ u filled, State.job]
  exact ⟨_, exec_noiseFill job running inputs due free present word record filled, u.fillBegun_frame ..,
    State.whUse_whTake _ pump (State.fillBegun_live (same.trans job) running), u.job_fillBegun ..⟩

end Sys2Proof.Machine
end

section
/-!
SUPPORT. Journal programs and the wellhead pumps that they take, durable records, and JN_QUERY (R524, R611 to R615, R630).
-/
namespace Sys2Proof.Machine

section
variable {s : State}

/-! ### A journal program (R448, R524) -/

/-- A journal program begun on wellhead pump n. -/
def State.programBegun (s : State) (n : Nat) : State :=
  { s.whTake n .journal with
    jn := { s.jn with program := some (s.jn.joining.take 128), joining := s.jn.joining.drop 128 } }

theorem exec_journalProgram (alive : s.alive = true) (idle : s.jn.program = none) (some_ : s.jn.joining ≠ [])
    (low : s.halfActive 0 = true) (high : s.halfActive 1 = true) :
    exec .journalProgram s = .next (match s.whFree with | none => s | some n => s.programBegun n) := by
  show execJournalProgram s = _
  unfold execJournalProgram
  rw [need_of (by simp [alive, idle, some_, low, high])]
  cases s.whFree with
  | none => rfl
  | some n => rfl

/-- An entry of a kind that is kept is found where it was. -/
theorem tabGet_filter_of_kept {α : Type} {d a : α} {p : Nat × α → Bool} {k : Nat} {t : Tab α} (found : tabGet d t k = a)
    (given : a ≠ d) (kept : p (k, a) = true) : tabGet d (t.filter p) k = a := by
  induction t with
  | nil => exact absurd found.symm given
  | cons e t ih =>
    obtain ⟨i, b⟩ := e
    rw [tabGet] at found
    by_cases own : i = k
    · rw [if_pos own] at found
      subst own found
      rw [List.filter_cons_of_pos kept, tabGet, if_pos rfl]
    · rw [if_neg own] at found
      by_cases stays : p (i, b) = true
      · rw [List.filter_cons_of_pos stays, tabGet, if_neg own, ih found]
      · rw [List.filter_cons_of_neg stays, ih found]

theorem State.whUse_programBegun (s : State) (n : Nat) : (s.programBegun n).whUse n = some .journal := by
  have taken : tabGet none (s.programBegun n).whPumps n = some .journal := by simp [State.programBegun, State.whTake]
  rw [State.whUse, taken]
  rfl

/-- Pumps that serve something go on with it. -/
theorem State.whUse_programBegun_ne {n m : Nat} (idle : s.jn.program = none) (other : m ≠ n) (serves : s.whUse m ≠ none) :
    (s.programBegun n).whUse m = s.whUse m := by
  obtain ⟨use, uses⟩ := Option.ne_none_iff_exists'.mp serves
  obtain ⟨held, live⟩ := Option.filter_eq_some_iff.mp uses
  have kind : use ≠ .journal := by
    rintro rfl
    simp [State.whLive, idle] at live
  have kept : tabGet none (s.programBegun n).whPumps m = some use := by
    have stays := tabGet_filter_of_kept (p := fun e : Nat × Option WhUse => e.2 != some .journal) held nofun
      (by simpa using kind)
    simpa [State.programBegun, State.whTake, tabGet_put_ne _ _ _ other] using stays
  rw [uses, State.whUse, kept, Option.filter_some, if_pos]
  cases use with
  | journal => exact absurd rfl kind
  | checkpoint j => exact live
  | noise j f => exact live

/-! ### Durable records (R611, R615) -/

/-- What durable records mark a job with. -/
def Job.marked (j : Job) (rs : List JRec) : Job :=
  let j := if j.phase = .accepting ∧ rs.any (fun r => r.kind == 1 && recNames r j) then { j with durable := true } else j
  if j.order ≠ 0 ∧ rs.any (fun r => r.kind == 2 && recNames r j) then { j with commitDurable := true } else j

theorem Job.marked_accept {x : Job} {rs : List JRec} (phase : x.phase = .accepting) (order : x.order = 0)
    (named : ∃ r ∈ rs, r.kind = 1 ∧ recNames r x = true) : x.marked rs = { x with durable := true } := by
  have any_ : rs.any (fun r => r.kind == 1 && recNames r x) = true := by simpa using named
  unfold Job.marked
  extract_lets y
  have once : y = { x with durable := true } := if_pos ⟨phase, any_⟩
  rw [once]
  exact if_neg fun h => h.1 order

theorem Job.marked_commit {x : Job} {rs : List JRec} (phase : x.phase = .ended) (order : x.order ≠ 0)
    (named : ∃ r ∈ rs, r.kind = 2 ∧ recNames r x = true) : x.marked rs = { x with commitDurable := true } := by
  have any_ : rs.any (fun r => r.kind == 2 && recNames r x) = true := by simpa using named
  unfold Job.marked
  extract_lets y
  have once : y = x := if_neg (by simp [phase])
  rw [once]
  exact if_pos ⟨order, any_⟩

/-- The newest page, with its jobs marked. -/
def State.pageKept (s : State) (rs : List JRec) : State :=
  { s with jobs := s.jobs.map (fun j => j.marked rs),
           jn := { s.jn with pages := (rs.map recStore :: s.jn.pages).take 1048576, program := none } }

theorem State.durable_eq (s : State) (rs : List JRec) :
    s.durable rs = ((s.pageKept rs).incFld rJnStat 63 32 rs.length).syncOpen := rfl

theorem State.job_pageKept (s : State) (rs : List JRec) (i : Nat) :
    (s.pageKept rs).job i = (s.job i).map (fun x => x.marked rs) := by
  rw [State.job, State.pageKept, State.job, List.getElem?_map]

theorem State.durable_onlyRegs (s : State) (rs : List JRec) : OnlyRegs (s.pageKept rs) (s.durable rs) := by
  rw [State.durable_eq]
  exact (State.incFld_onlyRegs ..).trans (State.setFld_onlyRegs ..)

theorem State.fld_durable (s : State) (rs : List JRec) :
    (s.durable rs).fld rJnStat 63 32 = min (s.fld rJnStat 63 32 + rs.length) (2 ^ 32 - 1) := by
  rw [State.durable_eq, State.syncOpen, State.fld_setFld_of_apart _ (by decide) (by decide) (by decide) (.inr (by decide)),
    State.fld_incFld _ (by decide) (by decide)]
  rfl

theorem exec_journalDurable {rs : List JRec} (program : s.jn.program = some rs) :
    exec .journalDurable s = .next (s.durable rs) := by
  show execJournalDurable s = _
  unfold execJournalDurable
  rw [program, needSome_some]

theorem State.job_durable {rs : List JRec} {i : Nat} {x : Job} (job : s.job i = some x) :
    (s.durable rs).job i = some (x.marked rs) := by
  obtain ⟨regs, e⟩ := s.durable_onlyRegs rs
  rw [e]
  exact (s.job_pageKept rs i).trans (by rw [job]; rfl)

theorem journalDurable_marks {rs : List JRec} (program : s.jn.program = some rs) :
    ∃ t, exec .journalDurable s = .next t ∧ sameMem s t ∧ t.jn.program = none ∧ t.jn.joining = s.jn.joining
      ∧ t.jn.pages = (rs.map recStore :: s.jn.pages).take 1048576
      ∧ t.fld rJnStat 63 32 = min (s.fld rJnStat 63 32 + rs.length) (2 ^ 32 - 1)
      ∧ (∀ i x, s.job i = some x → x.phase = .accepting → x.order = 0 → (∃ r ∈ rs, r.kind = 1 ∧ recNames r x = true) →
          t.job i = some { x with durable := true })
      ∧ (∀ i x, s.job i = some x → x.phase = .ended → x.order ≠ 0 → (∃ r ∈ rs, r.kind = 2 ∧ recNames r x = true) →
          t.job i = some { x with commitDurable := true }) := by
  have jn : (s.durable rs).jn = (s.pageKept rs).jn := by
    obtain ⟨regs, e⟩ := s.durable_onlyRegs rs
    rw [e]
  have mem : sameMem s (s.pageKept rs) := ⟨rfl, rfl, rfl, rfl, rfl, rfl⟩
  refine ⟨_, exec_journalDurable program, mem.trans (s.durable_onlyRegs rs).onlyNotes.sameMem, ?_, ?_, ?_, s.fld_durable rs,
    fun i x job phase order named => ?_, fun i x job phase order named => ?_⟩
  · rw [jn]; rfl
  · rw [jn]; rfl
  · rw [jn]; rfl
  · rw [State.job_durable job, Job.marked_accept phase order named]
  · rw [State.job_durable job, Job.marked_commit phase order named]

/-! ### JN_QUERY (R630) -/

/-- What JN_RESULT answers for the records of a tag. -/
def queryResult (c a : Option JRec) (old : Bool) : Word :=
  let base := setBits 0#64 63 63 1
  match c, a with
  | some c, _ => setBits (setBits (setBits (setBits base 62 60 2) 55 48 c.status) 47 47 c.widened.toNat) 31 0 c.passes
  | none, some _ => setBits base 62 60 1
  | none, none => if old then setBits base 62 60 3 else base

theorem queryResult_valid (c a : Option JRec) (old : Bool) : bitsOf (queryResult c a old) 63 63 = 1 := by
  cases c with
  | some r => simp (disch := omega) only [queryResult, bitsOf_setBits_of_apart, bitsOf_setBits]; rfl
  | none =>
    cases a with
    | some r => simp (disch := omega) only [queryResult, bitsOf_setBits_of_apart, bitsOf_setBits]; rfl
    | none => cases old <;> rfl

theorem queryResult_commit (r : JRec) (a : Option JRec) (old : Bool) :
    bitsOf (queryResult (some r) a old) 62 60 = 2 ∧ bitsOf (queryResult (some r) a old) 55 48 = r.status % 256
      ∧ bitsOf (queryResult (some r) a old) 47 47 = r.widened.toNat
      ∧ bitsOf (queryResult (some r) a old) 31 0 = r.passes % 2 ^ 32 := by
  have bit : r.widened.toNat % 2 = r.widened.toNat := Nat.mod_eq_of_lt r.widened.toNat_lt
  simp (disch := omega) [queryResult, bitsOf_setBits_of_apart, bitsOf_setBits, bit]

theorem queryResult_accept (r : JRec) (old : Bool) : bitsOf (queryResult none (some r) old) 62 60 = 1 := by
  simp (disch := omega) only [queryResult, bitsOf_setBits]
  rfl

theorem queryResult_none (old : Bool) : bitsOf (queryResult none none old) 62 60 = if old = true then 3 else 0 := by
  cases old <;> rfl

/-- What a broken record met reports (R38). -/
theorem State.noteJournal_onlyNotes (s : State) : OnlyNotes s s.noteJournal := by
  unfold State.noteJournal
  split
  · exact State.reportSelf_onlyNotes ..
  · exact OnlyRegs.refl.onlyNotes

theorem OnlyNotes.jn {t : State} (h : OnlyNotes s t) : t.jn = s.jn := by
  obtain ⟨r, m, l, rfl⟩ := h
  rfl

theorem State.noteJournal_of_sound (sound : s.jn.broken = false) : s.noteJournal = s := if_neg (by simp [sound])

theorem State.noteJournal_reports (broken : s.jn.broken = true) :
    bitOf (s.noteJournal.reg (rFcRec (16 * 12 + 1))) 63 = true := by
  rw [State.noteJournal, if_pos broken]
  exact State.report_valid ..

/-- JN_QUERY with its GO bit gone. -/
def State.queryTaken (s : State) (v : Word) : State := s.setReg rJnQuery (setBits (v &&& 0xFFFC0000FFFFFFFF#64) 32 32 0)

/-- JN_RESULT as the journal answers. -/
def State.queryAnswered (s : State) (v : Word) : State :=
  s.setReg rJnResult (queryResult (s.jn.find 2 (bitsOf v 63 58) (bitsOf v 57 50) (bitsOf v 31 0))
    (s.jn.find 1 (bitsOf v 63 58) (bitsOf v 57 50) (bitsOf v 31 0)) (decide (1048576 ≤ s.jn.pages.length)))

theorem State.jn_queryTaken (s : State) (v : Word) : (s.queryTaken v).jn = s.jn :=
  (s.setReg_onlyRegs ..).onlyNotes.jn

theorem exec_jnQueryLookup_eq {v : Word} (go : bitOf v 32 = true) :
    exec (.jnQueryLookup v) s = .next ((s.noteJournal.queryTaken v).queryAnswered v) := need_of go 630 _

theorem exec_jnQueryLookup {v : Word} (go : bitOf v 32 = true) :
    exec (.jnQueryLookup v) s = .next ((s.noteJournal.queryTaken v).setReg rJnResult
      (queryResult (s.jn.find 2 (bitsOf v 63 58) (bitsOf v 57 50) (bitsOf v 31 0))
        (s.jn.find 1 (bitsOf v 63 58) (bitsOf v 57 50) (bitsOf v 31 0)) (decide (1048576 ≤ s.jn.pages.length)))) := by
  rw [exec_jnQueryLookup_eq go, State.queryAnswered, State.jn_queryTaken, s.noteJournal_onlyNotes.jn]

theorem jnQueryLookup_answers {v : Word} (go : bitOf v 32 = true) :
    let c := s.jn.find 2 (bitsOf v 63 58) (bitsOf v 57 50) (bitsOf v 31 0)
    let a := s.jn.find 1 (bitsOf v 63 58) (bitsOf v 57 50) (bitsOf v 31 0)
    ∃ t, exec (.jnQueryLookup v) s = .next t ∧ sameMem s t ∧ t.jobs = s.jobs ∧ t.jn = s.jn
      ∧ (s.jn.broken = false → { t with regs := s.regs } = s)
      ∧ (s.jn.broken = true → bitOf (t.reg (rFcRec (16 * 12 + 1))) 63 = true)
      ∧ t.fld rJnQuery 32 32 = 0
      ∧ t.reg rJnResult = queryResult c a (decide (1048576 ≤ s.jn.pages.length)) := by
  intro c a
  have noted := s.noteJournal_onlyNotes
  have taken (r : Word) : OnlyRegs s.noteJournal ((s.noteJournal.queryTaken v).setReg rJnResult r) :=
    (State.setReg_onlyRegs ..).trans (State.setReg_onlyRegs ..)
  refine ⟨_, exec_jnQueryLookup go, ?_⟩
  generalize queryResult _ _ _ = r
  have all := noted.trans (taken r).onlyNotes
  refine ⟨all.sameMem, all.jobs, all.jn, fun sound => ?_, fun broken => ?_, ?_, State.reg_setReg ..⟩
  · have := (taken r).frame
    rwa [State.noteJournal_of_sound sound] at this ⊢
  · rw [State.reg_setReg_ne _ _ (by decide), State.queryTaken, State.reg_setReg_ne _ _ (by decide),
      State.noteJournal_reports broken]
  · rw [State.fld_setReg_ne _ _ _ _ (by decide), State.queryTaken, State.fld_setReg, bitsOf_setBits _ _ _ _ (by decide) (by decide)]
    rfl

end

/-- Settles O48, command by command. -/
theorem journalRecordsBecomeDurable : Obligations.JournalRecordsBecomeDurable := by
  intro s
  refine ⟨fun alive idle some_ low high => ?_, fun rs program => journalDurable_marks program, fun v go => ?_⟩
  · have run := exec_journalProgram alive idle some_ low high
    refine ⟨fun none_ => ?_, fun n free => ?_⟩
    · rw [run, none_]
    · rw [free] at run
      exact ⟨_, run, rfl, s.whUse_programBegun n,
        fun m _ other serves => State.whUse_programBegun_ne idle other serves, rfl⟩
  · obtain ⟨t, run, mem, jobs, jn, sound, broken, query, result⟩ := jnQueryLookup_answers (s := s) go
    unfold State.fld
    refine ⟨t, run, mem, jobs, jn, sound, broken, ?_, query, ?_, ?_, ?_⟩
    all_goals rw [result]
    · exact queryResult_valid ..
    · intro r found
      rw [found]
      exact queryResult_commit ..
    · intro none_ accepted
      obtain ⟨r, found⟩ := Option.isSome_iff_exists.mp accepted
      rw [none_, found]
      exact queryResult_accept ..
    · intro noCommit noAccept
      rw [noCommit, noAccept, queryResult_none]
      exact if_congr (by simp) rfl rfl

end Sys2Proof.Machine
end

section
/-!
SUPPORT. Codec sessions: binding, pictures, READY, and ends (R571, R572, R578, R579, R587, R593, R594).
-/
namespace Sys2Proof.Machine

section
variable {s t u v : State} {e : Session}

/-! ### BOUND of the cores (R598) -/

/-- BOUND of the cores below n brought up to date. -/
def State.syncedTo (s : State) (n : Nat) : State :=
  (List.range n).foldl (fun (t : State) i => t.setFld (rVcCore i) 15 12 (t.boundTo i)) s

theorem State.syncedTo_succ (s : State) (n : Nat) :
    s.syncedTo (n + 1) = (s.syncedTo n).setFld (rVcCore n) 15 12 ((s.syncedTo n).boundTo n) := by
  rw [State.syncedTo, List.range_succ, List.foldl_append]
  rfl

theorem OnlyRegs.boundTo (h : OnlyRegs s t) (i : Nat) : t.boundTo i = s.boundTo i := by
  obtain ⟨regs, rfl⟩ := h
  rfl

theorem State.syncedTo_leaves (s : State) (n : Nat) : OnlyRegs s (s.syncedTo n)
    ∧ ∀ i < n, (s.syncedTo n).fld (rVcCore i) 15 12 = s.boundTo i % 16 := by
  induction n with
  | zero => exact ⟨.refl, nofun⟩
  | succ n ih =>
    obtain ⟨only, fields⟩ := ih
    rw [State.syncedTo_succ, only.boundTo]
    refine ⟨only.trans (State.setFld_onlyRegs ..), fun i lt => ?_⟩
    obtain below | rfl := Nat.lt_succ_iff_lt_or_eq.mp lt
    · rw [State.fld_setFld_ne _ _ _ _ _ _ (by simp only [rVcCore]; omega), fields i below]
    · exact State.fld_setFld _ _ _ _ _ (by decide) (by decide)

theorem State.syncCores_onlyRegs (s : State) : OnlyRegs s s.syncCores := (s.syncedTo_leaves 4).1

theorem State.fld_syncCores (s : State) {i : Nat} (lt : i < 4) : s.syncCores.fld (rVcCore i) 15 12 = s.boundTo i % 16 :=
  (s.syncedTo_leaves 4).2 i lt

theorem OnlyRegs.sessions (h : OnlyRegs s t) : t.sessions = s.sessions := by
  obtain ⟨regs, rfl⟩ := h
  rfl

theorem State.codecGo_ok (e : Session) (t : State) : s.codecGo e (.ok t) = .next t := rfl

/-! ### Binding (R571) -/

theorem exec_codecSessionBind (waits : s.sessions.find? (fun e => e.core.isNone && decide (e.state = 0) && s.sessionRuns e
      && (s.coreFor e.kind).isSome) = some e)
    (put : s.putSession { e with core := s.coreFor e.kind, state := 1, full := e.startFull } = .ok u) :
    exec .codecSessionBind s = .next u.syncCores := by
  show execCodecSessionBind s = _
  unfold execCodecSessionBind
  rw [waits, needSome_some]
  dsimp only
  rw [put]
  rfl

/-! ### Ends (R587, R594) -/

/-- A session of KIND 1, or of any kind with CODE 0, ended: its DONE stays. -/
def Session.ended (e : Session) (code : Nat) : Session :=
  { e with state := if code = 0 then 3 else 4, code := code, core := none }

/-- A decode session ended with a CODE. -/
def Session.failed (e : Session) (code : Nat) : Session :=
  { e with state := 4, code := code, core := none, done_ := 2 ^ 64 - 1 }

/-- What an ended session leaves: CODE 0 brings the cores up to date, another is latched too. -/
def State.sessionTold (t : State) (e : Session) (code : Nat) : State :=
  if code = 0 then t.syncCores
  else t.syncCores.latch rVcErr (setBits (setBits (setBits 0#64 61 59 e.coreNo) 58 56 code) 55 0 e.block)

theorem State.sessionTold_onlyRegs (t : State) (e : Session) (code : Nat) : OnlyRegs t (t.sessionTold e code) := by
  unfold State.sessionTold
  split
  · exact t.syncCores_onlyRegs
  · exact t.syncCores_onlyRegs.trans (State.onlyRegs_latch ..)

theorem State.endSession_ended {code : Nat} (keeps : ¬(e.kind = 2 ∧ code ≠ 0)) (put : s.putSession (e.ended code) = .ok u) :
    s.endSession e code = .next (u.sessionTold e code) := by
  unfold State.endSession
  dsimp only
  rw [if_neg keeps]
  unfold Session.ended at put
  rw [put]
  rfl

theorem State.endSession_failed {code : Nat} (decodes : e.kind = 2) (fails : code ≠ 0)
    (put : s.putSession (e.failed code) = .ok u) : s.endSession e code = .next (u.sessionTold e code) := by
  unfold State.endSession
  dsimp only
  rw [if_neg fails, if_pos ⟨decodes, fails⟩]
  unfold Session.failed at put
  rw [put]
  rfl

theorem State.sessionTold_leaves (t : State) (e : Session) (code : Nat) : (t.sessionTold e code).sessions = t.sessions
    ∧ (t.sessionTold e code).jobs = t.jobs ∧ sameMem t (t.sessionTold e code) :=
  have only := t.sessionTold_onlyRegs e code
  ⟨only.sessions, only.onlyNotes.jobs, only.onlyNotes.sameMem⟩

theorem State.coreStep_of_present {i : Nat} (present : s.missing 12 (18 + i) = false) (r : Res) : s.coreStep i r = r :=
  if_neg (by simp [present])

/-! ### Pictures (R572, R579, R587, R593) -/

theorem exec_encodePicture {i : Fin 2} {c : List (Nat × List Byte) × Nat × List Byte × Nat}
    (next_ : s.sessions.find? (fun e => e.kind == 1 && e.canEncode i && s.sessionRuns e) = some e)
    (present : s.missing 12 (18 + i) = false) (unit : s.nextUnit e = .ok c) :
    exec (.encodePicture i) s
      = if e.overflows c.2.2.1.length then s.endSession e 2 else s.codecGo e (s.encode e c) := by
  show execEncodePicture i s = _
  unfold execEncodePicture
  rw [next_, needSome_some, State.coreStep_of_present present, unit]

theorem encodePicture_codes {i : Fin 2} {c : List (Nat × List Byte) × Nat × List Byte × Nat}
    (next_ : s.sessions.find? (fun e => e.kind == 1 && e.canEncode i && s.sessionRuns e) = some e)
    (present : s.missing 12 (18 + i) = false) (unit : s.nextUnit e = .ok c) (put : s.putSession (e.ended 2) = .ok u)
    (codes : e.overflows c.2.2.1.length = false → s.encode e c = .ok v) :
    ∃ t, exec (.encodePicture i) s = .next t
      ∧ (if e.overflows c.2.2.1.length = true then t.sessions = u.sessions ∧ sameMem u t else t = v) := by
  have kind : e.kind = 1 := by
    have found := List.find?_some next_
    simp only [Bool.and_eq_true, beq_iff_eq] at found
    obtain ⟨⟨kind, _⟩, _⟩ := found
    exact kind
  rw [exec_encodePicture next_ present unit]
  cases exceeds : e.overflows c.2.2.1.length with
  | true =>
    obtain ⟨sessions, _, mem⟩ := u.sessionTold_leaves e 2
    exact ⟨_, (if_pos rfl).trans (State.endSession_ended (by simp [kind]) put), sessions, mem⟩
  | false => exact ⟨v, (if_neg nofun).trans (congrArg (s.codecGo e) (codes exceeds)), rfl⟩

theorem exec_decodePicture {i : Fin 2} {st : List Byte}
    (next_ : s.sessions.find? (fun e => e.kind == 2 && e.core == some (2 + i.val)
      && decide (e.state = 1 ∧ e.bytes < e.len) && s.sessionRuns e) = some e)
    (present : s.missing 12 (18 + (2 + i)) = false) (stream : s.stream e = .ok st) :
    exec (.decodePicture i) s = if e.unitCode st ≠ 0 then s.endSession e (e.unitCode st)
      else if e.canOutput (e.outs st) then s.codecGo e (s.decode e st) else s.stalls 579 := by
  show execDecodePicture i s = _
  unfold execDecodePicture
  rw [next_, needSome_some, State.coreStep_of_present present, stream]

theorem decodePicture_decodes {i : Fin 2} {st : List Byte}
    (next_ : s.sessions.find? (fun e => e.kind == 2 && e.core == some (2 + i.val)
      && decide (e.state = 1 ∧ e.bytes < e.len) && s.sessionRuns e) = some e)
    (present : s.missing 12 (18 + (2 + i)) = false) (stream : s.stream e = .ok st)
    (room : e.unitCode st = 0 → e.canOutput (e.outs st) = true) (put : s.putSession (e.failed (e.unitCode st)) = .ok u)
    (decodes : e.unitCode st = 0 → s.decode e st = .ok v) :
    ∃ t, exec (.decodePicture i) s = .next t
      ∧ (if e.unitCode st = 0 then t = v else t.sessions = u.sessions ∧ sameMem u t) := by
  have kind : e.kind = 2 := by
    have found := List.find?_some next_
    simp only [Bool.and_eq_true, beq_iff_eq] at found
    obtain ⟨⟨⟨kind, _⟩, _⟩, _⟩ := found
    exact kind
  rw [exec_decodePicture next_ present stream]
  by_cases sound : e.unitCode st = 0
  · refine ⟨v, (if_neg (not_not_intro sound)).trans ((if_pos (room sound)).trans ?_), (if_pos sound).mpr rfl⟩
    exact congrArg (s.codecGo e) (decodes sound)
  · obtain ⟨sessions, _, mem⟩ := u.sessionTold_leaves e (e.unitCode st)
    exact ⟨_, (if_pos sound).trans (State.endSession_failed kind sound put), (if_neg sound).mpr ⟨sessions, mem⟩⟩

/-! ### READY and the last picture (R578, R594) -/

theorem exec_sessionReadyReread {j : Nat} {n : Fin 4} {w : Word}
    (bound : s.sessions.find? (fun e => e.job == j && e.n == n.val && decide (e.state = 1)) = some e)
    (word : s.readWord (viaQ 12 (s.ctxOf j)) e.block = .ok w) :
    exec (.sessionReadyReread j n) s = .next { s with sessions := s.sessions.map (fun x =>
      if x.job = j ∧ x.n = n.val then { e with ready := w.toNat, readAt := s.now } else x) } := by
  show execSessionReadyReread j n s = _
  unfold execSessionReadyReread
  rw [bound, needSome_some, word]

theorem exec_sessionEnd_last {j : Nat} {n : Fin 4}
    (open_ : s.sessions.find? (fun e => e.job == j && e.n == n.val && decide (e.state < 3)) = some e) (state : e.state = 1)
    (last : e.kind = 1 ∧ e.coded.length = e.frames ∨ e.kind ≠ 1 ∧ e.bytes = e.len)
    (put : s.putSession (e.ended 0) = .ok u) : exec (.sessionEnd j n) s = .next u.syncCores := by
  have ends : s.endSession e 0 = .next u.syncCores := State.endSession_ended (fun h => h.2 rfl) put
  show execSessionEnd j n s = _
  unfold execSessionEnd
  rw [open_, needSome_some, ← ends]
  obtain ⟨kind, all_⟩ | ⟨kind, all_⟩ := last
  · rw [if_pos kind, if_pos ⟨state, all_⟩]
  · rw [if_neg kind, if_pos ⟨state, all_⟩]

/-- The job of a session that ends INCOMPLETE. -/
def State.jobInternal (s : State) (j : Nat) : State :=
  { s with jobs := s.jobs.modify j (fun x => { x with status := some 0x7F }) }

theorem exec_sessionEnd_incomplete {j : Nat} {n : Fin 4}
    (open_ : s.sessions.find? (fun e => e.job == j && e.n == n.val && decide (e.state < 3)) = some e) (kind : e.kind = 1)
    (more : e.coded.length ≠ e.frames) (waits : e.canEncode e.coreNo = false) (incomplete : s.incomplete e = true)
    (put : (s.jobInternal e.job).putSession (e.ended 1) = .ok u) :
    exec (.sessionEnd j n) s = .next (u.sessionTold e 1) := by
  show execSessionEnd j n s = _
  unfold execSessionEnd
  rw [open_, needSome_some, if_pos kind, if_neg (fun h => more h.2), if_neg (by simp [waits]), need_of incomplete]
  exact State.endSession_ended (by simp [kind]) put

end

/-- Settles O45, command by command. -/
theorem codecSessionsProceed : Obligations.CodecSessionsProceed := by
  intro s
  refine ⟨fun e u waits put => ?_, fun i e c u v next_ present unit put codes => encodePicture_codes next_ present unit put codes,
    fun i e st u v next_ present stream room put decodes => decodePicture_decodes next_ present stream room put decodes,
    fun j n e v bound word => ⟨_, exec_sessionReadyReread bound word, rfl, rfl⟩,
    fun j n e open_ => ⟨fun state last u put => exec_sessionEnd_last open_ state last put,
      fun kind _ more waits incomplete u put => ?_⟩⟩
  · exact ⟨_, exec_codecSessionBind waits put, u.syncCores_onlyRegs.frame, fun i lt => u.fld_syncCores lt⟩
  · exact ⟨_, exec_sessionEnd_incomplete open_ kind more waits incomplete put, u.sessionTold_leaves e 1⟩

end Sys2Proof.Machine
end

section
/-!
SUPPORT. What a queue's reset keeps: the count of its entries that no vector has signalled yet (R620, R629).
-/
namespace Sys2Proof.Machine

section
variable {s t : State} {q : Nat}

/-! ### A reset keeps what is not signalled -/

theorem State.hq_of_hqs (same : t.hqs = s.hqs) (q : Nat) : t.hq q = s.hq q := by rw [State.hq, same, State.hq]

theorem OnlyRegs.hq (h : OnlyRegs s t) (q : Nat) : t.hq q = s.hq q := by
  obtain ⟨regs, rfl⟩ := h
  rfl

theorem State.hq_syncQ (s : State) (q p : Nat) : (s.syncQ q).hq p = s.hq p := (s.setFld_onlyRegs ..).hq p

theorem Locked.hqs (h : Locked s t) : t.hqs = s.hqs := h.elim fun _ noted => noted.hqs

theorem State.hq_unlockJobs (s : State) (p : Job → Bool) (q : Nat) : (s.unlockJobs p).hq q = s.hq q :=
  State.hq_of_hqs (State.unlock_locked _).hqs q

/-- The registers of a queue as its reset leaves them. -/
def State.queueZeroed (s : State) (q g : Nat) : State :=
  (((((((s.setFld (rQStatus q) 47 40 g).setFld (rQStatus q) 63 48 0).setFld (rQStatus q) 15 0 0).setFld (rQStatus q) 36 34
    0).setReg (rQLast q) 0#64).setFld (rQCtl q) 63 63 0).syncQ q)

theorem State.hq_queueZeroed (s : State) (q g p : Nat) : (s.queueZeroed q g).hq p = s.hq p := by
  unfold State.queueZeroed
  rw [State.hq_syncQ, (State.setFld_onlyRegs ..).hq, (State.setReg_onlyRegs ..).hq, (State.setFld_onlyRegs ..).hq,
    (State.setFld_onlyRegs ..).hq, (State.setFld_onlyRegs ..).hq, (State.setFld_onlyRegs ..).hq]

theorem State.hq_resetQueue (s : State) (q : Nat) :
    (s.resetQueue q).hq q = { unsig := (s.hq q).unsig, unsigAt := (s.hq q).unsigAt } :=
  (State.hq_queueZeroed ..).trans (State.hq_setHq ..)

theorem State.unsig_writeQctl (s : State) (q : Nat) {v : Word} (reset : bitOf v 62 = true) :
    ((s.writeQctl q v).hq q).unsig = (s.hq q).unsig := by
  unfold State.writeQctl
  extract_lets on u u1 u2 u3
  rw [if_pos reset, State.hq_resetQueue]
  have first : u.hq q = s.hq q := by
    unfold u
    rw [if_pos reset, State.hq_unlockJobs]
  have fields : u2.hq q = s.hq q := by
    rw [← first]
    exact ((State.setFld_onlyRegs ..).hq q).trans
      (((State.setFld_onlyRegs ..).hq q).trans ((State.setFld_onlyRegs ..).hq q))
  have sizes : u3.hq q = u2.hq q := by
    unfold u3
    split
    · rfl
    · exact (State.setFld_onlyRegs ..).hq q
  rw [sizes, fields]

end

/-- The reset state with an entry of queue 0 that no vector has signalled. -/
def unsignalledQueue : State := State.reset.setHq 0 { unsig := 1 }

theorem unsignalledQueue_unsig : (unsignalledQueue.hq 0).unsig = 1 := by decide

theorem unsignalledQueue_reach : unsignalledQueue.qReach 0 0 = true := by decide

/-- Refutes O47: a reset of a queue keeps the count of its entries that no vector has signalled, so it is not empty. -/
theorem not_completionEntriesAreWritten : ¬ Obligations.CompletionEntriesAreWritten := by
  intro h
  obtain ⟨-, queues⟩ := h
  have set_ : bitOf (0x4000000000000000#64) 62 = true := by decide
  obtain ⟨-, reached⟩ := queues unsignalledQueue 0 0 0 0 0x4000000000000000#64 set_
  obtain ⟨-, -, t, run, -, -, -, -, -, -, -, -, empty, -⟩ := reached unsignalledQueue_reach
  have reset : exec (.queueReset 0 0x4000000000000000#64 0) unsignalledQueue
      = .next (unsignalledQueue.writeQctl 0 0x4000000000000000#64) :=
    (need_of set_ 620 _).trans (congrArg Host.Outcome.next (if_pos unsignalledQueue_reach))
  cases reset.symm.trans run
  have kept := unsignalledQueue.unsig_writeQctl 0 set_
  have none_ := congrArg HostQ.unsig empty
  exact absurd ((none_.symm.trans kept).trans unsignalledQueue_unsig) (by decide)

end Sys2Proof.Machine
end

section
/-!
SUPPORT. Reads and writes through BAR2, and what a read that faults records (R435, R441, R603, R748).
-/
namespace Sys2Proof.Machine

section
variable {s t : State}

/-! ### Records that stay (R14) -/

/-- A record that is taken is valid, whether it was free or not. -/
theorem State.bit_latch (s : State) (o : Nat) (v : Word) : bitOf ((s.latch o v).reg o) 63 = true := by
  rw [bitOf_eq_decide_bitsOf, decide_eq_true_eq]
  unfold State.latch
  split
  next valid =>
    rw [bitOf_eq_decide_bitsOf, decide_eq_true_eq] at valid
    exact (State.fld_setFld_of_apart _ (by decide) (by decide) (by decide) (.inr (by decide))).trans valid
  next =>
    rw [State.reg_setReg, bitsOf_setBits_of_apart (by decide) (by decide) (by decide) (.inr (by decide)),
      bitsOf_setBits _ _ _ _ (by decide) (by decide)]
    rfl

/-- TR_FAULT is no register that a report changes. -/
theorem State.trFault_reportSelf {src cls sev unit detail : Nat} (known : src < 64) (class_ : cls < 16) :
    (s.reportSelf src cls sev unit detail).reg rTrFault = s.reg rTrFault := by
  refine State.reg_report ?_
  simp only [reportRegs, rTrFault, rFcRec, rFcTb, rFcDet, rFcSummary, rFcAlert, List.mem_cons, List.not_mem_nil, or_false]
  omega

theorem State.noteTrans_noted (s : State) (ctx w : Nat) (e : AccErr) : Noted s (s.noteTrans ctx w e) :=
  State.noteTransBy_noted ..

/-- A translation fault of the wellhead stands in TR_FAULT (R435). -/
theorem State.trFault_noteTrans (s : State) (ctx k level va : Nat) (write : Bool) :
    bitOf ((s.noteTrans ctx 15 (.trans k level va write)).reg rTrFault) 63 = true := by
  unfold State.noteTrans State.noteTransBy
  split
  · extract_lets tabled level drawn v stamped latched
    rw [State.trFault_reportSelf (by decide) (by decide)]
    exact stamped.bit_latch ..
  next other => exact absurd rfl (other _ _ _ _)

/-! ### BAR2 (R603) -/

variable {f : Fin 2} {o : BitVec 36} {n : Fin 4097} {bytes : List Byte}

theorem exec_bar2Read_missing (up : s.functionUp f = true) (missing : s.missing 12 17 = true) :
    exec (.bar2Read f o n) s = .next s := (need_of up 603 _).trans (if_pos missing)

theorem exec_bar2Write_missing (up : s.functionUp f = true) (missing : s.missing 12 17 = true)
    (stage : s.fld rWhBoot 63 60 ≠ 8) : exec (.bar2Write f o bytes) s = .next s :=
  (need_of up 603 _).trans ((if_neg stage).trans (if_pos missing))

theorem exec_bar2Write_recovery (up : s.functionUp f = true) (stage : s.fld rWhBoot 63 60 = 8) :
    exec (.bar2Write f o bytes) s = .next
      (if o.toNat + bytes.length ≤ 2 ^ 26 then { s with recovery := memWrite s.recovery o.toNat bytes } else s) :=
  (need_of up 603 _).trans (if_pos stage)

/-- The bytes of a read kept for its function. -/
def State.bar2Given (s : State) (bs : List Byte) : State := { s with bar2Data := bs }

/-- What a read of the host reaches, given to it. -/
def State.bar2Reached (s : State) (va n : Nat) (bs : List Byte) : State :=
  ((s.traffic 12 (viaQ 12 12) va n false).useTlbs (viaQ 12 12) va n).bar2Given bs

theorem exec_bar2Read_ok (up : s.functionUp f = true) (present : s.missing 12 17 = false) {bs : List Byte}
    (read : s.readVa (viaQ 12 12) (s.bar2Va f o.toNat) n = .ok bs) :
    exec (.bar2Read f o n) s = .next (s.bar2Reached (s.bar2Va f o.toNat) n bs) := by
  show execBar2Read f o n s = _
  unfold execBar2Read
  rw [need_of up, if_neg (by simp [present]), read]
  rfl

theorem exec_bar2Read_stalled (up : s.functionUp f = true) (present : s.missing 12 17 = false) {r : Nat}
    (read : s.readVa (viaQ 12 12) (s.bar2Va f o.toNat) n = .error (.stall r)) : exec (.bar2Read f o n) s = .next s := by
  show execBar2Read f o n s = _
  unfold execBar2Read
  rw [need_of up, if_neg (by simp [present]), read]
  rfl

theorem exec_bar2Write_ok (up : s.functionUp f = true) (present : s.missing 12 17 = false)
    (stage : s.fld rWhBoot 63 60 ≠ 8) (wrote : s.writeDir (viaQ 12 12) (s.bar2Va f o.toNat) bytes = .ok t) :
    exec (.bar2Write f o bytes) s = .next t := by
  show execBar2Write f o bytes s = _
  unfold execBar2Write
  rw [need_of up, if_neg stage, if_neg (by simp [present]), wrote]

theorem State.sameMem_bar2Given (s : State) (bs : List Byte) : sameMem s (s.bar2Given bs) := ⟨rfl, rfl, rfl, rfl, rfl, rfl⟩

theorem Noted.bar2Data (h : Noted s t) : t.bar2Data = s.bar2Data := (congrArg State.bar2Data h.frame :)

theorem OnlyNotes.bar2Data (h : OnlyNotes s t) : t.bar2Data = s.bar2Data := by
  obtain ⟨r, m, l, rfl⟩ := h
  rfl

theorem accessed.bar2Given (h : accessed s t) (bs : List Byte) :
    accessed s { t.bar2Given bs with bar2Data := s.bar2Data } := by
  have same : { t.bar2Given bs with bar2Data := s.bar2Data } = t := by
    rw [← (congrArg State.bar2Data h.1 :)]
    rfl
  rwa [same]

/-- A read that does not translate, recorded in WH_BAR2_ERR and reported. -/
def State.bar2Noted (s : State) (f : Nat) (o k : Nat) : State :=
  (s.latch rWhBar2Err (setBits (setBits (setBits (setBits 0#64 61 61 f) 60 60 0) 59 56 k) 35 0 o)).reportSelf 21 0xD 0
    (64 + f) o

theorem State.bar2Err_trans (s : State) (f o k level va : Nat) (write : Bool) : s.bar2Err f false o (.trans k level va write)
    = .next ((s.noteTrans (viaQ 12 12) 15 (.trans k level va write)).bar2Noted f o k) := rfl

theorem State.bar2Noted_onlyNotes (s : State) (f o k : Nat) : OnlyNotes s (s.bar2Noted f o k) :=
  (State.onlyRegs_latch ..).onlyNotes.trans (State.reportSelf_onlyNotes ..)

theorem State.trFault_bar2Noted (s : State) (f o k : Nat) : (s.bar2Noted f o k).reg rTrFault = s.reg rTrFault := by
  rw [State.bar2Noted, State.trFault_reportSelf (by decide) (by decide), State.reg_latch_ne _ _ (by decide)]

theorem State.bar2Noted_fields (first : bitOf (s.reg rWhBar2Err) 63 = false) {f o : Nat} (fn : f < 2) (small : o < 2 ^ 36)
    (k : Nat) : (s.bar2Noted f o k).fld rWhBar2Err 63 63 = 1 ∧ (s.bar2Noted f o k).fld rWhBar2Err 61 61 = f
      ∧ (s.bar2Noted f o k).fld rWhBar2Err 60 60 = 0 ∧ (s.bar2Noted f o k).fld rWhBar2Err 59 56 = k % 16
      ∧ (s.bar2Noted f o k).fld rWhBar2Err 35 0 = o := by
  have same (hi lo : Nat) : (s.bar2Noted f o k).fld rWhBar2Err hi lo = (s.latch rWhBar2Err
      (setBits (setBits (setBits (setBits 0#64 61 61 f) 60 60 0) 59 56 k) 35 0 o)).fld rWhBar2Err hi lo :=
    congrArg (bitsOf · hi lo) ((State.report_noted ..).low rWhBar2Err (by decide))
  refine ⟨?_, ?_, ?_, ?_, ?_⟩
  · rw [same, State.valid_latch_of_first first]
  all_goals rw [same, State.fld_latch_of_first first (by decide) (by decide)]
  all_goals simp (disch := omega) only [bitsOf_setBits_of_apart, bitsOf_setBits]
  all_goals omega

theorem bar2Read_faults (up : s.functionUp f = true) (present : s.missing 12 17 = false) {k level a : Nat} {wr : Bool}
    (fault : s.readVa (viaQ 12 12) (s.bar2Va f o.toNat) n = .error (.trans k level a wr))
    (first : bitOf (s.reg rWhBar2Err) 63 = false) :
    ∃ t, exec (.bar2Read f o n) s = .next t ∧ t.bar2Data = List.replicate n 0xFF#8 ∧ sameMem s t ∧ t.jobs = s.jobs
      ∧ bitOf (t.reg rTrFault) 63 = true
      ∧ t.fld rWhBar2Err 63 63 = 1 ∧ t.fld rWhBar2Err 61 61 = f.val ∧ t.fld rWhBar2Err 60 60 = 0
      ∧ t.fld rWhBar2Err 59 56 = k % 16 ∧ t.fld rWhBar2Err 35 0 = o.toNat := by
  have run : exec (.bar2Read f o n) s = (s.bar2Given (List.replicate n 0xFF#8)).bar2Err f false o.toNat
      (.trans k level a wr) := by
    show execBar2Read f o n s = _
    unfold execBar2Read
    rw [need_of up, if_neg (by simp [present]), fault]
    rfl
  have noted := (s.bar2Given (List.replicate n 0xFF#8)).noteTrans_noted (viaQ 12 12) 15 (.trans k level a wr)
  have valid := (s.bar2Given (List.replicate n 0xFF#8)).trFault_noteTrans (viaQ 12 12) k level a wr
  refine ⟨_, run.trans (State.bar2Err_trans ..), ?_⟩
  generalize (s.bar2Given (List.replicate n 0xFF#8)).noteTrans (viaQ 12 12) 15 (.trans k level a wr) = u at noted valid
  have told := u.bar2Noted_onlyNotes f o.toNat k
  have unread : bitOf (u.reg rWhBar2Err) 63 = false := by
    rw [noted.low rWhBar2Err (by decide)]
    exact first
  exact ⟨told.bar2Data.trans noted.bar2Data,
    ((s.sameMem_bar2Given _).trans noted.sameMem).trans told.sameMem, told.jobs.trans noted.jobs,
    (congrArg (bitOf · 63) (u.trFault_bar2Noted ..)).trans valid, State.bar2Noted_fields unread f.isLt o.isLt k⟩

end

/-- Settles O49, access by access. -/
theorem hostWindowReachesMemory : Obligations.HostWindowReachesMemory := by
  intro s f o n bytes up va c
  refine ⟨fun missing => ⟨exec_bar2Read_missing up missing, exec_bar2Write_missing up missing⟩,
    fun present => ⟨fun bs read => ⟨_, exec_bar2Read_ok up present read, rfl, ?_⟩,
      fun k level a wr fault first => bar2Read_faults up present fault first,
      fun r read => exec_bar2Read_stalled up present read, fun stage t wrote => exec_bar2Write_ok up present stage wrote⟩,
    exec_bar2Write_recovery up⟩
  exact (State.reach_accessed ..).bar2Given bs

end Sys2Proof.Machine
end

section
/-!
SUPPORT. What a takeover reset keeps of a table that names a bobbin twice (R740).
-/
namespace Sys2Proof.Machine

/-- A member in STOOD_DOWN whose table of bobbins names bobbin 0 of well 0 twice, first as listed in the aquifer reserve. -/
def bobbinTwice : State :=
  { State.reset with bobs := [(0, { listed := true }), (0, {})] }.setFld rTlPairStatus 63 60 7

/-- TAKEOVER_RESET in WH_RESET. -/
def takeoverWord : Word := 2#64

theorem bobbinTwice_listed : (bobbinTwice.bob 0 0).listed = true := by decide

/-- Is a bobbin listed in what a step gives? -/
def listedAfter (r : Res) (w p : Nat) : Bool :=
  match r with
  | .next t => (t.bob w p).listed
  | _ => true

/-- The reset takes the entries in their order, so that the last stands (R740). -/
theorem takeover_unlists : listedAfter (exec (.takeoverReset takeoverWord false) bobbinTwice) 0 0 = false := by
  decide +kernel

/-- Refutes O59: a takeover reset rebuilds the table of bobbins, and of a bobbin that the table names twice keeps the entry
that was not read. -/
theorem not_resetsAndBootFollowTheirOrder : ¬ Obligations.ResetsAndBootFollowTheirOrder := by
  intro h
  obtain ⟨resets, -⟩ := h
  obtain ⟨commands, -⟩ := resets bobbinTwice
  obtain ⟨-, -, done⟩ := commands (.takeoverReset takeoverWord false) takeoverWord 2 true (by decide) (by decide)
  obtain ⟨t, run, -, -, takeover, -⟩ := done (by decide) rfl
  obtain ⟨⟨-, -, -, -, listed⟩, -⟩ := takeover rfl
  have lost := takeover_unlists
  rw [run] at lost
  exact absurd (lost.symm.trans ((listed 0 0).trans bobbinTwice_listed)) (by decide)

end Sys2Proof.Machine
end

section
/-!
SUPPORT. Registers that stay while memory stays: well commands, reports, counters and the sweep of the sensor chain (O60).
-/

namespace Sys2Proof.Machine

/-! ### What leaves memory and a class of registers -/

/-- t has the memory of s, and every register of class p. -/
structure Quiet (p : Nat → Prop) (s t : State) : Prop where
  mem : sameMem s t
  regs : ∀ o, p o → t.reg o = s.reg o

/-- No register of class p belongs to the fault collector. -/
def clearOfFc (p : Nat → Prop) : Prop := ∀ o, p o → o < rFcSummary ∨ 0x34000 ≤ o

section
variable {p : Nat → Prop} {s t u : State}

theorem Quiet.refl : Quiet p s s := ⟨⟨rfl, rfl, rfl, rfl, rfl, rfl⟩, fun _ _ => rfl⟩

theorem Quiet.trans (h : Quiet p s t) (k : Quiet p t u) : Quiet p s u :=
  ⟨h.mem.trans k.mem, fun o i => (k.regs o i).trans (h.regs o i)⟩

theorem Quiet.fld (h : Quiet p s t) {o : Nat} (i : p o) (hi lo : Nat) : t.fld o hi lo = s.fld o hi lo := by
  rw [State.fld, h.regs o i, State.fld]

theorem Quiet.setReg (h : Quiet p s t) {o : Nat} {v : Word} (other : ¬p o) : Quiet p s (t.setReg o v) :=
  h.trans ⟨(t.setReg_onlyRegs o v).sameMem, fun _ i => State.reg_setReg_ne _ _ fun e => other (e ▸ i)⟩

theorem Quiet.setFld (h : Quiet p s t) {o hi lo v : Nat} (other : ¬p o) : Quiet p s (t.setFld o hi lo v) := h.setReg other

theorem Quiet.modPw (h : Quiet p s t) {f : Power → Power} : Quiet p s (t.modPw f) :=
  h.trans ⟨State.sameMem_modPw .., fun _ _ => rfl⟩

theorem Quiet.ite {c : Prop} [Decidable c] (h : Quiet p s t) (k : Quiet p s u) : Quiet p s (if c then t else u) := by
  split
  · exact h
  · exact k

theorem Quiet.foldl {α : Type} {f : State → α → State} (l : List α) (h : Quiet p s t)
    (step : ∀ u, ∀ a ∈ l, Quiet p u (f u a)) : Quiet p s (l.foldl f t) :=
  List.foldlRecOn (motive := fun u => Quiet p s u) _ _ h fun u hu a mem => hu.trans (step u a mem)

theorem clearOfFc.not_alert (far : clearOfFc p) : ¬p rFcAlert := fun i => absurd (far _ i) (by decide)

theorem Quiet.alert (h : Quiet p s t) (far : clearOfFc p) {bit : Nat} : Quiet p s (t.alert bit) := h.setFld far.not_alert

/-- The registers of a report lie in the collector's range. -/
theorem le_of_mem_reportRegs {src cls o : Nat} (src_lt : src < 32) (cls_lt : cls < 16)
    (mem : o ∈ reportRegs (16 * src + cls)) : rFcSummary ≤ o ∧ o < 0x34000 := by
  simp only [reportRegs, List.mem_cons, List.not_mem_nil, or_false, rFcRec, rFcTb, rFcDet, rFcSummary, rFcAlert] at mem ⊢
  omega

theorem Quiet.report (h : Quiet p s t) (far : clearOfFc p) {src cls sev rsrc runit unit detail : Nat} (src_lt : src < 32)
    (cls_lt : cls < 16) : Quiet p s (t.report src cls sev rsrc runit unit detail) := by
  have only : OnlyNotes t (t.report src cls sev rsrc runit unit detail) := t.report_eq ..
  refine h.trans ⟨only.sameMem, fun o i => State.reg_report fun mem => ?_⟩
  have range := le_of_mem_reportRegs src_lt cls_lt mem
  have clear := far o i
  omega

theorem Quiet.reportSelf (h : Quiet p s t) (far : clearOfFc p) {src cls sev unit detail : Nat} (src_lt : src < 32)
    (cls_lt : cls < 16) : Quiet p s (t.reportSelf src cls sev unit detail) := h.report far src_lt cls_lt

/-! ### A lost well -/

/-- The registers by which a well is lost. -/
def loseRegs : List Nat := [rWhWellState, rWhWellLost, rPmState]

theorem State.fenceLinks_eq (l : List (Nat × Nat)) (s : State) :
    ∃ fabric, l.foldl State.fenceLink s = { s with fabric := fabric } :=
  List.foldlRecOn (motive := fun t => ∃ fabric, t = { s with fabric := fabric }) _ _ ⟨_, rfl⟩ fun t ht a _ => by
    obtain ⟨fabric, rfl⟩ := ht
    exact State.fenceLink_eq a

/-- What the loss of a well writes to the registers. -/
def State.lossNoted (s : State) (w cause : Nat) : State :=
  ((((s.setFld rWhWellState (2 * w + 25) (2 * w + 24) 3).setFld rWhWellLost (4 * w + 3) (4 * w) cause).alert 10).report w
    0x7 2 w 145 145 cause).setFld rPmState (3 * w + 2) (3 * w) 7

/-- The loss of a well beside the registers. -/
theorem State.loseWell_eq (s : State) (w cause : Nat) : ∃ jobs bobs deques fabric,
    s.loseWell w cause = { s.lossNoted w cause with jobs := jobs, bobs := bobs, deques := deques, fabric := fabric } := by
  obtain ⟨fabric, e⟩ := State.fenceLinks_eq (wellLinks w) { s.lossNoted w cause with
    jobs := (s.lossNoted w cause).jobs.map (fun j =>
      if j.wells.contains w && !decide (j.phase = .committed) then { j with rebuild := true } else j)
    bobs := tabMap {} (Bobbin.afterLoss w) (s.lossNoted w cause).bobs
    deques := tabDrop (fun k => k / 128 == w) (s.lossNoted w cause).deques }
  exact ⟨_, _, _, fabric, e⟩

theorem State.reg_loseWell (s : State) (w cause o : Nat) : (s.loseWell w cause).reg o = (s.lossNoted w cause).reg o := by
  obtain ⟨jobs, bobs, deques, fabric, e⟩ := s.loseWell_eq w cause
  rw [e]
  rfl

theorem State.lossNoted_onlyNotes (s : State) (w cause : Nat) : OnlyNotes s (s.lossNoted w cause) := by
  unfold State.lossNoted
  refine OnlyNotes.trans ?_ (State.setFld_onlyRegs ..).onlyNotes
  refine OnlyNotes.trans ?_ (State.report_eq ..)
  exact (((s.setFld_onlyRegs ..).trans (State.setFld_onlyRegs ..)).trans (State.setFld_onlyRegs ..)).onlyNotes

theorem Quiet.loseWell (h : Quiet p s t) (far : clearOfFc p) {w cause : Nat} (w_lt : w < 32)
    (others : ∀ o ∈ loseRegs, ¬p o) : Quiet p s (t.loseWell w cause) := by
  have noted : Quiet p t (t.lossNoted w cause) :=
    (((Quiet.refl.setFld (others _ (by decide))).setFld (others _ (by decide))).alert far).report far w_lt (by decide)
      |>.setFld (others _ (by decide))
  refine h.trans ⟨?_, fun o i => (t.reg_loseWell ..).trans (noted.regs o i)⟩
  obtain ⟨jobs, bobs, deques, fabric, e⟩ := t.loseWell_eq w cause
  rw [e]
  exact noted.mem

/-- A lost well reads LOST. -/
theorem State.wellState_loseWell (s : State) {w : Nat} (w_lt : w < 12) (cause : Nat) :
    (s.loseWell w cause).wellState w = 3 := by
  unfold State.wellState
  rw [State.fld, State.reg_loseWell, ← State.fld]
  unfold State.lossNoted
  have far : clearOfFc (· = rWhWellState) := fun o e => .inl (by rw [e]; decide)
  have rest := ((((Quiet.refl (p := (· = rWhWellState)) (s := s.setFld rWhWellState (2 * w + 25) (2 * w + 24) 3)).setFld
    (o := rWhWellLost) (hi := 4 * w + 3) (lo := 4 * w) (v := cause) (by decide)).alert far (bit := 10)).report far
    (src := w) (cls := 7) (sev := 2) (rsrc := w) (runit := 145) (unit := 145) (detail := cause) (by omega) (by decide)).setFld
    (o := rPmState) (hi := 3 * w + 2) (lo := 3 * w) (v := 7) (by decide)
  rw [rest.fld rfl, State.fld_setFld _ _ _ _ _ (by omega) (by omega),
    show 2 * w + 25 - (2 * w + 24) + 1 = 2 by omega]
  rfl

theorem State.events_loseWell (s : State) (w cause : Nat) : (s.loseWell w cause).events = s.events := by
  obtain ⟨regs, msix, last, noted⟩ := s.lossNoted_onlyNotes w cause
  obtain ⟨jobs, bobs, deques, fabric, e⟩ := s.loseWell_eq w cause
  rw [e, noted]

/-! ### Well commands (R779, R780) -/

/-- A command of WH_WELL_CMD taken: its FORCE and its well. -/
def State.wellAsked (s : State) (v : Word) : State :=
  (s.setFld rWhWellCmd 8 8 (bitsOf v 8 8)).setFld rWhWellCmd 7 4 (bitsOf v 7 4)

/-- A command of WH_WELL_CMD that is allowed, before its effect. -/
def State.wellTaken (s : State) (v : Word) : State := (s.wellAsked v).setFld rWhWellCmd 30 28 0

section
variable {v : Word} {op : Nat} {allowed : Nat → Bool} {f : State → Nat → State}

theorem State.wellCmd_of_busy (named : bitsOf v 1 0 = op) (busy : s.fld rWhWellCmd 31 31 = 1) :
    s.wellCmd v op allowed f = .next s := by
  unfold State.wellCmd
  rw [need_of (beq_iff_eq.mpr named), if_pos busy]

theorem State.wellCmd_of_done (named : bitsOf v 1 0 = op) (idle : s.fld rWhWellCmd 31 31 = 0)
    (w_lt : bitsOf v 7 4 < 12) (may : allowed (bitsOf v 7 4) = true) :
    s.wellCmd v op allowed f = .next (f (s.wellTaken v) (bitsOf v 7 4)) := by
  unfold State.wellCmd
  rw [need_of (beq_iff_eq.mpr named), if_neg (by omega)]
  exact congrArg Host.Outcome.next ((if_neg (by omega)).trans (if_pos may))

/-- A command of a well that is not there, or that its state does not allow. -/
theorem State.wellCmd_of_refused (named : bitsOf v 1 0 = op) (idle : s.fld rWhWellCmd 31 31 = 0)
    (refused : 12 ≤ bitsOf v 7 4 ∨ allowed (bitsOf v 7 4) = false) :
    ∃ t, s.wellCmd v op allowed f = .next t ∧ (bitsOf v 7 4 < 12 → t.fld rWhWellCmd 30 28 = 1)
      ∧ { t with regs := s.regs } = s ∧ ∀ o, o ≠ rWhWellCmd → t.reg o = s.reg o := by
  have asked : OnlyRegs s (s.wellAsked v) := (s.setFld_onlyRegs ..).trans (State.setFld_onlyRegs ..)
  have rest (o : Nat) (other : o ≠ rWhWellCmd) : (s.wellAsked v).reg o = s.reg o :=
    (State.reg_setFld_ne _ _ _ _ other).trans (State.reg_setFld_ne _ _ _ _ other)
  by_cases w_lt : bitsOf v 7 4 < 12
  · refine ⟨(s.wellAsked v).setFld rWhWellCmd 30 28 1, ?_, fun _ => ?_, (asked.trans (State.setFld_onlyRegs ..)).frame,
      fun o other => (State.reg_setFld_ne _ _ _ _ other).trans (rest o other)⟩
    · unfold State.wellCmd
      rw [need_of (beq_iff_eq.mpr named), if_neg (by omega)]
      exact congrArg Host.Outcome.next ((if_neg (by omega)).trans (if_neg (by rw [refused.resolve_left (by omega)]; decide)))
    · exact State.fld_setFld _ _ _ _ _ (by decide) (by decide)
  · refine ⟨s.wellAsked v, ?_, fun lt => absurd lt w_lt, asked.frame, rest⟩
    unfold State.wellCmd
    rw [need_of (beq_iff_eq.mpr named), if_neg (by omega)]
    exact congrArg Host.Outcome.next (if_pos (by omega))

end

/-- What a command that is taken leaves: its result is 0 and its well is named. -/
theorem State.wellTaken_leaves (s : State) (v : Word) : OnlyRegs s (s.wellTaken v)
    ∧ (s.wellTaken v).fld rWhWellCmd 30 28 = 0 ∧ (s.wellTaken v).fld rWhWellCmd 7 4 = bitsOf v 7 4
    ∧ ∀ o, o ≠ rWhWellCmd → (s.wellTaken v).reg o = s.reg o := by
  refine ⟨((s.setFld_onlyRegs ..).trans (State.setFld_onlyRegs ..)).trans (State.setFld_onlyRegs ..), ?_, ?_, fun o other => ?_⟩
  · exact (State.fld_setFld _ _ _ _ _ (by decide) (by decide)).trans rfl
  · have lt : bitsOf v 7 4 < 16 := bitsOf_lt ..
    refine (State.fld_setFld_of_apart _ (by decide) (by decide) (by decide) (.inl (by decide))).trans ?_
    refine (State.fld_setFld _ _ _ _ _ (by decide) (by decide)).trans ?_
    exact Nat.mod_eq_of_lt lt
  · exact ((State.reg_setFld_ne _ _ _ _ other).trans (State.reg_setFld_ne _ _ _ _ other)).trans
      (State.reg_setFld_ne _ _ _ _ other)

/-- A job whose slot on well w is to be rebuilt. -/
def Job.fencedOn (w : Nat) (j : Job) : Job :=
  if j.wells.contains w && !(j.phase == JobPhase.committed) then { j with rebuild := true } else j

/-- The effect of FENCE. -/
def State.fenceEffect (s : State) (w : Nat) : State :=
  (({ s with jobs := s.jobs.map (Job.fencedOn w) } : State).setWellState w 1).reportSelf w 0x6 2 145 0

/-- A well under test, and the command under way. -/
def State.testMarked (s : State) (w : Nat) : State := (s.setWellState w 2).setFld rWhWellCmd 31 31 1

/-- The effect of TEST. -/
def State.testEffect (s : State) (w : Nat) : State :=
  (s.testMarked w).modPw (fun p =>
    if s.wellState w == 3 || decide (2 ≤ s.wellPm w) then { p with staging := p.staging ++ [w] }
    else { p with testing := p.testing ++ [(w, 2)] })

/-- A released well before it is judged. -/
def State.released (s : State) (w : Nat) : State := (((s.clearScratch w).mapBobbins w).setWellState w 0).setWellPm w 1

/-- The effect of RELEASE. -/
def State.releaseEffect (s : State) (w : Nat) : State := (s.released w).judgeWell w

theorem exec_wellCmdFence (v : Word) (s : State) : exec (.wellCmdFence v) s = s.wellCmd v 1
    (fun w => s.wellState w == 0 && (!s.slotHeld w || bitOf v 8)) State.fenceEffect := rfl

theorem exec_wellCmdTest (v : Word) (s : State) : exec (.wellCmdTest v) s = s.wellCmd v 2
    (fun w => (s.wellState w == 1 || s.wellState w == 3) && !s.pw.testing.any (fun t => t.1 == w)) State.testEffect := rfl

theorem exec_wellCmdRelease (v : Word) (s : State) : exec (.wellCmdRelease v) s = s.wellCmd v 3
    (fun w => s.wellState w == 1 && s.fld rWhWellState (48 + w) (48 + w) == 1) State.releaseEffect := rfl

/-- The commands of WH_WELL_CMD as one. -/
theorem exec_wellOp {i : Instr} {v : Word} {op : Nat} {may : Bool} (h : s.wellOp i = some (v, op, may)) :
    ∃ allowed f, allowed (bitsOf v 7 4) = may ∧ exec i s = s.wellCmd v op allowed f
      ∧ (op = 1 ∧ f = State.fenceEffect ∨ op = 2 ∧ f = State.testEffect ∨ op = 3 ∧ f = State.releaseEffect) := by
  unfold State.wellOp at h
  split at h
  next v' =>
    cases h
    exact ⟨_, _, rfl, exec_wellCmdFence .., .inl ⟨rfl, rfl⟩⟩
  next v' =>
    cases h
    exact ⟨_, _, rfl, exec_wellCmdTest .., .inr (.inl ⟨rfl, rfl⟩)⟩
  next v' =>
    cases h
    exact ⟨_, _, rfl, exec_wellCmdRelease .., .inr (.inr ⟨rfl, rfl⟩)⟩
  · cases h

theorem State.wellState_of_reg (h : t.reg rWhWellState = s.reg rWhWellState) (w : Nat) :
    t.wellState w = s.wellState w := by
  rw [State.wellState, State.fld, h, State.wellState, State.fld]

theorem State.wellState_setWellState (s : State) {w : Nat} (w_lt : w < 12) {v : Nat} (v_lt : v < 4) :
    (s.setWellState w v).wellState w = v := by
  unfold State.wellState State.setWellState
  rw [State.fld_setFld _ _ _ _ _ (by omega) (by omega), show 2 * w + 25 - (2 * w + 24) + 1 = 2 by omega]
  omega

theorem State.wellPm_setWellPm (s : State) {w : Nat} (w_lt : w < 12) {v : Nat} (v_lt : v < 8) :
    (s.setWellPm w v).wellPm w = v := by
  unfold State.wellPm State.setWellPm
  rw [State.fld_modPw, State.fld_setFld _ _ _ _ _ (by omega) (by omega), show 3 * w + 2 - 3 * w + 1 = 3 by omega]
  omega

/-- The register of the well command alone. -/
theorem clearOfFc_wellCmd : clearOfFc (· = rWhWellCmd) := fun o e => .inl (by rw [e]; decide)

theorem State.fenceEffect_leaves (s : State) {w : Nat} (w_lt : w < 12) : Quiet (· = rWhWellCmd) s (s.fenceEffect w)
    ∧ (s.fenceEffect w).wellState w = 1 ∧ ∀ j, (s.fenceEffect w).job j = (s.job j).map (Job.fencedOn w) := by
  unfold State.fenceEffect
  have marked : Quiet (· = rWhWellCmd) s { s with jobs := s.jobs.map (Job.fencedOn w) } := ⟨⟨rfl, rfl, rfl, rfl, rfl, rfl⟩,
    fun _ _ => rfl⟩
  generalize at_ : ({ s with jobs := s.jobs.map (Job.fencedOn w) } : State) = u at marked ⊢
  refine ⟨(marked.setFld (by decide)).reportSelf clearOfFc_wellCmd (by omega) (by decide), ?_, fun j => ?_⟩
  · have rest : Quiet (· = rWhWellState) (u.setWellState w 1) ((u.setWellState w 1).reportSelf w 0x6 2 145 0) :=
      Quiet.refl.reportSelf (fun o e => .inl (by rw [e]; decide)) (by omega) (by decide)
    exact (rest.fld rfl _ _).trans (u.wellState_setWellState w_lt (by decide))
  · have jobs : ((u.setWellState w 1).reportSelf w 0x6 2 145 0).jobs = s.jobs.map (Job.fencedOn w) :=
      ((State.reportSelf_onlyNotes ..).jobs.trans (u.setFld_onlyRegs ..).jobs).trans (by rw [← at_])
    rw [State.job, jobs, List.getElem?_map, State.job]

theorem State.wellState_modPw (s : State) (f : Power → Power) (w : Nat) : (s.modPw f).wellState w = s.wellState w :=
  State.wellState_of_reg (s.reg_modPw f _) w

theorem State.jobs_modPw (s : State) (f : Power → Power) : (s.modPw f).jobs = s.jobs := rfl

/-- A well under test is staged first if it sleeps. -/
theorem State.staged_or_tested (u : State) (w : Nat) (asleep : Bool) :
    (asleep = true → w ∈ (u.modPw (fun p => if asleep then { p with staging := p.staging ++ [w] }
      else { p with testing := p.testing ++ [(w, 2)] })).pw.staging)
    ∧ (asleep = false → (w, 2) ∈ (u.modPw (fun p => if asleep then { p with staging := p.staging ++ [w] }
      else { p with testing := p.testing ++ [(w, 2)] })).pw.testing) := by
  constructor
  · rintro rfl
    exact List.mem_append_right _ (List.mem_singleton_self w)
  · rintro rfl
    exact List.mem_append_right _ (List.mem_singleton_self (w, 2))

theorem State.testMarked_leaves (s : State) {w : Nat} (w_lt : w < 12) : OnlyRegs s (s.testMarked w)
    ∧ (s.testMarked w).fld rWhWellCmd 30 28 = s.fld rWhWellCmd 30 28
    ∧ (s.testMarked w).fld rWhWellCmd 7 4 = s.fld rWhWellCmd 7 4 ∧ (s.testMarked w).fld rWhWellCmd 31 31 = 1
    ∧ (s.testMarked w).wellState w = 2 := by
  have beside (hi lo : Nat) (order : lo ≤ hi) (below : hi < 31) :
      (s.testMarked w).fld rWhWellCmd hi lo = s.fld rWhWellCmd hi lo := by
    rw [State.testMarked, State.fld_setFld_of_apart _ (by decide) order (by omega) (.inl below), State.setWellState,
      State.fld_setFld_ne _ _ _ _ _ _ (by decide)]
  refine ⟨(s.setFld_onlyRegs ..).trans (State.setFld_onlyRegs ..), beside _ _ (by decide) (by decide),
    beside _ _ (by decide) (by decide), ?_, ?_⟩
  · exact State.fld_setFld _ _ _ _ _ (by decide) (by decide)
  · rw [State.testMarked, State.wellState_of_reg (State.reg_setFld_ne _ _ _ _ (by decide)),
      s.wellState_setWellState w_lt (by decide)]

theorem State.testEffect_leaves (s : State) {w : Nat} (w_lt : w < 12) : sameMem s (s.testEffect w)
    ∧ (s.testEffect w).fld rWhWellCmd 30 28 = s.fld rWhWellCmd 30 28
    ∧ (s.testEffect w).fld rWhWellCmd 7 4 = s.fld rWhWellCmd 7 4 ∧ (s.testEffect w).fld rWhWellCmd 31 31 = 1
    ∧ (s.testEffect w).wellState w = 2 ∧ (s.testEffect w).jobs = s.jobs
    ∧ (s.wellState w = 3 ∨ 2 ≤ s.wellPm w → w ∈ (s.testEffect w).pw.staging)
    ∧ (s.wellState w = 1 → s.wellPm w < 2 → (w, 2) ∈ (s.testEffect w).pw.testing) := by
  obtain ⟨only, result, well, busy, state⟩ := s.testMarked_leaves w_lt
  unfold State.testEffect
  generalize s.testMarked w = u at only result well busy state ⊢
  rw [State.fld_modPw, State.fld_modPw, State.fld_modPw, State.wellState_modPw, State.jobs_modPw]
  refine ⟨only.sameMem.trans (State.sameMem_modPw ..), result, well, busy, state, only.jobs, fun asleep => ?_,
    fun fenced awake => ?_⟩
  · exact (u.staged_or_tested w _).1 (by simpa using asleep)
  · exact (u.staged_or_tested w _).2 (by simp only [Bool.or_eq_false_iff, beq_eq_false_iff_ne, decide_eq_false_iff_not]; omega)

theorem State.mapBobbins_quiet (s : State) (w : Nat) :
    OnlyRegs s (s.mapBobbins w) ∧ ∀ o, o < 0x1000000 → (s.mapBobbins w).reg o = s.reg o := by
  have below {o : Nat} (lt : o < 0x1000000) (i : Nat) : o ≠ rWl w i := by
    have := le_rWl w i
    omega
  unfold State.mapBobbins
  extract_lets ok border regular low high phys mapped
  have maps : OnlyRegs s mapped ∧ ∀ o, o < 0x1000000 → mapped.reg o = s.reg o :=
    List.foldlRecOn (motive := fun t => OnlyRegs s t ∧ ∀ o, o < 0x1000000 → t.reg o = s.reg o) _ _
      ⟨.refl, fun _ _ => rfl⟩ fun t ⟨only, kept⟩ l _ =>
        ⟨only.setPhys, fun o lt => (State.reg_setFld_ne _ _ _ _ (below lt _)).trans (kept o lt)⟩
  exact List.foldlRecOn (motive := fun t => OnlyRegs s t ∧ ∀ o, o < 0x1000000 → t.reg o = s.reg o) _ _ maps
    fun t ⟨only, kept⟩ l _ =>
      ⟨only.setBobState, fun o lt => (State.reg_setFld_ne _ _ _ _ (below lt _)).trans (kept o lt)⟩

theorem State.event_clearScratch (s : State) {w k e : Nat} (k_lt : k < 64) (e_lt : e < 65536) :
    (s.clearScratch w).event w k e = 0 := by
  have own : ((w * 64 + k) * 65536 + e) / 65536 / 64 = w := by omega
  rw [State.event, State.clearScratch, tabGet_drop, own, if_pos (beq_self_eq_true w)]

theorem Quiet.judgeWell (h : Quiet p s t) (far : clearOfFc p) {w : Nat} (w_lt : w < 32)
    (others : ∀ o ∈ loseRegs, ¬p o) : Quiet p s (t.judgeWell w) := (h.loseWell far w_lt others).ite h

theorem State.event_of_events (h : t.events = s.events) (w k e : Nat) : t.event w k e = s.event w k e := by
  rw [State.event, h, State.event]

/-- A judged well is lost or stays as it is. -/
theorem State.judgeWell_leaves (s : State) {w : Nat} (w_lt : w < 12) :
    ((s.judgeWell w).wellState w = s.wellState w ∧ (s.judgeWell w).wellPm w = s.wellPm w ∨ (s.judgeWell w).wellState w = 3)
      ∧ (s.judgeWell w).events = s.events := by
  unfold State.judgeWell
  split
  · exact ⟨.inr (s.wellState_loseWell w_lt 2), s.events_loseWell w 2⟩
  · exact ⟨.inl ⟨rfl, rfl⟩, rfl⟩

theorem Quiet.setWellState (h : Quiet p s t) (other : ¬p rWhWellState) {w v : Nat} : Quiet p s (t.setWellState w v) :=
  h.setFld other

theorem Quiet.setWellPm (h : Quiet p s t) (other : ¬p rPmState) {w v : Nat} : Quiet p s (t.setWellPm w v) := by
  unfold State.setWellPm
  exact (h.setFld other).modPw

theorem State.setWellPm_onlyPower (s : State) (w v : Nat) : OnlyPower s (s.setWellPm w v) := by
  unfold State.setWellPm
  exact (s.setFld_onlyRegs ..).onlyPower.trans (State.modPw_onlyPower ..)

theorem State.wellState_setWellPm (s : State) (w v k : Nat) : (s.setWellPm w v).wellState k = s.wellState k := by
  unfold State.setWellPm
  rw [State.wellState_modPw, State.wellState_of_reg (State.reg_setFld_ne _ _ _ _ (by decide))]

theorem OnlyPower.events (h : OnlyPower s t) : t.events = s.events := (congrArg State.events h.frame :)

theorem State.released_leaves (s : State) {w : Nat} (w_lt : w < 12) : Quiet (· = rWhWellCmd) s (s.released w)
    ∧ (s.released w).wellState w = 0 ∧ (s.released w).wellPm w = 1
    ∧ ∀ k e, k < 64 → e < 65536 → (s.released w).event w k e = 0 := by
  have cleared : Quiet (· = rWhWellCmd) s (s.clearScratch w) := ⟨⟨rfl, rfl, rfl, rfl, rfl, rfl⟩, fun _ _ => rfl⟩
  have none_ (k e : Nat) (k_lt : k < 64) (e_lt : e < 65536) := s.event_clearScratch (w := w) k_lt e_lt
  unfold State.released
  generalize s.clearScratch w = u at cleared none_ ⊢
  obtain ⟨only, kept⟩ := u.mapBobbins_quiet w
  have mapped : Quiet (· = rWhWellCmd) s (u.mapBobbins w) :=
    cleared.trans ⟨only.sameMem, fun o e => kept o (by rw [e]; decide)⟩
  have powered : OnlyPower u (((u.mapBobbins w).setWellState w 0).setWellPm w 1) :=
    (only.trans (State.setFld_onlyRegs ..)).onlyPower.trans (State.setWellPm_onlyPower ..)
  refine ⟨(mapped.setWellState (by decide)).setWellPm (by decide), ?_, State.wellPm_setWellPm _ w_lt (by decide),
    fun k e k_lt e_lt => (State.event_of_events powered.events ..).trans (none_ k e k_lt e_lt)⟩
  rw [State.wellState_setWellPm, State.wellState_setWellState _ w_lt (by decide)]

theorem State.releaseEffect_leaves (s : State) {w : Nat} (w_lt : w < 12) : Quiet (· = rWhWellCmd) s (s.releaseEffect w)
    ∧ ((s.releaseEffect w).wellState w = 0 ∧ (s.releaseEffect w).wellPm w = 1 ∨ (s.releaseEffect w).wellState w = 3)
    ∧ ∀ e k, k < 64 → e < 65536 → (s.releaseEffect w).event w k e = 0 := by
  obtain ⟨quiet, state, pm, none_⟩ := s.released_leaves w_lt
  obtain ⟨judged, events⟩ := (s.released w).judgeWell_leaves w_lt
  unfold State.releaseEffect
  rw [state, pm] at judged
  exact ⟨quiet.judgeWell clearOfFc_wellCmd (by omega) (by decide), judged,
    fun e k k_lt e_lt => (State.event_of_events events ..).trans (none_ k e k_lt e_lt)⟩

theorem wellCommands_answer (i : Instr) (v : Word) (op : Nat) (may : Bool) (h : s.wellOp i = some (v, op, may))
    (named : bitsOf v 1 0 = op) (idle : s.fld rWhWellCmd 31 31 = 0) (w_lt : bitsOf v 7 4 < 12) (allowed : may = true) :
    ∃ t, exec i s = .next t ∧ t.fld rWhWellCmd 30 28 = 0 ∧ t.fld rWhWellCmd 7 4 = bitsOf v 7 4 ∧ sameMem s t
      ∧ (op = 1 → t.wellState (bitsOf v 7 4) = 1 ∧ ∀ j x, s.job j = some x →
          t.job j = some (if bitsOf v 7 4 ∈ x.wells ∧ x.phase ≠ .committed then { x with rebuild := true } else x))
      ∧ (op = 2 → t.wellState (bitsOf v 7 4) = 2 ∧ t.fld rWhWellCmd 31 31 = 1 ∧ t.jobs = s.jobs
          ∧ ((s.wellState (bitsOf v 7 4) = 3 ∨ 2 ≤ s.wellPm (bitsOf v 7 4)) → bitsOf v 7 4 ∈ t.pw.staging)
          ∧ (s.wellState (bitsOf v 7 4) = 1 → s.wellPm (bitsOf v 7 4) < 2 → (bitsOf v 7 4, 2) ∈ t.pw.testing))
      ∧ (op = 3 → (t.wellState (bitsOf v 7 4) = 0 ∧ t.wellPm (bitsOf v 7 4) = 1 ∨ t.wellState (bitsOf v 7 4) = 3)
          ∧ ∀ e k, k < 64 → e < 65536 → t.event (bitsOf v 7 4) k e = 0) := by
  obtain ⟨may', f, is, run, kinds⟩ := exec_wellOp h
  obtain ⟨only, result, well, kept⟩ := s.wellTaken_leaves v
  have state (w : Nat) : (s.wellTaken v).wellState w = s.wellState w := State.wellState_of_reg (kept _ (by decide)) w
  have pm (w : Nat) : (s.wellTaken v).wellPm w = s.wellPm w := by
    rw [State.wellPm, State.fld, kept _ (by decide), State.wellPm, State.fld]
  have jobs : (s.wellTaken v).jobs = s.jobs := only.jobs
  rw [run, State.wellCmd_of_done named idle w_lt (is.trans allowed)]
  generalize s.wellTaken v = u at only result well state pm jobs ⊢
  generalize bitsOf v 7 4 = w at *
  refine ⟨_, rfl, ?_⟩
  rcases kinds with ⟨rfl, rfl⟩ | ⟨rfl, rfl⟩ | ⟨rfl, rfl⟩
  · obtain ⟨quiet, fenced, marks⟩ := u.fenceEffect_leaves w_lt
    refine ⟨(quiet.fld rfl _ _).trans result, (quiet.fld rfl _ _).trans well, only.sameMem.trans quiet.mem,
      fun _ => ⟨fenced, fun j x job => ?_⟩, fun e => absurd e (by decide), fun e => absurd e (by decide)⟩
    rw [marks, State.job, jobs, ← State.job, job, Option.map_some, Job.fencedOn]
    congr 1
    simp
  · obtain ⟨mem, result', well', busy, tested, jobs', staged, direct⟩ := u.testEffect_leaves w_lt
    refine ⟨result'.trans result, well'.trans well, only.sameMem.trans mem, fun e => absurd e (by decide), fun _ =>
      ⟨tested, busy, jobs'.trans jobs, ?_, ?_⟩, fun e => absurd e (by decide)⟩
    · rw [← state, ← pm]
      exact staged
    · rw [← state, ← pm]
      exact direct
  · obtain ⟨quiet, state', none_⟩ := u.releaseEffect_leaves w_lt
    exact ⟨(quiet.fld rfl _ _).trans result, (quiet.fld rfl _ _).trans well, only.sameMem.trans quiet.mem,
      fun e => absurd e (by decide), fun e => absurd e (by decide), fun _ => ⟨state', none_⟩⟩

end

end Sys2Proof.Machine
end

section
/-!
SUPPORT. Reports, alerts, event counters and the sweep of the sensor chain, and the settlement of O60.
-/

namespace Sys2Proof.Machine

section
variable {s t : State}

/-! ### Reports (R759 to R762) -/

/-- A report of a record in use: counted, with the larger severity. -/
theorem State.report_of_valid {src cls : Nat} (sev rsrc runit unit detail : Nat)
    (valid_ : bitOf (s.reg (rFcRec (16 * src + cls))) 63 = true) :
    (s.report src cls sev rsrc runit unit detail).reg (rFcRec (16 * src + cls))
      = setBits (addSat (s.reg (rFcRec (16 * src + cls))) 47 32 1) 62 61
          (max sev (s.fld (rFcRec (16 * src + cls)) 62 61)) := by
  unfold State.report
  extract_lets r old valid rises t t1 t2
  have summary : rFcRec r ≠ rFcSummary := by simp only [rFcRec, rFcSummary]; omega
  have alert : rFcRec r ≠ rFcAlert := by simp only [rFcRec, rFcAlert]; omega
  have ht : t.reg (rFcRec r) = setBits (addSat old 47 32 1) 62 61 (max sev (bitsOf old 62 61)) := by
    unfold t
    rw [if_pos valid_, State.reg_setReg]
  have ht1 : t1.reg (rFcRec r) = t.reg (rFcRec r) := State.reg_setFld_ne _ _ _ _ summary
  have ht2 : t2.reg (rFcRec r) = t.reg (rFcRec r) := by
    unfold t2
    split
    · rw [State.alert, State.reg_setFld_ne _ _ _ _ alert, ht1]
    · exact ht1
  split
  · exact ht1.trans ht
  · split
    · rw [State.reg_fcSignal summary, ht2, ht]
      rfl
    · exact ht2.trans ht

theorem State.fld_fcSignal_summary (s : State) {src : Nat} (src_lt : src < 63) :
    s.fcSignal.fld rFcSummary src src = s.fld rFcSummary src src := by
  unfold State.fcSignal
  extract_lets quiet
  split
  · rfl
  · exact State.fld_setFld_of_apart _ (by decide) (Nat.le_refl _) (by omega) (.inl src_lt)

/-- The source of a report stands in the summary. -/
theorem State.fld_report_summary (s : State) {src : Nat} (src_lt : src < 63) (cls sev rsrc runit unit detail : Nat) :
    (s.report src cls sev rsrc runit unit detail).fld rFcSummary src src = 1 := by
  unfold State.report
  extract_lets r old valid rises t t1 t2
  have ht1 : t1.fld rFcSummary src src = 1 := by
    refine (State.fld_setFld _ _ _ _ _ (Nat.le_refl _) (by omega)).trans ?_
    rw [Nat.sub_self]
    rfl
  have ht2 : t2.fld rFcSummary src src = 1 := by
    unfold t2
    split
    · exact (State.fld_setFld_ne _ _ _ _ _ _ (by decide)).trans ht1
    · exact ht1
  split
  · exact ht1
  · split
    · exact (t2.fld_fcSignal_summary src_lt).trans ht2
    · exact ht2

theorem faultReport_records (s : State) (r : ReportIn) (class_ : r.cls.val ≠ 0) :
    let o := rFcRec (16 * r.src.val + r.cls.val)
    ∃ t, exec (.faultReport r) s = .next t ∧ sameMem s t ∧ t.jobs = s.jobs ∧ bitOf (t.reg o) 63 = true
      ∧ t.fld rFcSummary r.src.val r.src.val = 1
      ∧ (bitOf (s.reg o) 63 = false →
          t.fld o 62 61 = r.sev.val ∧ t.fld o 47 32 = 0 ∧ t.fld o 26 16 = r.runit.toNat
            ∧ t.reg (rFcTb (16 * r.src.val + r.cls.val)) = s.reg rPmTimebase)
      ∧ (bitOf (s.reg o) 63 = true →
          t.fld o 62 61 = max r.sev.val (s.fld o 62 61) ∧ t.fld o 47 32 = min (s.fld o 47 32 + 1) 65535) := by
  intro o
  have only : OnlyNotes s (s.report r.src r.cls r.sev r.rsrc r.runit.toNat r.unit.toNat r.detail.toNat) := s.report_eq ..
  have src_lt := r.src.isLt
  have sev_lt := r.sev.isLt
  have runit_lt := r.runit.isLt
  refine ⟨_, need_of (bne_iff_ne.mpr class_) 758 _, only.sameMem, only.jobs, s.report_valid .., s.fld_report_summary (by omega) ..,
    fun free => ?_, fun valid => ?_⟩
  · obtain ⟨-, sev, -, runit, -, -⟩ := State.fld_report_of_free (sev := r.sev.val) (rsrc := r.rsrc.val)
      (runit := r.runit.toNat) (unit := r.unit.toNat) (detail := r.detail.toNat) free
    obtain ⟨rec_, tb, -⟩ := State.report_of_free (sev := r.sev.val) (rsrc := r.rsrc.val)
      (runit := r.runit.toNat) (unit := r.unit.toNat) (detail := r.detail.toNat) free
    refine ⟨sev.trans (Nat.mod_eq_of_lt sev_lt), ?_, runit.trans (Nat.mod_eq_of_lt (by omega)), tb.trans ?_⟩
    · rw [State.fld, rec_]
      simp (disch := omega) only [bitsOf_setBits_of_apart]
      decide
    · rw [State.now, BitVec.ofNat_toNat, BitVec.setWidth_eq]
  · have sev := bitsOf_lt (s.reg o) 62 61
    rw [State.fld, State.fld, State.fld, State.fld, State.report_of_valid _ _ _ _ _ valid]
    simp (disch := omega) only [addSat, bitsOf_setBits_of_apart, bitsOf_setBits]
    show _ = max r.sev.val (bitsOf _ 62 61) ∧ _ = min (bitsOf _ 47 32 + 1) 65535
    exact ⟨Nat.mod_eq_of_lt (max_lt sev_lt sev), Nat.mod_eq_of_lt (lt_of_le_of_lt (Nat.min_le_right ..) (by decide))⟩

theorem fcRecordClear_frees (s : State) (i : Fin 512) : ∃ t, exec (.fcRecordClear i) s = .next t ∧ { t with regs := s.regs } = s
    ∧ bitOf (t.reg (rFcRec i)) 63 = false ∧ ∀ k, k < 512 → k ≠ i.val → t.reg (rFcRec k) = s.reg (rFcRec k) := by
  have i_lt := i.isLt
  have summary (k : Nat) : rFcRec k ≠ rFcSummary := by simp only [rFcRec, rFcSummary]; omega
  refine ⟨s.clearRecord i, rfl, (((s.setFld_onlyRegs ..).trans (State.setFld_onlyRegs ..)).trans
    (State.setFld_onlyRegs ..)).frame, ?_, fun k k_lt other => ?_⟩
  · rw [State.clearRecord, State.syncSource, State.reg_setFld_ne _ _ _ _ (summary _), State.setFld, State.reg_setReg,
      bitOf_setBits_of_lt (by decide) (by decide) (by decide), bitOf_eq_decide_bitsOf, State.setFld, State.reg_setReg,
      bitsOf_setBits _ _ _ _ (by decide) (by decide)]
    decide
  · have apart : rFcRec k ≠ rFcRec i := by simp only [rFcRec]; omega
    rw [State.clearRecord, State.syncSource, State.reg_setFld_ne _ _ _ _ (summary _), State.reg_setFld_ne _ _ _ _ apart,
      State.reg_setFld_ne _ _ _ _ apart]

theorem State.reg_signal (s : State) (f vec o : Nat) : (s.signal f vec).reg o = s.reg o := rfl

theorem State.msix_signal (s : State) (f vec : Nat) : (s.signal f vec).msix = (f, vec) :: s.msix := rfl

theorem State.msix_setFld (s : State) (o hi lo v : Nat) : (s.setFld o hi lo v).msix = s.msix := rfl

/-- The collector's interrupt that waited, signalled. -/
def State.heldSignalled (s : State) : State := (s.setFld rFcSummary 63 63 0).signal 0 (s.fld rFcCtl 31 24)

/-- The time of the collector's interrupt noted. -/
def State.collectorStamped (s : State) : State := { s with fcLast := some s.now }

theorem exec_fcHoldoffExpiry
    (may : (s.fld rFcSummary 63 63 == 1 && s.fcLast.all (fun t => decide (t + s.holdoff ≤ s.now))) = true) :
    exec .fcHoldoffExpiry s = .next s.heldSignalled.collectorStamped := by
  show execFcHoldoffExpiry s = _
  unfold execFcHoldoffExpiry
  rw [need_of may]
  rfl

theorem State.heldSignalled_leaves (s : State) : s.heldSignalled.fld rFcSummary 63 63 = 0
    ∧ s.heldSignalled.now = s.now ∧ s.heldSignalled.msix = (0, s.fld rFcCtl 31 24) :: s.msix := by
  unfold State.heldSignalled
  refine ⟨?_, ?_, ?_⟩
  · rw [State.fld, State.reg_signal, ← State.fld, State.fld_setFld _ _ _ _ _ (by decide) (by decide), Nat.zero_mod]
  · rw [State.now, State.reg_signal, State.reg_setFld_ne _ _ _ _ (by decide), State.now]
  · rw [State.msix_signal, State.msix_setFld]

/-- The collector may signal once its hold-off is over. -/
theorem State.fcLast_all (s : State) (due : ∀ t0, s.fcLast = some t0 → t0 + s.holdoff ≤ s.now) :
    s.fcLast.all (fun t => decide (t + s.holdoff ≤ s.now)) = true := by
  rw [Option.all_eq_true]
  exact fun t0 last => decide_eq_true (due t0 last)

theorem State.collectorStamped_leaves (s : State) : OnlyNotes s s.collectorStamped
    ∧ s.collectorStamped.regs = s.regs ∧ s.collectorStamped.fcLast = some s.now ∧ s.collectorStamped.msix = s.msix :=
  ⟨⟨_, _, _, rfl⟩, rfl, rfl, rfl⟩

/-- The collector's interrupt that waited is signalled. -/
theorem fcHoldoffExpiry_signals (s : State) (waits : s.fld rFcSummary 63 63 = 1)
    (due : ∀ t0, s.fcLast = some t0 → t0 + s.holdoff ≤ s.now) :
    ∃ t, exec .fcHoldoffExpiry s = .next t ∧ t.fld rFcSummary 63 63 = 0 ∧ t.fcLast = some s.now
      ∧ t.msix = (0, s.fld rFcCtl 31 24) :: s.msix := by
  have run := exec_fcHoldoffExpiry (s := s) (by rw [waits, s.fcLast_all due]; rfl)
  obtain ⟨summary, now, signalled⟩ := s.heldSignalled_leaves
  obtain ⟨-, regs, last, msix⟩ := s.heldSignalled.collectorStamped_leaves
  refine ⟨_, run, ?_, last.trans (congrArg some now), msix.trans signalled⟩
  rw [State.fld, State.reg_of_regs regs, ← State.fld, summary]

theorem fcAlertClear_clears (s : State) (v : Word) : ∃ t, exec (.fcAlertClear v) s = .next t
    ∧ t.reg rFcAlert = s.reg rFcAlert &&& ~~~v ∧ { t with regs := s.regs } = s
    ∧ ∀ o, o ≠ rFcAlert → t.reg o = s.reg o :=
  ⟨_, rfl, s.reg_setReg _ _, (s.setReg_onlyRegs _ _).frame, fun _ other => s.reg_setReg_ne _ other⟩

/-! ### Event counters (R770 to R772) -/

/-- Writes of 0 to the counters of a list. -/
theorem State.clearCounters_leaves (l : List Nat) (s : State) :
    OnlyRegs s (l.foldl (fun (t : State) n => t.setReg (rEvCnt n) 0#64) s)
      ∧ (∀ n ∈ l, (l.foldl (fun (t : State) n => t.setReg (rEvCnt n) 0#64) s).reg (rEvCnt n) = 0#64)
      ∧ ∀ o, o < rEvCnt 0 → (l.foldl (fun (t : State) n => t.setReg (rEvCnt n) 0#64) s).reg o = s.reg o := by
  have kept (o : Nat) (l : List Nat) (s : State) (start : s.reg o = 0#64) :
      (l.foldl (fun (t : State) n => t.setReg (rEvCnt n) 0#64) s).reg o = 0#64 :=
    List.foldlRecOn (motive := fun t => t.reg o = 0#64) _ _ start fun (t : State) ht n _ => by
      by_cases same : o = rEvCnt n
      · rw [same, State.reg_setReg]
      · rw [State.reg_setReg_ne _ _ same, ht]
  induction l generalizing s with
  | nil => exact ⟨.refl, fun _ mem => absurd mem List.not_mem_nil, fun _ _ => rfl⟩
  | cons a l ih =>
    obtain ⟨only, zero, rest⟩ := ih (s.setReg (rEvCnt a) 0#64)
    refine ⟨(s.setReg_onlyRegs _ _).trans only, fun n mem => ?_, fun o lt => (rest o lt).trans (State.reg_setReg_ne _ _ ?_)⟩
    · rcases List.mem_cons.mp mem with rfl | mem
      · exact kept _ l _ (State.reg_setReg ..)
      · exact zero n mem
    · simp only [rEvCnt] at lt ⊢
      omega

theorem evFreeze_freezes (s : State) (v : Word) (freeze : bitOf v 1 = true) (clear : bitOf v 0 = false) :
    ∃ t, exec (.evFreeze v) s = .next t ∧ t.fld rEvGlobal 1 1 = 1 ∧ { t with regs := s.regs } = s
      ∧ ∀ n, n < 96 → t.reg (rEvCnt n) = s.reg (rEvCnt n) := by
  have set_ : bitsOf v 1 1 = 1 := by simpa [bitOf_eq_decide_bitsOf] using freeze
  refine ⟨s.setFld rEvGlobal 1 1 (bitsOf v 1 1), (need_of freeze 772 _).trans (congrArg Host.Outcome.next ?_), ?_,
    (s.setFld_onlyRegs ..).frame, fun n _ => State.reg_setFld_ne _ _ _ _ (by simp only [rEvCnt, rEvGlobal]; omega)⟩
  · exact if_neg (by rw [clear]; decide)
  · exact (State.fld_setFld _ _ _ _ _ (by decide) (by decide)).trans (by rw [set_]; rfl)

theorem evClear_clears (s : State) (v : Word) (clear : bitOf v 0 = true) :
    ∃ t, exec (.evClear v) s = .next t ∧ t.fld rEvGlobal 1 1 = bitsOf v 1 1 ∧ { t with regs := s.regs } = s
      ∧ ∀ n, n < 96 → t.reg (rEvCnt n) = 0#64 := by
  obtain ⟨only, zero, rest⟩ := State.clearCounters_leaves (List.range 96) (s.setFld rEvGlobal 1 1 (bitsOf v 1 1))
  refine ⟨_, (need_of clear 772 _).trans (congrArg Host.Outcome.next (if_pos clear)), ?_,
    ((s.setFld_onlyRegs ..).trans only).frame, fun n lt => zero n (List.mem_range.mpr lt)⟩
  have lt : bitsOf v 1 1 < 2 := bitsOf_lt ..
  rw [State.fld, rest _ (by decide), ← State.fld, State.fld_setFld _ _ _ _ _ (by decide) (by decide)]
  exact Nat.mod_eq_of_lt lt

/-! ### The sweep of the sensor chain (R765 to R769) -/

/-- The record of a die in sweep n. -/
def dieWord (x : Sweep) (n d : Nat) : Word :=
  setBits (setBits (setBits 0#64 63 32 n) 31 22 (x.dies.getD d (0#10, 0#12)).1.toNat) 21 10
    (x.dies.getD d (0#10, 0#12)).2.toNat

/-- The timebase and the registers of the sensor chain. -/
def sensed (o : Nat) : Prop := o = rPmTimebase ∨ 0x50000 ≤ o ∧ o < 0x60000

theorem clearOfFc_sensed : clearOfFc sensed := fun o i => by
  simp only [sensed, rPmTimebase, rFcSummary] at *
  omega

theorem loseRegs_not_sensed : ∀ o ∈ loseRegs, ¬sensed o := by
  simp [loseRegs, sensed, rWhWellState, rWhWellLost, rPmState, rPmTimebase]

theorem not_sensed_rPmWellStat {w : Nat} (w_lt : w < 12) : ¬sensed (rPmWellStat w) := by
  simp only [sensed, rPmWellStat, rPmTimebase]
  omega

/-- Records of dies written one by one. -/
theorem State.writeDies_leaves (f : Nat → Word) (l : List Nat) (s : State) :
    OnlyRegs s (l.foldl (fun (t : State) d => t.setReg (rScDie d) (f d)) s)
      ∧ (∀ d, (l.foldl (fun (t : State) d => t.setReg (rScDie d) (f d)) s).reg (rScDie d) = if d ∈ l then f d else s.reg (rScDie d))
      ∧ ∀ o, o < rScDie 0 → (l.foldl (fun (t : State) d => t.setReg (rScDie d) (f d)) s).reg o = s.reg o := by
  induction l generalizing s with
  | nil => exact ⟨.refl, fun _ => rfl, fun _ _ => rfl⟩
  | cons a l ih =>
    obtain ⟨only, dies, rest⟩ := ih (s.setReg (rScDie a) (f a))
    refine ⟨(s.setReg_onlyRegs _ _).trans only, fun d => (dies d).trans ?_, fun o lt =>
      (rest o lt).trans (State.reg_setReg_ne _ _ ?_)⟩
    · by_cases same : d = a
      · subst same
        simp
      · have apart : rScDie d ≠ rScDie a := by simp only [rScDie]; omega
        simp [same, State.reg_setReg_ne _ _ apart]
    · simp only [rScDie] at lt ⊢
      omega

/-- What a sweep collects. -/
theorem State.collect_leaves (s : State) (x : Sweep) {n : Nat} (n_lt : n < 2 ^ 32) : OnlyRegs s (s.collect x n)
    ∧ (s.collect x n).fld rScSweep 63 32 = n ∧ (s.collect x n).fld rScSweep 15 0 = x.dur.toNat
    ∧ (s.collect x n).fld rScCoolant 15 0 = x.inlet.toNat ∧ (s.collect x n).fld rScCoolant 31 16 = x.outlet.toNat
    ∧ (∀ d, (s.collect x n).reg (rScDie d)
        = if d ∈ s.sought.filter s.reached then dieWord x n d else s.reg (rScDie d))
    ∧ (s.collect x n).reg rPmTimebase = s.reg rPmTimebase := by
  unfold State.collect
  extract_lets missed brk brk' t
  have only : OnlyRegs s t := ((s.setReg_onlyRegs ..).trans (State.setReg_onlyRegs ..)).trans (State.setReg_onlyRegs ..)
  have sweep : t.reg rScSweep = setBits (setBits 0#64 63 32 n) 15 0 x.dur.toNat := by
    unfold t
    rw [State.reg_setReg_ne _ _ (by decide), State.reg_setReg_ne _ _ (by decide), State.reg_setReg]
  have coolant : t.reg rScCoolant
      = setBits (setBits (setBits 0#64 63 32 n) 31 16 x.outlet.toNat) 15 0 x.inlet.toNat := State.reg_setReg ..
  have rest (o : Nat) (h : o ≠ rScSweep) (h' : o ≠ rScBreak) (h'' : o ≠ rScCoolant) : t.reg o = s.reg o := by
    unfold t
    rw [State.reg_setReg_ne _ _ h'', State.reg_setReg_ne _ _ h', State.reg_setReg_ne _ _ h]
  obtain ⟨only', dies, low⟩ := State.writeDies_leaves (dieWord x n) (s.sought.filter s.reached) t
  have dur := x.dur.isLt
  have inlet := x.inlet.isLt
  have outlet := x.outlet.isLt
  have apart (d : Nat) : t.reg (rScDie d) = s.reg (rScDie d) :=
    rest _ (by simp only [rScDie, rScSweep]; omega) (by simp only [rScDie, rScBreak]; omega)
      (by simp only [rScDie, rScCoolant]; omega)
  refine ⟨only.trans only', ?_, ?_, ?_, ?_, fun d => (dies d).trans (by rw [apart]),
    (low _ (by decide)).trans (rest _ (by decide) (by decide) (by decide))⟩
  · refine (congrArg (bitsOf · 63 32) ((low _ (by decide)).trans sweep)).trans ?_
    simp (disch := omega) only [bitsOf_setBits_of_apart, bitsOf_setBits]
    omega
  · refine (congrArg (bitsOf · 15 0) ((low _ (by decide)).trans sweep)).trans ?_
    simp (disch := omega) only [bitsOf_setBits]
    omega
  · refine (congrArg (bitsOf · 15 0) ((low _ (by decide)).trans coolant)).trans ?_
    simp (disch := omega) only [bitsOf_setBits]
    omega
  · refine (congrArg (bitsOf · 31 16) ((low _ (by decide)).trans coolant)).trans ?_
    simp (disch := omega) only [bitsOf_setBits_of_apart, bitsOf_setBits]
    omega

theorem bitsOf_dieWord (x : Sweep) {n : Nat} (n_lt : n < 2 ^ 32) (d : Nat) : bitsOf (dieWord x n d) 63 32 = n
    ∧ bitsOf (dieWord x n d) 31 22 = (x.dies.getD d (0#10, 0#12)).1.toNat := by
  have lt := (x.dies.getD d (0#10, 0#12)).1.isLt
  unfold dieWord
  simp (disch := omega) only [bitsOf_setBits_of_apart, bitsOf_setBits]
  omega

theorem State.missDie_quiet (s : State) {d : Nat} (d_lt : d < 25) : Quiet sensed s (s.missDie d) := by
  unfold State.missDie
  extract_lets n u u2 w
  have noted : Quiet sensed s u := Quiet.refl.modPw.report clearOfFc_sensed (by decide) (by decide)
  have w_lt : w < 32 := by
    unfold w
    omega
  exact noted.ite (((noted.alert clearOfFc_sensed).loseWell clearOfFc_sensed w_lt loseRegs_not_sensed).ite
    (noted.alert clearOfFc_sensed))

theorem State.countMisses_quiet (s : State) (reached : List Nat) {missed : List Nat} (small : ∀ d ∈ missed, d < 25) :
    Quiet sensed s (s.countMisses reached missed) :=
  (Quiet.refl.foldl reached fun _ _ _ => Quiet.refl.modPw).foldl missed fun u d mem => u.missDie_quiet (small d mem)

theorem State.setVarray_quiet (s : State) {w : Nat} (w_lt : w < 12) (mv limit : Nat) :
    Quiet sensed s (s.setVarray w mv limit) :=
  (Quiet.refl.setFld (not_sensed_rPmWellStat w_lt)).setFld (not_sensed_rPmWellStat w_lt)

theorem State.thermalWell_quiet (s : State) {w : Nat} (w_lt : w < 12) (cur : Bool) :
    Quiet sensed s (s.thermalWell w cur) := by
  unfold State.thermalWell
  extract_lets mv tj u
  have warm : Quiet sensed s u := Quiet.refl.modPw.setFld (not_sensed_rPmWellStat w_lt)
  exact (warm.trans (u.setVarray_quiet w_lt ..)).ite (warm.trans (u.setVarray_quiet w_lt ..))

theorem State.warn_quiet (s : State) (l : List Nat) : Quiet sensed s (s.warn l) := by
  cases l with
  | nil => exact .refl
  | cons d l => exact (Quiet.refl.modPw.alert clearOfFc_sensed).reportSelf clearOfFc_sensed (by decide) (by decide)

/-- The number of the next sweep. -/
def State.sweepNumber (s : State) : Nat := (s.fld rScSweep 63 32 + 1) % 2 ^ 32

/-- A sweep collected, and its misses counted. -/
def State.sweepCounted (s : State) (x : Sweep) : State :=
  (s.collect x s.sweepNumber).countMisses (s.sought.filter s.reached) (s.sought.filter (fun d => !s.reached d))

/-- The supplies after a sweep. -/
def State.sweepSupplied (s : State) (x : Sweep) : State :=
  if s.sweepsOne then s.sweepCounted x
  else (s.sweepCounted x).supplied.foldl
    (fun (t : State) w => t.thermalWell w ((s.sought.filter s.reached).contains (1 + 2 * w))) (s.sweepCounted x)

/-- The warning after a sweep. -/
def State.sweepWarned (s : State) (x : Sweep) : State :=
  (s.sweepSupplied x).warn ((s.sweepSupplied x).warnDies (s.sought.filter s.reached))

/-- The wake source after a sweep. -/
def State.sweepWoken (s : State) (x : Sweep) : State :=
  if (s.sweepWarned x).rosePast s then (s.sweepWarned x).setFld rPmWake 5 5 1 else s.sweepWarned x

/-- The hops of the sweep that has ended are forgotten. -/
def Power.swept (p : Power) (now : Nat) (edge : Bool) : Power :=
  { p with sweepAt := now, hopAsc := none, hopDesc := none, thermal := edge }

theorem exec_sensorSweep {x : Sweep} (senses : s.senses = true) (due : s.sweepDue = true) (dies : x.dies.length = 25) :
    exec (.sensorSweep x) s = .next ((s.sweepWoken x).modPw (fun p => p.swept (s.sweepWoken x).now ((s.sweepWarned x).rosePast s))) :=
  need_of (by rw [senses, due, decide_eq_true dies]; rfl) 766 _

theorem State.lt_of_mem_sought {d : Nat} (mem : d ∈ s.sought) : d < 25 := by
  unfold State.sought at mem
  split at mem
  · simp at mem
    omega
  · exact List.mem_range.mp mem

theorem State.sweepWoken_quiet (s : State) (x : Sweep) : Quiet sensed (s.collect x s.sweepNumber) (s.sweepWoken x) := by
  have counted : Quiet sensed (s.collect x s.sweepNumber) (s.sweepCounted x) :=
    State.countMisses_quiet _ _ fun d mem => State.lt_of_mem_sought (List.mem_filter.mp mem).1
  have supplied : Quiet sensed (s.collect x s.sweepNumber) (s.sweepSupplied x) :=
    counted.ite (counted.foldl _ fun u w mem => u.thermalWell_quiet (List.mem_range.mp (List.mem_filter.mp mem).1) _)
  have warned : Quiet sensed (s.collect x s.sweepNumber) (s.sweepWarned x) := supplied.trans (State.warn_quiet ..)
  exact (warned.setFld (by simp [sensed, rPmWake, rPmTimebase])).ite warned

theorem sensorSweep_collects (s : State) (senses : s.senses = true) (x : Sweep) (due : s.sweepDue = true)
    (dies : x.dies.length = 25) :
    ∃ t, exec (.sensorSweep x) s = .next t ∧ sameMem s t
      ∧ t.fld rScSweep 63 32 = (s.fld rScSweep 63 32 + 1) % 2 ^ 32 ∧ t.fld rScSweep 15 0 = x.dur.toNat
      ∧ t.fld rScCoolant 15 0 = x.inlet.toNat ∧ t.fld rScCoolant 31 16 = x.outlet.toNat
      ∧ (∀ d ∈ s.sought, s.reached d = true →
          t.fld (rScDie d) 63 32 = t.fld rScSweep 63 32 ∧ t.fld (rScDie d) 31 22 = (x.dies.getD d (0#10, 0#12)).1.toNat)
      ∧ (∀ d < 25, (d ∉ s.sought ∨ s.reached d = false) → t.reg (rScDie d) = s.reg (rScDie d))
      ∧ t.pw.sweepAt = s.now ∧ t.pw.hopAsc = none ∧ t.pw.hopDesc = none := by
  have n_lt : s.sweepNumber < 2 ^ 32 := Nat.mod_lt _ (by decide)
  have run := exec_sensorSweep (x := x) senses due dies
  have quiet := s.sweepWoken_quiet x
  obtain ⟨only, number, dur, inlet, outlet, records, timebase⟩ := s.collect_leaves x n_lt
  have now : (s.sweepWoken x).now = s.now := by
    rw [State.now, quiet.regs _ (.inl rfl), timebase, State.now]
  have mem : sameMem s (s.sweepWoken x) := only.sameMem.trans quiet.mem
  generalize s.sweepWoken x = u at run quiet now mem
  generalize (s.sweepWarned x).rosePast s = edge at run
  have chain (d : Nat) (lt : d < 25) : sensed (rScDie d) := by
    simp only [sensed, rScDie]
    omega
  have sweep : u.fld rScSweep 63 32 = s.sweepNumber := (quiet.fld (.inr (by decide)) _ _).trans number
  refine ⟨_, run, mem.trans (State.sameMem_modPw ..), sweep, (quiet.fld (.inr (by decide)) _ _).trans dur,
    (quiet.fld (.inr (by decide)) _ _).trans inlet, (quiet.fld (.inr (by decide)) _ _).trans outlet,
    fun d sought reached => ?_, fun d lt unread => ?_, now, rfl, rfl⟩
  · obtain ⟨stamp, tj⟩ := bitsOf_dieWord x n_lt d
    have word : u.reg (rScDie d) = dieWord x s.sweepNumber d :=
      (quiet.regs _ (chain d (State.lt_of_mem_sought sought))).trans
        ((records d).trans (if_pos (List.mem_filter.mpr ⟨sought, reached⟩)))
    rw [State.fld_modPw, State.fld_modPw, State.fld_modPw, sweep, State.fld, word, stamp, State.fld, word, tj]
    exact ⟨rfl, rfl⟩
  · rw [State.reg_modPw, quiet.regs _ (chain d lt), records, if_neg]
    rw [List.mem_filter]
    rintro ⟨sought, reached⟩
    rcases unread with out | missed
    · exact out sought
    · rw [missed] at reached
      exact absurd reached (by decide)

/-! ### Hops that do not answer (R767) -/

/-- A hop that does not answer, named by the die beyond it. -/
def State.hopNoted (s : State) (f : Power → Power) (die h : Nat) : State :=
  (s.modPw f).report 20 0xC 0 20 0 die h

theorem State.hopNoted_leaves (s : State) (f : Power → Power) (die h : Nat) :
    OnlyNotes (s.modPw f) (s.hopNoted f die h) ∧ (s.hopNoted f die h).devicePm = s.devicePm := by
  refine ⟨State.report_eq .., ?_⟩
  have quiet : Quiet (· = rPmState) (s.modPw f) (s.hopNoted f die h) :=
    Quiet.refl.report (fun o e => .inl (by rw [e]; decide)) (by decide) (by decide)
  rw [State.devicePm, quiet.fld rfl, State.fld_modPw, State.devicePm]

theorem State.reached_of {a : Nat} {e : Option Nat} (all : s.sweepsOne = false) (asc : s.pw.hopAsc = some a)
    (desc : s.pw.hopDesc = e) (d : Nat) : s.reached d = (decide (d ≤ a) || e.all (fun e => decide (e < d))) := by
  rw [State.reached, all, asc, desc]
  rfl

/-- A hop of the ascending chain that does not answer. -/
theorem sensorHopTimeout_ascending (s : State) (senses : s.senses = true) (h : Fin 25) (all : s.sweepsOne = false)
    (asc : s.pw.hopAsc = none) (inner : h.val < 24) :
    ∃ t, exec (.sensorHopTimeout h true) s = .next t ∧ t.pw = { s.pw with hopAsc := some h.val } ∧ sameMem s t
      ∧ t.jobs = s.jobs ∧ (s.pw.hopDesc = none → ∀ d, t.reached d = true) := by
  obtain ⟨only, device⟩ := s.hopNoted_leaves (fun p => { p with hopAsc := some h.val }) (h.val + 1) h
  have run : exec (.sensorHopTimeout h true) s
      = .next (s.hopNoted (fun p => { p with hopAsc := some h.val }) (h.val + 1) h) :=
    need_of (by rw [senses, all, asc, if_pos rfl, decide_eq_true inner]; rfl) 767 _
  generalize s.hopNoted (fun p => { p with hopAsc := some h.val }) (h.val + 1) h = t at only device run
  have pw : t.pw = { s.pw with hopAsc := some h.val } := only.pw
  have all' : t.sweepsOne = false := by
    rw [State.sweepsOne, device, pw]
    exact all
  refine ⟨t, run, pw, (s.sameMem_modPw _).trans only.sameMem, only.jobs, fun desc d => ?_⟩
  rw [State.reached_of all' (congrArg Power.hopAsc pw) ((congrArg Power.hopDesc pw).trans desc)]
  simp

/-- A second hop, of the descending chain, that does not answer. -/
theorem sensorHopTimeout_descending (s : State) (senses : s.senses = true) (h : Fin 25) (all : s.sweepsOne = false)
    {a : Nat} (asc : s.pw.hopAsc = some a) (desc : s.pw.hopDesc = none) (beyond : a < h.val) :
    ∃ t, exec (.sensorHopTimeout h false) s = .next t ∧ t.pw = { s.pw with hopDesc := some h.val } ∧ sameMem s t
      ∧ t.jobs = s.jobs ∧ (∀ d, t.reached d = true ↔ d ≤ a ∨ h.val < d) := by
  obtain ⟨only, device⟩ := s.hopNoted_leaves (fun p => { p with hopDesc := some h.val }) h.val h
  have run : exec (.sensorHopTimeout h false) s
      = .next (s.hopNoted (fun p => { p with hopDesc := some h.val }) h.val h) :=
    need_of (by
      rw [senses, all, asc, desc, if_neg Bool.false_ne_true, Option.any_some, decide_eq_true beyond]
      rfl) 767 _
  generalize s.hopNoted (fun p => { p with hopDesc := some h.val }) h.val h = t at only device run
  have pw : t.pw = { s.pw with hopDesc := some h.val } := only.pw
  have all' : t.sweepsOne = false := by
    rw [State.sweepsOne, device, pw]
    exact all
  refine ⟨t, run, pw, (s.sameMem_modPw _).trans only.sameMem, only.jobs, fun d => ?_⟩
  rw [State.reached_of all' ((congrArg Power.hopAsc pw).trans asc) (congrArg Power.hopDesc pw)]
  simp

end

/-- Settles O60, from the rules of the well commands, of reports and of the sweep. -/
theorem wellsReportsAndSensorsAnswer : Obligations.WellsReportsAndSensorsAnswer := by
  refine ⟨fun s i v op may h named => ?_, fun s => ⟨faultReport_records s, fcRecordClear_frees s, fcHoldoffExpiry_signals s,
    fcAlertClear_clears s, fun v => ⟨evFreeze_freezes s v, evClear_clears s v⟩⟩, fun s senses =>
    ⟨fun x due dies => sensorSweep_collects s senses x due dies, fun h all =>
      ⟨sensorHopTimeout_ascending s senses h all, fun a asc desc beyond =>
        sensorHopTimeout_descending s senses h all asc desc beyond⟩⟩⟩
  obtain ⟨may', f, is, run, -⟩ := exec_wellOp h
  exact ⟨fun busy => run.trans (State.wellCmd_of_busy named busy),
    fun idle refused => by
      rw [run]
      exact State.wellCmd_of_refused named idle (by rwa [is]),
    fun idle w_lt allowed => wellCommands_answer i v op may h named idle w_lt allowed⟩

end Sys2Proof.Machine
end

section
/-!
SUPPORT. The registers of the pair through reports and messages, and the formation of the pair (R674 to R676; O54).
-/

namespace Sys2Proof.Machine

/-! ### The pair's registers -/

/-- The registers of the pair that its commands and its state stand in. -/
def pairReg (o : Nat) : Prop := rTlPairCtl ≤ o ∧ o ≤ rTlPairCmd

section
variable {p : Nat → Prop} {s t u : State}

theorem not_pairReg_of_lt {o : Nat} (h : o < rTlPairCtl) : ¬pairReg o := fun i => absurd i.1 (Nat.not_le_of_lt h)
theorem not_pairReg_of_gt {o : Nat} (h : rTlPairCmd < o) : ¬pairReg o := fun i => absurd i.2 (Nat.not_le_of_lt h)

theorem not_pairReg_rWl (w o : Nat) : ¬pairReg (rWl w o) :=
  not_pairReg_of_gt (lt_of_lt_of_le (by decide) (le_rWl w o))

theorem Quiet.incFld (h : Quiet p s t) {o hi lo n : Nat} (other : ¬p o) : Quiet p s (t.incFld o hi lo n) := h.setReg other

theorem Quiet.latch (h : Quiet p s t) {o : Nat} {v : Word} (other : ¬p o) : Quiet p s (t.latch o v) :=
  h.trans ⟨(t.onlyRegs_latch o v).sameMem, fun _ i => State.reg_latch_ne _ _ fun e => other (e ▸ i)⟩

/-- A change beside registers and memories. -/
theorem Quiet.beside (h : Quiet p s t) (mem : sameMem t u) (regs : u.regs = t.regs) : Quiet p s u :=
  h.trans ⟨mem, fun o _ => State.reg_of_regs regs o⟩

theorem Quiet.reportPair (h : Quiet pairReg s t) {src cls sev rsrc runit unit detail : Nat} (src_lt : src < 256)
    (cls_lt : cls < 16) : Quiet pairReg s (t.report src cls sev rsrc runit unit detail) := by
  have only : OnlyNotes t (t.report src cls sev rsrc runit unit detail) := t.report_eq ..
  refine h.trans ⟨only.sameMem, fun o i => State.reg_report fun mem => ?_⟩
  simp only [reportRegs, List.mem_cons, List.not_mem_nil, or_false, rFcRec, rFcTb, rFcDet, rFcSummary, rFcAlert] at mem
  simp only [pairReg, rTlPairCtl, rTlPairCmd] at i
  omega

theorem Quiet.countTier (h : Quiet pairReg s t) {who : Who} {l : Loc} {write : Bool} :
    Quiet pairReg s (t.countTier who l write) := by
  obtain ⟨tier, a⟩ := l
  cases tier with
  | cistern w => exact (h.incFld (not_pairReg_rWl w _)).latch (not_pairReg_rWl w _)
  | reservoir => exact (h.incFld (not_pairReg_of_lt (by decide))).latch (not_pairReg_of_lt (by decide))
  | aquifer => exact (h.incFld (not_pairReg_of_lt (by decide))).latch (not_pairReg_of_lt (by decide))
  | host => exact h

theorem Quiet.noteTier (h : Quiet pairReg s t) {who : Who} {rsrc runit : Nat} {l : Loc} {write : Bool}
    (named : l.Nameable) : Quiet pairReg s (t.noteTier who rsrc runit l write) :=
  h.countTier.reportPair (State.tierUnit_lt named) (by decide)

theorem Quiet.noteTable (h : Quiet pairReg s t) {ctx w va : Nat} : Quiet pairReg s (t.noteTable ctx w va) := by
  unfold State.noteTable
  split
  · exact h
  · exact ((h.incFld (not_pairReg_of_lt (by decide))).latch (not_pairReg_of_lt (by decide))).reportPair (by decide)
      (by decide)

theorem Quiet.noteTransBy (h : Quiet pairReg s t) {ctx w src unit : Nat} {e : AccErr} (src_lt : src < 256) :
    Quiet pairReg s (t.noteTransBy ctx w src unit e) := by
  unfold State.noteTransBy
  split
  next k lv va write =>
    extract_lets tabled level drawn v stamped latched
    have drawn_ : Quiet pairReg s drawn := (h.noteTable.ite h).beside ⟨rfl, rfl, rfl, rfl, rfl, rfl⟩ rfl
    have latched_ : Quiet pairReg s latched :=
      (drawn_.ite (drawn_.setReg (not_pairReg_of_lt (by decide)))).latch (not_pairReg_of_lt (by decide))
    exact latched_.reportPair src_lt (by decide)
  · exact h

theorem Quiet.noteHead (h : Quiet pairReg s t) {ctx src unit : Nat} {e : AccErr} (src_lt : src < 256)
    (named : e.Nameable) : Quiet pairReg s (t.noteHead ctx src unit e) := by
  cases e with
  | stall _ => exact h
  | tier _ l write => exact h.noteTier named
  | guard va => exact h.reportPair src_lt (by decide)
  | trans k level va write => exact Quiet.noteTransBy (e := .trans k level va write) h src_lt

theorem Quiet.told (h : Quiet p s t) (g : Told t u) : Quiet p s u :=
  h.beside g.answered.sameMem (congrArg State.regs g :)

/-! ### Messages -/

theorem Told.jobs (h : Told s t) : t.jobs = s.jobs := h.answered.jobs

theorem State.openRequest_pair (p peer op left : Nat) (job : Option Nat) :
    OptOk (fun t => t.pair = s.pair) (s.openRequest p peer op left job) := .map fun _ _ => rfl

theorem State.twinQown_tell (s : State) (m : PairMsg) : (s.tell m).pair.twinQown = s.pair.twinQown := by
  unfold State.tell
  extract_lets wait
  split
  · rfl
  · split
    · rfl
    · cases opened : s.openRequest 8 s.twinPeer 0x28 0 none with
      | none => rfl
      | some t =>
        show t.pair.twinQown = s.pair.twinQown
        rw [State.openRequest_pair _ _ _ _ _ t opened]

theorem State.tell_of_not_mirror (s : State) {m : PairMsg} (h : isMirror m = false) : s.tell m = s.tellNow m := by
  unfold State.tell
  rw [h]
  rfl

/-! ### What order 4 of formation leaves (R676) -/

/-- From s to t the pair's registers stay, with memories, jobs and the twin's queues. -/
structure Synced (s t : State) : Prop where
  quiet : Quiet pairReg s t
  jobs : t.jobs = s.jobs
  qown : t.pair.twinQown = s.pair.twinQown

theorem Synced.refl : Synced s s := ⟨.refl, rfl, rfl⟩

theorem Synced.trans (h : Synced s t) (g : Synced t u) : Synced s u :=
  ⟨h.quiet.trans g.quiet, g.jobs.trans h.jobs, g.qown.trans h.qown⟩

theorem Synced.tell (h : Synced s t) (m : PairMsg) : Synced s (t.tell m) :=
  h.trans ⟨Quiet.refl.told (State.tell_told m), (State.tell_told m).jobs, t.twinQown_tell m⟩

theorem Synced.foldl {α : Type} {f : State → α → State} (l : List α) (h : Synced s t)
    (step : ∀ u a, Synced s u → Synced s (f u a)) : Synced s (l.foldl f t) :=
  List.foldlRecOn (motive := Synced s) _ _ h fun u hu a _ => step u a hu

theorem Noted.pair (h : Noted s t) : t.pair = s.pair := (congrArg State.pair h.frame :)

theorem Synced.noteField (h : Synced s t) (ctx n va : Nat) : Synced s (t.noteField ctx n va) := by
  unfold State.noteField
  split
  · exact h
  next a failed =>
    have noted : Noted t (t.reportSelf 12 0x1 0 (16 + n) a) := State.report_noted ..
    exact h.trans ⟨Quiet.refl.reportPair (by decide) (by decide), noted.jobs, congrArg Pair.twinQown noted.pair⟩
  next e _ failed =>
    have noted : Noted t (t.noteHead ctx 12 (16 + n) e) := State.noteHead_noted ..
    exact h.trans ⟨Quiet.refl.noteHead (by decide) (State.readGuard64_errOk e failed), noted.jobs,
      congrArg Pair.twinQown noted.pair⟩

theorem Synced.judgeAreas (h : Synced s t) (ctx n : Nat) (areas : List Nat) :
    ExOk (Synced s) (t.judgeAreas ctx n areas) := by
  unfold State.judgeAreas
  refine .foldlM (fun u va hu => ?_) h
  split
  · exact .error
  · exact .ok (hu.noteField ctx n va)

theorem Synced.cpMirror (h : Synced s t) (ctx : Nat) (x : Job) (spans : List (Nat × Nat)) :
    ExOk (Synced s) (t.cpMirror ctx x spans) :=
  .foldlM (fun _ _ hu => .bindAny fun _ => .pure (hu.tell _)) h

theorem Synced.sendCheckpoint (h : Synced s t) (j : Nat) (x : Job) :
    ExOk (fun a => Synced s a.1) (t.sendCheckpoint j x) := by
  unfold State.sendCheckpoint
  extract_lets ctx valid
  split
  · exact .error
  next u judged =>
    have hu : Synced s u := h.judgeAreas ctx 0 (t.areasOf j) u judged
    split
    · exact .ok hu
    next c _ =>
      extract_lets spans
      split
      next v hd mirrored _ => exact .ok ((hu.cpMirror ctx x spans v mirrored).tell _)
      · exact .error
      · exact .ok hu

/-- SYNCING entered, nothing sent yet. -/
def State.syncBegun (s : State) : State :=
  (s.enterPair 2).modPair (fun p => { p with sentSync := false, gotSync := false, owed := 0 })

theorem State.pairState_enterPair (s : State) {st : Nat} (lt : st < 16) : (s.enterPair st).pairState = st := by
  rw [State.pairState, State.enterPair, State.fld_setFld _ _ _ _ _ (by decide) (by decide)]
  exact Nat.mod_eq_of_lt lt

theorem State.epoch_enterPair (s : State) (st : Nat) : (s.enterPair st).epoch = s.epoch := by
  rw [State.epoch, State.enterPair, State.fld_setFld_of_apart _ (by decide) (by decide) (by decide) (.inl (by decide)),
    State.epoch]

theorem State.fld_modPair (s : State) (f : Pair → Pair) (o hi lo : Nat) : (s.modPair f).fld o hi lo = s.fld o hi lo := rfl

theorem State.pairState_modPair (s : State) (f : Pair → Pair) : (s.modPair f).pairState = s.pairState := rfl
theorem State.epoch_modPair (s : State) (f : Pair → Pair) : (s.modPair f).epoch = s.epoch := rfl

theorem State.jobs_modPair (s : State) (f : Pair → Pair) : (s.modPair f).jobs = s.jobs := rfl
theorem State.pair_modPair (s : State) (f : Pair → Pair) : (s.modPair f).pair = f s.pair := rfl
theorem State.sameMem_modPair (s : State) (f : Pair → Pair) : Machine.sameMem s (s.modPair f) :=
  ⟨rfl, rfl, rfl, rfl, rfl, rfl⟩

theorem State.syncBegun_leaves (s : State) : s.syncBegun.pairState = 2 ∧ s.syncBegun.epoch = s.epoch
    ∧ sameMem s s.syncBegun ∧ s.syncBegun.jobs = s.jobs ∧ s.syncBegun.pair.twinQown = s.pair.twinQown := by
  have only : OnlyRegs s (s.enterPair 2) := s.setFld_onlyRegs ..
  unfold State.syncBegun
  rw [State.pairState_modPair, State.epoch_modPair, State.jobs_modPair, State.pair_modPair]
  have state := s.pairState_enterPair (st := 2) (by decide)
  have epoch := s.epoch_enterPair 2
  have qown : (s.enterPair 2).pair = s.pair := (congrArg State.pair only.frame :)
  generalize s.enterPair 2 = u at only state epoch qown ⊢
  exact ⟨state, epoch, only.sameMem.trans (State.sameMem_modPair ..), only.jobs, (congrArg Pair.twinQown qown :)⟩

theorem Synced.maybeSyncDone (h : Synced s t) : Synced s t.maybeSyncDone := by
  unfold State.maybeSyncDone
  split
  · have told := h.tell .syncDone
    exact ⟨told.quiet.beside ⟨rfl, rfl, rfl, rfl, rfl, rfl⟩ rfl, told.jobs, told.qown⟩
  · exact h

/-- One job's part of order 4. -/
def State.sendJob (a : State × Nat) (now : Nat) (e : Nat × Job) : State × Nat :=
  let t := (e.2.records now).foldl (fun (t : State) r => t.tell (.journal r none)) a.1
  let r := if e.2.isOpen then ((t.sendCheckpoint e.1 e.2).toOption).getD (t, 0) else (t, 0)
  (r.1, a.2 + (e.2.records now).length + r.2)

theorem Synced.sendJob {a : State × Nat} (h : Synced s a.1) (now : Nat) (e : Nat × Job) :
    Synced s (State.sendJob a now e).1 := by
  unfold State.sendJob
  extract_lets t r
  have ht : Synced s t := h.foldl _ fun u r hu => hu.tell _
  unfold r
  split
  · have sent := (ht.sendCheckpoint e.1 e.2).toOption
    cases got : (t.sendCheckpoint e.1 e.2).toOption with
    | none => exact ht
    | some b => exact sent b got
  · exact ht

/-- The jobs' part of order 4. -/
def State.syncSent (s : State) : State × Nat := s.syncJobs.foldl (fun a e => State.sendJob a s.now e) (s, 0)

/-- Queues that this member owns. -/
def State.ownQueues (s : State) : List Nat := (List.range 64).filter (fun q => bitOf (s.reg rTlPairQown) q)

/-- The queues' part of order 4, and what is owed. -/
def State.syncQueued (s : State) (n : Nat) : State :=
  (s.ownQueues.foldl (fun (t : State) q => t.tell (t.bareQueue q)) s).modPair
    (fun p => { p with owed := n + s.ownQueues.length })

theorem State.startSync_eq (s : State) :
    s.startSync = (s.syncBegun.syncSent.1.syncQueued s.syncBegun.syncSent.2).maybeSyncDone := rfl

theorem State.syncSent_synced (s : State) : Synced s s.syncSent.1 :=
  List.foldlRecOn (motive := fun a : State × Nat => Synced s a.1) _ _ .refl fun _ ha e _ => ha.sendJob _ e

theorem Synced.syncQueued (h : Synced s t) (n : Nat) : Synced s (t.syncQueued n) := by
  unfold State.syncQueued
  have told : Synced s (t.ownQueues.foldl (fun (t : State) q => t.tell (t.bareQueue q)) t) :=
    h.foldl _ fun _ _ hu => hu.tell _
  exact ⟨told.quiet.beside ⟨rfl, rfl, rfl, rfl, rfl, rfl⟩ rfl, told.jobs, told.qown⟩

theorem State.startSync_synced (s : State) : Synced s.syncBegun s.startSync := by
  rw [State.startSync_eq]
  exact (s.syncBegun.syncSent_synced.syncQueued _).maybeSyncDone

/-- The pair's state and epoch once SYNCING has begun. -/
theorem State.startSync_leaves (s : State) : s.startSync.pairState = 2 ∧ s.startSync.epoch = s.epoch
    ∧ sameMem s s.startSync ∧ s.startSync.jobs = s.jobs ∧ s.startSync.pair.twinQown = s.pair.twinQown := by
  have synced := s.startSync_synced
  have status : pairReg rTlPairStatus := ⟨by decide, by decide⟩
  obtain ⟨state, epoch, mem, jobs, qown⟩ := s.syncBegun_leaves
  exact ⟨(synced.quiet.fld status _ _).trans state, (synced.quiet.fld status _ _).trans epoch, mem.trans synced.quiet.mem,
    synced.jobs.trans jobs, synced.qown.trans qown⟩

end

end Sys2Proof.Machine
end

section
/-!
SUPPORT. The formation of the pair, and messages that a member does not hear (R674 to R676, R679, R689; O54).
-/

namespace Sys2Proof.Machine

section
variable {s t u : State}

/-! ### Formation begins (R676) -/

/-- TL_PAIR_CTL as a write in SOLO leaves it. -/
def State.ctlTaken (s : State) (v : Word) : State := s.setReg rTlPairCtl (setBits v 61 56 0)

/-- FORMING, with no reason of a refusal. -/
def State.forming (s : State) : State := (s.enterPair 1).setFld rTlPairStatus 57 54 0

theorem State.portUp_of_reg (h : t.reg rTlStatus = s.reg rTlStatus) : t.portUp 8 = s.portUp 8 := by
  have state : t.portState 8 = s.portState 8 := congrArg (bitsOf · 31 29) h
  rw [State.portUp, state, State.portUp]

theorem State.startForming_of (enabled : s.fld rTlPairCtl 63 63 ≠ 0) (up : s.forming.portUp 8 = true) :
    s.startForming = s.forming.sayHello := by
  unfold State.startForming
  rw [if_neg enabled]
  exact if_pos up

theorem State.forming_leaves (s : State) : OnlyRegs s s.forming ∧ s.forming.pairState = 1
    ∧ s.forming.fld rTlPairStatus 57 54 = 0 ∧ s.forming.epoch = s.epoch
    ∧ ∀ o, o ≠ rTlPairStatus → s.forming.reg o = s.reg o := by
  unfold State.forming
  refine ⟨(s.setFld_onlyRegs ..).trans (State.setFld_onlyRegs ..), ?_, ?_, ?_, fun o other =>
    (State.reg_setFld_ne _ _ _ _ other).trans (State.reg_setFld_ne _ _ _ _ other)⟩
  · rw [State.pairState, State.fld_setFld_of_apart _ (by decide) (by decide) (by decide) (.inr (by decide)),
      ← State.pairState, s.pairState_enterPair (by decide)]
  · rw [State.fld_setFld _ _ _ _ _ (by decide) (by decide), Nat.zero_mod]
  · rw [State.epoch, State.fld_setFld_of_apart _ (by decide) (by decide) (by decide) (.inl (by decide)), ← State.epoch,
      s.epoch_enterPair]

theorem State.sayHello_eq (s : State) :
    s.sayHello = s.tellNow (.hello (s.fld rTlPairCtl 62 62) (s.reg rTlPairQown) s.ucode) := s.tell_of_not_mirror rfl

theorem State.ucode_of_reg (h : t.reg rVcId = s.reg rVcId) : t.ucode = s.ucode := by
  rw [State.ucode, State.fld, h, State.ucode, State.fld]

/-- A message that goes out now changes what was sent alone. -/
theorem State.tellNow_leaves (s : State) (m : PairMsg) : sameMem s (s.tellNow m) ∧ (s.tellNow m).jobs = s.jobs
    ∧ (s.tellNow m).regs = s.regs ∧ (s.tellNow m).pair = { s.pair with sent := (s.epoch, m) :: s.pair.sent } :=
  ⟨⟨rfl, rfl, rfl, rfl, rfl, rfl⟩, rfl, rfl, rfl⟩

/-- A write of PAIR_EN in SOLO begins formation. -/
theorem pairFormationStart_forms {v : Word} (up : s.portUp 8 = true) (enable : bitOf v 63 = true) (solo : s.pairState = 0) :
    ∃ t, exec (.pairFormationStart v) s = .next t ∧ t.pairState = 1 ∧ t.fld rTlPairStatus 57 54 = 0
      ∧ t.reg rTlPairCtl = setBits v 61 56 0 ∧ sameMem s t ∧ t.jobs = s.jobs
      ∧ t.pair.sent = (s.epoch, .hello (bitsOf v 62 62) (s.reg rTlPairQown) s.ucode) :: s.pair.sent := by
  have taken : OnlyRegs s (s.ctlTaken v) := s.setReg_onlyRegs ..
  have ctl : (s.ctlTaken v).reg rTlPairCtl = setBits v 61 56 0 := s.reg_setReg ..
  have others (o : Nat) (other : o ≠ rTlPairCtl) : (s.ctlTaken v).reg o = s.reg o := s.reg_setReg_ne _ other
  have start : s.writePairCtl v = (s.ctlTaken v).startForming := by
    unfold State.writePairCtl
    rw [if_neg (not_not.mpr solo)]
    exact if_pos ((State.portUp_of_reg (others _ (by decide))).trans up)
  have run : exec (.pairFormationStart v) s = .next (s.ctlTaken v).startForming :=
    start ▸ need_of (by rw [enable, up]; rfl) 676 _
  have epoch : (s.ctlTaken v).epoch = s.epoch := by
    rw [State.epoch, State.fld, others _ (by decide), State.epoch, State.fld]
  generalize s.ctlTaken v = u at taken ctl others run epoch
  obtain ⟨only, state, reason, epoch', rest⟩ := u.forming_leaves
  have enabled : u.fld rTlPairCtl 63 63 ≠ 0 := by
    rw [State.fld, ctl, bitsOf_setBits_of_apart (by decide) (by decide) (by decide) (.inr (by decide))]
    rw [bitOf_eq_decide_bitsOf, decide_eq_true_eq] at enable
    omega
  have up' : u.forming.portUp 8 = true :=
    (State.portUp_of_reg ((rest _ (by decide)).trans (others _ (by decide)))).trans up
  rw [State.startForming_of enabled up', State.sayHello_eq] at run
  have member : u.forming.fld rTlPairCtl 62 62 = bitsOf v 62 62 := by
    rw [State.fld, rest _ (by decide), ctl, bitsOf_setBits_of_apart (by decide) (by decide) (by decide) (.inr (by decide))]
  have qown : u.forming.reg rTlPairQown = s.reg rTlPairQown := (rest _ (by decide)).trans (others _ (by decide))
  have ucode : u.forming.ucode = s.ucode := State.ucode_of_reg ((rest _ (by decide)).trans (others _ (by decide)))
  have pair : u.forming.pair = s.pair := ((congrArg State.pair only.frame :)).trans ((congrArg State.pair taken.frame :))
  have formingCtl : u.forming.reg rTlPairCtl = setBits v 61 56 0 := (rest _ (by decide)).trans ctl
  have mem := taken.sameMem.trans only.sameMem
  have jobs := only.jobs.trans taken.jobs
  rw [member, qown, ucode] at run
  rw [epoch] at epoch'
  generalize u.forming = f at run state reason epoch' pair formingCtl mem jobs
  obtain ⟨mem', jobs', regs, sent⟩ := f.tellNow_leaves (.hello (bitsOf v 62 62) (s.reg rTlPairQown) s.ucode)
  generalize f.tellNow (.hello (bitsOf v 62 62) (s.reg rTlPairQown) s.ucode) = t at run mem' jobs' regs sent
  have reg (o : Nat) : t.reg o = f.reg o := State.reg_of_regs regs o
  refine ⟨t, run, ?_, ?_, (reg _).trans formingCtl, mem.trans mem', jobs'.trans jobs, ?_⟩
  · rw [State.pairState, State.fld, reg, ← State.fld, ← State.pairState, state]
  · rw [State.fld, reg, ← State.fld, reason]
  · rw [sent, epoch', pair]

theorem pairFormationStart_of_formed {v : Word} (up : s.portUp 8 = true) (enable : bitOf v 63 = true)
    (formed : s.pairState ≠ 0) : exec (.pairFormationStart v) s = .next s :=
  (need_of (by rw [enable, up]; rfl) 676 _).trans (congrArg Host.Outcome.next (if_pos formed))

/-! ### The twin's PAIR_HELLO judged (R676 orders 2 and 3) -/

theorem exec_pairHello_of_refused {h : PairHdr} {member : Fin 2} {qown : Word} {ucode : BitVec 16} (up : s.portUp 8 = true)
    (forming : s.pairState = 1) (awake : s.inW3 = false)
    (refused : (s.judgeHello h member qown ucode.toNat).pairState = 8) :
    exec (.pairHello h member qown ucode) s = .next (s.judgeHello h member qown ucode.toNat) := by
  show execPairHello h member qown ucode s = _
  unfold execPairHello
  rw [if_pos forming, need_of up, if_neg (by rw [awake]; decide)]
  dsimp only
  split
  · exact if_pos refused
  · rfl

theorem State.refuse_leaves (s : State) {r : Nat} (lt : r < 16) : (s.refuse r).pairState = 8
    ∧ (s.refuse r).fld rTlPairStatus 57 54 = r ∧ OnlyRegs s (s.refuse r) := by
  unfold State.refuse
  refine ⟨?_, ?_, (s.setFld_onlyRegs ..).trans (State.setFld_onlyRegs ..)⟩
  · rw [State.pairState, State.fld_setFld_of_apart _ (by decide) (by decide) (by decide) (.inr (by decide)),
      ← State.pairState, s.pairState_enterPair (by decide)]
  · rw [State.fld_setFld _ _ _ _ _ (by decide) (by decide)]
    exact Nat.mod_eq_of_lt lt

theorem pairHello_refused {h : PairHdr} {member : Fin 2} {qown : Word} {ucode : BitVec 16} (up : s.portUp 8 = true)
    (forming : s.pairState = 1) (awake : s.inW3 = false) (r : Nat) (lt : r < 16) (noted : OnlyNotes s u)
    (judged : s.judgeHello h member qown ucode.toNat = u.refuse r) :
    ∃ t, exec (.pairHello h member qown ucode) s = .next t ∧ t.pairState = 8
      ∧ t.fld rTlPairStatus 57 54 = r ∧ sameMem s t ∧ t.jobs = s.jobs := by
  obtain ⟨state, reason, only⟩ := u.refuse_leaves lt
  rw [← judged] at state reason only
  exact ⟨_, exec_pairHello_of_refused up forming awake state, state, reason, noted.sameMem.trans only.sameMem,
    only.jobs.trans noted.jobs⟩

theorem OnlyNotes.refl : OnlyNotes s s := OnlyRegs.refl.onlyNotes

/-- A member that may form the pair, before it is SYNCING. -/
def State.helloTaken (s : State) (h : PairHdr) (qown : Word) : State :=
  (s.sayHello.setEpoch (max h.epoch s.epoch + 1)).modPair (fun p => { p with twinQown := qown })

section
variable {h : PairHdr} {member : Nat} {qown : Word} {ucode : Nat}

theorem State.judgeHello_of_id (other : h.pairId ≠ s.pairId) :
    s.judgeHello h member qown ucode = (s.pairReport (h.pairId % 2 ^ 32)).refuse 1 := if_pos other

theorem State.judgeHello_of_member (id : h.pairId = s.pairId) (same : member = s.fld rTlPairCtl 62 62) :
    s.judgeHello h member qown ucode = s.refuse 2 := (if_neg (not_not.mpr id)).trans (if_pos same)

theorem State.judgeHello_of_ucode (id : h.pairId = s.pairId) (twin : member ≠ s.fld rTlPairCtl 62 62)
    (other : ucode ≠ s.ucode) : s.judgeHello h member qown ucode = s.refuse 3 :=
  (if_neg (not_not.mpr id)).trans ((if_neg twin).trans (if_pos other))

theorem State.judgeHello_of_qown (id : h.pairId = s.pairId) (twin : member ≠ s.fld rTlPairCtl 62 62)
    (same : ucode = s.ucode) (both : qown &&& s.reg rTlPairQown ≠ 0#64) :
    s.judgeHello h member qown ucode = s.refuse 4 :=
  (if_neg (not_not.mpr id)).trans ((if_neg twin).trans ((if_neg (not_not.mpr same)).trans (if_pos both)))

theorem State.judgeHello_of_good (id : h.pairId = s.pairId) (twin : member ≠ s.fld rTlPairCtl 62 62)
    (same : ucode = s.ucode) (apart : qown &&& s.reg rTlPairQown = 0#64) :
    s.judgeHello h member qown ucode = (s.helloTaken h qown).startSync :=
  (if_neg (not_not.mpr id)).trans ((if_neg twin).trans ((if_neg (not_not.mpr same)).trans (if_neg (not_not.mpr apart))))

end

theorem State.reg_modPair (s : State) (f : Pair → Pair) (o : Nat) : (s.modPair f).reg o = s.reg o := rfl

theorem State.setEpoch_leaves (s : State) (e : Nat) : (s.setEpoch e).epoch = e % 2 ^ 32
    ∧ (s.setEpoch e).pairState = s.pairState ∧ sameMem s (s.setEpoch e) ∧ (s.setEpoch e).jobs = s.jobs
    ∧ ∀ o, o ≠ rTlPairStatus → (s.setEpoch e).reg o = s.reg o := by
  have only : OnlyRegs s (s.setFld rTlPairStatus 31 0 e) := s.setFld_onlyRegs ..
  have epoch : (s.setFld rTlPairStatus 31 0 e).epoch = e % 2 ^ 32 := by
    rw [State.epoch, State.fld_setFld _ _ _ _ _ (by decide) (by decide)]
  have state : (s.setFld rTlPairStatus 31 0 e).pairState = s.pairState := by
    rw [State.pairState, State.fld_setFld_of_apart _ (by decide) (by decide) (by decide) (.inr (by decide)), State.pairState]
  have rest (o : Nat) (other : o ≠ rTlPairStatus) : (s.setFld rTlPairStatus 31 0 e).reg o = s.reg o :=
    State.reg_setFld_ne _ _ _ _ other
  unfold State.setEpoch
  generalize s.setFld rTlPairStatus 31 0 e = u at only epoch state rest ⊢
  rw [State.epoch_modPair, State.pairState_modPair, State.jobs_modPair]
  exact ⟨epoch, state, only.sameMem.trans (State.sameMem_modPair ..), only.jobs, fun o other =>
    (u.reg_modPair _ o).trans (rest o other)⟩

theorem State.helloTaken_leaves (s : State) (h : PairHdr) (qown : Word) :
    (s.helloTaken h qown).epoch = (max h.epoch s.epoch + 1) % 2 ^ 32 ∧ sameMem s (s.helloTaken h qown)
      ∧ (s.helloTaken h qown).jobs = s.jobs ∧ (s.helloTaken h qown).pair.twinQown = qown := by
  have said := State.tell_told (s := s) (.hello (s.fld rTlPairCtl 62 62) (s.reg rTlPairQown) s.ucode)
  obtain ⟨epoch, -, mem, jobs, -⟩ := s.sayHello.setEpoch_leaves (max h.epoch s.epoch + 1)
  unfold State.helloTaken
  generalize s.sayHello.setEpoch (max h.epoch s.epoch + 1) = u at epoch mem jobs ⊢
  exact ⟨epoch, (said.answered.sameMem.trans mem).trans (State.sameMem_modPair ..), jobs.trans said.jobs, rfl⟩

/-- The answer to a PAIR_HELLO in FORMING. -/
theorem pairHello_judged (up : s.portUp 8 = true) (h : PairHdr) (member : Fin 2) (qown : Word) (ucode : BitVec 16)
    (forming : s.pairState = 1) (awake : s.inW3 = false) :
    let refused (r : Nat) : Prop := ∃ t, exec (.pairHello h member qown ucode) s = .next t ∧ t.pairState = 8
      ∧ t.fld rTlPairStatus 57 54 = r ∧ sameMem s t ∧ t.jobs = s.jobs
    let id := h.pairId = s.pairId
    let mem := member.val = s.fld rTlPairCtl 62 62
    (¬id → refused 1)
    ∧ (id → mem → refused 2)
    ∧ (id → ¬mem → ucode.toNat ≠ s.ucode → refused 3)
    ∧ (id → ¬mem → ucode.toNat = s.ucode → qown &&& s.reg rTlPairQown ≠ 0#64 → refused 4)
    ∧ (id → ¬mem → ucode.toNat = s.ucode → qown &&& s.reg rTlPairQown = 0#64 → s.syncWaits ≠ none →
      exec (.pairHello h member qown ucode) s = .next s)
    ∧ (id → ¬mem → ucode.toNat = s.ucode → qown &&& s.reg rTlPairQown = 0#64 → s.syncWaits = none →
      ∃ t, exec (.pairHello h member qown ucode) s = .next t ∧ t.pairState = 2
        ∧ t.epoch = (max h.epoch s.epoch + 1) % 2 ^ 32 ∧ t.pair.twinQown = qown ∧ sameMem s t ∧ t.jobs = s.jobs) := by
  intro refused id mem
  refine ⟨fun other => ?_, fun same own => ?_, fun same twin other => ?_, fun same twin code both => ?_,
    fun same twin code apart waits => ?_, fun same twin code apart ready => ?_⟩
  · exact pairHello_refused up forming awake 1 (by decide) (State.reportSelf_onlyNotes ..) (State.judgeHello_of_id other)
  · exact pairHello_refused up forming awake 2 (by decide) .refl (State.judgeHello_of_member same own)
  · exact pairHello_refused up forming awake 3 (by decide) .refl (State.judgeHello_of_ucode same twin other)
  · exact pairHello_refused up forming awake 4 (by decide) .refl (State.judgeHello_of_qown same twin code both)
  · obtain ⟨r, waits⟩ := Option.ne_none_iff_exists'.mp waits
    obtain ⟨state, -⟩ := (s.helloTaken h qown).startSync_leaves
    rw [← State.judgeHello_of_good same twin code apart] at state
    show execPairHello h member qown ucode s = _
    unfold execPairHello
    rw [if_pos forming, need_of up, if_neg (by rw [awake]; decide), waits]
    exact if_neg (by rw [state]; decide)
  · obtain ⟨epoch, mem, jobs, own⟩ := s.helloTaken_leaves h qown
    obtain ⟨state, epoch', mem', jobs', own'⟩ := (s.helloTaken h qown).startSync_leaves
    have run : exec (.pairHello h member qown ucode) s = .next (s.helloTaken h qown).startSync := by
      show execPairHello h member qown ucode s = _
      unfold execPairHello
      rw [if_pos forming, need_of up, if_neg (by rw [awake]; decide), ready,
        State.judgeHello_of_good same twin code apart]
    exact ⟨_, run, state, epoch'.trans epoch, own'.trans own, mem.trans mem', jobs'.trans jobs⟩

/-! ### Messages heard and not heard (R676, R679) -/

theorem rxPair_of_hears {h : PairHdr} (hears : s.hears h) (k : State → Res) : rxPair h s k = k s := by
  obtain ⟨up, awake, id, epoch⟩ := hears
  unfold rxPair
  rw [need_of up, if_neg (by rw [awake]; decide), if_neg (not_not.mpr id), if_neg (by omega)]

theorem rxPair_of_id {h : PairHdr} (up : s.portUp 8 = true) (awake : s.inW3 = false) (other : h.pairId ≠ s.pairId)
    (k : State → Res) : rxPair h s k = .next (s.pairReport (h.pairId % 2 ^ 32)) := by
  unfold rxPair
  rw [need_of up, if_neg (by rw [awake]; decide), if_pos other]

theorem rxPair_of_stale {h : PairHdr} (up : s.portUp 8 = true) (awake : s.inW3 = false) (id : h.pairId = s.pairId)
    (stale : h.epoch < s.epoch) (k : State → Res) :
    rxPair h s k = .next { s with pair := { s.pair with stale := s.pair.stale + 1 } } := by
  unfold rxPair
  rw [need_of up, if_neg (by rw [awake]; decide), if_neg (not_not.mpr id), if_pos stale]
  rfl

theorem exec_pairHello_of_formed {h : PairHdr} {member : Fin 2} {qown : Word} {ucode : BitVec 16} (formed : s.pairState ≠ 1) :
    exec (.pairHello h member qown ucode) s
      = rxPair h s (fun s => .next (s.modPair (fun p => { p with suspended := none }))) := if_neg formed

/-- Every pair message but a PAIR_HELLO in FORMING is received alike. -/
theorem exec_pairInstr {i : Instr} {h : PairHdr} (pair : pairInstr i = some h)
    (formed : (∀ m q u, i ≠ .pairHello h m q u) ∨ s.pairState ≠ 1) : ∃ k, exec i s = rxPair h s k := by
  unfold pairInstr at pair
  split at pair
  next h' m q u =>
    cases pair
    exact ⟨_, exec_pairHello_of_formed (formed.resolve_left fun no => no m q u rfl)⟩
  next h' =>
    cases pair
    exact ⟨_, (rfl : execSyncDone h s = rxPair h s _)⟩
  next h' r q =>
    cases pair
    exact ⟨_, (rfl : execJournalMirror h r q s = rxPair h s _)⟩
  next h' q =>
    cases pair
    exact ⟨_, (rfl : execQueueMirror h q s = rxPair h s _)⟩
  next h' queue gen seq root va bytes =>
    cases pair
    show ∃ k, execCheckpointMirror h queue gen seq root va bytes s = rxPair h s k
    unfold execCheckpointMirror
    exact ⟨_, rfl⟩
  next h' x =>
    cases pair
    show ∃ k, execHeaderMirror h x s = rxPair h s k
    unfold execHeaderMirror
    exact ⟨_, rfl⟩
  next h' of_ ok =>
    cases pair
    exact ⟨_, (rfl : execMirrorAck h of_ ok s = rxPair h s _)⟩
  next h' =>
    cases pair
    exact ⟨_, (rfl : execYield h s = rxPair h s _)⟩
  next h' =>
    cases pair
    exact ⟨_, (rfl : execResetting h s = rxPair h s _)⟩
  · cases pair

theorem pairInstr_not_heard {i : Instr} {h : PairHdr} (pair : pairInstr i = some h) (up : s.portUp 8 = true)
    (awake : s.inW3 = false) (formed : (∀ m q u, i ≠ .pairHello h m q u) ∨ s.pairState ≠ 1) :
    (h.pairId ≠ s.pairId → ∃ t, exec i s = .next t ∧ sameMem s t ∧ t.jobs = s.jobs ∧ t.hqs = s.hqs
        ∧ t.pair = s.pair ∧ t.jn = s.jn ∧ t.fld (rFcRec (16 * 24 + 0xE)) 63 63 = 1)
      ∧ (h.pairId = s.pairId → h.epoch < s.epoch →
        exec i s = .next { s with pair := { s.pair with stale := s.pair.stale + 1 } }) := by
  obtain ⟨k, run⟩ := exec_pairInstr (s := s) pair formed
  refine ⟨fun other => ?_, fun id stale => run.trans (rxPair_of_stale up awake id stale k)⟩
  have noted : Noted s (s.pairReport (h.pairId % 2 ^ 32)) := State.report_noted ..
  refine ⟨_, run.trans (rxPair_of_id up awake other k), noted.sameMem, noted.jobs, noted.hqs, noted.pair, noted.jn, ?_⟩
  have valid := s.report_valid 24 0xE 0 24 0 0 (h.pairId % 2 ^ 32)
  rw [bitOf_eq_decide_bitsOf, decide_eq_true_eq] at valid
  exact valid

theorem exec_syncDone {h : PairHdr} (hears : s.hears h) : exec (.syncDone h) s
    = .next (if s.pairState = 2 then (s.modPair (fun p => { p with gotSync := true })).enterInSync else s) := by
  show execSyncDone h s = _
  unfold execSyncDone
  rw [rxPair_of_hears hears]

end

end Sys2Proof.Machine
end

section
/-!
SUPPORT. What mirrors, acknowledgements and a takeover leave of the pair's registers, and the settlement of O54.
-/

namespace Sys2Proof.Machine

/-- From s to t the registers of the pair stay. -/
def PairStays (s t : State) : Prop := ∀ o, pairReg o → t.reg o = s.reg o

section
variable {s t u : State}

theorem PairStays.refl : PairStays s s := fun _ _ => rfl
theorem PairStays.trans (h : PairStays s t) (g : PairStays t u) : PairStays s u := fun o i => (g o i).trans (h o i)
theorem PairStays.fld (h : PairStays s t) {o : Nat} (i : pairReg o) (hi lo : Nat) : t.fld o hi lo = s.fld o hi lo := by
  rw [State.fld, h o i, State.fld]

theorem PairStays.of_regs (h : t.regs = s.regs) : PairStays s t := fun o _ => State.reg_of_regs h o

theorem PairStays.setFld (h : PairStays s t) {o hi lo v : Nat} (other : ¬pairReg o) : PairStays s (t.setFld o hi lo v) :=
  h.trans fun _ i => State.reg_setFld_ne _ _ _ _ fun e => other (e ▸ i)

theorem PairStays.setReg (h : PairStays s t) {o : Nat} {v : Word} (other : ¬pairReg o) : PairStays s (t.setReg o v) :=
  h.trans fun _ i => State.reg_setReg_ne _ _ fun e => other (e ▸ i)

theorem PairStays.foldl {α : Type} {f : State → α → State} (l : List α) (h : PairStays s t)
    (step : ∀ u, ∀ a ∈ l, PairStays u (f u a)) : PairStays s (l.foldl f t) :=
  List.foldlRecOn (motive := PairStays s) _ _ h fun u hu a mem => hu.trans (step u a mem)

theorem pairReg_status : pairReg rTlPairStatus := ⟨by decide, by decide⟩
theorem pairReg_qown : pairReg rTlPairQown := ⟨by decide, by decide⟩

theorem PairStays.pairState (h : PairStays s t) : t.pairState = s.pairState := h.fld pairReg_status 63 60
theorem PairStays.epoch (h : PairStays s t) : t.epoch = s.epoch := h.fld pairReg_status 31 0

/-! ### Jobs taken over -/

theorem State.leafGet_errOk (at_ : Nat) : ErrOk AccErr.Nameable (s.leafGet at_) :=
  (State.tierWait_errOk _).bind fun _ _ => by
    split
    next b bad => exact .error (State.badBlock_nameable (fun w e => by cases e) b bad)
    next =>
      split
      · exact .ok
      · exact .error trivial

theorem State.leafBit_pairStays (s : State) (bit : Nat) (v : Bool) (at_ : Nat) : PairStays s (s.leafBit bit v at_) := by
  unfold State.leafBit
  split
  · exact .of_regs rfl
  · exact (Quiet.refl.reportPair (by decide) (by decide)).regs
  next va l wr failed => exact (Quiet.refl.noteTier (State.leafGet_errOk at_ _ failed)).regs
  · exact .of_regs rfl

theorem State.loadTables_pairStays (s : State) (j : Nat) (x : Job) : PairStays s (s.loadTables j x) :=
  (PairStays.refl.foldl _ fun u a _ => u.leafBit_pairStays 55 true a).trans (.of_regs rfl)

theorem Answered.pairStays (h : Answered s t) : PairStays s t := .of_regs (congrArg State.regs h :)

theorem State.syncOpen_pairStays (s : State) : PairStays s s.syncOpen :=
  PairStays.refl.setFld (not_pairReg_of_lt (by decide))

theorem State.adopt_pairStays (s : State) (r : JRec) : PairStays s (s.adopt r) := by
  unfold State.adopt
  split
  · exact .refl
  · extract_lets j n x
    split
    · exact .of_regs rfl
    · exact PairStays.trans (.of_regs rfl) (State.loadTables_pairStays _ _ _)

theorem State.adoptAll_pairStays (s : State) (mask : Word) : PairStays s (s.adoptAll mask) := by
  unfold State.adoptAll
  extract_lets u
  have noted : PairStays s u := by
    unfold u
    split
    · exact (Quiet.refl.reportPair (by decide) (by decide)).regs
    · exact .refl
  exact (noted.foldl _ fun v r _ => v.adopt_pairStays r).trans (State.syncOpen_pairStays _)

theorem State.regs_setHq (s : State) (q : Nat) (x : HostQ) : (s.setHq q x).regs = s.regs := rfl

theorem State.restoreQueue_pairStays (s : State) {q : Nat} (q_lt : q < 64) (m : QMirror) :
    PairStays s (s.restoreQueue q m) := by
  have status : ¬pairReg (rQStatus q) := by
    simp only [pairReg, rQStatus, rTlPairCtl]
    omega
  have last : ¬pairReg (rQLast q) := by
    simp only [pairReg, rQLast, rTlPairCtl]
    omega
  unfold State.restoreQueue
  extract_lets headed told
  have hTold : PairStays s told := (((PairStays.refl.setFld status).setFld status).setFld status).setReg last
  exact hTold.trans (.of_regs (State.regs_setHq ..))

theorem State.regs_rawWrite (s : State) (l : Loc) (bs : List Byte) : (s.rawWrite l bs).regs = s.regs := by
  obtain ⟨tier, a⟩ := l
  cases tier with
  | cistern w => rfl
  | reservoir => rfl
  | aquifer => rfl
  | host => rfl

theorem State.rewriteQueue_pairStays (s : State) {q : Nat} (q_lt : q < 64) (m : QMirror) :
    PairStays s (s.rewriteQueue q m) := by
  unfold State.rewriteQueue
  extract_lets head size restored n written
  have hw : PairStays s written := (s.restoreQueue_pairStays q_lt m).foldl _ fun v k _ => by
    dsimp only
    split
    · exact .of_regs (State.regs_rawWrite ..)
    · exact .refl
  exact hw.trans (.of_regs rfl)

/-! ### A takeover (R692) -/

/-- The member has taken over, before the twin's queues and jobs are its own. -/
def State.overEntered (s : State) : State := (s.leaveSync.enterPair 6).setEpoch (s.epoch + 1)

/-- The twin's queues are this member's. -/
def State.overOwned (s : State) : State :=
  (((s.overEntered.setReg rTlPairQown (s.overEntered.reg rTlPairQown ||| s.pair.twinQown)).modPair
    (fun p => { p with taken := p.taken ||| s.pair.twinQown })).incFld rTlPairStat 63 48 1)

/-- The rings of a set of queues rewritten. -/
def State.rewriteQueues (s : State) (mask : Word) : State :=
  (List.range 64).foldl (fun (t : State) q =>
    if bitOf mask q then (tabGet none t.pair.queues q).elim t (t.rewriteQueue q) else t) s

/-- The twin's jobs are this member's, and counted. -/
def State.jobsTaken (s : State) (mask : Word) : State :=
  (s.adoptAll mask).incFld rTlPairStat 15 0 (((s.adoptAll mask).jobs.drop s.jobs.length).filter Job.isOpen).length

theorem State.takeOver_eq (s : State) :
    s.takeOver = (s.overOwned.rewriteQueues s.pair.twinQown).jobsTaken s.pair.twinQown := rfl

theorem State.rewriteQueues_pairStays (s : State) (mask : Word) : PairStays s (s.rewriteQueues mask) :=
  PairStays.refl.foldl _ fun v q mem => by
    split
    · cases tabGet none v.pair.queues q with
      | none => exact .refl
      | some m => exact v.rewriteQueue_pairStays (List.mem_range.mp mem) m
    · exact .refl

theorem State.jobsTaken_pairStays (s : State) (mask : Word) : PairStays s (s.jobsTaken mask) :=
  (s.adoptAll_pairStays mask).setFld (not_pairReg_of_gt (by decide))

theorem State.regs_leaveSync (s : State) : s.leaveSync.regs = s.regs := rfl

theorem State.overEntered_leaves (s : State) : s.overEntered.pairState = 6
    ∧ s.overEntered.epoch = (s.epoch + 1) % 2 ^ 32 ∧ s.overEntered.reg rTlPairQown = s.reg rTlPairQown := by
  obtain ⟨epoch, state, -, -, rest⟩ := (s.leaveSync.enterPair 6).setEpoch_leaves (s.epoch + 1)
  have qown : (s.leaveSync.enterPair 6).reg rTlPairQown = s.reg rTlPairQown := by
    rw [State.enterPair, State.reg_setFld_ne _ _ _ _ (by decide), State.reg_of_regs s.regs_leaveSync]
  unfold State.overEntered
  exact ⟨state.trans (State.pairState_enterPair _ (by decide)), epoch, (rest _ (by decide)).trans qown⟩

theorem State.takeOver_leaves (s : State) : s.takeOver.pairState = 6 ∧ s.takeOver.epoch = (s.epoch + 1) % 2 ^ 32
    ∧ s.takeOver.reg rTlPairQown = s.reg rTlPairQown ||| s.pair.twinQown := by
  obtain ⟨state, epoch, qown⟩ := s.overEntered_leaves
  have owned (o : Nat) (i : pairReg o) : s.overOwned.reg o
      = (s.overEntered.setReg rTlPairQown (s.overEntered.reg rTlPairQown ||| s.pair.twinQown)).reg o := by
    unfold State.overOwned
    rw [State.reg_incFld_ne _ _ _ _ (fun e => not_pairReg_of_gt (by decide) (e ▸ i)), State.reg_modPair]
  have status : s.overOwned.reg rTlPairStatus = s.overEntered.reg rTlPairStatus := by
    rw [owned _ pairReg_status, State.reg_setReg_ne _ _ (by decide)]
  have stays : PairStays s.overOwned s.takeOver := by
    rw [State.takeOver_eq]
    exact PairStays.trans (State.rewriteQueues_pairStays _ _) (State.jobsTaken_pairStays _ _)
  refine ⟨?_, ?_, ?_⟩
  · rw [stays.pairState, State.pairState, State.fld, status, ← State.fld, ← State.pairState, state]
  · rw [stays.epoch, State.epoch, State.fld, status, ← State.fld, ← State.epoch, epoch]
  · rw [stays _ pairReg_qown, owned _ pairReg_qown, State.reg_setReg, qown]

/-! ### The end of order 4 (R676 order 5) -/

/-- IN_SYNC, before the records under way are promised. -/
def State.inSyncEntered (s : State) : State :=
  let t := ((s.enterPair 3).jobs.zipIdx.filter (fun e => e.1.held)).foldl
    (fun (t : State) e => t.loadTables e.2 e.1) (s.enterPair 3)
  { t with pw := { t.pw with wasSync := false }, jobs := t.jobs.map (fun (j : Job) => { j with held := false }) }

/-- The record of a job under way is mirrored with its entry. -/
def State.promiseJob (t : State) (e : Job × Nat) : State :=
  if e.1.phase = .accepting then
    t.promise (e.1.acceptRec e.1.tbAccept)
      { typ := 1, gen := e.1.gen, seq := e.1.seq, queue := e.1.queue, tbAccept := e.1.tbAccept }
  else if e.1.phase = .ended ∧ !e.1.held then
    (t.modJob e.2 (fun y => { y with commitMirrored := false })).promise (e.1.commitRec t.now) (e.1.completeEntry t.now)
  else t

theorem State.enterInSync_of (syncing : s.pairState = 2) (sent : s.pair.sentSync = true) (got : s.pair.gotSync = true) :
    s.enterInSync = s.inSyncEntered.jobs.zipIdx.foldl State.promiseJob s.inSyncEntered := if_pos ⟨syncing, sent, got⟩

theorem State.promiseJob_pairStays (s : State) (e : Job × Nat) : PairStays s (s.promiseJob e) := by
  unfold State.promiseJob
  split
  · exact (State.promise_answered ..).pairStays
  · split
    · exact PairStays.trans (t := s.modJob e.2 (fun y => { y with commitMirrored := false })) (.of_regs rfl)
        (State.promise_answered ..).pairStays
    · exact .refl

theorem State.inSyncEntered_pairStays (s : State) : PairStays (s.enterPair 3) s.inSyncEntered := by
  unfold State.inSyncEntered
  extract_lets t
  have loaded : PairStays (s.enterPair 3) t := PairStays.refl.foldl _ fun u e _ => u.loadTables_pairStays e.2 e.1
  exact loaded.trans (.of_regs rfl)

theorem State.enterInSync_pairState (syncing : s.pairState = 2) (sent : s.pair.sentSync = true)
    (got : s.pair.gotSync = true) : s.enterInSync.pairState = 3 := by
  rw [State.enterInSync_of syncing sent got]
  have stays := s.inSyncEntered_pairStays.foldl s.inSyncEntered.jobs.zipIdx fun u e _ => u.promiseJob_pairStays e
  rw [stays.pairState, s.pairState_enterPair (by decide)]

theorem syncDone_answers (h : PairHdr) (hears : s.hears h) :
    (s.pairState = 2 → s.pair.sentSync = true → ∃ t, exec (.syncDone h) s = .next t ∧ t.pairState = 3)
    ∧ (s.pairState = 2 → s.pair.sentSync = false →
      exec (.syncDone h) s = .next { s with pair := { s.pair with gotSync := true } })
    ∧ (s.pairState ≠ 2 → exec (.syncDone h) s = .next s)
    ∧ (∀ member qown ucode, s.pairState ≠ 1 →
      exec (.pairHello h member qown ucode) s = .next { s with pair := { s.pair with suspended := none } }) := by
  refine ⟨fun syncing sent => ?_, fun syncing unsent => ?_, fun other => ?_, fun member qown ucode formed => ?_⟩
  · refine ⟨_, (exec_syncDone hears).trans (congrArg Host.Outcome.next (if_pos syncing)), ?_⟩
    exact State.enterInSync_pairState ((s.pairState_modPair _).trans syncing) sent rfl
  · refine (exec_syncDone hears).trans (congrArg Host.Outcome.next ((if_pos syncing).trans (if_neg ?_)))
    exact fun all => Bool.false_ne_true (unsent.symm.trans all.2.1)
  · exact (exec_syncDone hears).trans (congrArg Host.Outcome.next (if_neg other))
  · rw [exec_pairHello_of_formed formed, rxPair_of_hears hears]
    rfl

/-! ### Mirrors received (R680, R682, R686, R687) -/

theorem State.sendAck_eq (s : State) (m : MirrorOf) (ok : Bool) : s.sendAck m ok = s.tellNow (.ack m ok) :=
  s.tell_of_not_mirror rfl

theorem State.sent_tellNow (s : State) (m : PairMsg) : (s.tellNow m).pair.sent = (s.epoch, m) :: s.pair.sent := rfl

/-- A record of the twin in the twin journal. -/
def State.journalKept (s : State) (r : JRec) : State :=
  ((s.dropHeld r).modPair (fun p => { p with journal := (recStore r :: p.journal).take 134217728 })).syncOpen

theorem exec_journalMirror (h : PairHdr) (hears : s.hears h) (r : JRec) : exec (.journalMirror h r none) s
    = .next ((s.journalKept r).sendAck (.journal r.kind r.queue r.gen r.seq) true) := by
  show execJournalMirror h r none s = _
  unfold execJournalMirror
  rw [rxPair_of_hears hears]
  rfl

theorem State.journalKept_leaves (s : State) (r : JRec) : sameMem s (s.journalKept r) ∧ (s.journalKept r).epoch = s.epoch
    ∧ (s.journalKept r).pair = { s.pair with journal := (recStore r :: s.pair.journal).take 134217728 } := by
  have kept : ((s.dropHeld r).modPair (fun p => { p with journal := (recStore r :: p.journal).take 134217728 })).pair
      = { s.pair with journal := (recStore r :: s.pair.journal).take 134217728 } := rfl
  have regs : ((s.dropHeld r).modPair (fun p => { p with journal := (recStore r :: p.journal).take 134217728 })).regs
      = s.regs := rfl
  have mem : sameMem s ((s.dropHeld r).modPair (fun p => { p with journal := (recStore r :: p.journal).take 134217728 })) :=
    ⟨rfl, rfl, rfl, rfl, rfl, rfl⟩
  unfold State.journalKept
  generalize (s.dropHeld r).modPair (fun p => { p with journal := (recStore r :: p.journal).take 134217728 }) = u
    at kept regs mem ⊢
  have only : OnlyRegs u u.syncOpen := u.setFld_onlyRegs ..
  exact ⟨mem.trans only.sameMem, u.syncOpen_pairStays.epoch.trans (PairStays.of_regs regs).epoch,
    ((congrArg State.pair only.frame :)).trans kept⟩

theorem journalMirror_keeps (h : PairHdr) (hears : s.hears h) (r : JRec) :
    ∃ t, exec (.journalMirror h r none) s = .next t
      ∧ t.pair.journal = (recStore r :: s.pair.journal).take 134217728 ∧ sameMem s t
      ∧ t.pair.sent = (s.epoch, .ack (.journal r.kind r.queue r.gen r.seq) true) :: s.pair.sent := by
  obtain ⟨mem, epoch, pair⟩ := s.journalKept_leaves r
  have run := exec_journalMirror h hears r
  rw [State.sendAck_eq] at run
  generalize s.journalKept r = u at mem epoch pair run
  obtain ⟨mem', -, -, sent⟩ := u.tellNow_leaves (.ack (.journal r.kind r.queue r.gen r.seq) true)
  rw [epoch, pair] at sent
  exact ⟨_, run, congrArg Pair.journal sent, mem.trans mem', congrArg Pair.sent sent⟩

theorem queueMirror_keeps (h : PairHdr) (hears : s.hears h) (q : QMirror) (full : q.entry.typ ≠ 0) :
    ∃ t, exec (.queueMirror h q) s = .next t ∧ tabGet none t.pair.queues q.entry.queue = some q
      ∧ t.pair.entries = (q.entry, (q.cqTail + 65535) % 65536, q.phase) :: s.pair.entries
      ∧ t.pair.sent = (s.epoch, .ack (.queue q.entry.queue q.entry.gen q.entry.seq) true) :: s.pair.sent
      ∧ { t with pair := s.pair } = s := by
  have run : exec (.queueMirror h q) s
      = .next ((s.keepQueue q).sendAck (.queue q.entry.queue q.entry.gen q.entry.seq) true) := by
    show execQueueMirror h q s = _
    unfold execQueueMirror
    rw [rxPair_of_hears hears]
    dsimp only
    rw [if_neg (fun all => full all.1)]
  rw [State.sendAck_eq] at run
  refine ⟨_, run, ?_, ?_, rfl, rfl⟩
  · exact tabGet_put_self none s.pair.queues q.entry.queue (some q)
  · exact if_neg full

theorem checkpointMirror_writes (h : PairHdr) (hears : s.hears h) (queue : Fin 64) (gen : BitVec 8) (seq : Word32)
    (root va : BitVec 56) (bytes : List Byte) (written : s.writeDir (rootCtx root.toNat) va.toNat bytes = .ok u) :
    ∃ t, exec (.checkpointMirror h queue gen seq root va bytes) s = .next t ∧ sameMem u t
      ∧ t.pair.sent = (u.epoch, .ack (.checkpoint queue gen.toNat seq.toNat) true) :: u.pair.sent := by
  have run : exec (.checkpointMirror h queue gen seq root va bytes) s
      = .next (u.sendAck (.checkpoint queue gen.toNat seq.toNat) true) := by
    show execCheckpointMirror h queue gen seq root va bytes s = _
    unfold execCheckpointMirror
    dsimp only
    rw [rxPair_of_hears hears, written]
  rw [State.sendAck_eq] at run
  exact ⟨_, run, (u.tellNow_leaves _).1, rfl⟩

/-- The header of a checkpoint of the twin, the newer of its area. -/
def State.headerKept (s : State) (x : CpHeader) : State :=
  s.modPair (fun p => { p with
    headers := x :: p.headers.filter (fun y => !(y.queue == x.queue && y.gen == x.gen && y.seq == x.seq
      && y.area == x.area)) })

theorem headerMirror_writes (h : PairHdr) (hears : s.hears h) (x : CpHeader)
    (written : s.writeDir (rootCtx x.root) x.area (x.fields.flatMap guardBytes) = .ok u) :
    ∃ t, exec (.headerMirror h x) s = .next t ∧ sameMem u t ∧ x ∈ t.pair.headers
      ∧ t.pair.sent = (u.epoch, .ack (.header x.queue x.gen x.seq) true) :: u.pair.sent := by
  have run : exec (.headerMirror h x) s = .next ((u.headerKept x).sendAck (.header x.queue x.gen x.seq) true) := by
    show execHeaderMirror h x s = _
    unfold execHeaderMirror
    dsimp only
    rw [rxPair_of_hears hears, written]
    rfl
  rw [State.sendAck_eq] at run
  exact ⟨_, run, ⟨rfl, rfl, rfl, rfl, rfl, rfl⟩, List.mem_cons_self, rfl⟩

/-! ### Acknowledgements (R680, R686, R687) -/

theorem exec_mirrorAck (h : PairHdr) (hears : s.hears h) (m : MirrorOf) (ok : Bool) : exec (.mirrorAck h m ok) s
    = .next (if ok then s.mirrorAnswered.ackGood m else s.mirrorAnswered.ackBad m) := by
  show execMirrorAck h m ok s = _
  unfold execMirrorAck
  rw [rxPair_of_hears hears]

/-- An acknowledgement releases the oldest tag of a mirror. -/
theorem State.outst_mirrorAnswered {o : OutReq} {rest : List OutReq} (outst : (s.conn 8 s.twinPeer 2).outst = o :: rest)
    (op : o.op = 0x28) : (s.mirrorAnswered.conn 8 s.twinPeer 2).outst = rest := by
  unfold State.mirrorAnswered
  dsimp only
  rw [outst, List.find?_cons_of_pos (by rw [op]; rfl)]
  have released : ((s.releaseTag 8 s.twinPeer (s.conn 8 s.twinPeer 2) o).conn 8 s.twinPeer 2)
      = { s.conn 8 s.twinPeer 2 with outst := (s.conn 8 s.twinPeer 2).outst.erase o,
                                     quar := (s.conn 8 s.twinPeer 2).quar ++ [(o.pair, s.now)] } := tabGet_put_self ..
  show ((s.releaseTag 8 s.twinPeer (s.conn 8 s.twinPeer 2) o).conn 8 s.twinPeer 2).outst = rest
  rw [released]
  show (s.conn 8 s.twinPeer 2).outst.erase o = rest
  rw [outst, List.erase_cons_head]

/-- Mirroring ends: SYNCING, with everything owed again. -/
def State.backToSyncing (s : State) : State :=
  (s.leaveSync.enterPair 2).modPair (fun p => { p with sentSync := false, gotSync := false, owed := 1 })

/-- The checkpoint that a failed acknowledgement names is abandoned. -/
def State.cpAbandoned (s : State) (m : MirrorOf) : State :=
  match m with
  | .checkpoint q g n | .header q g n =>
    match s.tagJob q g n (fun j => j.cp.isSome) with
    | some j => s.modJob j (fun y => { y with cp := none })
    | none => s
  | _ => s

theorem State.ackBad_eq (s : State) (m : MirrorOf) : s.ackBad m
    = if (s.cpAbandoned m).pairState = 3 then (s.cpAbandoned m).backToSyncing else s.cpAbandoned m := by
  cases m <;> rfl

theorem State.regs_cpAbandoned (s : State) (m : MirrorOf) : (s.cpAbandoned m).regs = s.regs := by
  unfold State.cpAbandoned
  split
  · split
    · rfl
    · rfl
  · split
    · rfl
    · rfl
  · rfl

theorem State.pairState_ackBad (paired : s.pairState = 3) (m : MirrorOf) : (s.ackBad m).pairState = 2 := by
  have same : (s.cpAbandoned m).pairState = 3 := (PairStays.of_regs (s.regs_cpAbandoned m)).pairState.trans paired
  rw [State.ackBad_eq, if_pos same, State.backToSyncing, State.pairState_modPair, State.pairState_enterPair _ (by decide)]

/-- A good acknowledgement of a journal record marks its job. -/
theorem State.job_ackGood_journal {k q g n j : Nat} {x : Job}
    (names : s.tagJob q g n (fun y => decide (y.phase = .accepting ∨ y.phase = .ended)) = some j)
    (job : s.job j = some x) (paired : s.pairState = 3) :
    (s.ackGood (.journal k q g n)).job j = some (if k = 1 then { x with mirrored := true }
      else if k = 2 then { x with commitMirrored := true } else x) := by
  have marked : s.ackGood (.journal k q g n) = (s.modJob j (fun y =>
      if k = 1 then { y with mirrored := true } else if k = 2 then { y with commitMirrored := true } else y)).ackOwed := by
    unfold State.ackGood
    dsimp only
    rw [names]
  have synced : (s.modJob j (fun y =>
      if k = 1 then { y with mirrored := true } else if k = 2 then { y with commitMirrored := true } else y)).pairState = 3 :=
    (PairStays.of_regs rfl).pairState.trans paired
  rw [marked, State.ackOwed, if_neg (by rw [synced]; decide), State.job_modJob job]

/-! ### YIELD and RESETTING (R689, R692) -/

theorem exec_resetting (h : PairHdr) (hears : s.hears h) :
    exec (.resetting h) s = .next { s with pair := { s.pair with suspended := some s.now } } := by
  show execResetting h s = _
  unfold execResetting
  rw [rxPair_of_hears hears]
  rfl

theorem exec_yield (h : PairHdr) (hears : s.hears h) : exec (.yield h) s
    = .next (if (s.pairState = 3 ∨ s.pairState = 4) ∧ s.pair.frozen = false then s.takeOver else s) := by
  show execYield h s = _
  unfold execYield
  rw [rxPair_of_hears hears]

end

/-- Settles O54, from the rules of formation, of messages not heard, of mirrors and of a takeover. -/
theorem pairsFormAndMirror : Obligations.PairsFormAndMirror := by
  refine ⟨fun s up => ⟨fun v enable => ⟨pairFormationStart_forms up enable, pairFormationStart_of_formed up enable⟩,
      fun h member qown ucode forming awake => pairHello_judged up h member qown ucode forming awake,
      fun h hears => syncDone_answers h hears⟩,
    fun s i h pair up awake formed => pairInstr_not_heard pair up awake formed,
    fun s h hears => ⟨journalMirror_keeps h hears, queueMirror_keeps h hears,
      fun queue gen seq root va bytes u written => checkpointMirror_writes h hears queue gen seq root va bytes written,
      fun x u written => headerMirror_writes h hears x written,
      fun m => ⟨exec_mirrorAck h hears m true, exec_mirrorAck h hears m false,
        fun o rest => State.outst_mirrorAnswered, fun paired => State.pairState_ackBad paired m⟩,
      fun k q g n j x => State.job_ackGood_journal, fun state running => ?_, fun stays => ?_, ?_⟩⟩
  · exact ⟨_, (exec_yield h hears).trans (congrArg Host.Outcome.next (if_pos ⟨state, running⟩)), s.takeOver_leaves⟩
  · exact (exec_yield h hears).trans (congrArg Host.Outcome.next (if_neg stays))
  · exact exec_resetting h hears

end Sys2Proof.Machine
end

section
/-!
SUPPORT. Commands of PM_CMD: entries asked for and wakes (R707, R709, R712, R714, R736; O56).
-/

namespace Sys2Proof.Machine

/-! ### A command changes PM_CMD alone -/

/-- From s to t PM_CMD alone has changed. -/
structure CmdOnly (s t : State) : Prop where
  only : OnlyRegs s t
  regs : ∀ o, o ≠ rPmCmd → t.reg o = s.reg o

section
variable {s t u : State}

theorem CmdOnly.setFld (h : CmdOnly s t) (hi lo v : Nat) : CmdOnly s (t.setFld rPmCmd hi lo v) :=
  ⟨h.only.setFld, fun o other => (State.reg_setFld_ne _ _ _ _ other).trans (h.regs o other)⟩

theorem CmdOnly.refl : CmdOnly s s := ⟨.refl, fun _ _ => rfl⟩

theorem CmdOnly.fld (h : CmdOnly s t) {o : Nat} (other : o ≠ rPmCmd) (hi lo : Nat) : t.fld o hi lo = s.fld o hi lo := by
  rw [State.fld, h.regs o other, State.fld]

theorem CmdOnly.pw (h : CmdOnly s t) : t.pw = s.pw := (congrArg State.pw h.only.frame :)
theorem CmdOnly.jobs (h : CmdOnly s t) : t.jobs = s.jobs := h.only.jobs
theorem CmdOnly.well (h : CmdOnly s t) (w : Nat) : t.well w = s.well w :=
  (congrArg (fun x : State => x.well w) h.only.frame :)
theorem CmdOnly.job (h : CmdOnly s t) (j : Nat) : t.job j = s.job j := (congrArg (fun x : State => x.job j) h.only.frame :)
theorem CmdOnly.now (h : CmdOnly s t) : t.now = s.now := by rw [State.now, h.regs _ (by decide), State.now]

theorem CmdOnly.wellPm (h : CmdOnly s t) (w : Nat) : t.wellPm w = s.wellPm w := h.fld (by decide) ..
theorem CmdOnly.devicePm (h : CmdOnly s t) : t.devicePm = s.devicePm := h.fld (by decide) ..
theorem CmdOnly.pairState (h : CmdOnly s t) : t.pairState = s.pairState := h.fld (by decide) ..

theorem CmdOnly.wellLost (h : CmdOnly s t) (w : Nat) : t.wellLost w = s.wellLost w := by
  rw [State.wellLost, h.fld (by decide), State.wellLost]

theorem CmdOnly.inService (h : CmdOnly s t) (w : Nat) : t.inService w = s.inService w := by
  rw [State.inService, h.fld (by decide), State.inService]

theorem CmdOnly.booted (h : CmdOnly s t) : t.booted = s.booted := by
  rw [State.booted, h.fld (by decide), h.fld (by decide), State.booted]

theorem CmdOnly.keptWells (h : CmdOnly s t) : t.keptWells = s.keptWells := by
  simp only [State.keptWells, h.wellLost, h.wellPm]

theorem CmdOnly.mayW2 (h : CmdOnly s t) (w : Nat) : t.mayW2 w = s.mayW2 w := by
  simp only [State.mayW2, h.wellPm, h.well, h.job]

theorem CmdOnly.undecided (h : CmdOnly s t) {q : Nat} (q_lt : q < 64) : t.undecided q = s.undecided q := by
  have other : rQStatus q ≠ rPmCmd := by
    simp only [rQStatus, rPmCmd]
    omega
  simp only [State.undecided, State.qGen, h.jobs, h.fld other]

theorem CmdOnly.rvState (h : CmdOnly s t) (k : Nat) : t.rvState k = s.rvState k :=
  h.fld (by simp only [rRvPkgStat, rPmCmd]; omega) ..

theorem List.all_congr_mem {α : Type} {l : List α} {f g : α → Bool} (h : ∀ a ∈ l, f a = g a) : l.all f = l.all g := by
  rw [Bool.eq_iff_iff, List.all_eq_true, List.all_eq_true]
  exact forall₂_congr fun a mem => by rw [h a mem]

theorem CmdOnly.mayW3 (h : CmdOnly s t) : t.mayW3 = s.mayW3 := by
  have queues : (List.range 64).all (fun q => !t.undecided q) = (List.range 64).all (fun q => !s.undecided q) :=
    List.all_congr_mem fun q mem => by rw [h.undecided (List.mem_range.mp mem)]
  have sessions : t.sessions = s.sessions := (congrArg State.sessions h.only.frame :)
  simp only [State.mayW3, h.wellLost, h.wellPm, h.mayW2, queues, h.jobs, sessions, h.rvState, h.pairState]

theorem CmdOnly.mayW4 (h : CmdOnly s t) : t.mayW4 = s.mayW4 := by
  simp only [State.mayW4, h.mayW3, h.fld (o := rJnStat) (by decide), h.pairState]

/-! ### Wake sources (R712) -/

theorem CmdOnly.freeSlot (h : CmdOnly s t) (w : Nat) : t.freeSlot w = s.freeSlot w := by
  rw [State.freeSlot, h.jobs, State.freeSlot]

theorem CmdOnly.scratchFree (h : CmdOnly s t) (w : Nat) : t.scratchFree w = s.scratchFree w := by
  have caches : t.caches = s.caches := h.only.caches
  rw [State.scratchFree, State.scratchMib, h.jobs, caches, State.scratchFree, State.scratchMib]

theorem CmdOnly.freePart (h : CmdOnly s t) : t.freePart = s.freePart := by
  rw [State.freePart, h.jobs, State.freePart]

theorem CmdOnly.wellFree (h : CmdOnly s t) (gone : List Nat) (w : Nat) : t.wellFree gone w = s.wellFree gone w := by
  rw [State.wellFree, h.well, State.wellFree]

/-- Room of a well for a job that was never bound. -/
theorem CmdOnly.room (h : CmdOnly s t) (gone : List Nat) (x : Job) :
    (fun w => t.inService w && t.wellFree gone w && (t.freeSlot w).isSome && decide (x.scratch ≤ t.scratchFree w))
      = fun w => s.inService w && s.wellFree gone w && (s.freeSlot w).isSome && decide (x.scratch ≤ s.scratchFree w) :=
  funext fun w => by rw [h.inService, h.wellFree, h.freeSlot, h.scratchFree]

theorem CmdOnly.newWells (h : CmdOnly s t) (gone : List Nat) (x : Job) (n : Nat) :
    t.newWells gone x n = s.newWells gone x n := by
  unfold State.newWells
  rw [h.room gone x, h.freePart]

theorem CmdOnly.wellsKept (h : CmdOnly s t) : t.wellsKept = s.wellsKept := by
  simp only [State.wellsKept, h.fld (o := rWhWellState) (by decide)]

theorem CmdOnly.bindWells (h : CmdOnly s t) (gone : List Nat) (x : Job) : t.bindWells gone x = s.bindWells gone x := by
  have old : (fun w => t.inService w && t.wellFree gone w) = fun w => s.inService w && s.wellFree gone w :=
    funext fun w => by rw [h.inService, h.wellFree]
  have serving : t.inServiceWells = s.inServiceWells := by
    rw [State.inServiceWells, funext h.inService, State.inServiceWells]
  unfold State.bindWells
  rw [old, h.room gone x, h.freePart, h.wellsKept, h.fld (by decide), serving, funext (h.newWells gone x)]

theorem CmdOnly.firstJob (h : CmdOnly s t) : t.firstJob = s.firstJob := by
  simp only [State.firstJob, h.jobs, h.job]

theorem CmdOnly.mayBind (h : CmdOnly s t) : t.mayBind = s.mayBind := by
  have pair : t.pair = s.pair := (congrArg State.pair h.only.frame :)
  simp only [State.mayBind, State.running, h.pairState, pair, h.booted, h.pw]

theorem CmdOnly.jobWells (h : CmdOnly s t) : t.jobWells = s.jobWells := by
  have jobs : t.job = s.job := funext h.job
  simp only [State.jobWells, h.firstJob, jobs, h.mayBind, h.bindWells]

theorem CmdOnly.rung (h : CmdOnly s t) : t.rung = s.rung := by
  have same (q : Nat) (mem : q ∈ List.range 64) :
      (t.fld (rQCtl q) 63 63 == 1 && t.fld (rQStatus q) 63 48 != t.fld (rQSqTail q) 15 0)
        = (s.fld (rQCtl q) 63 63 == 1 && s.fld (rQStatus q) 63 48 != s.fld (rQSqTail q) 15 0) := by
    have q_lt := List.mem_range.mp mem
    rw [h.fld (o := rQCtl q) (by simp only [rQCtl, rPmCmd]; omega),
      h.fld (o := rQStatus q) (by simp only [rQStatus, rPmCmd]; omega),
      h.fld (o := rQSqTail q) (by simp only [rQSqTail, rPmCmd]; omega)]
  exact List.find?_congr same

theorem CmdOnly.wakes (h : CmdOnly s t) (from_ : Nat) (wells : List Nat) (code : Nat) :
    t.wakes from_ wells code = s.wakes from_ wells code := by
  simp only [State.wakes, h.pw, h.fld (o := rPmWake) (by decide), h.rung, State.alarmLevel,
    h.fld (o := rPmAlarm) (by decide), h.now, h.jobWells]

theorem CmdOnly.levelSource (h : CmdOnly s t) (from_ : Nat) (wells : List Nat) :
    t.levelSource from_ wells = s.levelSource from_ wells := by
  simp only [State.levelSource, funext (h.wakes from_ wells)]

/-! ### Entries asked for by PM_CMD (R707, R709, R714, R736) -/

/-- A command of PM_CMD taken: its TARGET and its wells. -/
def State.pmAsked (s : State) (v : Word) (target : Nat) : State :=
  (s.setFld rPmCmd 26 24 target).setFld rPmCmd 11 0 (bitsOf v 11 0)

theorem State.pmAsked_cmdOnly (s : State) (v : Word) (target : Nat) : CmdOnly s (s.pmAsked v target) :=
  (CmdOnly.refl.setFld ..).setFld ..

theorem State.target_pmAsked (s : State) (v : Word) {target : Nat} (lt : target < 8) :
    (s.pmAsked v target).fld rPmCmd 26 24 = target := by
  rw [State.pmAsked, State.fld_setFld_of_apart _ (by decide) (by decide) (by decide) (.inr (by decide)),
    State.fld_setFld _ _ _ _ _ (by decide) (by decide)]
  exact Nat.mod_eq_of_lt lt

section
variable {v : Word} {target : Nat} {f : State → State}

theorem State.pmCmd_of_busy (go : bitOf v 27 = true) (named : bitsOf v 26 24 = target) (busy : s.fld rPmCmd 31 31 = 1) :
    s.pmCmd v target f = .next s :=
  (need_of (by rw [go, named, beq_self_eq_true]; rfl) 736 _).trans (if_pos busy)

theorem State.pmCmd_of_idle (go : bitOf v 27 = true) (named : bitsOf v 26 24 = target) (idle : s.fld rPmCmd 31 31 = 0) :
    s.pmCmd v target f = .next (f (s.pmAsked v target)) :=
  (need_of (by rw [go, named, beq_self_eq_true]; rfl) 736 _).trans (if_neg (by omega))

end

/-- PM_CMD after an answer. -/
def State.pmAnswered (s : State) (busy r : Nat) : State := (s.setFld rPmCmd 31 31 busy).setFld rPmCmd 30 28 r

theorem State.pmAnswered_leaves (s : State) {busy r : Nat} (busy_lt : busy < 2) (r_lt : r < 8) :
    CmdOnly s (s.pmAnswered busy r) ∧ (s.pmAnswered busy r).fld rPmCmd 31 31 = busy
      ∧ (s.pmAnswered busy r).fld rPmCmd 30 28 = r
      ∧ (s.pmAnswered busy r).fld rPmCmd 26 24 = s.fld rPmCmd 26 24 := by
  refine ⟨(CmdOnly.refl.setFld ..).setFld .., ?_, ?_, ?_⟩
  · rw [State.pmAnswered, State.fld_setFld_of_apart _ (by decide) (by decide) (by decide) (.inr (by decide)),
      State.fld_setFld _ _ _ _ _ (by decide) (by decide)]
    exact Nat.mod_eq_of_lt busy_lt
  · rw [State.pmAnswered, State.fld_setFld _ _ _ _ _ (by decide) (by decide)]
    exact Nat.mod_eq_of_lt r_lt
  · rw [State.pmAnswered, State.fld_setFld_of_apart _ (by decide) (by decide) (by decide) (.inl (by decide)),
      State.fld_setFld_of_apart _ (by decide) (by decide) (by decide) (.inl (by decide))]

theorem State.pmDone_eq (s : State) (r : Nat) : s.pmDone r = s.pmAnswered 0 r := rfl

/-- An entry under way. -/
def State.entryBegun (s : State) (target : Nat) (wells : List Nat) (cmd : Bool) : State :=
  s.modPw (fun p => { p with entry := some { target := target, wells := wells, at_ := s.now, cmd := cmd } })

theorem State.entryBegun_leaves (s : State) (target : Nat) (wells : List Nat) (cmd : Bool) :
    OnlyPower s (s.entryBegun target wells cmd) ∧ (s.entryBegun target wells cmd).regs = s.regs
      ∧ (s.entryBegun target wells cmd).pw
        = { s.pw with entry := some { target := target, wells := wells, at_ := s.now, cmd := cmd } } :=
  ⟨s.modPw_onlyPower _, rfl, rfl⟩

theorem State.requestEntry_of_refused (s : State) (target : Nat) (wells : List Nat) :
    s.requestEntry target wells true false = s.pmAnswered 0 1 := rfl

theorem State.requestEntry_of_source {target : Nat} {wells : List Nat} (held : (s.levelSource target wells).isSome = true) :
    s.requestEntry target wells true true = s.pmAnswered 0 3 := if_pos held

theorem State.requestEntry_of_none {target : Nat} {wells : List Nat} (none_ : s.levelSource target wells = none) :
    s.requestEntry target wells true true = (s.pmAnswered 1 0).entryBegun target wells true :=
  (if_neg (by rw [none_]; decide) : (if (s.levelSource target wells).isSome = true then _ else _) = _)

theorem exec_pmCmdW2 (v : Word) : exec (.pmCmdW2 v) s = s.pmCmd v 2 (fun s => s.requestEntry 2 (wellsOf (bitsOf v 11 0)) true
    (s.pw.entry.isNone && s.devicePm == 0 && (wellsOf (bitsOf v 11 0)).all (fun w => s.inService w && s.mayW2 w))) := rfl

theorem exec_pmCmdW3 (v : Word) : exec (.pmCmdW3 v) s = s.pmCmd v 3 (fun s => s.requestEntry 3 s.keptWells true
    (s.pw.entry.isNone && s.booted && s.mayW3)) := rfl

theorem exec_pmCmdW4 (v : Word) : exec (.pmCmdW4 v) s = s.pmCmd v 4 (fun s => s.requestEntry 4 s.keptWells true
    (s.pw.entry.isNone && s.booted && s.mayW4)) := rfl

/-- The commands of PM_CMD that ask for an entry as one. -/
theorem exec_pmOp {i : Instr} {v : Word} {target : Nat} {wells : List Nat} {ok : Bool}
    (h : s.pmOp i = some (v, target, wells, ok)) :
    target < 8 ∧ ∃ f, exec i s = s.pmCmd v target f ∧ ∀ t, CmdOnly s t → f t = t.requestEntry target wells true ok := by
  unfold State.pmOp at h
  split at h
  next v' =>
    cases h
    refine ⟨by decide, _, exec_pmCmdW2 _, fun t only => ?_⟩
    rw [only.pw, only.devicePm, funext only.inService, funext only.mayW2]
  next v' =>
    cases h
    refine ⟨by decide, _, exec_pmCmdW3 _, fun t only => ?_⟩
    rw [only.keptWells, only.pw, only.booted, only.mayW3]
  next v' =>
    cases h
    refine ⟨by decide, _, exec_pmCmdW4 _, fun t only => ?_⟩
    rw [only.keptWells, only.pw, only.booted, only.mayW4]
  · cases h

/-- The answer to a command of PM_CMD that asks for an entry. -/
theorem pmEntry_answers (i : Instr) (v : Word) (target : Nat) (wells : List Nat) (ok : Bool)
    (h : s.pmOp i = some (v, target, wells, ok)) (go : bitOf v 27 = true) (named : bitsOf v 26 24 = target)
    (idle : s.fld rPmCmd 31 31 = 0) :
    ∃ t, exec i s = .next t ∧ t.fld rPmCmd 26 24 = target ∧ (∀ o, o ≠ rPmCmd → t.reg o = s.reg o)
      ∧ { t with regs := s.regs, pw := s.pw } = s
      ∧ (ok = false → t.fld rPmCmd 31 31 = 0 ∧ t.fld rPmCmd 30 28 = 1 ∧ t.pw = s.pw)
      ∧ (ok = true → (s.levelSource target wells).isSome = true →
          t.fld rPmCmd 31 31 = 0 ∧ t.fld rPmCmd 30 28 = 3 ∧ t.pw = s.pw)
      ∧ (ok = true → s.levelSource target wells = none → t.fld rPmCmd 31 31 = 1 ∧ t.fld rPmCmd 30 28 = 0
          ∧ t.pw = { s.pw with entry := some { target := target, wells := wells, at_ := s.now, cmd := true } }) := by
  obtain ⟨lt, f, run, asks⟩ := exec_pmOp h
  have asked := s.pmAsked_cmdOnly v target
  have target_ := s.target_pmAsked v lt
  rw [State.pmCmd_of_idle go named idle, asks _ asked] at run
  generalize s.pmAsked v target = u at run asked target_
  have source := asked.levelSource target wells
  cases ok with
  | false =>
    obtain ⟨only, busy, result, kept⟩ := u.pmAnswered_leaves (busy := 0) (r := 1) (by decide) (by decide)
    rw [State.requestEntry_of_refused] at run
    have all : CmdOnly s (u.pmAnswered 0 1) := ⟨asked.only.trans only.only, fun o other =>
      (only.regs o other).trans (asked.regs o other)⟩
    generalize u.pmAnswered 0 1 = t at run busy result kept all
    exact ⟨t, run, kept.trans target_, all.regs, all.only.onlyPower.frame, fun _ => ⟨busy, result, all.pw⟩,
      fun e => absurd e Bool.false_ne_true, fun e => absurd e Bool.false_ne_true⟩
  | true =>
    cases held : s.levelSource target wells with
    | some c =>
      obtain ⟨only, busy, result, kept⟩ := u.pmAnswered_leaves (busy := 0) (r := 3) (by decide) (by decide)
      rw [State.requestEntry_of_source (by rw [source, held]; rfl)] at run
      have all : CmdOnly s (u.pmAnswered 0 3) := ⟨asked.only.trans only.only, fun o other =>
        (only.regs o other).trans (asked.regs o other)⟩
      generalize u.pmAnswered 0 3 = t at run busy result kept all
      exact ⟨t, run, kept.trans target_, all.regs, all.only.onlyPower.frame, fun e => absurd e.symm Bool.false_ne_true,
        fun _ _ => ⟨busy, result, all.pw⟩, fun _ e => nomatch e⟩
    | none =>
      obtain ⟨only, busy, result, kept⟩ := u.pmAnswered_leaves (busy := 1) (r := 0) (by decide) (by decide)
      rw [State.requestEntry_of_none (source.trans held)] at run
      have all : CmdOnly s (u.pmAnswered 1 0) := ⟨asked.only.trans only.only, fun o other =>
        (only.regs o other).trans (asked.regs o other)⟩
      generalize u.pmAnswered 1 0 = t at run busy result kept all
      obtain ⟨power, regs, pw⟩ := t.entryBegun_leaves target wells true
      have fld (hi lo : Nat) : (t.entryBegun target wells true).fld rPmCmd hi lo = t.fld rPmCmd hi lo := by
        rw [State.fld, State.reg_of_regs regs, State.fld]
      rw [all.now, all.pw] at pw
      generalize t.entryBegun target wells true = x at run power regs pw fld
      exact ⟨x, run, (fld ..).trans (kept.trans target_), fun o other => (State.reg_of_regs regs o).trans (all.regs o other),
        (all.only.onlyPower.trans power).frame, fun e => absurd e.symm Bool.false_ne_true,
        fun _ e => absurd e Bool.false_ne_true,
        fun _ _ => ⟨(fld ..).trans busy, (fld ..).trans result, pw⟩⟩

end

end Sys2Proof.Machine
end

section
/-!
SUPPORT. Wakes, from commands and from wake sources (R712 to R719; O56).
-/

namespace Sys2Proof.Machine

section
variable {s t u : State}

/-! ### A wake begins (R715, R716) -/

/-- The record of a wake. -/
def State.wakeNoted (s : State) (src from_ q : Nat) : State :=
  (s.setReg rPmWakeLast (setBits (setBits (setBits (setBits 0#64 63 63 1) 55 52 src) 51 48 from_) 47 42 q)).setFld rPmWake
    (src - 1) (src - 1) 1

/-- The domains that a wake starts, in order. -/
def Power.waking (p : Power) (now from_ : Nat) (wells : List Nat) (cmd : Bool) : Power :=
  { p with staging := p.staging ++ wells.filter (fun w => !p.staging.contains w), deep := (p.deep || decide (3 ≤ from_)),
           wakeAt := now, wakeCmd := (p.wakeCmd || cmd), degraded := false, twinWaits := false }

/-- The periphery's domain starts with an exit from W3. -/
def State.wakeRailed (s : State) (from_ now : Nat) : State :=
  if from_ = 3 then s.setRail 24 { phase := 1, at_ := now } else s

/-- PM_CMD of a wake that a command asks for. -/
def State.wakeAnswered (s : State) (cmd : Bool) : State := if cmd then s.pmAnswered 1 0 else s

/-- A wake that is recorded, and staged. -/
def State.wakeStaged (s : State) (src from_ q : Nat) (wells : List Nat) (cmd : Bool) : State :=
  (s.wakeNoted src from_ q).modPw (fun p => p.waking (s.wakeNoted src from_ q).now from_ wells cmd)

theorem State.startWake_eq (s : State) (src from_ q : Nat) (wells : List Nat) (cmd : Bool) :
    s.startWake src from_ q wells cmd
      = ((s.wakeStaged src from_ q wells cmd).wakeAnswered cmd).wakeRailed from_ (s.wakeNoted src from_ q).now := rfl

theorem State.wakeNoted_leaves (s : State) (src from_ q : Nat) : OnlyRegs s (s.wakeNoted src from_ q)
    ∧ (∀ o, o ≠ rPmWakeLast → o ≠ rPmWake → (s.wakeNoted src from_ q).reg o = s.reg o)
    ∧ (s.wakeNoted src from_ q).fld rPmWakeLast 55 52 = src % 16
    ∧ (s.wakeNoted src from_ q).fld rPmWakeLast 51 48 = from_ % 16 := by
  unfold State.wakeNoted
  refine ⟨(s.setReg_onlyRegs ..).trans (State.setFld_onlyRegs ..), fun o h h' =>
    (State.reg_setFld_ne _ _ _ _ h').trans (State.reg_setReg_ne _ _ h), ?_, ?_⟩
  · rw [State.fld_setFld_ne _ _ _ _ _ _ (by decide), State.fld_setReg]
    simp (disch := omega) only [bitsOf_setBits_of_apart, bitsOf_setBits]
    rfl
  · rw [State.fld_setFld_ne _ _ _ _ _ _ (by decide), State.fld_setReg]
    simp (disch := omega) only [bitsOf_setBits_of_apart, bitsOf_setBits]
    rfl

/-- From s to t the power record and the registers of a wake have changed. -/
structure Waked (s t : State) : Prop where
  power : OnlyPower s t
  regs : ∀ o, o ≠ rPmWakeLast → o ≠ rPmWake → o ≠ rPmCmd → t.reg o = s.reg o
  entry : t.pw.entry = s.pw.entry
  wakeAt : t.pw.wakeAt = s.now

theorem Power.mem_waking (p : Power) (now from_ : Nat) {wells : List Nat} (cmd : Bool) {w : Nat} (mem : w ∈ wells) :
    w ∈ (p.waking now from_ wells cmd).staging := by
  show w ∈ p.staging ++ wells.filter (fun w => !p.staging.contains w)
  by_cases staged : w ∈ p.staging
  · exact List.mem_append_left _ staged
  · exact List.mem_append_right _ (List.mem_filter.mpr ⟨mem, by simpa using staged⟩)

theorem State.wakeAnswered_cmdOnly (s : State) (cmd : Bool) : CmdOnly s (s.wakeAnswered cmd) := by
  unfold State.wakeAnswered
  split
  · exact (s.pmAnswered_leaves (by decide) (by decide)).1
  · exact .refl

theorem State.setRail_onlyPower (s : State) (d : Nat) (r : Rail) : OnlyPower s (s.setRail d r) := s.modPw_onlyPower _

theorem State.rail_setRail (s : State) (d : Nat) (r : Rail) : (s.setRail d r).rail d = r := tabGet_put_self ..

theorem State.rail_setRail_ne (s : State) {d k : Nat} (other : k ≠ d) (r : Rail) : (s.setRail d r).rail k = s.rail k :=
  tabGet_put_ne _ _ _ other

/-- What setting a domain's rails leaves of the power record. -/
theorem State.setRail_leaves (s : State) (d : Nat) (r : Rail) : (s.setRail d r).regs = s.regs
    ∧ (s.setRail d r).pw = { s.pw with rails := tabPut {} s.pw.rails d r } := ⟨rfl, rfl⟩

/-- A wake of source src from a state. -/
theorem State.startWake_leaves (s : State) (src from_ q : Nat) (wells : List Nat) (cmd : Bool) :
    Waked s (s.startWake src from_ q wells cmd)
      ∧ (s.startWake src from_ q wells cmd).fld rPmWakeLast 55 52 = src % 16
      ∧ (s.startWake src from_ q wells cmd).fld rPmWakeLast 51 48 = from_ % 16
      ∧ (cmd = true → (s.startWake src from_ q wells cmd).fld rPmCmd 31 31 = 1)
      ∧ (∀ w ∈ wells, w ∈ (s.startWake src from_ q wells cmd).pw.staging)
      ∧ (s.startWake src from_ q wells cmd).pw.wakeCmd = (s.pw.wakeCmd || cmd)
      ∧ (s.startWake src from_ q wells cmd).pw.deep = (s.pw.deep || decide (3 ≤ from_))
      ∧ (from_ = 3 → ((s.startWake src from_ q wells cmd).rail 24).phase = 1) := by
  rw [State.startWake_eq]
  unfold State.wakeStaged
  obtain ⟨only, regs, src_, from'⟩ := s.wakeNoted_leaves src from_ q
  have pw : (s.wakeNoted src from_ q).pw = s.pw := (congrArg State.pw only.frame :)
  have now : (s.wakeNoted src from_ q).now = s.now := by
    rw [State.now, regs _ (by decide) (by decide), State.now]
  generalize s.wakeNoted src from_ q = a at only regs src_ from' pw now ⊢
  have power : OnlyPower s (a.modPw (fun p => p.waking a.now from_ wells cmd)) :=
    only.onlyPower.trans (a.modPw_onlyPower _)
  have regs' (o : Nat) : (a.modPw (fun p => p.waking a.now from_ wells cmd)).reg o = a.reg o := a.reg_modPw _ o
  have pw' : (a.modPw (fun p => p.waking a.now from_ wells cmd)).pw = s.pw.waking s.now from_ wells cmd := by
    rw [← pw, ← now]
    rfl
  generalize a.modPw (fun p => p.waking a.now from_ wells cmd) = b at power regs' pw' ⊢
  have answered := b.wakeAnswered_cmdOnly cmd
  have asked : cmd = true → (b.wakeAnswered cmd).fld rPmCmd 31 31 = 1 := by
    rintro rfl
    exact (b.pmAnswered_leaves (by decide) (by decide)).2.1
  generalize b.wakeAnswered cmd = c at answered asked ⊢
  have pw3 : c.pw = s.pw.waking s.now from_ wells cmd := answered.pw.trans pw'
  have power3 : OnlyPower s c := power.trans answered.only.onlyPower
  have regs3 (o : Nat) (h : o ≠ rPmCmd) : c.reg o = a.reg o := (answered.regs o h).trans (regs' o)
  have source : c.fld rPmWakeLast 55 52 = src % 16 := by rw [State.fld, regs3 _ (by decide), ← State.fld, src_]
  have origin : c.fld rPmWakeLast 51 48 = from_ % 16 := by rw [State.fld, regs3 _ (by decide), ← State.fld, from']
  unfold State.wakeRailed
  by_cases deep : from_ = 3
  · obtain ⟨regs4, pw4⟩ := c.setRail_leaves 24 { phase := 1, at_ := a.now }
    have power4 := c.setRail_onlyPower 24 { phase := 1, at_ := a.now }
    have rail := c.rail_setRail 24 { phase := 1, at_ := a.now }
    rw [if_pos deep]
    generalize c.setRail 24 { phase := 1, at_ := a.now } = d at regs4 pw4 power4 rail ⊢
    have fld (o hi lo : Nat) : d.fld o hi lo = c.fld o hi lo := by rw [State.fld, State.reg_of_regs regs4, State.fld]
    rw [pw3] at pw4
    refine ⟨⟨power3.trans power4, fun o h h' h'' => (State.reg_of_regs regs4 o).trans ((regs3 o h'').trans (regs o h h')), ?_, ?_⟩,
      (fld ..).trans source, (fld ..).trans origin, fun e => (fld ..).trans (asked e), fun w mem => ?_, ?_, ?_, fun _ => ?_⟩
    · exact (congrArg Power.entry pw4 :)
    · exact (congrArg Power.wakeAt pw4 :)
    · rw [(congrArg Power.staging pw4 :)]
      exact s.pw.mem_waking s.now from_ cmd mem
    · exact (congrArg Power.wakeCmd pw4 :)
    · exact (congrArg Power.deep pw4 :)
    · rw [rail]
  · rw [if_neg deep]
    refine ⟨⟨power3, fun o h h' h'' => (regs3 o h'').trans (regs o h h'), (congrArg Power.entry pw3 :),
      (congrArg Power.wakeAt pw3 :)⟩, source, origin, asked, fun w mem => ?_, (congrArg Power.wakeCmd pw3 :),
      (congrArg Power.deep pw3 :), fun e => absurd e deep⟩
    rw [(congrArg Power.staging pw3 :)]
    exact s.pw.mem_waking s.now from_ cmd mem

/-! ### Wakes by command (R712) -/

/-- What a wake that a command asks for does. -/
def State.wakeByCmd (s : State) (mask : Nat) : State :=
  if !(s.fld rPmWake 23 16).testBit 6 then s.pmDone 0
  else if s.devicePm = 3 then (if s.pw.rails.isEmpty then s.startWake 7 3 0 s.offWells true else s.joinWake)
  else if s.pw.entry.isSome then s.undoEntry 3
  else if (s.asleep (wellsOf mask)).isEmpty then s.pmDone 0
  else s.startWake 7 2 0 (s.asleep (wellsOf mask)) true

theorem exec_pmCmdWake (v : Word) : exec (.pmCmdWake v) s = s.pmCmd v 0 (fun s => s.wakeByCmd (bitsOf v 11 0)) := rfl

theorem State.wakeByCmd_of_off (off : (s.fld rPmWake 23 16).testBit 6 = false) (mask : Nat) :
    s.wakeByCmd mask = s.pmAnswered 0 0 := if_pos (by rw [off]; rfl)

section
variable (on : (s.fld rPmWake 23 16).testBit 6 = true) (mask : Nat)
include on

theorem State.wakeByCmd_of_exit (w3 : s.devicePm = 3) (rails : s.pw.rails = []) :
    s.wakeByCmd mask = s.startWake 7 3 0 s.offWells true :=
  (if_neg (by rw [on]; decide)).trans ((if_pos w3).trans (if_pos (by rw [rails]; rfl)))

theorem State.wakeByCmd_of_join (w3 : s.devicePm = 3) (rails : s.pw.rails ≠ []) : s.wakeByCmd mask = s.joinWake :=
  (if_neg (by rw [on]; decide)).trans ((if_pos w3).trans (if_neg (by rwa [List.isEmpty_iff])))

theorem State.wakeByCmd_of_entry (up : s.devicePm ≠ 3) (entry : s.pw.entry.isSome = true) :
    s.wakeByCmd mask = s.undoEntry 3 :=
  (if_neg (by rw [on]; decide)).trans ((if_neg up).trans (if_pos entry))

theorem State.wakeByCmd_of_awake (up : s.devicePm ≠ 3) (entry : s.pw.entry = none) (awake : s.asleep (wellsOf mask) = []) :
    s.wakeByCmd mask = s.pmAnswered 0 0 :=
  (if_neg (by rw [on]; decide)).trans ((if_neg up).trans ((if_neg (by rw [entry]; decide)).trans
    (if_pos (by rw [awake]; rfl))))

theorem State.wakeByCmd_of_asleep (up : s.devicePm ≠ 3) (entry : s.pw.entry = none) (asleep : s.asleep (wellsOf mask) ≠ []) :
    s.wakeByCmd mask = s.startWake 7 2 0 (s.asleep (wellsOf mask)) true :=
  (if_neg (by rw [on]; decide)).trans ((if_neg up).trans ((if_neg (by rw [entry]; decide)).trans
    (if_neg (by rwa [List.isEmpty_iff]))))

end

theorem CmdOnly.asleep (h : CmdOnly s t) (l : List Nat) : t.asleep l = s.asleep l := by
  simp only [State.asleep, h.wellPm]

theorem OnlyPower.sameMem (h : OnlyPower s t) : sameMem s t := by
  obtain ⟨regs, pw, rfl⟩ := h
  exact ⟨rfl, rfl, rfl, rfl, rfl, rfl⟩

theorem OnlyPower.jobs (h : OnlyPower s t) : t.jobs = s.jobs := (congrArg State.jobs h.frame :)

theorem CmdOnly.trans (h : CmdOnly s t) (g : CmdOnly t u) : CmdOnly s u :=
  ⟨h.only.trans g.only, fun o other => (g.regs o other).trans (h.regs o other)⟩

/-- An entry that is ended, with its command's result. -/
theorem State.undoEntry_leaves (s : State) {e : Entry} (entry : s.pw.entry = some e) {r : Nat} (lt : r < 8) :
    OnlyPower s (s.undoEntry r) ∧ (s.undoEntry r).pw = { s.pw with entry := none }
      ∧ (e.cmd = true → (s.undoEntry r).fld rPmCmd 31 31 = 0 ∧ (s.undoEntry r).fld rPmCmd 30 28 = r)
      ∧ ∀ o, o ≠ rPmCmd → (s.undoEntry r).reg o = s.reg o := by
  have forgotten (a : State) (only : CmdOnly s a) : OnlyPower s (a.modPw (fun p => { p with entry := none }))
      ∧ (a.modPw (fun p => { p with entry := none })).pw = { s.pw with entry := none }
      ∧ ∀ o, (a.modPw (fun p => { p with entry := none })).reg o = a.reg o := by
    refine ⟨only.only.onlyPower.trans (a.modPw_onlyPower _), ?_, fun o => a.reg_modPw _ o⟩
    rw [← only.pw]
    rfl
  unfold State.undoEntry
  rw [entry]
  dsimp only
  split
  next cmd =>
    obtain ⟨only, busy, result, -⟩ := s.pmAnswered_leaves (busy := 0) (r := r) (by decide) lt
    obtain ⟨power, pw, regs⟩ := forgotten _ only
    rw [State.pmDone_eq]
    refine ⟨power, pw, fun _ => ⟨?_, ?_⟩, fun o other => (regs o).trans (only.regs o other)⟩
    · rw [State.fld_modPw, busy]
    · rw [State.fld_modPw, result]
  next uncmd =>
    obtain ⟨power, pw, regs⟩ := forgotten s .refl
    exact ⟨power, pw, fun cmd => absurd cmd uncmd, fun o _ => regs o⟩

theorem State.joinWake_leaves (s : State) : OnlyPower s s.joinWake ∧ s.joinWake.pw = { s.pw with wakeCmd := true }
    ∧ s.joinWake.fld rPmCmd 31 31 = 1 := by
  have eq : s.joinWake = (s.pmAnswered 1 0).modPw (fun p => { p with wakeCmd := true }) := rfl
  obtain ⟨only, busy, -, -⟩ := s.pmAnswered_leaves (busy := 1) (r := 0) (by decide) (by decide)
  rw [eq]
  generalize s.pmAnswered 1 0 = u at only busy ⊢
  refine ⟨only.only.onlyPower.trans (u.modPw_onlyPower _), ?_, ?_⟩
  · rw [← only.pw]
    rfl
  · rw [State.fld_modPw, busy]

/-- The answers of a wake by command, once its bits are read. -/
theorem State.wakeByCmd_leaves (s : State) (on : (s.fld rPmWake 23 16).testBit 6 = true) (mask : Nat) :
    sameMem s (s.wakeByCmd mask) ∧ (s.wakeByCmd mask).jobs = s.jobs
      ∧ (s.devicePm = 3 → (s.wakeByCmd mask).fld rPmCmd 31 31 = 1 ∧ (s.wakeByCmd mask).pw.wakeCmd = true)
      ∧ (s.devicePm = 3 → s.pw.rails = [] → (s.wakeByCmd mask).fld rPmWakeLast 55 52 = 7)
      ∧ (s.devicePm = 3 → s.pw.rails ≠ [] → (s.wakeByCmd mask).pw = { s.pw with wakeCmd := true })
      ∧ (s.devicePm ≠ 3 → s.pw.entry = none → s.asleep (wellsOf mask) = [] →
          (s.wakeByCmd mask).fld rPmCmd 31 31 = 0 ∧ (s.wakeByCmd mask).fld rPmCmd 30 28 = 0
            ∧ (s.wakeByCmd mask).pw = s.pw)
      ∧ (s.devicePm ≠ 3 → s.pw.entry = none → s.asleep (wellsOf mask) ≠ [] →
          (s.wakeByCmd mask).fld rPmCmd 31 31 = 1 ∧ ∀ w ∈ s.asleep (wellsOf mask), w ∈ (s.wakeByCmd mask).pw.staging)
      ∧ (s.devicePm ≠ 3 → s.pw.entry.isSome = true → (s.wakeByCmd mask).pw = { s.pw with entry := none }) := by
  by_cases w3 : s.devicePm = 3
  · by_cases rails : s.pw.rails = []
    · obtain ⟨waked, src, -, busy, -, cmd, -, -⟩ := s.startWake_leaves 7 3 0 s.offWells true
      rw [State.wakeByCmd_of_exit on mask w3 rails]
      exact ⟨waked.power.sameMem, waked.power.jobs, fun _ => ⟨busy rfl, cmd.trans (Bool.or_true _)⟩, fun _ _ => src,
        fun _ other => absurd rails other, fun up => absurd w3 up, fun up => absurd w3 up, fun up => absurd w3 up⟩
    · obtain ⟨power, pw, busy⟩ := s.joinWake_leaves
      rw [State.wakeByCmd_of_join on mask w3 rails]
      exact ⟨power.sameMem, power.jobs, fun _ => ⟨busy, (congrArg Power.wakeCmd pw :)⟩, fun _ empty => absurd empty rails,
        fun _ _ => pw, fun up => absurd w3 up, fun up => absurd w3 up, fun up => absurd w3 up⟩
  · cases entry : s.pw.entry with
    | some e =>
      obtain ⟨power, pw, -, -⟩ := s.undoEntry_leaves entry (r := 3) (by decide)
      rw [State.wakeByCmd_of_entry on mask w3 (by rw [entry]; rfl)]
      exact ⟨power.sameMem, power.jobs, fun up => absurd up w3, fun up => absurd up w3, fun up => absurd up w3,
        fun _ none_ => absurd none_ (Option.some_ne_none e), fun _ none_ => absurd none_ (Option.some_ne_none e), fun _ _ => pw⟩
    | none =>
      by_cases awake : s.asleep (wellsOf mask) = []
      · obtain ⟨only, busy, result, -⟩ := s.pmAnswered_leaves (busy := 0) (r := 0) (by decide) (by decide)
        rw [State.wakeByCmd_of_awake on mask w3 entry awake]
        exact ⟨only.only.sameMem, only.jobs, fun up => absurd up w3, fun up => absurd up w3, fun up => absurd up w3,
          fun _ _ _ => ⟨busy, result, only.pw⟩, fun _ _ other => absurd awake other,
          fun _ some_ => absurd some_ Bool.false_ne_true⟩
      · obtain ⟨waked, -, -, busy, staged, -, -, -⟩ := s.startWake_leaves 7 2 0 (s.asleep (wellsOf mask)) true
        rw [State.wakeByCmd_of_asleep on mask w3 entry awake]
        exact ⟨waked.power.sameMem, waked.power.jobs, fun up => absurd up w3, fun up => absurd up w3,
          fun up => absurd up w3, fun _ _ none_ => absurd none_ awake, fun _ _ _ => ⟨busy rfl, staged⟩,
          fun _ some_ => absurd some_ Bool.false_ne_true⟩

theorem pmCmdWake_answers (s : State) (v : Word) (go : bitOf v 27 = true) (named : bitsOf v 26 24 = 0) :
    (s.fld rPmCmd 31 31 = 1 → exec (.pmCmdWake v) s = .next s)
    ∧ (s.fld rPmCmd 31 31 = 0 → (s.fld rPmWake 23 16).testBit 6 = false →
      ∃ t, exec (.pmCmdWake v) s = .next t ∧ t.fld rPmCmd 31 31 = 0 ∧ t.fld rPmCmd 30 28 = 0
        ∧ { t with regs := s.regs } = s)
    ∧ (s.fld rPmCmd 31 31 = 0 → (s.fld rPmWake 23 16).testBit 6 = true →
      ∃ t, exec (.pmCmdWake v) s = .next t ∧ sameMem s t ∧ t.jobs = s.jobs
        ∧ (s.devicePm = 3 → t.fld rPmCmd 31 31 = 1 ∧ t.pw.wakeCmd = true)
        ∧ (s.devicePm = 3 → s.pw.rails = [] → t.fld rPmWakeLast 55 52 = 7)
        ∧ (s.devicePm = 3 → s.pw.rails ≠ [] → t.pw = { s.pw with wakeCmd := true })
        ∧ (s.devicePm ≠ 3 → s.pw.entry = none → (s.asleep (wellsOf (bitsOf v 11 0))) = [] →
            t.fld rPmCmd 31 31 = 0 ∧ t.fld rPmCmd 30 28 = 0 ∧ t.pw = s.pw)
        ∧ (s.devicePm ≠ 3 → s.pw.entry = none → (s.asleep (wellsOf (bitsOf v 11 0))) ≠ [] →
            t.fld rPmCmd 31 31 = 1 ∧ (∀ w ∈ s.asleep (wellsOf (bitsOf v 11 0)), w ∈ t.pw.staging))
        ∧ (s.devicePm ≠ 3 → s.pw.entry.isSome = true → t.pw = { s.pw with entry := none })) := by
  have asked := s.pmAsked_cmdOnly v 0
  refine ⟨fun busy => (exec_pmCmdWake v).trans (State.pmCmd_of_busy go named busy), fun idle off => ?_, fun idle on => ?_⟩
  · have run := (exec_pmCmdWake (s := s) v).trans (State.pmCmd_of_idle go named idle)
    generalize s.pmAsked v 0 = u at asked run
    rw [State.wakeByCmd_of_off (by rw [asked.fld (by decide), off])] at run
    obtain ⟨only, busy, result, -⟩ := u.pmAnswered_leaves (busy := 0) (r := 0) (by decide) (by decide)
    exact ⟨_, run, busy, result, (asked.only.trans only.only).frame⟩
  · have run := (exec_pmCmdWake (s := s) v).trans (State.pmCmd_of_idle go named idle)
    generalize s.pmAsked v 0 = u at asked run
    have leaves := u.wakeByCmd_leaves (by rw [asked.fld (by decide), on]) (bitsOf v 11 0)
    rw [asked.devicePm, asked.asleep, asked.pw] at leaves
    generalize u.wakeByCmd (bitsOf v 11 0) = t at run leaves
    obtain ⟨mem, jobs, rest⟩ := leaves
    exact ⟨t, run, asked.only.sameMem.trans mem, jobs.trans asked.jobs, rest⟩

end

end Sys2Proof.Machine
end

section
/-!
SUPPORT. Entries of the wells and of the device into their power states (R472, R703 to R714; O56).
-/

namespace Sys2Proof.Machine

section
variable {s t u : State}

/-! ### W1 (R703, R704) -/

theorem State.bob_mapBobs {f : Bobbin → Bobbin} {P : Bobbin → Prop} (none_ : P {}) (each : ∀ b, P (f b)) (s : State)
    (w : Nat) {p : Nat} (p_lt : p < 136) : P ((s.mapBobs w f).bob w p) := by
  have own : (w * 136 + p) / 136 = w := by omega
  refine tabGet_tabMap_of_forall (f := fun k b => if k / 136 = w then f b else b) none_ (fun b => ?_) s.bobs
  rw [if_pos own]
  exact each b

/-- The bobbins of a well without power. -/
def State.unpowered (s : State) (w : Nat) : State := s.mapBobs w (fun b => { b with powered := false, admitted := false })

theorem State.bob_unpowered (s : State) (w : Nat) {p : Nat} (p_lt : p < 136) :
    ((s.unpowered w).bob w p).powered = false ∧ ((s.unpowered w).bob w p).admitted = false :=
  State.bob_mapBobs (P := fun b => b.powered = false ∧ b.admitted = false) ⟨rfl, rfl⟩ (fun _ => ⟨rfl, rfl⟩) s w p_lt

/-- A well with no exit under way. -/
def State.settled (s : State) (w : Nat) : State := s.setWell w { s.well w with exitAt := none }

/-- A request for W1 that is met. -/
def State.w1Met (s : State) (w : Nat) : State := s.modPw (fun p => { p with w1Req := tabPut none p.w1Req w none })

theorem State.enterW1_eq (s : State) (w : Nat) : s.enterW1 w = (((s.unpowered w).settled w).setWellPm w 1).w1Met w := rfl

theorem OnlyPower.bobs (h : OnlyPower s t) : t.bobs = s.bobs := (congrArg State.bobs h.frame :)

theorem State.wellPm_modPw (s : State) (f : Power → Power) (w : Nat) : (s.modPw f).wellPm w = s.wellPm w := rfl

theorem State.enterW1_leaves (s : State) {w : Nat} (w_lt : w < 12) : (s.enterW1 w).wellPm w = 1
    ∧ (∀ p, p < 136 → ((s.enterW1 w).bob w p).powered = false ∧ ((s.enterW1 w).bob w p).admitted = false)
    ∧ sameMem s (s.enterW1 w) := by
  have bare : sameMem s (s.unpowered w) := ⟨rfl, rfl, rfl, rfl, rfl, rfl⟩
  have bobs (p : Nat) (p_lt : p < 136) := s.bob_unpowered w p_lt
  rw [State.enterW1_eq]
  generalize s.unpowered w = a at bare bobs ⊢
  have calm : sameMem a (a.settled w) := ⟨rfl, rfl, rfl, rfl, rfl, rfl⟩
  have same : (a.settled w).bobs = a.bobs := rfl
  generalize a.settled w = b at calm same ⊢
  have power : OnlyPower b ((b.setWellPm w 1).w1Met w) := (b.setWellPm_onlyPower w 1).trans (State.modPw_onlyPower ..)
  refine ⟨?_, fun p p_lt => ?_, (bare.trans calm).trans power.sameMem⟩
  · rw [State.w1Met, State.wellPm_modPw, State.wellPm_setWellPm b w_lt (by decide)]
  · rw [State.bob_of_bobs power.bobs, State.bob_of_bobs same]
    exact bobs p p_lt

theorem exec_w1IdleEntry_of {w : WellId} {t0 : Nat} (awake : s.wellPm w = 0) (serves : s.inService w = true)
    (idle : s.wellBusy w = false) (since : tabGet none s.pw.idleAt w.val = some t0)
    (due : t0 + s.policy 31 16 100 1000 ≤ s.now) : exec (.w1IdleEntry w) s
      = if s.drained w then .next (s.enterW1 w)
        else need (tabGet none s.pw.w1Req w.val).isNone 472
          (.next (s.modPw (fun p => { p with w1Req := tabPut none p.w1Req w (some s.now) }))) := by
  refine need_of ?_ 704 _
  rw [awake, serves, idle, since, Option.any_some, decide_eq_true due]
  rfl

theorem w1IdleEntry_enters (w : WellId) (t0 : Nat) (awake : s.wellPm w = 0) (serves : s.inService w = true)
    (idle : s.wellBusy w = false) (since : tabGet none s.pw.idleAt w.val = some t0)
    (due : t0 + s.policy 31 16 100 1000 ≤ s.now) :
    (s.drained w = true → ∃ t, exec (.w1IdleEntry w) s = .next t ∧ t.wellPm w = 1
      ∧ (∀ p, p < 136 → (t.bob w p).powered = false ∧ (t.bob w p).admitted = false) ∧ sameMem s t)
    ∧ (s.drained w = false → tabGet none s.pw.w1Req w.val = none →
      exec (.w1IdleEntry w) s
        = .next { s with pw := { s.pw with w1Req := tabPut none s.pw.w1Req w.val (some s.now) } }) := by
  have run := exec_w1IdleEntry_of awake serves idle since due
  refine ⟨fun drained => ⟨_, run.trans (if_pos drained), s.enterW1_leaves w.isLt⟩, fun busy unasked => ?_⟩
  refine (run.trans (if_neg (by rw [busy]; decide))).trans (need_of ?_ 472 _)
  rw [unasked]
  rfl

/-! ### Entries asked for by idle times (R708) -/

theorem State.requestEntry_auto {target : Nat} {wells : List Nat} (none_ : s.levelSource target wells = none) :
    s.requestEntry target wells false true = s.entryBegun target wells false :=
  (if_neg (by rw [none_]; decide) : (if (s.levelSource target wells).isSome = true then _ else _) = _)

theorem State.entryBegun_eq (s : State) (target : Nat) (wells : List Nat) (cmd : Bool) : s.entryBegun target wells cmd
    = { s with pw := { s.pw with entry := some { target := target, wells := wells, at_ := s.now, cmd := cmd } } } := rfl

theorem w2AutoEntry_begins (w : WellId) (enabled : s.fld rPmPolicy 0 0 = 1) (w1 : s.wellPm w = 1)
    (serves : s.inService w = true) (may : s.mayW2 w = true) (entry : s.pw.entry = none)
    (due : tabGet 0 s.pw.stateAt w.val + s.policy 47 32 100 1000000 ≤ s.now) (none_ : s.levelSource 2 [w.val] = none) :
    exec (.w2AutoEntry w) s
      = .next { s with pw := { s.pw with entry := some { target := 2, wells := [w.val], at_ := s.now, cmd := false } } } := by
  rw [← State.entryBegun_eq, ← State.requestEntry_auto none_]
  refine need_of ?_ 708 _
  rw [enabled, w1, serves, may, entry, decide_eq_true due]
  rfl

theorem w3AutoEntry_begins (enabled : s.fld rPmPolicy 1 1 = 1) (booted : s.booted = true) (entry : s.pw.entry = none)
    (may : s.mayW3 = true) (none_ : s.levelSource 3 s.keptWells = none)
    (all : ∀ w < 12, s.wellLost w = true ∨ s.wellPm w = 2
      ∧ tabGet 0 s.pw.stateAt w + s.policy 63 48 1000 1000000 ≤ s.now) :
    exec .w3AutoEntry s
      = .next { s with pw := { s.pw with
          entry := some { target := 3, wells := s.keptWells, at_ := s.now, cmd := false } } } := by
  have asleep : (List.range 12).all (fun w => s.wellLost w || (decide (s.wellPm w = 2)
      && decide (tabGet 0 s.pw.stateAt w + s.policy 63 48 1000 1000000 ≤ s.now))) = true := by
    rw [List.all_eq_true]
    intro w mem
    simpa using all w (List.mem_range.mp mem)
  rw [← State.entryBegun_eq, ← State.requestEntry_auto none_]
  refine need_of ?_ 708 _
  rw [enabled, booted, entry, may, asleep]
  rfl

/-! ### W2 (R703, R546) -/

/-- Registers that an entry of well w into W2 keeps, beside PM_STATE. -/
def downSafe (w o : Nat) : Prop := o < rEvCnt 0 ∧ o ≠ rPmWellStat w

/-- A well's caches, translations and counts lost. -/
def State.w2Lost (s : State) (w : Nat) : State := ((s.flushCache w).dropTlb w).zeroCounts w

/-- A well's bobbins and controller off, and its array. -/
def State.w2Off (s : State) (w : Nat) : State := ((s.unpowered w).setWell w {}).setVarray w 0 0

theorem State.enterW2_eq (s : State) (w : Nat) : s.enterW2 w = ((s.w2Lost w).w2Off w).setWellPm w 2 := rfl

theorem State.dropTlb_leaves (s : State) (w : Nat) : sameMem s (s.dropTlb w) ∧ (s.dropTlb w).regs = s.regs
    ∧ (s.dropTlb w).pw = s.pw := ⟨⟨rfl, rfl, rfl, rfl, rfl, rfl⟩, rfl, rfl⟩

theorem State.w2Lost_leaves (s : State) (w : Nat) : Quiet (downSafe w) s (s.w2Lost w) ∧ (s.w2Lost w).pw = s.pw := by
  have forgotten : Quiet (downSafe w) s (s.dirForget w) := ⟨⟨rfl, rfl, rfl, rfl, rfl, rfl⟩, fun _ _ => rfl⟩
  have pw : (s.dirForget w).pw = s.pw := rfl
  obtain ⟨regs, e⟩ := s.onlyRegs_flushCache w
  have flushedPw : (s.flushCache w).pw = (s.dirForget w).pw := by rw [e]
  have flushed : Quiet (downSafe w) s (s.flushCache w) := by
    unfold State.flushCache
    refine forgotten.incFld fun i => ?_
    have low := i.1
    have high := le_rWl w 0x1E8
    simp only [rEvCnt, rWlWcEvt] at low high
    omega
  obtain ⟨mem, regs', droppedPw⟩ := (s.flushCache w).dropTlb_leaves w
  have dropped : Quiet (downSafe w) s ((s.flushCache w).dropTlb w) := flushed.beside mem regs'
  unfold State.w2Lost State.zeroCounts
  generalize (s.flushCache w).dropTlb w = a at dropped droppedPw ⊢
  refine ⟨dropped.foldl _ fun u i _ => Quiet.refl.setReg fun low => ?_, ?_⟩
  · have below := low.1
    simp only [rEvCnt] at below
    omega
  · exact List.foldlRecOn (motive := fun u : State => u.pw = s.pw) _ _ (droppedPw.trans (flushedPw.trans pw))
      fun u hu i _ => hu

theorem State.w2Off_leaves (s : State) (w : Nat) : Quiet (downSafe w) s (s.w2Off w) ∧ (s.w2Off w).pw = s.pw
    ∧ (s.w2Off w).fld (rPmWellStat w) 15 0 = 0 := by
  have off : Quiet (downSafe w) s ((s.unpowered w).setWell w {}) := ⟨⟨rfl, rfl, rfl, rfl, rfl, rfl⟩, fun _ _ => rfl⟩
  have pw : ((s.unpowered w).setWell w {}).pw = s.pw := rfl
  have own : ¬downSafe w (rPmWellStat w) := fun i => i.2 rfl
  unfold State.w2Off State.setVarray
  generalize (s.unpowered w).setWell w {} = a at off pw ⊢
  have only : OnlyRegs a ((a.setFld (rPmWellStat w) 15 0 0).setFld (rPmWellStat w) 27 26 0) :=
    (a.setFld_onlyRegs ..).trans (State.setFld_onlyRegs ..)
  refine ⟨(off.setFld own).setFld own, ((congrArg State.pw only.frame :)).trans pw, ?_⟩
  rw [State.fld_setFld_of_apart _ (by decide) (by decide) (by decide) (.inl (by decide)),
    State.fld_setFld _ _ _ _ _ (by decide) (by decide), Nat.zero_mod]

/-- A well is in W2 with its array off. -/
def State.isDown (s : State) (w : Nat) : Prop := s.wellPm w = 2 ∧ s.fld (rPmWellStat w) 15 0 = 0

theorem State.wellPm_setWellPm_ne (s : State) {v w : Nat} (v_lt : v < 12) (other : v ≠ w) (x : Nat) :
    (s.setWellPm w x).wellPm v = s.wellPm v := by
  unfold State.setWellPm
  rw [State.wellPm_modPw, State.wellPm, State.fld_setFld_of_apart _ (by omega) (by omega) (by omega) (by omega), State.wellPm]

theorem State.setWellPm_leaves (s : State) (w x : Nat) : OnlyPower s (s.setWellPm w x)
    ∧ (∀ o, o ≠ rPmState → (s.setWellPm w x).reg o = s.reg o)
    ∧ ∃ at_, (s.setWellPm w x).pw = { s.pw with stateAt := at_ } := by
  refine ⟨s.setWellPm_onlyPower w x, fun o other => ?_, ?_⟩
  · rw [State.setWellPm, State.reg_modPw, State.reg_setFld_ne _ _ _ _ other]
  · have only : OnlyRegs s (s.setFld rPmState (3 * w + 2) (3 * w) x) := s.setFld_onlyRegs ..
    have pw : (s.setFld rPmState (3 * w + 2) (3 * w) x).pw = s.pw := (congrArg State.pw only.frame :)
    unfold State.setWellPm
    rw [← pw]
    exact ⟨_, rfl⟩

theorem State.enterW2_leaves (s : State) {w : Nat} (w_lt : w < 12) : sameMem s (s.enterW2 w)
    ∧ (s.enterW2 w).reg rPmTimebase = s.reg rPmTimebase ∧ (s.enterW2 w).pw.floor = s.pw.floor
    ∧ (s.enterW2 w).isDown w ∧ ∀ v < 12, s.isDown v → (s.enterW2 w).isDown v := by
  obtain ⟨lost, lostPw⟩ := s.w2Lost_leaves w
  rw [State.enterW2_eq]
  generalize s.w2Lost w = a at lost lostPw ⊢
  obtain ⟨off, offPw, stat⟩ := a.w2Off_leaves w
  generalize a.w2Off w = b at off offPw stat ⊢
  obtain ⟨power, regs, at_, pw⟩ := b.setWellPm_leaves w 2
  have pm := b.wellPm_setWellPm w_lt (v := 2) (by decide)
  have pms (v : Nat) (v_lt : v < 12) (other : v ≠ w) := b.wellPm_setWellPm_ne v_lt other 2
  generalize b.setWellPm w 2 = c at power regs pw pm pms ⊢
  have down : Quiet (downSafe w) s b := lost.trans off
  have safe (o : Nat) (lt : o < rPmWellStat 0) : downSafe w o := by
    simp only [downSafe, rPmWellStat, rEvCnt] at lt ⊢
    omega
  have statReg (v : Nat) : rPmWellStat v ≠ rPmState := by
    simp only [rPmWellStat, rPmState]
    omega
  have own : c.isDown w := ⟨pm, by rw [State.fld, regs _ (statReg w), ← State.fld, stat]⟩
  refine ⟨down.mem.trans power.sameMem, (regs _ (by decide)).trans (down.regs _ (safe _ (by decide))), ?_, own,
    fun v v_lt was => ?_⟩
  · rw [pw]
    exact (congrArg Power.floor (offPw.trans lostPw) :)
  · by_cases same : v = w
    · rw [same]
      exact own
    · obtain ⟨wasPm, wasStat⟩ := was
      have apart : downSafe w (rPmWellStat v) := by
        simp only [downSafe, rPmWellStat, rEvCnt]
        omega
      refine ⟨?_, ?_⟩
      · rw [pms v v_lt same, State.wellPm, down.fld (safe _ (by decide)), ← State.wellPm, wasPm]
      · rw [State.fld, regs _ (statReg v), down.regs _ apart, ← State.fld, wasStat]

/-- Wells entered into W2 one by one. -/
theorem State.enterWells_leaves (l : List Nat) (small : ∀ w ∈ l, w < 12) (s : State) :
    sameMem s (l.foldl State.enterW2 s) ∧ (l.foldl State.enterW2 s).reg rPmTimebase = s.reg rPmTimebase
      ∧ (l.foldl State.enterW2 s).pw.floor = s.pw.floor
      ∧ (∀ v < 12, v ∈ l ∨ s.isDown v → (l.foldl State.enterW2 s).isDown v) := by
  induction l generalizing s with
  | nil => exact ⟨⟨rfl, rfl, rfl, rfl, rfl, rfl⟩, rfl, rfl, fun v _ h => h.resolve_left List.not_mem_nil⟩
  | cons a l ih =>
    obtain ⟨mem, timebase, floor, own, others⟩ := s.enterW2_leaves (small a List.mem_cons_self)
    obtain ⟨mem', timebase', floor', downs⟩ := ih (fun w m => small w (List.mem_cons_of_mem a m)) (s.enterW2 a)
    rw [List.foldl_cons]
    generalize s.enterW2 a = b at mem timebase floor own others mem' timebase' floor' downs ⊢
    refine ⟨mem.trans mem', timebase'.trans timebase, floor'.trans floor, fun v v_lt h => downs v v_lt ?_⟩
    rcases h with named | was
    · rcases List.mem_cons.mp named with rfl | rest
      · exact .inr own
      · exact .inl rest
    · exact .inr (others v v_lt was)

end

end Sys2Proof.Machine
end

section
/-!
SUPPORT. Ports that go down and packages that refresh themselves (R501, R649, R706; O56).
-/

namespace Sys2Proof.Machine

section
variable {s t u : State}

/-! ### Ports that go down (R649, R706) -/

/-- Registers below those of the fault collector: identification, wells and power. -/
def belowFc (o : Nat) : Prop := o < rFcSummary

theorem clearOfFc_belowFc : clearOfFc belowFc := fun _ i => .inl i

theorem not_belowFc_rPortStatus (p : Nat) : ¬belowFc (rPortStatus p) := by
  simp only [belowFc, rPortStatus, rFcSummary, rTlStatus, rSpStatus]
  split <;> omega

theorem not_belowFc_rRvPkgStat (k : Nat) : ¬belowFc (rRvPkgStat k) := by
  simp only [belowFc, rRvPkgStat, rFcSummary]
  omega

/-- A port's state without its lanes. -/
def State.portDark (s : State) (p st : Nat) : State := (s.setFld (rPortStatus p) 31 29 st).setFld (rPortStatus p) 26 19 0

/-- The connections of a port unreachable, and its link down. -/
def State.portCut (s : State) (p : Nat) : State :=
  let now := s.now
  let s := s.mapPort p (fun c =>
    if c.unreach.isSome || c.abandoned.isSome then c else { c with unreach := some now, helloAt := now, rtoAt := none })
  if p = 8 then { s with pair := { s.pair with linkDownAt := some now } } else s

theorem State.dropPort_eq (s : State) (p st : Nat) : s.dropPort p st = ((s.portDark p st).portCut p).linkReport 0 p st := rfl

theorem State.portCut_eq (s : State) (p : Nat) : ∃ links pair, s.portCut p = { s with links := links, pair := pair } := by
  unfold State.portCut
  extract_lets now t
  split
  · exact ⟨_, _, rfl⟩
  · exact ⟨_, _, rfl⟩

theorem rPortStatus_ne {p q : Nat} (p_lt : p < 9) (q_lt : q < 9) (other : q ≠ p) : rPortStatus q ≠ rPortStatus p := by
  unfold rPortStatus
  split <;> split <;> simp only [rTlStatus, rSpStatus] <;> omega

theorem State.portState_of_reg {p : Nat} (h : t.reg (rPortStatus p) = s.reg (rPortStatus p)) :
    t.portState p = s.portState p := by
  rw [State.portState, State.fld, h, State.portState, State.fld]

theorem State.portState_eq (s : State) {p : Nat} (p_lt : p < 9) : s.portState p = s.fld (rPortStatus p) 31 29 := if_pos p_lt

theorem State.reg_linkReport (s : State) {p : Nat} (p_lt : p < 9) (sev k st : Nat) :
    (s.linkReport sev k st).reg (rPortStatus p) = s.reg (rPortStatus p) := by
  have far : clearOfFc (· = rPortStatus p) := fun o e => .inr (by
    rw [e]
    unfold rPortStatus
    split <;> simp only [rTlStatus, rSpStatus] <;> omega)
  exact (Quiet.refl.reportSelf far (by decide) (by decide)).regs _ rfl

/-- What a port that goes down leaves. -/
theorem State.dropPort_leaves (s : State) {p st : Nat} (p_lt : p < 9) (st_lt : st < 8) :
    Quiet belowFc s (s.dropPort p st) ∧ (s.dropPort p st).pw = s.pw ∧ (s.dropPort p st).jobs = s.jobs
      ∧ (s.dropPort p st).portState p = st
      ∧ ∀ q < 9, q ≠ p → (s.dropPort p st).portState q = s.portState q := by
  have dark : Quiet belowFc s (s.portDark p st) :=
    (Quiet.refl.setFld (not_belowFc_rPortStatus p)).setFld (not_belowFc_rPortStatus p)
  have only : OnlyRegs s (s.portDark p st) := (s.setFld_onlyRegs ..).trans (State.setFld_onlyRegs ..)
  have own : (s.portDark p st).portState p = st := by
    rw [State.portState_eq _ p_lt, State.portDark,
      State.fld_setFld_of_apart _ (by decide) (by decide) (by decide) (.inr (by decide)),
      State.fld_setFld _ _ _ _ _ (by decide) (by decide)]
    exact Nat.mod_eq_of_lt st_lt
  have others (q : Nat) (q_lt : q < 9) (other : q ≠ p) : (s.portDark p st).portState q = s.portState q :=
    State.portState_of_reg ((State.reg_setFld_ne _ _ _ _ (rPortStatus_ne p_lt q_lt other)).trans
      (State.reg_setFld_ne _ _ _ _ (rPortStatus_ne p_lt q_lt other)))
  rw [State.dropPort_eq]
  generalize s.portDark p st = a at dark only own others ⊢
  obtain ⟨links, pair, e⟩ := a.portCut_eq p
  have regs : (a.portCut p).regs = a.regs := by rw [e]
  have mem : sameMem a (a.portCut p) := by
    rw [e]
    exact ⟨rfl, rfl, rfl, rfl, rfl, rfl⟩
  have pw : (a.portCut p).pw = s.pw := by
    rw [e]
    exact (congrArg State.pw only.frame :)
  have jobs : (a.portCut p).jobs = s.jobs := by
    rw [e]
    exact only.jobs
  generalize a.portCut p = b at regs mem pw jobs ⊢
  have noted : OnlyNotes b (b.linkReport 0 p st) := State.reportSelf_onlyNotes ..
  have state (q : Nat) (q_lt : q < 9) : (b.linkReport 0 p st).portState q = a.portState q :=
    State.portState_of_reg ((b.reg_linkReport q_lt ..).trans (State.reg_of_regs regs _))
  exact ⟨(dark.beside mem regs).reportSelf clearOfFc_belowFc (by decide) (by decide), noted.pw.trans pw,
    noted.jobs.trans jobs, (state p p_lt).trans own, fun q q_lt other => (state q q_lt).trans (others q q_lt other)⟩

/-- Ports that are not off go down one by one. -/
def State.portsDown (s : State) (st : Nat) (l : List Nat) : State :=
  l.foldl (fun (t : State) p => if t.portState p = 0 then t else t.dropPort p st) s

theorem State.portsDown_leaves {st : Nat} (st_lt : st < 8) (l : List Nat) (small : ∀ p ∈ l, p < 9) (distinct : l.Nodup)
    (s : State) : Quiet belowFc s (s.portsDown st l) ∧ (s.portsDown st l).pw = s.pw ∧ (s.portsDown st l).jobs = s.jobs
      ∧ ∀ p < 9, (s.portsDown st l).portState p
          = if p ∈ l then (if s.portState p = 0 then 0 else st) else s.portState p := by
  induction l generalizing s with
  | nil => exact ⟨.refl, rfl, rfl, fun p _ => (if_neg List.not_mem_nil).symm⟩
  | cons a l ih =>
    have a_lt := small a List.mem_cons_self
    obtain ⟨fresh, rest⟩ := List.nodup_cons.mp distinct
    have first : Quiet belowFc s (if s.portState a = 0 then s else s.dropPort a st)
        ∧ (if s.portState a = 0 then s else s.dropPort a st).pw = s.pw
        ∧ (if s.portState a = 0 then s else s.dropPort a st).jobs = s.jobs
        ∧ (if s.portState a = 0 then s else s.dropPort a st).portState a = (if s.portState a = 0 then 0 else st)
        ∧ ∀ q < 9, q ≠ a → (if s.portState a = 0 then s else s.dropPort a st).portState q = s.portState q := by
      split
      next off => exact ⟨.refl, rfl, rfl, off, fun _ _ _ => rfl⟩
      next on => exact s.dropPort_leaves a_lt st_lt
    have step : s.portsDown st (a :: l) = State.portsDown (if s.portState a = 0 then s else s.dropPort a st) st l := rfl
    rw [step]
    obtain ⟨quiet, pw, jobs, own, others⟩ := first
    generalize (if s.portState a = 0 then s else s.dropPort a st) = b at quiet pw jobs own others ⊢
    obtain ⟨quiet', pw', jobs', states⟩ := ih (fun p m => small p (List.mem_cons_of_mem a m)) rest b
    refine ⟨quiet.trans quiet', pw'.trans pw, jobs'.trans jobs, fun p p_lt => (states p p_lt).trans ?_⟩
    by_cases same : p = a
    · subst same
      rw [if_neg fresh, if_pos List.mem_cons_self, own]
    · rw [others p p_lt same]
      simp [same]

/-! ### Packages in self-refresh (R501, R706) -/

/-- Active packages refresh themselves. -/
def State.packagesRest (s : State) : State :=
  (List.range 36).foldl (fun (t : State) k => if t.rvState k = 0 then t.setRvState k 1 else t) s

theorem State.packagesRest_leaves (s : State) : OnlyRegs s s.packagesRest ∧ Quiet belowFc s s.packagesRest
    ∧ (∀ p < 9, s.packagesRest.portState p = s.portState p) :=
  List.foldlRecOn (motive := fun t => OnlyRegs s t ∧ Quiet belowFc s t ∧ ∀ p < 9, t.portState p = s.portState p) _ _
    ⟨.refl, .refl, fun _ _ => rfl⟩ fun t ⟨only, quiet, ports⟩ k mem => by
      refine ⟨only.setFld.ite only, (quiet.setFld (not_belowFc_rRvPkgStat k)).ite quiet, fun p p_lt => ?_⟩
      have k_lt := List.mem_range.mp mem
      have apart : rPortStatus p ≠ rRvPkgStat k := by
        unfold rPortStatus
        split <;> simp only [rTlStatus, rSpStatus, rRvPkgStat] <;> omega
      split
      · exact (State.portState_of_reg (State.reg_setFld_ne _ _ _ _ apart)).trans (ports p p_lt)
      · exact ports p p_lt

/-- No package is ACTIVE after a list of them came to rest. -/
theorem State.rvState_packagesRest (s : State) {k : Nat} (k_lt : k < 36) : s.packagesRest.rvState k ≠ 0 := by
  have rests (l : List Nat) (s : State) (h : k ∈ l ∨ s.rvState k ≠ 0) :
      (l.foldl (fun (t : State) k => if t.rvState k = 0 then t.setRvState k 1 else t) s).rvState k ≠ 0 := by
    induction l generalizing s with
    | nil => exact h.resolve_left List.not_mem_nil
    | cons a l ih =>
      refine ih _ ?_
      by_cases same : k = a
      · subst same
        refine .inr ?_
        beta_reduce
        split
        · rw [State.rvState_setRvState s k (by decide : (1 : Nat) < 8)]
          decide
        next active => exact active
      · refine h.imp (fun mem => (List.mem_cons.mp mem).resolve_left same) fun was => ?_
        beta_reduce
        split
        · rw [State.rvState_setRvState_ne s same]
          exact was
        · exact was
  exact rests _ s (.inl (List.mem_range.mpr k_lt))

end

end Sys2Proof.Machine
end

section
/-!
SUPPORT. The device in W3 and in W4, and the module back from W4 (R703, R706, R709, R714, R719; O56).
-/

namespace Sys2Proof.Machine

section
variable {s t u : State}

/-! ### W3 (R703, R706, R709) -/

/-- Wells that are off. -/
def State.wellsOff (s : State) : State := (List.range 12).foldl (fun (t : State) w => t.setWellPm w 7) s

/-- Packages refresh themselves. -/
def State.refreshing (s : State) : State := { s with rvSelfRefresh := true }

theorem State.refreshing_leaves (s : State) : s.refreshing.regs = s.regs ∧ s.refreshing.pw = s.pw
    ∧ s.refreshing.rvSelfRefresh = true ∧ sameMem s s.refreshing ∧ s.refreshing.jobs = s.jobs :=
  ⟨rfl, rfl, rfl, ⟨rfl, rfl, rfl, rfl, rfl, rfl⟩, rfl⟩

/-- Packages and the device in W3. -/
def State.inSelfRefresh (s : State) : State := s.refreshing.setFld rPmState 38 36 3

theorem State.enterW3_eq (s : State) :
    s.enterW3 = (s.dropPeriphery.wellsOff.packagesRest.portsDown 0 (List.range 8)).inSelfRefresh := rfl

theorem State.setWellPms_leaves (l : List Nat) (s : State) :
    (l.foldl (fun (t : State) w => t.setWellPm w 7) s).pw.entry = s.pw.entry
      ∧ ∀ v < 12, v ∈ l ∨ s.wellPm v = 7 → (l.foldl (fun (t : State) w => t.setWellPm w 7) s).wellPm v = 7 := by
  induction l generalizing s with
  | nil => exact ⟨rfl, fun v _ h => h.resolve_left List.not_mem_nil⟩
  | cons a l ih =>
    obtain ⟨-, -, at_, pw⟩ := s.setWellPm_leaves a 7
    have own (lt : a < 12) := s.wellPm_setWellPm lt (v := 7) (by decide)
    have others (v : Nat) (lt : v < 12) (other : v ≠ a) := s.wellPm_setWellPm_ne lt other 7
    obtain ⟨entry', all⟩ := ih (s.setWellPm a 7)
    rw [List.foldl_cons]
    generalize s.setWellPm a 7 = b at pw own others entry' all ⊢
    have entry : b.pw.entry = s.pw.entry := (congrArg Power.entry pw :)
    refine ⟨entry'.trans entry, fun v lt h => all v lt ?_⟩
    by_cases same : v = a
    · subst same
      exact .inr (own lt)
    · rw [others v lt same]
      exact h.imp_left fun mem => (List.mem_cons.mp mem).resolve_left same

theorem State.wellsOff_leaves (s : State) : s.wellsOff.pw.entry = s.pw.entry ∧ ∀ w < 12, s.wellsOff.wellPm w = 7 := by
  obtain ⟨entry, off⟩ := State.setWellPms_leaves (List.range 12) s
  exact ⟨entry, fun w lt => off w lt (.inl (List.mem_range.mpr lt))⟩

/-- The span ports off. -/
theorem State.spansDown_leaves (s : State) : Quiet belowFc s (s.portsDown 0 (List.range 8))
    ∧ (s.portsDown 0 (List.range 8)).pw = s.pw := by
  obtain ⟨quiet, pw, -, -⟩ := State.portsDown_leaves (st := 0) (by decide) (List.range 8)
    (fun p mem => lt_trans (List.mem_range.mp mem) (by decide)) List.nodup_range s
  exact ⟨quiet, pw⟩

theorem State.pw_packagesRest (s : State) : s.packagesRest.pw = s.pw :=
  (congrArg State.pw s.packagesRest_leaves.1.frame :)

theorem State.inSelfRefresh_leaves (s : State) : s.inSelfRefresh.pw = s.pw ∧ s.inSelfRefresh.rvSelfRefresh = true
    ∧ ∀ w < 12, s.inSelfRefresh.wellPm w = s.wellPm w := by
  obtain ⟨regs, pw, rests, -, -⟩ := s.refreshing_leaves
  unfold State.inSelfRefresh
  generalize s.refreshing = e at regs pw rests ⊢
  have last : OnlyRegs e (e.setFld rPmState 38 36 3) := e.setFld_onlyRegs ..
  have pw' : (e.setFld rPmState 38 36 3).pw = e.pw := (congrArg State.pw last.frame :)
  have rests' : (e.setFld rPmState 38 36 3).rvSelfRefresh = e.rvSelfRefresh := (congrArg State.rvSelfRefresh last.frame :)
  refine ⟨pw'.trans pw, rests'.trans rests, fun w lt => ?_⟩
  rw [State.wellPm, State.fld_setFld_of_apart _ (by decide) (by omega) (by omega) (.inl (by omega)), State.fld,
    State.reg_of_regs regs, State.wellPm, State.fld]

theorem State.enterW3_leaves (s : State) : s.enterW3.pw.entry = s.pw.entry ∧ s.enterW3.rvSelfRefresh = true
    ∧ ∀ w < 12, s.enterW3.wellPm w = 7 := by
  have periphery : s.dropPeriphery.pw = s.pw := rfl
  rw [State.enterW3_eq]
  generalize s.dropPeriphery = a at periphery ⊢
  obtain ⟨entry, off⟩ := a.wellsOff_leaves
  generalize a.wellsOff = b at entry off ⊢
  have quiet : Quiet belowFc b b.packagesRest := b.packagesRest_leaves.2.1
  have pwC := b.pw_packagesRest
  generalize b.packagesRest = c at quiet pwC ⊢
  obtain ⟨quiet', pwD⟩ := c.spansDown_leaves
  generalize c.portsDown 0 (List.range 8) = d at quiet' pwD ⊢
  obtain ⟨pwE, rests, pm⟩ := d.inSelfRefresh_leaves
  generalize d.inSelfRefresh = e at pwE rests pm ⊢
  have all (w : Nat) (lt : w < 12) : d.wellPm w = 7 := by
    rw [State.wellPm, (quiet.trans quiet').fld (show belowFc rPmState by unfold belowFc; decide), ← State.wellPm]
    exact off w lt
  exact ⟨by rw [pwE, pwD, pwC, entry, periphery], rests, fun w lt => (pm w lt).trans (all w lt)⟩

/-! ### W4 (R703, R706, R709, R719) -/

/-- What W4 keeps and loses. -/
structure InW4 (s t : State) : Prop where
  aquifer : t.aquifer = s.aquifer
  boot : t.boot = s.boot
  cistern : t.cistern = []
  jobs : t.jobs = []
  floor : t.pw.floor = s.pw.floor
  entry : t.pw.entry = none

theorem InW4.onlyRegs (h : InW4 s t) (only : OnlyRegs t u) : InW4 s u := by
  obtain ⟨regs, rfl⟩ := only
  exact ⟨h.aquifer, h.boot, h.cistern, h.jobs, h.floor, h.entry⟩

theorem InW4.modPw (h : InW4 s t) {f : Power → Power} (floor : (f t.pw).floor = t.pw.floor)
    (entry : (f t.pw).entry = t.pw.entry) : InW4 s (t.modPw f) :=
  ⟨h.aquifer, h.boot, h.cistern, h.jobs, floor.trans h.floor, entry.trans h.entry⟩

theorem State.coldBase_inW4 (s : State) : InW4 s s.coldBase := by
  unfold State.coldBase
  extract_lets t sync bobs pw links pair t1 t2
  have bare : InW4 s t1 := ⟨rfl, rfl, rfl, rfl, rfl, rfl⟩
  have only : OnlyRegs t1 t2 := (t1.setFld_onlyRegs ..).trans (State.setFld_onlyRegs ..)
  refine bare.onlyRegs (only.trans ?_)
  exact List.foldlRecOn (motive := fun u => OnlyRegs t2 u) _ _ .refl fun u hu k _ => hu.setFld.ite hu

theorem State.keepRegs_onlyRegs (s old : State) (l : List Nat) : OnlyRegs s (s.keepRegs old l) :=
  List.foldlRecOn (motive := fun u => OnlyRegs s u) _ _ .refl fun _ hu _ _ => hu.setReg

theorem State.reg_keepRegs (old : State) {o : Nat} (l : List Nat) (s : State) (h : o ∈ l ∨ s.reg o = old.reg o) :
    (s.keepRegs old l).reg o = old.reg o := by
  induction l generalizing s with
  | nil => exact h.resolve_left List.not_mem_nil
  | cons a l ih =>
    refine ih (s.setReg a (old.reg a)) ?_
    by_cases same : o = a
    · subst same
      exact .inr (State.reg_setReg ..)
    · rw [State.reg_setReg_ne _ _ same]
      exact h.imp_left fun mem => (List.mem_cons.mp mem).resolve_left same

/-- Registers that W4 keeps. -/
def w4Regs : List Nat :=
  [rPmTimebase, rPmTbStatus, rPmPolicy, rPmAlarm, rPmWake, rPmWakeLast, rPmRefStat 0, rPmRefStat 1, rPmRefStat 2,
   rPmRefStat 3, rPmCmd, rPmTherm]

/-- The power record of W4. -/
def Power.w4Entered (p old : Power) : Power :=
  { p with w4 := true, frac := old.frac, edges := old.edges, errBase := old.errBase, alarmed := old.alarmed,
           refAt := old.refAt, hbOut := old.hbOut }

theorem State.enterW4_eq (s : State) :
    s.enterW4 = ((s.coldBase.keepRegs s w4Regs).keepMgmt s).modPw (fun p => p.w4Entered s.pw) := rfl

theorem State.enterW4_leaves (s : State) : InW4 s s.enterW4 ∧ s.enterW4.reg rPmTimebase = s.reg rPmTimebase := by
  have kept : InW4 s (s.coldBase.keepRegs s w4Regs) := s.coldBase_inW4.onlyRegs (State.keepRegs_onlyRegs ..)
  have timebase : (s.coldBase.keepRegs s w4Regs).reg rPmTimebase = s.reg rPmTimebase :=
    State.reg_keepRegs s w4Regs _ (.inl (by decide))
  rw [State.enterW4_eq]
  unfold State.keepMgmt
  generalize s.coldBase.keepRegs s w4Regs = a at kept timebase ⊢
  refine ⟨(kept.modPw rfl rfl).modPw rfl rfl, ?_⟩
  rw [State.reg_modPw, State.reg_modPw, timebase]

/-- The record and the registers of an exit from W4. -/
def State.w4Noted (s : State) (src : Nat) : State :=
  (((s.setReg rPmWakeLast (setBits (setBits (setBits 0#64 63 63 1) 55 52 src) 51 48 4)).setReg rPmTherm
    (regReset rPmTherm)).setFld rPmWake (src - 1) (src - 1) 1).setFld rWhBoot 49 48 3

/-- The wellhead core domain starts. -/
def Power.w4Left (p : Power) (now : Nat) : Power :=
  { p with w4 := false, wakeAt := now, rails := tabPut {} p.rails 25 { phase := 1, at_ := now } }

theorem State.leaveW4_eq (s : State) (src : Nat) :
    s.leaveW4 src = (s.w4Noted src).modPw (fun p => p.w4Left (s.w4Noted src).now) := rfl

theorem State.leaveW4_leaves (s : State) (src : Nat) : OnlyPower s (s.leaveW4 src)
    ∧ (∃ now, (s.leaveW4 src).pw = s.pw.w4Left now) ∧ (s.leaveW4 src).fld rPmWakeLast 51 48 = 4
    ∧ (s.leaveW4 src).fld rWhBoot 49 48 = 3 ∧ (s.leaveW4 src).reg rPmTimebase = s.reg rPmTimebase := by
  have only : OnlyRegs s (s.w4Noted src) := ((((s.setReg_onlyRegs ..).trans (State.setReg_onlyRegs ..)).trans
    (State.setFld_onlyRegs ..)).trans (State.setFld_onlyRegs ..))
  have last : (s.w4Noted src).fld rPmWakeLast 51 48 = 4 := by
    rw [State.w4Noted, State.fld_setFld_ne _ _ _ _ _ _ (by decide), State.fld_setFld_ne _ _ _ _ _ _ (by decide),
      State.fld_setReg_ne _ _ _ _ (by decide), State.fld_setReg, bitsOf_setBits _ _ _ _ (by decide) (by decide)]
    rfl
  have boot : (s.w4Noted src).fld rWhBoot 49 48 = 3 := by
    rw [State.w4Noted, State.fld_setFld _ _ _ _ _ (by decide) (by decide)]
    rfl
  have timebase : (s.w4Noted src).reg rPmTimebase = s.reg rPmTimebase := by
    rw [State.w4Noted, State.reg_setFld_ne _ _ _ _ (by decide), State.reg_setFld_ne _ _ _ _ (by decide),
      State.reg_setReg_ne _ _ (by decide), State.reg_setReg_ne _ _ (by decide)]
  have pw : (s.w4Noted src).pw = s.pw := (congrArg State.pw only.frame :)
  rw [State.leaveW4_eq]
  generalize s.w4Noted src = a at only last boot timebase pw ⊢
  refine ⟨only.onlyPower.trans (a.modPw_onlyPower _), ⟨a.now, ?_⟩, ?_, ?_, ?_⟩
  · rw [← pw]
    rfl
  · rw [State.fld_modPw, last]
  · rw [State.fld_modPw, boot]
  · rw [State.reg_modPw, timebase]

/-- The answer of an entry into W4: a level source ends it at once. -/
def State.w4Answered (t : State) : State :=
  match t.levelSource 4 [] with
  | some c => (t.pmDone 3).leaveW4 c
  | none => t.pmDone 0

theorem State.w4Answered_inW4 (h : InW4 s t) (same : t.reg rPmTimebase = s.reg rPmTimebase) :
    InW4 s t.w4Answered ∧ t.w4Answered.reg rPmTimebase = s.reg rPmTimebase := by
  have done (r : Nat) (lt : r < 8) : InW4 s (t.pmAnswered 0 r) ∧ (t.pmAnswered 0 r).reg rPmTimebase = s.reg rPmTimebase := by
    obtain ⟨only, -, -, -⟩ := t.pmAnswered_leaves (busy := 0) (r := r) (by decide) lt
    exact ⟨h.onlyRegs only.only, (only.regs _ (by decide)).trans same⟩
  unfold State.w4Answered
  split
  next c _ =>
    obtain ⟨answered, timebase⟩ := done 3 (by decide)
    rw [State.pmDone_eq]
    generalize t.pmAnswered 0 3 = a at answered timebase ⊢
    obtain ⟨power, ⟨now, pw⟩, -, -, timebase'⟩ := a.leaveW4_leaves c
    generalize a.leaveW4 c = b at power pw timebase' ⊢
    have floor : b.pw.floor = a.pw.floor := (congrArg Power.floor pw :)
    have entry : b.pw.entry = a.pw.entry := (congrArg Power.entry pw :)
    have frame := power.frame
    exact ⟨⟨((congrArg State.aquifer frame :)).trans answered.aquifer, ((congrArg State.boot frame :)).trans answered.boot,
      ((congrArg State.cistern frame :)).trans answered.cistern, power.jobs.trans answered.jobs,
      floor.trans answered.floor, entry.trans answered.entry⟩, timebase'.trans timebase⟩
  · exact done 0 (by decide)

end

end Sys2Proof.Machine
end

section
/-!
SUPPORT. The end of an entry, the entry that does not drain, and the wake sources (R709 to R714, R719; O56).
-/

namespace Sys2Proof.Machine

section
variable {s t u : State}

/-! ### An entry completes (R709, R711, R714) -/

/-- The wells of an entry in W2, and the entry over. -/
def State.entryLeft (s : State) (e : Entry) : State :=
  (e.wells.foldl State.enterW2 s).modPw (fun p => { p with entry := none })

/-- The device in W3 with an entry of it. -/
def State.entryEntered (s : State) (e : Entry) : State := if e.target = 3 then s.enterW3 else s

/-- The answer of an entry that has completed. -/
def State.entryAnswered (s : State) (e : Entry) (src : Option Nat) : State :=
  if e.cmd then (s.pmDone (if src.isSome then 3 else 0)).powerVector else s

/-- A level source wakes at once what has entered. -/
def State.entryWoken (s : State) (e : Entry) : Option Nat → State
  | none => s
  | some c =>
    s.startWake c e.target (if c = 1 then s.rung.getD 0 else 0) (if e.target = 3 then s.offWells else e.wells) false

/-- What follows an entry into W2 or W3. -/
def State.entryOver (s : State) (e : Entry) : State :=
  (s.entryAnswered e (s.levelSource e.target e.wells)).entryWoken e (s.levelSource e.target e.wells)

theorem State.finishEntry_of_w4 {e : Entry} (w4 : e.target = 4) :
    s.finishEntry e = (s.entryLeft e).enterW4.w4Answered := if_pos w4

theorem State.finishEntry_of {e : Entry} (other : e.target ≠ 4) :
    s.finishEntry e = ((s.entryLeft e).entryEntered e).entryOver e := by
  unfold State.finishEntry
  refine (if_neg other).trans ?_
  unfold State.entryOver State.entryWoken
  rfl

theorem State.entryForgotten_leaves (s : State) : (s.modPw (fun p => { p with entry := none })).regs = s.regs
    ∧ (s.modPw (fun p => { p with entry := none })).pw = { s.pw with entry := none } := ⟨rfl, rfl⟩

theorem State.entryLeft_leaves (s : State) (e : Entry) (small : ∀ w ∈ e.wells, w < 12) : sameMem s (s.entryLeft e)
    ∧ (s.entryLeft e).reg rPmTimebase = s.reg rPmTimebase ∧ (s.entryLeft e).pw.floor = s.pw.floor
    ∧ (s.entryLeft e).pw.entry = none ∧ ∀ w ∈ e.wells, (s.entryLeft e).isDown w := by
  obtain ⟨mem, timebase, floor, down⟩ := State.enterWells_leaves e.wells small s
  unfold State.entryLeft
  generalize e.wells.foldl State.enterW2 s = a at mem timebase floor down ⊢
  obtain ⟨regs, pw⟩ := a.entryForgotten_leaves
  have mem' := a.sameMem_modPw (fun p => { p with entry := none })
  generalize a.modPw (fun p => { p with entry := none }) = b at regs pw mem' ⊢
  have fld (o hi lo : Nat) : b.fld o hi lo = a.fld o hi lo := by rw [State.fld, State.reg_of_regs regs, State.fld]
  refine ⟨mem.trans mem', (State.reg_of_regs regs _).trans timebase, ?_, by rw [pw], fun w named => ?_⟩
  · rw [pw]
    exact floor
  · obtain ⟨pm, stat⟩ := down w (small w named) (.inl named)
    exact ⟨(fld ..).trans pm, (fld ..).trans stat⟩

/-- From s to t what follows an entry has changed. -/
structure Rested (s t : State) : Prop where
  regs : ∀ o, o ≠ rPmWakeLast → o ≠ rPmWake → o ≠ rPmCmd → t.reg o = s.reg o
  entry : t.pw.entry = s.pw.entry
  refresh : t.rvSelfRefresh = s.rvSelfRefresh

theorem Rested.trans (h : Rested s t) (g : Rested t u) : Rested s u :=
  ⟨fun o a b c => (g.regs o a b c).trans (h.regs o a b c), g.entry.trans h.entry, g.refresh.trans h.refresh⟩

theorem State.powerVector_rested (s : State) : Rested s s.powerVector := by
  unfold State.powerVector
  exact ⟨fun o _ _ _ => State.reg_signal .., rfl, rfl⟩

theorem State.entryAnswered_rested (s : State) (e : Entry) (src : Option Nat) : Rested s (s.entryAnswered e src) := by
  have done (r : Nat) (lt : r < 8) : Rested s (s.pmDone r).powerVector := by
    obtain ⟨only, -, -, -⟩ := s.pmAnswered_leaves (busy := 0) (r := r) (by decide) lt
    rw [State.pmDone_eq]
    generalize s.pmAnswered 0 r = a at only ⊢
    have answered : Rested s a := ⟨fun o _ _ other => only.regs o other, by rw [only.pw], (congrArg State.rvSelfRefresh only.only.frame :)⟩
    exact answered.trans a.powerVector_rested
  unfold State.entryAnswered
  split
  · split
    · exact done 3 (by decide)
    · exact done 0 (by decide)
  · exact ⟨fun _ _ _ _ => rfl, rfl, rfl⟩

theorem State.entryWoken_rested (s : State) (e : Entry) (src : Option Nat) : Rested s (s.entryWoken e src) := by
  cases src with
  | none => exact ⟨fun _ _ _ _ => rfl, rfl, rfl⟩
  | some c =>
    obtain ⟨waked, -⟩ := s.startWake_leaves c e.target (if c = 1 then s.rung.getD 0 else 0)
      (if e.target = 3 then s.offWells else e.wells) false
    exact ⟨waked.regs, waked.entry, (congrArg State.rvSelfRefresh waked.power.frame :)⟩

theorem State.entryOver_rested (s : State) (e : Entry) : Rested s (s.entryOver e) :=
  (s.entryAnswered_rested e _).trans (State.entryWoken_rested ..)

theorem Rested.wellPm (h : Rested s t) (w : Nat) : t.wellPm w = s.wellPm w := by
  rw [State.wellPm, State.fld, h.regs _ (by decide) (by decide) (by decide), State.wellPm, State.fld]

theorem Rested.stat (h : Rested s t) (w : Nat) : t.fld (rPmWellStat w) 15 0 = s.fld (rPmWellStat w) 15 0 := by
  rw [State.fld, h.regs _ (by simp only [rPmWellStat, rPmWakeLast]; omega) (by simp only [rPmWellStat, rPmWake]; omega)
    (by simp only [rPmWellStat, rPmCmd]; omega), State.fld]

theorem entryComplete_ends (e : Entry) (entry : s.pw.entry = some e) (small : ∀ w ∈ e.wells, w < 12)
    (drained : s.entryDrained e = true) :
    ∃ t, exec .entryComplete s = .next t ∧ t.pw.entry = none
      ∧ (e.target = 2 → ∀ w ∈ e.wells, t.wellPm w = 2 ∧ t.fld (rPmWellStat w) 15 0 = 0)
      ∧ (e.target = 3 → t.rvSelfRefresh = true ∧ ∀ w < 12, t.wellPm w = 7)
      ∧ (e.target = 4 → t.aquifer = s.aquifer ∧ t.boot = s.boot ∧ t.cistern = [] ∧ t.jobs = []
          ∧ t.reg rPmTimebase = s.reg rPmTimebase ∧ t.pw.floor = s.pw.floor) := by
  have run : exec .entryComplete s = .next (s.finishEntry e) := by
    show execEntryComplete s = _
    unfold execEntryComplete
    rw [entry, needSome_some, need_of drained]
  obtain ⟨⟨-, -, aquifer, -, boot, -⟩, timebase, floor, ended, down⟩ := s.entryLeft_leaves e small
  refine ⟨_, run, ?_⟩
  by_cases w4 : e.target = 4
  · rw [State.finishEntry_of_w4 w4]
    generalize s.entryLeft e = a at aquifer boot timebase floor ended down ⊢
    obtain ⟨inW4, timebase'⟩ := a.enterW4_leaves
    obtain ⟨answered, timebase''⟩ := State.w4Answered_inW4 inW4 timebase'
    generalize a.enterW4.w4Answered = b at answered timebase'' ⊢
    exact ⟨answered.entry, fun w2 => by omega, fun w3 => by omega, fun _ => ⟨answered.aquifer.trans aquifer,
      answered.boot.trans boot, answered.cistern, answered.jobs, timebase''.trans timebase, answered.floor.trans floor⟩⟩
  · rw [State.finishEntry_of w4]
    generalize s.entryLeft e = a at aquifer boot timebase floor ended down ⊢
    have entered : (a.entryEntered e).pw.entry = none ∧ (e.target = 2 → ∀ w ∈ e.wells, (a.entryEntered e).isDown w)
        ∧ (e.target = 3 → (a.entryEntered e).rvSelfRefresh = true ∧ ∀ w < 12, (a.entryEntered e).wellPm w = 7) := by
      unfold State.entryEntered
      split
      next w3 =>
        obtain ⟨entry', rests, off⟩ := a.enterW3_leaves
        exact ⟨entry'.trans ended, fun w2 => by omega, fun _ => ⟨rests, off⟩⟩
      next not3 => exact ⟨ended, fun _ => down, fun w3 => absurd w3 not3⟩
    generalize a.entryEntered e = b at entered ⊢
    have rested := b.entryOver_rested e
    generalize b.entryOver e = c at rested ⊢
    obtain ⟨entry', w2, w3⟩ := entered
    refine ⟨rested.entry.trans entry', fun is2 w named => ?_, fun is3 => ?_, fun is4 => absurd is4 w4⟩
    · obtain ⟨pm, stat⟩ := w2 is2 w named
      exact ⟨(rested.wellPm w).trans pm, (rested.stat w).trans stat⟩
    · obtain ⟨rests, off⟩ := w3 is3
      exact ⟨rested.refresh.trans rests, fun w lt => (rested.wellPm w).trans (off w lt)⟩

/-! ### An entry that does not drain (R472, R710) -/

/-- Wells that did not drain, recorded one by one. -/
theorem State.noteBusys_leaves (l : List Nat) (small : ∀ w ∈ l, w < 12) (s : State) :
    OnlyNotes s (l.foldl State.noteBusy s)
      ∧ ∀ v < 12, v ∈ l ∨ s.fld (rWlDrainStat v) 31 31 = 1 → (l.foldl State.noteBusy s).fld (rWlDrainStat v) 31 31 = 1 := by
  induction l generalizing s with
  | nil => exact ⟨.refl, fun v _ h => h.resolve_left List.not_mem_nil⟩
  | cons a l ih =>
    have a_lt := small a List.mem_cons_self
    have noted := s.noteBusy_onlyNotes a
    have own : (s.noteBusy a).fld (rWlDrainStat a) 31 31 = 1 := s.fld_noteBusy ⟨a, a_lt⟩
    have others (v : Nat) (other : v ≠ a) : (s.noteBusy a).fld (rWlDrainStat v) 31 31 = s.fld (rWlDrainStat v) 31 31 := by
      have apart : rWlDrainStat v ≠ rWlDrainStat a := by
        simp only [rWlDrainStat, rWl]
        omega
      unfold State.noteBusy
      extract_lets pumps cu stq record
      have well : 0x1000000 ≤ rWlDrainStat v := le_rWl v _
      rw [State.fld, State.reg_reportSelf_of_well a_lt (by decide) well, State.reg_setReg_ne _ _ apart, State.fld]
    obtain ⟨noted', all⟩ := ih (fun w m => small w (List.mem_cons_of_mem a m)) (s.noteBusy a)
    rw [List.foldl_cons]
    generalize s.noteBusy a = b at noted own others noted' all ⊢
    refine ⟨noted.trans noted', fun v v_lt h => all v v_lt ?_⟩
    by_cases same : v = a
    · subst same
      exact .inr own
    · rw [others v same]
      exact h.imp_left fun mem => (List.mem_cons.mp mem).resolve_left same

theorem entryDrainTimeout_gives_up (e : Entry) (entry : s.pw.entry = some e) (small : ∀ w ∈ e.wells, w < 12)
    (late : e.at_ + 1000000 ≤ s.now) (busy : s.entryDrained e = false) :
    ∃ t, exec .entryDrainTimeout s = .next t ∧ t.pw.entry = none ∧ sameMem s t ∧ t.jobs = s.jobs
      ∧ (e.cmd = true → t.fld rPmCmd 31 31 = 0 ∧ t.fld rPmCmd 30 28 = 2)
      ∧ ∀ w ∈ e.wells, s.drained w = false → t.fld (rWlDrainStat w) 31 31 = 1 := by
  have run : exec .entryDrainTimeout s = .next (s.abandonEntry e) := by
    show execEntryDrainTimeout s = _
    unfold execEntryDrainTimeout
    rw [entry, needSome_some, need_of (by rw [decide_eq_true late, busy]; rfl)]
  obtain ⟨noted, stats⟩ := State.noteBusys_leaves (e.wells.filter (fun w => !s.drained w))
    (fun w mem => small w (List.mem_filter.mp mem).1) s
  refine ⟨_, run, ?_⟩
  unfold State.abandonEntry
  dsimp only
  generalize (e.wells.filter (fun w => !s.drained w)).foldl State.noteBusy s = a at noted stats ⊢
  obtain ⟨power, pw, answer, regs⟩ := a.undoEntry_leaves ((congrArg Power.entry noted.pw).trans entry) (r := 2) (by decide)
  generalize a.undoEntry 2 = b at power pw answer regs ⊢
  refine ⟨by rw [pw], noted.sameMem.trans power.sameMem, power.jobs.trans noted.jobs, answer,
    fun w named undrained => ?_⟩
  have other : rWlDrainStat w ≠ rPmCmd := Nat.ne_of_gt (lt_of_lt_of_le (by decide) (le_rWl w _))
  rw [State.fld, regs _ other, ← State.fld]
  exact stats w (small w named) (.inl (List.mem_filter.mpr ⟨named, by rw [undrained]; rfl⟩))

/-! ### Wake sources (R712 to R719) -/

/-- What a signal latches changes PM_WAKE alone. -/
theorem State.latchWake_leaves (s : State) (code : Nat) : OnlyRegs s (s.latchWake code)
    ∧ (∀ o, o ≠ rPmWake → (s.latchWake code).reg o = s.reg o)
    ∧ (code ≠ 3 → code ≠ 4 → s.latchWake code = s) := by
  unfold State.latchWake
  split
  next latched =>
    exact ⟨s.setFld_onlyRegs .., fun o other => State.reg_setFld_ne _ _ _ _ other, fun a b => absurd latched (by omega)⟩
  next quiet => exact ⟨.refl, fun _ _ => rfl, fun _ _ => rfl⟩

/-- A wake event without an entry under way. -/
def State.wakeFree (s : State) (code : Nat) : Res :=
  if s.pw.w4 then need (s.wakes 4 [] code) 712 (.next (s.leaveW4 code))
  else if s.devicePm = 3 ∧ s.pw.rails.isEmpty then
    need (s.wakes 3 [] code) 712 (.next (s.startWake code 3 (if code = 1 then s.rung.getD 0 else 0) s.offWells false))
  else if code = 4 then .next s
  else
    need (decide (code = 8) && !(s.asleep s.jobWells).isEmpty && (s.fld rPmWake 23 16).testBit 7
        && !(s.asleep s.jobWells).all s.pw.staging.contains) 712
      (.next (s.startWake 8 2 0 (s.asleep s.jobWells) false))

theorem exec_wakeEvent_of_entry {code : Fin 9} {e : Entry} (entry : s.pw.entry = some e) : exec (.wakeEvent code) s
    = need ((s.latchWake code).wakes e.target e.wells code) 714 (.next ((s.latchWake code).undoEntry 3)) := by
  have entry' : (s.latchWake code).pw.entry = some e :=
    ((congrArg (fun x : State => x.pw.entry) (s.latchWake_leaves code).1.frame :)).trans entry
  show execWakeEvent code s = _
  unfold execWakeEvent
  generalize s.latchWake code = u at entry' ⊢
  dsimp only
  rw [entry']

theorem exec_wakeEvent_of_none {code : Fin 9} (entry : s.pw.entry = none) :
    exec (.wakeEvent code) s = (s.latchWake code).wakeFree code := by
  have entry' : (s.latchWake code).pw.entry = none :=
    ((congrArg (fun x : State => x.pw.entry) (s.latchWake_leaves code).1.frame :)).trans entry
  show execWakeEvent code s = _
  unfold execWakeEvent
  generalize s.latchWake code = u at entry' ⊢
  dsimp only
  rw [entry']
  rfl

theorem wakeEvent_wakes (code : Fin 9) :
    let u := s.latchWake code
    (∀ e, s.pw.entry = some e → u.wakes e.target e.wells code = true →
      exec (.wakeEvent code) s = .next (u.undoEntry 3))
    ∧ (s.pw.entry = none → s.pw.w4 = true → u.wakes 4 [] code = true →
      ∃ t, exec (.wakeEvent code) s = .next t ∧ t.pw.w4 = false ∧ t.fld rPmWakeLast 51 48 = 4
        ∧ t.fld rWhBoot 49 48 = 3 ∧ sameMem s t)
    ∧ (s.pw.entry = none → s.pw.w4 = false → s.devicePm = 3 → s.pw.rails = [] → u.wakes 3 [] code = true →
      ∃ t, exec (.wakeEvent code) s = .next t ∧ (t.rail 24).phase = 1 ∧ t.pw.deep = true ∧ t.pw.wakeAt = s.now
        ∧ t.fld rPmWakeLast 55 52 = code.val ∧ t.fld rPmWakeLast 51 48 = 3 ∧ sameMem s t)
    ∧ (s.pw.entry = none → s.pw.w4 = false → s.devicePm ≠ 3 → code.val = 4 → exec (.wakeEvent code) s = .next u)
    ∧ (s.pw.entry = none → s.pw.w4 = false → s.devicePm ≠ 3 → code.val = 8 → (s.fld rPmWake 23 16).testBit 7 = true →
        (∃ w ∈ s.asleep s.jobWells, w ∉ s.pw.staging) →
      exec (.wakeEvent code) s = .next (s.startWake 8 2 0 (s.asleep s.jobWells) false)) := by
  intro u
  have code_lt := code.isLt
  obtain ⟨only, regs, unlatched⟩ := s.latchWake_leaves code
  have pw : u.pw = s.pw := (congrArg State.pw only.frame :)
  have device : u.devicePm = s.devicePm := by rw [State.devicePm, State.fld, regs _ (by decide), State.devicePm, State.fld]
  have now : u.now = s.now := by rw [State.now, regs _ (by decide), State.now]
  refine ⟨fun e entry wakes => (exec_wakeEvent_of_entry entry).trans (need_of wakes 714 _), fun entry w4 wakes => ?_,
    fun entry up w3 rails wakes => ?_, fun entry up on four => ?_, fun entry up on eight may some_ => ?_⟩
  · have run : exec (.wakeEvent code) s = .next (u.leaveW4 code) :=
      (exec_wakeEvent_of_none entry).trans ((if_pos (by rw [pw, w4])).trans (need_of wakes 712 _))
    obtain ⟨power, ⟨at_, pw'⟩, last, boot, -⟩ := u.leaveW4_leaves code
    generalize u.leaveW4 code = t at run power pw' last boot
    exact ⟨t, run, (congrArg Power.w4 pw' :), last, boot, only.sameMem.trans power.sameMem⟩
  · have run : exec (.wakeEvent code) s
        = .next (u.startWake code 3 (if code.val = 1 then u.rung.getD 0 else 0) u.offWells false) :=
      (exec_wakeEvent_of_none entry).trans ((if_neg (by rw [pw, up]; decide)).trans
        ((if_pos ⟨device.trans w3, by rw [pw, rails]; rfl⟩).trans (need_of wakes 712 _)))
    obtain ⟨waked, src, origin, -, -, -, deep, rail⟩ := u.startWake_leaves code 3
      (if code.val = 1 then u.rung.getD 0 else 0) u.offWells false
    generalize u.startWake code 3 (if code.val = 1 then u.rung.getD 0 else 0) u.offWells false = t
      at run waked src origin deep rail
    exact ⟨t, run, rail rfl, deep.trans (Bool.or_true _), waked.wakeAt.trans now, src.trans (by omega), origin,
      only.sameMem.trans waked.power.sameMem⟩
  · refine (exec_wakeEvent_of_none entry).trans ((if_neg (by rw [pw, up]; decide)).trans
      ((if_neg fun all => on (device.symm.trans all.1)).trans (if_pos four)))
  · have same : s.latchWake code = s := unlatched (by omega) (by omega)
    obtain ⟨w, mem, fresh⟩ := some_
    have unstaged : (s.asleep s.jobWells).all s.pw.staging.contains = false := by
      rw [List.all_eq_false]
      exact ⟨w, mem, by simpa using fresh⟩
    have asleep : (s.asleep s.jobWells).isEmpty = false := by
      rw [List.isEmpty_eq_false_iff]
      exact List.ne_nil_of_mem mem
    have run := exec_wakeEvent_of_none (code := code) entry
    rw [same] at run
    refine run.trans ((if_neg (by rw [up]; decide)).trans ((if_neg fun all => on all.1).trans
      ((if_neg (by omega)).trans (need_of ?_ 712 _))))
    rw [asleep, may, unstaged, decide_eq_true eight]
    rfl

end

end Sys2Proof.Machine
end

section
/-!
SUPPORT. Staging: a well's start, a domain that is good, and a second attempt (R716, R717, R720, R721; O56).
-/

namespace Sys2Proof.Machine

section
variable {s t u : State}

/-! ### A well starts (R716) -/

/-- The next well of the staging, with its own domain ramping. -/
def State.staged (s : State) (w : Nat) (rest : List Nat) : State :=
  (s.modPw (fun p => { p with staging := rest, railAt := some s.now })).setRail w { phase := 1, at_ := s.now }

theorem State.staged_leaves (s : State) (w : Nat) (rest : List Nat) : { s.staged w rest with pw := s.pw } = s
    ∧ (s.staged w rest).pw.staging = rest ∧ (s.staged w rest).pw.railAt = some s.now
    ∧ (s.staged w rest).pw.deep = s.pw.deep ∧ (s.staged w rest).rail w = { phase := 1, at_ := s.now } :=
  ⟨rfl, rfl, rfl, rfl, State.rail_setRail ..⟩

theorem wakeStagingWellStart_ramps (w : Nat) (rest : List Nat) (first : s.pw.staging = w :: rest)
    (apart : ∀ t0, s.pw.railAt = some t0 → t0 + 200000 ≤ s.now) (two : s.ramping < 2) (common : (s.rail 24).phase ≠ 2) :
    ∃ t, exec .wakeStagingWellStart s = .next t ∧ t.pw.staging = rest ∧ t.pw.railAt = some s.now
      ∧ t.rail w = { phase := 1, at_ := s.now } ∧ (s.pw.deep = true → t.rail (12 + w) = { phase := 1, at_ := s.now })
      ∧ { t with pw := s.pw } = s := by
  have spaced : s.pw.railAt.all (fun t => decide (t + 200000 ≤ s.now)) = true := by
    cases at_ : s.pw.railAt with
    | none => rfl
    | some t0 => exact decide_eq_true (apart t0 at_)
  have run : exec .wakeStagingWellStart s
      = .next (if s.pw.deep then (s.staged w rest).setRail (12 + w) { phase := 1, at_ := s.now } else s.staged w rest) := by
    show execWakeStagingWellStart s = _
    unfold execWakeStagingWellStart
    rw [first]
    refine (need_of ?_ 716 _).trans rfl
    rw [spaced, decide_eq_true two]
    simpa using common
  obtain ⟨frame, staging, at_, deep, rail⟩ := s.staged_leaves w rest
  refine ⟨_, run, ?_⟩
  generalize s.staged w rest = a at frame staging at_ rail ⊢
  split
  next deep =>
    have apart : w ≠ 12 + w := by omega
    exact ⟨staging, at_, (a.rail_setRail_ne apart _).trans rail, fun _ => a.rail_setRail .., frame⟩
  next shallow => exact ⟨staging, at_, rail, fun deep => absurd deep shallow, frame⟩

theorem wakeRetry_ramps (d : Fin 26) (off : (s.rail d).phase = 2) (late : (s.rail d).at_ + 1000000 ≤ s.now)
    (two : 24 ≤ d.val ∨ s.ramping < 2) :
    ∃ t, exec (.wakeRetry d) s = .next t ∧ t.rail d = { phase := 1, at_ := s.now, second := true }
      ∧ { t with pw := s.pw } = s := by
  have run : exec (.wakeRetry d) s = .next (s.setRail d { phase := 1, at_ := s.now, second := true }) := by
    show execWakeRetry d s = _
    unfold execWakeRetry
    refine need_of ?_ 720 _
    rw [off, decide_eq_true late]
    simpa using two
  exact ⟨_, run, State.rail_setRail .., rfl⟩

/-! ### A wake that is over (R721, R736, R747) -/

/-- The answer of a wake that was commanded, the wake no longer under way. -/
def State.wakeClosed (s : State) : State :=
  (if s.pw.wakeCmd then s.pmDone (if s.pw.degraded then 4 else 0) else s).modPw (fun p => { p with wakeCmd := false, deep := false })

/-- The self-tests of a boot begun. -/
def State.testsBegun (s : State) : State :=
  (s.setFld rWhBoot 63 60 5).modPw (fun p => { p with
    testing := p.testing ++ ((List.range 12).filter (fun w => !s.wellLost w)).map (fun w => (w, 0)) })

theorem State.wakeOver_eq (s : State) : s.wakeOver = if s.pw.staging.isEmpty && s.pw.rails.isEmpty then
    (if s.wakeClosed.fld rWhBoot 63 60 = 4 then s.wakeClosed.testsBegun else s.wakeClosed) else s := rfl

/-- From s to t what the end of a wake may change. -/
structure WakeOver (s t : State) : Prop where
  power : OnlyPower s t
  rails : t.pw.rails = s.pw.rails
  standby : t.pw.standby = s.pw.standby
  regs : ∀ o, o ≠ rPmCmd → o ≠ rWhBoot → t.reg o = s.reg o

theorem WakeOver.refl : WakeOver s s := ⟨OnlyRegs.refl.onlyPower, rfl, rfl, fun _ _ _ => rfl⟩

theorem WakeOver.trans (h : WakeOver s t) (g : WakeOver t u) : WakeOver s u :=
  ⟨h.power.trans g.power, g.rails.trans h.rails, g.standby.trans h.standby,
    fun o a b => (g.regs o a b).trans (h.regs o a b)⟩

theorem CmdOnly.wakeOver (h : CmdOnly s t) : WakeOver s t :=
  ⟨h.only.onlyPower, by rw [h.pw], by rw [h.pw], fun o other _ => h.regs o other⟩

theorem State.modPw_wakeOver (s : State) {f : Power → Power} (rails : (f s.pw).rails = s.pw.rails)
    (standby : (f s.pw).standby = s.pw.standby) : WakeOver s (s.modPw f) :=
  ⟨s.modPw_onlyPower f, rails, standby, fun _ _ _ => rfl⟩

theorem State.pmDone_wakeOver (s : State) {r : Nat} (lt : r < 8) : WakeOver s (s.pmDone r) := by
  obtain ⟨only, -, -, -⟩ := s.pmAnswered_leaves (busy := 0) (r := r) (by decide) lt
  rw [State.pmDone_eq]
  exact only.wakeOver

theorem State.wakeClosed_leaves (s : State) : WakeOver s s.wakeClosed := by
  have answered : WakeOver s (if s.pw.wakeCmd then s.pmDone (if s.pw.degraded then 4 else 0) else s) := by
    split
    · refine s.pmDone_wakeOver ?_
      split
      · decide
      · decide
    · exact .refl
  unfold State.wakeClosed
  generalize (if s.pw.wakeCmd then s.pmDone (if s.pw.degraded then 4 else 0) else s) = a at answered ⊢
  exact answered.trans (a.modPw_wakeOver rfl rfl)

theorem State.testsBegun_leaves (s : State) : WakeOver s s.testsBegun := by
  have only : OnlyRegs s (s.setFld rWhBoot 63 60 5) := s.setFld_onlyRegs ..
  have begun : WakeOver s (s.setFld rWhBoot 63 60 5) :=
    ⟨only.onlyPower, (congrArg (fun x : State => x.pw.rails) only.frame :),
      (congrArg (fun x : State => x.pw.standby) only.frame :), fun o _ other => State.reg_setFld_ne _ _ _ _ other⟩
  unfold State.testsBegun
  generalize s.setFld rWhBoot 63 60 5 = a at begun ⊢
  exact begun.trans (a.modPw_wakeOver rfl rfl)

theorem State.wakeOver_leaves (s : State) : WakeOver s s.wakeOver := by
  rw [State.wakeOver_eq]
  have closed := s.wakeClosed_leaves
  generalize s.wakeClosed = a at closed ⊢
  split
  · split
    · exact closed.trans a.testsBegun_leaves
    · exact closed
  · exact .refl

theorem WakeOver.rail (h : WakeOver s t) (d : Nat) : t.rail d = s.rail d := by rw [State.rail, h.rails, State.rail]

theorem WakeOver.fld (h : WakeOver s t) {o : Nat} (notCmd : o ≠ rPmCmd) (notBoot : o ≠ rWhBoot) (hi lo : Nat) :
    t.fld o hi lo = s.fld o hi lo := by rw [State.fld, h.regs o notCmd notBoot, State.fld]

/-! ### A domain that is good (R716, R717) -/

theorem State.firstSupply_leaves (s : State) (w : Nat) : sameMem s (s.firstSupply w)
    ∧ (s.firstSupply w).pw.rails = s.pw.rails := by
  have fresh : sameMem s s.freeNat.2 ∧ s.freeNat.2.pw = s.pw := ⟨⟨rfl, rfl, rfl, rfl, rfl, rfl⟩, rfl⟩
  unfold State.firstSupply State.setVarray
  generalize s.freeNat = r at fresh ⊢
  obtain ⟨n, a⟩ := r
  obtain ⟨mem, pw⟩ := fresh
  have given (f : Power → Power) : sameMem a (a.modPw f) ∧ (a.modPw f).pw = f a.pw := ⟨a.sameMem_modPw f, rfl⟩
  obtain ⟨mem', pw'⟩ := given (fun p => { p with vtherm := tabPut 600 p.vtherm w (600 + n % 251) })
  dsimp only at mem pw ⊢
  generalize a.modPw (fun p => { p with vtherm := tabPut 600 p.vtherm w (600 + n % 251) }) = b at mem' pw' ⊢
  have only : OnlyRegs b ((b.setFld (rPmWellStat w) 15 0 (600 + n % 251)).setFld (rPmWellStat w) 27 26 0) :=
    (b.setFld_onlyRegs ..).trans (State.setFld_onlyRegs ..)
  generalize (b.setFld (rPmWellStat w) 15 0 (600 + n % 251)).setFld (rPmWellStat w) 27 26 0 = c at only ⊢
  refine ⟨(mem.trans mem').trans only.sameMem, ?_⟩
  have kept : c.pw = b.pw := (congrArg State.pw only.frame :)
  rw [kept, pw', pw]

/-- A well whose domains are good. -/
def State.wellRaised (s : State) (w : Nat) : State := (s.firstSupply w).setWellPm w 1

/-- A well that waits for its test is tested. -/
def State.testQueued (s : State) (w : Nat) : State :=
  if s.fld rWhWellState (2 * w + 25) (2 * w + 24) = 2 then s.modPw (fun p => { p with testing := p.testing ++ [(w, 2)] }) else s

theorem State.wellUp_of (w : Nat) (good : (s.rail w).phase = 0 ∧ (s.rail (12 + w)).phase = 0) :
    s.wellUp w = (s.wellRaised w).testQueued w := if_pos good

theorem State.wellUp_of_not (w : Nat) (bad : ¬((s.rail w).phase = 0 ∧ (s.rail (12 + w)).phase = 0)) : s.wellUp w = s :=
  if_neg bad

theorem State.wellRaised_leaves (s : State) {w : Nat} (w_lt : w < 12) : sameMem s (s.wellRaised w)
    ∧ (s.wellRaised w).pw.rails = s.pw.rails ∧ (s.wellRaised w).wellPm w = 1 := by
  obtain ⟨mem, rails⟩ := s.firstSupply_leaves w
  unfold State.wellRaised
  generalize s.firstSupply w = a at mem rails ⊢
  obtain ⟨power, -, at_, pw⟩ := a.setWellPm_leaves w 1
  have pm := a.wellPm_setWellPm w_lt (by decide : (1 : Nat) < 8)
  generalize a.setWellPm w 1 = b at power pw pm ⊢
  exact ⟨mem.trans power.sameMem, by rw [pw, rails], pm⟩

theorem State.testQueued_leaves (s : State) (w : Nat) : sameMem s (s.testQueued w)
    ∧ (s.testQueued w).pw.rails = s.pw.rails ∧ ∀ v, (s.testQueued w).wellPm v = s.wellPm v := by
  unfold State.testQueued
  split
  · exact ⟨s.sameMem_modPw _, rfl, fun v => s.wellPm_modPw ..⟩
  · exact ⟨⟨rfl, rfl, rfl, rfl, rfl, rfl⟩, rfl, fun _ => rfl⟩

theorem State.wellUp_leaves (s : State) {w : Nat} (w_lt : w < 12) : sameMem s (s.wellUp w)
    ∧ (s.wellUp w).pw.rails = s.pw.rails
    ∧ ((s.rail w).phase = 0 → (s.rail (12 + w)).phase = 0 → (s.wellUp w).wellPm w = 1) := by
  by_cases good : (s.rail w).phase = 0 ∧ (s.rail (12 + w)).phase = 0
  · obtain ⟨mem, rails, pm⟩ := s.wellRaised_leaves w_lt
    rw [State.wellUp_of w good]
    generalize s.wellRaised w = a at mem rails pm ⊢
    obtain ⟨mem', rails', pm'⟩ := a.testQueued_leaves w
    exact ⟨mem.trans mem', rails'.trans rails, fun _ _ => (pm' w).trans pm⟩
  · rw [State.wellUp_of_not w good]
    exact ⟨⟨rfl, rfl, rfl, rfl, rfl, rfl⟩, rfl, fun a b => absurd ⟨a, b⟩ good⟩

/-- What a domain that is good brings up. -/
def State.domainUp (s : State) (d : Nat) : State :=
  if d < 24 then (s.wellUp (d % 12)).wakeOver else if d = 24 then (s.setFld rPmState 38 36 0).wakeOver else s.wakeOver

theorem State.domainUp_leaves (s : State) (d : Nat) : sameMem s (s.domainUp d) ∧ (s.domainUp d).pw.rails = s.pw.rails
    ∧ (d < 24 → (s.rail (d % 12)).phase = 0 → (s.rail (12 + d % 12)).phase = 0 → (s.domainUp d).wellPm (d % 12) = 1)
    ∧ (d = 24 → (s.domainUp d).devicePm = 0) := by
  unfold State.domainUp
  split
  next well =>
    obtain ⟨mem, rails, pm⟩ := s.wellUp_leaves (Nat.mod_lt d (by decide : 0 < 12))
    generalize s.wellUp (d % 12) = a at mem rails pm ⊢
    have woken := a.wakeOver_leaves
    generalize a.wakeOver = b at woken ⊢
    exact ⟨mem.trans woken.power.sameMem, woken.rails.trans rails,
      fun _ own other => (woken.fld (by decide) (by decide) ..).trans (pm own other), fun e => by omega⟩
  next common =>
    split
    next all =>
      have only : OnlyRegs s (s.setFld rPmState 38 36 0) := s.setFld_onlyRegs ..
      have device : (s.setFld rPmState 38 36 0).devicePm = 0 := State.fld_setFld _ _ _ _ _ (by decide) (by decide)
      generalize s.setFld rPmState 38 36 0 = a at only device ⊢
      have woken := a.wakeOver_leaves
      generalize a.wakeOver = b at woken ⊢
      exact ⟨only.sameMem.trans woken.power.sameMem, woken.rails.trans (congrArg (fun x : State => x.pw.rails) only.frame :),
        fun lt => absurd lt common, fun _ => (woken.fld (by decide) (by decide) ..).trans device⟩
    next not24 =>
      have woken := s.wakeOver_leaves
      exact ⟨woken.power.sameMem, woken.rails, fun lt => absurd lt common, fun e => absurd e not24⟩

theorem domainReady_raises (d : Fin 26) (ramps : (s.rail d).phase = 1)
    (stable : d.val < 12 ∨ 24 ≤ d.val ∨ s.fld (rPmRefStat 2) 63 61 = 0) :
    ∃ t, exec (.domainReady d) s = .next t ∧ (t.rail d).phase = 0 ∧ sameMem s t
      ∧ (d.val < 24 → (s.rail ((d.val + 12) % 24)).phase = 0 → t.wellPm (d.val % 12) = 1)
      ∧ (d.val = 24 → t.devicePm = 0) := by
  have run : exec (.domainReady d) s = .next ((s.setRail d {}).domainUp d) := by
    show execDomainReady d s = _
    unfold execDomainReady
    refine (need_of ?_ 717 _).trans rfl
    rw [ramps]
    simpa [or_assoc] using stable
  have power := s.setRail_onlyPower d {}
  have own := s.rail_setRail d {}
  have others {k : Nat} (other : k ≠ d) := s.rail_setRail_ne other {}
  generalize s.setRail d {} = a at run power own others
  obtain ⟨mem, rails, well, device⟩ := a.domainUp_leaves d
  have rail : (a.domainUp d).rail d = {} := by rw [State.rail, rails, ← State.rail, own]
  generalize a.domainUp d = b at run mem rail well device
  refine ⟨b, run, by rw [rail], power.sameMem.trans mem, fun lt other => well lt ?_ ?_, device⟩
  · by_cases low : d.val < 12
    · rw [Nat.mod_eq_of_lt low, own]
    · rw [others (by omega), show d.val % 12 = (d.val + 12) % 24 by omega]
      exact other
  · by_cases low : d.val < 12
    · rw [others (by omega), show 12 + d.val % 12 = (d.val + 12) % 24 by omega]
      exact other
    · rw [show 12 + d.val % 12 = d.val by omega, own]

end

end Sys2Proof.Machine
end

section
/-!
SUPPORT. Domains that miss power-good or the lock of their PLL (R720 to R723; O56).
-/

namespace Sys2Proof.Machine

section
variable {p : Nat → Prop} {s t u : State}

/-! ### What a failed domain leaves alone -/

theorem Quiet.powerVector (h : Quiet p s t) : Quiet p s t.powerVector := by
  unfold State.powerVector
  exact h.beside ⟨rfl, rfl, rfl, rfl, rfl, rfl⟩ rfl

theorem Quiet.setRail (h : Quiet p s t) {d : Nat} {r : Rail} : Quiet p s (t.setRail d r) := h.modPw

theorem Quiet.wakeOver (h : Quiet p s t) (notCmd : ¬p rPmCmd) (notBoot : ¬p rWhBoot) : Quiet p s t.wakeOver := by
  have closed := t.wakeOver_leaves
  exact h.trans ⟨closed.power.sameMem, fun o i => closed.regs o (fun e => notCmd (e ▸ i)) (fun e => notBoot (e ▸ i))⟩

theorem Quiet.failPackages (h : Quiet p s t) (far : clearOfFc p) (packages : ∀ k, ¬p (rRvPkgStat k)) {w : Nat} :
    Quiet p s (t.failPackages w) :=
  h.foldl _ fun _ _ _ => (Quiet.refl.setFld (packages _)).reportSelf far (by decide) (by decide)

theorem State.fld_loseWell_wellLost (s : State) {w : Nat} (w_lt : w < 12) (cause : Nat) :
    (s.loseWell w cause).fld rWhWellLost (4 * w + 3) (4 * w) = cause % 16 := by
  rw [State.fld, State.reg_loseWell, ← State.fld]
  unfold State.lossNoted
  generalize s.setFld rWhWellState (2 * w + 25) (2 * w + 24) 3 = a
  have far : clearOfFc (· = rWhWellLost) := fun o e => .inl (by rw [e]; decide)
  have rest := (((Quiet.refl (p := (· = rWhWellLost)) (s := a.setFld rWhWellLost (4 * w + 3) (4 * w) cause)).alert far
    (bit := 10)).report far (src := w) (cls := 7) (sev := 2) (rsrc := w) (runit := 145) (unit := 145) (detail := cause)
    (by omega) (by decide)).setFld (o := rPmState) (hi := 3 * w + 2) (lo := 3 * w) (v := 7) (by decide)
  rw [rest.fld rfl, State.fld_setFld _ _ _ _ _ (by omega) (by omega), show 4 * w + 3 - 4 * w + 1 = 4 by omega]
  rfl

/-! ### A domain marked failed (R721 to R723) -/

/-- The record of a domain that failed. -/
def failRecord (d cause : Nat) : Word :=
  setBits (setBits (setBits 0#64 55 52 (domainCode d)) 51 48 (if d < 24 ∧ 12 ≤ d then d - 12 else 0)) 47 46 cause

/-- A domain that failed, recorded and reported. -/
def State.domainNoted (s : State) (d cause : Nat) : State :=
  ((((s.latch rPmWakeFail (failRecord d cause)).reportSelf 19 0xA 2 (domainCode d) cause).powerVector.setRail d {}).modPw
    (fun p => { p with degraded := true }))

/-- The device waits for a cold reset. -/
def State.standsBy (s : State) : State :=
  (s.alert 5).modPw (fun p => { p with standby := true, staging := [], rails := [] })

/-- A self-test that waits for a well is answered with its loss. -/
def State.testLost (s : State) (w : Nat) : State :=
  if s.fld rWhWellState (2 * w + 25) (2 * w + 24) = 2 then (s.setFld rWhWellCmd 31 31 0).setFld rWhWellCmd 30 28 3 else s

/-- A well with its domains off. -/
def State.wellDark (s : State) (d w : Nat) : State :=
  ((((if 12 ≤ d then s.failPackages w else s).setRail w {}).setRail (12 + w) {}).setWellPm w 7).testLost w

theorem State.failDomain_of_common {d : Nat} (common : 24 ≤ d) (s : State) (cause : Nat) :
    s.failDomain d cause = (s.domainNoted d cause).standsBy := if_pos common

theorem State.failDomain_of_well {d : Nat} (well : d < 24) (s : State) (cause : Nat) : s.failDomain d cause
    = (((s.domainNoted d cause).wellDark d (d % 12)).loseWell (d % 12) 3).wakeOver := if_neg (by omega)

theorem clearOfFc_wakeFail : clearOfFc (· = rPmWakeFail) := fun o e => .inl (by rw [e]; decide)

theorem State.domainNoted_leaves (s : State) (d : Nat) {cause : Nat} (lt : cause < 4) :
    sameMem s (s.domainNoted d cause)
      ∧ (bitOf (s.reg rPmWakeFail) 63 = false → (s.domainNoted d cause).fld rPmWakeFail 47 46 = cause) := by
  have only := s.onlyRegs_latch rPmWakeFail (failRecord d cause)
  have first (empty : bitOf (s.reg rPmWakeFail) 63 = false) :
      (s.latch rPmWakeFail (failRecord d cause)).fld rPmWakeFail 47 46 = cause := by
    rw [State.fld_latch_of_first empty (by decide) (by decide), failRecord, bitsOf_setBits _ _ _ _ (by decide) (by decide)]
    exact Nat.mod_eq_of_lt lt
  unfold State.domainNoted
  generalize s.latch rPmWakeFail (failRecord d cause) = a at only first ⊢
  have rest := (((Quiet.refl (s := a)).reportSelf clearOfFc_wakeFail (src := 19) (cls := 0xA) (sev := 2)
    (unit := domainCode d) (detail := cause) (by decide) (by decide)).powerVector.setRail (d := d) (r := {})).modPw
    (f := fun p => { p with degraded := true })
  exact ⟨only.sameMem.trans rest.mem, fun empty => (rest.fld rfl ..).trans (first empty)⟩

theorem State.standsBy_leaves (s : State) : Quiet (· = rPmWakeFail) s s.standsBy ∧ s.standsBy.pw.standby = true :=
  ⟨(Quiet.refl.alert clearOfFc_wakeFail).modPw, rfl⟩

theorem State.wellDark_leaves (s : State) (d w : Nat) : Quiet (· = rPmWakeFail) s (s.wellDark d w) := by
  have packages : Quiet (· = rPmWakeFail) s (if 12 ≤ d then s.failPackages w else s) :=
    (Quiet.refl.failPackages clearOfFc_wakeFail fun k e => by simp only [rRvPkgStat, rPmWakeFail] at e; omega).ite .refl
  unfold State.wellDark State.testLost
  exact (((packages.setRail.setRail.setWellPm (by decide)).setFld (by decide)).setFld (by decide)).ite
    (packages.setRail.setRail.setWellPm (by decide))

theorem State.failDomain_leaves (s : State) (d : Nat) {cause : Nat} (lt : cause < 4) : sameMem s (s.failDomain d cause)
    ∧ (bitOf (s.reg rPmWakeFail) 63 = false → (s.failDomain d cause).fld rPmWakeFail 47 46 = cause)
    ∧ (d < 24 → (s.failDomain d cause).fld rWhWellState (2 * (d % 12) + 25) (2 * (d % 12) + 24) = 3
        ∧ (s.failDomain d cause).fld rWhWellLost (4 * (d % 12) + 3) (4 * (d % 12)) = 3)
    ∧ (24 ≤ d → (s.failDomain d cause).pw.standby = true) := by
  obtain ⟨mem, noted⟩ := s.domainNoted_leaves d lt
  by_cases common : 24 ≤ d
  · rw [State.failDomain_of_common common]
    generalize s.domainNoted d cause = a at mem noted ⊢
    obtain ⟨quiet, standby⟩ := a.standsBy_leaves
    exact ⟨mem.trans quiet.mem, fun empty => (quiet.fld rfl ..).trans (noted empty), fun well => by omega, fun _ => standby⟩
  · have w_lt : d % 12 < 12 := Nat.mod_lt d (by decide)
    rw [State.failDomain_of_well (by omega)]
    generalize d % 12 = w at w_lt ⊢
    generalize s.domainNoted d cause = a at mem noted ⊢
    have dark := a.wellDark_leaves d w
    generalize a.wellDark d w = b at dark ⊢
    have lost := dark.loseWell clearOfFc_wakeFail (w := w) (cause := 3) (by omega)
      fun o mem => by simp only [loseRegs, List.mem_cons, List.not_mem_nil, or_false] at mem; rcases mem with rfl | rfl | rfl <;> decide
    have state := b.wellState_loseWell w_lt 3
    have reason := b.fld_loseWell_wellLost w_lt 3
    generalize b.loseWell w 3 = c at lost state reason ⊢
    have closed := c.wakeOver_leaves
    have woken := lost.wakeOver (by decide) (by decide)
    generalize c.wakeOver = e at closed woken ⊢
    exact ⟨mem.trans woken.mem, fun empty => (woken.fld rfl ..).trans (noted empty),
      fun _ => ⟨(closed.fld (by decide) (by decide) ..).trans state, (closed.fld (by decide) (by decide) ..).trans reason⟩,
      fun le => absurd le common⟩

/-! ### Power-good and the PLL's lock (R720) -/

/-- The limits of a domain that ramps, with their causes. -/
theorem exec_railOff (d : Fin 26) (ramps : (s.rail d).phase = 1) (i : Instr) (lim cause : Nat)
    (which : i = .powerGoodTimeout d ∧ lim = 2000000 ∧ cause = 1
      ∨ i = .pllLockTimeout d ∧ lim = 200000 ∧ cause = 2 ∧ (d.val < 12 ∨ 24 ≤ d.val ∨ s.fld (rPmRefStat 2) 63 61 = 0))
    (late : (s.rail d).at_ + lim ≤ s.now) : exec i s = .next (s.railOff d cause) ∧ cause < 4 := by
  rcases which with ⟨rfl, rfl, rfl⟩ | ⟨rfl, rfl, rfl, stable⟩
  · refine ⟨?_, by decide⟩
    show execPowerGoodTimeout d s = _
    unfold execPowerGoodTimeout
    refine need_of ?_ 720 _
    rw [ramps, decide_eq_true late]
    rfl
  · refine ⟨?_, by decide⟩
    show execPllLockTimeout d s = _
    unfold execPllLockTimeout
    refine need_of ?_ 720 _
    rw [ramps, decide_eq_true late]
    simpa [or_assoc] using stable

theorem railOff_fails (d : Fin 26) (ramps : (s.rail d).phase = 1) (i : Instr) (lim cause : Nat)
    (which : i = .powerGoodTimeout d ∧ lim = 2000000 ∧ cause = 1
      ∨ i = .pllLockTimeout d ∧ lim = 200000 ∧ cause = 2 ∧ (d.val < 12 ∨ 24 ≤ d.val ∨ s.fld (rPmRefStat 2) 63 61 = 0))
    (late : (s.rail d).at_ + lim ≤ s.now) :
    ((s.rail d).second = false → ∃ t, exec i s = .next t
        ∧ t.rail d = { phase := 2, at_ := s.now, second := true } ∧ { t with pw := s.pw } = s)
      ∧ ((s.rail d).second = true → ∃ t, exec i s = .next t ∧ sameMem s t
        ∧ (bitOf (s.reg rPmWakeFail) 63 = false → t.fld rPmWakeFail 47 46 = cause)
        ∧ (d.val < 24 → t.fld rWhWellState (2 * (d.val % 12) + 25) (2 * (d.val % 12) + 24) = 3
            ∧ t.fld rWhWellLost (4 * (d.val % 12) + 3) (4 * (d.val % 12)) = 3)
        ∧ (24 ≤ d.val → t.pw.standby = true)) := by
  obtain ⟨run, lt⟩ := exec_railOff d ramps i lim cause which late
  refine ⟨fun fresh => ?_, fun second => ?_⟩
  · have off : s.railOff d cause = s.setRail d { phase := 2, at_ := s.now, second := true } := if_neg (by rw [fresh]; decide)
    exact ⟨_, by rw [run, off], State.rail_setRail .., rfl⟩
  · have failed : s.railOff d cause = s.failDomain d cause := if_pos second
    exact ⟨_, by rw [run, failed], s.failDomain_leaves d lt⟩

end

end Sys2Proof.Machine
end

section
/-!
SUPPORT. Reference clocks (R726 to R729, R733; O56).
-/

namespace Sys2Proof.Machine

section
variable {s t u : State}

/-- The status registers of the four references. -/
def isRefStat (o : Nat) : Prop := 0x20100 ≤ o ∧ o < 0x20120

theorem isRefStat_rPmRefStat (i : Fin 4) : isRefStat (rPmRefStat i) := by
  have lt := i.isLt
  simp only [isRefStat, rPmRefStat]
  omega

theorem isRefStat.belowFc {o : Nat} (h : isRefStat o) : belowFc o := by
  obtain ⟨le, lt⟩ := h
  simp only [Machine.belowFc, rFcSummary]
  omega

theorem clearOfFc_isRefStat : clearOfFc isRefStat := fun _ i => .inl i.belowFc

theorem not_isRefStat_rPmTbStatus : ¬isRefStat rPmTbStatus := fun h => absurd h.1 (by decide)

theorem not_isRefStat_rPortStatus (p : Nat) : ¬isRefStat (rPortStatus p) := fun h => not_belowFc_rPortStatus p h.belowFc

theorem Quiet.ofBelowFc (h : Quiet belowFc s t) : Quiet isRefStat s t := ⟨h.mem, fun o i => h.regs o i.belowFc⟩

/-! ### Fine and coarse advance (R733) -/

/-- The drift counted so far is the base of what follows. -/
def State.driftKept (s : State) : State :=
  s.modPw (fun p => { p with frac := 0, edges := 0, errBase := s.fld rPmTbStatus 31 0 + 31 })

theorem State.switchTime_eq (s : State) (coarse : Bool) : ∃ n, s.switchTime coarse
    = ((s.driftKept.setFld rPmTbStatus 63 63 1).setFld rPmTbStatus 62 62 coarse.toNat).setFld rPmTbStatus 31 0 n := ⟨_, rfl⟩

theorem State.driftKept_leaves (s : State) : OnlyPower s s.driftKept ∧ s.driftKept.regs = s.regs := ⟨s.modPw_onlyPower _, rfl⟩

/-- A switch changes PM_TB_STATUS and the power record. -/
theorem State.switchTime_leaves (s : State) (coarse : Bool) : OnlyPower s (s.switchTime coarse)
    ∧ (∀ o, o ≠ rPmTbStatus → (s.switchTime coarse).reg o = s.reg o)
    ∧ (s.switchTime coarse).fld rPmTbStatus 62 62 = coarse.toNat ∧ (s.switchTime coarse).fld rPmTbStatus 63 63 = 1 := by
  obtain ⟨n, e⟩ := s.switchTime_eq coarse
  obtain ⟨power, regs⟩ := s.driftKept_leaves
  rw [e]
  generalize s.driftKept = a at power regs ⊢
  have only : OnlyRegs a (((a.setFld rPmTbStatus 63 63 1).setFld rPmTbStatus 62 62 coarse.toNat).setFld rPmTbStatus 31 0 n) :=
    ((a.setFld_onlyRegs ..).trans (State.setFld_onlyRegs ..)).trans (State.setFld_onlyRegs ..)
  refine ⟨power.trans only.onlyPower, fun o other => ?_, ?_, ?_⟩
  · rw [State.reg_setFld_ne _ _ _ _ other, State.reg_setFld_ne _ _ _ _ other, State.reg_setFld_ne _ _ _ _ other,
      State.reg_of_regs regs]
  · rw [State.fld_setFld_of_apart _ (by decide) (by decide) (by decide) (.inr (by decide)),
      State.fld_setFld _ _ _ _ _ (by decide) (by decide)]
    cases coarse <;> rfl
  · rw [State.fld_setFld_of_apart _ (by decide) (by decide) (by decide) (.inr (by decide)),
      State.fld_setFld_of_apart _ (by decide) (by decide) (by decide) (.inr (by decide)),
      State.fld_setFld _ _ _ _ _ (by decide) (by decide)]
    rfl

theorem OnlyPower.quiet {p : Nat → Prop} (h : OnlyPower s t) {r : Nat} (regs : ∀ o, o ≠ r → t.reg o = s.reg o) (other : ¬p r) :
    Quiet p s t := ⟨h.sameMem, fun o i => regs o fun e => other (e ▸ i)⟩

/-! ### What a reference that stops takes with it (R727) -/

/-- From s to t what a reference that stops has changed. -/
structure RefStops (i : Nat) (s t : State) : Prop where
  quiet : Quiet isRefStat s t
  jobs : t.jobs = s.jobs
  host : i = 0 → t.hostDown.isSome = true
  ref100 : i = 2 → t.rvSelfRefresh = true ∧ t.fld rPmTbStatus 62 62 = 1 ∧ ∀ k < 36, t.rvState k ≠ 0
  ports : i = 3 → ∀ p < 9, t.portState p = if s.portState p = 0 then 0 else 4

theorem State.linkDown_leaves (s : State) (half : Nat) : Quiet isRefStat s (s.linkDown half)
    ∧ (s.linkDown half).jobs = s.jobs ∧ (half = 0 → (s.linkDown half).hostDown.isSome = true) := by
  unfold State.linkDown
  split
  · exact ⟨⟨⟨rfl, rfl, rfl, rfl, rfl, rfl⟩, fun _ _ => rfl⟩, rfl, fun _ => rfl⟩
  next other => exact ⟨⟨⟨rfl, rfl, rfl, rfl, rfl, rfl⟩, fun _ _ => rfl⟩, rfl, fun e => absurd e other⟩

theorem State.rvState_of_reg {k : Nat} (h : t.reg (rRvPkgStat k) = s.reg (rRvPkgStat k)) : t.rvState k = s.rvState k := by
  rw [State.rvState, State.fld, h, State.rvState, State.fld]

/-- Coarse advance, where the advance is fine. -/
def State.coarsened (s : State) : State := if s.fld rPmTbStatus 62 62 = 1 then s else s.switchTime true

theorem State.loseRef100_eq (s : State) : s.loseRef100 = s.packagesRest.refreshing.coarsened := rfl

theorem State.coarsened_leaves (s : State) : OnlyPower s s.coarsened
    ∧ (∀ o, o ≠ rPmTbStatus → s.coarsened.reg o = s.reg o) ∧ s.coarsened.fld rPmTbStatus 62 62 = 1 := by
  unfold State.coarsened
  split
  next coarse => exact ⟨OnlyRegs.refl.onlyPower, fun _ _ => rfl, coarse⟩
  next fine =>
    obtain ⟨power, regs, coarse, -⟩ := s.switchTime_leaves true
    exact ⟨power, regs, coarse⟩

theorem State.loseRef100_stops (s : State) : RefStops 2 s s.loseRef100 := by
  obtain ⟨only, quiet, -⟩ := s.packagesRest_leaves
  have rests {k : Nat} (k_lt : k < 36) := s.rvState_packagesRest k_lt
  rw [State.loseRef100_eq]
  generalize s.packagesRest = a at only quiet rests ⊢
  obtain ⟨regs, -, refresh, mem, jobs⟩ := a.refreshing_leaves
  generalize a.refreshing = b at regs refresh mem jobs ⊢
  obtain ⟨power, regs', coarse⟩ := b.coarsened_leaves
  generalize b.coarsened = c at power regs' coarse ⊢
  refine ⟨((quiet.ofBelowFc).beside mem regs).trans (power.quiet regs' not_isRefStat_rPmTbStatus),
    power.jobs.trans (jobs.trans only.jobs), nofun, fun _ => ⟨?_, coarse, fun k k_lt => ?_⟩, nofun⟩
  · exact (congrArg State.rvSelfRefresh power.frame :).trans refresh
  · rw [State.rvState_of_reg ((regs' _ (by simp only [rRvPkgStat, rPmTbStatus]; omega)).trans (State.reg_of_regs regs _))]
    exact rests k_lt

theorem State.refEffects_stops (s : State) (i : Fin 4) : RefStops i s (s.refEffects i) := by
  obtain ⟨quiet0, jobs0, down⟩ := s.linkDown_leaves 0
  obtain ⟨quiet1, jobs1, -⟩ := s.linkDown_leaves 1
  have ports := s.portsDown_leaves (st := 4) (by decide) (List.range 9) (fun p mem => List.mem_range.mp mem) List.nodup_range
  match i with
  | 0 => exact ⟨quiet0, jobs0, fun _ => down rfl, nofun, nofun⟩
  | 1 =>
    show RefStops 1 s (if s.bifurc then s.linkDown 1 else s)
    split
    · exact ⟨quiet1, jobs1, nofun, nofun, nofun⟩
    · exact ⟨.refl, rfl, nofun, nofun, nofun⟩
  | 2 => exact s.loseRef100_stops
  | 3 =>
    obtain ⟨quiet, -, jobs, states⟩ := ports
    exact ⟨quiet.ofBelowFc, jobs, nofun, nofun,
      fun _ p p_lt => (states p p_lt).trans (if_pos (List.mem_range.mpr p_lt))⟩

/-! ### Faults of a reference (R726 to R729) -/

/-- The time of a reference's fault. -/
def State.refTimed (s : State) (i now : Nat) : State := s.modPw (fun p => { p with refAt := tabPut 0 p.refAt i now })

theorem State.refTimed_leaves (s : State) (i now : Nat) : OnlyPower s (s.refTimed i now)
    ∧ (s.refTimed i now).regs = s.regs := ⟨s.modPw_onlyPower _, rfl⟩

/-- STATE and PPM of a reference. -/
def State.refSet (s : State) (i st ppm : Nat) : State := (s.setFld (rPmRefStat i) 63 61 st).setFld (rPmRefStat i) 47 32 ppm

theorem State.refSet_leaves (s : State) (i : Fin 4) {st ppm : Nat} (st_lt : st < 8) (ppm_lt : ppm < 65536) :
    OnlyRegs s (s.refSet i st ppm) ∧ (∀ p < 9, (s.refSet i st ppm).portState p = s.portState p)
      ∧ (s.refSet i st ppm).fld (rPmRefStat i) 63 61 = st ∧ (s.refSet i st ppm).fld (rPmRefStat i) 47 32 = ppm
      ∧ (s.refSet i st ppm).fld (rPmRefStat i) 31 16 = s.fld (rPmRefStat i) 31 16 := by
  have apart (p : Nat) : rPortStatus p ≠ rPmRefStat i := fun e =>
    not_isRefStat_rPortStatus p (e ▸ isRefStat_rPmRefStat i)
  unfold State.refSet
  refine ⟨(s.setFld_onlyRegs ..).trans (State.setFld_onlyRegs ..), fun p _ => State.portState_of_reg ?_, ?_, ?_, ?_⟩
  · rw [State.reg_setFld_ne _ _ _ _ (apart p), State.reg_setFld_ne _ _ _ _ (apart p)]
  · rw [State.fld_setFld_of_apart _ (by decide) (by decide) (by decide) (.inr (by decide)),
      State.fld_setFld _ _ _ _ _ (by decide) (by decide)]
    exact Nat.mod_eq_of_lt st_lt
  · rw [State.fld_setFld _ _ _ _ _ (by decide) (by decide)]
    exact Nat.mod_eq_of_lt ppm_lt
  · rw [State.fld_setFld_of_apart _ (by decide) (by decide) (by decide) (.inl (by decide)),
      State.fld_setFld_of_apart _ (by decide) (by decide) (by decide) (.inl (by decide))]

/-- A reference's fault, counted and reported. -/
def State.refCounted (s : State) (i ppm : Nat) : State :=
  (s.incFld (rPmRefStat i) 31 16 1).reportSelf 19 0x9 0 (16 + i) ppm

theorem State.refCounted_leaves (s : State) (i : Fin 4) (ppm : Nat) : OnlyNotes s (s.refCounted i ppm)
    ∧ (∀ p < 9, (s.refCounted i ppm).portState p = s.portState p)
    ∧ (s.refCounted i ppm).fld (rPmRefStat i) 63 61 = s.fld (rPmRefStat i) 63 61
    ∧ (s.refCounted i ppm).fld (rPmRefStat i) 47 32 = s.fld (rPmRefStat i) 47 32
    ∧ (s.refCounted i ppm).fld (rPmRefStat i) 31 16 = min (s.fld (rPmRefStat i) 31 16 + 1) 65535 := by
  have own := isRefStat_rPmRefStat i
  have apart (p : Nat) : rPortStatus p ≠ rPmRefStat i := fun e => not_isRefStat_rPortStatus p (e ▸ own)
  have only : OnlyRegs s (s.incFld (rPmRefStat i) 31 16 1) := s.incFld_onlyRegs ..
  have ports (p : Nat) (_ : p < 9) : (s.incFld (rPmRefStat i) 31 16 1).portState p = s.portState p :=
    State.portState_of_reg (State.reg_incFld_ne _ _ _ _ (apart p))
  have count : (s.incFld (rPmRefStat i) 31 16 1).fld (rPmRefStat i) 31 16 = min (s.fld (rPmRefStat i) 31 16 + 1) 65535 :=
    s.fld_incFld (by decide) (by decide)
  have state : (s.incFld (rPmRefStat i) 31 16 1).fld (rPmRefStat i) 63 61 = s.fld (rPmRefStat i) 63 61 :=
    s.fld_incFld_of_apart (by decide) (by decide) (by decide) (.inr (by decide))
  have drift : (s.incFld (rPmRefStat i) 31 16 1).fld (rPmRefStat i) 47 32 = s.fld (rPmRefStat i) 47 32 :=
    s.fld_incFld_of_apart (by decide) (by decide) (by decide) (.inr (by decide))
  unfold State.refCounted
  generalize s.incFld (rPmRefStat i) 31 16 1 = a at only ports count state drift ⊢
  have noted : OnlyNotes a (a.reportSelf 19 0x9 0 (16 + i) ppm) := a.reportSelf_onlyNotes ..
  have quiet : Quiet isRefStat a (a.reportSelf 19 0x9 0 (16 + i) ppm) :=
    Quiet.refl.reportSelf clearOfFc_isRefStat (by decide) (by decide)
  refine ⟨only.onlyNotes.trans noted, fun p p_lt => Eq.trans (State.portState_of_reg ?_) (ports p p_lt),
    (quiet.fld own ..).trans state, (quiet.fld own ..).trans drift, (quiet.fld own ..).trans count⟩
  exact Quiet.regs (p := (· = rPortStatus p)) (Quiet.refl.reportSelf (fun o e => .inr (by
    rw [e]
    unfold rPortStatus
    split <;> simp only [rTlStatus, rSpStatus] <;> omega)) (by decide) (by decide)) _ rfl

theorem State.refFault_eq (s : State) (i ppm : Nat) : s.refFault i ppm
    = (((s.refSet i 1 ppm).refCounted i ppm).refTimed i ((s.refSet i 1 ppm).refCounted i ppm).now).refEffects i := rfl

/-- Effects on a state whose reference's time is kept. -/
theorem State.refStopped_leaves (s : State) (i : Fin 4) (now : Nat) : RefStops i s ((s.refTimed i now).refEffects i) := by
  obtain ⟨power, regs⟩ := s.refTimed_leaves i now
  generalize s.refTimed i now = a at power regs ⊢
  obtain ⟨quiet, jobs, host, ref100, ports⟩ := a.refEffects_stops i
  refine ⟨(Quiet.refl.beside power.sameMem regs).trans quiet, jobs.trans power.jobs, host, ref100, fun e p p_lt => ?_⟩
  rw [ports e p p_lt, State.portState_of_reg (State.reg_of_regs regs _)]

theorem State.refFault_leaves (s : State) (i : Fin 4) {ppm : Nat} (ppm_lt : ppm < 65536) : sameMem s (s.refFault i ppm)
    ∧ (s.refFault i ppm).jobs = s.jobs ∧ (s.refFault i ppm).fld (rPmRefStat i) 63 61 = 1
    ∧ (s.refFault i ppm).fld (rPmRefStat i) 47 32 = ppm
    ∧ (s.refFault i ppm).fld (rPmRefStat i) 31 16 = min (s.fld (rPmRefStat i) 31 16 + 1) 65535
    ∧ (i.val = 0 → (s.refFault i ppm).hostDown.isSome = true)
    ∧ (i.val = 2 → (s.refFault i ppm).rvSelfRefresh = true ∧ (s.refFault i ppm).fld rPmTbStatus 62 62 = 1
        ∧ ∀ k < 36, (s.refFault i ppm).rvState k ≠ 0)
    ∧ (i.val = 3 → ∀ p < 9, (s.refFault i ppm).portState p = if s.portState p = 0 then 0 else 4) := by
  have own := isRefStat_rPmRefStat i
  obtain ⟨only, ports, state, drift, count⟩ := s.refSet_leaves i (by decide : (1 : Nat) < 8) ppm_lt
  rw [State.refFault_eq]
  generalize s.refSet i 1 ppm = a at only ports state drift count ⊢
  obtain ⟨noted, ports', state', drift', count'⟩ := a.refCounted_leaves i ppm
  generalize a.refCounted i ppm = b at noted ports' state' drift' count' ⊢
  have stops := b.refStopped_leaves i b.now
  generalize (b.refTimed i b.now).refEffects i = c at stops ⊢
  refine ⟨only.sameMem.trans (noted.sameMem.trans stops.quiet.mem), stops.jobs.trans (noted.jobs.trans only.jobs),
    (stops.quiet.fld own ..).trans (state'.trans state), (stops.quiet.fld own ..).trans (drift'.trans drift),
    (stops.quiet.fld own ..).trans (by rw [count', count]), stops.host, stops.ref100, fun e p p_lt => ?_⟩
  rw [stops.ports e p p_lt, ports' p p_lt, ports p p_lt]

theorem referenceFault_faults (i : Fin 4) (ppm : BitVec 16) (inUse : (s.devicePm ≠ 3 ∧ s.pw.w4 = false) ∨ s.pw.rails ≠ []) :
    ∃ t, exec (.referenceFault i ppm) s = .next t ∧ sameMem s t ∧ t.jobs = s.jobs
      ∧ t.fld (rPmRefStat i) 63 61 = 1 ∧ t.fld (rPmRefStat i) 47 32 = ppm.toNat
      ∧ t.fld (rPmRefStat i) 31 16 = min (s.fld (rPmRefStat i) 31 16 + 1) 65535
      ∧ (i.val = 0 → t.hostDown.isSome = true)
      ∧ (i.val = 2 → t.rvSelfRefresh = true ∧ t.fld rPmTbStatus 62 62 = 1 ∧ ∀ k < 36, t.rvState k ≠ 0)
      ∧ (i.val = 3 → ∀ p < 9, t.portState p = if s.portState p = 0 then 0 else 4) := by
  refine ⟨_, if_neg fun ⟨asleep, rails⟩ => ?_, s.refFault_leaves i ppm.isLt⟩
  rcases inUse with ⟨awake, up⟩ | ramps
  · rcases asleep with w3 | w4
    · exact awake w3
    · rw [up] at w4
      exact absurd w4 (by decide)
  · exact ramps (List.isEmpty_iff.mp rails)

theorem referenceFault_absent (i : Fin 4) (ppm : BitVec 16) (asleep : s.devicePm = 3 ∨ s.pw.w4 = true) (rails : s.pw.rails = []) :
    ∃ t, exec (.referenceFault i ppm) s = .next t ∧ sameMem s t ∧ t.fld (rPmRefStat i) 63 61 = 3
      ∧ t.fld (rPmRefStat i) 31 16 = s.fld (rPmRefStat i) 31 16 := by
  have own := isRefStat_rPmRefStat i
  have run : exec (.referenceFault i ppm) s = .next (((s.refSet i 3 ppm.toNat).refTimed i s.now).refEffects i) :=
    if_pos ⟨asleep, by rw [rails]; rfl⟩
  obtain ⟨only, -, state, -, count⟩ := s.refSet_leaves i (by decide : (3 : Nat) < 8) ppm.isLt
  generalize s.refSet i 3 ppm.toNat = a at run only state count
  have stops := a.refStopped_leaves i s.now
  exact ⟨_, run, only.sameMem.trans stops.quiet.mem, (stops.quiet.fld own ..).trans state,
    (stops.quiet.fld own ..).trans count⟩

theorem referenceAbsentTimeout_faults (i : Fin 4) (absent : s.fld (rPmRefStat i) 63 61 = 3) (device : s.devicePm = 0)
    (up : s.pw.w4 = false) (late : s.pw.wakeAt + 100000000 ≤ s.now) :
    ∃ t, exec (.referenceAbsentTimeout i) s = .next t ∧ sameMem s t ∧ t.fld (rPmRefStat i) 63 61 = 1 := by
  have run : exec (.referenceAbsentTimeout i) s = .next (s.refFault i (s.fld (rPmRefStat i) 47 32)) := by
    show execReferenceAbsentTimeout i s = _
    unfold execReferenceAbsentTimeout
    refine need_of ?_ 729 _
    rw [absent, device, up, decide_eq_true late]
    rfl
  obtain ⟨mem, -, state, -⟩ := s.refFault_leaves i (ppm := s.fld (rPmRefStat i) 47 32) (bitsOf_lt ..)
  exact ⟨_, run, mem, state⟩

/-! ### A reference good again (R728) -/

/-- Ports that stopped train. -/
def State.portsTrain (s : State) (l : List Nat) : State :=
  l.foldl (fun (t : State) p => if t.portState p = 4 then t.setFld (rPortStatus p) 31 29 1 else t) s

theorem State.portsTrain_leaves (l : List Nat) (small : ∀ p ∈ l, p < 9) (distinct : l.Nodup) (s : State) :
    Quiet isRefStat s (s.portsTrain l) ∧ ∀ p < 9, (s.portsTrain l).portState p
      = if p ∈ l then (if s.portState p = 4 then 1 else s.portState p) else s.portState p := by
  induction l generalizing s with
  | nil => exact ⟨.refl, fun p _ => (if_neg List.not_mem_nil).symm⟩
  | cons a l ih =>
    have a_lt := small a List.mem_cons_self
    obtain ⟨fresh, rest⟩ := List.nodup_cons.mp distinct
    have first : Quiet isRefStat s (if s.portState a = 4 then s.setFld (rPortStatus a) 31 29 1 else s)
        ∧ (if s.portState a = 4 then s.setFld (rPortStatus a) 31 29 1 else s).portState a
          = (if s.portState a = 4 then 1 else s.portState a)
        ∧ ∀ q < 9, q ≠ a →
          (if s.portState a = 4 then s.setFld (rPortStatus a) 31 29 1 else s).portState q = s.portState q := by
      split
      next stopped =>
        refine ⟨Quiet.refl.setFld (not_isRefStat_rPortStatus a), ?_, fun q q_lt other =>
          State.portState_of_reg (State.reg_setFld_ne _ _ _ _ (rPortStatus_ne a_lt q_lt other))⟩
        rw [State.portState_eq _ a_lt, State.fld_setFld _ _ _ _ _ (by decide) (by decide)]
        rfl
      next running => exact ⟨.refl, rfl, fun _ _ _ => rfl⟩
    have step : s.portsTrain (a :: l)
        = State.portsTrain (if s.portState a = 4 then s.setFld (rPortStatus a) 31 29 1 else s) l := rfl
    rw [step]
    obtain ⟨quiet, own, others⟩ := first
    generalize (if s.portState a = 4 then s.setFld (rPortStatus a) 31 29 1 else s) = b at quiet own others ⊢
    obtain ⟨quiet', states⟩ := ih (fun p m => small p (List.mem_cons_of_mem a m)) rest b
    refine ⟨quiet.trans quiet', fun p p_lt => (states p p_lt).trans ?_⟩
    by_cases same : p = a
    · subst same
      rw [if_neg fresh, if_pos List.mem_cons_self, own]
    · rw [others p p_lt same]
      simp [same]

/-- What a reference that is good again brings back. -/
def State.refResumed (s : State) (i : Nat) : State :=
  if i = 2 then s.switchTime false else if i = 3 then s.portsTrain (List.range 9) else s

theorem State.refResumed_leaves (s : State) (i : Nat) : Quiet isRefStat s (s.refResumed i)
    ∧ (i = 2 → (s.refResumed i).fld rPmTbStatus 62 62 = 0 ∧ (s.refResumed i).fld rPmTbStatus 63 63 = 1)
    ∧ (i = 3 → ∀ p < 9, (s.refResumed i).portState p = if s.portState p = 4 then 1 else s.portState p) := by
  unfold State.refResumed
  split
  next ref100 =>
    obtain ⟨power, regs, fine, noted⟩ := s.switchTime_leaves false
    exact ⟨power.quiet regs not_isRefStat_rPmTbStatus, fun _ => ⟨fine, noted⟩, fun e => by omega⟩
  next not2 =>
    split
    next ports =>
      obtain ⟨quiet, states⟩ := s.portsTrain_leaves (List.range 9) (fun p mem => List.mem_range.mp mem) List.nodup_range
      exact ⟨quiet, fun e => absurd e not2, fun _ p p_lt => (states p p_lt).trans (if_pos (List.mem_range.mpr p_lt))⟩
    next not3 => exact ⟨.refl, fun e => absurd e not2, fun e => absurd e not3⟩

theorem referenceRecovery_resumes (i : Fin 4) (bad : s.fld (rPmRefStat i) 63 61 ≠ 0)
    (late : tabGet 0 s.pw.refAt i.val + 1000000 ≤ s.now) :
    ∃ t, exec (.referenceRecovery i) s = .next t ∧ sameMem s t ∧ t.fld (rPmRefStat i) 63 61 = 0
      ∧ (i.val = 2 → t.fld rPmTbStatus 62 62 = 0 ∧ t.fld rPmTbStatus 63 63 = 1)
      ∧ (i.val = 3 → ∀ p < 9, t.portState p = if s.portState p = 4 then 1 else s.portState p) := by
  have own := isRefStat_rPmRefStat i
  have run : exec (.referenceRecovery i) s = .next ((s.setFld (rPmRefStat i) 63 61 0).refResumed i) := by
    show execReferenceRecovery i s = _
    unfold execReferenceRecovery
    refine (need_of ?_ 728 _).trans rfl
    rw [decide_eq_true late]
    simpa using bad
  have only : OnlyRegs s (s.setFld (rPmRefStat i) 63 61 0) := s.setFld_onlyRegs ..
  have good : (s.setFld (rPmRefStat i) 63 61 0).fld (rPmRefStat i) 63 61 = 0 :=
    (State.fld_setFld _ _ _ _ _ (by decide) (by decide)).trans (Nat.zero_mod _)
  have ports (p : Nat) : (s.setFld (rPmRefStat i) 63 61 0).portState p = s.portState p :=
    State.portState_of_reg (State.reg_setFld_ne _ _ _ _ fun e => not_isRefStat_rPortStatus p (e ▸ own))
  generalize s.setFld (rPmRefStat i) 63 61 0 = a at run only good ports
  obtain ⟨quiet, fine, trains⟩ := a.refResumed_leaves i
  exact ⟨_, run, only.sameMem.trans quiet.mem, (quiet.fld own ..).trans good, fine, fun e p p_lt => by
    rw [trains e p p_lt, ports p]⟩

end

end Sys2Proof.Machine
end

section
/-!
SUPPORT. Power states, wakes and references (R703 to R736; O56).
-/

namespace Sys2Proof.Machine

/-- Settles O56. -/
theorem powerStatesAreEnteredAndLeft : Obligations.PowerStatesAreEnteredAndLeft := by
  refine ⟨fun s => ⟨fun i v target wells ok op go named => ⟨fun busy => ?_, pmEntry_answers i v target wells ok op go named⟩,
      pmCmdWake_answers s⟩,
    fun s => ⟨w1IdleEntry_enters, w2AutoEntry_begins, w3AutoEntry_begins, entryComplete_ends, entryDrainTimeout_gives_up⟩,
    fun s => ⟨wakeEvent_wakes, wakeStagingWellStart_ramps,
      fun d ramps => ⟨domainReady_raises d ramps, railOff_fails d ramps⟩, wakeRetry_ramps⟩,
    fun s i => ⟨referenceFault_faults i, referenceFault_absent i, referenceRecovery_resumes i,
      referenceAbsentTimeout_faults i, rfl⟩⟩
  obtain ⟨-, f, run, -⟩ := exec_pmOp op
  exact run.trans (State.pmCmd_of_busy go named busy)

end Sys2Proof.Machine
end

section
/-!
SUPPORT. What the count of heartbeat losses shares its register with (R498, R688; O55).
-/

namespace Sys2Proof.Machine

/-- A package number past the last one, whose status would lie at TL_PAIR_STAT. -/
def aliasPkg : Nat := 0x3FE4

/-- A root table in that package's part of the reservoir map. -/
def aliasRoot : Nat := 18480 * 2 ^ 30

/-- An open job whose tables lie past the reservoir's end, in that package. -/
def aliasJob : Job :=
  { queue := 0, gen := 0, seq := 1, prio := 0, psize := 1, arg := 0, root := aliasRoot, phase := .running, order := 1 }

/-- A member in SOLO_LINK whose link is back, and whose heartbeat has just fallen silent for the second time, with such a
job, a checkpoint of it, and an evacuation that names the package. -/
def aliasedTwin : State :=
  let s : State := { State.reset with
    pair := { State.reset.pair with linkDownAt := none }
    jobs := [aliasJob]
    saved := [{ job := 0, area := 2 ^ 21 }]
    evacs := [{ pkg := aliasPkg, donor := 0, active := [] }] }
  (((s.setReg rRvPlace 0x80000001#64).setFld rTlPairStatus 63 60 4).setFld rTlPairStatus 59 59 1).setFld rTlPairStat 47 32 1

theorem rRvPkgStat_aliasPkg : rRvPkgStat aliasPkg = rTlPairStat := rfl

/-- The member may return to SYNCING: the link is present, and no byte of the checkpoint has to wait. -/
theorem aliasedTwin_may_sync : aliasedTwin.pair.suspended = none ∧ aliasedTwin.linkPresent = true
    ∧ aliasedTwin.pairState = 4 ∧ aliasedTwin.syncWaits = none := by decide +kernel

/-- The judgement counts the loss, 2 of them now, which reads as EVACUATING in the alias: the checkpoint's tables wait for
that evacuation, and the member stays. -/
theorem aliasedTwin_waits : aliasedTwin.judgeBits.rvState aliasPkg = 2 ∧ aliasedTwin.judgeBits.syncWaits = some 499
    ∧ aliasedTwin.judge.pairState = 4 := by decide +kernel

/-- Refutes O55: the count of losses that a judgement raises shares its register with the status of a package past the last
one; a job whose tables would lie there has its checkpoint wait after the count, so that the member whose link is back does
not return to SYNCING. -/
theorem not_pairTakesOverAndAnswers : ¬ Obligations.PairTakesOverAndAnswers := by
  intro h
  obtain ⟨judges, -⟩ := h
  obtain ⟨-, -, -, -, -, judged⟩ := judges aliasedTwin
  obtain ⟨alone, link, solo, ready⟩ := aliasedTwin_may_sync
  obtain ⟨-, -, state⟩ := judged alone
  obtain ⟨-, -, stays⟩ := aliasedTwin_waits
  have syncs := state (by rw [solo]; decide) (by rw [solo]; decide)
  rw [if_pos link, if_pos ⟨by rw [solo], ready⟩, stays] at syncs
  exact absurd syncs (by decide)

end Sys2Proof.Machine
end
